-- ==== Sys2Proof/Word.lean ====
section
/-! DEFINITION. The words the module's registers, cells and buses carry, and their plainest arithmetic. -/
namespace Sys2Proof

/-- A 32-bit register word (13 R300). -/
abbrev Word := BitVec 32
/-- The native 24-bit word of point values, logic-core registers and loops (00 R3). -/
abbrev V24 := BitVec 24
/-- One byte. -/
abbrev Byte := BitVec 8
/-- A 12-bit tenant identifier (02 R26). -/
abbrev Tenant := BitVec 12
/-- A 64-bit unique or serial number. -/
abbrev Uid := BitVec 64

/-- A Bool as a bit. -/
def bit (b : Bool) : Nat := if b then 1 else 0

end Sys2Proof
end

