-- ==== Sys2Proof/Machine/Types.lean ====
section
/-! DEFINITION. The plain data that commands and the state share: identifiers, point cells and descriptors, frames,
events, and the content of a configuration image. -/
namespace Sys2Proof

/-! ### Identifiers -/

/-- A die, 0 to 7 (01 R5). -/
abbrev Die := Fin 8
/-- A module-wide branch port, 16 × die + local port (01 R6). -/
abbrev Port := Fin 128
/-- A module point number (02 Table 02.4). -/
abbrev Mpn := Fin 262144
/-- A logic core of a die (07). -/
abbrev CoreNo := Fin 4
/-- A loop slot of a die (08 R160). -/
abbrev LoopNo := Fin 8192
/-- A loop test unit (08 R179). -/
abbrev UnitNo := Fin 4
/-- A universal 24 V channel (09). -/
abbrev Chan := Fin 64
/-- A motion channel (09 R203). -/
abbrev MotNo := Fin 8
/-- A metering input (10 R211). -/
abbrev MInput := Fin 54
/-- A DMA channel of a die (11 R243). -/
abbrev DmaNo := Fin 16
/-- A host mailbox session slot (13 R289). -/
abbrev SlotNo := Fin 32
/-- A party that sends requests: session slots 0 to 31, and 32 for the service session (17 R379). -/
abbrev Sender := Fin 33
/-- A trunk port: false is A on die 0, true is B on die 1 (05 R94). -/
abbrev TrunkPort := Bool
/-- A lane of a trunk port. -/
abbrev Lane := Fin 2

/-- The order code's member (00 R2). -/
inductive Member where
  | tf2 | tf4 | tf8
  deriving DecidableEq, Repr

/-! ### Points -/

/-- QUAL of a cell (02 Table 02.1). -/
inductive Qual where
  | good | uncertain | bad | noSource
  deriving DecidableEq, Repr

/-- SRC of a cell (02 Table 02.1). -/
inductive Src where
  | field | logic | loop | host
  deriving DecidableEq, Repr

/-- A point cell (02 R17); an unconfigured cell reads 0xC000_0000 (02 R18). -/
structure Cell where
  qual   : Qual := .noSource
  forced : Bool := false
  alarm  : Bool := false
  stale  : Bool := false
  chg    : Bool := false
  src    : Src := .field
  value  : V24 := 0
  deriving DecidableEq, Repr

/-- One of the two alarm limits of a descriptor (02 Table 02.3). -/
structure Limit where
  en    : Bool := false
  value : V24 := 0
  deriving DecidableEq, Repr

/-- A point descriptor (02 R22). `reserved` says whether a reserved bit of the 64 bytes is set. -/
structure Desc where
  ptype    : BitVec 4 := 0
  tenant   : Tenant := 0
  bkind    : BitVec 8 := 0
  cn       : Bool := false
  fbk      : Bool := false
  tfa      : Bool := false
  shr      : Bool := false
  bref     : Word := 0
  exp      : BitVec 5 := 0
  unit     : BitVec 16 := 0
  deadband : V24 := 0
  staleT   : BitVec 16 := 0
  trendV   : Bool := false
  trend    : BitVec 19 := 0
  almLo    : Limit := {}
  almHi    : Limit := {}
  hyst     : V24 := 0
  fallback : V24 := 0
  label    : List Byte := []
  reserved : Bool := false
  deriving DecidableEq, Repr

/-! ### Frames of the branch line -/

/-- One channel value of a REPORT (03 R50). -/
structure ChanVal where
  qual  : Qual := .good
  value : V24 := 0
  deriving DecidableEq, Repr

/-- An output sub-frame of a beacon (04 Table 04.1). -/
structure SubFrame where
  tgt   : Byte := 0
  ch    : BitVec 6 := 0
  value : V24 := 0
  deriving DecidableEq, Repr

/-- The BEACON payload (04 R73). -/
structure Beacon where
  cyc8      : Byte := 0
  dormant   : Bool := false
  claimOpen : Bool := false
  rollcall  : Bool := false
  wake      : Bool := false
  nextMs    : Nat := 0
  rcf       : Nat := 0
  rcn       : Nat := 0
  subs      : List SubFrame := []
  deriving DecidableEq, Repr

/-- The plan an ASSIGN gives a node (04 Table 04.2). -/
structure Plan where
  addr      : Byte := 0
  fbt       : Nat := 30
  slotStart : Nat := 0
  every     : Nat := 1
  phase     : Nat := 0
  deriving DecidableEq, Repr

/-- A door decision (15 Table 15.8, DECIDE). -/
structure Decide where
  seq    : Byte := 0
  unlock : Bool := false
  reason : Nat := 0
  time   : Nat := 0
  ind    : Byte := 0     -- indication
  deriving DecidableEq, Repr

/-- An inner message of a SECURE frame (15 Table 15.8). -/
inductive Inner where
  | event (seq ch : Byte) (qual : Qual) (value : V24)
  | command (seq op : Byte) (args : List Byte)
  | response (seq op status : Byte) (data : List Byte)
  | read (reader method : Byte) (cid : Uid) (seq : Byte)
  | decide (d : Decide)
  | cache (version chunk chunks : Nat) (data : List Byte)
  | time (utcMs : Nat) (offset : Int)
  | floors (station validity : Nat) (map : BitVec 256)
  | offline (cid : Uid) (utcMs : Nat) (unlocked : Bool) (reader : Byte)
  | rekey (kgen : Byte) (key : BitVec 256)
  deriving DecidableEq, Repr

/-- A SECURE frame as it arrives (15 Table 15.7): its TC byte, KGEN, DIR and CTR, the encrypted DATA with the TAG behind it, and the
message that a receiver with the right key decrypts from them. -/
structure SecureFrame where
  tc    : Byte := 0x48
  kgen  : Byte := 0
  dir   : Byte := 0
  ctr   : Nat := 0
  body  : List Byte := []
  inner : Inner
  deriving DecidableEq, Repr

/-- What a frame of the controller carries: one constructor for each type it sends (03 Table 03.3). -/
inductive Payload where
  | beacon (b : Beacon)
  | output (first : Nat) (values : List V24)
  | command (seq op : Byte) (args : List Byte)
  | claim (round nslot : Byte) (slotbt : Nat)
  | assign (uid : Uid) (plan : Plan)
  | secure (kgen : Byte) (ctr : Nat) (inner : Inner) (body : List Byte)
  deriving DecidableEq, Repr

/-- A frame of the controller waiting in, or leaving, one of its queues. -/
structure TxFrame where
  dst     : Byte := 0
  cls     : Nat := 0
  payload : Payload
  coll    : Nat := 0     -- collisions met so far (03 R59)
  held    : Bool := false -- counted in BRP_GATE_OVERRUN for the hold in force (03 R56)
  buf     : Nat := 0     -- bytes buffered when it was started (03 R63)
  deriving DecidableEq, Repr

/-- A fault that an engine's access to its own buffers meets: a translation fault with its cause, or an integrity fault of a
line (11 R234, R241, Table 11.6). The spec does not place those buffers, so the outcome comes with the command. -/
inductive EngFault where
  | xlate (cause : BitVec 3) (pin : Bool) (va : BitVec 36)
  | integ (line : Nat)
  deriving DecidableEq, Repr

/-- How Exyan maps a page: the context, the device-virtual address, W, PIN and WP, and where the level-1 table (address [39:18])
and the level-2 table (address [39:12]) lie (11 R239, Table 11.4). -/
structure PageMap where
  ctx  : BitVec 16 := 0
  va   : BitVec 36 := 0
  w    : Bool := false
  pin  : Bool := false
  wp   : Bool := false
  en   : Bool := true
  v    : Bool := true
  leaf : Bool := false
  root : BitVec 22 := 0
  l2   : BitVec 28 := 0
  inv  : BitVec 2 := 0
  deriving DecidableEq, Repr

/-- Which access of an element a failure of the DRAM or graft interface meets: its index entry, its source or its destination
(11 R249). A descriptor read is one access, whatever is named. -/
inductive DmaAccess where
  | index | read | write
  deriving DecidableEq, Repr

/-- What Exyan sets a channel of its own to before it starts it: priority level, retries, context and first descriptor
(11 R243, Table 11.13). -/
structure DmaSetup where
  prio  : BitVec 2 := 0
  retry : BitVec 3 := 0
  ctx   : BitVec 16 := 0
  desc  : BitVec 36 := 0
  deriving DecidableEq, Repr

/-- Why a received branch frame does not reach the module: the checks of Table 03.5 that discard it, a fault of the receive
DMA, or a frame that is accepted and counted but not passed on (R51): its DST is neither 0 nor 255, or it is of a TYPE that
no node sends to the controller. -/
inductive RxFail where
  | codeViolation | alignment | crc | aborted | reservedType | overrun | access (f : EngFault)
  | notPassed (dst : Byte) (type len : Nat)
  deriving DecidableEq, Repr

/-- Why a frame in progress cannot be completed: its buffer runs dry (R63), or its DMA read meets a fault (R64). -/
inductive TxFail where
  | dry | access (f : EngFault)
  deriving DecidableEq, Repr

/-- The kind of a GCL window (03 Table 03.11). -/
inductive Window where
  | beacon | scheduled | open | reserved
  deriving DecidableEq, Repr

/-- A gate control list entry of a branch port (03 Table 03.11). -/
structure GclEntry where
  duration : V24 := 0
  kind     : Window := .beacon
  gates    : Byte := 0
  deriving DecidableEq, Repr

/-- A gate control list entry of a trunk port (05 Table 05.10). -/
structure TrkEntry where
  duration : BitVec 18 := 0
  gates    : Byte := 0
  deriving DecidableEq, Repr

/-! ### Trunk -/

/-- The fields of a superframe header that the receiver uses (05 Table 05.2). -/
structure TrkHeader where
  sfn       : Nat := 0
  srcId     : Byte := 255
  wrapped   : Bool := false
  relayOnly : Bool := false
  dupId     : Bool := false
  farId     : Byte := 255
  tmPrio    : Byte := 0
  tmId      : Byte := 0
  tmHops    : Nat := 0
  tmValid   : Bool := false
  tmSeq     : Nat := 0
  meas      : Int := 0
  measSfn   : Nat := 0
  topoSeq   : Nat := 0
  fecCw     : Nat := 0     -- codewords and symbols corrected, and codewords uncorrectable, in the superframe before it
  fecSym    : Nat := 0
  fecBad    : Nat := 0
  deriving DecidableEq, Repr

/-- How the payload CRC of a received trunk frame stands (05 R106). -/
inductive PayCrc where
  | good | wrong | inverted
  deriving DecidableEq, Repr

/-- A trunk frame header (05 Table 05.4). -/
structure TrkFrame where
  dst    : Byte := 0
  src    : Byte := 0
  cls    : Nat := 0
  hops   : Nat := 0
  tenant : Tenant := 0
  len    : Nat := 0
  seq    : Nat := 0
  deriving DecidableEq, Repr

/-- Data that an engine hands to the trunk for a class: the change stream and trends, access events, replicas, waveforms (05
Table 05.5). -/
structure TrkData where
  cls    : Nat := 0
  tenant : Tenant := 0
  data   : List Byte := []
  deriving DecidableEq, Repr

/-- A station's topology broadcast (05 R112). -/
structure Topology where
  id       : Byte := 0
  serial   : Uid := 0
  seq      : Nat := 0
  neighA   : Byte := 255
  neighB   : Byte := 255
  wrapped  : Bool := false
  relay    : Bool := false
  dupId    : Bool := false
  deriving DecidableEq, Repr

/-- A UTC mapping broadcast (16 R361). -/
structure UtcMap where
  baseSfn : Nat := 0
  baseMs  : Nat := 0
  offset  : Option Int := none
  src     : Nat := 0
  valid   : Bool := false
  deriving DecidableEq, Repr

/-! ### Events -/

/-- A report of an event: the fields that form its key and its record (12 R268, R272). -/
structure Event where
  tenant : Tenant := 0
  sev    : Nat := 0
  die    : Nat := 0
  block  : Nat := 0
  inst   : Nat := 0
  code   : Nat := 0
  data   : List Word := []
  deriving DecidableEq, Repr

/-! ### The configuration image -/

/-- A tenant of the tenant table with its history quota in segments (02 R26, 12 R262). -/
structure TenantCfg where
  id    : Tenant := 0
  quota : Nat := 0
  deriving DecidableEq, Repr

/-- A node bound to an address of a port (04 R77), and whether it is secured (15 R342). -/
structure NodeCfg where
  port    : Nat := 0
  addr    : Nat := 0
  uid     : Uid := 0
  cls     : Nat := 0
  plan    : Plan := {}
  outputs : List (Nat × Nat) := []   -- output channel, MPN of the point it carries
  sticky  : List Nat := []           -- output channels that are door locks or mover targets (04 R85)
  secured : Bool := false
  key     : Option (BitVec 256) := none  -- the session key of generation 0 that the installer has given the node (15 R325)
  deriving DecidableEq, Repr

/-- The schedule of a branch port and its slots of address 0 (03 R54, R70): start and length in bit-times. -/
structure PortCfg where
  port    : Nat := 0
  cycleMs : Nat := 25
  gcl     : List GclEntry := []
  slots0  : List (Nat × Nat) := []
  deriving DecidableEq, Repr

/-- The start mode of a die's logic (06 Table 06.1). -/
inductive StartMode where
  | stop | cold | warm | warmElseCold
  deriving DecidableEq, Repr

/-- A task of a logic image (06 R121, R122; 07 R146, R153). -/
structure Task where
  no         : Nat := 0
  tenant     : Tenant := 0
  core       : Nat := 0
  div        : Nat := 1
  phase      : Nat := 0
  fallback   : Bool := false
  entry      : V24 := 0
  spillBase  : Nat := 0x800000
  spillLimit : Nat := 0x800000
  inputs     : List Nat := []
  outputs    : List Nat := []
  constLo    : Nat := 0      -- the task's entries of the constant table, constLo to constHi − 1 (06 R135)
  constHi    : Nat := 0
  deriving DecidableEq, Repr

/-- A tenant's partition of variable memory, word addresses lo to hi − 1 (06 R121). -/
structure Partition where
  tenant : Tenant := 0
  lo     : Nat := 0
  hi     : Nat := 0
  deriving DecidableEq, Repr

/-- A die's logic image (06 R121, R122). The tasks of a core stand in its run order. -/
structure LogicImage where
  imageId    : Word := 0
  retainId   : Word := 0
  start      : StartMode := .warmElseCold
  tasks      : List Task := []
  partitions : List Partition := []
  consts     : List V24 := []
  initVars   : List (Nat × V24) := []
  retained   : List Nat := []
  codeLen    : Nat := 0
  deriving DecidableEq, Repr

/-- A section of a coefficient bank (08 Table 08.12). -/
structure Section where
  b0  : V24 := 0
  b1  : V24 := 0
  b2  : V24 := 0
  a1  : V24 := 0
  a2  : V24 := 0
  slo : V24 := 0
  shi : V24 := 0
  deriving DecidableEq, Repr

/-- A coefficient bank (08 R177). -/
structure Bank where
  nsec     : BitVec 4 := 0
  integ    : Byte := 0
  dir      : Byte := 0
  k        : V24 := 0
  gexp     : BitVec 5 := 0
  sections : List Section := []
  deriving DecidableEq, Repr

/-- Where a loop takes PV from (08 Table 08.2). -/
inductive PvSource where
  | cell (mpn : Nat) | ain (k : Nat) | slot (n : Nat)
  deriving DecidableEq, Repr

/-- Where a loop takes SP from (08 Table 08.2). -/
inductive SpSource where
  | cell (mpn : Nat) | const | outer (n : Nat)
  deriving DecidableEq, Repr

/-- Where a loop's output goes (08 Table 08.2); `none` feeds an inner set-point only. -/
inductive LoopDst where
  | cell (mpn : Nat) | aout (k : Nat) (mirror : Option Nat) | none
  deriving DecidableEq, Repr

/-- A loop slot of the image (08 Table 08.1). -/
structure LoopCfg where
  die    : Nat := 0
  slot   : Nat := 0
  tenant : Tenant := 0
  loc    : Bool := false
  outer  : Bool := false
  div    : Nat := 1
  phase  : Nat := 0
  pv     : PvSource := .cell 0
  sp     : SpSource := .const
  dst    : LoopDst := .none
  n      : Nat := 1
  prot   : Bool := false
  holdf  : Bool := false
  spc    : V24 := 0
  omin   : V24 := 0
  omax   : V24 := 0
  rate   : V24 := 0
  bankA  : Bank := {}
  bankB  : Bank := {}
  deriving DecidableEq, Repr

/-- The safe state of a 24 V channel (09 Table 09.8). -/
inductive SafeState where
  | off | on | hold
  deriving DecidableEq, Repr

/-- A universal 24 V channel (09 Table 09.8). -/
structure ChanCfg where
  ch     : Nat := 0
  tenant : Tenant := 0
  out    : Bool := false
  pulse  : Bool := false
  safe   : SafeState := .off
  retry  : Bool := false
  stEn   : Bool := false
  blank  : Nat := 0
  retryT : Nat := 0
  thr    : Nat := 0x6E
  hyst   : Nat := 0x0A
  fsamp  : Nat := 100
  ftop   : Nat := 5
  driver : Option Nat := none
  deriving DecidableEq, Repr

/-- An analog input (09 R201). -/
structure AinCfg where
  k       : Nat := 0
  tenant  : Tenant := 0
  current : Bool := false
  deriving DecidableEq, Repr

/-- An analog output (09 Table 09.7, FIO_AO). -/
structure AoutCfg where
  k      : Nat := 0
  tenant : Tenant := 0
  hold   : Bool := false
  safe   : V24 := 0
  loop   : Bool := false
  driver : Option Nat := none
  deriving DecidableEq, Repr

/-- A motion channel (09 Table 09.9). -/
structure MotCfg where
  m        : Nat := 0
  tenant   : Tenant := 0
  pulse    : Bool := false
  dt       : Nat := 5
  moveTmo  : Nat := 1
  coastMax : Nat := 0
  target   : Option Nat := none
  deriving DecidableEq, Repr

/-- A voltage set (10 Table 10.8). -/
structure VsetCfg where
  set     : Nat := 0
  nomf60  : Bool := false
  nominal : Nat := 0
  deriving DecidableEq, Repr

/-- A metering input (10 Table 10.9); `inRating` is In in mA (10 R221). -/
structure MInputCfg where
  input    : Nat := 0
  sensor   : Nat := 0
  fc       : Nat := 4
  ratio    : Word := 0
  inRating : Nat := 0
  deriving DecidableEq, Repr

/-- A metering circuit (10 R214). -/
structure CircuitCfg where
  k      : Nat := 0
  tenant : Tenant := 0
  three  : Bool := false
  set    : Nat := 0
  phase  : Nat := 0
  first  : Nat := 0
  deriving DecidableEq, Repr

/-- A trend rule (12 R263). -/
structure TrendCfg where
  series   : Nat := 0
  tenant   : Tenant := 0
  onChange : Bool := false
  periodic : Bool := false
  tdb      : V24 := 0
  period   : Nat := 1
  deriving DecidableEq, Repr

/-- A watermark slot of the image (13 R306). -/
structure WmkCfg where
  slot : Nat := 0
  en   : Bool := false
  thr  : V24 := 0
  hyst : V24 := 0
  ten  : Tenant := 0xFFF
  deriving DecidableEq, Repr

/-- The passback mode of a door (15 R342). -/
inductive Passback where
  | off | soft | hard
  deriving DecidableEq, Repr

/-- A door (15 R342); the reader sits on the node at `port`, `addr`. -/
structure DoorCfg where
  door     : Nat := 0
  owner    : Tenant := 0
  shared   : Bool := false
  port     : Nat := 0
  addr     : Nat := 0
  reader   : Nat := 0
  unlockT  : Nat := 50
  fromArea : Nat := 0
  toArea   : Nat := 0
  passback : Passback := .off
  forgive  : Nat := 0
  groups   : List Nat := []
  station  : Option Nat := none   -- lift lobby: the call station that serves it (15 R350)
  deriving DecidableEq, Repr

/-- A lift call station of the gateway and the floors it admits for each tenant (15 R350). -/
structure StationCfg where
  station  : Nat := 0
  port     : Nat := 0
  addr     : Nat := 0
  reader   : Nat := 0
  owner    : Tenant := 0
  shared   : Bool := false
  validity : Nat := 10
  admitted : List (Nat × BitVec 256) := []
  deriving DecidableEq, Repr

/-- A configured schedule: the minutes of the week, from Monday 00:00, that it permits, as intervals from a to b − 1. -/
structure SchedCfg where
  no      : Nat := 0
  minutes : List (Nat × Nat) := []
  deriving DecidableEq, Repr

/-- An escrow bundle: the identity public key that it is wrapped to, and a tenant's history keys with their generations (15 R341). -/
structure Escrow where
  pub    : List Byte := []
  tenant : Tenant := 0
  gens   : List (Nat × BitVec 256) := []
  deriving DecidableEq, Repr

/-- The decoded body of a configuration image, as the chapters' rules name its parts (17 R376). -/
structure Image where
  moduleId  : Byte := 0
  tenants   : List TenantCfg := []
  points    : List (Nat × Desc) := []
  ports     : List PortCfg := []
  nodes     : List NodeCfg := []
  logic     : List (Nat × LogicImage) := []
  loops     : List LoopCfg := []
  chans     : List ChanCfg := []
  ains      : List AinCfg := []
  aouts     : List AoutCfg := []
  motions   : List MotCfg := []
  vsets     : List VsetCfg := []
  minputs   : List MInputCfg := []
  circuits  : List CircuitCfg := []
  trends    : List TrendCfg := []
  mirror    : Bool := false
  wmks      : List WmkCfg := []
  doors     : List DoorCfg := []
  stations  : List StationCfg := []
  schedules : List SchedCfg := []
  keyHashes : Option (List Nat) := none
  crownKeys : List (Nat × List Byte) := [] -- crown public keys by reference (15 R340)
  escrows   : List Escrow := []
  deriving DecidableEq, Repr

/-- How the checks of an image's protection come out (15 R330, 17 R376): they are computed from keys the model
does not hold, so the command that brings the image says how each comes out. -/
structure ImageCheck where
  sigOk    : Bool := true   -- the signature verifies under the carried public key
  signer   : Nat := 0       -- which public key signed (compared with the installed project key hashes)
  digestOk : Bool := true
  sizeOk   : Bool := true
  deriving DecidableEq, Repr

/-- A credential record (15 Table 15.4). -/
structure Cred where
  cid     : Uid := 0
  tenant  : Tenant := 0
  enabled : Bool := false
  exempt  : Bool := false
  offline : Bool := false
  cardPin : Bool := false
  fromT   : Word := 0
  untilT  : Word := 0xFFFFFFFF
  sched   : BitVec 16 := 0xFFFF
  doors   : List (BitVec 16) := []
  floors  : BitVec 256 := 0
  deriving DecidableEq, Repr

/-! ### Commands' compound operands -/

/-- What one tick start samples: the 54 metering codes and the 16 analog readings (1.25 µV or 2.5 nA steps). -/
structure TickIn where
  mtr : List Int := []
  ain : List Int := []
  xtal : Nat := 0       -- cycles of the RTC crystal since the tick before (16 R356)
  mesh : Bool := true   -- the bark's mesh is intact and its switch closed (15 R333)
  lid  : Bool := true
  deriving DecidableEq, Repr

/-- The request a mailbox command executes: its sender and its TAG (13 Table 13.7). -/
structure Req where
  sender : Sender
  tag    : Word
  deriving DecidableEq, Repr

/-- Host memory as it answers the module's reads: the bytes from each address on; a read beyond them is refused (13 R292). -/
abbrev HostMem := List (Nat × List Byte)

/-- A request entry as the module has fetched it (13 Table 13.7), with its request data and the regions of its response buffer
(13 R292). -/
structure ReqHead where
  tag      : Word := 0
  opcode   : BitVec 16 := 0
  inline   : Bool := true           -- DKIND0 is 0
  order    : Bool := false
  listIn   : Bool := false          -- DPTR1 is a scatter list
  listOut  : Bool := false          -- DPTR2 is a scatter list
  len      : Nat := 0
  rlen     : Nat := 0
  dptr1    : Nat := 0
  dptr2    : Nat := 0
  reserved : Bool := false          -- a reserved bit is set
  ptrOk    : Bool := true           -- its pointers and scatter lists are as R292 lays down
  hostOk   : Bool := true           -- host memory answered
  data     : List Byte := []        -- the request data
  outs     : List (Nat × Nat) := [] -- address and length of each region of the response buffer
  deriving DecidableEq, Repr

/-- A credential presented to open a session (15 Table 15.2): `proof` is the secret, or of CKIND 2 the signature. -/
structure CredTry where
  ckind   : Byte := 0
  slot    : Byte := 0
  counter : BitVec 64 := 0
  proof   : List Byte := []
  deriving DecidableEq, Repr

/-- A core of a die. -/
structure CoreRef where
  die  : Die
  core : CoreNo
  deriving DecidableEq, Repr

/-- The fields of an R-format word (07 Table 07.6). -/
structure RForm where
  rd  : BitVec 5 := 0
  rs1 : BitVec 5 := 0
  rs2 : BitVec 5 := 0
  fn  : BitVec 3 := 0
  deriving DecidableEq, Repr

/-- The fields of an I-format word, and the extension word where the instruction has one. -/
structure IForm where
  rd  : BitVec 5 := 0
  rs1 : BitVec 5 := 0
  imm : BitVec 8 := 0
  ext : V24 := 0
  deriving DecidableEq, Repr

/-- The fields of a B-format word, and the extension word where the instruction has one. -/
structure BForm where
  cond : BitVec 4 := 0
  disp : BitVec 14 := 0
  ext  : V24 := 0
  deriving DecidableEq, Repr

/-- The header of a firmware image and how its checks come out (17 Table 17.10). -/
structure FwHeader where
  formatOk : Bool := true
  dies     : BitVec 3 := 0b111
  hwrevA   : Bool := true
  version  : Word := 0
  svn      : Byte := 0
  plen     : Nat := 0
  sigOk    : Bool := true
  deriving DecidableEq, Repr

/-- Why the bark is broken (15 Table 15.10, CAUSE). -/
inductive BarkCause where
  | meshOpen | meshShort | lid
  deriving DecidableEq, Repr

/-- What provisioning data installs (15 R338, R339). -/
structure Provision where
  keyHashes : List Nat := []
  creds     : List (Nat × Byte × List Byte) := [] -- landlord credential slots, their CKIND and their verifier
  recovery  : Option (List Byte) := none          -- a recovery verifier to install
  deriving DecidableEq, Repr

/-- The harmonic figures a window yields for one input: RMS magnitudes and phases of orders 1 to 63 (10 R219). -/
structure Harmonics where
  mag   : List Nat := []
  phase : List Int := []
  deriving DecidableEq, Repr

/-- A seven-field date and time of the staged calendar (16 R358). -/
structure Calendar where
  msec : Nat := 0
  sec  : Nat := 0
  min  : Nat := 0
  hour : Nat := 0
  day  : Nat := 1
  mon  : Nat := 1
  year : Nat := 0
  deriving DecidableEq, Repr

end Sys2Proof
end

