-- ==== Sys2Proof/Syntax.lean ====
section
/-! DEFINITION. The commands of the block: one constructor for each row of spec/opcode_table.json, with the operands the
row's rule needs. The table gives no operand fields; what an operand carries is said by its type in Machine/Types.lean. -/
namespace Sys2Proof

/-- The rows of the table (each docstring names the row and the rule that governs it). -/
inductive Instr where
  /-- `TICK` (R11). -/
  | tick (inp : TickIn)
  /-- `GRAFT_LINK_FAIL` (R8). -/
  | graftLinkFail (link : Fin 12)
  /-- `GRAFT_LINK_RESTORED` (R8). -/
  | graftLinkRestored (link : Fin 12)
  /-- `RL_LOW_WORD_READ` (R301). -/
  | rlLowWordRead (bar2 : Bool) (off : BitVec 28) (wide : Bool)
  /-- `RC_READ` (R39). -/
  | rcRead (off : BitVec 28)
  /-- `W1C_WRITE` (R303). -/
  | w1cWrite (bar2 : Bool) (off : BitVec 28) (v : Word)
  /-- `COUNTER_CLEAR_WRITE` (R65). -/
  | counterClearWrite (off : BitVec 28) (v : Word)
  /-- `REGISTER_WRITE` (R303). -/
  | registerWrite (bar2 : Bool) (off : BitVec 28) (size : Nat) (v : BitVec 64)
  /-- `PNT_FORCE_CTRL_FORCE` (R40). -/
  | pntForceCtrlForce (d : Die)
  /-- `PNT_FORCE_CTRL_RELEASE` (R40). -/
  | pntForceCtrlRelease (d : Die)
  /-- `STALE_CHECK` (R35). -/
  | staleCheck (m : Mpn)
  /-- `BRANCH_CYCLE_START` (R52). -/
  | branchCycleStart (p : Port) (buffered : Bool)
  /-- `GCL_ENTRY_BOUNDARY` (R52). -/
  | gclEntryBoundary (p : Port)
  /-- `BRANCH_TX_START` (R58). -/
  | branchTxStart (p : Port) (room at_ buf : Nat)
  /-- `BRANCH_TX_END` (R67). -/
  | branchTxEnd (p : Port)
  /-- `COLLISION_DETECT` (R58). -/
  | collisionDetect (p : Port) (by_ : Option Uid) (bt : Nat)
  /-- `BACKOFF_EXPIRY` (R59). -/
  | backoffExpiry (p : Port) (by_ : Option Uid) (room at_ buf : Nat)
  /-- `SCHEDULED_OVER_AMPLITUDE` (R61). -/
  | scheduledOverAmplitude (p : Port) (addr : Byte)
  /-- `BRANCH_TX_UNDERRUN` (R63). -/
  | branchTxUnderrun (p : Port) (why : TxFail)
  /-- `BRANCH_RX_BAD_FRAME` (R51). -/
  | branchRxBadFrame (p : Port) (why : RxFail)
  /-- `BRANCH_RX_REPORT` (R81). -/
  | branchRxReport (p : Port) (addr : Byte) (first : Nat) (vals : List ChanVal)
  /-- `BRANCH_RX_EVENT` (R83). -/
  | branchRxEvent (p : Port) (addr seq ch : Byte) (v : ChanVal)
  /-- `BRANCH_RX_RESPONSE` (R83). -/
  | branchRxResponse (p : Port) (addr seq op status : Byte) (data : List Byte)
  /-- `BRANCH_RX_CLAIM` (R77). -/
  | branchRxClaim (p : Port) (uid : Uid) (cls : Byte) (chmap : List Byte)
  /-- `BRANCH_RX_ROLLCALL` (R79). -/
  | branchRxRollcall (p : Port) (addr : Byte) (uid : Uid) (cls : Byte) (stat : BitVec 3)
  /-- `BRANCH_RX_SECURE` (R347). -/
  | branchRxSecure (p : Port) (addr : Byte) (f : SecureFrame)
  /-- `SLOT_END` (R81). -/
  | slotEnd (p : Port) (addr : Byte)
  /-- `NODE_LOST_TIMEOUT` (R81). -/
  | nodeLostTimeout (p : Port) (addr : Byte)
  /-- `ASSIGN_RETRY_TIMEOUT` (R77). -/
  | assignRetryTimeout (p : Port) (addr : Byte)
  /-- `NODE_COMMAND_TIMEOUT` (R83). -/
  | nodeCommandTimeout (p : Port) (addr : Byte)
  /-- `CLAIM_BROADCAST_TIMER` (R369). -/
  | claimBroadcastTimer (p : Port)
  /-- `BRP_CTRL_WRITE` (R62). -/
  | brpCtrlWrite (p : Port) (v : Word)
  /-- `BRP_GCL_SWAP` (R70). -/
  | brpGclSwap (p : Port)
  /-- `DORMANCY_ENTRY` (R86). -/
  | dormancyEntry (p : Port)
  /-- `DORMANT_BEACON` (R86). -/
  | dormantBeacon (p : Port)
  /-- `WAKE_TRAIN_START` (R90). -/
  | wakeTrainStart (p : Port)
  /-- `WAKE_PULSE` (R92). -/
  | wakePulse (p : Port)
  /-- `DORMANCY_END` (R86). -/
  | dormancyEnd (p : Port)
  /-- `NODE_POWER_UP` (R93). -/
  | nodePowerUp (p : Port) (uid : Uid) (cls : Byte) (chmap : List Byte) (factory fault : Bool)
      (key : Option (BitVec 256)) (timer : Nat)
  /-- `NODE_CLAIM_BROADCAST_RX` (R76). -/
  | nodeClaimBroadcastRx (uid : Uid) (nslot : Byte) (slotbt : Nat) (claimOpen : Bool) (timer : Nat)
  /-- `NODE_CLAIM_SLOT` (R76). -/
  | nodeClaimSlot (uid : Uid) (timer : Nat)
  /-- `NODE_ASSIGN_RX` (R77). -/
  | nodeAssignRx (uid : Uid) (dst : Byte) (target : Uid) (plan : Plan) (timer : Nat)
  /-- `NODE_BEACON_RX` (R93). -/
  | nodeBeaconRx (uid : Uid) (b : Beacon) (timer : Nat)
  /-- `NODE_SLOT_START` (R80). -/
  | nodeSlotStart (uid : Uid) (first : Nat) (vals : List ChanVal)
  /-- `NODE_OUTPUT_RX` (R82). -/
  | nodeOutputRx (uid : Uid) (dst : Byte) (first : Nat) (vals : List V24)
  /-- `NODE_FALLBACK_TIMEOUT` (R84). -/
  | nodeFallbackTimeout (uid : Uid) (timer : Nat)
  /-- `NODE_WINDOW_OPEN` (R88). -/
  | nodeWindowOpen (uid : Uid) (timer : Nat)
  /-- `NODE_WINDOW_CLOSE` (R88). -/
  | nodeWindowClose (uid : Uid) (timer : Nat)
  /-- `NODE_SEEK_TIMEOUT` (R91). -/
  | nodeSeekTimeout (uid : Uid) (timer : Nat)
  /-- `NODE_SNIFF` (R91). -/
  | nodeSniff (uid : Uid) (carrier : Bool) (timer : Nat)
  /-- `NODE_WAKE_CONDITION` (R92). -/
  | nodeWakeCondition (uid : Uid) (ch : BitVec 6) (timer : Nat)
  /-- `READ_INFO` (R83). -/
  | readInfo (uid : Uid) (dst seq : Byte)
  /-- `SET_FALLBACK` (R83). -/
  | setFallback (uid : Uid) (dst seq : Byte) (fbt : Nat) (entries : List (Nat × V24))
  /-- `IDENTIFY` (R83). -/
  | identify (uid : Uid) (dst seq : Byte) (seconds : Byte)
  /-- `SET_WAKE` (R83). -/
  | setWake (uid : Uid) (dst seq : Byte) (mask : BitVec 64)
  /-- `FORGET` (R72). -/
  | forget (uid : Uid) (dst seq : Byte) (target : Uid)
  /-- `SET_RAMP` (R83). -/
  | setRamp (uid : Uid) (dst seq : Byte) (ramp : Nat)
  /-- `SUPERFRAME_START` (R100). -/
  | superframeStart
  /-- `FAW_SIGHTING` (R101). -/
  | fawSighting (t : TrunkPort) (l : Lane) (pos : Nat)
  /-- `FAW_POSITION` (R101). -/
  | fawPosition (t : TrunkPort) (l : Lane) (pos : Nat) (hdr : Option (Nat × Nat))
  /-- `TRUNK_RX_HEADER` (R116). -/
  | trunkRxHeader (t : TrunkPort) (h : TrkHeader) (own : Option Int)
  /-- `TIME_MASTER_TIMEOUT` (R115). -/
  | timeMasterTimeout
  /-- `TRUNK_RX_FRAME` (R107). -/
  | trunkRxFrame (t : TrunkPort) (f : TrkFrame) (crc : PayCrc) (fault : Option EngFault) (full : Bool)
  /-- `TRUNK_RX_BAD_FRAME` (R106). -/
  | trunkRxBadFrame (t : TrunkPort) (header : Bool)
  /-- `TRUNK_RX_TOPOLOGY` (R112). -/
  | trunkRxTopology (t : TrunkPort) (f : TrkFrame) (b : Topology)
  /-- `TRUNK_RX_UTC_MAPPING` (R361). -/
  | trunkRxUtcMapping (t : TrunkPort) (f : TrkFrame) (u : UtcMap)
  /-- `TRUNK_RX_MAILBOX_REQUEST` (R297). -/
  | trunkRxMailboxRequest (t : TrunkPort) (f : TrkFrame) (slot : Option SlotNo) (b : List Byte)
  /-- `TRUNK_RX_REPLICA_BLOCK` (R265). -/
  | trunkRxReplicaBlock (t : TrunkPort) (f : TrkFrame) (seg blk : Nat) (data : List Byte)
  /-- `UNWRAP` (R113). -/
  | unwrap (t : TrunkPort)
  /-- `TRUNK_TX_UNDERRUN` (R111). -/
  | trunkTxUnderrun (t : TrunkPort) (n : Nat) (why : TxFail)
  /-- `TRK_CTRL_WRITE` (R110). -/
  | trkCtrlWrite (t : TrunkPort) (v : Word)
  /-- `TRK_GCL_SWAP` (R109). -/
  | trkGclSwap (t : TrunkPort)
  /-- `TRAINING_FRAME_RX` (R371). -/
  | trainingFrameRx (t : TrunkPort) (l : Lane) (ctrl : BitVec 12) (crcOk rxReady : Bool)
  /-- `LANE_TRAINING_TIMEOUT` (R371). -/
  | laneTrainingTimeout (t : TrunkPort) (l : Lane)
  /-- `SCAN_START` (R123). -/
  | scanStart (d : Die)
  /-- `SCAN_COMMIT` (R124). -/
  | scanCommit (d : Die) (us : Nat)
  /-- `RETAIN_WRITE_COMPLETE` (R131). -/
  | retainWriteComplete (d : Die) (readBack : Bool)
  /-- `SCAN_LIMIT_EXPIRY` (R126). -/
  | scanLimitExpiry (d : Die)
  /-- `LSC_CTRL_RUN_COLD` (R132). -/
  | lscCtrlRunCold (d : Die)
  /-- `LSC_CTRL_RUN_WARM` (R133). -/
  | lscCtrlRunWarm (d : Die)
  /-- `LSC_CTRL_STOP` (R130). -/
  | lscCtrlStop (d : Die)
  /-- `LSC_CTRL_HOLD` (R129). -/
  | lscCtrlHold (d : Die)
  /-- `LSC_CTRL_STEP` (R129). -/
  | lscCtrlStep (d : Die) (c : CoreNo)
  /-- `LSC_CTRL_RESUME` (R129). -/
  | lscCtrlResume (d : Die)
  /-- `HW_BREAKPOINT` (R148). -/
  | hwBreakpoint (k : CoreRef)
  /-- `ILLEGAL_INSTRUCTION` (R156). -/
  | illegalInstruction (k : CoreRef) (w : V24)
  /-- `ADD` (R156). -/
  | add (k : CoreRef) (r : RForm)
  /-- `ADDS` (R156). -/
  | adds (k : CoreRef) (r : RForm)
  /-- `SUB` (R156). -/
  | sub (k : CoreRef) (r : RForm)
  /-- `SUBS` (R156). -/
  | subs (k : CoreRef) (r : RForm)
  /-- `AND` (R156). -/
  | and (k : CoreRef) (r : RForm)
  /-- `OR` (R156). -/
  | or (k : CoreRef) (r : RForm)
  /-- `XOR` (R156). -/
  | xor (k : CoreRef) (r : RForm)
  /-- `SHL` (R156). -/
  | shl (k : CoreRef) (r : RForm)
  /-- `SHR` (R156). -/
  | shr (k : CoreRef) (r : RForm)
  /-- `SHA` (R156). -/
  | sha (k : CoreRef) (r : RForm)
  /-- `MUL` (R156). -/
  | mul (k : CoreRef) (r : RForm)
  /-- `MULF` (R156). -/
  | mulf (k : CoreRef) (r : RForm)
  /-- `DIV` (R156). -/
  | div (k : CoreRef) (r : RForm)
  /-- `REM` (R156). -/
  | rem (k : CoreRef) (r : RForm)
  /-- `CMP` (R156). -/
  | cmp (k : CoreRef) (r : RForm)
  /-- `MIN` (R156). -/
  | min (k : CoreRef) (r : RForm)
  /-- `MAX` (R156). -/
  | max (k : CoreRef) (r : RForm)
  /-- `ADDI` (R156). -/
  | addi (k : CoreRef) (i : IForm)
  /-- `ADDSI` (R156). -/
  | addsi (k : CoreRef) (i : IForm)
  /-- `ANDI` (R156). -/
  | andi (k : CoreRef) (i : IForm)
  /-- `ORI` (R156). -/
  | ori (k : CoreRef) (i : IForm)
  /-- `XORI` (R156). -/
  | xori (k : CoreRef) (i : IForm)
  /-- `SHLI` (R156). -/
  | shli (k : CoreRef) (i : IForm)
  /-- `SHRI` (R156). -/
  | shri (k : CoreRef) (i : IForm)
  /-- `SHAI` (R156). -/
  | shai (k : CoreRef) (i : IForm)
  /-- `CMPI` (R156). -/
  | cmpi (k : CoreRef) (i : IForm)
  /-- `LDI` (R156). -/
  | ldi (k : CoreRef) (i : IForm)
  /-- `LD` (R152). -/
  | ld (k : CoreRef) (i : IForm)
  /-- `ST` (R124). -/
  | st (k : CoreRef) (i : IForm)
  /-- `LDX` (R152). -/
  | ldx (k : CoreRef) (i : IForm)
  /-- `STX` (R158). -/
  | stx (k : CoreRef) (i : IForm)
  /-- `LDP` (R153). -/
  | ldp (k : CoreRef) (i : IForm)
  /-- `LDPS` (R153). -/
  | ldps (k : CoreRef) (i : IForm)
  /-- `STP` (R153). -/
  | stp (k : CoreRef) (i : IForm)
  /-- `STPQ` (R153). -/
  | stpq (k : CoreRef) (r : RForm)
  /-- `BR` (R155). -/
  | br (k : CoreRef) (b : BForm)
  /-- `CALL` (R142). -/
  | call (k : CoreRef) (b : BForm)
  /-- `CALLR` (R142). -/
  | callr (k : CoreRef) (r : RForm)
  /-- `RET` (R143). -/
  | ret (k : CoreRef) (r : RForm)
  /-- `TASKEND` (R156). -/
  | taskend (k : CoreRef) (r : RForm)
  /-- `TRAP` (R148). -/
  | trap (k : CoreRef) (i : IForm)
  /-- `BRK` (R148). -/
  | brk (k : CoreRef) (r : RForm)
  /-- `TSTART` (R157). -/
  | tstart (k : CoreRef) (i : IForm)
  /-- `TELAP` (R157). -/
  | telap (k : CoreRef) (i : IForm)
  /-- `TDONE` (R157). -/
  | tdone (k : CoreRef) (r : RForm)
  /-- `MFS` (R139). -/
  | mfs (k : CoreRef) (r : RForm)
  /-- `MTS` (R141). -/
  | mts (k : CoreRef) (r : RForm)
  /-- `SPILL` (R144). -/
  | spill (k : CoreRef) (r : RForm)
  /-- `FILL` (R145). -/
  | fill (k : CoreRef) (r : RForm)
  /-- `ABORT` (R149). -/
  | abort (k : CoreRef) (r : RForm)
  /-- `TRET` (R156). -/
  | tret (k : CoreRef) (r : RForm)
  /-- `LOOP_SAMPLE` (R165). -/
  | loopSample (d : Die) (n : LoopNo) (late : Fin 4)
  /-- `LOOP_OUTPUT_APPLY` (R172). -/
  | loopOutputApply (d : Die) (n : LoopNo)
  /-- `LOCAL_LOOP_OUTPUT` (R173). -/
  | localLoopOutput
  /-- `LPE_S_SWAP` (R177). -/
  | lpeSSwap (d : Die) (n : LoopNo) (reset : Bool)
  /-- `LPE_S_CLR_SAT` (R163). -/
  | lpeSClrSat (d : Die) (n : LoopNo)
  /-- `LPE_TU_START` (R179). -/
  | lpeTuStart (d : Die) (u : UnitNo) (v : Word)
  /-- `LPE_TU_STOP` (R187). -/
  | lpeTuStop (d : Die) (u : UnitNo)
  /-- `FIO_LINK_LOSS` (R199). -/
  | fioLinkLoss
  /-- `WATCHDOG_REFRESH` (R199). -/
  | watchdogRefresh
  /-- `FIO_WATCHDOG_EXPIRY` (R199). -/
  | fioWatchdogExpiry
  /-- `FIO_CONTROLLER_POWER_UP` (R199). -/
  | fioControllerPowerUp
  /-- `FIO_RELEASE` (R200). -/
  | fioRelease
  /-- `FIO_ST_START` (R198). -/
  | fioStStart
  /-- `FIO_ST_STOP` (R198). -/
  | fioStStop
  /-- `FIO_CLR` (R195). -/
  | fioClr (v : Word)
  /-- `SUPPLY_SAMPLE` (R190). -/
  | supplySample (volts currents : List Nat)
  /-- `INPUT_RAW_CHANGE` (R192). -/
  | inputRawChange (c : Chan) (high : Bool)
  /-- `INPUT_FILTER_SAMPLE` (R192). -/
  | inputFilterSample (c : Chan)
  /-- `INPUT_POINT_REFRESH` (R188). -/
  | inputPointRefresh (analog : Bool)
  /-- `PULSE_EDGE` (R193). -/
  | pulseEdge (c : Chan)
  /-- `BLANKING_END` (R195). -/
  | blankingEnd (c : Chan) (limiting : Bool)
  /-- `OVERCURRENT_DETECT` (R195). -/
  | overcurrentDetect (c : Chan)
  /-- `THERMAL_TRIP` (R195). -/
  | thermalTrip (c : Chan)
  /-- `RETRY_TIMER_EXPIRY` (R196). -/
  | retryTimerExpiry (c : Chan)
  /-- `GROUP_OVERLOAD_DETECT` (R197). -/
  | groupOverloadDetect (g : Fin 4)
  /-- `SELFTEST_PASS_START` (R198). -/
  | selftestPassStart
  /-- `SELFTEST_SLOT` (R198). -/
  | selftestSlot (c : Chan) (bad : Bool)
  /-- `MOTION_TARGET_CHANGE` (R205). -/
  | motionTargetChange (m : MotNo)
  /-- `MOVE_TIMEOUT` (R205). -/
  | moveTimeout (m : MotNo)
  /-- `PULSE_LOSS_TIMEOUT` (R205). -/
  | pulseLossTimeout (m : MotNo)
  /-- `DEAD_TIME_EXPIRY` (R203). -/
  | deadTimeExpiry (m : MotNo)
  /-- `COAST_END` (R207). -/
  | coastEnd (m : MotNo)
  /-- `FIO_M_FAR` (R205). -/
  | fioMFar (m : MotNo)
  /-- `FIO_M_HOME_DIRECTION` (R205). -/
  | fioMHomeDirection (m : MotNo)
  /-- `FIO_M_GOTO` (R205). -/
  | fioMGoto (m : MotNo)
  /-- `FIO_M_STOP` (R205). -/
  | fioMStop (m : MotNo)
  /-- `FIO_M_HOME` (R206). -/
  | fioMHome (m : MotNo)
  /-- `FIO_M_CLEAR_FAULT` (R208). -/
  | fioMClearFault (m : MotNo)
  /-- `FIO_M_RESET_COAST` (R207). -/
  | fioMResetCoast (m : MotNo)
  /-- `METERING_SECOND_END` (R222). -/
  | meteringSecondEnd
  /-- `HALF_CYCLE_END` (R217). -/
  | halfCycleEnd (v : Fin 6)
  /-- `HARMONIC_WINDOW_END` (R219). -/
  | harmonicWindowEnd (set : Fin 2)
  /-- `MTR_ST_START` (R227). -/
  | mtrStStart
  /-- `MTR_ST_STOP` (R227). -/
  | mtrStStop
  /-- `MTR_SELFTEST_TIMER` (R227). -/
  | mtrSelftestTimer
  /-- `METER_SELFTEST_CONNECT` (R227). -/
  | meterSelftestConnect
  /-- `METER_SELFTEST_DISCONNECT` (R227). -/
  | meterSelftestDisconnect
  /-- `DMA_START` (R245). -/
  | dmaStart (d : Die) (c : DmaNo) (exyan : Option DmaSetup)
  /-- `DMA_RESUME` (R248). -/
  | dmaResume (d : Die) (c : DmaNo) (exyan : Bool)
  /-- `DMA_SKIP` (R248). -/
  | dmaSkip (d : Die) (c : DmaNo) (exyan : Bool)
  /-- `DMA_ABORT` (R248). -/
  | dmaAbort (d : Die) (c : DmaNo) (exyan : Bool)
  /-- `DMA_ELEMENT` (R247). -/
  | dmaElement (d : Die) (bus : Option DmaAccess)
  /-- `ATU_INV_CONTEXT` (R240). -/
  | atuInvContext (d : Die)
  /-- `ATU_INV_PAGE` (R240). -/
  | atuInvPage (d : Die)
  /-- `ATU_INV_ALL` (R240). -/
  | atuInvAll (d : Die)
  /-- `INVALIDATION_COMPLETE` (R240). -/
  | invalidationComplete (d : Die)
  /-- `ATU_FQ_POP` (R253). -/
  | atuFqPop (d : Die)
  /-- `PAGE_OWNER_ASSIGN` (R233). -/
  | pageOwnerAssign (d : Die) (page : Nat) (owner : Tenant) (map : Option PageMap)
  /-- `NVME_COMPLETION` (R256). -/
  | nvmeCompletion (drive : Fin 2) (cid : Nat) (ok : Bool) (fault : Option EngFault)
  /-- `NVME_COMMAND_TIMEOUT` (R256). -/
  | nvmeCommandTimeout (drive : Fin 2) (cid : Nat)
  /-- `NVME_REISSUE` (R256). -/
  | nvmeReissue (drive : Fin 2) (cid : Nat)
  /-- `DRIVE_READY` (R260). -/
  | driveReady (drive : Fin 2) (blocks : Nat) (suitable cache dsm : Bool) (serial : Nat)
  /-- `CHECKPOINT_TIMER` (R260). -/
  | checkpointTimer
  /-- `TREND_PERIODIC` (R264). -/
  | trendPeriodic (series : BitVec 19)
  /-- `TREND_FLUSH_TIMER` (R267). -/
  | trendFlushTimer (d : Die) (ten : Tenant)
  /-- `RESYNC_SEGMENT_COPY` (R261). -/
  | resyncSegmentCopy
  /-- `EVENT_REPORT` (R272). -/
  | eventReport (e : Event)
  /-- `EVENT_COMMIT` (R271). -/
  | eventCommit
  /-- `EVR_OVERFLOW_CLEAR` (R272). -/
  | evrOverflowClear
  /-- `RECORDER_POWERFAIL_WINDOW_END` (R274). -/
  | recorderPowerfailWindowEnd
  /-- `FREEZE_TIMEOUT` (R277). -/
  | freezeTimeout
  /-- `OPSEC_INCREMENT` (R269). -/
  | opsecIncrement
  /-- `PERST_ASSERT` (R282). -/
  | perstAssert
  /-- `FUNCTION_LEVEL_RESET` (R282). -/
  | functionLevelReset
  /-- `D3HOT_ENTRY` (R282). -/
  | d3hotEntry
  /-- `D0_RETURN` (R282). -/
  | d0Return
  /-- `HEARTBEAT_TIMER` (R284). -/
  | heartbeatTimer
  /-- `MBX_SLOT_ENABLE` (R290). -/
  | mbxSlotEnable (k : SlotNo) (irq : Bool)
  /-- `MBX_SLOT_DISABLE` (R290). -/
  | mbxSlotDisable (k : SlotNo) (irq : Bool)
  /-- `MBX_IRQ_ENABLE` (R296). -/
  | mbxIrqEnable (k : SlotNo)
  /-- `MBX_RQ_TAIL` (R295). -/
  | mbxRqTail (k : SlotNo) (v : Word)
  /-- `MBX_CQ_HEAD` (R296). -/
  | mbxCqHead (k : SlotNo) (v : Word)
  /-- `REQUEST_FETCH` (R294). -/
  | requestFetch (k : SlotNo) (m : HostMem) (fault : Option EngFault)
  /-- `REQUEST_COMPLETE` (R293). -/
  | requestComplete (r : Req) (hostOk : Bool)
  /-- `WATERMARK_COMPARE` (R304). -/
  | watermarkCompare
  /-- `WMK_STAT_WRITE` (R305). -/
  | wmkStatWrite (n : BitVec 5) (v : Word)
  /-- `WMK_ENABLE` (R305). -/
  | wmkEnable (n : BitVec 5)
  /-- `SNAP_TAKE` (R308). -/
  | snapTake
  /-- `DEV_INFO` (R316). -/
  | devInfo (r : Req)
  /-- `DEV_TEMPS` (R316). -/
  | devTemps (r : Req)
  /-- `WMK_GET` (R316). -/
  | wmkGet (r : Req) (slot : Byte)
  /-- `WMK_SET` (R306). -/
  | wmkSet (r : Req) (slot en : Byte) (thr hyst : V24) (ten : BitVec 16)
  /-- `WMK_REARM` (R305). -/
  | wmkRearm (r : Req) (slot : Byte)
  /-- `MEM_POISON_LIST` (R236). -/
  | memPoisonList (r : Req) (die : Byte) (start : Word)
  /-- `MEM_POISON_CLEAR` (R236). -/
  | memPoisonClear (r : Req) (pa : BitVec 64)
  /-- `REG_READ` (R316). -/
  | regRead (r : Req) (die : Byte) (off : Word) (words : BitVec 16) (gen : Word)
  /-- `REG_WRITE` (R316). -/
  | regWrite (r : Req) (die : Byte) (off v : Word)
  /-- `SESSION_OPEN` (R289). -/
  | sessionOpen (r : Req) (c : CredTry)
  /-- `SESSION_CLOSE` (R289). -/
  | sessionClose (r : Req)
  /-- `SESSION_INFO` (R316). -/
  | sessionInfo (r : Req)
  /-- `WIN_TAKE` (R287). -/
  | winTake (r : Req)
  /-- `WIN_GIVE` (R287). -/
  | winGive (r : Req)
  /-- `SESSION_LIST` (R316). -/
  | sessionList (r : Req)
  /-- `PNT_READ` (R317). -/
  | pntRead (r : Req) (refs : List Word)
  /-- `PNT_READ_BLOCK` (R317). -/
  | pntReadBlock (r : Req) (die : Byte) (block : BitVec 16)
  /-- `PNT_WRITE` (R28). -/
  | pntWrite (r : Req) (ref : Word) (v : V24)
  /-- `PNT_FORCE` (R29). -/
  | pntForce (r : Req) (ref : Word) (v : V24)
  /-- `PNT_RELEASE` (R31). -/
  | pntRelease (r : Req) (ref : Word)
  /-- `PNT_FORCE_LIST` (R317). -/
  | pntForceList (r : Req) (start : BitVec 16)
  /-- `PNT_DESC_READ` (R317). -/
  | pntDescRead (r : Req) (ref : Word)
  /-- `BR_ENABLE` (R62). -/
  | brEnable (r : Req) (port en mode : Byte)
  /-- `BR_STATUS` (R318). -/
  | brStatus (r : Req) (port : Byte)
  /-- `BR_SCHED_LOAD` (R70). -/
  | brSchedLoad (r : Req) (port : Byte) (cycleMs : BitVec 16) (n : Byte) (gcl : List GclEntry)
  /-- `BR_STATS` (R318). -/
  | brStats (r : Req) (port clear : Byte)
  /-- `BR_TXTHR` (R312). -/
  | brTxthr (r : Req) (port : Byte) (thr : BitVec 16)
  /-- `BR_DORMANCY` (R86). -/
  | brDormancy (r : Req) (port en : Byte) (start stop period : BitVec 16) (rcn : Byte)
  /-- `BR_NODES` (R318). -/
  | brNodes (r : Req) (port : Byte)
  /-- `BR_NODE_CMD` (R83). -/
  | brNodeCmd (r : Req) (node : BitVec 16) (op : Byte) (args : List Byte)
  /-- `BR_CLAIM` (R76). -/
  | brClaim (r : Req) (port nslot : Byte) (slotbt : BitVec 16)
  /-- `BR_UNBOUND` (R318). -/
  | brUnbound (r : Req) (port : Byte)
  /-- `TRK_STATUS` (R318). -/
  | trkStatus (r : Req) (port : Byte)
  /-- `TRK_ENABLE` (R110). -/
  | trkEnable (r : Req) (port : Byte) (v : BitVec 16)
  /-- `TRK_SCHED_LOAD` (R109). -/
  | trkSchedLoad (r : Req) (port : Byte) (n : BitVec 16) (gcl : List TrkEntry)
  /-- `TRK_STATS` (R318). -/
  | trkStats (r : Req) (port clear : Byte)
  /-- `TRK_TXTHR` (R312). -/
  | trkTxthr (r : Req) (port : Byte) (thr : BitVec 16)
  /-- `TRK_RING_MAP` (R318). -/
  | trkRingMap (r : Req)
  /-- `TRK_PRIO` (R318). -/
  | trkPrio (r : Req) (prio : Byte)
  /-- `LOGIC_STATUS` (R319). -/
  | logicStatus (r : Req) (die : Byte)
  /-- `LOGIC_RUN` (R129). -/
  | logicRun (r : Req) (mask warm : Byte)
  /-- `LOGIC_STOP` (R130). -/
  | logicStop (r : Req) (mask : Byte)
  /-- `LOGIC_HOLD` (R129). -/
  | logicHold (r : Req) (mask : Byte)
  /-- `LOGIC_STEP` (R129). -/
  | logicStep (r : Req) (die core : Byte)
  /-- `LOGIC_RESUME` (R129). -/
  | logicResume (r : Req) (mask : Byte)
  /-- `LOGIC_DOWNLOAD` (R136). -/
  | logicDownload (r : Req) (mask : Byte) (img : LogicImage) (ck : ImageCheck)
  /-- `LOGIC_TASKS` (R319). -/
  | logicTasks (r : Req) (die : Byte)
  /-- `LOGIC_READ_VAR` (R319). -/
  | logicReadVar (r : Req) (die task : Byte) (addr : V24) (count : BitVec 16)
  /-- `LOGIC_WRITE_VAR` (R135). -/
  | logicWriteVar (r : Req) (die task : Byte) (addr v : V24)
  /-- `LOGIC_PATCH_CONST` (R135). -/
  | logicPatchConst (r : Req) (die task : Byte) (idx : BitVec 16) (v : V24)
  /-- `LOGIC_BP_SET` (R159). -/
  | logicBpSet (r : Req) (die core idx : Byte) (addr : V24) (en : Byte)
  /-- `LOGIC_BP_READ` (R319). -/
  | logicBpRead (r : Req) (die core : Byte)
  /-- `LOGIC_CORE_READ` (R319). -/
  | logicCoreRead (r : Req) (die core : Byte)
  /-- `LOOP_GET` (R319). -/
  | loopGet (r : Req) (die : Byte) (slot : BitVec 16)
  /-- `LOOP_SET_LIMITS` (R166). -/
  | loopSetLimits (r : Req) (die : Byte) (slot : BitVec 16) (omin omax rate : V24)
  /-- `LOOP_SET_SP` (R319). -/
  | loopSetSp (r : Req) (die : Byte) (slot : BitVec 16) (v : V24)
  /-- `LOOP_WRITE_BANK` (R177). -/
  | loopWriteBank (r : Req) (die : Byte) (slot : BitVec 16) (words : List Word)
  /-- `LOOP_SWAP` (R178). -/
  | loopSwap (r : Req) (die : Byte) (slot : BitVec 16) (reset : Byte)
  /-- `LOOP_TEST_START` (R179). -/
  | loopTestStart (r : Req) (die : Byte) (slot ctrl : BitVec 16) (amp len : V24) (hold : Byte) (p0 rho steps records : V24)
  /-- `LOOP_TEST_STOP` (R187). -/
  | loopTestStop (r : Req) (die unit : Byte)
  /-- `LOOP_TEST_READ` (R183). -/
  | loopTestRead (r : Req) (die unit : Byte) (first : V24)
  /-- `LOOP_BUDGET` (R184). -/
  | loopBudget (r : Req) (die : Byte)
  /-- `FIO_STATUS` (R320). -/
  | fioStatus (r : Req)
  /-- `FIO_GROUPS` (R320). -/
  | fioGroups (r : Req)
  /-- `FIO_CLEAR` (R195). -/
  | fioClear (r : Req) (ch : Byte)
  /-- `FIO_SELFTEST` (R198). -/
  | fioSelftest (r : Req) (action : Byte) (interval : BitVec 16)
  /-- `FIO_WATCHDOG` (R199). -/
  | fioWatchdog (r : Req) (tmo : BitVec 16) (logic : Byte)
  /-- `MOT_CMD` (R205). -/
  | motCmd (r : Req) (m cmd : Byte) (target : V24)
  /-- `MOT_STATUS` (R320). -/
  | motStatus (r : Req) (m : Byte)
  /-- `MTR_CIRCUIT` (R320). -/
  | mtrCircuit (r : Req) (k : Byte)
  /-- `MTR_VSET` (R320). -/
  | mtrVset (r : Req) (set : Byte)
  /-- `MTR_HARM` (R219). -/
  | mtrHarm (r : Req) (input orders : Byte)
  /-- `MTR_TOTALS` (R222). -/
  | mtrTotals (r : Req) (k : Byte)
  /-- `MTR_TOTALS_CLEAR` (R222). -/
  | mtrTotalsClear (r : Req) (k : Byte)
  /-- `MTR_CAL_READ` (R225). -/
  | mtrCalRead (r : Req) (input : Byte)
  /-- `MTR_CAL_MEASURE` (R225). -/
  | mtrCalMeasure (r : Req) (input : Byte)
  /-- `MTR_CAL_WRITE` (R226). -/
  | mtrCalWrite (r : Req) (input : Byte) (gain phase offset itrim : Word)
  /-- `MTR_SELFTEST` (R227). -/
  | mtrSelftest (r : Req) (action : Byte) (interval : BitVec 16)
  /-- `MTR_WAVE_START` (R228). -/
  | mtrWaveStart (r : Req) (mask : BitVec 64) (frames : Word) (va : BitVec 64)
  /-- `MTR_WAVE_STOP` (R228). -/
  | mtrWaveStop (r : Req)
  /-- `MTR_CONFIG_READ` (R320). -/
  | mtrConfigRead (r : Req)
  /-- `HST_READ` (R266). -/
  | hstRead (r : Req) (series : V24) (first last : BitVec 64)
  /-- `HST_READ_TIME` (R266). -/
  | hstReadTime (r : Req) (series : V24) (first last : BitVec 48)
  /-- `HST_QUOTA` (R262). -/
  | hstQuota (r : Req) (ten : BitVec 16)
  /-- `HST_STATUS` (R321). -/
  | hstStatus (r : Req)
  /-- `HST_RESYNC` (R261). -/
  | hstResync (r : Req)
  /-- `HST_REPLICA_READ` (R265). -/
  | hstReplicaRead (r : Req) (src : Byte) (seg : V24) (blk count : BitVec 16)
  /-- `EVT_READ` (R276). -/
  | evtRead (r : Req) (first : BitVec 64) (count : BitVec 16)
  /-- `EVT_HEART_READ` (R276). -/
  | evtHeartRead (r : Req) (first count : BitVec 16)
  /-- `EVT_PLANT` (R270). -/
  | evtPlant (r : Req)
  /-- `ACC_CRED_ADD` (R343). -/
  | accCredAdd (r : Req) (c : Cred)
  /-- `ACC_CRED_DEL` (R321). -/
  | accCredDel (r : Req) (idx : Word)
  /-- `ACC_CRED_READ` (R321). -/
  | accCredRead (r : Req) (idx : Word)
  /-- `ACC_DOOR_CMD` (R321). -/
  | accDoorCmd (r : Req) (door : BitVec 16) (action : Byte) (seconds : BitVec 16)
  /-- `ACC_DOOR_STATUS` (R321). -/
  | accDoorStatus (r : Req) (door : BitVec 16)
  /-- `ACC_PASSBACK_RESET` (R349). -/
  | accPassbackReset (r : Req) (area : BitVec 16) (idx : Word)
  /-- `TIME_GET` (R321). -/
  | timeGet (r : Req)
  /-- `TIME_SET` (R362). -/
  | timeSet (r : Req) (utcMs : BitVec 48) (offset : BitVec 16)
  /-- `RTC_TRIM` (R359). -/
  | rtcTrim (r : Req) (add : Byte) (n : BitVec 16)
  /-- `RTC_USER_READ` (R321). -/
  | rtcUserRead (r : Req) (first count : Byte)
  /-- `RTC_USER_WRITE` (R321). -/
  | rtcUserWrite (r : Req) (first count : Byte) (bytes : List Byte)
  /-- `RTC_SYS_READ` (R355). -/
  | rtcSysRead (r : Req)
  /-- `CFG_STATUS` (R321). -/
  | cfgStatus (r : Req)
  /-- `CFG_WRITE` (R377). -/
  | cfgWrite (r : Req) (img : Image) (ck : ImageCheck)
  /-- `CFG_ACTIVATE` (R377). -/
  | cfgActivate (r : Req)
  /-- `SEC_STATUS` (R321). -/
  | secStatus (r : Req)
  /-- `SEC_CRED_SET` (R331). -/
  | secCredSet (r : Req) (slot : Byte) (ten : BitVec 16) (ckind : Byte) (verifier : List Byte)
  /-- `SEC_KEY_ROTATE` (R326). -/
  | secKeyRotate (r : Req) (ten : BitVec 16) (kind : Byte)
  /-- `SEC_ESCROW_EXPORT` (R340). -/
  | secEscrowExport (r : Req) (ten : BitVec 16) (key : Word)
  /-- `BARK_BREAK` (R333). -/
  | barkBreak (cause : BarkCause)
  /-- `BARK_POLL` (R334). -/
  | barkPoll (cause : Option BarkCause)
  /-- `BARK_REARM` (R336). -/
  | barkRearm
  /-- `READ` (R344). -/
  | read
  /-- `OFFLINE` (R348). -/
  | offline
  /-- `TIME_MESSAGE_SEND` (R348). -/
  | timeMessageSend
  /-- `PASSBACK_FORGIVENESS` (R349). -/
  | passbackForgiveness (idx : BitVec 20)
  /-- `CREDENTIAL_LOCKOUT_END` (R332). -/
  | credentialLockoutEnd (slot : Fin 65)
  /-- `RTC_SECOND` (R356). -/
  | rtcSecond
  /-- `RTC_MSEC_READ` (R357). -/
  | rtcMsecRead
  /-- `RTC_YEAR_READ` (R357). -/
  | rtcYearRead
  /-- `RTC_FREEZE_TIMEOUT` (R357). -/
  | rtcFreezeTimeout
  /-- `RTC_COMMIT` (R358). -/
  | rtcCommit
  /-- `RTC_COMMIT_DONE` (R358). -/
  | rtcCommitDone
  /-- `RTC_TRIM_WRITE` (R359). -/
  | rtcTrimWrite (v : Word)
  /-- `RTC_TRIM_WINDOW` (R359). -/
  | rtcTrimWindow
  /-- `RTC_ATRIM_MEASURE` (R360). -/
  | rtcAtrimMeasure
  /-- `RTC_SYNC_CHECK` (R362). -/
  | rtcSyncCheck
  /-- `RING_TIME_LOSS` (R362). -/
  | ringTimeLoss
  /-- `VBAT_LOW_DETECT` (R354). -/
  | vbatLowDetect
  /-- `VIN_GOOD` (R365). -/
  | vinGood
  /-- `POWER_FAIL_DETECT` (R365). -/
  | powerFailDetect
  /-- `VIN_COLLAPSE` (R365). -/
  | vinCollapse
  /-- `RESET_N` (R365). -/
  | resetN
  /-- `MANAGEMENT_WATCHDOG_EXPIRY` (R367). -/
  | managementWatchdogExpiry
  /-- `THERMAL_SHUTDOWN` (R391). -/
  | thermalShutdown (d : Die)
  /-- `ROOT_ROM_BOOT` (R381). -/
  | rootRomBoot
  /-- `DIE_RELEASE` (R368). -/
  | dieRelease (d : Die) (ready : Bool)
  /-- `DIE_READY_TIMEOUT` (R368). -/
  | dieReadyTimeout (d : Die)
  /-- `CONFIGURATION_LOAD` (R376). -/
  | configurationLoad
  /-- `BRANCH_POWER_WAVE` (R369). -/
  | branchPowerWave (w : Fin 4)
  /-- `PORT_CYCLING_START` (R369). -/
  | portCyclingStart (p : Port)
  /-- `LOGIC_START_MODE_APPLY` (R370). -/
  | logicStartModeApply
  /-- `START_COMPLETE` (R373). -/
  | startComplete
  /-- `START_INCOMPLETE_TIMEOUT` (R373). -/
  | startIncompleteTimeout
  /-- `SVC_OPEN` (R379). -/
  | svcOpen (c : CredTry)
  /-- `SVC_MBX` (R379). -/
  | svcMbx (b : List Byte)
  /-- `SVC_UPDATE_BEGIN` (R380). -/
  | svcUpdateBegin (h : FwHeader)
  /-- `SVC_UPDATE_CHUNK` (R380). -/
  | svcUpdateChunk (idx len : Nat)
  /-- `SVC_UPDATE_END` (R380). -/
  | svcUpdateEnd (digestOk sigOk : Bool)
  /-- `SVC_ACTIVATE` (R382). -/
  | svcActivate
  /-- `SVC_SEEDLING` (R379). -/
  | svcSeedling
  /-- `SVC_RESTART` (R379). -/
  | svcRestart
  /-- `SVC_FREEZE` (R277). -/
  | svcFreeze
  /-- `SVC_THAW` (R277). -/
  | svcThaw
  /-- `SVC_FACTORY_ERASE` (R270). -/
  | svcFactoryErase
  /-- `SVC_PROVISION` (R338). -/
  | svcProvision (pr : Provision)
  /-- `USB_DISCONNECT` (R379). -/
  | usbDisconnect
  /-- `JUNCTION_COOLED` (R195). -/
  | junctionCooled (c : Chan)
  /-- `VBAT_RESTORED` (R354). -/
  | vbatRestored
  /-- `BACKUP_POWER_LOSS` (R336). -/
  | backupPowerLoss
  /-- `UNLOCK_TIME_EXPIRY` (R41). -/
  | unlockTimeExpiry (door : BitVec 11)
  /-- `FLOOR_VALIDITY_EXPIRY` (R350). -/
  | floorValidityExpiry (station : Byte)
  /-- `NODE_SECURE_RX` (R347). -/
  | nodeSecureRx (uid : Uid) (dst : Byte) (f : SecureFrame)
  /-- `OFFLINE_DECISION` (R348). -/
  | offlineDecision (uid : Uid) (reader method : Byte) (cid : Uid)
  deriving DecidableEq, Repr

end Sys2Proof
end

