-- ==== Sys2Proof/Decode.lean ====
section
/-! DEFINITION. Commands spelled as words. No row of spec/opcode_table.json has bits, so no word spells a command of the block;
the logic core's own instructions have the words of 07 Tables 07.6 and 07.7, which are decoded and encoded here. -/
namespace Sys2Proof

/-- The command a word spells by the table's bits: none, since no row of spec/opcode_table.json has bits. -/
def decodeTableWord (_nbits _w : Nat) : Option Instr := none

/-! ### The words of a logic core (07 R154) -/

/-- The fields of an R, an I and a B format word (07 Table 07.6); an extension word follows where Table 07.7 marks E. -/
def rFields (w : V24) : RForm :=
  { rd := w.extractLsb' 13 5, rs1 := w.extractLsb' 8 5, rs2 := w.extractLsb' 3 5, fn := w.extractLsb' 0 3 }
def iFields (w ext : V24) : IForm := { rd := w.extractLsb' 13 5, rs1 := w.extractLsb' 8 5, imm := w.extractLsb' 0 8, ext := ext }
def bFields (w ext : V24) : BForm := { cond := w.extractLsb' 14 4, disp := w.extractLsb' 0 14, ext := ext }

/-- The instruction that a core fetches as `w` with the word `ext` after it (07 Table 07.7); none where the opcode is not
listed, 0x00 among them (07 R156). Field rules are the instructions' own. -/
def decodeCore (k : CoreRef) (w ext : V24) : Option Instr :=
  match (w.extractLsb' 18 6).toNat with
  | 0x01 => some (.add k (rFields w))
  | 0x02 => some (.adds k (rFields w))
  | 0x03 => some (.sub k (rFields w))
  | 0x04 => some (.subs k (rFields w))
  | 0x05 => some (.and k (rFields w))
  | 0x06 => some (.or k (rFields w))
  | 0x07 => some (.xor k (rFields w))
  | 0x08 => some (.shl k (rFields w))
  | 0x09 => some (.shr k (rFields w))
  | 0x0A => some (.sha k (rFields w))
  | 0x0B => some (.mul k (rFields w))
  | 0x0C => some (.mulf k (rFields w))
  | 0x0D => some (.div k (rFields w))
  | 0x0E => some (.rem k (rFields w))
  | 0x0F => some (.cmp k (rFields w))
  | 0x10 => some (.min k (rFields w))
  | 0x11 => some (.max k (rFields w))
  | 0x14 => some (.addi k (iFields w 0))
  | 0x15 => some (.addsi k (iFields w 0))
  | 0x16 => some (.andi k (iFields w 0))
  | 0x17 => some (.ori k (iFields w 0))
  | 0x18 => some (.xori k (iFields w 0))
  | 0x19 => some (.shli k (iFields w 0))
  | 0x1A => some (.shri k (iFields w 0))
  | 0x1B => some (.shai k (iFields w 0))
  | 0x1C => some (.cmpi k (iFields w 0))
  | 0x1D => some (.ldi k (iFields w ext))
  | 0x20 => some (.ld k (iFields w 0))
  | 0x21 => some (.st k (iFields w 0))
  | 0x22 => some (.ldx k (iFields w ext))
  | 0x23 => some (.stx k (iFields w ext))
  | 0x24 => some (.ldp k (iFields w 0))
  | 0x25 => some (.ldps k (iFields w 0))
  | 0x26 => some (.stp k (iFields w 0))
  | 0x27 => some (.stpq k (rFields w))
  | 0x28 => some (.br k (bFields w 0))
  | 0x29 => some (.call k (bFields w ext))
  | 0x2A => some (.callr k (rFields w))
  | 0x2B => some (.ret k (rFields w))
  | 0x2C => some (.taskend k (rFields w))
  | 0x2D => some (.trap k (iFields w 0))
  | 0x2E => some (.brk k (rFields w))
  | 0x30 => some (.tstart k (iFields w 0))
  | 0x31 => some (.telap k (iFields w 0))
  | 0x32 => some (.tdone k (rFields w))
  | 0x38 => some (.mfs k (rFields w))
  | 0x39 => some (.mts k (rFields w))
  | 0x3C => some (.spill k (rFields w))
  | 0x3D => some (.fill k (rFields w))
  | 0x3E => some (.abort k (rFields w))
  | 0x3F => some (.tret k (rFields w))
  | _ => none

/-- The word of an R, an I and a B format instruction with opcode `op`. -/
def rEncode (op : Nat) (r : RForm) : V24 := BitVec.ofNat 6 op ++ r.rd ++ r.rs1 ++ r.rs2 ++ r.fn
def iEncode (op : Nat) (i : IForm) : V24 := BitVec.ofNat 6 op ++ i.rd ++ i.rs1 ++ i.imm
def bEncode (op : Nat) (b : BForm) : V24 := BitVec.ofNat 6 op ++ b.cond ++ b.disp

/-- The words of an instruction of a core, one or two; none of any other command. -/
def encodeCore : Instr → List V24
  | .add _ r => [rEncode 0x01 r]
  | .adds _ r => [rEncode 0x02 r]
  | .sub _ r => [rEncode 0x03 r]
  | .subs _ r => [rEncode 0x04 r]
  | .and _ r => [rEncode 0x05 r]
  | .or _ r => [rEncode 0x06 r]
  | .xor _ r => [rEncode 0x07 r]
  | .shl _ r => [rEncode 0x08 r]
  | .shr _ r => [rEncode 0x09 r]
  | .sha _ r => [rEncode 0x0A r]
  | .mul _ r => [rEncode 0x0B r]
  | .mulf _ r => [rEncode 0x0C r]
  | .div _ r => [rEncode 0x0D r]
  | .rem _ r => [rEncode 0x0E r]
  | .cmp _ r => [rEncode 0x0F r]
  | .min _ r => [rEncode 0x10 r]
  | .max _ r => [rEncode 0x11 r]
  | .addi _ i => [iEncode 0x14 i]
  | .addsi _ i => [iEncode 0x15 i]
  | .andi _ i => [iEncode 0x16 i]
  | .ori _ i => [iEncode 0x17 i]
  | .xori _ i => [iEncode 0x18 i]
  | .shli _ i => [iEncode 0x19 i]
  | .shri _ i => [iEncode 0x1A i]
  | .shai _ i => [iEncode 0x1B i]
  | .cmpi _ i => [iEncode 0x1C i]
  | .ldi _ i => [iEncode 0x1D i, i.ext]
  | .ld _ i => [iEncode 0x20 i]
  | .st _ i => [iEncode 0x21 i]
  | .ldx _ i => [iEncode 0x22 i, i.ext]
  | .stx _ i => [iEncode 0x23 i, i.ext]
  | .ldp _ i => [iEncode 0x24 i]
  | .ldps _ i => [iEncode 0x25 i]
  | .stp _ i => [iEncode 0x26 i]
  | .stpq _ r => [rEncode 0x27 r]
  | .br _ b => [bEncode 0x28 b]
  | .call _ b => [bEncode 0x29 b, b.ext]
  | .callr _ r => [rEncode 0x2A r]
  | .ret _ r => [rEncode 0x2B r]
  | .taskend _ r => [rEncode 0x2C r]
  | .trap _ i => [iEncode 0x2D i]
  | .brk _ r => [rEncode 0x2E r]
  | .tstart _ i => [iEncode 0x30 i]
  | .telap _ i => [iEncode 0x31 i]
  | .tdone _ r => [rEncode 0x32 r]
  | .mfs _ r => [rEncode 0x38 r]
  | .mts _ r => [rEncode 0x39 r]
  | .spill _ r => [rEncode 0x3C r]
  | .fill _ r => [rEncode 0x3D r]
  | .abort _ r => [rEncode 0x3E r]
  | .tret _ r => [rEncode 0x3F r]
  | _ => []

end Sys2Proof
end

