-- ==== Sys2Proof/Config.lean ====
section
/-! DEFINITION. What the spec leaves open: free values, constants with no body, so that a proof can use nothing about
them. Each is named in a row of notes/assumptions. -/
namespace Sys2Proof.Config

/-- A fresh free number for each count of draws: back-off draws, claim slot draws (03 R59, 04 R76). -/
opaque freeNat : Nat → Nat
/-- The severity of an event whose rule names none, by source block and code (12 Table 12.6). -/
opaque severity : Nat → Nat → Fin 5
/-- The code of an event that a rule records and Table 14.8 gives no code for, by the rule's number. -/
opaque eventCode : Nat → BitVec 16
/-- The period in 2^-16 ticks that the metering engine works with in a second whose first phase has fewer than two positive-going
zero crossings (10 R217 states none). -/
opaque noPeriod : List Int → Nat
/-- The sample that an input with a negative PHASE, or an interpolation, takes for one beyond those it has (10 Table 10.5, R219). -/
opaque nextSample : List Int → Int
/-- Cubic interpolation between the second and the third of four successive samples, at a fraction in 2^-16 of the way: 10 R219
does not say which cubic. -/
opaque cubic : Int → Int → Int → Int → Nat → Int
/-- The phase of a component of magnitude 0, in 2^-24 turns: no rule states one. -/
opaque noPhase : Nat
/-- AES-256 of a 16-byte block, and the AES key wrap of SP 800-38F of one key under another (15 R324, R325). -/
opaque aesEnc : BitVec 256 → List Byte → List Byte
opaque keyWrap : BitVec 256 → BitVec 256 → List Byte
/-- The public key of an ephemeral private key; the wrapping key that ECDH P-384 and the one-step derivation give of that private key
and a public key; the layout of an escrow bundle of serial number, tenant, generation count, ephemeral public key and wrapped keys; and
the public half of the identity key of the module with a serial number (15 R327, R340, R341). -/
opaque ecPublic : Nat → List Byte
opaque escrowKdf : Nat → List Byte → BitVec 256
opaque bundleLayout : Uid → Tenant → Nat → List Byte → List (List Byte) → List Byte
opaque identityPub : Uid → List Byte
/-- The key with which an engine works that needs one where none is held: no rule says. -/
opaque noKey : BitVec 256
/-- SHA-384 of a message, and whether an ECDSA P-384 signature (r, s) of a digest verifies under an uncompressed public key (15 R325,
R331). -/
opaque sha384 : List Byte → List Byte
opaque ecdsaOk : List Byte → List Byte → List Byte → Bool
/-- The indication of a DECIDE, by its result and reason (15 Table 15.8). -/
opaque indication : Bool → Nat → Byte
/-- Where Exyan places a die's context table (11 R239). -/
opaque ctxBase : Nat → BitVec 40
/-- The MAC of a line under an integrity key: of its number, its bytes and VERSION (11 R232). -/
opaque lineMac : BitVec 256 → Nat → List Byte → Nat → BitVec 56
/-- What a checkpoint's blocks hold of the segment table and the quota table, by block, what a superblock holds of the store
identity, the mirror flag, the drives' serial numbers and the checkpoint sequence, and what a segment header holds of the kind
and the previous segment behind its first 20 bytes: 12 Table 12.2 and R260 give them no layout. -/
opaque ckptLayout : List (Nat × Bool) → List (Nat × Nat) → Nat → List Byte
opaque superLayout : Nat → Bool → List Nat → Nat → List Byte
opaque headLayout : Nat → Option Nat → List Byte
/-- AES-256-GCM under a key, of an IV, additional data and a plaintext: the 16-byte tag, then the ciphertext (12 R258, 15 R346). -/
opaque gcmSeal : BitVec 256 → List Byte → List Byte → List Byte → List Byte
/-- The firmware version bytes READ_INFO returns for a node (04 Table 04.4). -/
opaque nodeVersion : Uid → BitVec 16
/-- The field I/O controller's firmware version in FIO_ID (09 Table 09.7). -/
opaque fioVersion : BitVec 8
/-- The code address at which the runtime's handler of a trap cause starts, in the image with this identifier (07 R147). -/
opaque handlerPc : BitVec 32 → Nat → BitVec 24

end Sys2Proof.Config
end

