-- ==== Sys2Proof/Machine/State.lean ====
section
/-! DEFINITION. The block's state as plain data: every register, buffer, queue, counter, mode and pin the spec gives the
module, the leaf nodes on its lines, and the queue of waiting commands. Each field's default is its value at reset
(INVENTORY.md lists the source of each). An indexed thing is a sparse list of (index, value) pairs with the indices strictly
rising; an index it does not list has the default. -/
namespace Sys2Proof.Machine

/-- A sparse table: indices strictly rising, an unlisted index has the default its reader names. -/
abbrev Map (α : Type) := List (Nat × α)

/-! ### Points (02) -/

/-- The source shadow of a forced cell (02 R29). -/
structure Shadow where
  qual  : Qual := .noSource
  src   : Src := .field
  value : V24 := 0
  deriving DecidableEq, Repr

/-- A force of the MRAM force table: its value, who forced, and the point's identity when it was placed (02 R32). -/
structure Force where
  value  : V24 := 0
  by_    : Tenant := 0
  tenant : Tenant := 0
  bkind  : Byte := 0
  bref   : Word := 0
  deriving DecidableEq, Repr

/-- The force and count registers of one die's PNT_ window (02 Tables 02.7, 02.8). -/
structure PntRegs where
  forceIdx : BitVec 15 := 0
  forceVal : V24 := 0
  done     : Bool := true
  result   : BitVec 3 := 0
  refused  : Word := 0
  chgmap   : Map Word := []
  deriving DecidableEq, Repr

/-- A change record of the point change stream (02 R34). -/
structure Change where
  mpn    : Nat := 0
  tenant : Tenant := 0
  cell   : Cell := {}
  tick   : Nat := 0
  deriving DecidableEq, Repr

/-- The point images, descriptors and forces of the module. -/
structure Points where
  cells   : Map Cell := []
  chref   : Map V24 := []
  shadows : Map Shadow := []
  lastSrc : Map Nat := []
  descs   : Map Desc := []
  gens    : Map Word := []
  regs    : Map PntRegs := []
  forces  : Map Force := []
  changes : List Change := []
  deriving DecidableEq, Repr

/-! ### Branch ports (03, 04) -/

/-- How the controller sees a node of a port (04 R81, R90). -/
inductive Presence where
  | unseen | present | missing | lost
  deriving DecidableEq, Repr

/-- The controller's record of one address of a port. -/
structure CtlNode where
  state    : Presence := .unseen
  empty    : Nat := 0        -- consecutive empty slots (04 R81)
  heard    : Bool := false   -- a REPORT or ROLLCALL came in the present slot
  missedRc : Nat := 0        -- consecutive missed roll calls while dormant (04 R90)
  rcDue    : Bool := false   -- an active roll call that the node has not answered (04 R78)
  asked    : Bool := false   -- asked by the last dormant beacon's roll call, not answered and not judged yet (04 R90)
  markedAt : Nat := 0        -- tick of the marking as missing
  kgen     : Byte := 0       -- session key generation (15 R347)
  prevOk   : Bool := false   -- the previous generation is still acceptable
  ctrIn    : Nat := 0
  ctrOut   : Nat := 0
  key      : Option (BitVec 256) := none  -- the session key, that of the previous generation, and the one last installed
  prevKey  : Option (BitVec 256) := none
  installed : Option (BitVec 256) := none
  rekIn    : Bool := false   -- REKEY has been sent for the node's counter, and for the own one (15 R347)
  rekOut   : Bool := false
  deriving DecidableEq, Repr

/-- An ASSIGN awaiting its ROLLCALL (04 R77). -/
structure PendAssign where
  uid    : Uid := 0
  plan   : Plan := {}
  sent   : Nat := 1
  due    : Word := 0       -- the cycle by which its ROLLCALL must have come
  deriving DecidableEq, Repr

/-- A COMMAND awaiting its RESPONSE (04 R83). -/
structure PendCmd where
  seq    : Byte := 0
  op     : Byte := 0
  args   : List Byte := []
  sent   : Nat := 1
  sentAt : Nat := 0        -- tick at which it was last sent
  req    : Option Req := none
  deriving DecidableEq, Repr

/-- The entry e of every port's GCL at reset (03 Example 03.3). -/
def defaultGcl : Map GclEntry :=
  [(0, ⟨2064, .beacon, 0⟩), (1, ⟨100000, .scheduled, 0⟩), (2, ⟨147936, .open, 0xFF⟩)]

/-- A branch port: its registers (03 Table 03.9), its transmitter and the controller's view of its nodes. -/
structure BrPort where
  en       : Bool := false
  mode     : Bool := false       -- MODE in BRP_CTRL: false native, true FC-1
  modeEff  : Bool := false       -- MODE in effect: that of the last enable (03 R62)
  running  : Bool := false
  dormant  : Bool := false
  cycnum   : Word := 0
  thr      : Nat := 64
  active   : Bool := false       -- false A, true B
  pending  : Bool := false
  gclErr   : Bool := false
  err      : BitVec 3 := 0
  cycleEff : Nat := 25           -- CYCLE_MS and ENTRIES of the bank in use, as its swap took them (03 R70)
  entriesEff : Nat := 3
  cycleA   : Nat := 25
  entriesA : Nat := 3
  cycleB   : Nat := 25
  entriesB : Nat := 3
  gclA     : Map GclEntry := defaultGcl
  gclB     : Map GclEntry := defaultGcl
  irqStat  : Word := 0
  irqMask  : Word := 0
  ctr      : Map Word := []      -- counter i at 0x200 + 4 × i
  errs     : Nat := 0            -- increments of the counters that watermark 9 watches
  rxType   : Map Word := []
  half     : Word := 0
  halfType : Word := 0
  entry    : Nat := 0            -- GCL entry in progress
  nextCycle : Nat := 0           -- tick from which the next cycle, or the next dormant beacon, may begin (03 R52, 04 R86)
  planMoved : Bool := false      -- a load changed the slot plan since the last cycle start (04 R78)
  slots0   : List (Nat × Nat) := []
  queues   : Map (List TxFrame) := []
  tx       : Option TxFrame := none
  backoff  : Option (Nat × Nat) := none -- queue of the frame that collided, and bit-times of its random wait (03 R59)
  outPend  : List SubFrame := [] -- output values to send again (04 R85)
  outLast  : Map V24 := []       -- value last carried, by address × 64 + channel (04 R82)
  nodes    : Map CtlNode := []
  unbound  : List (Uid × Byte) := []
  assigns  : Map PendAssign := []
  cmds     : Map PendCmd := []
  cmdSeq   : Byte := 0
  round    : Byte := 0
  claimLeft : Nat := 0           -- beacons that still carry CLAIM_OPEN
  claimEnd : Nat := 0            -- tick until which CLAIM is broadcast once per second (17 R369)
  claimAt  : Nat := 0            -- tick from which the next one goes
  rollcall : Bool := false       -- the next beacon carries the roll call of all addresses (04 R78)
  rcNow    : Bool := false       -- the beacon of the present cycle carries it
  dormEn   : Bool := false
  dormStart : Nat := 0
  dormStop : Nat := 0
  period   : Nat := 1000
  rcn      : Nat := 64
  rcf      : Nat := 1            -- first address of the next dormant subset
  subset   : Nat × Nat := (0, 0) -- the subset of the last dormant beacon: first address and length
  train    : Option Nat := none  -- tick at which the wake train before the next beacon began (04 R90, R92)
  powered  : Bool := false       -- its branch power enable's wave has come (17 R369)
  swapReq  : Option Req := none  -- the BR_SCHED_LOAD that completes at the swap
  swapTick : Nat := 0            -- tick of the swap request (03 Table 03.8)
  dormAt   : Nat := 0            -- tick at which the last dormant beacon started (04 R90)
  woke     : Bool := false       -- a wake pulse ended dormancy; the first active cycle has not begun
  lastSent : Option TxFrame := none -- the frame last put on the line
  unboundCh : Nat := 0           -- received channels bound to no point, discarded (01 Table 01.8)
  deriving DecidableEq, Repr

/-! ### Leaf nodes (04) -/

/-- A node's state (04 Table 04.6). -/
inductive NodeMode where
  | unaddr | sync | active | dsleep | dlisten | seek | fallback
  deriving DecidableEq, Repr

/-- What a node last sent. -/
inductive NodeSent where
  | none | report (first : Nat) (vals : List ChanVal) | rollcall (uid : Uid) (cls : Byte) (stat : BitVec 3)
  | claim (uid : Uid) (cls : Byte) (chmap : List Byte) | wakePulse | response (seq op status : Byte) (data : List Byte)
  | offline (cid : Uid) (unlocked : Bool) | event (seq ch : Byte) (v : ChanVal)
  deriving DecidableEq, Repr

/-- An entry of a door node's offline cache (15 R348). -/
structure CacheEntry where
  cid     : Uid := 0
  untilT  : Word := 0xFFFFFFFF
  sched   : Byte := 0xFF
  cardPin : Bool := false
  deriving DecidableEq, Repr

/-- A leaf node: what it stores, and its dormant timing in 0.1 µs counts of its own timer. -/
structure Node where
  port     : Nat := 0
  cls      : Byte := 0
  chmap    : List Byte := []
  plan     : Option Plan := none       -- address and slot plan in non-volatile memory (04 R72)
  mode     : NodeMode := .unaddr
  heard    : Bool := false             -- a beacon was heard in the present cycle (04 R80)
  cyc8     : Byte := 0
  rollDue  : Bool := false             -- answer ROLLCALL in place of REPORT
  stat     : BitVec 3 := 0             -- STAT for the next roll call (04 Table 04.2)
  claimR   : Option Nat := none        -- drawn claim slot (04 R76)
  claimAt  : Nat := 0                  -- its timer's reading at which the drawn delay is over
  coll     : Nat := 0                  -- collisions of the open-window frame last sent (03 R59)
  backoff  : Option Nat := none        -- bit-times of its random wait in force
  fault    : Bool := false             -- its self-test found a fault (STAT [2])
  outputs  : Map V24 := []
  fallbackV : Map V24 := []
  inFallback : Bool := false           -- outputs stand in their fallback state
  halt     : Option Nat := none        -- a mover's ramp stop over so many 10 ms; it then holds until a new target (04 R84)
  absent   : Bool := false             -- a lift gateway signals controller absence (04 Table 04.5)
  wakeMask : BitVec 64 := 0
  ramp     : Nat := 0
  identify : Nat := 0
  lastSeq  : Option Byte := none       -- SEQ of the COMMAND last answered (04 R83)
  lastResp : NodeSent := .none         -- the RESPONSE it gave
  sniff    : Bool := false             -- in fallback after a seek, it hears the line only while it listens (04 R91)
  listening : Bool := false
  nextMs   : Nat := 0
  sumMs    : Nat := 0                  -- sum of NEXT_MS since the last beacon heard (04 R88)
  misses   : Nat := 0
  rate     : Nat × Nat := (1, 1)       -- timer scale: nominal over counted (04 R89)
  answered : Bool := false             -- answered in the present roll-call round (04 R87)
  lastRcf  : Nat := 0                  -- RCF of the last dormant beacon heard
  fbFrom   : Nat := 0                  -- its timer's reading from which the fallback time runs (04 R84); 0.1 µs
  beaconAt : Nat := 0                  -- its timer's reading at the start of the last beacon heard (04 R88)
  seekAt   : Nat := 0                  -- its timer's reading at which it entered seek (04 R88)
  sniffAt  : Nat := 0                  -- its timer's reading at its last sniff, or at which it began to listen (04 R91)
  sent     : NodeSent := .none
  evSeq    : Byte := 0                 -- SEQ of its last EVENT (04 Table 04.3)
  evVals   : Map ChanVal := []         -- values of EVENTs that its next REPORT carries, by channel (04 R83)
  kgen     : Byte := 0
  prevOk   : Bool := false
  ctrIn    : Nat := 0
  key      : Option (BitVec 256) := none -- its session key and that of the previous generation (15 R346, R347)
  prevKey  : Option (BitVec 256) := none
  cacheVer : Nat := 0
  cache    : List CacheEntry := []
  cacheSched : List (List Bool) := []
  loadVer  : Nat := 0                  -- version being received, its chunk count and the chunks held
  loadN    : Nat := 0
  loadData : Map (List Byte) := []
  clockMs  : Option Nat := none
  offset   : Int := 0
  unlocked : Nat := 0                  -- unlock time in force at a door node, 0.1 s
  floors   : BitVec 256 := 0
  offlineQ : List (Uid × Nat × Bool × Byte) := []
  deriving DecidableEq, Repr

/-! ### Trunk (05) -/

/-- The alignment state of a lane (05 Table 05.3). -/
inductive LaneMode where
  | hunt | presync | lock
  deriving DecidableEq, Repr

/-- An alignment candidate: its position in the superframe in bits, its last SFN and its hits since PRESYNC. -/
structure Candidate where
  pos     : Nat := 0
  arrival : Nat := 0
  sfn     : Option Nat := none
  hits    : Nat := 0
  deriving DecidableEq, Repr

/-- A lane's receiver (05 R101, 17 R371). -/
structure LaneSt where
  mode    : LaneMode := .hunt
  cands   : List Candidate := []
  pos     : Nat := 0
  miss    : Nat := 0
  sfn     : Nat := 0
  arrival : Nat := 0        -- arrival of its last header, ns
  training : Bool := true
  rxReady : Bool := false   -- READY set by this end
  ready   : Nat := 0        -- consecutive frames with READY from the far end
  taps    : Int × Int × Int := (0, 0, 0)
  trainAt : Nat := 0          -- tick at which its training begins (17 R371)
  deriving DecidableEq, Repr

/-- A frame waiting on a trunk port: relayed frames of a class go before local ones (05 R107). -/
structure TrkOut where
  frame   : TrkFrame := {}
  body    : List Byte := []
  relayed : Bool := false
  held    : Bool := false   -- counted in TRK_GATE_OVERRUN for the hold in force
  deriving DecidableEq, Repr

/-- The default trunk GCL (05 Table 05.6). -/
def defaultTrkGcl : Map TrkEntry :=
  [(0, ⟨1024, 0xC0⟩), (1, ⟨24000, 0x30⟩), (2, ⟨72000, 0x0C⟩), (3, ⟨41373, 0x02⟩), (4, ⟨68472, 0xFF⟩)]

/-- A trunk port (05 Table 05.8). -/
structure TrkPort where
  en       : Bool := false
  mode     : Bool := false
  wrapForce : Bool := false
  precode  : BitVec 2 := 0
  inv      : BitVec 2 := 0
  lanes    : Map LaneSt := []
  up       : Bool := false
  upCount  : Nat := 0        -- superframes the port has been up without break
  wrapped  : Bool := false
  deskewErr : Bool := false
  neigh    : Byte := 0xFF
  neighRelay : Bool := false
  rxSfn    : Nat := 0
  sfnShadow : Word := 0
  thr      : Nat := 1024
  skew     : Int := 0
  offset   : Int := 0
  delay    : Int := 0
  advPrio  : Byte := 0       -- the neighbour's advertisement
  advId    : Byte := 0
  advHops  : Nat := 0
  advValid : Bool := false
  advSeq   : Nat := 0
  ownMeas  : Option (Int × Nat) := none -- this end's MEAS and the SFN [15:0] it belongs to (05 R116)
  active   : Bool := false
  pending  : Bool := false
  gclErr   : Bool := false
  err      : BitVec 3 := 0
  nA       : Nat := 5
  nB       : Nat := 5
  gclA     : Map TrkEntry := defaultTrkGcl
  gclB     : Map TrkEntry := defaultTrkGcl
  irqStat  : Word := 0
  irqMask  : Word := 0
  ctr      : Map Word := []
  fecs     : Nat := 0        -- increments of TRK_FEC_CW
  rxClass  : Map Word := []
  half     : Word := 0
  halfClass : Word := 0
  queues   : Map (List TrkOut) := []
  swapReq  : Option Req := none
  swapTick : Nat := 0
  modeEff  : Bool := false   -- MODE in effect (05 R110)
  nEff     : Nat := 5        -- entries of the bank in use, as its swap took them
  air      : List TrkOut := [] -- frames that leave in the present superframe; counted when it is over (05 R67, Table 05.7)
  hdr      : TrkHeader := {} -- the header sent with the present superframe (05 Table 05.2)
  deriving DecidableEq, Repr

/-- The station's part of the trunk that both ports share (05 R100, R107, R112 to R115). -/
structure Trunk where
  a        : TrkPort := {}
  b        : TrkPort := {}
  sfn      : Nat := 0
  prio     : Byte := 0x80
  relayOnly : Bool := false   -- from the start of Exyan until a configuration is loaded (17 R372), and under DUP_ID (05 R114)
  lastSf   : Option Nat := none -- tick of the last superframe boundary (05 R100)
  dupId    : Bool := false
  tmPrio   : Byte := 0
  tmId     : Byte := 0
  tmHops   : Nat := 0
  tmValid  : Bool := false
  tmSeq    : Nat := 0
  tmIdle   : Nat := 0         -- superframes since TM_SEQ advanced
  timePort : Option TrunkPort := none
  ringTime : Bool := false    -- ring time has been gained and the SFN relabelled (05 R116)
  topoSeq  : Word := 0
  ringMap  : Map Topology := []
  lastSeq  : Map Nat := []    -- last broadcast accepted, by source × 8 + class
  txSeq    : Map Nat := []    -- next frame SEQ, by class
  deriving DecidableEq, Repr

/-! ### Logic (06, 07) -/

/-- The three logic modes (06 R129). -/
inductive LogicMode where
  | stop | run | hold
  deriving DecidableEq, Repr

/-- A queued online change (06 R135). -/
inductive Online where
  | var (addr : Nat) (v : V24) (req : Option Req)
  | const (idx : Nat) (v : V24) (req : Option Req)
  deriving DecidableEq, Repr

/-- An MRAM retain slot (06 R131); `good` is the outcome of its CRC and of R132's invalidation. -/
structure RetainSlot where
  good     : Bool := false
  vars     : List (Nat × V24) := []
  seq      : Word := 0
  tick     : Nat := 0
  retainId : Word := 0
  deriving DecidableEq, Repr

/-- A journalled output store (07 R153). -/
structure OutStore where
  mpn   : Nat := 0
  value : V24 := 0
  qual  : Qual := .good
  task  : Nat := 0          -- the task that stored it
  deriving DecidableEq, Repr

/-- A core (07 Table 07.1). `regs` holds c0–c7 at 0–7, a0–a3 at 8–11, window w's v0–v7, p0–p3 at 16 + 12w, and the trap
window's at 136. -/
structure CoreSt where
  regs    : Map V24 := []
  retpc   : Map V24 := []       -- hidden return address of window w
  fdepth  : Map V24 := []       -- call depth of the frame in window w
  pc      : V24 := 0
  z       : Bool := false
  n       : Bool := false
  c       : Bool := false
  v       : Bool := false
  sats    : Bool := false
  dzs     : Bool := false
  tw      : Bool := false
  wix     : Nat := 0
  wom     : BitVec 10 := 0
  sp      : V24 := 0
  tc      : Byte := 0
  depth   : Nat := 0
  tnt     : Tenant := 0
  task    : Option Nat := none
  rest    : List Nat := []      -- tasks of this scan still to run, in run order
  bps     : Map V24 := []       -- enabled hardware breakpoints by index
  bpPass  : Bool := false       -- the breakpoint at pc has been reported and is not triggered again (07 R149)
  stepping : Bool := false      -- a LOGIC_STEP is in progress
  stepReq : Option Req := none  -- the LOGIC_STEP that waits for the step in progress
  dtraps  : List Nat := []      -- scan numbers of its double traps (07 R151)
  dzEvent : Bool := false       -- the divide-by-zero event of this task in this scan has been recorded
  ending  : Bool := false       -- another core's double trap has skipped the scan: one more instruction runs (07 R159)
  deriving DecidableEq, Repr

/-- A die's logic (06 Table 06.3, R121 to R135). -/
structure LogicDie where
  mode     : LogicMode := .stop
  fault    : Bool := false
  pend     : Bool := false      -- a stop awaits the commit of the scan in progress (06 R130)
  cause    : BitVec 4 := 0
  limit    : Nat := 100
  retainMs : Nat := 10
  skipLim  : Byte := 10
  seq      : Word := 0
  scanLast : Word := 0
  scanMax  : Word := 0
  startTick : BitVec 64 := 0
  startShadow : Word := 0
  commitTick : BitVec 64 := 0
  commitShadow : Word := 0
  skips    : Word := 0
  skipConsec : Byte := 0
  dtraps   : Word := 0
  resumeSeq : Word := 0xFFFFFFFF
  holdTask : BitVec 6 := 0
  holdCore : BitVec 2 := 0
  holdBreak : Bool := false
  stepDone : Bool := false
  irqStat  : Word := 0
  irqMask  : Word := 0
  image    : Option LogicImage := none
  vars     : Map V24 := []      -- committed bank
  consts   : List V24 := []
  journal  : List (Nat × V24) := []   -- this scan's stores, oldest first
  outJ     : List OutStore := []
  snapshot : Map Cell := []
  carry    : List Nat := []     -- cells whose CHG a skipped scan had taken (06 R127)
  inScan   : Bool := false
  scanNo   : Nat := 0           -- scans started, skipped ones included and discarded ones not (07 R151)
  holding  : Option Nat := none -- HOLD is entered when no core is in a handler: its cause (07 R159)
  holdAt   : Nat := 0           -- tick at which HOLD was entered
  holdTicks : Nat := 0          -- ticks that the open scan has spent in HOLD (06 R126)
  scanTick : BitVec 64 := 0
  ran      : List Nat := []
  lastRan  : List Nat := []
  stopReqs : List (Req × Byte) := []  -- each with the mask of dies that refused it
  holdReqs : List (Req × Byte) := []  -- LOGIC_HOLDs that wait for HOLD, in the same way (14 R319)
  queue    : List Online := []
  slotA    : RetainSlot := {}
  slotB    : RetainSlot := {}
  staging  : Option RetainSlot := none
  retained : Bool := true       -- the last commit has been written
  writing  : Option Bool := none -- the retain slot being written: false A, true B
  writeData : RetainSlot := {}  -- what it writes
  writeTick : Option Nat := none -- start of the previous retain write
  started  : Bool := false      -- the start mode has been applied
  taskUs   : Map Word := []
  deriving DecidableEq, Repr

/-! ### Loops (08) -/

/-- A computed output that waits for its boundary (08 R172 to R174). -/
structure Latch where
  due   : Nat := 0
  value : V24 := 0
  qual  : Qual := .noSource
  late  : Bool := false      -- the sample was not complete in time
  deriving DecidableEq, Repr

/-- A loop slot (08 Tables 08.1, 08.10, 08.11). -/
structure LoopSlot where
  cfg     : Option LoopCfg := none
  spc     : V24 := 0
  omin    : V24 := 0
  omax    : V24 := 0
  rate    : V24 := 0
  bankA   : Bank := {}
  bankB   : Bank := {}
  bank    : Bool := false
  pending : Bool := false
  resetSt : Bool := false
  swapErr : Bool := false
  err     : BitVec 3 := 0
  running : Bool := false
  pvbad   : Bool := false
  clampHi : Bool := false
  clampLo : Bool := false
  rateLim : Bool := false
  sat     : Bool := false
  outForced : Bool := false
  out     : V24 := 0
  outQual : Qual := .noSource
  lastErr : V24 := 0
  gen     : Word := 0
  s1      : Map Int := []
  s2      : Map Int := []
  uPrev   : Option Int := none
  count   : Nat := 0
  latches : List Latch := []                    -- oldest first
  lastAt  : Option Nat := none                  -- tick of its last sample
  outer   : V24 × Qual := (0, .noSource)        -- output last computed, as an inner slot reads it
  applied : Bool := false                       -- has applied an output
  swapReq : Option Req := none
  deriving DecidableEq, Repr

/-- A capture record (08 Table 08.7). -/
structure CapRec where
  pv   : V24 := 0
  pvQ  : Qual := .noSource
  sp   : V24 := 0
  spQ  : Qual := .noSource
  err  : V24 := 0
  out  : V24 := 0
  bits : BitVec 6 := 0   -- CLAMP_HI, CLAMP_LO, RATE, INJ, STEP_START, HELD
  deriving DecidableEq, Repr

/-- A test unit (08 Table 08.13) and its generator (08 R180, R181). -/
structure TestUnit where
  slot    : Nat := 0
  injEn   : Bool := false
  atSp    : Bool := false
  sig     : BitVec 2 := 0
  capEn   : Bool := false
  prbsN   : BitVec 4 := 0
  amp     : BitVec 23 := 0
  len     : BitVec 21 := 0
  hold    : Byte := 1
  p0      : V24 := 0
  rho     : V24 := 0x100000
  steps   : Byte := 1
  settle  : Byte := 0
  meas    : Byte := 1
  capN    : BitVec 17 := 0x10000
  addr    : BitVec 36 := 0
  active  : Bool := false
  injOn   : Bool := false
  capOn   : Bool := false
  starting : Bool := false    -- starts at the slot's next sample
  stopping : Bool := false
  done    : Bool := false
  ovf     : Bool := false
  result  : BitVec 3 := 0
  count   : Nat := 0
  t0      : BitVec 64 := 0
  t0Shadow : Word := 0
  lfsr    : Nat := 0
  held    : Nat := 0          -- samples the present PRBS bit has been held
  prbsPos : Nat := 0          -- bits since the period began
  phi     : Nat := 0
  inc     : Nat := 0
  stepNo  : Nat := 0
  cycles  : Nat := 0
  injected : Nat := 0
  owner   : Option Tenant := none
  dmaOn   : Bool := false     -- its DMA channel runs for this capture (08 R183)
  buffer  : List CapRec := [] -- records that wait for the channel
  records : List CapRec := [] -- records captured
  deriving DecidableEq, Repr

/-- The engine registers of one die (08 Table 08.9). -/
structure LoopDie where
  sel     : BitVec 13 := 0
  peak    : BitVec 13 := 0
  tickOf  : Nat := 0           -- evaluations counted in the tick below
  tickNo  : BitVec 64 := 0
  late    : Word := 0
  satCnt  : Word := 0
  pvbadCnt : Word := 0
  irqStat : Word := 0
  irqMask : Word := 0
  units   : Map TestUnit := []
  shadow1 : Map Word := []     -- high-word shadows of LPE_STATE
  deriving DecidableEq, Repr

/-! ### Field I/O (09) -/

/-- A group's supply (09 R190). -/
structure Group where
  volt    : Nat := 0       -- L+ in mV at the last sample
  current : Nat := 0       -- mA
  missing : Bool := false
  low     : Bool := false
  below   : Nat := 0
  above   : Nat := 0
  thr     : Nat := 180
  seen    : Bool := false  -- sampled since the controller's power-up
  freeAt  : Nat := 0       -- first tick of the next free 10 ms retry window (09 R196)
  restore : List Nat := [] -- outputs due on after MISSING ended, ascending
  retryQ  : List (Nat × Nat) := [] -- retries due: the window each fell due for, its channel; in order (09 R196)
  deriving DecidableEq, Repr

/-- A universal channel (09 Table 09.8). -/
structure ChanSt where
  raw     : Bool := false
  filt    : Bool := false
  on      : Bool := false
  curlim  : Bool := false
  short   : Bool := false
  thermal : Bool := false
  openLoad : Bool := false
  inFail  : Bool := false
  retryPend : Bool := false
  latched : Bool := false
  groupOvl : Bool := false
  stBusy  : Bool := false
  integ   : Nat := 0
  sampling : Bool := false   -- its sample timer runs
  count   : V24 := 0
  blanking : Bool := false
  retrying : Bool := false   -- on by a retry whose blanking has not ended
  cooled  : Bool := true     -- below 135 °C since the trip
  elapsed : Bool := false    -- RETRY_T has elapsed
  onOrder : Nat := 0         -- when it last switched on, as a rank
  cmd     : Bool := false    -- what its driver commands
  dirty   : Bool := false    -- its point is written at the next tick
  deriving DecidableEq, Repr

/-- An analog input's last sample (09 Table 09.7). -/
structure AinSt where
  value : V24 := 0
  qual  : Qual := .noSource
  deriving DecidableEq, Repr

/-- A motion channel's STATE (09 Table 09.9). -/
inductive MotState where
  | idle | far | home | dead | coasting | homing | fault
  deriving DecidableEq, Repr

/-- What a move drives to. -/
inductive MoveGoal where
  | farLimit | homeLimit | target (v : V24) | homing
  deriving DecidableEq, Repr

/-- A motion channel (09 Table 09.9, R203 to R208). -/
structure Motion where
  pos      : V24 := 0
  lFar     : Nat := 0
  lHome    : Nat := 0
  nFar     : Nat := 0
  nHome    : Nat := 0
  state    : MotState := .idle
  fault    : Nat := 0
  homed    : Bool := false
  learnRej : Bool := false
  target   : V24 := 0
  lastC    : Nat := 0
  lastAcc  : Bool := false
  lastDir  : Bool := false    -- false far, true home
  lastLeg  : Option Bool := none  -- the leg last on: false far, true home
  runStart : Nat := 0
  runTicks : Nat := 0         -- length of the run that the coast follows
  coast    : Nat := 0
  accFar   : Bool := false    -- an accepted measurement exists
  accHome  : Bool := false
  goal     : Option MoveGoal := none
  next     : Option MoveGoal := none  -- the move that waits for coast and DT
  dtPend   : Bool := false    -- DT since the last leg went off has not elapsed
  homeHit  : Option Int := none -- tick of the home limit's first activation in a homing; one before a reset is negative
  chatter  : Nat := 0
  legFar   : Bool := false    -- leg latched by a fault
  legHome  : Bool := false
  ocFar    : Option Int := none -- tick of the last overcurrent or thermal trip
  ocHome   : Option Int := none
  reqs     : List Req := []
  deriving DecidableEq, Repr

/-- The field I/O controller (09 Table 09.7). -/
structure FieldIO where
  linkUp   : Bool := false
  configured : Bool := false
  held     : Bool := false      -- the controller holds a configuration (09 R199)
  lost     : Bool := false      -- its link was lost and has not been restored
  unsent   : Bool := false      -- a configuration loaded meanwhile waits for the link
  safe     : Bool := true
  cause    : Nat := 4
  wdTmo    : Nat := 100
  wdLogic  : Bool := false
  stInt    : Nat := 0
  groups   : Map Group := []
  filtShadow : Word := 0
  outShadow : Word := 0
  shorts   : Word := 0
  wdExp    : Word := 0
  irqStat  : Word := 0
  irqMask  : Word := 0
  chans    : Map ChanSt := []
  ains     : Map AinSt := []
  aouts    : Map V24 := []      -- word in effect at output k
  aoNext   : Map V24 := []      -- word sent for output k, written at the DAC instant
  mots     : Map Motion := []
  targets  : Map V24 := []      -- the motion target values last acted on
  chanDue  : Bool := false      -- the 50 ms refresh of channel and motion points falls due (09 R188)
  ainDue   : Bool := false      -- the 1 ms write of analog points falls due
  pass     : Option Nat := none -- self-test: next channel of the pass
  rank     : Nat := 0           -- last switch-on rank given
  stAt     : Nat := 0           -- tick at which the last self-test pass began
  refreshed : Nat := 0          -- tick of the last watchdog refresh
  deriving DecidableEq, Repr

/-! ### Metering (10) -/

/-- A metering input (10 Table 10.9). -/
structure MInputSt where
  sample  : V24 := 0
  peak    : V24 := 0
  gain    : V24 := 0x400000
  phase   : V24 := 0
  offset  : V24 := 0
  itrim   : V24 := 0
  calBad  : Bool := false
  nextCal : Option (V24 × V24 × V24 × V24) := none  -- in MRAM, in effect at the next second (10 R226)
  crc     : Word := 0xAD02BCA4   -- the CRC-32 stored with the set in MRAM (10 R224)
  integY  : Int := 0     -- Rogowski integrator at the start of the running second: its output in 2^-20 codes
  integX  : Int := 0     -- and the sample before it, its offset subtracted
  samples : List Int := []  -- codes of the running second, newest first
  prev    : List Int := []  -- calibrated codes of the previous second in 2^-22, newest first
  saturated : Bool := false
  harm    : Harmonics := {}
  deriving DecidableEq, Repr

/-- A calibration measurement in progress (10 R225): it keeps the set in effect at its start. -/
structure CalMeas where
  input : Nat := 0
  left  : Nat := 10
  req   : Req
  cal   : V24 × V24 × V24 × V24 := (0x400000, 0, 0, 0)
  sum   : Int := 0
  sq    : Nat := 0
  n     : Nat := 0
  angle : Int := 0   -- the sum of the seconds' phases relative to the voltage phase, in 2^-20 cycles
  deriving DecidableEq, Repr

/-- A voltage set's area (10 Table 10.8). -/
structure Vset where
  gen  : Word := 0
  rms  : Map Word := []
  freq : Word := 0
  thd  : Map Word := []
  vbad : BitVec 3 := 0
  deriving DecidableEq, Repr

/-- A circuit's area (10 Table 10.10) and its totals with their residues. -/
structure Circuit where
  gen    : Word := 0
  flags  : BitVec 6 := 0
  sec    : Word := 0
  p      : Word := 0
  q      : Word := 0
  s      : Word := 0
  pf     : Word := 0
  i      : Map Word := []
  inN    : Word := 0
  e      : Map (BitVec 64) := []
  shown  : Map (BitVec 64) := [] -- the totals of the last one-second write, which MTR_K_E shows
  res    : Map Word := []
  shownRes : Map Word := []      -- the residues of that write
  eShadow : Map Word := []
  prevP  : Int := 0      -- exact power of the previous second, 2^-32 mWh per second
  prevQ  : Int := 0
  clear  : Bool := false
  zero   : Bool := false -- its totals were cleared: the next write holds zeros
  late   : List (Int × Int) := [] -- energies of the second before, for the totals after that write
  deriving DecidableEq, Repr

/-- An MRAM slot of the energy totals (10 R223). -/
structure TotalSlot where
  good   : Bool := false
  count  : Nat := 0
  e      : Map (List (BitVec 64)) := []
  res    : Map (List Word) := []
  deriving DecidableEq, Repr

/-- A waveform stream in progress (10 R227). -/
structure WaveRun where
  inputs : List Nat := []
  frames : Nat := 0
  done   : Nat := 0
  va     : Nat := 0
  tenant : Tenant := 0
  deriving DecidableEq, Repr

/-- The metering engine (10 Table 10.7). -/
structure Metering where
  running : Bool := false
  stActive : Bool := false
  stInput : BitVec 6 := 0
  stNext  : Option Nat := none   -- next input of the pass
  stHit   : List Nat := []       -- inputs tested in the running second
  connected : Bool := false
  lastSlot : Bool := false
  count   : Nat := 0             -- second count of the total slots (10 R223)
  synced  : Bool := false        -- ring time has been in use since the second began at its boundary (10 R212)
  stInt   : Nat := 0
  sec     : BitVec 64 := 0       -- seconds since start
  secShadow : Word := 0
  stLast  : Word := 0
  stFails : Word := 0
  irqStat : Word := 0
  irqMask : Word := 0
  tau     : Nat := 0             -- ticks of the running second so far
  calChg  : List Nat := []       -- inputs whose new set takes effect in the running second
  vsets   : Map Vset := []
  inputs  : Map MInputSt := []
  circuits : Map Circuit := []
  slotA   : TotalSlot := {}
  slotB   : TotalSlot := {}
  wave    : Option WaveRun := none
  waveLast : Option WaveRun := none -- the last stream that has ended
  waveOvf : Bool := false
  measures : List CalMeas := []
  halfAt  : Map Nat := []        -- tick of the last zero crossing of a voltage phase
  harmAt  : Map Nat := []        -- tick at which a set's harmonic window began
  stEnd   : Map Nat := []        -- tick at which the last test of an input ended
  stAt    : Nat := 0             -- tick at which the last self-test pass began
  deriving DecidableEq, Repr

/-! ### Memory, translation, DMA (11) -/

/-- The tag of a DRAM line (11 Table 11.2); `good` is whether its MAC verifies against the line's data. -/
structure Tag where
  good    : Bool := false     -- the MAC verifies
  mac     : BitVec 56 := 0
  version : BitVec 7 := 0
  poison  : Bool := false
  deriving DecidableEq, Repr

/-- A page table entry as the walk reads it (11 Table 11.4). -/
structure Pte where
  v      : Bool := false
  w      : Bool := false
  leaf   : Bool := false
  pin    : Bool := false
  pa     : Nat := 0
  rsv    : Bool := false
  deriving DecidableEq, Repr

/-- A fault queue entry (11 Table 11.11). -/
structure FaultEntry where
  ctx   : BitVec 16 := 0
  cause : BitVec 3 := 0
  write : Bool := false
  pin   : Bool := false
  inst  : BitVec 5 := 0
  va    : BitVec 36 := 0
  tick  : Word := 0
  deriving DecidableEq, Repr

/-- A die's translation unit and integrity engine (11 Table 11.11). -/
structure Atu where
  enabled : Bool := false
  invBusy : Bool := false
  fqOvf   : Bool := false
  ctxBase : BitVec 40 := 0
  invCtx  : BitVec 16 := 0
  invVa   : BitVec 36 := 0
  fq      : List FaultEntry := []
  fqLost  : Word := 0
  faults  : Word := 0
  tlbMiss : Word := 0
  integFail : Word := 0
  integs  : Nat := 0             -- increments of ATU_INTEG_FAIL
  poisoned : Word := 0
  lastAddr : BitVec 40 := 0
  lastOwner : Tenant := 0
  irqStat : Word := 0
  irqMask : Word := 0
  tlb     : Map (Nat × Pte) := []  -- by context × 2^24 + page: physical page and the leaf
  deriving DecidableEq, Repr

/-- The state of a DMA channel (11 Table 11.13). -/
inductive DmaState where
  | idle | running | waiting | parked | halted | done
  deriving DecidableEq, Repr

/-- A DMA descriptor as the channel holds it (11 Table 11.8). -/
structure Descriptor where
  mode  : BitVec 3 := 0
  esize : BitVec 3 := 0
  idx32 : Bool := false
  irq   : Bool := false
  last  : Bool := false
  srcSp : BitVec 2 := 0
  dstSp : BitVec 2 := 0
  count : Nat := 0
  nchm1 : Nat := 0
  ssz   : BitVec 2 := 0
  src   : Nat := 0
  plane : Nat := 0
  dst   : Nat := 0
  next  : Nat := 0
  idx   : Nat := 0
  deriving DecidableEq, Repr

/-- A DMA channel (11 Table 11.13). -/
structure DmaCh where
  prio    : BitVec 2 := 0
  retry   : BitVec 3 := 0
  ctx     : BitVec 16 := 0
  state   : DmaState := .idle
  reason  : BitVec 4 := 0
  used    : BitVec 3 := 0
  retrying : Bool := false       -- its element is being repeated after a bus error (11 R249)
  desc    : BitVec 36 := 0
  faddr   : BitVec 36 := 0
  fwrite  : Bool := false
  findex  : Bool := false
  fpoint  : Bool := false
  doneN   : Word := 0
  preempt : Word := 0
  busErr  : Word := 0
  cur     : Option Descriptor := none
  el      : Nat := 0             -- element of the descriptor: chunk, element, sample or quarter of a block
  off     : Nat := 0             -- bytes moved by the elements before it, in mode 0
  tmp     : List Word := []      -- words of a mode 5 block read so far
  wbLine  : Option Nat := none   -- physical line of the write buffer
  wbBytes : Map Byte := []       -- its bytes by offset
  wbVa    : Nat := 0             -- its device-virtual address
  wbEl    : Nat := 0             -- the last element that put bytes into it, and its `off`
  wbOff   : Nat := 0
  abort   : Bool := false
  inp     : List Byte := []      -- bytes that an engine of the module has put at the port of its own channel (Table 11.7)
  deriving DecidableEq, Repr

/-- A die's DMA engine (11 Table 11.12). -/
structure DmaDie where
  irqStat : Word := 0
  irqMask : Word := 0
  chans   : Map DmaCh := []
  last    : Option Nat := none   -- channel of the element last moved
  turn    : Map Nat := []        -- last channel served at each level, for the round robin
  port    : List Byte := []      -- bytes at the engine port
  deriving DecidableEq, Repr

/-! ### History and events (12) -/

/-- A committed event record (12 Table 12.6). -/
structure EvRec where
  seq    : Nat := 0
  tick   : BitVec 64 := 0           -- the tick it was created in (01 Table 01.7); no part of the 64 bytes
  opsec  : Word := 0
  pcc    : V24 := 0
  rtcOk  : Bool := false
  coal   : Bool := false
  loss   : Bool := false
  timeMs : Nat := 0
  ev     : Event := {}
  rep    : Nat := 1
  deriving DecidableEq, Repr

/-- A held key of the coalescer (12 R272): the record it names by creation number, and when that was created. -/
structure EvKey where
  ev      : Event := {}
  tick    : Nat := 0
  id      : Nat := 0
  dropped : Bool := false
  deriving DecidableEq, Repr

/-- The counts of a loss marker (12 R273). -/
structure Loss where
  n     : Nat := 0
  first : Nat := 0
  last  : Nat := 0
  mask  : Word := 0
  deriving DecidableEq, Repr

/-- The event recorder (12 Table 12.10, R269 to R277). A queued or committed record carries its creation number. -/
structure Recorder where
  head     : Nat := 0                -- SEQ of the newest committed record
  sap      : Map (Nat × EvRec) := []
  heart    : Map (Nat × EvRec) := []
  heartN   : Nat := 0
  planted  : Bool := false
  frozen   : Bool := false
  pcc      : V24 := 0
  opsec    : Word := 0
  kept     : Option Loss := none     -- MRAM: the loss marker of a power-fail
  keys     : List EvKey := []        -- oldest first
  queue    : List (Nat × EvRec) := []
  overflow : Bool := false
  loss     : Loss := {}              -- overflow drops not yet in a queued marker
  nextId   : Nat := 0
  page     : BitVec 3 := 0
  dropped  : Word := 0
  coalesced : Word := 0
  qmax     : Nat := 0
  irqStat  : Word := 0
  irqMask  : Word := 0
  headShadow : Word := 0
  tailShadow : Word := 0
  pfWindow : Bool := false           -- within 1.5 ms of power-fail detection
  stopped  : Bool := false           -- the window ended
  pfAt     : Nat := 0                -- ticks of the detection, of the freeze, and of the last OPSEC second
  frozenAt : Nat := 0
  opsecAt  : Nat := 0
  deriving DecidableEq, Repr

/-- The I/O commands and the admin commands a drive is given (12 Table 12.1). -/
inductive NvmeOp where
  | read | write | fua | flush | dealloc
  | identify | createQueue | setFeatures | getLog
  deriving DecidableEq, Repr

/-- An outstanding NVMe command (12 R256). -/
structure NvmeCmd where
  attempts : Nat := 1
  failed   : Bool := false           -- waits to be reissued
  failedAt : Nat := 0                -- since this tick
  op       : NvmeOp := .read
  sba      : Nat := 0
  blocks   : Nat := 1
  issuedAt : Nat := 0
  data     : List Byte := []         -- what it writes
  deriving DecidableEq, Repr

/-- A storage port and its drive (12 Table 12.9). -/
structure Drive where
  linkUp   : Bool := false
  ok       : Bool := false
  fail     : Bool := false
  replaced : Bool := false
  cache    : Bool := false   -- it has a volatile write cache
  dsm      : Bool := false   -- its ONCS reports Dataset Management
  stale    : Bool := false   -- with mirroring: it has missed writes, and needs a resync
  serial   : Nat := 0
  blocks   : Nat := 0
  cmds     : Map NvmeCmd := []       -- outstanding, by 256 × queue pair (0 admin, 1 writes, 2 reads) + number
  wait     : List NvmeCmd := []      -- waiting for room in their queue
  wr       : Word := 0
  rd       : Word := 0
  ioErr    : Word := 0
  reissue  : Word := 0
  tagFail  : Word := 0
  deriving DecidableEq, Repr

/-- A trend record as staged and stored: series, tick, status byte, value, GAP (12 Table 12.4). -/
structure TrendRec where
  series : Nat := 0
  tick   : Nat := 0
  status : Byte := 0
  value  : V24 := 0
  gap    : Bool := false
  deriving DecidableEq, Repr

/-- A block of the store (12 Table 12.3) with its decoded payload. -/
structure Block where
  blk    : Nat := 0
  keyGen : Nat := 0
  nonce  : Nat := 0
  t0     : Nat := 0
  timeMs : Nat := 0
  timeOk : Bool := false
  source : BitVec 2 := 0
  pcc    : V24 := 0
  recs   : List TrendRec := []
  replica : List Byte := []
  good   : Bool := true             -- its GCM tag verifies: the copy on S0, or the only copy
  goodB  : Bool := true             -- with mirroring, the copy on S1
  deriving DecidableEq, Repr

/-- A segment (12 R257, R260). -/
structure Segment where
  tenant : Tenant := 0
  kind   : Nat := 0                 -- 0 trend, 1 replica
  src    : Byte := 0                -- originating module of replica blocks
  age    : Nat := 0                 -- rank of its opening
  isOpen : Bool := false
  prev   : Option Nat := none
  head   : Block := {}              -- its header block: tick and time at opening, key and nonce
  blocks : List Block := []
  deriving DecidableEq, Repr

/-- A tenant's trend staging on one die (12 R267). -/
structure Staging where
  full    : List Block := []            -- full blocks not yet written
  current : Block := {}                 -- the block that fills; no records: none
  first   : Nat := 0                    -- tick of the current block's first record
  bytes   : Nat := 0
  deriving DecidableEq, Repr

/-- The per-die trend counters and the port registers that every die has (12 Table 12.9). -/
structure HstDie where
  flush   : Nat := 10
  irqStat : Word := 0
  irqMask : Word := 0
  reclaimed : Word := 0
  trendRec : Word := 0
  trendDrop : Word := 0
  deriving DecidableEq, Repr

/-- A checkpoint copy on the drives (12 Table 12.2, R260): its segment table names the segments in use, and which are open. -/
structure Ckpt where
  good  : Bool := false      -- all its blocks verify
  seq   : Word := 0
  table : Map Bool := []
  quotas : Map Nat := []     -- by tenant
  keyGen : Nat := 0          -- generation of the landlord's history key that seals it (15 R338)
  deriving DecidableEq, Repr

/-- A superblock copy on the drives (12 Table 12.2). -/
structure Superblock where
  good    : Bool := false
  ident   : Nat := 0
  mirror  : Bool := false
  serials : Nat × Nat := (0, 0)
  seq     : Word := 0
  deriving DecidableEq, Repr

/-- The history store (12 R255 to R267). -/
structure History where
  d0       : Drive := {}
  d1       : Drive := {}
  up       : Bool := false
  mirror   : Bool := false
  degraded : Bool := false
  resync   : Option Nat := none       -- next segment number to copy
  resyncPos : Nat := 0
  ckptSeq  : Word := 0
  ckptAt   : Nat := 0             -- tick of the last CHECKPOINT_TIMER
  ckptB    : Bool := false            -- copy last written: false A, true B
  ckpt0    : Ckpt := {}               -- checkpoint A
  ckpt1    : Ckpt := {}               -- checkpoint B
  super0   : Superblock := {}         -- superblock copies A and B
  super1   : Superblock := {}
  gone     : Map (Nat × Nat) := []    -- last tick and time of the records reclaimed, by tenant
  dies     : Map HstDie := []
  segs     : Map Segment := []
  ages     : Nat := 0
  staging  : Map Staging := []        -- by die × 4096 + tenant
  last     : Map (Byte × V24) := []   -- last recorded status and value of a series
  lastTick : Map Nat := []            -- tick of the last record of a series
  rebuilt  : Bool := false            -- the tenants' keys have been given their generations since the start (15 R338)
  seen     : List Nat := []           -- series recorded since the start (the others carry GAP)
  gap      : List Nat := []           -- series whose next record carries GAP after a drop
  nonce    : Map Nat := []            -- by tenant × 128 + generation
  reserved : Map Nat := []            -- MRAM: end of the last reservation
  deriving DecidableEq, Repr

/-! ### Host port (13) -/

/-- A finished request's result (13 Table 13.8, 14 R313). -/
structure Result where
  status : BitVec 16 := 0
  r0     : Word := 0
  r1     : Word := 0
  r2     : Word := 0
  r3     : Word := 0
  r4     : Word := 0
  resp   : List Byte := []
  deriving DecidableEq, Repr

/-- A request in progress (13 R294): fetched, perhaps begun and waiting, perhaps finished. -/
structure ReqSt where
  head   : ReqHead := {}
  begun  : Bool := false
  result : Option Result := none
  deriving DecidableEq, Repr

/-- A completion entry in host memory (13 Table 13.8). -/
structure Completion where
  tag    : Word := 0
  status : BitVec 16 := 0
  rqh    : BitVec 12 := 0
  phase  : Bool := false
  rcount : Nat := 0
  r0     : Word := 0
  r1     : Word := 0
  r2     : Word := 0
  r3     : Word := 0
  r4     : Word := 0
  resp   : List Byte := []
  outs   : List (Nat × List Byte) := [] -- where in host memory the response stands
  deriving DecidableEq, Repr

/-- A session slot (13 Table 13.6, R289 to R296). -/
structure SlotSt where
  rqBase  : BitVec 64 := 0
  cqBase  : BitVec 64 := 0
  rqLog   : BitVec 4 := 4
  cqLog   : BitVec 4 := 4
  en      : Bool := false
  irqEn   : Bool := false
  opened  : Bool := false
  remote  : Bool := false
  winLost : Bool := false
  tenant  : Tenant := 0
  cred    : Option Nat := none     -- credential slot it was opened with
  err     : BitVec 3 := 0
  rqHead  : BitVec 12 := 0
  rqTail  : BitVec 12 := 0
  cqHead  : BitVec 12 := 0
  cqTail  : BitVec 12 := 0
  phase   : Bool := true
  armed   : Bool := false
  closing : Bool := false          -- closes when its requests have completed (15 R331)
  reqs    : List ReqSt := []       -- in the order fetched
  ring    : Map Completion := []   -- the completion ring in host memory
  deriving DecidableEq, Repr

/-- A watermark slot (13 Table 13.11). -/
structure Wmk where
  en     : Bool := false
  pol    : Bool := false
  thr    : V24 := 0
  hyst   : V24 := 0
  value  : V24 := 0
  level  : Bool := false
  raised : Bool := false
  fell   : Bool := false
  armed  : Bool := false
  count  : BitVec 16 := 0
  ten    : Tenant := 0xFFF
  deriving DecidableEq, Repr

/-- The time snapshot (13 Table 13.12). -/
structure Snap where
  done   : Bool := false
  source : BitVec 2 := 0
  utcOk  : Bool := false
  tick   : BitVec 64 := 0
  utc    : BitVec 48 := 0
  sfn    : BitVec 48 := 0
  tickHi : Word := 0
  utcHi  : Word := 0
  sfnHi  : Word := 0
  deriving DecidableEq, Repr

/-- The host port (13 Tables 13.3, 13.6, 13.9, 13.11, 13.12). -/
structure HostPort where
  fw        : Word := 0
  serial    : Uid := 0
  serialHi  : Word := 0
  mbxRdy    : Bool := false
  cfgOk     : Bool := false
  heartbeat : Word := 0
  beatAt    : Nat := 0              -- ticks of the last heartbeat and of the last watermark comparison
  cmpAt     : Nat := 0
  badAcc    : Word := 0
  win       : Option SlotNo := none
  slots     : Map SlotSt := []
  service   : SlotSt := {}          -- the requests of the service session
  intWmk    : Bool := false
  intDev    : Bool := false
  intMbx    : Bool := false
  intMask   : Word := 0
  vectors   : Map Nat := []         -- MSI-X messages sent, by vector
  irqLine   : Bool := false         -- (INT_STAT and INT_MASK) was not zero
  wmks      : Map Wmk := [(3, { pol := true }), (4, { pol := true }), (11, { pol := true })]
  wmkSec    : Nat := 0              -- the second and the minute whose increments are being counted
  wmkMin    : Nat := 0
  wmkAcc    : Map Nat := []         -- sums of watermarks 8 to 10 at the start of that second or minute
  wmkRate   : Map Nat := []         -- increments of the last whole second
  wmkHist   : List Nat := []        -- minute increments of watermark 8, newest first
  snap      : Snap := {}
  d3        : Bool := false
  busData   : BitVec 64 := 0        -- the data the last host read returned
  crown     : List (Nat × Completion) := [] -- completions sent to the crown and the service port, by sender, oldest first
  msix      : Map Word := []        -- words of the MSI-X table that have been written
  pba       : BitVec 33 := 0        -- the MSI-X pending bit array
  deriving DecidableEq, Repr

/-! ### Security and access (15) -/

/-- SEC_VAULT.STATE (15 Table 15.10). -/
inductive VaultState where
  | empty | provisioned | cleared | lost
  deriving DecidableEq, Repr

/-- A session credential slot (15 R331); slot 64 stands for the recovery verifier (15 R339). -/
structure CredSlot where
  ckind   : Byte := 0
  tenant  : Tenant := 0
  verifier : List Byte := []       -- Table 15.2: salt and hash, or a public key
  counter : BitVec 64 := 0         -- the last counter accepted
  refusals : Nat := 0
  locked  : Bool := false
  lockedAt : Nat := 0
  deriving DecidableEq, Repr

/-- A door's running state (15 R342). -/
structure Door where
  state    : Nat := 0            -- ACC value (02 Table 02.9)
  unlocked : Bool := false       -- an unlock time runs
  isOpen   : Bool := false
  last     : Word := 0xFFFFFFFF
  lockAt   : Option Nat := none  -- tick at which the unlock time ends
  version  : Nat := 0            -- offline cache version last made, with its entries and the schedules of its places
  cache    : List CacheEntry := []
  places   : List Nat := []
  scheds   : List Byte := []     -- the 16 schedules of that version as sent
  chunk    : Option Nat := none  -- next chunk to send
  deriving DecidableEq, Repr

/-- Which commands the open service session has (15 R339, 17 R379, R383). -/
inductive SvcKind where
  | closed | landlord | provisioning | recovery | rom
  deriving DecidableEq, Repr

/-- A READ awaiting its decision (15 R345). -/
structure ReadReq where
  port   : Nat := 0
  addr   : Nat := 0
  reader : Byte := 0
  method : Byte := 0
  cid    : Uid := 0
  seq    : Byte := 0
  tick   : Nat := 0
  deriving DecidableEq, Repr

/-- An OFFLINE report to apply (15 R348). -/
structure OfflineReq where
  port     : Nat := 0
  addr     : Nat := 0
  cid      : Uid := 0
  utcMs    : Nat := 0
  unlocked : Bool := false
  reader   : Byte := 0
  deriving DecidableEq, Repr

/-- A key of the module (15 Table 15.1): history and integrity keys by tenant and generation. The session key of a secured node
stands with the node. -/
inductive KeyName where
  | config | credStore
  | hist (tenant gen : Nat)
  | integ (tenant gen : Nat)
  deriving DecidableEq, Repr
/-- A key in NOR, wrapped by the KEK that `under` gives: with another KEK it cannot be unwrapped (15 R325, R337). -/
structure WrappedKey where
  under : BitVec 256 := 0
  key   : BitVec 256 := 0
  deriving DecidableEq, Repr

/-- The security block (15 Table 15.10) and access control. -/
structure Security where
  vault     : VaultState := .empty
  cause     : Nat := 0
  vaultMem  : Map Byte := []        -- the key vault's 256 bytes; one not listed is 0 (15 R324)
  norKeys   : List (KeyName × WrappedKey) := []
  openKeys  : List (KeyName × BitVec 256) := [] -- the unwrapped keys in the security block and the integrity engine's key cache
  armed     : Bool := false
  meshOk    : Bool := false
  lidClosed : Bool := false
  wholeFor  : Nat := 0              -- ticks for which mesh and switch have been whole without a break, to 160,000 (15 R336)
  tamperN   : Bool := true          -- the pin, true high
  fuses     : Nat := 0
  keyHashes : List Nat := []
  histGen   : Map Nat := []         -- current history key generation of a tenant
  integGen  : Map Nat := []
  creds     : Map CredSlot := []
  recovery  : Option (List Byte) := none -- the recovery verifier, a public key
  records   : Map Cred := []        -- credential table by index
  locs      : Map (Nat × Nat) := [] -- passback location by credential index: area, and the tick it was entered
  used      : Map Nat := []         -- tick of the last use by door × 2^20 + credential
  doors     : Map Door := []
  stations  : Map Nat := []         -- ACC value of a call station
  floorsTill : Map Nat := []        -- tick at which a station's floor set ends
  timeAt    : Nat := 0              -- tick of the last TIME messages
  decLast   : Word := 0
  decMax    : Word := 0
  grants    : Word := 0
  refusals  : Word := 0
  passback  : Word := 0
  authFail  : Word := 0
  secureFail : Word := 0
  sigFail   : Word := 0
  reads     : List ReadReq := []
  offlines  : List OfflineReq := []
  breakDue  : Bool := false         -- a cleared or lost vault is to be recorded at the next start (15 R335, R336)
  accShown  : Map Nat := []         -- ACC value last taken by an access object, by BREF (02 R41)
  deriving DecidableEq, Repr

/-! ### Time and the backup domain (16) -/

/-- A time source (13 Table 13.12). -/
inductive TimeSource where
  | ring | host | rtc | none
  deriving DecidableEq, Repr

/-- The RTC and UTC keeping (16 Table 16.6, R361, R362). -/
structure Time where
  valid    : Bool := false
  frozen   : Bool := false
  frozenAt : Calendar := {}
  frozenWd : Nat := 6
  vbatLow  : Bool := false
  lost     : Bool := true
  lostNow  : Bool := true           -- the domain was lost since the last start (16 R354)
  wrap     : Bool := false
  cal      : Calendar := {}         -- its msec is unused
  sub      : Int := 0               -- crystal cycles of the subsecond counter, trimmed (16 R356, R359)
  win      : Int := 0               -- crystal cycles since the trim window began
  atrimFrom : Option (Nat × Nat × Nat) := none -- ticks at which ATRIM's measurement began and at its last window start, and windows
  atrim    : Bool := true
  trimN    : BitVec 10 := 0
  trimAdd  : Bool := false
  trimNow  : Bool × BitVec 10 := (false, 0)  -- ADD and N of the window in progress
  trimErr  : V24 := 0
  staged   : Map Word := []
  pend     : Bool := false
  pendCal  : Calendar := {}
  wErr     : BitVec 2 := 0
  irqStat  : Word := 0
  irqMask  : Word := 0
  user     : Map Byte := []
  source   : TimeSource := .none
  utcOk    : Bool := false
  utcMs    : Nat := 0            -- UTC at the tick below
  utcTick  : Int := 0
  offset   : Int := 0            -- system bytes 4–5
  mapping  : Option UtcMap := none
  mapTick  : Nat := 0
  syncAt   : Nat := 0            -- tick of the last check of the RTC (16 R362)
  utcSeen  : Bool := false       -- system byte 7 [0]
  deriving DecidableEq, Repr

/-! ### Start-up and update (17) -/

/-- A firmware slot (17 R380, R381). -/
structure FwSlot where
  valid   : Bool := false
  svn     : Nat := 0
  version : Word := 0
  deriving DecidableEq, Repr

/-- A configuration copy in NOR (17 R376); `good` is the outcome of its tag, digest and signature. -/
structure CfgCopy where
  good : Bool := false
  seq  : Word := 0
  signer : Nat := 0          -- the public key that signed it (15 R330)
  img  : Image := {}
  deriving DecidableEq, Repr

/-- How far a start has come (17 R368). -/
inductive Phase where
  | off | held | rom | exyan | running
  deriving DecidableEq, Repr

/-- Supplies, start-up, configuration copies and firmware (17). -/
structure Startup where
  vinGood   : Bool := true
  powerFail : Bool := false
  resetPin  : Bool := false        -- RESET_N is low
  hot       : Bool := false        -- thermal hold
  phase     : Phase := .held
  pgood     : Bool := true
  faultN    : Bool := false        -- the pin, true high
  bpen      : BitVec 32 := 0
  incomplete : Byte := 0           -- system byte 0
  reason    : Byte := 1            -- system byte 1
  bootSlot  : Bool := false        -- system byte 6 [0]
  trial     : Bool := false        -- system byte 6 [1]
  attempts  : Nat := 0             -- system byte 6 [3:2]
  running   : Bool := false        -- the slot running
  inTrial   : Bool := false        -- this start is a trial start
  slot0     : FwSlot := { valid := true }
  slot1     : FwSlot := {}
  update    : Option (FwHeader × Nat × Nat) := none  -- header, next chunk, bytes so far
  recovery  : Bool := false
  seedling  : Bool := false
  seedReason : Nat := 0
  seedReq   : Bool := false        -- SVC_SEEDLING asked for it
  ready     : List Nat := []       -- dies ready
  heldDies  : List Nat := []       -- dies held in reset for this start
  released  : Nat := 1             -- dies released from reset so far
  releaseAt : Nat := 0             -- tick of the last release
  lastCycle : Nat := 0             -- tick at which the last port began cycling (17 R370)
  complete  : Bool := false
  expired   : Bool := false        -- counted incomplete
  copyA     : CfgCopy := {}
  copyB     : CfgCopy := {}
  inUse     : Option Bool := none  -- the copy in use: false A, true B
  loading   : Bool := false
  loadTick  : Nat := 0
  waves     : Nat := 0
  svc       : SvcKind := .closed
  svcStatus : BitVec 16 := 0        -- the response of the last service command (17 R379): STATUS and detail
  svcDetail : Nat := 0
  svcNote   : Option Nat := none   -- the seedling reason sent on the service port (17 R374)
  deriving DecidableEq, Repr

/-! ### The module -/

/-- The state of the module. -/
structure State where
  pending : List Instr := []        -- commands waiting, first in first out (the block's queue)
  member  : Member := .tf8
  tick    : BitVec 64 := 0
  tickHi  : Word := 0
  links   : BitVec 12 := 0          -- graft links that have failed
  cfg     : Image := {}             -- the configuration in force
  pnt     : Points := {}
  ports   : Map BrPort := []
  nodes   : Map Node := []          -- leaf nodes by UID
  trk     : Trunk := {}
  outbox  : List TrkData := []      -- what the engines have handed over for the trunk's next superframe (05 Table 05.5)
  logic   : Map LogicDie := []
  cores   : Map CoreSt := []        -- by die × 4 + core
  loopDies : Map LoopDie := []
  loops   : Map LoopSlot := []      -- by die × 8192 + slot
  fio     : FieldIO := {}
  mtr     : Metering := {}
  mem     : List Host.Cell := []    -- DRAM bytes by physical address
  tags    : Map Tag := []           -- by physical line number
  owners  : Map Tenant := []        -- by physical page number; an unlisted page is unowned
  atus    : Map Atu := []
  dmas    : Map DmaDie := []
  hst     : History := {}
  evr     : Recorder := {}
  host    : HostPort := {}
  sec     : Security := {}
  time    : Time := {}
  su      : Startup := {}
  freeN   : Nat := 0                -- how many free values have been drawn (the model's own)
  deriving DecidableEq, Repr

/-- Why the machine stops. No rule of the spec lets a command stop the module, so no meaning raises one. -/
inductive Fault where
  /-- Raised by nothing: the spec answers every error with a status, a count, a flag, an event, a trap or a reset (safe). -/
  | stopped
  deriving DecidableEq, Repr

/-- Why a command has no meaning. -/
inductive Refusal where
  /-- Raised by an arm of exec whose command has no meaning yet (safe: the run ends). -/
  | notModelled (mnemonic : String)
  deriving DecidableEq, Repr

/-- The module right after reset: VIN has become good, reason 0x01 (power-on), and the root ROM is about to run. -/
def State.reset : State := {}

end Sys2Proof.Machine
end

