-- ==== Sys2Proof/Machine/Ops.lean ====
section
/-! DEFINITION. The named operations that every family shares: sparse tables, integers and saturation, bytes, the member's
shape, the state's accessors, free draws, and the interrupt line that follows every command. -/
namespace Sys2Proof.Machine

/-- Exyan runs on die 0. -/
def State.exyan (s : State) : Bool := s.su.phase == .exyan || s.su.phase == .running

/-! ### Sparse tables -/

/-- The entry of a table at index `k`, or the default. -/
def sget {α : Type} (d : α) : Map α → Nat → α
  | [], _ => d
  | (j, a) :: m, k => if j = k then a else sget d m k

/-- The entry of a table at index `k`, where it has one. -/
def sfind {α : Type} : Map α → Nat → Option α
  | [], _ => none
  | (j, a) :: m, k => if j = k then some a else sfind m k

/-- Write the entry at index `k`, keeping the indices rising. -/
def sput {α : Type} : Map α → Nat → α → Map α
  | [], k, a => [(k, a)]
  | (j, b) :: m, k, a =>
    if k < j then (k, a) :: (j, b) :: m
    else if k = j then (k, a) :: m
    else (j, b) :: sput m k a

/-- Take the entry at index `k` out. -/
def sdel {α : Type} (m : Map α) (k : Nat) : Map α := m.filter fun e => e.1 != k

/-- Change the entry at index `k`, starting from the default where there is none. -/
def supd {α : Type} (d : α) (m : Map α) (k : Nat) (f : α → α) : Map α := sput m k (f (sget d m k))

/-- Change every entry. -/
def smap {α : Type} (m : Map α) (f : Nat → α → α) : Map α := m.map fun e => (e.1, f e.1 e.2)

/-- Is there an entry at index `k`? -/
def shas {α : Type} (m : Map α) (k : Nat) : Bool := m.any fun e => e.1 == k

/-- Write a list of entries, the first first. -/
def sputs {α : Type} (m : Map α) : List (Nat × α) → Map α
  | [] => m
  | (k, a) :: l => sputs (sput m k a) l

/-! ### Numbers -/

/-- The least and the greatest 24-bit two's complement number. -/
def v24Min : Int := -8388608
def v24Max : Int := 8388607

/-- An integer held to the 24-bit range. -/
def clampInt (lo hi x : Int) : Int := if x < lo then lo else if hi < x then hi else x
/-- Saturation to 24 bits. -/
def sat24 (x : Int) : V24 := BitVec.ofInt 24 (clampInt v24Min v24Max x)
/-- A natural number held to a range. -/
def clampNat (lo hi x : Nat) : Nat := if x < lo then lo else if hi < x then hi else x
/-- Division rounded to nearest, halves away from zero. -/
def roundDiv (n : Int) (d : Nat) : Int :=
  if 0 ≤ n then (2 * n + d) / (2 * d) else -((2 * (-n) + d) / (2 * d))
/-- Division rounded to nearest, halves upward. -/
def roundUp (n : Int) (d : Nat) : Int := (2 * n + d) / (2 * d)
/-- The integer square root by bits, from bit `b` down. -/
def isqrtFrom (n : Nat) : Nat → Nat → Nat
  | 0, r => r
  | b + 1, r => let t := r + 2 ^ b; isqrtFrom n b (if t * t ≤ n then t else r)
/-- The integer square root of a number below 2^128. -/
def isqrt (n : Nat) : Nat := isqrtFrom n 64 0
/-- The square root rounded to nearest. -/
def sqrtRound (n : Nat) : Nat := let r := isqrt n; if r * r + r < n then r + 1 else r

/-- A counter word advanced by `n`, rolling over. -/
def addW (w : Word) (n : Nat) : Word := w + BitVec.ofNat 32 n
/-- A Bool as a one-bit number shifted to bit `i`. -/
def flag (b : Bool) (i : Nat) : Nat := if b then 2 ^ i else 0
/-- Bit `i` of a word set when `b`. -/
def orBit (w : Word) (i : Nat) (b : Bool) : Word := if b then w ||| BitVec.ofNat 32 (2 ^ i) else w
/-- The field of a number from bit `lo`, `n` bits wide. -/
def field (x lo n : Nat) : Nat := x / 2 ^ lo % 2 ^ n
/-- A word from a number. -/
def w32 (n : Nat) : Word := BitVec.ofNat 32 n
/-- A word from a signed number. -/
def w32i (i : Int) : Word := BitVec.ofInt 32 i

/-- `n` bytes of a number, least significant first. -/
def leBytes (x : Nat) : Nat → List Byte
  | 0 => []
  | n + 1 => BitVec.ofNat 8 x :: leBytes (x / 256) n
/-- The number that bytes spell, least significant first. -/
def ofLe : List Byte → Nat
  | [] => 0
  | b :: l => b.toNat + 256 * ofLe l
/-- Fields packed without padding: the value and the length of each (14 R310). -/
def pack (l : List (Nat × Nat)) : List Byte := l.flatMap fun e => leBytes e.1 e.2
/-- Words as bytes. -/
def wordBytes (l : List Word) : List Byte := l.flatMap fun w => leBytes w.toNat 4
/-- The first `n` of a list, filled up with `d`. -/
def padTo {α : Type} (d : α) : Nat → List α → List α
  | 0, _ => []
  | n + 1, [] => d :: padTo d n []
  | n + 1, a :: l => a :: padTo d n l

/-- One bit of the CRC-32 of R48, register reflected. -/
def crcBit (c : BitVec 32) : BitVec 32 := if c.getLsbD 0 then (c >>> 1) ^^^ 0xEDB88320 else c >>> 1
/-- One byte of the CRC-32. -/
def crcByte (c : BitVec 32) (b : Byte) : BitVec 32 :=
  let c := c ^^^ b.setWidth 32
  crcBit (crcBit (crcBit (crcBit (crcBit (crcBit (crcBit (crcBit c)))))))
/-- The CRC-32 of IEEE 802.3 over bytes (03 R48). -/
def crc32 (l : List Byte) : Word := ~~~ (l.foldl crcByte 0xFFFFFFFF)

/-- Put a key into a rising list of numbers without repeats. -/
def insNat (k : Nat) : List Nat → List Nat
  | [] => [k]
  | j :: l => if k < j then k :: j :: l else if k = j then j :: l else j :: insNat k l
/-- A rising list without repeats of the same numbers. -/
def sortNat (l : List Nat) : List Nat := l.foldl (fun acc k => insNat k acc) []

/-! ### Time -/

/-- The tick count as a number. -/
def State.now (s : State) : Nat := s.tick.toNat
/-- Ticks in `n` milliseconds (01 R14) and in `n` seconds. -/
def msTicks (n : Nat) : Nat := 16 * n
def secTicks (n : Nat) : Nat := 16000 * n
/-- A period has passed since a tick. -/
def State.due (s : State) (since ticks : Nat) : Bool := since + ticks ≤ s.now
/-- UTC in ms since 2000 now: it advances by 1 ms for every 16 ticks from the instant it was set (16 R362). -/
def State.utcNow (s : State) : Nat := s.time.utcMs + ((s.now : Int) - s.time.utcTick).toNat / 16
/-- Ring time is in use (16 R361, R362). -/
def State.ringInUse (s : State) : Bool := s.time.source == .ring

/-! ### The member's shape (00 Table 00.1) -/

/-- How many dies the member has. -/
def State.nDies (s : State) : Nat :=
  match s.member with
  | .tf2 => 2
  | .tf4 => 4
  | .tf8 => 8
/-- How many branch ports, points and loop slots the member has. -/
def State.nPorts (s : State) : Nat := 16 * s.nDies
def State.nPoints (s : State) : Nat := 32768 * s.nDies
/-- The die of a branch port and of a point (01 R6). -/
def portDie (p : Nat) : Nat := p / 16
def mpnDie (m : Nat) : Nat := m / 32768
/-- The dies of the member, in order. -/
def State.dies (s : State) : List Nat := List.range s.nDies

/-! ### Accessors -/

def State.port (s : State) (p : Nat) : BrPort := sget {} s.ports p
def State.setPort (s : State) (p : Nat) (x : BrPort) : State := { s with ports := sput s.ports p x }
def State.modPort (s : State) (p : Nat) (f : BrPort → BrPort) : State := s.setPort p (f (s.port p))
def State.node? (s : State) (u : Uid) : Option Node := sfind s.nodes u.toNat
def State.setNode (s : State) (u : Uid) (x : Node) : State := { s with nodes := sput s.nodes u.toNat x }
def State.die (s : State) (d : Nat) : LogicDie := sget {} s.logic d
def State.setDie (s : State) (d : Nat) (x : LogicDie) : State := { s with logic := sput s.logic d x }
def State.modDie (s : State) (d : Nat) (f : LogicDie → LogicDie) : State := s.setDie d (f (s.die d))
def State.core (s : State) (d c : Nat) : CoreSt := sget {} s.cores (4 * d + c)
def State.setCore (s : State) (d c : Nat) (x : CoreSt) : State := { s with cores := sput s.cores (4 * d + c) x }
def State.loop (s : State) (d n : Nat) : LoopSlot := sget {} s.loops (8192 * d + n)
def State.setLoop (s : State) (d n : Nat) (x : LoopSlot) : State := { s with loops := sput s.loops (8192 * d + n) x }
def State.modLoop (s : State) (d n : Nat) (f : LoopSlot → LoopSlot) : State := s.setLoop d n (f (s.loop d n))
def State.lpe (s : State) (d : Nat) : LoopDie := sget {} s.loopDies d
def State.setLpe (s : State) (d : Nat) (x : LoopDie) : State := { s with loopDies := sput s.loopDies d x }
def State.modLpe (s : State) (d : Nat) (f : LoopDie → LoopDie) : State := s.setLpe d (f (s.lpe d))
def State.chan (s : State) (c : Nat) : ChanSt := sget {} s.fio.chans c
def State.setChan (s : State) (c : Nat) (x : ChanSt) : State :=
  { s with fio := { s.fio with chans := sput s.fio.chans c x } }
def State.modChan (s : State) (c : Nat) (f : ChanSt → ChanSt) : State := s.setChan c (f (s.chan c))
def State.mot (s : State) (m : Nat) : Motion := sget {} s.fio.mots m
def State.setMot (s : State) (m : Nat) (x : Motion) : State :=
  { s with fio := { s.fio with mots := sput s.fio.mots m x } }
def State.modMot (s : State) (m : Nat) (f : Motion → Motion) : State := s.setMot m (f (s.mot m))
def State.modFio (s : State) (f : FieldIO → FieldIO) : State := { s with fio := f s.fio }
def State.modMtr (s : State) (f : Metering → Metering) : State := { s with mtr := f s.mtr }
def State.atu (s : State) (d : Nat) : Atu := sget {} s.atus d
def State.setAtu (s : State) (d : Nat) (x : Atu) : State := { s with atus := sput s.atus d x }
def State.modAtu (s : State) (d : Nat) (f : Atu → Atu) : State := s.setAtu d (f (s.atu d))
def State.dma (s : State) (d : Nat) : DmaDie := sget {} s.dmas d
def State.setDma (s : State) (d : Nat) (x : DmaDie) : State := { s with dmas := sput s.dmas d x }
def State.hstDie (s : State) (d : Nat) : HstDie := sget {} s.hst.dies d
def State.modHstDie (s : State) (d : Nat) (f : HstDie → HstDie) : State :=
  { s with hst := { s.hst with dies := supd {} s.hst.dies d f } }
def State.modHst (s : State) (f : History → History) : State := { s with hst := f s.hst }
def State.modEvr (s : State) (f : Recorder → Recorder) : State := { s with evr := f s.evr }
def State.modHost (s : State) (f : HostPort → HostPort) : State := { s with host := f s.host }
def State.modSec (s : State) (f : Security → Security) : State := { s with sec := f s.sec }
def State.modTime (s : State) (f : Time → Time) : State := { s with time := f s.time }
def State.modSu (s : State) (f : Startup → Startup) : State := { s with su := f s.su }
def State.modPnt (s : State) (f : Points → Points) : State := { s with pnt := f s.pnt }
def State.modTrk (s : State) (f : Trunk → Trunk) : State := { s with trk := f s.trk }
def State.tport (s : State) (t : TrunkPort) : TrkPort := if t then s.trk.b else s.trk.a
def State.setTport (s : State) (t : TrunkPort) (x : TrkPort) : State :=
  { s with trk := if t then { s.trk with b := x } else { s.trk with a := x } }
def State.modTport (s : State) (t : TrunkPort) (f : TrkPort → TrkPort) : State := s.setTport t (f (s.tport t))

/-- A session's slot; sender 32 is the service session. -/
def State.sender (s : State) (n : Nat) : SlotSt := if n < 32 then sget {} s.host.slots n else s.host.service
def State.setSender (s : State) (n : Nat) (x : SlotSt) : State :=
  { s with host := if n < 32 then { s.host with slots := sput s.host.slots n x } else { s.host with service := x } }
def State.modSender (s : State) (n : Nat) (f : SlotSt → SlotSt) : State := s.setSender n (f (s.sender n))

/-- The sum of a list. -/
def sumNat (l : List Nat) : Nat := l.foldl (· + ·) 0

/-! ### Configuration look-ups -/

/-- The descriptor of a configured point. -/
def State.desc? (s : State) (m : Nat) : Option Desc := sfind s.pnt.descs m
/-- The configured loop at a slot, channel, input, output, motion channel, circuit, door and station. -/
def State.chanCfg? (s : State) (c : Nat) : Option ChanCfg := s.cfg.chans.find? fun x => x.ch == c
def State.ainCfg? (s : State) (k : Nat) : Option AinCfg := s.cfg.ains.find? fun x => x.k == k
def State.aoutCfg? (s : State) (k : Nat) : Option AoutCfg := s.cfg.aouts.find? fun x => x.k == k
def State.motCfg? (s : State) (m : Nat) : Option MotCfg := s.cfg.motions.find? fun x => x.m == m
def State.circuitCfg? (s : State) (k : Nat) : Option CircuitCfg := s.cfg.circuits.find? fun x => x.k == k
def State.vsetCfg? (s : State) (k : Nat) : Option VsetCfg := s.cfg.vsets.find? fun x => x.set == k
def State.minputCfg? (s : State) (k : Nat) : Option MInputCfg := s.cfg.minputs.find? fun x => x.input == k
def State.doorCfg? (s : State) (d : Nat) : Option DoorCfg := s.cfg.doors.find? fun x => x.door == d
def State.stationCfg? (s : State) (k : Nat) : Option StationCfg := s.cfg.stations.find? fun x => x.station == k
def State.trendCfg? (s : State) (n : Nat) : Option TrendCfg := s.cfg.trends.find? fun x => x.series == n
def State.nodeCfg? (s : State) (p a : Nat) : Option NodeCfg := s.cfg.nodes.find? fun x => x.port == p && x.addr == a
def State.quota (s : State) (t : Tenant) : Nat :=
  match s.cfg.tenants.find? fun x => x.id == t with
  | some c => c.quota
  | none => 0

/-- Does a requester of tenant `t` reach an object of tenant `o` (02 R27)? -/
def reaches (t o : Tenant) : Bool := t == 0 || t == o

/-! ### Free draws -/

/-- Draw a fresh free number. -/
def State.draw (s : State) : Nat × State := (Config.freeNat s.freeN, { s with freeN := s.freeN + 1 })

/-- Hand data of a tenant to the trunk, to go out as frames of a class (05 R108). -/
def State.offer (s : State) (cls : Nat) (t : Tenant) (data : List Byte) : State :=
  { s with outbox := s.outbox ++ [{ cls := cls, tenant := t, data := data }] }

/-! ### Interrupts and the answer of a command -/

/-- An IRQ_STAT word and its mask have a bit in common. -/
def irqOn (st mk : Word) : Bool := st &&& mk != 0

/-- INT_BLK of a die: bit b stands for the block at offset b × 0x10_0000 (13 R298). -/
def State.intBlk (s : State) (d : Nat) : Nat :=
  let t := if d = 0 then s.trk.a else s.trk.b
  flag (s.ports.any fun e => portDie e.1 == d && irqOn e.2.irqStat e.2.irqMask) 1
  + flag (irqOn (s.lpe d).irqStat (s.lpe d).irqMask) 2
  + flag (irqOn (s.die d).irqStat (s.die d).irqMask) 3
  + flag (irqOn (s.dma d).irqStat (s.dma d).irqMask) 4
  + flag (irqOn (s.atu d).irqStat (s.atu d).irqMask) 5
  + flag (d < 2 && irqOn t.irqStat t.irqMask) 6
  + flag (d == 0 && irqOn s.fio.irqStat s.fio.irqMask) 7
  + flag (d == 0 && irqOn s.mtr.irqStat s.mtr.irqMask) 8
  + flag (irqOn (s.hstDie d).irqStat (s.hstDie d).irqMask) 9
  + flag (d == 0 && irqOn s.evr.irqStat s.evr.irqMask) 10
  + flag (d == 0 && irqOn s.time.irqStat s.time.irqMask) 11

/-- INT_STAT (13 Table 13.9). -/
def State.intStat (s : State) : Word :=
  w32 (sumNat (s.dies.map fun d => flag (s.intBlk d != 0) d)
    + flag s.host.intWmk 8 + flag s.host.intDev 9 + flag s.host.intMbx 10)

/-- DEV_STATUS (13 Table 13.3). -/
def State.devStatus (s : State) : Word :=
  w32 (flag s.host.mbxRdy 0 + flag s.host.cfgOk 1 + flag s.su.seedling 2 + flag s.trk.relayOnly 3
    + flag (s.links != 0) 4 + 256 * (s.su.seedReason % 256) + 65536 * s.cfg.moduleId.toNat)

/-- A word of the MSI-X table: four for each vector, the fourth the vector control, whose bit 0 masks the vector and is 1 after a
reset (PRESUMED, the PCI family: log entry 50). -/
def HostPort.msixWord (h : HostPort) (i : Nat) : Word := sget (if i % 4 = 3 then 1 else 0) h.msix i
/-- A vector that may not be sent now: its entry masks it, or the host port is in D3hot (13 R281, R282). -/
def HostPort.masked (h : HostPort) (n : Nat) : Bool := h.d3 || (h.msixWord (4 * n + 3)).getLsbD 0
/-- Send vector `n`; where it is masked, its pending bit stands until it is not. -/
def HostPort.vector (h : HostPort) (n : Nat) : HostPort :=
  let m := h.masked n
  { h with
    pba := if m then h.pba ||| BitVec.ofNat 33 (2 ^ n) else h.pba
    vectors := if m then h.vectors else supd 0 h.vectors n (· + 1) }
/-- Send the pending vectors that are no longer masked. -/
def HostPort.flushPba (h : HostPort) : HostPort :=
  let l := (List.range 33).filter fun n => h.pba.getLsbD n && !h.masked n
  { h with
    pba := h.pba &&& ~~~BitVec.ofNat 33 (sumNat (l.map (2 ^ ·)))
    vectors := l.foldl (fun v n => supd 0 v n (· + 1)) h.vectors }
/-- A write of a word of the MSI-X table: the low two bits of an address and all of the vector control but its mask read 0. -/
def HostPort.msixWrite (h : HostPort) (i : Nat) (v : Word) : HostPort :=
  let m : Word := if i % 4 = 0 then 0xFFFFFFFC else if i % 4 = 3 then 1 else 0xFFFFFFFF
  ({ h with msix := sput h.msix i (v &&& m) } : HostPort).flushPba

/-- The module is out of reset: its power is there and the root ROM has begun. The tick counter runs from then on. -/
def State.runs (s : State) : Bool := s.su.phase != .off && s.su.phase != .held

/-! ### Keys (15 R324, R325) -/

/-- The vault byte at a place. -/
def Security.vaultByte (x : Security) (i : Nat) : Byte := sget 0 x.vaultMem i
/-- Vault bytes from a place on as a number. -/
def Security.vaultNat (x : Security) (i n : Nat) : Nat := ofLe ((List.range n).map fun j => x.vaultByte (i + j))
/-- The KEK, and the provisioning sequence. -/
def Security.kek (x : Security) : BitVec 256 := BitVec.ofNat 256 (x.vaultNat 0 32)
def Security.provSeq (x : Security) : Nat := x.vaultNat 48 8
/-- The check value of a KEK: the encryption of a zero block. -/
def kekCheck (k : BitVec 256) : List Byte := padTo 0 16 (Config.aesEnc k (List.replicate 16 0))
/-- The check value verifies; that of a vault without contents does not. -/
def Security.checkOk (x : Security) : Bool :=
  x.vaultMem != [] && ((List.range 16).map fun j => x.vaultByte (32 + j)) == kekCheck x.kek
/-- The vault's bytes for a KEK and a provisioning sequence. -/
def vaultBytes (k : BitVec 256) (seq : Nat) : Map Byte :=
  ((leBytes k.toNat 32 ++ kekCheck k ++ leBytes seq 8).zipIdx.map fun e => (e.2, e.1))
/-- The keys in NOR that the present KEK unwraps. -/
def Security.unwrapped (x : Security) : List (KeyName × BitVec 256) :=
  x.norKeys.filterMap fun e => if e.2.under = x.kek then some (e.1, e.2.key) else none
/-- A key that the security block holds. -/
def Security.key? (x : Security) (k : KeyName) : Option (BitVec 256) := (x.openKeys.find? fun e => e.1 == k).map (·.2)
/-- The key an engine works with; where none is held, a free value. -/
def State.keyOf (s : State) (k : KeyName) : BitVec 256 := (s.sec.key? k).getD Config.noKey
/-- A key is held from now on, wrapped under the KEK in NOR. -/
def Security.hold (x : Security) (k : KeyName) (v : BitVec 256) : Security :=
  { x with
    norKeys := (x.norKeys.filter fun e => e.1 != k) ++ [(k, { under := x.kek, key := v })]
    openKeys := (x.openKeys.filter fun e => e.1 != k) ++ [(k, v)] }
/-- A new key, drawn from the module's random generator: a free value. -/
def State.newKey (s : State) (k : KeyName) : State :=
  let (x, s) := s.draw
  { s with sec := s.sec.hold k (BitVec.ofNat 256 x) }

/-- After a command's effect: a changed DEV_STATUS sets INT_STAT.DEV, but for the change that a reset itself makes, and vector 32 is
sent when (INT_STAT and INT_MASK) goes from zero to non-zero (13 R298). -/
def settle (s t : State) : State :=
  let t := if t.devStatus = s.devStatus || !t.runs then t else { t with host := { t.host with intDev := true } }
  let on := irqOn t.intStat t.host.intMask
  let h := if on && !t.host.irqLine then t.host.vector 32 else t.host
  { t with host := { h with irqLine := on } }

/-- What a command answers: the state its effect leaves, with the interrupt line brought up to date. -/
def done (s t : State) : Host.Outcome State Fault Refusal := .next (settle s t)

end Sys2Proof.Machine
end

