-- ==== Sys2Proof/Machine/Recorder.lean ====
section
/-! DEFINITION. The event recorder (12 R268 to R277): the coalescer, the ingress queue, overflow, commits, and the commands
of its own. -/
namespace Sys2Proof.Machine

/-- DATA as seven words, zero-padded (12 Table 12.6). -/
def evNorm (e : Event) : Event := { e with data := padTo 0 7 e.data }

/-- Two reports have the same key: tenant, SOURCE, CODE and DATA (12 R272). -/
def evSame (a b : Event) : Bool :=
  a.tenant == b.tenant && a.die == b.die && a.block == b.block && a.inst == b.inst && a.code == b.code && a.data == b.data

/-- The SOURCE field (12 Table 12.6). -/
def evSource (e : Event) : Nat := e.die % 8 + 8 * (e.block % 32) + 256 * (e.inst % 256)

/-- Bytes 0 to 59 of a record, and the record with its CRC (12 R268). -/
def EvRec.body (r : EvRec) : List Byte :=
  leBytes r.seq 8 ++ leBytes r.opsec.toNat 4 ++ leBytes r.pcc.toNat 3
  ++ leBytes (flag r.rtcOk 0 + flag r.coal 1 + flag r.loss 2) 1 ++ leBytes r.timeMs 6
  ++ leBytes (r.ev.tenant.toNat + 4096 * (r.ev.sev % 16)) 2 ++ leBytes (evSource r.ev) 2 ++ leBytes r.ev.code 2
  ++ leBytes r.rep 4 ++ wordBytes (padTo 0 7 r.ev.data)
def EvRec.bytes (r : EvRec) : List Byte := r.body ++ leBytes (crc32 r.body).toNat 4

/-- The record a report creates now (12 R269), stamped with its tick number (01 Table 01.7). Table 12.6 has no field for
the tick, so it stands beside the 64 bytes (assumption log entry 61). -/
def State.newRec (s : State) (e : Event) : EvRec :=
  { tick := s.tick, opsec := s.evr.opsec, pcc := s.evr.pcc, rtcOk := s.time.utcOk, timeMs := s.utcNow % 2 ^ 48, ev := evNorm e }

/-- A further report of a record: REPEAT and the coalesced flag (12 R272). -/
def EvRec.bump (r : EvRec) : EvRec := { r with rep := min (r.rep + 1) 0xFFFFFFFF, coal := true }
def bumpQueue (id : Nat) (q : List (Nat × EvRec)) : List (Nat × EvRec) :=
  q.map fun e => if e.1 = id then (e.1, e.2.bump) else e
def bumpSlots (id : Nat) (m : Map (Nat × EvRec)) : Map (Nat × EvRec) :=
  m.map fun e => if e.2.1 = id then (e.1, (e.2.1, e.2.2.bump)) else e

/-- The key list with `k` newest: its own old entry leaves, or else the oldest of 16 (12 R272). -/
def setKey (k : EvKey) (l : List EvKey) : List EvKey :=
  if l.any fun x => evSame x.ev k.ev then l.filter (fun x => !evSame x.ev k.ev) ++ [k]
  else (if 16 ≤ l.length then l.drop 1 else l) ++ [k]

/-- The report of a loss marker (12 R273). -/
def lossEvent (l : Loss) : Event :=
  { sev := 2, block := 11, code := 1,
    data := [w32 l.n, w32 l.first, w32 (l.first / 2 ^ 32), w32 l.last, w32 (l.last / 2 ^ 32), l.mask, 0] }
def State.lossRec (s : State) (l : Loss) : EvRec := { s.newRec (lossEvent l) with loss := true }

/-- One record more dropped in overflow. -/
def Loss.add (l : Loss) (now block : Nat) : Loss :=
  { n := l.n + 1, first := if l.n = 0 then now else l.first, last := now, mask := l.mask ||| w32 (2 ^ (block % 32)) }

/-- Put created records on the ingress queue. -/
def Recorder.enqueue (r : Recorder) (l : List EvRec) : Recorder :=
  let q := r.queue ++ l.zipIdx.map fun e => (r.nextId + e.2, e.1)
  { r with queue := q, nextId := r.nextId + l.length, qmax := max r.qmax q.length }

/-- Put a record ahead of every queued record (12 R274, R277). -/
def Recorder.pushFront (r : Recorder) (x : EvRec) : Recorder :=
  let q := (r.nextId, x) :: r.queue
  { r with queue := q, nextId := r.nextId + 1, qmax := max r.qmax (min q.length 1024) }

/-- A report that creates a record: dropped in overflow, or queued behind the loss marker that is due (12 R272). An access event's
record goes to the crown too, in class 4 (05 Table 05.5; it has no SEQ yet). -/
def State.create (s : State) (e : Event) : State :=
  let r := s.evr
  if r.overflow || 1024 ≤ r.queue.length then
    { s with evr := { r with
        overflow := true, dropped := addW r.dropped 1, loss := r.loss.add s.now e.block, irqStat := orBit r.irqStat 1 true,
        keys := setKey { ev := e, tick := s.now, id := r.nextId, dropped := true } r.keys, nextId := r.nextId + 1 } }
  else
    let r := if r.loss.n = 0 then r else { r.enqueue [s.lossRec r.loss] with loss := {} }
    let s := if e.block = 12 then s.offer 4 e.tenant (s.newRec e).bytes else s
    { s with evr := { r.enqueue [s.newRec e] with keys := setKey { ev := e, tick := s.now, id := r.nextId } r.keys } }

/-- A record may be rewritten: while the recorder is frozen the committed ones stay fixed (12 R277; a report of the same key then
makes a record of its own: DEDUCED, log 49). -/
def Recorder.open (r : Recorder) (id : Nat) : Bool := !r.frozen || r.queue.any fun e => e.1 == id

/-- A report of an event: coalesced with the record its key names, or a new record (12 R272). -/
def State.report (s : State) (e : Event) : State :=
  let e := evNorm e
  match s.evr.keys.find? fun k => evSame k.ev e && !k.dropped && s.now < k.tick + secTicks 1 && s.evr.open k.id with
  | some k =>
    { s with evr := { s.evr with
        queue := bumpQueue k.id s.evr.queue, sap := bumpSlots k.id s.evr.sap, heart := bumpSlots k.id s.evr.heart,
        coalesced := addW s.evr.coalesced 1 } }
  | none => s.create e

/-- A report of block `b`, code `c` of a die's instance, for a tenant. Where the rule that raises it names no severity, it
is a free value. -/
def State.event (s : State) (t : Tenant) (d b inst c : Nat) (data : List Word) : State :=
  s.report { tenant := t, sev := (Config.severity b c).val, die := d, block := b, inst := inst, code := c, data := data }

/-- Commit a record: the next SEQ, its sapwood slot, and a heartwood slot while it fills (12 R270, R271). -/
def Recorder.commit (r : Recorder) (id : Nat) (x : EvRec) : Recorder :=
  let x := { x with seq := r.head + 1 }
  let h := r.planted && r.heartN < 4096
  let n := if h then r.heartN + 1 else r.heartN
  { r with
    head := r.head + 1, sap := sput r.sap (x.seq % 65536) (id, x),
    heart := if h then sput r.heart r.heartN (id, x) else r.heart, heartN := n,
    kept := if x.loss && r.kept.isSome then none else r.kept,
    irqStat := orBit (orBit (orBit r.irqStat 0 true) 2 x.loss) 3 (h && n == 4096) }

/-- EVR_TAIL (12 R275). -/
def Recorder.tail (r : Recorder) : Nat := if r.head < 65536 then 1 else r.head - 65535

/-- The committed record with a SEQ, where sapwood still holds it. -/
def Recorder.rec? (r : Recorder) (seq : Nat) : Option EvRec :=
  match sfind r.sap (seq % 65536) with
  | some (_, x) => if x.seq = seq then some x else none
  | none => none

/-- The recorder resumes after a freeze, a thawed event first (12 R277). -/
def State.thaw (s : State) : State :=
  if s.evr.frozen then
    let x := s.newRec { sev := (Config.severity 11 4).val, block := 11, code := 4 }
    { s with evr := { s.evr.pushFront x with frozen := false } }
  else s

/-! ### Meanings -/

/-- EVENT_REPORT (R272). -/
def execEventReport (e : Event) (s : State) : Host.Outcome State Fault Refusal := done s (s.report e)

/-- EVENT_COMMIT: the record at the head of the ingress queue is committed, unless commits are suspended (R271, R277). -/
def execEventCommit (s : State) : Host.Outcome State Fault Refusal :=
  match s.evr.queue with
  | [] => done s s
  | (id, x) :: rest =>
    if s.evr.frozen || s.evr.stopped then done s s
    else done s { s with evr := { s.evr with queue := rest }.commit id x }

/-- EVR_OVERFLOW_CLEAR: at 768 entries or fewer the recorder accepts records again (R272). -/
def execEvrOverflowClear (s : State) : Host.Outcome State Fault Refusal :=
  if s.evr.overflow && s.evr.queue.length ≤ 768 then done s { s with evr := { s.evr with overflow := false } } else done s s

/-- The loss data kept at the end of the power-fail window (12 R274): the records not committed, with overflow drops still
awaiting their marker merged in. -/
def Recorder.keep (r : Recorder) (now : Nat) : Option Loss :=
  let q := r.queue.filter fun e => !e.2.loss
  let marks := (r.queue.filter fun e => e.2.loss).map fun e =>
    ({ n := (e.2.ev.data.getD 0 0).toNat, first := (e.2.ev.data.getD 1 0).toNat + 2 ^ 32 * (e.2.ev.data.getD 2 0).toNat,
       last := now, mask := e.2.ev.data.getD 5 0 } : Loss)
  let all := marks ++ (if r.loss.n = 0 then [] else [r.loss])
  let n := sumNat (all.map (·.n)) + q.length
  if n = 0 then none
  else some {
    n := n
    first := match all with
      | [] => now
      | l :: _ => l.first
    last := now
    mask := (q.map fun e => w32 (2 ^ (e.2.ev.block % 32))).foldl (· ||| ·) ((all.map (·.mask)).foldl (· ||| ·) 0) }

/-- RECORDER_POWERFAIL_WINDOW_END: 1.5 ms after power-fail detection the recorder stops and keeps one loss marker's data for
what it did not commit (R274). -/
def execRecorderPowerfailWindowEnd (s : State) : Host.Outcome State Fault Refusal :=
  if s.evr.pfWindow && s.due s.evr.pfAt 24 then
    done s { s with evr := { s.evr with
      pfWindow := false, stopped := true, kept := s.evr.keep s.now, queue := [], loss := {}, overflow := false } }
  else done s s

/-- FREEZE_TIMEOUT: a freeze ends after 10 min (R277). -/
def execFreezeTimeout (s : State) : Host.Outcome State Fault Refusal :=
  done s (if s.due s.evr.frozenAt (secTicks 600) then s.thaw else s)

/-- OPSEC_INCREMENT: one more second of operation (R269). -/
def execOpsecIncrement (s : State) : Host.Outcome State Fault Refusal :=
  done s (if s.due s.evr.opsecAt (secTicks 1) then
    { s with evr := { s.evr with opsec := s.evr.opsec + 1, opsecAt := s.evr.opsecAt + secTicks 1 } } else s)

end Sys2Proof.Machine
end

