-- ==== Sys2Proof/Machine/Store.lean ====
section
/-! DEFINITION. The history store's shared operations: the encoding of trend blocks, staging, segments, quotas, reclamation,
nonces and the drives' commands (12 R255 to R267). -/
namespace Sys2Proof.Machine

/-! ### The encoding of trend records (12 R266) -/

/-- An unsigned LEB128 varint. -/
def varint : Nat → Nat → List Byte
  | 0, x => [BitVec.ofNat 8 x]
  | f + 1, x => if x < 128 then [BitVec.ofNat 8 x] else BitVec.ofNat 8 (x % 128 + 128) :: varint f (x / 128)

/-- z of a value delta: (d << 1) xor (d >> 23), d taken as a 24-bit two's complement number. -/
def zigzag (d : V24) : Nat := ((d <<< 1) ^^^ (d.sshiftRight 23)).toNat

/-- What the encoder remembers within a block. -/
structure EncSt where
  series : Option Nat := none
  tick   : Nat := 0
  last   : Map (Byte × V24) := []
  deriving DecidableEq, Repr

/-- One record's bytes (12 Table 12.4). The first record of a series in a block carries STB and ABS; a later one carries STB
when its status byte differs from that series' previous record, and no ABS (DESIGN CHOICE). -/
def encRec (e : EncSt) (r : TrendRec) : List Byte × EncSt :=
  let ser := match e.series with
    | none => 2
    | some p => if p = r.series then 0 else if p + 1 = r.series then 1 else 2
  let prev := sfind e.last r.series
  let stb := match prev with
    | none => true
    | some (st, _) => st != r.status
  let h := ser + flag stb 2 + flag prev.isNone 3 + flag r.gap 4
  (leBytes h 1 ++ (if ser = 2 then leBytes r.series 3 else []) ++ varint 9 (r.tick - e.tick)
    ++ (if stb then [r.status] else [])
    ++ (match prev with
        | none => leBytes r.value.toNat 3
        | some (_, v) => varint 3 (zigzag (r.value - v))),
   { series := some r.series, tick := r.tick, last := sput e.last r.series (r.status, r.value) })

/-- The records' bytes, from the block's T0. -/
def encRecs (e : EncSt) : List TrendRec → List Byte
  | [] => []
  | r :: l => (encRec e r).1 ++ encRecs (encRec e r).2 l

/-- A block's record bytes: T0 is the tick of its first record. -/
def recsBytes (l : List TrendRec) : List Byte :=
  encRecs { tick := match l with
    | [] => 0
    | r :: _ => r.tick } l

/-- The 20-byte block base (12 Table 12.5), and the payload, ended by a record of SER 0b11 where room is left. -/
def Block.base (b : Block) : List Byte :=
  leBytes b.t0 8 ++ leBytes b.timeMs 6 ++ leBytes (flag b.timeOk 0 + 2 * b.source.toNat) 1 ++ [0] ++ leBytes b.pcc.toNat 3 ++ [0]
def Block.payload (b : Block) : List Byte := padTo 0 4064 (b.base ++ recsBytes b.recs ++ [3])

/-! ### Sealed blocks (12 R258) -/

/-- A block's header without its tag (12 Table 12.3), and the block as the drives and replicas hold it: the header, the GCM tag
and the encrypted payload. `btype` is 0 for a segment header, 1 trend, 2 replica, 3 metadata. -/
def blockHeader (seg : Nat) (t : Tenant) (blk btype gen nonce : Nat) : List Byte :=
  leBytes (seg % 2 ^ 20 + 2 ^ 20 * t.toNat) 4 ++ leBytes (blk % 2 ^ 14 + 2 ^ 14 * btype) 2 ++ leBytes gen 1 ++ [0] ++ leBytes nonce 8
def State.sealBytes (s : State) (seg : Nat) (t : Tenant) (blk btype gen nonce : Nat) (payload : List Byte) : List Byte :=
  let h := blockHeader seg t blk btype gen nonce
  padTo 0 4096 (h ++ Config.gcmSeal (s.keyOf (.hist t.toNat gen)) (leBytes nonce 8 ++ h.take 4) h (padTo 0 4064 payload))
def State.sealBlock (s : State) (seg : Nat) (t : Tenant) (btype : Nat) (b : Block) : List Byte :=
  s.sealBytes seg t b.blk btype b.keyGen b.nonce b.payload
/-- A trend block decrypted: its 32-byte header as stored, and its payload (R266). -/
def State.plainBlock (s : State) (seg : Nat) (t : Tenant) (b : Block) : List Byte := (s.sealBlock seg t 1 b).take 32 ++ b.payload

/-! ### Drives -/

/-- Drive of port S0 or S1. -/
def History.drive (h : History) (n : Nat) : Drive := if n = 0 then h.d0 else h.d1
def History.setDrive (h : History) (n : Nat) (x : Drive) : History := if n = 0 then { h with d0 := x } else { h with d1 := x }
def State.modDrive (s : State) (n : Nat) (f : Drive → Drive) : State :=
  { s with hst := s.hst.setDrive n (f (s.hst.drive n)) }

/-- Raise bits of a die's HST_IRQ_STAT. -/
def State.hstIrq (s : State) (d bit : Nat) : State := s.modHstDie d fun x => { x with irqStat := orBit x.irqStat bit true }

/-- Segments of a drive that a store can use: those of its blocks without the metadata segment. -/
def Drive.segs (d : Drive) : Nat := if d.ok then d.blocks / 16384 - 1 else 0
/-- Usable segments of the store (12 R257). -/
def History.total (h : History) : Nat :=
  if h.mirror then (if h.d0.ok && h.d1.ok then min h.d0.segs h.d1.segs else max h.d0.segs h.d1.segs)
  else h.d0.segs + h.d1.segs
/-- The drive a segment number selects without mirroring: its bit 19. -/
def segDrive (n : Nat) : Nat := n / 524288 % 2
/-- Segments in use on a drive, and its fill in 0.1 % (12 Table 12.9, HST_FILL). -/
def History.used (h : History) (d : Nat) : Nat :=
  if h.mirror then h.segs.length else (h.segs.filter fun e => segDrive e.1 == d).length
def History.fill (h : History) (d : Nat) : Nat :=
  let n := (h.drive d).segs
  if n = 0 then 0 else min 1000 (1000 * h.used d / n)
/-- Segments a tenant holds. -/
def History.held (h : History) (t : Tenant) : Nat := (h.segs.filter fun e => e.2.tenant == t).length

/-- The queue pair of a command, and the entries that it has (12 Table 12.1). -/
def NvmeOp.queue : NvmeOp → Nat
  | .read => 2
  | .write | .fua | .flush | .dealloc => 1
  | .identify | .createQueue | .setFeatures | .getLog => 0
def queueSize (q : Nat) : Nat := if q = 0 then 32 else 256
/-- The lowest number from `k` on not used by an outstanding command of a drive. -/
def freeCid (m : Map NvmeCmd) : Nat → Nat → Nat
  | 0, k => k
  | f + 1, k => if shas m k then freeCid m f (k + 1) else k
/-- A queue pair of a drive is full, or commands wait for it. -/
def Drive.queueFull (x : Drive) (q : Nat) : Bool :=
  x.wait.any (fun c => c.op.queue == q) || queueSize q ≤ (x.cmds.filter fun e => e.1 / 256 == q).length
/-- A command enters its queue, or waits for room in it. -/
def Drive.issue (x : Drive) (now : Nat) (c : NvmeCmd) : Drive :=
  if x.queueFull c.op.queue then { x with wait := x.wait ++ [c] }
  else { x with cmds := sput x.cmds (freeCid x.cmds 256 (256 * c.op.queue)) { c with issuedAt := now } }
/-- Commands that wait enter the queues that have room. -/
def Drive.pump (x : Drive) (now : Nat) : Drive := x.wait.foldl (fun y c => y.issue now c) { x with wait := [] }

/-- A drive takes commands. -/
def Drive.inUse (x : Drive) : Bool := x.ok && !x.fail
/-- Give a command to a drive that is in use (12 R256, R257). -/
def State.nvmeCmd (s : State) (d : Nat) (op : NvmeOp) (sba blocks : Nat) (data : List Byte) : State :=
  if (s.hst.drive d).inUse then
    s.modDrive d fun x => ({ x with
      wr := if op == .write || op == .fua then addW x.wr blocks else x.wr
      rd := if op == .read then addW x.rd blocks else x.rd } : Drive).issue s.now { op := op, sba := sba, blocks := blocks, data := data }
  else s
/-- Write a store block to a drive; of a mirror, a drive that cannot take it has missed a write, and needs a resync. -/
def State.nvmeWrite (s : State) (d sba : Nat) (data : List Byte) : State :=
  if (s.hst.drive d).inUse then s.nvmeCmd d .write sba 1 data
  else if s.hst.mirror then (s.modDrive d fun x => { x with stale := true }).modHst fun h => { h with degraded := true } else s
/-- Issue the write or writes of a store block: with mirroring, on both drives. -/
def State.storeWrite (s : State) (sba : Nat) (data : List Byte) : State :=
  if s.hst.mirror then (s.nvmeWrite 0 sba data).nvmeWrite 1 sba data else s.nvmeWrite (segDrive (sba / 16384)) sba data
/-- Deallocate a segment on the drives that hold it and support Dataset Management (12 R262). -/
def State.deallocate (s : State) (n : Nat) : State :=
  let g (s : State) (d : Nat) : State := if (s.hst.drive d).dsm then s.nvmeCmd d .dealloc (16384 * n) 16384 [] else s
  if s.hst.mirror then g (g s 0) 1 else g s (segDrive n)

/-! ### Keys, nonces, checkpoints, segments -/

/-- The current history key generation of a tenant (15 R326). -/
def State.histGenOf (s : State) (t : Tenant) : Nat := sget 0 s.sec.histGen t.toNat
/-- The next `k` NONCEs under a tenant's current key, from the one answered on; MRAM reserves values in steps of 2^20
(12 R259). -/
def State.takeNonces (s : State) (t : Tenant) (k : Nat) : Nat × State :=
  let i := 128 * t.toNat + s.histGenOf t
  let n := sget 0 s.hst.nonce i
  let r := sget 0 s.hst.reserved i
  (n, { s with hst := { s.hst with
    nonce := sput s.hst.nonce i (n + k), reserved := if n + k ≤ r then s.hst.reserved else sput s.hst.reserved i (r + 2 ^ 20) } })
def State.takeNonce (s : State) (t : Tenant) : Nat × State := s.takeNonces t 1

/-- `a` is earlier than `b` under serial arithmetic (18 R386). -/
def serialLt (a b : Word) : Bool := let n := (b - a).toNat; 0 < n && n < 2 ^ 31

/-- The segment table as it stands. -/
def History.table (h : History) : Map Bool := h.segs.map fun e => (e.1, e.2.isOpen)
/-- The metadata segments that the store writes, each with its drives: with mirroring, one for both (12 R257). -/
def State.metaSegs (s : State) : List (Nat × List Nat) :=
  (if s.hst.mirror then [(0, [0, 1])] else [(0, [0]), (524288, [1])]).filter fun e => e.2.any fun d => (s.hst.drive d).inUse
/-- Write `n` metadata blocks from block `blk` on with FUA, sealed as blocks of the landlord, each under a NONCE of its own (R258, R259). -/
def State.metaWrite (s : State) (blk n : Nat) (payload : Nat → List Byte) : State :=
  s.metaSegs.foldl (fun s e =>
    let (nonce, s) := s.takeNonces 0 n
    let data := (List.range n).flatMap fun i => s.sealBytes e.1 0 (blk + i) 3 (s.histGenOf 0) (nonce + i) (payload i)
    e.2.foldl (fun s d => s.nvmeCmd d .fua (16384 * e.1 + blk) n data) s) s
/-- Flush the drives that have a volatile write cache (Table 12.1). -/
def State.flushCaches (s : State) : State :=
  [0, 1].foldl (fun s d => if (s.hst.drive d).cache then s.nvmeCmd d .flush 0 0 [] else s) s

/-- The superblock that the store has now. -/
def History.superNow (h : History) : Superblock :=
  { good := true, ident := (if h.super0.good then h.super0 else h.super1).ident, mirror := h.mirror
    serials := (h.d0.serial, h.d1.serial), seq := h.ckptSeq }
/-- Write one superblock copy: B with `b`, otherwise A. -/
def State.writeSuper (s : State) (b : Bool) : State :=
  let x := s.hst.superNow
  (s.modHst fun h => if b then { h with super1 := x } else { h with super0 := x }).metaWrite (if b then 1 else 0) 1 fun _ =>
    Config.superLayout x.ident x.mirror [x.serials.1, x.serials.2] x.seq.toNat

/-- A checkpoint goes to the older copy (12 R260), its 4,096 blocks written with FUA after a Flush; the superblock copy of the same
letter takes its sequence number. -/
def State.checkpoint (s : State) : State :=
  let b := !s.hst.ckptB
  let c : Ckpt := { good := true, seq := addW s.hst.ckptSeq 1, table := s.hst.table
                    quotas := sputs [] (s.cfg.tenants.map fun (x : TenantCfg) => (x.id.toNat, x.quota)), keyGen := s.histGenOf 0 }
  let s := { s with hst := { s.hst with
    ckptSeq := c.seq, ckptB := b, ckpt0 := if b then s.hst.ckpt0 else c, ckpt1 := if b then c else s.hst.ckpt1 } }
  (s.flushCaches.metaWrite (if b then 8192 else 1024) 4096 fun i => Config.ckptLayout c.table c.quotas i).writeSuper b

/-- The time that a block begins now has (12 Table 12.5). -/
def State.blockBase (s : State) : Block :=
  { t0 := s.now, timeMs := s.utcNow % 2 ^ 48, timeOk := s.time.utcOk, pcc := s.evr.pcc
    source := match s.time.source with
      | .ring => 0
      | .host => 1
      | .rtc => 2
      | .none => 3 }
/-- UTC of a record by its block's TIME. -/
def recMs (b : Block) (x : TrendRec) : Nat := b.timeMs + (x.tick - b.t0) / 16

/-- The last tick and time of a segment's records. -/
def Segment.lastRec (g : Segment) : Nat × Nat :=
  (g.blocks.flatMap fun b => b.recs.map fun x => (x.tick, recMs b x)).foldl (fun a e => (max a.1 e.1, max a.2 e.2)) (0, 0)
/-- Reclaim a segment: its header block is invalidated, written with a payload of zeros, and event 10/0x0003 recorded, an
information event (12 R262). -/
def State.reclaim (s : State) (n : Nat) : State :=
  match sfind s.hst.segs n with
  | none => s
  | some g =>
    let old := sget (0, 0) s.hst.gone g.tenant.toNat
    let s := { s with hst := { s.hst with
      segs := sdel s.hst.segs n, gone := sput s.hst.gone g.tenant.toNat (max old.1 g.lastRec.1, max old.2 g.lastRec.2) } }
    let (nonce, s) := s.takeNonce g.tenant
    let s := ((s.storeWrite (16384 * n) (s.sealBytes n g.tenant 0 0 (s.histGenOf g.tenant) nonce [])).deallocate n).modHstDie 0 fun x => { x with reclaimed := addW x.reclaimed 1 }
    (s.hstIrq 0 2).report { tenant := g.tenant, sev := 0, block := 10, code := 3, inst := segDrive n }

/-- A tenant's oldest segment of any kind. -/
def History.oldest (h : History) (t : Tenant) : Option Nat :=
  ((h.segs.filter fun e => e.2.tenant == t).foldl
    (fun (a : Option (Nat × Nat)) e => match a with
      | none => some (e.1, e.2.age)
      | some (n, g) => if e.2.age < g then some (e.1, e.2.age) else some (n, g)) none).map (·.1)

/-- Reclaim until the tenant holds less than its quota. -/
def State.reclaimTo (s : State) (t : Tenant) : Nat → State
  | 0 => s
  | f + 1 =>
    if s.hst.held t < s.quota t then s
    else match s.hst.oldest t with
      | some n => (s.reclaim n).reclaimTo t f
      | none => s

/-- The lowest free segment number, from 1 on the drives in use (DESIGN CHOICE). -/
def State.freeSeg (s : State) : Option Nat :=
  let h := s.hst
  let free (base n : Nat) := (List.range (h.segs.length + 1)).find? fun i => i < n && !shas h.segs (base + 1 + i)
  if h.mirror then (free 0 h.total).map (1 + ·)
  else match free 0 h.d0.segs with
    | some i => some (1 + i)
    | none => (free 524288 h.d1.segs).map (524289 + ·)

/-- Close the open segment of a tenant and kind, reclaim as the quota asks, and open a new one with its header block
(12 R260, R262). -/
def State.openSeg (s : State) (t : Tenant) (kind : Nat) (src : Byte) : Option (Nat × State) :=
  if s.quota t = 0 then none
  else
    let prev := (s.hst.segs.find? fun e => e.2.tenant == t && e.2.kind == kind && e.2.isOpen).map (·.1)
    let s := s.reclaimTo t (s.hst.segs.length + 1)
    match s.freeSeg with
    | none => none
    | some n =>
      let (nonce, s) := s.takeNonce t
      let head := { s.blockBase with nonce := nonce, keyGen := s.histGenOf t }
      let s := { s with hst := { s.hst with
        ages := s.hst.ages + 1
        segs := sput (smap s.hst.segs fun _ g =>
          if g.tenant == t && g.kind == kind && g.isOpen then { g with isOpen := false } else g) n
          { tenant := t, kind := kind, src := src, age := s.hst.ages, isOpen := true, prev := prev, head := head } } }
      let data := s.sealBytes n t 0 0 head.keyGen nonce (head.base ++ Config.headLayout kind prev)
      some (n, (s.storeWrite (16384 * n) data).checkpoint)

/-- The open segment of a tenant and kind that still has room, opened where there is none. -/
def State.segFor (s : State) (t : Tenant) (kind : Nat) (src : Byte) : Option (Nat × State) :=
  match s.hst.segs.find? fun e => e.2.tenant == t && e.2.kind == kind && e.2.src == src && e.2.isOpen
      && e.2.blocks.length < 16383 with
  | some e => some (e.1, s)
  | none => s.openSeg t kind src

/-- The store takes writes: it is up and power has not failed (12 R267). -/
def State.storeOn (s : State) : Bool := s.hst.up && !s.su.powerFail

/-- Write a block into the tenant's open segment; `none` where the store is not written or no segment can be had. A trend block
goes to the neighbour as a replica, sealed as one under a NONCE of its own (R259, R265, 05 Table 05.5; log entry 38). -/
def State.writeBlock (s : State) (t : Tenant) (kind : Nat) (src : Byte) (b : Block) : Option State :=
  if s.storeOn then
    match s.segFor t kind src with
    | none => none
    | some (n, s) =>
      let g := sget {} s.hst.segs n
      let blk := g.blocks.length + 1
      let (nonce, s) := if kind = 0 then s.takeNonce t else (b.nonce, s)
      let b := { b with blk := blk, nonce := nonce, keyGen := if kind = 0 then s.histGenOf t else b.keyGen }
      let s := { s with hst := { s.hst with segs := sput s.hst.segs n { g with blocks := g.blocks ++ [b] } } }.storeWrite
        (16384 * n + blk) (if kind = 0 then s.sealBlock n t 1 b else b.replica)
      if kind = 0 then
        let (other, s) := s.takeNonce t
        some (s.offer 5 t (s.sealBlock n t 2 { b with nonce := other }))
      else some s
  else none

/-! ### Staging (12 R267) -/

/-- Write staged blocks in order until one cannot be written; the rest stay staged. -/
def State.drain (s : State) (t : Tenant) : List Block → List Block × State
  | [] => ([], s)
  | b :: ls => match s.writeBlock t 0 0 b with
    | some s => s.drain t ls
    | none => (b :: ls, s)

/-- A die's staging of a tenant. -/
def State.staging (s : State) (d : Nat) (t : Tenant) : Staging := sget {} s.hst.staging (4096 * d + t.toNat)
def State.setStaging (s : State) (d : Nat) (t : Tenant) (x : Staging) : State :=
  { s with hst := { s.hst with staging := sput s.hst.staging (4096 * d + t.toNat) x } }

/-- Write what a die has staged for a tenant, the current block included; while the store is not written the current block goes
on filling. -/
def State.flushStaging (s : State) (d : Nat) (t : Tenant) : State :=
  let st := s.staging d t
  let (rest, s) := s.drain t (if st.current.recs.isEmpty then st.full else st.full ++ [st.current])
  if rest.isEmpty then s.setStaging d t {}
  else if st.current.recs.isEmpty then s.setStaging d t { st with full := rest }
  else s.setStaging d t { st with full := rest.dropLast }

/-- Stage a record: `none` when staging is full (64 blocks, the current one included). -/
def State.stage (s : State) (d : Nat) (t : Tenant) (r : TrendRec) : Option State :=
  let st := s.staging d t
  let l := st.current.recs ++ [r]
  let b := if st.current.recs.isEmpty then s.blockBase else st.current
  if (recsBytes l).length ≤ 4044 then
    if st.current.recs.isEmpty && 64 ≤ st.full.length then none
    else some (s.setStaging d t { st with
      current := { b with recs := l }, first := if st.current.recs.isEmpty then s.now else st.first, bytes := (recsBytes l).length })
  else
    let (rest, s) := s.drain t (st.full ++ [st.current])
    if rest.length < 64 then
      some (s.setStaging d t { full := rest, current := { s.blockBase with recs := [r] }, first := s.now, bytes := (recsBytes [r]).length })
    else none

/-- Record a series' point (12 R264): staged, or dropped and the series marked for GAP (R267). A recorded one goes to the crown in
class 3, as a block's first record would stand (05 Table 05.5; log entry 38). -/
def State.recordTrend (s : State) (d : Nat) (t : Tenant) (series : Nat) (status : Byte) (v : V24) (periodic : Bool) : State :=
  let gap := !s.hst.seen.contains series || s.hst.gap.contains series
  let tick := 2 * s.now + bit periodic
  let r : TrendRec := { series := series, tick := s.now, status := status, value := v, gap := gap }
  match s.stage d t r with
  | some s => ((s.offer 3 t (encRec {} r).1).modHst fun h => { h with
      last := sput h.last series (status, v), lastTick := sput h.lastTick series tick,
      seen := insNat series h.seen, gap := h.gap.filter (· != series) }).modHstDie d
      fun x => { x with trendRec := addW x.trendRec 1 }
  | none => ((s.modHst fun h => { h with gap := insNat series h.gap }).modHstDie d
      fun x => { x with trendDrop := addW x.trendDrop 1 }).hstIrq d 3

end Sys2Proof.Machine
end

