-- ==== Sys2Proof/Machine/PointOps.lean ====
section
/-! DEFINITION. Point cells: their words, alarms, changes, source writes, batches, forces and visibility (02). -/
namespace Sys2Proof.Machine

/-! ### Encodings -/

/-- QUAL and SRC as their bits (02 Table 02.1). -/
def qualBits : Qual → Nat
  | .good => 0
  | .uncertain => 1
  | .bad => 2
  | .noSource => 3
def qualOf : Nat → Qual
  | 0 => .good
  | 1 => .uncertain
  | 2 => .bad
  | _ => .noSource
def srcBits : Src → Nat
  | .field => 0
  | .logic => 1
  | .loop => 2
  | .host => 3

/-- The status byte and the 32 bits of a cell (02 R17). -/
def cellByte (c : Cell) : Nat :=
  64 * qualBits c.qual + flag c.forced 5 + flag c.alarm 4 + flag c.stale 3 + flag c.chg 2 + srcBits c.src
def cellWord (c : Cell) : Word := w32 (16777216 * cellByte c + c.value.toNat)

/-- The 64 bytes of a descriptor (02 Table 02.3). -/
def descBytes (d : Desc) : List Byte :=
  leBytes (4096 * d.ptype.toNat + d.tenant.toNat) 2 ++ [d.bkind]
  ++ leBytes (flag d.cn 0 + flag d.fbk 1 + flag d.tfa 2 + flag d.shr 3) 1 ++ leBytes d.bref.toNat 4
  ++ leBytes d.exp.toNat 1 ++ leBytes d.unit.toNat 2 ++ leBytes 0 1 ++ leBytes d.deadband.toNat 4 ++ leBytes d.staleT.toNat 2 ++ leBytes 0 2
  ++ leBytes (d.trend.toNat + flag d.trendV 31) 4
  ++ leBytes (d.almLo.value.toNat + flag d.almLo.en 24) 4 ++ leBytes (d.almHi.value.toNat + flag d.almHi.en 24) 4
  ++ leBytes d.hyst.toNat 4 ++ leBytes d.fallback.toNat 4 ++ leBytes 0 4 ++ padTo 0 20 d.label

/-- The trend series of a point, where TREND is valid. -/
def seriesOf (d : Desc) : Option Nat := if d.trendV then some d.trend.toNat else none

/-- The cell of a point as the image holds it. -/
def State.cell (s : State) (m : Nat) : Cell := sget {} s.pnt.cells m

/-! ### Visibility (02 R25, R27) -/

/-- Does a requester of tenant `t` see a point? -/
def sees (t : Tenant) (d : Desc) : Bool := t == 0 || d.tenant == t || (d.tenant == 0 && d.shr)
/-- The cell a requester reads: 0xC000_0000 for a point that is absent to it. -/
def State.cellFor (s : State) (t : Tenant) (m : Nat) : Cell :=
  match s.desc? m with
  | none => {}
  | some d => if sees t d then s.cell m else {}

/-! ### Alarm and change (02 R33, R34) -/

/-- ALARM after a write of `v`; limits are not applied to CNT points (R20). -/
def alarmOf (d : Desc) (old : Bool) (v : V24) : Bool :=
  let x := v.toInt
  let hy : Int := d.hyst.toNat
  if d.ptype == 4 then false
  else if (d.almHi.en && d.almHi.value.toInt < x) || (d.almLo.en && x < d.almLo.value.toInt) then true
  else if (!d.almHi.en || x ≤ d.almHi.value.toInt - hy) && (!d.almLo.en || d.almLo.value.toInt + hy ≤ x) then false
  else old

/-- Does a write from `old` to `new` count as a change, with the value at the last notified change? -/
def isChange (d : Desc) (old new : Cell) (ref : V24) : Bool :=
  old.qual != new.qual || old.forced != new.forced || old.alarm != new.alarm || old.stale != new.stale
  || (if d.ptype == 0 || d.ptype == 1 || d.ptype == 8 || d.ptype == 9 then old.value != new.value
      else if d.ptype == 4 then d.deadband.toNat < (new.value - ref).toNat
      else d.deadband.toNat < (new.value.toInt - ref.toInt).natAbs)

/-- Does a change call for a record of an on-change series (12 R264)? -/
def trendDue (d : Desc) (r : TrendCfg) (last : Option (Byte × V24)) (c : Cell) : Bool :=
  match last with
  | none => true
  | some (st, v) =>
    (st &&& 0xF8) != (BitVec.ofNat 8 (cellByte c) &&& 0xF8)
    || (if d.ptype == 4 then r.tdb.toNat < (c.value - v).toNat else r.tdb.toNat < (c.value.toInt - v.toInt).natAbs)

/-- The on-change record of a point's series, at a change of the point. A record of the series at this tick stands for both
modes when it was periodic. -/
def State.trendChange (s : State) (m : Nat) (d : Desc) (c : Cell) : State :=
  match seriesOf d with
  | none => s
  | some n => match s.trendCfg? n with
    | none => s
    | some r =>
      if r.onChange && trendDue d r (sfind s.hst.last n) c && sfind s.hst.lastTick n != some (2 * s.now + 1) then
        s.recordTrend (mpnDie m) r.tenant n (BitVec.ofNat 8 (cellByte c)) c.value false
      else s

/-- Mark a block in its die's PNT_CHGMAP (02 Table 02.7). -/
def Points.markChg (p : Points) (m : Nat) : Points :=
  let b := m % 32768 / 64
  { p with regs := supd {} p.regs (mpnDie m) fun r =>
      { r with chgmap := supd 0 r.chgmap (b / 32) fun w => w ||| w32 (2 ^ (b % 32)) } }

/-- Write a cell of a configured point: ALARM is evaluated, and a change sets CHG, moves the reference, marks the change map,
queues a change record under CN, and is offered to the point's trend series (R33, R34). -/
def State.putCell (s : State) (m : Nat) (d : Desc) (c : Cell) : State :=
  let old := s.cell m
  let c := { c with alarm := alarmOf d old.alarm c.value, chg := old.chg }
  if isChange d old c (sget 0 s.pnt.chref m) then
    let c := { c with chg := true }
    let p : Points := { s.pnt with
      cells := sput s.pnt.cells m c, chref := sput s.pnt.chref m c.value
      changes := if d.cn then s.pnt.changes ++ [⟨m, d.tenant, c, s.now⟩] else s.pnt.changes }
    State.trendChange { s with pnt := p.markChg m } m d c
  else { s with pnt := { s.pnt with cells := sput s.pnt.cells m c } }

/-- The value a cell takes: FALLBACK under FBK while QUAL is bad or no source. -/
def fbkValue (d : Desc) (q : Qual) (v : V24) : V24 := if d.fbk && (q == .bad || q == .noSource) then d.fallback else v

/-- The generation word of a block, by module-wide block number, after one batch: + 1 before and + 1 after (R38). -/
def State.bumpGen (s : State) (b : Nat) : State :=
  { s with pnt := { s.pnt with gens := supd 0 s.pnt.gens b fun w => w + 2 } }

/-- A write of a point's bound source (R29, R31, R35): into the shadow while the point is forced. The clearing of STALE in a
forced cell is a batch of its own (R29). -/
def State.sourceWrite (s : State) (m : Nat) (src : Src) (q : Qual) (v : V24) : State :=
  match s.desc? m with
  | none => s
  | some d =>
    let c := s.cell m
    let s := { s with pnt := { s.pnt with lastSrc := sput s.pnt.lastSrc m s.now } }
    if c.forced then
      let s := { s with pnt := { s.pnt with shadows := sput s.pnt.shadows m { qual := q, src := src, value := v } } }
      if c.stale then (s.putCell m d { c with stale := false }).bumpGen (m / 64) else s
    else s.putCell m d { c with qual := q, src := src, value := fbkValue d q v, stale := false }

/-- Does a write to this point reach its cell? A write into the shadow is no part of its engine's batch. -/
def State.touches (s : State) (m : Nat) : Bool := (s.desc? m).isSome && !(s.cell m).forced

/-- One cell write of a batch. -/
structure CellWrite where
  m   : Nat
  src : Src
  q   : Qual
  v   : V24
  deriving DecidableEq, Repr

/-- The writes of one batch, in order. -/
def State.sourceWrites (s : State) : List CellWrite → State
  | [] => s
  | w :: l => (s.sourceWrite w.m w.src w.q w.v).sourceWrites l

/-- The generation words of the blocks after one batch to each. -/
def State.bumpGens (s : State) : List Nat → State
  | [] => s
  | b :: l => (s.bumpGen b).bumpGens l

/-- One batch of source writes, for each block it touches (R38). -/
def State.batch (s : State) (l : List CellWrite) : State :=
  let blocks := sortNat ((l.filter fun w => s.touches w.m).map fun w => w.m / 64)
  (s.sourceWrites l).bumpGens blocks

/-- One write of a cell that is a batch of its own. -/
def State.oneBatch (s : State) (m : Nat) (d : Desc) (c : Cell) : State := (s.putCell m d c).bumpGen (m / 64)

/-- QUAL bad in one point of a lost node: into the shadow while the point is forced (Table 02.6). -/
def State.markBad (s : State) (m : Nat) : State :=
  match s.desc? m with
  | none => s
  | some d =>
    let c := s.cell m
    if c.forced then
      { s with pnt := { s.pnt with shadows := supd { src := .field } s.pnt.shadows m fun x => { x with qual := .bad } } }
    else s.putCell m d { c with qual := .bad, value := fbkValue d .bad c.value }

/-- A write from an engine that is not the bound source: discarded and counted (R23). -/
def State.refuseWrite (s : State) (m : Nat) : State :=
  { s with pnt := { s.pnt with regs := supd {} s.pnt.regs (mpnDie m) fun r => { r with refused := addW r.refused 1 } } }

/-! ### Forces (02 R29 to R32) -/

/-- The checks of R30, as the status they give: 0 done, 2 not found, 3 not writable, 4 locked, 1 not forced, 5 no space. -/
def State.forceCheck (s : State) (t : Tenant) (m : Nat) (release : Bool) : Nat :=
  match s.desc? m with
  | none => 2
  | some d =>
    if !sees t d then 2
    else if t != 0 && (d.tenant != t || !d.tfa) then 3
    else
      let f := sfind s.pnt.forces m
      if t != 0 && f.any (fun x => x.by_ == 0) then 4
      else if release && f.isNone then 1
      else if !release && f.isNone && 4096 ≤ s.pnt.forces.length then 5
      else 0

/-- Place a force in its cell: a batch of its own under the change rules. -/
def State.placeForce (s : State) (m : Nat) (v : V24) : State :=
  match s.desc? m with
  | none => s
  | some d => s.oneBatch m d { s.cell m with forced := true, qual := .good, src := .host, value := v }

/-- Force a point: the table's entry names who forced and the point as it is, the source shadow starts empty. -/
def State.force (s : State) (t : Tenant) (m : Nat) (v : V24) : State :=
  match s.desc? m with
  | none => s
  | some d =>
    let sh := if (s.cell m).forced then s.pnt.shadows else sdel s.pnt.shadows m
    { s with pnt := { s.pnt with
        shadows := sh
        forces := sput s.pnt.forces m { value := v, by_ := t, tenant := d.tenant, bkind := d.bkind, bref := d.bref } } }.placeForce m v

/-- Release a point: FORCED clears and the cell keeps the forced value until the bound source next writes (R31). -/
def State.release (s : State) (m : Nat) : State :=
  match s.desc? m with
  | none => s
  | some d =>
    { s with pnt := { s.pnt with forces := sdel s.pnt.forces m, shadows := sdel s.pnt.shadows m } }.oneBatch m d
      { s.cell m with forced := false }

/-! ### Commands of the points' own -/

/-- STALE_CHECK (R35): STALE sets once the stale time has passed since the bound source's last write. -/
def execStaleCheck (m : Mpn) (s : State) : Host.Outcome State Fault Refusal :=
  match s.desc? m.val with
  | none => done s s
  | some d =>
    let c := s.cell m.val
    if d.staleT != 0 && !c.stale && sget 0 s.pnt.lastSrc m.val + 1600 * d.staleT.toNat ≤ s.now then
      done s (s.oneBatch m.val d { c with stale := true })
    else done s s

/-- TREND_PERIODIC (12 R264): at a tick T with T mod (16,000 × PERIOD) = 0 the series records its point's cell. -/
def execTrendPeriodic (series : BitVec 19) (s : State) : Host.Outcome State Fault Refusal :=
  match s.trendCfg? series.toNat, s.pnt.descs.find? fun e => seriesOf e.2 == some series.toNat with
  | some r, some (m, _) =>
    if r.periodic && s.now % (16000 * r.period) = 0 && (sfind s.hst.lastTick series.toNat).map (· / 2) != some s.now then
      done s (s.recordTrend (mpnDie m) r.tenant series.toNat (BitVec.ofNat 8 (cellByte (s.cell m))) (s.cell m).value true)
    else done s s
  | _, _ => done s s

end Sys2Proof.Machine
end

