-- ==== Sys2Proof/Machine/ReqOps.lean ====
section
/-! DEFINITION. Requests in progress: their results and status codes (13 R294, 14 Table 14.1). -/
namespace Sys2Proof.Machine

/-! ### Status codes (14 Table 14.1) -/

abbrev stOk : BitVec 16 := 0
abbrev stInvalid : BitVec 16 := 1
abbrev stNotFound : BitVec 16 := 2
abbrev stNotWritable : BitVec 16 := 3
abbrev stLocked : BitVec 16 := 4
abbrev stNoSpace : BitVec 16 := 5
abbrev stBusy : BitVec 16 := 6
abbrev stWrongMode : BitVec 16 := 7
abbrev stMismatch : BitVec 16 := 8
abbrev stNoResponse : BitVec 16 := 9
abbrev stNotReady : BitVec 16 := 10
abbrev stNotOpen : BitVec 16 := 11
abbrev stHostFault : BitVec 16 := 12
abbrev stTruncated : BitVec 16 := 13
abbrev stDataError : BitVec 16 := 14
abbrev stOverwritten : BitVec 16 := 15
abbrev stUnsupported : BitVec 16 := 16
abbrev stAuthFailed : BitVec 16 := 17
abbrev stInternal : BitVec 16 := 0xFF

/-- A result with a status other than OK, TRUNCATED or OVERWRITTEN: RESULT0 carries the detail, the rest is 0 (14 R313). -/
def refusal (st : BitVec 16) (detail : Nat) : Result := { status := st, r0 := w32 detail }
/-- An OK result with its first words. -/
def okWords (r0 r1 r2 r3 r4 : Word) : Result := { r0 := r0, r1 := r1, r2 := r2, r3 := r3, r4 := r4 }

/-- Give the result to the first begun request of a tag that has none. -/
def finishIn (tag : Word) (res : Result) : List ReqSt → List ReqSt
  | [] => []
  | q :: l => if q.head.tag = tag && q.begun && q.result.isNone then { q with result := some res } :: l
    else q :: finishIn tag res l

/-- A request in progress comes to its result. -/
def State.finish (s : State) (r : Req) (res : Result) : State :=
  s.modSender r.sender.val fun x => { x with reqs := finishIn r.tag res x.reqs }
/-- The same where a request waits. -/
def State.finish? (s : State) (r : Option Req) (res : Result) : State :=
  match r with
  | none => s
  | some r => s.finish r res
/-- The same for several. -/
def State.finishAll (s : State) (res : Result) : List Req → State
  | [] => s
  | r :: l => (s.finish r res).finishAll res l

end Sys2Proof.Machine
end

