-- ==== Sys2Proof/Machine/Memory.lean ====
section
/-! DEFINITION. DRAM, integrity tags, page owners and address translation (11 R231 to R242). -/
namespace Sys2Proof.Machine

/-! ### Bytes -/

/-- A byte of memory; an unlisted address holds 0, which no read can show while its line has no valid tag. -/
def memGet : List Host.Cell → Nat → Byte
  | [], _ => 0
  | (j, b) :: m, a => if j = a then b else memGet m a

/-- Write a byte, keeping addresses strictly rising and listing no byte equal to what an unlisted address holds. -/
def memPut : List Host.Cell → Nat → Byte → List Host.Cell
  | [], a, v => if v = 0 then [] else [(a, v)]
  | (j, b) :: m, a, v =>
    if a < j then (if v = 0 then (j, b) :: m else (a, v) :: (j, b) :: m)
    else if a = j then (if v = 0 then m else (a, v) :: m)
    else (j, b) :: memPut m a v

/-- Addresses strictly rising, from `lo` on, and no byte 0 listed. -/
def memWfFrom : Nat → List Host.Cell → Bool
  | _, [] => true
  | lo, (a, v) :: m => lo ≤ a && v != 0 && memWfFrom (a + 1) m
/-- The canonical form of memory. -/
def Memory.wf (m : List Host.Cell) : Bool := memWfFrom 0 m

/-- Write bytes from an address on. -/
def memPuts : List Host.Cell → Nat → List Byte → List Host.Cell
  | m, _, [] => m
  | m, a, v :: l => memPuts (memPut m a v) (a + 1) l
/-- `n` bytes from an address on. -/
def memGets (m : List Host.Cell) (a n : Nat) : List Byte := (List.range n).map fun i => memGet m (a + i)

/-! ### Lines and tags (R231 to R236) -/

/-- The die of a physical address, and whether the address lies in a die's usable DRAM (Table 11.1). -/
def paDie (pa : Nat) : Nat := pa / 2 ^ 36
def State.paOk (s : State) (pa : Nat) : Bool := paDie pa < s.nDies && pa % 2 ^ 36 < 0xE0000000

def State.tag (s : State) (line : Nat) : Tag := sget {} s.tags line
/-- The owner of a page; an unlisted page is unowned. -/
def State.owner (s : State) (page : Nat) : Tenant := sget 0xFFF s.owners page
/-- The current integrity key generation of a tenant (15 R326). -/
def State.integGenOf (s : State) (t : Tenant) : Nat := sget 0 s.sec.integGen t.toNat

/-- A fresh tag of a line with these bytes, under the owner's current generation (R232). -/
def State.freshTag (s : State) (line : Nat) (data : List Byte) : Tag :=
  let t := s.owner (line / 64)
  let g := s.integGenOf t
  { good := true, mac := Config.lineMac (s.keyOf (.integ t.toNat g)) line data g, version := BitVec.ofNat 7 g }

/-- The tag verifies: the MAC is right and the line is not poisoned. -/
def Tag.ok (t : Tag) : Bool := t.good && !t.poison

def Atu.irq (x : Atu) (i : Nat) : Atu := { x with irqStat := orBit x.irqStat i true }

/-- A failed verification: counted and recorded, the line poisoned, and an event unless it already was (R234, R235). -/
def State.integFail (s : State) (line : Nat) : State :=
  let d := paDie (64 * line)
  let was := (s.tag line).poison
  let s := s.modAtu d fun x => { x with
    integFail := addW x.integFail 1, integs := x.integs + 1, poisoned := addW x.poisoned (bit (!was)), lastAddr := BitVec.ofNat 40 (64 * line)
    lastOwner := s.owner (line / 64) }.irq 2
  let s := { s with tags := sput s.tags line { poison := true } }
  if was then s else s.event (s.owner (line / 64)) d 7 0 1 [w32 (64 * line), w32 (64 * line / 2 ^ 32)]

/-- A full-line write: the data with a fresh tag, whatever the old one was (R235). -/
def State.writeLine (s : State) (line : Nat) (data : List Byte) : State :=
  { s with mem := memPuts s.mem (64 * line) (padTo 0 64 data)
           tags := sput s.tags line (s.freshTag line (padTo 0 64 data)) }

/-- A partial write of bytes by offset: read-modify-write, not merged where verification fails (R235). -/
def State.mergeLine (s : State) (line : Nat) (data : List (Nat × Byte)) : Bool × State :=
  if (s.tag line).ok then
    let m := data.foldl (fun m e => memPut m (64 * line + e.1) e.2) s.mem
    (true, { s with mem := m, tags := sput s.tags line (s.freshTag line (memGets m (64 * line) 64)) })
  else (false, s.integFail line)

/-- Why an access does not go through (Table 11.6): a translation fault, an integrity fault or a bus error. -/
inductive AccErr where
  | xlate | integ | bus
  deriving DecidableEq, Repr

/-- Read `n` bytes at a physical address, each line verified (R234). -/
def State.readPhys (s : State) (pa : Nat) : Nat → Except AccErr (List Byte) × State
  | 0 => (.ok [], s)
  | n + 1 =>
    if !s.paOk pa then (.error .bus, s)
    else if (s.tag (pa / 64)).ok then
      match s.readPhys (pa + 1) n with
      | (.ok l, t) => (.ok (memGet s.mem pa :: l), t)
      | r => r
    else (.error .integ, s.integFail (pa / 64))

/-! ### Translation (R238 to R241) -/

/-- The tenant table in index order: the landlord's index is 0. -/
def State.tenantTable (s : State) : List Tenant := 0 :: (s.cfg.tenants.map (·.id)).filter (· != 0)
/-- The tenant and the context ID of an engine class of a tenant; an index that no tenant has belongs to none (4,095). -/
def State.ctxTenant (s : State) (ctx : Nat) : Tenant := (s.tenantTable[ctx / 16]?).getD 0xFFF
def State.ctxOf (s : State) (t : Tenant) (cls : Nat) : Nat := 16 * s.tenantTable.idxOf t + cls

/-- Enter a translation fault: counted, queued while there is room, with an event for a pinned page (R241, Table 11.4). -/
def State.xlateFault (s : State) (d ctx cause : Nat) (write pin : Bool) (inst va : Nat) : State :=
  let e : FaultEntry := {
    ctx := BitVec.ofNat 16 ctx, cause := BitVec.ofNat 3 cause, write := write, pin := pin, inst := BitVec.ofNat 5 inst
    va := BitVec.ofNat 36 va, tick := s.tick.setWidth 32 }
  let s := s.modAtu d fun x =>
    let x := { x with faults := addW x.faults 1 }.irq 0
    if x.fq.length < 64 then { x with fq := x.fq ++ [e] }
    else { x with fqLost := addW x.fqLost 1, fqOvf := true }.irq 1
  if pin then s.event (s.ctxTenant ctx) d 7 inst 2 [w32 ctx, w32 cause, w32 va, w32 (va / 2 ^ 32)] else s

/-- A fault that an engine of die `d` met in its own buffers, in the landlord's context of its class (R238, R241, R242). -/
def State.engFault (s : State) (d cls inst : Nat) (write : Bool) : EngFault → State
  | .xlate c pin va => s.xlateFault d cls c.toNat write pin inst va.toNat
  | .integ line => if s.paOk (64 * line) then s.integFail line else s

/-- Why a walk gives no page: a fault of Table 11.5 with its PIN, or a bus error of a read (R231). -/
inductive WalkErr where
  | fault (cause : Nat) (pin : Bool)
  | bus
  deriving DecidableEq, Repr

/-- Read one 64-bit table word; a failed verification is cause 5. -/
def State.walkWord (s : State) (pa : Nat) : Except WalkErr Nat × State :=
  match s.readPhys pa 8 with
  | (.ok l, t) => (.ok (ofLe l), t)
  | (.error .bus, t) => (.error .bus, t)
  | (.error _, t) => (.error (.fault 5 false), t)

/-- A page table entry from its word (Table 11.4). -/
def pteOf (w : Nat) : Pte :=
  { v := w % 2 = 1, w := w / 2 % 2 = 1, leaf := w / 4 % 2 = 1, pin := w / 8 % 2 = 1, pa := w / 4096 % 2 ^ 28 * 4096
    rsv := w / 16 % 256 != 0 || w / 2 ^ 40 != 0 }

/-- An entry under a context's WP bit: it admits no writes. -/
def Pte.under (e : Pte) (wp : Bool) : Pte := { e with w := e.w && !wp }
/-- Is a 2 MiB leaf's page not aligned to 2 MiB? -/
def Pte.crooked (e : Pte) : Bool := e.pa / 4096 % 512 != 0
/-- The page of `va` within a 2 MiB leaf. -/
def Pte.part (e : Pte) (va : Nat) : Nat := e.pa / 4096 + va / 4096 % 512
/-- The address of the upper level's entry for `va` in the table that context word `c` names, and of the page level's in the
table that an upper entry names (Table 11.4). -/
def topEntry (c va : Nat) : Nat := c / 2 ^ 18 % 2 ^ 22 * 2 ^ 18 + 8 * (va / 2 ^ 21 % 32768)
def Pte.entry (e : Pte) (va : Nat) : Nat := e.pa + 8 * (va / 4096 % 512)
/-- What an entry of the page level gives. -/
def pagePte (e : Pte) (wp : Bool) : Except WalkErr (Nat × Pte) :=
  if !e.v then .error (.fault 1 e.pin)
  else if e.rsv || e.leaf then .error (.fault 6 e.pin)
  else .ok (e.pa / 4096, e.under wp)
/-- What an entry of the upper level gives; none, and the walk goes on at the table it names. -/
def topPte (e : Pte) (va : Nat) (wp : Bool) : Option (Except WalkErr (Nat × Pte)) :=
  if !e.v then some (.error (.fault 1 e.pin))
  else if e.rsv then some (.error (.fault 6 e.pin))
  else if e.leaf then some (if e.crooked then .error (.fault 6 e.pin) else .ok (e.part va, e.under wp))
  else none
/-- The page level of a walk: the entry of a 4 KiB page in the table that `e` names. -/
def State.walkPage (s : State) (e : Pte) (va : Nat) (wp : Bool) : Except WalkErr (Nat × Pte) × State :=
  match s.walkWord (e.entry va) with
  | (.error x, s) => (.error x, s)
  | (.ok w, s) => (pagePte (pteOf w) wp, s)
/-- The upper level of a walk under context word `c`: a 2 MiB leaf, or the table of the page level. -/
def State.walkTop (s : State) (c va : Nat) : Except WalkErr (Nat × Pte) × State :=
  match s.walkWord (topEntry c va) with
  | (.error x, s) => (.error x, s)
  | (.ok w, s) => match topPte (pteOf w) va (c / 2 % 2 = 1) with
    | some r => (r, s)
    | none => s.walkPage (pteOf w) va (c / 2 % 2 = 1)
/-- Walk the tables: the physical page and its entry, with W cleared in a WP context, or why there is none. -/
def State.walk (s : State) (d ctx va : Nat) : Except WalkErr (Nat × Pte) × State :=
  let ent := (s.atu d).ctxBase.toNat + 16 * ctx
  if 4096 ≤ ctx || 11 ≤ ctx % 16 then (.error (.fault 3 false), s)
  else match s.walkWord ent with
    | (.error e, s) => (.error e, s)
    | (.ok c, s) => match s.walkWord (ent + 8) with
      | (.error e, s) => (.error e, s)
      | (.ok c1, s) =>
        if c / 4 % 2 ^ 16 != 0 || c / 2 ^ 40 != 0 || c1 != 0 then (.error (.fault 6 false), s)
        else if c % 2 = 0 then (.error (.fault 3 false), s)
        else s.walkTop c va

/-- Cache a translation; a full TLB gives up an entry of free choice. -/
def State.cacheTlb (s : State) (d key : Nat) (e : Nat × Pte) : State :=
  let x := s.atu d
  if x.tlb.length < 1024 then s.setAtu d { x with tlb := sput x.tlb key e }
  else
    let (r, s) := s.draw
    s.setAtu d { x with tlb := sput (x.tlb.eraseIdx (r % 1024)) key e }

/-- The translation of a page by the TLB, or by a walk that is then cached. -/
def State.lookup (s : State) (d ctx va : Nat) : Except WalkErr (Nat × Pte) × State :=
  let key := ctx * 2 ^ 24 + va / 4096 % 2 ^ 24
  match sfind (s.atu d).tlb key with
  | some e => (.ok e, s)
  | none =>
    let s := s.modAtu d fun x => { x with tlbMiss := addW x.tlbMiss 1 }
    match s.walk d ctx va with
    | (.ok e, s) => (.ok e, s.cacheTlb d key e)
    | r => r

/-- Translate an access of an engine instance on die `d`: the physical address, or a fault entered in the queue (R233, R241). -/
def State.translate (s : State) (d ctx inst va : Nat) (write : Bool) : Except AccErr Nat × State :=
  match s.lookup d ctx va with
  | (.error .bus, s) => (.error .bus, s)
  | (.error (.fault c pin), s) => (.error .xlate, s.xlateFault d ctx c write pin inst va)
  | (.ok (page, e), s) =>
    if write && !e.w then (.error .xlate, s.xlateFault d ctx 2 write e.pin inst va)
    else
      let t := s.ctxTenant ctx
      if t != 0 && (t == 0xFFF || s.owner page != t) then (.error .xlate, s.xlateFault d ctx 4 write e.pin inst va)
      else if !s.paOk (4096 * page) then (.error .bus, s)
      else (.ok (4096 * page + va % 4096), s)

/-- Read `n` bytes at a device-virtual address; an error comes with the address that met it. -/
def State.readVa (s : State) (d ctx inst va : Nat) : Nat → Except (AccErr × Nat) (List Byte) × State
  | 0 => (.ok [], s)
  | n + 1 => match s.translate d ctx inst (va % 2 ^ 36) false with
    | (.error e, s) => (.error (e, va % 2 ^ 36), s)
    | (.ok pa, s) => match s.readPhys pa 1 with
      | (.error e, s) => (.error (e, va % 2 ^ 36), s)
      | (.ok l, s) => match s.readVa d ctx inst (va + 1) n with
        | (.ok m, s) => (.ok (l ++ m), s)
        | r => r

/-- Read one whole line, or write one, at a device-virtual address aligned to 64. -/
def State.readLineVa (s : State) (d ctx inst va : Nat) : Except AccErr (List Byte) × State :=
  match s.translate d ctx inst (va % 2 ^ 36) false with
  | (.error e, s) => (.error e, s)
  | (.ok pa, s) => s.readPhys pa 64
def State.writeLineVa (s : State) (d ctx inst va : Nat) (data : List Byte) : Except AccErr Unit × State :=
  match s.translate d ctx inst (va % 2 ^ 36) true with
  | (.error e, s) => (.error e, s)
  | (.ok pa, s) => (.ok (), s.writeLine (pa / 64) data)

/-! ### Owners and invalidation -/

/-- Assign a page to a new owner: every line is first written with zeros under the new owner's key (R233). -/
def State.assignPage (s : State) (page : Nat) (t : Tenant) : State :=
  let s := { s with owners := sput s.owners page t }
  (List.range 64).foldl (fun s i => s.writeLine (64 * page + i) []) s

/-- Write one 64-bit word of a table in landlord-owned DRAM (R239): a page that no one owns becomes the landlord's first, a
line that does not verify is written anew, and in a tenant's page no table is written. -/
def State.putTable (s : State) (pa w : Nat) : State :=
  if !s.paOk pa || (s.owner (pa / 4096) != 0xFFF && s.owner (pa / 4096) != 0) then s
  else
    let s := if s.owner (pa / 4096) == 0xFFF then s.assignPage (pa / 4096) 0 else s
    let bytes := leBytes w 8
    match s.mergeLine (pa / 64) (bytes.zipIdx.map fun e => (pa % 64 + e.2, e.1)) with
    | (true, t) => t
    | (false, t) => t.writeLine (pa / 64) (List.replicate (pa % 64) 0 ++ bytes)
/-- Invalidate TLB entries (R240); a page cached as part of a 2 MiB leaf goes with all parts of the leaf. INV_BUSY stays 1 until
every access under the old entries has finished. -/
def State.invalidate (s : State) (d cmd : Nat) : State :=
  let x := s.atu d
  let key := x.invCtx.toNat * 2 ^ 24 + x.invVa.toNat / 4096
  let tlb := match cmd with
    | 1 => x.tlb.filter fun e => e.1 / 2 ^ 24 != x.invCtx.toNat
    | 2 => x.tlb.filter fun e => e.1 != key && !(e.2.2.leaf && e.1 / 512 == key / 512)
    | 3 => []
    | _ => x.tlb
  if cmd = 1 || cmd = 2 || cmd = 3 then s.setAtu d { x with tlb := tlb, invBusy := true } else s

/-- Exyan maps a page for a context, or takes its mapping away: the context entry, the level-1 entry and, but for a 2 MiB leaf,
the level-2 entry; then it gives the ATU_INV_CMD that it needs for them (R239, R240, Table 11.4). Where it puts the tables comes
with the command; it puts them into landlord-owned DRAM only. -/
def State.mapEntries (s : State) (d page : Nat) (m : PageMap) : State :=
  let root := m.root.toNat * 2 ^ 18
  let l2 := m.l2.toNat * 4096
  let ent := (s.atu d).ctxBase.toNat + 16 * m.ctx.toNat
  let va := m.va.toNat
  let top := root + 8 * (va / 2 ^ 21 % 32768)
  let bits := flag m.v 0 + flag m.w 1 + flag m.pin 3
  let s := (s.putTable ent (flag m.en 0 + flag m.wp 1 + root)).putTable (ent + 8) 0
  if m.leaf then s.putTable top (bits + 4 + 4096 * (page / 512 * 512))
  else (s.putTable top (1 + l2)).putTable (l2 + 8 * (va / 4096 % 512)) (bits + 4096 * page)
def State.mapPage (s : State) (d page : Nat) (m : PageMap) : State :=
  let s := s.mapEntries d page m
  if m.inv == 0 then s
  else (s.modAtu d fun x => { x with invCtx := m.ctx, invVa := BitVec.ofNat 36 (m.va.toNat / 4096 * 4096) }).invalidate d m.inv.toNat

end Sys2Proof.Machine
end

