-- ==== Sys2Proof/Machine/DoorPoint.lean ====
section
/-! DEFINITION. The access points: the ACC value of a door and of a lift call station, and the cells that show it (02 R41,
Table 02.9). -/
namespace Sys2Proof.Machine

def State.door (s : State) (d : Nat) : Door := sget {} s.sec.doors d
def State.setDoor (s : State) (d : Nat) (x : Door) : State := s.modSec fun y => { y with doors := sput y.doors d x }

/-- The controller's record of the node that serves an object, and whether the node's port gives it beacons. -/
def State.nodeState (s : State) (p a : Nat) : Presence := (sget {} (s.port p).nodes a).state
/-- Missing or lost. -/
def Presence.away : Presence → Bool
  | .missing => true
  | .lost => true
  | _ => false

/-- The ACC value of a door: 6 while its node is missing or lost, 5 while its port sends no beacons, else its own state. That
the module takes a node to be in fallback from the moment its port stops running is a DESIGN CHOICE (log entry 36). -/
def State.doorCode (s : State) (c : DoorCfg) : Nat :=
  if (s.nodeState c.port c.addr).away then 6
  else if !(s.port c.port).running then 5
  else (s.door c.door).state
/-- The ACC value of a call station: 2 while its gateway is away or gets no beacons (DESIGN CHOICE, log entry 36). -/
def State.stationCode (s : State) (c : StationCfg) : Nat :=
  if (s.nodeState c.port c.addr).away || !(s.port c.port).running then 2 else sget 0 s.sec.stations c.station

/-- The points bound to an access object: kind 0 door, 1 call station. -/
def State.accPoints (s : State) (kind n : Nat) : List Nat :=
  (s.pnt.descs.filter fun e => e.2.bkind == 7 && e.2.bref.toNat == n + 2048 * kind).map (·.1)
/-- An access object's ACC value, as it was last taken. -/
def State.takeAcc (s : State) (kind n v : Nat) : State :=
  s.modSec fun y => { y with accShown := sput y.accShown (n + 2048 * kind) v }
/-- A state change of an access object is one batch of its points; without a change nothing is written (02 R38). -/
def State.showAcc (s : State) (kind n v : Nat) (bad : Bool) : State :=
  if sfind s.sec.accShown (n + 2048 * kind) == some v then s
  else (s.batch ((s.accPoints kind n).map fun m =>
    { m := m, src := .field, q := if bad then .bad else .good, v := BitVec.ofNat 24 v })).takeAcc kind n v
def State.showDoor (s : State) (c : DoorCfg) : State := s.showAcc 0 c.door (s.doorCode c) (s.doorCode c == 6)
def State.showStation (s : State) (c : StationCfg) : State := s.showAcc 1 c.station (s.stationCode c) false

/-- Show the doors and stations of a node, and of every node of a port. -/
def State.showNode (s : State) (p a : Nat) : State :=
  let s := (s.cfg.doors.filter fun c => c.port == p && c.addr == a).foldl State.showDoor s
  (s.cfg.stations.filter fun c => c.port == p && c.addr == a).foldl State.showStation s
def State.showPort (s : State) (p : Nat) : State :=
  let s := (s.cfg.doors.filter fun c => c.port == p).foldl State.showDoor s
  (s.cfg.stations.filter fun c => c.port == p).foldl State.showStation s

/-- A door's own state after a change of its lock or its contact: an open door that nothing unlocks was forced open, or is held
open where its unlock time has run out. -/
def Door.next (x : Door) : Nat :=
  if !x.isOpen then (if x.unlocked then 1 else 0)
  else if x.unlocked then 2
  else if x.state = 2 || x.state = 3 then 3 else 4

/-- Put a door into its next state; forced open is an event (12/0x0004). -/
def State.stepDoor (s : State) (c : DoorCfg) (x : Door) : State :=
  let y := { x with state := x.next }
  let s := (s.setDoor c.door y).showDoor c
  if y.state = 4 && x.state != 4 then s.event c.owner 0 12 0 4 [w32 c.door] else s

end Sys2Proof.Machine
end

