-- ==== Sys2Proof/Machine/Branch.lean ====
section
/-! DEFINITION. Branch ports: the schedule and its checks, transmission, collisions, reception, and the controller's view of
its nodes (03, 04). -/
namespace Sys2Proof.Machine

/-! ### Frames -/

/-- The inner payload length m of a SECURE frame (15 Table 15.8, 04 Table 04.3). -/
def innerLen : Inner → Nat
  | .event .. => 6
  | .command _ _ a => 2 + a.length
  | .response _ _ _ d => 3 + d.length
  | .read .. => 11
  | .decide _ => 6
  | .cache _ _ _ d => 8 + d.length
  | .time .. => 8
  | .floors .. => 34
  | .offline .. => 16
  | .rekey _ _ => 33

/-- ITYPE and the inner payload (15 Table 15.8). -/
def innerType : Inner → Byte
  | .event .. => 0x03
  | .command .. => 0x04
  | .response .. => 0x05
  | .read .. => 0x10
  | .decide _ => 0x11
  | .cache .. => 0x12
  | .time .. => 0x13
  | .floors .. => 0x14
  | .offline .. => 0x15
  | .rekey _ _ => 0x16
def innerBytes : Inner → List Byte
  | .event seq ch q v => [seq, ch, BitVec.ofNat 8 (qualBits q)] ++ leBytes v.toNat 3
  | .command seq op a => seq :: op :: a
  | .response seq op st d => seq :: op :: st :: d
  | .read reader method cid seq => [reader, method] ++ leBytes cid.toNat 8 ++ [seq]
  | .decide d => [d.seq, if d.unlock then 1 else 0] ++ leBytes d.reason 1 ++ leBytes d.time 2 ++ [d.ind]
  | .cache v k n d => leBytes v 4 ++ leBytes k 2 ++ leBytes n 2 ++ d
  | .time ms off => leBytes ms 6 ++ leBytes (BitVec.ofInt 16 off).toNat 2
  | .floors st v m => leBytes st 1 ++ leBytes v 1 ++ leBytes m.toNat 32
  | .offline cid ms u reader => leBytes cid.toNat 8 ++ leBytes ms 6 ++ [if u then 1 else 0, reader]
  | .rekey g k => g :: leBytes k.toNat 32
/-- DATA and TAG of a SECURE frame (15 R346): AES-256-GCM under the session key of the node with this UID; the IV is its UID bytes 0 to
6, DIR and CTR, the additional data are DST, SRC, TC, LEN and payload bytes 0 to 6. -/
def secureSeal (key : BitVec 256) (uid : Uid) (dst src tc kgen dir : Byte) (ctr : Nat) (i : Inner) : List Byte :=
  let b := innerBytes i
  let iv := leBytes uid.toNat 7 ++ dir :: leBytes ctr 4
  let aad := [dst, src, tc] ++ leBytes (23 + b.length) 1 ++ [kgen, dir] ++ leBytes ctr 4 ++ [innerType i]
  let x := padTo 0 (16 + b.length) (Config.gcmSeal key iv aad b)
  x.drop 16 ++ x.take 16

/-- LEN of a frame's payload. -/
def payloadLen : Payload → Nat
  | .beacon b => 7 + 5 * b.subs.length
  | .output _ v => 2 + 3 * v.length
  | .command _ _ a => 2 + a.length
  | .claim .. => 4
  | .assign .. => 16
  | .secure _ _ i _ => 23 + innerLen i

/-- Is it a BEACON? -/
def isBeacon : Payload → Bool
  | .beacon _ => true
  | _ => false

/-- Bit-times a frame occupies: 96 + 8 × LEN (03 R47). -/
def frameBits (p : Payload) : Nat := 96 + 8 * payloadLen p

/-! ### Counters -/

/-- Counter indices at 0x200 + 4 × i (03 Table 03.9). -/
abbrev cTxFrames := 0
abbrev cTxOctets := 1
abbrev cRxFrames := 2
abbrev cRxOctets := 3
abbrev cRxLen := 4
abbrev cCrc := 8
abbrev cCode := 9
abbrev cAlign := 10
abbrev cColl := 11
abbrev cLate := 12
abbrev cExc := 13
abbrev cUnderrun := 14
abbrev cRxOvr := 15
abbrev cGateOvr := 16
abbrev cAborted := 17
abbrev cXlate := 18

/-- Raise a bit of BRP_IRQ_STAT. -/
def BrPort.irq (x : BrPort) (i : Nat) : BrPort := { x with irqStat := orBit x.irqStat i true }

/-- Advance a counter by `n`: when bit 31 goes from 0 to 1 its half-range bit and the HALF interrupt set (R65). -/
def BrPort.count (x : BrPort) (i n : Nat) : BrPort :=
  let old := sget 0 x.ctr i
  let new := addW old n
  let watched := i == cCrc || i == cCode || i == cAlign || i == cLate
  let x := { x with ctr := sput x.ctr i new, errs := if watched then x.errs + n else x.errs }
  if !old.msb && new.msb then { x with half := orBit x.half i true }.irq 0 else x
def BrPort.countType (x : BrPort) (t : Nat) : BrPort :=
  let old := sget 0 x.rxType t
  let new := addW old 1
  let x := { x with rxType := sput x.rxType t new }
  if !old.msb && new.msb then { x with halfType := orBit x.halfType t true }.irq 0 else x

/-- Count an accepted frame (03 Table 03.5). -/
def BrPort.accept (x : BrPort) (type len : Nat) : BrPort :=
  let bin := if len ≤ 16 then 0 else if len ≤ 64 then 1 else if len ≤ 128 then 2 else 3
  (((x.count cRxFrames 1).count cRxOctets (len + 8)).count (cRxLen + bin) 1).countType type

/-! ### The gate control list (03 R52, R53) -/

/-- Entry e of a bank. -/
def gclAt (m : Map GclEntry) (e : Nat) : GclEntry := sget {} m e
/-- The bank in use, its cycle length and its number of entries: those that its swap checked and took, and in FC-1 mode the
cycle length of the active schedule register as it stands (R62, R70; log entry 31). -/
def BrPort.gcl (x : BrPort) : Map GclEntry := if x.active then x.gclB else x.gclA
def BrPort.cycleMs (x : BrPort) : Nat := if x.mode then (if x.active then x.cycleB else x.cycleA) else x.cycleEff
def BrPort.entries (x : BrPort) : Nat := x.entriesEff

/-- Entry 0 is not the only beacon entry. -/
def beaconMisplaced : List GclEntry → Bool
  | [] => true
  | e :: r => e.kind != .beacon || r.any fun (x : GclEntry) => x.kind == .beacon

/-- The ERR code of a GCL under R53, in its order; 0 when it is accepted. -/
def gclErrOf (cycleMs entries : Nat) (l : List GclEntry) : Nat :=
  if cycleMs = 0 || 1000 < cycleMs || entries = 0 || 64 < entries then 4
  else if l.any fun (e : GclEntry) => e.kind == .reserved then 5
  else if beaconMisplaced l then 2
  else if l.any fun (e : GclEntry) => e.duration.toNat < 48 then 3
  else if sumNat (l.map fun (e : GclEntry) => e.duration.toNat) != cycleMs * 10000 then 1
  else 0

/-- The entries of a bank as a list. -/
def gclList (m : Map GclEntry) (n : Nat) : List GclEntry := (List.range n).map (gclAt m)

/-- The scheduled windows of a list: start offset and duration. -/
def schedWins : Nat → List GclEntry → List (Nat × Nat)
  | _, [] => []
  | o, e :: l => (if e.kind == .scheduled then [(o, e.duration.toNat)] else []) ++ schedWins (o + e.duration.toNat) l

/-- Request a swap: checked at the request (R53, R70). Entries rewritten while the request is PENDING are not checked again at
the cycle start, and GCL_ERR and ERR of an earlier refusal stand until the swap is taken (DESIGN CHOICE, log entry 33). -/
def BrPort.requestSwap (x : BrPort) (now : Nat) : BrPort :=
  let (m, n, c) := if x.active then (x.gclA, x.entriesA, x.cycleA) else (x.gclB, x.entriesB, x.cycleB)
  let e := gclErrOf c n (gclList m n)
  if e = 0 then { x with pending := true, swapTick := now }
  else { x with pending := false, gclErr := true, err := BitVec.ofNat 3 e }.irq 5

/-! ### Queues (03 R56, R57) -/

def BrPort.queue (x : BrPort) (q : Nat) : List TxFrame := sget [] x.queues q
/-- Put a frame at the end of its queue. -/
def BrPort.push (x : BrPort) (f : TxFrame) : BrPort := { x with queues := supd [] x.queues f.cls fun l => l ++ [f] }
/-- Put a frame back at the head of its queue. -/
def BrPort.pushHead (x : BrPort) (f : TxFrame) : BrPort := { x with queues := supd [] x.queues f.cls fun l => f :: l }

/-- A controller frame queued for a port; the controller's own frames use class 0 (DESIGN CHOICE). -/
def State.queueFrame (s : State) (p : Nat) (dst : Byte) (pl : Payload) : State :=
  s.modPort p fun x => x.push { dst := dst, payload := pl }

/-- The gate mask and kind in force: in FC-1 mode every gate is open and no window counts (R62). -/
def BrPort.gates (x : BrPort) : Byte := if x.mode then 0xFF else (gclAt x.gcl x.entry).gates
def BrPort.kind (x : BrPort) : Window := if x.mode then .open else (gclAt x.gcl x.entry).kind

/-- The slot of address 0 that `at_`, in bit-times from the start of the beacon, lies in. -/
def BrPort.slotAt (x : BrPort) (at_ : Nat) : Option (Nat × Nat) := x.slots0.find? fun e => e.1 ≤ at_ && at_ < e.1 + e.2
/-- May the controller send now (03 Table 03.6)? No window stands on a dormant port, whose line carries its beacons and the
answers to them (DESIGN CHOICE, log entry 32), nor during a wake train (04 R92). -/
def BrPort.maySend (x : BrPort) (at_ : Nat) : Bool :=
  x.train.isNone && (x.mode || (!x.dormant && match x.kind with
    | .open => true
    | .scheduled => (x.slotAt at_).isSome
    | _ => false))
/-- The bit-times that a frame may take: up to the end of the window or gate, and of the controller's slot (R54, R56). -/
def BrPort.roomAt (x : BrPort) (room at_ : Nat) : Nat :=
  if x.kind == .scheduled then
    match x.slotAt at_ with
    | some e => min room (e.1 + e.2 - at_)
    | none => 0
  else room
/-- Does the window take the frame's TYPE (03 Table 03.3)? A scheduled window takes an OUTPUT only; a frame of another type
waits for an open window and is not held in the sense of R56. -/
def BrPort.takes (x : BrPort) (f : TxFrame) : Bool :=
  x.kind == .open || match f.payload with
    | .output .. => true
    | _ => false

/-- Hold the head frame of a queue, counted once per hold (R56). -/
def BrPort.hold (x : BrPort) (q : Nat) : BrPort :=
  match x.queue q with
  | [] => x
  | f :: l =>
    if f.held then x else ({ x with queues := sput x.queues q ({ f with held := true } :: l) }.count cGateOvr 1).irq 3

/-- Serve the queues from `q` down to 0: the first open queue whose head frame fits is taken, once `buf` bytes of it are THR
bytes or the whole frame (R63); a head that does not fit is held (R56, R57). -/
def BrPort.serve (x : BrPort) (room buf : Nat) : Nat → BrPort
  | 0 => x
  | n + 1 =>
    if x.gates.getLsbD n then
      match x.queue n with
      | [] => x.serve room buf n
      | f :: l =>
        if !x.takes f then x.serve room buf n
        else if x.mode || frameBits f.payload + 48 ≤ room then
          if min x.thr (payloadLen f.payload + 8) ≤ buf then
            { x with queues := sput x.queues n l, tx := some { f with held := false, buf := buf } }
          else x
        else (x.hold n).serve room buf n
    else x.serve room buf n

/-- Start a frame under R58: the line is idle, none is in progress and no back-off runs; `room` is the bit-times left before
the window or gate closes, `at_` the bit-times since the start of the beacon, `buf` the bytes buffered of the frame served. -/
def BrPort.startTx (x : BrPort) (room at_ buf : Nat) : BrPort :=
  if x.running && x.tx.isNone && x.backoff.isNone && x.maySend at_ then x.serve (x.roomAt room at_) buf 8 else x

/-- The head frames' holds end when a window ends: a next opening is a new hold. -/
def BrPort.clearHeld (x : BrPort) : BrPort :=
  { x with queues := smap x.queues fun _ l => l.map fun f => { f with held := false } }

/-- The output values that a frame carries. -/
def outputsOf (f : TxFrame) : List SubFrame :=
  match f.payload with
  | .beacon b => b.subs
  | .output ch l => l.zipIdx.map fun e => { tgt := f.dst, ch := BitVec.ofNat 6 (ch + e.2), value := e.1 }
  | _ => []
/-- The output values of a frame that was discarded or ended before its end wait to be carried again, but where a later value
of the channel waits already (DESIGN CHOICE, log entry 32: no rule says what becomes of the values of such a frame). -/
def BrPort.unsent (x : BrPort) (f : TxFrame) : BrPort :=
  { x with outPend := x.outPend ++ (outputsOf f).filter fun g => !x.outPend.any fun h => h.tgt == g.tgt && h.ch == g.ch }

/-- A frame that ended with the inverted FCS goes back to the head of its queue; a native beacon is in no queue. -/
def BrPort.requeue (x : BrPort) (f : TxFrame) : BrPort :=
  match f.payload with
  | .beacon _ => if x.mode then { x with tx := none }.pushHead f else { x with tx := none }.unsent f
  | _ => { x with tx := none }.pushHead f
/-- End a frame as R63 does: inverted FCS, counted, THR raised by 32 up to 256, and queued again. -/
def BrPort.underrun (x : BrPort) (f : TxFrame) : BrPort :=
  { ((x.requeue f).count cUnderrun 1).irq 2 with thr := min 256 (x.thr + 32) }

/-- BRP_CTRL (R62, 03 Table 03.8): EN and MODE. A port disabled during a frame ends it as in R63 and keeps the queued frames. -/
def BrPort.ctrl (x : BrPort) (en mode : Bool) : BrPort :=
  if x.en then
    if en then x
    else
      let x := match x.tx with
        | none => x
        | some f => x.underrun f
      { x with en := false, running := false, dormant := false, mode := mode, entry := 0, backoff := none, train := none
               woke := false, rcNow := false }
  else if en then
    { x with en := true, mode := mode, modeEff := mode, running := true, rollcall := true, entry := 0, nextCycle := 0 }
  else { x with mode := mode }

/-- A write of EN and MODE of a port; the doors and stations of its nodes show it. -/
def State.brCtrl (s : State) (p : Nat) (en mode : Bool) : State := (s.setPort p ((s.port p).ctrl en mode)).showPort p

/-! ### Outputs (04 R82, R85) -/

/-- Every output channel of the port's nodes: address, channel and the point it carries. -/
def State.portOutputs (s : State) (p : Nat) : List (Nat × Nat × Nat) :=
  (s.cfg.nodes.filter fun n => n.port == p).flatMap fun n => n.outputs.map fun o => (n.addr, o.1, o.2)

/-- The outputs whose value differs from the one last carried. A point with no source and no FBK carries none. -/
def State.changedOutputs (s : State) (p : Nat) : List SubFrame :=
  (s.portOutputs p).filterMap fun (a, ch, m) =>
    match s.desc? m with
    | none => none
    | some d =>
      let c := s.cell m
      if c.qual == .noSource && !d.fbk then none
      else if sfind (s.port p).outLast (64 * a + ch) == some c.value then none
      else some { tgt := BitVec.ofNat 8 a, ch := BitVec.ofNat 6 ch, value := c.value }

/-- Does a queued OUTPUT carry one of these channels? -/
def carriesAny (f : TxFrame) (l : List SubFrame) : Bool :=
  !isBeacon f.payload && (outputsOf f).any fun g => l.any fun h => h.tgt == g.tgt && h.ch == g.ch

/-- The sub-frames of the next beacon and the output frames for the rest: each changed channel in exactly one place, so an
OUTPUT that still waits with an earlier value leaves its queue (04 R82). -/
def State.takeOutputs (s : State) (p : Nat) : List SubFrame × State :=
  let x := s.port p
  let new := s.changedOutputs p
  let all := new ++ x.outPend.filter fun f => !new.any fun g => g.tgt == f.tgt && g.ch == f.ch
  let more := (all.drop 46).map fun f => ({ dst := f.tgt, payload := .output f.ch.toNat [f.value] } : TxFrame)
  (all.take 46, s.setPort p { x with
    outPend := [], outLast := sputs x.outLast (all.map fun f => (64 * f.tgt.toNat + f.ch.toNat, f.value))
    queues := supd [] x.queues 0 fun l => (l.filter fun f => !carriesAny f all) ++ more })

/-- The controller's record of an address. -/
def BrPort.node (x : BrPort) (a : Nat) : CtlNode := sget {} x.nodes a

/-! ### Cycles (03 R52, R55, R61, R62; 04 R73, R78) -/

/-- Put a beacon on the line: at the window start in native mode, at the head of queue 7 in FC-1 mode, where it takes the
place of one still queued. It is fetched in full before it starts (R55). -/
def BrPort.sendBeacon (x : BrPort) (b : Beacon) : BrPort :=
  let f : TxFrame := { dst := 0xFF, cls := 7, payload := .beacon b, buf := payloadLen (.beacon b) + 8 }
  if x.mode then
    { x with queues := supd [] x.queues 7 fun l => f :: l.filter fun g => !isBeacon g.payload }
  else { x with tx := some f }
/-- The values of an FC-1 beacon that still waits in queue 7 are to be carried by the one that takes its place. -/
def BrPort.recallBeacon (x : BrPort) : BrPort :=
  ((x.queue 7).filter fun f => isBeacon f.payload).foldl BrPort.unsent x
/-- Can a beacon start now? In native mode only when it is fully buffered and nothing is on the line (R55). -/
def BrPort.beaconGoes (x : BrPort) (buffered : Bool) : Bool := x.mode || (buffered && x.tx.isNone)

/-- A pending swap takes effect at a cycle start of a later tick (03 Table 03.8, R70). It moves slots where the scheduled
windows of the two banks, or the slot plan that a load brought, differ (DESIGN CHOICE, log entry 33: 04 R78 does not say when a
swap moves slots). GCL_ERR and ERR clear here, and the bank is not checked again (log entry 33). -/
def State.takeSwap (s : State) (p : Nat) : State :=
  let x := s.port p
  if x.pending && x.swapTick < s.now then
    let moved := schedWins 0 (gclList x.gclA x.entriesA) != schedWins 0 (gclList x.gclB x.entriesB) || x.planMoved
    let y := { x with active := !x.active, pending := false, gclErr := false, err := 0, rollcall := x.rollcall || moved
                      planMoved := false, swapReq := none, cycleEff := if x.active then x.cycleA else x.cycleB
                      entriesEff := if x.active then x.entriesA else x.entriesB }
    (s.setPort p (y.irq 4)).finish? x.swapReq {}
  else s

/-- A cycle of an active port begins: the number advances, a pending swap is taken, and the beacon goes out; `dormNext` is
the dormant period where this is the last active beacon. RCN is 0 while ROLLCALL is clear (DESIGN CHOICE, log entry 32). A
roll call, CLAIM_OPEN and output values that a missing beacon would have carried wait for the next. -/
def State.cycleStart (s : State) (p : Nat) (dormNext : Option Nat) (buffered : Bool) : State :=
  let s := (s.takeSwap p).modPort p BrPort.recallBeacon
  let goes := (s.port p).beaconGoes buffered
  let (subs, s) := if goes then s.takeOutputs p else ([], s)
  let x := (s.port p).clearHeld
  let next := dormNext.getD x.cycleMs
  let b : Beacon := {
    cyc8 := (x.cycnum + 1).setWidth 8, dormant := dormNext.isSome, claimOpen := 0 < x.claimLeft, rollcall := x.rollcall
    wake := x.train.isSome, nextMs := next, rcf := if x.rollcall then 1 else 0
    rcn := if x.rollcall then 250 else 0, subs := subs }
  let x := { x with
    cycnum := x.cycnum + 1, entry := 0, train := none, woke := false, nextCycle := s.now + msTicks next }
  if goes then
    let x := { x with
      rollcall := false, rcNow := x.rollcall, claimLeft := x.claimLeft - 1
      nodes := if x.rollcall then
          sputs x.nodes ((s.cfg.nodes.filter fun (n : NodeCfg) => n.port == p).map fun (n : NodeCfg) =>
            (n.addr, { x.node n.addr with rcDue := true }))
        else x.nodes }
    s.setPort p (x.sendBeacon b)
  else s.setPort p (({ x with rcNow := false }.count cUnderrun 1).irq 2)

/-! ### Nodes as the controller sees them -/

/-- Points bound to a node's channels (02 R22). -/
def State.nodePoints (s : State) (p a : Nat) : List Nat :=
  (s.pnt.descs.filter fun e => e.2.bkind == 1 && e.2.bref.toNat % 32768 == 256 * p + a).map (·.1)
/-- The point bound to a channel of a node. -/
def State.chanPoint (s : State) (p a ch : Nat) : Option Nat :=
  (s.pnt.descs.find? fun e => e.2.bkind == 1 && e.2.bref.toNat == 256 * p + a + 65536 * ch).map (·.1)

/-- QUAL bad in the points of a node, in order. -/
def State.putBads (s : State) : List Nat → State
  | [] => s
  | m :: l => (s.markBad m).putBads l
/-- QUAL bad for a node marked missing or declared lost: one batch of the module's status logic (02 R35, R38). -/
def State.markBads (s : State) (l : List Nat) : State :=
  (s.putBads l).bumpGens (sortNat ((l.filter s.touches).map fun m => m / 64))

def State.modNode (s : State) (p a : Nat) (f : CtlNode → CtlNode) : State :=
  s.modPort p fun x => { x with nodes := supd {} x.nodes a f }

/-- A branch event's instance is its local port, on its die; it names the node address. -/
def State.brEvent (s : State) (p code : Nat) (data : List Word) : State := s.event 0 (portDie p) 3 (p % 16) code data

/-- A node is marked missing: an event, and its points go QUAL bad (04 R81, R90). -/
def State.markMissing (s : State) (p a : Nat) : State :=
  let s := s.modNode p a fun n => { n with state := .missing, markedAt := s.now }
  ((s.brEvent p 1 [w32 a]).markBads (s.nodePoints p a)).showNode p a
/-- A node is declared lost: an event; its points stay QUAL bad. -/
def State.markLost (s : State) (p a : Nat) : State :=
  (((s.modNode p a fun n => { n with state := .lost }).brEvent p 2 [w32 a]).markBads (s.nodePoints p a)).showNode p a
/-- A node answers: it is present from that frame on (R81). An address without a configured node has no presence. -/
def State.markPresent (s : State) (p a : Nat) : State :=
  if (s.nodeCfg? p a).isNone then s
  else
    let was := ((s.port p).node a).state
    let s := s.modNode p a fun n =>
      { n with state := .present, empty := 0, heard := true, missedRc := 0, asked := false, rcDue := false }
    if was == .missing || was == .lost then (s.brEvent p 3 [w32 a]).showNode p a else s

/-- Send an ASSIGN. -/
def State.sendAssign (s : State) (p : Nat) (dst : Byte) (uid : Uid) (plan : Plan) : State :=
  s.queueFrame p dst (.assign uid plan)
/-- Broadcast CLAIM with CLAIM_OPEN, carried by the next two beacons (DESIGN CHOICE). -/
def State.sendClaim (s : State) (p : Nat) (nslot : Byte) (slotbt : Nat) : State :=
  (s.modPort p fun x => { x with round := x.round + 1, claimLeft := 2 }).queueFrame p 0xFF
    (.claim ((s.port p).round + 1) nslot slotbt)

/-- The values of a node's output channels to send again after a fallback, door locks and mover targets left out (R85). -/
def State.resendOutputs (s : State) (p a : Nat) : State :=
  match s.nodeCfg? p a with
  | none => s
  | some n =>
    let l := n.outputs.filterMap fun o =>
      if n.sticky.contains o.1 then none
      else some ({ tgt := BitVec.ofNat 8 a, ch := BitVec.ofNat 6 o.1, value := (s.cell o.2).value } : SubFrame)
    s.modPort p fun x => { x with outPend := x.outPend.filter (fun f => f.tgt.toNat != a) ++ l }

/-- The local minute of the day (16 R355, R361). -/
def State.localMinute (s : State) : Nat := (((s.utcNow / 60000 : Nat) : Int) + s.time.offset).emod 1440 |>.toNat
/-- Is the minute within a dormancy schedule, which may run over midnight? -/
def inSchedule (start stop m : Nat) : Bool :=
  if start ≤ stop then start ≤ m && m < stop else start ≤ m || m < stop

/-- Does the last dormant beacon's roll call lie three or more dormant periods after the node was marked missing (04 R90)? -/
def BrPort.threeAfter (x : BrPort) (n : CtlNode) : Bool := n.markedAt + msTicks (3 * x.period) ≤ x.dormAt

/-- Judge addresses in the roll call of the last dormant beacon: two missed answers mark a node missing, and one that misses
a roll call three or more dormant periods after its marking is lost (04 R90). -/
def State.judge (s : State) (p : Nat) : List Nat → State
  | [] => s
  | a :: l =>
    let n := (s.port p).node a
    let s :=
      if (s.nodeCfg? p a).isNone || !n.asked then s
      else
        let s := s.modNode p a fun n => { n with asked := false, missedRc := n.missedRc + 1 }
        match n.state with
        | .missing => if (s.port p).threeAfter n then s.markLost p a else s
        | .lost => s
        | _ => if 1 ≤ n.missedRc then s.markMissing p a else s
    s.judge p l

/-- Judge all of the last dormant beacon's roll call that its slots have not judged. -/
def State.judgeSubset (s : State) (p : Nat) : State :=
  let x := s.port p
  s.judge p ((List.range x.subset.2).map (x.subset.1 + ·))

/-- Any node of the port is missing or lost. -/
def BrPort.absent (x : BrPort) : Bool := x.nodes.any fun e => e.2.state == .missing || e.2.state == .lost

/-! ### Meanings: cycles and transmission -/

/-- Is the port one of the member's? -/
def State.hasPort (s : State) (p : Nat) : Bool := p < s.nPorts

/-- GCL_ENTRY_BOUNDARY (R52): the port moves to the next entry; its gates open anew (R56). -/
def execGclEntryBoundary (p : Port) (s : State) : Host.Outcome State Fault Refusal :=
  let x := s.port p.val
  if x.running && !x.mode && !x.dormant && x.entry + 1 < x.entries then
    done s (s.setPort p.val { x.clearHeld with entry := x.entry + 1 })
  else done s s

/-- BRANCH_TX_START (R54, R56 to R58, R62, R63): the line is idle and a frame starts where one fits. -/
def execBranchTxStart (p : Port) (room at_ buf : Nat) (s : State) : Host.Outcome State Fault Refusal :=
  done s (s.modPort p.val fun x => x.startTx room at_ buf)

/-- BRANCH_TX_END (R67): the frame in progress is complete and counted; a COMMAND's 100 ms run from here (04 R83). -/
def execBranchTxEnd (p : Port) (s : State) : Host.Outcome State Fault Refusal :=
  let x := s.port p.val
  match x.tx with
  | none => done s s
  | some f =>
    let x := { x with tx := none, lastSent := some f }.count cTxFrames 1 |>.count cTxOctets (payloadLen f.payload + 8)
    let x := match f.payload with
      | .command .. => match sfind x.cmds f.dst.toNat with
        | some c => { x with cmds := sput x.cmds f.dst.toNat { c with sentAt := s.now } }
        | none => x
      | _ => x
    done s (s.setPort p.val x)

/-- A frame that a node sends under carrier sense and collision detection (R54, R58). -/
def NodeSent.contends : NodeSent → Bool
  | .claim .. => true
  | .response .. => true
  | .offline .. => true
  | .event .. => true
  | _ => false
/-- A node's frame collides, `r` its free draw: late, it is discarded; so is the 12th; else it backs off (R59, R60). -/
def Node.collide (n : Node) (bt r : Nat) : Node :=
  if !n.sent.contends || n.backoff.isSome then n
  else if 64 < bt || 12 ≤ n.coll + 1 then { n with sent := .none, coll := 0 }
  else { n with coll := n.coll + 1, backoff := some (64 * (r % 2 ^ min (n.coll + 1) 8)) }
/-- Change a known node. -/
def State.modLeaf (s : State) (u : Uid) (f : Node → Node) : State :=
  match s.node? u with
  | none => s
  | some n => s.setNode u (f n)

/-- The controller's frame collides: a late collision discards it, the 12th discards it too, a native beacon is not retried,
and any other frame backs off by a free draw (R59 to R61). -/
def State.brCollide (s : State) (p bt : Nat) : State :=
  let x := s.port p
  match x.tx with
  | none => s
  | some f =>
    let y := { x with tx := none }
    if 64 < bt then s.setPort p ((y.unsent f).count cLate 1)
    else if isBeacon f.payload && !x.mode then s.setPort p ((y.unsent f).count cColl 1)
    else
      let n := f.coll + 1
      let y := y.count cColl 1
      if 12 ≤ n then s.setPort p (((y.unsent f).count cExc 1).irq 1)
      else
        let (r, t) := s.draw
        t.setPort p { y.pushHead { f with coll := n } with backoff := some (f.cls, 64 * (r % 2 ^ min n 8)) }

/-- COLLISION_DETECT (R58 to R61) by the controller, or by the node `by_`, `bt` bit-times after the first bit of the start
delimiter. -/
def execCollisionDetect (p : Port) (by_ : Option Uid) (bt : Nat) (s : State) : Host.Outcome State Fault Refusal :=
  match by_ with
  | none => done s (s.brCollide p.val bt)
  | some u =>
    let (r, t) := s.draw
    done s (t.modLeaf u fun n => n.collide bt r)

/-- BACKOFF_EXPIRY (R59, Table 03.8): the wait is over and the station tries again; a frame whose gate closed meanwhile is
held and counted, and the other queues are served (R56). -/
def execBackoffExpiry (p : Port) (by_ : Option Uid) (room at_ buf : Nat) (s : State) : Host.Outcome State Fault Refusal :=
  match by_ with
  | some u => done s (s.modLeaf u fun n => { n with backoff := none })
  | none =>
    let x := s.port p.val
    match x.backoff with
    | none => done s s
    | some (q, _) =>
      let y := { x with backoff := none }
      if !y.running then done s (s.setPort p.val y)
      else
        let z := if y.kind == .open && y.gates.getLsbD q then y else y.hold q
        done s (s.setPort p.val (z.startTx room at_ buf))

/-- Could the frames that met in an address's slot be ROLLCALLs: a roll call of the address is open, or its ASSIGN waits for
one (04 R77 to R79)? -/
def BrPort.rollcallAt (x : BrPort) (a : Nat) : Bool :=
  x.rcNow || (x.node a).rcDue || (x.node a).asked || shas x.assigns a

/-- SCHEDULED_OVER_AMPLITUDE (R61): counted; a beacon in progress is aborted. Two roll-call answers in one node's slot have
the controller clear that address and broadcast a CLAIM (04 R79); as both nodes are to forget it, the ASSIGN names UID 0, which
no node has (DESIGN CHOICE, log entry 34). -/
def execScheduledOverAmplitude (p : Port) (addr : Byte) (s : State) : Host.Outcome State Fault Refusal :=
  let x := s.port p.val
  match x.tx with
  | some f => match f.payload with
    | .beacon _ => done s (s.setPort p.val (({ x with tx := none }.unsent f).count cColl 1))
    | _ => done s s
  | none =>
    if x.running && (x.kind == .scheduled || x.dormant) then
      let s' := s.setPort p.val (x.count cColl 1)
      if x.rollcallAt addr.toNat then done s ((s'.sendAssign p.val addr 0 { addr := 0 }).sendClaim p.val 64 1000)
      else done s s'
    else done s s

/-- BRANCH_TX_UNDERRUN: the buffer of a frame that was not buffered whole runs dry (R63), or a transmit DMA read meets a
translation or integrity fault (R64, 11 Table 11.6). Such a frame counts BRP_TX_XLATE and not BRP_TX_UNDERRUN (DESIGN CHOICE, log
entry 32: R64 says 'as in R63' of its end and names one counter). -/
def execBranchTxUnderrun (p : Port) (why : TxFail) (s : State) : Host.Outcome State Fault Refusal :=
  let x := s.port p.val
  match x.tx with
  | none => done s s
  | some f => match why with
    | .access e =>
      done s ((s.setPort p.val (({ x with tx := none }.unsent f).count cXlate 1)).engFault (portDie p.val) 5 (p.val % 16) false e)
    | .dry => if f.buf < payloadLen f.payload + 8 then done s (s.setPort p.val (x.underrun f)) else done s s

/-! ### Meanings: reception -/

/-- What a received frame that does not reach the module leaves at the port (03 R51, Table 03.5). -/
def BrPort.rxFail (x : BrPort) : RxFail → BrPort
  | .codeViolation => x.count cCode 1
  | .alignment => x.count cAlign 1
  | .crc => x.count cCrc 1
  | .aborted => (x.count cCrc 1).count cAborted 1
  | .reservedType => x.countType 15
  | .overrun => x.count cRxOvr 1
  | .access _ => x.count cRxOvr 1
  | .notPassed _ type len => if type < 10 then x.accept type len else x

/-- BRANCH_RX_BAD_FRAME (03 R51, Table 03.5; 11 Table 11.6 for a fault of the receive DMA): counted and dropped. -/
def execBranchRxBadFrame (p : Port) (why : RxFail) (s : State) : Host.Outcome State Fault Refusal :=
  let x := s.port p.val
  if x.running then
    let t := s.setPort p.val (x.rxFail why)
    match why with
    | .access e => done s (t.engFault (portDie p.val) 4 (p.val % 16) true e)
    | _ => done s t
  else done s s

/-- The point that a channel of a bound node feeds; an address that no node is bound to feeds none (01 Table 01.8, 02 R22). -/
def State.feeds (s : State) (p a ch : Nat) : Option Nat := if (s.nodeCfg? p a).isSome then s.chanPoint p a ch else none
/-- The cell writes of a REPORT: each channel that a point is bound to. -/
def State.reportWrites (s : State) (p a : Nat) : Nat → List ChanVal → List CellWrite
  | _, [] => []
  | ch, v :: l => (match s.feeds p a ch with
      | some m => [{ m := m, src := .field, q := v.qual, v := v.value }]
      | none => []) ++ s.reportWrites p a (ch + 1) l
/-- Channel values of a node reach their cells as one batch; unbound channels are discarded and counted, in a count of the
port's that no register shows (01 Table 01.8; DESIGN CHOICE, log entry 34: the spec names no counter). -/
def State.nodeValues (s : State) (p a ch : Nat) (l : List ChanVal) : State :=
  let w := s.reportWrites p a ch l
  (s.modPort p fun x => { x with unboundCh := x.unboundCh + (l.length - w.length) }).batch w

/-- BRANCH_RX_REPORT (03 R50, R51; 04 R81): one batch of cell writes, and the node is present. A REPORT with COUNT 0 or with
FIRST + k above 64 is counted as accepted and does nothing else (DESIGN CHOICE, log entry 34: R50 does not say). -/
def execBranchRxReport (p : Port) (addr : Byte) (first : Nat) (vals : List ChanVal) (s : State) :
    Host.Outcome State Fault Refusal :=
  let k := vals.length
  if (s.port p.val).running then
    let t := s.modPort p.val fun x => x.accept 1 (2 + (k + 3) / 4 + 3 * k)
    if 0 < k && first + k ≤ 64 then
      done s ((t.nodeValues p.val addr.toNat first vals).markPresent p.val addr.toNat)
    else done s t
  else done s s

/-- The node side of an EVENT (04 R83): the node has sent it, and its next REPORT is to carry the same value. -/
def Node.sendEvent (n : Node) (seq ch : Byte) (v : ChanVal) : Node :=
  { n with sent := .event seq ch v, coll := 0, backoff := none, evSeq := seq, evVals := sput n.evVals ch.toNat v }
/-- The known node at an address of a port has sent an EVENT. -/
def State.sentEvent (s : State) (p : Nat) (addr seq ch : Byte) (v : ChanVal) : State :=
  { s with nodes := smap s.nodes fun _ n => if n.port == p && n.plan.any (·.addr == addr) then n.sendEvent seq ch v else n }

/-- BRANCH_RX_EVENT (04 R83): a source write of the bound cell. The row stands for the EVENT's sending too (DESIGN CHOICE, log
entry 34: no row has a node send one). -/
def execBranchRxEvent (p : Port) (addr seq ch : Byte) (v : ChanVal) (s : State) : Host.Outcome State Fault Refusal :=
  if (s.port p.val).running then
    let t := s.modPort p.val fun x => x.accept 3 6
    done s ((t.nodeValues p.val addr.toNat ch.toNat [v]).sentEvent p.val addr seq ch v)
  else done s s

/-- The RESPONSE to the COMMAND outstanding at a node completes its request. -/
def State.response (s : State) (p a : Nat) (seq op status : Byte) (data : List Byte) : State :=
  match sfind (s.port p).cmds a with
  | some c =>
    if c.seq == seq && c.op == op then
      (s.modPort p fun x => { x with cmds := sdel x.cmds a }).finish? c.req { r0 := w32 status.toNat, resp := status :: data }
    else s
  | none => s

/-- BRANCH_RX_RESPONSE (04 R83): the RESPONSE to the COMMAND outstanding completes its request. -/
def execBranchRxResponse (p : Port) (addr seq op status : Byte) (data : List Byte) (s : State) :
    Host.Outcome State Fault Refusal :=
  let x := s.port p.val
  if x.running then
    done s ((s.setPort p.val (x.accept 5 (3 + data.length))).response p.val addr.toNat seq op status data)
  else done s s

/-- A UID of 0 or all ones is invalid, and a node that reports one is ignored (04 R71). -/
def uidBad (u : Uid) : Bool := u == 0 || u == 0xFFFFFFFFFFFFFFFF

/-- The cycle by which the ROLLCALL to an ASSIGN must have come: 3 cycles after the first that EVERY and PHASE give (R77). -/
def rollcallDue (now : Word) (p : Plan) : Word :=
  now + BitVec.ofNat 32 ((p.phase + p.every - now.toNat % p.every) % p.every + 3)

/-- BRANCH_RX_CLAIM (04 R71, R77): an ASSIGN from the binding, or the node is listed as unbound. A UID that the configuration
binds on another port has no binding here (DESIGN CHOICE, log entry 34: R77 speaks of the configuration's binding for the UID and
not of the port). A CLAIM with a valid UID is taken as valid whatever its NCH and channel map (DESIGN CHOICE, log entry 34). -/
def execBranchRxClaim (p : Port) (uid : Uid) (cls : Byte) (chmap : List Byte) (s : State) :
    Host.Outcome State Fault Refusal :=
  if (s.port p.val).running then
    let t := s.modPort p.val fun x => x.accept 6 (10 + chmap.length)
    if uidBad uid then done s t
    else match s.cfg.nodes.find? fun n => n.port == p.val && n.uid == uid with
      | some n =>
        let plan := { n.plan with addr := BitVec.ofNat 8 n.addr }
        done s ((t.modPort p.val fun x => { x with
          unbound := x.unbound.filter fun e => e.1 != uid
          assigns := sput x.assigns n.addr { uid := uid, plan := plan, due := rollcallDue x.cycnum plan } }).sendAssign
          p.val 0xFF uid plan)
      | none =>
        done s ((t.modPort p.val fun x =>
          { x with unbound := x.unbound.filter (fun e => e.1 != uid) ++ [(uid, cls)] }).brEvent p.val 4
            [uid.setWidth 32, (uid >>> 32).setWidth 32, w32 cls.toNat])
  else done s s

/-- Clear an address whose ROLLCALL reported a UID that is not the configured one (R79). -/
def State.clearAddr (s : State) (p : Nat) (addr : Byte) (uid : Uid) : State :=
  (s.sendAssign p addr uid { addr := 0 }).brEvent p 6 [w32 addr.toNat, uid.setWidth 32, (uid >>> 32).setWidth 32]

/-- BRANCH_RX_ROLLCALL (04 R71, R77 to R79, R85): presence, or an ASSIGN with ADDR 0 to a node whose UID is not the configured
one. -/
def execBranchRxRollcall (p : Port) (addr : Byte) (uid : Uid) (_cls : Byte) (stat : BitVec 3) (s : State) :
    Host.Outcome State Fault Refusal :=
  if (s.port p.val).running then
    let t := s.modPort p.val fun x => x.accept 8 10
    if uidBad uid then done s t
    else
      let t := t.modPort p.val fun x => { x with assigns := x.assigns.filter fun e => !(e.1 == addr.toNat && e.2.uid == uid) }
      if (s.nodeCfg? p.val addr.toNat).any fun n => n.uid == uid then
        let t := t.markPresent p.val addr.toNat
        done s (if stat.getLsbD 0 then t.resendOutputs p.val addr.toNat else t)
      else done s (t.clearAddr p.val addr uid)
  else done s s

/-! ### Meanings: node supervision -/

/-- SLOT_END (04 R81, R90): three consecutive empty slots mark the node missing; on a dormant port the slot of its roll call
ends, and the node is judged. -/
def execSlotEnd (p : Port) (addr : Byte) (s : State) : Host.Outcome State Fault Refusal :=
  let x := s.port p.val
  let n := x.node addr.toNat
  if !x.running || (s.nodeCfg? p.val addr.toNat).isNone then done s s
  else if x.dormant then done s (s.judge p.val [addr.toNat])
  else if n.heard then done s (s.modNode p.val addr.toNat fun n => { n with heard := false, empty := 0 })
  else
    let t := s.modNode p.val addr.toNat fun n => { n with empty := n.empty + 1 }
    if 3 ≤ n.empty + 1 && n.state != .missing && n.state != .lost then done s (t.markMissing p.val addr.toNat)
    else done s t

/-- NODE_LOST_TIMEOUT (R81): missing for 60 s while the port is active. -/
def execNodeLostTimeout (p : Port) (addr : Byte) (s : State) : Host.Outcome State Fault Refusal :=
  let x := s.port p.val
  let n := x.node addr.toNat
  if x.running && !x.dormant && n.state == .missing && n.markedAt + secTicks 60 ≤ s.now then
    done s (s.markLost p.val addr.toNat)
  else done s s

/-- ASSIGN_RETRY_TIMEOUT (R77): its cycle is past, and the ASSIGN goes again, at most three times; then the claim is dropped
with an event. Cycle numbers compare by serial arithmetic (03 R52). -/
def execAssignRetryTimeout (p : Port) (addr : Byte) (s : State) : Host.Outcome State Fault Refusal :=
  let x := s.port p.val
  match sfind x.assigns addr.toNat with
  | none => done s s
  | some a =>
    if (x.cycnum - a.due).msb then done s s
    else if a.sent < 4 then
      done s ((s.setPort p.val { x with
        assigns := sput x.assigns addr.toNat { a with sent := a.sent + 1, due := rollcallDue x.cycnum a.plan } }).sendAssign
        p.val 0xFF a.uid a.plan)
    else
      done s ((s.setPort p.val { x with assigns := sdel x.assigns addr.toNat }).brEvent p.val 5
        [w32 addr.toNat, a.uid.setWidth 32, (a.uid >>> 32).setWidth 32])

/-- NODE_COMMAND_TIMEOUT (R83): 100 ms without a RESPONSE, and the COMMAND goes again, at most three times; then its request
gets NO_RESPONSE. -/
def execNodeCommandTimeout (p : Port) (addr : Byte) (s : State) : Host.Outcome State Fault Refusal :=
  let x := s.port p.val
  match sfind x.cmds addr.toNat with
  | none => done s s
  | some c =>
    if s.now < c.sentAt + msTicks 100 then done s s
    else if c.sent < 4 then
      done s ((s.setPort p.val { x with
        cmds := sput x.cmds addr.toNat { c with sent := c.sent + 1, sentAt := s.now } }).queueFrame
        p.val addr (.command c.seq c.op c.args))
    else
      done s ((s.setPort p.val { x with cmds := sdel x.cmds addr.toNat }).finish? c.req (refusal stNoResponse 0))

/-- CLAIM_BROADCAST_TIMER (17 R369): once per second for 20 s after the port begins cycling. -/
def execClaimBroadcastTimer (p : Port) (s : State) : Host.Outcome State Fault Refusal :=
  let x := s.port p.val
  if x.running && s.now < x.claimEnd && s.due x.claimAt 0 then
    done s ((s.modPort p.val fun x => { x with claimAt := s.now + secTicks 1 }).sendClaim p.val 64 1000)
  else done s s

/-! ### Meanings: dormancy (04 R86 to R92) -/

/-- DORMANCY_ENTRY (R86, R92): at a cycle start, the last active beacon carries DORMANT and the dormant period. A port that a
wake pulse woke has its wake train and its first active cycle first, and may then go dormant again (DESIGN CHOICE, log entry
34). -/
def execDormancyEntry (p : Port) (s : State) : Host.Outcome State Fault Refusal :=
  let x := s.port p.val
  if x.running && !x.dormant && !x.woke && x.train.isNone && x.dormEn && inSchedule x.dormStart x.dormStop s.localMinute && x.nextCycle ≤ s.now then
    let t := s.cycleStart p.val (some x.period) true
    done s ((t.modPort p.val fun x => { x with
      dormant := true, rcf := 1, subset := (0, 0), nodes := smap x.nodes fun _ n => { n with asked := false, missedRc := 0 } }).brEvent
      p.val 7 [])
  else done s s

/-- DORMANT_BEACON (R86, R87, R90): the dormant period is over, what is left of the last subset is judged, and the next beacon
goes out with the next subset, with WAKE while a node is absent. -/
def execDormantBeacon (p : Port) (s : State) : Host.Outcome State Fault Refusal :=
  let x := s.port p.val
  if x.running && x.dormant && x.nextCycle ≤ s.now then
    let t := (s.judgeSubset p.val).modPort p.val BrPort.recallBeacon
    let (subs, t) := t.takeOutputs p.val
    let x := t.port p.val
    let n := min x.rcn (250 - x.rcf + 1)
    let b : Beacon := {
      cyc8 := x.cycnum.setWidth 8, dormant := true, rollcall := true, wake := x.train.isSome || x.absent, nextMs := x.period
      rcf := x.rcf, rcn := n, subs := subs }
    let asked := (s.cfg.nodes.filter fun (c : NodeCfg) => c.port == p.val && x.rcf ≤ c.addr && c.addr < x.rcf + n)
    done s (t.setPort p.val ({ x with
      dormAt := s.now, subset := (x.rcf, n), rcf := if 250 < x.rcf + n then 1 else x.rcf + n, train := none
      nextCycle := s.now + msTicks x.period
      nodes := sputs x.nodes (asked.map fun (c : NodeCfg) => (c.addr, { x.node c.addr with asked := true })) }.sendBeacon b))
  else done s s

/-- WAKE_TRAIN_START (R90, R92): 4 ms before the timed start of a dormant beacon while a node is missing or lost, or at the
tick at which the first active cycle after a wake begins. The roll call before it is judged first. -/
def execWakeTrainStart (p : Port) (s : State) : Host.Outcome State Fault Refusal :=
  let x := s.port p.val
  if !x.running || x.train.isSome then done s s
  else if x.woke then done s (s.setPort p.val { x with train := some s.now })
  else if x.dormant && x.nextCycle ≤ s.now + msTicks 4 then
    let t := s.judgeSubset p.val
    if (t.port p.val).absent then done s (t.modPort p.val fun x => { x with train := some s.now }) else done s t
  else done s s

/-- A dormant port is active again: its next cycle may begin, and empty slots count anew. -/
def BrPort.wakeUp (x : BrPort) (now : Nat) : BrPort :=
  { x with dormant := false, nextCycle := now, train := none
           nodes := smap x.nodes fun _ n => { n with empty := 0, heard := false, asked := false } }

/-- WAKE_PULSE (R92): dormancy ends, with an event; the first active cycle is to be preceded by a wake train. -/
def execWakePulse (p : Port) (s : State) : Host.Outcome State Fault Refusal :=
  if (s.port p.val).dormant then
    done s ((s.modPort p.val fun x => { x.wakeUp s.now with woke := true }).brEvent p.val 8 [])
  else done s s

/-- DORMANCY_END (R86): the schedule's end minute. -/
def execDormancyEnd (p : Port) (s : State) : Host.Outcome State Fault Refusal :=
  let x := s.port p.val
  if x.dormant && !(x.dormEn && inSchedule x.dormStart x.dormStop s.localMinute) then
    done s (s.setPort p.val (x.wakeUp s.now))
  else done s s

end Sys2Proof.Machine
end

