-- ==== Sys2Proof/Machine/Nodes.lean ====
section
/-! DEFINITION. Leaf nodes: claims, slots, outputs, fallback, dormancy, and the node commands (04 R72 to R93, Tables 04.4 to
04.6). A node is known from its first NODE_POWER_UP; a command about a node that is not known changes nothing. -/
namespace Sys2Proof.Machine

/-- Channel `ch` of a node is an output: its channel map feeds a DO, AO or MOV point (DESIGN CHOICE, log entry 35: Table 02.2
names the types and not which of them are outputs). -/
def Node.isOutput (n : Node) (ch : Nat) : Bool :=
  match n.chmap[ch]? with
  | none => false
  | some b => (b &&& 0x0F) == 1 || (b &&& 0x0F) == 3 || (b &&& 0x0F) == 9

/-- The address a node stores. -/
def Node.addr (n : Node) : Option Byte := n.plan.map (·.addr)

/-- Does the node's receiver take a frame now? -/
def Node.hears (n : Node) : Bool :=
  match n.mode with
  | .dsleep => false
  | .fallback => !n.sniff || n.listening
  | _ => true

/-- Apply values to output channels from `ch` on; a channel that is no output is left out. A value is a mover's new target. -/
def Node.apply (n : Node) : Nat → List V24 → Node
  | _, [] => n
  | ch, v :: l =>
    (if n.isOutput ch then { n with outputs := sput n.outputs ch v, halt := none } else n).apply (ch + 1) l

/-- Apply a beacon's sub-frames for this node (R73). -/
def Node.applySubs (n : Node) : List SubFrame → Node
  | [] => n
  | f :: l => (if some f.tgt == n.addr || f.tgt == 0xFF then n.apply f.ch.toNat [f.value] else n).applySubs l

/-- Enter the class's fallback state (04 Table 04.5): luminaires, actuators, doors and general I/O take their stored values; a
mover makes a ramp stop over its stored time and then holds; a lift gateway signals controller absence; sensors and meters go
on, with no outputs. An output channel with no stored value keeps its last (DESIGN CHOICE, log entry 35). -/
def Node.fallback (n : Node) : Node :=
  let out := if n.cls == 1 || n.cls == 3 || n.cls == 5 || n.cls == 8 then sputs n.outputs n.fallbackV else n.outputs
  { n with mode := .fallback, inFallback := true, outputs := out, stat := n.stat ||| 1, listening := false
           halt := if n.cls == 4 then some n.ramp else n.halt, absent := n.absent || n.cls == 7 }

/-- The node is asked by this beacon's roll call. -/
def beaconAsks (b : Beacon) (a : Byte) : Bool := b.rollcall && b.rcf ≤ a.toNat && a.toNat < b.rcf + b.rcn

/-- A reading of the node's timer, in 0.1 µs since `from_`, scaled by its rate (R89). -/
def Node.since (n : Node) (from_ timer : Nat) : Nat := (timer - from_) * n.rate.1 / n.rate.2
/-- The time since the start of the last beacon heard at the prediction, and G = 2 × 0.02 × E + 50 µs, in 0.1 µs (R88). -/
def Node.predicted (n : Node) : Nat := 10000 * n.sumMs
def Node.guard (n : Node) : Nat := n.predicted * 4 / 100 + 500
/-- The sum of the NEXT_MS values over an interval that the timer, uncorrected, counted as `c`: beacons come NEXT_MS apart, so
it is the whole number of them nearest to the count (DEDUCED from Example 04.1, step 8; log entry 35). -/
def nominalMs (nextMs c : Nat) : Nat := nextMs * max 1 ((c + 5000 * nextMs) / (10000 * nextMs))

/-- What a valid beacon does to an addressed node that hears it (R73, R78, R80, R84, R87 to R89, Table 04.6); `timer` is the
node's own timer at the start of the beacon, in 0.1 µs. The roll-call round is a new one where RCF does not rise. The rate
stands over an interval that ends in SYNC (DESIGN CHOICE, log entry 35: no NEXT_MS spans one that the node's own wake pulse cut
short). -/
def Node.beacon (n : Node) (a : Byte) (b : Beacon) (timer : Nat) : Node :=
  let first := n.mode == .sync
  let rate := if first || n.nextMs = 0 || timer ≤ n.beaconAt then n.rate
    else (10000 * nominalMs n.nextMs (timer - n.beaconAt), timer - n.beaconAt)
  let answered := n.answered && b.dormant && n.lastRcf < b.rcf
  let due :=
    if b.dormant then beaconAsks b a && !answered
    else n.rollDue || first || beaconAsks b a
  { n.applySubs b.subs with
    heard := true, cyc8 := b.cyc8, rollDue := due, answered := answered, lastRcf := if b.dormant then b.rcf else 0, misses := 0
    rate := rate, nextMs := b.nextMs, sumMs := b.nextMs, beaconAt := timer, fbFrom := timer + frameBits (.beacon b)
    inFallback := false, listening := false, sniff := false, mode := if b.dormant then .dsleep else .active }

/-- Send a frame: one that contends has met no collision yet. -/
def Node.send (n : Node) (f : NodeSent) : Node := { n with sent := f, coll := 0, backoff := none }

/-- Beacons have returned: a stored offline decision is reported, one for each active beacon (15 R348). -/
def Node.reportOffline (n : Node) : Node :=
  match n.offlineQ with
  | [] => n
  | (c, _, u, _) :: l => if n.mode == .active then { n with offlineQ := l }.send (.offline c u) else n

/-- The REPORT that a node sends: QMAP, 2 bits per channel, and then the values (03 Table 03.4). -/
def qmap : List Nat → List Byte
  | a :: b :: c :: d :: l => BitVec.ofNat 8 (a + 4 * b + 16 * c + 64 * d) :: qmap l
  | [] => []
  | l => [BitVec.ofNat 8 (l.getD 0 0 + 4 * l.getD 1 0 + 16 * l.getD 2 0)]
def reportBytes (first : Nat) (l : List ChanVal) : List Byte :=
  leBytes first 1 ++ leBytes l.length 1 ++ qmap (l.map fun (v : ChanVal) => qualBits v.qual)
    ++ l.flatMap fun (v : ChanVal) => leBytes v.value.toNat 3
/-- The payload of a node's frame (03 Table 03.4, 04 Tables 04.2 and 04.3); a wake pulse is no frame, and the payload of a
SECURE frame is sealed. -/
def NodeSent.payload : NodeSent → List Byte
  | .report first l => reportBytes first l
  | .rollcall uid cls stat => leBytes uid.toNat 8 ++ [cls, stat.setWidth 8]
  | .claim uid cls m => leBytes uid.toNat 8 ++ [cls] ++ leBytes m.length 1 ++ m
  | .response seq op st data => [seq, op, st] ++ data
  | .event seq ch v => [seq, ch, BitVec.ofNat 8 (qualBits v.qual)] ++ leBytes v.value.toNat 3
  | _ => []
/-- SRC of a node's frame: its address, or 0 while it has none; DST is 0 (R75, 03 Table 03.2). -/
def Node.src (n : Node) : Byte := n.addr.getD 0

/-! ### Meanings -/

/-- A key that the installer gives a node is its session key of generation 0 (15 R325). -/
def Node.keyed (n : Node) : Option (BitVec 256) → Node
  | none => n
  | some k => { n with kgen := 0, prevOk := false, ctrIn := 0, key := some k, prevKey := none }

/-- NODE_POWER_UP (R72, R93, Table 04.6): SYNC with a stored address, UNADDR without one; a local factory reset came before
(`factory`), which erases address and plan, or not; `fault` is the outcome of the node's self-test, `key` a session key that the
installer has given it meanwhile (15 Table 15.3). -/
def execNodePowerUp (p : Port) (uid : Uid) (cls : Byte) (chmap : List Byte) (factory fault : Bool) (key : Option (BitVec 256))
    (timer : Nat) (s : State) : Host.Outcome State Fault Refusal :=
  let old := ((s.node? uid).getD {}).keyed key
  let plan := if factory then none else old.plan
  done s (s.setNode uid {
    port := p.val, cls := cls, chmap := chmap, plan := plan, mode := if plan.isSome then .sync else .unaddr
    stat := old.stat ||| 2, fault := fault, fbFrom := timer, beaconAt := timer, fallbackV := old.fallbackV
    wakeMask := old.wakeMask, ramp := old.ramp, kgen := old.kgen
    prevOk := old.prevOk, ctrIn := old.ctrIn, key := old.key, prevKey := old.prevKey, cacheVer := old.cacheVer, cache := old.cache, cacheSched := old.cacheSched
    offlineQ := old.offlineQ })

/-- NODE_CLAIM_BROADCAST_RX (R76): a node with no address draws its claim slot, a free value below NSLOT; `timer` is its timer
at the end of the broadcast. -/
def execNodeClaimBroadcastRx (uid : Uid) (nslot : Byte) (slotbt : Nat) (claimOpen : Bool) (timer : Nat) (s : State) :
    Host.Outcome State Fault Refusal :=
  match s.node? uid with
  | none => done s s
  | some n =>
    if n.mode == .unaddr && claimOpen && nslot != 0 then
      let (r, t) := s.draw
      let r := r % nslot.toNat
      done s (t.setNode uid { n with claimR := some r, claimAt := timer + r * slotbt })
    else done s s

/-- NODE_CLAIM_SLOT (R76): the drawn delay is over and the node sends CLAIM, under carrier sense and collision detection. -/
def execNodeClaimSlot (uid : Uid) (timer : Nat) (s : State) : Host.Outcome State Fault Refusal :=
  done s (s.modLeaf uid fun n =>
    if n.claimR.isSome && n.claimAt ≤ timer then { n with claimR := none }.send (.claim uid n.cls n.chmap) else n)

/-- Erase address and plan (R72). -/
def Node.clear (n : Node) : Node := { n with plan := none, mode := .unaddr, rollDue := false, claimR := none }

/-- NODE_ASSIGN_RX (R72, R77, R79), to the node's address or to 255: the plan is stored, or erased for ADDR 0. An ASSIGN with
another UID is not for this node, but one with UID 0 and ADDR 0 sent to its address is (DESIGN CHOICE, log entry 34). -/
def execNodeAssignRx (uid : Uid) (dst : Byte) (target : Uid) (plan : Plan) (timer : Nat) (s : State) :
    Host.Outcome State Fault Refusal :=
  done s (s.modLeaf uid fun n =>
    let mine := some dst == n.addr
    if !n.hears || !(mine || dst == 0xFF) then n
    else if plan.addr == 0 then (if target == uid || (target == 0 && mine) then n.clear else n)
    else if target != uid || 250 < plan.addr.toNat then n
    else
      { n with plan := some plan, rollDue := true, claimR := none
               fbFrom := if n.mode == .unaddr then timer else n.fbFrom
               mode := if n.mode == .unaddr then .sync else n.mode })

/-- NODE_BEACON_RX (R73, Table 04.6). -/
def execNodeBeaconRx (uid : Uid) (b : Beacon) (timer : Nat) (s : State) : Host.Outcome State Fault Refusal :=
  done s (s.modLeaf uid fun n =>
    match n.addr with
    | some a => if n.hears then (n.beacon a b timer).reportOffline else n
    | none => n)

/-- The values of a REPORT from channel `ch` on: a channel whose EVENT was sent since the last REPORT carries its value (R83). -/
def reportVals (ev : Map ChanVal) : Nat → List ChanVal → List ChanVal
  | _, [] => []
  | ch, v :: l => (sfind ev ch).getD v :: reportVals ev (ch + 1) l
/-- The node's REPORT. -/
def Node.report (n : Node) (first : Nat) (vals : List ChanVal) : Node :=
  { n with evVals := [] }.send (.report first (reportVals n.evVals first vals))

/-- The node's ROLLCALL, which ends what STAT tells of the time since the last. -/
def Node.rollcall (n : Node) (uid : Uid) : Node :=
  { n with rollDue := false, stat := 0 }.send (.rollcall uid n.cls (n.stat ||| if n.fault then 4 else 0))

/-- NODE_SLOT_START (R78, R80, R87): ROLLCALL, or a REPORT of its channels from `first` on, where the node heard a beacon in
this cycle and the slot is its. -/
def execNodeSlotStart (uid : Uid) (first : Nat) (vals : List ChanVal) (s : State) : Host.Outcome State Fault Refusal :=
  done s (s.modLeaf uid fun n =>
    match n.plan with
    | none => n
    | some p =>
      if n.mode == .active && n.heard && n.cyc8.toNat % p.every = p.phase then
        if n.rollDue then { n.rollcall uid with heard := false } else { n with heard := false }.report first vals
      else if n.mode == .dsleep && n.rollDue then { n.rollcall uid with answered := true }
      else n)

/-- Does an addressed node take a frame to `dst`: it hears it, and DST is its address or 255 (03 R51)? -/
def Node.takes (n : Node) (dst : Byte) : Bool := n.plan.isSome && n.hears && (some dst == n.addr || dst == 0xFF)

/-- NODE_OUTPUT_RX (R82), to the node's address or to 255. -/
def execNodeOutputRx (uid : Uid) (dst : Byte) (first : Nat) (vals : List V24) (s : State) : Host.Outcome State Fault Refusal :=
  done s (s.modLeaf uid fun n =>
    if n.takes dst && first + vals.length ≤ 64 then n.apply first vals else n)

/-- NODE_FALLBACK_TIMEOUT (R84): in SYNC or ACTIVE, no valid beacon for FBT × 100 ms from the end of the last. -/
def execNodeFallbackTimeout (uid : Uid) (timer : Nat) (s : State) : Host.Outcome State Fault Refusal :=
  done s (s.modLeaf uid fun n =>
    let fbt := (n.plan.getD {}).fbt
    if (n.mode == .sync || n.mode == .active) && 1000000 * fbt ≤ n.since n.fbFrom timer then { n.fallback with sniff := false }
    else n)

/-- NODE_WINDOW_OPEN (R88): the node's timer reaches prediction − G; DSLEEP to DLISTEN. -/
def execNodeWindowOpen (uid : Uid) (timer : Nat) (s : State) : Host.Outcome State Fault Refusal :=
  done s (s.modLeaf uid fun n =>
    if n.mode == .dsleep && n.predicted ≤ n.since n.beaconAt timer + n.guard then { n with mode := .dlisten } else n)

/-- NODE_WINDOW_CLOSE (R88): prediction + G is reached: a first miss advances the prediction by NEXT_MS; a second consecutive
one starts seek. -/
def execNodeWindowClose (uid : Uid) (timer : Nat) (s : State) : Host.Outcome State Fault Refusal :=
  done s (s.modLeaf uid fun n =>
    if n.mode == .dlisten && n.predicted + n.guard ≤ n.since n.beaconAt timer then
      if 2 ≤ n.misses + 1 then { n with misses := n.misses + 1, mode := .seek, seekAt := timer }
      else { n with misses := n.misses + 1, sumMs := n.sumMs + n.nextMs, mode := .dsleep }
    else n)

/-- NODE_SEEK_TIMEOUT (R88, R91): 1.5 × NEXT_MS of seek are over: fallback, and the node sniffs. -/
def execNodeSeekTimeout (uid : Uid) (timer : Nat) (s : State) : Host.Outcome State Fault Refusal :=
  done s (s.modLeaf uid fun n =>
    if n.mode == .seek && 15000 * n.nextMs ≤ n.since n.seekAt timer then { n.fallback with sniff := true, sniffAt := timer } else n)

/-- NODE_SNIFF (R91), every 3.5 ms: on carrier the node listens until a beacon or for 2 s; without, it goes on sniffing. -/
def execNodeSniff (uid : Uid) (carrier : Bool) (timer : Nat) (s : State) : Host.Outcome State Fault Refusal :=
  done s (s.modLeaf uid fun n =>
    let wait := if n.listening then 20000000 else 35000
    if n.mode == .fallback && n.sniff && wait ≤ n.since n.sniffAt timer then { n with listening := carrier, sniffAt := timer }
    else n)

/-- NODE_WAKE_CONDITION (R92): a change on a channel enabled by SET_WAKE: a wake pulse, and the node listens, in SYNC; its
fallback time runs from here (DEDUCED, log entry 35). -/
def execNodeWakeCondition (uid : Uid) (ch : BitVec 6) (timer : Nat) (s : State) : Host.Outcome State Fault Refusal :=
  done s (s.modLeaf uid fun n =>
    if n.mode == .dsleep && n.wakeMask.getLsbD ch.toNat then
      { n with sent := .wakePulse, mode := .sync, fbFrom := timer } else n)

/-! ### Node commands (R83, Table 04.4) -/

/-- A COMMAND at an addressed node that takes it: a repeated SEQ sends the previous RESPONSE again without acting; otherwise
the node acts and answers. -/
def State.nodeCommand (s : State) (uid : Uid) (dst seq op : Byte) (act : Node → Node × Byte × List Byte) : State :=
  s.modLeaf uid fun n =>
    if !n.takes dst then n
    else if n.lastSeq == some seq then n.send n.lastResp
    else
      let (m, st, data) := act n
      { m with lastSeq := some seq, lastResp := .response seq op st data }.send (.response seq op st data)

/-- What a node does on each COMMAND: its new state, STATUS and result data. READ_INFO: UID, class, NCH, channel map and
firmware version. -/
def Node.readInfo (n : Node) (uid : Uid) : Node × Byte × List Byte :=
  (n, 0, leBytes uid.toNat 8 ++ [n.cls] ++ leBytes n.chmap.length 1 ++ n.chmap ++ leBytes (Config.nodeVersion uid).toNat 2)
/-- SET_FALLBACK: the fallback time and the fallback values of output channels. -/
def Node.setFallback (n : Node) (fbt : Nat) (entries : List (Nat × V24)) : Node × Byte × List Byte :=
  if 1 ≤ fbt && fbt ≤ 600 && entries.all fun e => n.isOutput e.1 then
    ({ n with plan := n.plan.map fun p => { p with fbt := fbt }, fallbackV := sputs n.fallbackV entries }, 0, [])
  else (n, 2, [])
/-- FORGET: the node it names answers and then erases its address and plan (R72). -/
def Node.forget (n : Node) (uid target : Uid) : Node × Byte × List Byte :=
  if target == uid then (n.clear, 0, []) else (n, 2, [])
/-- SET_RAMP: a mover's ramp-stop time; another class does not know the OP. -/
def Node.setRamp (n : Node) (ramp : Nat) : Node × Byte × List Byte :=
  if n.cls != 4 then (n, 1, [])
  else if 1 ≤ ramp && ramp ≤ 6000 then ({ n with ramp := ramp }, 0, [])
  else (n, 2, [])

/-- The entries of SET_FALLBACK: CH and VALUE. -/
def fbEntries : List Byte → List (Nat × V24)
  | c :: x :: y :: z :: l => (c.toNat, BitVec.ofNat 24 (ofLe [x, y, z])) :: fbEntries l
  | _ => []
/-- A COMMAND by its OP and argument bytes (Table 04.4), as a SECURE frame carries it. -/
def Node.act (n : Node) (uid : Uid) (op : Byte) (args : List Byte) : Node × Byte × List Byte :=
  match op.toNat with
  | 1 => if args.isEmpty then n.readInfo uid else (n, 2, [])
  | 2 => if 2 ≤ args.length && args.length % 4 = 2 then n.setFallback (ofLe (args.take 2)) (fbEntries (args.drop 2)) else (n, 2, [])
  | 3 => if args.length = 1 then ({ n with identify := ofLe args }, 0, []) else (n, 2, [])
  | 4 => if args.length = 8 then ({ n with wakeMask := BitVec.ofNat 64 (ofLe args) }, 0, []) else (n, 2, [])
  | 5 => if args.length = 8 then n.forget uid (BitVec.ofNat 64 (ofLe args)) else (n, 2, [])
  | 6 => if args.length = 2 then n.setRamp (ofLe args) else (n, 2, [])
  | _ => (n, 1, [])

/-- READ_INFO. -/
def execReadInfo (uid : Uid) (dst seq : Byte) (s : State) : Host.Outcome State Fault Refusal :=
  done s (s.nodeCommand uid dst seq 1 fun n => n.readInfo uid)
/-- SET_FALLBACK. -/
def execSetFallback (uid : Uid) (dst seq : Byte) (fbt : Nat) (entries : List (Nat × V24)) (s : State) :
    Host.Outcome State Fault Refusal :=
  done s (s.nodeCommand uid dst seq 2 fun n => n.setFallback fbt entries)
/-- IDENTIFY: seconds 1 to 255; 0 stops. -/
def execIdentify (uid : Uid) (dst seq : Byte) (seconds : Byte) (s : State) : Host.Outcome State Fault Refusal :=
  done s (s.nodeCommand uid dst seq 3 fun n => ({ n with identify := seconds.toNat }, 0, []))
/-- SET_WAKE: the mask of channels whose change causes a wake pulse. -/
def execSetWake (uid : Uid) (dst seq : Byte) (mask : BitVec 64) (s : State) : Host.Outcome State Fault Refusal :=
  done s (s.nodeCommand uid dst seq 4 fun n => ({ n with wakeMask := mask }, 0, []))
/-- FORGET. -/
def execForget (uid : Uid) (dst seq : Byte) (target : Uid) (s : State) : Host.Outcome State Fault Refusal :=
  done s (s.nodeCommand uid dst seq 5 fun n => n.forget uid target)
/-- SET_RAMP. -/
def execSetRamp (uid : Uid) (dst seq : Byte) (ramp : Nat) (s : State) : Host.Outcome State Fault Refusal :=
  done s (s.nodeCommand uid dst seq 6 fun n => n.setRamp ramp)

end Sys2Proof.Machine
end

