-- ==== Sys2Proof/Machine/Access.lean ====
section
/-! DEFINITION. Secured frames, decisions at doors, the offline cache, anti-passback and the lift gateway (15 R342 to R351). -/
namespace Sys2Proof.Machine

/-! ### Secured frames (R346, R347) -/

/-- TC of a SECURE frame of the controller: TYPE 9, class 0 (03 Table 03.2). -/
def secureTc : Byte := 0x48
/-- The UID that an address stands for. -/
def State.nodeUid (s : State) (p a : Nat) : Uid := match s.nodeCfg? p a with
  | some c => c.uid
  | none => 0

/-- Send an inner message to a node under its current generation and the next counter; without the node's key nothing can be sent
(Table 15.3). -/
def State.sealed (s : State) (p a : Nat) (i : Inner) : State :=
  let n := (s.port p).node a
  match n.key with
  | none => s
  | some k => (s.modNode p a fun n => { n with ctrOut := n.ctrOut + 1 }).queueFrame p (BitVec.ofNat 8 a) (.secure n.kgen (n.ctrOut + 1) i
      (secureSeal k (s.nodeUid p a) (BitVec.ofNat 8 a) 0 secureTc n.kgen 0 (n.ctrOut + 1) i))

/-- REKEY: the new key, a free value, is sent under the old generation; it is current from then on, and the counters go on (R347). -/
def State.rekey (s : State) (p a : Nat) : State :=
  let (x, s) := s.draw
  let k : BitVec 256 := BitVec.ofNat 256 x
  let g := ((s.port p).node a).kgen + 1
  (s.sealed p a (.rekey g k)).modNode p a fun n => { n with kgen := g, prevOk := true, key := some k, prevKey := n.key }

/-- The own counter has come to 2^31, and no REKEY has been sent for it. -/
def CtlNode.rekDue (n : CtlNode) : Bool := n.key.isSome && 2 ^ 31 ≤ n.ctrOut && !n.rekOut
/-- Send a SECURE frame; at CTR 2^31 a REKEY follows. -/
def State.sendSecure (s : State) (p a : Nat) (i : Inner) : State :=
  let t := s.sealed p a i
  if ((t.port p).node a).rekDue then (t.rekey p a).modNode p a fun n => { n with rekOut := true } else t

/-- The key of a generation that a receiver has. -/
def keyFor (cur : Byte) (prevOk : Bool) (key prevKey : Option (BitVec 256)) (kgen : Byte) : Option (BitVec 256) :=
  if kgen = cur then key else if prevOk && kgen == cur - 1 then prevKey else none
/-- The tag of a SECURE frame verifies under a key, at a receiver of its direction. -/
def tagOk (key : Option (BitVec 256)) (uid : Uid) (dst src dir : Byte) (f : SecureFrame) : Bool :=
  match key with
  | none => false
  | some k => f.dir == dir && f.body == secureSeal k uid dst src f.tc f.kgen f.dir f.ctr f.inner
/-- A receiver accepts a SECURE frame: its tag, its generation and its counter (R347). -/
def secureOk (cur : Byte) (prevOk : Bool) (last : Nat) (kgen : Byte) (ctr : Nat) (tagOk : Bool) : Bool :=
  tagOk && (kgen == cur || (prevOk && kgen == cur - 1)) && last < ctr

/-! ### Doors, records and local time (R342, R343) -/

/-- The door whose reader a node reports. -/
def State.readerDoor (s : State) (p a r : Nat) : Option DoorCfg :=
  s.cfg.doors.find? fun c => c.port == p && c.addr == a && c.reader == r

/-- The door, or one of its groups, is in DOORS (Table 15.5 step 1). -/
def credNames (r : Cred) (c : DoorCfg) : Bool :=
  r.doors.any fun e => e != 0xFFFF && (if e.msb then c.groups.contains (e.toNat % 32768) else e.toNat % 2048 == c.door)
/-- The door is admitted to the record: steps 1 and 2. -/
def credAdmits (r : Cred) (c : DoorCfg) : Bool := credNames r c && (c.owner == r.tenant || c.shared)

/-- The minute of the local week, Monday 00:00 first; 2000-01-01 was a Saturday. -/
def weekMinute (utcMs : Nat) (offset : Int) : Nat := (((utcMs / 60000 + 7200 : Nat) : Int) + offset).emod 10080 |>.toNat
/-- Does a schedule permit a minute of the week? -/
def schedPermits (c : SchedCfg) (m : Nat) : Bool := c.minutes.any fun i => i.1 ≤ m && m < i.2
def State.schedule? (s : State) (n : Nat) : Option SchedCfg := s.cfg.schedules.find? fun c => c.no == n

/-- FROM_T ≤ now ≤ UNTIL_T; without a valid time only a record without limits passes (step 3). -/
def State.validNow (s : State) (r : Cred) : Bool :=
  if s.time.utcOk then r.fromT.toNat ≤ s.utcNow / 1000 && (r.untilT == 0xFFFFFFFF || s.utcNow / 1000 ≤ r.untilT.toNat)
  else r.fromT == 0 && r.untilT == 0xFFFFFFFF
/-- SCHED permits the present local time (step 4). -/
def State.schedNow (s : State) (r : Cred) : Bool :=
  r.sched == 0xFFFF || (s.time.utcOk && match s.schedule? r.sched.toNat with
    | some c => schedPermits c (weekMinute s.utcNow s.time.offset)
    | none => false)
/-- A passback violation at a door: the location is known and differs from the FROM area (R349). -/
def State.passbackBad (s : State) (c : DoorCfg) (i : Nat) (r : Cred) : Bool :=
  c.passback != .off && !r.exempt && match sfind s.sec.locs i with
    | some l => l.1 != c.fromArea
    | none => false

/-- The reason for which a record fails at a door, 0 where it passes every step (Table 15.5). -/
def State.judgeRecord (s : State) (c : DoorCfg) (method : Byte) (i : Nat) (r : Cred) : Nat :=
  if !credAdmits r c then 1
  else if !s.validNow r then 2
  else if !s.schedNow r then 3
  else if r.cardPin && method != 2 then 4
  else if s.passbackBad c i r && c.passback == .hard then 5
  else 0

/-- The enabled records with a CID, in index order (R344). -/
def State.matching (s : State) (cid : Uid) : List (Nat × Cred) := s.sec.records.filter fun e => e.2.enabled && e.2.cid == cid

/-! ### Offline cache (R348) -/

/-- The records that qualify for a door's cache. -/
def State.qualify (s : State) (c : DoorCfg) : List (Nat × Cred) :=
  s.sec.records.filter fun e => e.2.enabled && e.2.offline && credAdmits e.2 c
    && (e.2.untilT == 0xFFFFFFFF || !s.time.utcOk || s.utcNow / 1000 ≤ e.2.untilT.toNat)

/-- Put a counted schedule into its place: most used first, the lower number first among equals. -/
def insUse (e : Nat × Nat) : List (Nat × Nat) → List (Nat × Nat)
  | [] => [e]
  | x :: l => if x.2 < e.2 || (x.2 = e.2 && e.1 < x.1) then e :: x :: l else x :: insUse e l
/-- The schedules that get the 16 places. -/
def placesOf (l : List (Nat × Cred)) : List Nat :=
  let ns := (l.map fun e => e.2.sched.toNat).filter (· != 0xFFFF)
  let counted := (sortNat ns).map fun n => (n, (ns.filter (· == n)).length)
  ((counted.foldl (fun acc e => insUse e acc) []).take 16).map (·.1)

/-- At most 4,096 records: those last used at the door first, and then the rest by index. -/
def State.cut (s : State) (c : DoorCfg) (l : List (Nat × Cred)) : List (Nat × Cred) :=
  if l.length ≤ 4096 then l
  else
    let use (e : Nat × Cred) : Option Nat := sfind s.sec.used (2 ^ 20 * c.door + e.1)
    let seen := (l.filterMap fun e => (use e).map fun t => (e.1, t)).foldl (fun acc e => insUse e acc) []
    let order := seen.map (·.1) ++ (l.filter fun e => (use e).isNone).map (·.1)
    let keep := order.take 4096
    l.filter fun e => keep.contains e.1

/-- The cache entry of a record under the places. -/
def credEntry (places : List Nat) (r : Cred) : CacheEntry :=
  { cid := r.cid, untilT := r.untilT, cardPin := r.cardPin
    sched := if r.sched == 0xFFFF then 0xFF else BitVec.ofNat 8 (places.idxOf r.sched.toNat) }

/-- A door's selection: its entries and the schedules of its places. -/
def State.selection (s : State) (c : DoorCfg) : List CacheEntry × List Nat :=
  let l := s.qualify c
  let places := placesOf l
  ((s.cut c (l.filter fun e => e.2.sched == 0xFFFF || places.contains e.2.sched.toNat)).map fun e => credEntry places e.2, places)

/-- Does a door have a cache? It is the first door of a secured door node. -/
def State.hasCache (s : State) (c : DoorCfg) : Bool :=
  (match s.nodeCfg? c.port c.addr with
    | some n => n.secured && n.cls == 5
    | none => false)
  && !s.cfg.doors.any fun d => d.port == c.port && d.addr == c.addr && d.door < c.door

/-- A byte of eight flags, the first in bit 0. -/
def bitByte (l : List Bool) : Byte := BitVec.ofNat 8 (sumNat (l.zipIdx.map fun e => flag e.1 e.2))
/-- A weekly schedule as 84 bytes: a quarter-hour is set only when the whole of it is permitted. -/
def schedBytes (c : SchedCfg) : List Byte :=
  (List.range 84).map fun b => bitByte ((List.range 8).map fun i =>
    (List.range 15).all fun m => schedPermits c (15 * (8 * b + i) + m))
/-- The 16 schedules of a door's cache, of the places given. -/
def State.cacheScheds (s : State) (places : List Nat) : List Byte :=
  padTo 0 1344 (places.flatMap fun n => match s.schedule? n with
    | some c => schedBytes c
    | none => List.replicate 84 0)
/-- A selection that has changed, or a schedule in it, becomes a new version, sent from its first chunk on. After a start the node has
a version that the module no longer knows: one follows it. -/
def State.cacheCheck (s : State) (c : DoorCfg) : State :=
  let (l, places) := s.selection c
  let x := s.door c.door
  if s.hasCache c && (l != x.cache || places != x.places || (x.version != 0 && s.cacheScheds places != x.scheds)) then
    s.setDoor c.door { x with version := x.version + 1, cache := l, places := places, scheds := s.cacheScheds places, chunk := some 0 }
  else s
def State.cacheChecks (s : State) : State := s.cfg.doors.foldl State.cacheCheck s
/-- An entry of 16 bytes. -/
def CacheEntry.bytes (e : CacheEntry) : List Byte :=
  leBytes e.cid.toNat 8 ++ leBytes e.untilT.toNat 4 ++ [e.sched] ++ leBytes (flag e.cardPin 0) 1 ++ [0, 0]
/-- How many chunks a version has, and the data of one. -/
def Door.chunks (x : Door) : Nat := 7 + (x.cache.length + 12) / 13
def Door.chunkData (x : Door) (k : Nat) : List Byte :=
  if k < 7 then (x.scheds.drop (192 * k)).take 192
  else ((x.cache.drop (13 * (k - 7))).take 13).flatMap CacheEntry.bytes

/-- Send the next chunk of a door's pending version. -/
def State.sendChunk (s : State) (c : DoorCfg) : State :=
  let x := s.door c.door
  match x.chunk with
  | none => s
  | some k =>
    (s.setDoor c.door { x with chunk := if k + 1 < x.chunks then some (k + 1) else none }).sendSecure c.port c.addr
      (.cache x.version k x.chunks (x.chunkData k))
/-- One chunk for each door node of a port. -/
def State.sendChunks (s : State) (p : Nat) : State := (s.cfg.doors.filter fun c => c.port == p).foldl State.sendChunk s

/-! ### Granting and refusing (R344, R349, R350) -/

/-- The last area a credential entered. -/
def State.enter (s : State) (i area : Nat) : State := s.modSec fun y => { y with locs := sput y.locs i (area, s.now) }

/-- A passback violation is counted. -/
def State.countPassback (s : State) : State := s.modSec fun y => { y with passback := addW y.passback 1 }

/-- A decision is queued: the time since the READ came, in µs of whole ticks, and the longest (R345). -/
def State.decided (s : State) (q : ReadReq) : State :=
  let t := w32 ((s.now - q.tick) * 125 / 2)
  s.modSec fun y => { y with decLast := t, decMax := if y.decMax.toNat < t.toNat then t else y.decMax }

/-- The call station a door's grants serve: the one it names, or the one its reader is. -/
def State.doorStation (s : State) (c : DoorCfg) : Option StationCfg :=
  match c.station with
  | some k => s.stationCfg? k
  | none => s.cfg.stations.find? fun x => x.port == c.port && x.addr == c.addr && x.reader == c.reader

/-- The floors the image admits for a tenant at a station. -/
def floorsFor (c : StationCfg) (t : Tenant) : BitVec 256 :=
  match c.admitted.find? fun e => e.1 == t.toNat with
  | some e => e.2
  | none => 0

/-- FLOORS after a grant: the record's floors that the image admits for its tenant (R350). -/
def State.sendFloors (s : State) (c : DoorCfg) (r : Cred) : State :=
  match s.doorStation c with
  | none => s
  | some x =>
    let t := s.sendSecure x.port x.addr (.floors x.station x.validity (r.floors &&& floorsFor x r.tenant))
    (t.modSec fun y => { y with
      stations := sput y.stations x.station 1
      floorsTill := sput y.floorsTill x.station (s.now + secTicks x.validity) }).showStation x

/-- A DECIDE; the spec gives its indication no values, so it is a free value. -/
def verdict (seq : Byte) (unlock : Bool) (reason time : Nat) : Decide :=
  { seq := seq, unlock := unlock, reason := reason, time := time, ind := Config.indication unlock reason }

/-- A grant of a record at a door to a READ. -/
def State.grant (s : State) (c : DoorCfg) (q : ReadReq) (i : Nat) (r : Cred) : State :=
  let soft := s.passbackBad c i r
  let s := s.sendSecure c.port c.addr (.decide (verdict q.seq true 0 c.unlockT))
  let s := (s.decided q).modSec fun y => { y with
    grants := addW y.grants 1, used := sput y.used (2 ^ 20 * c.door + i) s.now }
  let s := s.event r.tenant 0 12 0 1 [w32 c.door, w32 i]
  let s := if soft then s.countPassback.event r.tenant 0 12 0 3 [w32 c.door, w32 i] else s
  let s := s.enter i c.toArea
  let s := s.stepDoor c { s.door c.door with unlocked := true, lockAt := some (s.now + 1600 * c.unlockT), last := w32 i }
  s.sendFloors c r

/-- A refusal at a door to a READ. -/
def State.refuse (s : State) (c : DoorCfg) (q : ReadReq) (reason : Nat) : State :=
  let s := s.sendSecure c.port c.addr (.decide (verdict q.seq false reason 0))
  let s := (s.decided q).modSec fun y => { y with refusals := addW y.refusals 1 }
  let s := if reason = 5 then s.countPassback else s
  s.event c.owner 0 12 0 2 [w32 c.door, w32 reason, q.cid.setWidth 32, (q.cid >>> 32).setWidth 32]

/-- Decide a READ at its door (R344). -/
def State.decideRead (s : State) (c : DoorCfg) (q : ReadReq) : State :=
  let l := s.matching q.cid
  match l.find? fun e => s.judgeRecord c q.method e.1 e.2 == 0 with
  | some (i, r) => s.grant c q i r
  | none => s.refuse c q (match l with
    | [] => 1
    | (i, r) :: _ => s.judgeRecord c q.method i r)

/-! ### Meanings -/

/-- May a cycle of an active port begin at this tick: the one before it is over (03 R52), or, after a wake, its wake train has
run for 4 ms (04 R92)? -/
def BrPort.cycleDue (x : BrPort) (now : Nat) : Bool :=
  if x.woke then x.train.any fun t => t + msTicks 4 ≤ now else x.nextCycle ≤ now

/-- BRANCH_CYCLE_START (03 R52, R55): a cycle of an active port begins, and each door node gets the next chunk of its
version. -/
def execBranchCycleStart (p : Port) (buffered : Bool) (s : State) : Host.Outcome State Fault Refusal :=
  let x := s.port p.val
  if s.hasPort p.val && x.running && !x.dormant && x.cycleDue s.now then
    done s ((s.cycleStart p.val none buffered).sendChunks p.val)
  else done s s

/-- A door contact that a secured node reports on its reader's number (DESIGN CHOICE: no rule says how a contact is reported). -/
def State.contact (s : State) (p a ch : Nat) (v : V24) : State :=
  match s.readerDoor p a ch with
  | none => s
  | some c => s.stepDoor c { s.door c.door with isOpen := v != 0 }

/-- What the module does with an inner message of a node (Table 15.8). -/
def State.innerRx (s : State) (p a : Nat) : Inner → State
  | .event seq ch q v => ((s.nodeValues p a ch.toNat [{ qual := q, value := v }]).contact p a ch.toNat v).sentEvent p
      (BitVec.ofNat 8 a) seq ch { qual := q, value := v }
  | .response seq op st data => s.response p a seq op st data
  | .read reader method cid seq => s.modSec fun y => { y with
      reads := y.reads ++ [{ port := p, addr := a, reader := reader, method := method, cid := cid, seq := seq, tick := s.now }] }
  | .offline cid utcMs unlocked reader => s.modSec fun y => { y with
      offlines := y.offlines ++ [{ port := p, addr := a, cid := cid, utcMs := utcMs, unlocked := unlocked, reader := reader }] }
  | _ => s

/-- BRANCH_RX_SECURE (15 R346, R347): accepted by its tag, generation and counter, or discarded and counted. At CTR 2^31 the
module sends REKEY. -/
def execBranchRxSecure (p : Port) (addr : Byte) (f : SecureFrame) (s : State) : Host.Outcome State Fault Refusal :=
  let a := addr.toNat
  if (s.port p.val).running then
    let t := s.modPort p.val fun x => x.accept 9 (7 + f.body.length)
    let n := (s.port p.val).node a
    let secured := match s.nodeCfg? p.val a with
      | some c => c.secured
      | none => false
    let ok := tagOk (keyFor n.kgen n.prevOk n.key n.prevKey f.kgen) (s.nodeUid p.val a) 0 addr 1 f
    if secured && secureOk n.kgen n.prevOk n.ctrIn f.kgen f.ctr ok then
      let t := t.modNode p.val a fun n => { n with
        ctrIn := f.ctr, prevOk := n.prevOk && f.kgen != n.kgen, rekIn := n.rekIn || 2 ^ 31 ≤ f.ctr }
      let t := if !n.rekIn && 2 ^ 31 ≤ f.ctr then t.rekey p.val a else t
      done s (t.innerRx p.val a f.inner)
    else done s (t.modSec fun y => { y with secureFail := addW y.secureFail 1 })
  else done s s

/-- READ (R344): the oldest READ is decided; one from a reader that no door has is dropped. -/
def execRead (s : State) : Host.Outcome State Fault Refusal :=
  match s.sec.reads with
  | [] => done s s
  | q :: l =>
    let t := s.modSec fun y => { y with reads := l }
    match s.readerDoor q.port q.addr q.reader.toNat with
    | none => done s t
    | some c => done s (t.decideRead c q)

/-- OFFLINE (R348): an offline decision is an event, and a grant is applied to passback; a reader that no door has names none. -/
def execOffline (s : State) : Host.Outcome State Fault Refusal :=
  match s.sec.offlines with
  | [] => done s s
  | q :: l =>
    let t := s.modSec fun y => { y with offlines := l }
    match s.readerDoor q.port q.addr q.reader.toNat with
    | none => done s (t.event 0 0 12 0 (if q.unlocked then 1 else 2)
        [0xFFFFFFFF, 0xFFFFFFFF, q.cid.setWidth 32, (q.cid >>> 32).setWidth 32, w32 q.utcMs, w32 (q.utcMs / 2 ^ 32)])
    | some c =>
      let data := [q.cid.setWidth 32, (q.cid >>> 32).setWidth 32, w32 q.utcMs, w32 (q.utcMs / 2 ^ 32)]
      match (s.matching q.cid).find? fun e => credAdmits e.2 c with
      | some (i, r) =>
        if q.unlocked then done s ((t.event r.tenant 0 12 0 1 ([w32 c.door, w32 i] ++ data)).enter i c.toArea)
        else done s (t.event c.owner 0 12 0 2 ([w32 c.door, 0] ++ data))
      | none => done s (t.event c.owner 0 12 0 (if q.unlocked then 1 else 2) ([w32 c.door, 0xFFFFFFFF] ++ data))

/-- Send TIME to one secured door node of a running port. -/
def State.sendTime (s : State) (n : NodeCfg) : State :=
  if n.secured && n.cls = 5 && (s.port n.port).running then s.sendSecure n.port n.addr (.time s.utcNow s.time.offset) else s

/-- TIME_MESSAGE_SEND (R348): TIME to the secured door nodes while a valid time is available; what has expired since leaves
the caches. -/
def execTimeMessageSend (s : State) : Host.Outcome State Fault Refusal :=
  if s.due s.sec.timeAt (secTicks 60) then
    let t := s.modSec fun y => { y with timeAt := s.now }
    done s (if s.time.utcOk then s.cfg.nodes.foldl State.sendTime t else t).cacheChecks
  else done s s

/-- PASSBACK_FORGIVENESS (R349): the TO area's forgiveness time has elapsed since the credential entered; 0 never. -/
def execPassbackForgiveness (idx : BitVec 20) (s : State) : Host.Outcome State Fault Refusal :=
  match sfind s.sec.locs idx.toNat with
  | none => done s s
  | some (area, t) =>
    if s.cfg.doors.any fun c => c.toArea == area && c.forgive != 0 && t + 960000 * c.forgive ≤ s.now then
      done s (s.modSec fun y => { y with locs := sdel y.locs idx.toNat })
    else done s s

/-- CREDENTIAL_LOCKOUT_END (R332): the slot accepts attempts again. -/
def execCredentialLockoutEnd (slot : Fin 65) (s : State) : Host.Outcome State Fault Refusal :=
  let x := sget {} s.sec.creds slot.val
  if x.locked && s.due x.lockedAt (secTicks 60) then
    done s (s.modSec fun y => { y with creds := sput y.creds slot.val { x with locked := false, refusals := 0 } })
  else done s s

/-- UNLOCK_TIME_EXPIRY (02 R41): the unlock time has run out; the door relocks, or it is held open. -/
def execUnlockTimeExpiry (door : BitVec 11) (s : State) : Host.Outcome State Fault Refusal :=
  match s.doorCfg? door.toNat, (s.door door.toNat).lockAt with
  | some c, some t =>
    if t ≤ s.now then done s (s.stepDoor c { s.door door.toNat with unlocked := false, lockAt := none }) else done s s
  | _, _ => done s s

/-- FLOOR_VALIDITY_EXPIRY (R350): the station's floor set ends. -/
def execFloorValidityExpiry (station : Byte) (s : State) : Host.Outcome State Fault Refusal :=
  match s.stationCfg? station.toNat with
  | some c =>
    if sget 0 s.sec.stations c.station = 1 && s.due (sget 0 s.sec.floorsTill c.station) 0 then
      done s ((s.modSec fun y => { y with stations := sput y.stations c.station 0 }).showStation c)
    else done s s
  | none => done s s

/-! ### Nodes (R347, R348) -/

/-- The flags of bytes, bit 0 first. -/
def byteBits (l : List Byte) : List Bool := l.flatMap fun b => (List.range 8).map fun i => b.getLsbD i
/-- The 16 schedules of 84 bytes. -/
def schedsOf : Nat → List Byte → List (List Bool)
  | 0, _ => []
  | n + 1, l => byteBits (l.take 84) :: schedsOf n (l.drop 84)
/-- The entries of 16 bytes. -/
def entriesOf : Nat → List Byte → List CacheEntry
  | 0, _ => []
  | n + 1, l =>
    { cid := BitVec.ofNat 64 (ofLe (l.take 8)), untilT := w32 (ofLe ((l.drop 8).take 4)), sched := l.getD 12 0xFF
      cardPin := l.getD 13 0 != 0 } :: entriesOf n (l.drop 16)

/-- A CACHE chunk arrives: a chunk of another version discards an incomplete one, and the node switches when every chunk of a
version is there. -/
def Node.takeChunk (n : Node) (version k chunks : Nat) (data : List Byte) : Node :=
  let n := if n.loadVer = version && n.loadN = chunks then n else { n with loadVer := version, loadN := chunks, loadData := [] }
  let m := if k < chunks then sput n.loadData k data else n.loadData
  if 7 ≤ chunks && m.length = chunks then
    let e := (m.filter fun x => 7 ≤ x.1).flatMap (·.2)
    { n with
      cacheVer := version, cacheSched := schedsOf 16 ((m.filter fun x => x.1 < 7).flatMap (·.2)), cache := entriesOf (e.length / 16) e
      loadVer := 0, loadN := 0, loadData := [] }
  else { n with loadData := m }

/-- What a secured node does with an inner message. -/
def Node.inner (n : Node) (uid : Uid) : Inner → Node
  | .decide d => if d.unlock then { n with unlocked := d.time } else if d.reason = 0 then { n with unlocked := 0 } else n
  | .cache v k c data => n.takeChunk v k c data
  | .time ms off => { n with clockMs := some ms, offset := off }
  | .floors _ _ m => { n with floors := m, absent := false }
  | .rekey g k => { n with kgen := g, prevOk := true, key := some k, prevKey := n.key }
  | .command seq op args =>
    if n.lastSeq == some seq then n.send n.lastResp
    else
      let (m, st, data) := n.act uid op args
      { m with lastSeq := some seq, lastResp := .response seq op st data }.send (.response seq op st data)
  | _ => n

/-- NODE_SECURE_RX (R347, 03 R51): a node that discards a frame changes nothing. -/
def execNodeSecureRx (uid : Uid) (dst : Byte) (f : SecureFrame) (s : State) : Host.Outcome State Fault Refusal :=
  done s (s.modLeaf uid fun n =>
    if n.takes dst && secureOk n.kgen n.prevOk n.ctrIn f.kgen f.ctr
        (tagOk (keyFor n.kgen n.prevOk n.key n.prevKey f.kgen) uid dst 0 0 f) then
      { n with ctrIn := f.ctr, prevOk := n.prevOk && f.kgen != n.kgen }.inner uid f.inner
    else n)

/-- Does a cache entry admit at a time of the node's clock? Without a clock only an entry without limits does. -/
def CacheEntry.passes (e : CacheEntry) (scheds : List (List Bool)) (clock : Option Nat) (offset : Int) (method : Byte) : Bool :=
  (!e.cardPin || method == 2)
  && match clock with
    | none => e.untilT == 0xFFFFFFFF && e.sched == 0xFF
    | some ms => (e.untilT == 0xFFFFFFFF || ms / 1000 ≤ e.untilT.toNat)
      && (e.sched == 0xFF || (scheds.getD e.sched.toNat []).getD (weekMinute ms offset / 15) false)

/-- OFFLINE_DECISION (R348): a door node in fallback decides from its cache by its own clock, whose advance since its last
TIME is a free value, and keeps the decision, up to 256. The unlock time at the node is a free value. -/
def execOfflineDecision (uid : Uid) (reader method : Byte) (cid : Uid) (s : State) : Host.Outcome State Fault Refusal :=
  match s.node? uid with
  | none => done s s
  | some n =>
    if n.cls == 5 && n.mode == .fallback then
      let (ahead, t) := s.draw
      let (time, t) := t.draw
      let clock := n.clockMs.map (· + ahead)
      let ok := n.cache.any fun e => e.cid == cid && e.passes n.cacheSched clock n.offset method
      done s (t.setNode uid { n with
        clockMs := clock, unlocked := if ok then time else n.unlocked
        offlineQ := if n.offlineQ.length < 256 then n.offlineQ ++ [(cid, clock.getD 0, ok, reader)] else n.offlineQ })
    else done s s

end Sys2Proof.Machine
end

