-- ==== Sys2Proof/Machine/Clock.lean ====
section
/-! DEFINITION. Time keeping: the calendar, the RTC, UTC and its sources (16). -/
namespace Sys2Proof.Machine

/-! ### The calendar (16 R356) -/

/-- Days of a month; every year divisible by 4 is a leap year. -/
def monthDays (y m : Nat) : Nat :=
  if m = 2 then (if y % 4 = 0 then 29 else 28) else if m = 4 || m = 6 || m = 9 || m = 11 then 30 else 31
/-- Days of the year before a month. -/
def daysBefore (y : Nat) : Nat → Nat
  | 0 => 0
  | m + 1 => if m = 0 then 0 else daysBefore y m + monthDays y m
/-- Days from 2000-01-01. -/
def calDays (c : Calendar) : Nat := 365 * c.year + (c.year + 3) / 4 + daysBefore c.year c.mon + (c.day - 1)
/-- Milliseconds since 2000-01-01 00:00:00 UTC. -/
def calMs (c : Calendar) : Nat := 1000 * (86400 * calDays c + 3600 * c.hour + 60 * c.min + c.sec) + c.msec
/-- Month and day from the day of a year, months tried from `m` on. -/
def monthOf (y : Nat) : Nat → Nat → Nat → Nat × Nat
  | 0, m, d => (m, d + 1)
  | f + 1, m, d => if d < monthDays y m then (m, d + 1) else monthOf y f (m + 1) (d - monthDays y m)
/-- The calendar of a number of ms, within the century. -/
def calOf (ms : Nat) : Calendar :=
  let days := ms / 86400000 % 36525
  let r := days % 1461
  let y := 4 * (days / 1461) + (if r < 366 then 0 else 1 + (r - 366) / 365)
  let d := if r < 366 then r else (r - 366) % 365
  let (mo, da) := monthOf y 11 1 d
  { msec := ms % 1000, sec := ms / 1000 % 60, min := ms / 60000 % 60, hour := ms / 3600000 % 24, day := da, mon := mo, year := y }
/-- 1 for Monday to 7 for Sunday; 2000-01-01 was a Saturday. -/
def weekday (c : Calendar) : Nat := (calDays c + 5) % 7 + 1
/-- The date exists and every field is in range (R358). -/
def calOk (c : Calendar) : Bool :=
  c.msec ≤ 999 && c.sec ≤ 59 && c.min ≤ 59 && c.hour ≤ 23 && 1 ≤ c.mon && c.mon ≤ 12 && 1 ≤ c.day
    && c.day ≤ monthDays c.year c.mon && c.year ≤ 99
/-- One second later, and whether the century wrapped. -/
def calNext (c : Calendar) : Calendar × Bool :=
  let n := calMs { c with msec := 0 } + 1000
  if 36525 * 86400000 ≤ n then (calOf 0, true) else (calOf n, false)

/-! ### RTC -/

/-- The pulses that the trim of a window adds in `n` crystal cycles from cycle `w` of the window on, spread evenly: N in 2^20,
skipped where ADD is clear (R359). -/
def trimPulses (trim : Bool × BitVec 10) (w : Int) (n : Nat) : Int :=
  let p := (w + n) * trim.2.toNat / 1048576 - w * trim.2.toNat / 1048576
  if trim.1 then p else -p
/-- Crystal cycles have been counted: the subsecond counter takes them as trimmed (R356, R359). What it holds beyond 32,767 is
carried by the RTC_SECOND that follows (log entry 9). -/
def Time.cycles (t : Time) (n : Nat) : Time := { t with sub := t.sub + n + trimPulses t.trimNow t.win n, win := t.win + n }

/-- RTC_MSEC: ⌊subsecond × 1,000 / 32,768⌋ of the 15-bit counter. -/
def State.rtcMsec (s : State) : Nat := min 32767 s.time.sub.toNat * 1000 / 32768
/-- The calendar as it stands. -/
def State.rtcCal (s : State) : Calendar := { s.time.cal with msec := s.rtcMsec }
/-- The subsecond counter that a value in ms sets: round(MSEC × 32,768 / 1,000) (R358). -/
def subOf (msec : Nat) : Nat := (msec * 32768 + 500) / 1000
/-- Set the calendar and the subsecond counter. -/
def State.putRtc (s : State) (c : Calendar) : State :=
  { s with time := { s.time with cal := { c with msec := 0 }, sub := subOf c.msec } }
/-- Exyan writes the RTC from UTC through its own path (R358, R362). -/
def State.writeRtc (s : State) (ms : Nat) : State := (s.putRtc (calOf ms)).modTime fun t => { t with valid := true }
def Time.irq (t : Time) (i : Nat) : Time := { t with irqStat := orBit t.irqStat i true }

/-! ### Sources (R361, R362) -/

/-- SOURCE as SNAP_STAT shows it. -/
def sourceBits : TimeSource → Nat
  | .ring => 0
  | .host => 1
  | .rtc => 2
  | .none => 3

/-- UTC is `ms` at the tick `at_`, from source `src` on; a change of source is an event with the old and the new source and the
step in ms, 64 bits. -/
def State.setUtcAt (s : State) (src : TimeSource) (ms : Nat) (at_ : Int) : State :=
  let old := s.time.source
  let t := s.modTime fun t => { t with source := src, utcOk := true, utcMs := ms, utcTick := at_, utcSeen := true }
  let step : BitVec 64 := if s.time.utcOk then BitVec.ofInt 64 ((t.utcNow : Int) - s.utcNow) else 0
  if old == src then t
  else (t.modTime fun t => t.irq 4).event 0 0 14 0 1
    [w32 (sourceBits old), w32 (sourceBits src), step.setWidth 32, (step >>> 32).setWidth 32]
/-- UTC steps to `ms` now. -/
def State.setUtc (s : State) (src : TimeSource) (ms : Nat) : State := s.setUtcAt src ms s.now

/-- Host-set time (R362): UTC steps, the RTC is written, event 14/0x0002. -/
def State.hostTime (s : State) (ms : Nat) : State := ((s.setUtc .host ms).writeRtc ms).event 0 0 14 0 2 []

/-- The local offset the system bytes store. -/
def State.setOffset (s : State) (o : Int) : State := s.modTime fun t => { t with offset := o }

/-- Superframes from a mapping's base to superframe N, by serial arithmetic (R361, 05 R100). -/
def ringSpan (u : UtcMap) (sfn : Nat) : Int := (BitVec.ofNat 48 sfn - BitVec.ofNat 48 u.baseSfn).toInt
/-- UTC by the ring's mapping: BASE_MS + (N − BASE_SFN) / 8 at the start of superframe N, which began at the last boundary; what
is left of a ms moves the tick at which that ms began (R361). -/
def State.ringUtc (s : State) (u : UtcMap) : State :=
  let d := ringSpan u s.trk.sfn
  s.setUtcAt .ring (u.baseMs + d / 8).toNat ((s.trk.lastSf.getD s.now : Int) - 2 * (d % 8))
/-- Ring time is to be in use: a time port, and a valid mapping received within the last 10 s (R361). -/
def State.ringHeld (s : State) : Bool :=
  s.trk.timePort.isSome && s.time.mapping.isSome && s.now < s.time.mapTick + secTicks 10
/-- Ring time comes into use where it is not: UTC steps to ring UTC, the RTC is written, and ATRIM's measurement begins (Table
16.4). -/
def State.ringEnter (s : State) : State :=
  match s.time.mapping with
  | none => s
  | some u =>
    if s.ringHeld && s.time.source != .ring then
      let t := s.ringUtc u
      (t.writeRtc t.utcNow).modTime fun t => { t with atrimFrom := none }
    else s

/-- A valid mapping was received: its offset replaces the stored one, and UTC follows it where ring time is in use (R361). -/
def State.ringMapping (s : State) (u : UtcMap) : State :=
  let s := s.modTime fun t => { t with mapping := some u, mapTick := s.now }
  let s := match u.offset with
    | some o => s.setOffset o
    | none => s
  if s.time.source == .ring && s.trk.timePort.isSome then s.ringUtc u else s.ringEnter

/-- Ring time is no longer in use: UTC continues from the tick without a step, source RTC. -/
def State.ringLoss (s : State) : State :=
  if s.time.source == .ring then s.setUtcAt .rtc s.time.utcMs s.time.utcTick else s

/-- The mapping that a master sends at a superframe start (R361): BASE_SFN, BASE_MS, OFFSET, SRC and FLAGS. -/
def State.utcMapBytes (s : State) : List Byte :=
  let src := match s.time.source with
    | .host => 1
    | .rtc => 2
    | _ => 0
  leBytes s.trk.sfn 6 ++ leBytes s.utcNow 6 ++ leBytes (BitVec.ofInt 16 s.time.offset).toNat 2 ++ leBytes src 1
    ++ leBytes (flag s.time.utcOk 0) 1

/-- Exyan starts: UTC from a valid RTC (Table 16.4, start). -/
def State.timeStart (s : State) : State :=
  let s := s.modTime fun t => { t with source := .none, utcOk := false, utcMs := 0, utcTick := s.now, mapping := none }
  if s.time.valid then s.setUtc .rtc (calMs s.rtcCal) else s

/-! ### Register operations (16 Table 16.6) -/

/-- The staged calendar: RTC_W_MSEC to RTC_W_YEAR. -/
def Time.stagedCal (t : Time) : Calendar :=
  let g (i : Nat) := (sget 0 t.staged i).toNat
  { msec := g 0, sec := g 1, min := g 2, hour := g 3, day := g 4, mon := g 5, year := g 6 }

/-- COMMIT (R358): ignored while PEND is 1; refused for a date that does not exist or while ring time is in use. -/
def State.rtcCommit (s : State) : State :=
  let t := s.time
  if t.pend then s
  else if !calOk t.stagedCal then s.modTime fun t => { t with wErr := 1 }.irq 2
  else if s.ringInUse then s.modTime fun t => { t with wErr := 2 }.irq 2
  else s.modTime fun t => { t with wErr := 0, pend := true, pendCal := t.stagedCal }

/-- RTC_TRIM: N and ADD from the next window, and ATRIM clears (R359). -/
def Time.setTrim (t : Time) (add : Bool) (n : BitVec 10) : Time := { t with trimAdd := add, trimN := n, atrim := false }

/-- A read of RTC_MSEC freezes the calendar registers (R357). -/
def State.rtcFreeze (s : State) : State :=
  s.modTime fun t => { t with frozen := true, frozenAt := s.rtcCal, frozenWd := weekday s.time.cal }
/-- The calendar registers as a read sees them. -/
def State.rtcView (s : State) : Calendar × Nat :=
  if s.time.frozen then (s.time.frozenAt, s.time.frozenWd) else (s.rtcCal, weekday s.time.cal)

/-- The 16 system bytes (16 Table 16.3). -/
def State.sysBytes (s : State) : List Byte :=
  let v := (match s.sec.vault with
    | .empty => 0
    | .provisioned => 1
    | .cleared => 2
    | .lost => 3) + 16 * s.sec.cause
  [s.su.incomplete, s.su.reason] ++ leBytes v 1 ++ leBytes s.sec.provSeq 1
    ++ leBytes (BitVec.ofInt 16 s.time.offset).toNat 2
    ++ leBytes (flag s.su.bootSlot 0 + flag s.su.trial 1 + 4 * s.su.attempts) 1 ++ leBytes (flag s.time.utcSeen 0) 1 ++ leBytes 0 8

/-! ### Meanings -/

/-- RTC_SECOND (R356): the subsecond counter overflows and the calendar advances by one second; after 2099 it continues at 2000
and sets WRAP. -/
def execRtcSecond (s : State) : Host.Outcome State Fault Refusal :=
  let (c, w) := calNext s.time.cal
  done s { s with time := { s.time with cal := c, sub := s.time.sub - 32768, wrap := s.time.wrap || w } }

/-- RTC_FREEZE_TIMEOUT (R357). -/
def execRtcFreezeTimeout (s : State) : Host.Outcome State Fault Refusal :=
  if s.time.frozen then done s (s.modTime fun t => { t with frozen := false }.irq 0) else done s s

/-- RTC_COMMIT_DONE (R358, R362): the staged calendar takes effect and acts as host-set time, unless ring time has come into
use since, which ranks before it. -/
def execRtcCommitDone (s : State) : Host.Outcome State Fault Refusal :=
  if s.time.pend then
    let c := s.time.pendCal
    let t := (s.putRtc c).modTime fun t => { t with pend := false, valid := true, wrap := false }.irq 1
    done s ((if t.ringInUse then t else t.setUtc .host (calMs c)).event 0 0 14 0 2 [])
  else done s s

/-- ATRIM's measurement at a window start (R360): it begins at the first one with ATRIM set and ring time in use, and counts the
windows that follow. -/
def Time.measure (t : Time) (ring : Bool) (now : Nat) : Option (Nat × Nat × Nat) :=
  if !(t.atrim && ring) then none
  else match t.atrimFrom with
    | none => some (now, now, 0)
    | some (a, _, n) => some (a, now, n + 1)
/-- RTC_TRIM_WINDOW (R359, R360): 2^20 crystal cycles are over, and a window starts under the N and ADD written. -/
def execRtcTrimWindow (s : State) : Host.Outcome State Fault Refusal :=
  done s (s.modTime fun t => { t with
    trimNow := (t.trimAdd, t.trimN), win := t.win - 1048576, atrimFrom := t.measure s.ringInUse s.now })

/-- The rate error of the crystal, in 0.01 ppm, over `n` windows of 32 s that took `d` ticks; positive when the RTC runs fast
(R360). -/
def rateError (n d : Nat) : Int := roundDiv (100000000 * ((512000 * n : Int) - d)) d

/-- RTC_ATRIM_MEASURE (R360): 32 windows are over: N = round(|e| / 0.954), limited to 1,023, ADD when the RTC runs slow. The
error is that of the crystal, without the trim in force (DEDUCED, log entry 64). -/
def execRtcAtrimMeasure (s : State) : Host.Outcome State Fault Refusal :=
  match s.time.atrimFrom with
  | none => done s s
  | some (a, b, n) =>
    if s.time.atrim && s.ringInUse && 32 ≤ n && a < b then
      let e := rateError n (b - a)
      done s (s.modTime fun t => { t with
        atrimFrom := some (b, b, 0), trimErr := BitVec.ofInt 24 e, trimAdd := e < 0
        trimN := BitVec.ofNat 10 (min 1023 (roundDiv (10 * e.natAbs) 954).toNat) })
    else done s s

/-- RTC_SYNC_CHECK (R362): under ring or host time the RTC is written when it differs by more than 2 ms. -/
def execRtcSyncCheck (s : State) : Host.Outcome State Fault Refusal :=
  if !s.due s.time.syncAt (secTicks 60) then done s s
  else
    let t := s.modTime fun t => { t with syncAt := s.now }
    if (s.time.source == .ring || s.time.source == .host) && 2 < ((calMs s.rtcCal : Int) - s.utcNow).natAbs then
      done s (t.writeRtc s.utcNow)
    else done s t

/-- RING_TIME_LOSS (R361, R362): no valid mapping within 10 s, or no time port. -/
def execRingTimeLoss (s : State) : Host.Outcome State Fault Refusal :=
  if s.trk.timePort.isNone || s.time.mapTick + secTicks 10 ≤ s.now then done s s.ringLoss else done s s

/-- VBAT_LOW_DETECT (R354). -/
def execVbatLowDetect (s : State) : Host.Outcome State Fault Refusal :=
  if s.su.vinGood then done s (s.modTime fun t => { t with vbatLow := true }.irq 3) else done s s

/-- VBAT_RESTORED (R354): VBAT_LOW shows VBAT below 2.5 V, so it clears. -/
def execVbatRestored (s : State) : Host.Outcome State Fault Refusal :=
  done s (s.modTime fun t => { t with vbatLow := false })

end Sys2Proof.Machine
end

