-- ==== Sys2Proof/Machine/TrunkPort.lean ====
section
/-! DEFINITION. Trunk ports: counters, gates, lane alignment, frames, wrap, ring time and training (05, 17 R371). -/
namespace Sys2Proof.Machine

/-! ### Counters (05 Table 05.8): index i at 0x200 + 4 × i -/

abbrev kTxFrames := 0
abbrev kTxOctets := 1
abbrev kRxFrames := 2
abbrev kRxOctets := 3
abbrev kRxLen := 4
abbrev kHdrErr := 8
abbrev kPayErr := 9
abbrev kFecCw := 10
abbrev kFecSym := 11
abbrev kFecUncorr := 12
abbrev kTxUnderrun := 13
abbrev kRxOverrun := 14
abbrev kGateOvr := 15
abbrev kAborted := 16
abbrev kTxXlate := 17
abbrev kRxXlate := 18
abbrev kHopDrop := 19
abbrev kStripped := 20
abbrev kHuntFull := 21
abbrev kFawMiss := 22
abbrev kLockLoss := 23

def TrkPort.irq (x : TrkPort) (i : Nat) : TrkPort := { x with irqStat := orBit x.irqStat i true }
/-- Advance a counter by `n`, with its half-range bit (03 R65). -/
def TrkPort.count (x : TrkPort) (i n : Nat) : TrkPort :=
  let old := sget 0 x.ctr i
  let new := addW old n
  let x := { x with ctr := sput x.ctr i new, fecs := if i = kFecCw then x.fecs + n else x.fecs }
  if !old.msb && new.msb then { x with half := orBit x.half i true }.irq 0 else x
def TrkPort.countClass (x : TrkPort) (c : Nat) : TrkPort :=
  let old := sget 0 x.rxClass c
  let new := addW old 1
  let x := { x with rxClass := sput x.rxClass c new }
  if !old.msb && new.msb then { x with halfClass := orBit x.halfClass c true }.irq 0 else x

/-- Octets of a frame: header, payload and its CRC; its words with padding and an idle word (05 R105). -/
def trkOctets (f : TrkFrame) : Nat := 16 + f.len + (if f.len = 0 then 0 else 4)
def trkWords (f : TrkFrame) : Nat := (trkOctets f + 7) / 8 + 1
/-- Count a frame accepted or relayed. -/
def TrkPort.countRx (x : TrkPort) (f : TrkFrame) : TrkPort :=
  let b := if f.len ≤ 64 then 0 else if f.len ≤ 512 then 1 else if f.len ≤ 2048 then 2 else 3
  ((x.count kRxFrames 1).count kRxOctets (trkOctets f)).count (kRxLen + b) 1

/-- The module ID in effect; 255 until a configuration is loaded (17 R372). -/
def State.ownId (s : State) : Byte := if s.host.cfgOk then s.cfg.moduleId else 0xFF

/-! ### Gates (05 R109, R120) -/

def trkGclAt (m : Map TrkEntry) (e : Nat) : TrkEntry := sget {} m e
def trkGclList (m : Map TrkEntry) (n : Nat) : List TrkEntry := (List.range n).map (trkGclAt m)

/-- The ERR code of a trunk GCL, 0 when accepted: the entry count first, then the codes of Table 05.9 in R53's order of kind
(DESIGN CHOICE where several apply: count, duration, queue, sum). -/
def trkGclErr (n : Nat) (l : List TrkEntry) : Nat :=
  if n = 0 || 256 < n then 4
  else if l.any fun (e : TrkEntry) => e.duration.toNat < 2 then 3
  else if (List.range 8).any fun q => !l.any fun (e : TrkEntry) => e.gates.getLsbD q && 1156 ≤ e.duration.toNat then 2
  else if sumNat (l.map fun (e : TrkEntry) => e.duration.toNat) != 206869 then 1
  else 0

/-- The entries in use: as many as the swap of the bank took (log entry 31). -/
def TrkPort.gcl (x : TrkPort) : List TrkEntry := trkGclList (if x.active then x.gclB else x.gclA) x.nEff

/-- Request a swap, checked at the request. -/
def TrkPort.requestSwap (x : TrkPort) (now : Nat) : TrkPort :=
  let (m, n) := if x.active then (x.gclA, x.nA) else (x.gclB, x.nB)
  let e := trkGclErr n (trkGclList m n)
  if e = 0 then { x with pending := true, swapTick := now }
  else { x with pending := false, gclErr := true, err := BitVec.ofNat 3 e }.irq 6

/-- A pending swap takes effect at a superframe start of a later tick (Table 05.7). -/
def State.takeTrkSwap (s : State) (t : TrunkPort) : State :=
  let x := s.tport t
  if x.pending && x.swapTick < s.now then
    (s.setTport t ({ x with
      active := !x.active, pending := false, gclErr := false, err := 0, swapReq := none
      nEff := if x.active then x.nA else x.nB }.irq 5)).finish? x.swapReq {}
  else s

/-! ### Queues (05 R107, R108, Table 05.5) -/

/-- The queue of a class. -/
def classQueue : Nat → Nat
  | 0 => 7
  | 1 => 6
  | 2 => 5
  | 3 => 3
  | 4 => 4
  | 5 => 1
  | 6 => 2
  | _ => 0

/-- Put a frame on a port's queue: a relayed frame goes ahead of the local frames of its class. -/
def TrkPort.push (x : TrkPort) (f : TrkOut) : TrkPort :=
  { x with queues := supd [] x.queues (classQueue f.frame.cls) fun l =>
      if f.relayed then l.takeWhile (·.relayed) ++ [f] ++ l.dropWhile (·.relayed) else l ++ [f] }

/-- Frames leave by port `t`; a wrapped port turns them back out of the other one (R113), as it does for those it holds. -/
def State.sendBy (s : State) (t : TrunkPort) (f : TrkOut) : State :=
  let t := if (s.tport t).wrapped then !t else t
  s.modTport t fun x => x.push f

/-- Hops to a station by a port, following the ring map from neighbour to neighbour. -/
def hopsBy (m : Map Topology) (dst : Byte) (viaB : Bool) : Nat → Nat → Byte → Option Nat
  | 0, _, _ => none
  | f + 1, n, at_ =>
    if at_ == 255 then none
    else if at_ == dst then some n
    else match sfind m at_.toNat with
      | none => none
      | some t => hopsBy m dst viaB f (n + 1) (if viaB then t.neighB else t.neighA)
/-- The port with fewer hops to a known destination; port A when equal or unknown (R112). -/
def State.routePort (s : State) (dst : Byte) : TrunkPort :=
  match hopsBy s.trk.ringMap dst false 256 1 s.trk.a.neigh, hopsBy s.trk.ringMap dst true 256 1 s.trk.b.neigh with
  | some a, some b => b < a
  | none, some _ => true
  | _, _ => false

/-- The next SEQ of a class. -/
def State.nextSeq (s : State) (c : Nat) : Nat × State :=
  let n := sget 0 s.trk.txSeq c
  (n, s.modTrk fun t => { t with txSeq := sput t.txSeq c ((n + 1) % 65536) })

/-- The ring is closed: both ports are up and no port is wrapped, here or on the ring map, on which the way out of port A leads
back to this station. -/
def State.ringClosed (s : State) : Bool :=
  s.trk.a.up && s.trk.b.up && !s.trk.a.wrapped && !s.trk.b.wrapped && s.trk.ringMap.all (fun e => !e.2.wrapped)
    && (hopsBy s.trk.ringMap s.ownId false 256 1 s.trk.a.neigh).isSome

/-- A broadcast leaves by port A on a closed ring and by both ports on a chain (R112); at the end of a chain the wrapped port
would only turn it back. -/
def State.sendAll (s : State) (f : TrkOut) : State :=
  if s.ringClosed then s.modTport false fun x => x.push f
  else
    let s := if s.trk.a.wrapped then s else s.modTport false fun x => x.push f
    if s.trk.b.wrapped then s else s.modTport true fun x => x.push f

/-- Send a frame of this module: relay-only mode sends class 0 only (R114). A station without a module ID sends no frame: SRC is
0 to 254 (Table 05.4; DESIGN CHOICE, log entry 38). -/
def State.trkSend (s : State) (dst : Byte) (cls : Nat) (tenant : Tenant) (len : Nat) (body : List Byte := []) : State :=
  if s.ownId == 0xFF || (s.trk.relayOnly && cls != 0) then s
  else
    let (n, s) := s.nextSeq cls
    let f : TrkOut := {
      frame := { dst := dst, src := s.ownId, cls := cls, tenant := tenant, len := len, seq := n }, body := body }
    if dst == 255 then s.sendAll f else s.sendBy (s.routePort dst) f

/-- Data in frames of at most 9,216 bytes. -/
def State.sendParts (s : State) (dst : Byte) (cls : Nat) (tenant : Tenant) : Nat → List Byte → State
  | 0, _ => s
  | n + 1, l =>
    let s := s.trkSend dst cls tenant (l.take 9216).length (l.take 9216)
    if (l.drop 9216).isEmpty then s else s.sendParts dst cls tenant n (l.drop 9216)
/-- What the engines have handed over goes out: to the crown, and a replica to the neighbour of port A, or of port B where A has
none (Table 05.5; DESIGN CHOICE, log entry 38: the spec does not say which neighbour). -/
def State.sendOutbox (s : State) : State :=
  let near := if s.trk.a.neigh == 0xFF then s.trk.b.neigh else s.trk.a.neigh
  s.outbox.foldl (fun s (e : TrkData) =>
    if e.cls == 5 && near == 0xFF then s
    else s.sendParts (if e.cls == 5 then near else 0) e.cls e.tenant (e.data.length / 9216 + 1) e.data)
    { s with outbox := [] }

/-- The payload of a topology broadcast: ID, neighbours, wrap state, serial number and TOPO_SEQ (R112, R114; the layout and the
length are a DESIGN CHOICE, log entry 38). -/
def State.topoBytes (s : State) : List Byte :=
  [s.ownId, s.trk.a.neigh, s.trk.b.neigh]
    ++ leBytes (flag (s.trk.a.wrapped || s.trk.b.wrapped) 0 + flag s.trk.relayOnly 1 + flag s.trk.dupId 2) 1
    ++ leBytes s.host.serial.toNat 8 ++ leBytes s.trk.topoSeq.toNat 4
/-- A topology broadcast: TOPO_SEQ advances (R112). -/
def State.topoBroadcast (s : State) : State :=
  if s.ownId == 0xFF then s
  else
    let s := s.modTrk fun t => { t with topoSeq := addW t.topoSeq 1 }
    s.trkSend 255 0 0 16 s.topoBytes

/-- Serve one gate window of `words` words: the highest open queue whose head fits, until none fits; a head that does not fit
is held and counted once per hold (R109). -/
def TrkPort.serveOnce (x : TrkPort) (gates : Byte) (words : Nat) : Nat → Option (TrkPort × Nat) × TrkPort
  | 0 => (none, x)
  | q + 1 =>
    if gates.getLsbD q then
      match sget [] x.queues q with
      | [] => x.serveOnce gates words q
      | f :: l =>
        if trkWords f.frame ≤ words then
          (some ({ x with queues := sput x.queues q l, air := x.air ++ [f] }, words - trkWords f.frame), x)
        else
          let y := if f.held then x
            else { x with queues := sput x.queues q ({ f with held := true } :: l) }.count kGateOvr 1
          y.serveOnce gates words q
    else x.serveOnce gates words q
def TrkPort.serveEntry (x : TrkPort) (gates : Byte) : Nat → Nat → TrkPort
  | 0, _ => x
  | f + 1, words => match x.serveOnce gates words 8 with
    | (some (y, w), _) => y.serveEntry gates f w
    | (none, y) => y
def TrkPort.serveAll (x : TrkPort) : List TrkEntry → TrkPort
  | [] => x
  | e :: l =>
    let x := { x with queues := smap x.queues fun _ fs => fs.map fun (f : TrkOut) => { f with held := false } }
    (x.serveEntry e.gates (sumNat (x.queues.map fun q => q.2.length)) e.duration.toNat).serveAll l
/-- The frames of the superframe that is over have left, and are counted (03 R67). -/
def TrkPort.landed (x : TrkPort) : TrkPort :=
  { x.air.foldl (fun x f => (x.count kTxFrames 1).count kTxOctets (trkOctets f.frame)) x with air := [] }
/-- What a port that is up sends in a superframe; in FC-1 mode every queue is open throughout (R110). -/
def TrkPort.superframe (x : TrkPort) : TrkPort :=
  let x := x.landed
  if x.up then x.serveAll (if x.mode then [⟨206869, 0xFF⟩] else x.gcl) else x

/-- The header that this station sends by port `t` (Table 05.2); SRC_ID is 255 until a configuration is loaded (17 R372). -/
def State.ownHeader (s : State) (t : TrunkPort) : TrkHeader :=
  let m := (s.tport t).ownMeas.getD (0, 0)
  { sfn := s.trk.sfn, srcId := s.ownId, wrapped := s.trk.a.wrapped || s.trk.b.wrapped, relayOnly := s.trk.relayOnly
    dupId := s.trk.dupId, farId := (s.tport (!t)).neigh, tmPrio := s.trk.tmPrio, tmId := s.trk.tmId, tmHops := s.trk.tmHops
    tmValid := s.trk.tmValid, tmSeq := s.trk.tmSeq, meas := m.1, measSfn := m.2, topoSeq := s.trk.topoSeq.toNat }
/-- Bytes 8 to 59 of the header on a lane (Table 05.2). -/
def headerBytes (t : TrunkPort) (lane : Nat) (h : TrkHeader) : List Byte :=
  leBytes h.sfn 6 ++ leBytes lane 1 ++ [h.srcId]
    ++ leBytes (flag t 0 + flag h.wrapped 1 + flag h.relayOnly 2 + flag h.dupId 3) 1 ++ [h.farId, h.tmPrio, h.tmId]
    ++ leBytes h.tmHops 1 ++ leBytes (flag h.tmValid 0) 1 ++ leBytes h.tmSeq 2 ++ leBytes (BitVec.ofInt 32 h.meas).toNat 4
    ++ leBytes h.measSfn 2 ++ leBytes h.topoSeq 4 ++ List.replicate 26 0

/-! ### Wrap (05 R113) -/

def State.trkEvent (s : State) (t : TrunkPort) (code : Nat) (data : List Word) : State :=
  s.event 0 (bit t) 4 (bit t) code data

/-- Does a port's neighbour still reach the known master? -/
def State.portReaches (s : State) (t : TrunkPort) : Bool :=
  let x := s.tport t
  x.up && x.advValid && x.advId == s.trk.tmId && x.advPrio == s.trk.tmPrio && x.advHops < 254

/-- The port time is taken from: the lower TM_HOPS, port A when equal; none while this station is the master (R116). -/
def State.pickTimePort (s : State) : Option TrunkPort :=
  if s.trk.tmHops = 0 then none
  else match s.portReaches false, s.portReaches true with
    | true, true => some (s.trk.b.advHops < s.trk.a.advHops)
    | true, false => some false
    | false, true => some true
    | false, false => none

/-- The time port, chosen anew (R116). -/
def State.retime (s : State) : State := s.modTrk fun k => { k with timePort := s.pickTimePort }

/-- Wrap a port: what waits in its queues is turned back out of the other one, relayed frames first, and a topology broadcast
tells of it (R107, R113). -/
def State.wrap (s : State) (t : TrunkPort) : State :=
  let l := (s.tport t).queues.flatMap fun e => e.2
  let s := s.modTport t fun x => { x with wrapped := true, queues := [] }.irq 3
  (l.foldl (fun s (f : TrkOut) => s.sendBy t { f with held := false }) s).topoBroadcast

/-- Both lanes begin to train at a tick. -/
def freshLanes (now : Nat) : Map LaneSt := [(0, { trainAt := now }), (1, { trainAt := now })]

/-- A link fault (R113, Table 05.7): frames in flight are lost, not counted, a MEAS exchange is discarded, the port is
wrapped, and the time port is handed over. -/
def State.linkFault (s : State) (t : TrunkPort) : State :=
  let x := s.tport t
  if x.wrapped && !x.up then s
  else
    let s := s.setTport t ({ x with
      up := false, upCount := 0, neigh := 0xFF, advValid := false, ownMeas := none, air := []
      lanes := smap x.lanes fun _ l => { l with training := true, rxReady := false, ready := 0, trainAt := s.now } }.irq 1)
    ((s.wrap t).trkEvent t 1 []).retime

/-! ### Ring time (05 R115, R116) -/

/-- This station advertises itself. -/
def State.advertiseSelf (s : State) : State :=
  s.modTrk fun t => { t with tmPrio := t.prio, tmId := s.ownId, tmHops := 0, tmValid := true, tmIdle := 0, timePort := none }
/-- It can be master: it has a module ID and is not in relay-only mode, in which it sends class 0 only (R114). -/
def State.canLead (s : State) : Bool := s.ownId != 0xFF && !s.trk.relayOnly

/-- The known master changed: event 4/0x0004 and TM_CHG on both ports. -/
def State.tmChanged (s : State) (old : Byte) : State :=
  if s.trk.tmId == old then s
  else ((s.modTport false (·.irq 4)).modTport true (·.irq 4)).trkEvent false 4 [w32 s.trk.tmId.toNat]

/-- One master is better than another: the lower priority value, then the lower ID. -/
def advBetter (prio id prio' id' : Byte) : Bool := prio.toNat < prio'.toNat || (prio == prio' && id.toNat < id'.toNat)

/-- A station that knows no master, or none as good as itself, advertises itself; the master advertises the priority that it has
(R115). -/
def State.weighSelf (s : State) : State :=
  if s.canLead && (!s.trk.tmValid || advBetter s.trk.prio s.ownId s.trk.tmPrio s.trk.tmId) then
    s.advertiseSelf.tmChanged s.trk.tmId
  else if s.trk.tmValid && s.trk.tmHops == 0 && s.trk.tmId == s.ownId then s.modTrk fun t => { t with tmPrio := t.prio }
  else s
/-- Discard the master, and advertise this station where it can lead (R115). -/
def State.dropMaster (s : State) : State :=
  if s.canLead then s.advertiseSelf.tmChanged s.trk.tmId
  else s.modTrk fun t => { t with tmPrio := 0, tmId := 0, tmHops := 0, tmValid := false, tmIdle := 0, timePort := none }

/-- Take in the advertisement of a header (R115); one of this station itself is not another's. -/
def State.advert (s : State) (h : TrkHeader) : State :=
  let old := s.trk.tmId
  if !h.tmValid || 254 ≤ h.tmHops || h.tmId == s.ownId then s
  else if !s.trk.tmValid || advBetter h.tmPrio h.tmId s.trk.tmPrio s.trk.tmId then
    (s.modTrk fun t => { t with
      tmPrio := h.tmPrio, tmId := h.tmId, tmHops := h.tmHops + 1, tmValid := true, tmSeq := h.tmSeq, tmIdle := 0 }).tmChanged old
  else if h.tmId == s.trk.tmId && h.tmPrio == s.trk.tmPrio && s.trk.tmHops != 0 then
    s.modTrk fun t =>
      let new := 0 < (h.tmSeq + 65536 - t.tmSeq) % 65536 && (h.tmSeq + 65536 - t.tmSeq) % 65536 < 32768
      { t with tmSeq := if new then h.tmSeq else t.tmSeq, tmIdle := if new then 0 else t.tmIdle
               tmHops := if new then h.tmHops + 1 else min t.tmHops (h.tmHops + 1) }
  else s

/-! ### Lanes (05 R101, R102) -/

def TrkPort.lane (x : TrkPort) (l : Nat) : LaneSt := sget {} x.lanes l
def TrkPort.setLane (x : TrkPort) (l : Nat) (y : LaneSt) : TrkPort := { x with lanes := sput x.lanes l y }

/-- A candidate qualifies: the other lane is in LOCK and has received a header of the same SFN within 64 ns (R102). -/
def qualifies (other : LaneSt) (c : Candidate) : Bool :=
  other.mode == .lock && other.miss == 0 && c.sfn == some other.sfn && ((c.arrival : Int) - other.arrival).natAbs ≤ 64

/-- Candidates with their third hit are judged once none other stands at two hits: one alone locks; of several, the only one
that qualifies; otherwise all are discarded. -/
def LaneSt.settle (l other : LaneSt) : LaneSt :=
  let full := l.cands.filter fun c => 3 ≤ c.hits
  let lockOn (c : Candidate) : LaneSt :=
    { l with mode := .lock, cands := [], pos := c.pos, miss := 0, sfn := c.sfn.getD 0, arrival := c.arrival }
  match full with
  | [] => { l with mode := if l.cands.any fun c => c.sfn.isSome then .presync else .hunt }
  | [c] => if l.cands.any fun c => c.hits == 2 then { l with mode := .presync } else lockOn c
  | _ =>
    if l.cands.any fun c => c.hits == 2 then { l with mode := .presync }
    else match full.filter (qualifies other) with
      | [c] => lockOn c
      | _ => { l with mode := .hunt, cands := [] }

/-- The judgement of a candidate at its expected position: the first recurrence needs no SFN condition. -/
def judgeCand (c : Candidate) (hdr : Option (Nat × Nat)) : Option Candidate :=
  match hdr with
  | none => none
  | some (n, arr) =>
    match c.sfn with
    | none => some { c with sfn := some n, arrival := arr }
    | some m => if n = (m + 1) % 2 ^ 48 then some { c with sfn := some n, arrival := arr, hits := c.hits + 1 } else none

/-- The port goes down: what depends on it is given up (R116). -/
def State.portDown (s : State) (t : TrunkPort) (x : TrkPort) : State :=
  (s.setTport t { x with up := false, upCount := 0, advValid := false, ownMeas := none }).retime

/-- A link fault has the lane train again, and it has not done so yet (R113, 17 R371). -/
def LaneSt.faulted (l : LaneSt) : Bool := 3 ≤ l.miss || l.training

/-- The port's lanes agree: PORT_UP, DESKEW_ERR and TRK_SKEW (R102). A fault on either lane faults the whole port (R113). -/
def State.evalPort (s : State) (t : TrunkPort) : State :=
  let x := s.tport t
  let a := x.lane 0
  let b := x.lane 1
  if a.mode == .lock && b.mode == .lock && a.sfn == b.sfn && !a.faulted && !b.faulted then
    let skew : Int := (b.arrival : Int) - a.arrival
    if skew.natAbs ≤ 64 then
      let y := { x with up := true, deskewErr := false, skew := 1000 * skew, upCount := if x.up then x.upCount else 0 }
      if x.up then s.setTport t y else (s.setTport t y).topoBroadcast
    else s.portDown t { x with deskewErr := true, skew := 1000 * skew }
  else if a.mode == .lock && b.mode == .lock then s
  else s.portDown t x
/-- Frames of the present superframe can be delivered: no lane missed it (Table 05.3). -/
def TrkPort.delivers (x : TrkPort) : Bool := x.up && (x.lane 0).miss == 0 && (x.lane 1).miss == 0

end Sys2Proof.Machine
end

