-- ==== Sys2Proof/Machine/TrunkCmds.lean ====
section
/-! DEFINITION. The trunk's commands: superframes, alignment, headers, frames, broadcasts, wrap and training (05, 17 R371). -/
namespace Sys2Proof.Machine

/-- SUPERFRAME_START (05 R98, R100, R109, R115; 16 R361): on an even tick the SFN advances, pending swaps are taken, the
station weighs itself as master, the master's TM_SEQ and the UTC mapping go out when due, the engines' data is framed, and each
port sends its header and, where it is up, what its gates let out. -/
def execSuperframeStart (s : State) : Host.Outcome State Fault Refusal :=
  if s.now % 2 = 0 && s.trk.lastSf != some s.now then
    let t := (s.takeTrkSwap false).takeTrkSwap true
    let t := t.modTrk fun k => { k with
      lastSf := some s.now, sfn := (k.sfn + 1) % 2 ^ 48, tmIdle := k.tmIdle + 1
      a := { k.a with upCount := if k.a.up then k.a.upCount + 1 else 0 }
      b := { k.b with upCount := if k.b.up then k.b.upCount + 1 else 0 } }
    let t := t.weighSelf
    let master := t.trk.tmValid && t.trk.tmHops == 0 && !t.trk.relayOnly
    let t := if master && t.trk.sfn % 8 = 0 then t.modTrk fun k => { k with tmSeq := (k.tmSeq + 1) % 65536, tmIdle := 0 } else t
    let t := (if master && t.trk.sfn % 8000 = 0 then t.trkSend 255 1 0 16 t.utcMapBytes else t).sendOutbox
    let u := (t.modTport false (·.superframe)).modTport true (·.superframe)
    done s ((u.modTport false fun x => { x with hdr := u.ownHeader false }).modTport true fun x => { x with
      hdr := u.ownHeader true })
  else done s s

/-- FAW_SIGHTING (R101, Table 05.3): a candidate is opened while fewer than 8 are held. -/
def execFawSighting (t : TrunkPort) (l : Lane) (pos : Nat) (s : State) : Host.Outcome State Fault Refusal :=
  let x := s.tport t
  let y := x.lane l.val
  if x.en && y.mode != .lock then
    if y.cands.any fun c => c.pos == pos then done s s
    else if y.cands.length < 8 then done s (s.setTport t (x.setLane l.val { y with cands := y.cands ++ [{ pos := pos }] }))
    else done s (s.setTport t (x.count kHuntFull 1))
  else done s s

/-- FAW_POSITION (R101, R102, Table 05.3): the expected position of a candidate or of the locked lane arrives; `hdr` is the
SFN of a header whose HCRC passes and its arrival in ns. -/
def execFawPosition (t : TrunkPort) (l : Lane) (pos : Nat) (hdr : Option (Nat × Nat)) (s : State) :
    Host.Outcome State Fault Refusal :=
  let x := s.tport t
  let y := x.lane l.val
  if !x.en then done s s
  else if y.mode == .lock then
    if y.pos != pos then done s s
    else
      let next := (y.sfn + 1) % 2 ^ 48
      match hdr with
      | some (n, arr) =>
        if n = next then
          done s ((s.setTport t { x.setLane l.val { y with sfn := n, arrival := arr, miss := 0 } with rxSfn := n }).evalPort t)
        else done s (missed x y next)
      | none => done s (missed x y next)
  else
    match y.cands.find? fun c => c.pos == pos with
    | none => done s s
    | some c =>
      let cands := match judgeCand c hdr with
        | some c' => y.cands.map fun d => if d.pos = pos then c' else d
        | none => y.cands.filter fun d => d.pos != pos
      done s ((s.setTport t (x.setLane l.val ({ y with cands := cands }.settle (x.lane (1 - l.val))))).evalPort t)
where
  /-- A miss in LOCK: counted twice, then a link fault, then the lane hunts again. The lane goes on at the position and SFN
  that the superframe before it predicts. -/
  missed (x : TrkPort) (y : LaneSt) (next : Nat) : State :=
    let y := { y with sfn := next, arrival := y.arrival + 125000, miss := y.miss + 1 }
    if y.miss ≤ 2 then s.setTport t ((x.setLane l.val y).count kFawMiss 1)
    else if y.miss = 3 then (s.setTport t (x.setLane l.val y)).linkFault t
    else (s.setTport t (((x.setLane l.val { y with mode := .hunt, cands := [], miss := 0 }).count kLockLoss 1).irq 2)).evalPort t

/-- TRUNK_RX_HEADER (R98, R112, R113, R115, R116): the neighbour, of which a new one is broadcast, its advertisement, the FEC
counts, the MEAS exchange, and the time port; `own` is this end's MEAS of the superframe. The first gain of ring time relabels
the SFN. Halves are rounded towards minus infinity (DESIGN CHOICE, log entry 38). -/
def execTrunkRxHeader (t : TrunkPort) (h : TrkHeader) (own : Option Int) (s : State) : Host.Outcome State Fault Refusal :=
  let x := s.tport t
  if !x.up then done s s
  else
    let y := ((x.count kFecCw h.fecCw).count kFecSym h.fecSym).count kFecUncorr h.fecBad
    let pair := y.ownMeas.filter fun m => m.2 == h.measSfn
    let y := { y with
      neigh := h.srcId, neighRelay := h.relayOnly, rxSfn := h.sfn
      ownMeas := match own with
        | some v => some (v, h.sfn % 65536)
        | none => y.ownMeas
      advPrio := h.tmPrio, advId := h.tmId, advHops := h.tmHops, advValid := h.tmValid, advSeq := h.tmSeq
      delay := match pair with
        | some m => (m.1 + h.meas) / 2
        | none => y.delay
      offset := match pair with
        | some m => (m.1 - h.meas) / 2
        | none => y.offset }
    let u := s.setTport t y
    let u := (if x.neigh == h.srcId then u else u.topoBroadcast).advert h
    let tp := u.pickTimePort
    let gain := tp == some t && !u.trk.ringTime
    done s (u.modTrk fun k => { k with
      timePort := tp, ringTime := k.ringTime || gain, sfn := if gain then h.sfn else k.sfn }).ringEnter

/-- TIME_MASTER_TIMEOUT (R115): TM_SEQ has not advanced for 64 superframes; the master is discarded. -/
def execTimeMasterTimeout (s : State) : Host.Outcome State Fault Refusal :=
  if 64 ≤ s.trk.tmIdle && s.trk.tmValid && s.trk.tmHops != 0 then done s s.dropMaster else done s s

/-! ### Frames (05 R106, R107) -/

/-- What a station does with a valid frame. -/
inductive Route where
  | strip | accept | acceptRelay | drop | relay
  deriving DecidableEq, Repr

/-- R107's treatment; a relay-only station accepts only class 0 frames and relays the rest (R114), but for its own, which it
strips (DESIGN CHOICE, log entry 38). -/
def State.routeOf (s : State) (f : TrkFrame) : Route :=
  if f.src == s.ownId && s.ownId != 0xFF then .strip
  else if f.dst == s.ownId && s.ownId != 0xFF then (if s.trk.relayOnly && f.cls != 0 then .relay else .accept)
  else if f.dst == 255 then
    let later := match sfind s.trk.lastSeq (8 * f.src.toNat + f.cls) with
      | none => true
      | some q => 0 < (f.seq + 65536 - q) % 65536 && (f.seq + 65536 - q) % 65536 < 32768
    if !later then .drop else if s.trk.relayOnly && f.cls != 0 then .relay else .acceptRelay
  else .relay

/-- Relay a frame out of the other port: HOPS advances, and a frame at 255 is dropped and counted. -/
def State.relayFrame (s : State) (t : TrunkPort) (f : TrkFrame) : State :=
  if 255 ≤ f.hops + 1 then s.modTport t fun x => x.count kHopDrop 1
  else s.sendBy (!t) { frame := { f with hops := f.hops + 1 }, relayed := true }

/-- Take in a frame at a port; the answer says whether it was accepted here. -/
def State.takeFrame (s : State) (t : TrunkPort) (f : TrkFrame) : Bool × State :=
  if !(s.tport t).delivers then (false, s)
  else match s.routeOf f with
    | .strip => (false, s.modTport t fun x => x.count kStripped 1)
    | .drop => (false, s)
    | .relay => (false, (if 255 ≤ f.hops + 1 then s else s.modTport t fun x => x.countRx f).relayFrame t f)
    | .accept => (true, s.modTport t fun x => (x.countRx f).countClass f.cls)
    | .acceptRelay =>
      let s := s.modTport t fun x => (x.countRx f).countClass f.cls
      (true, (s.modTrk fun k => { k with lastSeq := sput k.lastSeq (8 * f.src.toNat + f.cls) f.seq }).relayFrame t f)

/-- TRUNK_RX_FRAME (R106, R107, R111; 11 Table 11.6): a frame whose header passed; its payload CRC, a full buffer and a fault
of the receive DMA discard and count it. Frames of a superframe that a lane missed are discarded (Table 05.3). -/
def execTrunkRxFrame (t : TrunkPort) (f : TrkFrame) (crc : PayCrc) (fault : Option EngFault) (full : Bool) (s : State) :
    Host.Outcome State Fault Refusal :=
  if !(s.tport t).delivers then done s s
  else if crc == .wrong then done s (s.modTport t fun x => x.count kPayErr 1)
  else if crc == .inverted then done s (s.modTport t fun x => x.count kAborted 1)
  else if full then done s (s.modTport t fun x => x.count kRxOverrun 1)
  else match fault with
    | some e => done s ((s.modTport t fun x => x.count kRxXlate 1).engFault (bit t) 6 0 true e)
    | none => done s (s.takeFrame t f).2

/-- TRUNK_RX_BAD_FRAME (R106): the header's FCRC fails, or the payload lies in an uncorrectable codeword, which counts as a
payload error (DESIGN CHOICE, log entry 38). -/
def execTrunkRxBadFrame (t : TrunkPort) (header : Bool) (s : State) : Host.Outcome State Fault Refusal :=
  if (s.tport t).up then done s (s.modTport t fun x => x.count (if header then kHdrErr else kPayErr) 1) else done s s

/-- TRUNK_RX_TOPOLOGY (R112, R114): the ring map takes the station's broadcast; one with this module's own ID and another
serial number sets DUP_ID and relay-only mode. -/
def execTrunkRxTopology (t : TrunkPort) (f : TrkFrame) (b : Topology) (s : State) : Host.Outcome State Fault Refusal :=
  let (ok, u) := s.takeFrame t f
  if !(s.tport t).delivers then done s s
  else if b.id == s.ownId && s.ownId != 0xFF && b.serial != s.host.serial then
    let u := u.modTrk fun k => { k with dupId := true, relayOnly := true }
    if s.trk.dupId then done s u
    else done s (((u.modTport false (·.irq 7)).modTport true (·.irq 7)).trkEvent t 3 [w32 b.id.toNat])
  else if ok then done s (u.modTrk fun k => { k with ringMap := sput k.ringMap b.id.toNat b })
  else done s u

/-- TRUNK_RX_UTC_MAPPING (16 R361): an accepted, valid mapping gives ring UTC and the local offset. -/
def execTrunkRxUtcMapping (t : TrunkPort) (f : TrkFrame) (m : UtcMap) (s : State) : Host.Outcome State Fault Refusal :=
  let (ok, u) := s.takeFrame t f
  if ok && m.valid then done s (u.ringMapping m) else done s u

/-- TRUNK_RX_REPLICA_BLOCK (12 R265): a neighbour's block is stored unchanged in a replica segment of its tenant. -/
def execTrunkRxReplicaBlock (t : TrunkPort) (f : TrkFrame) (_seg _blk : Nat) (data : List Byte) (s : State) :
    Host.Outcome State Fault Refusal :=
  let (ok, u) := s.takeFrame t f
  if ok && f.cls == 5 then
    done s ((u.writeBlock f.tenant 1 f.src { replica := data, t0 := s.now }).getD u)
  else done s u

/-- UNWRAP (R113): after 64 superframes up, at a superframe with SFN ≡ 0 (mod 8). -/
def execUnwrap (t : TrunkPort) (s : State) : Host.Outcome State Fault Refusal :=
  let x := s.tport t
  if x.wrapped && x.up && 64 ≤ x.upCount && s.trk.sfn % 8 = 0 && !x.wrapForce then
    done s (((s.setTport t ({ x with wrapped := false }.irq 3)).trkEvent t 2 []).topoBroadcast)
  else done s s

/-- TRUNK_TX_UNDERRUN (R111; 11 Table 11.6): the `n`th frame of those on the line ends with the inverted payload CRC. When its
buffer ran dry, which a frame buffered whole cannot meet, THR rises by 256 up to 9,236 and the frame waits at the head of its
queue again; after a fault of its DMA read it is counted and gone. -/
def execTrunkTxUnderrun (t : TrunkPort) (n : Nat) (why : TxFail) (s : State) : Host.Outcome State Fault Refusal :=
  let x := s.tport t
  match x.air[n]? with
  | none => done s s
  | some f =>
    let y := { x with air := x.air.eraseIdx n }
    match why with
    | .access e => done s ((s.setTport t (y.count kTxXlate 1)).engFault (bit t) 7 0 false e)
    | .dry =>
      if x.thr < trkOctets f.frame then
        done s (s.setTport t ({ y with
          thr := min 9236 (x.thr + 256), queues := supd [] y.queues (classQueue f.frame.cls) fun l => f :: l }.count
            kTxUnderrun 1 |>.irq 8))
      else done s s

/-- TRK_CTRL (R110, Table 05.8): EN, MODE, WRAP_FORCE, precoding and polarity. A port that is disabled or enabled starts its
lanes anew, and what was in flight is lost; a neighbour it no longer knows is a change that a topology broadcast tells of (R112). -/
def State.trkCtrl (s : State) (t : TrunkPort) (v : Word) : State :=
  let x := s.tport t
  let en := v.getLsbD 0
  let keep := x.en && en
  let x := { x with
    en := en, mode := if keep then x.mode else v.getLsbD 1, wrapForce := v.getLsbD 2, precode := v.extractLsb' 3 2, inv := v.extractLsb' 5 2 }
  let x := if keep then x
    else { x with
      modeEff := if en then x.mode else x.modeEff, lanes := freshLanes s.now, up := false, upCount := 0, air := [], advValid := false
      ownMeas := none, neigh := 0xFF }
  let fresh := x.neigh != (s.tport t).neigh
  let s := (s.setTport t x).retime
  if x.wrapForce && !x.wrapped then s.wrap t else if fresh then s.topoBroadcast else s

/-- TRAINING_FRAME_RX (17 R371): the receiver adapts, a PRESET or a tap request changes the FFE, and 8 consecutive frames with
READY from the far end, with this end READY, end the training. -/
def execTrainingFrameRx (t : TrunkPort) (l : Lane) (ctrl : BitVec 12) (crcOk rxReady : Bool) (s : State) :
    Host.Outcome State Fault Refusal :=
  let x := s.tport t
  let y := x.lane l.val
  if x.en && y.training && crcOk && s.due y.trainAt 0 then
    let step (b : Nat) (c : Int) : Int :=
      if ctrl.getLsbD 6 then 0 else if ctrl.toNat / 2 ^ b % 4 = 1 then c + 1 else if ctrl.toNat / 2 ^ b % 4 = 2 then c - 1 else c
    let ready := if ctrl.getLsbD 7 then y.ready + 1 else 0
    let y := { y with
      rxReady := rxReady, ready := ready, taps := (step 0 y.taps.1, step 2 y.taps.2.1, step 4 y.taps.2.2)
      training := !(rxReady && 8 ≤ ready), mode := .hunt, cands := [] }
    done s (s.setTport t (x.setLane l.val y))
  else done s s

/-- LANE_TRAINING_TIMEOUT (17 R371): not ready within 300 ms: an event, and the lane trains again after 100 ms. -/
def execLaneTrainingTimeout (t : TrunkPort) (l : Lane) (s : State) : Host.Outcome State Fault Refusal :=
  let x := s.tport t
  let y := x.lane l.val
  if x.en && y.training && s.due y.trainAt (msTicks 300) then
    done s ((s.setTport t (x.setLane l.val { y with ready := 0, rxReady := false, trainAt := s.now + msTicks 100 })).trkEvent t (Config.eventCode 371).toNat [w32 l.val])
  else done s s

end Sys2Proof.Machine
end

