-- ==== Sys2Proof/Machine/Dma.lean ====
section
/-! DEFINITION. DMA channels: descriptors, elements, the write buffer, faults, parking and resumption (11 R243 to R251). -/
namespace Sys2Proof.Machine

/-- Host software owns a channel (11 Table 11.7). -/
def dmaHost (d c : Nat) : Bool := (8 ≤ c && c ≤ 10) || (c == 11 && d != 0)

def State.dch (s : State) (d c : Nat) : DmaCh := sget {} (s.dma d).chans c
def State.setDch (s : State) (d c : Nat) (x : DmaCh) : State :=
  s.setDma d { s.dma d with chans := sput (s.dma d).chans c x }
def State.modDch (s : State) (d c : Nat) (f : DmaCh → DmaCh) : State := s.setDch d c (f (s.dch d c))
def State.dmaIrq (s : State) (d i : Nat) : State :=
  s.setDma d { s.dma d with irqStat := orBit (s.dma d).irqStat i true }

/-- A descriptor from its four words, and whether a reserved field is set (Table 11.8). -/
def descOf (a b c n : Nat) : Descriptor :=
  { mode := BitVec.ofNat 3 a, esize := BitVec.ofNat 3 (a / 8), idx32 := a / 64 % 2 = 1, irq := a / 128 % 2 = 1
    last := a / 256 % 2 = 1, srcSp := BitVec.ofNat 2 (a / 1024), dstSp := BitVec.ofNat 2 (a / 4096), count := a / 65536 % 2 ^ 24
    nchm1 := a / 2 ^ 40 % 64, ssz := BitVec.ofNat 2 (a / 2 ^ 46), src := b % 2 ^ 36, plane := b / 2 ^ 40, dst := c % 2 ^ 36
    next := n / 32 % 2 ^ 31 * 32, idx := n / 2 ^ 36 * 256 }
def descReserved (a b c n : Nat) : Bool :=
  a / 512 % 2 != 0 || a / 2 ^ 14 % 4 != 0 || a / 2 ^ 48 != 0 || b / 2 ^ 36 % 16 != 0 || c / 2 ^ 36 != 0 || n % 32 != 0

/-- Does R245 let the descriptor run? -/
def descOk (d : Descriptor) : Bool :=
  let m := d.mode.toNat
  m ≤ 5 && d.esize.toNat ≤ 4 && d.srcSp != 3 && (d.dstSp == 0 || d.dstSp == 2) && d.count != 0
  && (if m = 1 || m = 2 then d.srcSp != 2 && d.dstSp != 2 else true)
  && (if m = 3 || m = 4 then d.dstSp == 0 && d.ssz != 0 else true)
  && (if m = 5 then d.srcSp == 0 && d.dstSp == 0 else true)

/-- Bytes of an element of modes 1 and 2, and of a sample of modes 3 and 4. -/
def Descriptor.esz (d : Descriptor) : Nat := 4 * 2 ^ d.esize.toNat
def Descriptor.sampleBytes (d : Descriptor) : Nat := d.ssz.toNat + 1
/-- Elements of a descriptor: for mode 0 its bytes, which its chunks use up. -/
def Descriptor.total (d : Descriptor) : Nat :=
  match d.mode.toNat with
  | 3 | 4 => d.count * (d.nchm1 + 1)
  | 5 => 4 * d.count
  | _ => d.count
/-- DMA_C_POS: the current element, frame or block. -/
def DmaCh.pos (x : DmaCh) : Nat :=
  match x.cur with
  | none => 0
  | some d => match d.mode.toNat with
    | 3 | 4 => x.el / (d.nchm1 + 1)
    | 5 => x.el / 4
    | _ => x.el

/-! ### Stopping -/

/-- The write buffer is empty again. -/
def DmaCh.emptyWb (x : DmaCh) : DmaCh := { x with wbLine := none, wbBytes := [] }
/-- Write out the write buffer: a full-line write when it covers the line, otherwise a partial one (R251). A line that does not
verify takes no bytes, and the buffer keeps them (R250). -/
def State.flushWb (s : State) (d c : Nat) : Bool × State :=
  let x := s.dch d c
  match x.wbLine with
  | none => (true, s)
  | some line =>
    if x.wbBytes.length = 64 then (true, (s.setDch d c x.emptyWb).writeLine line (x.wbBytes.map (·.2)))
    else match s.mergeLine line x.wbBytes with
      | (true, s) => (true, s.setDch d c x.emptyWb)
      | (false, s) => (false, s)

/-- A stopped channel: parked or halted, with its reason and the stopped bit; a halt is an event. -/
def State.markStop (s : State) (d c : Nat) (st : DmaState) (reason faddr : Nat) (write index point : Bool) : State :=
  let s := (s.modDch d c fun x => { x with
    state := st, retrying := false, abort := false, reason := BitVec.ofNat 4 reason, faddr := BitVec.ofNat 36 faddr
    fwrite := write, findex := index, fpoint := point }).dmaIrq d (16 + c)
  if st == .halted then s.event (s.ctxTenant (s.dch d c).ctx.toNat) d 6 c 1 [w32 reason] else s
/-- The write buffer's line did not verify: the channel halts with INTEG at the last element that wrote into it (R250); in mode
5 that is the first half of its block. -/
def State.wbFail (s : State) (d c : Nat) : State :=
  (s.modDch d c fun x =>
    let bits := x.cur.any fun de => de.mode == 5
    { x with el := if bits then x.wbEl / 4 * 4 else x.wbEl, off := x.wbOff, tmp := if bits then [] else x.tmp }).markStop d c
    .halted 3 (s.dch d c).wbVa true false false
/-- Write out the write buffer, and halt where that fails. -/
def State.writeOut (s : State) (d c : Nat) : State :=
  match s.flushWb d c with
  | (true, s) => s
  | (false, s) => s.wbFail d c

/-- Stop a channel: the write buffer is written out first (R251). -/
def State.stopDma (s : State) (d c : Nat) (st : DmaState) (reason faddr : Nat) (write index point : Bool) : State :=
  match s.flushWb d c with
  | (true, s) => s.markStop d c st reason faddr write index point
  | (false, s) => s.wbFail d c

/-- Stop as an access error asks (Table 11.6): parked for a translation fault, halted with INTEG; a write that does not verify is
the write buffer's. A bus error repeats the element while RETRY allows (R249). -/
def State.accStop (s : State) (d c : Nat) (e : AccErr) (faddr : Nat) (write index : Bool) : State :=
  match e with
  | .xlate => s.stopDma d c .parked 1 faddr write index false
  | .integ => if write then s.wbFail d c else s.stopDma d c .halted 3 faddr false index false
  | .bus =>
    let x := s.dch d c
    let n := if x.retrying then x.used else 0
    let s := s.setDch d c { x with busErr := addW x.busErr 1 }
    if n.toNat < x.retry.toNat then s.modDch d c fun x => { x with used := n + 1, retrying := true }
    else s.stopDma d c .halted 2 faddr write index (x.cur.any fun de => de.srcSp == 1 && !index && !write)

/-- Halt for a descriptor or an alignment error. -/
def State.haltDma (s : State) (d c reason faddr : Nat) (write point : Bool) : State :=
  s.stopDma d c .halted reason faddr write false point

/-- Fetch the descriptor at the channel's address and start on its first element (R245). -/
def State.fetchDesc (s : State) (d c : Nat) : State :=
  let x := s.dch d c
  match s.readVa d x.ctx.toNat c x.desc.toNat 32 with
  | (.error (e, a), s) => (s.modDch d c fun x => { x with cur := none, el := 0, off := 0 }).accStop d c e a false false
  | (.ok l, s) =>
    let w (i : Nat) := ofLe ((l.drop (8 * i)).take 8)
    let de := descOf (w 0) (w 1) (w 2) (w 3)
    let bad := descReserved (w 0) (w 1) (w 2) (w 3) || !descOk de
    let s := s.modDch d c fun x => { x with
      cur := if bad then none else some de, el := 0, off := 0, tmp := [], retrying := false, state := .running, reason := 0 }
    if bad then s.haltDma d c 5 x.desc.toNat false false else s

/-! ### Elements -/

/-- Bytes of the point image of a die, filtered for a tenant (R246). -/
def State.imageBytes (s : State) (t : Tenant) (d off n : Nat) : List Byte :=
  (List.range n).map fun i =>
    let a := off + i
    ((leBytes (cellWord (s.cellFor t (32768 * d + a / 4 % 32768))).toNat 4)[a % 4]?).getD 0

/-- A change record of the point change stream: MPN, cell word, tick (DESIGN CHOICE, log entry 46: the spec gives it no layout). -/
def changeBytes (r : Change) : List Byte := leBytes r.mpn 4 ++ leBytes (cellWord r.cell).toNat 4 ++ leBytes r.tick 8
/-- The change records that wait for a channel: those of its die's points that belong to its context's tenant (01 Table 01.8). -/
def State.streamFor (s : State) (d c : Nat) : List Change :=
  let t := s.ctxTenant (s.dch d c).ctx.toNat
  s.pnt.changes.filter fun (r : Change) => mpnDie r.mpn == d && r.tenant == t
/-- Bytes that wait at the engine port of a channel: Exyan's channels 0 to 7 take the change stream, its others what their
engine feeds them (Table 11.7), and host channels the die's port. -/
def State.portBytes (s : State) (d c : Nat) : Nat :=
  if dmaHost d c then (s.dma d).port.length
  else (s.dch d c).inp.length + if c < 8 then 16 * (s.streamFor d c).length else 0
/-- Bring change records to a channel's port until `n` bytes wait there; each goes to the crown too, in class 3 (Example 01.1). -/
def State.fillPort (s : State) (d c n : Nat) : Nat → State
  | 0 => s
  | f + 1 =>
    if n ≤ (s.dch d c).inp.length then s
    else match s.streamFor d c with
      | [] => s
      | r :: _ =>
        (((s.modPnt fun p => { p with changes := p.changes.erase r }).modDch d c fun x => { x with
          inp := x.inp ++ changeBytes r }).offer 3 r.tenant (changeBytes r)).fillPort d c n f

/-- Read an element's source bytes; the engine port gives none while it holds too few. -/
def State.dmaRead (s : State) (d c sp a n : Nat) : Option (Except (AccErr × Nat) (List Byte)) × State :=
  let x := s.dch d c
  match sp with
  | 0 => match s.readVa d x.ctx.toNat c a n with
    | (r, s) => (some r, s)
  | 1 => (some (.ok (s.imageBytes (s.ctxTenant x.ctx.toNat) d a n)), s)
  | _ =>
    if s.portBytes d c < n then (none, s)
    else if dmaHost d c then
      let p := (s.dma d).port
      (some (.ok (p.take n)), s.setDma d { s.dma d with port := p.drop n })
    else
      let s := if c < 8 then s.fillPort d c n (n / 16 + 1) else s
      let p := (s.dch d c).inp
      (some (.ok (p.take n)), s.modDch d c fun x => { x with inp := p.drop n })

/-- The physical address of each destination byte, translated before any write (R247); an error comes with its address. -/
def State.dmaTargets (s : State) (d c a : Nat) : Nat → Except (AccErr × Nat) (List Nat) × State
  | 0 => (.ok [], s)
  | n + 1 => match s.translate d (s.dch d c).ctx.toNat c (a % 2 ^ 36) true with
    | (.error e, s) => (.error (e, a % 2 ^ 36), s)
    | (.ok pa, s) => match s.dmaTargets d c (a + 1) n with
      | (.ok l, s) => (.ok (pa :: l), s)
      | r => r

/-- Put bytes into the write buffer, the first for device-virtual address `va`; a byte of another line has the buffer written out
first, and a line that is covered goes out as a full-line write. -/
def State.bufferBytes (s : State) (d c va : Nat) : List (Nat × Byte) → Bool × State
  | [] => (true, s)
  | (pa, b) :: l =>
    let x := s.dch d c
    let (ok, s) := if x.wbLine == some (pa / 64) || x.wbLine.isNone then (true, s) else s.flushWb d c
    if !ok then (false, s)
    else
      let s := s.modDch d c fun x => { x with
        wbLine := some (pa / 64), wbBytes := sput x.wbBytes (pa % 64) b, wbVa := va % 2 ^ 36 / 64 * 64, wbEl := x.el, wbOff := x.off }
      let (ok, s) := if (s.dch d c).wbBytes.length = 64 then s.flushWb d c else (true, s)
      if ok then s.bufferBytes d c (va + 1) l else (false, s)

/-- Write an element's bytes to a destination space. -/
def State.dmaWrite (s : State) (d c sp a : Nat) (data : List Byte) : Except (AccErr × Nat) Unit × State :=
  if sp = 2 then (.ok (), s.setDma d { s.dma d with port := (s.dma d).port ++ data })
  else match s.dmaTargets d c a data.length with
    | (.error e, s) => (.error e, s)
    | (.ok ps, s) => match s.bufferBytes d c a (ps.zip data) with
      | (true, s) => (.ok (), s)
      | (false, s) => (.error (.integ, a), s)

/-- A transposed block: output word j holds bit j of every input word. -/
def transpose (l : List Word) : List Word :=
  (List.range 32).map fun j => w32 (sumNat (l.zipIdx.map fun e => flag (e.1.getLsbD j) e.2))

/-- Where an element reads and writes, and how many bytes: modes 0, 3 and 4, and modes 1 and 2 under index offset `ix`. -/
def elemAddrs (de : Descriptor) (el off ix : Nat) : Nat × Nat × Nat :=
  match de.mode.toNat with
  | 0 =>
    let sa := de.src + off
    let da := de.dst + off
    (sa, da, min (de.count - off) (min (64 - sa % 64) (64 - da % 64)))
  | 1 => (de.src + ix, de.dst + el * de.esz, de.esz)
  | 2 => (de.src + el * de.esz, de.dst + ix, de.esz)
  | 3 =>
    let n := de.nchm1 + 1
    let z := de.sampleBytes
    (de.src + el * z, de.dst + el % n * de.plane * 64 + el / n * z, z)
  | _ =>
    let n := de.nchm1 + 1
    let z := de.sampleBytes
    (de.src + el % n * de.plane * 64 + el / n * z, de.dst + el * z, z)

/-- The descriptor has no element left. -/
def DmaCh.finished (x : DmaCh) (de : Descriptor) : Bool :=
  if de.mode.toNat = 0 then de.count ≤ x.off else de.total ≤ x.el

/-- After an element: the next one, or the end of the descriptor with its counts, and the next descriptor (R245). -/
def State.advance (s : State) (d c n : Nat) (de : Descriptor) : State :=
  let s := s.modDch d c fun x => { x with el := x.el + 1, off := x.off + n, retrying := false }
  if (s.dch d c).finished de then
    let (ok, s) := s.flushWb d c
    if !ok then s.wbFail d c
    else
      let s := s.modDch d c fun x => { x with doneN := addW x.doneN 1 }
      let s := if de.irq then s.dmaIrq d c else s
      if de.last then s.modDch d c fun x => { x with state := .done, cur := none }
      else (s.modDch d c fun x => { x with desc := BitVec.ofNat 36 de.next }).fetchDesc d c
  else s

/-- The address of the half of a block that element `el` of mode 5 reads, or writes. -/
def bitsAddr (de : Descriptor) (el : Nat) : Nat :=
  if el % 4 < 2 then de.src + 128 * (el / 4) + 64 * (el % 4) else de.dst + 128 * (el / 4) + 64 * (el % 4 - 2)
/-- A fault in a block's writes stops it at its first half, and the whole block is repeated (R247). -/
def DmaCh.reblock (x : DmaCh) : DmaCh := { x with el := x.el / 4 * 4, tmp := [] }
/-- Move one element of mode 5: two halves of a block are read, two are written. A bus error repeats the half alone. -/
def State.moveBits (s : State) (d c : Nat) (de : Descriptor) : State :=
  let x := s.dch d c
  if x.el % 4 < 2 then
    match s.dmaRead d c 0 (bitsAddr de x.el) 64 with
    | (some (.ok l), s) =>
      let ws := (List.range 16).map fun i => w32 (ofLe ((l.drop (4 * i)).take 4))
      (s.modDch d c fun y => { y with tmp := (if x.el % 4 = 0 then [] else y.tmp) ++ ws }).advance d c 0 de
    | (some (.error (e, a)), s) => s.accStop d c e a false false
    | (none, s) => s
  else
    let out := wordBytes (((transpose x.tmp).drop (16 * (x.el % 4 - 2))).take 16)
    match s.dmaWrite d c 0 (bitsAddr de x.el) out with
    | (.ok (), s) => s.advance d c 0 de
    | (.error (.bus, a), s) => s.accStop d c .bus a true false
    | (.error (e, a), s) => (s.modDch d c DmaCh.reblock).accStop d c e a true false

/-- An engine's own channel begins a transfer from its port, without a descriptor in memory (08 R183, 10 R228). -/
def State.dmaFeed (s : State) (d c ctx : Nat) (de : Descriptor) : State :=
  s.modDch d c fun x => { x with
    prio := 2, ctx := BitVec.ofNat 16 ctx, state := .waiting, reason := 0, used := 0, cur := some de, el := 0, off := 0
    tmp := [], wbLine := none, wbBytes := [], abort := false, retrying := false, inp := [] }

/-! ### Response capture (08 R182, R183) -/

def State.unit (s : State) (d u : Nat) : TestUnit := sget {} (s.lpe d).units u
def State.setUnit (s : State) (d u : Nat) (x : TestUnit) : State := s.modLpe d fun e => { e with units := sput e.units u x }

/-- LPE_TU_COUNT of the unit that a channel serves: the records written (08 Table 08.13). -/
def State.noteCapture (s : State) (d c : Nat) : State :=
  let x := s.unit d (c - 12)
  let y := s.dch d c
  if 12 ≤ c && x.dmaOn then
    s.setUnit d (c - 12) { x with
      count := if y.cur.isNone then x.records.length else min x.records.length (y.off / 16) }
  else s

/-- A capture record's 16 bytes (08 Table 08.7). -/
def CapRec.bytes (r : CapRec) : List Byte :=
  leBytes (r.pv.toNat + 2 ^ 24 * qualBits r.pvQ) 4 ++ leBytes (r.sp.toNat + 2 ^ 24 * qualBits r.spQ) 4
  ++ leBytes r.err.toNat 4 ++ leBytes (r.out.toNat + 2 ^ 24 * r.bits.toNat) 4

/-- The tenant of a slot. -/
def State.slotTenant (s : State) (d n : Nat) : Tenant :=
  match (s.loop d n).cfg with
  | some c => c.tenant
  | none => 0
/-- A fed transfer gets no more bytes: it ends with those at its port, filled up with zeros to a full line. -/
def DmaCh.feedEnd (y : DmaCh) : DmaCh :=
  match y.cur with
  | none => y
  | some de =>
    let inp := padTo 0 ((y.inp.length + 63) / 64 * 64) y.inp
    if inp.isEmpty && (y.state == .waiting || y.state == .running) then
      { y with state := .done, cur := none, doneN := addW y.doneN 1 }
    else { y with cur := some { de with count := y.off + inp.length }, inp := inp }
/-- Hand a test unit's records to channel 12 + u: the channel begins with the first of them, in the context of the slot's tenant
at level 2, once it is free; after the capture's end the last line is filled up. -/
def State.capFeed (s : State) (d u : Nat) : State :=
  let c := 12 + u
  let x := s.unit d u
  let y := s.dch d c
  let free := y.state == .idle || y.state == .done
  let s := if !x.dmaOn && free && !x.buffer.isEmpty then
      (s.dmaFeed d c (s.ctxOf (s.slotTenant d x.slot) 9) {
        srcSp := 2, count := (16 * x.capN.toNat + 63) / 64 * 64, last := true
        dst := x.addr.toNat }).setUnit d u { x with dmaOn := true }
    else s
  let x := s.unit d u
  if x.dmaOn then
    (s.modDch d c fun y =>
      let y := { y with inp := y.inp ++ x.buffer.flatMap CapRec.bytes }
      if x.capOn then y else y.feedEnd).setUnit d u { x with buffer := [] }
  else s
/-- All units of a die hand over what they hold. -/
def State.capFeeds (s : State) (d : Nat) : State := (List.range 4).foldl (fun s u => s.capFeed d u) s

/-- The index that an element of a gather or scatter descriptor uses; 0 in the other modes. -/
def State.elemIndex (s : State) (d c : Nat) (de : Descriptor) : Except (AccErr × Nat) Nat × State :=
  let x := s.dch d c
  let isz := if de.idx32 then 4 else 3
  if de.mode == 1 || de.mode == 2 then
    match s.readVa d x.ctx.toNat c (de.idx + isz * x.el) isz with
    | (.error e, s) => (.error e, s)
    | (.ok l, s) => (.ok (ofLe l), s)
  else (.ok 0, s)
/-- Read the bytes of an element and write them; the channel waits while its port holds too few. -/
def State.copyElem (s : State) (d c : Nat) (de : Descriptor) (sa da n : Nat) : State :=
  match s.dmaRead d c de.srcSp.toNat sa n with
  | (none, s) => s.modDch d c fun x => { x with state := .waiting }
  | (some (.error (e, a)), s) => s.accStop d c e a false false
  | (some (.ok l), s) => match s.dmaWrite d c de.dstSp.toNat da l with
    | (.error (e, a), s) => s.accStop d c e a true false
    | (.ok (), s) => (((s.modDch d c fun x => { x with state := .running }).advance d c n de).noteCapture d c)
/-- Translate what an element writes before any byte of it moves (R247), and move it. -/
def State.aimElem (s : State) (d c : Nat) (de : Descriptor) (sa da n : Nat) : State :=
  if de.dstSp == 0 then
    match s.dmaTargets d c da n with
    | (.error (e, a), s) => s.accStop d c e a true false
    | (.ok _, s) => s.copyElem d c de sa da n
  else s.copyElem d c de sa da n
/-- Move one element of a channel (R246, R247). -/
def State.moveElem (s : State) (d c : Nat) (de : Descriptor) : State :=
  if de.mode == 5 then s.moveBits d c de
  else match s.elemIndex d c de with
    | (.error (e, a), s) => s.accStop d c e a false true
    | (.ok ix, s) =>
      let x := s.dch d c
      let (sa, da, n) := elemAddrs de x.el x.off ix
      if de.mode == 1 && sa % de.esz != 0 then s.haltDma d c 4 sa false (de.srcSp == 1)
      else if de.mode == 2 && da % de.esz != 0 then s.haltDma d c 4 da true false
      else s.aimElem d c de sa da n

/-! ### The engine (R244) -/

/-- A channel is active: it runs, or it waited for bytes at its port that have come. -/
def State.chanActive (s : State) (d c : Nat) : Bool :=
  let x := s.dch d c
  x.state == .running || (x.state == .waiting && match x.cur with
    | none => true
    | some de => de.srcSp != 2 || (elemAddrs de x.el x.off 0).2.2 ≤ s.portBytes d c || x.abort)
/-- The channels ready for the engine, at the highest level that has one. -/
def State.ready (s : State) (d : Nat) : List Nat :=
  let act := (List.range 16).filter fun c => s.chanActive d c
  let top := (act.map fun c => (s.dch d c).prio.toNat).foldl max 0
  act.filter fun c => (s.dch d c).prio.toNat == top
/-- The channel whose element is being repeated after a bus error: its retries finish first (Table 11.10). -/
def State.retrying? (s : State) (d : Nat) : Option Nat :=
  (s.dma d).last.filter fun c => (s.dch d c).retrying && (s.dch d c).state == .running
/-- Round robin at a level: the first ready channel after the one last served. -/
def State.nextChan (s : State) (d : Nat) : Option Nat :=
  match s.retrying? d, s.ready d with
  | some c, _ => some c
  | none, [] => none
  | none, c :: l =>
    let last := sget 16 (s.dma d).turn (s.dch d c).prio.toNat
    some (((c :: l).find? fun k => last < k && last != 16).getD c)

/-- A channel of a higher level takes over: the old one's write buffer is written out first and its pre-emption counted. -/
def State.preempt (s : State) (d c : Nat) : State :=
  match (s.dma d).last with
  | none => s
  | some o =>
    if o != c && (s.dch d o).state == .running && (s.dch d o).prio.toNat < (s.dch d c).prio.toNat then
      (s.modDch d o fun x => { x with preempt := addW x.preempt 1 }).writeOut d o
    else s

/-- The chain ends at an element boundary, the write buffer written out, with REASON ABORTED (R248). -/
def State.abortEnd (s : State) (d c : Nat) : State :=
  match s.flushWb d c with
  | (true, s) => s.modDch d c fun x => { x with abort := false, state := .done, reason := 6, cur := none }
  | (false, s) => s.wbFail d c

/-- An access of the current element meets a failure of the DRAM or graft interface (R249). An element without that access to
DRAM or to the point image moves. -/
def State.busElem (s : State) (d c : Nat) (de : Descriptor) (k : DmaAccess) : State :=
  let x := s.dch d c
  if de.mode == 5 then s.accStop d c .bus (bitsAddr de x.el) (2 ≤ x.el % 4) false
  else if k == .index && (de.mode == 1 || de.mode == 2) then
    s.accStop d c .bus (de.idx + (if de.idx32 then 4 else 3) * x.el) false true
  else if (k == .write && de.dstSp != 0) || (k != .write && de.srcSp == 2) then s.moveElem d c de
  else match s.elemIndex d c de with
    | (.error (e, a), s) => s.accStop d c e a false true
    | (.ok ix, s) =>
      let (sa, da, _) := elemAddrs de x.el x.off ix
      s.accStop d c .bus (if k == .write then da else sa) (k == .write) false

/-- DMA_ELEMENT (R244 to R251): the engine serves one element; `bus` says that an access of it meets a failure of the DRAM or
graft interface. The retries of an element finish before an ABORT ends the chain. -/
def execDmaElement (d : Die) (bus : Option DmaAccess) (s : State) : Host.Outcome State Fault Refusal :=
  let t := s.capFeeds d.val
  match t.nextChan d.val with
  | none => done s t
  | some c =>
    let t := t.preempt d.val c
    let x := t.dch d.val c
    let t := t.setDma d.val { t.dma d.val with last := some c, turn := sput (t.dma d.val).turn x.prio.toNat c }
    let t := if x.retrying then t else t.modDch d.val c fun x => { x with used := 0 }
    if x.abort && !x.retrying then done s (t.abortEnd d.val c)
    else match x.cur, bus with
      | none, none => done s (t.fetchDesc d.val c)
      | none, some _ => done s (t.accStop d.val c .bus x.desc.toNat false false)
      | some de, none => done s (t.moveElem d.val c de)
      | some de, some k => done s (t.busElem d.val c de k)

/-! ### Channel control (R248, R254) -/

/-- START, RESUME, SKIP and ABORT. -/
def State.dmaStart (s : State) (d c : Nat) : State :=
  let x := s.dch d c
  if x.state == .idle || x.state == .done then
    (s.setDch d c { x.emptyWb with state := .running, reason := 0, used := 0, abort := false, retrying := false }).fetchDesc d c
  else s
def State.dmaStopped (s : State) (d c : Nat) : Bool := (s.dch d c).state == .parked || (s.dch d c).state == .halted
/-- Bytes that a failed write-out left in the write buffer are translated and written again first (R248, R250). -/
def State.rewrite (s : State) (d c : Nat) : State :=
  let x := s.dch d c
  if x.wbLine.isNone then s
  else match s.translate d x.ctx.toNat c x.wbVa true with
    | (.error .xlate, s) => s.markStop d c .parked 1 x.wbVa true false false
    | (.error _, s) => s.markStop d c .halted 2 x.wbVa true false false
    | (.ok pa, s) => (s.modDch d c fun y => { y with wbLine := some (pa / 64) }).writeOut d c
def State.dmaResume (s : State) (d c : Nat) : State :=
  if s.dmaStopped d c then
    let s := s.modDch d c fun x => { x with state := .running, reason := 0, used := 0 }
    if (s.dch d c).cur.isNone then s.fetchDesc d c else s.rewrite d c
  else s
/-- SKIP of a descriptor that could not be read or run ends the chain: it names no element and no next descriptor (DESIGN CHOICE,
log entry 46). In mode 5 the rest of the block goes with the element. Bytes that could not be written out go with it. -/
def State.dmaSkip (s : State) (d c : Nat) : State :=
  let x := s.dch d c
  if s.dmaStopped d c then
    match x.cur with
    | none => s.setDch d c { x.emptyWb with state := .done, reason := 0, used := 0 }
    | some de =>
      let s := s.setDch d c { x.emptyWb with
        state := .running, reason := 0, used := 0, el := if de.mode.toNat = 5 then x.el / 4 * 4 + 3 else x.el, tmp := [] }
      s.advance d c (elemAddrs de x.el x.off 0).2.2 de
  else s
def State.dmaAbort (s : State) (d c : Nat) : State :=
  if s.dmaStopped d c then s.modDch d c fun x => { x.emptyWb with state := .done, reason := 6, cur := none, abort := false }
  else if (s.dch d c).state == .running || (s.dch d c).state == .waiting then s.modDch d c fun x => { x with abort := true }
  else s

/-- Exyan sets up one of its channels and starts it. -/
def State.dmaExyan (s : State) (d c : Nat) (u : DmaSetup) : State :=
  let x := s.dch d c
  if x.state == .idle || x.state == .done then
    (s.setDch d c { x with
      prio := u.prio, retry := u.retry, ctx := u.ctx, desc := BitVec.ofNat 36 (u.desc.toNat / 32 * 32), inp := [] }).dmaStart d c
  else s

/-! ### Owner changes and invalidation (R233, R240) -/

/-- Before a page changes its owner, Exyan invalidates its translations on every die and waits until the accesses under them have
finished: the bytes that a channel still holds for the page are written out (Table 11.10). -/
def State.retirePage (s : State) (p : Nat) : State :=
  (List.range s.nDies).foldl (fun s d =>
    let s := (List.range 16).foldl (fun s c =>
      if (s.dch d c).wbLine.any (fun l => l / 64 == p) && !s.dmaStopped d c then s.writeOut d c else s) s
    if (s.atu d).tlb.any fun e => e.2.1 == p then
      s.modAtu d fun x => { x with tlb := x.tlb.filter fun e => e.2.1 != p }.irq 3
    else s) s

/-- PAGE_OWNER_ASSIGN (R233, R239): Exyan gives a page to a new owner, zero-filled, and maps it where it asks for that. -/
def execPageOwnerAssign (d : Die) (page : Nat) (owner : Tenant) (map : Option PageMap) (s : State) :
    Host.Outcome State Fault Refusal :=
  let p := d.val * 2 ^ 24 + page
  if d.val < s.nDies && page < 0xE0000 then
    let t := if s.owner p == owner then s else (s.retirePage p).assignPage p owner
    match map with
    | none => done s t
    | some m => done s (t.mapPage d.val p m)
  else done s s

/-- INVALIDATION_COMPLETE (R240): every access under the old entries has finished: no DMA channel of the die that moves holds
bytes in its write buffer; a stopped one translates again when it resumes. -/
def execInvalidationComplete (d : Die) (s : State) : Host.Outcome State Fault Refusal :=
  if (s.atu d.val).invBusy && (List.range 16).all fun c => (s.dch d.val c).wbLine.isNone || s.dmaStopped d.val c then
    done s (s.modAtu d.val fun x => { x with invBusy := false }.irq 3)
  else done s s

end Sys2Proof.Machine
end

