-- ==== Sys2Proof/Machine/Operands.lean ====
section
/-! DEFINITION. The operands of the logic core's instructions: register names, windows, instruction words, immediates and
data addresses (07 R139 to R146, R152 to R155). -/
namespace Sys2Proof.Machine

/-! ### Registers (Table 07.1) -/

/-- Where the frame of window `w`, and the trap window's frame, stand in `CoreSt.regs`. -/
def winBase (w : Nat) : Nat := 16 + 12 * w
def trapBase : Nat := 136
/-- The frame that an instruction sees: the current window's, or the trap window's while TW is 1. -/
def CoreSt.frame (x : CoreSt) : Nat := if x.tw then trapBase else winBase x.wix
/-- Where a general register stands. -/
def CoreSt.slot (x : CoreSt) (i : Nat) : Nat := if i < 12 then i else x.frame + (i - 12)
/-- Read a register: zr reads 0. -/
def CoreSt.r (x : CoreSt) (i : BitVec 5) : V24 := if i.toNat < 24 then sget 0 x.regs (x.slot i.toNat) else 0
/-- Write a register: a write to zr is discarded. -/
def CoreSt.w (x : CoreSt) (i : BitVec 5) (v : V24) : CoreSt :=
  if i.toNat < 24 then { x with regs := sput x.regs (x.slot i.toNat) v } else x
/-- The twelve words of a window, v0 to v7 and p0 to p3, and a write of all of them. -/
def CoreSt.window (x : CoreSt) (w : Nat) : List V24 := (List.range 12).map fun i => sget 0 x.regs (winBase w + i)
def CoreSt.setWindow (x : CoreSt) (w : Nat) (l : List V24) : CoreSt :=
  { x with regs := sputs x.regs ((padTo 0 12 l).zipIdx.map fun e => (winBase w + e.2, e.1)) }
/-- The argument staging registers a0 to a3. -/
def CoreSt.args (x : CoreSt) : List V24 := (List.range 4).map fun i => sget 0 x.regs (8 + i)
def CoreSt.setArgs (x : CoreSt) (l : List V24) : CoreSt :=
  { x with regs := sputs x.regs ((padTo 0 4 l).zipIdx.map fun e => (8 + e.2, e.1)) }

/-- Register names an ordinary instruction may use (R139): the general registers and zr. -/
def gen (i : BitVec 5) : Bool := i.toNat < 25

/-- The window occupancy bit of window `w`, and its change. -/
def CoreSt.occ (x : CoreSt) (w : Nat) : Bool := x.wom.getLsbD w
def CoreSt.setOcc (x : CoreSt) (w : Nat) (b : Bool) : CoreSt :=
  { x with wom := if b then x.wom ||| BitVec.ofNat 10 (2 ^ w) else x.wom &&& ~~~ BitVec.ofNat 10 (2 ^ w) }

/-! ### Instruction words (R154) -/

/-- The words of an R, an I and a B format instruction with opcode `op` (Table 07.6). -/
def rWord (op : Nat) (r : RForm) : V24 :=
  BitVec.ofNat 24 (op * 2 ^ 18 + r.rd.toNat * 2 ^ 13 + r.rs1.toNat * 2 ^ 8 + r.rs2.toNat * 8 + r.fn.toNat)
def iWord (op : Nat) (i : IForm) : V24 :=
  BitVec.ofNat 24 (op * 2 ^ 18 + i.rd.toNat * 2 ^ 13 + i.rs1.toNat * 2 ^ 8 + i.imm.toNat)
def bWord (op : Nat) (b : BForm) : V24 := BitVec.ofNat 24 (op * 2 ^ 18 + b.cond.toNat * 2 ^ 14 + b.disp.toNat)
/-- The opcode, rd, rs1 and imm8 fields of a word. -/
def wordOp (w : V24) : Nat := field w.toNat 18 6
def wordRd (w : V24) : BitVec 5 := BitVec.ofNat 5 (field w.toNat 13 5)
def wordRs1 (w : V24) : BitVec 5 := BitVec.ofNat 5 (field w.toNat 8 5)
/-- Does an extension word follow (Table 07.7, format E)? -/
def hasExt (op : Nat) : Bool := op == 0x1D || op == 0x22 || op == 0x23 || op == 0x29
def wordLen (w : V24) : Nat := if hasExt (wordOp w) then 2 else 1

/-! ### Immediates and addresses -/

/-- imm8 sign-extended and zero-extended. -/
def immSx (i : IForm) : V24 := i.imm.signExtend 24
def immZx (i : IForm) : V24 := i.imm.setWidth 24
/-- The data address rs1 + sext(imm8), modulo 2^24 (R152). -/
def CoreSt.ea (x : CoreSt) (i : IForm) : V24 := x.r i.rs1 + immSx i
/-- The data address rs1 + extension word. -/
def CoreSt.eax (x : CoreSt) (i : IForm) : V24 := x.r i.rs1 + i.ext
/-- The MPN rs1 + zero-extended imm8, which may exceed 24 bits (R153). -/
def CoreSt.eaPoint (x : CoreSt) (i : IForm) : Nat := (x.r i.rs1).toNat + i.imm.toNat
/-- The branch target: the next word's address plus the sign-extended displacement (R155). -/
def CoreSt.target (x : CoreSt) (b : BForm) : V24 := x.pc + 1 + b.disp.signExtend 24

/-- The region of a data address (Table 07.5). -/
inductive Region where
  | vars | consts | data | spill | none
  deriving DecidableEq, Repr
def regionOf (a : V24) : Region :=
  if a.toNat < 0x40000 then .vars
  else if a.toNat < 0x50000 then .consts
  else if a.toNat < 0x400000 then .none
  else if a.toNat < 0x800000 then .data
  else .spill

/-- May a task of tenant `t` reach word `a` of variable memory (R121)? -/
def imgReach (g : LogicImage) (t : Tenant) (a : Nat) : Bool :=
  t == 0 || g.partitions.any fun p => p.tenant == t && p.lo ≤ a && a < p.hi

/-- The scan's own latest store to a word, otherwise the committed value (Table 07.5). -/
def LogicDie.load (g : LogicDie) (a : Nat) : V24 :=
  match g.journal.reverse.find? fun e => e.1 == a with
  | some e => e.2
  | none => sget 0 g.vars a

/-- The image's task of a number. -/
def LogicDie.task? (g : LogicDie) (n : Nat) : Option Task := g.image.bind fun i => i.tasks.find? fun t => t.no == n

/-- The timer value ms (R157). -/
def LogicDie.ms (g : LogicDie) : V24 := BitVec.ofNat 24 (g.scanTick.toNat / 16)

end Sys2Proof.Machine
end

