-- ==== Sys2Proof/Machine/Flags.lean ====
section
/-! DEFINITION. The flags of the logic core and the arithmetic that sets them (07 R141, R155, R156). -/
namespace Sys2Proof.Machine

/-- The status register st (Table 07.2). -/
def CoreSt.st (x : CoreSt) (c : Nat) : V24 :=
  BitVec.ofNat 24 (flag x.z 0 + flag x.n 1 + flag x.c 2 + flag x.v 3 + flag x.sats 4 + flag x.dzs 5 + flag x.tw 6
    + 256 * (x.wix % 16) + 4096 * x.wom.toNat + 2 ^ 22 * c)
/-- MTS to st writes bits [5:0] only. -/
def CoreSt.setSt (x : CoreSt) (v : V24) : CoreSt :=
  { x with z := v.getLsbD 0, n := v.getLsbD 1, c := v.getLsbD 2, v := v.getLsbD 3, sats := v.getLsbD 4, dzs := v.getLsbD 5 }

/-- Flags ZNCV of a result. -/
def CoreSt.zncv (x : CoreSt) (res : V24) (c v : Bool) : CoreSt := { x with z := res == 0, n := res.msb, c := c, v := v }
/-- Flags ZN of a result: C and V are cleared. -/
def CoreSt.zn (x : CoreSt) (res : V24) : CoreSt := x.zncv res false false
/-- Flags ZN of a saturated result, with V and SATS set on saturation. -/
def CoreSt.znSat (x : CoreSt) (res : V24) (sat : Bool) : CoreSt := { x.zncv res false sat with sats := x.sats || sat }

/-- Does an exact value leave the 24-bit range? -/
def overflows (i : Int) : Bool := i < v24Min || v24Max < i

/-- rd ← the wrapped sum, and the wrapped difference, with flags ZNCV. -/
def CoreSt.add (x : CoreSt) (rd : BitVec 5) (a b : V24) : CoreSt :=
  (x.zncv (a + b) (2 ^ 24 ≤ a.toNat + b.toNat) (overflows (a.toInt + b.toInt))).w rd (a + b)
def CoreSt.cmp (x : CoreSt) (a b : V24) : CoreSt := x.zncv (a - b) (a.toNat < b.toNat) (overflows (a.toInt - b.toInt))
def CoreSt.sub (x : CoreSt) (rd : BitVec 5) (a b : V24) : CoreSt := (x.cmp a b).w rd (a - b)
/-- rd ← an exact value saturated to 24 bits. -/
def CoreSt.satTo (x : CoreSt) (rd : BitVec 5) (i : Int) : CoreSt := (x.znSat (sat24 i) (overflows i)).w rd (sat24 i)
/-- rd ← a value with flags ZN. -/
def CoreSt.logic (x : CoreSt) (rd : BitVec 5) (v : V24) : CoreSt := (x.zn v).w rd v

/-- The shifts by amounts 0 to 31. -/
def shl24 (a : V24) (n : Nat) : V24 := if 24 ≤ n then 0 else a <<< n
def shr24 (a : V24) (n : Nat) : V24 := if 24 ≤ n then 0 else a >>> n
def sha24 (a : V24) (n : Nat) : V24 := a.sshiftRight (min n 23)

/-- The shift of MULF by fn. -/
def mulfShift (fn : BitVec 3) : Nat :=
  match fn.toNat with
  | 0 => 8
  | 1 => 10
  | 2 => 12
  | 3 => 14
  | 4 => 16
  | 5 => 18
  | 6 => 20
  | _ => 23
/-- The exact MULF result before saturation. -/
def mulfExact (a b : V24) (s : Nat) : Int := (a.toInt * b.toInt + 2 ^ (s - 1)) / 2 ^ s

/-- MUL: the 48-bit product into rd and rd + 1, Z of the whole product, N its bit 47. -/
def CoreSt.mul (x : CoreSt) (rd : BitVec 5) (a b : V24) : CoreSt :=
  let p : BitVec 48 := BitVec.ofInt 48 (a.toInt * b.toInt)
  ({ x with z := p == 0, n := p.msb, c := false, v := false }.w rd (p.setWidth 24)).w (rd + 1) ((p >>> 24).setWidth 24)

/-- The branch conditions (Table 07.8). -/
def CoreSt.cond (x : CoreSt) (k : BitVec 4) : Bool :=
  match k.toNat with
  | 0 => true
  | 1 => x.z
  | 2 => !x.z
  | 3 => x.n != x.v
  | 4 => x.n == x.v
  | 5 => x.z || x.n != x.v
  | 6 => !x.z && x.n == x.v
  | 7 => x.c
  | 8 => !x.c
  | 9 => x.c || x.z
  | 10 => !x.c && !x.z
  | 11 => x.v
  | 12 => !x.v
  | 13 => x.sats
  | 14 => x.n
  | _ => !x.n

end Sys2Proof.Machine
end

