-- ==== Sys2Proof/Machine/Scan.lean ====
section
/-! DEFINITION. The transactional scan, the logic modes, restart and retention (06 R121 to R138). -/
namespace Sys2Proof.Machine

/-! ### Small parts -/

def LogicDie.irq (g : LogicDie) (i : Nat) : LogicDie := { g with irqStat := orBit g.irqStat i true }
def State.modCore (s : State) (d c : Nat) (f : CoreSt → CoreSt) : State := s.setCore d c (f (s.core d c))

/-- A die that runs: released, ready, and not in seedling mode (Table 06.1, "any"). -/
def State.dieUp (s : State) (d : Nat) : Bool :=
  d < s.nDies && s.su.phase == .running && s.su.ready.contains d && !s.su.seedling

/-- The module is up: it runs and is not seedling. -/
def State.up (s : State) : Bool := s.su.phase == .running && !s.su.seedling

/-- LSC_HOLD_STAT (Table 06.3). -/
def LogicDie.holdStat (g : LogicDie) : Word :=
  w32 (g.holdTask.toNat + 256 * g.holdCore.toNat + flag g.holdBreak 10 + flag g.stepDone 11)

/-- A change of the logic mode, with its cause, interrupt and event. -/
def State.setMode (s : State) (d : Nat) (m : LogicMode) (cause : Nat) : State :=
  let g := s.die d
  if g.mode = m then s.setDie d { g with cause := BitVec.ofNat 4 cause }
  else (s.setDie d ({ g with mode := m, cause := BitVec.ofNat 4 cause }.irq 1)).event 0 d 1 0 8 []

/-! ### Stopping (R130, Table 06.1) -/

/-- The task and the die that a BKIND 5 binding names, and the variable of a VAR point (02 Table 02.9). -/
def brefTask (b : Word) : Nat := field b.toNat 0 6
def brefDie (b : Word) : Nat := field b.toNat 6 3
def brefVar (b : Word) : Nat := field b.toNat 9 18

/-- The points of the tasks of die `d` that `sel` picks. -/
def State.taskPoints (s : State) (d : Nat) (sel : Nat → Bool) : List (Nat × Desc) :=
  s.pnt.descs.filter fun e => e.2.bkind == 5 && brefDie e.2.bref == d && sel (brefTask e.2.bref)

/-- The stop behaviour of a die's tasks: fallback tasks' output points take FALLBACK, QUAL uncertain, SRC logic (R122). -/
def State.stopBehaviour (s : State) (d : Nat) : State :=
  let fb := match (s.die d).image with
    | none => []
    | some i => (i.tasks.filter fun (t : Task) => t.fallback).map fun (t : Task) => t.no
  s.batch ((s.taskPoints d fb.contains).map fun e => { m := e.1, src := .logic, q := .uncertain, v := e.2.fallback })

/-- Apply an online change (R135). -/
def State.applyOnline (s : State) (d : Nat) : Online → State
  | .var a v r => (s.modDie d fun g => { g with vars := sput g.vars a v }).finish? r {}
  | .const k v r => (s.modDie d fun g => { g with consts := g.consts.set k v }).finish? r {}

/-- The queued online changes are applied, in order of arrival (R135). -/
def State.drainOnline (s : State) (d : Nat) : State :=
  (s.die d).queue.foldl (fun s o => s.applyOnline d o) (s.modDie d fun g => { g with queue := [] })

/-- A LOGIC_STOP completes when no die of its mask still waits (14 R319). -/
def State.stopDone (s : State) (e : Req × Byte) : State :=
  if s.dies.any fun d => (s.die d).stopReqs.any fun x => x.1 == e.1 then s
  else s.finish e.1 { status := if e.2 = 0 then stOk else stWrongMode, r0 := e.2.setWidth 32 }

/-- A LOGIC_HOLD completes when no die of its mask still waits (14 R319). -/
def State.holdDone (s : State) (e : Req × Byte) : State :=
  if s.dies.any fun d => (s.die d).holdReqs.any fun x => x.1 == e.1 then s
  else s.finish e.1 { status := if e.2 = 0 then stOk else stWrongMode, r0 := e.2.setWidth 32 }
/-- The dies of a mask that refused a LOGIC_HOLD gain one that stopped before it was in HOLD. -/
def State.holdRefused (s : State) (r : Req) (m : Byte) : State :=
  s.dies.foldl (fun s d => s.modDie d fun g => { g with
    holdReqs := g.holdReqs.map fun x => if x.1 == r then (x.1, x.2 ||| m) else x }) s
/-- The holds that waited on die `d` are over: it is in HOLD, or it stopped first, which refuses them (DESIGN CHOICE, log entry
39). -/
def State.endHolds (s : State) (d : Nat) (ok : Bool) : State :=
  let m : Byte := if ok then 0 else BitVec.ofNat 8 (2 ^ d)
  (s.die d).holdReqs.foldl (fun s e => (s.holdRefused e.1 m).holdDone (e.1, e.2 ||| m)) (s.modDie d fun g => { g with holdReqs := [] })

/-- Enter STOP: queued changes and the stop behaviour are applied, and the stops that waited complete (14 Table 14.9). -/
def State.toStop (s : State) (d cause : Nat) (fault : Bool) : State :=
  let s := s.drainOnline d
  let l := (s.die d).stopReqs
  let s := s.stopBehaviour d
  let s := s.modDie d fun g => { g with fault := g.fault || fault, pend := false, holding := none, stopReqs := [] }
  (l.foldl State.stopDone (s.setMode d .stop cause)).endHolds d false

/-! ### Ending a scan without a commit (R126 to R128) -/

/-- A step in progress ends: LSC_HOLD_STAT shows where, and its request completes. -/
def State.endStep (s : State) (d c : Nat) : State :=
  let x := s.core d c
  if x.stepping then
    let s := s.modDie d fun g => { g with
      stepDone := true, holdCore := BitVec.ofNat 2 c
      holdTask := match x.task with
        | some t => BitVec.ofNat 6 t
        | none => g.holdTask }
    (s.setCore d c { x with stepping := false, stepReq := none }).finish? x.stepReq { r0 := (s.die d).holdStat }
  else s

/-- Take a core out of the scan. -/
def CoreSt.leave (x : CoreSt) : CoreSt := { x with task := none, rest := [], tw := false, bpPass := false, ending := false }

/-- The open scan ends and leaves no trace; the changes its snapshot took go to the next one (R126, R127). -/
def State.dropScan (s : State) (d : Nat) : State :=
  let s := (List.range 4).foldl (fun s c => s.endStep d c) s
  let s := (List.range 4).foldl (fun s c => s.modCore d c CoreSt.leave) s
  s.modDie d fun g => { g with
    inScan := false, journal := [], outJ := [], ran := []
    carry := sortNat (g.carry ++ ((g.snapshot.filter fun e => mpnDie e.1 == d && e.2.chg).map (·.1)))
    snapshot := [] }

/-- The open scan ends without a skip (R126): it does not count as a scan for the double-trap limit (07 R151). -/
def State.discardScan (s : State) (d : Nat) : State :=
  let t := s.dropScan d
  if (s.die d).inScan then t.modDie d fun g => { g with scanNo := g.scanNo - 1 } else t

/-! ### Hold (R129, 07 R159) -/

/-- HOLD is entered, with its cause, when no core is still in a handler, and the LOGIC_HOLDs that waited complete. -/
def State.holdReached (s : State) (d : Nat) : State :=
  match (s.die d).holding with
  | none => s
  | some cause =>
    if (List.range 4).all fun c => !(s.core d c).tw then
      let g := s.die d
      ((s.setDie d ({ g with
        holding := none, holdAt := if g.mode == LogicMode.hold then g.holdAt else s.now }.irq 3)).setMode d .hold cause).endHolds d true
    else s

/-- Enter HOLD at a core and its task: every core stops at its next boundary in its task's instruction stream. -/
def State.toHold (s : State) (d c cause : Nat) (brk : Bool) (task : Option Nat) : State :=
  (s.modDie d fun g => { g with
    holdBreak := brk, stepDone := false, holdCore := BitVec.ofNat 2 c, holding := some cause
    holdTask := match task with
      | some t => BitVec.ofNat 6 t
      | none => g.holdTask }).holdReached d

/-! ### Skips -/

/-- The task a core runs, as the skip event carries it. -/
def State.coreTask (s : State) (d c : Nat) : Word :=
  match (s.core d c).task with
  | some t => w32 t
  | none => 0xFFFFFFFF

/-- A skip (R126), the skip limit (R128), and a stop that waited (Table 06.2). -/
def State.skipScan (s : State) (d : Nat) : State :=
  let g := s.die d
  if g.inScan then
    let data := (g.seq + 1) :: (List.range 4).map (s.coreTask d)
    let s := s.report { sev := 2, die := d, block := 1, code := 1, data := data }
    let s := s.dropScan d
    let s := s.modDie d fun g =>
      { g with skips := addW g.skips 1, skipConsec := g.skipConsec + 1 }.irq 0
    let g := s.die d
    if g.skipLim != 0 && g.skipLim ≤ g.skipConsec then
      ((s.modDie d fun g => g.irq 2).report { sev := 3, die := d, block := 1, code := 2 }).toStop d 2 true
    else if g.pend then s.toStop d 0 false
    else s.holdReached d
  else s

/-! ### The scan (R123) -/

/-- The first instruction of a task (07 R140): registers and flags at 0, sp at the spill base, frame 0 in window 0. -/
def CoreSt.startTask (x : CoreSt) (t : Task) (rest : List Nat) : CoreSt :=
  { x with
    regs := [], retpc := [], fdepth := [], pc := t.entry, z := false, n := false, c := false, v := false, sats := false
    dzs := false, tw := false, wix := 0, wom := 1, sp := BitVec.ofNat 24 t.spillBase, depth := 0, tnt := t.tenant
    task := some t.no, rest := rest, bpPass := false, dzEvent := false, ending := false }

/-- A core begins the first of the tasks still to run, or has reached the end of its run order. -/
def State.nextTask (s : State) (d c : Nat) : List Nat → State
  | [] => s.modCore d c CoreSt.leave
  | n :: l => match (s.die d).task? n with
    | some t => s.modCore d c fun x => x.startTask t l
    | none => s.nextTask d c l

/-- Copy one cell into the snapshot; a cell of the die is copied with CHG and cleared (02 R36). -/
def State.snapCell (s : State) (d m : Nat) : State :=
  let cell := s.cell m
  let own := mpnDie m == d
  let copy := { cell with chg := cell.chg || (own && (s.die d).carry.contains m) }
  let s := s.modDie d fun g => { g with snapshot := sput g.snapshot m copy, carry := g.carry.filter (· != m) }
  if own && cell.chg then { s with pnt := { s.pnt with cells := sput s.pnt.cells m { cell with chg := false } } } else s

/-- The tasks of an image that a scan with commit sequence `seq` runs (R121). -/
def imgDue (i : LogicImage) (seq : Word) : List Task := i.tasks.filter fun t => seq.toNat % t.div == t.phase

/-- SCAN_START (R123): the snapshot is taken and every core begins its run order. -/
def execScanStart (d : Die) (s : State) : Host.Outcome State Fault Refusal :=
  let g := s.die d.val
  match g.image with
  | none => done s s
  | some i =>
    if g.mode == .run && g.holding.isNone && !g.inScan && s.dieUp d.val then
      let due := imgDue i (g.seq + 1)
      let t := s.setDie d.val { g with
        inScan := true, scanTick := s.tick, scanNo := g.scanNo + 1, holdTicks := 0, journal := [], outJ := [], snapshot := []
        ran := due.map (·.no) }
      let t := (sortNat (due.flatMap (·.inputs))).foldl (fun t m => t.snapCell d.val m) t
      done s ((List.range 4).foldl (fun t c => t.nextTask d.val c ((due.filter fun x => x.core == c).map (·.no))) t)
    else done s s

/-! ### Retention (R131 to R134) -/

/-- Is slot B the older one? -/
def LogicDie.olderB (g : LogicDie) : Bool := g.slotA.good && (!g.slotB.good || serialLt g.slotB.seq g.slotA.seq)
/-- Start a retain write of the staging buffer to the older slot, which holds nothing valid until it completes. -/
def LogicDie.startWrite (g : LogicDie) (now : Nat) (b : RetainSlot) : LogicDie :=
  if g.olderB then
    { g with writing := some true, writeData := b, writeTick := some now, slotB := { g.slotB with good := false } }
  else { g with writing := some false, writeData := b, writeTick := some now, slotA := { g.slotA with good := false } }
/-- A retain write ends; `ok` says whether it read back. -/
def LogicDie.endWrite (g : LogicDie) (ok : Bool) : LogicDie :=
  match g.writing with
  | none => g
  | some b =>
    let x := { g.writeData with good := ok }
    let g := { g with writing := none, retained := g.retained || (ok && g.staging == some g.writeData) }
    if b then { g with slotB := x } else { g with slotA := x }
/-- Stage a commit, and start a write when the interval has passed and none is in progress. -/
def LogicDie.stage (g : LogicDie) (now : Nat) (i : LogicImage) : LogicDie :=
  let b : RetainSlot := {
    vars := i.retained.map fun a => (a, sget 0 g.vars a), seq := g.seq, tick := now, retainId := i.retainId }
  let g := { g with staging := some b, retained := false }
  let due := match g.writeTick with
    | none => true
    | some t => t + msTicks g.retainMs ≤ now
  if g.writing.isNone && due then g.startWrite now b else g

/-- RETAIN_WRITE_COMPLETE (R131). -/
def execRetainWriteComplete (d : Die) (readBack : Bool) (s : State) : Host.Outcome State Fault Refusal :=
  let g := s.die d.val
  if g.writing.isSome then
    let t := s.setDie d.val (g.endWrite readBack)
    if readBack then done s t else done s ((t.modDie d.val fun g => g.irq 4).event 0 d.val 1 0 9 [])
  else done s s

/-- LSC_RETAIN_SEQ: the newest valid slot's sequence. -/
def LogicDie.retainSeq (g : LogicDie) : Word :=
  if g.slotA.good && g.slotB.good then (if serialLt g.slotA.seq g.slotB.seq then g.slotB.seq else g.slotA.seq)
  else if g.slotA.good then g.slotA.seq
  else if g.slotB.good then g.slotB.seq
  else 0xFFFFFFFF

/-- The slot a warm restart takes (R133). -/
def LogicDie.warmSlot (g : LogicDie) (id : Word) : Option RetainSlot :=
  let a := g.slotA.good && g.slotA.retainId == id
  let b := g.slotB.good && g.slotB.retainId == id
  if a && b then some (if serialLt g.slotA.seq g.slotB.seq then g.slotB else g.slotA)
  else if a then some g.slotA
  else if b then some g.slotB
  else none

/-- Enter RUN. -/
def State.toRun (s : State) (d cause : Nat) : State :=
  (s.modDie d fun g => { g with fault := false, pend := false, holding := none, retained := true, staging := none, inScan := false }).setMode d .run cause

/-- Cold restart (R132): every variable from the image, both retain slots invalid, a write in progress included. -/
def State.coldRestart (s : State) (d cause : Nat) (i : LogicImage) : State :=
  (s.modDie d fun g => { g with
    vars := sputs [] i.initVars, resumeSeq := 0xFFFFFFFF, writing := none
    slotA := { g.slotA with good := false }, slotB := { g.slotB with good := false } }).toRun d cause

/-- Warm restart (R133), where a slot qualifies. -/
def State.warmRestart (s : State) (d cause : Nat) (i : LogicImage) : Option State :=
  match (s.die d).warmSlot i.retainId with
  | none => none
  | some r => some ((s.modDie d fun g => { g with
      vars := sputs (sputs [] i.initVars) r.vars, resumeSeq := r.seq, seq := r.seq }).toRun d cause)

/-! ### Commit (R124) -/

/-- The VAR points whose task ran in the scan, with the committed value of their variable (02 Table 02.9). -/
def State.varWrites (s : State) (d : Nat) (ran : List Nat) : List CellWrite :=
  ((s.taskPoints d ran.contains).filter fun e => e.2.ptype == 6).map fun e =>
    { m := e.1, src := .logic, q := .good, v := sget 0 (s.die d).vars (brefVar e.2.bref) }

/-- The banks exchange: the journal's stores stand, and the scan takes its sequence and stamps. -/
def LogicDie.exchange (g : LogicDie) (now : BitVec 64) : LogicDie :=
  { g with vars := sputs g.vars g.journal, seq := g.seq + 1, startTick := g.scanTick, commitTick := now }

/-- The store to each point that was entered last (R124). -/
def lastStores : List OutStore → List OutStore
  | [] => []
  | o :: l => if l.any fun x => x.mpn == o.mpn then lastStores l else o :: lastStores l

/-- The point of a store is bound to the task that stored it, to be written with STP or STPQ (02 R23, Table 02.9). -/
def State.boundTo (s : State) (d : Nat) (o : OutStore) : Bool :=
  match s.desc? o.mpn with
  | some e => e.bkind == 5 && e.ptype != 6 && brefDie e.bref == d && brefTask e.bref == o.task
  | none => false

/-- The outputs of a commit: one batch for each block; a store to a point that is not bound to its task is refused (02 R23). -/
def State.commitOutputs (s : State) (d : Nat) (l : List OutStore) (ran : List Nat) : State :=
  let good := l.filter (s.boundTo d)
  let s := (l.filter fun o => !s.boundTo d o).foldl (fun s o => s.refuseWrite o.mpn) s
  s.batch ((good.map fun o => { m := o.mpn, src := .logic, q := o.qual, v := o.value }) ++ s.varWrites d ran)

/-- The commit of a scan that lasted `us` µs. -/
def State.commitScan (s : State) (d us : Nat) (i : LogicImage) : State :=
  let g := s.die d
  let s := (s.setDie d (g.exchange s.tick)).commitOutputs d (lastStores g.outJ) g.ran
  let s := s.modDie d fun g =>
    { g with
      inScan := false, journal := [], outJ := [], snapshot := [], lastRan := g.ran, skipConsec := 0
      scanLast := w32 us, scanMax := if g.scanMax.toNat < us then w32 us else g.scanMax }.stage s.now i
  let s := s.drainOnline d
  if (s.die d).pend then s.toStop d 0 false else s

/-- Every core has reached the end of its run order: the commit begins. -/
def State.commitDue (s : State) (d : Nat) : Bool := (List.range 4).all fun c => (s.core d c).task.isNone

/-- SCAN_COMMIT (R124): every core has reached the end of its run order. -/
def execScanCommit (d : Die) (us : Nat) (s : State) : Host.Outcome State Fault Refusal :=
  let g := s.die d.val
  match g.image with
  | none => done s s
  | some i =>
    if g.inScan && g.mode == .run && s.commitDue d.val then
      done s (s.commitScan d.val us i)
    else done s s

/-- The open scan has lasted its limit, from the start of its snapshot, the time in HOLD apart (R126). -/
def LogicDie.limitOver (g : LogicDie) (now : Nat) : Bool := g.scanTick.toNat + msTicks g.limit + g.holdTicks ≤ now

/-- SCAN_LIMIT_EXPIRY (R126): a scan in HOLD has its limit suspended, and a commit that has begun completes (Table 06.2). -/
def execScanLimitExpiry (d : Die) (s : State) : Host.Outcome State Fault Refusal :=
  let g := s.die d.val
  if g.mode == .run && g.holding.isNone && g.limitOver s.now && !s.commitDue d.val then done s (s.skipScan d.val) else done s s

/-! ### Mode commands (Table 06.1) -/

/-- LOGIC_RUN cold and warm, from STOP with a valid image. -/
def State.logicRun (s : State) (d : Nat) (warm : Bool) : BitVec 16 × State :=
  match (s.die d).image with
  | none => (stWrongMode, s)
  | some i =>
    if (s.die d).mode == .stop && s.dieUp d then
      if warm then
        match s.warmRestart d 0 i with
        | some t => (stOk, t)
        | none => (stMismatch, s.event 0 d 1 0 7 [])
      else (stOk, s.coldRestart d 0 i)
    else (stWrongMode, s)

/-- LOGIC_STOP: in RUN with a scan open it waits for that scan's commit; otherwise the die stops now. -/
def State.logicStop (s : State) (d : Nat) : BitVec 16 × State :=
  let g := s.die d
  match g.mode with
  | .stop => (stWrongMode, s)
  | .run => if g.inScan then (stOk, s.setDie d { g with pend := true }) else (stOk, s.toStop d 0 false)
  | .hold => (stOk, (s.discardScan d).toStop d 0 false)

/-- LOGIC_HOLD: the core that LSC_HOLD_STAT names is left open. -/
def State.logicHold (s : State) (d : Nat) : BitVec 16 × State :=
  if (s.die d).mode == .run && (s.die d).holding.isNone then
    let (n, s) := s.draw
    (stOk, s.toHold d (n % 4) 0 false (s.core d (n % 4)).task)
  else (stWrongMode, s)

/-- LOGIC_STEP: the named core executes one instruction; on a core with no task left the step is over at once. -/
def State.logicStep (s : State) (d c : Nat) (r : Option Req) : BitVec 16 × State :=
  let g := s.die d
  if g.mode == .hold && !g.fault && !(s.core d c).stepping then
    let s := s.setDie d { g with stepDone := false, holdBreak := false }
    let s := s.modCore d c fun x => { x with stepping := true, stepReq := r }
    if (s.core d c).task.isNone then (stOk, s.endStep d c) else (stOk, s)
  else (stWrongMode, s)

/-- LOGIC_RESUME. -/
def State.logicResume (s : State) (d : Nat) : BitVec 16 × State :=
  let g := s.die d
  if g.mode == .hold && !g.fault then
    (stOk, (s.setDie d { g with holdTicks := g.holdTicks + (s.now - g.holdAt) }).setMode d .run 0)
  else (stWrongMode, s)

/-- A write of LSC_CTRL (R138): a refused one is ignored and sets REFUSED. -/
def State.lscCtrl (s : State) (d v : Nat) : State :=
  let (st, t) := match field v 0 3 with
    | 1 => s.logicRun d false
    | 2 => s.logicRun d true
    | 3 => s.logicStop d
    | 4 => s.logicHold d
    | 5 => s.logicStep d (field v 8 2) none
    | 6 => s.logicResume d
    | _ => (stWrongMode, s)
  if st = stOk then t else t.modDie d fun g => g.irq 5

/-- A commit that has begun, which lasts from the start of its snapshot. -/
def State.openCommit (s : State) (d : Nat) : State :=
  match (s.die d).image with
  | none => s
  | some i =>
    let g := s.die d
    if g.inScan && g.mode == .run && s.commitDue d then s.commitScan d ((s.tick - g.scanTick).toNat * 125 / 2) i else s

/-- Power-fail at a die (R134): a commit that has begun completes (Table 06.2), or the open scan is dropped uncounted, and the
last commit is retained. -/
def State.logicPowerFail (s : State) (d : Nat) : State :=
  let s := (s.openCommit d).discardScan d
  let s := s.modDie d fun g =>
    let g := { g.endWrite true with holding := none }
    match g.staging with
    | some b => if g.retained then g else (g.startWrite s.now b).endWrite true
    | none => g
  if (s.die d).mode == .stop then s else s.setMode d .stop 5

/-- The start mode of a die after a load (Table 06.1). -/
def State.applyStartMode (s : State) (d : Nat) : State :=
  let s := s.modDie d fun g => { g with started := true }
  match (s.die d).image with
  | none => s
  | some i => match i.start with
    | .stop => s.stopBehaviour d
    | .cold => s.coldRestart d 1 i
    | .warm => match s.warmRestart d 1 i with
      | some t => t
      | none => s.event 0 d 1 0 7 []
    | .warmElseCold => match s.warmRestart d 1 i with
      | some t => t
      | none => s.coldRestart d 1 i

end Sys2Proof.Machine
end

