-- ==== Sys2Proof/Machine/Traps.lean ====
section
/-! DEFINITION. Traps of the logic core, breakpoints, and how an instruction runs (07 R147 to R151, R159). -/
namespace Sys2Proof.Machine

/-! ### Raising a trap -/

/-- Count a double trap of a core in `task`; the third within ten scans puts the die into HOLD with FAULT (R151). -/
def State.dtrapLimit (s : State) (d c : Nat) (task : Option Nat) : State :=
  let g := s.die d
  let l := (g.scanNo :: (s.core d c).dtraps).filter fun n => g.scanNo < n + 10
  if 3 ≤ l.length then
    let s := s.modCore d c fun x => { x with dtraps := [] }
    if (s.die d).mode == .stop then s
    else (s.modDie d fun g => { g with fault := true }.irq 2).toHold d c 3 false task
  else s.modCore d c fun x => { x with dtraps := l }

/-- A core executes instructions: in RUN, while it completes a handler or a step on the way into or in HOLD, and for the one
instruction that is under way when another core's double trap skips the scan (R159). -/
def State.coreRuns (s : State) (d c : Nat) : Bool :=
  let g := s.die d
  let x := s.core d c
  d < s.nDies && x.task.isSome
    && (x.ending || (g.inScan && ((g.mode == .run && (g.holding.isNone || x.tw)) || (g.mode == .hold && (x.stepping || x.tw)))))

/-- The other cores complete the instruction that was under way as `old` shows them. -/
def State.finishing (s old : State) (d c : Nat) : State :=
  ((List.range 4).filter fun j => j != c && old.coreRuns d j).foldl (fun s j => s.modCore d j fun y =>
    let o := old.core d j
    { y with task := o.task, rest := o.rest, tw := o.tw, ending := true }) s

/-- A double trap (R150): the task is aborted and the scan skipped. The event carries the core, the task, both causes, the
task's PC and sp. -/
def State.doubleTrap (s : State) (d c cause : Nat) : State :=
  let x := s.core d c
  let s := s.modDie d fun g => { g with dtraps := addW g.dtraps 1 }
  let pc := sget 0 x.regs (trapBase + 8)
  let data := [w32 c, s.coreTask d c, w32 x.tc.toNat, w32 cause, w32 pc.toNat, w32 x.sp.toNat]
  let s := s.report { tenant := x.tnt, sev := 3, die := d, block := 1, inst := c, code := 4, data := data }
  ((s.skipScan d).finishing s d c).dtrapLimit d c x.task

/-- Raise a trap (R147): the trap window takes the PC, st, the data address and the instruction word, and the core goes on at
the cause's handler. In the trap window it is a double trap. -/
def State.trap (s : State) (d c cause : Nat) (addr w : V24) : State :=
  let x := s.core d c
  if x.tw then s.doubleTrap d c cause
  else
    let id := match (s.die d).image with
      | some i => i.imageId
      | none => 0
    s.setCore d c { x with
      regs := sputs x.regs [(trapBase + 8, x.pc), (trapBase + 9, x.st c), (trapBase + 10, addr), (trapBase + 11, w)]
      tw := true, tc := BitVec.ofNat 8 cause, pc := Config.handlerPc id cause }

/-- A breakpoint (R148): the die enters HOLD with this core at the stop point; a die that a skip has stopped stays in STOP. -/
def State.breakpoint (s : State) (d c : Nat) : State :=
  if (s.die d).mode == .stop then s else (s.toHold d c 4 true (s.core d c).task).endStep d c

/-! ### Running an instruction -/

/-- Does the code end before the words of an instruction at pc do? Handlers are not part of the check. -/
def State.beyond (s : State) (d c len : Nat) : Bool :=
  let x := s.core d c
  match (s.die d).image with
  | some i => !x.tw && i.codeLen < x.pc.toNat + len
  | none => false

/-- An enabled hardware breakpoint stands at pc and has not been reported there (R148, R149); none is compared in the trap
window (R150), for a step or for an instruction that is already under way. -/
def CoreSt.atBp (x : CoreSt) : Bool := !x.tw && !x.stepping && !x.bpPass && !x.ending && x.bps.any fun e => e.2 == x.pc

/-- An instruction boundary ends a step; a core that completed a handler in HOLD has stopped. -/
def State.boundary (s : State) (d c : Nat) : State := if (s.core d c).tw then s else s.endStep d c

/-- The instruction of word `w` completes with the core as `x`, and the PC at the following word. -/
def State.retire (s : State) (d c : Nat) (x : CoreSt) (w : V24) : State :=
  (s.setCore d c { x with pc := x.pc + BitVec.ofNat 24 (wordLen w), bpPass := false }).boundary d c
/-- The same with the PC as `x` has it: a jump. -/
def State.jump (s : State) (d c : Nat) (x : CoreSt) : State := (s.setCore d c { x with bpPass := false }).boundary d c

/-- After an instruction: a core that only completed the one under way leaves the scan, which may let HOLD be entered (R159). -/
def State.afterInstr (s : State) (d c : Nat) (ending : Bool) : State :=
  if ending then (s.modCore d c CoreSt.leave).holdReached d else s

/-- Run the instruction of word `w` on a core: a code address beyond the image and a broken rule of the instruction are
illegal; then a breakpoint; then its own effect (R148). -/
def State.instr (s : State) (k : CoreRef) (w : V24) (legal : Bool) (body : CoreSt → State) : State :=
  let d := k.die.val
  let c := k.core.val
  if s.coreRuns d c then
    (if s.beyond d c (wordLen w) then
      let (n, s) := s.draw
      s.trap d c 7 0 (BitVec.ofNat 24 n)
    else if !legal then s.trap d c 7 0 w
    else if (s.core d c).atBp then (s.modCore d c fun x => { x with bpPass := true }).breakpoint d c
    else body (s.core d c)).afterInstr d c (s.core d c).ending
  else s

/-- An instruction that only changes its core. -/
def State.pureInstr (s : State) (k : CoreRef) (w : V24) (legal : Bool) (f : CoreSt → CoreSt) : State :=
  s.instr k w legal fun x => s.retire k.die.val k.core.val (f x) w

/-- ILLEGAL_INSTRUCTION (R148, R156): the word at pc is one whose opcode Table 07.7 does not list, 0x00 among them. A listed
word is the instruction of its own row, which also traps where a field rule is broken. -/
def execIllegalInstruction (k : CoreRef) (w : V24) (s : State) : Host.Outcome State Fault Refusal :=
  if (decodeCore k w 0).isNone then done s (s.instr k w false fun _ => s) else done s s

/-- HW_BREAKPOINT (R148): the core's next instruction is at an enabled breakpoint. -/
def execHwBreakpoint (k : CoreRef) (s : State) : Host.Outcome State Fault Refusal :=
  let d := k.die.val
  let c := k.core.val
  if s.coreRuns d c && (s.core d c).atBp then
    done s ((s.modCore d c fun x => { x with bpPass := true }).breakpoint d c)
  else done s s

end Sys2Proof.Machine
end

