-- ==== Sys2Proof/Machine/Alu.lean ====
section
/-! DEFINITION. The arithmetic, logic, shift and compare instructions of the logic core (07 Table 07.7). -/
namespace Sys2Proof.Machine

/-- The register rules of a three-register instruction, of one that writes no register, and of an immediate one (R139). -/
def legalR (r : RForm) : Bool := gen r.rd && gen r.rs1 && gen r.rs2 && r.fn == 0
def legalCmp (r : RForm) : Bool := r.rd == 0 && gen r.rs1 && gen r.rs2 && r.fn == 0
def legalI (i : IForm) : Bool := gen i.rd && gen i.rs1
/-- imm8 of a shift: [7:5] must be 0. -/
def legalShift (i : IForm) : Bool := legalI i && i.imm.toNat < 32

/-- ADD (rd ← rs1 + rs2, wrapping; flags ZNCV). -/
def execAdd (k : CoreRef) (r : RForm) (s : State) : Host.Outcome State Fault Refusal :=
  done s (s.pureInstr k (rWord 0x01 r) (legalR r) fun x => x.add r.rd (x.r r.rs1) (x.r r.rs2))

/-- ADDS (rd ← rs1 + rs2, saturated; ZN, V and SATS on saturation). -/
def execAdds (k : CoreRef) (r : RForm) (s : State) : Host.Outcome State Fault Refusal :=
  done s (s.pureInstr k (rWord 0x02 r) (legalR r) fun x => x.satTo r.rd ((x.r r.rs1).toInt + (x.r r.rs2).toInt))

/-- SUB (rd ← rs1 − rs2, wrapping; flags ZNCV, C the borrow). -/
def execSub (k : CoreRef) (r : RForm) (s : State) : Host.Outcome State Fault Refusal :=
  done s (s.pureInstr k (rWord 0x03 r) (legalR r) fun x => x.sub r.rd (x.r r.rs1) (x.r r.rs2))

/-- SUBS (rd ← rs1 − rs2, saturated). -/
def execSubs (k : CoreRef) (r : RForm) (s : State) : Host.Outcome State Fault Refusal :=
  done s (s.pureInstr k (rWord 0x04 r) (legalR r) fun x => x.satTo r.rd ((x.r r.rs1).toInt - (x.r r.rs2).toInt))

/-- AND (rd ← rs1 and rs2; ZN). -/
def execAnd (k : CoreRef) (r : RForm) (s : State) : Host.Outcome State Fault Refusal :=
  done s (s.pureInstr k (rWord 0x05 r) (legalR r) fun x => x.logic r.rd ((x.r r.rs1) &&& (x.r r.rs2)))

/-- OR (rd ← rs1 or rs2; ZN). -/
def execOr (k : CoreRef) (r : RForm) (s : State) : Host.Outcome State Fault Refusal :=
  done s (s.pureInstr k (rWord 0x06 r) (legalR r) fun x => x.logic r.rd ((x.r r.rs1) ||| (x.r r.rs2)))

/-- XOR (rd ← rs1 xor rs2; ZN). -/
def execXor (k : CoreRef) (r : RForm) (s : State) : Host.Outcome State Fault Refusal :=
  done s (s.pureInstr k (rWord 0x07 r) (legalR r) fun x => x.logic r.rd ((x.r r.rs1) ^^^ (x.r r.rs2)))

/-- SHL (rd ← rs1 << rs2[4:0]; ZN). -/
def execShl (k : CoreRef) (r : RForm) (s : State) : Host.Outcome State Fault Refusal :=
  done s (s.pureInstr k (rWord 0x08 r) (legalR r) fun x => x.logic r.rd (shl24 (x.r r.rs1) ((x.r r.rs2).toNat % 32)))

/-- SHR (rd ← rs1 shifted right logically by rs2[4:0]; ZN). -/
def execShr (k : CoreRef) (r : RForm) (s : State) : Host.Outcome State Fault Refusal :=
  done s (s.pureInstr k (rWord 0x09 r) (legalR r) fun x => x.logic r.rd (shr24 (x.r r.rs1) ((x.r r.rs2).toNat % 32)))

/-- SHA (rd ← rs1 shifted right arithmetically by rs2[4:0]; ZN). -/
def execSha (k : CoreRef) (r : RForm) (s : State) : Host.Outcome State Fault Refusal :=
  done s (s.pureInstr k (rWord 0x0A r) (legalR r) fun x => x.logic r.rd (sha24 (x.r r.rs1) ((x.r r.rs2).toNat % 32)))

/-- MUL (signed 48-bit product into rd and rd + 1; rd even and at most 22). -/
def execMul (k : CoreRef) (r : RForm) (s : State) : Host.Outcome State Fault Refusal :=
  done s (s.pureInstr k (rWord 0x0B r) (legalR r && r.rd.toNat % 2 == 0 && r.rd.toNat ≤ 22) fun x => x.mul r.rd (x.r r.rs1) (x.r r.rs2))

/-- MULF (rd ← (rs1 × rs2 + 2^(s−1)) >> s, saturated). -/
def execMulf (k : CoreRef) (r : RForm) (s : State) : Host.Outcome State Fault Refusal :=
  done s (s.pureInstr k (rWord 0x0C r) (gen r.rd && gen r.rs1 && gen r.rs2) fun x => x.satTo r.rd (mulfExact (x.r r.rs1) (x.r r.rs2) (mulfShift r.fn)))

/-- DIV (rd ← rs1 / rs2, signed, truncated towards 0, saturated; rs2 = 0 is the divide-by-zero trap). -/
def execDiv (k : CoreRef) (r : RForm) (s : State) : Host.Outcome State Fault Refusal :=
  done s (s.instr k (rWord 0x0D r) (legalR r) fun x =>
    if x.r r.rs2 = 0 then s.trap k.die.val k.core.val 3 0 (rWord 0x0D r)
    else s.retire k.die.val k.core.val (x.satTo r.rd ((x.r r.rs1).toInt.tdiv (x.r r.rs2).toInt)) (rWord 0x0D r))

/-- REM (rd ← remainder with the sign of rs1; ZN; rs2 = 0 is the divide-by-zero trap). -/
def execRem (k : CoreRef) (r : RForm) (s : State) : Host.Outcome State Fault Refusal :=
  done s (s.instr k (rWord 0x0E r) (legalR r) fun x =>
    if x.r r.rs2 = 0 then s.trap k.die.val k.core.val 3 0 (rWord 0x0E r)
    else s.retire k.die.val k.core.val
      (x.logic r.rd (BitVec.ofInt 24 ((x.r r.rs1).toInt.tmod (x.r r.rs2).toInt))) (rWord 0x0E r))

/-- CMP (flags of rs1 − rs2; rd must be 0). -/
def execCmp (k : CoreRef) (r : RForm) (s : State) : Host.Outcome State Fault Refusal :=
  done s (s.pureInstr k (rWord 0x0F r) (legalCmp r) fun x => x.cmp (x.r r.rs1) (x.r r.rs2))

/-- MIN (rd ← signed minimum; ZN). -/
def execMin (k : CoreRef) (r : RForm) (s : State) : Host.Outcome State Fault Refusal :=
  done s (s.pureInstr k (rWord 0x10 r) (legalR r) fun x => x.logic r.rd (if (x.r r.rs1).slt (x.r r.rs2) then x.r r.rs1 else x.r r.rs2))

/-- MAX (rd ← signed maximum; ZN). -/
def execMax (k : CoreRef) (r : RForm) (s : State) : Host.Outcome State Fault Refusal :=
  done s (s.pureInstr k (rWord 0x11 r) (legalR r) fun x => x.logic r.rd (if (x.r r.rs1).slt (x.r r.rs2) then x.r r.rs2 else x.r r.rs1))

/-- ADDI (rd ← rs1 + sext(imm8), wrapping; ZNCV). -/
def execAddi (k : CoreRef) (i : IForm) (s : State) : Host.Outcome State Fault Refusal :=
  done s (s.pureInstr k (iWord 0x14 i) (legalI i) fun x => x.add i.rd (x.r i.rs1) (immSx i))

/-- ADDSI (rd ← rs1 + sext(imm8), saturated). -/
def execAddsi (k : CoreRef) (i : IForm) (s : State) : Host.Outcome State Fault Refusal :=
  done s (s.pureInstr k (iWord 0x15 i) (legalI i) fun x => x.satTo i.rd ((x.r i.rs1).toInt + (immSx i).toInt))

/-- ANDI (rd ← rs1 and zext(imm8); ZN). -/
def execAndi (k : CoreRef) (i : IForm) (s : State) : Host.Outcome State Fault Refusal :=
  done s (s.pureInstr k (iWord 0x16 i) (legalI i) fun x => x.logic i.rd ((x.r i.rs1) &&& immZx i))

/-- ORI (rd ← rs1 or zext(imm8); ZN). -/
def execOri (k : CoreRef) (i : IForm) (s : State) : Host.Outcome State Fault Refusal :=
  done s (s.pureInstr k (iWord 0x17 i) (legalI i) fun x => x.logic i.rd ((x.r i.rs1) ||| immZx i))

/-- XORI (rd ← rs1 xor zext(imm8); ZN). -/
def execXori (k : CoreRef) (i : IForm) (s : State) : Host.Outcome State Fault Refusal :=
  done s (s.pureInstr k (iWord 0x18 i) (legalI i) fun x => x.logic i.rd ((x.r i.rs1) ^^^ immZx i))

/-- SHLI (as SHL with amount imm8[4:0]). -/
def execShli (k : CoreRef) (i : IForm) (s : State) : Host.Outcome State Fault Refusal :=
  done s (s.pureInstr k (iWord 0x19 i) (legalShift i) fun x => x.logic i.rd (shl24 (x.r i.rs1) i.imm.toNat))

/-- SHRI (as SHR with amount imm8[4:0]). -/
def execShri (k : CoreRef) (i : IForm) (s : State) : Host.Outcome State Fault Refusal :=
  done s (s.pureInstr k (iWord 0x1A i) (legalShift i) fun x => x.logic i.rd (shr24 (x.r i.rs1) i.imm.toNat))

/-- SHAI (as SHA with amount imm8[4:0]). -/
def execShai (k : CoreRef) (i : IForm) (s : State) : Host.Outcome State Fault Refusal :=
  done s (s.pureInstr k (iWord 0x1B i) (legalShift i) fun x => x.logic i.rd (sha24 (x.r i.rs1) i.imm.toNat))

/-- CMPI (flags of rs1 − sext(imm8); rd must be 0). -/
def execCmpi (k : CoreRef) (i : IForm) (s : State) : Host.Outcome State Fault Refusal :=
  done s (s.pureInstr k (iWord 0x1C i) (i.rd == 0 && gen i.rs1) fun x => x.cmp (x.r i.rs1) (immSx i))

/-- LDI (rd ← extension word; rs1 and imm8 must be 0; no flags). -/
def execLdi (k : CoreRef) (i : IForm) (s : State) : Host.Outcome State Fault Refusal :=
  done s (s.pureInstr k (iWord 0x1D i) (gen i.rd && i.rs1 == 0 && i.imm == 0) fun x => x.w i.rd i.ext)

end Sys2Proof.Machine
end

