-- ==== Sys2Proof/Machine/LoadStore.lean ====
section
/-! DEFINITION. The load, store, point and timer instructions of the logic core (07 R152, R153, R157, R158). -/
namespace Sys2Proof.Machine

/-! ### Variable memory and the constant table -/

/-- The trap of a data access, if any: an address outside the task's partition is a tenant violation, a region that the
instruction does not reach a translation fault (Table 07.5). -/
def State.accessTrap (s : State) (d c : Nat) (a : V24) (load : Bool) : Option Nat :=
  match regionOf a with
  | .vars => match (s.die d).image with
    | some i => if imgReach i (s.core d c).tnt a.toNat then none else some 4
    | none => some 4
  | .consts => if load then none else some 5
  | _ => some 5

/-- The value of a word of variable memory or of the constant table. -/
def State.loadWord (s : State) (d : Nat) (a : V24) : V24 :=
  if regionOf a == .consts then ((s.die d).consts[a.toNat - 0x40000]?).getD 0 else (s.die d).load a.toNat

/-- Enter a store in the journal (06 R124). -/
def State.storeWord (s : State) (d : Nat) (a v : V24) : State :=
  s.modDie d fun g => { g with journal := g.journal ++ [(a.toNat, v)] }

/-- An instruction that loads word `a` and changes its core with the value. -/
def State.loadInstr (s : State) (d c : Nat) (w a : V24) (load : Bool) (f : V24 → CoreSt) : State :=
  match s.accessTrap d c a load with
  | some n => s.trap d c n a w
  | none => s.retire d c (f (s.loadWord d a)) w

/-- An instruction that stores `v` to word `a`. -/
def State.storeInstr (s : State) (d c : Nat) (w a v : V24) : State :=
  match s.accessTrap d c a false with
  | some n => s.trap d c n a w
  | none => (s.storeWord d a v).retire d c (s.core d c) w

/-- LD (rd ← word [rs1 + sext(imm8)]). -/
def execLd (k : CoreRef) (i : IForm) (s : State) : Host.Outcome State Fault Refusal :=
  done s (s.instr k (iWord 0x20 i) (legalI i) fun x =>
    s.loadInstr k.die.val k.core.val (iWord 0x20 i) (x.ea i) true fun v => x.w i.rd v)

/-- ST (word [rs1 + sext(imm8)] ← rd, through the journal). -/
def execSt (k : CoreRef) (i : IForm) (s : State) : Host.Outcome State Fault Refusal :=
  done s (s.instr k (iWord 0x21 i) (legalI i) fun x =>
    s.storeInstr k.die.val k.core.val (iWord 0x21 i) (x.ea i) (x.r i.rd))

/-- The trap of an access to DRAM that does not go through. -/
def accCause (e : AccErr) : Nat := if e = .integ then 6 else 5

/-- LDX (rd ← word [rs1 + extension]; it alone reaches task data, through the ATU with the tenant's context of class 1). -/
def execLdx (k : CoreRef) (i : IForm) (s : State) : Host.Outcome State Fault Refusal :=
  let d := k.die.val
  let c := k.core.val
  done s (s.instr k (iWord 0x22 i) (legalI i && i.imm == 0) fun x =>
    let a := x.eax i
    if regionOf a == .data then
      match s.readVa d (s.ctxOf x.tnt 1) c (4 * a.toNat) 4 with
      | (.ok l, t) => t.retire d c (x.w i.rd (BitVec.ofNat 24 (ofLe l))) (iWord 0x22 i)
      | (.error (e, _), t) => t.trap d c (accCause e) a (iWord 0x22 i)
    else s.loadInstr d c (iWord 0x22 i) a true fun v => x.w i.rd v)

/-- STX (word [rs1 + extension] ← rd, through the journal, R158). -/
def execStx (k : CoreRef) (i : IForm) (s : State) : Host.Outcome State Fault Refusal :=
  done s (s.instr k (iWord 0x23 i) (legalI i && i.imm == 0) fun x =>
    s.storeInstr k.die.val k.core.val (iWord 0x23 i) (x.eax i) (x.r i.rd))

/-! ### Points (R153) -/

/-- May the running task address this cell? `out` picks the declared output set, otherwise the input set; a tenant task only
reads a landlord's SHR point (02 R27). -/
def State.pointOk (s : State) (d c m : Nat) (out : Bool) : Bool :=
  let x := s.core d c
  let listed := match x.task.bind (s.die d).task? with
    | some t => (if out then t.outputs else t.inputs).contains m
    | none => false
  let seen := match s.desc? m with
    | some e => sees x.tnt e && (!out || x.tnt == 0 || e.tenant == x.tnt)
    | none => false
  m < 262144 && m < s.nPoints && seen && listed

/-- The snapshot cell of a declared input. -/
def LogicDie.snap (g : LogicDie) (m : Nat) : Cell := sget {} g.snapshot m

/-- Enter an output store in the journal. -/
def State.storePoint (s : State) (d : Nat) (o : OutStore) : State := s.modDie d fun g => { g with outJ := g.outJ ++ [o] }

/-- LDP (rd ← VALUE of the snapshot cell). -/
def execLdp (k : CoreRef) (i : IForm) (s : State) : Host.Outcome State Fault Refusal :=
  let d := k.die.val
  let c := k.core.val
  done s (s.instr k (iWord 0x24 i) (legalI i) fun x =>
    if s.pointOk d c (x.eaPoint i) false then
      s.retire d c (x.w i.rd ((s.die d).snap (x.eaPoint i)).value) (iWord 0x24 i)
    else s.trap d c 4 (BitVec.ofNat 24 (x.eaPoint i)) (iWord 0x24 i))

/-- LDPS (rd ← status byte of the snapshot cell, in [7:0]). -/
def execLdps (k : CoreRef) (i : IForm) (s : State) : Host.Outcome State Fault Refusal :=
  let d := k.die.val
  let c := k.core.val
  done s (s.instr k (iWord 0x25 i) (legalI i) fun x =>
    if s.pointOk d c (x.eaPoint i) false then
      s.retire d c (x.w i.rd (BitVec.ofNat 24 (cellByte ((s.die d).snap (x.eaPoint i))))) (iWord 0x25 i)
    else s.trap d c 4 (BitVec.ofNat 24 (x.eaPoint i)) (iWord 0x25 i))

/-- STP (output cell ← rd, QUAL good, SRC logic, through the journal). -/
def execStp (k : CoreRef) (i : IForm) (s : State) : Host.Outcome State Fault Refusal :=
  let d := k.die.val
  let c := k.core.val
  done s (s.instr k (iWord 0x26 i) (legalI i) fun x =>
    if s.pointOk d c (x.eaPoint i) true then
      (s.storePoint d { mpn := x.eaPoint i, value := x.r i.rd, task := x.task.getD 0 }).retire d c x (iWord 0x26 i)
    else s.trap d c 4 (BitVec.ofNat 24 (x.eaPoint i)) (iWord 0x26 i))

/-- STPQ (output cell at MPN rs1 ← rs2, QUAL bits [1:0] of register rd, SRC logic). -/
def execStpq (k : CoreRef) (r : RForm) (s : State) : Host.Outcome State Fault Refusal :=
  let d := k.die.val
  let c := k.core.val
  done s (s.instr k (rWord 0x27 r) (legalR r) fun x =>
    let m := (x.r r.rs1).toNat
    if s.pointOk d c m true then
      (s.storePoint d { mpn := m, value := x.r r.rs2, qual := qualOf ((x.r r.rd).toNat % 4), task := x.task.getD 0 }).retire d c x (rWord 0x27 r)
    else s.trap d c 4 (x.r r.rs1) (rWord 0x27 r))

/-! ### Timers (R157) -/

/-- TSTART (word [rs1 + sext(imm8)] ← ms; rd is not used). -/
def execTstart (k : CoreRef) (i : IForm) (s : State) : Host.Outcome State Fault Refusal :=
  done s (s.instr k (iWord 0x30 i) (i.rd == 0 && gen i.rs1) fun x =>
    s.storeInstr k.die.val k.core.val (iWord 0x30 i) (x.ea i) (s.die k.die.val).ms)

/-- TELAP (rd ← (ms − word [rs1 + sext(imm8)]) mod 2^24). -/
def execTelap (k : CoreRef) (i : IForm) (s : State) : Host.Outcome State Fault Refusal :=
  done s (s.instr k (iWord 0x31 i) (legalI i) fun x =>
    s.loadInstr k.die.val k.core.val (iWord 0x31 i) (x.ea i) false fun v => x.w i.rd ((s.die k.die.val).ms - v))

/-- TDONE (rd ← 1 when (ms − word [rs1]) mod 2^24 ≥ rs2 unsigned, else 0; Z alone is set). -/
def execTdone (k : CoreRef) (r : RForm) (s : State) : Host.Outcome State Fault Refusal :=
  done s (s.instr k (rWord 0x32 r) (legalR r) fun x =>
    s.loadInstr k.die.val k.core.val (rWord 0x32 r) (x.r r.rs1) false fun v =>
      let yes := (x.r r.rs2).toNat ≤ ((s.die k.die.val).ms - v).toNat
      { x with z := !yes }.w r.rd (if yes then 1 else 0))

end Sys2Proof.Machine
end

