-- ==== Sys2Proof/Machine/Control.lean ====
section
/-! DEFINITION. The branch, call, task, trap, special register and trap window instructions of the logic core (07 R142 to
R150, Table 07.7). -/
namespace Sys2Proof.Machine

/-- BR (when cond holds, jump, R155). -/
def execBr (k : CoreRef) (b : BForm) (s : State) : Host.Outcome State Fault Refusal :=
  done s (s.instr k (bWord 0x28 b) true fun x =>
    if x.cond b.cond then s.jump k.die.val k.core.val { x with pc := x.target b }
    else s.retire k.die.val k.core.val x (bWord 0x28 b))

/-! ### Calls (R142, R143) -/

/-- The next window and the one before. -/
def CoreSt.next (x : CoreSt) : Nat := (x.wix + 1) % 10
def CoreSt.prev (x : CoreSt) : Nat := (x.wix + 9) % 10

/-- A call of `target` by the instruction of word `w` (R142). In the trap window it is a double trap, whose second cause the
spec does not name. -/
def State.call (s : State) (d c : Nat) (w target : V24) : State :=
  let x := s.core d c
  if x.tw then
    let (n, s) := s.draw
    s.doubleTrap d c (n % 256)
  else if x.occ x.next then s.trap d c 1 0 w
  else
    let y := (x.setOcc x.next true).setWindow x.next (List.replicate 8 0 ++ x.args)
    s.jump d c { y with
      wix := x.next, retpc := sput y.retpc x.next (x.pc + BitVec.ofNat 24 (wordLen w))
      fdepth := sput y.fdepth x.next (BitVec.ofNat 24 (x.depth + 1)), depth := x.depth + 1, pc := target }

/-- CALL (call the extension word's address; cond and displacement must be 0). -/
def execCall (k : CoreRef) (b : BForm) (s : State) : Host.Outcome State Fault Refusal :=
  done s (s.instr k (bWord 0x29 b) (b.cond == 0 && b.disp == 0) fun _ => s.call k.die.val k.core.val (bWord 0x29 b) b.ext)

/-- CALLR (call the address in rs1). -/
def execCallr (k : CoreRef) (r : RForm) (s : State) : Host.Outcome State Fault Refusal :=
  done s (s.instr k (rWord 0x2A r) (r.rd == 0 && gen r.rs1 && r.rs2 == 0 && r.fn == 0) fun x =>
    s.call k.die.val k.core.val (rWord 0x2A r) (x.r r.rs1))

/-- All fields 0. -/
def zeroR (r : RForm) : Bool := r.rd == 0 && r.rs1 == 0 && r.rs2 == 0 && r.fn == 0

/-- RET (R143): illegal at call depth 0. -/
def execRet (k : CoreRef) (r : RForm) (s : State) : Host.Outcome State Fault Refusal :=
  let d := k.die.val
  let c := k.core.val
  let y := s.core d c
  done s (s.instr k (rWord 0x2B r) (zeroR r && (y.tw || y.depth != 0)) fun x =>
    if x.tw then
      let (n, s) := s.draw
      s.doubleTrap d c (n % 256)
    else if !x.occ x.prev then s.trap d c 2 0 (rWord 0x2B r)
    else
      let y := (x.setArgs ((x.window x.wix).drop 8)).setOcc x.wix false
      s.jump d c { y with wix := x.prev, depth := x.depth - 1, pc := sget 0 x.retpc x.wix })

/-! ### Tasks, traps, breakpoints -/

/-- TASKEND (ends the task normally; its duration is a free value). -/
def execTaskend (k : CoreRef) (r : RForm) (s : State) : Host.Outcome State Fault Refusal :=
  let d := k.die.val
  let c := k.core.val
  done s (s.instr k (rWord 0x2C r) (zeroR r) fun x =>
    let (n, s) := s.draw
    let s := s.modDie d fun g => { g with taskUs := match x.task with
      | some t => sput g.taskUs t (w32 n)
      | none => g.taskUs }
    (s.nextTask d c x.rest).boundary d c)

/-- TRAP (user trap, cause 0x09; rd is not used). -/
def execTrap (k : CoreRef) (i : IForm) (s : State) : Host.Outcome State Fault Refusal :=
  done s (s.instr k (iWord 0x2D i) (i.rd == 0 && gen i.rs1) fun _ => s.trap k.die.val k.core.val 9 0 (iWord 0x2D i))

/-- BRK (breakpoint, cause 0x08): the die enters HOLD and the core goes on with the next instruction (R149). -/
def execBrk (k : CoreRef) (r : RForm) (s : State) : Host.Outcome State Fault Refusal :=
  let d := k.die.val
  let c := k.core.val
  done s (s.instr k (rWord 0x2E r) (zeroR r) fun x =>
    if x.tw then s.doubleTrap d c 8
    else (s.setCore d c { x with pc := x.pc + 1, bpPass := false }).breakpoint d c)

/-! ### Special registers (R139, R141) -/

/-- A special register as MFS reads it. -/
def State.special (s : State) (d c i : Nat) : V24 :=
  let x := s.core d c
  match i with
  | 25 => (s.die d).scanTick.setWidth 24
  | 26 => x.tnt.setWidth 24
  | 27 => x.st c
  | 28 => x.sp
  | 29 => x.tc.setWidth 24
  | _ => 0

/-- MFS (rd ← special register rs1, 24 to 29). -/
def execMfs (k : CoreRef) (r : RForm) (s : State) : Host.Outcome State Fault Refusal :=
  done s (s.pureInstr k (rWord 0x38 r) (gen r.rd && 24 ≤ r.rs1.toNat && r.rs1.toNat ≤ 29 && r.rs2 == 0 && r.fn == 0) fun x =>
    x.w r.rd (s.special k.die.val k.core.val r.rs1.toNat))

/-- MTS (special register rd ← rs1: st, or sp in the trap window only). -/
def execMts (k : CoreRef) (r : RForm) (s : State) : Host.Outcome State Fault Refusal :=
  let tw := (s.core k.die.val k.core.val).tw
  done s (s.pureInstr k (rWord 0x39 r) ((r.rd.toNat == 27 || (r.rd.toNat == 28 && tw)) && gen r.rs1 && r.rs2 == 0 && r.fn == 0) fun x =>
    if r.rd.toNat = 27 then x.setSt (x.r r.rs1) else { x with sp := x.r r.rs1 })

/-! ### Trap window instructions (R144 to R149) -/

/-- The words of a spill frame (Table 07.3). -/
def State.spillWords (s : State) (d c w : Nat) : List Nat :=
  let x := s.core d c
  let task := match x.task with
    | some t => t
    | none => 0
  (x.window w).map (·.toNat) ++
    [(sget 0 x.retpc w).toNat, (sget 0 x.fdepth w).toNat, w % 16 + 16 * (task % 64), ((s.die d).seq + 1).toNat % 2 ^ 24]

/-- The content of window `w`, or free words where the core has no such window. -/
def State.spillLine (s : State) (d c w : Nat) : List Byte × State :=
  if w < 10 then ((s.spillWords d c w).flatMap fun n => leBytes n 4, s)
  else
    let (n, s) := s.draw
    (leBytes n 64, s)

/-- The spill limit of the running task. -/
def State.spillLimit (s : State) (d c : Nat) : Nat :=
  match (s.core d c).task.bind (s.die d).task? with
  | some t => t.spillLimit
  | none => 0

/-- SPILL (trap window only: window rs1 is written as one full line at sp, and sp moves up, R144, R146). An sp outside the spill
region is a translation fault (Table 07.5). -/
def execSpill (k : CoreRef) (r : RForm) (s : State) : Host.Outcome State Fault Refusal :=
  let d := k.die.val
  let c := k.core.val
  done s (s.instr k (rWord 0x3C r) ((s.core d c).tw && r.rd == 0 && gen r.rs1 && r.rs2 == 0 && r.fn == 0) fun x =>
    let w := (x.r r.rs1).toNat
    if regionOf x.sp != .spill then s.trap d c 5 x.sp (rWord 0x3C r)
    else if x.sp.toNat = s.spillLimit d c then s.trap d c 10 x.sp (rWord 0x3C r)
    else
      let (line, t) := s.spillLine d c w
      match t.writeLineVa d (t.ctxOf x.tnt 1) c (4 * x.sp.toNat) line with
      | (.error e, t) => t.trap d c (accCause e) x.sp (rWord 0x3C r)
      | (.ok _, t) => t.retire d c { x.setOcc w false with sp := x.sp + 16 } (rWord 0x3C r))

/-- Is a spilled line good for window `w` in this scan (R145)? -/
def frameOk (ws : List Nat) (w : Nat) (seq : Word) : Bool :=
  ws.all (· < 2 ^ 24) && ws.getD 14 0 % 16 == w && ws.getD 15 0 == (seq + 1).toNat % 2 ^ 24

/-- FILL (trap window only: the line at sp − 16 is read, checked and loaded into window rs1, and sp moves down). -/
def execFill (k : CoreRef) (r : RForm) (s : State) : Host.Outcome State Fault Refusal :=
  let d := k.die.val
  let c := k.core.val
  done s (s.instr k (rWord 0x3D r) ((s.core d c).tw && r.rd == 0 && gen r.rs1 && r.rs2 == 0 && r.fn == 0) fun x =>
    let w := (x.r r.rs1).toNat
    let a := x.sp - 16
    if regionOf a != .spill then s.trap d c 5 a (rWord 0x3D r)
    else match s.readLineVa d (s.ctxOf x.tnt 1) c (4 * a.toNat) with
    | (.error e, t) => t.trap d c (accCause e) a (rWord 0x3D r)
    | (.ok l, t) =>
      let ws := (List.range 16).map fun i => ofLe ((l.drop (4 * i)).take 4)
      if frameOk ws w (t.die d).seq then
        let y := if w < 10 then
            { (x.setWindow w ((ws.take 12).map fun n => BitVec.ofNat 24 n)).setOcc w true with
              retpc := sput x.retpc w (BitVec.ofNat 24 (ws.getD 12 0)), fdepth := sput x.fdepth w (BitVec.ofNat 24 (ws.getD 13 0)) }
          else x
        t.retire d c { y with sp := a } (rWord 0x3D r)
      else t.trap d c 11 a (rWord 0x3D r))

/-- ABORT (trap window only: the task ends with an error event of the cause, the PC and p2, and the scan is skipped, R149). -/
def execAbort (k : CoreRef) (r : RForm) (s : State) : Host.Outcome State Fault Refusal :=
  let d := k.die.val
  let c := k.core.val
  done s (s.instr k (rWord 0x3E r) ((s.core d c).tw && zeroR r) fun x =>
    let data := [w32 x.tc.toNat, w32 (sget 0 x.regs (trapBase + 8)).toNat, w32 (sget 0 x.regs (trapBase + 10)).toNat]
    let s := s.report { tenant := x.tnt, sev := 3, die := d, block := 1, inst := c, code := 3, data := data }
    s.skipScan d)

/-- The event of a handler that returns: one warning for each task and scan that divides by zero, and an information event
with imm8 and rs1 for each user trap (Table 07.4). -/
def State.handlerEvent (s : State) (d c : Nat) : State :=
  let x := s.core d c
  let w := sget 0 x.regs (trapBase + 11)
  if x.tc = 3 then
    if x.dzEvent then s
    else (s.modCore d c fun x => { x with dzEvent := true }).report
      { tenant := x.tnt, sev := 2, die := d, block := 1, inst := c, code := 5 }
  else if x.tc = 9 then
    let v := { x with tw := false }.r (wordRs1 w)
    s.report { tenant := x.tnt, sev := 0, die := d, block := 1, inst := c, code := 6, data := [w32 (w.toNat % 256), w32 v.toNat] }
  else s

/-- What the divide-by-zero handler leaves for TRET 2 (Table 07.4): v0 by the sign of rs1 for DIV, rs1 for REM, and DZS set. -/
def dzValue (w a : V24) : V24 :=
  if wordOp w = 0x0E then a else if a.msb then 0x800000 else if a = 0 then 0 else 0x7FFFFF
def CoreSt.handled (x : CoreSt) : CoreSt :=
  if x.tc = 3 then
    let w := sget 0 x.regs (trapBase + 11)
    { x with regs := sput x.regs trapBase (dzValue w ({ x with tw := false }.r (wordRs1 w))), dzs := true }
  else x

/-- The core after TRET: Z, N, C and V from p1, the sticky flags from p1 or as they are, TW clear (Table 07.7). -/
def CoreSt.tret (x : CoreSt) : CoreSt :=
  let st := sget 0 x.regs (trapBase + 9)
  { x with
    z := st.getLsbD 0, n := st.getLsbD 1, c := st.getLsbD 2, v := st.getLsbD 3
    sats := x.sats || st.getLsbD 4, dzs := x.dzs || st.getLsbD 5, tw := false, pc := sget 0 x.regs (trapBase + 8) }

/-- TRET (trap window only: fn 0 executes the trapping instruction again, fn 1 resumes after it, fn 2 writes the trap
window's v0 to its rd and resumes after it). The runtime's handler of a division by zero has set v0 and DZS (Table 07.4). -/
def execTret (k : CoreRef) (r : RForm) (s : State) : Host.Outcome State Fault Refusal :=
  let d := k.die.val
  let c := k.core.val
  done s (s.instr k (rWord 0x3F r) ((s.core d c).tw && r.rd == 0 && r.rs1 == 0 && r.rs2 == 0 && r.fn.toNat ≤ 2) fun x =>
    let w := sget 0 x.regs (trapBase + 11)
    let s := s.handlerEvent d c
    let h := (s.core d c).handled
    if r.fn = 0 then (s.setCore d c { h.tret with bpPass := true }).holdReached d
    else (s.retire d c (if r.fn = 2 then h.tret.w (wordRd w) (sget 0 h.regs trapBase) else h.tret) w).holdReached d)

end Sys2Proof.Machine
end

