-- ==== Sys2Proof/Machine/Drives.lean ====
section
/-! DEFINITION. The drives' commands, the start of the store, the resync of a mirror and reads of stored blocks
(12 R255 to R261), with the keys a store start makes current (15 R338, R341). -/
namespace Sys2Proof.Machine

/-! ### Failures (R256) -/

/-- The drive is FAILED: event 10/0x0002. With mirroring the store continues on the other drive and sets DEGRADED; without,
it goes down. -/
def State.driveFail (s : State) (n : Nat) : State :=
  let s := (s.modDrive n fun x => { x with fail := true, ok := false, replaced := false, stale := true, cmds := [], wait := [] }).hstIrq n 0
  let other := (s.hst.drive (1 - n)).ok && !(s.hst.drive (1 - n)).replaced
  let s := if s.hst.mirror then
      (s.modHst fun h => { h with degraded := true, up := h.up && other, resync := none }).hstIrq 0 1
    else s.modHst fun h => { h with up := false }
  s.event 0 n 10 n 2 []

/-- An attempt of a command has failed: it waits for its reissue, or after three reissues the drive is FAILED. -/
def State.nvmeFail (s : State) (n cid : Nat) : State :=
  match sfind (s.hst.drive n).cmds cid with
  | none => s
  | some c =>
    if c.failed then s
    else
      let s := s.modDrive n fun x => { x with ioErr := addW x.ioErr 1, cmds := sput x.cmds cid { c with failed := true, failedAt := s.now } }
      if 4 ≤ c.attempts then s.driveFail n else s

/-- NVME_COMPLETION (R256): the drive's completion, or the Completer Abort that the port answered its transfer with for a fault in
the context of class 8 (11 Table 11.6). -/
def execNvmeCompletion (drive : Fin 2) (cid : Nat) (ok : Bool) (fault : Option EngFault) (s : State) :
    Host.Outcome State Fault Refusal :=
  match fault, sfind (s.hst.drive drive.val).cmds cid with
  | some f, some c => done s ((s.engFault drive.val 8 drive.val (c.op == .read) f).nvmeFail drive.val cid)
  | some _, none => done s s
  | none, _ =>
  if ok then
    done s (s.modDrive drive.val fun x => ({ x with cmds := x.cmds.filter fun e => e.1 != cid || e.2.failed } : Drive).pump s.now)
  else done s (s.nvmeFail drive.val cid)

/-- NVME_COMMAND_TIMEOUT (R256): a command not complete within 5 s has failed. -/
def execNvmeCommandTimeout (drive : Fin 2) (cid : Nat) (s : State) : Host.Outcome State Fault Refusal :=
  match sfind (s.hst.drive drive.val).cmds cid with
  | none => done s s
  | some c => done s (if s.due c.issuedAt (secTicks 5) then s.nvmeFail drive.val cid else s)

/-- NVME_REISSUE (R256): a failed command is issued again after 100 ms. -/
def execNvmeReissue (drive : Fin 2) (cid : Nat) (s : State) : Host.Outcome State Fault Refusal :=
  match sfind (s.hst.drive drive.val).cmds cid with
  | none => done s s
  | some c =>
    if c.failed && s.due c.failedAt (msTicks 100) then
      done s (s.modDrive drive.val fun x => { x with
        reissue := addW x.reissue 1, cmds := sput x.cmds cid { c with failed := false, attempts := c.attempts + 1, issuedAt := s.now } })
    else done s s

/-! ### Keys at a store start (15 R338, R341) -/

/-- The highest KEYSLOT among a tenant's stored blocks; none where it holds no segment. -/
def History.topKey (h : History) (t : Tenant) : Option Nat :=
  let g := h.segs.filter fun e => e.2.tenant == t
  if g.isEmpty then none
  else some ((g.flatMap fun e => e.2.blocks.map (·.keyGen)).foldl max 0)

/-- Reclaim the segments in a list. -/
def State.reclaimAll (s : State) : List Nat → State
  | [] => s
  | n :: l => (s.reclaim n).reclaimAll l

/-- A tenant without a history key gets one: it becomes current one generation above the highest on the drives (15 R338). -/
def State.newKeys (s : State) (t : Tenant) : State :=
  if shas s.sec.histGen t.toNat then s
  else
    let (g, s) := match s.hst.topKey t with
      | none => (0, s)
      | some k =>
        if k < 127 then (k + 1, s)
        else (0, s.reclaimAll ((s.hst.segs.filter fun (e : Nat × Segment) => e.2.tenant == t).map Prod.fst))
    (s.newKey (.hist t.toNat g)).modSec fun x => { x with histGen := sput x.histGen t.toNat g }

/-- The keys of an escrow bundle: those of generations below the current one are held, another is discarded with an event. -/
def State.takeEscrow (s : State) (t : Tenant) : List (Nat × BitVec 256) → State
  | [] => s
  | (g, k) :: l =>
    (if g < s.histGenOf t then
      s.modSec fun x => if (x.key? (.hist t.toNat g)).isSome then x else x.hold (.hist t.toNat g) k
    else s.event t 0 13 0 (Config.eventCode 341).toNat [w32 t.toNat, w32 g]).takeEscrow t l
/-- The bundles that the identity key unwraps: those addressed to it (15 R327, R341). -/
def State.ownEscrows (s : State) : List Escrow := s.cfg.escrows.filter fun e => e.pub == Config.identityPub s.host.serial

/-- What the store's start and the configuration together make of the tenants' keys: once both are there. -/
def State.keysStart (s : State) : State :=
  if s.hst.up && s.host.cfgOk && !s.hst.rebuilt then
    let s := s.tenantTable.foldl (fun s t => s.newKeys t) s
    let s := s.ownEscrows.foldl (fun s e => s.takeEscrow e.tenant e.gens) s
    s.modHst fun h => { h with rebuilt := true }
  else s

/-! ### The store's start (R260) -/

/-- The good blocks at the beginning of an open segment. -/
def goodBlocks (mirror : Bool) (l : List Block) : List Block := l.takeWhile fun b => b.good || (mirror && b.goodB)

/-- The newer checkpoint copy whose blocks all verify, which takes the key that `held` says is there: false A, true B. -/
def History.newer (h : History) (held : Nat → Bool) : Option Bool :=
  match h.ckpt0.good && held h.ckpt0.keyGen, h.ckpt1.good && held h.ckpt1.keyGen with
  | true, true => some (serialLt h.ckpt0.seq h.ckpt1.seq)
  | true, false => some false
  | false, true => some true
  | false, false => none
/-- The store loads its newer checkpoint and, in each segment that is open there, reads forward to the last good block; without
one that verifies it rebuilds the table from the blocks' headers, no segment being open (15 R338, log entry 47). -/
def History.load (h : History) (held : Nat → Bool) : History :=
  match h.newer held with
  | none => { h with up := true, segs := h.segs.map fun e => (e.1, { e.2 with isOpen := false, blocks := goodBlocks h.mirror e.2.blocks }) }
  | some b =>
    let c := if b then h.ckpt1 else h.ckpt0
    { h with
      up := true, ckptSeq := c.seq, ckptB := b
      segs := (h.segs.filter fun e => shas c.table e.1).map fun e =>
        (e.1, if sget false c.table e.1 then { e.2 with isOpen := true, blocks := goodBlocks h.mirror e.2.blocks }
              else { e.2 with isOpen := false }) }

/-- A drive serves reads. -/
def Drive.reads (x : Drive) : Bool := x.ok && !x.fail && !x.replaced

/-- The newer superblock copy that verifies. -/
def History.superblock (h : History) : Option Superblock :=
  match h.super0.good, h.super1.good with
  | true, true => some (if serialLt h.super0.seq h.super1.seq then h.super1 else h.super0)
  | true, false => some h.super0
  | false, true => some h.super1
  | false, false => none
/-- The serial number that the superblock gives the drive of a port. -/
def Superblock.serial (x : Superblock) (n : Nat) : Nat := if n = 0 then x.serials.1 else x.serials.2
/-- A drive that the store does not know stands at a port. -/
def History.newDrive (h : History) (n serial : Nat) : Bool := h.superblock.any fun x => x.serial n != serial

/-- A drive's first commands: Identify of controller and namespace, its cache and queue features, its queue pairs, and its health
(Table 12.1). -/
def State.adminStart (s : State) (n : Nat) (cache : Bool) : State :=
  ([NvmeOp.identify, .identify, .setFeatures] ++ (if cache then [NvmeOp.setFeatures] else []) ++
    [NvmeOp.createQueue, .createQueue, .createQueue, .createQueue, .getLog]).foldl
    (fun s op => s.nvmeCmd n op 0 0 []) s
/-- The reads by which the store starts, on the drives in use: superblocks, a checkpoint, and each open segment. -/
def State.startReads (s : State) : State :=
  let s := s.metaSegs.foldl (fun s e =>
    let d := if (s.hst.drive (e.2.headD 0)).inUse then e.2.headD 0 else 1
    (s.nvmeCmd d .read (16384 * e.1) 2 []).nvmeCmd d .read (16384 * e.1 + if s.hst.ckptB then 8192 else 1024) 4096 []) s
  (s.hst.segs.filter fun e => e.2.isOpen).foldl (fun s e =>
    s.nvmeCmd (if s.hst.mirror then (if s.hst.d0.inUse then 0 else 1) else segDrive e.1) .read (16384 * e.1) (1 + e.2.blocks.length) []) s
/-- With mirroring, DEGRADED while not both drives serve. -/
def History.judgeMirror (h : History) : History :=
  { h with degraded := h.mirror && !(h.d0.reads && h.d1.reads) }
/-- The store starts: its tables are loaded, and a store that is new gets an identity of free choice. -/
def State.storeStart (s : State) : State :=
  let (n, u) := s.draw
  let s := if s.hst.superblock.isSome then s else u.modHst fun h => { h with super0 := { good := true, ident := n, mirror := h.mirror } }
  let s := s.modHst fun h => { h with mirror := h.mirror || (h.superblock.any fun x => x.mirror) }
  ({ s with hst := (s.hst.load fun g => (s.sec.key? (.hist 0 g)).isSome).judgeMirror }.startReads).keysStart

/-- DRIVE_READY (R255, R256, R260): a drive that lacks a required feature is not used (event 10/0x0001); one that stands in the
place of another, or has missed writes, waits for its resync where the store is mirrored, and a new one begins empty where it is
not. `serial` is its serial number. -/
def execDriveReady (drive : Fin 2) (blocks : Nat) (suitable cache dsm : Bool) (serial : Nat) (s : State) :
    Host.Outcome State Fault Refusal :=
  let n := drive.val
  if !s.exyan || s.su.seedling then done s s
  else if !suitable then done s ((s.modDrive n fun x => { x with linkUp := true }).event 0 n 10 n 1 [])
  else
    let new := s.hst.newDrive n serial
    let s' := s.modDrive n fun x => { x with
      linkUp := true, ok := true, fail := false, stale := x.stale || new, replaced := (x.stale || new) && s.hst.mirror, cache := cache
      dsm := dsm, serial := serial, blocks := min blocks (2 ^ 33), cmds := [], wait := [] }
    let s' := if new && !s.hst.mirror then s'.modHst fun h => { h with segs := h.segs.filter fun e => segDrive e.1 != n } else s'
    let s' := s'.adminStart n cache
    if s.hst.up then done s (s'.modHst (·.judgeMirror))
    else if (s'.hst.drive n).replaced then done s s'
    else done s s'.storeStart

/-- CHECKPOINT_TIMER (R260): every 10 s, while the store is written. -/
def execCheckpointTimer (s : State) : Host.Outcome State Fault Refusal := 
  done s (if s.storeOn && s.due s.hst.ckptAt (secTicks 10) then (s.modHst fun h => { h with ckptAt := s.now }).checkpoint else s)

/-- TREND_FLUSH_TIMER (R267): HST_FLUSH seconds after its first record a block is written. -/
def execTrendFlushTimer (d : Die) (ten : Tenant) (s : State) : Host.Outcome State Fault Refusal :=
  let st := s.staging d.val ten
  if !st.current.recs.isEmpty && st.first + secTicks (s.hstDie d.val).flush ≤ s.now then done s (s.flushStaging d.val ten)
  else done s s

/-! ### The resync of a mirror (R261) -/

/-- The number of the replaced drive of a mirror. -/
def History.replacedDrive (h : History) : Option Nat :=
  if !h.mirror then none else if h.d0.replaced then some 0 else if h.d1.replaced then some 1 else none

/-- The lowest segment in use at or above a number. -/
def History.nextUsed (h : History) (n : Nat) : Option Nat := (h.segs.find? fun e => n ≤ e.1).map (·.1)

/-- Start a resync. -/
def History.startResync (h : History) : History := { h with resync := some 0, resyncPos := (h.nextUsed 0).getD 0 }

/-- RESYNC_SEGMENT_COPY (R261): the next segment in use is copied in ascending order; after the last, DEGRADED clears and
event 10/0x0005 is recorded. -/
def execResyncSegmentCopy (s : State) : Host.Outcome State Fault Refusal :=
  match s.hst.resync, s.hst.replacedDrive with
  | some pos, some d =>
    match s.hst.nextUsed pos with
    | some n =>
      let len := 1 + (sget {} s.hst.segs n).blocks.length
      let s' := (s.nvmeCmd (1 - d) .read (16384 * n) len []).nvmeCmd d .write (16384 * n) len []
      done s (s'.modHst fun h => { h with
        resync := some (n + 1), resyncPos := n
        segs := supd {} h.segs n fun g => { g with blocks := g.blocks.map fun b =>
          if d = 0 then { b with good := b.goodB } else { b with goodB := b.good } } })
    | none =>
      let s' := (s.modDrive d fun x => { x with replaced := false, stale := false }).modHst fun h => { h with
        degraded := false, resync := none }
      done s ((s'.hstIrq 0 5).event 0 0 10 d 5 [])
  | _, _ => done s s

/-! ### Reads of stored blocks (R258, R261) -/

/-- The module holds the key of a block: its tenant's history key at the block's generation. -/
def State.holdsKey (s : State) (t : Tenant) (b : Block) : Bool := (s.sec.key? (.hist t.toNat b.keyGen)).isSome

/-- Read block `i` (from 0) of segment `n`: `none` where no copy verifies, which raises DATA_ERROR. A copy on S0 that does
not verify is read from S1 and rewritten (event 10/0x0004). -/
def State.readStored (s : State) (n i : Nat) : Option Block × State :=
  match (sget {} s.hst.segs n).blocks[i]? with
  | none => (none, s)
  | some b =>
    let count (s : State) (d : Nat) (bad : Bool) : State :=
      (s.nvmeCmd d .read (16384 * n + 1 + i) 1 []).modDrive d fun x => { x with tagFail := if bad then addW x.tagFail 1 else x.tagFail }
    if !s.hst.mirror then
      let d := segDrive n
      if !(s.hst.drive d).reads then (none, s.hstIrq d 4)
      else if b.good then (some b, count s d false) else (none, (count s d true).hstIrq d 4)
    else
      let s1 := if s.hst.d0.reads then count s 0 (!b.good) else s
      if s.hst.d0.reads && b.good then (some b, s1)
      else if s.hst.d1.reads then
        let s2 := count s1 1 (!b.goodB)
        if b.goodB then
          if s.hst.d0.reads then
            (some b, ((s2.modHst fun h => { h with segs := supd {} h.segs n fun g =>
              { g with blocks := g.blocks.set i { b with good := true } } }).nvmeWrite 0 (16384 * n + 1 + i) (s2.sealBlock n (sget {} s.hst.segs n).tenant 1 b)).event 0 0 10 0 4
                [w32 (16384 * n + 1 + i)])
          else (some b, s2)
        else (none, s2.hstIrq 0 4)
      else (none, s1.hstIrq 0 4)

end Sys2Proof.Machine
end

