-- ==== Sys2Proof/Machine/LoopEval.lean ====
section
/-! DEFINITION. The arithmetic of the loop engine: sections, limits, budget, test signals (08 R162 to R168, R179 to R184). -/
namespace Sys2Proof.Machine

/-! ### Sections (R163, R164) -/

/-- Saturation to 48 bits. -/
def sat48 (x : Int) : Int := clampInt (-(2 ^ 47)) (2 ^ 47 - 1) x
/-- Saturation to 24 bits as an integer. -/
def clamp24 (x : Int) : Int := clampInt v24Min v24Max x
/-- How many of these values were limited, each given with its limited form. -/
def satN (l : List (Int × Int)) : Nat := (l.filter fun e => e.1 != e.2).length

/-- What one section makes of its input: its output, its next states, and how many saturations it met. -/
structure SecOut where
  y   : Int
  s1  : Int
  s2  : Int
  sat : Nat
  deriving DecidableEq, Repr

/-- One sample of a section in transposed direct form II. -/
def secStep (c : Section) (integ : Bool) (x s1 s2 : Int) : SecOut :=
  let acc := c.b0.toInt * x + s1
  let yq := (acc + 2 ^ 19) / 2 ^ 20
  let y := clamp24 yq
  let r := if integ && y == yq then acc - y * 2 ^ 20 else 0
  let n1 := c.b1.toInt * x - c.a1.toInt * y + s2 + r
  let n2 := c.b2.toInt * x - c.a2.toInt * y
  { y := y, s1 := sat48 n1, s2 := sat48 n2, sat := satN [(yq, y), (n1, sat48 n1), (n2, sat48 n2)] }

/-- The section of a bank. -/
def bankSec (b : Bank) (j : Nat) : Section := b.sections.getD j {}
/-- Sections j, j + 1, … of a bank: the last output and each section's result. -/
def runSecs (b : Bank) (st1 st2 : Map Int) : Nat → Nat → Int → Int × List SecOut
  | 0, _, x => (x, [])
  | n + 1, j, x =>
    let o := secStep (bankSec b j) (b.integ.getLsbD j) x (sget 0 st1 j) (sget 0 st2 j)
    let (y, l) := runSecs b st1 st2 n (j + 1) o.y
    (y, o :: l)

/-- Step 5: the output gain K × 2^GEXP with rounding, before saturation. -/
def outGain (b : Bank) (y : Int) : Int :=
  let s := (20 - b.gexp.toInt).toNat
  (b.k.toInt * y + 2 ^ (s - 1)) / 2 ^ s

/-- Which way a slot is limited: 1 high, −1 low, 0 not (R166, Table 08.8). -/
def limitDir (v u : Int) : Int := if u < v then 1 else if v < u then -1 else 0

/-- s1 of a section as it is committed (R164, R167, R170). -/
def commitS1 (b : Bank) (j : Nat) (old new lim : Int) (forced : Bool) : Int :=
  if b.integ.getLsbD j then
    let dir : Int := if b.dir.getLsbD j then -1 else 1
    let x := if forced || 0 < lim * dir * (new - old) then old else new
    clampInt ((bankSec b j).slo.toInt * 2 ^ 20) ((bankSec b j).shi.toInt * 2 ^ 20) x
  else new

/-! ### Banks, budget (R178, R184) -/

/-- The active bank of a slot and the other one. -/
def LoopSlot.active (x : LoopSlot) : Bank := if x.bank then x.bankB else x.bankA
def LoopSlot.inactive (x : LoopSlot) : Bank := if x.bank then x.bankA else x.bankB
def LoopSlot.setInactive (x : LoopSlot) (b : Bank) : LoopSlot := if x.bank then { x with bankA := b } else { x with bankB := b }

/-- A sum of fractions. -/
def addFrac (a b : Nat × Nat) : Nat × Nat :=
  let g := Nat.gcd a.2 b.2
  (a.1 * (b.2 / g) + b.1 * (a.2 / g), a.2 / g * b.2)

/-- The slot of a die that names loop `n` as its outer loop. -/
def innerOf (cfgs : List LoopCfg) (n : Nat) : Option LoopCfg := cfgs.find? fun c => c.sp == .outer n
/-- DIV of the innermost slot below a loop times the N values down to it, as (DIV, N). -/
def rateOf (cfgs : List LoopCfg) : Nat → LoopCfg → Nat × Nat
  | 0, c => (c.div, 1)
  | f + 1, c => if c.outer then
      match innerOf cfgs c.slot with
      | some i => let r := rateOf cfgs f i; (r.1, r.2 * c.n)
      | none => (c.div, c.n)
    else (c.div, 1)

/-- PHASE of a loop: that of the innermost slot below it (R175). -/
def phaseOf (cfgs : List LoopCfg) : Nat → LoopCfg → Nat
  | 0, c => c.phase
  | f + 1, c => if c.outer then
      match innerOf cfgs c.slot with
      | some i => phaseOf cfgs f i
      | none => c.phase
    else c.phase

/-- The configured loops of a die. -/
def State.dieLoops (s : State) (d : Nat) : List LoopCfg := s.cfg.loops.filter fun c => c.die == d
/-- The load of a list of loops, with the section count of each: the sum of NSEC × 16,000 / (DIV × N) (R184). -/
def loadOf (cfgs : List LoopCfg) (nsec : LoopCfg → Nat) : Nat × Nat :=
  cfgs.foldl (fun acc c => let r := rateOf cfgs 3 c; addFrac acc (nsec c * 16000, max 1 (r.1 * r.2))) (0, 1)
def State.loopLoad (s : State) (d : Nat) : Nat × Nat :=
  loadOf (s.dieLoops d) fun c => (s.loop d c.slot).active.nsec.toNat
/-- LPE_LOAD: the sum in thousands, rounded up. -/
def State.lpeLoad (s : State) (d : Nat) : Nat := let f := s.loopLoad d; (f.1 + 1000 * f.2 - 1) / (1000 * f.2)
def overBudget (f : Nat × Nat) : Bool := 115200000 * f.2 < f.1
/-- The class of a loop: an outer loop has that of its inner slot (R175). -/
def isLocal (cfgs : List LoopCfg) : Nat → LoopCfg → Bool
  | 0, c => c.loc
  | f + 1, c => if c.outer then
      match innerOf cfgs c.slot with
      | some i => isLocal cfgs f i
      | none => c.loc
    else c.loc
/-- LPE_LOCAL. -/
def localCount (cfgs : List LoopCfg) : Nat := (cfgs.filter fun c => isLocal cfgs 3 c).length

/-- A section's checks among sections 0 to NSEC − 1: R164, and SLO ≤ SHI. -/
def secsBad (b : Bank) (bad : Nat → Section → Bool) : Bool :=
  (List.range b.nsec.toNat).any fun j => bad j (bankSec b j)
def integBad (b : Bank) : Bool :=
  secsBad b fun j c => b.integ.getLsbD j && c.a1.toInt + c.a2.toInt != -1048576
def limitsBad (b : Bank) : Bool := secsBad b fun _ c => c.shi.toInt < c.slo.toInt
def nsecBad (b : Bank) : Bool := b.nsec.toNat < 1 || 8 < b.nsec.toNat
/-- The ERR code of a swap to bank `b`, 0 when it is accepted (R178). -/
def swapErrOf (b : Bank) (load : Nat × Nat) : Nat :=
  if nsecBad b then 1 else if integBad b then 2 else if overBudget load then 3 else if limitsBad b then 4 else 0

/-! ### The sine (Table 08.5) -/

/-- 2^128 π. -/
def pi128 : Nat := 1069028584064966747859680373161870783300
/-- The Taylor series of the sine at scale 2^128: `term` is the term of degree k, `x2` the square. -/
def sinSeries (x2 : Nat) : Nat → Nat → Int → Int
  | 0, _, _ => 0
  | n + 1, k, term => term + sinSeries x2 n (k + 2) (-(term * x2 / 2 ^ 128) / ((k + 1) * (k + 2)))
/-- 2^128 sin of r quarter-turns / 2^22. -/
def sinQuarter (r : Nat) : Int :=
  let x := pi128 * r / 2 ^ 23
  sinSeries (x * x / 2 ^ 128) 24 1 x
/-- round(AMP × sin(2π φ / 2^24)). -/
def sineOf (amp phi : Nat) : Int :=
  let r := phi % 2 ^ 22
  let m := match phi % 2 ^ 24 / 2 ^ 22 with
    | 0 => if r = 0 then 0 else sinQuarter r
    | 1 => if r = 0 then 2 ^ 128 else sinQuarter (2 ^ 22 - r)
    | 2 => if r = 0 then 0 else -sinQuarter r
    | _ => if r = 0 then -(2 ^ 128) else -sinQuarter (2 ^ 22 - r)
  roundDiv (amp * m) (2 ^ 128)

/-! ### The generators (R179 to R181) -/

/-- The taps of the PRBS of n bits, as powers of x (Table 08.6). -/
def prbsTaps (n : Nat) : List Nat :=
  match n with
  | 7 => [7, 6]
  | 8 => [8, 6, 5, 4]
  | 9 => [9, 5]
  | 10 => [10, 7]
  | 11 => [11, 9]
  | 12 => [12, 11, 10, 4]
  | 13 => [13, 12, 11, 8]
  | 14 => [14, 13, 12, 2]
  | 15 => [15, 14]
  | _ => []
/-- The new bit: the XOR of the tapped bits, stage k at bit k − 1. -/
def prbsBit (n reg : Nat) : Bool := ((prbsTaps n).filter fun k => reg.testBit (k - 1)).length % 2 = 1

/-- What a generator gives at a sample: the value, whether a PRBS period or a sine step starts, whether it ends here. -/
structure Signal where
  value : Int
  start : Bool
  last  : Bool
  deriving DecidableEq, Repr

/-- The seed of a generator at its start. -/
def TestUnit.seed (u : TestUnit) : TestUnit :=
  { u with lfsr := 2 ^ u.prbsN.toNat - 1, held := 0, prbsPos := 0, phi := 0, inc := u.p0.toNat, stepNo := 0, cycles := 0
           injected := 0 }

/-- Advance a generator by one sample. -/
def TestUnit.signal (u : TestUnit) : Signal × TestUnit :=
  let amp : Int := u.amp.toNat
  let len := u.len.toNat != 0 && u.len.toNat ≤ u.injected + 1
  let u := { u with injected := u.injected + 1 }
  match u.sig.toNat with
  | 0 =>
    let n := u.prbsN.toNat
    if u.prbsPos = 0 || max 1 u.hold.toNat ≤ u.held then
      let b := prbsBit n u.lfsr
      let v := { u with lfsr := (2 * u.lfsr + (if b then 1 else 0)) % 2 ^ n, held := 1, prbsPos := u.prbsPos + 1 }
      ({ value := if b then amp else -amp, start := u.prbsPos % (2 ^ n - 1) == 0, last := len }, v)
    else ({ value := if u.lfsr.testBit 0 then amp else -amp, start := false, last := len }, { u with held := u.held + 1 })
  | 1 => ({ value := amp, start := false, last := len }, u)
  | _ =>
    let acc := u.cycles + u.inc
    let v := { u with phi := (u.phi + u.inc) % 2 ^ 24, cycles := acc, held := u.held + 1 }
    let stepEnd := (u.settle.toNat + u.meas.toNat) * 2 ^ 24 ≤ acc
    let w := if stepEnd then
        { v with cycles := 0, held := 0, stepNo := u.stepNo + 1
                 inc := min (2 ^ 23) ((2 * u.inc * u.rho.toNat + 2 ^ 20) / 2 ^ 21) }
      else v
    ({ value := sineOf u.amp.toNat u.phi, start := u.held == 0, last := len || (stepEnd && u.steps.toNat ≤ u.stepNo + 1) }, w)

/-- The parameters of a start lie in the ranges of R179 to R182. -/
def TestUnit.rangesOk (u : TestUnit) : Bool :=
  (!u.injEn || (u.len.toNat ≤ 1048576 && (match u.sig.toNat with
    | 0 => 7 ≤ u.prbsN.toNat
    | 1 => true
    | 2 => 1 ≤ u.p0.toNat && u.p0.toNat ≤ 2 ^ 23 && 2 ^ 20 ≤ u.rho.toNat && u.rho.toNat ≤ 2 ^ 21
        && 1 ≤ u.steps.toNat && u.steps.toNat ≤ 64 && 1 ≤ u.meas.toNat
    | _ => false)))
  && (!u.capEn || (1 ≤ u.capN.toNat && u.capN.toNat ≤ 65536))

end Sys2Proof.Machine
end

