-- ==== Sys2Proof/Machine/Loops.lean ====
section
/-! DEFINITION. The loop engine: samples, outputs, cascades, swaps, test units and capture (08 R165 to R187). -/
namespace Sys2Proof.Machine

def LoopDie.irq (x : LoopDie) (i : Nat) : LoopDie := { x with irqStat := orBit x.irqStat i true }
/-- The test unit of a die that injects into, or captures, a slot. -/
def State.unitOf (s : State) (d n : Nat) (p : TestUnit → Bool) : Option Nat :=
  (List.range 4).find? fun u => (s.unit d u).active && (s.unit d u).slot == n && p (s.unit d u)

/-! ### Latching (R165, R169) -/

/-- A latched value. -/
structure Sig where
  v : Int
  q : Qual
  deriving DecidableEq, Repr

def qualOut (q : Qual) : Bool := q == .bad || q == .noSource

/-- PV of a loop at the start of a tick. -/
def State.loopPv (s : State) (d : Nat) (c : LoopCfg) : Sig :=
  match c.pv with
  | .cell m => { v := (s.cell m).value.toInt, q := (s.cell m).qual }
  | .ain k => let a := sget {} s.fio.ains k; { v := a.value.toInt, q := a.qual }
  | .slot n => let x := s.loop d n; if x.applied then { v := x.out.toInt, q := x.outQual } else { v := x.out.toInt, q := .noSource }
/-- SP of a loop; an outer loop's is its output last computed. -/
def State.loopSp (s : State) (d : Nat) (c : LoopCfg) : Sig :=
  match c.sp with
  | .cell m => { v := (s.cell m).value.toInt, q := (s.cell m).qual }
  | .const => { v := (s.loop d c.slot).spc.toInt, q := .good }
  | .outer n => let x := s.loop d n; { v := x.outer.1.toInt, q := x.outer.2 }

/-- The destination's present value (R168), and whether it, or the mirror point, is forced (R170). -/
def State.loopDest (s : State) (x : LoopSlot) (c : LoopCfg) : Int :=
  match c.dst with
  | .cell m => (s.cell m).value.toInt
  | .aout k _ => (sget 0 s.fio.aouts k).toInt
  | .none => x.omin.toInt
def State.loopForced (s : State) (c : LoopCfg) : Bool :=
  match c.dst with
  | .cell m => (s.cell m).forced
  | .aout _ (some m) => (s.cell m).forced
  | _ => false

/-- A slot with HOLDF stands still while its die's logic is in HOLD (R176). -/
def State.loopHeld (s : State) (d : Nat) (c : LoopCfg) : Bool := c.holdf && (s.die d).mode == .hold

/-! ### Bank swaps (R177, R178) -/

/-- LPE_S_STAT (Table 08.11). -/
def State.slotStat (s : State) (d n : Nat) : Word :=
  let x := s.loop d n
  let outer := match x.cfg with
    | some c => if c.outer then c.n - 1 else 0
    | none => 0
  let inj := (s.unitOf d n fun u => u.injOn).isSome
  let cap := (s.unitOf d n fun u => u.capOn).isSome
  w32 (flag x.bank 0 + flag x.pending 1 + flag x.swapErr 2 + 8 * x.err.toNat + flag x.running 6 + flag (x.cfg.any fun c => s.loopHeld d c) 7 + flag x.pvbad 8
    + flag x.clampHi 9 + flag x.clampLo 10 + flag x.rateLim 11 + flag x.sat 12 + flag x.outForced 13 + flag inj 14 + flag cap 15
    + 65536 * (outer % 256))

/-- Take a swap that was requested: the banks exchange, and states are cleared or carried over. -/
def LoopSlot.swap (x : LoopSlot) : LoopSlot :=
  let n := x.active.nsec.toNat
  let keep (m : Map Int) : Map Int := if x.resetSt then [] else m.filter fun e => e.1 < n
  { x with bank := !x.bank, pending := false, resetSt := false, s1 := keep x.s1, s2 := keep x.s2 }
def State.takeLoopSwap (s : State) (d n : Nat) : State :=
  let x := s.loop d n
  if x.pending then
    let s := (s.setLoop d n { x.swap with swapReq := none }).modLpe d fun e => e.irq 1
    s.finish? x.swapReq { r0 := s.slotStat d n }
  else s

/-- The sections a slot counts with in the budget: those of a swap that was accepted, where they are more (R184, DEDUCED, log
entry 42: two pending swaps together stay within the sum). -/
def LoopSlot.budgetSecs (x : LoopSlot) : Nat :=
  if x.pending then max x.active.nsec.toNat x.inactive.nsec.toNat else x.active.nsec.toNat
/-- Request a swap: refused with ERR, or pending until the slot's next latch. A request while one is pending is ignored. -/
def State.requestSwap (s : State) (d n : Nat) (reset : Bool) (r : Option Req) : State :=
  let x := s.loop d n
  if x.cfg.isNone || x.pending then s
  else
    let load := loadOf (s.dieLoops d) fun c => if c.slot = n then x.inactive.nsec.toNat else (s.loop d c.slot).budgetSecs
    let e := swapErrOf x.inactive load
    if e = 0 then s.setLoop d n { x with pending := true, resetSt := reset, swapErr := false, err := 0, swapReq := r }
    else
      let t := match x.cfg with
        | some c => c.tenant
        | none => 0
      let s := (s.setLoop d n { x with swapErr := true, err := BitVec.ofNat 3 e }).modLpe d fun y => y.irq 2
      (s.event t d 2 0 1 [w32 n, w32 e]).finish? r (refusal stInvalid e)

/-! ### Capture (R182, R183) -/

/-- A unit ends when neither its injection nor its capture runs on. -/
def State.unitEnd (s : State) (d u : Nat) : State :=
  let x := s.unit d u
  if x.active && !x.starting && !x.injOn && !x.capOn then
    (s.setUnit d u { x with active := false, done := true, stopping := false }).modLpe d fun e => e.irq 3
  else s

/-- The records that a unit buffers: those that its channel has not moved yet. -/
def State.capHeld (s : State) (d u : Nat) : Nat :=
  let x := s.unit d u
  x.buffer.length + if x.dmaOn then (s.dch d (12 + u)).inp.length / 16 else 0
/-- A record falls due: it enters the buffer, or with the buffer full the capture ends with OVF. -/
def State.capRecord (s : State) (d u : Nat) (r : CapRec) : State :=
  if !(s.unit d u).capOn then s
  else
    let x := s.unit d u
    if 256 ≤ s.capHeld d u then
      (((s.setUnit d u { x with capOn := false, ovf := true }).modLpe d fun e => e.irq 4).event (s.slotTenant d x.slot) d 2 u 2
        []).capFeed d u
    else
      let n := x.records.length + 1
      (s.setUnit d u { x with
        buffer := x.buffer ++ [r], records := x.records ++ [r], capOn := n < x.capN.toNat
        t0 := if n = 1 then s.tick else x.t0 }).capFeed d u

/-- At a sample of its slot a unit that is starting begins, and one that is stopping ends (R179, R187). -/
def State.unitEdge (s : State) (d n : Nat) : State :=
  (List.range 4).foldl (fun s u =>
    let x := s.unit d u
    if x.active && x.slot == n then
      if x.stopping then
        ((s.setUnit d u { x with starting := false, injOn := false, capOn := false }).capFeed d u).unitEnd d u
      else if x.starting then s.setUnit d u { x.seed with starting := false, injOn := x.injEn, capOn := x.capEn }
      else s
    else s) s

/-- The injection into a slot at this sample, with its unit. -/
def State.inject (s : State) (d n : Nat) : Option (Bool × Signal) × State :=
  match s.unitOf d n fun u => u.injOn with
  | none => (none, s)
  | some u =>
    let (g, x) := (s.unit d u).signal
    (some (x.atSp, g), s.setUnit d u { x with injOn := !g.last })

/-- The capture of a slot at this sample by every unit that captures it, and the end of the units that have finished. -/
def State.capture (s : State) (d n : Nat) (r : CapRec) : State :=
  (List.range 4).foldl (fun s u => if (s.unit d u).slot = n then (s.capRecord d u r).unitEnd d u else s) s

/-! ### One sample (Table 08.4) -/

/-- The evaluation of a sample from its latched values: the slot after step 9, the output, the error, the bits, and the
saturations met. -/
structure Eval where
  slot : LoopSlot
  u    : Int
  e    : Int
  bits : Nat
  sat  : Nat
  deriving DecidableEq, Repr

/-- Steps 2 to 9 (R165 to R168, R170). -/
def LoopSlot.eval (x : LoopSlot) (pv sp : Int) (inj : Option (Bool × Signal)) (uPrev : Int) (forced : Bool) : Eval :=
  let b := x.active
  let addSp : Int := match inj with
    | some (true, g) => g.value
    | _ => 0
  let addU : Int := match inj with
    | some (false, g) => g.value
    | _ => 0
  let sp1 := clamp24 (sp + addSp)
  let e := clamp24 (sp1 - pv)
  let (y, outs) := runSecs b x.s1 x.s2 b.nsec.toNat 0 e
  let g := outGain b y
  let v5 := clamp24 g
  let v := clamp24 (v5 + addU)
  let rate : Int := x.rate.toNat
  let v7 := if rate = 0 then v else clampInt (uPrev - rate) (uPrev + rate) v
  let u := min (max v7 x.omin.toInt) x.omax.toInt
  let lim := limitDir v u
  let s1 := sputs [] (outs.zipIdx.map fun o => (o.2, commitS1 b o.2 (sget 0 x.s1 o.2) o.1.s1 lim forced))
  let s2 := sputs [] (outs.zipIdx.map fun o => (o.2, o.1.s2))
  let sat := satN [(sp + addSp, sp1), (sp1 - pv, e), (g, v5), (v5 + addU, v)] + sumNat (outs.map (·.sat))
  { slot := { x with
      s1 := s1, s2 := s2, uPrev := some u, clampHi := u < v7, clampLo := v7 < u, rateLim := v7 != v, pvbad := false
      sat := x.sat || sat != 0, outForced := forced, lastErr := BitVec.ofInt 24 e, gen := x.gen + 2 }
    u := u, e := e, sat := sat
    bits := flag (u < v7) 0 + flag (v7 < u) 1 + flag (v7 != v) 2 }

/-- Evaluations that fall due and the peak of a tick (LPE_PEAK): the engine makes at most 8,000 in a tick, 128,000,000 a second,
and takes the rest on to the next. -/
def LoopDie.load (x : LoopDie) (now : BitVec 64) (n : Nat) : LoopDie :=
  let k := x.tickOf - 8000 * (now - x.tickNo).toNat + n
  { x with tickNo := now, tickOf := k, peak := if x.peak.toNat < min k 8000 then BitVec.ofNat 13 (min k 8000) else x.peak }

/-- A computed output waits for its boundary; for an inner loop it is the set-point from now on. -/
def LoopSlot.push (x : LoopSlot) (due : Nat) (u : Int) (q : Qual) (late : Bool) : LoopSlot :=
  { x with
    latches := x.latches ++ [{ due := due, value := BitVec.ofInt 24 u, qual := q, late := late }]
    outer := if late then x.outer else (BitVec.ofInt 24 u, q) }

/-- OUT_FORCED of a slot: its destination, or its mirror point, is forced (R170). -/
def State.slotForced (s : State) (x : LoopSlot) : Bool :=
  match x.cfg with
  | some c => s.loopForced c
  | none => false

/-- A sample whose process value or setpoint is out: the output holds, with QUAL uncertain (R169). -/
def State.sampleBad (s : State) (d due n : Nat) (late : Bool) (x : LoopSlot) (u0 : Int) (r : CapRec) : State :=
  let x := { x with
    pvbad := true, clampHi := false, clampLo := false, rateLim := false, outForced := s.slotForced x, gen := x.gen + 2 }
  ((s.setLoop d n (x.push due u0 .uncertain late)).modLpe d fun e => { e with pvbadCnt := addW e.pvbadCnt 1 }.irq 5).capture d n r

/-- A sample that is late: the output holds, and the latch says so (R174). -/
def State.sampleLate (s : State) (d due n : Nat) (x : LoopSlot) (u0 : Int) (r : CapRec) : State :=
  (s.setLoop d n ({ x with outForced := s.slotForced x }.push due u0 .good true)).capture d n r

/-- A sample with both values: the sections are evaluated and the output is latched. -/
def State.sampleGood (s : State) (d due n : Nat) (c : LoopCfg) (x : LoopSlot) (pv sp : Sig) (inj : Option (Bool × Signal))
    (u0 : Int) (mark : Nat) : State :=
  let q := if pv.q == .uncertain || sp.q == .uncertain then Qual.uncertain else .good
  let r := x.eval pv.v sp.v inj u0 (s.loopForced c)
  let spv := match inj with
    | some (true, g) => clamp24 (sp.v + g.value)
    | _ => sp.v
  let s := (s.setLoop d n (r.slot.push due r.u q false)).modLpe d fun e =>
    { e with satCnt := addW e.satCnt r.sat }.load s.tick x.active.nsec.toNat
  s.capture d n {
    pv := BitVec.ofInt 24 pv.v, pvQ := pv.q, sp := BitVec.ofInt 24 spv, spQ := sp.q, err := BitVec.ofInt 24 r.e
    out := BitVec.ofInt 24 r.u, bits := BitVec.ofNat 6 (r.bits + mark) }

/-- A sample with its injection drawn. -/
def State.sampleWith (s : State) (d due : Nat) (late : Bool) (n : Nat) (c : LoopCfg) (pv sp : Sig) (u0 : Int)
    (inj : Option (Bool × Signal)) : State :=
  let start := match inj with
    | some (_, g) => g.start
    | none => false
  let mark := flag inj.isSome 3 + flag start 4
  let x := { s.loop d n with count := (s.loop d n).count + 1, uPrev := some u0, lastAt := some s.now, running := true }
  let free := Config.freeNat s.freeN
  let t := s.draw.2
  let heldRec : CapRec := {
    pv := BitVec.ofInt 24 pv.v, pvQ := pv.q, sp := BitVec.ofInt 24 sp.v, spQ := sp.q, err := BitVec.ofNat 24 free
    out := BitVec.ofInt 24 u0, bits := BitVec.ofNat 6 (32 + mark) }
  if qualOut pv.q || qualOut sp.q then t.sampleBad d due n late x u0 heldRec
  else if late then t.sampleLate d due n x u0 heldRec
  else t.sampleGood d due n c x pv sp inj u0 mark

/-- A sample at its instant: the values read, and the output held before it. -/
def State.sampleNow (s : State) (d due : Nat) (late : Bool) (n : Nat) (c : LoopCfg) : State :=
  let x := s.loop d n
  let u0 := match x.uPrev with
    | some u => u
    | none => clampInt x.omin.toInt x.omax.toInt (s.loopDest x c)
  (s.inject d n).2.sampleWith d due late n c (s.loopPv d c) (s.loopSp d c) u0 (s.inject d n).1

/-- A slot's own sample: a due swap, the test unit's edges, the evaluation, its latch and its capture record (R165). -/
def State.sampleOwn (s : State) (d due : Nat) (late : Bool) (n : Nat) (c : LoopCfg) : State :=
  ((s.takeLoopSwap d n).unitEdge d n).sampleNow d due late n c

/-- A sample that a HOLDF hold skips (R176): nothing is latched, states, u_prev and output stay, and a capture counts it with a
HELD record (R182), whose values that a latch would have given are free (log entry 43). -/
def State.sampleHeld (s : State) (d n : Nat) : State :=
  let x := s.loop d n
  let inj := (s.unitOf d n fun u => u.injOn).isSome
  let (pv, s) := s.draw
  let (sp, s) := s.draw
  let (e, s) := s.draw
  (s.setLoop d n { x with latches := [] }).capture d n {
    pv := BitVec.ofNat 24 pv, pvQ := qualOf (pv / 2 ^ 24), sp := BitVec.ofNat 24 sp, spQ := qualOf (sp / 2 ^ 24)
    err := BitVec.ofNat 24 e, out := BitVec.ofInt 24 (x.uPrev.getD 0), bits := BitVec.ofNat 6 (32 + flag inj 3) }

/-- Sample one loop at this tick, an outer loop of it first where its turn has come (R175), or skip it where it is held. `due` is
when outputs apply; of the cascade's samples the first `late`, from this slot outward, are not complete by then (R174). -/
def State.sampleLoop (s : State) (d due : Nat) : Nat → Nat → Nat → State
  | 0, _, _ => s
  | f + 1, late, n => match (s.loop d n).cfg with
    | none => s
    | some c =>
      if s.loopHeld d c then s.sampleHeld d n
      else
        let s := match c.sp with
          | .outer o =>
            let k := match (s.loop d o).cfg with
              | some oc => max 1 oc.n
              | none => 1
            if (s.loop d n).count % k = 0 then s.sampleLoop d due f (late - 1) o else s
          | _ => s
        s.sampleOwn d due (0 < late) n c

/-- LOOP_SAMPLE (R165, R171): at a tick with T mod DIV = PHASE a slot samples; an outer loop samples with its inner slot.
`late` says how many samples of a bus-class cascade, from the slot itself outward, are not complete at their output tick (R174):
an outer loop is evaluated immediately before its inner slot, so a late one makes the inner one late too. -/
def execLoopSample (d : Die) (n : LoopNo) (late : Fin 4) (s : State) : Host.Outcome State Fault Refusal :=
  let x := s.loop d.val n.val
  match x.cfg with
  | none => done s s
  | some c =>
    if s.dieUp d.val && !c.outer && s.now % c.div == c.phase && x.lastAt != some s.now then
      done s ((s.sampleLoop d.val (if c.loc then s.now else s.now + c.div) 4 (if c.loc then 0 else late.val) n.val).modLoop d.val
        n.val fun x => { x with lastAt := some s.now })
    else done s s

/-! ### Outputs (R170, R172, R173) -/

/-- The word of an analog output changes, unless the controller is in SAFE. -/
def State.setAo (s : State) (k : Nat) (v : V24) : State :=
  if s.fio.safe then s else s.modFio fun f => { f with aouts := sput f.aouts k v }

/-- Apply an output: to the destination cell, or to the analog output with its mirror point. A forced mirror point's value
reaches the analog output. -/
def State.writeLoopOut (s : State) (d n : Nat) (c : LoopCfg) (l : Latch) : State :=
  let s := s.modLoop d n fun x => { x with out := l.value, outQual := l.qual, applied := true }
  match c.dst with
  | .cell m => s.batch [{ m := m, src := .loop, q := l.qual, v := l.value }]
  | .aout k (some m) =>
    (s.setAo k (if (s.cell m).forced then (s.cell m).value else l.value)).batch [{ m := m, src := .loop, q := l.qual, v := l.value }]
  | .aout k none => s.setAo k l.value
  | .none => s

/-- Apply what a loop, and the outer loops above it, have due at this tick; a late sample is counted instead. -/
def State.applyLoop (s : State) (d : Nat) : Nat → Nat → State
  | 0, _ => s
  | f + 1, n => match (s.loop d n).cfg with
    | none => s
    | some c =>
      let l := if s.loopHeld d c then none else (s.loop d n).latches.find? fun x => x.due == s.now
      let s := s.modLoop d n fun x => { x with latches := x.latches.filter fun y => s.now < y.due }
      let s := match l with
        | none => s
        | some l =>
          if l.late then s.modLpe d fun e => { e with late := addW e.late 1 }.irq 0
          else s.writeLoopOut d n c l
      match c.sp with
      | .outer o => s.applyLoop d f o
      | _ => s

/-- LOOP_OUTPUT_APPLY (R172): a bus-class slot applies the output that falls due at this tick. -/
def execLoopOutputApply (d : Die) (n : LoopNo) (s : State) : Host.Outcome State Fault Refusal :=
  match (s.loop d.val n.val).cfg with
  | none => done s s
  | some c =>
    if s.dieUp d.val && !c.outer && !c.loc then
      if s.loopHeld d.val c then done s s else done s (s.applyLoop d.val 4 n.val)
    else done s s

/-- The local-class slots of the module, by die and slot. -/
def State.localSlots (s : State) : List (Nat × Nat) :=
  (s.cfg.loops.filter fun c => c.loc && !c.outer).map fun c => (c.die, c.slot)

/-- The words sent for the analog outputs without a loop are written too. -/
def State.applyAoNext (s : State) : State :=
  if s.fio.safe then s
  else s.modFio fun f => { f with aouts := sputs f.aouts f.aoNext, aoNext := [] }

/-- LOCAL_LOOP_OUTPUT (R173, 09 R188): 40 µs after the tick start. -/
def execLocalLoopOutput (s : State) : Host.Outcome State Fault Refusal :=
  done s (s.localSlots.foldl (fun s e =>
    match (s.loop e.1 e.2).cfg with
    | some c => if s.dieUp e.1 && !s.loopHeld e.1 c then s.applyLoop e.1 4 e.2 else s
    | none => s) s.applyAoNext)

/-! ### Test units (R179, R187) -/

/-- LPE_TU_CTRL's fields, which an inactive unit takes from a write. -/
def TestUnit.setCtrl (u : TestUnit) (v : Nat) : TestUnit :=
  { u with injEn := v.testBit 2, atSp := v.testBit 3, sig := BitVec.ofNat 2 (field v 4 2), capEn := v.testBit 6
           prbsN := BitVec.ofNat 4 (field v 8 4) }

/-- Start a unit: refused with BUSY on a protected slot or one that another unit injects into. -/
def State.startUnit (s : State) (d u : Nat) : State :=
  let x := s.unit d u
  let prot := match (s.loop d x.slot).cfg with
    | some c => c.prot
    | none => false
  if prot || (s.unitOf d x.slot fun y => y.injEn && (y.injOn || y.starting)).isSome then
    s.setUnit d u { x with result := 1, done := false }
  else s.setUnit d u { x with
    active := true, starting := true, stopping := false, done := false, ovf := false, result := 0, count := 0, buffer := []
    records := [], dmaOn := false }

/-- A write of LPE_TU_CTRL: an active unit heeds STOP only. -/
def State.tuCtrl (s : State) (d u v : Nat) : State :=
  let x := s.unit d u
  if x.active then
    if v.testBit 1 then s.setUnit d u { x with stopping := true } else s
  else
    let y := { x.setCtrl v with owner := none }
    if v.testBit 0 && y.rangesOk then (s.setUnit d u y).startUnit d u else s.setUnit d u y

end Sys2Proof.Machine
end

