-- ==== Sys2Proof/Machine/Channels.lean ====
section
/-! DEFINITION. The field I/O controller's channels: switching, faults, retries, points, supply (09 R188 to R197, R201). -/
namespace Sys2Proof.Machine

def FieldIO.irq (f : FieldIO) (i : Nat) : FieldIO := { f with irqStat := orBit f.irqStat i true }
def State.group (s : State) (g : Nat) : Group := sget {} s.fio.groups g
def State.setGroup (s : State) (g : Nat) (x : Group) : State := s.modFio fun f => { f with groups := sput f.groups g x }
def State.modGroup (s : State) (g : Nat) (f : Group → Group) : State := s.setGroup g (f (s.group g))
/-- The group of a channel (R190). -/
def chGroup (c : Nat) : Nat := c / 16

/-- A channel's configuration; a channel without one is an input with the default filter (Table 09.8). -/
def State.ccfg (s : State) (c : Nat) : ChanCfg :=
  match s.chanCfg? c with
  | some x => x
  | none => {}

/-! ### Motion channels' own channels (Table 09.4) -/

/-- The motion channel that owns a leg, a limit input or a pulse input, if one is enabled there. -/
def motOfLeg (c : Nat) : Option (Nat × Bool) := if 48 ≤ c && c < 64 then some ((c - 48) / 2, c % 2 = 1) else none
def motOfLimit (c : Nat) : Option (Nat × Bool) := if 32 ≤ c && c < 48 then some ((c - 32) / 2, c % 2 = 0) else none
def legCh (m : Nat) (home : Bool) : Nat := 48 + 2 * m + (if home then 1 else 0)
def limitCh (m : Nat) (home : Bool) : Nat := 32 + 2 * m + (if home then 0 else 1)
/-- Does an enabled motion channel own this channel? -/
def State.motionOwns (s : State) (c : Nat) : Bool :=
  s.cfg.motions.any fun x => c == 48 + 2 * x.m || c == 49 + 2 * x.m || c == 32 + 2 * x.m || c == 33 + 2 * x.m || (x.pulse && c == x.m)
/-- The enabled motion channel whose leg this is. -/
def State.legOf (s : State) (c : Nat) : Option (Nat × Bool) :=
  match motOfLeg c with
  | some (m, h) => if (s.motCfg? m).isSome then some (m, h) else none
  | none => none
/-- A pulse-mode channel. -/
def State.isPulse (s : State) (c : Nat) : Bool :=
  c < 16 && ((s.ccfg c).pulse || s.cfg.motions.any fun x => x.m == c && x.pulse)
/-- An output: a configured output channel, or a motion leg. -/
def State.isOut (s : State) (c : Nat) : Bool := (s.ccfg c).out || (s.legOf c).isSome

def ChanSt.faulty (x : ChanSt) : Bool := x.short || x.thermal || x.groupOvl || x.latched

/-- An event of a channel. -/
def State.chEvent (s : State) (c code what : Nat) : State :=
  s.event (s.ccfg c).tenant 0 8 c code [w32 c, w32 what]

/-! ### Switching (R194) -/

/-- Switch a channel on, with blanking; `rank` orders the switch-ons. -/
def State.switchOn (s : State) (c rank : Nat) : State :=
  (s.modChan c fun x => { x with on := true, blanking := true, curlim := false, onOrder := rank, dirty := true }).modFio fun f =>
    { f with rank := max f.rank rank }
/-- Switch a channel off. -/
def State.switchOff (s : State) (c : Nat) : State :=
  s.modChan c fun x => { x with
    on := false, blanking := false, curlim := false, retrying := false, dirty := x.dirty || x.on }

/-- A short-circuit or thermal fault (R195): off, counted, recorded, and either latched or waiting for its retry. -/
def State.chFault (s : State) (c : Nat) (thermal : Bool) : State :=
  let retry := (s.ccfg c).retry && !s.motionOwns c
  let s := s.switchOff c
  let s := s.modChan c fun x => { x with
    short := x.short || !thermal, thermal := x.thermal || thermal, retryPend := retry, latched := x.latched || !retry
    cooled := !thermal, elapsed := false }
  let s := s.modFio fun f => { f with shorts := addW f.shorts 1 }.irq (if thermal then 2 else 1)
  s.chEvent c (if thermal then 3 else 2) 1

/-! ### Retries (R195, R196) -/

/-- A retry that may start as soon as a window is free; a motion leg is never retried (R203). -/
def State.retryReady (s : State) (c : Nat) : Bool :=
  let x := s.chan c
  x.retryPend && !s.motionOwns c && x.elapsed && x.cooled && x.cmd && !x.on && !(s.group (chGroup c)).missing
/-- Start the retry that stands first among the ready ones of a group, when its 10 ms window is free. -/
def State.serveRetry (s : State) (g : Nat) : State :=
  let x := s.group g
  if x.freeAt ≤ s.now then
    match x.retryQ.find? fun e => s.retryReady e.2 with
    | some e =>
      let s := s.setGroup g { x with retryQ := x.retryQ.filter (·.2 != e.2), freeAt := s.now + 160 }
      (s.switchOn e.2 (s.fio.rank + 1)).modChan e.2 fun y => { y with retrying := true }
    | none => s
  else s
/-- A retry's place: behind those due for earlier windows, ascending by channel among those due for its own. -/
def queueAt (e : Nat × Nat) : List (Nat × Nat) → List (Nat × Nat)
  | [] => [e]
  | x :: l => if e.1 < x.1 || (e.1 = x.1 && e.2 < x.2) then e :: x :: l else x :: queueAt e l
/-- A retry falls due: it waits for its window, which the controller gives at its next tick. -/
def State.queueRetry (s : State) (c : Nat) : State :=
  s.modGroup (chGroup c) fun x => { x with retryQ := queueAt (max x.freeAt s.now, c) (x.retryQ.filter (·.2 != c)) }
/-- The driving point commands off: the pending retry is cancelled and the fault clears. -/
def State.cancelRetry (s : State) (c : Nat) : State :=
  if (s.chan c).retryPend then
    (s.modChan c fun x => { x with retryPend := false, short := false, thermal := false, elapsed := false }).modGroup (chGroup c) fun x =>
      { x with retryQ := x.retryQ.filter (·.2 != c) }
  else s

/-! ### Driving points (R188, R189) -/

/-- A driving point's VALUE. -/
def State.driven (s : State) : Option Nat → V24
  | some m => (s.cell m).value
  | none => 0

/-- Bring a channel to its command: on only without a fault, a pending retry, or a missing supply. -/
def State.obey (s : State) (c rank : Nat) (want : Bool) : State :=
  let s := s.modChan c fun x => { x with cmd := want }
  let x := s.chan c
  let g := s.group (chGroup c)
  if !want then
    let s := s.cancelRetry c
    let s := s.modGroup (chGroup c) fun y => { y with restore := y.restore.filter (· != c) }
    if x.on then s.switchOff c else s
  else if x.on || x.faulty || x.retryPend || g.missing || g.restore.contains c then s
  else s.switchOn c rank

/-- A channel is no longer an output of its own: it goes off, with no command, pending retry or turn after MISSING. -/
def State.quitChan (s : State) (c : Nat) : State :=
  (((s.cancelRetry c).switchOff c).modChan c fun x => { x with cmd := false }).modGroup (chGroup c) fun y => { y with
    restore := y.restore.filter (· != c) }

/-- The configured output channels that driving points command. -/
def State.outChans (s : State) : List Nat :=
  sortNat ((s.cfg.chans.filter fun x => x.out && x.ch < 64 && !s.motionOwns x.ch).map fun (x : ChanCfg) => x.ch)

/-- The commands that one link frame brings, all within the same tick. -/
def State.obeyAll (s : State) : State :=
  let rank := s.fio.rank + 1
  s.outChans.foldl (fun s c => s.obey c rank (s.driven (s.ccfg c).driver != 0)) s

/-- The analog output words of a link frame: outputs that no loop drives take their driving point's VALUE. -/
def State.sendAo (s : State) : State :=
  s.modFio fun f => { f with
    aoNext := s.cfg.aouts.foldl (fun m x => if x.loop || x.driver.isNone then m else sput m x.k (s.driven x.driver)) f.aoNext }

/-! ### Input points (R188, R190, Table 09.1) -/

/-- What a point that holds its value is written with. -/
def State.heldValue (s : State) (m : Nat) : V24 :=
  if (s.cell m).forced then (sget {} s.pnt.shadows m).value else (s.cell m).value

/-- What a channel's point holds: an output's switch state, a pulse input's count, an input's filtered state. -/
def State.chValue (s : State) (c : Nat) : V24 :=
  let x := s.chan c
  if s.isOut c then (if x.on then 1 else 0) else if s.isPulse c then x.count else if x.filt then 1 else 0
/-- QUAL of a channel's point: uncertain for an input while its group's supply is missing. -/
def State.chQual (s : State) (c : Nat) : Qual :=
  if !s.isOut c && (s.group (chGroup c)).missing then .uncertain else .good
/-- The writes of the points bound to the channels that `sel` picks. -/
def State.chWrites (s : State) (sel : Nat → Bool) : List CellWrite :=
  (s.pnt.descs.filter fun e => e.2.bkind == 2 && sel (e.2.bref.toNat % 64)).map fun e =>
    { m := e.1, src := .field, q := s.chQual (e.2.bref.toNat % 64), v := s.chValue (e.2.bref.toNat % 64) }
/-- An analog input's or output read-back's value and QUAL. -/
def State.ainValue (s : State) (k : Nat) : V24 × Qual :=
  if k < 16 then let a := sget {} s.fio.ains k; (a.value, a.qual)
  else (sget 0 s.fio.aouts (k - 16), if s.fio.safe then .uncertain else .good)
/-- The writes of the analog points. -/
def State.ainWrites (s : State) : List CellWrite :=
  (s.pnt.descs.filter fun e => e.2.bkind == 3).map fun e =>
    let a := s.ainValue (e.2.bref.toNat % 32)
    { m := e.1, src := .field, q := a.2, v := a.1 }

/-- One analog input sample: saturated samples are uncertain, and a current below 3.6 mA is a wire break (R201). -/
def ainSample (current : Bool) (raw : Int) : AinSt :=
  let v := clampInt v24Min v24Max raw
  { value := BitVec.ofInt 24 v
    qual := if current && raw < 1440000 then .bad else if v != raw then .uncertain else .good }
/-- The analog inputs sampled at a tick start: every one, in voltage mode where the configuration that the controller holds does
not name it. -/
def State.sampleAins (s : State) (l : List Int) : State :=
  (List.range 16).foldl (fun s k =>
    let old := sget {} s.fio.ains k
    let x := ainSample (s.fio.held && s.cfg.ains.any fun c => c.k == k && c.current) (l.getD k 0)
    s.modFio fun f =>
      let f := { f with ains := sput f.ains k x }
      if x.qual == .bad && old.qual != .bad then f.irq 7 else f) s

/-! ### Analog outputs (R202) -/

/-- The DAC's code: bits [23:8] of the output word. -/
def dacCode (w : V24) : BitVec 16 := w.extractLsb' 8 16
/-- The voltage at an analog output, in 10 V / 32,768: 0 V for a negative code. -/
def State.aoutVolts (s : State) (k : Nat) : Nat := (dacCode (sget 0 s.fio.aouts k)).toInt.toNat

end Sys2Proof.Machine
end

