-- ==== Sys2Proof/Machine/Motion.lean ====
section
/-! DEFINITION. Motion channels: moves, limits, homing, coast learning and faults (09 R203 to R209). -/
namespace Sys2Proof.Machine

/-! ### Parts -/

/-- The learned coast toward a side (false far, true home). -/
def Motion.learned (x : Motion) (home : Bool) : Nat := if home then x.lHome else x.lFar
/-- A leg is on. -/
def Motion.moving (x : Motion) : Bool := x.state == .far || x.state == .home || x.state == .homing
/-- The side that the pair travels to. -/
def Motion.side (x : Motion) : Bool := x.state != .far
/-- Is the limit of a side active? -/
def State.limitOn (s : State) (m : Nat) (home : Bool) : Bool := (s.chan (limitCh m home)).filt
def State.motTenant (s : State) (m : Nat) : Tenant :=
  match s.motCfg? m with
  | some c => c.tenant
  | none => 0

/-- The side that a goal lies on, from a position. -/
def goalSide (pos : V24) : MoveGoal → Bool
  | .farLimit => false
  | .homeLimit => true
  | .homing => true
  | .target v => v.toInt < pos.toInt
/-- The distance that is left to a position target on a side. -/
def remaining (pos v : V24) (home : Bool) : Int := if home then pos.toInt - v.toInt else v.toInt - pos.toInt

/-- FIO_M_STATE (Table 09.9). -/
def State.motState (s : State) (m : Nat) : Nat :=
  let x := s.mot m
  let st := match x.state with
    | .idle => 0
    | .far => 1
    | .home => 2
    | .dead => 3
    | .coasting => 4
    | .homing => 5
    | .fault => 6
  st + 16 * x.fault + flag x.homed 8 + flag (s.limitOn m true) 9 + flag (s.limitOn m false) 10 + flag x.learnRej 11

/-- The value of a MOV point's quantity: position, state code, learned coasts (Table 09.1). -/
def State.motValue (s : State) (m q : Nat) : V24 :=
  match q with
  | 0 => (s.mot m).pos
  | 1 => BitVec.ofNat 24 (s.motState m % 256)
  | 2 => BitVec.ofNat 24 (s.mot m).lFar
  | _ => BitVec.ofNat 24 (s.mot m).lHome
/-- The writes of motion points: all with `every`, otherwise those whose quantity has changed (R188 names no time for them:
DESIGN CHOICE, log entry 44: as a channel's point). -/
def State.motWrites (s : State) (every : Bool) : List CellWrite :=
  ((s.pnt.descs.filter fun e => e.2.bkind == 8).map fun e =>
    ({ m := e.1, src := .field, q := .good, v := s.motValue (e.2.bref.toNat % 8) (e.2.bref.toNat / 256 % 4) } : CellWrite)).filter
      fun w => every || w.v != s.heldValue w.m
/-- The points that the field I/O link writes in a tick, as one batch (02 R38): those whose channel has changed since the last
tick, and all of a kind whose refresh falls due. -/
def State.writeDue (s : State) : State :=
  let s := s.batch (s.chWrites (fun c => s.fio.chanDue || (s.chan c).dirty) ++ (if s.fio.ainDue then s.ainWrites else [])
    ++ s.motWrites s.fio.chanDue)
  s.modFio fun f => { f with
    chanDue := false, ainDue := false, chans := smap f.chans fun _ (x : ChanSt) => { x with dirty := false } }

/-- The requests of a channel's moves complete when the move has ended. -/
def State.moveDone (s : State) (m : Nat) : State :=
  let x := s.mot m
  (s.setMot m { x with reqs := [] }).finishAll { r0 := w32 (s.motState m), r1 := x.pos.setWidth 32 } x.reqs

/-- The leg that is on goes off: the coast begins, and DT with it. -/
def State.legOff (s : State) (m : Nat) : State :=
  let x := s.mot m
  if x.moving then
    (s.switchOff (legCh m x.side)).setMot m { x with
      state := .coasting, runTicks := s.now - x.runStart, coast := 0, dtPend := true, goal := none }
  else s

/-- Rest: no move, no coast. A held fault shows as state 6. -/
def State.rest (s : State) (m : Nat) : State :=
  (s.modMot m fun x => { x with state := if x.fault = 0 then .idle else .fault, goal := none, next := none }).moveDone m

/-- Hold a fault (R205, R206, R208): the pair stops, what waits is dropped. -/
def State.motFault (s : State) (m n : Nat) : State :=
  let s := (s.modMot m fun x => { x with fault := n, next := none }).modFio fun f => f.irq 4
  let s := s.event (s.motTenant m) 0 8 m 6 [w32 m, w32 n]
  if (s.mot m).moving then s.legOff m
  else if (s.mot m).state == .coasting then s
  else s.rest m

/-- Both-off: a running pair coasts, a waiting move is dropped; a coast in progress is measured on. -/
def State.motStop (s : State) (m : Nat) : State :=
  let s := s.modMot m fun x => { x with next := none }
  if (s.mot m).moving then s.legOff m
  else if (s.mot m).state == .dead then s.rest m
  else s

/-- Switch a leg on towards a goal; never while the other leg is on, or while the supply of the legs' group is missing (R190, R203). -/
def State.legOn (s : State) (m : Nat) (home : Bool) (g : MoveGoal) : State :=
  if (s.chan (legCh m (!home))).on || (s.group 3).missing then s.rest m
  else (s.switchOn (legCh m home) (s.fio.rank + 1)).modMot m fun x => { x with
    state := if g == .homing then .homing else if home then .home else .far
    goal := some g, next := none, lastLeg := some home, runStart := s.now }

/-- A leg may not move the pair to a side: the side's leg is latched, or a fault holds the whole channel (R203, R206, R208). -/
def Motion.blocked (x : Motion) (home : Bool) : Bool :=
  if x.fault = 0 then false
  else if x.fault = 4 then (if home then x.legHome else x.legFar)
  else true

/-! ### Starting a move (Table 09.5) -/

/-- Home has been found: the position is 0. -/
def Motion.atHome (x : Motion) (now : Nat) : Motion := { x with pos := 0, homed := true, homeHit := some (now : Int), chatter := 0 }

/-- A move has nothing to do: its limit is active, or its target lies within the learned coast. -/
def State.moveMet (s : State) (m : Nat) (g : MoveGoal) : Bool :=
  let x := s.mot m
  let side := goalSide x.pos g
  s.limitOn m side || match g with
    | .target v => decide (remaining x.pos v side ≤ x.learned side)
    | _ => false
/-- A home command clears HOMED; with the home limit active the channel homes at once. -/
def State.homeFirst (s : State) (m : Nat) (g : MoveGoal) : State :=
  if g == .homing then s.modMot m fun y => if s.limitOn m true then y.atHome s.now else { y with homed := false } else s

/-- Start a move of a pair at rest: it may be complete at once, or wait for DT after the other leg. -/
def State.startMove (s : State) (m : Nat) (g : MoveGoal) : State :=
  let x := s.mot m
  let side := goalSide x.pos g
  let met := s.moveMet m g
  let s := s.homeFirst m g
  if met then s.rest m
  else if x.dtPend && x.lastLeg != some side then s.modMot m fun y => { y with state := .dead, goal := none, next := some g }
  else s.legOn m side g

/-- A move that comes during a coast or a dead time: complete at once where it has nothing to do, otherwise it waits. -/
def State.waitMove (s : State) (m : Nat) (g : MoveGoal) : State :=
  let met := s.moveMet m g
  let s := s.homeFirst m g
  if !met then s.modMot m fun y => { y with next := some g }
  else if (s.mot m).state == .dead then s.rest m
  else (s.modMot m fun y => { y with next := none }).moveDone m

/-- A move that comes while the pair moves: the same side takes the new goal, the other side reverses after coast and DT. -/
def State.redirect (s : State) (m : Nat) (g : MoveGoal) : State :=
  let x := s.mot m
  let side := goalSide x.pos g
  let s := if g == .homing then s.modMot m fun y => { y with homed := false } else s
  if side = x.side then
    let near : Bool := match g with
      | .target v => decide (remaining x.pos v side ≤ x.learned side)
      | _ => false
    if near then s.legOff m
    else s.modMot m fun y => { y with
      goal := some g, state := if g == .homing then .homing else if side then .home else .far }
  else (s.legOff m).modMot m fun y => { y with next := some g }

/-- A move: NOT_READY for a position target that the channel cannot count, in SAFE, or without the legs' supply; BUSY while a fault
holds it. -/
def State.move (s : State) (m : Nat) (g : MoveGoal) (r : Option Req) : BitVec 16 × State :=
  match s.motCfg? m with
  | none => (stNotFound, s)
  | some c =>
    let x := s.mot m
    let target := match g with
      | .target _ => true
      | _ => false
    if (target && (!x.homed || !c.pulse)) || s.fio.safe || (s.group 3).missing then (stNotReady, s)
    else if x.blocked (goalSide x.pos g) then (stBusy, s)
    else
      let s := s.modMot m fun y => { y with reqs := y.reqs ++ r.toList }
      let s := if x.moving then s.redirect m g
        else if x.state == .coasting || x.state == .dead then s.waitMove m g
        else s.startMove m g
      (stOk, s)

/-- Clear the fault, the leg latches and the legs' channel faults (R208). -/
def State.motClear (s : State) (m : Nat) : State :=
  let clr (s : State) (c : Nat) : State := s.modChan c fun x => { x with
    short := false, thermal := false, groupOvl := false, latched := false }
  let s := clr (clr s (legCh m false)) (legCh m true)
  s.modMot m fun x => { x with
    fault := 0, legFar := false, legHome := false, ocFar := none, ocHome := none
    state := if x.state == .fault then .idle else x.state }

/-- Clear the learned coasts (R207). -/
def Motion.resetCoast (x : Motion) : Motion :=
  { x with lFar := 0, lHome := 0, nFar := 0, nHome := 0, accFar := false, accHome := false }

/-- The request of a command that moves nothing completes at once. -/
def State.motAns (s : State) (m : Nat) (r : Option Req) : State :=
  s.finish? r { r0 := w32 (s.motState m), r1 := (s.mot m).pos.setWidth 32 }
/-- A motion command by its FIO_M_CMD code, with its outcome. A stop during a coast has no effect (Table 09.6). -/
def State.motCmd (s : State) (m cmd : Nat) (target : V24) (r : Option Req) : BitVec 16 × State :=
  match cmd with
  | 1 => s.move m .farLimit r
  | 2 => s.move m .homeLimit r
  | 3 => s.move m (.target target) r
  | 4 =>
    if (s.mot m).state == .coasting then (stOk, s.motAns m r)
    else
      let s := (s.modMot m fun y => { y with reqs := y.reqs ++ r.toList }).motStop m
      (stOk, if (s.mot m).state == .coasting then s else s.moveDone m)
  | 5 => s.move m .homing r
  | 6 => (stOk, (s.motClear m).motAns m r)
  | 7 => (stOk, (s.modMot m fun y => y.resetCoast).motAns m r)
  | _ => (stInvalid, s)

/-! ### Limits, pulses, coast (R204 to R207) -/

/-- A limit input's filtered state has changed. -/
def State.limitChange (s : State) (m : Nat) (home : Bool) : State :=
  let on := s.limitOn m home
  let x := s.mot m
  -- the chatter count after a homing
  let chat := home && x.homeHit.any fun t => (s.now : Int) ≤ t + msTicks 500
  let s := if chat then s.modMot m fun y => { y with chatter := y.chatter + 1 } else s
  if chat && 3 < (s.mot m).chatter then (s.modMot m fun y => { y with homeHit := none, chatter := 0 }).motFault m 2
  else if !on then s
  else if s.limitOn m (!home) then s.motFault m 7
  else if x.state == .homing then
    if home then (s.modMot m fun y => y.atHome s.now).legOff m else s.motFault m 1
  else if x.moving && x.side == home then s.legOff m
  else if (x.state == .dead || x.dtPend) && x.next.any fun g => goalSide x.pos g == home then
    if x.state == .dead then s.rest m else (s.modMot m fun y => { y with next := none }).moveDone m
  else s

/-- A pulse of a motion channel: it moves the position, counts the coast, and ends a targeted run at the coast distance. -/
def State.motPulse (s : State) (m : Nat) : State :=
  let x := s.mot m
  let pos := match x.lastLeg with
    | some false => x.pos + 1
    | some true => x.pos - 1
    | none => x.pos
  let s := s.setMot m { x with pos := pos, coast := if x.state == .coasting then x.coast + 1 else x.coast }
  match x.goal with
  | some (.target v) => if x.moving && remaining pos v x.side ≤ x.learned x.side then s.legOff m else s
  | _ => s

/-- A coast measurement is accepted. -/
def coastOk (c : MotCfg) (x : Motion) (home : Bool) : Bool :=
  secTicks 2 ≤ x.runTicks && x.coast ≤ c.coastMax
  && (!(if home then x.accHome else x.accFar) || x.coast ≤ 2 * x.learned home + 8)
/-- The learned value after an accepted coast. -/
def learn (c : MotCfg) (x : Motion) (home : Bool) : Nat :=
  if if home then x.accHome else x.accFar then
    clampNat 0 c.coastMax (x.learned home + roundDiv ((x.coast : Int) - x.learned home) 4).toNat
  else x.coast
/-- The coast is over: it is measured, and learned or rejected. -/
def Motion.coastEnd (x : Motion) (c : MotCfg) : Motion :=
  match x.lastLeg with
  | none => x
  | some home =>
    if !c.pulse then x
    else
      let ok := coastOk c x home
      let y := { x with lastC := x.coast % 65536, lastAcc := ok, lastDir := home }
      if !ok then { y with learnRej := true }
      else if home then
        { y with learnRej := false, lHome := learn c x home, accHome := true, nHome := min 65535 (x.nHome + 1) }
      else { y with learnRej := false, lFar := learn c x home, accFar := true, nFar := min 65535 (x.nFar + 1) }

/-- COAST_END (R207): 300 ms without a pulse after a leg went off. -/
def execCoastEnd (m : MotNo) (s : State) : Host.Outcome State Fault Refusal :=
  match s.motCfg? m.val with
  | none => done s s
  | some c =>
    if (s.mot m.val).state == .coasting then
      let t := s.modMot m.val fun x => { x.coastEnd c with state := if x.fault = 0 then .idle else .fault }
      match (t.mot m.val).next with
      | some g => done s ((t.modMot m.val fun x => { x with next := none }).startMove m.val g)
      | none => done s (t.rest m.val)
    else done s s

/-- DEAD_TIME_EXPIRY (R203): DT after one leg went off, a move to the other side may begin. -/
def execDeadTimeExpiry (m : MotNo) (s : State) : Host.Outcome State Fault Refusal :=
  let x := s.mot m.val
  if x.dtPend then
    let t := s.setMot m.val { x with dtPend := false }
    match x.state, x.next with
    | .dead, some g => done s ((t.modMot m.val fun y => { y with state := .idle, next := none }).startMove m.val g)
    | _, _ => done s t
  else done s s

/-- MOVE_TIMEOUT (R205): fault 3. -/
def execMoveTimeout (m : MotNo) (s : State) : Host.Outcome State Fault Refusal :=
  if (s.mot m.val).moving then done s (s.motFault m.val 3) else done s s

/-- PULSE_LOSS_TIMEOUT (R205): driving with PULSE_EN and no pulse for 2 s is fault 6, and HOMED is lost. -/
def execPulseLossTimeout (m : MotNo) (s : State) : Host.Outcome State Fault Refusal :=
  if (s.mot m.val).moving && (s.motCfg? m.val).any fun (c : MotCfg) => c.pulse then
    done s ((s.modMot m.val fun x => { x with homed := false }).motFault m.val 6)
  else done s s

/-- MOTION_TARGET_CHANGE (R205): the VALUE of the target point has changed. -/
def execMotionTargetChange (m : MotNo) (s : State) : Host.Outcome State Fault Refusal :=
  match (s.motCfg? m.val).bind fun (c : MotCfg) => c.target with
  | none => done s s
  | some p =>
    let v := (s.cell p).value
    if sfind s.fio.targets m.val = some v then done s s
    else
      let t := s.modFio fun f => { f with targets := sput f.targets m.val v }
      let cmd := if v = 0x800000 then 5 else if v = 0x7FFFFF then 1 else if v = 0x800001 then 4 else 3
      done s (t.motCmd m.val cmd v none).2

/-! ### Leg faults (R203, R208) -/

/-- A report of overcurrent or of a thermal trip on a leg: both legs within 10 ms are fault 5. -/
def State.legReport (s : State) (m : Nat) (home : Bool) : State :=
  let s := s.modMot m fun x => if home then { x with ocHome := some (s.now : Int) } else { x with ocFar := some (s.now : Int) }
  let x := s.mot m
  match x.ocFar, x.ocHome with
  | some a, some b =>
    if a ≤ b + (msTicks 10 : Int) && b ≤ a + (msTicks 10 : Int) then
      if x.fault = 5 then s else (s.modMot m fun y => { y with legFar := true, legHome := true }).motFault m 5
    else s
  | _, _ => s

/-- A leg has faulted (R195, R197): it is latched; the other leg latched already is fault 5. -/
def State.legFault (s : State) (m : Nat) (home : Bool) : State :=
  let s := s.modMot m fun x => if home then { x with legHome := true } else { x with legFar := true }
  let x := s.mot m
  -- the faulted leg is off already
  let s := if x.moving && x.side == home then s.legOff m else s
  if x.fault = 5 then s
  else if x.legFar && x.legHome then s.motFault m 5
  else s.motFault m 4

/-- A channel's fault, its motion channel's part included. -/
def State.fault (s : State) (c : Nat) (thermal : Bool) : State :=
  let s := s.chFault c thermal
  match s.legOf c with
  | some (m, h) => (s.legFault m h).legReport m h
  | none => s

end Sys2Proof.Machine
end

