-- ==== Sys2Proof/Machine/FieldIO.lean ====
section
/-! DEFINITION. The field I/O controller's commands: SAFE, the watchdog, inputs, output faults, supply and self-test (09). -/
namespace Sys2Proof.Machine

/-! ### SAFE (R199, R200) -/

/-- A channel goes to its safe state. -/
def State.safeChan (s : State) (rank : Nat) (c : Nat) : State :=
  match (s.ccfg c).safe with
  | .off => ((s.switchOff c).modChan c fun x => { x with cmd := false }).modGroup (chGroup c) fun y => { y with
      restore := y.restore.filter (· != c) }
  | .hold => s.modChan c fun x => { x with cmd := x.cmd && (x.on || x.retryPend) }
  | .on =>
    let s := s.modChan c fun x => { x with cmd := true }
    let x := s.chan c
    if x.on || x.faulty || x.retryPend || (s.group (chGroup c)).missing || (s.group (chGroup c)).restore.contains c then s
    else s.switchOn c rank
/-- The safe states of the configuration in force: digital outputs, analog outputs, motion pairs both-off. -/
def State.applySafe (s : State) : State :=
  let rank := s.fio.rank + 1
  let s := s.outChans.foldl (fun s c => s.safeChan rank c) s
  let s := s.modFio fun f => { f with
    aoNext := [], aouts := s.cfg.aouts.foldl (fun m x => if x.hold then m else sput m x.k x.safe) f.aouts }
  (List.range 8).foldl (fun s m => s.motStop m) s

/-- Enter SAFE (Table 09.3). -/
def State.enterSafe (s : State) (cause : Nat) : State :=
  let s := s.modFio fun f => { f with safe := true, cause := cause }.irq 5
  (s.event 0 0 8 0 7 [w32 cause]).applySafe

/-- RELEASE over the link: it takes effect with the configuration sent; outputs follow their points from the next tick. -/
def State.fioRelease (s : State) : State :=
  if s.fio.linkUp && s.fio.configured && s.fio.safe then s.modFio fun f => { f with safe := false, cause := 0 }
  else s

/-- FIO_LINK_LOSS (R199): four consecutive link frames are missing or fail their check. -/
def execFioLinkLoss (s : State) : Host.Outcome State Fault Refusal :=
  let t := s.modFio fun f => { f with linkUp := false, lost := true }
  if s.fio.safe then done s t else done s (t.enterSafe 3)

/-- Some die has committed a scan within the watchdog's time-out. -/
def State.logicAlive (s : State) : Bool :=
  s.dies.any fun d => (s.die d).commitTick != 0 && s.now ≤ (s.die d).commitTick.toNat + msTicks s.fio.wdTmo

/-- The configuration reaches the controller: it takes effect with its safe states, where the controller is in SAFE (R199). -/
def State.sendCfg (s : State) : State :=
  let s := s.modFio fun f => { f with configured := true, held := true, unsent := false }
  if s.fio.safe then s.applySafe else s
/-- The link has recovered: a configuration that waits is sent, and Exyan writes RELEASE (R200). -/
def State.linkBack (s : State) : State :=
  let s := s.modFio fun f => { f with linkUp := true, lost := false }
  (if s.fio.unsent then s.sendCfg else s).fioRelease
/-- WATCHDOG_REFRESH (R199): the frame that carries Exyan's refresh, every 5 ms; with LOGIC set it carries one only while logic
is alive. One that gets through after a link loss shows that the link has recovered, refresh or none. -/
def execWatchdogRefresh (s : State) : Host.Outcome State Fault Refusal :=
  if s.su.phase == .running then
    let t := if s.fio.linkUp then s else s.linkBack
    done s (if !s.fio.wdLogic || s.logicAlive then t.modFio fun f => { f with refreshed := s.now } else t)
  else done s s

/-- FIO_WATCHDOG_EXPIRY (R199): no refresh within FIO_WD_TMO. -/
def execFioWatchdogExpiry (s : State) : Host.Outcome State Fault Refusal :=
  if !s.fio.safe && s.fio.refreshed + msTicks s.fio.wdTmo ≤ s.now then
    done s ((s.modFio fun f => { f with wdExp := addW f.wdExp 1 }).enterSafe 1)
  else done s s

/-- FIO_CONTROLLER_POWER_UP (R199): every digital output off, every analog output 0 V, every motion pair off, unconfigured. -/
def execFioControllerPowerUp (s : State) : Host.Outcome State Fault Refusal :=
  let f : FieldIO := {
    wdTmo := s.fio.wdTmo, wdLogic := s.fio.wdLogic, stInt := s.fio.stInt, shorts := s.fio.shorts, wdExp := s.fio.wdExp
    irqStat := orBit s.fio.irqStat 5 true, irqMask := s.fio.irqMask
    groups := smap s.fio.groups fun _ (g : Group) => { thr := g.thr }
    mots := smap s.fio.mots fun _ (x : Motion) => { x with homed := false, dtPend := false }, targets := s.fio.targets }
  done s ((List.range 8).foldl (fun s m => s.rest m) (({ s with fio := f }).event 0 0 8 0 7 [4]))

/-! ### Inputs (R192, R193) -/

/-- A filtered state has changed: its point is due, and a limit input's motion channel acts. -/
def State.filtChange (s : State) (c : Nat) : State :=
  let s := s.modChan c fun x => { x with dirty := true }
  match motOfLimit c with
  | some (m, h) => if (s.motCfg? m).isSome then s.limitChange m h else s
  | none => s

/-- INPUT_RAW_CHANGE (R192): a change away from rest starts the sample timer, one back to rest stops it. -/
def execInputRawChange (c : Chan) (high : Bool) (s : State) : Host.Outcome State Fault Refusal :=
  let x := s.chan c.val
  if s.isOut c.val || s.isPulse c.val then done s (s.setChan c.val { x with raw := high })
  else
    let rest := if high then x.integ = (s.ccfg c.val).ftop else x.integ = 0
    done s (s.setChan c.val { x with raw := high, sampling := !rest })

/-- One sample of the up/down counter filter. -/
def ChanSt.filter (x : ChanSt) (ftop : Nat) : ChanSt :=
  let n := if x.raw then min ftop (x.integ + 1) else x.integ - 1
  { x with
    integ := n, filt := if n = ftop then true else if n = 0 then false else x.filt
    sampling := if x.raw then n != ftop else n != 0 }

/-- INPUT_FILTER_SAMPLE (R192): the integrator of a channel in its self-test slot is frozen (R198). -/
def execInputFilterSample (c : Chan) (s : State) : Host.Outcome State Fault Refusal :=
  let x := s.chan c.val
  if x.sampling && !x.stBusy then
    let y := x.filter (s.ccfg c.val).ftop
    let t := s.setChan c.val y
    if y.filt != x.filt then done s (t.filtChange c.val) else done s t
  else done s s

/-- INPUT_POINT_REFRESH (R188): input channel points every 50 ms, analog points every 1 ms: they fall due and are written with
what else the link writes at the next tick. -/
def execInputPointRefresh (analog : Bool) (s : State) : Host.Outcome State Fault Refusal :=
  if s.fio.linkUp then
    done s (s.modFio fun f => if analog then { f with ainDue := true } else { f with chanDue := true })
  else done s s

/-- PULSE_EDGE (R193, R204): a rising edge on a pulse-mode channel. -/
def execPulseEdge (c : Chan) (s : State) : Host.Outcome State Fault Refusal :=
  if s.isPulse c.val then
    let t := s.modChan c.val fun x => { x with count := x.count + 1, dirty := true }
    if (s.motCfg? c.val).any fun (k : MotCfg) => k.pulse then done s (t.motPulse c.val) else done s t
  else done s s

/-! ### Output faults (R194 to R197) -/

/-- BLANKING_END (R195): still in current limit is a short circuit; a retry that passes clears its fault. -/
def execBlankingEnd (c : Chan) (limiting : Bool) (s : State) : Host.Outcome State Fault Refusal :=
  let x := s.chan c.val
  if x.on && x.blanking then
    if limiting then done s (s.fault c.val false)
    else if x.retrying then
      done s ((s.setChan c.val { x with
        blanking := false, curlim := false, retrying := false, retryPend := false, short := false, thermal := false, elapsed := false }).chEvent
          c.val (if x.thermal then 3 else 2) 0)
    else done s (s.setChan c.val { x with blanking := false, curlim := false })
  else done s s

/-- OVERCURRENT_DETECT (R195): 100 µs in current limit after blanking; during blanking CURLIM shows it and no more; on a leg,
current flowing while it is off counts for R208. -/
def execOvercurrentDetect (c : Chan) (s : State) : Host.Outcome State Fault Refusal :=
  let x := s.chan c.val
  if x.on then
    if x.blanking then done s (s.setChan c.val { x with curlim := true }) else done s (s.fault c.val false)
  else match s.legOf c.val with
    | some (m, h) => done s (s.legReport m h)
    | none => done s s

/-- THERMAL_TRIP (R194, R195): it acts at all times, blanking included. -/
def execThermalTrip (c : Chan) (s : State) : Host.Outcome State Fault Refusal :=
  if (s.chan c.val).on then done s (s.fault c.val true)
  else match s.legOf c.val with
    | some (m, h) => done s (s.legReport m h)
    | none => done s s

/-- RETRY_TIMER_EXPIRY (R195, R196): RETRY_T has elapsed since the switch-off. -/
def execRetryTimerExpiry (c : Chan) (s : State) : Host.Outcome State Fault Refusal :=
  let x := s.chan c.val
  if x.retryPend && !x.on then
    let t := s.setChan c.val { x with elapsed := true }
    if x.cooled then done s (t.queueRetry c.val) else done s t
  else done s s

/-- JUNCTION_COOLED (R195): a thermal retry whose RETRY_T has elapsed goes on. -/
def execJunctionCooled (c : Chan) (s : State) : Host.Outcome State Fault Refusal :=
  let x := s.chan c.val
  let t := s.setChan c.val { x with cooled := true }
  if x.retryPend && x.elapsed && !x.cooled && !x.on then done s (t.queueRetry c.val) else done s t

/-- The channel of a group that switched on most recently; of several at one instant, the highest. -/
def State.latestOn (s : State) (g : Nat) : Option Nat :=
  ((List.range 16).map (16 * g + ·)).foldl (fun best c =>
    if !(s.chan c).on then best
    else match best with
      | none => some c
      | some b => if (s.chan b).onOrder ≤ (s.chan c).onOrder then some c else some b) none

/-- GROUP_OVERLOAD_DETECT (R197). -/
def execGroupOverloadDetect (g : Fin 4) (s : State) : Host.Outcome State Fault Refusal :=
  match s.latestOn g.val with
  | none => done s s
  | some c =>
    let t := ((s.switchOff c).modChan c fun x => { x with groupOvl := true, latched := true, retryPend := false }).modFio fun f => f.irq 3
    let t := t.chEvent c 4 1
    match t.legOf c with
    | some (m, h) => done s (t.legFault m h)
    | none => done s t

/-- Clear a channel's latched fault; a motion leg's is cleared with its motion channel (R208). -/
def State.clearChan (s : State) (c : Nat) : State :=
  if (s.chan c).latched && !s.motionOwns c then
    s.modChan c fun x => { x with latched := false, short := false, thermal := false, groupOvl := false }
  else s
/-- A write of FIO_CLR (Table 09.7). -/
def State.fioClr (s : State) (v : Nat) : State :=
  if v.testBit 6 then (List.range 64).foldl (fun s c => s.clearChan c) s else s.clearChan (v % 64)

/-! ### Supply (R190) -/

/-- MISSING begins: the group's outputs go off without fault. -/
def State.groupLost (s : State) (g : Nat) : State :=
  ((List.range 16).map (16 * g + ·)).foldl (fun s c =>
    let s := if s.isOut c then (match s.legOf c with
        | some (m, h) => if (s.mot m).moving && (s.mot m).side == h then s.motStop m else s
        | none => s.switchOff c)
      else s
    s.modChan c fun x => { x with dirty := true }) s
/-- MISSING ends: the outputs due on wait for their turn, 10 ms apart. -/
def State.groupBack (s : State) (g : Nat) : State :=
  let due := ((List.range 16).map (16 * g + ·)).filter fun c =>
    (s.ccfg c).out && !s.motionOwns c && (s.chan c).cmd && !(s.chan c).faulty && !(s.chan c).retryPend
  let s := ((List.range 16).map (16 * g + ·)).foldl (fun s c => s.modChan c fun x => { x with dirty := true }) s
  s.modGroup g fun x => { x with restore := due }
/-- The next output that waits after MISSING switches on; one that is no longer due on leaves the list. -/
def State.serveRestore (s : State) (g : Nat) : State :=
  let x := s.group g
  let due := x.restore.filter fun c =>
    let y := s.chan c
    y.cmd && !y.on && !y.faulty && !y.retryPend
  match due with
  | [] => s.setGroup g { x with restore := [] }
  | c :: l =>
    if x.freeAt ≤ s.now && !x.missing then
      (s.setGroup g { x with restore := l, freeAt := s.now + 160 }).switchOn c (s.fio.rank + 1)
    else s.setGroup g { x with restore := due }

/-- A group after one 1 ms sample of its L+ and current (Table 09.2). -/
def Group.sample (x : Group) (mv ma : Nat) : Group :=
  let below := if mv < 9000 then x.below + 1 else 0
  let above := if 9500 < mv then x.above + 1 else 0
  let missing : Bool := if x.missing then above < 10 else 2 ≤ below
  let low : Bool := if x.low then mv ≤ 100 * x.thr + 500 else mv < 100 * x.thr
  { x with seen := true, volt := mv, current := ma, below := below, above := above, missing := missing, low := low
           restore := if missing then [] else x.restore }
/-- The supply of a group that was `x` and is now `y` is lost or comes back. -/
def State.supplyTurn (s : State) (g : Nat) (x y : Group) : State :=
  if y.missing && !x.missing then s.groupLost g else if !y.missing && x.missing then s.groupBack g else s
/-- Each change of MISSING or LOW is recorded (R190). -/
def State.supplyShow (s : State) (g : Nat) (x y : Group) : State :=
  if y.missing != x.missing || y.low != x.low then
    (s.modFio fun f => f.irq 0).event 0 0 8 g 1 [w32 g, w32 (flag y.missing 0 + flag y.low 1)]
  else s
/-- One 1 ms sample of a group, and what waits for its supply (R190, R196). -/
def State.supply (s : State) (g mv ma : Nat) : State :=
  let x := s.group g
  let y := x.sample mv ma
  ((((s.setGroup g y).supplyTurn g x y).supplyShow g x y).serveRestore g).serveRetry g

/-- SUPPLY_SAMPLE (R190): L+ in mV and current in mA of each group. -/
def execSupplySample (volts currents : List Nat) (s : State) : Host.Outcome State Fault Refusal :=
  done s ((List.range 4).foldl (fun s g => s.supply g (volts.getD g 0) (currents.getD g 0)) s)

/-- The smallest supply margin in 0.1 V, and its group; 0 until every group has been sampled (FIO_MARGIN's reset value). -/
def State.margin (s : State) : Int × Nat :=
  if (List.range 4).any fun g => !(s.group g).seen then (0, 0)
  else ((List.range 4).map fun g => ((((s.group g).volt / 100 : Nat) : Int) - (s.group g).thr, g)).foldl
    (fun b x => if x.1 < b.1 then x else b) ((((s.group 0).volt / 100 : Nat) : Int) - (s.group 0).thr, 0)

/-! ### Self-test (R198) -/

/-- Channels that the pass passes over. -/
def State.stSkips (s : State) (c : Nat) : Bool :=
  let x := s.chan c
  let pair := match s.legOf c with
    | some (m, _) => (s.mot m).moving || (s.mot m).state == .dead || (s.mot m).state == .coasting
    | none => false
  !(s.ccfg c).stEn || s.isPulse c || x.faulty || x.retryPend || pair
/-- The next channel of the pass. -/
def State.stNext (s : State) (k : Nat) : Option Nat := (List.range 64).find? fun c => k ≤ c && !s.stSkips c
/-- Enter the slot of the next channel from `k` on, or end the pass. -/
def State.stGo (s : State) (k : Nat) : State :=
  let s := s.modFio fun f => { f with chans := smap f.chans fun _ (x : ChanSt) => { x with stBusy := false } }
  match s.stNext k with
  | some c => (s.modChan c fun x => { x with stBusy := true }).modFio fun f => { f with pass := some c }
  | none => s.modFio fun f => { f with pass := none }

/-- Start a pass, and stop one. -/
def State.fioStStart (s : State) : State := if s.fio.configured then (s.modFio fun f => { f with stAt := s.now }).stGo 0 else s
def State.fioStStop (s : State) : State := s.stGo 64

/-- SELFTEST_PASS_START: the interval expires. -/
def execSelftestPassStart (s : State) : Host.Outcome State Fault Refusal :=
  if s.fio.stInt != 0 && s.fio.pass.isNone && s.due s.fio.stAt (secTicks s.fio.stInt) then done s s.fioStStart else done s s

/-- SELFTEST_SLOT: a channel's slot ends with its result. An output that reads stuck while on has no flag and is recorded. -/
def execSelftestSlot (c : Chan) (bad : Bool) (s : State) : Host.Outcome State Fault Refusal :=
  if s.fio.pass = some c.val then
    if s.stSkips c.val then done s (s.stGo (c.val + 1))
    else
      let x := s.chan c.val
      let y := if s.isOut c.val then (if x.on then x else { x with openLoad := bad }) else { x with inFail := bad }
      let t := s.setChan c.val y
      let changed := y.openLoad != x.openLoad || y.inFail != x.inFail || (s.isOut c.val && x.on && bad)
      let t := if changed then (t.modFio fun f => f.irq 6).chEvent c.val 5 (flag bad 0) else t
      done s (t.stGo (c.val + 1))
  else done s s

/-! ### The link frame of a tick (R188) -/

/-- The controller's own part of a tick: a group's next switch-on whose 10 ms window is free. -/
def State.fioServe (s : State) : State := (List.range 4).foldl (fun s g => (s.serveRestore g).serveRetry g) s
/-- What the frames of a tick do: the analog samples, the points that are due as one batch, and the driving points' commands;
they pass while the link is up, whether or not the controller is configured. -/
def State.fioTick (s : State) (l : List Int) : State :=
  if s.fio.linkUp then
    let s := (s.sampleAins l).writeDue
    if s.fio.safe then s else s.obeyAll.sendAo
  else s

end Sys2Proof.Machine
end

