-- ==== Sys2Proof/Machine/MeterMath.lean ====
section
/-! DEFINITION. The metering engine's arithmetic: calibrated samples, exact sums, quantities and their rounding (10 R211 to
R222). -/
namespace Sys2Proof.Machine

/-! ### Roots and quantities -/

/-- The square root of n / d rounded to nearest, for results below 2^64. -/
def rootRound (n d : Nat) : Nat :=
  if d = 0 then 0
  else
    let r := isqrt (n / d)
    if (2 * r + 1) * (2 * r + 1) * d ≤ 4 * n then r + 1 else r

/-- An exact quantity: a fraction, or the root of one. -/
inductive Quant where
  | frac (n : Int) (d : Nat)
  | root (n d : Nat)
  deriving DecidableEq, Repr

/-- round(quantity × k / m). -/
def Quant.round (q : Quant) (k m : Nat) : Int :=
  match q with
  | .frac n d => if d = 0 then 0 else roundDiv (n * k) (d * m)
  | .root n d => rootRound (n * k * k) (d * m * m)

/-- A descriptor's exponent as powers of two above and below. -/
def expUp (e : BitVec 5) : Nat := 2 ^ e.toInt.toNat
def expDown (e : BitVec 5) : Nat := 2 ^ (-e.toInt).toNat
/-- VALUE of a quantity in its base unit at a point's EXP, limited with QUAL uncertain (R216). `unit` is how many of the
quantity's own units make one base unit. -/
def pointValue (q : Quant) (unit : Nat) (e : BitVec 5) : V24 × Bool :=
  let v := q.round (expDown e) (unit * expUp e)
  (sat24 v, overflows v)

/-! ### Calibrated samples (R211, R213, R224) -/

/-- A calibration set: GAIN, PHASE, OFFSET, ITRIM. -/
abbrev CalSet := V24 × V24 × V24 × V24
def MInputSt.cal (x : MInputSt) : CalSet :=
  if x.calBad then (0x400000, 0, 0, 0) else (x.gain, x.phase, x.offset, x.itrim)
/-- The 16 bytes of a set (Table 10.5). -/
def calBytes (c : CalSet) : List Byte :=
  leBytes c.1.toNat 4 ++ leBytes c.2.1.toNat 4 ++ leBytes c.2.2.1.toNat 4 ++ leBytes c.2.2.2.toNat 4

/-- A modulator code, limited to ±8,388,607. -/
def mtrCode (raw : Int) : Int := clampInt (-8388607) 8388607 raw

/-- 2^40 α of the Rogowski integrator for a corner of fc quarter-hertz: α = 1 − 2π fc / 16,000 (R213). -/
def rogAlpha (fc : Nat) : Int := 2 ^ 40 - (pi128 * fc / 32000 / 2 ^ 88 : Nat)
/-- The integrator over codes, oldest first: outputs in 2^-20 codes. -/
def rogRun (al : Int) : Int → Int → List Int → List Int
  | _, _, [] => []
  | y, p, x :: l => let z := al * y / 2 ^ 40 + (x + p) * 2 ^ 19; z :: rogRun al z x l

/-- Codes, oldest first, as calibrated codes in 2^-22: OFFSET off, the integrator with ITRIM for a Rogowski coil, GAIN on. -/
def calSamples (cfg : MInputCfg) (c : CalSet) (y0 x0 : Int) (codes : List Int) : List Int :=
  let xs := codes.map fun x => x - c.2.2.1.toInt
  if cfg.sensor = 2 then
    (rogRun (rogAlpha cfg.fc) y0 x0 xs).map fun y => roundDiv (y * (2 ^ 20 + c.2.2.2.toInt) * c.1.toNat) (2 ^ 40)
  else xs.map fun x => x * c.1.toNat

/-- The phase delay in 2^-20 samples, by linear interpolation; `p` is the sample before the list, `nx` the one after it. -/
def delayRun (ph nx : Int) : Int → List Int → List Int
  | _, [] => []
  | p, x :: l =>
    let y := if 0 ≤ ph then roundDiv ((2 ^ 20 - ph) * x + ph * p) (2 ^ 20)
      else roundDiv ((2 ^ 20 + ph) * x - ph * (match l with
        | [] => nx
        | z :: _ => z)) (2 ^ 20)
    y :: delayRun ph nx x l

/-- The positive-going zero crossings of samples, oldest first, with a hysteresis (R217): a crossing lies before the first
non-negative sample, and is detected once the signal has gone from below −h to h or above. `big` says which samples lie that far
from zero. Each crossing comes with the index of its first sample and that of its detection. -/
def upCross (big : Int → Bool) : Nat → Bool → Bool → Nat → List Int → List (Nat × Nat)
  | _, _, _, _, [] => []
  | i, armed, neg, c, x :: l =>
    if 0 ≤ x then
      let c := if neg then i else c
      if armed && big x then (c, i) :: upCross big (i + 1) false false c l else upCross big (i + 1) armed false c l
    else upCross big (i + 1) (armed || big x) true c l
/-- The instant of a crossing, in 2^-16 ticks from the first sample, by linear interpolation. -/
def crossAt (l : List Int) (c : Nat) : Int :=
  let p := l.getD (c - 1) 0
  let x := l.getD c 0
  (c - 1 : Nat) * 65536 + roundDiv (-p * 65536) (x - p).toNat
/-- The span between the first and the last positive-going crossing of samples, in 2^-16 ticks, and the periods in it. -/
def periods (big : Int → Bool) (l : List Int) : Int × Nat :=
  match (upCross big 0 false false 0 l).map (·.1) with
  | a :: b :: r => (crossAt l ((b :: r).getLastD b) - crossAt l a, (b :: r).length)
  | _ => (0, 0)
/-- The mean period between the positive-going crossings of a second, in 2^-16 ticks, from the parts of it that are measured. -/
def meanPeriod (big : Int → Bool) (parts : List (List Int)) : Nat :=
  let p := parts.map (periods big)
  let n := sumNat (p.map (·.2))
  if n = 0 then Config.noPeriod parts.flatten else (roundDiv (p.foldl (fun a e => a + e.1) 0) n).toNat

/-! ### Phases and harmonics (R219, R225) -/

/-- The quarter-turn angle r / 2^22 of the point (x, y), x and y not negative: the largest r of `b` more bits with
x sin r ≤ y cos r. -/
def arcFrom (x y : Nat) : Nat → Nat → Nat
  | 0, r => r
  | b + 1, r => let t := r + 2 ^ b; arcFrom x y b (if sinQuarter t * x ≤ sinQuarter (2 ^ 22 - t) * y then t else r)
/-- The angle of (x, y) in 2^-24 turns; at the origin the spec states none. -/
def turn24 (x y : Int) : Nat :=
  if x = 0 && y = 0 then Config.noPhase
  else if 0 < x && 0 ≤ y then arcFrom x.natAbs y.natAbs 22 0
  else if x ≤ 0 && 0 < y then 2 ^ 22 + arcFrom y.natAbs x.natAbs 22 0
  else if x < 0 && y ≤ 0 then 2 ^ 23 + arcFrom x.natAbs y.natAbs 22 0
  else 3 * 2 ^ 22 + arcFrom y.natAbs x.natAbs 22 0
/-- Samples against a sine and a cosine of amplitude 2^30, whose phase at sample j is `th j` in 2^-24 turns. -/
def correlate (th : Nat → Nat) (l : List Int) : Int × Int :=
  l.zipIdx.foldl (fun a e =>
    (a.1 + e.1 * sineOf (2 ^ 30) (th e.2), a.2 + e.1 * sineOf (2 ^ 30) (th e.2 + 2 ^ 22))) (0, 0)
/-- Samples, the first of index 0, at `n` points from instant `a` up to instant `b`, both in 2^-16 ticks, by cubic interpolation. -/
def resample (l : List Int) (a b : Int) (n : Nat) : List Int :=
  let at_ (i : Int) : Int := if i < 0 then Config.nextSample l else l.getD i.toNat (Config.nextSample l)
  (List.range n).map fun (j : Nat) =>
    let t : Int := a + (j : Int) * (b - a) / (n : Int)
    let i := t / 65536
    Config.cubic (at_ (i - 1)) (at_ i) (at_ (i + 1)) (at_ (i + 2)) (t % 65536).toNat
/-- Order h of a window of points, 256 to a cycle: of `k` cycles it lies in bin k × h (R219). -/
def harmonicOf (pts : List Int) (h : Nat) : Int × Int := correlate (fun j => h * j % 256 * 2 ^ 16) pts
/-- Its RMS magnitude in the points' units, √(2 (re² + im²)) / n, and its phase in 0.01°. -/
def harmonicMag (pts : List Int) (h : Nat) : Nat :=
  let c := harmonicOf pts h
  rootRound (2 * (c.1.natAbs ^ 2 + c.2.natAbs ^ 2)) (pts.length ^ 2 * 2 ^ 60)
def harmonicAngle (pts : List Int) (h : Nat) : Int :=
  roundDiv (turn24 (harmonicOf pts h).1 (harmonicOf pts h).2 * 36000) (2 ^ 24)
/-- The phase of a second's samples at the nominal frequency, in 2^-20 cycles (R225). -/
def secondAngle (hz : Nat) (l : List Int) : Int :=
  let c := correlate (fun j => hz * j % 16000 * 2 ^ 24 / 16000) l
  roundDiv (turn24 c.1 c.2) 16

/-- One code unit: 8,000,000 codes of 2^22 are 1.0 V at the input, which is RATIO mV or mA. -/
def unitD : Nat := 8000000 * 2 ^ 22

/-- An input's configuration. -/
def State.mcfg (s : State) (c : Nat) : MInputCfg :=
  match s.minputCfg? c with
  | some x => x
  | none => { input := c }
def State.minput (s : State) (c : Nat) : MInputSt := sget {} s.mtr.inputs c
def State.setMinput (s : State) (c : Nat) (x : MInputSt) : State := s.modMtr fun m => { m with inputs := sput m.inputs c x }
def State.modMinput (s : State) (c : Nat) (f : MInputSt → MInputSt) : State := s.setMinput c (f (s.minput c))

/-- The running second's calibrated samples of an input under a set, oldest first. -/
def State.calRun (s : State) (c : Nat) (set : CalSet) : List Int :=
  let x := s.minput c
  let l := calSamples (s.mcfg c) set x.integY x.integX x.samples.reverse
  delayRun set.2.1.toInt (Config.nextSample l) (match x.prev with
    | [] => 0
    | p :: _ => p) l
def State.calList (s : State) (c : Nat) : List Int := s.calRun c (s.minput c).cal
/-- A voltage input's sample lies 2 % of the nominal voltage or more from zero (R217). -/
def State.pastHyst (s : State) (v : Nat) (x : Int) : Bool :=
  let nominal := match s.vsetCfg? (v / 3) with
    | some c => c.nominal
    | none => 0
  nominal * 20 * unitD ≤ x.natAbs * (s.mcfg v).ratio.toNat

/-! ### Sums -/

def sumSq (l : List Int) : Nat := l.foldl (fun a x => a + (x * x).toNat) 0
def sumMul (a b : List Int) : Int := (a.zip b).foldl (fun t e => t + e.1 * e.2) 0

/-- The samples outside the self-test's span τ = 4,000 to 7,199. -/
def outParts {α : Type} (l : List α) : List (List α) := [l.take 4000, l.drop 7200]
def outside {α : Type} (l : List α) : List α := (outParts l).flatten

/-- v delayed by `d` × 2^-18 ticks, by linear interpolation; `prev` is the second before, newest first. -/
def quarter (prev v : List Int) (d : Nat) : List Int :=
  let w := d / 2 ^ 18
  let f : Int := (d % 2 ^ 18 : Nat)
  let h := padTo 0 (w + 1) prev
  let a := h.take w
  let x := a.reverse ++ v
  let y := h.reverse ++ v
  (v.zip (x.zip y)).map fun e => roundDiv ((2 ^ 18 - f) * e.2.1 + f * e.2.2) (2 ^ 18)

/-- The sums of a phase over an interval of `n` samples: Σv², Σi², Σv·i, Σv_q·i, with the ratios. -/
structure PhaseSum where
  n  : Nat
  vv : Nat
  ii : Nat
  vi : Int
  qi : Int
  rv : Nat
  ri : Nat
  deriving DecidableEq, Repr

/-- RMS in mV or mA. -/
def rmsOf (sq n ratio : Nat) : Quant := .root (sq * ratio * ratio) (n * unitD * unitD)
def PhaseSum.vrms (p : PhaseSum) : Quant := rmsOf p.vv p.n p.rv
def PhaseSum.irms (p : PhaseSum) : Quant := rmsOf p.ii p.n p.ri
/-- Power in µW or µvar. -/
def PhaseSum.power (p : PhaseSum) : Quant := .frac (p.vi * (p.rv * p.ri : Nat)) (p.n * unitD * unitD)
def PhaseSum.reactive (p : PhaseSum) : Quant := .frac (p.qi * (p.rv * p.ri : Nat)) (p.n * unitD * unitD)
/-- Apparent power in 2^-20 VA. -/
def PhaseSum.apparent (p : PhaseSum) : Nat :=
  rootRound (p.vv * p.ii * (p.rv * p.ri) ^ 2 * 2 ^ 40) (p.n * p.n * unitD ^ 4 * 10 ^ 12)

/-- The sum of quantities that are fractions over one denominator. -/
def addQ (l : List (Int × Nat)) : Quant :=
  match l with
  | [] => .frac 0 1
  | (_, d) :: _ => .frac (l.foldl (fun t e => t + e.1) 0) d

/-- The total active and reactive power of phases, in µW and µvar. -/
def totalP (l : List PhaseSum) : Quant := addQ (l.map fun p => (p.vi * (p.rv * p.ri : Nat), p.n * unitD * unitD))
def totalQ (l : List PhaseSum) : Quant := addQ (l.map fun p => (p.qi * (p.rv * p.ri : Nat), p.n * unitD * unitD))
def totalS (l : List PhaseSum) : Nat := sumNat (l.map PhaseSum.apparent)

/-- Power factor P / S. -/
def powerFactor (p : Quant) (s20 : Nat) : Quant :=
  match p with
  | .frac n d => .frac (n * 2 ^ 20) (d * 10 ^ 6 * s20)
  | .root _ _ => .frac 0 1

/-- The energy of a sum of products over the interval in 2^-32 mWh: each sample stands for 1/16,000 s (R222). -/
def energy32 (prod : Int) (rv ri : Nat) : Int :=
  roundDiv (prod * (rv * ri : Nat) * 2 ^ 32) (unitD * unitD * 16000 * 3600 * 1000)

/-- No creep (R221): RMS current below 0.05 % of In. -/
def PhaseSum.noCreep (p : PhaseSum) (rating : Nat) : Bool :=
  p.ii * p.ri * p.ri * 4000000 < rating * rating * p.n * unitD * unitD

/-- Add energy in 2^-32 mWh to a total and its residue. -/
def addTotal (e : BitVec 64) (r : Word) (x : Nat) : BitVec 64 × Word :=
  let t := r.toNat + x
  (e + BitVec.ofNat 64 (t / 2 ^ 32), BitVec.ofNat 32 t)

end Sys2Proof.Machine
end

