-- ==== Sys2Proof/Machine/Metering.lean ====
section
/-! DEFINITION. The metering engine: seconds, half cycles, harmonic windows, totals, calibration, self-test and waveforms
(10 R211 to R230). -/
namespace Sys2Proof.Machine

def Metering.irq (m : Metering) (i : Nat) : Metering := { m with irqStat := orBit m.irqStat i true }
def State.circuit (s : State) (k : Nat) : Circuit := sget {} s.mtr.circuits k
def State.modCircuit (s : State) (k : Nat) (f : Circuit → Circuit) : State :=
  s.modMtr fun m => { m with circuits := supd {} m.circuits k f }
def State.vset (s : State) (v : Nat) : Vset := sget {} s.mtr.vsets v
def State.modVset (s : State) (v : Nat) (f : Vset → Vset) : State := s.modMtr fun m => { m with vsets := supd {} m.vsets v f }

/-- A phase of a circuit: its number, its voltage input and its current input. -/
structure PhaseRef where
  no : Nat
  v  : Nat
  i  : Nat
  deriving DecidableEq, Repr
def phasesOf (c : CircuitCfg) : List PhaseRef :=
  if c.three then [1, 2, 3].map fun p => { no := p, v := 3 * c.set + p - 1, i := 6 + c.first + p - 1 }
  else [{ no := c.phase, v := 3 * c.set + c.phase - 1, i := 6 + c.first }]
/-- Inputs that a circuit's values derive from. -/
def circuitInputs (c : CircuitCfg) : List Nat := (phasesOf c).flatMap fun p => [p.v, p.i]
/-- Inputs in use: those of the circuits and of the enabled voltage sets. -/
def State.inUse (s : State) (c : Nat) : Bool :=
  s.cfg.circuits.any (fun k => (circuitInputs k).contains c) || (c < 6 && (s.vsetCfg? (c / 3)).isSome)

/-! ### Ticks (R212, R227, R228) -/

/-- One input's sample of a tick. -/
def MInputSt.take (x : MInputSt) (raw : Int) (running : Bool) : MInputSt :=
  let v := mtrCode raw
  { x with
    sample := BitVec.ofInt 24 v, peak := if x.peak.toNat < v.natAbs then BitVec.ofNat 24 v.natAbs else x.peak
    samples := if running then v :: x.samples else x.samples, saturated := x.saturated || (running && v != raw) }

/-- The stream ends: channel 11 goes on to the end of the frames it has been given. -/
def State.waveEnd (s : State) (w : WaveRun) (ovf : Bool) : State :=
  let s := s.modDch 0 11 fun y => { y with cur := y.cur.map fun de => { de with count := w.done } }
  let y := s.dch 0 11
  let all := match y.cur with
    | some de => y.finished de && !s.dmaStopped 0 11
    | none => false
  let s := if all then
      match s.flushWb 0 11 with
      | (true, s) => s.modDch 0 11 fun y => { y with state := .done, cur := none, doneN := addW y.doneN 1 }
      | (false, s) => s.wbFail 0 11
    else s
  s.modMtr fun m =>
    let m := { m with wave := none, waveLast := some w, waveOvf := m.waveOvf || ovf }
    if ovf then m.irq 5 else m
/-- The frame of a tick goes to channel 11, which turns it into planar buffers, and to the crown in class 6 (R228); a channel
that cannot accept it ends the stream with WAVE_OVF. -/
def State.waveFrame (s : State) : State :=
  match s.mtr.wave with
  | none => s
  | some w =>
    if (s.dch 0 11).cur.isNone || s.dmaStopped 0 11 then s.waveEnd w true
    else
      let data := w.inputs.flatMap fun c => leBytes (s.minput c).sample.toNat 3
      let s := (s.modDch 0 11 fun y => { y with inp := y.inp ++ data }).offer 6 w.tenant data
      let w := { w with done := w.done + 1 }
      if w.frames ≤ w.done then s.modMtr fun m => { m with wave := none, waveLast := some w }
      else s.modMtr fun m => { m with wave := some w }
/-- Begin a stream: channel 11 takes the frames at level 2 in the tenant's context, each buffer a whole number of lines. -/
def State.waveStart (s : State) (w : WaveRun) : State :=
  (s.dmaFeed 0 11 (s.ctxOf w.tenant 10) {
    mode := 3, ssz := 2, srcSp := 2, count := w.frames, nchm1 := w.inputs.length - 1, plane := (3 * w.frames + 63) / 64
    dst := w.va, last := true }).modMtr fun m => { m with wave := some w, waveOvf := false }
/-- Frames written: RESULT0 of MTR_WAVE_STOP. -/
def State.waveWritten (s : State) (w : WaveRun) : Nat :=
  let y := s.dch 0 11
  match y.cur with
  | some de => if de.mode = 3 && de.srcSp = 2 && de.dst = w.va then min w.done y.pos else w.done
  | none => w.done

/-- The metering part of a tick start: the first second begins at a tick T with T mod 16,000 = 0. -/
def State.mtrTick (s : State) (codes : List Int) : State :=
  let run := s.mtr.running || s.now % 16000 == 0
  (s.modMtr fun m => { m with
    running := run, tau := if run then m.tau + 1 else m.tau, synced := m.synced && s.ringInUse
    inputs := sputs m.inputs ((List.range 54).map fun c => (c, (sget {} m.inputs c).take (codes.getD c 0) run)) }).waveFrame

/-! ### Point writes (R216, R218) -/

/-- The metering points of a circuit whose quantity code `sel` picks: MPN, descriptor, phase, quantity. -/
def State.mtrPoints (s : State) (k : Nat) (sel : Nat → Bool) : List (Nat × Desc × Nat × Nat) :=
  (s.pnt.descs.filter fun e => e.2.bkind == 6 && field e.2.bref.toNat 0 6 == k && sel (field e.2.bref.toNat 8 7)).map fun e =>
    (e.1, e.2, field e.2.bref.toNat 6 2, field e.2.bref.toNat 8 7)

/-- A write of a quantity to a point; none where the circuit has no such quantity. -/
def quantWrite (m : Nat) (d : Desc) (q : Option (Quant × Nat)) (qual : Qual) : List CellWrite :=
  match q with
  | none => []
  | some (x, unit) =>
    let (v, big) := pointValue x unit d.exp
    [{ m := m, src := .field, q := if big && qual == .good then .uncertain else qual, v := v }]

/-- QUAL of a value derived from inputs: uncertain with CALBAD on one of them. -/
def State.calQual (s : State) (l : List Nat) : Qual := if l.any fun c => (s.minput c).calBad then .uncertain else .good

/-! ### The end of a second (R217, R221, R222) -/

/-- The mean period of a voltage set over the second, in 2^-16 ticks; a self-test of L1 itself is left out (R227). -/
def State.periodOf (s : State) (set : Nat) : Nat :=
  let l := s.calList (3 * set)
  meanPeriod (s.pastHyst (3 * set)) (if s.mtr.stHit.contains (3 * set) then outParts l else [l])

/-- The sums of a circuit's phases over the running second. -/
def State.phaseSum (s : State) (set : Nat) (p : PhaseRef) : PhaseSum :=
  let v := s.calList p.v
  let i := s.calList p.i
  let q := quarter (s.minput p.v).prev v (s.periodOf set)
  { n := v.length, vv := sumSq v, ii := sumSq i, vi := sumMul v i, qi := sumMul q i
    rv := (s.mcfg p.v).ratio.toNat, ri := (s.mcfg p.i).ratio.toNat }

/-- The products of a phase that its energy counts: outside a self-test that touches the circuit. -/
def State.energyOf (s : State) (set : Nat) (p : PhaseRef) (test : Bool) : Int × Int :=
  let v := s.calList p.v
  let i := s.calList p.i
  let q := quarter (s.minput p.v).prev v (s.periodOf set)
  let c (l : List Int) : List Int := if test then outside l else l
  let rv := (s.mcfg p.v).ratio.toNat
  let ri := (s.mcfg p.i).ratio.toNat
  (energy32 (sumMul (c v) (c i)) rv ri, energy32 (sumMul (c q) (c i)) rv ri)

/-- The self-test touches a circuit: one of its inputs, or a voltage input of its set, was tested in the running second. -/
def State.testHits (s : State) (c : CircuitCfg) : Bool :=
  s.mtr.stHit.any fun k => (circuitInputs c).contains k || k == 3 * c.set || k == 3 * c.set + 1 || k == 3 * c.set + 2

/-- How many of the second's ticks lie in the self-test's span. -/
def testTicks (tau : Nat) : Nat := min tau 7200 - min tau 4000

/-- Neutral current: the root of the mean square of i1 + i2 + i3, in mA. -/
def State.neutral (s : State) (c : CircuitCfg) : Option Quant :=
  if c.three then
    let g (j : Nat) : List Int := (s.calList (6 + c.first + j)).map fun x => x * ((s.mcfg (6 + c.first + j)).ratio.toNat : Int)
    let l := ((g 0).zip ((g 1).zip (g 2))).map fun e => e.1 + e.2.1 + e.2.2
    some (.root (sumSq l) (l.length * unitD * unitD))
  else none

/-- A phase voltage below 10 % of nominal for the whole second. -/
def State.phaseLow (s : State) (input nominal : Nat) : Bool :=
  let r := (s.mcfg input).ratio.toNat
  (s.calList input).all fun x => x.natAbs * r < nominal * 100 * unitD

/-- Add a second's energies to a circuit's totals (R222). -/
def Circuit.addEnergy (x : Circuit) (p q : Int) : Circuit :=
  let a := if 0 ≤ p then 0 else 1
  let b := if 0 ≤ q then (if 0 ≤ p then 2 else 3) else (if 0 ≤ p then 5 else 4)
  let (e1, r1) := addTotal (sget 0 x.e a) (sget 0 x.res a) p.natAbs
  let (e2, r2) := addTotal (sget 0 x.e b) (sget 0 x.res b) q.natAbs
  { x with e := sput (sput x.e a e1) b e2, res := sput (sput x.res a r1) b r2 }
/-- The totals at a second's end. After a clear the next write holds zeros (Table 10.6): the energy of the second before that
write joins the totals after it, so that none is lost; at power-fail no later write follows, and it joins at once. -/
def Circuit.total (x : Circuit) (p q : Int) (final : Bool) : Circuit :=
  if x.zero && !final then { x with zero := false, late := [(p, q)] }
  else (x.late ++ [(p, q)]).foldl (fun x e => x.addEnergy e.1 e.2) { x with zero := false, late := [] }

/-- What the end of a second computes for a circuit. -/
structure CircOut where
  phases : List PhaseSum
  no     : List Nat
  p      : Int      -- energies in 2^-32 mWh
  q      : Int
  extrap : Bool
  creep  : Bool
  deriving DecidableEq, Repr

/-- The second of a circuit. -/
def State.circOut (s : State) (c : CircuitCfg) : CircOut :=
  let refs := phasesOf c
  let test := s.testHits c
  let sums := refs.map fun p => s.phaseSum c.set p
  let live := refs.zip sums |>.filter fun e => !e.2.noCreep (s.mcfg e.1.i).inRating
  let es := live.map fun e => s.energyOf c.set e.1 test
  let old := s.circuit c.k
  let t : Int := testTicks s.mtr.tau
  let add (m : Int) (prev : Int) : Int := if test then m + roundDiv (prev * t) 16000 else m
  { phases := sums, no := refs.map (·.no), p := add (es.foldl (fun a e => a + e.1) 0) old.prevP
    q := add (es.foldl (fun a e => a + e.2) 0) old.prevQ, extrap := test, creep := live.length != sums.length }

/-- The value of a per-second quantity at a phase (Table 10.3), with its units per base unit. -/
def State.secondQuant (s : State) (c : CircuitCfg) (o : CircOut) (phase code : Nat) : Option (Quant × Nat) :=
  let ph := if phase = 0 then (match o.phases with
      | [x] => some x
      | _ => none)
    else ((o.no.zip o.phases).find? fun e => e.1 == phase).map (·.2)
  let tot := phase = 0
  match code with
  | 0x00 => ph.map fun x => (x.vrms, 1000)
  | 0x02 => ph.map fun x => (x.irms, 1000)
  | 0x04 => if tot then some (totalP o.phases, 1000000) else ph.map fun x => (x.power, 1000000)
  | 0x05 => if tot then some (totalQ o.phases, 1000000) else ph.map fun x => (x.reactive, 1000000)
  | 0x06 => if tot then some (.frac (totalS o.phases) 1, 2 ^ 20) else ph.map fun x => (.frac x.apparent 1, 2 ^ 20)
  | 0x07 => if tot then some (powerFactor (totalP o.phases) (totalS o.phases), 1)
            else ph.map fun x => (powerFactor x.power x.apparent, 1)
  | 0x08 => some (.frac (16000 * 65536) (s.periodOf c.set), 1)
  | 0x09 => (s.neutral c).map fun x => (x, 1000)
  | _ => none

/-- The half-cycle points of a phase that has had VBAD for a second: a dead phase ends no half cycle (R217). -/
def State.deadWrites (s : State) (c : CircuitCfg) : List CellWrite :=
  (phasesOf c).flatMap fun p =>
    if (s.vset c.set).vbad.getLsbD (p.no - 1) then
      ((s.mtrPoints c.k fun q => q == 1 || q == 3).filter fun e => e.2.2.1 == p.no || (e.2.2.1 == 0 && !c.three)).map fun e =>
        { m := e.1, src := .field, q := .bad, v := s.heldValue e.1 }
    else []

/-- The inputs of a circuit that a quantity at a phase derives from; 0 names all phases. Reactive quantities and the frequency
derive from L1 too, whose crossings give the period (R217, R224). -/
def quantInputs (c : CircuitCfg) (phase code : Nat) : List Nat :=
  let ps := (phasesOf c).filter fun p => phase = 0 || p.no == phase
  let v := ps.map (·.v)
  let i := ps.map (·.i)
  match code with
  | 0x00 => v
  | 0x02 | 0x09 => i
  | 0x08 => [3 * c.set]
  | 0x05 | 0x12 | 0x13 | 0x14 | 0x15 => 3 * c.set :: (v ++ i)
  | _ => v ++ i
/-- The apparent power that a power factor divides by is 0 (Table 10.3). -/
def CircOut.noS (o : CircOut) (phase : Nat) : Bool :=
  if phase = 0 then totalS o.phases == 0
  else ((o.no.zip o.phases).find? fun e => e.1 == phase).all fun e => e.2.apparent == 0

/-- The per-second writes of a circuit's points. While a self-test touches the circuit they hold their values (R227). -/
def State.secondWrites (s : State) (c : CircuitCfg) (o : CircOut) : List CellWrite :=
  let qual (phase code : Nat) := s.calQual (quantInputs c phase code)
  let x := s.circuit c.k
  (s.mtrPoints c.k fun q => q < 0x0A && q != 1 && q != 3).flatMap (fun e =>
      if o.extrap && e.2.2.2 != 8 then [{ m := e.1, src := .field, q := .uncertain, v := s.heldValue e.1 }]
      else
        let q := if e.2.2.2 = 8 && (s.vset c.set).vbad.getLsbD 0 then Qual.bad
          else if e.2.2.2 = 7 && o.noS e.2.2.1 then .uncertain else qual e.2.2.1 e.2.2.2
        quantWrite e.1 e.2.1 (s.secondQuant c o e.2.2.1 e.2.2.2) q)
  ++ (s.mtrPoints c.k fun q => 0x10 ≤ q && q ≤ 0x15).map (fun e =>
      let t := (sget 0 x.e (e.2.2.2 - 0x10)).toNat / 2 ^ (field e.2.1.bref.toNat 16 5)
      { m := e.1, src := .field, q := if o.extrap then .uncertain else qual 0 e.2.2.2, v := BitVec.ofNat 24 t })

/-- How a second ends: by its 16,000 ticks, early at the gain of ring time, or at power-fail. -/
inductive SecondEnd where
  | full | gain | powerFail
  deriving DecidableEq, Repr

/-- The circuit area after a second (Table 10.10). -/
def State.endCircuit (s : State) (c : CircuitCfg) (o : CircOut) (sec : Nat) (how : SecondEnd) : State :=
  let sat := (circuitInputs c).any fun k => (s.minput k).saturated
  let vb := (phasesOf c).any fun p => (s.vset c.set).vbad.getLsbD (p.no - 1)
  let chg := (circuitInputs c).any s.mtr.calChg.contains
  let flags := flag o.extrap 0 + flag o.creep 1 + flag vb 2 + flag sat 3 + flag chg 4 + flag (how == .gain) 5
  let per (e : Int) : Int := roundDiv (e * 16000) s.mtr.tau
  let inN := match s.neutral c with
    | some q => w32i (q.round 1 1)
    | none => 0
  s.modCircuit c.k fun x =>
    let y := { x with flags := BitVec.ofNat 6 flags, sec := w32 sec, gen := x.gen + 2, prevP := per o.p, prevQ := per o.q }
    let y := y.total o.p o.q (how == .powerFail)
    if o.extrap then y
    else { y with
      p := w32i ((totalP o.phases).round 1 1000000), q := w32i ((totalQ o.phases).round 1 1000000)
      s := w32 ((totalS o.phases + 2 ^ 19) / 2 ^ 20)
      pf := w32i ((powerFactor (totalP o.phases) (totalS o.phases)).round (2 ^ 20) 1)
      i := sputs [] ((o.no.zip o.phases).map fun e => (e.1, w32i (e.2.irms.round 1 1))), inN := inN }

/-- The voltage set area after a second (Table 10.8), with VBAD judged over it. -/
def State.endVset (s : State) (c : VsetCfg) : State :=
  let vb := (List.range 3).map fun p => s.phaseLow (3 * c.set + p) c.nominal
  let bits := sumNat (vb.zipIdx.map fun e => flag e.1 e.2)
  let hold (p : Nat) : Bool := s.mtr.stHit.contains (3 * c.set + p)
  let rms := (List.range 3).map fun p =>
    (p + 1, if hold p then sget 0 (s.vset c.set).rms (p + 1)
            else w32i ((rmsOf (sumSq (s.calList (3 * c.set + p))) s.mtr.tau (s.mcfg (3 * c.set + p)).ratio.toNat).round 1 1))
  let freq := roundDiv (16000000 * 65536) (s.periodOf c.set)
  let s := if bits != 0 then s.modMtr fun m => m.irq 4 else s
  s.modVset c.set fun x => { x with
    gen := x.gen + 2, vbad := BitVec.ofNat 3 bits, rms := sputs x.rms rms
    freq := if (vb.getD 0 false) then x.freq else w32i freq }

/-- The harmonic points of a set hold their values with QUAL bad while VBAD is set on L1 (R219). -/
def State.harmBadWrites (s : State) : List CellWrite :=
  s.cfg.circuits.flatMap fun c =>
    if (s.vset c.set).vbad.getLsbD 0 then
      (s.mtrPoints c.k fun q => q == 0x0A || q == 0x0B || 0x42 ≤ q).map fun e => { m := e.1, src := .field, q := .bad, v := s.heldValue e.1 }
    else []

/-! ### Totals in MRAM (R223) -/

/-- Write the totals of all circuits to the older slot. -/
def Metering.writeTotals (m : Metering) : Metering :=
  let x : TotalSlot := {
    good := true, count := m.count + 1, e := m.circuits.map fun c => (c.1, (List.range 6).map fun i => sget 0 c.2.e i)
    res := m.circuits.map fun c => (c.1, (List.range 6).map fun i => sget 0 c.2.res i) }
  let m := { m with count := m.count + 1, circuits := smap m.circuits fun _ (c : Circuit) => { c with shown := c.e, shownRes := c.res } }
  if m.lastSlot then { m with slotA := x, lastSlot := false } else { m with slotB := x, lastSlot := true }
/-- Load the newer slot whose CRC passes; a clear that had completed applies after the write it found (Table 10.6). -/
def Metering.loadTotals (m : Metering) : Metering :=
  let b := m.slotB.good && (!m.slotA.good || m.slotA.count < m.slotB.count)
  let x := if b then m.slotB else m.slotA
  let area (k : Nat) (l : List (BitVec 64)) : Circuit :=
    if (sget {} m.circuits k).clear then {}
    else
      let e := sputs [] (l.zipIdx.map fun v => (v.2, v.1))
      let res := sputs [] ((sget [] x.res k).zipIdx.map fun v => (v.2, v.1))
      { e := e, shown := e, res := res, shownRes := res }
  if x.good then
    { m with count := x.count, lastSlot := b, circuits := sputs [] (x.e.map fun e => (e.1, area e.1 e.2)) }
  else { m with circuits := [] }

/-- A landlord's clear applies after the write. -/
def Metering.applyClears (m : Metering) : Metering :=
  { m with circuits := smap m.circuits fun _ (c : Circuit) =>
      if c.clear then { c with e := [], res := [], clear := false, zero := true, late := [] } else c }

/-! ### Calibration at a boundary (R225, R226) -/

/-- One input passes into the next second: its calibrated samples become the previous second's, a new set takes effect. -/
def State.turnInput (s : State) (c : Nat) : State :=
  let x := s.minput c
  let cfg := s.mcfg c
  let cal := x.cal
  let codes := x.samples.reverse
  let xs := codes.map fun v => v - cal.2.2.1.toInt
  let run := rogRun (rogAlpha cfg.fc) x.integY x.integX xs
  let x := { x with
    prev := (calSamples cfg cal x.integY x.integX codes).reverse, samples := [], saturated := false
    integY := if cfg.sensor = 2 then run.getLastD x.integY else 0, integX := xs.getLastD x.integX }
  match x.nextCal with
  | none => s.setMinput c x
  | some (g, p, o, i) =>
    ((s.setMinput c { x with gain := g, phase := p, offset := o, itrim := i, calBad := false, nextCal := none }).modMtr fun m =>
      { m with calChg := m.calChg ++ [c] }).event 0 0 9 0 2 [w32 c]

/-- The voltage input whose phase an input's is measured against: that of its circuit's phase, its own for a voltage input. -/
def State.matching? (s : State) (c : Nat) : Option Nat :=
  if c < 6 then some c else ((s.cfg.circuits.flatMap phasesOf).find? fun p => p.i == c).map (·.v)
/-- An angle in whole turns of `n`, from −n/2 up to n/2. -/
def wrapAngle (n x : Int) : Int := (x + n / 2) % n - n / 2
/-- NOMF of a voltage set, in Hz. -/
def State.lineHz (s : State) (set : Nat) : Nat :=
  match s.vsetCfg? set with
  | some c => if c.nomf60 then 60 else 50
  | none => 50
/-- The phase of an input's second relative to its voltage phase, in 2^-20 cycles. -/
def State.angleOf (s : State) (c : Nat) (v : List Int) : Int :=
  match s.matching? c with
  | some k =>
    if k = c then 0
    else wrapAngle (2 ^ 20) (secondAngle (s.lineHz (k / 3)) v - secondAngle (s.lineHz (k / 3)) (s.calList k))
  | none => secondAngle (s.lineHz 0) v

/-- The calibration measurements take in a second; after ten they complete with RMS, mean and phase. -/
def State.calMeasures (s : State) : State :=
  let l := s.mtr.measures
  let s := s.modMtr fun m => { m with measures := [] }
  l.foldl (fun s x =>
    let v := s.calRun x.input x.cal
    let x := { x with left := x.left - 1, sum := x.sum + v.foldl (· + ·) 0, sq := x.sq + sumSq v, n := x.n + v.length
                      angle := x.angle + s.angleOf x.input v }
    if x.left = 0 then
      let r := (s.mcfg x.input).ratio.toNat
      s.finish x.req {
        r0 := w32i ((rmsOf x.sq x.n r).round 1 1), r1 := w32i (roundDiv x.sum (x.n * 2 ^ 22))
        r2 := w32i (roundDiv x.angle 10) }
    else s.modMtr fun m => { m with measures := m.measures ++ [x] }) s

/-- Close the running second: every set and circuit, the points as one batch, the totals to MRAM. -/
def State.closeSecond (s : State) (how : SecondEnd) : State :=
  let sec := s.mtr.sec.toNat + 1
  let s := s.cfg.vsets.foldl (fun s c => s.endVset c) s
  let outs := s.cfg.circuits.map fun c => (c, s.circOut c)
  let sat := (List.range 54).any fun c => s.inUse c && (s.minput c).saturated
  let t := outs.foldl (fun t e => t.endCircuit e.1 e.2 sec how) s
  let t := t.batch ((outs.flatMap fun e => t.secondWrites e.1 e.2 ++ t.deadWrites e.1) ++ t.harmBadWrites)
  t.modMtr fun m => ({ m with sec := BitVec.ofNat 64 sec }.irq 0).writeTotals |> fun m => if sat then m.irq 2 else m

/-- A test that ends, in time or not, stays known to the windows that overlap it. -/
def State.testEnds (s : State) : State :=
  match s.mtr.stNext with
  | some c => if s.mtr.connected then s.modMtr fun m => { m with connected := false, stEnd := sput m.stEnd c s.now } else s
  | none => s

/-- METERING_SECOND_END (R212, R222): after 16,000 ticks, or at the ring's second boundary when ring time has been gained. -/
def execMeteringSecondEnd (s : State) : Host.Outcome State Fault Refusal :=
  let m := s.mtr
  let gain := s.ringInUse && s.trk.sfn % 8000 == 0 && !m.synced
  if m.running && (16000 ≤ m.tau || (0 < m.tau && gain)) then
    let t := (s.closeSecond (if gain then .gain else .full)).calMeasures.testEnds
    let t := t.modMtr fun m => { m.applyClears with
      tau := 0, stHit := [], calChg := [], synced := m.synced || gain }
    done s ((List.range 54).foldl (fun t c => t.turnInput c) t)
  else done s s

/-- Power-fail (R223): the running second is closed at the end of the current tick and written. -/
def State.mtrPowerFail (s : State) : State :=
  if s.mtr.running && 0 < s.mtr.tau then (s.closeSecond .powerFail).modMtr fun m => { m with running := false, tau := 0 } else s

/-! ### Half cycles and harmonic windows (R217, R219) -/

/-- The calibrated samples of an input up to now, oldest first; its last is the present tick's. -/
def State.span (s : State) (c : Nat) : List Int := (s.minput c).prev.reverse ++ s.calList c
/-- The samples of an input from a tick on, `n` of them. -/
def State.spanFrom (s : State) (c start n : Nat) : List Int :=
  let l := s.span c
  (l.drop (start + l.length - (s.now + 1))).take n
/-- The tick of the first sample after a zero crossing that is detected now, positive-going with `up`. -/
def State.crossNow (s : State) (v : Nat) (up : Bool) : Option Nat :=
  let l := s.span v
  ((upCross (s.pastHyst v) 0 false false 0 (if up then l else l.map fun x => -x)).find? fun e => e.2 + 1 == l.length).map fun e =>
    s.now + 1 + e.1 - l.length

/-- A self-test of one of these inputs is in progress, or ended at or after a tick. -/
def State.tested (s : State) (inputs : List Nat) (start : Nat) : Bool :=
  inputs.any fun c => (s.mtr.connected && s.mtr.stNext == some c) || (shas s.mtr.stEnd c && start ≤ sget 0 s.mtr.stEnd c)
/-- The inputs whose test touches a circuit (R227): its own, and every voltage input of its set. -/
def touching (c : CircuitCfg) : List Nat := circuitInputs c ++ [3 * c.set, 3 * c.set + 1, 3 * c.set + 2]

/-- The writes of a half cycle of voltage input `v`, of `n` ticks from tick `start`. A test that overlaps it has the points of
the circuits it touches hold their values. -/
def State.halfWrites (s : State) (v start n : Nat) : List CellWrite :=
  let bad := (s.vset (v / 3)).vbad.getLsbD (v % 3)
  s.cfg.circuits.flatMap fun c => (phasesOf c).flatMap fun p =>
    if p.v = v then
      (s.mtrPoints c.k fun q => q == 1 || q == 3).flatMap fun e =>
        if e.2.2.1 = p.no || (e.2.2.1 = 0 && !c.three) then
          let input := if e.2.2.2 = 1 then p.v else p.i
          if s.tested (touching c) start then
            [{ m := e.1, src := .field, q := if bad then .bad else .uncertain, v := s.heldValue e.1 }]
          else
            quantWrite e.1 e.2.1 (some (rmsOf (sumSq (s.spanFrom input start n)) n (s.mcfg input).ratio.toNat, 1000))
              (if bad then .bad else s.calQual [input, p.v])
        else []
    else []

/-- HALF_CYCLE_END (R217): a zero crossing of a voltage phase, either way, is detected, and with it the half cycle ends. -/
def execHalfCycleEnd (v : Fin 6) (s : State) : Host.Outcome State Fault Refusal :=
  match (s.crossNow v.val true).or (s.crossNow v.val false) with
  | none => done s s
  | some x =>
    let t := s.modMtr fun m => { m with halfAt := sput m.halfAt v.val x }
    match sfind s.mtr.halfAt v.val with
    | none => done s t
    | some a => if s.mtr.running && a < x then done s (t.batch (t.halfWrites v.val a (x - a))) else done s t

/-- Total harmonic distortion from magnitudes of orders 1 to 63. -/
def thdOf (h : Harmonics) : Quant :=
  .root (sumNat ((h.mag.drop 1).map fun x => x * x)) ((h.mag.getD 0 0) ^ 2)

/-- The current inputs analysed with a voltage set, each with what its test touches. -/
def State.harmInputs (s : State) (set : Nat) : List Nat :=
  [3 * set, 3 * set + 1, 3 * set + 2] ++ (s.cfg.circuits.filter fun c => c.set == set).flatMap fun c => (phasesOf c).map (·.i)
/-- A window of a set that began at a tick is not reported for an input: a test overlaps it of a voltage input of the set, or, for
a current input, of an input of its circuit (R227). -/
def State.harmTested (s : State) (set c start : Nat) : Bool :=
  s.tested [3 * set, 3 * set + 1, 3 * set + 2] start
  || s.cfg.circuits.any fun k => (phasesOf k).any (fun p => p.i == c) && s.tested (touching k) start
/-- Cycles of a window: 10 at 50 Hz, 12 at 60 Hz. -/
def State.harmCycles (s : State) (set : Nat) : Nat := if s.lineHz set = 60 then 12 else 10

/-- The points of a window of an input, 256 to each cycle of L1 of the set: from L1's crossing before tick `start` to the one `n`
ticks on (R219). -/
def State.harmPoints (s : State) (set c start n : Nat) : List Int :=
  let l := s.span (3 * set)
  let a := start + l.length - (s.now + 1)
  resample (s.span c) (crossAt l a) (crossAt l (a + n)) (256 * s.harmCycles set)
/-- Magnitudes in mV or mA and phases relative to the fundamental of L1, of a window of an input. -/
def State.harmonics (s : State) (set c start n : Nat) : Harmonics :=
  let pts := s.harmPoints set c start n
  let ref := harmonicAngle (s.harmPoints set (3 * set) start n) 1
  { mag := (List.range 63).map fun h =>
      (roundDiv ((harmonicMag pts (h + 1) * (s.mcfg c).ratio.toNat : Nat) : Int) unitD).toNat
    phase := (List.range 63).map fun h => wrapAngle 36000 (harmonicAngle pts (h + 1) - ref) }

/-- Report a window: the inputs' magnitudes and phases, THD, and the points as one batch. -/
def State.harmReport (s : State) (set start n : Nat) : State :=
  let t := ((s.harmInputs set).filter fun c => !s.harmTested set c start).foldl (fun (t : State) c =>
    t.modMinput c fun x => { x with harm := s.harmonics set c start n }) s
  let t := t.modVset set fun x => { x with
    thd := sputs x.thd ((List.range 3).map fun p => (p + 1, w32i ((thdOf (t.minput (3 * set + p)).harm).round (2 ^ 20) 1))) }
  t.batch ((s.cfg.circuits.filter fun c => c.set == set && !s.tested (touching c) start).flatMap fun c => (phasesOf c).flatMap fun p =>
    (t.mtrPoints c.k fun q => q == 0x0A || q == 0x0B || 0x42 ≤ q).flatMap fun e =>
      if e.2.2.1 = p.no || (e.2.2.1 = 0 && !c.three) then
        let input := if e.2.2.2 = 0x0A then p.v else p.i
        let h := (t.minput input).harm
        let q : Quant × Nat := if e.2.2.2 = 0x0A || e.2.2.2 = 0x0B then (thdOf h, 1) else (.frac (h.mag.getD (e.2.2.2 - 0x41) 0) 1, 1000)
        quantWrite e.1 e.2.1 (some q) (s.calQual [input, 3 * c.set])
      else [])

/-- HARMONIC_WINDOW_END (R219): a positive-going crossing of L1 is detected now; the first begins a window, and the one that
completes its 10 or 12 cycles ends it and begins the next. While VBAD is set on L1 no window is formed. -/
def execHarmonicWindowEnd (set : Fin 2) (s : State) : Host.Outcome State Fault Refusal :=
  let g (a : Option Nat) : State := s.modMtr fun m => { m with harmAt := match a with
    | none => sdel m.harmAt set.val
    | some x => sput m.harmAt set.val x }
  if !s.mtr.running || (s.vset set.val).vbad.getLsbD 0 then done s (g none)
  else match s.crossNow (3 * set.val) true with
    | none => done s s
    | some x => match sfind s.mtr.harmAt set.val with
      | none => done s (g (some x))
      | some a =>
        let n := (upCross (s.pastHyst (3 * set.val)) 0 false false 0 (s.spanFrom (3 * set.val) a (s.now + 1 - a))).length
        if n < s.harmCycles set.val then done s s
        else if n = s.harmCycles set.val then done s ((g (some x)).harmReport set.val a (x - a))
        else done s (g (some x))

/-! ### Self-test (R227) -/

/-- Start a pass, and stop one. -/
def State.stStart (s : State) : State := s.testEnds.modMtr fun m => { m with stActive := true, stNext := some 0, stInput := 0, stAt := s.now }
def State.stStop (s : State) : State := s.testEnds.modMtr fun m => { m with stActive := false, stNext := none }

/-- MTR_SELFTEST_TIMER: the interval expires. -/
def execMtrSelftestTimer (s : State) : Host.Outcome State Fault Refusal :=
  if s.mtr.stInt != 0 && s.mtr.stNext.isNone && s.due s.mtr.stAt (secTicks (60 * s.mtr.stInt)) then done s s.stStart else done s s

/-- METER_SELFTEST_CONNECT: at τ = 4,000 the input under test is switched to the reference. -/
def execMeterSelftestConnect (s : State) : Host.Outcome State Fault Refusal :=
  match s.mtr.stNext with
  | none => done s s
  | some c =>
    if s.mtr.running && 4000 ≤ s.mtr.tau && s.mtr.tau < 7200 && !s.mtr.connected then
      done s (s.modMtr fun m => { m with connected := true, stInput := BitVec.ofNat 6 c, stHit := insNat c m.stHit })
    else done s s

/-- The gain deviation of the test in 2^-20: the RMS of its samples against 0.5 V. The reference stands at the input itself, before
a Rogowski coil's integrator. -/
def State.gainDev (s : State) (c : Nat) : Int :=
  let x := s.minput c
  let l := calSamples { s.mcfg c with sensor := 0 } x.cal 0 0 ((x.samples.reverse.take 7200).drop 4000)
  ((Quant.root (sumSq l * 4) (l.length * unitD * unitD)).round (2 ^ 20) 1) - 2 ^ 20

/-- METER_SELFTEST_DISCONNECT: at τ = 7,200 the input returns to its pins and its deviation is judged against ±0.2 %. -/
def execMeterSelftestDisconnect (s : State) : Host.Outcome State Fault Refusal :=
  match s.mtr.stNext with
  | none => done s s
  | some c =>
    if s.mtr.connected && 7200 ≤ s.mtr.tau then
      let dev := s.gainDev c
      let fail := 2 * 2 ^ 20 < dev.natAbs * 1000
      let last := w32 (c + flag (!fail) 6 + 256 * (BitVec.ofInt 24 dev).toNat)
      let t := s.modMtr fun m =>
        let m := { m with connected := false, stLast := last, stEnd := sput m.stEnd c s.now
                          stNext := if c = 53 then none else some (c + 1), stActive := c != 53 }
        if fail then { m with stFails := addW m.stFails 1 }.irq 1 else m
      if fail then done s (t.event 0 0 9 0 3 [w32 c, w32i dev]) else done s t
    else done s s

end Sys2Proof.Machine
end

