-- ==== Sys2Proof/Machine/HostPort.lean ====
section
/-! DEFINITION. The host port (13): sessions and their slots, doorbells, requests and completions, watermarks, the time
snapshot, and what PERST_N, a function level reset and D3hot do. -/
namespace Sys2Proof.Machine

/-! ### Sessions (R289, R290, R331) -/

def dropReq (k : Nat) (r : Option Req) : Option Req := r.filter fun x => x.sender.val != k

/-- Nothing that is under way completes a request of a sender any more; its effects are carried through (R290). -/
def State.forgetReqs (s : State) (k : Nat) : State :=
  { s with
    ports := smap s.ports fun _ p => { p with
      swapReq := dropReq k p.swapReq, cmds := smap p.cmds fun _ c => { c with req := dropReq k c.req } }
    trk := { s.trk with
      a := { s.trk.a with swapReq := dropReq k s.trk.a.swapReq }
      b := { s.trk.b with swapReq := dropReq k s.trk.b.swapReq } }
    logic := smap s.logic fun _ g => { g with
      stopReqs := g.stopReqs.filter fun e => e.1.sender.val != k
      holdReqs := g.holdReqs.filter fun e => e.1.sender.val != k
      queue := g.queue.map fun o => match o with
        | .var a v r => .var a v (dropReq k r)
        | .const i v r => .const i v (dropReq k r) }
    cores := smap s.cores fun _ c => { c with stepReq := dropReq k c.stepReq }
    loops := smap s.loops fun _ l => { l with swapReq := dropReq k l.swapReq }
    fio := { s.fio with mots := smap s.fio.mots fun _ m => { m with reqs := m.reqs.filter fun r => r.sender.val != k } }
    mtr := { s.mtr with measures := s.mtr.measures.filter fun m => m.req.sender.val != k } }

/-- The BAR2 window is released if slot `k` holds it. -/
def State.releaseWin (s : State) (k : Nat) : State :=
  match s.host.win with
  | some w => if w.val = k then s.modHost fun h => { h with win := none } else s
  | none => s

/-- The service session ends (17 R379): its requests and any update are abandoned, and a freeze ends (12 R277). -/
def State.closeService (s : State) : State :=
  ((s.modSu fun u => { u with svc := .closed, update := none }).modSender 32
    fun x => { x with opened := false, closing := false, reqs := [], cred := none }).forgetReqs 32 |>.thaw

/-- A session closes: its slot is no longer open, the window is released, event 16/0x0003. -/
def State.closeSession (s : State) (k : Nat) : State :=
  if k = 32 then s.closeService
  else
    let x := s.sender k
    if x.opened then
      ((s.setSender k { x with opened := false, closing := false, cred := none }).releaseWin k).event x.tenant 0 16 k 3 [w32 k]
    else s

/-- A slot's ring sizes. -/
def SlotSt.rqSize (x : SlotSt) : Nat := 2 ^ x.rqLog.toNat
def SlotSt.cqSize (x : SlotSt) : Nat := 2 ^ x.cqLog.toNat

/-- Raise a bit of MBX_S_ERR, and INT_STAT.MBX with it. -/
def State.mbxErr (s : State) (k : Nat) (bit : BitVec 3) : State :=
  (s.modSender k fun x => { x with err := x.err ||| bit }).modHost fun h => { h with intMbx := true }

/-- The checks of R290. -/
def SlotSt.ringsOk (x : SlotSt) : Bool :=
  4 ≤ x.rqLog.toNat && x.rqLog.toNat ≤ 12 && 4 ≤ x.cqLog.toNat && x.cqLog.toNat ≤ 12 && x.rqLog.toNat ≤ x.cqLog.toNat
  && x.rqBase.toNat % 4096 == 0 && x.cqBase.toNat % 4096 == 0 && !x.remote

/-- EN is written to 0: the session closes and requests not completed are abandoned. -/
def State.slotDisable (s : State) (k : Nat) : State :=
  ((s.closeSession k).modSender k fun x => { x with en := false, reqs := [], armed := false }).forgetReqs k

/-- A write of MBX_S_CTRL (R290, R296). -/
def State.slotCtrl (s : State) (k : Nat) (en irq : Bool) : State :=
  let x := s.sender k
  let s := s.setSender k { x with irqEn := irq, armed := irq && (x.armed || !x.irqEn) }
  if en && !x.en then
    if x.ringsOk then
      s.modSender k fun x => { x with
        en := true, rqHead := 0, rqTail := 0, cqHead := 0, cqTail := 0, phase := true, armed := irq, ring := [] }
    else s.mbxErr k 1
  else if !en && x.en then s.slotDisable k
  else s

/-- A write of a doorbell, MBX_RQ_TAIL (R295). -/
def State.rqTailWrite (s : State) (k v : Nat) : State :=
  let x := s.sender k
  if !x.en then s
  else if x.rqSize ≤ v then s.mbxErr k 2
  else s.setSender k { x with rqTail := BitVec.ofNat 12 v }

/-- A write of a doorbell, MBX_CQ_HEAD (R295, R296). -/
def State.cqHeadWrite (s : State) (k v : Nat) : State :=
  let x := s.sender k
  if !x.en then s
  else if x.cqSize ≤ v then s.mbxErr k 2
  else
    let left := x.irqEn && x.cqTail.toNat != v
    let s := s.setSender k { x with cqHead := BitVec.ofNat 12 v, armed := x.irqEn && !left }
    if left then s.modHost fun h => h.vector k else s

/-! ### Requests and completions (R291 to R297) -/

/-- The functions of each group, 1 to n (14 Tables 14.2 to 14.7). -/
def groupSize : Nat → Nat
  | 1 => 9
  | 2 => 6
  | 3 => 7
  | 4 => 10
  | 5 => 7
  | 6 => 14
  | 7 => 9
  | 8 => 7
  | 9 => 12
  | 10 => 6
  | 11 => 3
  | 12 => 6
  | 13 => 6
  | 14 => 3
  | 15 => 4
  | _ => 0
/-- Is an opcode defined? -/
def opDefined (op : Nat) : Bool := 1 ≤ op % 256 && op % 256 ≤ groupSize (op / 256)

/-- Bytes `i` to `i + n - 1` of a request entry as a number. -/
def entryField (e : List Byte) (i n : Nat) : Nat := ofLe ((e.drop i).take n)
/-- A request entry of 64 bytes (Table 13.7). -/
def headOf (e : List Byte) : ReqHead :=
  let fl := entryField e 2 2
  { opcode := BitVec.ofNat 16 (entryField e 0 2), inline := !fl.testBit 0, listIn := fl.testBit 1, listOut := fl.testBit 2
    order := fl.testBit 3, tag := w32 (entryField e 4 4), len := entryField e 8 4, rlen := entryField e 12 4
    dptr1 := entryField e 16 8, dptr2 := entryField e 56 8
    reserved := fl / 16 != 0 || (fl.testBit 0 && entryField e 24 32 != 0) }

/-- An entry that R291 refuses, whose LEN is out of range, or whose pointers break R292. From the crown or the service port the
request data follow the entry, with DKIND0, the scatter flags and DPTR2 all 0 (R297, 17 Table 17.9). -/
def headBad (far : Bool) (h : ReqHead) : Bool :=
  h.reserved || !h.ptrOk || 16777216 < h.len
  || (if far then !h.inline || h.listIn || h.listOut || h.dptr2 != 0 else h.inline && 40 < h.len)

/-- Read `n` bytes of host memory. -/
def hostBytes (m : HostMem) (a n : Nat) : Option (List Byte) :=
  if n = 0 then some []
  else m.findSome? fun c => if c.1 ≤ a && a + n ≤ c.1 + c.2.length then some ((c.2.drop (a - c.1)).take n) else none
/-- Read several regions one after the other. -/
def hostGather (m : HostMem) : List (Nat × Nat) → Option (List Byte)
  | [] => some []
  | (a, n) :: l => match hostBytes m a n, hostGather m l with
    | some x, some y => some (x ++ y)
    | _, _ => none

/-- Why a pointer yields no regions: it is not as R292 lays down, or host memory does not answer. -/
inductive PtrErr where
  | malformed | fault
  deriving DecidableEq, Repr

/-- The regions of a scatter list from its entry at `a` on, with `f` entries left; its array stays in the 4 KiB of `page`. -/
def hostScatter (m : HostMem) (page : Nat) : Nat → Nat → Except PtrErr (List (Nat × Nat))
  | 0, _ => .error .malformed
  | f + 1, a =>
    if a / 4096 != page || (a + 15) / 4096 != page then .error .malformed
    else match hostBytes m a 16 with
      | none => .error .fault
      | some e =>
        let n := entryField e 8 4
        if n = 0 || 1048576 < n then .error .malformed
        else if (entryField e 12 4).testBit 0 then .ok [(entryField e 0 8, n)]
        else match hostScatter m page f (a + 16) with
          | .ok l => .ok ((entryField e 0 8, n) :: l)
          | .error x => .error x
/-- The first `n` bytes of some regions. -/
def clipRegions : Nat → List (Nat × Nat) → List (Nat × Nat)
  | _, [] => []
  | n, (a, k) :: l => if n = 0 then [] else (a, min n k) :: clipRegions (n - k) l
/-- The regions that `n` bytes at a pointer take: one that stays within 4 KiB, or those of a scatter list (R292). -/
def hostRegions (m : HostMem) (list : Bool) (a n : Nat) : Except PtrErr (List (Nat × Nat)) :=
  if n = 0 then .ok []
  else if list then
    match hostScatter m (a / 4096) 256 a with
    | .error x => .error x
    | .ok l => if sumNat (l.map (·.2)) < n then .error .malformed else .ok (clipRegions n l)
  else if a / 4096 = (a + n - 1) / 4096 then .ok [(a, n)] else .error .malformed

/-- The request data and the response regions of an entry. -/
def hostFetch (m : HostMem) (e : List Byte) : ReqHead :=
  let h := headOf e
  if headBad false h then h
  else match (if h.inline then .ok [] else hostRegions m h.listIn h.dptr1 h.len), hostRegions m h.listOut h.dptr2 h.rlen with
    | .ok l, .ok o => match (if h.inline then some ((e.drop 16).take h.len) else hostGather m l) with
      | some d => { h with data := d, outs := o }
      | none => { h with hostOk := false }
    | .error .malformed, _ => { h with ptrOk := false }
    | _, .error .malformed => { h with ptrOk := false }
    | _, _ => { h with hostOk := false }
/-- An entry from the crown or the service port, with its request data behind it (R297). -/
def farHead (b : List Byte) : ReqHead :=
  let h := headOf (b.take 64)
  { h with data := (b.drop 64).take h.len, ptrOk := b.length == 64 + h.len }

/-- Completions not yet consumed. -/
def SlotSt.unread (x : SlotSt) : Nat := (x.cqTail.toNat + x.cqSize - x.cqHead.toNat) % x.cqSize

/-- The first checks of a request (14 R312, steps 1 to 3; 17 R375 and R379 for a service session of limited commands). -/
def State.early (s : State) (k : Nat) (h : ReqHead) : Option Result :=
  let op := h.opcode.toNat
  let isOpen := if k = 32 then s.su.svc != .closed && s.su.svc != .rom else (s.sender k).opened
  if !isOpen && op != 0x0201 then some (refusal stNotOpen 0)
  else if !opDefined op then some (refusal stUnsupported 0)
  else if headBad (k == 32 || (s.sender k).remote) h then some (refusal stInvalid 0)
  else if k = 32 && s.su.svc != .landlord && op != 0x0101 && op != 0x0F01 then some (refusal stWrongMode 0)
  else none

/-- The place of a request that may start, by its tag and a test on its entry: it is one of the first 8 of its session that
have not completed, and the first of them where ORDER is set or where it closes the session. -/
def startable (tag : Word) (p : ReqHead → Bool) (l : List ReqSt) : Option Nat :=
  ((l.take 8).zipIdx.find? fun e =>
    e.1.head.tag == tag && !e.1.begun && e.1.result.isNone && p e.1.head
      && (e.2 == 0 || !(e.1.head.order || e.1.head.opcode == 0x0202))).map (·.2)

/-- A fetched request: host memory that does not answer ends it at once (R292). -/
def newReq (h : ReqHead) : ReqSt :=
  if h.hostOk then { head := h } else { head := h, begun := true, result := some (refusal stHostFault 0) }

/-- A fault that Exyan meets in its own memory while it takes up a request: the request ends with INTERNAL, and the fault and an
event, whose code is a free value, are recorded (14 Table 14.1, 11 Table 11.6). -/
def State.internal (s : State) (e : EngFault) : State :=
  (s.engFault 0 0 0 false e).event 0 0 0 0 (Config.eventCode 314).toNat []
/-- The entry at RQ_HEAD; where host memory does not answer there, a request of an unknown tag ends with HOST_FAULT. -/
def State.nextHead (s : State) (x : SlotSt) (m : HostMem) : ReqHead × State :=
  match hostBytes m (x.rqBase.toNat + 64 * x.rqHead.toNat) 64 with
  | some e => (hostFetch m e, s)
  | none => let (n, s) := s.draw; ({ tag := w32 n, hostOk := false }, s)

/-- REQUEST_FETCH (R291, R292, R294): the entry at RQ_HEAD, its request data and its scatter lists are read from host memory as
`m` answers; `fault` is one that Exyan meets in its own memory. -/
def execRequestFetch (k : SlotNo) (m : HostMem) (fault : Option EngFault) (s : State) : Host.Outcome State Fault Refusal :=
  let x := s.sender k.val
  if s.host.mbxRdy && x.en && !x.remote && !s.host.d3 && !x.closing && x.rqHead != x.rqTail && x.reqs.length < 8
      && x.reqs.length + x.unread < x.cqSize - 1 then
    let (h, t) := s.nextHead x m
    let q : ReqSt := if h.hostOk && fault.isSome then { head := h, begun := true, result := some (refusal stInternal 0) } else newReq h
    let t := t.setSender k.val { x with
      rqHead := BitVec.ofNat 12 ((x.rqHead.toNat + 1) % x.rqSize), reqs := x.reqs ++ [q] }
    let t := if h.hostOk then t else t.mbxErr k.val 4
    done s (match fault with
      | some e => if h.hostOk then t.internal e else t
      | none => t)
  else done s s

/-- The lowest slot that neither host software nor the crown uses. -/
def State.freeSlot (s : State) : Option Nat :=
  (List.range 32).find? fun k => let x := s.sender k; !x.en && !x.opened && !x.remote

/-- The 32 bytes of a completion entry (Table 13.8) and its response. -/
def Completion.bytes (c : Completion) : List Byte :=
  leBytes c.tag.toNat 4 ++ leBytes c.status.toNat 2 ++ leBytes (c.rqh.toNat + flag c.phase 15) 2 ++ leBytes c.rcount 4
    ++ leBytes c.r0.toNat 4 ++ leBytes c.r1.toNat 4 ++ leBytes c.r2.toNat 4 ++ leBytes c.r3.toNat 4 ++ leBytes c.r4.toNat 4 ++ c.resp
/-- A completion of slot `k` goes to the crown in class 2 (R297); 33 stands for no slot. -/
def State.toCrown (s : State) (k : Nat) (t : Tenant) (c : Completion) : State :=
  (s.modHost fun h => { h with crown := h.crown ++ [(k, c)] }).sendParts 0 2 t (c.bytes.length / 9216 + 1) c.bytes

/-- TRUNK_RX_MAILBOX_REQUEST (R297, R108): a class 2 frame of the crown carries a request entry of a remote session, or of a
new one. A frame of another tenant than the session's finds nothing, but the landlord passes the check (01 R15); where no slot is free a SESSION_OPEN completes with
NO_SPACE (18 Table 18.1). -/
def execTrunkRxMailboxRequest (t : TrunkPort) (f : TrkFrame) (slot : Option SlotNo) (b : List Byte) (s : State) :
    Host.Outcome State Fault Refusal :=
  let (ok, u) := s.takeFrame t f
  let h := farHead b
  let k := match slot with
    | some n => some n.val
    | none => u.freeSlot
  match ok && f.cls == 2 && s.host.mbxRdy, k with
  | true, some k =>
    let x := u.sender k
    if x.en then done s u
    else
      let q : ReqSt :=
        if x.opened && f.tenant != x.tenant && f.tenant != 0 && x.tenant != 0 then { head := h, begun := true, result := some (refusal stNotFound 0) }
        else { head := h }
      done s (u.setSender k { x with remote := true, reqs := x.reqs ++ [q] })
  | true, none => done s (u.toCrown 33 f.tenant { tag := h.tag, status := if h.opcode == 0x0201 then stNoSpace else stNotOpen })
  | false, _ => done s u

/-- Response bytes over the regions of a response buffer. -/
def spreadOut (b : List Byte) : List (Nat × Nat) → List (Nat × List Byte)
  | [] => []
  | (a, n) :: l => if b.isEmpty then [] else (a, b.take n) :: spreadOut (b.drop n) l
/-- The result a completion carries: a response beyond RLEN is cut (R292). -/
def Completion.of (h : ReqHead) (r : Result) : Completion :=
  let cut := h.rlen < r.resp.length
  { tag := h.tag, status := if cut && r.status == stOk then stTruncated else r.status,
    rcount := min h.rlen r.resp.length, r0 := r.r0, r1 := r.r1, r2 := r.r2, r3 := r.r3, r4 := r.r4, resp := r.resp.take h.rlen
    outs := spreadOut (r.resp.take h.rlen) h.outs }

/-- Write a completion: into the completion ring with the present PHASE and the vector of an armed latch (R293, R296), or for
a remote session into a class 2 frame to the crown (R297), or to the service port. -/
def State.writeCompletion (s : State) (k : Nat) (c : Completion) : State :=
  let x := s.sender k
  if k = 32 then s.modHost fun h => { h with crown := h.crown ++ [(k, c)] }
  else if x.remote then s.toCrown k x.tenant c
  else
    let c := { c with rqh := x.rqHead, phase := x.phase }
    let tail := (x.cqTail.toNat + 1) % x.cqSize
    let send := x.irqEn && x.armed
    let s := s.setSender k { x with
      ring := sput x.ring x.cqTail.toNat c, cqTail := BitVec.ofNat 12 tail, armed := x.armed && !send
      phase := if tail = 0 then !x.phase else x.phase }
    if send then s.modHost fun h => h.vector k else s

/-- After a completion: a session that was to close when its requests have completed closes, and a remote session that has
closed leaves its slot. -/
def State.afterCompletion (s : State) (k : Nat) : State :=
  let x := s.sender k
  let s := if x.closing && x.reqs.isEmpty then s.closeSession k else s
  s.modSender k fun x => { x with remote := x.remote && (x.opened || !x.reqs.isEmpty) }

/-- Give a request that may start and fails its first checks its result. -/
def State.judgeEarly (s : State) (k : Nat) (tag : Word) : State :=
  match startable tag (fun _ => true) (s.sender k).reqs with
  | none => s
  | some i =>
    match (s.sender k).reqs[i]? with
    | none => s
    | some q => match s.early k q.head with
      | none => s
      | some r => s.modSender k fun x => { x with reqs := x.reqs.set i { q with begun := true, result := some r } }

/-- REQUEST_COMPLETE (R293, R294, R296): a request that has its result is completed; `hostOk` says whether host memory took
the response. -/
def execRequestComplete (r : Req) (hostOk : Bool) (s : State) : Host.Outcome State Fault Refusal :=
  let k := r.sender.val
  if s.host.d3 && k < 32 && !(s.sender k).remote then done s s
  else
    let t := s.judgeEarly k r.tag
    match (t.sender k).reqs.zipIdx.find? fun e => e.1.head.tag == r.tag && e.1.result.isSome with
    | none => done s t
    | some (q, i) =>
      let bad := !hostOk && k < 32 && !(t.sender k).remote
      let res := if bad then refusal stHostFault 0 else q.result.getD {}
      let u := t.modSender k fun x => { x with reqs := x.reqs.eraseIdx i }
      let u := if bad then u.mbxErr k 4 else u
      done s ((u.writeCompletion k (Completion.of q.head res)).afterCompletion k)

/-- HEARTBEAT_TIMER (R284, R285). -/
def execHeartbeatTimer (s : State) : Host.Outcome State Fault Refusal :=
  if s.exyan && s.due s.host.beatAt (msTicks 10) then
    done s (s.modHost fun h => { h with heartbeat := h.heartbeat + 1, beatAt := h.beatAt + msTicks 10 })
  else done s s

/-! ### PERST_N, function level reset, D3hot (R282) -/

/-- Host slot `k` after PERST_N: its session closed, its requests abandoned, its registers at reset. A remote session goes
on. -/
def State.perstSlot (s : State) (k : Nat) : State :=
  if (s.sender k).remote then
    s.modSender k fun x => { opened := x.opened, remote := true, tenant := x.tenant, cred := x.cred, closing := x.closing, reqs := x.reqs }
  else ((s.closeSession k).setSender k {}).forgetReqs k

/-- What PERST_N and a function level reset do. -/
def State.perst (s : State) : State :=
  ((List.range 32).foldl (fun s k => s.perstSlot k) s).modHost fun h => { h with
    win := none, intWmk := false, intDev := false, intMbx := false, intMask := 0, msix := [], pba := 0 }

/-- PERST_ASSERT and FUNCTION_LEVEL_RESET (R282). -/
def execPerstAssert (s : State) : Host.Outcome State Fault Refusal := done s s.perst
def execFunctionLevelReset (s : State) : Host.Outcome State Fault Refusal := done s s.perst
/-- D3HOT_ENTRY and D0_RETURN: ring processing pauses and resumes (R282). -/
def execD3hotEntry (s : State) : Host.Outcome State Fault Refusal := done s (s.modHost fun h => { h with d3 := true })
def execD0Return (s : State) : Host.Outcome State Fault Refusal := done s (s.modHost fun h => ({ h with d3 := false } : HostPort).flushPba)

/-! ### Watermarks (R304 to R307) -/

def State.wmk (s : State) (n : Nat) : Wmk := sget {} s.host.wmks n
def State.setWmk (s : State) (n : Nat) (w : Wmk) : State := s.modHost fun h => { h with wmks := sput h.wmks n w }

/-- The sums of the counters that watermarks 8, 9 and 10 watch. -/
def State.wmkSum (s : State) : Nat → Nat
  | 8 => sumNat (s.atus.map fun e => e.2.integs)
  | 9 => sumNat (s.ports.map fun e => e.2.errs)
  | _ => s.trk.a.fecs + s.trk.b.fecs

/-- At the first comparison of a second, and of a minute, the increments of the last one are taken. -/
def State.wmkRoll (s : State) : State :=
  let sec := s.now / 16000
  let min := sec / 60
  let h := s.host
  let inc (n : Nat) : Nat := s.wmkSum n - sget 0 h.wmkAcc n
  let h := if sec = h.wmkSec then h else { h with
    wmkSec := sec, wmkRate := [(9, inc 9), (10, inc 10)]
    wmkAcc := sput (sput h.wmkAcc 9 (s.wmkSum 9)) 10 (s.wmkSum 10) }
  let h := if min = h.wmkMin then h else { h with
    wmkMin := min, wmkHist := (inc 8 :: h.wmkHist).take 60, wmkAcc := sput h.wmkAcc 8 (s.wmkSum 8) }
  { s with host := h }

/-- The least of a list of numbers, or 0. -/
def leastNat : List Nat → Nat
  | [] => 0
  | a :: l => l.foldl min a

/-- VALUE of a slot as an integer (13 Table 13.10). The highest die temperature is a free value. -/
def State.wmkValue (s : State) (n : Nat) : Int :=
  match n with
  | 0 => (s.hst.fill 0 : Int)
  | 1 => (s.hst.fill 1 : Int)
  | 2 => (s.evr.queue.length : Int)
  | 3 => 4096 - (s.evr.heartN : Int)
  | 4 => ((leastNat (s.dies.map fun d => 32768 - (s.pnt.descs.filter fun e => mpnDie e.1 == d).length) : Nat) : Int)
  | 5 => (s.sec.records.length : Int)
  | 6 => (((s.dies.map fun d => s.lpeLoad d).foldl max 0 : Nat) : Int)
  | 7 => (BitVec.ofNat 16 (Config.freeNat s.freeN)).toInt
  | 8 => (sumNat s.host.wmkHist : Int)
  | 9 => ((sget 0 s.host.wmkRate 9 : Nat) : Int)
  | 10 => ((min 0x7FFFFF (sget 0 s.host.wmkRate 10) : Nat) : Int)
  | 11 => s.margin.1
  | _ =>
    let t := (s.wmk n).ten
    if s.quota t = 0 then 0 else ((1000 * s.hst.held t / s.quota t : Nat) : Int)

/-- One comparison of a slot (R304). -/
def State.compare (s : State) (n : Nat) : State :=
  let w := s.wmk n
  if !w.en then s
  else
    let v := clampInt v24Min v24Max (s.wmkValue n)
    let thr := w.thr.toInt
    let hy := (w.hyst.toNat : Int)
    let level := if w.pol then (if v ≤ thr then true else if thr + hy < v then false else w.level)
      else (if thr ≤ v then true else if v < thr - hy then false else w.level)
    let rise := level && !w.level
    let w' := { w with
      value := BitVec.ofInt 24 v, level := level, raised := w.raised || rise, fell := w.fell || (!level && w.level)
      count := if rise && w.count != 0xFFFF then w.count + 1 else w.count, armed := w.armed && !rise }
    let s := if n = 7 then s.draw.2 else s
    let s := s.setWmk n w'
    if rise && w.armed then
      (s.modHost fun h => { h with intWmk := true }).report
        { sev := 2, block := 0, code := 0x200 + n, data := [w32i v, w32i thr] }
    else s

/-- WATERMARK_COMPARE (R304): the comparison of every enabled slot, once every 1 ms. -/
def execWatermarkCompare (s : State) : Host.Outcome State Fault Refusal :=
  if s.exyan && s.due s.host.cmpAt (msTicks 1) then
    done s ((List.range 16).foldl (fun s n => s.compare n) (s.wmkRoll.modHost fun h => { h with cmpAt := s.now }))
  else done s s

/-- A write to WMK_STAT (R305). -/
def State.wmkStatW (s : State) (n : Nat) (v : Word) : State :=
  let w := s.wmk n
  if 16 ≤ n || !w.en then s
  else
    let r := w.raised && !v.getLsbD 1
    let f := w.fell && !v.getLsbD 2
    s.setWmk n (if !r && !f then { w with raised := r, fell := f, armed := true, count := 0 } else { w with raised := r, fell := f })

/-- A write of EN and POL (R305). -/
def State.wmkCfgW (s : State) (n : Nat) (en pol : Bool) : State :=
  let w := s.wmk n
  if 16 ≤ n then s
  else if en && !w.en then
    s.setWmk n { w with en := true, pol := pol, armed := true, level := false, raised := false, fell := false, count := 0 }
  else if en then s.setWmk n { w with pol := pol }
  else s.setWmk n { w with
    en := false, pol := pol, value := 0, level := false, raised := false, fell := false, armed := false, count := 0 }

/-! ### The time snapshot (R308) -/

/-- TAKE: tick, UTC and SFN at the start of the tick in progress. -/
def State.snapTake (s : State) : State :=
  s.modHost fun h => { h with snap := { h.snap with
    done := true, source := BitVec.ofNat 2 (sourceBits s.time.source), utcOk := s.time.utcOk, tick := s.tick
    utc := BitVec.ofNat 48 s.utcNow, sfn := if s.ringInUse then BitVec.ofNat 48 s.trk.sfn else 0 } }
/-- SNAP_STAT. -/
def Snap.stat (x : Snap) : Nat := flag x.done 0 + 2 * x.source.toNat + flag x.utcOk 3

end Sys2Proof.Machine
end

