-- ==== Sys2Proof/Machine/RegsA.lean ====
section
/-! DEFINITION. The register maps of the points, the branch ports, the loop engine and the scan controller: what a read returns,
what it does besides, and what a write does (02 Table 02.7, 03 Table 03.9, 06 Table 06.3, 08 Tables 08.9 to 08.13). -/
namespace Sys2Proof.Machine

/-- The low and the high word of a 64-bit value. -/
def loW (x : Nat) : Nat := x % 2 ^ 32
def hiW (x : Nat) : Nat := x / 2 ^ 32 % 2 ^ 32
/-- A 24-bit value as a register word. -/
def vW (v : V24) : Nat := v.toNat
/-- A counter after a write: 0 clears it, another value leaves it (R65). -/
def clr (v old : Word) : Word := if v = 0 then 0 else old
/-- A W1C word after a write (R303). -/
def w1c (v old : Word) : Word := old &&& ~~~v

/-! ### PNT_ (02 R39, Table 02.7) -/

/-- How many cells of a die have a flag. -/
def State.countCells (s : State) (d : Nat) (p : Cell → Bool) : Nat :=
  (s.pnt.cells.filter fun e => mpnDie e.1 == d && p e.2).length

/-- A read of the PNT_ window of die `d` with the gating of tenant `t`. -/
def State.pntRead (s : State) (t : Tenant) (d o : Nat) : Nat :=
  let r := sget {} s.pnt.regs d
  if o < 0x20000 then (cellWord (s.cellFor t (32768 * d + o / 4))).toNat
  else if o < 0x20800 then (sget 0 s.pnt.gens (512 * d + (o - 0x20000) / 4)).toNat
  else if o = 0x30000 then d + 65536 * 0x8000
  else if o = 0x30004 then r.forceIdx.toNat
  else if o = 0x30008 then r.forceVal.toNat
  else if o = 0x30010 then flag r.done 0 + 2 * r.result.toNat
  else if t != 0 then 0
  else if o = 0x30040 then s.countCells d (·.stale) % 65536
  else if o = 0x30044 then s.countCells d (·.forced) % 65536
  else if o = 0x30048 then r.refused.toNat
  else if 0x30100 ≤ o && o < 0x30140 then (sget 0 r.chgmap ((o - 0x30100) / 4)).toNat
  else 0

/-- What a read does besides: a landlord's read of a PNT_CHGMAP word clears it. -/
def State.pntReadFx (s : State) (t : Tenant) (d o : Nat) : State :=
  if t == 0 && 0x30100 ≤ o && o < 0x30140 then
    s.modPnt fun p => { p with regs := supd {} p.regs d fun r => { r with chgmap := sdel r.chgmap ((o - 0x30100) / 4) } }
  else s

/-- The result code of a force status (02 Table 02.8). -/
def forceResult : Nat → BitVec 3
  | 0 => 0
  | 2 => 1
  | 4 => 2
  | 5 => 3
  | 3 => 4
  | _ => 5

/-- A command of PNT_FORCE_CTRL (R40). -/
def State.forceCtrl (s : State) (t : Tenant) (d cmd : Nat) : State :=
  let r := sget {} s.pnt.regs d
  let m := 32768 * d + r.forceIdx.toNat
  if (cmd = 1 || cmd = 2) && r.done then
    let st := s.forceCheck t m (cmd == 2)
    let s := if st = 0 then (if cmd = 1 then s.force t m r.forceVal else s.release m) else s
    s.modPnt fun p => { p with regs := supd {} p.regs d fun r => { r with result := forceResult st } }
  else s

/-- A write to the PNT_ window. -/
def State.pntWrite (s : State) (t : Tenant) (d o : Nat) (v : Word) : State :=
  let put (f : PntRegs → PntRegs) : State := s.modPnt fun p => { p with regs := supd {} p.regs d f }
  if o = 0x30004 then put fun r => { r with forceIdx := v.setWidth 15 }
  else if o = 0x30008 then put fun r => { r with forceVal := v.setWidth 24 }
  else if o = 0x3000C then s.forceCtrl t d (v.toNat % 4)
  else if o = 0x30048 && t == 0 then put fun r => { r with refused := clr v r.refused }
  else s

/-! ### BRP_ (03 Table 03.9) -/

/-- The words of a GCL entry (03 Table 03.11). -/
def kindBits : Window → Nat
  | .beacon => 0
  | .scheduled => 1
  | .open => 2
  | .reserved => 3
def kindOf : Nat → Window
  | 0 => .beacon
  | 1 => .scheduled
  | 2 => .open
  | _ => .reserved
def gclWord (e : GclEntry) (gates : Bool) : Nat := if gates then e.gates.toNat else e.duration.toNat + 2 ^ 24 * kindBits e.kind
def setGclWord (e : GclEntry) (gates : Bool) (v : Word) : GclEntry :=
  if gates then { e with gates := v.setWidth 8 } else { e with duration := v.setWidth 24, kind := kindOf (field v.toNat 24 2) }
/-- BRP_STATUS; CARRIER shows the port's own frame or wake train (log entry 32). -/
def BrPort.status (x : BrPort) : Nat :=
  flag x.running 0 + flag x.modeEff 1 + flag x.dormant 2 + flag (x.tx.isSome || x.train.isSome) 3

/-- A read of the BRP_ block of die `d`. -/
def State.brpRead (s : State) (d o : Nat) : Nat :=
  let lp := o / 4096
  let p := 16 * d + lp
  let x := s.port p
  let a := o % 4096
  if 16 ≤ lp then 0
  else if a = 0 then lp + 16 * p + 4096 * d
  else if a = 4 then flag x.en 0 + flag x.mode 1
  else if a = 8 then x.status
  else if a = 0x10 then x.cycnum.toNat
  else if a = 0x14 then x.thr
  else if a = 0x20 then flag x.active 0 + flag x.pending 2 + flag x.gclErr 3 + 16 * x.err.toNat
  else if a = 0x30 then x.cycleA + 65536 * x.entriesA
  else if a = 0x34 then x.cycleB + 65536 * x.entriesB
  else if a = 0x100 then x.irqStat.toNat
  else if a = 0x104 then x.irqMask.toNat
  else if 0x200 ≤ a && a ≤ 0x248 then (sget 0 x.ctr ((a - 0x200) / 4)).toNat
  else if 0x300 ≤ a && a < 0x340 then (sget 0 x.rxType ((a - 0x300) / 4)).toNat
  else if a = 0x380 then x.half.toNat
  else if a = 0x384 then x.halfType.toNat
  else if 0x400 ≤ a && a < 0x600 then gclWord (gclAt x.gclA ((a - 0x400) / 8)) (a % 8 == 4)
  else if 0x600 ≤ a && a < 0x800 then gclWord (gclAt x.gclB ((a - 0x600) / 8)) (a % 8 == 4)
  else 0

/-- A swap that has been refused ends the request that waited for one. -/
def State.brSwapReg (s : State) (p : Nat) : State :=
  let x := (s.port p).requestSwap s.now
  if x.pending then s.setPort p x
  else (s.setPort p { x with swapReq := none }).finish? x.swapReq (refusal stInvalid x.err.toNat)

/-- A write to the BRP_ block; the active bank and its schedule register ignore writes (R69). -/
def State.brpWrite (s : State) (d o : Nat) (v : Word) : State :=
  let lp := o / 4096
  let p := 16 * d + lp
  let x := s.port p
  let a := o % 4096
  let n := v.toNat
  if 16 ≤ lp then s
  else if a = 4 then s.brCtrl p (v.getLsbD 0) (v.getLsbD 1)
  else if a = 0x14 then s.setPort p { x with thr := clampNat 16 256 n }
  else if a = 0x20 then (if v.getLsbD 1 then s.brSwapReg p else s)
  else if a = 0x30 then s.setPort p { x with cycleA := field n 0 10, entriesA := field n 16 7 }
  else if a = 0x34 then s.setPort p { x with cycleB := field n 0 10, entriesB := field n 16 7 }
  else if a = 0x100 then s.setPort p { x with irqStat := w1c v x.irqStat }
  else if a = 0x104 then s.setPort p { x with irqMask := v &&& 0x3F }
  else if 0x200 ≤ a && a ≤ 0x248 then
    (if v = 0 then s.setPort p { x with ctr := sput x.ctr ((a - 0x200) / 4) 0 } else s)
  else if 0x300 ≤ a && a < 0x340 then
    (if v = 0 then s.setPort p { x with rxType := sput x.rxType ((a - 0x300) / 4) 0 } else s)
  else if a = 0x380 then s.setPort p { x with half := w1c v x.half }
  else if a = 0x384 then s.setPort p { x with halfType := w1c v x.halfType }
  else if 0x400 ≤ a && a < 0x600 then
    (if x.active then s.setPort p { x with gclA := supd {} x.gclA ((a - 0x400) / 8) fun e => setGclWord e (a % 8 == 4) v } else s)
  else if 0x600 ≤ a && a < 0x800 then
    (if x.active then s else s.setPort p { x with gclB := supd {} x.gclB ((a - 0x600) / 8) fun e => setGclWord e (a % 8 == 4) v })
  else s

/-! ### LPE_ (08 Tables 08.9 to 08.13) -/

/-- A bank's words (08 Table 08.12). -/
def bankWord (b : Bank) (i : Nat) : Nat :=
  if i = 0 then b.nsec.toNat + 256 * b.integ.toNat + 65536 * b.dir.toNat
  else if i = 1 then b.k.toNat + 2 ^ 24 * b.gexp.toNat
  else if i < 42 then
    let c := b.sections.getD ((i - 2) / 5) {}
    vW (match (i - 2) % 5 with
      | 0 => c.b0
      | 1 => c.b1
      | 2 => c.b2
      | 3 => c.a1
      | _ => c.a2)
  else if i < 58 then let c := b.sections.getD ((i - 42) / 2) {}; vW (if i % 2 = 0 then c.slo else c.shi)
  else 0
/-- Write a section's word. -/
def setSection (c : Section) (f : Nat) (v : V24) : Section :=
  match f with
  | 0 => { c with b0 := v }
  | 1 => { c with b1 := v }
  | 2 => { c with b2 := v }
  | 3 => { c with a1 := v }
  | 4 => { c with a2 := v }
  | 5 => { c with slo := v }
  | _ => { c with shi := v }
def setBankWord (b : Bank) (i : Nat) (v : Word) : Bank :=
  let upd (j f : Nat) : Bank :=
    let l := padTo {} 8 b.sections
    { b with sections := l.set j (setSection (l.getD j {}) f (v.setWidth 24)) }
  if i = 0 then { b with nsec := v.setWidth 4, integ := v.extractLsb' 8 8, dir := v.extractLsb' 16 8 }
  else if i = 1 then { b with k := v.setWidth 24, gexp := v.extractLsb' 24 5 }
  else if i < 42 then upd ((i - 2) / 5) ((i - 2) % 5)
  else if i < 58 then upd ((i - 42) / 2) (5 + i % 2)
  else b

/-- A loop source or destination as its kind and reference (08 Table 08.2). -/
def pvWord : PvSource → Nat
  | .cell m => 256 * m
  | .ain k => 1 + 256 * k
  | .slot n => 2 + 256 * n
def spWord : SpSource → Nat
  | .cell m => 256 * m
  | .const => 1
  | .outer n => 2 + 256 * n
def dstWord : LoopDst → Nat
  | .cell m => 256 * m
  | .aout k none => 1 + 256 * k
  | .aout k (some _) => 1 + 256 * k + 2 ^ 31
  | .none => 2
def mirrorWord : LoopDst → Nat
  | .aout _ (some m) => m
  | _ => 0

/-- The slot shown to a tenant: none where it is unused, or another tenant's. -/
def State.slotFor (s : State) (t : Tenant) (d n : Nat) : Option LoopCfg :=
  (s.loop d n).cfg.filter fun c => t == 0 || c.tenant == t

/-- A word of a slot's area (08 Table 08.10). -/
def State.slotWord (s : State) (d n a : Nat) (c : LoopCfg) : Nat :=
  let x := s.loop d n
  match a / 4 with
  | 0 => 1 + flag (isLocal (s.dieLoops d) 3 c) 1 + flag c.prot 2 + flag c.holdf 3 + flag c.outer 4 + 4096 * c.tenant.toNat
  | 1 => (rateOf (s.dieLoops d) 3 c).1 - 1
  | 2 => phaseOf (s.dieLoops d) 3 c
  | 3 => pvWord c.pv
  | 4 => spWord c.sp
  | 5 => vW x.spc
  | 6 => dstWord c.dst
  | 7 => mirrorWord c.dst
  | 8 => vW x.omin
  | 9 => vW x.omax
  | 10 => vW x.rate
  | 12 => (s.slotStat d n).toNat
  | 13 => vW x.out + 2 ^ 24 * qualBits x.outQual
  | 14 => vW x.lastErr
  | 15 => x.gen.toNat
  | _ => 0

/-- A section's state as a 48-bit number. -/
def LoopSlot.stateVal (x : LoopSlot) (i : Nat) : Nat :=
  (BitVec.ofInt 48 (sget 0 (if i % 2 = 0 then x.s1 else x.s2) (i / 2))).toNat

/-- A test unit's word (08 Table 08.13). -/
def tuWord (x : TestUnit) (a : Nat) : Nat :=
  match a / 4 with
  | 0 => x.slot
  | 1 => flag x.injEn 2 + flag x.atSp 3 + 16 * x.sig.toNat + flag x.capEn 6 + 256 * x.prbsN.toNat
  | 2 => x.amp.toNat
  | 3 => x.len.toNat
  | 4 => x.hold.toNat
  | 5 => vW x.p0
  | 6 => vW x.rho
  | 7 => x.steps.toNat + 256 * x.settle.toNat + 65536 * x.meas.toNat
  | 8 => x.capN.toNat
  | 9 => loW x.addr.toNat
  | 10 => hiW x.addr.toNat
  | 11 => flag x.active 0 + flag x.injOn 1 + flag x.capOn 2 + flag x.done 3 + flag x.ovf 4 + 32 * x.result.toNat
  | 12 => x.count % 2 ^ 17
  | 13 => loW x.t0.toNat
  | 14 => x.t0Shadow.toNat
  | _ => 0

/-- Write a parameter of an inactive unit. -/
def tuParam (x : TestUnit) (a : Nat) (v : Word) : TestUnit :=
  match a / 4 with
  | 0 => { x with slot := v.toNat % 8192 }
  | 2 => { x with amp := v.setWidth 23 }
  | 3 => { x with len := v.setWidth 21 }
  | 4 => { x with hold := v.setWidth 8 }
  | 5 => { x with p0 := v.setWidth 24 }
  | 6 => { x with rho := v.setWidth 24 }
  | 7 => { x with steps := v.setWidth 8, settle := v.extractLsb' 8 8, meas := v.extractLsb' 16 8 }
  | 8 => { x with capN := v.setWidth 17 }
  | 9 => { x with addr := BitVec.ofNat 36 (2 ^ 32 * hiW x.addr.toNat + v.toNat / 64 * 64) }
  | 10 => { x with addr := BitVec.ofNat 36 (2 ^ 32 * (v.toNat % 16) + loW x.addr.toNat) }
  | _ => x

/-- A read of the LPE_ block with the gating of R186. -/
def State.lpeRead (s : State) (t : Tenant) (d o : Nat) : Nat :=
  let x := s.lpe d
  let sel := x.sel.toNat
  if 0x80000 ≤ o then
    let n := (o - 0x80000) / 64
    match s.slotFor t d n with
    | some c => s.slotWord d n (o % 64) c
    | none => 0
  else if o = 0x1000 then sel
  else if 0x1100 ≤ o && o < 0x1380 then
    (match s.slotFor t d sel with
    | none => 0
    | some _ =>
      let y := s.loop d sel
      if o < 0x11E8 then bankWord y.bankA ((o - 0x1100) / 4)
      else if 0x1200 ≤ o && o < 0x12E8 then bankWord y.bankB ((o - 0x1200) / 4)
      else if 0x1300 ≤ o then
        let i := (o - 0x1300) / 8
        if o % 8 = 0 then loW (y.stateVal i) else (sget 0 x.shadow1 i).toNat
      else 0)
  else if t != 0 then 0
  else if o = 0 then d + 65536 * 0x2000
  else if o = 4 then s.lpeLoad d % 2 ^ 17
  else if o = 8 then 115200
  else if o = 0xC then localCount (s.dieLoops d)
  else if o = 0x10 then x.peak.toNat
  else if o = 0x14 then x.late.toNat
  else if o = 0x18 then x.satCnt.toNat
  else if o = 0x1C then x.pvbadCnt.toNat
  else if o = 0x100 then x.irqStat.toNat
  else if o = 0x104 then x.irqMask.toNat
  else if 0x400 ≤ o && o < 0x500 then tuWord (s.unit d ((o - 0x400) / 64)) (o % 64)
  else 0

/-- What a read does besides: RL low words latch their high words. -/
def State.lpeReadFx (s : State) (t : Tenant) (d o : Nat) : State :=
  let sel := (s.lpe d).sel.toNat
  if 0x1300 ≤ o && o < 0x1380 && o % 8 = 0 && (s.slotFor t d sel).isSome then
    s.modLpe d fun x => { x with shadow1 := sput x.shadow1 ((o - 0x1300) / 8) (w32 (hiW ((s.loop d sel).stateVal ((o - 0x1300) / 8)))) }
  else if t == 0 && 0x400 ≤ o && o < 0x500 && o % 64 = 0x34 then
    let u := (o - 0x400) / 64
    s.setUnit d u { s.unit d u with t0Shadow := w32 (hiW (s.unit d u).t0.toNat) }
  else s

/-- Write a word of a slot's inactive bank, while no swap is pending (R177). -/
def LoopSlot.writeBank (x : LoopSlot) (b : Bool) (i : Nat) (v : Word) : LoopSlot :=
  if x.bank == b || x.pending then x
  else if b then { x with bankB := setBankWord x.bankB i v } else { x with bankA := setBankWord x.bankA i v }

/-- A write of LPE_S_CTRL. -/
def State.slotCtrlW (s : State) (d n : Nat) (swap reset clrSat : Bool) : State :=
  let s := if clrSat then s.modLoop d n fun x => { x with sat := false } else s
  if swap then s.requestSwap d n reset none else s

/-- A write to a slot's area; a write that would make OMIN exceed OMAX is refused (R166). -/
def State.slotWrite (s : State) (d n a : Nat) (v : Word) : State :=
  let x := s.loop d n
  let w : V24 := v.setWidth 24
  match a / 4 with
  | 5 => s.setLoop d n { x with spc := w }
  | 8 => if x.omax.toInt < w.toInt then s else s.setLoop d n { x with omin := w }
  | 9 => if w.toInt < x.omin.toInt then s else s.setLoop d n { x with omax := w }
  | 10 => s.setLoop d n { x with rate := w }
  | 11 => s.slotCtrlW d n (v.getLsbD 0) (v.getLsbD 1) (v.getLsbD 2)
  | _ => s

/-- A write to the LPE_ block with the gating of R186. -/
def State.lpeWrite (s : State) (t : Tenant) (d o : Nat) (v : Word) : State :=
  let x := s.lpe d
  let sel := x.sel.toNat
  if 0x80000 ≤ o then
    let n := (o - 0x80000) / 64
    if (s.slotFor t d n).isSome then s.slotWrite d n (o % 64) v else s
  else if o = 0x1000 then s.setLpe d { x with sel := v.setWidth 13 }
  else if 0x1100 ≤ o && o < 0x1380 then
    (if (s.slotFor t d sel).isNone then s
    else if o < 0x11E8 then s.modLoop d sel fun y => y.writeBank false ((o - 0x1100) / 4) v
    else if 0x1200 ≤ o && o < 0x12E8 then s.modLoop d sel fun y => y.writeBank true ((o - 0x1200) / 4) v
    else s)
  else if t != 0 then s
  else if o = 0x10 then (if v = 0 then s.setLpe d { x with peak := 0 } else s)
  else if o = 0x14 then s.setLpe d { x with late := clr v x.late }
  else if o = 0x18 then s.setLpe d { x with satCnt := clr v x.satCnt }
  else if o = 0x1C then s.setLpe d { x with pvbadCnt := clr v x.pvbadCnt }
  else if o = 0x100 then s.setLpe d { x with irqStat := w1c v x.irqStat }
  else if o = 0x104 then s.setLpe d { x with irqMask := v &&& 0x3F }
  else if 0x400 ≤ o && o < 0x500 then
    let u := (o - 0x400) / 64
    if o % 64 = 4 then s.tuCtrl d u v.toNat
    else if (s.unit d u).active then s
    else s.setUnit d u (tuParam (s.unit d u) (o % 64) v)
  else s

/-! ### LSC_ (06 Tables 06.3, 06.4) -/

def modeBits : LogicMode → Nat
  | .stop => 0
  | .run => 1
  | .hold => 2

/-- LSC_MODE: PENDING shows a stop, a hold or a step in progress. -/
def State.lscMode (s : State) (d : Nat) : Nat :=
  let g := s.die d
  modeBits g.mode + flag g.fault 2
    + flag (g.pend || g.holding.isSome || (List.range 4).any fun c => (s.core d c).stepping) 3 + 16 * g.cause.toNat
/-- The status word of a task (06 Table 06.4). -/
def LogicDie.taskWord (g : LogicDie) (n : Nat) : Nat :=
  match g.image with
  | none => 0
  | some i => match i.tasks.find? fun t => t.no == n with
    | none => 0
    | some t => t.tenant.toNat + 4096 * t.core + 16384 + flag (g.lastRan.contains n) 15 + 65536 * (t.div % 256) + flag t.fallback 24

/-- A read of the LSC_ block of a die. -/
def State.lscRead (s : State) (d o : Nat) : Nat :=
  let g := s.die d
  if o = 0 then d + 256 * (match g.image with
    | none => 0
    | some i => i.tasks.length)
  else if o = 4 then s.lscMode d
  else if o = 0xC then g.limit
  else if o = 0x10 then g.retainMs
  else if o = 0x14 then g.skipLim.toNat
  else if o = 0x20 then g.seq.toNat
  else if o = 0x24 then g.scanLast.toNat
  else if o = 0x28 then g.scanMax.toNat
  else if o = 0x30 then loW g.startTick.toNat
  else if o = 0x34 then g.startShadow.toNat
  else if o = 0x38 then loW g.commitTick.toNat
  else if o = 0x3C then g.commitShadow.toNat
  else if o = 0x40 then g.skips.toNat
  else if o = 0x44 then g.skipConsec.toNat
  else if o = 0x48 then g.dtraps.toNat
  else if o = 0x50 then g.retainSeq.toNat
  else if o = 0x54 then g.resumeSeq.toNat
  else if o = 0x58 then (match g.image with
    | none => 0
    | some i => i.imageId.toNat)
  else if o = 0x5C then (match g.image with
    | none => 0
    | some i => i.retainId.toNat)
  else if o = 0x60 then g.holdStat.toNat
  else if o = 0x64 then g.queue.length
  else if o = 0x100 then g.irqStat.toNat
  else if o = 0x104 then g.irqMask.toNat
  else if 0x200 ≤ o && o < 0x400 then
    (if o % 8 = 0 then g.taskWord ((o - 0x200) / 8) else (sget 0 g.taskUs ((o - 0x200) / 8)).toNat)
  else 0

/-- RL low words of LSC_ latch. -/
def State.lscReadFx (s : State) (d o : Nat) : State :=
  if o = 0x30 then s.modDie d fun g => { g with startShadow := w32 (hiW g.startTick.toNat) }
  else if o = 0x38 then s.modDie d fun g => { g with commitShadow := w32 (hiW g.commitTick.toNat) }
  else s

/-- A write to the LSC_ block. -/
def State.lscWrite (s : State) (d o : Nat) (v : Word) : State :=
  let n := v.toNat
  if o = 8 then s.lscCtrl d n
  else if o = 0xC then s.modDie d fun g => { g with limit := clampNat 1 10000 n }
  else if o = 0x10 then s.modDie d fun g => { g with retainMs := clampNat 10 1000 n }
  else if o = 0x14 then s.modDie d fun g => { g with skipLim := v.setWidth 8 }
  else if o = 0x28 then s.modDie d fun g => { g with scanMax := clr v g.scanMax }
  else if o = 0x40 then s.modDie d fun g => { g with skips := clr v g.skips }
  else if o = 0x48 then s.modDie d fun g => { g with dtraps := clr v g.dtraps }
  else if o = 0x100 then s.modDie d fun g => { g with irqStat := w1c v g.irqStat }
  else if o = 0x104 then s.modDie d fun g => { g with irqMask := v &&& 0x3F }
  else s

end Sys2Proof.Machine
end

