-- ==== Sys2Proof/Machine/RegsB.lean ====
section
/-! DEFINITION. The register maps of the DMA engine, the translation unit, the trunk ports, the field I/O and the metering
engine (05 Table 05.8, 09 Tables 09.7 to 09.9, 10 Tables 10.7 to 10.10, 11 Tables 11.11 to 11.13). -/
namespace Sys2Proof.Machine

/-! ### DMA_ (11 R254) -/

def dmaStateBits : DmaState → Nat
  | .idle => 0
  | .running => 1
  | .waiting => 2
  | .parked => 3
  | .halted => 4
  | .done => 5
def DmaCh.stopped (x : DmaCh) : Bool := x.state == .parked || x.state == .halted
def DmaCh.busy (x : DmaCh) : Bool := x.state == .running || x.state == .waiting

/-- A channel's word (11 Table 11.13). -/
def State.dmaChWord (s : State) (d c a : Nat) : Nat :=
  let x := s.dch d c
  match a / 4 with
  | 0 => x.prio.toNat + 4 * x.retry.toNat + flag (dmaHost d c) 5 + 65536 * x.ctx.toNat
  | 2 => dmaStateBits x.state + 16 * x.reason.toNat + 256 * x.used.toNat
  | 3 => loW (x.desc.toNat / 32 * 32)
  | 4 => hiW x.desc.toNat
  | 5 => x.pos % 2 ^ 24
  | 6 => loW x.faddr.toNat
  | 7 => hiW x.faddr.toNat + flag x.fwrite 4 + flag x.findex 5 + flag x.fpoint 6
  | 8 => x.doneN.toNat
  | 9 => x.preempt.toNat
  | 10 => x.busErr.toNat
  | _ => 0

/-- A read of the DMA_ block of a die. -/
def State.dmaReg (s : State) (d o : Nat) : Nat :=
  let x := s.dma d
  if o = 0 then d + 256 * 16
  else if o = 4 then
    sumNat ((List.range 16).map fun c => flag (s.dch d c).busy c + flag (s.dch d c).stopped (16 + c))
  else if o = 0x100 then x.irqStat.toNat
  else if o = 0x104 then x.irqMask.toNat
  else if 0x1000 ≤ o && o < 0x1400 then s.dmaChWord d ((o - 0x1000) / 64) (o % 64)
  else 0

/-- DMA_C_CTRL's bits, in the order ABORT, START, RESUME, SKIP. -/
def State.dmaCtrl (s : State) (d c : Nat) (v : Word) : State :=
  let s := if v.getLsbD 3 then s.dmaAbort d c else s
  let s := if v.getLsbD 0 then s.dmaStart d c else s
  let s := if v.getLsbD 1 then s.dmaResume d c else s
  if v.getLsbD 2 then s.dmaSkip d c else s

/-- A write to a channel: ignored where Exyan owns it (R243, R254). -/
def State.dmaChWrite (s : State) (d c a : Nat) (v : Word) : State :=
  let x := s.dch d c
  let free := x.state == .idle || x.state == .done
  if !dmaHost d c then s
  else match a / 4 with
    | 0 => if free then s.setDch d c { x with prio := v.setWidth 2, retry := v.extractLsb' 2 3, ctx := v.extractLsb' 16 16 } else s
    | 1 => s.dmaCtrl d c v
    | 3 => if free then s.setDch d c { x with desc := BitVec.ofNat 36 (2 ^ 32 * hiW x.desc.toNat + v.toNat / 32 * 32) } else s
    | 4 => if free then s.setDch d c { x with desc := BitVec.ofNat 36 (2 ^ 32 * (v.toNat % 16) + loW x.desc.toNat) } else s
    | 8 => s.setDch d c { x with doneN := clr v x.doneN }
    | 9 => s.setDch d c { x with preempt := clr v x.preempt }
    | 10 => s.setDch d c { x with busErr := clr v x.busErr }
    | _ => s

/-- A write to the DMA_ block. -/
def State.dmaRegW (s : State) (d o : Nat) (v : Word) : State :=
  let x := s.dma d
  if o = 0x100 then s.setDma d { x with irqStat := w1c v x.irqStat }
  else if o = 0x104 then s.setDma d { x with irqMask := v }
  else if 0x1000 ≤ o && o < 0x1400 then s.dmaChWrite d ((o - 0x1000) / 64) (o % 64) v
  else s

/-! ### ATU_ (11 R253) -/

/-- A read of the ATU_ block of a die. -/
def State.atuReg (s : State) (d o : Nat) : Nat :=
  let x := s.atu d
  let f := x.fq.headD {}
  if o = 0 then d + 65536 * 0x1000
  else if o = 4 then flag x.enabled 0 + flag x.invBusy 1 + flag (!x.fq.isEmpty) 2 + flag x.fqOvf 3
  else if o = 8 then loW x.ctxBase.toNat / 65536 * 65536
  else if o = 0xC then hiW x.ctxBase.toNat
  else if o = 0x10 then x.invCtx.toNat
  else if o = 0x14 then loW x.invVa.toNat / 4096 * 4096
  else if o = 0x18 then hiW x.invVa.toNat
  else if o = 0x20 then x.fq.length
  else if o = 0x30 then f.ctx.toNat + 65536 * f.cause.toNat + flag f.write 20 + flag f.pin 21 + 2 ^ 24 * f.inst.toNat
  else if o = 0x34 then loW f.va.toNat
  else if o = 0x38 then hiW f.va.toNat
  else if o = 0x3C then f.tick.toNat
  else if o = 0x40 then x.fqLost.toNat
  else if o = 0x44 then x.faults.toNat
  else if o = 0x48 then x.tlbMiss.toNat
  else if o = 0x4C then x.integFail.toNat
  else if o = 0x50 then x.poisoned.toNat
  else if o = 0x54 then loW x.lastAddr.toNat / 64 * 64
  else if o = 0x58 then hiW x.lastAddr.toNat + 256 * x.lastOwner.toNat
  else if o = 0x100 then x.irqStat.toNat
  else if o = 0x104 then x.irqMask.toNat
  else 0

/-- A write to the ATU_ block. -/
def State.atuRegW (s : State) (d o : Nat) (v : Word) : State :=
  let x := s.atu d
  if o = 0x10 then s.setAtu d { x with invCtx := v.setWidth 16 }
  else if o = 0x14 then s.setAtu d { x with invVa := BitVec.ofNat 36 (2 ^ 32 * hiW x.invVa.toNat + v.toNat / 4096 * 4096) }
  else if o = 0x18 then s.setAtu d { x with invVa := BitVec.ofNat 36 (2 ^ 32 * (v.toNat % 16) + loW x.invVa.toNat) }
  else if o = 0x1C then s.invalidate d (v.toNat % 4)
  else if o = 0x24 then (if v.getLsbD 0 then s.setAtu d { x with fq := x.fq.drop 1 } else s)
  else if o = 0x40 then (if v = 0 then s.setAtu d { x with fqLost := 0, fqOvf := false } else s)
  else if o = 0x44 then s.setAtu d { x with faults := clr v x.faults }
  else if o = 0x48 then s.setAtu d { x with tlbMiss := clr v x.tlbMiss }
  else if o = 0x4C then s.setAtu d { x with integFail := clr v x.integFail }
  else if o = 0x50 then s.setAtu d { x with poisoned := clr v x.poisoned }
  else if o = 0x100 then s.setAtu d { x with irqStat := w1c v x.irqStat }
  else if o = 0x104 then s.setAtu d { x with irqMask := v &&& 0xF }
  else s

/-! ### TRK_ (05 Table 05.8) -/

def laneBits : LaneMode → Nat
  | .hunt => 0
  | .presync => 1
  | .lock => 2
/-- TRK_CTRL, TRK_STATUS and TRK_TM. -/
def TrkPort.ctrlWord (x : TrkPort) : Nat :=
  flag x.en 0 + flag x.mode 1 + flag x.wrapForce 2 + 8 * x.precode.toNat + 32 * x.inv.toNat
def State.trkStatus (s : State) (t : TrunkPort) : Nat :=
  let x := s.tport t
  laneBits (x.lane 0).mode + 4 * laneBits (x.lane 1).mode + flag x.up 4 + flag x.wrapped 5 + flag s.trk.relayOnly 6
    + flag s.trk.dupId 7 + flag (s.trk.timePort == some t) 8 + flag x.modeEff 9 + flag x.deskewErr 10
def State.trkTm (s : State) : Nat :=
  s.trk.tmId.toNat + 256 * s.trk.tmPrio.toNat + 65536 * (s.trk.tmHops % 256) + flag s.trk.tmValid 24
/-- The words of a trunk GCL entry (05 Table 05.10). -/
def trkGclWord (e : TrkEntry) (gates : Bool) : Nat := if gates then e.gates.toNat else e.duration.toNat
def setTrkGclWord (e : TrkEntry) (gates : Bool) (v : Word) : TrkEntry :=
  if gates then { e with gates := v.setWidth 8 } else { e with duration := v.setWidth 18 }

/-- A read of a TRK_ window. -/
def State.trkReg (s : State) (t : TrunkPort) (o : Nat) : Nat :=
  let x := s.tport t
  if o = 0 then flag t 0 + 256 * s.ownId.toNat
  else if o = 4 then x.ctrlWord
  else if o = 8 then s.trkStatus t
  else if o = 0xC then x.neigh.toNat
  else if o = 0x10 then loW x.rxSfn
  else if o = 0x14 then x.sfnShadow.toNat
  else if o = 0x18 then x.thr
  else if o = 0x1C then (w32i x.skew).toNat
  else if o = 0x20 then flag x.active 0 + flag x.pending 2 + flag x.gclErr 3 + 16 * x.err.toNat
  else if o = 0x24 then x.nA
  else if o = 0x28 then x.nB
  else if o = 0x30 then (w32i x.offset).toNat
  else if o = 0x34 then (w32i x.delay).toNat
  else if o = 0x38 then s.trkTm
  else if o = 0x3C then s.trk.prio.toNat
  else if o = 0x100 then x.irqStat.toNat
  else if o = 0x104 then x.irqMask.toNat
  else if 0x200 ≤ o && o ≤ 0x25C then (sget 0 x.ctr ((o - 0x200) / 4)).toNat
  else if 0x300 ≤ o && o < 0x320 then (sget 0 x.rxClass ((o - 0x300) / 4)).toNat
  else if o = 0x380 then x.half.toNat
  else if o = 0x384 then x.halfClass.toNat
  else if 0x1000 ≤ o && o < 0x1800 then trkGclWord (trkGclAt x.gclA ((o - 0x1000) / 8)) (o % 8 == 4)
  else if 0x1800 ≤ o && o < 0x2000 then trkGclWord (trkGclAt x.gclB ((o - 0x1800) / 8)) (o % 8 == 4)
  else 0

def State.trkRegFx (s : State) (t : TrunkPort) (o : Nat) : State :=
  if o = 0x10 then s.modTport t fun x => { x with sfnShadow := w32 (hiW x.rxSfn) } else s

/-- A swap that has been refused ends the request that waited for one. -/
def State.trkSwapReg (s : State) (t : TrunkPort) : State :=
  let x := (s.tport t).requestSwap s.now
  if x.pending then s.setTport t x
  else (s.setTport t { x with swapReq := none }).finish? x.swapReq (refusal stInvalid x.err.toNat)

/-- A write to a TRK_ window; entries of the active bank ignore writes (R120). -/
def State.trkRegW (s : State) (t : TrunkPort) (o : Nat) (v : Word) : State :=
  let x := s.tport t
  let n := v.toNat
  if o = 4 then s.trkCtrl t v
  else if o = 0x18 then s.setTport t { x with thr := clampNat 256 9236 n }
  else if o = 0x20 then (if v.getLsbD 1 then s.trkSwapReg t else s)
  else if o = 0x24 then s.setTport t { x with nA := n % 512 }
  else if o = 0x28 then s.setTport t { x with nB := n % 512 }
  else if o = 0x3C then (if t then s else s.modTrk fun k => { k with prio := v.setWidth 8 })
  else if o = 0x100 then s.setTport t { x with irqStat := w1c v x.irqStat }
  else if o = 0x104 then s.setTport t { x with irqMask := v &&& 0x1FF }
  else if 0x200 ≤ o && o ≤ 0x25C then
    (if v = 0 then s.setTport t { x with ctr := sput x.ctr ((o - 0x200) / 4) 0 } else s)
  else if 0x300 ≤ o && o < 0x320 then
    (if v = 0 then s.setTport t { x with rxClass := sput x.rxClass ((o - 0x300) / 4) 0 } else s)
  else if o = 0x380 then s.setTport t { x with half := w1c v x.half }
  else if o = 0x384 then s.setTport t { x with halfClass := w1c v x.halfClass }
  else if 0x1000 ≤ o && o < 0x1800 then
    (if x.active then s.setTport t { x with gclA := supd {} x.gclA ((o - 0x1000) / 8) fun e => setTrkGclWord e (o % 8 == 4) v } else s)
  else if 0x1800 ≤ o && o < 0x2000 then
    (if x.active then s else s.setTport t { x with gclB := supd {} x.gclB ((o - 0x1800) / 8) fun e => setTrkGclWord e (o % 8 == 4) v })
  else s

/-! ### FIO_ (09 R210) -/

def safeBits : SafeState → Nat
  | .off => 0
  | .on => 1
  | .hold => 2

/-- FIO_STATUS and a group's word. -/
def State.fioStatus (s : State) : Nat :=
  flag s.fio.linkUp 0 + flag s.fio.configured 1 + flag s.fio.safe 2 + (if s.fio.safe then 16 * s.fio.cause else 0)
def State.groupWord (s : State) (g : Nat) : Nat :=
  let x := s.group g
  x.volt / 100 % 1024 + flag x.missing 12 + flag x.low 13 + 65536 * (x.current % 8192)
/-- The filtered, and the actual switch states, as one 64-bit number. -/
def State.chanBits (s : State) (p : ChanSt → Bool) : Nat := sumNat (s.fio.chans.map fun e => flag (p e.2) e.1)

/-- FIO_C_CFG, FIO_C_IN, FIO_C_STAT, FIO_C_CNT (09 Table 09.8). An output's load current is a free value. -/
def State.chCfgWord (s : State) (c : Nat) : Nat :=
  if (s.chanCfg? c).isNone && !s.motionOwns c then 0
  else
    let x := s.ccfg c
    flag x.out 0 + flag x.pulse 1 + flag (s.motionOwns c) 2 + 8 * safeBits x.safe + flag x.retry 5 + flag x.stEn 6
      + 256 * (x.blank % 256) + 65536 * (x.retryT % 128)
def State.chInWord (s : State) (c : Nat) : Nat :=
  let x := s.ccfg c
  x.thr % 256 + 256 * (x.hyst % 32) + 2 ^ 13 * (x.fsamp % 1024) + 2 ^ 23 * (x.ftop % 256)
def State.chStatWord (s : State) (c : Nat) : Nat :=
  let x := s.chan c
  flag x.raw 0 + flag x.filt 1 + flag x.on 2 + flag x.curlim 3 + flag x.short 4 + flag x.thermal 5 + flag x.openLoad 6
    + flag x.inFail 7 + flag x.retryPend 8 + flag x.latched 9 + flag x.groupOvl 10 + flag x.stBusy 11 + 65536 * (x.integ % 256)
def State.chCntWord (s : State) (c : Nat) : Nat :=
  if s.isOut c then Config.freeNat s.freeN % 4096 else if s.isPulse c then vW (s.chan c).count else 0

/-- A motion channel's word (09 Table 09.9). -/
def State.motWord (s : State) (m a : Nat) : Nat :=
  let x := s.mot m
  match a / 4 with
  | 0 => (match s.motCfg? m with
    | none => 0
    | some c => 1 + flag c.pulse 1 + 4 * (c.dt % 64) + 256 * (c.moveTmo % 1024))
  | 1 => (match s.motCfg? m with
    | none => 0
    | some c => c.coastMax % 65536)
  | 2 => vW x.pos
  | 3 => x.lFar % 65536 + 65536 * min x.nFar 65535
  | 4 => x.lHome % 65536 + 65536 * min x.nHome 65535
  | 5 => s.motState m
  | 6 => vW x.target
  | 8 => x.lastC % 65536 + flag x.lastAcc 16 + flag x.lastDir 17
  | _ => 0

/-- A read of the FIO_ window. -/
def State.fioReg (s : State) (o : Nat) : Nat :=
  let x := s.fio
  if o = 0 then Config.fioVersion.toNat + 256
  else if o = 4 then s.fioStatus
  else if o = 0xC then x.wdTmo
  else if o = 0x10 then flag x.wdLogic 0
  else if o = 0x14 then (w32i s.margin.1).toNat % 65536 + 65536 * s.margin.2
  else if o = 0x18 then x.stInt
  else if 0x20 ≤ o && o < 0x30 then s.groupWord ((o - 0x20) / 4)
  else if 0x30 ≤ o && o < 0x40 then (s.group ((o - 0x30) / 4)).thr
  else if o = 0x40 then loW (s.chanBits (·.filt))
  else if o = 0x44 then x.filtShadow.toNat
  else if o = 0x48 then loW (s.chanBits (·.on))
  else if o = 0x4C then x.outShadow.toNat
  else if o = 0x50 then x.shorts.toNat
  else if o = 0x54 then x.wdExp.toNat
  else if o = 0x100 then x.irqStat.toNat
  else if o = 0x104 then x.irqMask.toNat
  else if 0x400 ≤ o && o < 0x800 then
    let c := (o - 0x400) / 16
    match o % 16 / 4 with
    | 0 => s.chCfgWord c
    | 1 => s.chInWord c
    | 2 => s.chStatWord c
    | _ => s.chCntWord c
  else if 0x800 ≤ o && o < 0x880 then
    let k := (o - 0x800) / 8
    if o % 8 = 0 then (match s.ainCfg? k with
      | none => 0
      | some c => flag c.current 0)
    else let y := sget {} x.ains k; vW y.value + 2 ^ 24 * qualBits y.qual
  else if 0x880 ≤ o && o < 0x900 then
    let k := (o - 0x880) / 16
    (match o % 16 / 4, s.aoutCfg? k with
    | 0, some c => flag c.hold 0 + flag c.loop 1
    | 1, some c => vW c.safe
    | 2, _ => vW (sget 0 x.aouts k)
    | _, _ => 0)
  else if 0xA00 ≤ o && o < 0xC00 then s.motWord ((o - 0xA00) / 64) (o % 64)
  else 0

/-- RL low words latch; a load current draws a free value. -/
def State.fioRegFx (s : State) (o : Nat) : State :=
  if o = 0x40 then s.modFio fun x => { x with filtShadow := w32 (hiW (s.chanBits (·.filt))) }
  else if o = 0x48 then s.modFio fun x => { x with outShadow := w32 (hiW (s.chanBits (·.on))) }
  else if 0x400 ≤ o && o < 0x800 && o % 16 = 12 then s.draw.2
  else s

/-- FIO_CTRL. -/
def State.fioCtrl (s : State) (v : Word) : State :=
  let s := if v.getLsbD 0 then s.fioRelease else s
  let s := if v.getLsbD 1 then s.fioStStart else s
  if v.getLsbD 2 then s.fioStStop else s

/-- A write to the FIO_ window. -/
def State.fioRegW (s : State) (o : Nat) (v : Word) : State :=
  let n := v.toNat
  if o = 8 then s.fioCtrl v
  else if o = 0xC then s.modFio fun x => { x with wdTmo := clampNat 10 10000 n }
  else if o = 0x10 then s.modFio fun x => { x with wdLogic := v.getLsbD 0 }
  else if o = 0x18 then s.modFio fun x => { x with stInt := n % 4096 }
  else if o = 0x1C then s.fioClr n
  else if 0x30 ≤ o && o < 0x40 then s.modGroup ((o - 0x30) / 4) fun g => { g with thr := clampNat 160 220 n }
  else if o = 0x50 then s.modFio fun x => { x with shorts := clr v x.shorts }
  else if o = 0x54 then s.modFio fun x => { x with wdExp := clr v x.wdExp }
  else if o = 0x100 then s.modFio fun x => { x with irqStat := w1c v x.irqStat }
  else if o = 0x104 then s.modFio fun x => { x with irqMask := v &&& 0xFF }
  else if 0xA00 ≤ o && o < 0xC00 then
    let m := (o - 0xA00) / 64
    if o % 64 = 0x18 then s.modMot m fun x => { x with target := v.setWidth 24 }
    else if o % 64 = 0x1C then (s.motCmd m (n % 8) (s.mot m).target none).2
    else s
  else s

/-! ### MTR_ (10 R230) -/

/-- MTR_STATUS. -/
def State.mtrStatus (s : State) : Nat :=
  flag s.mtr.running 0 + flag (s.mtr.inputs.any fun e => e.2.calBad) 1 + flag s.mtr.stActive 2 + 16 * s.mtr.stInput.toNat
    + flag s.mtr.lastSlot 10

/-- A voltage set's word (10 Table 10.8). -/
def State.vsetWord (s : State) (n a : Nat) : Nat :=
  let x := sget {} s.mtr.vsets n
  match a / 4 with
  | 0 => (match s.vsetCfg? n with
    | none => 0
    | some c => 1 + flag c.nomf60 1 + 16 * (c.nominal % 65536))
  | 1 => x.gen.toNat
  | 2 | 3 | 4 => (sget 0 x.rms (a / 4 - 2)).toNat
  | 5 => x.freq.toNat
  | 6 | 7 | 8 => (sget 0 x.thd (a / 4 - 6)).toNat
  | 9 => x.vbad.toNat
  | _ => 0

/-- An input's word (10 Table 10.9). -/
def State.minputWord (s : State) (c a : Nat) : Nat :=
  let x := s.minput c
  match a / 4 with
  | 0 => (match s.minputCfg? c with
    | none => flag (s.inUse c) 8 + flag x.calBad 9
    | some i => i.sensor % 4 + 4 * (i.fc % 64) + flag (s.inUse c) 8 + flag x.calBad 9)
  | 1 => (match s.minputCfg? c with
    | none => 0
    | some i => i.ratio.toNat)
  | 2 => vW x.gain
  | 3 => vW x.phase
  | 4 => vW x.offset
  | 5 => vW x.itrim
  | 6 => vW x.sample
  | 7 => vW x.peak
  | _ => 0

/-- A circuit's word (10 Table 10.10). -/
def State.circuitWord (s : State) (k a : Nat) : Nat :=
  let x := sget {} s.mtr.circuits k
  match a / 4 with
  | 0 => (match s.circuitCfg? k with
    | none => 0
    | some c => (if c.three then 2 else 1) + 4 * (c.set % 2) + 8 * (c.phase % 4) + 256 * (c.first % 64) + 65536 * c.tenant.toNat)
  | 1 => x.gen.toNat
  | 2 => x.flags.toNat
  | 3 => x.sec.toNat
  | 4 => x.p.toNat
  | 5 => x.q.toNat
  | 6 => x.s.toNat
  | 7 => x.pf.toNat
  | 8 | 9 | 10 => (sget 0 x.i (a / 4 - 8)).toNat
  | 11 => x.inN.toNat
  | i =>
    if i < 24 then
      let e := (i - 12) / 2
      if i % 2 = 0 then loW (sget 0 x.shown e).toNat else (sget 0 x.eShadow e).toNat
    else 0

/-- A read of the MTR_ window. -/
def State.mtrReg (s : State) (o : Nat) : Nat :=
  let x := s.mtr
  if o = 0 then 54 + 256 * s.cfg.circuits.length
  else if o = 4 then s.mtrStatus
  else if o = 0xC then x.stInt
  else if o = 0x10 then loW x.sec.toNat
  else if o = 0x14 then x.secShadow.toNat
  else if o = 0x18 then x.stLast.toNat
  else if o = 0x1C then x.stFails.toNat
  else if o = 0x100 then x.irqStat.toNat
  else if o = 0x104 then x.irqMask.toNat
  else if 0x200 ≤ o && o < 0x280 then s.vsetWord ((o - 0x200) / 64) (o % 64)
  else if 0x800 ≤ o && o < 0xEC0 then s.minputWord ((o - 0x800) / 32) (o % 32)
  else if 0x1000 ≤ o && o < 0x2800 then s.circuitWord ((o - 0x1000) / 128) (o % 128)
  else 0

def State.mtrRegFx (s : State) (o : Nat) : State :=
  if o = 0x10 then s.modMtr fun x => { x with secShadow := w32 (hiW x.sec.toNat) }
  else if 0x1000 ≤ o && o < 0x2800 && 0x30 ≤ o % 128 && o % 128 < 0x60 && o % 8 = 0 then
    s.modMtr fun x => { x with circuits := supd {} x.circuits ((o - 0x1000) / 128) fun c =>
      { c with eShadow := sput c.eShadow ((o % 128 - 0x30) / 8) (w32 (hiW (sget 0 c.shown ((o % 128 - 0x30) / 8)).toNat)) } }
  else s

/-- MTR_CTRL. -/
def State.mtrCtrl (s : State) (v : Word) : State :=
  let s := if v.getLsbD 0 then s.stStart else s
  if v.getLsbD 1 then s.stStop else s

/-- A write to the MTR_ window. -/
def State.mtrRegW (s : State) (o : Nat) (v : Word) : State :=
  if o = 8 then s.mtrCtrl v
  else if o = 0xC then (if v.toNat % 2048 ≤ 1440 then s.modMtr fun x => { x with stInt := v.toNat % 2048 } else s)
  else if o = 0x1C then s.modMtr fun x => { x with stFails := clr v x.stFails }
  else if o = 0x100 then s.modMtr fun x => { x with irqStat := w1c v x.irqStat }
  else if o = 0x104 then s.modMtr fun x => { x with irqMask := v &&& 0x3F }
  else if 0x800 ≤ o && o < 0xEC0 && o % 32 = 0x1C then
    (if v = 0 then s.modMinput ((o - 0x800) / 32) fun x => { x with peak := 0 } else s)
  else s

end Sys2Proof.Machine
end

