-- ==== Sys2Proof/Machine/RegsC.lean ====
section
/-! DEFINITION. The register maps of the history store, the event recorder, the real-time clock, the security block and BAR0, and
the host's accesses to both BARs with their gating (12 Tables 12.9 and 12.10, 13, 15 Table 15.10, 16 Table 16.6). -/
namespace Sys2Proof.Machine

/-! ### HST_ (12 R279) -/

/-- A checkpoint block is being written on a drive. -/
def Drive.ckptBusy (x : Drive) : Bool := x.cmds.any fun e => e.2.op == .fua
/-- HST_STATUS of a port. -/
def State.hstStatus (s : State) (d : Nat) : Nat :=
  let x := s.hst.drive d
  flag x.linkUp 0 + flag x.ok 1 + flag x.fail 2 + flag s.hst.up 3 + flag s.hst.mirror 4 + flag s.hst.degraded 5
    + flag s.hst.resync.isSome 6 + flag x.ckptBusy 7
def History.free (h : History) : Nat := h.total - h.segs.length

/-- A read of the HST_ window of a die. A drive's temperature and wear are free values. -/
def State.hstReg (s : State) (d o : Nat) : Nat :=
  let x := s.hstDie d
  let p := s.hst.drive d
  if o = 0 then d + flag (d < 2) 3 + flag (d == 0) 4
  else if o = 0x1C then x.flush
  else if o = 0x100 then x.irqStat.toNat
  else if o = 0x104 then x.irqMask.toNat
  else if o = 0x218 then x.trendRec.toNat
  else if o = 0x21C then x.trendDrop.toNat
  else if d == 0 && o = 0x14 then s.hst.total
  else if d == 0 && o = 0x18 then s.hst.free
  else if d == 0 && o = 0x20 then s.hst.ckptSeq.toNat
  else if d == 0 && o = 0x24 then s.hst.resyncPos
  else if d == 0 && o = 0x214 then x.reclaimed.toNat
  else if 2 ≤ d then 0
  else if o = 4 then s.hstStatus d
  else if o = 8 then loW p.blocks
  else if o = 0xC then hiW p.blocks
  else if o = 0x10 then s.hst.fill d
  else if o = 0x28 then (if p.ok then Config.freeNat s.freeN % 65536 else 0)
  else if o = 0x2C then (if p.ok then Config.freeNat s.freeN % 256 else 0)
  else if o = 0x200 then p.wr.toNat
  else if o = 0x204 then p.rd.toNat
  else if o = 0x208 then p.ioErr.toNat
  else if o = 0x20C then p.reissue.toNat
  else if o = 0x210 then p.tagFail.toNat
  else 0
def State.hstRegFx (s : State) (d o : Nat) : State := if d < 2 && (o = 0x28 || o = 0x2C) then s.draw.2 else s

/-- A write to the HST_ window. -/
def State.hstRegW (s : State) (d o : Nat) (v : Word) : State :=
  if o = 0x1C then s.modHstDie d fun x => { x with flush := clampNat 1 60 v.toNat }
  else if o = 0x100 then s.modHstDie d fun x => { x with irqStat := w1c v x.irqStat }
  else if o = 0x104 then s.modHstDie d fun x => { x with irqMask := v &&& 0x3F }
  else if o = 0x218 then s.modHstDie d fun x => { x with trendRec := clr v x.trendRec }
  else if o = 0x21C then s.modHstDie d fun x => { x with trendDrop := clr v x.trendDrop }
  else if d == 0 && o = 0x214 then s.modHstDie d fun x => { x with reclaimed := clr v x.reclaimed }
  else if 2 ≤ d then s
  else if o = 0x200 then s.modDrive d fun x => { x with wr := clr v x.wr }
  else if o = 0x204 then s.modDrive d fun x => { x with rd := clr v x.rd }
  else if o = 0x208 then s.modDrive d fun x => { x with ioErr := clr v x.ioErr }
  else if o = 0x20C then s.modDrive d fun x => { x with reissue := clr v x.reissue }
  else if o = 0x210 then s.modDrive d fun x => { x with tagFail := clr v x.tagFail }
  else s

/-! ### EVR_ (12 R280) -/

/-- Word `i` of a record. -/
def recWord (r : Option (Nat × EvRec)) (i : Nat) : Nat :=
  match r with
  | none => 0
  | some (_, x) => ofLe ((x.bytes.drop (4 * i)).take 4)

/-- A read of the EVR_ window. -/
def State.evrReg (s : State) (o : Nat) : Nat :=
  let x := s.evr
  if o = 0 then 0x00101000
  else if o = 4 then
    flag x.planted 0 + flag (x.heartN == 4096) 1 + flag x.frozen 2 + flag x.overflow 3 + 65536 * min 1024 x.queue.length
  else if o = 8 then loW x.head
  else if o = 0xC then x.headShadow.toNat
  else if o = 0x10 then loW x.tail
  else if o = 0x14 then x.tailShadow.toNat
  else if o = 0x18 then x.heartN
  else if o = 0x1C then x.page.toNat
  else if o = 0x20 then x.dropped.toNat
  else if o = 0x24 then x.coalesced.toNat
  else if o = 0x28 then x.qmax
  else if o = 0x2C then vW x.pcc
  else if o = 0x30 then x.opsec.toNat
  else if o = 0x100 then x.irqStat.toNat
  else if o = 0x104 then x.irqMask.toNat
  else if 0x40000 ≤ o && o < 0x80000 then recWord (sfind x.heart ((o - 0x40000) / 64)) (o % 64 / 4)
  else if 0x80000 ≤ o then recWord (sfind x.sap (8192 * x.page.toNat + (o - 0x80000) / 64)) (o % 64 / 4)
  else 0

def State.evrRegFx (s : State) (o : Nat) : State :=
  if o = 8 then s.modEvr fun x => { x with headShadow := w32 (hiW x.head) }
  else if o = 0x10 then s.modEvr fun x => { x with tailShadow := w32 (hiW x.tail) }
  else s

/-- A write to the EVR_ window. -/
def State.evrRegW (s : State) (o : Nat) (v : Word) : State :=
  if o = 0x1C then s.modEvr fun x => { x with page := v.setWidth 3 }
  else if o = 0x20 then s.modEvr fun x => { x with dropped := clr v x.dropped }
  else if o = 0x24 then s.modEvr fun x => { x with coalesced := clr v x.coalesced }
  else if o = 0x28 then (if v = 0 then s.modEvr fun x => { x with qmax := 0 } else s)
  else if o = 0x100 then s.modEvr fun x => { x with irqStat := w1c v x.irqStat }
  else if o = 0x104 then s.modEvr fun x => { x with irqMask := v &&& 0x1F }
  else s

/-! ### RTC_ (16 R364) -/

/-- A word of four user or system bytes. -/
def userByte (t : Time) (i : Nat) : Byte := sget 0 t.user i
def State.userWord (s : State) (n : Nat) : Nat := ofLe ((List.range 4).map fun i => userByte s.time (4 * n + i))

/-- A read of the RTC_ window; a read of RTC_MSEC returns the calendar as it freezes. -/
def State.rtcReg (s : State) (o : Nat) : Nat :=
  let x := s.time
  let (c, wd) := s.rtcView
  if o = 0 then 1
  else if o = 4 then
    flag x.valid 0 + flag x.frozen 1 + flag x.vbatLow 3 + flag x.lost 4 + 32 * sourceBits x.source + flag x.wrap 8
  else if o = 8 then flag x.atrim 0
  else if o = 0xC then x.trimN.toNat + flag x.trimAdd 15
  else if o = 0x10 then vW x.trimErr
  else if o = 0x20 then s.rtcFreeze.rtcView.1.msec
  else if o = 0x24 then c.sec
  else if o = 0x28 then c.min
  else if o = 0x2C then c.hour
  else if o = 0x30 then wd
  else if o = 0x34 then c.day
  else if o = 0x38 then c.mon
  else if o = 0x3C then c.year
  else if 0x40 ≤ o && o < 0x5C then (sget 0 x.staged ((o - 0x40) / 4)).toNat
  else if o = 0x60 then flag x.pend 0 + 2 * x.wErr.toNat
  else if 0x80 ≤ o && o < 0xC0 then s.userWord ((o - 0x80) / 4)
  else if 0xC0 ≤ o && o < 0xD0 then ofLe ((s.sysBytes.drop (o - 0xC0)).take 4)
  else if o = 0x100 then x.irqStat.toNat
  else if o = 0x104 then x.irqMask.toNat
  else 0

def State.rtcRegFx (s : State) (o : Nat) : State :=
  if o = 0x20 then s.rtcFreeze else if o = 0x3C then s.modTime fun t => { t with frozen := false } else s

/-- How many bits the staged field i holds: MSEC, SEC, MIN, HOUR, DAY, MONTH, YEAR. -/
def stagedBits : Nat → Nat
  | 0 => 10
  | 1 => 6
  | 2 => 6
  | 3 => 5
  | 4 => 5
  | 5 => 4
  | _ => 7

/-- A write to the RTC_ window. -/
def State.rtcRegW (s : State) (o : Nat) (v : Word) : State :=
  if o = 8 then s.modTime fun t => { t with atrim := v.getLsbD 0 }
  else if o = 0xC then s.modTime fun t => t.setTrim (v.getLsbD 15) (v.setWidth 10)
  else if 0x40 ≤ o && o < 0x5C then
    s.modTime fun t => { t with staged := sput t.staged ((o - 0x40) / 4) (w32 (v.toNat % 2 ^ stagedBits ((o - 0x40) / 4))) }
  else if o = 0x5C then (if v.getLsbD 0 then s.rtcCommit else s)
  else if 0x80 ≤ o && o < 0xC0 then
    s.modTime fun t => { t with user := sputs t.user ((leBytes v.toNat 4).zipIdx.map fun e => (o - 0x80 + e.2, e.1)) }
  else if o = 0x100 then s.modTime fun t => { t with irqStat := w1c v t.irqStat }
  else if o = 0x104 then s.modTime fun t => { t with irqMask := v &&& 0x1F }
  else s

/-! ### SEC_ (15 R352): read-only -/

def vaultBits : VaultState → Nat
  | .empty => 0
  | .provisioned => 1
  | .cleared => 2
  | .lost => 3
/-- SEC_VAULT, SEC_BARK and SEC_FUSE. -/
def State.secVault (s : State) : Nat := vaultBits s.sec.vault + 16 * s.sec.cause + 256 * (s.sec.provSeq % 256)
def State.secBark (s : State) : Nat :=
  if s.runs then flag s.sec.armed 0 + flag s.sec.meshOk 1 + flag s.sec.lidClosed 2 + flag s.su.vinGood 3 else 0
/-- How many tenants have keys that the module holds. -/
def Security.keyTenants (x : Security) : Nat :=
  (x.openKeys.foldl (fun l e => match e.1 with
    | .hist t _ => insNat t l
    | .integ t _ => insNat t l
    | _ => l) []).length
/-- The firmware slot that runs. -/
def Startup.slot (u : Startup) (b : Bool) : FwSlot := if b then u.slot1 else u.slot0
def State.secFuse (s : State) : Nat := s.sec.fuses % 128 + 256 * ((s.su.slot s.su.running).svn % 128) + flag s.su.running 16

/-- A read of the SEC_ window. -/
def State.secReg (s : State) (o : Nat) : Nat :=
  let x := s.sec
  if o = 0 then 1 + 256 * x.keyHashes.length
  else if o = 4 then s.secVault
  else if o = 8 then s.secBark
  else if o = 0xC then s.secFuse
  else if o = 0x10 then x.keyTenants
  else if o = 0x14 then x.records.length
  else if o = 0x18 then s.cfg.doors.length
  else if o = 0x1C then x.decLast.toNat
  else if o = 0x20 then x.decMax.toNat
  else if o = 0x24 then x.grants.toNat
  else if o = 0x28 then x.refusals.toNat
  else if o = 0x2C then x.passback.toNat
  else if o = 0x30 then x.authFail.toNat
  else if o = 0x34 then x.secureFail.toNat
  else if o = 0x38 then x.sigFail.toNat
  else if o = 0x3C then (x.doors.filter fun e => e.2.chunk.isSome).length
  else 0

/-! ### BAR2 (13 R286, R287) -/

/-- Is a block present on a die (13 Table 13.4)? -/
def State.hasBlock (s : State) (d b : Nat) : Bool :=
  d < s.nDies && (b < 6 || b == 9 || (b == 6 && d < 2) || (b ≤ 12 && d == 0))
/-- The parts a tenant reaches: PNT_ and LPE_ (R287). -/
def gated (t : Tenant) (b : Nat) : Bool := t == 0 || b == 0 || b == 2

/-- Read an aligned word at an offset of a die's region, with the gating of a tenant. -/
def State.dieRead (s : State) (t : Tenant) (d off : Nat) : Nat × State :=
  let b := off / 0x100000
  let o := off % 0x100000
  if !s.hasBlock d b || !gated t b then (0, s)
  else match b with
    | 0 => (s.pntRead t d o, s.pntReadFx t d o)
    | 1 => (s.brpRead d o, s)
    | 2 => (s.lpeRead t d o, s.lpeReadFx t d o)
    | 3 => (s.lscRead d o, s.lscReadFx d o)
    | 4 => (s.dmaReg d o, s)
    | 5 => (s.atuReg d o, s)
    | 6 => (s.trkReg (d == 1) o, s.trkRegFx (d == 1) o)
    | 7 => (s.fioReg o, s.fioRegFx o)
    | 8 => (s.mtrReg o, s.mtrRegFx o)
    | 9 => (s.hstReg d o, s.hstRegFx d o)
    | 10 => (s.evrReg o, s.evrRegFx o)
    | 11 => (s.rtcReg o, s.rtcRegFx o)
    | _ => (s.secReg o, s)

/-- Write an aligned word at an offset of a die's region, with the gating of a tenant. -/
def State.dieWrite (s : State) (t : Tenant) (d off : Nat) (v : Word) : State :=
  let b := off / 0x100000
  let o := off % 0x100000
  if !s.hasBlock d b || !gated t b then s
  else match b with
    | 0 => s.pntWrite t d o v
    | 1 => s.brpWrite d o v
    | 2 => s.lpeWrite t d o v
    | 3 => s.lscWrite d o v
    | 4 => s.dmaRegW d o v
    | 5 => s.atuRegW d o v
    | 6 => s.trkRegW (d == 1) o v
    | 7 => s.fioRegW o v
    | 8 => s.mtrRegW o v
    | 9 => s.hstRegW d o v
    | 10 => s.evrRegW o v
    | 11 => s.rtcRegW o v
    | _ => s

/-! ### BAR0 (13 R283 to R308) -/

/-- DEV_ID and DEV_WIN. -/
def State.devId (s : State) : Nat :=
  (match s.member with
    | .tf2 => 0x0E02
    | .tf4 => 0x0E04
    | .tf8 => 0x0E08) + 65536 * s.nDies + 2 ^ 20 + 2 ^ 24 * 0x4B
def State.devWin (s : State) : Nat :=
  match s.host.win with
  | none => 0
  | some k => k.val + 32 + 65536 * (s.sender k.val).tenant.toNat

/-- A slot's status and a slot's word (13 Table 13.6). -/
def State.slotStatus (s : State) (k : Nat) : Nat :=
  let x := s.sender k
  flag x.en 0 + flag x.opened 1 + flag x.remote 2 + flag (match s.host.win with
    | none => false
    | some w => w.val == k) 3 + flag x.winLost 4 + (if x.opened then 65536 * x.tenant.toNat else 0)
def State.mbxWord (s : State) (k a : Nat) : Nat :=
  let x := s.sender k
  match a / 4 with
  | 0 => loW x.rqBase.toNat
  | 1 => hiW x.rqBase.toNat
  | 2 => loW x.cqBase.toNat
  | 3 => hiW x.cqBase.toNat
  | 4 => x.rqLog.toNat + 256 * x.cqLog.toNat
  | 5 => flag x.en 0 + flag x.irqEn 1
  | 6 => s.slotStatus k
  | 7 => x.err.toNat
  | 8 => x.rqHead.toNat
  | 9 => x.cqTail.toNat
  | _ => 0

/-- WMK_STAT and a watermark slot's word (13 Table 13.11). -/
def Wmk.stat (w : Wmk) : Nat := flag w.level 0 + flag w.raised 1 + flag w.fell 2 + flag w.armed 3 + 65536 * w.count.toNat
def State.wmkWord (s : State) (n a : Nat) : Nat :=
  let w := s.wmk n
  match a / 4 with
  | 0 => flag w.en 0 + flag w.pol 1
  | 1 => vW w.thr
  | 2 => vW w.hyst
  | 3 => vW w.value
  | 4 => w.stat
  | 5 => if 12 ≤ n && n < 16 then w.ten.toNat else 0
  | _ => 0

/-- A read of an aligned word of BAR0. -/
def State.bar0Reg (s : State) (o : Nat) : Nat :=
  let h := s.host
  if o = 0 then s.devId
  else if o = 4 then h.fw.toNat
  else if o = 8 then loW h.serial.toNat
  else if o = 0xC then h.serialHi.toNat
  else if o = 0x10 then s.devStatus.toNat
  else if o = 0x14 then h.heartbeat.toNat
  else if o = 0x18 then s.su.reason.toNat
  else if o = 0x1C then s.devWin
  else if o = 0x20 then h.badAcc.toNat
  else if 0x2000 ≤ o && o < 0x2800 then s.mbxWord ((o - 0x2000) / 64) (o % 64)
  else if o = 0x3000 then s.intStat.toNat
  else if o = 0x3004 then h.intMask.toNat
  else if 0x3010 ≤ o && o < 0x3030 then s.intBlk ((o - 0x3010) / 4)
  else if 0x4000 ≤ o && o < 0x4400 then s.wmkWord ((o - 0x4000) / 32) (o % 32)
  else if o = 0x4400 then sumNat ((List.range 32).map fun n => flag (s.wmk n).raised n)
  else if o = 0x5000 then loW s.tick.toNat
  else if o = 0x5004 then s.tickHi.toNat
  else if o = 0x5014 then h.snap.stat
  else if o = 0x5018 then loW h.snap.tick.toNat
  else if o = 0x501C then h.snap.tickHi.toNat
  else if o = 0x5020 then loW h.snap.utc.toNat
  else if o = 0x5024 then h.snap.utcHi.toNat
  else if o = 0x5028 then loW h.snap.sfn.toNat
  else if o = 0x502C then h.snap.sfnHi.toNat
  else if 0x8000 ≤ o && o < 0x8210 then (h.msixWord ((o - 0x8000) / 4)).toNat
  else if o = 0x9000 then loW h.pba.toNat
  else if o = 0x9004 then hiW h.pba.toNat
  else 0

/-- RL low words of BAR0 latch. -/
def State.bar0Fx (s : State) (o : Nat) : State :=
  if o = 8 then s.modHost fun h => { h with serialHi := w32 (hiW h.serial.toNat) }
  else if o = 0x5000 then { s with tickHi := w32 (hiW s.tick.toNat) }
  else if o = 0x5018 then s.modHost fun h => { h with snap := { h.snap with tickHi := w32 (hiW h.snap.tick.toNat) } }
  else if o = 0x5020 then s.modHost fun h => { h with snap := { h.snap with utcHi := w32 (hiW h.snap.utc.toNat) } }
  else if o = 0x5028 then s.modHost fun h => { h with snap := { h.snap with sfnHi := w32 (hiW h.snap.sfn.toNat) } }
  else s

/-- A write to a slot's register; 0x00 to 0x10 ignore writes while EN is 1 (R290). -/
def State.mbxWrite (s : State) (k a : Nat) (v : Word) : State :=
  let x := s.sender k
  match a / 4 with
  | 0 => if x.en then s else s.setSender k { x with rqBase := BitVec.ofNat 64 (2 ^ 32 * hiW x.rqBase.toNat + v.toNat) }
  | 1 => if x.en then s else s.setSender k { x with rqBase := BitVec.ofNat 64 (2 ^ 32 * v.toNat + loW x.rqBase.toNat) }
  | 2 => if x.en then s else s.setSender k { x with cqBase := BitVec.ofNat 64 (2 ^ 32 * hiW x.cqBase.toNat + v.toNat) }
  | 3 => if x.en then s else s.setSender k { x with cqBase := BitVec.ofNat 64 (2 ^ 32 * v.toNat + loW x.cqBase.toNat) }
  | 4 => if x.en then s else s.setSender k { x with rqLog := v.setWidth 4, cqLog := v.extractLsb' 8 4 }
  | 5 => s.slotCtrl k (v.getLsbD 0) (v.getLsbD 1)
  | 7 => s.setSender k { x with err := x.err &&& ~~~(v.setWidth 3) }
  | _ => s

/-- A write to a watermark slot's register. -/
def State.wmkWrite (s : State) (n a : Nat) (v : Word) : State :=
  let w := s.wmk n
  if 16 ≤ n then s
  else match a / 4 with
    | 0 => s.wmkCfgW n (v.getLsbD 0) (v.getLsbD 1)
    | 1 => s.setWmk n { w with thr := v.setWidth 24 }
    | 2 => s.setWmk n { w with hyst := v.setWidth 24 }
    | 4 => s.wmkStatW n v
    | 5 => if 12 ≤ n then s.setWmk n { w with ten := v.setWidth 12 } else s
    | _ => s

/-- A write of an aligned word of BAR0. -/
def State.bar0Write (s : State) (o : Nat) (v : Word) : State :=
  if o = 0x20 then s.modHost fun h => { h with badAcc := clr v h.badAcc }
  else if 0x1000 ≤ o && o < 0x1100 then
    let k := (o - 0x1000) / 8
    if o % 8 = 0 then s.rqTailWrite k v.toNat else s.cqHeadWrite k v.toNat
  else if 0x2000 ≤ o && o < 0x2800 then s.mbxWrite ((o - 0x2000) / 64) (o % 64) v
  else if o = 0x3000 then
    s.modHost fun h => { h with
      intWmk := h.intWmk && !v.getLsbD 8, intDev := h.intDev && !v.getLsbD 9, intMbx := h.intMbx && !v.getLsbD 10 }
  else if o = 0x3004 then s.modHost fun h => { h with intMask := v &&& 0x7FF }
  else if 0x4000 ≤ o && o < 0x4400 then s.wmkWrite ((o - 0x4000) / 32) (o % 32) v
  else if o = 0x5010 then (if v.getLsbD 0 then s.snapTake else s)
  else if 0x8000 ≤ o && o < 0x8210 then s.modHost fun h => h.msixWrite ((o - 0x8000) / 4) v
  else s

/-! ### The host's accesses (13 R286, R287, R299, R301, R303) -/

/-- Count a refused access. -/
def State.badAcc (s : State) : State := s.modHost fun h => { h with badAcc := h.badAcc + 1 }

/-- The tenant BAR2 acts with, where a session holds it. -/
def State.winTenant (s : State) : Option Tenant := s.host.win.map fun k => (s.sender k.val).tenant

/-- Read an aligned word of a BAR. -/
def State.hostWord (s : State) (bar2 : Bool) (off : Nat) : Nat × State :=
  if bar2 then
    if !s.host.mbxRdy then (0, s)
    else match s.winTenant with
      | none => (0, s)
      | some t => s.dieRead t (off / 0x2000000) (off % 0x2000000)
  else (s.bar0Reg off, s.bar0Fx off)

/-- A host read of `size` bytes: accepted within a 64-bit word, the words it touches the lower first. -/
def State.hostRead (s : State) (bar2 : Bool) (off size : Nat) : Nat × State :=
  if !(size == 1 || size == 2 || size == 4 || size == 8) || 8 < off % 8 + size then (0, s.badAcc)
  else
    let s := if bar2 && s.host.win.isNone then s.badAcc else s
    let a := off / 4 * 4
    let (x, s) := s.hostWord bar2 a
    let (y, s) := if off % 4 + size ≤ 4 then (0, s) else s.hostWord bar2 (a + 4)
    ((x + 2 ^ 32 * y) / 2 ^ (8 * (off % 4)) % 2 ^ (8 * size), s)

/-- A host read whose data the bus returns. -/
def State.busRead (s : State) (bar2 : Bool) (off size : Nat) : State :=
  let (v, s) := s.hostRead bar2 off size
  s.modHost fun h => { h with busData := BitVec.ofNat 64 v }

/-- Write an aligned word of a BAR. -/
def State.hostWordW (s : State) (bar2 : Bool) (off : Nat) (v : Word) : State :=
  if bar2 then
    if !s.host.mbxRdy then s
    else match s.winTenant with
      | none => s
      | some t => s.dieWrite t (off / 0x2000000) (off % 0x2000000) v
  else s.bar0Write off v

/-- A host write: an aligned 32-bit or 64-bit one; any other is discarded and counted (R299). -/
def State.hostWrite (s : State) (bar2 : Bool) (off size v : Nat) : State :=
  if !((size == 4 && off % 4 == 0) || (size == 8 && off % 8 == 0)) then s.badAcc
  else
    let s := if bar2 && s.host.win.isNone then s.badAcc else s
    let s := s.hostWordW bar2 off (w32 v)
    if size = 8 then s.hostWordW bar2 (off + 4) (w32 (v / 2 ^ 32)) else s

/-- The BAR2 offset of a block of a die. -/
def blkOff (d b : Nat) : Nat := 0x2000000 * d + 0x100000 * b
/-- A host write of a word to a register of a block. -/
def State.regW (s : State) (d b o : Nat) (v : Word) : State := s.hostWrite true (blkOff d b + o) 4 v.toNat

/-! ### Kinds of registers -/

/-- Is it an RL low word? -/
def isRl (bar2 : Bool) (off : Nat) : Bool :=
  if bar2 then
    let b := off % 0x2000000 / 0x100000
    let o := off % 0x100000
    match b with
    | 2 => (0x1300 ≤ o && o < 0x1380 && o % 8 == 0) || (0x400 ≤ o && o < 0x500 && o % 64 == 0x34)
    | 3 => o == 0x30 || o == 0x38
    | 6 => o == 0x10
    | 7 => o == 0x40 || o == 0x48
    | 8 => o == 0x10 || (0x1000 ≤ o && o < 0x2800 && 0x30 ≤ o % 128 && o % 128 < 0x60 && o % 8 == 0)
    | 10 => o == 8 || o == 0x10
    | _ => false
  else off == 8 || off == 0x5000 || off == 0x5018 || off == 0x5020 || off == 0x5028

/-- Is it a W1C register? -/
def isW1c (bar2 : Bool) (off : Nat) : Bool :=
  if bar2 then
    let b := off % 0x2000000 / 0x100000
    let o := off % 0x100000
    match b with
    | 1 => let a := o % 4096; o < 0x10000 && (a == 0x100 || a == 0x380 || a == 0x384)
    | 6 => o == 0x100 || o == 0x380 || o == 0x384
    | 0 => false
    | 12 => false
    | _ => b < 13 && o == 0x100
  else off == 0x3000 || (0x2000 ≤ off && off < 0x2800 && off % 64 == 0x1C)

/-- Is it a statistics counter of BAR2? -/
def isCounter (off : Nat) : Bool :=
  let b := off % 0x2000000 / 0x100000
  let o := off % 0x100000
  o % 4 == 0 && match b with
  | 0 => o == 0x30048
  | 1 => let a := o % 4096; o < 0x10000 && ((0x200 ≤ a && a ≤ 0x248) || (0x300 ≤ a && a < 0x340))
  | 2 => o == 0x10 || o == 0x14 || o == 0x18 || o == 0x1C
  | 3 => o == 0x28 || o == 0x40 || o == 0x48
  | 4 => 0x1000 ≤ o && o < 0x1400 && (o % 64 == 0x20 || o % 64 == 0x24 || o % 64 == 0x28)
  | 5 => 0x40 ≤ o && o ≤ 0x50
  | 6 => (0x200 ≤ o && o ≤ 0x25C) || (0x300 ≤ o && o < 0x320)
  | 7 => o == 0x50 || o == 0x54
  | 8 => o == 0x1C || (0x800 ≤ o && o < 0xEC0 && o % 32 == 0x1C)
  | 9 => 0x200 ≤ o && o ≤ 0x21C
  | 10 => o == 0x20 || o == 0x24 || o == 0x28
  | _ => false

end Sys2Proof.Machine
end

