-- ==== Sys2Proof/Machine/HostRegs.lean ====
section
/-! DEFINITION. The table's register rows: each is a host access to one register, with the gating of the BARs (13 R286 to
R303); what the register does stands in the register maps. -/
namespace Sys2Proof.Machine

/-! ### Reads with effects, and writes by kind (13 R299 to R303) -/

/-- RL_LOW_WORD_READ (R301): the high word is latched with the low one; `wide` is a 64-bit read. -/
def execRlLowWordRead (bar2 : Bool) (off : BitVec 28) (wide : Bool) (s : State) : Host.Outcome State Fault Refusal :=
  done s (if isRl bar2 off.toNat then s.busRead bar2 off.toNat (if wide then 8 else 4) else s)

/-- RC_READ (02 R39): a word of PNT_CHGMAP is returned and cleared. -/
def execRcRead (off : BitVec 28) (s : State) : Host.Outcome State Fault Refusal :=
  let o := off.toNat % 0x2000000
  done s (if 0x30100 ≤ o && o < 0x30140 then s.busRead true off.toNat 4 else s)

/-- W1C_WRITE (R303): bits written 1 clear. -/
def execW1cWrite (bar2 : Bool) (off : BitVec 28) (v : Word) (s : State) : Host.Outcome State Fault Refusal :=
  done s (if isW1c bar2 off.toNat then s.hostWrite bar2 off.toNat 4 v.toNat else s)

/-- COUNTER_CLEAR_WRITE (03 R65): a write of 0 clears a statistics counter, another value is ignored. -/
def execCounterClearWrite (off : BitVec 28) (v : Word) (s : State) : Host.Outcome State Fault Refusal :=
  done s (if isCounter off.toNat then s.hostWrite true off.toNat 4 v.toNat else s)

/-- REGISTER_WRITE (R299, R303): any host write, as the register map of its address takes it. -/
def execRegisterWrite (bar2 : Bool) (off : BitVec 28) (size : Nat) (v : BitVec 64) (s : State) : Host.Outcome State Fault Refusal :=
  done s (s.hostWrite bar2 off.toNat size v.toNat)

/-! ### Register commands of the blocks -/

/-- PNT_FORCE_CTRL.FORCE (02 R40). -/
def execPntForceCtrlForce (d : Die) (s : State) : Host.Outcome State Fault Refusal :=
  done s (s.regW d.val 0 0x3000C 1)

/-- PNT_FORCE_CTRL.RELEASE (02 R40). -/
def execPntForceCtrlRelease (d : Die) (s : State) : Host.Outcome State Fault Refusal :=
  done s (s.regW d.val 0 0x3000C 2)

/-- BRP_CTRL (03 R62). -/
def execBrpCtrlWrite (p : Port) (v : Word) (s : State) : Host.Outcome State Fault Refusal :=
  done s (s.regW (portDie p.val) 1 (4096 * (p.val % 16) + 4) v)

/-- BRP_GCL_CTRL.SWAP (03 R70). -/
def execBrpGclSwap (p : Port) (s : State) : Host.Outcome State Fault Refusal :=
  done s (s.regW (portDie p.val) 1 (4096 * (p.val % 16) + 0x20) 2)

/-- TRK_CTRL (05 R110). -/
def execTrkCtrlWrite (t : TrunkPort) (v : Word) (s : State) : Host.Outcome State Fault Refusal :=
  done s (s.regW t.toNat 6 4 v)

/-- TRK_GCL_CTRL.SWAP (05 R109). -/
def execTrkGclSwap (t : TrunkPort) (s : State) : Host.Outcome State Fault Refusal :=
  done s (s.regW t.toNat 6 0x20 2)

/-- LSC_CTRL.RUN_COLD (06 R132). -/
def execLscCtrlRunCold (d : Die) (s : State) : Host.Outcome State Fault Refusal :=
  done s (s.regW d.val 3 8 1)

/-- LSC_CTRL.RUN_WARM (06 R133). -/
def execLscCtrlRunWarm (d : Die) (s : State) : Host.Outcome State Fault Refusal :=
  done s (s.regW d.val 3 8 2)

/-- LSC_CTRL.STOP (06 R130). -/
def execLscCtrlStop (d : Die) (s : State) : Host.Outcome State Fault Refusal :=
  done s (s.regW d.val 3 8 3)

/-- LSC_CTRL.HOLD (06 R129). -/
def execLscCtrlHold (d : Die) (s : State) : Host.Outcome State Fault Refusal :=
  done s (s.regW d.val 3 8 4)

/-- LSC_CTRL.STEP of a core (06 R129). -/
def execLscCtrlStep (d : Die) (c : CoreNo) (s : State) : Host.Outcome State Fault Refusal :=
  done s (s.regW d.val 3 8 (w32 (5 + 256 * c.val)))

/-- LSC_CTRL.RESUME (06 R129). -/
def execLscCtrlResume (d : Die) (s : State) : Host.Outcome State Fault Refusal :=
  done s (s.regW d.val 3 8 6)

/-- LPE_S_CTRL.SWAP, with RESET_ST as written (08 R177). -/
def execLpeSSwap (d : Die) (n : LoopNo) (reset : Bool) (s : State) : Host.Outcome State Fault Refusal :=
  done s (s.regW d.val 2 (0x80000 + 64 * n.val + 0x2C) (if reset then 3 else 1))

/-- LPE_S_CTRL.CLR_SAT (08 R163). -/
def execLpeSClrSat (d : Die) (n : LoopNo) (s : State) : Host.Outcome State Fault Refusal :=
  done s (s.regW d.val 2 (0x80000 + 64 * n.val + 0x2C) 4)

/-- LPE_TU_CTRL.START with the other fields of the write (08 R179). -/
def execLpeTuStart (d : Die) (u : UnitNo) (v : Word) (s : State) : Host.Outcome State Fault Refusal :=
  done s (s.regW d.val 2 (0x404 + 64 * u.val) (v ||| 1))

/-- LPE_TU_CTRL.STOP (08 R187). -/
def execLpeTuStop (d : Die) (u : UnitNo) (s : State) : Host.Outcome State Fault Refusal :=
  done s (s.regW d.val 2 (0x404 + 64 * u.val) 2)

/-- FIO_CTRL.RELEASE (09 R200). -/
def execFioRelease (s : State) : Host.Outcome State Fault Refusal :=
  done s (s.regW 0 7 8 1)

/-- FIO_CTRL.ST_START (09 R198). -/
def execFioStStart (s : State) : Host.Outcome State Fault Refusal :=
  done s (s.regW 0 7 8 2)

/-- FIO_CTRL.ST_STOP (09 R198). -/
def execFioStStop (s : State) : Host.Outcome State Fault Refusal :=
  done s (s.regW 0 7 8 4)

/-- FIO_CLR (09 R195). -/
def execFioClr (v : Word) (s : State) : Host.Outcome State Fault Refusal :=
  done s (s.regW 0 7 0x1C v)

/-- FIO_M_CMD: far (09 R205). -/
def execFioMFar (m : MotNo) (s : State) : Host.Outcome State Fault Refusal :=
  done s (s.regW 0 7 (0xA00 + 64 * m.val + 0x1C) 1)

/-- FIO_M_CMD: home direction (09 R205). -/
def execFioMHomeDirection (m : MotNo) (s : State) : Host.Outcome State Fault Refusal :=
  done s (s.regW 0 7 (0xA00 + 64 * m.val + 0x1C) 2)

/-- FIO_M_CMD: go to the target (09 R205). -/
def execFioMGoto (m : MotNo) (s : State) : Host.Outcome State Fault Refusal :=
  done s (s.regW 0 7 (0xA00 + 64 * m.val + 0x1C) 3)

/-- FIO_M_CMD: stop (09 R205). -/
def execFioMStop (m : MotNo) (s : State) : Host.Outcome State Fault Refusal :=
  done s (s.regW 0 7 (0xA00 + 64 * m.val + 0x1C) 4)

/-- FIO_M_CMD: home (09 R206). -/
def execFioMHome (m : MotNo) (s : State) : Host.Outcome State Fault Refusal :=
  done s (s.regW 0 7 (0xA00 + 64 * m.val + 0x1C) 5)

/-- FIO_M_CMD: clear fault (09 R208). -/
def execFioMClearFault (m : MotNo) (s : State) : Host.Outcome State Fault Refusal :=
  done s (s.regW 0 7 (0xA00 + 64 * m.val + 0x1C) 6)

/-- FIO_M_CMD: reset the learned coast (09 R207). -/
def execFioMResetCoast (m : MotNo) (s : State) : Host.Outcome State Fault Refusal :=
  done s (s.regW 0 7 (0xA00 + 64 * m.val + 0x1C) 7)

/-- MTR_CTRL.ST_START (10 R227). -/
def execMtrStStart (s : State) : Host.Outcome State Fault Refusal :=
  done s (s.regW 0 8 8 1)

/-- MTR_CTRL.ST_STOP (10 R227). -/
def execMtrStStop (s : State) : Host.Outcome State Fault Refusal :=
  done s (s.regW 0 8 8 2)

/-- Exyan commands its own channels (R243), host software the others; DMA_C_CTRL.START (11 R245). -/
def execDmaStart (d : Die) (c : DmaNo) (exyan : Option DmaSetup) (s : State) : Host.Outcome State Fault Refusal :=
  match exyan with
  | none => done s (s.regW d.val 4 (0x1000 + 64 * c.val + 4) 1)
  | some u => if d.val < s.nDies && !dmaHost d.val c.val then done s (s.dmaExyan d.val c.val u) else done s s

/-- DMA_C_CTRL.RESUME (11 R248). -/
def execDmaResume (d : Die) (c : DmaNo) (exyan : Bool) (s : State) : Host.Outcome State Fault Refusal :=
  if !exyan then done s (s.regW d.val 4 (0x1000 + 64 * c.val + 4) 2)
  else if d.val < s.nDies && !dmaHost d.val c.val then done s (s.dmaResume d.val c.val)
  else done s s

/-- DMA_C_CTRL.SKIP (11 R248). -/
def execDmaSkip (d : Die) (c : DmaNo) (exyan : Bool) (s : State) : Host.Outcome State Fault Refusal :=
  if !exyan then done s (s.regW d.val 4 (0x1000 + 64 * c.val + 4) 4)
  else if d.val < s.nDies && !dmaHost d.val c.val then done s (s.dmaSkip d.val c.val)
  else done s s

/-- DMA_C_CTRL.ABORT (11 R248). -/
def execDmaAbort (d : Die) (c : DmaNo) (exyan : Bool) (s : State) : Host.Outcome State Fault Refusal :=
  if !exyan then done s (s.regW d.val 4 (0x1000 + 64 * c.val + 4) 8)
  else if d.val < s.nDies && !dmaHost d.val c.val then done s (s.dmaAbort d.val c.val)
  else done s s

/-- ATU_INV_CMD: invalidate a context (11 R240). -/
def execAtuInvContext (d : Die) (s : State) : Host.Outcome State Fault Refusal :=
  done s (s.regW d.val 5 0x1C 1)

/-- ATU_INV_CMD: invalidate a page (11 R240). -/
def execAtuInvPage (d : Die) (s : State) : Host.Outcome State Fault Refusal :=
  done s (s.regW d.val 5 0x1C 2)

/-- ATU_INV_CMD: invalidate everything (11 R240). -/
def execAtuInvAll (d : Die) (s : State) : Host.Outcome State Fault Refusal :=
  done s (s.regW d.val 5 0x1C 3)

/-- ATU_FQ_POP (11 R253). -/
def execAtuFqPop (d : Die) (s : State) : Host.Outcome State Fault Refusal :=
  done s (s.regW d.val 5 0x24 1)

/-! ### The real-time clock's registers (16) -/

/-- RTC_MSEC_READ (R357): the calendar registers freeze. -/
def execRtcMsecRead (s : State) : Host.Outcome State Fault Refusal :=
  done s (s.busRead true (blkOff 0 11 + 0x20) 4)

/-- RTC_YEAR_READ (R357): the calendar registers run again. -/
def execRtcYearRead (s : State) : Host.Outcome State Fault Refusal :=
  done s (s.busRead true (blkOff 0 11 + 0x3C) 4)

/-- RTC_W_CTRL.COMMIT (R358). -/
def execRtcCommit (s : State) : Host.Outcome State Fault Refusal :=
  done s (s.regW 0 11 0x5C 1)

/-- RTC_TRIM (R359). -/
def execRtcTrimWrite (v : Word) (s : State) : Host.Outcome State Fault Refusal :=
  done s (s.regW 0 11 0xC v)

/-! ### BAR0 (13) -/

/-- MBX_S_CTRL with EN 1 (R290). -/
def execMbxSlotEnable (k : SlotNo) (irq : Bool) (s : State) : Host.Outcome State Fault Refusal :=
  done s (s.hostWrite false (0x2014 + 64 * k.val) 4 (1 + flag irq 1))

/-- MBX_S_CTRL with EN 0 (R290). -/
def execMbxSlotDisable (k : SlotNo) (irq : Bool) (s : State) : Host.Outcome State Fault Refusal :=
  done s (s.hostWrite false (0x2014 + 64 * k.val) 4 (flag irq 1))

/-- MBX_S_CTRL with IRQ_EN 1, EN as it stands (R296). -/
def execMbxIrqEnable (k : SlotNo) (s : State) : Host.Outcome State Fault Refusal :=
  done s (s.hostWrite false (0x2014 + 64 * k.val) 4 (2 + flag (s.sender k.val).en 0))

/-- MBX_RQ_TAIL (R295). -/
def execMbxRqTail (k : SlotNo) (v : Word) (s : State) : Host.Outcome State Fault Refusal :=
  done s (s.hostWrite false (0x1000 + 8 * k.val) 4 v.toNat)

/-- MBX_CQ_HEAD (R295, R296). -/
def execMbxCqHead (k : SlotNo) (v : Word) (s : State) : Host.Outcome State Fault Refusal :=
  done s (s.hostWrite false (0x1004 + 8 * k.val) 4 v.toNat)

/-- WMK_STAT (R305). -/
def execWmkStatWrite (n : BitVec 5) (v : Word) (s : State) : Host.Outcome State Fault Refusal :=
  done s (s.hostWrite false (0x4010 + 32 * n.toNat) 4 v.toNat)

/-- WMK_CFG with EN 1, POL as it stands (R305). -/
def execWmkEnable (n : BitVec 5) (s : State) : Host.Outcome State Fault Refusal :=
  done s (s.hostWrite false (0x4000 + 32 * n.toNat) 4 (1 + flag (s.wmk n.toNat).pol 1))

/-- SNAP_CTRL.TAKE (R308). -/
def execSnapTake (s : State) : Host.Outcome State Fault Refusal :=
  done s (s.hostWrite false (0x5010) 4 1)

end Sys2Proof.Machine
end

