-- ==== Sys2Proof/Machine/Requests.lean ====
section
/-! DEFINITION. How a mailbox command is executed: the order of its checks (14 R310 to R315), and the device, session and
register commands of groups 0x01 and 0x02 (R316). -/
namespace Sys2Proof.Machine

/-! ### The frame of every command -/

/-- A command's outcome: its result, or none where it completes later. -/
abbrev Answer := Option Result × State

def ansOk (res : Result) (s : State) : Answer := (some res, s)
def ansNo (st : BitVec 16) (detail : Nat) (s : State) : Answer := (some (refusal st detail), s)
def ansWait (s : State) : Answer := (none, s)

/-- The groups that run in seedling mode (17 Table 17.6), and the commands that a configuration load holds off (R315). -/
def seedGroup (g : Nat) : Bool := g == 1 || g == 2 || g == 11 || g == 13 || g == 14 || g == 15
def loadHeld (op : Nat) : Bool := (3 ≤ op / 256 && op / 256 ≤ 12) || op == 0x0E02 || op == 0x0E03

/-- The tenant a sender acts for; the service session acts for the landlord. -/
def State.reqTenant (s : State) (k : Nat) : Tenant := if k < 32 then (s.sender k).tenant else 0

/-- The commands whose request data has one length, by that length (Tables 14.2 to 14.7). -/
def fixedData : List (Nat × List Nat) :=
  [(0, [0x0101, 0x0102, 0x0202, 0x0203, 0x0204, 0x0205, 0x0206, 0x0506, 0x0801, 0x0802, 0x090B, 0x090C, 0x0A04, 0x0A05,
     0x0B03, 0x0D01, 0x0D06, 0x0E01, 0x0E03, 0x0F01]),
   (1, [0x0103, 0x0105, 0x0402, 0x0407, 0x040A, 0x0501, 0x0507, 0x0601, 0x0603, 0x0604, 0x0606, 0x0608, 0x0709, 0x0803,
     0x0807, 0x0901, 0x0902, 0x0904, 0x0905, 0x0906, 0x0907]),
   (2, [0x0306, 0x0404, 0x0504, 0x0602, 0x0605, 0x060D, 0x060E, 0x0707, 0x0903, 0x0A03, 0x0C05, 0x0D04]),
   (3, [0x0302, 0x0401, 0x0405, 0x0502, 0x0505, 0x0701, 0x0804, 0x0805, 0x0909, 0x0D03, 0x0F03]),
   (4, [0x0305, 0x0307, 0x0409, 0x0705, 0x0B02, 0x0C02, 0x0C03]),
   (5, [0x0106, 0x0708, 0x0806, 0x0C04]),
   (6, [0x0703, 0x0C06, 0x0F04]),
   (7, [0x0303, 0x0304, 0x0609, 0x060B, 0x060C]),
   (8, [0x0107, 0x060A, 0x0A06, 0x0D02]),
   (9, [0x0109, 0x0406]),
   (10, [0x0104, 0x0B01]),
   (11, [0x0108]),
   (12, [0x0702]),
   (15, [0x0A02]),
   (17, [0x0908]),
   (19, [0x0A01]),
   (20, [0x090A]),
   (24, [0x0706]),
   (235, [0x0704])]
/-- The credential that SESSION_OPEN carries has the length of its CKIND (15 Table 15.2). -/
def credFits (d : List Byte) : Bool :=
  match d with
  | c :: _ => if c = 1 then 18 ≤ d.length && d.length ≤ 258 else if c = 2 then d.length == 106 else 2 ≤ d.length && d.length ≤ 4096
  | [] => false
/-- The verifier that SEC_CRED_SET carries has the length of its CKIND. -/
def verifierFits (d : List Byte) : Bool :=
  match d with
  | _ :: _ :: _ :: c :: l => if c = 0 then l.isEmpty else if c = 1 then l.length == 64 else c != 2 || l.length == 97
  | _ => false
/-- A credential record's reserved bits are 0 (15 Table 15.4). -/
def recordFits (d : List Byte) : Bool :=
  d.length == 64 && (d.getD 9 0).toNat < 16 && (d.getD 10 0).toNat < 16 && d.getD 11 0 == 0 && d.getD 22 0 == 0 && d.getD 23 0 == 0
/-- The reserved bits of the gate control list entries in request data are 0: of a branch port's word 0 [31:26], of a trunk port's
[31:18], and of both the three upper bytes of word 1. -/
def entriesFit (top : Nat) : List Byte → Bool
  | [] => true
  | a :: b :: c :: d :: _ :: y :: z :: w :: l => ofLe [a, b, c, d] < 2 ^ top && y == 0 && z == 0 && w == 0 && entriesFit top l
  | _ => false
/-- Request data of the length, and with the reserved bits, that the command's row gives; an image's bytes are its own (R310). -/
def reqFits (op : Nat) (d : List Byte) : Bool :=
  match fixedData.find? fun e => e.2.contains op with
  | some e => d.length == e.1
  | none =>
    if op = 0x0301 then d.length == 2 + 4 * ofLe (d.take 2)
    else if op = 0x0403 then d.length == 4 + 8 * (d.getD 3 0).toNat && entriesFit 26 (d.drop 4)
    else if op = 0x0503 then d.length == 3 + 8 * ofLe ((d.drop 1).take 2) && entriesFit 18 (d.drop 3)
    else if op = 0x0408 then 3 ≤ d.length && d.length ≤ 241
    else if op = 0x0D05 then d.length == 2 + (d.getD 1 0).toNat
    else if op = 0x0201 then credFits d
    else if op = 0x0F02 then verifierFits d
    else if op = 0x0C01 then recordFits d
    else op != 0x0607 || !d.isEmpty

/-- The checks in R312's order, then the command's own part `f`, which sees the tenant and the response length. `p` says that the
request data are this command's, `bad` is the detail of a field out of range, and `landlord` says whether column S gives L. What
the command's own part does not find comes before the module's mode and a load (steps 4 and 5). -/
def State.attempt (s : State) (k op : Nat) (h : ReqHead) (landlord : Bool) (p : List Byte → Bool) (bad : Option Nat)
    (f : Tenant → Nat → State → Answer) : Answer :=
  let t := s.reqTenant k
  match s.early k h with
  | some res => (some res, s)
  | none =>
    if !p h.data then ansNo stInvalid 0 s
    else match bad with
      | some n => ansNo stInvalid n s
      | none =>
        if landlord && t != 0 then ansNo stNotFound 0 s
        else
          let a := f t h.rlen s
          if a.1.any fun r => r.status == stNotFound then a
          else if s.su.seedling && !seedGroup (op / 256) then ansNo stWrongMode 2 s
          else if s.su.loading && loadHeld op then ansNo stBusy 1 s
          else a

/-- Give the request at a place its result, if it still stands there without one. -/
def putResult (i : Nat) (tag : Word) (res : Result) (l : List ReqSt) : List ReqSt :=
  match l[i]? with
  | some q => if q.begun && q.result.isNone && q.head.tag == tag then l.set i { q with result := some res } else l
  | none => l

/-- A request is this command's: its opcode is `op` and its data are, or they are no command's of that opcode (R310). -/
def reqIs (op : Nat) (p : List Byte → Bool) (h : ReqHead) : Bool := h.opcode.toNat == op && (p h.data || !reqFits op h.data)

/-- Start the request of `r` that is this command's, where one may start. -/
def State.serve (s : State) (r : Req) (op : Nat) (landlord : Bool) (p : List Byte → Bool) (bad : Option Nat)
    (f : Tenant → Nat → State → Answer) : State :=
  let k := r.sender.val
  let l := (s.sender k).reqs
  match startable r.tag (reqIs op p) l with
  | none => s
  | some i => match l[i]? with
    | none => s
    | some q =>
      let t := s.modSender k fun x => { x with reqs := x.reqs.set i { q with begun := true } }
      match t.attempt k op q.head landlord p bad f with
      | (none, u) => u
      | (some res, u) => u.modSender k fun x => { x with reqs := putResult i r.tag res x.reqs }

/-- The detail of a field out of range, 0 where the row names none. -/
def rangeBad (ok : Bool) : Option Nat := if ok then none else some 0
/-- A command of any session, and one of landlord sessions only, by its packed request data. -/
def State.serveA (s : State) (r : Req) (op : Nat) (data : List Byte) (ranges : Bool) (f : Tenant → Nat → State → Answer) : State :=
  s.serve r op false (· == data) (rangeBad ranges) f
def State.serveL (s : State) (r : Req) (op : Nat) (data : List Byte) (ranges : Bool) (f : Nat → State → Answer) : State :=
  s.serve r op true (· == data) (rangeBad ranges) fun _ => f

/-- A die number that some member has, and the check that this member has it. -/
def dieArg (d : Byte) : Bool := d.toNat < 8
/-- The low and high words of a number as result words. -/
def lo32 (x : Nat) : Word := w32 x
def hi32 (x : Nat) : Word := w32 (x / 2 ^ 32)

/-! ### Group 0x01, device (R316) -/

/-- DEV_INFO. -/
def execDevInfo (r : Req) (s : State) : Host.Outcome State Fault Refusal :=
  done s (s.serveA r 0x0101 [] true fun _ _ s =>
    ansOk (okWords (w32 s.devId) s.host.fw (lo32 s.host.serial.toNat) (hi32 s.host.serial.toNat) s.devStatus) s)

/-- One 16-bit temperature for each die: free values. -/
def State.temps (s : State) : Nat → List Byte × State
  | 0 => ([], s)
  | n + 1 =>
    let (x, s) := s.draw
    let (l, s) := s.temps n
    (leBytes x 2 ++ l, s)

/-- DEV_TEMPS. -/
def execDevTemps (r : Req) (s : State) : Host.Outcome State Fault Refusal :=
  done s (s.serveL r 0x0102 [] true fun _ s => let (l, u) := s.temps s.nDies; ansOk { resp := l } u)

/-- A tenant session reaches only those of slots 12 to 15 that name its own tenant (13 R306). -/
def State.wmkSeen (s : State) (t : Tenant) (n : Nat) : Bool := t == 0 || (12 ≤ n && n < 16 && (s.wmk n).ten == t)

/-- WMK_GET. -/
def execWmkGet (r : Req) (slot : Byte) (s : State) : Host.Outcome State Fault Refusal :=
  done s (s.serveA r 0x0103 [slot] (slot.toNat < 32) fun t _ s =>
    if !s.wmkSeen t slot.toNat then ansNo stNotFound 0 s
    else
    let w (a : Nat) : Word := w32 (s.wmkWord slot.toNat a)
    ansOk (okWords (w 0) (w 4) (w 8) (w 12) (w 16)) s)

/-- WMK_SET (13 R306): EN, THR, HYST, and TEN in slots 12 to 15; slots 16 to 31 ignore it (Table 13.11). -/
def execWmkSet (r : Req) (slot en : Byte) (thr hyst : V24) (ten : BitVec 16) (s : State) : Host.Outcome State Fault Refusal :=
  done s (s.serveL r 0x0104 (pack [(slot.toNat, 1), (en.toNat, 1), (thr.toNat, 3), (hyst.toNat, 3), (ten.toNat, 2)]) (slot.toNat < 32 && en.toNat ≤ 1 && ten.toNat ≤ 0xFFF) fun _ s =>
    let n := slot.toNat
    let w := s.wmk n
    if 16 ≤ n then ansOk {} s
    else
      let s := s.setWmk n { w with thr := thr, hyst := hyst, ten := if 12 ≤ n then ten.setWidth 12 else w.ten }
      ansOk {} (s.wmkCfgW n (en == 1) w.pol))

/-- WMK_REARM: as a write of 6 to WMK_STAT. -/
def execWmkRearm (r : Req) (slot : Byte) (s : State) : Host.Outcome State Fault Refusal :=
  done s (s.serveA r 0x0105 [slot] (slot.toNat < 32) fun t _ s =>
    if !s.wmkSeen t slot.toNat then ansNo stNotFound 0 s
    else
    let u := s.wmkStatW slot.toNat 6
    ansOk { r0 := w32 (u.wmk slot.toNat).stat } u)

/-- The poisoned lines of a die, by line number. -/
def State.poisonedLines (s : State) (d : Nat) : List Nat :=
  (s.tags.filter fun e => e.2.poison && paDie (64 * e.1) == d).map (·.1)

/-- MEM_POISON_LIST (11 R236): as many addresses as the response buffer holds, from the start index on. -/
def execMemPoisonList (r : Req) (die : Byte) (start : Word) (s : State) : Host.Outcome State Fault Refusal :=
  done s (s.serveL r 0x0106 (pack [(die.toNat, 1), (start.toNat, 4)]) (dieArg die) fun rlen s =>
    if s.nDies ≤ die.toNat then ansNo stNotFound 0 s
    else
      let l := ((s.poisonedLines die.toNat).drop start.toNat).take (rlen / 8)
      ansOk { r0 := w32 l.length, r1 := w32 (start.toNat + l.length), resp := l.flatMap fun n => leBytes (64 * n) 8 } s)

/-- MEM_POISON_CLEAR (11 R236): a full-line write of zeros. -/
def execMemPoisonClear (r : Req) (pa : BitVec 64) (s : State) : Host.Outcome State Fault Refusal :=
  done s (s.serveL r 0x0107 (pack [(pa.toNat, 8)]) (pa.toNat % 64 == 0 && pa.toNat < 2 ^ 40) fun _ s =>
    if !s.paOk pa.toNat then ansNo stNotFound 0 s
    else if !(s.tag (pa.toNat / 64)).poison then ansNo stInvalid 1 s
    else ansOk {} (s.writeLine (pa.toNat / 64) []))

/-- `n` words of a die's region from an offset, each read with its effects. -/
def State.dieWords (s : State) (t : Tenant) (d off : Nat) : Nat → List Word × State
  | 0 => ([], s)
  | n + 1 =>
    let (w, s) := s.dieRead t d off
    let (l, s) := s.dieWords t d (off + 4) n
    (w32 w :: l, s)

/-- REG_READ: the offset lies within the die's region, and the region of a die that this member lacks reads 0 and ignores
writes (13 R286); a generation word is read before and after the block (13 R302), and
nothing can come between. -/
def execRegRead (r : Req) (die : Byte) (off : Word) (words : BitVec 16) (gen : Word) (s : State) : Host.Outcome State Fault Refusal :=
  let o := off.toNat
  let n := words.toNat
  let g := gen.toNat
  done s (s.serveA r 0x0108 (pack [(die.toNat, 1), (off.toNat, 4), (words.toNat, 2), (gen.toNat, 4)])
    (dieArg die && o % 4 == 0 && 1 ≤ n && n ≤ 256 && o + 4 * n ≤ 0x2000000
      && (g == 0xFFFFFFFF || (g % 4 == 0 && g < 0x2000000))) fun t _ s =>
    let s := if g = 0xFFFFFFFF then s else (s.dieRead t die.toNat g).2
    let (l, s) := s.dieWords t die.toNat o n
    let s := if g = 0xFFFFFFFF then s else (s.dieRead t die.toNat g).2
    ansOk { resp := wordBytes l } s)

/-- REG_WRITE: an aligned 32-bit write within the die's region. -/
def execRegWrite (r : Req) (die : Byte) (off v : Word) (s : State) : Host.Outcome State Fault Refusal :=
  done s (s.serveA r 0x0109 (pack [(die.toNat, 1), (off.toNat, 4), (v.toNat, 4)]) (dieArg die && off.toNat % 4 == 0 && off.toNat < 0x2000000) fun t _ s =>
    ansOk {} (s.dieWrite t die.toNat off.toNat v))

/-! ### Credentials (15 R331, R332, R339) -/

/-- A credential slot; slot 64 is the recovery verifier. -/
def State.credSlot (s : State) (n : Nat) : CredSlot := sget {} s.sec.creds n
def State.setCredSlot (s : State) (n : Nat) (x : CredSlot) : State :=
  s.modSec fun y => { y with creds := sput y.creds n x }

/-- A refused attempt: counted, recorded, and the fifth in a row on a slot locks it. `own` says whether the slot serves this
kind of session. -/
def State.credRefused (s : State) (k n : Nat) (own : Bool) : State :=
  let x := s.credSlot n
  let s := s.modSec fun y => { y with authFail := addW y.authFail 1 }
  let s := if own && !x.locked then s.setCredSlot n { x with refusals := x.refusals + 1, locked := 5 ≤ x.refusals + 1, lockedAt := s.now } else s
  s.event x.tenant 0 16 k 2 [w32 k, w32 n]

/-- A secret matches the hash that a verifier holds behind its salt (Table 15.2). -/
def secretOk (verifier secret : List Byte) : Bool := Config.sha384 (verifier.take 16 ++ secret) == verifier.drop 16
/-- The digest that a signed counter's signature covers: of the module serial, the slot and the counter (Table 15.2). -/
def State.counterDigest (s : State) (c : CredTry) : List Byte :=
  Config.sha384 (leBytes s.host.serial.toNat 8 ++ c.slot :: leBytes c.counter.toNat 8)
/-- Does a presented credential pass the check of slot `n` (Table 15.2)? -/
def State.credPasses (s : State) (n : Nat) (c : CredTry) : Bool :=
  let x := s.credSlot n
  !x.locked && x.ckind == c.ckind
    && (if c.ckind = 1 then secretOk x.verifier c.proof
        else c.ckind == 2 && Config.ecdsaOk x.verifier (s.counterDigest c) c.proof && x.counter < c.counter)
/-- A credential is accepted: a signed counter becomes the last one accepted. -/
def State.credAccepted (s : State) (n : Nat) (c : CredTry) : State :=
  let x := s.credSlot n
  s.setCredSlot n { x with refusals := 0, counter := if c.ckind = 2 then c.counter else x.counter }

/-! ### Group 0x02, session (R316, 13 R287, R289) -/

/-- The request data of a SESSION_OPEN: CKIND, slot, and the secret or the counter and the signature (15 Table 15.2). -/
def tryBytes (c : CredTry) : List Byte :=
  [c.ckind, c.slot] ++ (if c.ckind = 2 then leBytes c.counter.toNat 8 else []) ++ c.proof
/-- SESSION_OPEN. -/
def execSessionOpen (r : Req) (c : CredTry) (s : State) : Host.Outcome State Fault Refusal :=
  let k := r.sender.val
  let n := c.slot.toNat
  done s (s.serve r 0x0201 false (· == tryBytes c) (rangeBad (n < 64 && (c.ckind == 1 || c.ckind == 2))) fun _ _ s =>
    if k = 32 || (s.sender k).opened then ansNo stWrongMode 0 s
    else if n < 60 && s.credPasses n c then
      let t := (s.credSlot n).tenant
      let u := (s.credAccepted n c).modSender k fun x => { x with opened := true, tenant := t, cred := some n }
      ansOk { r0 := t.setWidth 32, r1 := w32 k } (u.event t 0 16 k 1 [w32 k, t.setWidth 32])
    else ansNo stAuthFailed 0 (s.credRefused k n (n < 60)))

/-- SESSION_CLOSE (13 Table 13.13): it starts as the first of its session's requests. The service session ends after it. -/
def execSessionClose (r : Req) (s : State) : Host.Outcome State Fault Refusal :=
  let k := r.sender.val
  done s (s.serveA r 0x0202 [] true fun _ _ s =>
    ansOk {} (if k = 32 then s.modSender k fun x => { x with closing := true } else s.closeSession k))

/-- Does slot `k` hold the window? -/
def State.holdsWin (s : State) (k : Nat) : Bool :=
  match s.host.win with
  | none => false
  | some w => w.val == k

/-- SESSION_INFO; the requests in progress are counted without this one. -/
def execSessionInfo (r : Req) (s : State) : Host.Outcome State Fault Refusal :=
  let k := r.sender.val
  done s (s.serveA r 0x0203 [] true fun t _ s =>
    let n := ((s.sender k).reqs.filter fun q => q.result.isNone).length
    ansOk { r0 := t.setWidth 32, r1 := w32 k, r2 := w32 (n - 1), r3 := w32 (flag (s.holdsWin k) 0) } s)

/-- WIN_TAKE (13 R287): a landlord session takes the window from a tenant session; every other holder makes it BUSY, a landlord
session that asks for the window it holds itself keeps it (DEDUCED, log entry 50). The service session, which has no slot to hold
it, finds it BUSY. -/
def State.winTake (s : State) (k : Fin 32) : Answer :=
  let give (s : State) : State :=
    (s.modSender k.val fun x => { x with winLost := false }).modHost fun h => { h with win := some k }
  match s.host.win with
  | none => ansOk { r0 := 0xFF } (give s)
  | some w =>
    if (s.sender k.val).tenant != 0 then ansNo stBusy 0 s
    else if w = k then ansOk { r0 := w32 k.val } (give s)
    else if (s.sender w.val).tenant != 0 then
      ansOk { r0 := w32 w.val } (give (s.modSender w.val fun x => { x with winLost := true }))
    else ansNo stBusy 0 s
def execWinTake (r : Req) (s : State) : Host.Outcome State Fault Refusal :=
  done s (s.serveA r 0x0204 [] true fun _ _ s =>
    if h : r.sender.val < 32 then s.winTake ⟨r.sender.val, h⟩ else ansNo stBusy 0 s)

/-- WIN_GIVE. -/
def execWinGive (r : Req) (s : State) : Host.Outcome State Fault Refusal :=
  done s (s.serveA r 0x0205 [] true fun _ _ s =>
    if s.holdsWin r.sender.val then ansOk {} (s.releaseWin r.sender.val) else ansNo stWrongMode 0 s)

/-- SESSION_LIST: four bytes for each open slot. -/
def execSessionList (r : Req) (s : State) : Host.Outcome State Fault Refusal :=
  done s (s.serveL r 0x0206 [] true fun _ s =>
    let l := (List.range 32).filter fun k => (s.sender k).opened
    ansOk { resp := l.flatMap fun k =>
      let x := s.sender k
      leBytes k 1 ++ leBytes (flag x.remote 0 + flag (s.holdsWin k) 1) 1 ++ leBytes x.tenant.toNat 2 } s)

end Sys2Proof.Machine
end

