-- ==== Sys2Proof/Machine/ReqAccess.lean ====
section
/-! DEFINITION. The mailbox commands of groups 0x0C and 0x0D, access control and time (14 R321). -/
namespace Sys2Proof.Machine

/-! ### Group 0x0C -/

/-- An entry of a record's door set is well formed: a door, a group of 0 to 255, or unused. -/
def doorEntryOk (e : BitVec 16) : Bool :=
  e == 0xFFFF || (if e.msb then e.toNat % 32768 < 256 else e.toNat < 2048)
/-- The fields of a record hold what Table 15.4 admits. -/
def credOk (c : Cred) : Bool :=
  (c.sched == 0xFFFF || c.sched.toNat < 1024) && c.doors.length == 4 && c.doors.all doorEntryOk

/-- May a record name this door set entry (R343)? -/
def State.entryOk (s : State) (t : Tenant) (e : BitVec 16) : Bool :=
  let ok (c : DoorCfg) : Bool := c.owner == t || c.shared
  if e == 0xFFFF then true
  else
    let l := if e.msb then s.cfg.doors.filter fun c => c.groups.contains (e.toNat % 32768)
      else s.cfg.doors.filter fun c => c.door == e.toNat
    !l.isEmpty && l.all ok

/-- The lowest number that a rising table does not list, from `n` on. -/
def freeIndex {α : Type} : Nat → Map α → Nat
  | n, [] => n
  | n, (j, _) :: m => if j = n then freeIndex (n + 1) m else n

/-- Is a tenant in the tenant table? The landlord always is. -/
def State.inTable (s : State) (t : Tenant) : Bool := t == 0 || s.cfg.tenants.any fun c => c.id == t

/-- The 64 bytes of a record (Table 15.4). -/
def credBytes (c : Cred) : List Byte :=
  leBytes c.cid.toNat 8 ++ leBytes c.tenant.toNat 2
  ++ leBytes (flag c.enabled 0 + flag c.exempt 1 + flag c.offline 2 + flag c.cardPin 3) 2 ++ leBytes c.fromT.toNat 4
  ++ leBytes c.untilT.toNat 4 ++ leBytes c.sched.toNat 2 ++ leBytes 0 2 ++ (padTo 0xFFFF 4 c.doors).flatMap (fun e => leBytes e.toNat 2)
  ++ leBytes c.floors.toNat 32

/-- ACC_CRED_ADD (15 R343). -/
def execAccCredAdd (r : Req) (c : Cred) (s : State) : Host.Outcome State Fault Refusal :=
  done s (s.serveA r 0x0C01 (credBytes c) (credOk c) fun t _ s =>
    if !reaches t c.tenant || !s.inTable c.tenant then ansNo stNotFound 0 s
    else match c.doors.findIdx? fun e => !s.entryOk c.tenant e with
      | some i => ansNo stNotFound i s
      | none =>
        if s.sec.records.any fun e => e.2.tenant == c.tenant && e.2.cid == c.cid then ansNo stInvalid 1 s
        else
          let i := freeIndex 0 s.sec.records
          if 2 ^ 20 ≤ i then ansNo stNoSpace 0 s
          else ansOk { r0 := w32 i } (s.modSec fun y => { y with records := sput y.records i c }).cacheChecks)

/-- The record at an index that a tenant sees. -/
def State.record? (s : State) (t : Tenant) (i : Nat) : Option Cred := (sfind s.sec.records i).filter fun c => reaches t c.tenant

/-- ACC_CRED_DEL. -/
def execAccCredDel (r : Req) (idx : Word) (s : State) : Host.Outcome State Fault Refusal :=
  done s (s.serveA r 0x0C02 (pack [(idx.toNat, 4)]) true fun t _ s =>
    match s.record? t idx.toNat with
    | none => ansNo stNotFound 0 s
    | some _ =>
      ansOk {} (s.modSec fun y => { y with
        records := sdel y.records idx.toNat, locs := sdel y.locs idx.toNat
        used := y.used.filter fun e => e.1 % 2 ^ 20 != idx.toNat }).cacheChecks)

/-- ACC_CRED_READ. -/
def execAccCredRead (r : Req) (idx : Word) (s : State) : Host.Outcome State Fault Refusal :=
  done s (s.serveA r 0x0C03 (pack [(idx.toNat, 4)]) true fun t _ s =>
    match s.record? t idx.toNat with
    | none => ansNo stNotFound 0 s
    | some c => ansOk { resp := credBytes c } s)

/-- A door that a tenant reaches: its own. -/
def State.doorFor (s : State) (t : Tenant) (d : Nat) : Option DoorCfg := (s.doorCfg? d).filter fun c => reaches t c.owner

/-- ACC_DOOR_CMD: a DECIDE of the command's own; 0 as its unlock time unlocks until a lock. -/
def execAccDoorCmd (r : Req) (door : BitVec 16) (action : Byte) (seconds : BitVec 16) (s : State) :
    Host.Outcome State Fault Refusal :=
  done s (s.serveA r 0x0C04 (pack [(door.toNat, 2), (action.toNat, 1), (seconds.toNat, 2)])
    (door.toNat < 2048 && action.toNat ≤ 2 && (action != 2 || (1 ≤ seconds.toNat && seconds.toNat ≤ 600))) fun t _ s =>
    match s.doorFor t door.toNat with
    | none => ansNo stNotFound 0 s
    | some c =>
      if !(s.port c.port).running || s.nodeState c.port c.addr != .present then ansNo stNoResponse 0 s
      else
        let time := if action = 2 then 10 * seconds.toNat else 0
        let u := s.sendSecure c.port c.addr (.decide (verdict 0 (action != 0) 0 time))
        let u := u.stepDoor c { u.door c.door with
          unlocked := action != 0, lockAt := if action = 2 then some (s.now + 1600 * time) else none }
        ansOk { r0 := w32 (u.doorCode c) } u)

/-- ACC_DOOR_STATUS. -/
def execAccDoorStatus (r : Req) (door : BitVec 16) (s : State) : Host.Outcome State Fault Refusal :=
  done s (s.serveA r 0x0C05 (pack [(door.toNat, 2)]) (door.toNat < 2048) fun t _ s =>
    match s.doorFor t door.toNat with
    | none => ansNo stNotFound 0 s
    | some c => ansOk { r0 := w32 (s.doorCode c), r1 := (s.door c.door).last } s)

/-- ACC_PASSBACK_RESET (15 R349). -/
def execAccPassbackReset (r : Req) (area : BitVec 16) (idx : Word) (s : State) : Host.Outcome State Fault Refusal :=
  done s (s.serveL r 0x0C06 (pack [(area.toNat, 2), (idx.toNat, 4)]) (area.toNat < 1024 && (idx == 0xFFFFFFFF || idx.toNat < 2 ^ 20)) fun _ s =>
    if idx != 0xFFFFFFFF && !shas s.sec.records idx.toNat then ansNo stNotFound 0 s
    else ansOk {} (s.modSec fun y => { y with
      locs := y.locs.filter fun e => !(e.2.1 == area.toNat && (idx == 0xFFFFFFFF || e.1 == idx.toNat)) }))

/-! ### Group 0x0D -/

/-- TIME_GET. -/
def execTimeGet (r : Req) (s : State) : Host.Outcome State Fault Refusal :=
  done s (s.serveA r 0x0D01 [] true fun _ _ s =>
    ansOk { r0 := lo32 s.utcNow, r1 := hi32 s.utcNow, r2 := w32 s.host.snap.stat } s)

/-- Does a valid mapping that the ring accepts wait within the same ms (16 Table 16.5; DEDUCED, log entry 65)? `left` is the
ticks that the ms still has. -/
def State.mappingAhead (s : State) : Nat → List Instr → Bool
  | _, [] => false
  | left, .tick _ :: l => match left with
    | 0 => false
    | n + 1 => s.mappingAhead n l
  | left, .trunkRxUtcMapping t f m :: l => (m.valid && s.trk.timePort.isSome && (s.takeFrame t f).1) || s.mappingAhead left l
  | left, _ :: l => s.mappingAhead left l

/-- TIME_SET (16 R362, R363): the offset applies in any case; ring time in use, or coming into use in the same ms, refuses the
time. -/
def execTimeSet (r : Req) (utcMs : BitVec 48) (offset : BitVec 16) (s : State) : Host.Outcome State Fault Refusal :=
  done s (s.serveL r 0x0D02 (pack [(utcMs.toNat, 6), (offset.toNat, 2)]) (utcMs.toNat < 3155760000000 && -1080 ≤ offset.toInt && offset.toInt ≤ 1080) fun _ s =>
    let s := s.setOffset offset.toInt
    if s.ringInUse || s.mappingAhead (15 - s.now % 16) s.pending then ansNo stWrongMode 0 s else ansOk {} (s.hostTime utcMs.toNat))

/-- RTC_TRIM (16 R359). -/
def execRtcTrim (r : Req) (add : Byte) (n : BitVec 16) (s : State) : Host.Outcome State Fault Refusal :=
  done s (s.serveL r 0x0D03 (pack [(add.toNat, 1), (n.toNat, 2)]) (add.toNat ≤ 1 && n.toNat ≤ 1023) fun _ s =>
    ansOk {} (s.modTime fun t => t.setTrim (add == 1) (n.setWidth 10)))

/-- The detail of a range of user bytes: 1 for one that goes beyond byte 63 (R312, step 3). -/
def userBad (first count : Byte) : Option Nat :=
  if 63 < first.toNat || count = 0 || 64 < count.toNat then some 0
  else if 64 < first.toNat + count.toNat then some 1 else none
/-- RTC_USER_READ. -/
def execRtcUserRead (r : Req) (first count : Byte) (s : State) : Host.Outcome State Fault Refusal :=
  done s (s.serve r 0x0D04 true (· == [first, count]) (userBad first count) fun _ _ s =>
    ansOk { resp := (List.range count.toNat).map fun i => userByte s.time (first.toNat + i) } s)

/-- RTC_USER_WRITE. -/
def execRtcUserWrite (r : Req) (first count : Byte) (bytes : List Byte) (s : State) : Host.Outcome State Fault Refusal :=
  done s (s.serve r 0x0D05 true (· == first :: count :: bytes) (userBad first count) fun _ _ s =>
    ansOk {} (s.modTime fun t => { t with
      user := sputs t.user (bytes.zipIdx.map fun e => (first.toNat + e.2, e.1)) }))

/-- RTC_SYS_READ (16 R355). -/
def execRtcSysRead (r : Req) (s : State) : Host.Outcome State Fault Refusal :=
  done s (s.serveL r 0x0D06 [] true fun _ s => ansOk { resp := s.sysBytes } s)

end Sys2Proof.Machine
end

