-- ==== Sys2Proof/Machine/LoadRules.lean ====
section
/-! DEFINITION. The rules that a configuration load and a logic download check (17 R376, R377): each is a number and whether
an image breaks it. -/
namespace Sys2Proof.Machine

/-! ### Tenants (02 R26) -/

/-- The landlord, or a tenant of the image's table. -/
def inTenants (l : List TenantCfg) (t : Tenant) : Bool := t == 0 || l.any fun c => c.id == t
/-- A tenant ID that a configured object may carry. -/
def mayCarry (l : List TenantCfg) (t : Tenant) : Bool := t == 0xFFF || inTenants l t

/-! ### Logic images (06 R121, R131; 07 R146) -/

/-- A task or a partition of a tenant outside the table. -/
def logicTenantBad (l : List TenantCfg) (i : LogicImage) : Bool :=
  i.tasks.any (fun (t : Task) => t.tenant == 0xFFF || !inTenants l t.tenant)
  || i.partitions.any fun (p : Partition) => p.tenant == 0xFFF || !inTenants l p.tenant
/-- Two partitions overlap, or belong to one tenant. -/
def partsBad : List Partition → Bool
  | [] => false
  | p :: l => (l.any fun (q : Partition) => q.tenant == p.tenant || (p.lo < q.hi && q.lo < p.hi)) || partsBad l
/-- R121: too many tasks, a task's numbers out of range, or partitions that overlap or leave variable memory. -/
def logicShapeBad (i : LogicImage) : Bool :=
  64 < i.tasks.length
  || i.tasks.any (fun (t : Task) => 64 ≤ t.no || 4 ≤ t.core || t.div = 0 || 255 < t.div || t.div ≤ t.phase)
  || partsBad i.partitions || i.partitions.any fun (p : Partition) => p.hi < p.lo || 262144 < p.hi
/-- R131: more than 16 KiB of retained variables. -/
def retainBad (i : LogicImage) : Bool := 4096 < i.retained.length
/-- R146: a spill stack outside its range or off its alignment. -/
def spillBad (i : LogicImage) : Bool :=
  i.tasks.any fun (t : Task) =>
    t.spillBase % 16 != 0 || t.spillLimit % 16 != 0 || t.spillBase < 0x800000 || 0xFFFFFF < t.spillLimit || t.spillLimit < t.spillBase
/-- A logic image breaks one of its rules. -/
def logicBad (l : List TenantCfg) (i : LogicImage) : Bool := logicTenantBad l i || logicShapeBad i || retainBad i || spillBad i

/-! ### Points (02 R20 to R24, R41) -/

/-- The tenants of what a point is bound to. -/
def bindTenants (g : Image) (d : Desc) : List Tenant :=
  let b := d.bref.toNat
  match d.bkind.toNat with
  | 2 => (g.chans.filter fun (c : ChanCfg) => c.ch == b % 64).map fun (c : ChanCfg) => c.tenant
  | 3 =>
    if b % 32 < 16 then (g.ains.filter fun (c : AinCfg) => c.k == b % 32).map fun (c : AinCfg) => c.tenant
    else (g.aouts.filter fun (c : AoutCfg) => c.k + 16 == b % 32).map fun (c : AoutCfg) => c.tenant
  | 4 => (g.loops.filter fun (c : LoopCfg) => c.slot == b % 8192 && c.die == b / 8192 % 8).map fun (c : LoopCfg) => c.tenant
  | 5 => match g.logic.find? fun e => e.1 == brefDie d.bref with
    | some (_, i) => (i.tasks.filter fun (t : Task) => t.no == brefTask d.bref).map fun (t : Task) => t.tenant
    | none => []
  | 6 => (g.circuits.filter fun (c : CircuitCfg) => c.k == b % 64).map fun (c : CircuitCfg) => c.tenant
  | 7 =>
    if field b 11 2 = 0 then (g.doors.filter fun (c : DoorCfg) => c.door == b % 2048).map fun (c : DoorCfg) => c.owner
    else (g.stations.filter fun (c : StationCfg) => c.station == b % 2048).map fun (c : StationCfg) => c.owner
  | 8 => (g.motions.filter fun (c : MotCfg) => c.m == b % 8).map fun (c : MotCfg) => c.tenant
  | _ => []

/-- R22: a reserved bit or binding kind, or bits of BREF outside its layout. The spec does not say whether BREF bits that a layout
leaves unnamed are reserved: of BKIND 1 ([15], [31:22]) and BKIND 4 ([31:16]) they must be 0, of BKIND 6 they are ignored
(DESIGN CHOICE, log entry 22). -/
def descBad (d : Desc) : Bool :=
  let b := d.bref.toNat
  d.reserved || 8 < d.bkind.toNat
  || match d.bkind.toNat with
    | 0 => b != 0
    | 1 => b / 2 ^ 15 % 2 != 0 || b / 2 ^ 22 != 0
    | 4 => b / 2 ^ 16 != 0
    | _ => false
/-- R23: a node channel out of range, a loop slot that is not there, or a target of another tenant. -/
def bindBad (nPorts : Nat) (g : Image) (d : Desc) : Bool :=
  let b := d.bref.toNat
  (d.bkind == 1 && (nPorts ≤ field b 8 7 || field b 0 8 = 0 || 250 < field b 0 8))
  || (d.bkind == 4 && (bindTenants g d).isEmpty)
  || (bindTenants g d).any fun t => t != d.tenant && t != 0
/-- R41: a logic variable or an access object that does not exist. -/
def refBad41 (g : Image) (d : Desc) : Bool :=
  let b := d.bref.toNat
  if d.bkind = 5 then
    (bindTenants g d).isEmpty || b / 2 ^ 27 != 0
    || (if d.ptype = 6 then
        match g.logic.find? fun e => e.1 == brefDie d.bref with
        | some (_, i) => (bindTenants g d).any fun t =>
            t != 0 && !i.partitions.any fun (p : Partition) => p.tenant == t && p.lo ≤ brefVar d.bref && brefVar d.bref < p.hi
        | none => true
      else brefVar d.bref != 0)
  else if d.bkind = 7 then
    (bindTenants g d).isEmpty || b / 2 ^ 13 != 0 || 1 < field b 11 2
  else false
/-- R189: a field binding that Table 09.1 does not have. -/
def fieldRefBad (g : Image) (d : Desc) : Bool :=
  let b := d.bref.toNat
  match d.bkind.toNat with
  | 2 => (d.ptype != 0 && d.ptype != 4) || 64 ≤ b
  | 3 => d.ptype != 2 || 24 ≤ b
  | 8 => d.ptype != 9 || field b 3 5 != 0 || b / 1024 != 0 || (bindTenants g d).isEmpty
  | _ => false
/-- R216: a metering binding without its circuit or quantity, or an alarm limit on an energy quantity. BREF [15] and [31:21] are
ignored (DESIGN CHOICE, log entry 22). -/
def meterRefBad (g : Image) (d : Desc) : Bool :=
  let b := d.bref.toNat
  let q := field b 8 7
  d.bkind == 6
  && ((bindTenants g d).isEmpty || !(q ≤ 0x0B || (0x10 ≤ q && q ≤ 0x15) || 0x42 ≤ q)
    || (0x10 ≤ q && q ≤ 0x15 && (d.almLo.en || d.almHi.en)))
/-- R215: a tenant's own point on a voltage or frequency quantity, which it reads through a landlord's SHR point only. -/
def meterVoltBad (d : Desc) : Bool :=
  d.bkind == 6 && d.tenant != 0 && [0x00, 0x01, 0x08, 0x0A].contains (field d.bref.toNat 8 7)
/-- R218: a phase that a single-phase circuit does not have, or its neutral. -/
def meterPhaseBad (g : Image) (d : Desc) : Bool :=
  let b := d.bref.toNat
  d.bkind == 6
  && g.circuits.any fun (c : CircuitCfg) =>
    c.k == b % 64 && !c.three && ((field b 6 2 != 0 && field b 6 2 != c.phase) || field b 8 7 == 9)

/-- A property of some point. -/
def anyPoint (g : Image) (p : Desc → Bool) : Bool := g.points.any fun e => p e.2

/-- A door's reader is on a door node, or it is a lift gateway's call station (15 R342). -/
def readerFits (g : Image) (c : DoorCfg) : Bool :=
  g.nodes.any (fun (n : NodeCfg) => n.port == c.port && n.addr == c.addr && n.cls == 5)
  || g.stations.any fun (x : StationCfg) => x.port == c.port && x.addr == c.addr && x.reader == c.reader

/-! ### Tenants in use (R26) -/

/-- Every tenant an image uses outside logic and loops. -/
def usedTenants (g : Image) : List Tenant :=
  g.points.map (fun e => e.2.tenant) ++ g.chans.map (fun (c : ChanCfg) => c.tenant) ++ g.ains.map (fun (c : AinCfg) => c.tenant)
  ++ g.aouts.map (fun (c : AoutCfg) => c.tenant) ++ g.motions.map (fun (c : MotCfg) => c.tenant)
  ++ g.circuits.map (fun (c : CircuitCfg) => c.tenant) ++ g.trends.map (fun (c : TrendCfg) => c.tenant)
  ++ g.wmks.map (fun (c : WmkCfg) => c.ten) ++ g.doors.map (fun (c : DoorCfg) => c.owner)
  ++ g.stations.map (fun (c : StationCfg) => c.owner)
  ++ g.stations.flatMap (fun (c : StationCfg) => c.admitted.map fun e => BitVec.ofNat 12 e.1)
  ++ g.escrows.map (fun (c : Escrow) => c.tenant)
/-- R26. The landlord takes one of the 256 entries, the one at index 0 (11 R238), so that every tenant of the table has an
index of eight bits (DEDUCED, assumption log entry 62). -/
def tenantsBad (g : Image) : Bool :=
  255 < (g.tenants.filter fun (c : TenantCfg) => c.id != 0).length || g.stations.any (fun (c : StationCfg) => c.admitted.any fun e => 4096 ≤ e.1) || g.tenants.any (fun (c : TenantCfg) => c.id == 0xFFF) || (usedTenants g).any (fun t => !mayCarry g.tenants t)
  || g.logic.any (fun e => logicTenantBad g.tenants e.2)
  || g.loops.any fun (c : LoopCfg) => c.tenant == 0xFFF || !inTenants g.tenants c.tenant

/-! ### Loops (08 R161, R166, R171, R173, R175, R178, R184) -/

def dieCfgs (g : Image) (d : Nat) : List LoopCfg := g.loops.filter fun (c : LoopCfg) => c.die == d
/-- A tenant sees a configured point. -/
def seesCfg (g : Image) (t : Tenant) (m : Nat) : Bool :=
  match sfind g.points m with
  | some d => sees t d
  | none => false
/-- A destination or mirror point belongs to the slot's tenant and is bound to the slot. -/
def destOk (g : Image) (c : LoopCfg) (m : Nat) : Bool :=
  match sfind g.points m with
  | some d => d.tenant == c.tenant && d.bkind == 4 && d.bref.toNat == c.slot + 8192 * c.die
  | none => false
/-- Another slot of the same die and tenant. -/
def peerOk (g : Image) (c : LoopCfg) (n : Nat) (outer : Bool) : Bool :=
  (dieCfgs g c.die).any fun (x : LoopCfg) => x.slot == n && x.slot != c.slot && x.tenant == c.tenant && (!outer || x.outer)
/-- R161: a source or destination that a slot may not have. -/
def loopEndsBad (g : Image) (c : LoopCfg) : Bool :=
  let loc := isLocal (dieCfgs g c.die) 3 c
  (match c.pv with
    | .cell m => !seesCfg g c.tenant m
    | .ain k => 16 ≤ k || (c.tenant != 0 && !g.ains.any fun (x : AinCfg) => x.k == k && x.tenant == c.tenant)
    | .slot n => !peerOk g c n false)
  || (match c.sp with
    | .cell m => !seesCfg g c.tenant m
    | .const => false
    | .outer n => !peerOk g c n true)
  || (match c.dst with
    | .cell m => loc || !destOk g c m
    | .aout k mirror => !loc || 8 ≤ k || (c.tenant != 0 && !g.aouts.any fun (x : AoutCfg) => x.k == k && x.tenant == c.tenant)
      || (match mirror with
        | some m => !destOk g c m
        | none => false)
    | .none => !c.outer)
/-- How many slots stand below a loop in its cascade. -/
def below (cfgs : List LoopCfg) : Nat → LoopCfg → Nat
  | 0, _ => 0
  | f + 1, c => match innerOf cfgs c.slot with
    | some i => 1 + below cfgs f i
    | none => 0
/-- R175: an outer loop shared by two slots, a cascade of more than three levels, or N out of range. -/
def cascadeBad (cfgs : List LoopCfg) (c : LoopCfg) : Bool :=
  1 < (cfgs.filter fun (x : LoopCfg) => x.sp == .outer c.slot).length || 2 < below cfgs 3 c || c.n = 0 || 256 < c.n
/-- R178's checks of a bank, the budget apart. -/
def bankBad (b : Bank) : Bool := nsecBad b || integBad b || limitsBad b
/-- The dies a member may have, for checks that go die by die. -/
def anyDie (p : Nat → Bool) : Bool := (List.range 8).any p

/-! ### Field I/O and metering (09 R189 to R206, 10 R213, R214) -/

/-- A driving point that a tenant's channel may not name. -/
def driverBad (g : Image) (t : Tenant) : Option Nat → Bool
  | none => false
  | some m => if t = 0 then (sfind g.points m).isNone else !seesCfg g t m
/-- R191: THR and HYST. -/
def thrBad (c : ChanCfg) : Bool := !c.out && (c.thr < 30 || 200 < c.thr || c.hyst < 5 || 30 < c.hyst || c.thr < c.hyst + 20)
/-- R203: a channel that an enabled motion channel owns has another use. -/
def motUseBad (g : Image) (c : ChanCfg) : Bool :=
  g.motions.any fun (x : MotCfg) =>
    ((c.ch == 48 + 2 * x.m || c.ch == 49 + 2 * x.m) && (c.driver.isSome || c.pulse))
    || ((c.ch == 32 + 2 * x.m || c.ch == 33 + 2 * x.m || (x.pulse && c.ch == x.m)) && c.out)
/-- R214: a circuit's numbers out of range, or an input in two circuits. -/
def circInputs (c : CircuitCfg) : List Nat := if c.three then [c.first, c.first + 1, c.first + 2] else [c.first]
def circuitBad (c : CircuitCfg) : Bool :=
  48 ≤ c.k || 2 ≤ c.set || (if c.three then 45 < c.first else 48 ≤ c.first || c.phase = 0 || 3 < c.phase)
/-- R214: a voltage set's or an input's entry out of range, or a circuit whose set or inputs have none. -/
def meterBad (g : Image) : Bool :=
  g.vsets.any (fun (c : VsetCfg) => 2 ≤ c.set) || g.minputs.any (fun (c : MInputCfg) => 54 ≤ c.input)
  || g.circuits.any fun (c : CircuitCfg) =>
    !g.vsets.any (fun (v : VsetCfg) => v.set == c.set)
    || (circuitInputs c).any fun i => !g.minputs.any fun (x : MInputCfg) => x.input == i
def circuitsShare : List CircuitCfg → Bool
  | [] => false
  | c :: l => (l.any fun (x : CircuitCfg) => x.k == c.k || (circInputs x).any fun i => (circInputs c).contains i) || circuitsShare l

/-! ### The rules, lowest number first -/

/-- Every rule that a load checks, rising, with whether the image breaks it. -/
def State.loadRules (s : State) (g : Image) : List (Nat × Bool) :=
  [ (5, g.logic.any (fun e => s.nDies ≤ e.1) || g.loops.any fun (c : LoopCfg) => s.nDies ≤ c.die),
    (6, g.ports.any (fun (c : PortCfg) => s.nPorts ≤ c.port) || g.nodes.any fun (c : NodeCfg) => s.nPorts ≤ c.port),
    (20, anyPoint g fun d => d.ptype == 4 && (d.almLo.en || d.almHi.en)),
    (21, anyPoint g fun d => 10 ≤ d.ptype.toNat),
    (22, anyPoint g descBad),
    (23, anyPoint g (bindBad s.nPorts g)),
    (24, g.points.any fun e => s.nPoints ≤ e.1),
    (26, tenantsBad g),
    (41, anyPoint g (refBad41 g)),
    (53, g.ports.any fun (c : PortCfg) => gclErrOf c.cycleMs c.gcl.length c.gcl != 0),
    (71, g.nodes.any fun (c : NodeCfg) => c.uid == 0 || c.uid == 0xFFFFFFFFFFFFFFFF),
    (75, g.nodes.any fun (c : NodeCfg) => c.addr = 0 || 250 < c.addr || c.plan.fbt = 0 || 600 < c.plan.fbt
      || !([1, 2, 4, 8, 16, 32, 64, 128].contains c.plan.every) || c.plan.every ≤ c.plan.phase),
    (94, g.moduleId == 0 || g.moduleId == 0xFF),
    (121, g.logic.any fun e => logicShapeBad e.2),
    (131, g.logic.any fun e => retainBad e.2),
    (146, g.logic.any fun e => spillBad e.2),
    (160, g.loops.any fun (c : LoopCfg) => 8192 ≤ c.slot),
    (161, g.loops.any (loopEndsBad g)),
    (166, g.loops.any fun (c : LoopCfg) => c.omax.toInt < c.omin.toInt),
    (171, g.loops.any fun (c : LoopCfg) => !c.outer && (c.div = 0 || 1048576 < c.div || c.div ≤ c.phase)),
    (173, anyDie fun d => 256 < localCount (dieCfgs g d)),
    (175, anyDie fun d => (dieCfgs g d).any (cascadeBad (dieCfgs g d))),
    (178, g.loops.any fun (c : LoopCfg) => bankBad c.bankA),
    (184, anyDie fun d => overBudget (loadOf (dieCfgs g d) fun (c : LoopCfg) => c.bankA.nsec.toNat)),
    (189, anyPoint g (fieldRefBad g) || g.chans.any (fun (c : ChanCfg) => driverBad g c.tenant c.driver)
      || g.aouts.any (fun (c : AoutCfg) => driverBad g c.tenant c.driver)
      || g.motions.any fun (c : MotCfg) => driverBad g c.tenant c.target),
    (191, g.chans.any thrBad),
    (192, g.chans.any fun (c : ChanCfg) => c.fsamp = 0 || 1000 < c.fsamp || c.ftop = 0 || 255 < c.ftop),
    (193, g.chans.any fun (c : ChanCfg) => c.pulse && 16 ≤ c.ch),
    (195, g.chans.any fun (c : ChanCfg) => 100 < c.retryT || (c.retry && c.retryT = 0)),
    (203, g.motions.any (fun (c : MotCfg) => 8 ≤ c.m || c.dt < 5 || 50 < c.dt) || g.chans.any (motUseBad g)),
    (205, g.motions.any fun (c : MotCfg) => c.moveTmo = 0 || 600 < c.moveTmo),
    (213, g.minputs.any fun (c : MInputCfg) => 2 < c.sensor || c.fc = 0 || 40 < c.fc),
    (214, g.circuits.any circuitBad || circuitsShare g.circuits || meterBad g),
    (215, anyPoint g meterVoltBad),
    (216, anyPoint g (meterRefBad g)),
    (218, anyPoint g (meterPhaseBad g)),
    (262, (s.hst.up && s.hst.total < sumNat (g.tenants.map fun (c : TenantCfg) => c.quota) + 64)
      || g.trends.any fun (c : TrendCfg) => !g.tenants.any fun (x : TenantCfg) => x.id == c.tenant && x.quota != 0),
    (263, g.trends.any fun (c : TrendCfg) => 524288 ≤ c.series || c.period = 0 || 86400 < c.period
      || g.points.any fun e => seriesOf e.2 == some c.series && e.2.tenant != c.tenant),
    (306, g.wmks.any fun (c : WmkCfg) => 16 ≤ c.slot),
    (342, g.doors.any fun (c : DoorCfg) => 2048 ≤ c.door || c.groups.any (256 ≤ ·) || c.unlockT = 0 || 6000 < c.unlockT
      || (c.shared && c.owner != 0) || !readerFits g c),
    (349, g.doors.any fun (c : DoorCfg) => 1023 < c.fromArea || 1023 < c.toArea || 1440 < c.forgive),
    (350, g.stations.any fun (c : StationCfg) => 256 ≤ c.station || c.validity = 0 || 255 < c.validity),
    (385, g.schedules.any fun (c : SchedCfg) => 1024 ≤ c.no) ]

/-- The lowest-numbered rule that an image breaks (R377). -/
def State.brokenRule (s : State) (g : Image) : Option Nat := ((s.loadRules g).find? fun e => e.2).map fun e => e.1

end Sys2Proof.Machine
end

