-- ==== Sys2Proof/Machine/ReqPorts.lean ====
section
/-! DEFINITION. The mailbox commands of groups 0x04 and 0x05, branch ports and trunk (14 R318). All are landlord commands. -/
namespace Sys2Proof.Machine

/-! ### Group 0x04 -/

/-- Serve a command of a port that this member has. -/
def State.servePort (s : State) (r : Req) (op : Nat) (data : List Byte) (p : Byte) (ranges : Bool) (f : Nat → State → Answer) : State :=
  s.serveL r op data ranges fun rlen s =>
    if s.nPorts ≤ p.toNat then ansNo stNotFound 0 s else f rlen s

/-- BR_ENABLE (03 R62). -/
def execBrEnable (r : Req) (port en mode : Byte) (s : State) : Host.Outcome State Fault Refusal :=
  let p := port.toNat
  done s (s.servePort r 0x0401 [port, en, mode] port (en.toNat ≤ 1 && mode.toNat ≤ 1) fun _ s =>
    let x := s.port p
    if x.en && en == 1 && x.mode != (mode == 1) then ansNo stWrongMode 0 s
    else ansOk {} (s.brCtrl p (en == 1) (mode == 1)))

/-- How many of a port's nodes are in a state. -/
def State.countNodes (s : State) (p : Nat) (st : Presence) : Nat := ((s.port p).nodes.filter fun e => e.2.state == st).length

/-- BR_STATUS. -/
def execBrStatus (r : Req) (port : Byte) (s : State) : Host.Outcome State Fault Refusal :=
  let p := port.toNat
  done s (s.servePort r 0x0402 [port] port true fun _ s =>
    ansOk (okWords (w32 (s.port p).status) (s.port p).cycnum (w32 (s.countNodes p .present)) (w32 (s.countNodes p .missing))
      (w32 (s.countNodes p .lost))) s)

/-- A bank from a list of entries. -/
def gclOf (l : List GclEntry) : Map GclEntry := l.zipIdx.map fun e => (e.2, e.1)

/-- Load the inactive bank of a port and request the swap (03 R69, R70). -/
def State.loadGcl (s : State) (p cycleMs : Nat) (l : List GclEntry) : State :=
  s.modPort p fun x =>
    (if x.active then { x with gclA := gclOf l, cycleA := cycleMs, entriesA := l.length }
      else { x with gclB := gclOf l, cycleB := cycleMs, entriesB := l.length }).requestSwap s.now

/-- The request data of a BR_SCHED_LOAD. -/
def schedData (port : Byte) (cycleMs : BitVec 16) (n : Byte) (gcl : List GclEntry) : List Byte :=
  pack [(port.toNat, 1), (cycleMs.toNat, 2), (n.toNat, 1)]
    ++ gcl.flatMap fun e => pack [(gclWord e false, 4), (gclWord e true, 4)]
/-- The detail that a code of Table 03.10 or 05.9 is, where it is one. -/
def errBad (e : Nat) : Option Nat := if e = 0 then none else some e

/-- BR_SCHED_LOAD: checked as R53 checks a swap, loaded, and complete at the swap. While a swap of the port is pending the request
does not start, since its row admits no BUSY (R314, R315; DEDUCED, log entry 31). -/
def execBrSchedLoad (r : Req) (port : Byte) (cycleMs : BitVec 16) (n : Byte) (gcl : List GclEntry) (s : State) :
    Host.Outcome State Fault Refusal :=
  let p := port.toNat
  if (s.port p).pending then done s s
  else done s (s.serve r 0x0403 true (· == schedData port cycleMs n gcl) (errBad (gclErrOf cycleMs.toNat n.toNat gcl)) fun _ _ s =>
    if s.nPorts ≤ p then ansNo stNotFound 0 s
    else ansWait ((s.loadGcl p cycleMs.toNat gcl).modPort p fun x => { x with swapReq := some r }))

/-- Words of a port's registers from an offset. -/
def State.brWords (s : State) (p a n : Nat) : List Word :=
  (List.range n).map fun i => w32 (s.brpRead (portDie p) (4096 * (p % 16) + a + 4 * i))

/-- BR_STATS. -/
def execBrStats (r : Req) (port clear : Byte) (s : State) : Host.Outcome State Fault Refusal :=
  let p := port.toNat
  done s (s.servePort r 0x0404 [port, clear] port (clear.toNat ≤ 1) fun _ s =>
    let l := s.brWords p 0x200 19 ++ s.brWords p 0x300 16
    ansOk { resp := wordBytes l } (if clear = 1 then s.modPort p fun x => { x with ctr := [], rxType := [] } else s))

/-- BR_TXTHR: clamped as BRP_TXTHR clamps (R312). -/
def execBrTxthr (r : Req) (port : Byte) (thr : BitVec 16) (s : State) : Host.Outcome State Fault Refusal :=
  let p := port.toNat
  done s (s.servePort r 0x0405 (pack [(port.toNat, 1), (thr.toNat, 2)]) port true fun _ s =>
    let v := clampNat 16 256 thr.toNat
    ansOk { r0 := w32 v } (s.modPort p fun x => { x with thr := v }))

/-- BR_DORMANCY (04 R86). -/
def execBrDormancy (r : Req) (port en : Byte) (start stop period : BitVec 16) (rcn : Byte) (s : State) :
    Host.Outcome State Fault Refusal :=
  let p := port.toNat
  done s (s.servePort r 0x0406 (pack [(port.toNat, 1), (en.toNat, 1), (start.toNat, 2), (stop.toNat, 2), (period.toNat, 2), (rcn.toNat, 1)]) port
    (en.toNat ≤ 1 && start.toNat < 1440 && stop.toNat < 1440 && 1000 ≤ period.toNat && period.toNat ≤ 60000
      && 1 ≤ rcn.toNat && rcn.toNat ≤ 64) fun _ s =>
    ansOk {} (s.modPort p fun x => { x with
      dormEn := en == 1, dormStart := start.toNat, dormStop := stop.toNat, period := period.toNat, rcn := rcn.toNat }))

/-- The state byte of a node in BR_NODES: unbound while no frame of it has been heard. -/
def presenceByte : Presence → Nat
  | .present => 0
  | .missing => 1
  | .lost => 2
  | .unseen => 3

/-- BR_NODES: the configured addresses of the port, rising. -/
def execBrNodes (r : Req) (port : Byte) (s : State) : Host.Outcome State Fault Refusal :=
  let p := port.toNat
  done s (s.servePort r 0x0407 [port] port true fun _ s =>
    let l := sortNat ((s.cfg.nodes.filter fun n => n.port == p).map (·.addr))
    ansOk { resp := l.flatMap fun a =>
      match s.nodeCfg? p a with
      | none => []
      | some n => leBytes a 1 ++ leBytes n.cls 1 ++ leBytes (presenceByte ((s.port p).node a).state) 1 ++ leBytes 0 1
          ++ leBytes n.uid.toNat 8 } s)

/-- Send a COMMAND to a node, with the next SEQ of its port (04 R83). -/
def State.sendCommand (s : State) (p a : Nat) (op : Byte) (args : List Byte) (r : Option Req) : State :=
  let q := (s.port p).cmdSeq + 1
  (s.modPort p fun x => { x with cmdSeq := q, cmds := sput x.cmds a { seq := q, op := op, args := args, sentAt := s.now, req := r } }).queueFrame
    p (BitVec.ofNat 8 a) (.command q op args)

/-- BR_NODE_CMD: one COMMAND at a time is outstanding at a node; the next request for it starts when that one has its answer, since
the row admits no BUSY (R314, R315; DEDUCED, log entry 31). -/
def execBrNodeCmd (r : Req) (node : BitVec 16) (op : Byte) (args : List Byte) (s : State) : Host.Outcome State Fault Refusal :=
  let p := node.toNat / 256
  let a := node.toNat % 256
  if shas (s.port p).cmds a then done s s
  else done s (s.serveL r 0x0408 (leBytes node.toNat 2 ++ op :: args) (1 ≤ a && a ≤ 250 && args.length ≤ 238) fun _ s =>
    if (s.nodeCfg? p a).isNone then ansNo stNotFound 0 s
    else ansWait (s.sendCommand p a op args (some r)))

/-- BR_CLAIM (04 R76). -/
def execBrClaim (r : Req) (port nslot : Byte) (slotbt : BitVec 16) (s : State) : Host.Outcome State Fault Refusal :=
  let p := port.toNat
  done s (s.servePort r 0x0409 (pack [(port.toNat, 1), (nslot.toNat, 1), (slotbt.toNat, 2)]) port (1 ≤ nslot.toNat && 800 ≤ slotbt.toNat && slotbt.toNat ≤ 10000) fun _ s =>
    if !(s.port p).running || (s.port p).dormant then ansNo stWrongMode 0 s
    else ansOk {} (s.sendClaim p nslot slotbt.toNat))

/-- BR_UNBOUND. -/
def execBrUnbound (r : Req) (port : Byte) (s : State) : Host.Outcome State Fault Refusal :=
  let p := port.toNat
  done s (s.servePort r 0x040A [port] port true fun _ s =>
    ansOk { resp := (s.port p).unbound.flatMap fun e => leBytes e.1.toNat 8 ++ [e.2] } s)

/-! ### Group 0x05 -/

/-- Serve a command of a trunk port, 0 A or 1 B. -/
def State.serveTrunk (s : State) (r : Req) (op : Nat) (data : List Byte) (p : Byte) (ranges : Bool) (f : TrunkPort → State → Answer) : State :=
  s.serveL r op data (p.toNat ≤ 1 && ranges) fun _ s => f (p == 1) s

/-- TRK_STATUS. -/
def execTrkStatus (r : Req) (port : Byte) (s : State) : Host.Outcome State Fault Refusal :=
  done s (s.serveTrunk r 0x0501 [port] port true fun t s =>
    ansOk (okWords (w32 (s.trkStatus t)) ((s.tport t).neigh.setWidth 32) (w32 s.trkTm) (lo32 (s.tport t).rxSfn)
      (hi32 (s.tport t).rxSfn)) s)

/-- TRK_ENABLE (05 R110). -/
def execTrkEnable (r : Req) (port : Byte) (v : BitVec 16) (s : State) : Host.Outcome State Fault Refusal :=
  done s (s.serveTrunk r 0x0502 (pack [(port.toNat, 1), (v.toNat, 2)]) port true fun t s =>
    let x := s.tport t
    if x.en && v.getLsbD 0 && x.mode != v.getLsbD 1 then ansNo stWrongMode 0 s
    else ansOk {} (s.trkCtrl t (v.setWidth 32)))

/-- Load the inactive bank of a trunk port and request the swap. -/
def State.loadTrkGcl (s : State) (t : TrunkPort) (l : List TrkEntry) : State :=
  let m : Map TrkEntry := l.zipIdx.map fun e => (e.2, e.1)
  s.modTport t fun x =>
    (if x.active then { x with gclA := m, nA := l.length } else { x with gclB := m, nB := l.length }).requestSwap s.now

/-- The request data of a TRK_SCHED_LOAD. -/
def trkSchedData (port : Byte) (n : BitVec 16) (gcl : List TrkEntry) : List Byte :=
  pack [(port.toNat, 1), (n.toNat, 2)] ++ gcl.flatMap fun e => pack [(trkGclWord e false, 4), (trkGclWord e true, 4)]

/-- TRK_SCHED_LOAD, as BR_SCHED_LOAD. -/
def execTrkSchedLoad (r : Req) (port : Byte) (n : BitVec 16) (gcl : List TrkEntry) (s : State) : Host.Outcome State Fault Refusal :=
  let t : TrunkPort := port == 1
  if port.toNat ≤ 1 && (s.tport t).pending then done s s
  else done s (s.serve r 0x0503 true (· == trkSchedData port n gcl)
    (if 1 < port.toNat then some 0 else errBad (trkGclErr n.toNat gcl)) fun _ _ s =>
      ansWait ((s.loadTrkGcl t gcl).modTport t fun x => { x with swapReq := some r }))

/-- TRK_STATS. -/
def execTrkStats (r : Req) (port clear : Byte) (s : State) : Host.Outcome State Fault Refusal :=
  done s (s.serveTrunk r 0x0504 [port, clear] port (clear.toNat ≤ 1) fun t s =>
    let w (a n : Nat) : List Word := (List.range n).map fun i => w32 (s.trkReg t (a + 4 * i))
    ansOk { resp := wordBytes (w 0x200 24 ++ w 0x300 8) }
      (if clear = 1 then s.modTport t fun x => { x with ctr := [], rxClass := [] } else s))

/-- TRK_TXTHR: clamped as the register clamps. -/
def execTrkTxthr (r : Req) (port : Byte) (thr : BitVec 16) (s : State) : Host.Outcome State Fault Refusal :=
  done s (s.serveTrunk r 0x0505 (pack [(port.toNat, 1), (thr.toNat, 2)]) port true fun t s =>
    let v := clampNat 256 9236 thr.toNat
    ansOk { r0 := w32 v } (s.modTport t fun x => { x with thr := v }))

/-- The stations met from port A on, each by its neighbour on the far side of the one before it. -/
def ringFrom (m : Map Topology) (own prev : Byte) : Nat → Byte → List Topology
  | 0, _ => []
  | f + 1, at_ =>
    if at_ == 255 || at_ == own then []
    else match sfind m at_.toNat with
      | none => []
      | some t => t :: ringFrom m own at_ f (if t.neighA == prev then t.neighB else t.neighA)

/-- TRK_RING_MAP: the other stations of the ring map, in the order in which port A reaches them. -/
def execTrkRingMap (r : Req) (s : State) : Host.Outcome State Fault Refusal :=
  done s (s.serveL r 0x0506 [] true fun _ s =>
    let l := ringFrom s.trk.ringMap s.ownId s.ownId 255 s.trk.a.neigh
    ansOk { r0 := s.trk.topoSeq, resp := l.flatMap fun t =>
      [t.id] ++ leBytes (flag t.wrapped 0 + flag t.relay 1 + flag t.dupId 2) 1 ++ leBytes 0 2 } s)

/-- TRK_PRIO. -/
def execTrkPrio (r : Req) (prio : Byte) (s : State) : Host.Outcome State Fault Refusal :=
  done s (s.serveL r 0x0507 [prio] true fun _ s => ansOk {} (s.modTrk fun k => { k with prio := prio }))

end Sys2Proof.Machine
end

