-- ==== Sys2Proof/Machine/Load.lean ====
section
/-! DEFINITION. What a configuration load does to every block (17 R376, R377; 02 R18, R32, R35; 03 R70; 05 R114; 06 R129; 08 R176;
09 R200, R209; 10 Table 10.12; 12 R262; 13 R306; 15 R330, R341). -/
namespace Sys2Proof.Machine

/-! ### Points -/

/-- A point keeps its cell, and its stale timing, through a load (02 R18, R35). -/
def keepsTiming (a b : Desc) : Bool := a.ptype == b.ptype && a.tenant == b.tenant && a.bkind == b.bkind && a.bref == b.bref
def keepsCell (a b : Desc) : Bool := keepsTiming a b && a.exp == b.exp
/-- The cell a configured point starts with. -/
def firstCell (d : Desc) : Cell := { value := if d.fbk then d.fallback else 0 }

/-- The descriptors of an image take effect (R18). -/
def State.loadPoints (s : State) (l : List (Nat × Desc)) : State :=
  let p := s.pnt
  let new : Map Desc := sputs [] l
  let old (k : Desc → Desc → Bool) (m : Nat) : Bool := match sfind p.descs m, sfind new m with
    | some a, some b => k a b
    | _, _ => false
  { s with pnt := { p with
      descs := new
      cells := new.map fun e => (e.1, if old keepsCell e.1 then sget {} p.cells e.1 else firstCell e.2)
      chref := p.chref.filter fun e => old keepsCell e.1
      shadows := p.shadows.filter fun e => old keepsCell e.1
      lastSrc := new.map fun e => (e.1, if old keepsTiming e.1 then sget s.now p.lastSrc e.1 else s.now) } }

/-- A force whose point is removed or changes its tenant or binding is discarded, with event 5/0x0001; the others are placed
again (R32). -/
def State.loadForces (s : State) : State :=
  let keep (e : Nat × Force) : Bool := match s.desc? e.1 with
    | some d => d.tenant == e.2.tenant && d.bkind == e.2.bkind && d.bref == e.2.bref
    | none => false
  let l := s.pnt.forces
  let s := s.modPnt fun p => { p with forces := l.filter keep }
  let s := (l.filter fun e => !keep e).foldl (fun s e => s.event e.2.tenant (mpnDie e.1) 5 0 1 [w32 e.1]) s
  (l.filter keep).foldl (fun s e => s.placeForce e.1 e.2.value) s

/-! ### Branch ports (03 R70) -/

/-- The slot plan of a port's nodes: address and plan. -/
def planOf (l : List NodeCfg) (p : Nat) : List (Nat × Plan) :=
  (l.filter fun (n : NodeCfg) => n.port == p).map fun (n : NodeCfg) => (n.addr, n.plan)

/-- The schedule of one configured port; a node that the image binds is no longer unbound (04 R77). The slots of address 0
change at the load, before the swap that the load requests is taken (DESIGN CHOICE, log entry 33). -/
def State.loadPort (g : Image) (s : State) (c : PortCfg) : State :=
  let x := s.port c.port
  let bound := fun (u : Uid) => g.nodes.any fun (n : NodeCfg) => n.port == c.port && n.uid == u
  let y := { x with slots0 := c.slots0, unbound := x.unbound.filter fun e => !bound e.1 }
  if !x.running then
    s.setPort c.port { y with
      gclA := gclOf c.gcl, cycleA := c.cycleMs, entriesA := c.gcl.length, cycleEff := c.cycleMs, entriesEff := c.gcl.length
      active := false, pending := false }
  else if gclList x.gcl x.entries = c.gcl && x.cycleMs = c.cycleMs && !x.pending then s.setPort c.port y
  else
    (s.setPort c.port { y with
      pending := false, planMoved := x.planMoved || planOf s.cfg.nodes c.port != planOf g.nodes c.port }).loadGcl c.port c.cycleMs c.gcl

/-- The controller's records of a port's addresses: an address bound to another node, or to none, starts anew. -/
def loadNodes (old new : List NodeCfg) (p : Nat) (m : Map CtlNode) : Map CtlNode :=
  m.filter fun e =>
    match new.find? fun (c : NodeCfg) => c.port == p && c.addr == e.1 with
    | none => false
    | some c => !old.any fun (o : NodeCfg) => o.port == p && o.addr == e.1 && o.uid != c.uid

/-- A waiting request of an object that a load replaces completes with BUSY (DESIGN CHOICE). -/
def State.dropWait (s : State) (r : Option Req) : State := s.finish? r (refusal stBusy 1)

/-- All ports: their records of nodes, and their schedules; a port no longer configured is disabled. -/
def State.loadPorts (s : State) (g : Image) : State :=
  let old := s.cfg.nodes
  let s := s.ports.foldl (fun s e => s.dropWait e.2.swapReq) s
  let s := { s with ports := smap s.ports fun p x => { x with swapReq := none, nodes := loadNodes old g.nodes p x.nodes } }
  let gone := s.ports.filter fun e => e.2.en && !g.ports.any fun (c : PortCfg) => c.port == e.1
  g.ports.foldl (State.loadPort g) (gone.foldl (fun s e => s.brCtrl e.1 false e.2.mode) s)

/-! ### Logic (06 Table 06.1) -/

/-- One die's image: an unchanged one runs on; a changed one stops the die, and its start mode is to be applied. -/
def State.loadLogic (s : State) (g : Image) (d : Nat) : State :=
  let new := (g.logic.find? fun e => e.1 == d).map fun e => e.2
  if (s.die d).image = new then s
  else
    let reqs := (s.die d).queue.filterMap fun o => match o with
      | .var _ _ r => r
      | .const _ _ r => r
    let s := s.modDie d fun x => { x with queue := [] }
    let s := if (s.die d).mode == .stop then s else (s.discardScan d).toStop d 0 false
    let s := s.modDie d fun x => { x with
      image := new, vars := [], started := false, inScan := false, fault := false
      consts := match new with
        | some i => i.consts
        | none => [] }
    s.finishAll (refusal stBusy 1) reqs

/-! ### Loops (08 R176, Table 08.8) -/

/-- A slot as its configuration starts it: states 0, sample count 0. -/
def startSlot (c : LoopCfg) (gen : Word) : LoopSlot :=
  { cfg := some c, spc := c.spc, omin := c.omin, omax := c.omax, rate := c.rate, bankA := c.bankA, bankB := c.bankB, gen := gen }
/-- A test that runs ends with RESULT 0b011. -/
def TestUnit.endByLoad (u : TestUnit) : TestUnit :=
  if u.active then
    { u with active := false, injOn := false, capOn := false, starting := false, stopping := false, done := true, result := 3 }
  else u
/-- All slots start anew, and tests end. -/
def State.loadLoops (s : State) (l : List LoopCfg) : State :=
  let s := s.loops.foldl (fun s e => s.dropWait e.2.swapReq) s
  { s with
    loops := sputs [] (l.map fun (c : LoopCfg) => (8192 * c.die + c.slot, startSlot c (s.loop c.die c.slot).gen))
    loopDies := smap s.loopDies fun _ x => { x with units := smap x.units fun _ u => u.endByLoad } }

/-! ### Field I/O (09 R199, R200, Table 09.6) -/

/-- A motion channel's configuration is not the one it had: it loses HOMED and its learned coasts (R207). -/
def motChanged (old new : List MotCfg) (m : Nat) : Bool :=
  (old.find? fun (c : MotCfg) => c.m == m) != new.find? fun (c : MotCfg) => c.m == m
/-- The legs of every channel go off, and no move waits. -/
def State.stopMoves (s : State) : State := (List.range 8).foldl (fun s m => s.motStop m) s
/-- Channels that become a motion pair go off for good as outputs of their own, and the pair starts anew with DT running (R203). -/
def State.newPair (s : State) (old : Image) (m : Nat) : State :=
  if (s.motCfg? m).isSome && !old.motions.any fun (c : MotCfg) => c.m == m then
    let on := (s.chan (legCh m false)).on || (s.chan (legCh m true)).on
    ((s.quitChan (legCh m false)).quitChan (legCh m true)).setMot m { dtPend := on }
  else s
/-- An output of the old configuration that the new one has not as one goes off. -/
def State.quitOuts (s : State) (old : Image) : State :=
  (old.chans.filter fun (c : ChanCfg) => c.out && !s.isOut c.ch).foldl (fun s (c : ChanCfg) => s.quitChan c.ch) s
/-- A channel's filter under its new limits: the timer of an input runs where the integrator is not at rest (R192). -/
def State.refilter (s : State) (c : Nat) (x : ChanSt) : ChanSt :=
  let n := min x.integ (s.ccfg c).ftop
  { x with
    integ := n
    sampling := !s.isOut c && !s.isPulse c && (if x.raw then n != (s.ccfg c).ftop else n != 0) }
/-- Filters are held to their new limits, targets taken as they stand; over a link that is not lost the configuration is sent. -/
def State.takeField (s : State) (old : Image) : State :=
  let s := (List.range 8).foldl (fun s m => s.newPair old m) (s.quitOuts old)
  s.modFio fun f => { f with
    linkUp := !f.lost, unsent := true
    mots := smap f.mots fun m x => if motChanged old.motions s.cfg.motions m then { x.resetCoast with homed := false } else x
    chans := smap f.chans s.refilter
    targets := sputs [] (s.cfg.motions.map fun (c : MotCfg) => (c.m, s.driven c.target)) }
/-- The controller gets its configuration, then RELEASE; both wait where its link is lost (R199, R200). -/
def State.loadField (s : State) (old : Image) : State :=
  let s := s.stopMoves.takeField old
  if s.fio.linkUp then s.sendCfg.fioRelease else s

/-! ### Metering -/

def sameCircuit (a b : CircuitCfg) : Bool :=
  a.tenant == b.tenant && a.three == b.three && a.set == b.set && a.phase == b.phase && a.first == b.first
/-- Totals of circuits kept unchanged are carried over; others are discarded with event 9/0x0004. At the first load of a start
the totals from MRAM are those of the circuits that the image configures. -/
def State.loadMeter (s : State) (old : Image) : State :=
  let keep (k : Nat) : Bool :=
    match s.circuitCfg? k, old.circuits.find? fun (c : CircuitCfg) => c.k == k with
    | none, _ => false
    | some _, none => true
    | some c, some o => sameCircuit o c
  let gone := s.mtr.circuits.filter fun e => !keep e.1
  let s := s.modMtr fun m => { m with circuits := m.circuits.filter fun e => keep e.1 }
  gone.foldl (fun s e => s.event (match old.circuits.find? fun (c : CircuitCfg) => c.k == e.1 with
    | some c => c.tenant
    | none => 0) 0 9 0 4 [w32 e.1]) s

/-! ### Host port, security, access -/

/-- The watermark slots (13 R306); a slot the image does not name is off. -/
def State.loadWmk (s : State) (n : Nat) : State :=
  match s.cfg.wmks.find? fun (c : WmkCfg) => c.slot == n with
  | none => s.wmkCfgW n false (s.wmk n).pol
  | some c =>
    let w := s.wmk n
    (s.setWmk n { w with thr := c.thr, hyst := c.hyst, ten := if 12 ≤ n then c.ten else w.ten }).wmkCfgW n c.en w.pol

/-- The tenants that have no integrity key yet get one of generation 0 (15 R338). -/
def State.integKeys (s : State) : State :=
  s.tenantTable.foldl (fun s (t : Tenant) => if shas s.sec.integGen t.toNat then s
    else (s.newKey (.integ t.toNat 0)).modSec fun x => { x with integGen := sput x.integGen t.toNat 0 }) s
/-- A session key that the installer has given a node, where it is not the one last taken, becomes the node's of generation 0. -/
def CtlNode.install (n : CtlNode) (k : BitVec 256) : CtlNode :=
  if n.installed = some k then n else { n with
    key := some k, installed := some k, prevKey := none, kgen := 0, prevOk := false, ctrIn := 0, ctrOut := 0, rekIn := false
    rekOut := false }
def State.nodeKeys (s : State) : State :=
  s.cfg.nodes.foldl (fun s (c : NodeCfg) => match c.secured, c.key with
    | true, some k => s.modNode c.port c.addr fun n => n.install k
    | _, _ => s) s

/-- Project key hashes, doors and stations. -/
def State.loadSecurity (s : State) : State :=
  s.modSec fun y => { y with
    keyHashes := match s.cfg.keyHashes with
      | some l => l.take 8
      | none => y.keyHashes
    doors := y.doors.filter fun e => (s.doorCfg? e.1).isSome
    stations := y.stations.filter fun e => (s.stationCfg? e.1).isSome
    accShown := y.accShown.filter fun e =>
      if e.1 < 2048 then (s.doorCfg? e.1).isSome else (s.stationCfg? (e.1 - 2048)).isSome }

/-- The access objects under the new configuration: one that had no ACC value takes it with no write, since nothing has changed
yet (02 R18); one whose value the load changes is shown (02 R38). -/
def State.meetAcc (s : State) (kind n v : Nat) (bad : Bool) : State :=
  if shas s.sec.accShown (n + 2048 * kind) then s.showAcc kind n v bad else s.takeAcc kind n v
/-- The access points and the offline caches under the new configuration. -/
def State.loadAccess (s : State) : State :=
  let s := s.cfg.doors.foldl (fun s (c : DoorCfg) => s.meetAcc 0 c.door (s.doorCode c) (s.doorCode c == 6)) s
  (s.cfg.stations.foldl (fun s (c : StationCfg) => s.meetAcc 1 c.station (s.stationCode c) false) s).cacheChecks

/-! ### The load -/

/-- No other station is known by a module ID: none on the ring map, and not the ID whose duplicate was met (05 R114). -/
def State.idUnique (s : State) (id : Byte) : Bool :=
  s.trk.ringMap.all (fun e => e.2.id != id || e.2.serial == s.host.serial) && !(s.trk.dupId && id == s.cfg.moduleId)
/-- The module takes its ID: relay-only mode ends with a unique one, and a master by another ID than this is none. -/
def State.takeId (s : State) (unique : Bool) : State :=
  (s.modTrk fun t => { t with
    relayOnly := t.relayOnly && !unique, dupId := t.dupId && !unique
    tmValid := t.tmValid && (t.tmHops != 0 || t.tmId == s.ownId) }).topoBroadcast

/-- An accepted image takes effect: every block is configured, and the module takes its module ID (05 R114, 17 R372). -/
def State.applyImage (s : State) (g : Image) : State :=
  let old := s.cfg
  let unique := s.idUnique g.moduleId
  let s := (s.loadPorts g).loadLoops g.loops
  let s := s.dies.foldl (fun s d => s.loadLogic g d) s
  let s := { s with cfg := g }
  let s := (s.loadPoints g.points).loadForces
  let s := ((s.loadField old).loadMeter old).loadSecurity.integKeys.nodeKeys
  let s := (List.range 16).foldl State.loadWmk s
  let s := (s.modHost fun h => { h with cfgOk := true }).modHst fun h => { h with mirror := g.mirror, rebuilt := false }
  (s.takeId unique).keysStart.loadAccess

/-! ### Copies (17 R376) -/

/-- A configuration copy: false is A. -/
def State.copy (s : State) (b : Bool) : CfgCopy := if b then s.su.copyB else s.su.copyA
def State.setCopy (s : State) (b : Bool) (c : CfgCopy) : State :=
  s.modSu fun u => if b then { u with copyB := c } else { u with copyA := c }
/-- A copy can be decrypted and its digest passes, which takes the KEK. -/
def State.copyGood (s : State) (b : Bool) : Bool := (s.copy b).good && s.sec.vault == .provisioned
/-- A copy is valid: its signer's key is still installed too (15 R330). -/
def State.copyValid (s : State) (b : Bool) : Bool := s.copyGood b && s.sec.keyHashes.contains (s.copy b).signer
/-- A signature's refusal is counted and recorded (15 R330). -/
def State.sigRefused (s : State) : State :=
  (s.modSec fun x => { x with sigFail := addW x.sigFail 1 }).event 0 0 13 0 2 []
/-- The copies whose signer is no longer installed are refused at a load. -/
def State.refuseCopies (s : State) : State :=
  [false, true].foldl (fun t b => if s.copyGood b && !s.copyValid b then t.sigRefused else t) s

/-- The valid copies, the one with the later SEQ first; A where they are equal or 2^31 apart. -/
def State.copies (s : State) : List Bool :=
  match s.copyValid false, s.copyValid true with
  | true, true => if serialLt (s.copy false).seq (s.copy true).seq then [true, false] else [false, true]
  | true, false => [false]
  | false, true => [true]
  | false, false => []

/-- Load a copy: the configuration is in use, the power waves begin. -/
def State.loadCopy (s : State) (b : Bool) : State :=
  let c := s.copy b
  let s := s.applyImage c.img
  let s := s.modSu fun u => { u with inUse := some b, loading := false, phase := .running, loadTick := s.now, waves := 0 }
  s.event 0 0 15 0 4 [c.seq]

end Sys2Proof.Machine
end

