-- ==== Sys2Proof/Machine/ReqLogic.lean ====
section
/-! DEFINITION. The mailbox commands of groups 0x06 and 0x07, logic and loops (14 R319); LOGIC_DOWNLOAD stands with the
configuration images. -/
namespace Sys2Proof.Machine

/-! ### Group 0x06 -/

/-- The dies a mask selects, and the first of them that this member lacks. -/
def maskDies (m : Byte) : List Nat := (List.range 8).filter fun d => m.getLsbD d
def State.lacking (s : State) (m : Byte) : Option Nat := (maskDies m).find? fun d => s.nDies ≤ d

/-- Run a mode command on each die: the status of the lowest refusing die, the mask of refusing dies, and the state. -/
def modeEach (f : State → Nat → BitVec 16 × State) : List Nat → State → BitVec 16 × Nat × State
  | [], s => (stOk, 0, s)
  | d :: l, s =>
    let (st, s) := f s d
    let (st', m, s) := modeEach f l s
    (if st = stOk then st' else st, m + (if st = stOk then 0 else 2 ^ d), s)

/-- The result of a mode command. -/
def modeAns (x : BitVec 16 × Nat × State) : Answer := if x.1 = stOk then ansOk {} x.2.2 else ansNo x.1 x.2.1 x.2.2

/-- Serve a mode command; an empty mask names no die. -/
def State.serveMode (s : State) (r : Req) (op : Nat) (data : List Byte) (m : Byte) (ranges : Bool) (f : State → Answer) : State :=
  s.serveL r op data (m != 0 && ranges) fun _ s =>
    match s.lacking m with
    | some d => ansNo stNotFound d s
    | none => f s

/-- LOGIC_STATUS. -/
def execLogicStatus (r : Req) (die : Byte) (s : State) : Host.Outcome State Fault Refusal :=
  done s (s.serveL r 0x0601 [die] (dieArg die) fun _ s =>
    if s.nDies ≤ die.toNat then ansNo stNotFound 0 s
    else
      let g := s.die die.toNat
      ansOk (okWords (w32 (s.lscMode die.toNat)) g.seq g.scanLast g.skips g.resumeSeq) s)

/-- LOGIC_RUN. -/
def execLogicRun (r : Req) (mask warm : Byte) (s : State) : Host.Outcome State Fault Refusal :=
  done s (s.serveMode r 0x0602 [mask, warm] mask (warm.toNat ≤ 1) fun s =>
    modeAns (modeEach (fun s d => s.logicRun d (warm == 1)) (maskDies mask) s))

/-- LOGIC_STOP: it completes when every die that accepted it is in STOP (06 R130). -/
def execLogicStop (r : Req) (mask : Byte) (s : State) : Host.Outcome State Fault Refusal :=
  done s (s.serveMode r 0x0603 [mask] mask true fun s =>
    let x := modeEach State.logicStop (maskDies mask) s
    let wait := (maskDies mask).filter fun d => !x.2.1.testBit d && (x.2.2.die d).pend
    if wait.isEmpty then modeAns x
    else ansWait (wait.foldl (fun u d => u.modDie d fun g => { g with
      stopReqs := g.stopReqs ++ [(r, BitVec.ofNat 8 x.2.1)] }) x.2.2))

/-- LOGIC_HOLD: it completes when every die that accepted it is in HOLD, after the handlers in progress (07 R159). -/
def execLogicHold (r : Req) (mask : Byte) (s : State) : Host.Outcome State Fault Refusal :=
  done s (s.serveMode r 0x0604 [mask] mask true fun s =>
    let x := modeEach State.logicHold (maskDies mask) s
    let wait := (maskDies mask).filter fun d => !x.2.1.testBit d && (x.2.2.die d).holding.isSome
    if wait.isEmpty then modeAns x
    else ansWait (wait.foldl (fun u d => u.modDie d fun g => { g with
      holdReqs := g.holdReqs ++ [(r, BitVec.ofNat 8 x.2.1)] }) x.2.2))
/-- LOGIC_RESUME. -/
def execLogicResume (r : Req) (mask : Byte) (s : State) : Host.Outcome State Fault Refusal :=
  done s (s.serveMode r 0x0606 [mask] mask true fun s => modeAns (modeEach State.logicResume (maskDies mask) s))

/-- LOGIC_STEP: it completes when the step ends. -/
def execLogicStep (r : Req) (die core : Byte) (s : State) : Host.Outcome State Fault Refusal :=
  done s (s.serveL r 0x0605 [die, core] (dieArg die && core.toNat < 4) fun _ s =>
    if s.nDies ≤ die.toNat then ansNo stNotFound 0 s
    else
      let (st, u) := s.logicStep die.toNat core.toNat (some r)
      if st = stOk then ansWait u else ansNo st 0 u)

/-- LOGIC_TASKS: status word and duration of each visible task, by number. -/
def execLogicTasks (r : Req) (die : Byte) (s : State) : Host.Outcome State Fault Refusal :=
  done s (s.serveA r 0x0608 [die] (dieArg die) fun t _ s =>
    if s.nDies ≤ die.toNat then ansNo stNotFound 0 s
    else
      let g := s.die die.toNat
      let l := (List.range 64).filter fun n => (g.task? n).any fun k => reaches t k.tenant
      ansOk { resp := l.flatMap fun n => leBytes (g.taskWord n) 4 ++ leBytes (sget 0 g.taskUs n).toNat 4 } s)

/-- Serve a command on a task of a die that the session sees; `f` gets the die's image and the task. -/
def State.serveTask (s : State) (r : Req) (op : Nat) (data : List Byte) (die task : Byte) (ranges : Bool)
    (f : LogicImage → Task → State → Answer) : State :=
  s.serveA r op data (dieArg die && task.toNat < 64 && ranges) fun t _ s =>
    if s.nDies ≤ die.toNat then ansNo stNotFound 0 s
    else
      let g := s.die die.toNat
      match g.image, g.task? task.toNat with
      | some i, some k => if reaches t k.tenant then f i k s else ansNo stNotFound 0 s
      | _, _ => ansNo stNotFound 0 s

/-- LOGIC_READ_VAR: committed values of words that the task's tenant reaches. -/
def execLogicReadVar (r : Req) (die task : Byte) (addr : V24) (count : BitVec 16) (s : State) : Host.Outcome State Fault Refusal :=
  let a := addr.toNat
  let n := count.toNat
  done s (s.serveTask r 0x0609 (pack [(die.toNat, 1), (task.toNat, 1), (addr.toNat, 3), (count.toNat, 2)]) die task (1 ≤ n && n ≤ 1024 && a + n ≤ 262144) fun i k s =>
    if (List.range n).all fun j => imgReach i k.tenant (a + j) then
      ansOk { resp := wordBytes ((List.range n).map fun j => w32 (vW (sget 0 (s.die die.toNat).vars (a + j)))) } s
    else ansNo stNotFound 0 s)

/-- An online change (06 R135): at once in STOP, queued otherwise. -/
def State.onlineReq (s : State) (d : Nat) (c : Option Req → Online) (r : Req) : Answer :=
  let g := s.die d
  if g.mode == .stop then ansOk {} (s.applyOnline d (c none))
  else if 256 ≤ g.queue.length then ansNo stBusy 0 s
  else ansWait (s.setDie d { g with queue := g.queue ++ [c (some r)] })

/-- LOGIC_WRITE_VAR. -/
def execLogicWriteVar (r : Req) (die task : Byte) (addr v : V24) (s : State) : Host.Outcome State Fault Refusal :=
  done s (s.serveTask r 0x060A (pack [(die.toNat, 1), (task.toNat, 1), (addr.toNat, 3), (v.toNat, 3)]) die task (addr.toNat < 262144) fun i k s =>
    if imgReach i k.tenant addr.toNat then s.onlineReq die.toNat (.var addr.toNat v) r else ansNo stNotFound 0 s)

/-- An entry of the constant table that is a tenant's own: one of a task of its (06 R135). -/
def constSeen (i : LogicImage) (t : Tenant) (idx : Nat) : Bool :=
  t == 0 || i.tasks.any fun (k : Task) => k.tenant == t && k.constLo ≤ idx && idx < k.constHi

/-- LOGIC_PATCH_CONST: another tenant's constant is not found. -/
def execLogicPatchConst (r : Req) (die task : Byte) (idx : BitVec 16) (v : V24) (s : State) : Host.Outcome State Fault Refusal :=
  done s (s.serveTask r 0x060B (pack [(die.toNat, 1), (task.toNat, 1), (idx.toNat, 2), (v.toNat, 3)]) die task true fun i _ s =>
    if i.consts.length ≤ idx.toNat then ansNo stInvalid 1 s
    else if !constSeen i (s.reqTenant r.sender.val) idx.toNat then ansNo stNotFound 0 s
    else s.onlineReq die.toNat (.const idx.toNat v) r)

/-- Serve a command on a core: a tenant reaches only a core that runs, or is stopped in, its own task (07 R159). -/
def State.serveCore (s : State) (r : Req) (op : Nat) (data : List Byte) (die core : Byte) (ranges : Bool) (f : State → Answer) : State :=
  s.serveA r op data (dieArg die && core.toNat < 4 && ranges) fun t _ s =>
    if s.nDies ≤ die.toNat then ansNo stNotFound 0 s
    else
      let x := s.core die.toNat core.toNat
      if t == 0 || (x.task.isSome && x.tnt == t) then f s else ansNo stNotFound 0 s

/-- LOGIC_BP_SET. -/
def execLogicBpSet (r : Req) (die core idx : Byte) (addr : V24) (en : Byte) (s : State) : Host.Outcome State Fault Refusal :=
  done s (s.serveCore r 0x060C (pack [(die.toNat, 1), (core.toNat, 1), (idx.toNat, 1), (addr.toNat, 3), (en.toNat, 1)]) die core (idx.toNat < 4 && en.toNat ≤ 1) fun s =>
    ansOk {} (s.modCore die.toNat core.toNat fun x => { x with
      bps := if en = 1 then sput x.bps idx.toNat addr else sdel x.bps idx.toNat }))

/-- LOGIC_BP_READ: a breakpoint that is not enabled shows address 0. -/
def execLogicBpRead (r : Req) (die core : Byte) (s : State) : Host.Outcome State Fault Refusal :=
  done s (s.serveCore r 0x060D [die, core] die core true fun s =>
    let x := s.core die.toNat core.toNat
    ansOk { resp := (List.range 4).flatMap fun i => leBytes (sget 0 x.bps i).toNat 3 ++ leBytes (flag (shas x.bps i) 0) 1 } s)

/-- LOGIC_CORE_READ: of a core that is stopped; one that a LOGIC_STEP has taken into its trap window is not (07 R159; DESIGN
CHOICE, log entry 39: it answers as a core that is not in HOLD). -/
def execLogicCoreRead (r : Req) (die core : Byte) (s : State) : Host.Outcome State Fault Refusal :=
  done s (s.serveCore r 0x060E [die, core] die core true fun s =>
    if (s.die die.toNat).mode != .hold || (s.core die.toNat core.toNat).tw then ansNo stWrongMode 0 s
    else
      let x := s.core die.toNat core.toNat
      let l := ((List.range 12).map fun i => sget 0 x.regs i) ++ ((List.range 10).flatMap fun w => x.window w)
        ++ [x.st core.toNat, x.sp, x.pc]
      ansOk { resp := wordBytes (l.map fun v => w32 (vW v)) } s)

/-! ### Group 0x07 -/

/-- What a loop slot that a session sees answers. -/
def State.withLoop (s : State) (t : Tenant) (die : Byte) (slot : BitVec 16) (f : LoopCfg → Nat → State → Answer) : Answer :=
  if s.nDies ≤ die.toNat then ansNo stNotFound 0 s
  else match s.slotFor t die.toNat slot.toNat with
    | none => ansNo stNotFound 0 s
    | some c => f c slot.toNat s
/-- Serve a command on a loop slot that the session sees. -/
def State.serveLoop (s : State) (r : Req) (op : Nat) (data : List Byte) (die : Byte) (slot : BitVec 16) (ranges : Bool)
    (f : LoopCfg → Nat → State → Answer) : State :=
  s.serveA r op data (dieArg die && slot.toNat < 8192 && ranges) fun t _ s => s.withLoop t die slot f

/-- LOOP_GET: the slot's area and both banks. -/
def execLoopGet (r : Req) (die : Byte) (slot : BitVec 16) (s : State) : Host.Outcome State Fault Refusal :=
  done s (s.serveLoop r 0x0701 (pack [(die.toNat, 1), (slot.toNat, 2)]) die slot true fun c n s =>
    let x := s.loop die.toNat n
    let b (k : Bank) : List Nat := (List.range 58).map (bankWord k)
    ansOk { resp := wordBytes ((((List.range 16).map fun i => s.slotWord die.toNat n (4 * i) c) ++ b x.bankA ++ b x.bankB).map w32) } s)

/-- LOOP_SET_LIMITS (08 R166). -/
def execLoopSetLimits (r : Req) (die : Byte) (slot : BitVec 16) (omin omax rate : V24) (s : State) : Host.Outcome State Fault Refusal :=
  done s (s.serve r 0x0702 false (· == pack [(die.toNat, 1), (slot.toNat, 2), (omin.toNat, 3), (omax.toNat, 3), (rate.toNat, 3)])
    (if dieArg die && slot.toNat < 8192 then (if omax.toInt < omin.toInt then some 1 else none) else some 0) fun t _ s =>
      s.withLoop t die slot fun _ n s => ansOk {} (s.modLoop die.toNat n fun x => { x with omin := omin, omax := omax, rate := rate }))

/-- LOOP_SET_SP. -/
def execLoopSetSp (r : Req) (die : Byte) (slot : BitVec 16) (v : V24) (s : State) : Host.Outcome State Fault Refusal :=
  done s (s.serveLoop r 0x0703 (pack [(die.toNat, 1), (slot.toNat, 2), (v.toNat, 3)]) die slot true fun c n s =>
    if c.sp = .const then ansOk {} (s.modLoop die.toNat n fun x => { x with spc := v }) else ansNo stNotWritable 0 s)

/-- Write the words of a bank from word `i` on. -/
def LoopSlot.writeWords (x : LoopSlot) (b : Bool) (i : Nat) : List Word → LoopSlot
  | [] => x
  | w :: l => (x.writeBank b i w).writeWords b (i + 1) l

/-- LOOP_WRITE_BANK: the inactive bank. -/
def execLoopWriteBank (r : Req) (die : Byte) (slot : BitVec 16) (words : List Word) (s : State) : Host.Outcome State Fault Refusal :=
  done s (s.serveLoop r 0x0704 (leBytes die.toNat 1 ++ leBytes slot.toNat 2 ++ wordBytes words) die slot (words.length == 58) fun _ n s =>
    let x := s.loop die.toNat n
    if x.pending then ansNo stBusy 0 s
    else ansOk {} (s.setLoop die.toNat n (x.writeWords (!x.bank) 0 words)))

/-- LOOP_SWAP: it completes at the swapped sample, or now where the swap is refused (08 R178). -/
def execLoopSwap (r : Req) (die : Byte) (slot : BitVec 16) (reset : Byte) (s : State) : Host.Outcome State Fault Refusal :=
  done s (s.serveLoop r 0x0705 (pack [(die.toNat, 1), (slot.toNat, 2), (reset.toNat, 1)]) die slot (reset.toNat ≤ 1) fun _ n s =>
    if (s.loop die.toNat n).pending then ansNo stBusy 0 s
    else ansWait (s.requestSwap die.toNat n (reset == 1) (some r)))

/-- The unit a LOOP_TEST_START asks for. -/
def testUnitOf (slot ctrl : BitVec 16) (amp len : V24) (hold : Byte) (p0 rho steps records : V24) : TestUnit :=
  let u : TestUnit := {
    slot := slot.toNat, amp := amp.setWidth 23, len := len.setWidth 21, hold := hold, p0 := p0, rho := rho
    steps := steps.setWidth 8, settle := steps.extractLsb' 8 8, meas := steps.extractLsb' 16 8, capN := records.setWidth 17 }
  u.setCtrl (4 * ctrl.toNat)

/-- LOOP_TEST_START (08 R179, R183): the lowest unit that is not active. The spec says that the command allocates the buffer and
not where: its device-virtual address, aligned to 64 bytes, is a free value (log entry 43), and Exyan maps its pages as it maps
any (11 R239): until it has, the channel parks there. -/
def execLoopTestStart (r : Req) (die : Byte) (slot ctrl : BitVec 16) (amp len : V24) (hold : Byte) (p0 rho steps records : V24)
    (s : State) : Host.Outcome State Fault Refusal :=
  let x := testUnitOf slot ctrl amp len hold p0 rho steps records
  done s (s.serveLoop r 0x0706 (pack [(die.toNat, 1), (slot.toNat, 2), (ctrl.toNat, 2), (amp.toNat, 3), (len.toNat, 3), (hold.toNat, 1), (p0.toNat, 3), (rho.toNat, 3), (steps.toNat, 3), (records.toNat, 3)]) die slot
    (ctrl.toNat < 1024 && amp.toNat < 2 ^ 23 && len.toNat ≤ 1048576 && records.toNat ≤ 65536 && x.rangesOk) fun c n s =>
    let d := die.toNat
    if c.prot || (s.unitOf d n fun y => y.injEn && (y.injOn || y.starting)).isSome then ansNo stBusy 0 s
    else match (List.range 4).find? fun u => !(s.unit d u).active with
      | none => ansNo stNoSpace 0 s
      | some u =>
        let (a, s) := s.draw
        ansOk { r0 := w32 u } ((s.setUnit d u { x with owner := some c.tenant, addr := BitVec.ofNat 36 (64 * a) }).startUnit d u))

/-- Does a session see a test unit? -/
def unitSeen (t : Tenant) (x : TestUnit) : Bool :=
  match x.owner with
  | some o => reaches t o
  | none => t == 0

/-- LOOP_TEST_STOP (08 R187). -/
def execLoopTestStop (r : Req) (die unit : Byte) (s : State) : Host.Outcome State Fault Refusal :=
  done s (s.serveA r 0x0707 [die, unit] (dieArg die && unit.toNat < 4) fun t _ s =>
    if s.nDies ≤ die.toNat || !unitSeen t (s.unit die.toNat unit.toNat) then ansNo stNotFound 0 s
    else
      let x := s.unit die.toNat unit.toNat
      ansOk {} (s.setUnit die.toNat unit.toNat { x with stopping := x.stopping || x.active }))

/-- LOOP_TEST_READ: as many records as the response buffer holds, from the first asked for on. -/
def execLoopTestRead (r : Req) (die unit : Byte) (first : V24) (s : State) : Host.Outcome State Fault Refusal :=
  done s (s.serveA r 0x0708 (pack [(die.toNat, 1), (unit.toNat, 1), (first.toNat, 3)]) (dieArg die && unit.toNat < 4) fun t rlen s =>
    if s.nDies ≤ die.toNat || !unitSeen t (s.unit die.toNat unit.toNat) then ansNo stNotFound 0 s
    else
      let x := s.unit die.toNat unit.toNat
      let l := ((x.records.take x.count).drop first.toNat).take (rlen / 16)
      ansOk { r0 := w32 (tuWord x 0x2C), r1 := w32 l.length, r2 := lo32 x.t0.toNat, r3 := hi32 x.t0.toNat
              resp := l.flatMap CapRec.bytes } s)

/-- LOOP_BUDGET. -/
def execLoopBudget (r : Req) (die : Byte) (s : State) : Host.Outcome State Fault Refusal :=
  done s (s.serveL r 0x0709 [die] (dieArg die) fun _ s =>
    if s.nDies ≤ die.toNat then ansNo stNotFound 0 s
    else ansOk { r0 := w32 (s.lpeLoad die.toNat), r1 := (s.lpe die.toNat).peak.setWidth 32
                 r2 := w32 (localCount (s.dieLoops die.toNat)) } s)

end Sys2Proof.Machine
end

