-- ==== Sys2Proof/Machine/ReqConfig.lean ====
section
/-! DEFINITION. The mailbox commands of groups 0x0E and 0x0F, configuration and security (14 R321, 17 R376, R377), and
LOGIC_DOWNLOAD (06 R136), whose image carries a project signature too. -/
namespace Sys2Proof.Machine

/-! ### Signatures (15 R330) -/

/-- Does an image pass: its signer's key is installed, and the signature verifies? -/
def State.signed (s : State) (ck : ImageCheck) : Bool := ck.sigOk && s.sec.keyHashes.contains ck.signer

/-! ### Logic images (06 R136) -/

/-- The new image of a die in STOP. -/
def State.putLogic (s : State) (img : LogicImage) (d : Nat) : State :=
  s.modDie d fun g => { g with image := some img, vars := [], consts := img.consts }

/-- LOGIC_DOWNLOAD: the signature and the image's rules, then every die of the mask in STOP, or none of them changes. -/
def execLogicDownload (r : Req) (mask : Byte) (img : LogicImage) (ck : ImageCheck) (s : State) : Host.Outcome State Fault Refusal :=
  done s (s.serve r 0x0607 true (fun d => d.head? == some mask) (rangeBad (mask != 0)) fun _ _ s =>
    if !s.signed ck then ansNo stInvalid 0 s.sigRefused
    else if logicBad s.cfg.tenants img then ansNo stInvalid 0 s
    else match s.lacking mask with
      | some d => ansNo stNotFound d s
      | none =>
        let busy := (maskDies mask).filter fun d => (s.die d).mode != .stop
        if busy.isEmpty then ansOk { r0 := img.imageId } ((maskDies mask).foldl (fun s d => s.putLogic img d) s)
        else ansNo stWrongMode (busy.foldl (fun m d => m + 2 ^ d) 0) s)

/-! ### Group 0x0E -/

/-- CFG_STATUS. -/
def execCfgStatus (r : Req) (s : State) : Host.Outcome State Fault Refusal :=
  done s (s.serveL r 0x0E01 [] true fun _ s =>
    ansOk { r0 := s.su.copyA.seq, r1 := s.su.copyB.seq
            r2 := w32 (flag (s.copyValid false) 0 + flag (s.copyValid true) 1 + flag (s.su.inUse == some true) 2) } s)

/-- The copy that CFG_WRITE writes (R377). -/
def State.writeTarget (s : State) : Bool :=
  match s.su.inUse with
  | some b => !b
  | none =>
    if !s.copyValid false then false
    else if !s.copyValid true then true
    else if serialLt (s.copy false).seq (s.copy true).seq then false
    else true
/-- One more than the later valid SEQ, or 1. -/
def State.nextCopySeq (s : State) : Word :=
  match s.copies with
  | [] => 1
  | b :: _ => (s.copy b).seq + 1

/-- CFG_WRITE. -/
def execCfgWrite (r : Req) (img : Image) (ck : ImageCheck) (s : State) : Host.Outcome State Fault Refusal :=
  done s (s.serve r 0x0E02 true (fun _ => true) none fun _ _ s =>
    if !s.signed ck then ansNo stInvalid 1 s.sigRefused
    else if !ck.digestOk then ansNo stInvalid 2 s
    else if !ck.sizeOk then ansNo stInvalid 3 s
    else
      let b := s.writeTarget
      ansOk { r0 := w32 (flag b 0) } (s.setCopy b { good := true, seq := s.nextCopySeq, signer := ck.signer, img := img }))

/-- CFG_ACTIVATE: it completes when the load ends. -/
def execCfgActivate (r : Req) (s : State) : Host.Outcome State Fault Refusal :=
  done s (s.serveL r 0x0E03 [] true fun _ s =>
    if s.copies.isEmpty then ansNo stInvalid 0 s
    else ansWait (s.modSu fun u => { u with loading := true }))

/-! ### Group 0x0F -/

/-- SEC_STATUS. -/
def execSecStatus (r : Req) (s : State) : Host.Outcome State Fault Refusal :=
  done s (s.serveL r 0x0F01 [] true fun _ s =>
    ansOk { r0 := w32 s.secVault, r1 := w32 s.sec.fuses, r2 := w32 s.secBark } s)

/-- The sessions opened with a credential slot close once their requests in progress have completed (15 R331). -/
def State.closeUsers (s : State) (n : Nat) : State :=
  (List.range 33).foldl (fun s k =>
    if (s.sender k).opened && (s.sender k).cred == some n then
      if (s.sender k).reqs.any fun q => q.result.isNone then s.modSender k fun x => { x with closing := true } else s.closeSession k
    else s) s

/-- SEC_CRED_SET: slot, tenant, CKIND and the verifier of Table 15.2. -/
def execSecCredSet (r : Req) (slot : Byte) (ten : BitVec 16) (ckind : Byte) (verifier : List Byte) (s : State) :
    Host.Outcome State Fault Refusal :=
  done s (s.serveL r 0x0F02 (pack [(slot.toNat, 1), (ten.toNat, 2)] ++ ckind :: verifier)
      (slot.toNat < 64 && ckind.toNat ≤ 2 && ten.toNat ≤ 0xFFF) fun _ s =>
    let t : Tenant := ten.setWidth 12
    if ckind != 0 && !s.inTable t then ansNo stInvalid 0 s
    else
      let u := s.setCredSlot slot.toNat (if ckind = 0 then {} else { ckind := ckind, tenant := t, verifier := verifier })
      ansOk {} (u.closeUsers slot.toNat))

/-- SEC_KEY_ROTATE (15 R326). A history key's rotation waits for the start of the store, which gives the tenant its first one (R338;
log entry 60). -/
def execSecKeyRotate (r : Req) (ten : BitVec 16) (kind : Byte) (s : State) : Host.Outcome State Fault Refusal :=
  if kind = 0 && s.inTable (ten.setWidth 12) && !shas s.sec.histGen ten.toNat then done s s
  else done s (s.serveL r 0x0F03 (pack [(ten.toNat, 2), (kind.toNat, 1)]) (kind.toNat ≤ 1 && ten.toNat ≤ 0xFFF) fun _ s =>
    let t := ten.toNat
    if !s.inTable (ten.setWidth 12) then ansNo stNotFound 0 s
    else
      let g := sget 0 (if kind = 0 then s.sec.histGen else s.sec.integGen) t
      if 127 ≤ g then ansNo stNoSpace 0 s
      else
        let s := s.newKey (if kind = 0 then .hist t (g + 1) else .integ t (g + 1))
        ansOk { r0 := w32 (g + 1) } (s.modSec fun x =>
          if kind = 0 then { x with histGen := sput x.histGen t (g + 1) } else { x with integGen := sput x.integGen t (g + 1) }))

/-- The history keys that the module holds of a tenant, by rising generation. -/
def State.histKeysOf (s : State) (t : Tenant) : List (BitVec 256) :=
  (List.range 128).filterMap fun g => s.sec.key? (.hist t.toNat g)
/-- SEC_ESCROW_EXPORT (15 R340): the ephemeral key is a free value. -/
def execSecEscrowExport (r : Req) (ten : BitVec 16) (key : Word) (s : State) : Host.Outcome State Fault Refusal :=
  done s (s.serveL r 0x0F04 (pack [(ten.toNat, 2), (key.toNat, 4)]) (ten.toNat ≤ 0xFFF) fun _ s =>
    let t : Tenant := ten.setWidth 12
    match s.inTable t, s.cfg.crownKeys.find? fun e => e.1 == key.toNat with
    | true, some e =>
      let (x, u) := s.draw
      let keys := s.histKeysOf t
      ansOk { resp := Config.bundleLayout s.host.serial t keys.length (Config.ecPublic x) (keys.map (Config.keyWrap (Config.escrowKdf x e.2))) }
        (u.event t 0 13 0 3 [t.setWidth 32])
    | _, _ => ansNo stNotFound 0 s)

end Sys2Proof.Machine
end

