-- ==== Sys2Proof/Machine/ReqField.lean ====
section
/-! DEFINITION. The mailbox commands of groups 0x08 and 0x09, field I/O, motion and metering (14 R320). -/
namespace Sys2Proof.Machine

/-! ### Group 0x08 -/

/-- A session sees its own channels; the landlord sees all 64. -/
def State.chanSeen (s : State) (t : Tenant) (c : Nat) : Bool := t == 0 || (s.chanCfg? c).any fun x => x.tenant == t

/-- Nine bytes for each channel of a list; an output's load current is a free value. -/
def State.chanRows (s : State) : List Nat → List Byte × State
  | [] => ([], s)
  | c :: l =>
    let row := leBytes c 1 ++ leBytes (s.chStatWord c) 4 ++ leBytes (s.chCntWord c) 4
    let (rows, s) := (if s.isOut c then s.draw.2 else s).chanRows l
    (row ++ rows, s)

/-- FIO_STATUS. -/
def execFioStatus (r : Req) (s : State) : Host.Outcome State Fault Refusal :=
  done s (s.serveA r 0x0801 [] true fun t _ s =>
    let (l, u) := s.chanRows ((List.range 64).filter (s.chanSeen t))
    ansOk { resp := l } u)

/-- FIO_GROUPS. -/
def execFioGroups (r : Req) (s : State) : Host.Outcome State Fault Refusal :=
  done s (s.serveL r 0x0802 [] true fun _ s =>
    let g (i : Nat) : Word := w32 (s.groupWord i)
    ansOk (okWords (g 0) (g 1) (g 2) (g 3) (w32 s.fioStatus)) s)

/-- FIO_CLEAR (09 R195, R197). -/
def execFioClear (r : Req) (ch : Byte) (s : State) : Host.Outcome State Fault Refusal :=
  done s (s.serveA r 0x0803 [ch] (ch.toNat < 64) fun t _ s =>
    if s.chanSeen t ch.toNat then ansOk {} (s.clearChan ch.toNat) else ansNo stNotFound 0 s)

/-- FIO_SELFTEST (09 R198): the interval, and a pass now or none. -/
def execFioSelftest (r : Req) (action : Byte) (interval : BitVec 16) (s : State) : Host.Outcome State Fault Refusal :=
  done s (s.serveL r 0x0804 (pack [(action.toNat, 1), (interval.toNat, 2)]) (action.toNat ≤ 1 && interval.toNat ≤ 3600) fun _ s =>
    let s := s.modFio fun x => { x with stInt := interval.toNat }
    ansOk {} (if action = 0 then s.fioStStart else s.fioStStop))

/-- FIO_WATCHDOG (09 R199). -/
def execFioWatchdog (r : Req) (tmo : BitVec 16) (logic : Byte) (s : State) : Host.Outcome State Fault Refusal :=
  done s (s.serveL r 0x0805 (pack [(tmo.toNat, 2), (logic.toNat, 1)]) (10 ≤ tmo.toNat && tmo.toNat ≤ 10000 && logic.toNat ≤ 1) fun _ s =>
    ansOk {} (s.modFio fun x => { x with wdTmo := tmo.toNat, wdLogic := logic == 1 }))

/-- Serve a command of a configured motion channel that the session sees. -/
def State.serveMot (s : State) (r : Req) (op : Nat) (data : List Byte) (m : Byte) (ranges : Bool) (f : State → Answer) : State :=
  s.serveA r op data (m.toNat < 8 && ranges) fun t _ s =>
    match s.motCfg? m.toNat with
    | some c => if reaches t c.tenant then f s else ansNo stNotFound 0 s
    | none => ansNo stNotFound 0 s

/-- MOT_CMD (09 R205 to R208): it completes when the move ends. -/
def execMotCmd (r : Req) (m cmd : Byte) (target : V24) (s : State) : Host.Outcome State Fault Refusal :=
  done s (s.serveMot r 0x0806 (pack [(m.toNat, 1), (cmd.toNat, 1), (target.toNat, 3)]) m (1 ≤ cmd.toNat && cmd.toNat ≤ 7) fun s =>
    let (st, u) := s.motCmd m.toNat cmd.toNat target (some r)
    if st = stOk then ansWait u else ansNo st 0 s)

/-- MOT_STATUS. -/
def execMotStatus (r : Req) (m : Byte) (s : State) : Host.Outcome State Fault Refusal :=
  done s (s.serveMot r 0x0807 [m] m true fun s =>
    let w (a : Nat) : Word := w32 (s.motWord m.toNat a)
    ansOk (okWords (w 0x14) (w 0x08) (w 0x0C) (w 0x10) (w 0x20)) s)

/-! ### Group 0x09 -/

/-- Serve a command of a configured circuit that the session sees. -/
def State.serveCircuit (s : State) (r : Req) (op : Nat) (landlord : Bool) (k : Byte) (f : State → Answer) : State :=
  s.serve r op landlord (· == [k]) (rangeBad (k.toNat < 48)) fun t _ s =>
    match s.circuitCfg? k.toNat with
    | some c => if reaches t c.tenant then f s else ansNo stNotFound 0 s
    | none => ansNo stNotFound 0 s

/-- MTR_CIRCUIT: the area from 0x08 to 0x5C, each total's two words read together. -/
def execMtrCircuit (r : Req) (k : Byte) (s : State) : Host.Outcome State Fault Refusal :=
  done s (s.serveCircuit r 0x0901 false k fun s =>
    let x := s.circuit k.toNat
    ansOk { resp := wordBytes ((List.range 10).map fun i => w32 (s.circuitWord k.toNat (8 + 4 * i)))
              ++ (List.range 6).flatMap fun e => leBytes (sget 0 x.shown e).toNat 8 } s)

/-- MTR_VSET: the area of Table 10.8. -/
def execMtrVset (r : Req) (set : Byte) (s : State) : Host.Outcome State Fault Refusal :=
  done s (s.serveL r 0x0902 [set] (set.toNat < 2) fun _ s =>
    ansOk { resp := wordBytes ((List.range 10).map fun i => w32 (s.vsetWord set.toNat (4 * i))) } s)

/-- Does a session see a metering input: any for the landlord, the current inputs of its own circuits for a tenant. -/
def State.inputSeen (s : State) (t : Tenant) (c : Nat) : Bool :=
  t == 0 || (6 ≤ c && s.cfg.circuits.any fun k => k.tenant == t && (circuitInputs k).contains c)

/-- MTR_HARM: magnitude and phase of orders 1 to n of the last window. -/
def execMtrHarm (r : Req) (input orders : Byte) (s : State) : Host.Outcome State Fault Refusal :=
  done s (s.serveA r 0x0903 [input, orders] (input.toNat < 54 && 1 ≤ orders.toNat && orders.toNat ≤ 63) fun t _ s =>
    if s.inputSeen t input.toNat then
      let h := (s.minput input.toNat).harm
      ansOk { resp := (List.range orders.toNat).flatMap fun i =>
        leBytes (h.mag.getD i 0) 4 ++ leBytes (BitVec.ofInt 16 (h.phase.getD i 0)).toNat 2 } s
    else ansNo stNotFound 0 s)

/-- MTR_TOTALS: the six totals, then the six residues, of the last one-second write. -/
def execMtrTotals (r : Req) (k : Byte) (s : State) : Host.Outcome State Fault Refusal :=
  done s (s.serveCircuit r 0x0904 false k fun s =>
    let x := s.circuit k.toNat
    ansOk { r0 := lo32 s.mtr.sec.toNat
            resp := ((List.range 6).flatMap fun e => leBytes (sget 0 x.shown e).toNat 8)
              ++ (List.range 6).flatMap fun e => leBytes (sget 0 x.shownRes e).toNat 4 } s)

/-- MTR_TOTALS_CLEAR (10 Table 10.6): the clear applies after the next one-second write. -/
def execMtrTotalsClear (r : Req) (k : Byte) (s : State) : Host.Outcome State Fault Refusal :=
  done s (s.serveCircuit r 0x0905 true k fun s => ansOk {} (s.modCircuit k.toNat fun c => { c with clear := true }))

/-- The set MRAM holds for an input. -/
def MInputSt.stored (x : MInputSt) : CalSet := x.nextCal.getD (x.gain, x.phase, x.offset, x.itrim)

/-- MTR_CAL_READ: the set and its CRC, as MRAM holds them. -/
def execMtrCalRead (r : Req) (input : Byte) (s : State) : Host.Outcome State Fault Refusal :=
  done s (s.serveL r 0x0906 [input] (input.toNat < 54) fun _ s =>
    let x := s.minput input.toNat
    ansOk { resp := calBytes x.stored ++ leBytes x.crc.toNat 4 } s)

/-- MTR_CAL_MEASURE (10 R225): it completes after ten metering seconds. -/
def execMtrCalMeasure (r : Req) (input : Byte) (s : State) : Host.Outcome State Fault Refusal :=
  let c := input.toNat
  done s (s.serveL r 0x0907 [input] (c < 54) fun _ s =>
    if s.mtr.stActive && s.mtr.stInput.toNat == c then ansNo stBusy 0 s
    else ansWait (s.modMtr fun m => { m with measures := m.measures ++ [{ input := c, req := r, cal := (s.minput c).cal }] }))

/-- MTR_CAL_WRITE (10 R225, R226): MRAM holds the set; it takes effect at the next second boundary, or at once while metering
is stopped. -/
def execMtrCalWrite (r : Req) (input : Byte) (gain phase offset itrim : Word) (s : State) : Host.Outcome State Fault Refusal :=
  let c := input.toNat
  let hi (w : Word) : Bool := w.toNat < 2 ^ 24
  let p : V24 := phase.setWidth 24
  done s (s.serveL r 0x0908 (pack [(input.toNat, 1), (gain.toNat, 4), (phase.toNat, 4), (offset.toNat, 4), (itrim.toNat, 4)])
    (c < 54 && hi gain && hi phase && hi offset && hi itrim && 0x200000 ≤ gain.toNat && gain.toNat ≤ 0x800000
      && -1048576 ≤ p.toInt && p.toInt ≤ 1048576) fun _ s =>
    let x := s.minput c
    let set : CalSet := (gain.setWidth 24, p, offset.setWidth 24, itrim.setWidth 24)
    let x := { x with crc := crc32 (calBytes set) }
    if s.mtr.running then ansOk {} (s.setMinput c { x with nextCal := some set })
    else ansOk {} ((s.setMinput c { x with
      gain := set.1, phase := set.2.1, offset := set.2.2.1, itrim := set.2.2.2, calBad := false, nextCal := none }).event
        0 0 9 0 2 [w32 c]))

/-- MTR_SELFTEST (10 R227). -/
def execMtrSelftest (r : Req) (action : Byte) (interval : BitVec 16) (s : State) : Host.Outcome State Fault Refusal :=
  done s (s.serveL r 0x0909 (pack [(action.toNat, 1), (interval.toNat, 2)]) (action.toNat ≤ 1 && interval.toNat ≤ 1440) fun _ s =>
    let s := s.modMtr fun m => { m with stInt := interval.toNat }
    ansOk {} (if action = 0 then s.stStart else s.stStop))

/-- MTR_WAVE_START (10 R228): channel 11 of die 0, at level 2, in the context of the requester's tenant. -/
def execMtrWaveStart (r : Req) (mask : BitVec 64) (frames : Word) (va : BitVec 64) (s : State) : Host.Outcome State Fault Refusal :=
  let l := (List.range 54).filter fun c => mask.getLsbD c
  done s (s.serveA r 0x090A (pack [(mask.toNat, 8), (frames.toNat, 4), (va.toNat, 8)]) (mask != 0 && mask.toNat < 2 ^ 54 && frames != 0 && va.toNat < 2 ^ 36) fun t _ s =>
    match l.zipIdx.find? fun e => !s.inputSeen t e.1 with
    | some e => ansNo stNotFound e.2 s
    | none =>
      let x := s.dch 0 11
      if s.mtr.wave.isSome || !(x.state == .idle || x.state == .done) then ansNo stBusy 0 s
      else
        ansOk {} (s.waveStart { inputs := l, frames := frames.toNat, va := va.toNat, tenant := t }))

/-- MTR_WAVE_STOP: the session's own stream ends, or the one that has ended answers. -/
def execMtrWaveStop (r : Req) (s : State) : Host.Outcome State Fault Refusal :=
  done s (s.serveA r 0x090B [] true fun t _ s =>
    match s.mtr.wave, s.mtr.waveLast with
    | some w, _ =>
      if reaches t w.tenant then ansOk { r0 := w32 (s.waveWritten w) } (s.waveEnd w false)
      else ansNo stNotFound 0 s
    | none, some w => if reaches t w.tenant then ansOk { r0 := w32 (s.waveWritten w) } s else ansNo stNotFound 0 s
    | none, none => ansOk {} s)

/-- MTR_CONFIG_READ: the words 0x00 and 0x04 of every input and of every circuit. -/
def execMtrConfigRead (r : Req) (s : State) : Host.Outcome State Fault Refusal :=
  done s (s.serveL r 0x090C [] true fun _ s =>
    ansOk { resp := wordBytes (((List.range 54).flatMap fun c => [w32 (s.minputWord c 0), w32 (s.minputWord c 4)])
      ++ (List.range 48).flatMap fun k => [w32 (s.circuitWord k 0), w32 (s.circuitWord k 4)]) } s)

end Sys2Proof.Machine
end

