-- ==== Sys2Proof/Machine/ReqPoints.lean ====
section
/-! DEFINITION. The mailbox commands of group 0x03, points (14 R317). -/
namespace Sys2Proof.Machine

/-- A point reference that R25 calls malformed. -/
def refBad (w : Word) : Bool :=
  let n := w.toNat
  n / 2 ^ 26 != 0 || n / 2 ^ 18 % 256 == 0 || n / 2 ^ 18 % 256 == 255
/-- The point a reference names, where this module has it and the tenant sees it (R25, R27). -/
def State.refPoint (s : State) (t : Tenant) (w : Word) : Option (Nat × Desc) :=
  let n := w.toNat
  if n / 2 ^ 18 != s.ownId.toNat || s.nPoints ≤ n % 2 ^ 18 then none
  else match s.desc? (n % 2 ^ 18) with
    | some d => if sees t d then some (n % 2 ^ 18, d) else none
    | none => none
/-- The reference to a point of this module. -/
def State.pointRef (s : State) (m : Nat) : Nat := 2 ^ 18 * s.ownId.toNat + m

/-- The cells of several references, or the index of the first one not found. -/
def State.readRefs (s : State) (t : Tenant) (i : Nat) : List Word → Except Nat (List Word)
  | [] => .ok []
  | w :: l => match s.refPoint t w with
    | none => .error i
    | some (m, _) => match s.readRefs t (i + 1) l with
      | .error j => .error j
      | .ok c => .ok (cellWord (s.cell m) :: c)

/-- PNT_READ. -/
def execPntRead (r : Req) (refs : List Word) (s : State) : Host.Outcome State Fault Refusal :=
  let n := refs.length
  done s (s.serveA r 0x0301 (leBytes refs.length 2 ++ wordBytes refs) (1 ≤ n && n ≤ 1024 && !refs.any refBad) fun t _ s =>
    match s.readRefs t 0 refs with
    | .error i => ansNo stNotFound i s
    | .ok l => ansOk { r0 := w32 n, resp := wordBytes l } s)

/-- PNT_READ_BLOCK: 64 cells as a window of the session's tenant shows them (R39). -/
def execPntReadBlock (r : Req) (die : Byte) (block : BitVec 16) (s : State) : Host.Outcome State Fault Refusal :=
  let b := block.toNat
  done s (s.serveA r 0x0302 (pack [(die.toNat, 1), (block.toNat, 2)]) (dieArg die && b < 512) fun t _ s =>
    if s.nDies ≤ die.toNat then ansNo stNotFound 0 s
    else
      let l := (List.range 64).map fun i => cellWord (s.cellFor t (32768 * die.toNat + 64 * b + i))
      ansOk { r0 := sget 0 s.pnt.gens (512 * die.toNat + b), resp := wordBytes l } s)

/-- May a mailbox write reach a point (R27, R28)? -/
def hostWritable (t : Tenant) (d : Desc) : Bool :=
  d.bkind == 0 && (d.ptype == 1 || d.ptype == 3 || d.ptype == 5 || d.ptype == 6) && (t == 0 || d.tenant == t)

/-- PNT_WRITE (R28): a source write of the host. -/
def execPntWrite (r : Req) (ref : Word) (v : V24) (s : State) : Host.Outcome State Fault Refusal :=
  done s (s.serveA r 0x0303 (pack [(ref.toNat, 4), (v.toNat, 3)]) (!refBad ref) fun t _ s =>
    match s.refPoint t ref with
    | none => ansNo stNotFound 0 s
    | some (m, d) =>
      if hostWritable t d then
        let u := s.batch [{ m := m, src := .host, q := .good, v := v }]
        ansOk { r0 := cellWord (u.cell m) } u
      else ansNo stNotWritable 0 s)

/-- The status of a force check (R30) as a request's result. -/
def forceAns (n : Nat) (s : State) : Answer :=
  match n with
  | 1 => ansNo stInvalid 1 s
  | 2 => ansNo stNotFound 0 s
  | 3 => ansNo stNotWritable 0 s
  | 4 => ansNo stLocked 0 s
  | _ => ansNo stNoSpace 0 s

/-- PNT_FORCE (R29, R30). -/
def execPntForce (r : Req) (ref : Word) (v : V24) (s : State) : Host.Outcome State Fault Refusal :=
  done s (s.serveA r 0x0304 (pack [(ref.toNat, 4), (v.toNat, 3)]) (!refBad ref) fun t _ s =>
    match s.refPoint t ref with
    | none => ansNo stNotFound 0 s
    | some (m, _) =>
      let st := s.forceCheck t m false
      if st = 0 then let u := s.force t m v; ansOk { r0 := cellWord (u.cell m), r1 := t.setWidth 32 } u
      else forceAns st s)

/-- PNT_RELEASE (R30, R31). -/
def execPntRelease (r : Req) (ref : Word) (s : State) : Host.Outcome State Fault Refusal :=
  done s (s.serveA r 0x0305 (pack [(ref.toNat, 4)]) (!refBad ref) fun t _ s =>
    match s.refPoint t ref with
    | none => ansNo stNotFound 0 s
    | some (m, _) =>
      let st := s.forceCheck t m true
      if st = 0 then let u := s.release m; ansOk { r0 := cellWord (u.cell m) } u
      else forceAns st s)

/-- PNT_FORCE_LIST: the index counts the forces of visible points by MPN; as many as the response buffer holds. -/
def execPntForceList (r : Req) (start : BitVec 16) (s : State) : Host.Outcome State Fault Refusal :=
  done s (s.serveA r 0x0306 (pack [(start.toNat, 2)]) true fun t rlen s =>
    let all := s.pnt.forces.filter fun e => (s.desc? e.1).any (sees t)
    let l := (all.drop start.toNat).take (rlen / 12)
    let next := start.toNat + l.length
    ansOk { r0 := w32 l.length, r1 := w32 (if all.length ≤ next then 0xFFFF else next)
            resp := l.flatMap fun e =>
              leBytes (s.pointRef e.1) 4 ++ leBytes e.2.value.toNat 4 ++ leBytes e.2.by_.toNat 2 ++ leBytes 0 2 } s)

/-- PNT_DESC_READ. -/
def execPntDescRead (r : Req) (ref : Word) (s : State) : Host.Outcome State Fault Refusal :=
  done s (s.serveA r 0x0307 (pack [(ref.toNat, 4)]) (!refBad ref) fun t _ s =>
    match s.refPoint t ref with
    | none => ansNo stNotFound 0 s
    | some (_, d) => ansOk { resp := descBytes d } s)

end Sys2Proof.Machine
end

