-- ==== Sys2Proof/Machine/ReqStore.lean ====
section
/-! DEFINITION. The mailbox commands of groups 0x0A and 0x0B, history and events (14 R321, 12 R261 to R277). -/
namespace Sys2Proof.Machine

/-! ### Group 0x0A -/

/-- Put a segment into a list that rises by age. -/
def insAge (e : Nat × Segment) : List (Nat × Segment) → List (Nat × Segment)
  | [] => [e]
  | x :: l => if e.2.age < x.2.age then e :: x :: l else x :: insAge e l
/-- A tenant's trend blocks, oldest segment first: segment, place, and block. -/
def State.trendBlocks (s : State) (t : Tenant) : List (Nat × Nat × Block) :=
  ((s.hst.segs.filter fun e => e.2.tenant == t && e.2.kind == 0).foldl (fun l e => insAge e l) []).flatMap fun e =>
    e.2.blocks.zipIdx.map fun b => (e.1, b.2, b.1)

/-- Read several blocks: their payloads, or none where one fails. -/
def State.readBlocks (s : State) (t : Tenant) : List (Nat × Nat) → Option (List Byte) × State
  | [] => (some [], s)
  | (n, i) :: l => match s.readStored n i with
    | (none, s) => (none, s)
    | (some b, s) =>
      if !s.holdsKey t b then (none, s)
      else match s.readBlocks t l with
        | (some r, s) => (some (s.plainBlock n t b ++ r), s)
        | (none, s) => (none, s)

/-- Serve a history read: the series' blocks with a record that `p` picks, as many as the response buffer holds, and the tick
to continue from. `stop` is that tick where nothing is left. Nothing there of a range that begins among reclaimed records, as `gone`
says, is NOT_FOUND (12 R278). -/
def State.histRead (s : State) (series : V24) (t : Tenant) (rlen : Nat) (p : Block → TrendRec → Bool) (stop : Nat)
    (gone : Nat × Nat → Bool) : Answer :=
  match s.trendCfg? series.toNat with
  | none => ansNo stNotFound 0 s
  | some c =>
    if !reaches t c.tenant then ansNo stNotFound 0 s
    else
      let hit (b : Block) : Option TrendRec := b.recs.find? fun x => x.series == series.toNat && p b x
      let all := (s.trendBlocks c.tenant).filter fun e => (hit e.2.2).isSome
      if all.isEmpty && gone (sget (0, 0) s.hst.gone c.tenant.toNat) && shas s.hst.gone c.tenant.toNat then ansNo stNotFound 0 s else
      let l := all.take (rlen / 4096)
      let next := match all[l.length]? with
        | none => stop
        | some e => match hit e.2.2 with
          | some x => x.tick
          | none => stop
      match s.readBlocks c.tenant (l.map fun e => (e.1, e.2.1)) with
      | (none, u) => ansNo stDataError 0 u
      | (some bytes, u) => ansOk { r0 := lo32 next, r1 := hi32 next, resp := bytes } u

/-- HST_READ: by tick. -/
def execHstRead (r : Req) (series : V24) (first last : BitVec 64) (s : State) : Host.Outcome State Fault Refusal :=
  done s (s.serveA r 0x0A01 (pack [(series.toNat, 3), (first.toNat, 8), (last.toNat, 8)]) (series.toNat < 2 ^ 19) fun t rlen s =>
    s.histRead series t rlen (fun _ x => first.toNat ≤ x.tick && x.tick ≤ last.toNat) (last.toNat + 1)
      fun g => first.toNat ≤ g.1)

/-- HST_READ_TIME: by the TIME of blocks whose TIME is valid. -/
def execHstReadTime (r : Req) (series : V24) (first last : BitVec 48) (s : State) : Host.Outcome State Fault Refusal :=
  done s (s.serveA r 0x0A02 (pack [(series.toNat, 3), (first.toNat, 6), (last.toNat, 6)]) (series.toNat < 2 ^ 19) fun t rlen s =>
    s.histRead series t rlen (fun b x => b.timeOk && first.toNat ≤ recMs b x && recMs b x ≤ last.toNat) (s.now + 1)
      fun g => first.toNat ≤ g.2)

/-- HST_QUOTA. -/
def execHstQuota (r : Req) (ten : BitVec 16) (s : State) : Host.Outcome State Fault Refusal :=
  done s (s.serveA r 0x0A03 (pack [(ten.toNat, 2)]) (ten.toNat ≤ 0xFFF) fun t _ s =>
    let o : Tenant := ten.setWidth 12
    if reaches t o && s.tenantTable.contains o then ansOk { r0 := w32 (s.quota o), r1 := w32 (s.hst.held o) } s
    else ansNo stNotFound 0 s)

/-- HST_STATUS. -/
def execHstStatus (r : Req) (s : State) : Host.Outcome State Fault Refusal :=
  done s (s.serveL r 0x0A04 [] true fun _ s =>
    ansOk { r0 := w32 (s.hstStatus 0), r1 := w32 (s.hstStatus 1), r2 := w32 s.hst.free, r3 := s.hst.ckptSeq } s)

/-- HST_RESYNC (12 R261). -/
def execHstResync (r : Req) (s : State) : Host.Outcome State Fault Refusal :=
  done s (s.serveL r 0x0A05 [] true fun _ s =>
    if s.hst.replacedDrive.isNone then ansNo stWrongMode 0 s
    else ansOk {} (if s.hst.resync.isSome then s else s.modHst (·.startResync)))

/-- Read replica blocks as stored, `n` at most from place `i` on. -/
def State.replicaBlocks (s : State) (g i : Nat) : Nat → Option (List Byte) × State
  | 0 => (some [], s)
  | n + 1 =>
    if (sget {} s.hst.segs g).blocks.length ≤ i then (some [], s)
    else match s.readStored g i with
      | (none, s) => (none, s)
      | (some b, s) => match s.replicaBlocks g (i + 1) n with
        | (some l, s) => (some (padTo 0 4096 b.replica ++ l), s)
        | (none, s) => (none, s)

/-- HST_REPLICA_READ (12 R265): blocks 1 to 16,383 of a replica segment, as many as the response buffer holds. -/
def execHstReplicaRead (r : Req) (src : Byte) (seg : V24) (blk count : BitVec 16) (s : State) : Host.Outcome State Fault Refusal :=
  done s (s.serveA r 0x0A06 (pack [(src.toNat, 1), (seg.toNat, 3), (blk.toNat, 2), (count.toNat, 2)]) (seg.toNat < 2 ^ 20 && 1 ≤ blk.toNat && blk.toNat < 16384 && 1 ≤ count.toNat) fun t rlen s =>
    match sfind s.hst.segs seg.toNat with
    | none => ansNo stNotFound 0 s
    | some g =>
      if g.kind != 1 || g.src != src || !reaches t g.tenant then ansNo stNotFound 0 s
      else match s.replicaBlocks seg.toNat (blk.toNat - 1) (min count.toNat (rlen / 4096)) with
        | (some l, u) => ansOk { resp := l } u
        | (none, u) => ansNo stDataError 0 u)

/-! ### Group 0x0B (12 R276) -/

/-- Examine records from place `q` on, `get` giving the one at a place: the visible ones' bytes, the next place and how many.
`n` and `room` bound the records returned. -/
def evtScan (get : Nat → Option EvRec) (t : Tenant) : Nat → Nat → Nat → Nat → List Byte × Nat × Nat
  | 0, q, _, _ => ([], q, 0)
  | f + 1, q, n, room =>
    if n = 0 then ([], q, 0)
    else match (get q).filter fun x => t == 0 || x.ev.tenant == t with
      | none => evtScan get t f (q + 1) n room
      | some x =>
        if room = 0 then ([], q, 0)
        else
          let (l, next, k) := evtScan get t f (q + 1) (n - 1) (room - 1)
          (x.bytes ++ l, next, k + 1)

/-- EVT_READ. -/
def execEvtRead (r : Req) (first : BitVec 64) (count : BitVec 16) (s : State) : Host.Outcome State Fault Refusal :=
  done s (s.serveA r 0x0B01 (pack [(first.toNat, 8), (count.toNat, 2)]) (1 ≤ count.toNat && count.toNat ≤ 1024) fun t rlen s =>
    let e := s.evr
    let a := max first.toNat e.tail
    let (l, next, n) := evtScan e.rec? t (e.head + 1 - a) a count.toNat (rlen / 64)
    ansOk { status := if first.toNat < e.tail then stOverwritten else stOk
            r0 := lo32 next, r1 := hi32 next, r2 := w32 n, resp := l } s)

/-- EVT_HEART_READ. -/
def execEvtHeartRead (r : Req) (first count : BitVec 16) (s : State) : Host.Outcome State Fault Refusal :=
  done s (s.serveA r 0x0B02 (pack [(first.toNat, 2), (count.toNat, 2)]) (first.toNat < 4096 && 1 ≤ count.toNat && count.toNat ≤ 1024) fun t rlen s =>
    let e := s.evr
    let (l, next, n) := evtScan (fun i => (sfind e.heart i).map (·.2)) t (e.heartN - first.toNat) first.toNat count.toNat (rlen / 64)
    ansOk { r0 := w32 next, r2 := w32 n, resp := l } s)

/-- EVT_PLANT (12 R270). -/
def execEvtPlant (r : Req) (s : State) : Host.Outcome State Fault Refusal :=
  done s (s.serveL r 0x0B03 [] true fun _ s =>
    if s.evr.planted then ansNo stWrongMode 0 s
    else ansOk {} ((s.modEvr fun e => { e with planted := true }).event 0 0 11 0 2 []))

end Sys2Proof.Machine
end

