-- ==== Sys2Proof/Machine/Reset.lean ====
section
/-! DEFINITION. A module reset: what survives it in MRAM, NOR, fuses, the drives, the backup domain, the field I/O controller
and the leaf nodes; zeroisation of the vault; and how Exyan starts (17 R365 to R375, 15 R335 to R337). -/
namespace Sys2Proof.Machine

/-! ### What each block keeps -/

/-- A secured node's keys and counters in NOR: the own counter resumes 1,024 above the value stored every 1,024 frames
(15 R347). -/
def keptNode (n : CtlNode) : CtlNode :=
  { kgen := n.kgen, prevOk := n.prevOk, ctrIn := n.ctrIn, ctrOut := n.ctrOut / 1024 * 1024 + 1024, key := n.key, prevKey := n.prevKey
    installed := n.installed, rekIn := n.rekIn, rekOut := n.rekOut }
def keptPort (x : BrPort) : BrPort :=
  { nodes := (x.nodes.filter fun e => e.2.key.isSome).map fun e => (e.1, keptNode e.2) }

/-- The retain slots in MRAM; one whose write is cut off fails its CRC. -/
def keptLogic (g : LogicDie) : LogicDie :=
  { slotA := if g.writing == some false then { g.slotA with good := false } else g.slotA
    slotB := if g.writing == some true then { g.slotB with good := false } else g.slotB }

/-- The calibration sets in MRAM: a set that waits for its second is the one stored (10 R226). -/
def keptInput (x : MInputSt) : MInputSt :=
  match x.nextCal with
  | none => { gain := x.gain, phase := x.phase, offset := x.offset, itrim := x.itrim, crc := x.crc }
  | some (g, p, o, i) => { gain := g, phase := p, offset := o, itrim := i, crc := x.crc }
/-- The metering engine's MRAM: the calibration sets, the total slots, and the clears that have completed but not applied yet. -/
def keptMeter (m : Metering) : Metering :=
  { inputs := smap m.inputs (fun _ x => keptInput x), slotA := m.slotA, slotB := m.slotB
    circuits := (m.circuits.filter fun e => e.2.clear).map fun e => (e.1, { clear := true }) }

/-- A motion channel's instants as the tick counter restarts at 0. -/
def Motion.rebase (x : Motion) (now : Nat) : Motion :=
  { x with homeHit := x.homeHit.map (· - now), ocFar := x.ocFar.map (· - now), ocHome := x.ocHome.map (· - now) }
/-- The part of a configuration that the field I/O controller holds by itself (09 R199). -/
def heldConfig (g : Image) : Image := { chans := g.chans, ains := g.ains, aouts := g.aouts, motions := g.motions }
/-- The field I/O controller goes on by itself: SAFE with cause 2 under the configuration it holds (09 Table 09.3). Its FIO_
registers on die 0 are at reset, HOMED is lost (R204), and its instants count on from the tick counter's restart. -/
def State.keptField (s : State) : FieldIO :=
  let t := s.modFio fun f => { f with safe := true, cause := 2, configured := false, linkUp := false }
  let f := (if s.fio.held then t.applySafe else t).fio
  { safe := true, cause := 2, held := f.held, groups := smap f.groups (fun _ g => { g with
      thr := 180, freeAt := g.freeAt - s.now, retryQ := g.retryQ.map fun e => (e.1 - s.now, e.2) })
    chans := smap f.chans (fun _ x => { x with stBusy := false }), ains := f.ains
    aouts := f.aouts, aoNext := f.aoNext, rank := f.rank
    mots := smap f.mots fun _ x => { x.rebase s.now with homed := false, reqs := [] } }

/-- A block whose write a drive had not completed is not readable there. -/
def spoil (h : History) (n : Nat) (sba : Nat) : History :=
  { h with segs := smap h.segs fun k g =>
      if k = sba / 16384 && 0 < sba % 16384 then
        { g with blocks := g.blocks.zipIdx.map fun e =>
            if e.2 + 1 = sba % 16384 then (if h.mirror && n = 1 then { e.1 with goodB := false } else { e.1 with good := false })
            else e.1 }
      else g }
/-- A metadata write at a block is outstanding on a drive. -/
def Drive.cutAt (x : Drive) (blk : Nat) : Bool :=
  x.cmds.any (fun e => e.2.op == .fua && e.2.sba % 2 ^ 33 == blk) || x.wait.any fun c => c.op == .fua && c.sba % 2 ^ 33 == blk
/-- A metadata copy at a block is cut off: with mirroring, on every drive that serves; otherwise on either. -/
def History.cutCopy (h : History) (blk : Nat) : Bool :=
  if h.mirror then
    let l := [h.d0, h.d1].filter fun x => x.reads
    !l.isEmpty && l.all fun x => x.cutAt blk
  else h.d0.cutAt blk || h.d1.cutAt blk
/-- The drives and the MRAM reservations (12 R259, R260); a checkpoint or superblock copy whose write is cut off does not verify. What
the drives hold is there again once they are ready; the registers read their reset values (Table 12.9). -/
def keptHistory (h : History) : History :=
  let lost (n : Nat) : List (Nat × Nat) :=
    ((((h.drive n).cmds.map (·.2)) ++ (h.drive n).wait).filter fun c => c.op == .write).map fun c => (n, c.sba)
  let cut (blk : Nat) (c : Ckpt) : Ckpt := { c with good := c.good && !h.cutCopy blk }
  let cutS (blk : Nat) (x : Superblock) : Superblock := { x with good := x.good && !h.cutCopy blk }
  let g := (lost 0 ++ lost 1).foldl (fun h e => spoil h e.1 e.2) h
  { d0 := { stale := g.d0.stale || g.d0.replaced }, d1 := { stale := g.d1.stale || g.d1.replaced }
    ckpt0 := cut 1024 g.ckpt0, ckpt1 := cut 8192 g.ckpt1, super0 := cutS 0 g.super0, super1 := cutS 1 g.super1
    segs := g.segs, ages := g.ages, nonce := g.reserved, reserved := g.reserved }

/-- The recorder's MRAM (12 R268 to R274). -/
def keptRecorder (r : Recorder) : Recorder :=
  { head := r.head, sap := r.sap, heart := r.heart, heartN := r.heartN, planted := r.planted, pcc := r.pcc, opsec := r.opsec
    kept := r.kept, nextId := r.nextId }

/-- Vault and bark, fuses, and what NOR holds (15 Table 15.1); a signed counter stays in MRAM, a lock does not. -/
def keptSecurity (x : Security) : Security :=
  { vault := x.vault, cause := x.cause, vaultMem := x.vaultMem, norKeys := x.norKeys, armed := x.armed, meshOk := x.meshOk
    lidClosed := x.lidClosed, wholeFor := x.wholeFor
    tamperN := x.tamperN, fuses := x.fuses, keyHashes := x.keyHashes, histGen := x.histGen, integGen := x.integGen
    creds := smap x.creds (fun _ c => { c with refusals := 0, locked := false }), recovery := x.recovery
    records := x.records, breakDue := x.breakDue, doors := smap x.doors (fun _ d => { version := d.version }) }

/-- The backup domain (16 Table 16.2); the tick count starts again at 0. -/
def State.keptTime (s : State) : Time :=
  let t := s.time
  { valid := t.valid, lost := t.lost, lostNow := t.lostNow, wrap := t.wrap, cal := t.cal, sub := t.sub, win := t.win, atrim := t.atrim
    trimN := t.trimN, trimAdd := t.trimAdd, trimNow := t.trimNow, pend := t.pend, pendCal := t.pendCal, user := t.user
    offset := t.offset, utcSeen := t.utcSeen, vbatLow := t.vbatLow }

/-- System bytes, firmware slots and configuration copies; the reason of this reset goes to system byte 1 (R367). -/
def keptStartup (u : Startup) (reason : Nat) : Startup :=
  { vinGood := u.vinGood, pgood := u.pgood, phase := .held, incomplete := u.incomplete, reason := BitVec.ofNat 8 reason, bootSlot := u.bootSlot
    trial := u.trial, attempts := u.attempts, slot0 := u.slot0, slot1 := u.slot1, copyA := u.copyA, copyB := u.copyB }

/-- The module resets itself, or is reset, for a reason of Table 17.2: it stands held before its root ROM. The graft links train
anew; one that then fails training is a GRAFT_LINK_FAIL (01 R8). -/
def State.moduleReset (s : State) (reason : Nat) : State :=
  { pending := s.pending, cfg := heldConfig s.cfg, member := s.member, nodes := s.nodes, freeN := s.freeN
    pnt := { forces := s.pnt.forces }, ports := smap s.ports (fun _ x => keptPort x), logic := smap s.logic (fun _ g => keptLogic g)
    fio := s.keptField, mtr := keptMeter s.mtr
    hst := keptHistory s.hst, evr := keptRecorder s.evr, host := { serial := s.host.serial, serialHi := w32 (hiW s.host.serial.toNat) }, sec := keptSecurity s.sec
    time := s.keptTime, su := keptStartup s.su reason }

/-! ### Zeroisation (15 R335 to R337) -/

/-- The vault no longer holds the KEK: what it wrapped is unusable, and TAMPER_N is asserted. -/
def State.loseKek (s : State) (st : VaultState) (cause : Nat) : State :=
  let s := s.modSec fun x => { x with
    vault := st, cause := cause, vaultMem := [], openKeys := [], tamperN := false, breakDue := true, keyHashes := [], histGen := []
    integGen := [], creds := x.creds.filter (fun e => e.1 = 64), records := [], locs := [], used := [] }
  let s := s.modSu fun u => { u with copyA := { u.copyA with good := false }, copyB := { u.copyB with good := false } }
  { s with ports := smap s.ports fun _ x => { x with
      nodes := smap x.nodes fun _ n => { n with
        kgen := 0, prevOk := false, ctrIn := 0, ctrOut := 0, key := none, prevKey := none, installed := none, rekIn := false, rekOut := false } } }

def barkCode : BarkCause → Nat
  | .meshOpen => 1
  | .meshShort => 2
  | .lid => 3
/-- The bark is seen broken: the monitor disarms and the vault is zeroised. -/
def State.zeroise (s : State) (c : BarkCause) : State :=
  (s.loseKek .cleared (barkCode c)).modSec fun x => { x with
    armed := false, wholeFor := 0, meshOk := x.meshOk && c == .lid, lidClosed := x.lidClosed && c != .lid }
/-- A break that a disarmed monitor sees changes its status only. -/
def State.showBreak (s : State) (c : BarkCause) : State :=
  s.modSec fun x => { x with wholeFor := 0, meshOk := x.meshOk && c == .lid, lidClosed := x.lidClosed && c != .lid }

/-! ### Graft links (01 R7, R8) -/

/-- The links of a member, numbered in Table 01.4's order. -/
def graftLinks : Member → List (Nat × Nat)
  | .tf2 => [(0, 1), (0, 1)]
  | .tf4 => [(0, 1), (1, 2), (2, 3), (3, 0), (0, 2), (1, 3)]
  | .tf8 => [(0, 1), (1, 2), (2, 3), (3, 4), (4, 5), (5, 6), (6, 7), (7, 0), (0, 4), (1, 5), (2, 6), (3, 7)]
/-- The links in order. -/
def State.goodLinks (s : State) : List (Nat × Nat) :=
  ((graftLinks s.member).zipIdx.filter fun e => !s.links.getLsbD e.2).map fun e => e.1
/-- One more hop. -/
def spread (l : List (Nat × Nat)) (r : List Nat) : List Nat :=
  l.foldl (fun r e => if r.contains e.1 then insNat e.2 r else if r.contains e.2 then insNat e.1 r else r) r
/-- The dies that die 0 reaches. -/
def State.reached (s : State) : List Nat := (List.range 8).foldl (fun r _ => spread s.goodLinks r) [0]

/-! ### Seedling mode (17 R374, R375) -/

/-- Enter seedling mode. -/
def State.enterSeedling (s : State) (reason : Nat) : State :=
  let s := s.modSu fun u => { u with
    seedling := true, seedReason := reason, svcNote := some reason, loading := false, bpen := 0, ready := u.ready.filter (· < 2)
    heldDies := sortNat (u.heldDies ++ (s.dies.filter fun d => 2 ≤ d)) }
  let s := { s with ports := smap s.ports fun _ x => { x.ctrl false x.mode with powered := false } }
  (s.modTrk fun t => { t with relayOnly := true }).event 0 0 15 0 3 [w32 reason]

/-- MBXRDY: every die is ready or held (Table 17.3). -/
def State.mbxCheck (s : State) : State :=
  if s.dies.all fun d => s.su.ready.contains d || s.su.heldDies.contains d then s.modHost fun h => { h with mbxRdy := true } else s

/-- A die is ready: its tables are Exyan's, and dies 0 and 1 run their trunk ports. -/
def State.dieReady (s : State) (d : Nat) : State :=
  let s := (s.modSu fun u => { u with ready := insNat d u.ready }).modAtu d fun x => { x with
    enabled := true, ctxBase := Config.ctxBase d }
  (if d < 2 then s.modTport (d == 1) fun x => { x with en := true, lanes := freshLanes s.now } else s).mbxCheck

/-- A die is held in reset for this start. -/
def State.holdDie (s : State) (d : Nat) : State := (s.modSu fun u => { u with heldDies := insNat d u.heldDies }).mbxCheck

/-! ### Exyan starts (17 R368, R372, R374) -/

/-- The reason for which this start goes into seedling mode; `failed` says that it began with system byte 0 at 3 or more. -/
def State.seedCause (s : State) (failed : Bool) : Option Nat :=
  match s.sec.vault with
  | .empty => some 4
  | .cleared => some 3
  | .lost => some 3
  | .provisioned => if s.su.seedReq then some 5 else if failed then some 1 else none

/-- The calibration sets' CRCs at start-up (10 R224): an input whose set fails runs with gain 1, and an event names it. -/
def State.checkCal (s : State) : State :=
  (s.mtr.inputs.filter fun e => crc32 (calBytes (e.2.gain, e.2.phase, e.2.offset, e.2.itrim)) != e.2.crc).foldl (fun s e =>
    ((s.modMinput e.1 fun x => { x with calBad := true }).modMtr fun m => m.irq 3).event 0 0 9 0 1 [w32 e.1]) s

/-- The check value is verified: where it fails the vault's contents are lost, otherwise the keys in NOR are unwrapped (15 R325,
R336). -/
def State.openVault (s : State) : State :=
  if s.sec.vault != .provisioned then s
  else if s.sec.checkOk then s.modSec fun x => { x with openKeys := x.unwrapped }
  else s.loseKek .lost 4

/-- Exyan runs on die 0: time and totals are taken up, the loss marker kept in MRAM comes first with the time of this start
(12 R269), the reset reason is recorded, and the start goes on to the dies or into seedling mode. -/
def State.bootExyan (s : State) (failed : Bool) : State :=
  let s := s.timeStart.openVault
  let s := s.modEvr fun r => match r.kept with
    | some l => r.pushFront (s.lossRec l)
    | none => r
  let s := if s.sec.breakDue then
      (s.event 0 0 13 0 1 [w32 s.sec.cause]).modSec fun x => { x with breakDue := false }
    else s
  let s := s.event 0 0 15 0 6 [w32 s.su.reason.toNat]
  let s := if s.fio.cause = 2 then (s.modFio fun f => f.irq 5).event 0 0 8 0 7 [2] else s
  let s := (s.modMtr Metering.loadTotals).checkCal
  let s := s.modHost fun h => { h with
    fw := (s.su.slot s.su.running).version, beatAt := s.now }
  let s := s.modSu fun u => { u with phase := .exyan, recovery := false, loading := true }
  let s := s.modTrk fun t => { t with relayOnly := true }
  let c := s.seedCause failed
  let s := s.modSu fun u => { u with seedReq := false }
  match c with
  | some r => (s.enterSeedling r).dieReady 0
  | none => s.dieReady 0

end Sys2Proof.Machine
end

