-- ==== Sys2Proof/Machine/StartUp.lean ====
section
/-! DEFINITION. Supplies, resets and the order of start-up (17 R365 to R382), the bark's monitor (15 R333 to R336), the graft
links (01 R8), and the tick (01 R11). -/
namespace Sys2Proof.Machine

/-! ### Ticks and graft links -/

/-- The monitor sees mesh and switch while VIN is there: what is whole counts on, a break comes with BARK_BREAK (15 R333, R336). -/
def Security.watch (x : Security) (mesh lid : Bool) (n : Nat) : Security :=
  let m := x.meshOk || mesh
  let l := x.lidClosed || lid
  { x with meshOk := m, lidClosed := l, wholeFor := if m && l then min 160000 (x.wholeFor + n) else 0 }

/-- TICK (R11, 16 R356): the counter advances, and the RTC has counted its crystal's cycles; the field inputs and the meter's converters take their samples. -/
def execTick (inp : TickIn) (s : State) : Host.Outcome State Fault Refusal :=
  if !s.runs then done s s
  else
    let t := { s with tick := s.tick + 1, time := s.time.cycles inp.xtal, sec := s.sec.watch inp.mesh inp.lid 1 }
    let t := (if t.exyan then t.fioTick inp.ain else t).fioServe
    done s (if t.up then t.mtrTick inp.mtr else t)

/-- A link changes between failed and in order: an event names it (R8). -/
def State.graftChange (s : State) (link : Nat) (bad : Bool) : State :=
  if !s.runs || (graftLinks s.member).length ≤ link || s.links.getLsbD link == bad then s
  else { s with links := s.links ^^^ BitVec.ofNat 12 (2 ^ link) }.event 0 0 0 link (if bad then 1 else 2) [w32 link]
/-- GRAFT_LINK_FAIL and GRAFT_LINK_RESTORED. -/
def execGraftLinkFail (link : Fin 12) (s : State) : Host.Outcome State Fault Refusal := done s (s.graftChange link.val true)
def execGraftLinkRestored (link : Fin 12) (s : State) : Host.Outcome State Fault Refusal := done s (s.graftChange link.val false)

/-! ### Supplies and resets (R365 to R367, R391) -/

/-- VIN_GOOD: a module without power comes into reset; reason 3 stays where VIN had fallen after a detection. A detection
that VIN outlives ends in a power-on reset (19 Table 19.15), unless the module has been reset since. -/
def execVinGood (s : State) : Host.Outcome State Fault Refusal :=
  if s.su.phase == .off then
    done s (s.modSu fun u => { u with
      vinGood := true, powerFail := false, pgood := true, phase := .held
      reason := if u.resetPin then 2 else if u.reason = 3 then 3 else 1 })
  else if s.su.powerFail then
    done s ((s.moduleReset 1).modSu fun u => { u with vinGood := true, pgood := true })
  else done s (s.modSu fun u => { u with vinGood := true, pgood := true })

/-- POWER_FAIL_DETECT (R365, 06 R134, 10 R223, 12 R274). -/
def execPowerFailDetect (s : State) : Host.Outcome State Fault Refusal :=
  if !s.su.vinGood then done s s
  else
    let t := s.modSu fun u => { u with vinGood := false, powerFail := true, pgood := false }
    if !t.exyan then done s t
    else
      let t := (t.dies.foldl (fun t d => t.logicPowerFail d) t).mtrPowerFail
      let e : Event := { sev := (Config.severity 15 5).val, block := 15, code := 5 }
      done s (t.modEvr fun r => { r with pfWindow := true, pfAt := t.now }.pushFront (t.newRec e))

/-- VIN_COLLAPSE: below 9.0 V nothing runs. -/
def execVinCollapse (s : State) : Host.Outcome State Fault Refusal :=
  if s.su.phase == .off then done s s
  else
    done s ((s.moduleReset (if s.su.powerFail then 3 else 1)).modSu fun u => { u with
      vinGood := false, pgood := false, phase := .off })

/-- RESET_N: the pin holds the module in reset; the start begins when the root ROM runs again. During the VIN ramp it gives the
start its reason (19 Table 19.15). -/
def execResetN (s : State) : Host.Outcome State Fault Refusal :=
  if s.su.phase == .off then done s (s.modSu fun u => { u with resetPin := true })
  else done s ((s.moduleReset 2).modSu fun u => { u with resetPin := true })

/-- MANAGEMENT_WATCHDOG_EXPIRY. -/
def execManagementWatchdogExpiry (s : State) : Host.Outcome State Fault Refusal :=
  if s.exyan then done s (s.moduleReset 4) else done s s

/-- THERMAL_SHUTDOWN (18 R391): the module stays in reset until the root ROM runs again. -/
def execThermalShutdown (d : Die) (s : State) : Host.Outcome State Fault Refusal :=
  if s.su.phase == .off || s.nDies ≤ d.val then done s s
  else done s ((s.moduleReset 8).modSu fun u => { u with hot := true })

/-! ### The bark (15 R333 to R336) -/

/-- BARK_BREAK with VIN present: an armed monitor zeroises the vault and the module resets. -/
def execBarkBreak (cause : BarkCause) (s : State) : Host.Outcome State Fault Refusal :=
  if s.su.phase == .off then done s s
  else if s.sec.armed then done s ((s.zeroise cause).moduleReset 5)
  else done s (s.showBreak cause)

/-- BARK_POLL with VIN absent: the backup domain acts alone; a poll that finds all whole stands for its 250 ms (R334). -/
def execBarkPoll (cause : Option BarkCause) (s : State) : Host.Outcome State Fault Refusal :=
  if s.su.phase != .off then done s s
  else match cause with
  | none => done s (s.modSec fun x => x.watch true true 4000)
  | some c =>
    if s.sec.armed then done s (s.zeroise c)
    else done s (s.showBreak c)

/-- BARK_REARM: the switch has been closed and the mesh intact for 10 s (R336). -/
def execBarkRearm (s : State) : Host.Outcome State Fault Refusal :=
  if s.sec.meshOk && s.sec.lidClosed && 160000 ≤ s.sec.wholeFor then done s (s.modSec fun x => { x with armed := true }) else done s s

/-- BACKUP_POWER_LOSS (R336, 16 Table 16.2): the backup domain and the vault's contents are lost; the next start finds it out. -/
def execBackupPowerLoss (s : State) : Host.Outcome State Fault Refusal :=
  if s.su.phase != .off then done s s
  else
    let t := { s with time := {} }
    let t := t.modSu fun u => { u with incomplete := 0, reason := 0, bootSlot := false, trial := false, attempts := 0 }
    done s (t.modSec fun x => { x with vaultMem := [], armed := false, meshOk := false, lidClosed := false, wholeFor := 0 })

/-! ### The root ROM (R373, R381 to R383) -/

/-- A slot is bootable: it is valid and its SVN is at least F. -/
def State.bootable (s : State) (b : Bool) : Bool := (s.su.slot b).valid && s.sec.fuses ≤ (s.su.slot b).svn

/-- No slot is bootable: recovery. -/
def State.enterRom (s : State) : State :=
  s.modSu fun u => { u with phase := .rom, recovery := true, svc := .rom }

/-- A start outside a trial counts in system byte 0 and boots the slot last booted, or the other. -/
def State.bootLast (s : State) : State :=
  let failed := 3 ≤ s.su.incomplete.toNat
  let s := s.modSu fun u => { u with incomplete := BitVec.ofNat 8 (min 255 (u.incomplete.toNat + 1)), inTrial := false }
  let b := s.su.bootSlot
  if s.bootable b then (s.modSu fun u => { u with running := b }).bootExyan failed
  else if s.bootable !b then (s.modSu fun u => { u with running := !b, bootSlot := !b }).bootExyan failed
  else s.enterRom

/-- A trial start: attempts count up and system byte 0 does not. Where the trial slot is not bootable, the slot last booted
runs, outside the trial (DESIGN CHOICE). -/
def State.bootTrial (s : State) : State :=
  let failed := 3 ≤ s.su.incomplete.toNat
  let b := !s.su.bootSlot
  let s := s.modSu fun u => { u with attempts := u.attempts + 1 }
  if s.bootable b then (s.modSu fun u => { u with running := b, inTrial := true }).bootExyan failed
  else s.bootLast

/-- ROOT_ROM_BOOT: both conditions of reset have ended. -/
def execRootRomBoot (s : State) : Host.Outcome State Fault Refusal :=
  if s.su.phase != .held || !s.su.vinGood then done s s
  else
    let t := s.modSu fun u => { u with resetPin := false, hot := false }
    let t := { t with time := { t.time with lost := t.time.lostNow, lostNow := false } }
    let t := t.modEvr fun r => { r with pcc := if r.pcc = 0xFFFFFF then r.pcc else r.pcc + 1 }
    if !t.su.trial then done s t.bootLast
    else if t.su.attempts < 3 then done s t.bootTrial
    else
      let t := (t.modSu fun u => { u with trial := false, attempts := 0, incomplete := 0 }).bootLast
      done s (if t.exyan then t.event 0 0 17 0 3 [] else t)

/-! ### Dies (R368) -/

/-- DIE_RELEASE: the next die leaves reset, 20 ms after the one before it; `ready` says that its links and its DRAM trained. -/
def execDieRelease (d : Die) (ready : Bool) (s : State) : Host.Outcome State Fault Refusal :=
  let n := d.val
  if s.su.phase != .exyan || s.nDies ≤ n || n != s.su.released || s.su.heldDies.contains n
      || !(n == 1 || s.due s.su.releaseAt (msTicks 20)) then done s s
  else
    let t := s.modSu fun u => { u with released := n + 1, releaseAt := s.now }
    if !ready then done s t
    else if t.reached.contains n then done s (t.dieReady n)
    else done s t

/-- DIE_READY_TIMEOUT: a die that is not ready by +1.5 s is held for this start. -/
def execDieReadyTimeout (d : Die) (s : State) : Host.Outcome State Fault Refusal :=
  let n := d.val
  if s.su.phase != .exyan || s.nDies ≤ n || s.su.ready.contains n || s.su.heldDies.contains n || s.now < msTicks 1500 then done s s
  else done s ((s.holdDie n).event 0 n 15 0 2 [w32 n])

/-! ### The configuration (R372, R376, R377) -/

/-- The CFG_ACTIVATE requests that wait for the load. -/
def State.activateReqs (s : State) : List Req :=
  (List.range 33).flatMap fun k =>
    ((s.sender k).reqs.filter fun q => q.begun && q.result.isNone && q.head.opcode == 0x0E03).map fun q =>
      { sender := Fin.ofNat 33 k, tag := q.head.tag }

/-- The load of a start: the copies in order, each refusal recorded; seedling mode where none is usable. -/
def State.bootLoad (s : State) : List Bool → State
  | [] => s.enterSeedling 2
  | b :: l => match s.brokenRule (s.copy b).img with
    | some n => (s.event 0 0 15 0 2 [w32 n]).bootLoad l
    | none => s.loadCopy b

/-- The load that CFG_ACTIVATE asked for: the newest valid copy, or nothing changes. -/
def State.activate (s : State) : State :=
  let reqs := s.activateReqs
  match s.copies with
  | [] => (s.modSu fun u => { u with loading := false }).finishAll (refusal stInvalid 0) reqs
  | b :: _ => match s.brokenRule (s.copy b).img with
    | some n =>
      ((s.modSu fun u => { u with loading := false }).event 0 0 15 0 2 [w32 n]).finishAll (refusal stInvalid n) reqs
    | none =>
      if s.su.seedling then (s.modSu fun u => { u with incomplete := 0 }).moduleReset 7
      else (s.loadCopy b).finishAll {} reqs

/-- CONFIGURATION_LOAD. -/
def execConfigurationLoad (s : State) : Host.Outcome State Fault Refusal :=
  if !s.su.loading || !s.host.mbxRdy then done s s
  else if s.su.phase == .running || s.su.seedling then done s s.refuseCopies.activate
  else done s (s.refuseCopies.bootLoad s.copies)

/-! ### Ports and logic (R369, R370) -/

/-- The configured ports of the dies that are ready. -/
def State.wavePorts (s : State) : List Nat := (s.cfg.ports.map fun c => c.port).filter fun p => s.dieUp (p / 16)

/-- BRANCH_POWER_WAVE, 250 ms × w after the load: enables k with k mod 4 = w of the dies with a configured port. -/
def execBranchPowerWave (w : Fin 4) (s : State) : Host.Outcome State Fault Refusal :=
  if !s.up || s.su.waves != w.val || !s.due s.su.loadTick (msTicks (250 * w.val)) then done s s
  else
    let l := s.wavePorts
    let dies := (List.range 8).filter fun d => l.any fun p => p / 16 == d
    let t := s.modSu fun u => { u with
      waves := w.val + 1, bpen := dies.foldl (fun b d => b ||| BitVec.ofNat 32 (2 ^ (4 * d + w.val))) u.bpen }
    done s ((l.filter fun p => p % 4 == w.val).foldl (fun t p => t.modPort p fun x => { x with powered := true }) t)

/-- PORT_CYCLING_START, 5 s after the port's wave: the port runs, its first cycle carries the roll call, and CLAIM is broadcast for 20 s. -/
def execPortCyclingStart (p : Port) (s : State) : Host.Outcome State Fault Refusal :=
  let x := s.port p.val
  if s.up && s.wavePorts.contains p.val && x.powered && !x.en && s.due s.su.loadTick (msTicks (250 * (p.val % 4) + 5000)) then
    done s (((s.brCtrl p.val true x.mode).modPort p.val fun y => { y with
      claimEnd := s.now + secTicks 20, claimAt := s.now }).modSu fun u => { u with lastCycle := s.now })
  else done s s

/-- Every enabled port has reported, its nodes all present, or the last port began cycling 10 s ago (R370). -/
def State.portsReported (s : State) : Bool :=
  s.wavePorts.all (fun p => (s.port p).claimEnd != 0)
  && (s.due s.su.lastCycle (secTicks 10)
    || s.wavePorts.all fun p => !(s.port p).en
      || (s.cfg.nodes.filter fun c => c.port == p).all fun c => ((s.port p).node c.addr).state == .present)

/-- LOGIC_START_MODE_APPLY, once the ports have reported: nodes not yet present are marked missing, and each die applies its start mode. -/
def execLogicStartModeApply (s : State) : Host.Outcome State Fault Refusal :=
  if !s.up || !s.portsReported then done s s
  else
    let due := s.cfg.nodes.filter fun c => (s.port c.port).running && ((s.port c.port).node c.addr).state == .unseen
    let t := due.foldl (fun t c => t.markMissing c.port c.addr) s
    done s ((t.dies.filter fun d => t.dieUp d && !(t.die d).started).foldl State.applyStartMode t)

/-! ### Counting starts (R373, R382) -/

/-- What a complete start still lacks: bit 0 a die that is ready and that some link reaches (01 R8), bit 1 a configuration, bit 2 a start mode (DESIGN CHOICE). -/
def State.unmet (s : State) : Nat :=
  flag (!s.dies.all fun d => s.su.ready.contains d && s.reached.contains d) 0 + flag (s.su.phase != .running) 1
    + flag (!s.dies.all fun d => (s.die d).started) 2

/-- START_COMPLETE, within 60 s: system byte 0 clears; a trial slot is accepted; the fuses advance to the SVN that runs (15 R328). -/
def execStartComplete (s : State) : Host.Outcome State Fault Refusal :=
  if !s.up || s.su.complete || s.su.expired || s.unmet != 0 || secTicks 60 < s.now then done s s
  else
    let trial := s.su.inTrial
    let t := s.modSu fun u => { u with
      complete := true, incomplete := 0, faultN := true, bootSlot := if trial then u.running else u.bootSlot
      trial := u.trial && !trial, attempts := if trial then 0 else u.attempts, inTrial := false }
    let t := t.modSec fun x => { x with fuses := max x.fuses (t.su.slot t.su.running).svn }
    let t := t.event 0 0 15 0 1 []
    done s (if trial then t.event 0 0 17 0 2 [] else t)

/-- START_INCOMPLETE_TIMEOUT, after 60 s: the unmet condition is recorded, and a trial start resets the module. -/
def execStartIncompleteTimeout (s : State) : Host.Outcome State Fault Refusal :=
  if !s.exyan || s.su.complete || s.su.expired || s.now < secTicks 60 then done s s
  else
    let t := (s.modSu fun u => { u with expired := true }).event 0 0 15 0 2 [w32 s.unmet]
    done s (if t.su.inTrial then t.moduleReset 9 else t)

end Sys2Proof.Machine
end

