-- ==== Sys2Proof/Machine/Service.lean ====
section
/-! DEFINITION. The service port (17 R379 to R383, 12 R270, R277, 15 R338, R339): its session, firmware updates, and the
commands of seedling mode and recovery. The response's STATUS and detail stand in `svcStatus` and `svcDetail`. -/
namespace Sys2Proof.Machine

/-- Answer a service command. -/
def State.svcAns (s : State) (st : BitVec 16) (detail : Nat) : State :=
  s.modSu fun u => { u with svcStatus := st, svcDetail := detail }

/-- A service command under the sessions that admit it: SVC_OPEN comes first, and a session of another kind refuses. No
command arrives while the module is without power or in reset. -/
def State.svcDo (s : State) (admits : SvcKind → Bool) (f : State → State) : State :=
  if !s.runs then s
  else if s.su.svc == .closed then s.svcAns stNotOpen 0
  else if !admits s.su.svc then s.svcAns stWrongMode 0
  else f (s.svcAns stOk 0)

/-- The sessions of R339 and R383 beside the landlord's. -/
def svcAll : SvcKind → Bool := fun _ => true
def svcNotRom (k : SvcKind) : Bool := k != .rom
def svcMaint (k : SvcKind) : Bool := k == .landlord || k == .recovery
def svcUpdate (k : SvcKind) : Bool := k == .landlord || k == .recovery || k == .rom
def svcProv (k : SvcKind) : Bool := k == .provisioning || k == .recovery

/-! ### The session -/

/-- The session is open. -/
def State.svcStart (s : State) (k : SvcKind) (cred : Option Nat) : State :=
  ((s.svcAns stOk 0).modSu fun u => { u with svc := k }).modSender 32 fun x => { x with
    opened := true, tenant := 0, cred := cred, closing := false }

/-- The landlord's session: a credential of slots 60 to 63. -/
def State.svcOpenLandlord (s : State) (c : CredTry) : State :=
  let n := c.slot.toNat
  let own := 60 ≤ n && n < 64
  if own && s.credPasses n c then (s.credAccepted n c).svcStart .landlord (some n)
  else (s.credRefused 32 n own).svcAns stAuthFailed 0
/-- The session of a module as shipped: no credential. -/
def State.svcOpenShipped (s : State) (c : CredTry) : State :=
  if c.ckind = 0 then s.svcStart .provisioning none else (s.credRefused 32 c.slot.toNat false).svcAns stAuthFailed 0
/-- The session of a cleared module: the recovery verifier. -/
def State.svcOpenCleared (s : State) (c : CredTry) : State :=
  let own := c.slot == 0xFF && c.ckind == 2
  if own && s.credPasses 64 c then (s.credAccepted 64 c).svcStart .recovery (some 64)
  else (s.credRefused 32 (if own then 64 else c.slot.toNat) own).svcAns stAuthFailed 0

/-- SVC_OPEN. -/
def execSvcOpen (c : CredTry) (s : State) : Host.Outcome State Fault Refusal :=
  if !s.runs then done s s
  else if s.su.svc != .closed then done s (s.svcAns stWrongMode 0)
  else match s.sec.vault with
    | .provisioned => done s (s.svcOpenLandlord c)
    | .empty => done s (s.svcOpenShipped c)
    | .cleared => done s (s.svcOpenCleared c)
    | .lost => done s (s.svcOpenCleared c)

/-- SVC_MBX: the request entry joins the session's requests; its completion is the response. -/
def execSvcMbx (b : List Byte) (s : State) : Host.Outcome State Fault Refusal :=
  done s (s.svcDo svcNotRom fun t => t.modSender 32 fun x => { x with reqs := x.reqs ++ [newReq (farHead b)] })

/-- USB_DISCONNECT: the session ends, an update is abandoned; the root ROM goes on to serve recovery. -/
def execUsbDisconnect (s : State) : Host.Outcome State Fault Refusal :=
  if s.su.svc == .rom then done s (s.modSu fun u => { u with update := none }) else done s s.closeService

/-! ### Firmware update (R380 to R383) -/

/-- The bit of DIES that names a member (Table 17.10). -/
def memberBit : Member → Nat
  | .tf2 => 0
  | .tf4 => 1
  | .tf8 => 2
/-- The first check of Table 17.10 that a header fails; 0 where it passes all. -/
def State.fwCheck (s : State) (h : FwHeader) : Nat :=
  if !h.formatOk then 1
  else if !h.dies.getLsbD (memberBit s.member) then 2
  else if !h.hwrevA then 3
  else if !h.sigOk then 4
  else if h.svn.toNat < s.sec.fuses || 64 < h.svn.toNat then 5
  else if h.plen = 0 || 67108864 < h.plen then 6
  else 0

/-- Write a firmware slot. -/
def State.setSlot (s : State) (b : Bool) (x : FwSlot) : State :=
  s.modSu fun u => if b then { u with slot1 := x } else { u with slot0 := x }
/-- The slot that a valid image leaves. -/
def fwSlotOf (h : FwHeader) : FwSlot := { valid := true, svn := h.svn.toNat, version := h.version }

/-- SVC_UPDATE_BEGIN: the header's checks, then the inactive slot is erased. The root ROM receives into DRAM. -/
def execSvcUpdateBegin (h : FwHeader) (s : State) : Host.Outcome State Fault Refusal :=
  done s (s.svcDo svcUpdate fun t =>
    let n := t.fwCheck h
    if n != 0 then
      let t := t.svcAns stInvalid n
      if t.exyan then t.event 0 0 17 0 1 [w32 n] else t
    else
      let t := if t.exyan then t.setSlot (!t.su.running) {} else t
      t.modSu fun u => { u with update := some (h, 0, 0) })

/-- SVC_UPDATE_CHUNK: the next index, 65,536 bytes but for the last. -/
def execSvcUpdateChunk (idx len : Nat) (s : State) : Host.Outcome State Fault Refusal :=
  done s (s.svcDo svcUpdate fun t =>
    match t.su.update with
    | none => t.svcAns stWrongMode 0
    | some (h, next, bytes) =>
      let want := min 65536 (h.plen - bytes)
      if idx != next || want = 0 || len != want then t.svcAns stInvalid 0
      else t.modSu fun u => { u with update := some (h, next + 1, bytes + len) })

/-- SVC_UPDATE_END: digest and signature of what was received. In recovery the image runs and becomes slot 0. -/
def execSvcUpdateEnd (digestOk sigOk : Bool) (s : State) : Host.Outcome State Fault Refusal :=
  done s (s.svcDo svcUpdate fun t =>
    match t.su.update with
    | none => t.svcAns stWrongMode 0
    | some (h, _, bytes) =>
      let t := t.modSu fun u => { u with update := none }
      if bytes != h.plen || !digestOk || !sigOk then t.svcAns stInvalid 0
      else if t.su.svc == .rom then
        let t := (t.setSlot false (fwSlotOf h)).modSu fun u => { u with
          svc := .closed, bootSlot := false, running := false, inTrial := false }
        (t.bootExyan false).event 0 0 17 0 2 []
      else t.setSlot (!t.su.running) (fwSlotOf h))

/-- SVC_ACTIVATE. -/
def execSvcActivate (s : State) : Host.Outcome State Fault Refusal :=
  done s (s.svcDo svcMaint fun t =>
    if (t.su.slot (!t.su.running)).valid then
      (t.modSu fun u => { u with bootSlot := u.running, trial := true, attempts := 0 }).moduleReset 6
    else t.svcAns stWrongMode 0)

/-! ### Resets (Table 17.9) -/

/-- SVC_SEEDLING: the next start goes into seedling mode with reason 5. -/
def execSvcSeedling (s : State) : Host.Outcome State Fault Refusal :=
  done s (s.svcDo svcMaint fun t => (t.moduleReset 7).modSu fun u => { u with seedReq := true })
/-- SVC_RESTART. -/
def execSvcRestart (s : State) : Host.Outcome State Fault Refusal :=
  done s (s.svcDo svcAll fun t => (t.modSu fun u => { u with incomplete := 0 }).moduleReset 7)

/-! ### The event recorder (12 R270, R277) -/

/-- SVC_FREEZE and SVC_THAW: in seedling mode only. -/
def execSvcFreeze (s : State) : Host.Outcome State Fault Refusal :=
  done s (s.svcDo svcMaint fun t =>
    if !t.su.seedling then t.svcAns stWrongMode 0
    else if t.evr.frozen then t
    else (t.event 0 0 11 0 3 []).modEvr fun r => { r with frozen := true, frozenAt := t.now, irqStat := orBit r.irqStat 4 true })
def execSvcThaw (s : State) : Host.Outcome State Fault Refusal :=
  done s (s.svcDo svcMaint fun t => if !t.su.seedling then t.svcAns stWrongMode 0 else t.thaw)

/-- SVC_FACTORY_ERASE: in seedling mode or recovery. -/
def execSvcFactoryErase (s : State) : Host.Outcome State Fault Refusal :=
  done s (s.svcDo svcUpdate fun t =>
    if t.su.seedling || t.su.svc == .rom then t.modEvr fun r => { r with heart := [], sap := [], heartN := 0, planted := false }
    else t.svcAns stWrongMode 0)

/-! ### Provisioning (15 R338, R339) -/

/-- A landlord credential of provisioning data: its slot, its CKIND and the length of its verifier (Table 15.2). -/
def provCredOk (e : Nat × Byte × List Byte) : Bool :=
  e.1 < 64 && ((e.2.1 == 1 && e.2.2.length == 64) || (e.2.1 == 2 && e.2.2.length == 97))
/-- What provisioning data must hold: key hashes, a landlord credential, and a recovery verifier where there is none. -/
def State.provisionBad (s : State) (pr : Provision) : Bool :=
  pr.keyHashes.isEmpty || pr.creds.isEmpty || !pr.creds.all provCredOk
  || (s.sec.recovery.isNone && pr.recovery.isNone) || (s.sec.recovery.isSome && pr.recovery.isSome && s.su.svc != .recovery)

/-- A new KEK, a free value, goes into the vault; what the old one wrapped is erased (R325, Table 15.3). -/
def State.newKek (s : State) : State :=
  let (x, s) := s.draw
  s.modSec fun y => { y with vaultMem := vaultBytes (BitVec.ofNat 256 x) (y.provSeq + 1), norKeys := [], openKeys := [] }
/-- A new KEK, the configuration key and the credential store key, the key hashes, the landlord's credentials, and a recovery verifier
where one is given. -/
def State.provision (s : State) (pr : Provision) : State :=
  let s := ((s.newKek.newKey .config).newKey .credStore).modSec fun x => { x with
    vault := .provisioned, cause := 0, tamperN := true, keyHashes := pr.keyHashes }
  let s := pr.creds.foldl (fun s e => s.setCredSlot e.1 { ckind := e.2.1, verifier := e.2.2 }) s
  match pr.recovery with
  | none => s
  | some v => (s.modSec fun x => { x with recovery := some v }).setCredSlot 64 { ckind := 2, verifier := v }

/-- SVC_PROVISION. It completes a re-provisioning, and with it seedling mode ends in a reset (17 R375). -/
def execSvcProvision (pr : Provision) (s : State) : Host.Outcome State Fault Refusal :=
  done s (s.svcDo svcProv fun t =>
    if t.sec.vault == .provisioned then t.svcAns stWrongMode 0
    else if 8 < pr.keyHashes.length then t.svcAns stNoSpace 0
    else if t.provisionBad pr then t.svcAns stInvalid 0
    else if t.su.seedling then ((t.provision pr).modSu fun u => { u with incomplete := 0 }).moduleReset 7
    else t.provision pr)

end Sys2Proof.Machine
end

