-- ==== Sys2Proof/Machine/Dispatch.lean ====
section
/-! DEFINITION. The one dispatcher: each command of the table calls its meaning. -/
namespace Sys2Proof.Machine

def exec (i : Instr) (s : State) : Host.Outcome State Fault Refusal :=
  match i with
  | .tick inp => Sys2Proof.Machine.execTick inp s
  | .graftLinkFail link => Sys2Proof.Machine.execGraftLinkFail link s
  | .graftLinkRestored link => Sys2Proof.Machine.execGraftLinkRestored link s
  | .rlLowWordRead bar2 off wide => Sys2Proof.Machine.execRlLowWordRead bar2 off wide s
  | .rcRead off => Sys2Proof.Machine.execRcRead off s
  | .w1cWrite bar2 off v => Sys2Proof.Machine.execW1cWrite bar2 off v s
  | .counterClearWrite off v => Sys2Proof.Machine.execCounterClearWrite off v s
  | .registerWrite bar2 off size v => Sys2Proof.Machine.execRegisterWrite bar2 off size v s
  | .pntForceCtrlForce d => Sys2Proof.Machine.execPntForceCtrlForce d s
  | .pntForceCtrlRelease d => Sys2Proof.Machine.execPntForceCtrlRelease d s
  | .staleCheck m => Sys2Proof.Machine.execStaleCheck m s
  | .branchCycleStart p buffered => Sys2Proof.Machine.execBranchCycleStart p buffered s
  | .gclEntryBoundary p => Sys2Proof.Machine.execGclEntryBoundary p s
  | .branchTxStart p room at_ buf => Sys2Proof.Machine.execBranchTxStart p room at_ buf s
  | .branchTxEnd p => Sys2Proof.Machine.execBranchTxEnd p s
  | .collisionDetect p by_ bt => Sys2Proof.Machine.execCollisionDetect p by_ bt s
  | .backoffExpiry p by_ room at_ buf => Sys2Proof.Machine.execBackoffExpiry p by_ room at_ buf s
  | .scheduledOverAmplitude p addr => Sys2Proof.Machine.execScheduledOverAmplitude p addr s
  | .branchTxUnderrun p why => Sys2Proof.Machine.execBranchTxUnderrun p why s
  | .branchRxBadFrame p why => Sys2Proof.Machine.execBranchRxBadFrame p why s
  | .branchRxReport p addr first vals => Sys2Proof.Machine.execBranchRxReport p addr first vals s
  | .branchRxEvent p addr seq ch v => Sys2Proof.Machine.execBranchRxEvent p addr seq ch v s
  | .branchRxResponse p addr seq op status data => Sys2Proof.Machine.execBranchRxResponse p addr seq op status data s
  | .branchRxClaim p uid cls chmap => Sys2Proof.Machine.execBranchRxClaim p uid cls chmap s
  | .branchRxRollcall p addr uid cls stat => Sys2Proof.Machine.execBranchRxRollcall p addr uid cls stat s
  | .branchRxSecure p addr f => Sys2Proof.Machine.execBranchRxSecure p addr f s
  | .slotEnd p addr => Sys2Proof.Machine.execSlotEnd p addr s
  | .nodeLostTimeout p addr => Sys2Proof.Machine.execNodeLostTimeout p addr s
  | .assignRetryTimeout p addr => Sys2Proof.Machine.execAssignRetryTimeout p addr s
  | .nodeCommandTimeout p addr => Sys2Proof.Machine.execNodeCommandTimeout p addr s
  | .claimBroadcastTimer p => Sys2Proof.Machine.execClaimBroadcastTimer p s
  | .brpCtrlWrite p v => Sys2Proof.Machine.execBrpCtrlWrite p v s
  | .brpGclSwap p => Sys2Proof.Machine.execBrpGclSwap p s
  | .dormancyEntry p => Sys2Proof.Machine.execDormancyEntry p s
  | .dormantBeacon p => Sys2Proof.Machine.execDormantBeacon p s
  | .wakeTrainStart p => Sys2Proof.Machine.execWakeTrainStart p s
  | .wakePulse p => Sys2Proof.Machine.execWakePulse p s
  | .dormancyEnd p => Sys2Proof.Machine.execDormancyEnd p s
  | .nodePowerUp p uid cls chmap factory fault key timer => Sys2Proof.Machine.execNodePowerUp p uid cls chmap factory fault key timer s
  | .nodeClaimBroadcastRx uid nslot slotbt claimOpen timer => Sys2Proof.Machine.execNodeClaimBroadcastRx uid nslot slotbt claimOpen timer s
  | .nodeClaimSlot uid timer => Sys2Proof.Machine.execNodeClaimSlot uid timer s
  | .nodeAssignRx uid dst target plan timer => Sys2Proof.Machine.execNodeAssignRx uid dst target plan timer s
  | .nodeBeaconRx uid b timer => Sys2Proof.Machine.execNodeBeaconRx uid b timer s
  | .nodeSlotStart uid first vals => Sys2Proof.Machine.execNodeSlotStart uid first vals s
  | .nodeOutputRx uid dst first vals => Sys2Proof.Machine.execNodeOutputRx uid dst first vals s
  | .nodeFallbackTimeout uid timer => Sys2Proof.Machine.execNodeFallbackTimeout uid timer s
  | .nodeWindowOpen uid timer => Sys2Proof.Machine.execNodeWindowOpen uid timer s
  | .nodeWindowClose uid timer => Sys2Proof.Machine.execNodeWindowClose uid timer s
  | .nodeSeekTimeout uid timer => Sys2Proof.Machine.execNodeSeekTimeout uid timer s
  | .nodeSniff uid carrier timer => Sys2Proof.Machine.execNodeSniff uid carrier timer s
  | .nodeWakeCondition uid ch timer => Sys2Proof.Machine.execNodeWakeCondition uid ch timer s
  | .readInfo uid dst seq => Sys2Proof.Machine.execReadInfo uid dst seq s
  | .setFallback uid dst seq fbt entries => Sys2Proof.Machine.execSetFallback uid dst seq fbt entries s
  | .identify uid dst seq seconds => Sys2Proof.Machine.execIdentify uid dst seq seconds s
  | .setWake uid dst seq mask => Sys2Proof.Machine.execSetWake uid dst seq mask s
  | .forget uid dst seq target => Sys2Proof.Machine.execForget uid dst seq target s
  | .setRamp uid dst seq ramp => Sys2Proof.Machine.execSetRamp uid dst seq ramp s
  | .superframeStart => Sys2Proof.Machine.execSuperframeStart s
  | .fawSighting t l pos => Sys2Proof.Machine.execFawSighting t l pos s
  | .fawPosition t l pos hdr => Sys2Proof.Machine.execFawPosition t l pos hdr s
  | .trunkRxHeader t h own => Sys2Proof.Machine.execTrunkRxHeader t h own s
  | .timeMasterTimeout => Sys2Proof.Machine.execTimeMasterTimeout s
  | .trunkRxFrame t f crc fault full => Sys2Proof.Machine.execTrunkRxFrame t f crc fault full s
  | .trunkRxBadFrame t header => Sys2Proof.Machine.execTrunkRxBadFrame t header s
  | .trunkRxTopology t f b => Sys2Proof.Machine.execTrunkRxTopology t f b s
  | .trunkRxUtcMapping t f u => Sys2Proof.Machine.execTrunkRxUtcMapping t f u s
  | .trunkRxMailboxRequest t f slot b => Sys2Proof.Machine.execTrunkRxMailboxRequest t f slot b s
  | .trunkRxReplicaBlock t f seg blk data => Sys2Proof.Machine.execTrunkRxReplicaBlock t f seg blk data s
  | .unwrap t => Sys2Proof.Machine.execUnwrap t s
  | .trunkTxUnderrun t n why => Sys2Proof.Machine.execTrunkTxUnderrun t n why s
  | .trkCtrlWrite t v => Sys2Proof.Machine.execTrkCtrlWrite t v s
  | .trkGclSwap t => Sys2Proof.Machine.execTrkGclSwap t s
  | .trainingFrameRx t l ctrl crcOk rxReady => Sys2Proof.Machine.execTrainingFrameRx t l ctrl crcOk rxReady s
  | .laneTrainingTimeout t l => Sys2Proof.Machine.execLaneTrainingTimeout t l s
  | .scanStart d => Sys2Proof.Machine.execScanStart d s
  | .scanCommit d us => Sys2Proof.Machine.execScanCommit d us s
  | .retainWriteComplete d readBack => Sys2Proof.Machine.execRetainWriteComplete d readBack s
  | .scanLimitExpiry d => Sys2Proof.Machine.execScanLimitExpiry d s
  | .lscCtrlRunCold d => Sys2Proof.Machine.execLscCtrlRunCold d s
  | .lscCtrlRunWarm d => Sys2Proof.Machine.execLscCtrlRunWarm d s
  | .lscCtrlStop d => Sys2Proof.Machine.execLscCtrlStop d s
  | .lscCtrlHold d => Sys2Proof.Machine.execLscCtrlHold d s
  | .lscCtrlStep d c => Sys2Proof.Machine.execLscCtrlStep d c s
  | .lscCtrlResume d => Sys2Proof.Machine.execLscCtrlResume d s
  | .hwBreakpoint k => Sys2Proof.Machine.execHwBreakpoint k s
  | .illegalInstruction k w => Sys2Proof.Machine.execIllegalInstruction k w s
  | .add k r => Sys2Proof.Machine.execAdd k r s
  | .adds k r => Sys2Proof.Machine.execAdds k r s
  | .sub k r => Sys2Proof.Machine.execSub k r s
  | .subs k r => Sys2Proof.Machine.execSubs k r s
  | .and k r => Sys2Proof.Machine.execAnd k r s
  | .or k r => Sys2Proof.Machine.execOr k r s
  | .xor k r => Sys2Proof.Machine.execXor k r s
  | .shl k r => Sys2Proof.Machine.execShl k r s
  | .shr k r => Sys2Proof.Machine.execShr k r s
  | .sha k r => Sys2Proof.Machine.execSha k r s
  | .mul k r => Sys2Proof.Machine.execMul k r s
  | .mulf k r => Sys2Proof.Machine.execMulf k r s
  | .div k r => Sys2Proof.Machine.execDiv k r s
  | .rem k r => Sys2Proof.Machine.execRem k r s
  | .cmp k r => Sys2Proof.Machine.execCmp k r s
  | .min k r => Sys2Proof.Machine.execMin k r s
  | .max k r => Sys2Proof.Machine.execMax k r s
  | .addi k im => Sys2Proof.Machine.execAddi k im s
  | .addsi k im => Sys2Proof.Machine.execAddsi k im s
  | .andi k im => Sys2Proof.Machine.execAndi k im s
  | .ori k im => Sys2Proof.Machine.execOri k im s
  | .xori k im => Sys2Proof.Machine.execXori k im s
  | .shli k im => Sys2Proof.Machine.execShli k im s
  | .shri k im => Sys2Proof.Machine.execShri k im s
  | .shai k im => Sys2Proof.Machine.execShai k im s
  | .cmpi k im => Sys2Proof.Machine.execCmpi k im s
  | .ldi k im => Sys2Proof.Machine.execLdi k im s
  | .ld k im => Sys2Proof.Machine.execLd k im s
  | .st k im => Sys2Proof.Machine.execSt k im s
  | .ldx k im => Sys2Proof.Machine.execLdx k im s
  | .stx k im => Sys2Proof.Machine.execStx k im s
  | .ldp k im => Sys2Proof.Machine.execLdp k im s
  | .ldps k im => Sys2Proof.Machine.execLdps k im s
  | .stp k im => Sys2Proof.Machine.execStp k im s
  | .stpq k r => Sys2Proof.Machine.execStpq k r s
  | .br k b => Sys2Proof.Machine.execBr k b s
  | .call k b => Sys2Proof.Machine.execCall k b s
  | .callr k r => Sys2Proof.Machine.execCallr k r s
  | .ret k r => Sys2Proof.Machine.execRet k r s
  | .taskend k r => Sys2Proof.Machine.execTaskend k r s
  | .trap k im => Sys2Proof.Machine.execTrap k im s
  | .brk k r => Sys2Proof.Machine.execBrk k r s
  | .tstart k im => Sys2Proof.Machine.execTstart k im s
  | .telap k im => Sys2Proof.Machine.execTelap k im s
  | .tdone k r => Sys2Proof.Machine.execTdone k r s
  | .mfs k r => Sys2Proof.Machine.execMfs k r s
  | .mts k r => Sys2Proof.Machine.execMts k r s
  | .spill k r => Sys2Proof.Machine.execSpill k r s
  | .fill k r => Sys2Proof.Machine.execFill k r s
  | .abort k r => Sys2Proof.Machine.execAbort k r s
  | .tret k r => Sys2Proof.Machine.execTret k r s
  | .loopSample d n late => Sys2Proof.Machine.execLoopSample d n late s
  | .loopOutputApply d n => Sys2Proof.Machine.execLoopOutputApply d n s
  | .localLoopOutput => Sys2Proof.Machine.execLocalLoopOutput s
  | .lpeSSwap d n reset => Sys2Proof.Machine.execLpeSSwap d n reset s
  | .lpeSClrSat d n => Sys2Proof.Machine.execLpeSClrSat d n s
  | .lpeTuStart d u v => Sys2Proof.Machine.execLpeTuStart d u v s
  | .lpeTuStop d u => Sys2Proof.Machine.execLpeTuStop d u s
  | .fioLinkLoss => Sys2Proof.Machine.execFioLinkLoss s
  | .watchdogRefresh => Sys2Proof.Machine.execWatchdogRefresh s
  | .fioWatchdogExpiry => Sys2Proof.Machine.execFioWatchdogExpiry s
  | .fioControllerPowerUp => Sys2Proof.Machine.execFioControllerPowerUp s
  | .fioRelease => Sys2Proof.Machine.execFioRelease s
  | .fioStStart => Sys2Proof.Machine.execFioStStart s
  | .fioStStop => Sys2Proof.Machine.execFioStStop s
  | .fioClr v => Sys2Proof.Machine.execFioClr v s
  | .supplySample volts currents => Sys2Proof.Machine.execSupplySample volts currents s
  | .inputRawChange c high => Sys2Proof.Machine.execInputRawChange c high s
  | .inputFilterSample c => Sys2Proof.Machine.execInputFilterSample c s
  | .inputPointRefresh analog => Sys2Proof.Machine.execInputPointRefresh analog s
  | .pulseEdge c => Sys2Proof.Machine.execPulseEdge c s
  | .blankingEnd c limiting => Sys2Proof.Machine.execBlankingEnd c limiting s
  | .overcurrentDetect c => Sys2Proof.Machine.execOvercurrentDetect c s
  | .thermalTrip c => Sys2Proof.Machine.execThermalTrip c s
  | .retryTimerExpiry c => Sys2Proof.Machine.execRetryTimerExpiry c s
  | .groupOverloadDetect g => Sys2Proof.Machine.execGroupOverloadDetect g s
  | .selftestPassStart => Sys2Proof.Machine.execSelftestPassStart s
  | .selftestSlot c bad => Sys2Proof.Machine.execSelftestSlot c bad s
  | .motionTargetChange m => Sys2Proof.Machine.execMotionTargetChange m s
  | .moveTimeout m => Sys2Proof.Machine.execMoveTimeout m s
  | .pulseLossTimeout m => Sys2Proof.Machine.execPulseLossTimeout m s
  | .deadTimeExpiry m => Sys2Proof.Machine.execDeadTimeExpiry m s
  | .coastEnd m => Sys2Proof.Machine.execCoastEnd m s
  | .fioMFar m => Sys2Proof.Machine.execFioMFar m s
  | .fioMHomeDirection m => Sys2Proof.Machine.execFioMHomeDirection m s
  | .fioMGoto m => Sys2Proof.Machine.execFioMGoto m s
  | .fioMStop m => Sys2Proof.Machine.execFioMStop m s
  | .fioMHome m => Sys2Proof.Machine.execFioMHome m s
  | .fioMClearFault m => Sys2Proof.Machine.execFioMClearFault m s
  | .fioMResetCoast m => Sys2Proof.Machine.execFioMResetCoast m s
  | .meteringSecondEnd => Sys2Proof.Machine.execMeteringSecondEnd s
  | .halfCycleEnd v => Sys2Proof.Machine.execHalfCycleEnd v s
  | .harmonicWindowEnd set => Sys2Proof.Machine.execHarmonicWindowEnd set s
  | .mtrStStart => Sys2Proof.Machine.execMtrStStart s
  | .mtrStStop => Sys2Proof.Machine.execMtrStStop s
  | .mtrSelftestTimer => Sys2Proof.Machine.execMtrSelftestTimer s
  | .meterSelftestConnect => Sys2Proof.Machine.execMeterSelftestConnect s
  | .meterSelftestDisconnect => Sys2Proof.Machine.execMeterSelftestDisconnect s
  | .dmaStart d c exyan => Sys2Proof.Machine.execDmaStart d c exyan s
  | .dmaResume d c exyan => Sys2Proof.Machine.execDmaResume d c exyan s
  | .dmaSkip d c exyan => Sys2Proof.Machine.execDmaSkip d c exyan s
  | .dmaAbort d c exyan => Sys2Proof.Machine.execDmaAbort d c exyan s
  | .dmaElement d bus => Sys2Proof.Machine.execDmaElement d bus s
  | .atuInvContext d => Sys2Proof.Machine.execAtuInvContext d s
  | .atuInvPage d => Sys2Proof.Machine.execAtuInvPage d s
  | .atuInvAll d => Sys2Proof.Machine.execAtuInvAll d s
  | .invalidationComplete d => Sys2Proof.Machine.execInvalidationComplete d s
  | .atuFqPop d => Sys2Proof.Machine.execAtuFqPop d s
  | .pageOwnerAssign d page owner map => Sys2Proof.Machine.execPageOwnerAssign d page owner map s
  | .nvmeCompletion drive cid ok fault => Sys2Proof.Machine.execNvmeCompletion drive cid ok fault s
  | .nvmeCommandTimeout drive cid => Sys2Proof.Machine.execNvmeCommandTimeout drive cid s
  | .nvmeReissue drive cid => Sys2Proof.Machine.execNvmeReissue drive cid s
  | .driveReady drive blocks suitable cache dsm serial => Sys2Proof.Machine.execDriveReady drive blocks suitable cache dsm serial s
  | .checkpointTimer => Sys2Proof.Machine.execCheckpointTimer s
  | .trendPeriodic series => Sys2Proof.Machine.execTrendPeriodic series s
  | .trendFlushTimer d ten => Sys2Proof.Machine.execTrendFlushTimer d ten s
  | .resyncSegmentCopy => Sys2Proof.Machine.execResyncSegmentCopy s
  | .eventReport e => Sys2Proof.Machine.execEventReport e s
  | .eventCommit => Sys2Proof.Machine.execEventCommit s
  | .evrOverflowClear => Sys2Proof.Machine.execEvrOverflowClear s
  | .recorderPowerfailWindowEnd => Sys2Proof.Machine.execRecorderPowerfailWindowEnd s
  | .freezeTimeout => Sys2Proof.Machine.execFreezeTimeout s
  | .opsecIncrement => Sys2Proof.Machine.execOpsecIncrement s
  | .perstAssert => Sys2Proof.Machine.execPerstAssert s
  | .functionLevelReset => Sys2Proof.Machine.execFunctionLevelReset s
  | .d3hotEntry => Sys2Proof.Machine.execD3hotEntry s
  | .d0Return => Sys2Proof.Machine.execD0Return s
  | .heartbeatTimer => Sys2Proof.Machine.execHeartbeatTimer s
  | .mbxSlotEnable k irq => Sys2Proof.Machine.execMbxSlotEnable k irq s
  | .mbxSlotDisable k irq => Sys2Proof.Machine.execMbxSlotDisable k irq s
  | .mbxIrqEnable k => Sys2Proof.Machine.execMbxIrqEnable k s
  | .mbxRqTail k v => Sys2Proof.Machine.execMbxRqTail k v s
  | .mbxCqHead k v => Sys2Proof.Machine.execMbxCqHead k v s
  | .requestFetch k m fault => Sys2Proof.Machine.execRequestFetch k m fault s
  | .requestComplete r hostOk => Sys2Proof.Machine.execRequestComplete r hostOk s
  | .watermarkCompare => Sys2Proof.Machine.execWatermarkCompare s
  | .wmkStatWrite n v => Sys2Proof.Machine.execWmkStatWrite n v s
  | .wmkEnable n => Sys2Proof.Machine.execWmkEnable n s
  | .snapTake => Sys2Proof.Machine.execSnapTake s
  | .devInfo r => Sys2Proof.Machine.execDevInfo r s
  | .devTemps r => Sys2Proof.Machine.execDevTemps r s
  | .wmkGet r slot => Sys2Proof.Machine.execWmkGet r slot s
  | .wmkSet r slot en thr hyst ten => Sys2Proof.Machine.execWmkSet r slot en thr hyst ten s
  | .wmkRearm r slot => Sys2Proof.Machine.execWmkRearm r slot s
  | .memPoisonList r die start => Sys2Proof.Machine.execMemPoisonList r die start s
  | .memPoisonClear r pa => Sys2Proof.Machine.execMemPoisonClear r pa s
  | .regRead r die off words gen => Sys2Proof.Machine.execRegRead r die off words gen s
  | .regWrite r die off v => Sys2Proof.Machine.execRegWrite r die off v s
  | .sessionOpen r c => Sys2Proof.Machine.execSessionOpen r c s
  | .sessionClose r => Sys2Proof.Machine.execSessionClose r s
  | .sessionInfo r => Sys2Proof.Machine.execSessionInfo r s
  | .winTake r => Sys2Proof.Machine.execWinTake r s
  | .winGive r => Sys2Proof.Machine.execWinGive r s
  | .sessionList r => Sys2Proof.Machine.execSessionList r s
  | .pntRead r refs => Sys2Proof.Machine.execPntRead r refs s
  | .pntReadBlock r die block => Sys2Proof.Machine.execPntReadBlock r die block s
  | .pntWrite r ref v => Sys2Proof.Machine.execPntWrite r ref v s
  | .pntForce r ref v => Sys2Proof.Machine.execPntForce r ref v s
  | .pntRelease r ref => Sys2Proof.Machine.execPntRelease r ref s
  | .pntForceList r start => Sys2Proof.Machine.execPntForceList r start s
  | .pntDescRead r ref => Sys2Proof.Machine.execPntDescRead r ref s
  | .brEnable r port en mode => Sys2Proof.Machine.execBrEnable r port en mode s
  | .brStatus r port => Sys2Proof.Machine.execBrStatus r port s
  | .brSchedLoad r port cycleMs n gcl => Sys2Proof.Machine.execBrSchedLoad r port cycleMs n gcl s
  | .brStats r port clear => Sys2Proof.Machine.execBrStats r port clear s
  | .brTxthr r port thr => Sys2Proof.Machine.execBrTxthr r port thr s
  | .brDormancy r port en start stop period rcn => Sys2Proof.Machine.execBrDormancy r port en start stop period rcn s
  | .brNodes r port => Sys2Proof.Machine.execBrNodes r port s
  | .brNodeCmd r node op args => Sys2Proof.Machine.execBrNodeCmd r node op args s
  | .brClaim r port nslot slotbt => Sys2Proof.Machine.execBrClaim r port nslot slotbt s
  | .brUnbound r port => Sys2Proof.Machine.execBrUnbound r port s
  | .trkStatus r port => Sys2Proof.Machine.execTrkStatus r port s
  | .trkEnable r port v => Sys2Proof.Machine.execTrkEnable r port v s
  | .trkSchedLoad r port n gcl => Sys2Proof.Machine.execTrkSchedLoad r port n gcl s
  | .trkStats r port clear => Sys2Proof.Machine.execTrkStats r port clear s
  | .trkTxthr r port thr => Sys2Proof.Machine.execTrkTxthr r port thr s
  | .trkRingMap r => Sys2Proof.Machine.execTrkRingMap r s
  | .trkPrio r prio => Sys2Proof.Machine.execTrkPrio r prio s
  | .logicStatus r die => Sys2Proof.Machine.execLogicStatus r die s
  | .logicRun r mask warm => Sys2Proof.Machine.execLogicRun r mask warm s
  | .logicStop r mask => Sys2Proof.Machine.execLogicStop r mask s
  | .logicHold r mask => Sys2Proof.Machine.execLogicHold r mask s
  | .logicStep r die core => Sys2Proof.Machine.execLogicStep r die core s
  | .logicResume r mask => Sys2Proof.Machine.execLogicResume r mask s
  | .logicDownload r mask img ck => Sys2Proof.Machine.execLogicDownload r mask img ck s
  | .logicTasks r die => Sys2Proof.Machine.execLogicTasks r die s
  | .logicReadVar r die task addr count => Sys2Proof.Machine.execLogicReadVar r die task addr count s
  | .logicWriteVar r die task addr v => Sys2Proof.Machine.execLogicWriteVar r die task addr v s
  | .logicPatchConst r die task idx v => Sys2Proof.Machine.execLogicPatchConst r die task idx v s
  | .logicBpSet r die core idx addr en => Sys2Proof.Machine.execLogicBpSet r die core idx addr en s
  | .logicBpRead r die core => Sys2Proof.Machine.execLogicBpRead r die core s
  | .logicCoreRead r die core => Sys2Proof.Machine.execLogicCoreRead r die core s
  | .loopGet r die slot => Sys2Proof.Machine.execLoopGet r die slot s
  | .loopSetLimits r die slot omin omax rate => Sys2Proof.Machine.execLoopSetLimits r die slot omin omax rate s
  | .loopSetSp r die slot v => Sys2Proof.Machine.execLoopSetSp r die slot v s
  | .loopWriteBank r die slot words => Sys2Proof.Machine.execLoopWriteBank r die slot words s
  | .loopSwap r die slot reset => Sys2Proof.Machine.execLoopSwap r die slot reset s
  | .loopTestStart r die slot ctrl amp len hold p0 rho steps records => Sys2Proof.Machine.execLoopTestStart r die slot ctrl amp len hold p0 rho steps records s
  | .loopTestStop r die unit => Sys2Proof.Machine.execLoopTestStop r die unit s
  | .loopTestRead r die unit first => Sys2Proof.Machine.execLoopTestRead r die unit first s
  | .loopBudget r die => Sys2Proof.Machine.execLoopBudget r die s
  | .fioStatus r => Sys2Proof.Machine.execFioStatus r s
  | .fioGroups r => Sys2Proof.Machine.execFioGroups r s
  | .fioClear r ch => Sys2Proof.Machine.execFioClear r ch s
  | .fioSelftest r action interval => Sys2Proof.Machine.execFioSelftest r action interval s
  | .fioWatchdog r tmo logic => Sys2Proof.Machine.execFioWatchdog r tmo logic s
  | .motCmd r m cmd target => Sys2Proof.Machine.execMotCmd r m cmd target s
  | .motStatus r m => Sys2Proof.Machine.execMotStatus r m s
  | .mtrCircuit r k => Sys2Proof.Machine.execMtrCircuit r k s
  | .mtrVset r set => Sys2Proof.Machine.execMtrVset r set s
  | .mtrHarm r input orders => Sys2Proof.Machine.execMtrHarm r input orders s
  | .mtrTotals r k => Sys2Proof.Machine.execMtrTotals r k s
  | .mtrTotalsClear r k => Sys2Proof.Machine.execMtrTotalsClear r k s
  | .mtrCalRead r input => Sys2Proof.Machine.execMtrCalRead r input s
  | .mtrCalMeasure r input => Sys2Proof.Machine.execMtrCalMeasure r input s
  | .mtrCalWrite r input gain phase offset itrim => Sys2Proof.Machine.execMtrCalWrite r input gain phase offset itrim s
  | .mtrSelftest r action interval => Sys2Proof.Machine.execMtrSelftest r action interval s
  | .mtrWaveStart r mask frames va => Sys2Proof.Machine.execMtrWaveStart r mask frames va s
  | .mtrWaveStop r => Sys2Proof.Machine.execMtrWaveStop r s
  | .mtrConfigRead r => Sys2Proof.Machine.execMtrConfigRead r s
  | .hstRead r series first last => Sys2Proof.Machine.execHstRead r series first last s
  | .hstReadTime r series first last => Sys2Proof.Machine.execHstReadTime r series first last s
  | .hstQuota r ten => Sys2Proof.Machine.execHstQuota r ten s
  | .hstStatus r => Sys2Proof.Machine.execHstStatus r s
  | .hstResync r => Sys2Proof.Machine.execHstResync r s
  | .hstReplicaRead r src seg blk count => Sys2Proof.Machine.execHstReplicaRead r src seg blk count s
  | .evtRead r first count => Sys2Proof.Machine.execEvtRead r first count s
  | .evtHeartRead r first count => Sys2Proof.Machine.execEvtHeartRead r first count s
  | .evtPlant r => Sys2Proof.Machine.execEvtPlant r s
  | .accCredAdd r c => Sys2Proof.Machine.execAccCredAdd r c s
  | .accCredDel r idx => Sys2Proof.Machine.execAccCredDel r idx s
  | .accCredRead r idx => Sys2Proof.Machine.execAccCredRead r idx s
  | .accDoorCmd r door action seconds => Sys2Proof.Machine.execAccDoorCmd r door action seconds s
  | .accDoorStatus r door => Sys2Proof.Machine.execAccDoorStatus r door s
  | .accPassbackReset r area idx => Sys2Proof.Machine.execAccPassbackReset r area idx s
  | .timeGet r => Sys2Proof.Machine.execTimeGet r s
  | .timeSet r utcMs offset => Sys2Proof.Machine.execTimeSet r utcMs offset s
  | .rtcTrim r add n => Sys2Proof.Machine.execRtcTrim r add n s
  | .rtcUserRead r first count => Sys2Proof.Machine.execRtcUserRead r first count s
  | .rtcUserWrite r first count bytes => Sys2Proof.Machine.execRtcUserWrite r first count bytes s
  | .rtcSysRead r => Sys2Proof.Machine.execRtcSysRead r s
  | .cfgStatus r => Sys2Proof.Machine.execCfgStatus r s
  | .cfgWrite r img ck => Sys2Proof.Machine.execCfgWrite r img ck s
  | .cfgActivate r => Sys2Proof.Machine.execCfgActivate r s
  | .secStatus r => Sys2Proof.Machine.execSecStatus r s
  | .secCredSet r slot ten ckind verifier => Sys2Proof.Machine.execSecCredSet r slot ten ckind verifier s
  | .secKeyRotate r ten kind => Sys2Proof.Machine.execSecKeyRotate r ten kind s
  | .secEscrowExport r ten key => Sys2Proof.Machine.execSecEscrowExport r ten key s
  | .barkBreak cause => Sys2Proof.Machine.execBarkBreak cause s
  | .barkPoll cause => Sys2Proof.Machine.execBarkPoll cause s
  | .barkRearm => Sys2Proof.Machine.execBarkRearm s
  | .read => Sys2Proof.Machine.execRead s
  | .offline => Sys2Proof.Machine.execOffline s
  | .timeMessageSend => Sys2Proof.Machine.execTimeMessageSend s
  | .passbackForgiveness idx => Sys2Proof.Machine.execPassbackForgiveness idx s
  | .credentialLockoutEnd slot => Sys2Proof.Machine.execCredentialLockoutEnd slot s
  | .rtcSecond => Sys2Proof.Machine.execRtcSecond s
  | .rtcMsecRead => Sys2Proof.Machine.execRtcMsecRead s
  | .rtcYearRead => Sys2Proof.Machine.execRtcYearRead s
  | .rtcFreezeTimeout => Sys2Proof.Machine.execRtcFreezeTimeout s
  | .rtcCommit => Sys2Proof.Machine.execRtcCommit s
  | .rtcCommitDone => Sys2Proof.Machine.execRtcCommitDone s
  | .rtcTrimWrite v => Sys2Proof.Machine.execRtcTrimWrite v s
  | .rtcTrimWindow => Sys2Proof.Machine.execRtcTrimWindow s
  | .rtcAtrimMeasure => Sys2Proof.Machine.execRtcAtrimMeasure s
  | .rtcSyncCheck => Sys2Proof.Machine.execRtcSyncCheck s
  | .ringTimeLoss => Sys2Proof.Machine.execRingTimeLoss s
  | .vbatLowDetect => Sys2Proof.Machine.execVbatLowDetect s
  | .vinGood => Sys2Proof.Machine.execVinGood s
  | .powerFailDetect => Sys2Proof.Machine.execPowerFailDetect s
  | .vinCollapse => Sys2Proof.Machine.execVinCollapse s
  | .resetN => Sys2Proof.Machine.execResetN s
  | .managementWatchdogExpiry => Sys2Proof.Machine.execManagementWatchdogExpiry s
  | .thermalShutdown d => Sys2Proof.Machine.execThermalShutdown d s
  | .rootRomBoot => Sys2Proof.Machine.execRootRomBoot s
  | .dieRelease d ready => Sys2Proof.Machine.execDieRelease d ready s
  | .dieReadyTimeout d => Sys2Proof.Machine.execDieReadyTimeout d s
  | .configurationLoad => Sys2Proof.Machine.execConfigurationLoad s
  | .branchPowerWave w => Sys2Proof.Machine.execBranchPowerWave w s
  | .portCyclingStart p => Sys2Proof.Machine.execPortCyclingStart p s
  | .logicStartModeApply => Sys2Proof.Machine.execLogicStartModeApply s
  | .startComplete => Sys2Proof.Machine.execStartComplete s
  | .startIncompleteTimeout => Sys2Proof.Machine.execStartIncompleteTimeout s
  | .svcOpen c => Sys2Proof.Machine.execSvcOpen c s
  | .svcMbx b => Sys2Proof.Machine.execSvcMbx b s
  | .svcUpdateBegin h => Sys2Proof.Machine.execSvcUpdateBegin h s
  | .svcUpdateChunk idx len => Sys2Proof.Machine.execSvcUpdateChunk idx len s
  | .svcUpdateEnd digestOk sigOk => Sys2Proof.Machine.execSvcUpdateEnd digestOk sigOk s
  | .svcActivate => Sys2Proof.Machine.execSvcActivate s
  | .svcSeedling => Sys2Proof.Machine.execSvcSeedling s
  | .svcRestart => Sys2Proof.Machine.execSvcRestart s
  | .svcFreeze => Sys2Proof.Machine.execSvcFreeze s
  | .svcThaw => Sys2Proof.Machine.execSvcThaw s
  | .svcFactoryErase => Sys2Proof.Machine.execSvcFactoryErase s
  | .svcProvision pr => Sys2Proof.Machine.execSvcProvision pr s
  | .usbDisconnect => Sys2Proof.Machine.execUsbDisconnect s
  | .junctionCooled c => Sys2Proof.Machine.execJunctionCooled c s
  | .vbatRestored => Sys2Proof.Machine.execVbatRestored s
  | .backupPowerLoss => Sys2Proof.Machine.execBackupPowerLoss s
  | .unlockTimeExpiry door => Sys2Proof.Machine.execUnlockTimeExpiry door s
  | .floorValidityExpiry station => Sys2Proof.Machine.execFloorValidityExpiry station s
  | .nodeSecureRx uid dst f => Sys2Proof.Machine.execNodeSecureRx uid dst f s
  | .offlineDecision uid reader method cid => Sys2Proof.Machine.execOfflineDecision uid reader method cid s

end Sys2Proof.Machine
end

