-- ==== Sys2Proof/Safety.lean ====
section
/-! DEFINITION. What counts as a safe step: the block answers a next state. The spec answers every error with a status, a
count, a flag, an event, a trap or a reset, so a step that stops the block would be no behaviour of the module. -/
namespace Sys2Proof.Machine

/-- The outcome is a next state. -/
def Safe (o : Host.Outcome State Fault Refusal) : Prop := ∃ t, o = .next t

/-- TAMPER_N is asserted, the pin low, exactly while the vault is cleared or lost (15 R335, R336). -/
def State.tamperOk (s : State) : Prop := s.sec.tamperN = !(s.sec.vault == .cleared || s.sec.vault == .lost)

/-- Request `r`, whose entry is `h` with opcode `op` and data that `p` admits, is at place `i` of its session and may start: it passes the checks of
14 R312 that need no command, and neither seedling mode nor a configuration load holds it off (R315). -/
abbrev State.offers (s : State) (r : Req) (op : Nat) (p : List Byte → Bool) (h : ReqHead) (i : Nat) : Prop :=
  startable r.tag (reqIs op p) (s.sender r.sender.val).reqs = some i
  ∧ (s.sender r.sender.val).reqs[i]? = some { head := h } ∧ h.tag = r.tag ∧ p h.data = true
  ∧ s.early r.sender.val h = none ∧ s.su.seedling = false ∧ s.su.loading = false

/-- The result that the request at place `i` of a session has, where it has one. -/
def State.resultOf (s : State) (r : Req) (i : Nat) : Option Result :=
  ((s.sender r.sender.val).reqs[i]?).bind fun q => q.result

/-- The core that a logic command names, and its die. -/
abbrev State.coreOf (s : State) (k : CoreRef) : CoreSt := s.core k.die.val k.core.val
abbrev State.dieOf (s : State) (k : CoreRef) : LogicDie := s.die k.die.val

/-- Core `k` executes the instruction of `len` words at its PC: it runs, the code reaches that far, no enabled breakpoint
stands there, no step is in progress, and the scan goes on. -/
abbrev State.mayRun (s : State) (k : CoreRef) (len : Nat) : Prop :=
  s.coreRuns k.die.val k.core.val = true ∧ s.beyond k.die.val k.core.val len = false ∧ (s.coreOf k).atBp = false
  ∧ (s.coreOf k).stepping = false ∧ (s.coreOf k).ending = false

/-- A cached translation takes the page of a device-virtual address to physical page `page` of usable DRAM that the context's
tenant may reach (11 R233, R238). -/
abbrev State.mapped (s : State) (d ctx va page : Nat) (e : Pte) : Prop :=
  sfind (s.atu d).tlb (ctx * 2 ^ 24 + va / 4096) = some (page, e)
  ∧ (s.ctxTenant ctx = 0 ∨ s.owner page = s.ctxTenant ctx) ∧ s.paOk (4096 * page) = true

/-! ### Families of commands, for the statements of what a command leaves unchanged -/

/-- The commands of a branch port or a leaf node of it. -/
def branchCmd : Instr → Bool
  | .gclEntryBoundary .. | .branchTxStart .. | .branchTxEnd .. | .collisionDetect .. | .backoffExpiry ..
  | .scheduledOverAmplitude .. | .branchTxUnderrun .. | .branchRxBadFrame .. | .branchRxReport .. | .branchRxEvent ..
  | .branchRxResponse .. | .branchRxClaim .. | .branchRxRollcall .. | .slotEnd .. | .nodeLostTimeout ..
  | .assignRetryTimeout .. | .nodeCommandTimeout .. | .claimBroadcastTimer .. | .dormancyEntry .. | .dormantBeacon ..
  | .wakeTrainStart .. | .wakePulse .. | .dormancyEnd .. | .nodePowerUp .. | .nodeClaimBroadcastRx .. | .nodeClaimSlot ..
  | .nodeAssignRx .. | .nodeBeaconRx .. | .nodeSlotStart .. | .nodeOutputRx .. | .nodeFallbackTimeout ..
  | .nodeWindowOpen .. | .nodeWindowClose .. | .nodeSeekTimeout .. | .nodeSniff .. | .nodeWakeCondition .. | .readInfo ..
  | .setFallback .. | .identify .. | .setWake .. | .forget .. | .setRamp .. => true
  | _ => false
/-- The commands of the trunk ports. -/
def trunkCmd : Instr → Bool
  | .superframeStart .. | .fawSighting .. | .fawPosition .. | .trunkRxHeader .. | .timeMasterTimeout .. | .trunkRxFrame ..
  | .trunkRxBadFrame .. | .trunkRxTopology .. | .trunkRxUtcMapping .. | .trunkRxReplicaBlock .. | .unwrap ..
  | .trunkTxUnderrun .. | .trainingFrameRx .. | .laneTrainingTimeout .. => true
  | _ => false
/-- The commands of the RTC and the module's time. -/
def clockCmd : Instr → Bool
  | .rtcSecond .. | .rtcFreezeTimeout .. | .rtcCommitDone .. | .rtcTrimWindow .. | .rtcAtrimMeasure .. | .rtcSyncCheck ..
  | .ringTimeLoss .. | .vbatLowDetect .. | .vbatRestored .. => true
  | _ => false
/-- The commands of the scan controller and the logic cores. -/
def logicCmd : Instr → Bool
  | .scanStart .. | .retainWriteComplete .. | .scanCommit .. | .scanLimitExpiry .. | .illegalInstruction ..
  | .hwBreakpoint .. | .add .. | .adds .. | .sub .. | .subs .. | .and .. | .or .. | .xor .. | .shl .. | .shr .. | .sha ..
  | .mul .. | .mulf .. | .div .. | .rem .. | .cmp .. | .min .. | .max .. | .addi .. | .addsi .. | .andi .. | .ori ..
  | .xori .. | .shli .. | .shri .. | .shai .. | .cmpi .. | .ldi .. | .ld .. | .st .. | .ldx .. | .stx .. | .ldp ..
  | .ldps .. | .stp .. | .stpq .. | .tstart .. | .telap .. | .tdone .. | .br .. | .call .. | .callr .. | .ret ..
  | .taskend .. | .trap .. | .brk .. | .mfs .. | .mts .. | .spill .. | .fill .. | .abort .. | .tret .. => true
  | _ => false
/-- The commands of the loop engine. -/
def loopCmd : Instr → Bool
  | .loopSample .. | .loopOutputApply .. | .localLoopOutput .. => true
  | _ => false
/-- The commands of DRAM and the DMA engine. -/
def memoryCmd : Instr → Bool
  | .pageOwnerAssign .. | .invalidationComplete .. | .dmaElement .. => true
  | _ => false
/-- The commands of the field I/O controller and its motion channels. -/
def fieldCmd : Instr → Bool
  | .coastEnd .. | .deadTimeExpiry .. | .moveTimeout .. | .pulseLossTimeout .. | .motionTargetChange .. | .fioLinkLoss ..
  | .watchdogRefresh .. | .fioWatchdogExpiry .. | .fioControllerPowerUp .. | .inputRawChange .. | .inputFilterSample ..
  | .inputPointRefresh .. | .pulseEdge .. | .blankingEnd .. | .overcurrentDetect .. | .thermalTrip ..
  | .retryTimerExpiry .. | .junctionCooled .. | .groupOverloadDetect .. | .supplySample .. | .selftestPassStart ..
  | .selftestSlot .. => true
  | _ => false
/-- The commands of the metering engine. -/
def meterCmd : Instr → Bool
  | .meteringSecondEnd .. | .halfCycleEnd .. | .harmonicWindowEnd .. | .mtrSelftestTimer .. | .meterSelftestConnect ..
  | .meterSelftestDisconnect .. => true
  | _ => false
/-- The commands of the history store. -/
def driveCmd : Instr → Bool
  | .nvmeCompletion .. | .nvmeCommandTimeout .. | .nvmeReissue .. | .driveReady .. | .checkpointTimer ..
  | .trendFlushTimer .. | .resyncSegmentCopy .. => true
  | _ => false
/-- The commands of the recorder and the points. -/
def pointCmd : Instr → Bool
  | .eventReport .. | .eventCommit .. | .evrOverflowClear .. | .recorderPowerfailWindowEnd .. | .freezeTimeout ..
  | .opsecIncrement .. | .staleCheck .. | .trendPeriodic .. => true
  | _ => false
/-- The commands of the mailbox that only reads. -/
def readCmd : Instr → Bool
  | .devInfo .. | .devTemps .. | .wmkGet .. | .memPoisonList .. | .sessionInfo .. | .sessionList .. | .pntRead ..
  | .pntReadBlock .. | .pntForceList .. | .pntDescRead .. | .brStatus .. | .brNodes .. | .brUnbound .. | .trkStatus ..
  | .trkRingMap .. | .logicStatus .. | .logicTasks .. | .logicReadVar .. | .logicBpRead .. | .logicCoreRead ..
  | .loopGet .. | .loopTestRead .. | .loopBudget .. | .fioGroups .. | .motStatus .. | .mtrCircuit .. | .mtrVset ..
  | .mtrHarm .. | .mtrTotals .. | .mtrCalRead .. | .mtrConfigRead .. | .hstQuota .. | .hstStatus .. | .evtRead ..
  | .evtHeartRead .. | .accCredRead .. | .accDoorStatus .. | .timeGet .. | .rtcUserRead .. | .rtcSysRead .. | .cfgStatus ..
  | .secStatus .. => true
  | _ => false
/-- The commands by which an engine may report an access that the memory refused (11 Table 11.6). -/
def engCmd : Instr → Bool
  | .branchTxUnderrun .. | .branchRxBadFrame .. | .trunkTxUnderrun .. | .trunkRxFrame .. | .nvmeCompletion .. => true
  | _ => false
/-- The commands that may write DRAM: engines, register writes (through which a channel may write out its buffer), resets
(after which DRAM holds nothing) and loads. -/
def dramCmd : Instr → Bool
  | .tick .. | .w1cWrite .. | .counterClearWrite .. | .registerWrite .. | .pntForceCtrlForce .. | .pntForceCtrlRelease ..
  | .brpCtrlWrite .. | .brpGclSwap .. | .trkCtrlWrite .. | .trkGclSwap .. | .lscCtrlRunCold .. | .lscCtrlRunWarm ..
  | .lscCtrlStop .. | .lscCtrlHold .. | .lscCtrlStep .. | .lscCtrlResume .. | .spill .. | .loopSample .. | .lpeSSwap ..
  | .lpeSClrSat .. | .lpeTuStart .. | .lpeTuStop .. | .fioRelease .. | .fioStStart .. | .fioStStop .. | .fioClr ..
  | .fioMFar .. | .fioMHomeDirection .. | .fioMGoto .. | .fioMStop .. | .fioMHome .. | .fioMClearFault ..
  | .fioMResetCoast .. | .mtrStStart .. | .mtrStStop .. | .dmaStart .. | .dmaResume .. | .dmaSkip .. | .dmaAbort ..
  | .dmaElement .. | .atuInvContext .. | .atuInvPage .. | .atuInvAll .. | .atuFqPop .. | .pageOwnerAssign ..
  | .mbxSlotEnable .. | .mbxSlotDisable .. | .mbxIrqEnable .. | .mbxRqTail .. | .mbxCqHead .. | .wmkStatWrite ..
  | .wmkEnable .. | .snapTake .. | .memPoisonClear .. | .regWrite .. | .rtcCommit .. | .rtcTrimWrite .. | .vinGood ..
  | .vinCollapse .. | .resetN .. | .managementWatchdogExpiry .. | .thermalShutdown .. | .configurationLoad ..
  | .startIncompleteTimeout .. | .svcActivate .. | .svcSeedling .. | .svcRestart .. | .barkBreak .. | .svcProvision ..
  | .mtrWaveStop .. => true
  | _ => false
/-- The group of a mailbox command that acts on units of its own (14 R316 to R321); 0 for any other command, and for the
three that reach any unit, REG_READ, REG_WRITE and MEM_POISON_CLEAR. -/
def reqGroup : Instr → Nat
  | .devInfo .. | .devTemps .. | .wmkGet .. | .wmkSet .. | .wmkRearm .. | .memPoisonList .. => 1
  | .sessionOpen .. | .sessionClose .. | .sessionInfo .. | .winTake .. | .winGive .. | .sessionList .. => 2
  | .pntRead .. | .pntReadBlock .. | .pntWrite .. | .pntForce .. | .pntRelease .. | .pntForceList .. | .pntDescRead .. => 3
  | .brEnable .. | .brStatus .. | .brSchedLoad .. | .brStats .. | .brTxthr .. | .brDormancy .. | .brNodes ..
  | .brNodeCmd .. | .brClaim .. | .brUnbound .. => 4
  | .trkStatus .. | .trkEnable .. | .trkSchedLoad .. | .trkStats .. | .trkTxthr .. | .trkRingMap .. | .trkPrio .. => 5
  | .logicDownload .. | .logicStatus .. | .logicRun .. | .logicStop .. | .logicHold .. | .logicResume .. | .logicStep ..
  | .logicTasks .. | .logicReadVar .. | .logicWriteVar .. | .logicPatchConst .. | .logicBpSet .. | .logicBpRead ..
  | .logicCoreRead .. => 6
  | .loopGet .. | .loopSetLimits .. | .loopSetSp .. | .loopWriteBank .. | .loopSwap .. | .loopTestStart ..
  | .loopTestStop .. | .loopTestRead .. | .loopBudget .. => 7
  | .fioStatus .. | .fioGroups .. | .fioClear .. | .fioSelftest .. | .fioWatchdog .. | .motCmd .. | .motStatus .. => 8
  | .mtrCircuit .. | .mtrVset .. | .mtrHarm .. | .mtrTotals .. | .mtrTotalsClear .. | .mtrCalRead .. | .mtrCalMeasure ..
  | .mtrCalWrite .. | .mtrSelftest .. | .mtrWaveStart .. | .mtrWaveStop .. | .mtrConfigRead .. => 9
  | .hstRead .. | .hstReadTime .. | .hstQuota .. | .hstStatus .. | .hstResync .. | .hstReplicaRead .. => 10
  | .evtRead .. | .evtHeartRead .. | .evtPlant .. => 11
  | .accCredAdd .. | .accCredDel .. | .accCredRead .. | .accDoorCmd .. | .accDoorStatus .. | .accPassbackReset .. => 12
  | .timeGet .. | .timeSet .. | .rtcTrim .. | .rtcUserRead .. | .rtcUserWrite .. | .rtcSysRead .. => 13
  | .cfgStatus .. | .cfgWrite .. | .cfgActivate .. => 14
  | .secStatus .. | .secCredSet .. | .secKeyRotate .. | .secEscrowExport .. => 15
  | _ => 0

end Sys2Proof.Machine
end

