-- ==== Sys2Proof/Certificates/Slice0/Obligations.lean ====
section
/-!
DEFINITION. The statements about the model, one `Obligations.<Name>` each, listed with the rules of the spec they rest on in
OBLIGATIONS.json. First what holds of every command (the queue, the invariants, the frames of each family), then what each
family of commands does where it completes. Every statement holds for every state and operand that meets its hypotheses;
Tests/Slice0.lean shows for each clause a state that does.
-/

set_option linter.unusedVariables false

open Sys2Proof Sys2Proof.Machine

/-- A step takes the command at the front of the queue of waiting commands and executes it with the queue's rest; with
no command waiting it changes nothing. That an empty queue idles is the model's choice (assumption log entry 1); the
order of arrival is R303's and R290's. (R290, R309) -/
def Obligations.StepRunsTheFrontCommand : Prop :=
  (∀ (c : Instr) (l : List Instr) (s : State), s.pending = c :: l → step s = exec c { s with pending := l }) ∧
  (∀ (s : State), s.pending = [] → step s = .next s)

/-- The spec answers every error with a status, a count, a flag, an event, a trap or a reset; no command stops the
block. Whatever it does, a command changes neither the queue of waiting commands nor which member of the family the
module is. (R312, R314, R303) -/
def Obligations.EveryCommandIsAnswered : Prop :=
  ∀ (c : Instr) (s : State), (∃ t, exec c s = .next t ∧ t.pending = s.pending ∧ t.member = s.member)

/-- DRAM is a list of bytes by strictly rising physical address that lists no byte equal to what an unlisted address
holds. From every state with that form a step gives a state with that form; equal memories stay equal data. (R231,
R232, R233) -/
def Obligations.MemoryKeepsItsForm : Prop :=
  ∀ (s t : State), Memory.wf s.mem = true → step s = .next t → Memory.wf t.mem = true

/-- TAMPER_N is asserted (low) exactly while SEC_VAULT.STATE is cleared or lost: zeroisation and the loss of the vault
assert it, provisioning releases it, and no other command touches one without the other. From every state where pin
and vault agree, a step gives a state where they agree. (R335, R336, R338) -/
def Obligations.TamperPinFollowsTheVault : Prop :=
  ∀ (s t : State), s.tamperOk → step s = .next t → t.tamperOk

/-- F, the number of anti-rollback fuse steps blown, never falls at a step, whatever the command, a reset or the loss of
the backup domain included. (R328, R329) -/
def Obligations.FusesOnlyAdvance : Prop :=
  ∀ (s t : State), step s = .next t → s.sec.fuses ≤ t.sec.fuses

/-- After reset DRAM has its canonical form, pin and vault agree and no fuse is blown. That the vault is empty and no
fuse blown in a module fresh from the factory is the model's reading (assumption log entry 3). (R231, R335, R336,
R328) -/
def Obligations.ResetMeetsTheInvariants : Prop :=
  Memory.wf State.reset.mem = true ∧ State.reset.tamperOk ∧ State.reset.sec.fuses ≤ 64 ∧ State.reset.pending = []

/-- After reset the tick is 0, every cell reads 0xC000_0000, every branch port is disabled with threshold 64 and three
GCL entries in 25 ms, the trunk ports are disabled with neighbour 255, threshold 1,024 and five GCL entries and the
module's time-master priority is 128, every die is in STOP with limit 100 ms, retain interval 10 ms, skip limit 10
and no resume sequence, every test unit has HOLD 1, RHO 1.0 and one step, the field I/O is in SAFE with cause 4 and
a watchdog of 100 ms, every mailbox slot is disabled with rings of 16 entries, watermarks 3, 4 and 11 compare
downwards, and no session holds the window. (R13, R17, R39, R69, R119, R138, R186, R210, R284) -/
def Obligations.ResetLeavesTheStatedValues : Prop :=
  (State.reset.tick = 0 ∧ (∀ m, cellWord (State.reset.cell m) = 0xC0000000) ∧ (∀ p, (State.reset.port p).en = false ∧
    (State.reset.port p).thr = 64 ∧ (State.reset.port p).entriesA = 3 ∧ (State.reset.port p).cycleA = 25 ∧ (State.reset.port
    p).cycnum = 0) ∧ (∀ q, (State.reset.tport q).en = false ∧ (State.reset.tport q).neigh = 255 ∧ (State.reset.tport q).thr
    = 1024 ∧ (State.reset.tport q).nA = 5) ∧ State.reset.trk.prio = 128 ∧ (∀ d, (State.reset.die d).mode = .stop ∧
    (State.reset.die d).limit = 100 ∧ (State.reset.die d).retainMs = 10 ∧ (State.reset.die d).skipLim = 10 ∧
    (State.reset.die d).seq = 0 ∧ (State.reset.die d).resumeSeq = 0xFFFFFFFF) ∧ (∀ d u, (State.reset.unit d u).hold = 1 ∧
    (State.reset.unit d u).rho = 0x100000 ∧ (State.reset.unit d u).steps = 1 ∧ (State.reset.unit d u).meas = 1 ∧
    (State.reset.unit d u).capN = 0x10000) ∧ State.reset.fio.safe = true ∧ State.reset.fio.cause = 4 ∧ State.reset.fio.wdTmo
    = 100 ∧ (∀ k, k < 32 → (State.reset.sender k).en = false ∧ (State.reset.sender k).opened = false ∧ (State.reset.sender
    k).rqLog = 4 ∧ (State.reset.sender k).cqLog = 4) ∧ (∀ n, n < 16 → (State.reset.wmk n).en = false ∧ (State.reset.wmk
    n).pol = (n == 3 || n == 4 || n == 11)) ∧ State.reset.host.win = none)

/-- Every time-driven command and every arrival of a branch port or a leaf node (of secured frames, see
AccessCommandsTakeEffect) answers a next state in which tick, configuration, trunk, logic, loops, field I/O,
metering, DRAM with its tags, owners, translations and channels, time and start-up are unchanged: it acts on ports,
nodes, points and what records them. Where the engine reports an access that the memory refused, the tags and the
faults recorded in the translation units may change. Of the ports, a transmit command changes its own only, and no
point. (R54, R58, R67, R81, R82, R88) -/
def Obligations.BranchCommandsKeepOtherUnits : Prop :=
  (∀ (c : Instr) (s : State), branchCmd c = true → (∃ t, exec c s = .next t ∧ t.pending = s.pending ∧ t.member = s.member ∧
    t.tick = s.tick ∧ t.tickHi = s.tickHi ∧ t.links = s.links ∧ t.cfg = s.cfg ∧ t.trk = s.trk ∧ t.logic = s.logic ∧ t.cores
    = s.cores ∧ t.loopDies = s.loopDies ∧ t.loops = s.loops ∧ t.fio = s.fio ∧ t.mtr = s.mtr ∧ t.mem = s.mem ∧ t.owners =
    s.owners ∧ t.dmas = s.dmas ∧ (engCmd c = false → t.tags = s.tags ∧ t.atus = s.atus) ∧ t.time = s.time ∧ t.su = s.su)) ∧
  (∀ (c : Instr) (p : Port) (q room at_ buf bt : Nat) (f : TxFail) (g : RxFail) (s : State), q ≠ p.val →
    [Instr.gclEntryBoundary p, .branchTxStart p room at_ buf, .branchTxEnd p, .collisionDetect p none bt, .backoffExpiry p
    none room at_ buf, .branchTxUnderrun p f, .branchRxBadFrame p g].contains c = true → (∃ t, exec c s = .next t ∧ t.port q
    = s.port q ∧ t.pnt = s.pnt ∧ t.nodes = s.nodes ∧ t.sec = s.sec))

/-- A command of the trunk ports and one of the RTC and the time leave branch ports, nodes, logic, loops, field I/O,
metering, DRAM and start-up unchanged (but the tags and recorded faults where a trunk engine reports an access that
the memory refused); a command of the recorder and of the points leaves these and the trunk, security and time
unchanged. (R100, R106, R353, R356, R35, R269, R270) -/
def Obligations.TrunkClockAndPointCommandsKeepOtherUnits : Prop :=
  (∀ (c : Instr) (s : State), trunkCmd c = true → (∃ t, exec c s = .next t ∧ t.pending = s.pending ∧ t.member = s.member ∧
    t.tick = s.tick ∧ t.tickHi = s.tickHi ∧ t.links = s.links ∧ t.cfg = s.cfg ∧ t.ports = s.ports ∧ t.nodes = s.nodes ∧
    t.logic = s.logic ∧ t.cores = s.cores ∧ t.loopDies = s.loopDies ∧ t.loops = s.loops ∧ t.fio = s.fio ∧ t.mtr = s.mtr ∧
    t.mem = s.mem ∧ t.owners = s.owners ∧ t.dmas = s.dmas ∧ (engCmd c = false → t.tags = s.tags ∧ t.atus = s.atus) ∧ t.su =
    s.su)) ∧
  (∀ (c : Instr) (s : State), clockCmd c = true → (∃ t, exec c s = .next t ∧ t.pending = s.pending ∧ t.member = s.member ∧
    t.tick = s.tick ∧ t.tickHi = s.tickHi ∧ t.links = s.links ∧ t.cfg = s.cfg ∧ t.ports = s.ports ∧ t.nodes = s.nodes ∧
    t.logic = s.logic ∧ t.cores = s.cores ∧ t.loopDies = s.loopDies ∧ t.loops = s.loops ∧ t.fio = s.fio ∧ t.mtr = s.mtr ∧
    t.mem = s.mem ∧ t.tags = s.tags ∧ t.owners = s.owners ∧ t.atus = s.atus ∧ t.dmas = s.dmas ∧ t.su = s.su)) ∧
  (∀ (c : Instr) (s : State), pointCmd c = true → (∃ t, exec c s = .next t ∧ t.pending = s.pending ∧ t.member = s.member ∧
    t.tick = s.tick ∧ t.tickHi = s.tickHi ∧ t.links = s.links ∧ t.cfg = s.cfg ∧ t.ports = s.ports ∧ t.nodes = s.nodes ∧
    t.trk = s.trk ∧ t.logic = s.logic ∧ t.cores = s.cores ∧ t.loopDies = s.loopDies ∧ t.loops = s.loops ∧ t.fio = s.fio ∧
    t.mtr = s.mtr ∧ t.mem = s.mem ∧ t.tags = s.tags ∧ t.owners = s.owners ∧ t.atus = s.atus ∧ t.dmas = s.dmas ∧ t.sec =
    s.sec ∧ t.time = s.time ∧ t.su = s.su))

/-- An instruction of a core, a scan start, commit or limit and a breakpoint answer a next state in which configuration,
ports, nodes, trunk, loops, field I/O, metering, security, time and start-up are unchanged. An arithmetic, logic,
shift, compare or load-immediate instruction that executes changes its core only, and there no register but its
destination, no window, no stack pointer, no task and no breakpoint; the die, the points and DRAM are as before.
(R121, R123, R129, R152, R155, R144) -/
def Obligations.LogicCommandsKeepOtherUnits : Prop :=
  (∀ (c : Instr) (s : State), logicCmd c = true → (∃ t, exec c s = .next t ∧ t.pending = s.pending ∧ t.member = s.member ∧
    t.tick = s.tick ∧ t.tickHi = s.tickHi ∧ t.links = s.links ∧ t.cfg = s.cfg ∧ t.ports = s.ports ∧ t.nodes = s.nodes ∧
    t.trk = s.trk ∧ t.loopDies = s.loopDies ∧ t.loops = s.loops ∧ t.fio = s.fio ∧ t.mtr = s.mtr ∧ t.sec = s.sec ∧ t.time =
    s.time ∧ t.su = s.su)) ∧
  (∀ (c : Instr) (k : CoreRef) (r : RForm) (s : State), s.mayRun k 1 → legalR r = true → [Instr.add k r, .adds k r, .sub k
    r, .subs k r, .and k r, .or k r, .xor k r, .shl k r, .shr k r, .sha k r, .min k r, .max k r, .mulf k r].contains c =
    true → (∃ t, exec c s = .next t ∧ (∀ n : BitVec 5, n ≠ r.rd → (t.coreOf k).r n = (s.coreOf k).r n) ∧ (t.coreOf k).sp =
    (s.coreOf k).sp ∧ (t.coreOf k).wix = (s.coreOf k).wix ∧ (t.coreOf k).wom = (s.coreOf k).wom ∧ (t.coreOf k).depth =
    (s.coreOf k).depth ∧ (t.coreOf k).tw = (s.coreOf k).tw ∧ (t.coreOf k).tc = (s.coreOf k).tc ∧ (t.coreOf k).tnt =
    (s.coreOf k).tnt ∧ (t.coreOf k).task = (s.coreOf k).task ∧ (t.coreOf k).bps = (s.coreOf k).bps ∧ (t.coreOf k).retpc =
    (s.coreOf k).retpc ∧ (∀ j, j ≠ 4 * k.die.val + k.core.val → sget {} t.cores j = sget {} s.cores j) ∧ t.logic = s.logic ∧
    t.pnt = s.pnt ∧ t.mem = s.mem)) ∧
  (∀ (c : Instr) (k : CoreRef) (r : RForm) (s : State), s.mayRun k 1 → legalR r = true → (s.coreOf k).r r.rs2 ≠ 0 →
    [Instr.div k r, .rem k r].contains c = true → (∃ t, exec c s = .next t ∧ (∀ n : BitVec 5, n ≠ r.rd → (t.coreOf k).r n =
    (s.coreOf k).r n) ∧ (t.coreOf k).sp = (s.coreOf k).sp ∧ (t.coreOf k).wix = (s.coreOf k).wix ∧ (t.coreOf k).wom =
    (s.coreOf k).wom ∧ (t.coreOf k).depth = (s.coreOf k).depth ∧ (t.coreOf k).tw = (s.coreOf k).tw ∧ (t.coreOf k).tc =
    (s.coreOf k).tc ∧ (t.coreOf k).tnt = (s.coreOf k).tnt ∧ (t.coreOf k).task = (s.coreOf k).task ∧ (t.coreOf k).bps =
    (s.coreOf k).bps ∧ (t.coreOf k).retpc = (s.coreOf k).retpc ∧ (∀ j, j ≠ 4 * k.die.val + k.core.val → sget {} t.cores j =
    sget {} s.cores j) ∧ t.logic = s.logic ∧ t.pnt = s.pnt ∧ t.mem = s.mem)) ∧
  (∀ (c : Instr) (k : CoreRef) (i : IForm) (s : State), s.mayRun k 1 → legalI i = true → i.imm.toNat < 32 → [Instr.addi k i,
    .addsi k i, .andi k i, .ori k i, .xori k i, .shli k i, .shri k i, .shai k i].contains c = true → (∃ t, exec c s = .next
    t ∧ (∀ n : BitVec 5, n ≠ i.rd → (t.coreOf k).r n = (s.coreOf k).r n) ∧ (t.coreOf k).sp = (s.coreOf k).sp ∧ (t.coreOf
    k).wix = (s.coreOf k).wix ∧ (t.coreOf k).wom = (s.coreOf k).wom ∧ (t.coreOf k).depth = (s.coreOf k).depth ∧ (t.coreOf
    k).tw = (s.coreOf k).tw ∧ (t.coreOf k).tc = (s.coreOf k).tc ∧ (t.coreOf k).tnt = (s.coreOf k).tnt ∧ (t.coreOf k).task =
    (s.coreOf k).task ∧ (t.coreOf k).bps = (s.coreOf k).bps ∧ (t.coreOf k).retpc = (s.coreOf k).retpc ∧ (∀ j, j ≠ 4 *
    k.die.val + k.core.val → sget {} t.cores j = sget {} s.cores j) ∧ t.logic = s.logic ∧ t.pnt = s.pnt ∧ t.mem = s.mem))

/-- A loop sample or output leaves ports, nodes, trunk, logic, metering, security, time and start-up unchanged; a page
assignment, an invalidation and a DMA element leave these, the loops and the field I/O unchanged (a DMA element may
end a recording of the loop test units); a metering second, a half-cycle, a harmonic window and the self-test leave
ports, nodes, trunk, logic, loops, field I/O, security, time and start-up unchanged. (R162, R171, R173, R233, R244,
R218) -/
def Obligations.LoopMemoryAndMeterCommandsKeepOtherUnits : Prop :=
  (∀ (c : Instr) (s : State), loopCmd c = true → (∃ t, exec c s = .next t ∧ t.pending = s.pending ∧ t.member = s.member ∧
    t.tick = s.tick ∧ t.tickHi = s.tickHi ∧ t.links = s.links ∧ t.cfg = s.cfg ∧ t.ports = s.ports ∧ t.nodes = s.nodes ∧
    t.trk = s.trk ∧ t.logic = s.logic ∧ t.cores = s.cores ∧ t.mtr = s.mtr ∧ t.sec = s.sec ∧ t.time = s.time ∧ t.su = s.su))
    ∧
  (∀ (c : Instr) (s : State), memoryCmd c = true → (∃ t, exec c s = .next t ∧ t.pending = s.pending ∧ t.member = s.member ∧
    t.tick = s.tick ∧ t.tickHi = s.tickHi ∧ t.links = s.links ∧ t.cfg = s.cfg ∧ t.ports = s.ports ∧ t.nodes = s.nodes ∧
    t.trk = s.trk ∧ t.logic = s.logic ∧ t.cores = s.cores ∧ ((∀ d e, c ≠ .dmaElement d e) → t.loopDies = s.loopDies) ∧
    t.loops = s.loops ∧ t.fio = s.fio ∧ t.mtr = s.mtr ∧ t.sec = s.sec ∧ t.time = s.time ∧ t.su = s.su)) ∧
  (∀ (c : Instr) (s : State), meterCmd c = true → (∃ t, exec c s = .next t ∧ t.pending = s.pending ∧ t.member = s.member ∧
    t.tick = s.tick ∧ t.tickHi = s.tickHi ∧ t.links = s.links ∧ t.cfg = s.cfg ∧ t.ports = s.ports ∧ t.nodes = s.nodes ∧
    t.trk = s.trk ∧ t.logic = s.logic ∧ t.cores = s.cores ∧ t.loopDies = s.loopDies ∧ t.loops = s.loops ∧ t.fio = s.fio ∧
    t.sec = s.sec ∧ t.time = s.time ∧ t.su = s.su))

/-- A command of the field I/O controller or its motion channels leaves ports, nodes, trunk, logic, loops, metering,
DRAM, security, time and start-up unchanged; one of the history store or a drive leaves all of these but security,
and the field I/O, unchanged (but the tags and recorded faults where it reports an access that the memory refused).
(R191, R195, R204, R207, R255, R258) -/
def Obligations.FieldAndDriveCommandsKeepOtherUnits : Prop :=
  (∀ (c : Instr) (s : State), fieldCmd c = true → (∃ t, exec c s = .next t ∧ t.pending = s.pending ∧ t.member = s.member ∧
    t.tick = s.tick ∧ t.tickHi = s.tickHi ∧ t.links = s.links ∧ t.cfg = s.cfg ∧ t.ports = s.ports ∧ t.nodes = s.nodes ∧
    t.trk = s.trk ∧ t.logic = s.logic ∧ t.cores = s.cores ∧ t.loopDies = s.loopDies ∧ t.loops = s.loops ∧ t.mtr = s.mtr ∧
    t.mem = s.mem ∧ t.tags = s.tags ∧ t.owners = s.owners ∧ t.atus = s.atus ∧ t.dmas = s.dmas ∧ t.sec = s.sec ∧ t.time =
    s.time ∧ t.su = s.su)) ∧
  (∀ (c : Instr) (s : State), driveCmd c = true → (∃ t, exec c s = .next t ∧ t.pending = s.pending ∧ t.member = s.member ∧
    t.tick = s.tick ∧ t.tickHi = s.tickHi ∧ t.links = s.links ∧ t.cfg = s.cfg ∧ t.ports = s.ports ∧ t.nodes = s.nodes ∧
    t.trk = s.trk ∧ t.logic = s.logic ∧ t.cores = s.cores ∧ t.loopDies = s.loopDies ∧ t.loops = s.loops ∧ t.fio = s.fio ∧
    t.mtr = s.mtr ∧ t.mem = s.mem ∧ t.owners = s.owners ∧ t.dmas = s.dmas ∧ (engCmd c = false → t.tags = s.tags ∧ t.atus =
    s.atus) ∧ t.time = s.time ∧ t.su = s.su))

/-- A mailbox command that only reads (in every group) answers a next state in which every unit is as before: points
with their CHG bits, ports, nodes, trunk, logic, loops, field I/O, metering, DRAM, channels, history, recorder,
security, time and start-up. Only the host port, which holds the request and its result, and the model's own count
of free values may differ. (R310, R313, R36, R302) -/
def Obligations.ReadRequestsChangeNothing : Prop :=
  ∀ (c : Instr) (s : State), readCmd c = true → (∃ t, exec c s = .next t ∧ t.pending = s.pending ∧ t.member = s.member ∧
    t.tick = s.tick ∧ t.tickHi = s.tickHi ∧ t.links = s.links ∧ t.cfg = s.cfg ∧ t.pnt = s.pnt ∧ t.ports = s.ports ∧ t.nodes
    = s.nodes ∧ t.trk = s.trk ∧ t.logic = s.logic ∧ t.cores = s.cores ∧ t.loopDies = s.loopDies ∧ t.loops = s.loops ∧ t.fio
    = s.fio ∧ t.mtr = s.mtr ∧ t.mem = s.mem ∧ t.tags = s.tags ∧ t.owners = s.owners ∧ t.atus = s.atus ∧ t.dmas = s.dmas ∧
    t.hst = s.hst ∧ t.evr = s.evr ∧ t.sec = s.sec ∧ t.time = s.time ∧ t.su = s.su ∧ t.outbox = s.outbox)

/-- Every mailbox command, whether it starts, is refused or completes, leaves member, tick, links, configuration in
force, nodes, page owners and, but for MTR_WAVE_STOP, which writes out its channel, DRAM with its tags and
translations unchanged, and acts on the units that its group is for: branch ports (0x04, and 0x0C through doors),
trunk (0x05), logic (0x06), loops (0x07), field I/O (0x08), metering (0x09), security, time and start-up. REG_READ,
REG_WRITE and MEM_POISON_CLEAR, which reach any unit, are not part of it, and closing a service session (a group
0x0F command may) withdraws its requests wherever they wait. (R316, R317, R318, R319, R320, R321) -/
def Obligations.RequestsActOnTheirGroup : Prop :=
  (∀ (c : Instr) (s : State), reqGroup c ≠ 0 → reqGroup c ≠ 15 → (∃ t, exec c s = .next t ∧ t.pending = s.pending ∧ t.member
    = s.member ∧ t.tick = s.tick ∧ t.tickHi = s.tickHi ∧ t.links = s.links ∧ t.cfg = s.cfg ∧ t.nodes = s.nodes ∧ t.owners =
    s.owners ∧ (dramCmd c = false → t.mem = s.mem ∧ t.tags = s.tags ∧ t.atus = s.atus) ∧ ([3, 4, 6, 8, 12].contains
    (reqGroup c) = false → t.pnt = s.pnt) ∧ ([4, 12].contains (reqGroup c) = false → t.ports = s.ports) ∧ (reqGroup c ≠ 5 →
    t.trk = s.trk) ∧ (reqGroup c ≠ 6 → t.logic = s.logic ∧ t.cores = s.cores) ∧ (reqGroup c ≠ 7 → t.loops = s.loops ∧
    t.loopDies = s.loopDies) ∧ (reqGroup c ≠ 8 → t.fio = s.fio) ∧ (reqGroup c ≠ 9 → t.mtr = s.mtr ∧ t.dmas = s.dmas) ∧ ([3,
    4, 6, 8, 10, 12].contains (reqGroup c) = false → t.hst = s.hst) ∧ ([2, 6, 12, 14].contains (reqGroup c) = false → t.sec
    = s.sec) ∧ (reqGroup c ≠ 13 → t.time = s.time) ∧ (reqGroup c ≠ 14 → t.su = s.su))) ∧
  (∀ (c : Instr) (s : State), reqGroup c = 15 → (∃ t, exec c s = .next t ∧ t.pending = s.pending ∧ t.member = s.member ∧
    t.tick = s.tick ∧ t.tickHi = s.tickHi ∧ t.links = s.links ∧ t.cfg = s.cfg ∧ t.nodes = s.nodes ∧ t.mem = s.mem ∧ t.tags =
    s.tags ∧ t.owners = s.owners ∧ t.atus = s.atus ∧ t.pnt = s.pnt ∧ t.time = s.time ∧ t.hst = s.hst))

/-- Whatever the state, a command that is none of the listed writers of DRAM (SPILL, a DMA element, a page assignment,
MEM_POISON_CLEAR, a tick, a loop sample and MTR_WAVE_STOP through their recording channels, register writes through
a channel, a load, a reset) leaves every byte of DRAM as it was. What the writers store, and that they store nowhere
else, is in MemoryAndDmaTakeEffect, ControlInstructionsTakeEffect and DeviceAndSessionRequestsTakeEffect. (R231,
R233, R236, R244, R144) -/
def Obligations.OnlyEnginesWriteDram : Prop :=
  ∀ (c : Instr) (s : State), dramCmd c = false → (∃ t, exec c s = .next t ∧ ∀ a, memGet t.mem a = memGet s.mem a)

/-- A mailbox write, a force, a release and a stale check of a point, whether they succeed or not, leave the cell of
every other point, every other point's force and the descriptors as they are. (R23, R28, R29, R31, R35) -/
def Obligations.PointCommandsChangeOneCell : Prop :=
  (∀ (r : Req) (ref : Word) (v : V24) (m : Nat) (d : Desc) (s : State), s.refPoint (s.reqTenant r.sender.val) ref = some (m,
    d) → (∃ t, exec (.pntWrite r ref v) s = .next t ∧ t.pnt.descs = s.pnt.descs ∧ ∀ j, j ≠ m → t.cell j = s.cell j ∧ sfind
    t.pnt.forces j = sfind s.pnt.forces j)) ∧
  (∀ (r : Req) (ref : Word) (v : V24) (m : Nat) (d : Desc) (s : State), s.refPoint (s.reqTenant r.sender.val) ref = some (m,
    d) → (∃ t, exec (.pntForce r ref v) s = .next t ∧ t.pnt.descs = s.pnt.descs ∧ ∀ j, j ≠ m → t.cell j = s.cell j ∧ sfind
    t.pnt.forces j = sfind s.pnt.forces j)) ∧
  (∀ (r : Req) (ref : Word) (m : Nat) (d : Desc) (s : State), s.refPoint (s.reqTenant r.sender.val) ref = some (m, d) → (∃
    t, exec (.pntRelease r ref) s = .next t ∧ t.pnt.descs = s.pnt.descs ∧ ∀ j, j ≠ m → t.cell j = s.cell j ∧ sfind
    t.pnt.forces j = sfind s.pnt.forces j)) ∧
  (∀ (n : Mpn) (s : State), (∃ t, exec (.staleCheck n) s = .next t ∧ t.pnt.descs = s.pnt.descs ∧ ∀ j, j ≠ n.val → t.cell j =
    s.cell j))

/-- With no session holding BAR2 a register write of it changes nothing but the host port, where it is counted; a
landlord command of a tenant session gets NOT_FOUND with RESULT0 0 and changes nothing else; during a configuration
load a command of groups 0x03 to 0x0C, CFG_WRITE and CFG_ACTIVATE get BUSY with RESULT0 1 and change nothing else.
(R287, R311, R315, R316) -/
def Obligations.WindowAndSessionsGateAccess : Prop :=
  (∀ (off : BitVec 28) (size : Nat) (v : BitVec 64) (s : State), s.host.win = none → s.host.mbxRdy = true → (∃ t, exec
    (.registerWrite true off size v) s = .next t ∧ { t with host := s.host } = s)) ∧
  (∀ (r : Req) (op : Nat) (h : ReqHead) (i : Nat) (p : List Byte → Bool) (f : Tenant → Nat → State → Answer) (s : State),
    s.offers r op p h i → s.reqTenant r.sender.val ≠ 0 → (s.serve r op true p none f).resultOf r i = some (refusal
    stNotFound 0) ∧ { s.serve r op true p none f with host := s.host } = s) ∧
  (∀ (r : Req) (op : Nat) (h : ReqHead) (i : Nat) (landlord : Bool) (p : List Byte → Bool) (f : Tenant → Nat → State →
    Answer) (s : State), startable r.tag (reqIs op p) (s.sender r.sender.val).reqs = some i → (s.sender
    r.sender.val).reqs[i]? = some { head := h } → h.tag = r.tag → p h.data = true → s.early r.sender.val h = none →
    s.su.seedling = false → s.su.loading = true → loadHeld op = true → (landlord = true → s.reqTenant r.sender.val = 0) → (∀
    u, (f (s.reqTenant r.sender.val) h.rlen u).1.any (fun x => x.status == stNotFound) = false) → (s.serve r op landlord p
    none f).resultOf r i = some (refusal stBusy 1) ∧ { s.serve r op landlord p none f with host := s.host } = s)

/-- PNT_READ and PNT_READ_BLOCK of a session give the same result whatever stands in the cell of a point that the
session's tenant does not see: such a point reads as one that does not exist. (R27, R317, R39) -/
def Obligations.HiddenPointsDoNotShow : Prop :=
  (∀ (r : Req) (refs : List Word) (m i : Nat) (x : Cell) (s : State), (s.desc? m).any (sees (s.reqTenant r.sender.val)) =
    false → (∃ t u, exec (.pntRead r refs) s = .next t ∧ exec (.pntRead r refs)
    { s with pnt := { s.pnt with cells := sput s.pnt.cells m x } } = .next u ∧ t.resultOf r i = u.resultOf r i)) ∧
  (∀ (r : Req) (die : Byte) (block : BitVec 16) (m i : Nat) (x : Cell) (s : State), (s.desc? m).any (sees (s.reqTenant
    r.sender.val)) = false → (∃ t u, exec (.pntReadBlock r die block) s = .next t ∧ exec (.pntReadBlock r die block)
    { s with pnt := { s.pnt with cells := sput s.pnt.cells m x } } = .next u ∧ t.resultOf r i = u.resultOf r i))

/-- RESET_N and a management watchdog expiry leave the forces, the leaf nodes, the record stores, the credential
records, the key hashes, the fuses and the vault, the RTC user area and the configuration copies as they are, store
the reset reason and leave no cell, no queued record, no configuration in force but what the field I/O controller
holds by itself (09 R199), no core state, no loop, no channel, no translation, no DRAM contents or tag, no session
and no holder of the window, at tick 0, and no graft link failed until one fails to train again (assumption log
entry 66). (R367, R32, R131, R259, R270, R355, R368) -/
def Obligations.ResetKeepsWhatMramHolds : Prop :=
  (∀ (s : State), s.su.phase ≠ .off → (∃ t, exec .resetN s = .next t ∧ t.su.reason = 2 ∧ t.pnt = { forces := s.pnt.forces }
    ∧ t.nodes = s.nodes ∧ t.links = 0 ∧ t.evr.sap = s.evr.sap ∧ t.evr.heart = s.evr.heart ∧ t.evr.head = s.evr.head ∧
    t.evr.queue = [] ∧ t.sec.vault = s.sec.vault ∧ t.sec.fuses = s.sec.fuses ∧ t.sec.records = s.sec.records ∧
    t.sec.keyHashes = s.sec.keyHashes ∧ t.time.user = s.time.user ∧ t.su.copyA = s.su.copyA ∧ t.su.copyB = s.su.copyB ∧
    t.su.phase = .held ∧ t.cfg = heldConfig s.cfg ∧ t.cores = [] ∧ t.loops = [] ∧ t.loopDies = [] ∧ t.dmas = [] ∧ t.atus =
    [] ∧ t.mem = [] ∧ t.tags = [] ∧ t.host.slots = [] ∧ t.host.win = none ∧ t.tick = 0)) ∧
  (∀ (s : State), s.exyan = true → (∃ t, exec .managementWatchdogExpiry s = .next t ∧ t.su.reason = 4 ∧ t.pnt =
    { forces := s.pnt.forces } ∧ t.nodes = s.nodes ∧ t.links = 0 ∧ t.evr.sap = s.evr.sap ∧ t.evr.heart = s.evr.heart ∧
    t.evr.head = s.evr.head ∧ t.evr.queue = [] ∧ t.sec.vault = s.sec.vault ∧ t.sec.fuses = s.sec.fuses ∧ t.sec.records =
    s.sec.records ∧ t.sec.keyHashes = s.sec.keyHashes ∧ t.time.user = s.time.user ∧ t.su.copyA = s.su.copyA ∧ t.su.copyB =
    s.su.copyB ∧ t.su.phase = .held ∧ t.cfg = heldConfig s.cfg ∧ t.cores = [] ∧ t.loops = [] ∧ t.loopDies = [] ∧ t.dmas = []
    ∧ t.atus = [] ∧ t.mem = [] ∧ t.tags = [] ∧ t.host.slots = [] ∧ t.host.win = none ∧ t.tick = 0))

/-- PNT_WRITE that reaches a visible point: where it completes with OK, the point is bound to the host (BKIND 0) and of
type DO, AO, SP or VAR; SRC of what it writes is host, in the cell or, while the point is forced, in the source
shadow; for any other visible point it completes with NOT_WRITABLE and changes no point. (R28) -/
def Obligations.MailboxWritesReachHostPointsOnly : Prop :=
  (∀ (r : Req) (ref : Word) (v : V24) (h : ReqHead) (i m : Nat) (d : Desc) (s : State), s.offers r 0x0303 (· == pack
    [(ref.toNat, 4), (v.toNat, 3)]) h i → refBad ref = false → s.refPoint (s.reqTenant r.sender.val) ref = some (m, d) → (∃
    t res, exec (.pntWrite r ref v) s = .next t ∧ t.resultOf r i = some res ∧ (res.status = stOk → d.bkind = 0 ∧ (d.ptype =
    1 ∨ d.ptype = 3 ∨ d.ptype = 5 ∨ d.ptype = 6)))) ∧
  (∀ (r : Req) (ref : Word) (v : V24) (h : ReqHead) (i m : Nat) (d : Desc) (s : State), s.offers r 0x0303 (· == pack
    [(ref.toNat, 4), (v.toNat, 3)]) h i → refBad ref = false → s.refPoint (s.reqTenant r.sender.val) ref = some (m, d) →
    d.bkind = 0 → d.ptype = 1 ∨ d.ptype = 3 ∨ d.ptype = 5 ∨ d.ptype = 6 → s.reqTenant r.sender.val = 0 ∨ d.tenant =
    s.reqTenant r.sender.val → (s.cell m).forced = false → (∃ t, exec (.pntWrite r ref v) s = .next t ∧ t.resultOf r i =
    some { r0 := cellWord (t.cell m) } ∧ (t.cell m).src = .host)) ∧
  (∀ (r : Req) (ref : Word) (v : V24) (h : ReqHead) (i m : Nat) (d : Desc) (s : State), s.offers r 0x0303 (· == pack
    [(ref.toNat, 4), (v.toNat, 3)]) h i → refBad ref = false → s.refPoint (s.reqTenant r.sender.val) ref = some (m, d) →
    d.bkind = 0 → d.ptype = 1 ∨ d.ptype = 3 ∨ d.ptype = 5 ∨ d.ptype = 6 → s.reqTenant r.sender.val = 0 ∨ d.tenant =
    s.reqTenant r.sender.val → (s.cell m).forced = true → (∃ t, exec (.pntWrite r ref v) s = .next t ∧ t.resultOf r i = some
    { r0 := cellWord (t.cell m) } ∧ (sfind t.pnt.shadows m).map (·.src) = some .host ∧ (t.cell m).value = (s.cell m).value))
    ∧
  (∀ (r : Req) (ref : Word) (v : V24) (h : ReqHead) (i m : Nat) (d : Desc) (s : State), s.offers r 0x0303 (· == pack
    [(ref.toNat, 4), (v.toNat, 3)]) h i → refBad ref = false → s.refPoint (s.reqTenant r.sender.val) ref = some (m, d) →
    d.bkind ≠ 0 ∨ (d.ptype ≠ 1 ∧ d.ptype ≠ 3 ∧ d.ptype ≠ 5 ∧ d.ptype ≠ 6) → (∃ t, exec (.pntWrite r ref v) s = .next t ∧
    t.resultOf r i = some (refusal stNotWritable 0) ∧ t.pnt = s.pnt))

/-- A scan that starts at tick T has the timer value floor(T / 16) mod 2^24 (0 to 2^24 - 1 ms), TSTART stores that
value, and no command whatever changes it while the scan goes on. (R157) -/
def Obligations.TimerValueIsTheScanTick : Prop :=
  (∀ (d : Die) (m : LogicImage) (s : State), (s.die d.val).image = some m → (s.die d.val).mode = .run → (s.die d.val).inScan
    = false → (s.die d.val).holding = none → s.dieUp d.val = true → (∃ t, exec (.scanStart d) s = .next t ∧ (t.die
    d.val).inScan = true ∧ (t.die d.val).ms.toNat = s.tick.toNat / 16 % 2 ^ 24)) ∧
  (∀ (c : Instr) (d : Nat) (s t : State), exec c s = .next t → (s.die d).inScan = true → (t.die d).inScan = true → (t.die
    d).ms = (s.die d).ms) ∧
  (∀ (k : CoreRef) (x : IForm) (a : V24) (g : LogicImage) (s : State), s.mayRun k 1 → x.rd = 0 → gen x.rs1 = true → a =
    (s.coreOf k).r x.rs1 + x.imm.signExtend 24 → a.toNat < 0x40000 → (s.dieOf k).image = some g → imgReach g (s.coreOf
    k).tnt a.toNat = true → (∃ t, exec (.tstart k x) s = .next t ∧ (t.dieOf k).journal = (s.dieOf k).journal ++ [(a.toNat,
    (s.dieOf k).ms)]))

/-- With n = 32, a is later than b when (a - b) mod 2^32 lies in 1 to 2^31 - 1 and earlier when it lies in 2^31 + 1 to
2^32 - 1; at exactly 2^31 it is neither. (The model compares commit sequences of 32 bits so.) (R386) -/
def Obligations.SerialComparisonFollowsR386 : Prop :=
  ∀ (a b : Word), ((serialLt b a = true ↔ 1 ≤ (a - b).toNat ∧ (a - b).toNat ≤ 2 ^ 31 - 1) ∧ (serialLt a b = true ↔ 2 ^ 31 +
    1 ≤ (a - b).toNat ∧ (a - b).toNat ≤ 2 ^ 32 - 1) ∧ ((a - b).toNat = 2 ^ 31 → serialLt a b = false ∧ serialLt b a =
    false))

/-- When the root ROM runs: with a trial pending it boots the trial slot, with none the slot last booted, or the other
where that one is not bootable; where no slot is bootable it enters recovery. A slot is bootable when its signatures
verified (valid) and its SVN is at least F. (R381) -/
def Obligations.RootRomChoosesTheSlot : Prop :=
  (∀ (s : State), s.su.phase = .held → s.su.vinGood = true → s.su.trial = true → s.su.attempts < 3 → (s.su.slot
    (!s.su.bootSlot)).valid = true → s.sec.fuses ≤ (s.su.slot (!s.su.bootSlot)).svn → (∃ t, exec .rootRomBoot s = .next t ∧
    t.su.running = !s.su.bootSlot ∧ t.su.phase = .exyan ∧ t.su.inTrial = true)) ∧
  (∀ (s : State), s.su.phase = .held → s.su.vinGood = true → s.su.trial = false → (s.su.slot s.su.bootSlot).valid = true →
    s.sec.fuses ≤ (s.su.slot s.su.bootSlot).svn → (∃ t, exec .rootRomBoot s = .next t ∧ t.su.running = s.su.bootSlot ∧
    t.su.phase = .exyan)) ∧
  (∀ (s : State), s.su.phase = .held → s.su.vinGood = true → s.su.trial = false → (s.su.slot s.su.bootSlot).valid = false ∨
    (s.su.slot s.su.bootSlot).svn < s.sec.fuses → (s.su.slot (!s.su.bootSlot)).valid = true → s.sec.fuses ≤ (s.su.slot
    (!s.su.bootSlot)).svn → (∃ t, exec .rootRomBoot s = .next t ∧ t.su.running = !s.su.bootSlot ∧ t.su.bootSlot =
    !s.su.bootSlot ∧ t.su.phase = .exyan)) ∧
  (∀ (s : State), s.su.phase = .held → s.su.vinGood = true → (s.su.slot false).valid = false ∨ (s.su.slot false).svn <
    s.sec.fuses → (s.su.slot true).valid = false ∨ (s.su.slot true).svn < s.sec.fuses → (∃ t, exec .rootRomBoot s = .next t
    ∧ t.su.recovery = true ∧ t.su.phase = .rom ∧ t.su.svc = .rom))

/-- Each of TICK, GRAFT_LINK_FAIL, GRAFT_LINK_RESTORED, VIN_GOOD, POWER_FAIL_DETECT, VIN_COLLAPSE, RESET_N,
MANAGEMENT_WATCHDOG_EXPIRY, THERMAL_SHUTDOWN, BARK_BREAK, BARK_POLL, BARK_REARM and BACKUP_POWER_LOSS, in a state
where it applies, answers a next state that holds the effect the rule gives: the tick count, the failed links, the
power flags, the reset reason of Table 17.2, the vault's state and cause, the monitor armed again once switch and
mesh have been whole for 10 s, and the lost backup domain, whose vault bytes the next start finds gone
(StartProceedsInOrder). (R11, R8, R333, R334, R335, R336, R365, R367, R391) -/
def Obligations.SuppliesAndResetsTakeEffect : Prop :=
  (∀ (inp : TickIn) (s : State), s.runs = true → ∃ t, exec (.tick inp) s = .next t ∧ t.tick = s.tick + 1 ∧ t.links =
    s.links) ∧
  (∀ (link : Fin 12) (s : State), s.runs = true → link.val < (graftLinks s.member).length → s.links.getLsbD link.val =
    false → ∃ t, exec (.graftLinkFail link) s = .next t ∧ t.links.getLsbD link.val = true) ∧
  (∀ (link : Fin 12) (s : State), s.runs = true → link.val < (graftLinks s.member).length → s.links.getLsbD link.val = true
    → ∃ t, exec (.graftLinkRestored link) s = .next t ∧ t.links.getLsbD link.val = false) ∧
  (∀ (s : State), s.su.phase = .off → ∃ t, exec (.vinGood) s = .next t ∧ t.su.phase = .held ∧ t.su.vinGood = true ∧
    t.su.powerFail = false ∧ t.su.pgood = true) ∧
  (∀ (s : State), s.su.vinGood = true → s.exyan = true → ∃ t, exec (.powerFailDetect) s = .next t ∧ t.su.powerFail = true ∧
    t.su.vinGood = false ∧ t.su.pgood = false ∧ t.evr.pfWindow = true) ∧
  (∀ (s : State), s.su.phase ≠ .off → ∃ t, exec (.vinCollapse) s = .next t ∧ t.su.phase = .off ∧ t.su.vinGood = false ∧
    t.su.pgood = false ∧ t.su.reason = (if s.su.powerFail then 3 else 1)) ∧
  (∀ (s : State), s.su.phase ≠ .off → ∃ t, exec (.resetN) s = .next t ∧ t.su.phase = .held ∧ t.su.reason = 2 ∧ t.su.resetPin
    = true ∧ t.tick = 0) ∧
  (∀ (s : State), s.exyan = true → ∃ t, exec (.managementWatchdogExpiry) s = .next t ∧ t.su.phase = .held ∧ t.su.reason = 4
    ∧ t.tick = 0) ∧
  (∀ (d : Die) (s : State), s.su.phase ≠ .off → d.val < s.nDies → ∃ t, exec (.thermalShutdown d) s = .next t ∧ t.su.phase =
    .held ∧ t.su.reason = 8 ∧ t.su.hot = true) ∧
  (∀ (cause : BarkCause) (s : State), s.su.phase ≠ .off → s.sec.armed = true → ∃ t, exec (.barkBreak cause) s = .next t ∧
    t.sec.vault = .cleared ∧ t.sec.cause = barkCode cause ∧ t.sec.armed = false ∧ t.sec.tamperN = false ∧ t.sec.keyHashes =
    [] ∧ t.su.reason = 5 ∧ t.su.phase = .held) ∧
  (∀ (cause : Option BarkCause) (c : BarkCause) (s : State), cause = some c → s.su.phase = .off → s.sec.armed = true → ∃ t,
    exec (.barkPoll cause) s = .next t ∧ t.sec.vault = .cleared ∧ t.sec.cause = barkCode c ∧ t.sec.armed = false ∧
    t.sec.tamperN = false ∧ t.su.phase = .off) ∧
  (∀ (s : State), s.sec.meshOk = true → s.sec.lidClosed = true → 160000 ≤ s.sec.wholeFor → ∃ t, exec (.barkRearm) s = .next
    t ∧ t.sec.armed = true ∧ t.sec.vault = s.sec.vault) ∧
  (∀ (s : State), s.su.phase = .off → ∃ t, exec (.backupPowerLoss) s = .next t ∧ t.time = {} ∧ t.su.incomplete = 0 ∧
    t.su.attempts = 0 ∧ t.sec.vaultMem = [] ∧ t.sec.armed = false ∧ t.sec.vault = s.sec.vault)

/-- Each of ROOT_ROM_BOOT, DIE_RELEASE, DIE_READY_TIMEOUT, CONFIGURATION_LOAD, BRANCH_POWER_WAVE, PORT_CYCLING_START,
LOGIC_START_MODE_APPLY, START_COMPLETE and START_INCOMPLETE_TIMEOUT, in a state where it applies, answers a next
state in which the start has come that step further: the slot that runs and the counted start, the vault lost where
its check value fails, the ready or held die, the copy in use, the powered and the cycling ports, the dies whose
start mode is applied, the complete start with system byte 0 at 0 and the fuses at the greater of their count and
the SVN that runs, or the expired start. (R336, R368, R369, R370, R373, R376, R381, R382) -/
def Obligations.StartProceedsInOrder : Prop :=
  (∀ (s : State), s.su.phase = .held → s.su.vinGood = true → s.su.trial = false → (s.su.slot s.su.bootSlot).valid = true →
    s.sec.fuses ≤ (s.su.slot s.su.bootSlot).svn → ∃ t, exec (.rootRomBoot) s = .next t ∧ t.su.phase = .exyan ∧ t.su.running
    = s.su.bootSlot ∧ t.su.incomplete = BitVec.ofNat 8 (min 255 (s.su.incomplete.toNat + 1))) ∧
  (∀ (s : State), s.su.phase = .held → s.su.vinGood = true → s.su.trial = false → (s.su.slot s.su.bootSlot).valid = true →
    s.sec.fuses ≤ (s.su.slot s.su.bootSlot).svn → s.sec.vault = .provisioned → s.sec.checkOk = false → ∃ t, exec
    (.rootRomBoot) s = .next t ∧ t.sec.vault = .lost ∧ t.sec.cause = 4 ∧ t.sec.tamperN = false) ∧
  (∀ (d : Die) (ready : Bool) (s : State), ready = true → s.su.phase = .exyan → d.val < s.nDies → d.val = s.su.released →
    d.val ∉ s.su.heldDies → d.val ∈ s.reached → d.val = 1 ∨ s.su.releaseAt + msTicks 20 ≤ s.now → ∃ t, exec (.dieRelease d
    ready) s = .next t ∧ t.su.released = d.val + 1 ∧ t.su.releaseAt = s.now ∧ d.val ∈ t.su.ready ∧ (t.atu d.val).enabled =
    true) ∧
  (∀ (d : Die) (s : State), s.su.phase = .exyan → d.val < s.nDies → d.val ∉ s.su.ready → d.val ∉ s.su.heldDies → msTicks
    1500 ≤ s.now → ∃ t, exec (.dieReadyTimeout d) s = .next t ∧ d.val ∈ t.su.heldDies ∧ t.su.ready = s.su.ready) ∧
  (∀ (b : Bool) (l : List Bool) (s : State), s.su.loading = true → s.host.mbxRdy = true → s.su.phase = .exyan →
    s.su.seedling = false → s.copies = b :: l → s.brokenRule (s.copy b).img = none → ∃ t, exec (.configurationLoad) s =
    .next t ∧ t.su.phase = .running ∧ t.su.inUse = some b ∧ t.su.loading = false ∧ t.su.waves = 0) ∧
  (∀ (w : Fin 4) (s : State), s.up = true → s.su.waves = w.val → s.su.loadTick + msTicks (250 * w.val) ≤ s.now → ∃ t, exec
    (.branchPowerWave w) s = .next t ∧ t.su.waves = w.val + 1 ∧ (∀ p, p ∈ s.wavePorts → p % 4 = w.val → (t.port p).powered =
    true)) ∧
  (∀ (p : Port) (s : State), s.up = true → p.val ∈ s.wavePorts → (s.port p.val).powered = true → (s.port p.val).en = false
    → s.su.loadTick + msTicks (250 * (p.val % 4) + 5000) ≤ s.now → ∃ t, exec (.portCyclingStart p) s = .next t ∧ (t.port
    p.val).en = true ∧ (t.port p.val).running = true ∧ (t.port p.val).rollcall = true ∧ (t.port p.val).claimEnd = s.now +
    secTicks 20 ∧ t.su.lastCycle = s.now) ∧
  (∀ (n : Nat) (s : State), s.up = true → s.portsReported = true → s.dieUp n = true → ∃ t, exec (.logicStartModeApply) s =
    .next t ∧ (t.die n).started = true) ∧
  (∀ (s : State), s.up = true → s.su.complete = false → s.su.expired = false → s.unmet = 0 → s.now ≤ secTicks 60 → ∃ t, exec
    (.startComplete) s = .next t ∧ t.su.complete = true ∧ t.su.incomplete = 0 ∧ t.su.faultN = true ∧ t.sec.fuses = max
    s.sec.fuses (s.su.slot s.su.running).svn) ∧
  (∀ (s : State), s.exyan = true → s.su.complete = false → s.su.expired = false → s.su.inTrial = false → secTicks 60 ≤ s.now
    → ∃ t, exec (.startIncompleteTimeout) s = .next t ∧ t.su.expired = true ∧ t.su.incomplete = s.su.incomplete ∧ t.su.phase
    = s.su.phase)

/-- Each of these commands of the service port, sent under a session that admits it and with data that passes its
checks, answers a next state that holds its effect: the open session, the request taken over, the update begun,
advanced and written to the slot that does not run, with STATUS OK, and the trial with its reset and reset reason.
(R379, R380, R381, R383) -/
def Obligations.ServiceSessionsAndUpdatesTakeEffect : Prop :=
  (∀ (c : CredTry) (s : State), s.runs = true → s.su.svc = .closed → s.sec.vault = .provisioned → 60 ≤ c.slot.toNat →
    c.slot.toNat < 64 → s.credPasses c.slot.toNat c = true → ∃ t, exec (.svcOpen c) s = .next t ∧ t.su.svc = .landlord ∧
    t.su.svcStatus = stOk ∧ (t.sender 32).opened = true) ∧
  (∀ (b : List Byte) (s : State), s.runs = true → s.su.svc ≠ .closed → s.su.svc ≠ .rom → ∃ t, exec (.svcMbx b) s = .next t ∧
    (t.sender 32).reqs = (s.sender 32).reqs ++ [newReq (farHead b)] ∧ t.su.svcStatus = stOk) ∧
  (∀ (h : FwHeader) (s : State), s.runs = true → s.su.svc ≠ .closed → svcUpdate s.su.svc = true → s.fwCheck h = 0 → ∃ t,
    exec (.svcUpdateBegin h) s = .next t ∧ t.su.update = some (h, 0, 0) ∧ t.su.svcStatus = stOk ∧ (s.exyan = true →
    t.su.slot (!s.su.running) = {})) ∧
  (∀ (idx len : Nat) (h : FwHeader) (bytes : Nat) (s : State), s.runs = true → s.su.svc ≠ .closed → svcUpdate s.su.svc =
    true → s.su.update = some (h, idx, bytes) → bytes < h.plen → len = min 65536 (h.plen - bytes) → ∃ t, exec
    (.svcUpdateChunk idx len) s = .next t ∧ t.su.update = some (h, idx + 1, bytes + len) ∧ t.su.svcStatus = stOk) ∧
  (∀ (digestOk sigOk : Bool) (h : FwHeader) (n : Nat) (s : State), s.runs = true → svcMaint s.su.svc = true → s.su.update =
    some (h, n, h.plen) → digestOk = true → sigOk = true → ∃ t, exec (.svcUpdateEnd digestOk sigOk) s = .next t ∧ t.su.slot
    (!s.su.running) = { valid := true, svn := h.svn.toNat, version := h.version } ∧ t.su.update = none ∧ t.su.svcStatus =
    stOk) ∧
  (∀ (s : State), s.runs = true → svcMaint s.su.svc = true → (s.su.slot (!s.su.running)).valid = true → ∃ t, exec
    (.svcActivate) s = .next t ∧ t.su.trial = true ∧ t.su.attempts = 0 ∧ t.su.bootSlot = s.su.running ∧ t.su.reason = 6 ∧
    t.su.phase = .held)

/-- Each of these commands of the service port, sent under a session that admits it and with data that passes its
checks, answers a next state that holds its effect: the request for seedling mode and the restart with their reset
and reset reason, the frozen and the thawed recorder, the erased recorder, the provisioned vault, in seedling mode
with the reset that ends it (the model's reading: assumption log entry 63), and the session ended when the USB cable
goes. (R379, R380, R338, R339, R270, R277) -/
def Obligations.ServiceMaintenanceTakesEffect : Prop :=
  (∀ (s : State), s.runs = true → svcMaint s.su.svc = true → ∃ t, exec (.svcSeedling) s = .next t ∧ t.su.seedReq = true ∧
    t.su.reason = 7 ∧ t.su.phase = .held) ∧
  (∀ (s : State), s.runs = true → s.su.svc ≠ .closed → ∃ t, exec (.svcRestart) s = .next t ∧ t.su.incomplete = 0 ∧
    t.su.reason = 7 ∧ t.su.phase = .held) ∧
  (∀ (s : State), s.runs = true → svcMaint s.su.svc = true → s.su.seedling = true → ∃ t, exec (.svcFreeze) s = .next t ∧
    t.evr.frozen = true ∧ t.su.svcStatus = stOk) ∧
  (∀ (s : State), s.runs = true → svcMaint s.su.svc = true → s.su.seedling = true → ∃ t, exec (.svcThaw) s = .next t ∧
    t.evr.frozen = false ∧ t.su.svcStatus = stOk) ∧
  (∀ (s : State), s.runs = true → svcMaint s.su.svc = true → s.su.seedling = true → ∃ t, exec (.svcFactoryErase) s = .next t
    ∧ t.evr.heart = [] ∧ t.evr.sap = [] ∧ t.evr.planted = false ∧ t.su.svcStatus = stOk) ∧
  (∀ (pr : Provision) (s : State), s.runs = true → svcProv s.su.svc = true → s.sec.vault ≠ .provisioned →
    pr.keyHashes.length ≤ 8 → s.provisionBad pr = false → s.su.seedling = false → ∃ t, exec (.svcProvision pr) s = .next t ∧
    t.sec.vault = .provisioned ∧ t.sec.tamperN = true ∧ t.sec.keyHashes = pr.keyHashes ∧ t.sec.provSeq = s.sec.provSeq + 1 ∧
    t.su.svcStatus = stOk) ∧
  (∀ (pr : Provision) (s : State), s.runs = true → svcProv s.su.svc = true → s.sec.vault ≠ .provisioned →
    pr.keyHashes.length ≤ 8 → s.provisionBad pr = false → s.su.seedling = true → ∃ t, exec (.svcProvision pr) s = .next t ∧
    t.sec.vault = .provisioned ∧ t.sec.provSeq = s.sec.provSeq + 1 ∧ t.su.incomplete = 0 ∧ t.su.reason = 7 ∧ t.su.phase =
    .held) ∧
  (∀ (s : State), s.su.svc ≠ .rom → ∃ t, exec (.usbDisconnect) s = .next t ∧ t.su.svc = .closed ∧ t.su.update = none ∧
    (t.sender 32).opened = false)

/-- A request of group 0x03 that may start and passes its checks gets its result, and a write, a force and a release do
to the cell what R28, R29 and R31 say; a stale check that is due sets STALE, and a release through the register does
what PNT_RELEASE does. (R17, R25, R27, R28, R29, R30, R31, R35, R39, R317) -/
def Obligations.PointRequestsTakeEffect : Prop :=
  (∀ (r : Req) (refs : List Word) (h : ReqHead) (i : Nat) (l : List (Nat × Desc)) (s : State), s.offers r 0x0301 (· ==
    (leBytes refs.length 2 ++ wordBytes refs)) h i → 1 ≤ refs.length → refs.length ≤ 1024 → refs.any refBad = false →
    refs.map (s.refPoint (s.reqTenant r.sender.val)) = l.map some → ∃ t, exec (.pntRead r refs) s = .next t ∧ t.resultOf r i
    = some { r0 := w32 refs.length, resp := wordBytes (l.map fun e => cellWord (s.cell e.1)) } ∧ t.pnt = s.pnt) ∧
  (∀ (r : Req) (die : Byte) (block : BitVec 16) (h : ReqHead) (i : Nat) (s : State), s.offers r 0x0302 (· == pack
    [(die.toNat, 1), (block.toNat, 2)]) h i → die.toNat < s.nDies → block.toNat < 512 → ∃ t, exec (.pntReadBlock r die
    block) s = .next t ∧ t.resultOf r i = some
    { r0 := sget 0 s.pnt.gens (512 * die.toNat + block.toNat), resp := wordBytes ((List.range 64).map fun k => cellWord (s.cellFor (s.reqTenant r.sender.val) (32768 * die.toNat + 64 * block.toNat + k))) }
    ∧ t.pnt = s.pnt) ∧
  (∀ (r : Req) (ref : Word) (v : V24) (h : ReqHead) (i : Nat) (m : Nat) (d : Desc) (s : State), s.offers r 0x0303 (· == pack
    [(ref.toNat, 4), (v.toNat, 3)]) h i → refBad ref = false → s.refPoint (s.reqTenant r.sender.val) ref = some (m, d) →
    hostWritable (s.reqTenant r.sender.val) d = true → (s.cell m).forced = false → ∃ t, exec (.pntWrite r ref v) s = .next t
    ∧ t.resultOf r i = some { r0 := cellWord (t.cell m) } ∧ (t.cell m).value = v ∧ (t.cell m).qual = .good ∧ (t.cell m).src
    = .host ∧ (t.cell m).stale = false) ∧
  (∀ (r : Req) (ref : Word) (v : V24) (h : ReqHead) (i : Nat) (m : Nat) (d : Desc) (s : State), s.offers r 0x0304 (· == pack
    [(ref.toNat, 4), (v.toNat, 3)]) h i → refBad ref = false → s.refPoint (s.reqTenant r.sender.val) ref = some (m, d) →
    s.forceCheck (s.reqTenant r.sender.val) m false = 0 → ∃ t, exec (.pntForce r ref v) s = .next t ∧ t.resultOf r i = some
    { r0 := cellWord (t.cell m), r1 := (s.reqTenant r.sender.val).setWidth 32 } ∧ (t.cell m).forced = true ∧ (t.cell
    m).value = v ∧ (t.cell m).qual = .good ∧ (t.cell m).src = .host ∧ sfind t.pnt.forces m = some
    { value := v, by_ := s.reqTenant r.sender.val, tenant := d.tenant, bkind := d.bkind, bref := d.bref }) ∧
  (∀ (r : Req) (ref : Word) (h : ReqHead) (i : Nat) (m : Nat) (d : Desc) (s : State), s.offers r 0x0305 (· == pack
    [(ref.toNat, 4)]) h i → refBad ref = false → s.refPoint (s.reqTenant r.sender.val) ref = some (m, d) → s.forceCheck
    (s.reqTenant r.sender.val) m true = 0 → ∃ t, exec (.pntRelease r ref) s = .next t ∧ t.resultOf r i = some
    { r0 := cellWord (t.cell m) } ∧ (t.cell m).forced = false ∧ (t.cell m).value = (s.cell m).value ∧ (t.cell m).qual =
    (s.cell m).qual ∧ sfind t.pnt.forces m = none ∧ sfind t.pnt.shadows m = none) ∧
  (∀ (r : Req) (start : BitVec 16) (h : ReqHead) (i : Nat) (m : Nat) (f : Force) (s : State), s.offers r 0x0306 (· == pack
    [(start.toNat, 2)]) h i → 12 ≤ h.rlen → start = 0 → s.pnt.forces = [(m, f)] → (s.desc? m).any (sees (s.reqTenant
    r.sender.val)) = true → ∃ t, exec (.pntForceList r start) s = .next t ∧ t.resultOf r i = some
    { r0 := 1, r1 := 0xFFFF, resp := leBytes (s.pointRef m) 4 ++ leBytes f.value.toNat 4 ++ leBytes f.by_.toNat 2 ++ leBytes 0 2 }
    ∧ t.pnt = s.pnt) ∧
  (∀ (r : Req) (ref : Word) (h : ReqHead) (i : Nat) (m : Nat) (d : Desc) (s : State), s.offers r 0x0307 (· == pack
    [(ref.toNat, 4)]) h i → refBad ref = false → s.refPoint (s.reqTenant r.sender.val) ref = some (m, d) → ∃ t, exec
    (.pntDescRead r ref) s = .next t ∧ t.resultOf r i = some { resp := descBytes d } ∧ t.pnt = s.pnt) ∧
  (∀ (d : Die) (g : PntRegs) (s : State), s.host.mbxRdy = true → s.winTenant = some 0 → d.val < s.nDies → sget {} s.pnt.regs
    d.val = g → g.done = true → s.forceCheck 0 (32768 * d.val + g.forceIdx.toNat) false = 0 → ∃ t, exec (.pntForceCtrlForce
    d) s = .next t ∧ (t.cell (32768 * d.val + g.forceIdx.toNat)).forced = true ∧ (t.cell (32768 * d.val +
    g.forceIdx.toNat)).value = g.forceVal ∧ (sget {} t.pnt.regs d.val).result = 0) ∧
  (∀ (d : Die) (g : PntRegs) (s : State), s.host.mbxRdy = true → s.winTenant = some 0 → d.val < s.nDies → sget {} s.pnt.regs
    d.val = g → g.done = true → s.forceCheck 0 (32768 * d.val + g.forceIdx.toNat) true = 0 → ∃ t, exec (.pntForceCtrlRelease
    d) s = .next t ∧ (t.cell (32768 * d.val + g.forceIdx.toNat)).forced = false ∧ sfind t.pnt.forces (32768 * d.val +
    g.forceIdx.toNat) = none ∧ (sget {} t.pnt.regs d.val).result = 0) ∧
  (∀ (m : Mpn) (d : Desc) (s : State), s.desc? m.val = some d → d.staleT ≠ 0 → (s.cell m.val).stale = false → sget 0
    s.pnt.lastSrc m.val + 1600 * d.staleT.toNat ≤ s.now → ∃ t, exec (.staleCheck m) s = .next t ∧ (t.cell m.val).stale =
    true ∧ (t.cell m.val).value = (s.cell m.val).value ∧ (t.cell m.val).qual = (s.cell m.val).qual) ∧
  (∀ (series : BitVec 19) (c : TrendCfg) (m : Nat) (d : Desc) (s : State), s.trendCfg? series.toNat = some c → c.periodic =
    true → s.pnt.descs.find? (fun e => seriesOf e.2 == some series.toNat) = some (m, d) → s.now % (16000 * c.period) = 0 →
    (sfind s.hst.lastTick series.toNat).map (· / 2) ≠ some s.now → (s.staging (mpnDie m) c.tenant).current.recs = [] →
    (s.staging (mpnDie m) c.tenant).full.length < 64 → ∃ t, exec (.trendPeriodic series) s = .next t ∧ (t.staging (mpnDie m)
    c.tenant).current.recs =
    [{ series := series.toNat, tick := s.now, status := BitVec.ofNat 8 (cellByte (s.cell m)), value := (s.cell m).value, gap := !s.hst.seen.contains series.toNat || s.hst.gap.contains series.toNat }]
    ∧ sfind t.hst.lastTick series.toNat = some (2 * s.now + 1))

/-- A report with a new key is queued behind the records that wait; a commit takes the record at the head of the queue
and gives it the next SEQ; overflow ends at 768 entries; the power-fail window ends with the recorder stopped and
the uncommitted records kept as one loss marker; a freeze ends; operating seconds count; a record that the requester
sees is read from sapwood and from heartwood; the heartwood is planted. (R268, R269, R270, R271, R272, R274, R276,
R277) -/
def Obligations.RecorderCommandsTakeEffect : Prop :=
  (∀ (e : Event) (s : State), s.evr.keys = [] → s.evr.overflow = false → s.evr.queue.length < 1024 → s.evr.loss.n = 0 → ∃
    t, exec (.eventReport e) s = .next t ∧ t.evr.queue = s.evr.queue ++ [(s.evr.nextId, s.newRec (evNorm e))] ∧ t.evr.head =
    s.evr.head) ∧
  (∀ (id : Nat) (x : EvRec) (l : List (Nat × EvRec)) (s : State), s.evr.queue = (id, x) :: l → s.evr.frozen = false →
    s.evr.stopped = false → ∃ t, exec (.eventCommit) s = .next t ∧ t.evr.head = s.evr.head + 1 ∧ t.evr.queue = l ∧ sfind
    t.evr.sap ((s.evr.head + 1) % 65536) = some (id, { x with seq := s.evr.head + 1 })) ∧
  (∀ (s : State), s.evr.overflow = true → s.evr.queue.length ≤ 768 → ∃ t, exec (.evrOverflowClear) s = .next t ∧
    t.evr.overflow = false ∧ t.evr.queue = s.evr.queue) ∧
  (∀ (s : State), s.evr.pfWindow = true → s.evr.pfAt + 24 ≤ s.now → ∃ t, exec (.recorderPowerfailWindowEnd) s = .next t ∧
    t.evr.stopped = true ∧ t.evr.pfWindow = false ∧ t.evr.queue = [] ∧ t.evr.kept = s.evr.keep s.now ∧ t.evr.sap =
    s.evr.sap) ∧
  (∀ (s : State), s.evr.frozen = true → s.evr.frozenAt + secTicks 600 ≤ s.now → ∃ t, exec (.freezeTimeout) s = .next t ∧
    t.evr.frozen = false ∧ t.evr.queue.length = s.evr.queue.length + 1) ∧
  (∀ (s : State), s.evr.opsecAt + secTicks 1 ≤ s.now → ∃ t, exec (.opsecIncrement) s = .next t ∧ t.evr.opsec = s.evr.opsec +
    1 ∧ t.evr.opsecAt = s.evr.opsecAt + secTicks 1) ∧
  (∀ (r : Req) (first : BitVec 64) (count : BitVec 16) (h : ReqHead) (i : Nat) (x : EvRec) (s : State), s.offers r 0x0B01 (·
    == pack [(first.toNat, 8), (count.toNat, 2)]) h i → count = 1 → 64 ≤ h.rlen → s.reqTenant r.sender.val = 0 → s.evr.tail
    ≤ first.toNat → first.toNat ≤ s.evr.head → s.evr.rec? first.toNat = some x → ∃ t, exec (.evtRead r first count) s =
    .next t ∧ t.resultOf r i = some { r0 := lo32 (first.toNat + 1), r1 := hi32 (first.toNat + 1), r2 := 1, resp := x.bytes }
    ∧ t.evr = s.evr) ∧
  (∀ (r : Req) (first count : BitVec 16) (h : ReqHead) (i : Nat) (x : EvRec) (s : State), s.offers r 0x0B02 (· == pack
    [(first.toNat, 2), (count.toNat, 2)]) h i → count = 1 → 64 ≤ h.rlen → s.reqTenant r.sender.val = 0 → first.toNat < 4096
    → first.toNat < s.evr.heartN → (sfind s.evr.heart first.toNat).map (·.2) = some x → ∃ t, exec (.evtHeartRead r first
    count) s = .next t ∧ t.resultOf r i = some { r0 := w32 (first.toNat + 1), r2 := 1, resp := x.bytes } ∧ t.evr = s.evr) ∧
  (∀ (r : Req) (h : ReqHead) (i : Nat) (s : State), s.offers r 0x0B03 (· == []) h i → s.reqTenant r.sender.val = 0 →
    s.evr.planted = false → ∃ t, exec (.evtPlant r) s = .next t ∧ t.resultOf r i = some {} ∧ t.evr.planted = true)

/-- A completed NVMe command is no longer outstanding; a failed one, one whose transfer met a fault of the translation
among them, counts and waits for its reissue, which counts its attempts; a suitable drive is in use; a checkpoint
goes to the other copy with the next number; a flush leaves no staged record in the current block; a resync copies
the next segment in use. (R255, R256, R258, R260, R262, R267) -/
def Obligations.DriveAndStoreEventsTakeEffect : Prop :=
  (∀ (drive : Fin 2) (cid : Nat) (ok : Bool) (fault : Option EngFault) (s : State), ok = true → fault = none → (s.hst.drive
    drive.val).wait = [] → ∃ t, exec (.nvmeCompletion drive cid ok fault) s = .next t ∧ (∀ e ∈ (t.hst.drive drive.val).cmds,
    e.1 = cid → e.2.failed = true)) ∧
  (∀ (drive : Fin 2) (cid : Nat) (ok : Bool) (fault : Option EngFault) (x : EngFault) (c : NvmeCmd) (s : State), fault =
    some x → sfind (s.hst.drive drive.val).cmds cid = some c → c.failed = false → c.attempts < 4 → ∃ t, exec
    (.nvmeCompletion drive cid ok fault) s = .next t ∧ (t.hst.drive drive.val).ioErr = addW (s.hst.drive drive.val).ioErr 1
    ∧ sfind (t.hst.drive drive.val).cmds cid = some { c with failed := true, failedAt := s.now }) ∧
  (∀ (drive : Fin 2) (cid : Nat) (c : NvmeCmd) (s : State), sfind (s.hst.drive drive.val).cmds cid = some c → c.failed =
    false → c.attempts < 4 → c.issuedAt + secTicks 5 ≤ s.now → ∃ t, exec (.nvmeCommandTimeout drive cid) s = .next t ∧
    (t.hst.drive drive.val).ioErr = addW (s.hst.drive drive.val).ioErr 1 ∧ sfind (t.hst.drive drive.val).cmds cid = some
    { c with failed := true, failedAt := s.now }) ∧
  (∀ (drive : Fin 2) (cid : Nat) (c : NvmeCmd) (s : State), sfind (s.hst.drive drive.val).cmds cid = some c → c.failed =
    true → c.failedAt + msTicks 100 ≤ s.now → ∃ t, exec (.nvmeReissue drive cid) s = .next t ∧ (t.hst.drive
    drive.val).reissue = addW (s.hst.drive drive.val).reissue 1 ∧ sfind (t.hst.drive drive.val).cmds cid = some
    { c with failed := false, attempts := c.attempts + 1, issuedAt := s.now }) ∧
  (∀ (drive : Fin 2) (blocks : Nat) (suitable cache dsm : Bool) (serial : Nat) (s : State), s.exyan = true → s.su.seedling
    = false → suitable = true → ∃ t, exec (.driveReady drive blocks suitable cache dsm serial) s = .next t ∧ (t.hst.drive
    drive.val).ok = true ∧ (t.hst.drive drive.val).linkUp = true ∧ (t.hst.drive drive.val).fail = false ∧ (t.hst.drive
    drive.val).blocks = min blocks (2 ^ 33) ∧ (t.hst.drive drive.val).cache = cache ∧ (t.hst.drive drive.val).dsm = dsm ∧
    (t.hst.drive drive.val).serial = serial) ∧
  (∀ (s : State), s.storeOn = true → s.hst.ckptAt + secTicks 10 ≤ s.now → ∃ t, exec (.checkpointTimer) s = .next t ∧
    t.hst.ckptSeq = addW s.hst.ckptSeq 1 ∧ t.hst.ckptB = !s.hst.ckptB ∧ t.hst.ckptAt = s.now ∧ (if s.hst.ckptB then
    t.hst.ckpt0 else t.hst.ckpt1) =
    { good := true, seq := addW s.hst.ckptSeq 1, table := s.hst.table, quotas := sputs [] (s.cfg.tenants.map fun (x : TenantCfg) => (x.id.toNat, x.quota)), keyGen := s.histGenOf 0 })
    ∧
  (∀ (d : Die) (ten : Tenant) (s : State), (s.staging d.val ten).current.recs ≠ [] → (s.staging d.val ten).first + secTicks
    (s.hstDie d.val).flush ≤ s.now → (s.drain ten ((s.staging d.val ten).full ++ [(s.staging d.val ten).current])).1 = [] →
    ∃ t, exec (.trendFlushTimer d ten) s = .next t ∧ (t.staging d.val ten).current.recs = []) ∧
  (∀ (pos d n : Nat) (s : State), s.hst.resync = some pos → s.hst.replacedDrive = some d → s.hst.nextUsed pos = some n → ∃
    t, exec (.resyncSegmentCopy) s = .next t ∧ t.hst.resync = some (n + 1) ∧ t.hst.resyncPos = n)

/-- A history read by tick or by time answers the block that holds the first matching record, with the next first tick;
the quota, the status and the replica read answer what the store holds, and a resync begins on a mirrored store with
a replaced drive. (R258, R260, R261, R265, R267) -/
def Obligations.HistoryRequestsTakeEffect : Prop :=
  (∀ (r : Req) (series : V24) (first last : BitVec 64) (h : ReqHead) (i : Nat) (c : TrendCfg) (n j : Nat) (b : Block) (x :
    TrendRec) (s : State), s.offers r 0x0A01 (· == pack [(series.toNat, 3), (first.toNat, 8), (last.toNat, 8)]) h i →
    series.toNat < 2 ^ 19 → s.trendCfg? series.toNat = some c → reaches (s.reqTenant r.sender.val) c.tenant = true →
    s.trendBlocks c.tenant = [(n, j, b)] → b.recs.find? (fun x => x.series == series.toNat && (first.toNat ≤ x.tick &&
    x.tick ≤ last.toNat)) = some x → 4096 ≤ h.rlen → (s.readStored n j).1 = some b → s.holdsKey c.tenant b = true → ∃ t,
    exec (.hstRead r series first last) s = .next t ∧ t.resultOf r i = some
    { r0 := lo32 (last.toNat + 1), r1 := hi32 (last.toNat + 1), resp := s.plainBlock n c.tenant b }) ∧
  (∀ (r : Req) (series : V24) (first last : BitVec 48) (h : ReqHead) (i : Nat) (c : TrendCfg) (n j : Nat) (b : Block) (x :
    TrendRec) (s : State), s.offers r 0x0A02 (· == pack [(series.toNat, 3), (first.toNat, 6), (last.toNat, 6)]) h i →
    series.toNat < 2 ^ 19 → s.trendCfg? series.toNat = some c → reaches (s.reqTenant r.sender.val) c.tenant = true →
    s.trendBlocks c.tenant = [(n, j, b)] → b.timeOk = true → b.recs.find? (fun x => x.series == series.toNat && (first.toNat
    ≤ recMs b x && recMs b x ≤ last.toNat)) = some x → 4096 ≤ h.rlen → (s.readStored n j).1 = some b → s.holdsKey c.tenant b
    = true → ∃ t, exec (.hstReadTime r series first last) s = .next t ∧ t.resultOf r i = some
    { r0 := lo32 (s.now + 1), r1 := hi32 (s.now + 1), resp := s.plainBlock n c.tenant b }) ∧
  (∀ (r : Req) (ten : BitVec 16) (h : ReqHead) (i : Nat) (s : State), s.offers r 0x0A03 (· == pack [(ten.toNat, 2)]) h i →
    ten.toNat ≤ 0xFFF → reaches (s.reqTenant r.sender.val) (ten.setWidth 12) = true → s.tenantTable.contains (ten.setWidth
    12) = true → ∃ t, exec (.hstQuota r ten) s = .next t ∧ t.resultOf r i = some
    { r0 := w32 (s.quota (ten.setWidth 12)), r1 := w32 (s.hst.held (ten.setWidth 12)) } ∧ t.hst = s.hst) ∧
  (∀ (r : Req) (h : ReqHead) (i : Nat) (s : State), s.offers r 0x0A04 (· == []) h i → s.reqTenant r.sender.val = 0 → ∃ t,
    exec (.hstStatus r) s = .next t ∧ t.resultOf r i = some
    { r0 := w32 (s.hstStatus 0), r1 := w32 (s.hstStatus 1), r2 := w32 s.hst.free, r3 := s.hst.ckptSeq } ∧ t.hst = s.hst) ∧
  (∀ (r : Req) (h : ReqHead) (i : Nat) (s : State), s.offers r 0x0A05 (· == []) h i → s.reqTenant r.sender.val = 0 →
    s.hst.replacedDrive.isSome = true → s.hst.resync = none → ∃ t, exec (.hstResync r) s = .next t ∧ t.resultOf r i = some
    {} ∧ t.hst.resync = some 0) ∧
  (∀ (r : Req) (src : Byte) (seg : V24) (blk count : BitVec 16) (h : ReqHead) (i : Nat) (g : Segment) (b : Block) (s :
    State), s.offers r 0x0A06 (· == pack [(src.toNat, 1), (seg.toNat, 3), (blk.toNat, 2), (count.toNat, 2)]) h i → seg.toNat
    < 2 ^ 20 → 1 ≤ blk.toNat → blk.toNat < 16384 → count = 1 → 4096 ≤ h.rlen → sfind s.hst.segs seg.toNat = some g → g.kind
    = 1 → g.src = src → reaches (s.reqTenant r.sender.val) g.tenant = true → blk.toNat - 1 < g.blocks.length → (s.readStored
    seg.toNat (blk.toNat - 1)).1 = some b → ∃ t, exec (.hstReplicaRead r src seg blk count) s = .next t ∧ t.resultOf r i =
    some { resp := padTo 0 4096 b.replica })

/-- A cycle start that is due advances the cycle number and puts a fully buffered beacon on the line, or counts one that
is not; an entry boundary moves to the next entry; a transmission starts with the head of the highest open queue
that has a frame, in an open window or in a slot of address 0, once enough of it is buffered and not before; its end
counts frame and octets; an early collision counts and backs off, at the controller or at a node, by a multiple of
64 bit-times below the bound of R59 (the multiple is a free value); the end of a back-off ends the wait, and a frame
whose gate has closed is held and counted; over-amplitude in a scheduled window counts, and between answers to a
roll call has a CLAIM broadcast; an underrun counts, raises the threshold and ends the transmission; a fault of its
read counts apart. (R52, R55, R56, R57, R58, R59, R60, R61, R63, R64, R67, R70) -/
def Obligations.BranchTransmissionTakesEffect : Prop :=
  (∀ (p : Port) (buffered : Bool) (s : State), s.hasPort p.val = true → (s.port p.val).running = true → (s.port
    p.val).dormant = false → (s.port p.val).mode = false → (s.port p.val).tx = none → (s.port p.val).pending = false →
    (s.port p.val).cycleDue s.now = true → buffered = true → ∃ t, exec (.branchCycleStart p buffered) s = .next t ∧ (t.port
    p.val).cycnum = (s.port p.val).cycnum + 1 ∧ (t.port p.val).entry = 0 ∧ (t.port p.val).rollcall = false ∧ (t.port
    p.val).tx.any (fun f => isBeacon f.payload) = true ∧ (t.port p.val).nextCycle = s.now + msTicks (s.port p.val).cycleMs)
    ∧
  (∀ (p : Port) (buffered : Bool) (s : State), s.hasPort p.val = true → (s.port p.val).running = true → (s.port
    p.val).dormant = false → (s.port p.val).mode = false → (s.port p.val).pending = false → (s.port p.val).cycleDue s.now =
    true → buffered = false → ∃ t, exec (.branchCycleStart p buffered) s = .next t ∧ (t.port p.val).cycnum = (s.port
    p.val).cycnum + 1 ∧ (t.port p.val).rollcall = (s.port p.val).rollcall ∧ (t.port p.val).tx = (s.port p.val).tx ∧ sget 0
    (t.port p.val).ctr cUnderrun = addW (sget 0 (s.port p.val).ctr cUnderrun) 1) ∧
  (∀ (p : Port) (s : State), (s.port p.val).running = true → (s.port p.val).mode = false → (s.port p.val).dormant = false →
    (s.port p.val).entry + 1 < (s.port p.val).entries → ∃ t, exec (.gclEntryBoundary p) s = .next t ∧ (t.port p.val).entry =
    (s.port p.val).entry + 1) ∧
  (∀ (p : Port) (room at_ buf : Nat) (n : Nat) (f : TxFrame) (l : List TxFrame) (s : State), (s.port p.val).running = true →
    (s.port p.val).tx = none → (s.port p.val).backoff = none → (s.port p.val).train = none → (s.port p.val).dormant = false
    → (s.port p.val).kind = .open → (s.port p.val).gates.getLsbD n = true → n < 8 → (List.range 8).all (fun m => !(n < m) ||
    ((s.port p.val).queue m).isEmpty) = true → (s.port p.val).queue n = f :: l → frameBits f.payload + 48 ≤ room → min
    (s.port p.val).thr (payloadLen f.payload + 8) ≤ buf → ∃ t, exec (.branchTxStart p room at_ buf) s = .next t ∧ (t.port
    p.val).tx = some { f with held := false, buf := buf } ∧ (t.port p.val).queue n = l) ∧
  (∀ (p : Port) (room at_ buf : Nat) (n : Nat) (f : TxFrame) (l : List TxFrame) (s : State), (s.port p.val).running = true →
    (s.port p.val).tx = none → (s.port p.val).backoff = none → (s.port p.val).train = none → (s.port p.val).dormant = false
    → (s.port p.val).kind = .open → (s.port p.val).gates.getLsbD n = true → n < 8 → (List.range 8).all (fun m => !(n < m) ||
    ((s.port p.val).queue m).isEmpty) = true → (s.port p.val).queue n = f :: l → frameBits f.payload + 48 ≤ room → buf < min
    (s.port p.val).thr (payloadLen f.payload + 8) → ∃ t, exec (.branchTxStart p room at_ buf) s = .next t ∧ t.port p.val =
    s.port p.val) ∧
  (∀ (p : Port) (room at_ buf : Nat) (n : Nat) (f : TxFrame) (l : List TxFrame) (e : Nat × Nat) (c : Nat) (v : List V24) (s
    : State), (s.port p.val).running = true → (s.port p.val).tx = none → (s.port p.val).backoff = none → (s.port
    p.val).train = none → (s.port p.val).dormant = false → (s.port p.val).kind = .scheduled → (s.port p.val).gates.getLsbD n
    = true → n < 8 → (List.range 8).all (fun m => !(n < m) || ((s.port p.val).queue m).isEmpty) = true → (s.port
    p.val).queue n = f :: l → (s.port p.val).slotAt at_ = some e → f.payload = .output c v → frameBits f.payload + 48 ≤ min
    room (e.1 + e.2 - at_) → min (s.port p.val).thr (payloadLen f.payload + 8) ≤ buf → ∃ t, exec (.branchTxStart p room at_
    buf) s = .next t ∧ (t.port p.val).tx = some { f with held := false, buf := buf } ∧ (t.port p.val).queue n = l) ∧
  (∀ (p : Port) (f : TxFrame) (s : State), (s.port p.val).tx = some f → ∃ t, exec (.branchTxEnd p) s = .next t ∧ (t.port
    p.val).tx = none ∧ (t.port p.val).lastSent = some f ∧ sget 0 (t.port p.val).ctr cTxFrames = addW (sget 0 (s.port
    p.val).ctr cTxFrames) 1 ∧ sget 0 (t.port p.val).ctr cTxOctets = addW (sget 0 (s.port p.val).ctr cTxOctets) (payloadLen
    f.payload + 8)) ∧
  (∀ (p : Port) (by_ : Option Uid) (bt : Nat) (f : TxFrame) (s : State), by_ = none → (s.port p.val).tx = some f → bt ≤ 64 →
    isBeacon f.payload = false → f.coll + 1 < 12 → ∃ t, exec (.collisionDetect p by_ bt) s = .next t ∧ (t.port p.val).tx =
    none ∧ sget 0 (t.port p.val).ctr cColl = addW (sget 0 (s.port p.val).ctr cColl) 1 ∧ (t.port p.val).queue f.cls =
    { f with coll := f.coll + 1 } :: (s.port p.val).queue f.cls ∧ (∃ k, (t.port p.val).backoff = some (f.cls, 64 * k) ∧ k <
    2 ^ min (f.coll + 1) 8)) ∧
  (∀ (p : Port) (by_ : Option Uid) (bt : Nat) (f : TxFrame) (s : State), by_ = none → (s.port p.val).tx = some f → 64 < bt →
    ∃ t, exec (.collisionDetect p by_ bt) s = .next t ∧ (t.port p.val).tx = none ∧ sget 0 (t.port p.val).ctr cLate = addW
    (sget 0 (s.port p.val).ctr cLate) 1 ∧ (t.port p.val).queues = (s.port p.val).queues) ∧
  (∀ (p : Port) (by_ : Option Uid) (bt : Nat) (u : Uid) (n : Node) (s : State), by_ = some u → s.node? u = some n →
    n.sent.contends = true → n.backoff = none → bt ≤ 64 → n.coll + 1 < 12 → ∃ t, exec (.collisionDetect p by_ bt) s = .next
    t ∧ (∃ k, t.node? u = some { n with coll := n.coll + 1, backoff := some (64 * k) } ∧ k < 2 ^ min (n.coll + 1) 8)) ∧
  (∀ (p : Port) (by_ : Option Uid) (bt : Nat) (u : Uid) (n : Node) (s : State), by_ = some u → s.node? u = some n →
    n.sent.contends = true → n.backoff = none → 64 < bt ∨ 12 ≤ n.coll + 1 → ∃ t, exec (.collisionDetect p by_ bt) s = .next
    t ∧ t.node? u = some { n with sent := .none, coll := 0 }) ∧
  (∀ (p : Port) (by_ : Option Uid) (room at_ buf : Nat) (q b : Nat) (f : TxFrame) (l : List TxFrame) (s : State), by_ = none
    → (s.port p.val).running = true → (s.port p.val).backoff = some (q, b) → (s.port p.val).kind = .beacon → (s.port
    p.val).queue q = f :: l → f.held = false → ∃ t, exec (.backoffExpiry p by_ room at_ buf) s = .next t ∧ (t.port
    p.val).backoff = none ∧ (t.port p.val).tx = (s.port p.val).tx ∧ (t.port p.val).queue q = { f with held := true } :: l ∧
    sget 0 (t.port p.val).ctr cGateOvr = addW (sget 0 (s.port p.val).ctr cGateOvr) 1) ∧
  (∀ (p : Port) (by_ : Option Uid) (room at_ buf : Nat) (n b : Nat) (f : TxFrame) (l : List TxFrame) (s : State), by_ = none
    → (s.port p.val).running = true → (s.port p.val).tx = none → (s.port p.val).train = none → (s.port p.val).dormant =
    false → (s.port p.val).backoff = some (n, b) → (s.port p.val).kind = .open → (s.port p.val).gates.getLsbD n = true → n <
    8 → (List.range 8).all (fun m => !(n < m) || ((s.port p.val).queue m).isEmpty) = true → (s.port p.val).queue n = f :: l
    → frameBits f.payload + 48 ≤ room → min (s.port p.val).thr (payloadLen f.payload + 8) ≤ buf → ∃ t, exec (.backoffExpiry
    p by_ room at_ buf) s = .next t ∧ (t.port p.val).backoff = none ∧ (t.port p.val).tx = some
    { f with held := false, buf := buf } ∧ (t.port p.val).ctr = (s.port p.val).ctr) ∧
  (∀ (p : Port) (by_ : Option Uid) (room at_ buf : Nat) (u : Uid) (n : Node) (s : State), by_ = some u → s.node? u = some n
    → ∃ t, exec (.backoffExpiry p by_ room at_ buf) s = .next t ∧ t.node? u = some { n with backoff := none }) ∧
  (∀ (p : Port) (addr : Byte) (s : State), (s.port p.val).tx = none → (s.port p.val).running = true → (s.port p.val).kind =
    .scheduled → ∃ t, exec (.scheduledOverAmplitude p addr) s = .next t ∧ sget 0 (t.port p.val).ctr cColl = addW (sget 0
    (s.port p.val).ctr cColl) 1 ∧ (t.port p.val).tx = none) ∧
  (∀ (p : Port) (addr : Byte) (s : State), (s.port p.val).tx = none → (s.port p.val).running = true → (s.port p.val).kind =
    .scheduled → (s.port p.val).rollcallAt addr.toNat = true → ∃ t, exec (.scheduledOverAmplitude p addr) s = .next t ∧
    (t.port p.val).round = (s.port p.val).round + 1 ∧ (t.port p.val).claimLeft = 2) ∧
  (∀ (p : Port) (why : TxFail) (f : TxFrame) (s : State), (s.port p.val).tx = some f → why = .dry → f.buf < payloadLen
    f.payload + 8 → ∃ t, exec (.branchTxUnderrun p why) s = .next t ∧ (t.port p.val).tx = none ∧ sget 0 (t.port p.val).ctr
    cUnderrun = addW (sget 0 (s.port p.val).ctr cUnderrun) 1 ∧ (t.port p.val).thr = min 256 ((s.port p.val).thr + 32)) ∧
  (∀ (p : Port) (why : TxFail) (f : TxFrame) (e : EngFault) (s : State), (s.port p.val).tx = some f → why = .access e → ∃ t,
    exec (.branchTxUnderrun p why) s = .next t ∧ (t.port p.val).tx = none ∧ sget 0 (t.port p.val).ctr cXlate = addW (sget 0
    (s.port p.val).ctr cXlate) 1 ∧ (t.port p.val).thr = (s.port p.val).thr)

/-- A running port counts a bad frame; a REPORT and an EVENT write the cells bound to their channels; a RESPONSE ends
the outstanding COMMAND; a CLAIM of a bound node starts an ASSIGN; a ROLLCALL makes its node present; a third empty
slot marks a node missing and 60 s later it is lost; an ASSIGN and a COMMAND go again; CLAIM is broadcast. (R50,
R51, R71, R76, R77, R79, R81, R83, R369) -/
def Obligations.BranchReceptionTakesEffect : Prop :=
  (∀ (p : Port) (why : RxFail) (s : State), (s.port p.val).running = true → why = .crc → ∃ t, exec (.branchRxBadFrame p
    why) s = .next t ∧ sget 0 (t.port p.val).ctr cCrc = addW (sget 0 (s.port p.val).ctr cCrc) 1 ∧ (t.port p.val).nodes =
    (s.port p.val).nodes) ∧
  (∀ (p : Port) (addr : Byte) (first : Nat) (vals : List ChanVal) (v : ChanVal) (m : Nat) (d : Desc) (s : State), (s.port
    p.val).running = true → (s.nodeCfg? p.val addr.toNat).isSome = true → vals = [v] → first < 64 → ((s.port p.val).node
    addr.toNat).state = .present → s.chanPoint p.val addr.toNat first = some m → s.desc? m = some d → d.fbk = false →
    (s.cell m).forced = false → ∃ t, exec (.branchRxReport p addr first vals) s = .next t ∧ (t.cell m).value = v.value ∧
    (t.cell m).qual = v.qual ∧ (t.cell m).src = .field ∧ (t.cell m).stale = false ∧ ((t.port p.val).node addr.toNat).heard =
    true ∧ ((t.port p.val).node addr.toNat).empty = 0) ∧
  (∀ (p : Port) (addr seq ch : Byte) (v : ChanVal) (m : Nat) (d : Desc) (s : State), (s.port p.val).running = true →
    (s.nodeCfg? p.val addr.toNat).isSome = true → s.chanPoint p.val addr.toNat ch.toNat = some m → s.desc? m = some d →
    d.fbk = false → (s.cell m).forced = false → ∃ t, exec (.branchRxEvent p addr seq ch v) s = .next t ∧ (t.cell m).value =
    v.value ∧ (t.cell m).qual = v.qual ∧ (t.cell m).src = .field ∧ (t.cell m).stale = false) ∧
  (∀ (p : Port) (addr seq op status : Byte) (data : List Byte) (c : PendCmd) (s : State), (s.port p.val).running = true →
    sfind (s.port p.val).cmds addr.toNat = some c → c.seq = seq → c.op = op → ∃ t, exec (.branchRxResponse p addr seq op
    status data) s = .next t ∧ sfind (t.port p.val).cmds addr.toNat = none ∧ (t.port p.val).running = true) ∧
  (∀ (p : Port) (uid : Uid) (cls : Byte) (chmap : List Byte) (n : NodeCfg) (s : State), (s.port p.val).running = true → uid
    ≠ 0 → uid ≠ 0xFFFFFFFFFFFFFFFF → s.cfg.nodes.find? (fun n => n.port == p.val && n.uid == uid) = some n → ∃ t, exec
    (.branchRxClaim p uid cls chmap) s = .next t ∧ sfind (t.port p.val).assigns n.addr = some
    { uid := uid, plan := { n.plan with addr := BitVec.ofNat 8 n.addr }, due := rollcallDue (s.port p.val).cycnum { n.plan with addr := BitVec.ofNat 8 n.addr } })
    ∧
  (∀ (p : Port) (addr : Byte) (uid : Uid) (cls : Byte) (stat : BitVec 3) (n : NodeCfg) (s : State), (s.port p.val).running =
    true → uidBad uid = false → s.nodeCfg? p.val addr.toNat = some n → n.uid = uid → ∃ t, exec (.branchRxRollcall p addr uid
    cls stat) s = .next t ∧ ((t.port p.val).node addr.toNat).state = .present ∧ ((t.port p.val).node addr.toNat).rcDue =
    false) ∧
  (∀ (p : Port) (addr : Byte) (s : State), (s.port p.val).running = true → (s.port p.val).dormant = false → (s.nodeCfg?
    p.val addr.toNat).isSome = true → ((s.port p.val).node addr.toNat).heard = false → 2 ≤ ((s.port p.val).node
    addr.toNat).empty → ((s.port p.val).node addr.toNat).state = .present → ∃ t, exec (.slotEnd p addr) s = .next t ∧
    ((t.port p.val).node addr.toNat).state = .missing ∧ ((t.port p.val).node addr.toNat).markedAt = s.now) ∧
  (∀ (p : Port) (addr : Byte) (s : State), (s.port p.val).running = true → (s.port p.val).dormant = false → ((s.port
    p.val).node addr.toNat).state = .missing → ((s.port p.val).node addr.toNat).markedAt + secTicks 60 ≤ s.now → ∃ t, exec
    (.nodeLostTimeout p addr) s = .next t ∧ ((t.port p.val).node addr.toNat).state = .lost) ∧
  (∀ (p : Port) (addr : Byte) (a : PendAssign) (s : State), sfind (s.port p.val).assigns addr.toNat = some a → a.sent < 4 →
    ((s.port p.val).cycnum - a.due).msb = false → ∃ t, exec (.assignRetryTimeout p addr) s = .next t ∧ sfind (t.port
    p.val).assigns addr.toNat = some { a with sent := a.sent + 1, due := rollcallDue (s.port p.val).cycnum a.plan } ∧
    (t.port p.val).queue 0 = (s.port p.val).queue 0 ++ [{ dst := 0xFF, payload := .assign a.uid a.plan }]) ∧
  (∀ (p : Port) (addr : Byte) (c : PendCmd) (s : State), sfind (s.port p.val).cmds addr.toNat = some c → c.sent < 4 →
    c.sentAt + msTicks 100 ≤ s.now → ∃ t, exec (.nodeCommandTimeout p addr) s = .next t ∧ sfind (t.port p.val).cmds
    addr.toNat = some { c with sent := c.sent + 1, sentAt := s.now } ∧ (t.port p.val).queue 0 = (s.port p.val).queue 0 ++
    [{ dst := addr, payload := .command c.seq c.op c.args }]) ∧
  (∀ (p : Port) (s : State), (s.port p.val).running = true → s.now < (s.port p.val).claimEnd → (s.port p.val).claimAt ≤
    s.now → ∃ t, exec (.claimBroadcastTimer p) s = .next t ∧ (t.port p.val).claimAt = s.now + secTicks 1 ∧ (t.port
    p.val).round = (s.port p.val).round + 1 ∧ (t.port p.val).queue 0 = (s.port p.val).queue 0 ++
    [{ dst := 0xFF, payload := .claim ((s.port p.val).round + 1) 64 1000 }])

/-- A port enters and leaves dormancy, sends its dormant beacons and its wake trains; a node powers up into SYNC or
UNADDR, draws and uses a claim slot, stores or erases a plan, takes beacons and outputs, reports or answers the roll
call in its slot, falls back, listens, misses, seeks, sniffs and wakes as its state table says. The claim slot drawn
is a free value below NSLOT. (R72, R73, R76, R78, R80, R82, R84, R86, R88, R91, R92, R93) -/
def Obligations.DormancyAndLeafNodesTakeEffect : Prop :=
  (∀ (p : Port) (s : State), (s.port p.val).running = true → (s.port p.val).dormant = false → (s.port p.val).woke = false →
    (s.port p.val).train = none → (s.port p.val).dormEn = true → inSchedule (s.port p.val).dormStart (s.port p.val).dormStop
    s.localMinute = true → (s.port p.val).nextCycle ≤ s.now → ∃ t, exec (.dormancyEntry p) s = .next t ∧ (t.port
    p.val).dormant = true ∧ (t.port p.val).rcf = 1 ∧ (t.port p.val).subset = (0, 0)) ∧
  (∀ (p : Port) (s : State), (s.port p.val).running = true → (s.port p.val).dormant = true → (s.port p.val).nextCycle ≤
    s.now → ∃ t, exec (.dormantBeacon p) s = .next t ∧ (t.port p.val).dormAt = s.now ∧ (t.port p.val).subset = ((s.port
    p.val).rcf, min (s.port p.val).rcn (250 - (s.port p.val).rcf + 1)) ∧ (t.port p.val).nextCycle = s.now + msTicks (s.port
    p.val).period) ∧
  (∀ (p : Port) (s : State), (s.port p.val).running = true → (s.port p.val).woke = true → (s.port p.val).train = none → ∃
    t, exec (.wakeTrainStart p) s = .next t ∧ (t.port p.val).train = some s.now) ∧
  (∀ (p : Port) (s : State), (s.port p.val).dormant = true → ∃ t, exec (.wakePulse p) s = .next t ∧ (t.port p.val).dormant
    = false ∧ (t.port p.val).woke = true ∧ (t.port p.val).nextCycle = s.now) ∧
  (∀ (p : Port) (s : State), (s.port p.val).dormant = true → (s.port p.val).dormEn = false → ∃ t, exec (.dormancyEnd p) s =
    .next t ∧ (t.port p.val).dormant = false) ∧
  (∀ (p : Port) (uid : Uid) (cls : Byte) (chmap : List Byte) (factory fault : Bool) (key : Option (BitVec 256)) (timer :
    Nat) (n : Node) (q : Plan) (s : State), s.node? uid = some n → n.plan = some q → factory = false → ∃ t, exec
    (.nodePowerUp p uid cls chmap factory fault key timer) s = .next t ∧ (∃ m, t.node? uid = some m ∧ m.mode = .sync ∧
    m.plan = some q ∧ m.port = p.val ∧ m.cls = cls ∧ m.chmap = chmap ∧ m.fault = fault ∧ m.fbFrom = timer)) ∧
  (∀ (p : Port) (uid : Uid) (cls : Byte) (chmap : List Byte) (factory fault : Bool) (key : Option (BitVec 256)) (timer :
    Nat) (s : State), factory = true → ∃ t, exec (.nodePowerUp p uid cls chmap factory fault key timer) s = .next t ∧ (∃ m,
    t.node? uid = some m ∧ m.mode = .unaddr ∧ m.plan = none ∧ m.port = p.val ∧ m.cls = cls ∧ m.chmap = chmap)) ∧
  (∀ (p : Port) (uid : Uid) (cls : Byte) (chmap : List Byte) (factory fault : Bool) (key : Option (BitVec 256)) (timer :
    Nat) (s : State), s.node? uid = none → ∃ t, exec (.nodePowerUp p uid cls chmap factory fault key timer) s = .next t ∧
    (∃ m, t.node? uid = some m ∧ m.mode = .unaddr ∧ m.plan = none ∧ m.port = p.val ∧ m.cls = cls ∧ m.chmap = chmap)) ∧
  (∀ (uid : Uid) (nslot : Byte) (slotbt : Nat) (claimOpen : Bool) (timer : Nat) (n : Node) (s : State), s.node? uid = some n
    → n.mode = .unaddr → claimOpen = true → 0 < nslot.toNat → ∃ t, exec (.nodeClaimBroadcastRx uid nslot slotbt claimOpen
    timer) s = .next t ∧ (∃ k, t.node? uid = some { n with claimR := some k, claimAt := timer + k * slotbt } ∧ k <
    nslot.toNat)) ∧
  (∀ (uid : Uid) (timer : Nat) (n : Node) (s : State), s.node? uid = some n → n.claimR.isSome = true → n.claimAt ≤ timer → ∃
    t, exec (.nodeClaimSlot uid timer) s = .next t ∧ t.node? uid = some
    { n with claimR := none, sent := .claim uid n.cls n.chmap, coll := 0, backoff := none }) ∧
  (∀ (uid : Uid) (dst : Byte) (target : Uid) (plan : Plan) (timer : Nat) (n : Node) (s : State), s.node? uid = some n →
    target = uid → dst = 0xFF → n.mode = .unaddr → 1 ≤ plan.addr.toNat → plan.addr.toNat ≤ 250 → ∃ t, exec (.nodeAssignRx
    uid dst target plan timer) s = .next t ∧ t.node? uid = some
    { n with plan := some plan, rollDue := true, claimR := none, fbFrom := timer, mode := .sync }) ∧
  (∀ (uid : Uid) (dst : Byte) (target : Uid) (plan : Plan) (timer : Nat) (n : Node) (q : Plan) (s : State), s.node? uid =
    some n → target = uid → n.hears = true → n.plan = some q → dst = q.addr → plan.addr = 0 → ∃ t, exec (.nodeAssignRx uid
    dst target plan timer) s = .next t ∧ t.node? uid = some
    { n with plan := none, mode := .unaddr, rollDue := false, claimR := none }) ∧
  (∀ (uid : Uid) (b : Beacon) (timer : Nat) (n : Node) (q : Plan) (s : State), s.node? uid = some n → n.plan = some q →
    n.mode = .sync → b.dormant = false → b.subs = [] → n.offlineQ = [] → ∃ t, exec (.nodeBeaconRx uid b timer) s = .next t ∧
    (∃ m, t.node? uid = some m ∧ m.mode = .active ∧ m.heard = true ∧ m.cyc8 = b.cyc8 ∧ m.rollDue = true ∧ m.inFallback =
    false ∧ m.beaconAt = timer ∧ m.fbFrom = timer + frameBits (.beacon b))) ∧
  (∀ (uid : Uid) (first : Nat) (vals : List ChanVal) (n : Node) (q : Plan) (s : State), s.node? uid = some n → n.plan = some
    q → n.mode = .active → n.heard = true → n.cyc8.toNat % q.every = q.phase → n.rollDue = false → ∃ t, exec (.nodeSlotStart
    uid first vals) s = .next t ∧ t.node? uid = some
    { n with sent := .report first (reportVals n.evVals first vals), evVals := [], heard := false, coll := 0, backoff := none })
    ∧
  (∀ (uid : Uid) (first : Nat) (vals : List ChanVal) (n : Node) (q : Plan) (s : State), s.node? uid = some n → n.plan = some
    q → n.mode = .active → n.heard = true → n.cyc8.toNat % q.every = q.phase → n.rollDue = true → ∃ t, exec (.nodeSlotStart
    uid first vals) s = .next t ∧ t.node? uid = some
    { n with sent := .rollcall uid n.cls (n.stat ||| if n.fault then 4 else 0), rollDue := false, stat := 0, heard := false, coll := 0, backoff := none })
    ∧
  (∀ (uid : Uid) (dst : Byte) (first : Nat) (vals : List V24) (n : Node) (v : V24) (q : Plan) (s : State), s.node? uid =
    some n → n.mode = .active → n.plan = some q → dst = q.addr ∨ dst = 0xFF → vals = [v] → first < 64 → n.isOutput first =
    true → ∃ t, exec (.nodeOutputRx uid dst first vals) s = .next t ∧ t.node? uid = some
    { n with outputs := sput n.outputs first v, halt := none }) ∧
  (∀ (uid : Uid) (timer : Nat) (n : Node) (q : Plan) (s : State), s.node? uid = some n → n.mode = .active → n.plan = some q
    → 1000000 * q.fbt ≤ n.since n.fbFrom timer → ∃ t, exec (.nodeFallbackTimeout uid timer) s = .next t ∧ (∃ m, t.node? uid
    = some m ∧ m.mode = .fallback ∧ m.inFallback = true ∧ m.plan = n.plan)) ∧
  (∀ (uid : Uid) (timer : Nat) (n : Node) (s : State), s.node? uid = some n → n.mode = .dsleep → n.predicted ≤ n.since
    n.beaconAt timer + n.guard → ∃ t, exec (.nodeWindowOpen uid timer) s = .next t ∧ t.node? uid = some
    { n with mode := .dlisten }) ∧
  (∀ (uid : Uid) (timer : Nat) (n : Node) (s : State), s.node? uid = some n → n.mode = .dlisten → n.predicted + n.guard ≤
    n.since n.beaconAt timer → ∃ t, exec (.nodeWindowClose uid timer) s = .next t ∧ t.node? uid = some (if 2 ≤ n.misses + 1
    then { n with misses := n.misses + 1, mode := .seek, seekAt := timer } else
    { n with misses := n.misses + 1, sumMs := n.sumMs + n.nextMs, mode := .dsleep })) ∧
  (∀ (uid : Uid) (timer : Nat) (n : Node) (s : State), s.node? uid = some n → n.mode = .seek → 15000 * n.nextMs ≤ n.since
    n.seekAt timer → ∃ t, exec (.nodeSeekTimeout uid timer) s = .next t ∧ (∃ m, t.node? uid = some m ∧ m.mode = .fallback ∧
    m.sniff = true ∧ m.inFallback = true ∧ m.sniffAt = timer)) ∧
  (∀ (uid : Uid) (carrier : Bool) (timer : Nat) (n : Node) (s : State), s.node? uid = some n → n.mode = .fallback → n.sniff
    = true → n.listening = false → 35000 ≤ n.since n.sniffAt timer → ∃ t, exec (.nodeSniff uid carrier timer) s = .next t ∧
    t.node? uid = some { n with listening := carrier, sniffAt := timer }) ∧
  (∀ (uid : Uid) (carrier : Bool) (timer : Nat) (n : Node) (s : State), s.node? uid = some n → n.mode = .fallback → n.sniff
    = true → n.listening = true → n.since n.sniffAt timer < 20000000 → ∃ t, exec (.nodeSniff uid carrier timer) s = .next t
    ∧ t.node? uid = some n) ∧
  (∀ (uid : Uid) (ch : BitVec 6) (timer : Nat) (n : Node) (s : State), s.node? uid = some n → n.mode = .dsleep →
    n.wakeMask.getLsbD ch.toNat = true → ∃ t, exec (.nodeWakeCondition uid ch timer) s = .next t ∧ t.node? uid = some
    { n with sent := .wakePulse, mode := .sync, fbFrom := timer })

/-- An addressed node that hears a COMMAND to it or to all whose SEQ is not the one it last answered does what Table
04.4 says and sends the RESPONSE with STATUS 0. (R72, R83) -/
def Obligations.NodeCommandsTakeEffect : Prop :=
  (∀ (uid : Uid) (dst seq : Byte) (n : Node) (s : State), s.node? uid = some n → n.plan.isSome = true → some dst = n.addr ∨
    dst = 0xFF → n.hears = true → n.lastSeq ≠ some seq → ∃ t, exec (.readInfo uid dst seq) s = .next t ∧ (∃ m, t.node? uid =
    some m ∧ m.sent = .response seq 1 0 (leBytes uid.toNat 8 ++ [n.cls] ++ leBytes n.chmap.length 1 ++ n.chmap ++ leBytes
    (Config.nodeVersion uid).toNat 2) ∧ m.lastSeq = some seq)) ∧
  (∀ (uid : Uid) (dst seq : Byte) (fbt : Nat) (entries : List (Nat × V24)) (n : Node) (q : Plan) (s : State), s.node? uid =
    some n → n.plan = some q → dst = q.addr ∨ dst = 0xFF → n.hears = true → n.lastSeq ≠ some seq → 1 ≤ fbt → fbt ≤ 600 →
    entries.all (fun e => n.isOutput e.1) = true → ∃ t, exec (.setFallback uid dst seq fbt entries) s = .next t ∧ (∃ m,
    t.node? uid = some m ∧ m.sent = .response seq 2 0 [] ∧ m.plan = some { q with fbt := fbt } ∧ m.fallbackV = sputs
    n.fallbackV entries)) ∧
  (∀ (uid : Uid) (dst seq : Byte) (seconds : Byte) (n : Node) (s : State), s.node? uid = some n → n.plan.isSome = true →
    some dst = n.addr ∨ dst = 0xFF → n.hears = true → n.lastSeq ≠ some seq → ∃ t, exec (.identify uid dst seq seconds) s =
    .next t ∧ (∃ m, t.node? uid = some m ∧ m.sent = .response seq 3 0 [] ∧ m.identify = seconds.toNat)) ∧
  (∀ (uid : Uid) (dst seq : Byte) (mask : BitVec 64) (n : Node) (s : State), s.node? uid = some n → n.plan.isSome = true →
    some dst = n.addr ∨ dst = 0xFF → n.hears = true → n.lastSeq ≠ some seq → ∃ t, exec (.setWake uid dst seq mask) s = .next
    t ∧ (∃ m, t.node? uid = some m ∧ m.sent = .response seq 4 0 [] ∧ m.wakeMask = mask)) ∧
  (∀ (uid : Uid) (dst seq : Byte) (target : Uid) (n : Node) (s : State), s.node? uid = some n → n.plan.isSome = true → some
    dst = n.addr ∨ dst = 0xFF → n.hears = true → n.lastSeq ≠ some seq → target = uid → ∃ t, exec (.forget uid dst seq
    target) s = .next t ∧ (∃ m, t.node? uid = some m ∧ m.sent = .response seq 5 0 [] ∧ m.plan = none ∧ m.mode = .unaddr)) ∧
  (∀ (uid : Uid) (dst seq : Byte) (ramp : Nat) (n : Node) (s : State), s.node? uid = some n → n.plan.isSome = true → some
    dst = n.addr ∨ dst = 0xFF → n.hears = true → n.lastSeq ≠ some seq → n.cls = 4 → 1 ≤ ramp → ramp ≤ 6000 → ∃ t, exec
    (.setRamp uid dst seq ramp) s = .next t ∧ (∃ m, t.node? uid = some m ∧ m.sent = .response seq 6 0 [] ∧ m.ramp = ramp))

/-- A read of the tick returns it and holds its high word; a read of a PNT_CHGMAP word returns and clears it; a write of
1 clears a W1C bit and a write of 0 a counter; a write of a form the interface does not take is counted; a mailbox
slot is enabled, disabled and its doorbells are taken; a watermark is enabled and re-armed; the snapshot takes tick
and time. (R39, R65, R299, R300, R301, R303, R290, R295, R296, R305, R308) -/
def Obligations.RegisterAccessesTakeEffect : Prop :=
  (∀ (bar2 : Bool) (off : BitVec 28) (wide : Bool) (s : State), bar2 = false → off = 0x5000 → wide = true → ∃ t, exec
    (.rlLowWordRead bar2 off wide) s = .next t ∧ t.host.busData = s.tick ∧ t.tickHi = s.tick.extractLsb' 32 32) ∧
  (∀ (bar2 : Bool) (off : BitVec 28) (wide : Bool) (s : State), bar2 = false → off = 0x5000 → wide = false → ∃ t, exec
    (.rlLowWordRead bar2 off wide) s = .next t ∧ t.host.busData = (s.tick.setWidth 32).setWidth 64 ∧ t.tickHi =
    s.tick.extractLsb' 32 32) ∧
  (∀ (off : BitVec 28) (d k : Nat) (s : State), s.host.mbxRdy = true → s.winTenant = some 0 → d < s.nDies → k < 16 → off =
    BitVec.ofNat 28 (0x2000000 * d + 0x30100 + 4 * k) → ∃ t, exec (.rcRead off) s = .next t ∧ t.host.busData = (sget 0 (sget
    {} s.pnt.regs d).chgmap k).setWidth 64 ∧ sget 0 (sget {} t.pnt.regs d).chgmap k = 0) ∧
  (∀ (bar2 : Bool) (off : BitVec 28) (v : Word) (s : State), bar2 = false → off = 0x3000 → ∃ t, exec (.w1cWrite bar2 off v)
    s = .next t ∧ t.host.intWmk = (s.host.intWmk && !v.getLsbD 8) ∧ t.host.intDev = (s.host.intDev && !v.getLsbD 9) ∧
    t.host.intMbx = (s.host.intMbx && !v.getLsbD 10)) ∧
  (∀ (bar2 : Bool) (off : BitVec 28) (v : Word) (d : Nat) (s : State), s.host.mbxRdy = true → s.winTenant = some 0 → d <
    s.nDies → bar2 = true → off = BitVec.ofNat 28 (0x2000000 * d + 0x400100) → ∃ t, exec (.w1cWrite bar2 off v) s = .next t
    ∧ (t.dma d).irqStat = (s.dma d).irqStat &&& ~~~v) ∧
  (∀ (off : BitVec 28) (v : Word) (d : Nat) (s : State), s.host.mbxRdy = true → s.winTenant = some 0 → d < s.nDies → off =
    BitVec.ofNat 28 (0x2000000 * d + 0x30048) → ∃ t, exec (.counterClearWrite off v) s = .next t ∧ (sget {} t.pnt.regs
    d).refused = (if v = 0 then 0 else (sget {} s.pnt.regs d).refused)) ∧
  (∀ (bar2 : Bool) (off : BitVec 28) (size : Nat) (v : BitVec 64) (n : Nat) (s : State), bar2 = false → size = 4 → n < 16 →
    off = BitVec.ofNat 28 (0x4004 + 32 * n) → ∃ t, exec (.registerWrite bar2 off size v) s = .next t ∧ (t.wmk n).thr =
    v.setWidth 24 ∧ (t.wmk n).en = (s.wmk n).en ∧ (t.wmk n).hyst = (s.wmk n).hyst) ∧
  (∀ (bar2 : Bool) (off : BitVec 28) (size : Nat) (v : BitVec 64) (s : State), size ≠ 4 → size ≠ 8 → ∃ t, exec
    (.registerWrite bar2 off size v) s = .next t ∧ t.host.badAcc = s.host.badAcc + 1 ∧ t.pnt = s.pnt ∧ t.host.wmks =
    s.host.wmks ∧ t.host.slots = s.host.slots) ∧
  (∀ (bar2 : Bool) (off : BitVec 28) (size : Nat) (v : BitVec 64) (s : State), bar2 = true → size = 4 → off.toNat % 4 = 0 →
    s.host.mbxRdy = true → s.host.win = none → ∃ t, exec (.registerWrite bar2 off size v) s = .next t ∧ t.host.badAcc =
    s.host.badAcc + 1 ∧ t.pnt = s.pnt ∧ t.ports = s.ports ∧ t.fio = s.fio) ∧
  (∀ (k : SlotNo) (irq : Bool) (s : State), (s.sender k.val).en = false → (s.sender k.val).ringsOk = true → ∃ t, exec
    (.mbxSlotEnable k irq) s = .next t ∧ (t.sender k.val).en = true ∧ (t.sender k.val).irqEn = irq ∧ (t.sender k.val).armed
    = irq ∧ (t.sender k.val).rqHead = 0 ∧ (t.sender k.val).rqTail = 0 ∧ (t.sender k.val).cqHead = 0 ∧ (t.sender
    k.val).cqTail = 0 ∧ (t.sender k.val).phase = true) ∧
  (∀ (k : SlotNo) (irq : Bool) (s : State), (s.sender k.val).en = false → (s.sender k.val).ringsOk = false → ∃ t, exec
    (.mbxSlotEnable k irq) s = .next t ∧ (t.sender k.val).en = false ∧ (t.sender k.val).err = (s.sender k.val).err ||| 1 ∧
    t.host.intMbx = true) ∧
  (∀ (k : SlotNo) (irq : Bool) (s : State), (s.sender k.val).en = true → ∃ t, exec (.mbxSlotDisable k irq) s = .next t ∧
    (t.sender k.val).en = false ∧ (t.sender k.val).irqEn = irq ∧ (t.sender k.val).opened = false ∧ (t.sender k.val).reqs =
    []) ∧
  (∀ (k : SlotNo) (s : State), (s.sender k.val).en = true → (s.sender k.val).irqEn = false → ∃ t, exec (.mbxIrqEnable k) s
    = .next t ∧ (t.sender k.val).irqEn = true ∧ (t.sender k.val).armed = true ∧ (t.sender k.val).en = true ∧ (t.sender
    k.val).reqs = (s.sender k.val).reqs) ∧
  (∀ (k : SlotNo) (v : Word) (s : State), (s.sender k.val).en = true → v.toNat < 2 ^ (s.sender k.val).rqLog.toNat →
    (s.sender k.val).rqLog.toNat ≤ 12 → ∃ t, exec (.mbxRqTail k v) s = .next t ∧ (t.sender k.val).rqTail.toNat = v.toNat ∧
    (t.sender k.val).err = (s.sender k.val).err) ∧
  (∀ (k : SlotNo) (v : Word) (s : State), (s.sender k.val).en = true → 2 ^ (s.sender k.val).rqLog.toNat ≤ v.toNat → ∃ t,
    exec (.mbxRqTail k v) s = .next t ∧ (t.sender k.val).rqTail = (s.sender k.val).rqTail ∧ (t.sender k.val).err = (s.sender
    k.val).err ||| 2 ∧ t.host.intMbx = true) ∧
  (∀ (k : SlotNo) (v : Word) (s : State), (s.sender k.val).en = true → (s.sender k.val).irqEn = false → v.toNat < 2 ^
    (s.sender k.val).cqLog.toNat → (s.sender k.val).cqLog.toNat ≤ 12 → ∃ t, exec (.mbxCqHead k v) s = .next t ∧ (t.sender
    k.val).cqHead.toNat = v.toNat ∧ (t.sender k.val).armed = false ∧ (t.sender k.val).err = (s.sender k.val).err) ∧
  (∀ (n : BitVec 5) (v : Word) (s : State), n.toNat < 16 → (s.wmk n.toNat).en = true → v.getLsbD 1 = true → v.getLsbD 2 =
    true → ∃ t, exec (.wmkStatWrite n v) s = .next t ∧ t.wmk n.toNat =
    { s.wmk n.toNat with raised := false, fell := false, armed := true, count := 0 }) ∧
  (∀ (n : BitVec 5) (s : State), n.toNat < 16 → (s.wmk n.toNat).en = false → ∃ t, exec (.wmkEnable n) s = .next t ∧ t.wmk
    n.toNat = { s.wmk n.toNat with en := true, armed := true, level := false, raised := false, fell := false, count := 0 })
    ∧
  (∀ (s : State), ∃ t, exec (.snapTake) s = .next t ∧ t.host.snap.done = true ∧ t.host.snap.tick = s.tick ∧
    t.host.snap.utcOk = s.time.utcOk ∧ t.host.snap.sfn = (if s.ringInUse then BitVec.ofNat 48 s.trk.sfn else 0))

/-- In the landlord's window a write of LSC_CTRL runs, stops, holds, steps and resumes a die as the mode table says, a
write of LPE_S_CTRL requests a swap of a bank that passes its checks or clears SAT, and a write of LPE_TU_CTRL
starts or stops a test unit. (R129, R130, R132, R133, R138, R163, R166, R177, R179, R187, R186, R287) -/
def Obligations.LogicControlRegistersTakeEffect : Prop :=
  (∀ (d : Die) (i : LogicImage) (s : State), s.host.mbxRdy = true → s.winTenant = some 0 → d.val < s.nDies → s.dieUp d.val =
    true → (s.die d.val).mode = .stop → (s.die d.val).image = some i → ∃ t, exec (.lscCtrlRunCold d) s = .next t ∧ (t.die
    d.val).mode = .run ∧ (t.die d.val).vars = sputs [] i.initVars ∧ (t.die d.val).slotA.good = false ∧ (t.die
    d.val).slotB.good = false ∧ (t.die d.val).resumeSeq = 0xFFFFFFFF ∧ (t.die d.val).fault = false) ∧
  (∀ (d : Die) (i : LogicImage) (r : RetainSlot) (s : State), s.host.mbxRdy = true → s.winTenant = some 0 → d.val < s.nDies
    → s.dieUp d.val = true → (s.die d.val).mode = .stop → (s.die d.val).image = some i → (s.die d.val).warmSlot i.retainId =
    some r → ∃ t, exec (.lscCtrlRunWarm d) s = .next t ∧ (t.die d.val).mode = .run ∧ (t.die d.val).vars = sputs (sputs []
    i.initVars) r.vars ∧ (t.die d.val).resumeSeq = r.seq ∧ (t.die d.val).seq = r.seq ∧ (t.die d.val).fault = false) ∧
  (∀ (d : Die) (s : State), s.host.mbxRdy = true → s.winTenant = some 0 → d.val < s.nDies → (s.die d.val).mode = .run →
    (s.die d.val).inScan = true → ∃ t, exec (.lscCtrlStop d) s = .next t ∧ (t.die d.val).mode = .run ∧ (t.die d.val).pend =
    true) ∧
  (∀ (d : Die) (s : State), s.host.mbxRdy = true → s.winTenant = some 0 → d.val < s.nDies → (s.die d.val).mode = .run →
    (s.die d.val).inScan = false → ∃ t, exec (.lscCtrlStop d) s = .next t ∧ (t.die d.val).mode = .stop ∧ (t.die d.val).pend
    = false ∧ (t.die d.val).fault = (s.die d.val).fault) ∧
  (∀ (d : Die) (s : State), s.host.mbxRdy = true → s.winTenant = some 0 → d.val < s.nDies → (s.die d.val).mode = .run →
    (s.die d.val).holding = none → (List.range 4).all (fun c => !(s.core d.val c).tw) = true → ∃ t, exec (.lscCtrlHold d) s
    = .next t ∧ (t.die d.val).mode = .hold ∧ (t.die d.val).holdBreak = false ∧ (t.die d.val).stepDone = false ∧ (t.die
    d.val).vars = (s.die d.val).vars) ∧
  (∀ (d : Die) (s : State), s.host.mbxRdy = true → s.winTenant = some 0 → d.val < s.nDies → (s.die d.val).mode = .run →
    (s.die d.val).holding = none → (List.range 4).all (fun c => !(s.core d.val c).tw) = false → ∃ t, exec (.lscCtrlHold d) s
    = .next t ∧ (t.die d.val).mode = .run ∧ (t.die d.val).holding.isSome = true ∧ (t.die d.val).holdBreak = false ∧ (t.die
    d.val).stepDone = false) ∧
  (∀ (d : Die) (c : CoreNo) (k : Nat) (s : State), s.host.mbxRdy = true → s.winTenant = some 0 → d.val < s.nDies → (s.die
    d.val).mode = .hold → (s.die d.val).fault = false → (s.core d.val c.val).stepping = false → (s.core d.val c.val).task =
    some k → ∃ t, exec (.lscCtrlStep d c) s = .next t ∧ (t.core d.val c.val).stepping = true ∧ (t.die d.val).stepDone =
    false ∧ (t.die d.val).mode = .hold) ∧
  (∀ (d : Die) (s : State), s.host.mbxRdy = true → s.winTenant = some 0 → d.val < s.nDies → (s.die d.val).mode = .hold →
    (s.die d.val).fault = false → ∃ t, exec (.lscCtrlResume d) s = .next t ∧ (t.die d.val).mode = .run ∧ (t.die d.val).vars
    = (s.die d.val).vars) ∧
  (∀ (d : Die) (n : LoopNo) (reset : Bool) (c : LoopCfg) (s : State), s.host.mbxRdy = true → s.winTenant = some 0 → d.val <
    s.nDies → (s.loop d.val n.val).cfg = some c → (s.loop d.val n.val).pending = false → swapErrOf (s.loop d.val
    n.val).inactive (loadOf (s.dieLoops d.val) fun c => if c.slot = n.val then (s.loop d.val n.val).inactive.nsec.toNat else
    (s.loop d.val c.slot).active.nsec.toNat) = 0 → ∃ t, exec (.lpeSSwap d n reset) s = .next t ∧ (t.loop d.val
    n.val).pending = true ∧ (t.loop d.val n.val).resetSt = reset ∧ (t.loop d.val n.val).swapErr = false ∧ (t.loop d.val
    n.val).err = 0) ∧
  (∀ (d : Die) (n : LoopNo) (c : LoopCfg) (s : State), s.host.mbxRdy = true → s.winTenant = some 0 → d.val < s.nDies →
    (s.loop d.val n.val).cfg = some c → ∃ t, exec (.lpeSClrSat d n) s = .next t ∧ (t.loop d.val n.val).sat = false ∧ (t.loop
    d.val n.val).pending = (s.loop d.val n.val).pending) ∧
  (∀ (d : Die) (u : UnitNo) (v : Word) (c : LoopCfg) (s : State), s.host.mbxRdy = true → s.winTenant = some 0 → d.val <
    s.nDies → (s.unit d.val u.val).active = false → ((s.unit d.val u.val).setCtrl (v ||| 1).toNat).rangesOk = true → (s.loop
    d.val (s.unit d.val u.val).slot).cfg = some c → c.prot = false → s.unitOf d.val (s.unit d.val u.val).slot (fun y =>
    y.injEn && (y.injOn || y.starting)) = none → ∃ t, exec (.lpeTuStart d u v) s = .next t ∧ (t.unit d.val u.val).active =
    true ∧ (t.unit d.val u.val).starting = true ∧ (t.unit d.val u.val).done = false ∧ (t.unit d.val u.val).result = 0 ∧
    (t.unit d.val u.val).injEn = v.getLsbD 2 ∧ (t.unit d.val u.val).capEn = v.getLsbD 6) ∧
  (∀ (d : Die) (u : UnitNo) (s : State), s.host.mbxRdy = true → s.winTenant = some 0 → d.val < s.nDies → (s.unit d.val
    u.val).active = true → ∃ t, exec (.lpeTuStop d u) s = .next t ∧ (t.unit d.val u.val).stopping = true)

/-- In the landlord's window a write of BRP_CTRL or TRK_CTRL enables and disables a port, a GCL swap is requested when
the bank passes its checks and refused with its error code otherwise, FIO_CTRL releases safe state and starts and
stops a self-test pass, FIO_CLR clears a latched channel, FIO_M_CMD moves, stops, homes, clears and resets a motion
channel, and MTR_CTRL starts and stops the self-test. (R62, R70, R109, R110, R195, R198, R200, R205, R206, R207,
R208, R227) -/
def Obligations.PortAndFieldRegistersTakeEffect : Prop :=
  (∀ (p : Port) (v : Word) (s : State), s.host.mbxRdy = true → s.winTenant = some 0 → portDie p.val < s.nDies → (s.port
    p.val).en = false → v.getLsbD 0 = true → ∃ t, exec (.brpCtrlWrite p v) s = .next t ∧ (t.port p.val).en = true ∧ (t.port
    p.val).running = true ∧ (t.port p.val).mode = v.getLsbD 1 ∧ (t.port p.val).rollcall = true ∧ (t.port p.val).entry = 0) ∧
  (∀ (p : Port) (v : Word) (s : State), s.host.mbxRdy = true → s.winTenant = some 0 → portDie p.val < s.nDies → (s.port
    p.val).en = true → v.getLsbD 0 = false → ∃ t, exec (.brpCtrlWrite p v) s = .next t ∧ (t.port p.val).en = false ∧ (t.port
    p.val).running = false ∧ (t.port p.val).dormant = false ∧ (t.port p.val).mode = v.getLsbD 1) ∧
  (∀ (p : Port) (x : BrPort) (s : State), s.host.mbxRdy = true → s.winTenant = some 0 → portDie p.val < s.nDies → s.port
    p.val = x → gclErrOf (if x.active then x.cycleA else x.cycleB) (if x.active then x.entriesA else x.entriesB) (gclList
    (if x.active then x.gclA else x.gclB) (if x.active then x.entriesA else x.entriesB)) = 0 → ∃ t, exec (.brpGclSwap p) s =
    .next t ∧ (t.port p.val).pending = true ∧ (t.port p.val).swapTick = s.now ∧ (t.port p.val).active = x.active) ∧
  (∀ (p : Port) (x : BrPort) (e : Nat) (s : State), s.host.mbxRdy = true → s.winTenant = some 0 → portDie p.val < s.nDies →
    s.port p.val = x → gclErrOf (if x.active then x.cycleA else x.cycleB) (if x.active then x.entriesA else x.entriesB)
    (gclList (if x.active then x.gclA else x.gclB) (if x.active then x.entriesA else x.entriesB)) = e → e ≠ 0 → ∃ t, exec
    (.brpGclSwap p) s = .next t ∧ (t.port p.val).pending = false ∧ (t.port p.val).gclErr = true ∧ (t.port p.val).err =
    BitVec.ofNat 3 e ∧ (t.port p.val).irqStat.getLsbD 5 = true) ∧
  (∀ (t : TrunkPort) (v : Word) (s : State), s.host.mbxRdy = true → s.winTenant = some 0 → (s.tport t).en = false →
    v.getLsbD 0 = true → v.getLsbD 2 = false → ∃ u, exec (.trkCtrlWrite t v) s = .next u ∧ (u.tport t).en = true ∧ (u.tport
    t).mode = v.getLsbD 1 ∧ (u.tport t).precode = v.extractLsb' 3 2 ∧ (u.tport t).inv = v.extractLsb' 5 2 ∧ (u.tport
    t).lanes = freshLanes s.now ∧ (u.tport t).up = false) ∧
  (∀ (t : TrunkPort) (v : Word) (s : State), s.host.mbxRdy = true → s.winTenant = some 0 → v.getLsbD 0 = false → v.getLsbD
    2 = false → ∃ u, exec (.trkCtrlWrite t v) s = .next u ∧ (u.tport t).en = false ∧ (u.tport t).mode = v.getLsbD 1 ∧
    (u.tport t).lanes = freshLanes s.now ∧ (u.tport t).up = false) ∧
  (∀ (t : TrunkPort) (x : TrkPort) (s : State), s.host.mbxRdy = true → s.winTenant = some 0 → s.tport t = x → trkGclErr (if
    x.active then x.nA else x.nB) (trkGclList (if x.active then x.gclA else x.gclB) (if x.active then x.nA else x.nB)) = 0 →
    ∃ u, exec (.trkGclSwap t) s = .next u ∧ (u.tport t).pending = true ∧ (u.tport t).swapTick = s.now ∧ (u.tport t).active =
    x.active) ∧
  (∀ (t : TrunkPort) (x : TrkPort) (e : Nat) (s : State), s.host.mbxRdy = true → s.winTenant = some 0 → s.tport t = x →
    trkGclErr (if x.active then x.nA else x.nB) (trkGclList (if x.active then x.gclA else x.gclB) (if x.active then x.nA
    else x.nB)) = e → e ≠ 0 → ∃ u, exec (.trkGclSwap t) s = .next u ∧ (u.tport t).pending = false ∧ (u.tport t).gclErr =
    true ∧ (u.tport t).err = BitVec.ofNat 3 e ∧ (u.tport t).irqStat.getLsbD 6 = true) ∧
  (∀ (s : State), s.host.mbxRdy = true → s.winTenant = some 0 → s.fio.linkUp = true → s.fio.configured = true → s.fio.safe =
    true → ∃ t, exec (.fioRelease) s = .next t ∧ t.fio.safe = false ∧ t.fio.cause = 0 ∧ t.fio.chans = s.fio.chans) ∧
  (∀ (c : Nat) (s : State), s.host.mbxRdy = true → s.winTenant = some 0 → s.fio.configured = true → s.stNext 0 = some c → ∃
    t, exec (.fioStStart) s = .next t ∧ t.fio.pass = some c ∧ (t.chan c).stBusy = true) ∧
  (∀ (s : State), s.host.mbxRdy = true → s.winTenant = some 0 → ∃ t, exec (.fioStStop) s = .next t ∧ t.fio.pass = none) ∧
  (∀ (v : Word) (s : State), s.host.mbxRdy = true → s.winTenant = some 0 → v.toNat < 64 → (s.chan v.toNat).latched = true →
    s.motionOwns v.toNat = false → ∃ t, exec (.fioClr v) s = .next t ∧ t.chan v.toNat =
    { s.chan v.toNat with latched := false, short := false, thermal := false, groupOvl := false }) ∧
  (∀ (m : MotNo) (c : MotCfg) (x : Motion) (s : State), s.host.mbxRdy = true → s.winTenant = some 0 → s.motCfg? m.val = some
    c → s.fio.safe = false → (s.group 3).missing = false → (s.chan (legCh m.val true)).on = false → s.mot m.val = x →
    x.fault = 0 → x.state = .idle → x.dtPend = false → s.limitOn m.val false = false → ∃ t, exec (.fioMFar m) s = .next t ∧
    (t.mot m.val).state = .far ∧ (t.mot m.val).goal = some .farLimit ∧ (t.mot m.val).lastLeg = some false ∧ (t.mot
    m.val).runStart = s.now) ∧
  (∀ (m : MotNo) (c : MotCfg) (x : Motion) (s : State), s.host.mbxRdy = true → s.winTenant = some 0 → s.motCfg? m.val = some
    c → s.fio.safe = false → (s.group 3).missing = false → (s.chan (legCh m.val false)).on = false → s.mot m.val = x →
    x.fault = 0 → x.state = .idle → x.dtPend = false → s.limitOn m.val true = false → ∃ t, exec (.fioMHomeDirection m) s =
    .next t ∧ (t.mot m.val).state = .home ∧ (t.mot m.val).goal = some .homeLimit ∧ (t.mot m.val).lastLeg = some true ∧
    (t.mot m.val).runStart = s.now) ∧
  (∀ (m : MotNo) (c : MotCfg) (x : Motion) (h : Bool) (s : State), s.host.mbxRdy = true → s.winTenant = some 0 → s.motCfg?
    m.val = some c → c.pulse = true → s.fio.safe = false → (s.group 3).missing = false → (s.chan (legCh m.val (!h))).on =
    false → s.mot m.val = x → x.homed = true → x.fault = 0 → x.state = .idle → x.dtPend = false → decide (x.target.toInt <
    x.pos.toInt) = h → s.limitOn m.val h = false → (x.learned h : Int) < (if h then x.pos.toInt - x.target.toInt else
    x.target.toInt - x.pos.toInt) → ∃ t, exec (.fioMGoto m) s = .next t ∧ (t.mot m.val).state = (if h then .home else .far)
    ∧ (t.mot m.val).goal = some (.target x.target) ∧ (t.mot m.val).lastLeg = some h ∧ (t.mot m.val).pos = x.pos) ∧
  (∀ (m : MotNo) (x : Motion) (s : State), s.host.mbxRdy = true → s.winTenant = some 0 → s.mot m.val = x → x.state = .far →
    ∃ t, exec (.fioMStop m) s = .next t ∧ (t.mot m.val).state = .coasting ∧ (t.mot m.val).coast = 0 ∧ (t.mot m.val).dtPend =
    true ∧ (t.mot m.val).goal = none ∧ (t.mot m.val).next = none) ∧
  (∀ (m : MotNo) (c : MotCfg) (x : Motion) (s : State), s.host.mbxRdy = true → s.winTenant = some 0 → s.motCfg? m.val = some
    c → s.fio.safe = false → (s.group 3).missing = false → (s.chan (legCh m.val false)).on = false → s.mot m.val = x →
    x.fault = 0 → x.state = .idle → x.dtPend = false → s.limitOn m.val true = false → ∃ t, exec (.fioMHome m) s = .next t ∧
    (t.mot m.val).state = .homing ∧ (t.mot m.val).homed = false ∧ (t.mot m.val).goal = some .homing ∧ (t.mot m.val).lastLeg
    = some true) ∧
  (∀ (m : MotNo) (c : MotCfg) (x : Motion) (s : State), s.host.mbxRdy = true → s.winTenant = some 0 → s.motCfg? m.val = some
    c → s.fio.safe = false → (s.group 3).missing = false → s.mot m.val = x → x.fault = 0 → x.state = .idle → s.limitOn m.val
    true = true → ∃ t, exec (.fioMHome m) s = .next t ∧ (t.mot m.val).state = .idle ∧ (t.mot m.val).homed = true ∧ (t.mot
    m.val).pos = 0) ∧
  (∀ (m : MotNo) (s : State), s.host.mbxRdy = true → s.winTenant = some 0 → (s.mot m.val).state = .fault → ∃ t, exec
    (.fioMClearFault m) s = .next t ∧ (t.mot m.val).state = .idle ∧ (t.mot m.val).fault = 0 ∧ (t.mot m.val).legFar = false ∧
    (t.mot m.val).legHome = false) ∧
  (∀ (m : MotNo) (s : State), s.host.mbxRdy = true → s.winTenant = some 0 → ∃ t, exec (.fioMResetCoast m) s = .next t ∧
    (t.mot m.val).lFar = 0 ∧ (t.mot m.val).lHome = 0 ∧ (t.mot m.val).nFar = 0 ∧ (t.mot m.val).nHome = 0 ∧ (t.mot m.val).pos
    = (s.mot m.val).pos) ∧
  (∀ (s : State), s.host.mbxRdy = true → s.winTenant = some 0 → ∃ t, exec (.mtrStStart) s = .next t ∧ t.mtr.stActive = true
    ∧ t.mtr.stNext = some 0 ∧ t.mtr.stInput = 0 ∧ t.mtr.stAt = s.now) ∧
  (∀ (s : State), s.host.mbxRdy = true → s.winTenant = some 0 → ∃ t, exec (.mtrStStop) s = .next t ∧ t.mtr.stActive = false
    ∧ t.mtr.stNext = none)

/-- In the landlord's window a write of DMA_C_CTRL starts a channel on the descriptor that it reads, resumes, skips an
element and aborts, and Exyan does the same with the channels that are its own; ATU_INV_CMD drops the cached
translations it names, with a page all of a 2 MiB leaf, and ATU_FQ_POP the oldest fault; a read of RTC_MSEC freezes
the calendar and one of RTC_YEAR lets it run; RTC_W_CTRL commits a staged time and RTC_TRIM sets the trim. (R240,
R243, R245, R248, R253, R254, R357, R358, R359) -/
def Obligations.EngineAndClockRegistersTakeEffect : Prop :=
  (∀ (d : Die) (c : DmaNo) (exyan : Option DmaSetup) (x : DmaCh) (page : Nat) (e : Pte) (a w0 w1 w2 w3 : Nat) (s : State),
    exyan = none → s.host.mbxRdy = true → s.winTenant = some 0 → d.val < s.nDies → 8 ≤ c.val → c.val ≤ 10 → s.dch d.val
    c.val = x → x.state = .idle → x.desc.toNat % 32 = 0 → sfind (s.atu d.val).tlb (x.ctx.toNat * 2 ^ 24 + x.desc.toNat /
    4096) = some (page, e) → s.ctxTenant x.ctx.toNat = 0 → s.paOk (4096 * page) = true → a = 4096 * page + x.desc.toNat %
    4096 → (s.tag (a / 64)).ok = true → w0 = ofLe (memGets s.mem a 8) → w1 = ofLe (memGets s.mem (a + 8) 8) → w2 = ofLe
    (memGets s.mem (a + 16) 8) → w3 = ofLe (memGets s.mem (a + 24) 8) → descReserved w0 w1 w2 w3 = false → descOk (descOf w0
    w1 w2 w3) = true → ∃ t, exec (.dmaStart d c exyan) s = .next t ∧ (t.dch d.val c.val).state = .running ∧ (t.dch d.val
    c.val).cur = some (descOf w0 w1 w2 w3) ∧ (t.dch d.val c.val).el = 0 ∧ (t.dch d.val c.val).off = 0 ∧ (t.dch d.val
    c.val).reason = 0 ∧ t.mem = s.mem) ∧
  (∀ (d : Die) (c : DmaNo) (exyan : Option DmaSetup) (u : DmaSetup) (page : Nat) (e : Pte) (a w0 w1 w2 w3 : Nat) (s :
    State), exyan = some u → d.val < s.nDies → dmaHost d.val c.val = false → (s.dch d.val c.val).state = .idle →
    u.desc.toNat % 32 = 0 → sfind (s.atu d.val).tlb (u.ctx.toNat * 2 ^ 24 + u.desc.toNat / 4096) = some (page, e) →
    s.ctxTenant u.ctx.toNat = 0 → s.paOk (4096 * page) = true → a = 4096 * page + u.desc.toNat % 4096 → (s.tag (a / 64)).ok
    = true → w0 = ofLe (memGets s.mem a 8) → w1 = ofLe (memGets s.mem (a + 8) 8) → w2 = ofLe (memGets s.mem (a + 16) 8) → w3
    = ofLe (memGets s.mem (a + 24) 8) → descReserved w0 w1 w2 w3 = false → descOk (descOf w0 w1 w2 w3) = true → ∃ t, exec
    (.dmaStart d c exyan) s = .next t ∧ (t.dch d.val c.val).state = .running ∧ (t.dch d.val c.val).cur = some (descOf w0 w1
    w2 w3) ∧ (t.dch d.val c.val).ctx = u.ctx ∧ (t.dch d.val c.val).prio = u.prio ∧ (t.dch d.val c.val).retry = u.retry ∧
    t.mem = s.mem) ∧
  (∀ (d : Die) (c : DmaNo) (exyan : Bool) (x : DmaCh) (de : Descriptor) (s : State), exyan = false → s.host.mbxRdy = true →
    s.winTenant = some 0 → d.val < s.nDies → 8 ≤ c.val → c.val ≤ 10 → s.dch d.val c.val = x → x.state = .parked → x.cur =
    some de → x.wbLine = none → ∃ t, exec (.dmaResume d c exyan) s = .next t ∧ t.dch d.val c.val =
    { x with state := .running, reason := 0, used := 0 }) ∧
  (∀ (d : Die) (c : DmaNo) (exyan : Bool) (x : DmaCh) (de : Descriptor) (s : State), exyan = true → d.val < s.nDies →
    dmaHost d.val c.val = false → s.dch d.val c.val = x → x.state = .parked → x.cur = some de → x.wbLine = none → ∃ t, exec
    (.dmaResume d c exyan) s = .next t ∧ t.dch d.val c.val = { x with state := .running, reason := 0, used := 0 }) ∧
  (∀ (d : Die) (c : DmaNo) (exyan : Bool) (x : DmaCh) (de : Descriptor) (s : State), exyan = false → s.host.mbxRdy = true →
    s.winTenant = some 0 → d.val < s.nDies → 8 ≤ c.val → c.val ≤ 10 → s.dch d.val c.val = x → x.state = .halted → x.cur =
    some de → de.mode = 1 → x.el + 1 < de.total → ∃ t, exec (.dmaSkip d c exyan) s = .next t ∧ (t.dch d.val c.val).state =
    .running ∧ (t.dch d.val c.val).reason = 0 ∧ (t.dch d.val c.val).el = x.el + 1 ∧ (t.dch d.val c.val).cur = some de ∧
    t.mem = s.mem) ∧
  (∀ (d : Die) (c : DmaNo) (exyan : Bool) (x : DmaCh) (de : Descriptor) (s : State), exyan = true → d.val < s.nDies →
    dmaHost d.val c.val = false → s.dch d.val c.val = x → x.state = .halted → x.cur = some de → de.mode = 1 → x.el + 1 <
    de.total → ∃ t, exec (.dmaSkip d c exyan) s = .next t ∧ (t.dch d.val c.val).state = .running ∧ (t.dch d.val
    c.val).reason = 0 ∧ (t.dch d.val c.val).el = x.el + 1 ∧ (t.dch d.val c.val).cur = some de ∧ t.mem = s.mem) ∧
  (∀ (d : Die) (c : DmaNo) (exyan : Bool) (x : DmaCh) (s : State), exyan = false → s.host.mbxRdy = true → s.winTenant = some
    0 → d.val < s.nDies → 8 ≤ c.val → c.val ≤ 10 → s.dch d.val c.val = x → x.state = .halted → ∃ t, exec (.dmaAbort d c
    exyan) s = .next t ∧ t.dch d.val c.val = { x.emptyWb with state := .done, reason := 6, cur := none, abort := false }) ∧
  (∀ (d : Die) (c : DmaNo) (exyan : Bool) (x : DmaCh) (s : State), exyan = true → d.val < s.nDies → dmaHost d.val c.val =
    false → s.dch d.val c.val = x → x.state = .halted → ∃ t, exec (.dmaAbort d c exyan) s = .next t ∧ t.dch d.val c.val =
    { x.emptyWb with state := .done, reason := 6, cur := none, abort := false }) ∧
  (∀ (d : Die) (c : DmaNo) (exyan : Bool) (x : DmaCh) (s : State), exyan = false → s.host.mbxRdy = true → s.winTenant = some
    0 → d.val < s.nDies → 8 ≤ c.val → c.val ≤ 10 → s.dch d.val c.val = x → x.state = .running → ∃ t, exec (.dmaAbort d c
    exyan) s = .next t ∧ t.dch d.val c.val = { x with abort := true }) ∧
  (∀ (d : Die) (c : DmaNo) (exyan : Bool) (x : DmaCh) (s : State), exyan = true → d.val < s.nDies → dmaHost d.val c.val =
    false → s.dch d.val c.val = x → x.state = .running → ∃ t, exec (.dmaAbort d c exyan) s = .next t ∧ t.dch d.val c.val =
    { x with abort := true }) ∧
  (∀ (d : Die) (s : State), s.host.mbxRdy = true → s.winTenant = some 0 → d.val < s.nDies → ∃ t, exec (.atuInvContext d) s
    = .next t ∧ (t.atu d.val).tlb = (s.atu d.val).tlb.filter (fun e => e.1 / 2 ^ 24 != (s.atu d.val).invCtx.toNat) ∧ (t.atu
    d.val).invBusy = true) ∧
  (∀ (d : Die) (k : Nat) (s : State), s.host.mbxRdy = true → s.winTenant = some 0 → d.val < s.nDies → k = (s.atu
    d.val).invCtx.toNat * 2 ^ 24 + (s.atu d.val).invVa.toNat / 4096 → ∃ t, exec (.atuInvPage d) s = .next t ∧ (t.atu
    d.val).tlb = (s.atu d.val).tlb.filter (fun e => e.1 != k && !(e.2.2.leaf && e.1 / 512 == k / 512)) ∧ (t.atu
    d.val).invBusy = true) ∧
  (∀ (d : Die) (s : State), s.host.mbxRdy = true → s.winTenant = some 0 → d.val < s.nDies → ∃ t, exec (.atuInvAll d) s =
    .next t ∧ (t.atu d.val).tlb = [] ∧ (t.atu d.val).invBusy = true) ∧
  (∀ (d : Die) (f : FaultEntry) (l : List FaultEntry) (s : State), s.host.mbxRdy = true → s.winTenant = some 0 → d.val <
    s.nDies → (s.atu d.val).fq = f :: l → ∃ t, exec (.atuFqPop d) s = .next t ∧ (t.atu d.val).fq = l) ∧
  (∀ (s : State), s.host.mbxRdy = true → s.winTenant = some 0 → ∃ t, exec (.rtcMsecRead) s = .next t ∧ t.time.frozen = true
    ∧ t.time.frozenAt = s.rtcCal ∧ t.host.busData = BitVec.ofNat 64 s.rtcMsec) ∧
  (∀ (s : State), s.host.mbxRdy = true → s.winTenant = some 0 → s.rtcView.1.year < 128 → ∃ t, exec (.rtcYearRead) s = .next
    t ∧ t.time.frozen = false ∧ t.host.busData = BitVec.ofNat 64 s.rtcView.1.year) ∧
  (∀ (s : State), s.host.mbxRdy = true → s.winTenant = some 0 → s.time.pend = false → calOk s.time.stagedCal = true →
    s.ringInUse = false → ∃ t, exec (.rtcCommit) s = .next t ∧ t.time.pend = true ∧ t.time.pendCal = s.time.stagedCal ∧
    t.time.wErr = 0) ∧
  (∀ (v : Word) (s : State), s.host.mbxRdy = true → s.winTenant = some 0 → ∃ t, exec (.rtcTrimWrite v) s = .next t ∧
    t.time.trimAdd = v.getLsbD 15 ∧ t.time.trimN = v.setWidth 10 ∧ t.time.atrim = false)

/-- A superframe on an even tick advances the SFN, counts how many superframes each port has been up, and gives each
port a header with the new SFN; at an odd tick, or again at a tick that has had one, it leaves the trunk as it is
(the model's choice: assumption log entry 38). A sighting of the alignment word in HUNT or PRESYNC opens a candidate
while fewer than eight are held, else TRK_HUNT_FULL counts. At the expected position of a lane's only candidate, a
first recurrence takes its SFN into PRESYNC, a third hit after that locks the lane, and no header drops the
candidate. In LOCK a hit takes the header's SFN and clears the miss count; the first two misses count TRK_FAW_MISS
and leave the port as it was, the third wraps the port, which goes down, and the fourth counts TRK_LOCK_LOSS and the
lane hunts. A header's fields are taken over, a new neighbour is broadcast, and delay and offset follow from the two
MEAS values, halved as assumption log entry 38 says. A master silent for 64 superframes is discarded, for this
station where it has a module ID and is not in relay-only mode, else for none (the model's choice: assumption log
entry 38). A wrapped port that has been up for 64 superframes unwraps at an SFN divisible by 8. A lane ends its
training at the eighth frame in a row with READY while it is READY itself, counts anew after a frame without, and
after 300 ms begins again 100 ms later. (R98, R100, R101, R102, R112, R113, R115, R116, R371) -/
def Obligations.TrunkSuperframesTakeEffect : Prop :=
  (∀ (s : State), s.now % 2 = 0 → s.trk.lastSf ≠ some s.now → ∃ t, exec .superframeStart s = .next t ∧ t.trk.sfn =
    (s.trk.sfn + 1) % 2 ^ 48 ∧ t.trk.lastSf = some s.now ∧ t.trk.a.upCount = (if s.trk.a.up then s.trk.a.upCount + 1 else 0)
    ∧ t.trk.b.upCount = (if s.trk.b.up then s.trk.b.upCount + 1 else 0) ∧ t.trk.a.hdr.sfn = (s.trk.sfn + 1) % 2 ^ 48 ∧
    t.trk.b.hdr.sfn = (s.trk.sfn + 1) % 2 ^ 48) ∧
  (∀ (s : State), s.now % 2 = 1 ∨ s.trk.lastSf = some s.now → ∃ t, exec .superframeStart s = .next t ∧ t.trk = s.trk) ∧
  (∀ (t : TrunkPort) (l : Lane) (pos : Nat) (s : State), (s.tport t).en = true → ((s.tport t).lane l.val).mode ≠ .lock →
    ((s.tport t).lane l.val).cands.any (fun c => c.pos == pos) = false → ((s.tport t).lane l.val).cands.length < 8 → ∃ u,
    exec (.fawSighting t l pos) s = .next u ∧ (u.tport t).lane l.val =
    { ((s.tport t).lane l.val) with cands := ((s.tport t).lane l.val).cands ++ [{ pos := pos }] }) ∧
  (∀ (t : TrunkPort) (l : Lane) (pos : Nat) (s : State), (s.tport t).en = true → ((s.tport t).lane l.val).mode ≠ .lock →
    ((s.tport t).lane l.val).cands.any (fun c => c.pos == pos) = false → 8 ≤ ((s.tport t).lane l.val).cands.length → ∃ u,
    exec (.fawSighting t l pos) s = .next u ∧ (u.tport t).lanes = (s.tport t).lanes ∧ sget 0 (u.tport t).ctr kHuntFull =
    addW (sget 0 (s.tport t).ctr kHuntFull) 1) ∧
  (∀ (t : TrunkPort) (l : Lane) (pos n arr : Nat) (c : Candidate) (s : State), (s.tport t).en = true → ((s.tport t).lane
    l.val).mode ≠ .lock → ((s.tport t).lane l.val).cands = [c] → c.pos = pos → c.sfn = none → c.hits = 0 → ∃ u, exec
    (.fawPosition t l pos (some (n, arr))) s = .next u ∧ ((u.tport t).lane l.val).mode = .presync ∧ ((u.tport t).lane
    l.val).cands = [{ c with sfn := some n, arrival := arr }]) ∧
  (∀ (t : TrunkPort) (l : Lane) (pos : Nat) (c : Candidate) (s : State), (s.tport t).en = true → ((s.tport t).lane
    l.val).mode ≠ .lock → ((s.tport t).lane l.val).cands = [c] → c.pos = pos → ∃ u, exec (.fawPosition t l pos none) s =
    .next u ∧ ((u.tport t).lane l.val).mode = .hunt ∧ ((u.tport t).lane l.val).cands = []) ∧
  (∀ (t : TrunkPort) (l : Lane) (pos n arr m : Nat) (c : Candidate) (s : State), (s.tport t).en = true → ((s.tport t).lane
    l.val).mode ≠ .lock → ((s.tport t).lane l.val).cands = [c] → c.pos = pos → c.sfn = some m → n = (m + 1) % 2 ^ 48 →
    c.hits = 2 → ∃ u, exec (.fawPosition t l pos (some (n, arr))) s = .next u ∧ ((u.tport t).lane l.val).mode = .lock ∧
    ((u.tport t).lane l.val).pos = pos ∧ ((u.tport t).lane l.val).sfn = n ∧ ((u.tport t).lane l.val).miss = 0) ∧
  (∀ (t : TrunkPort) (l : Lane) (pos arr : Nat) (y : LaneSt) (s : State), (s.tport t).en = true → (s.tport t).lane l.val = y
    → y.mode = .lock → y.pos = pos → ∃ u, exec (.fawPosition t l pos (some ((y.sfn + 1) % 2 ^ 48, arr))) s = .next u ∧
    (u.tport t).lane l.val = { y with sfn := (y.sfn + 1) % 2 ^ 48, arrival := arr, miss := 0 } ∧ (u.tport t).rxSfn = (y.sfn
    + 1) % 2 ^ 48) ∧
  (∀ (t : TrunkPort) (l : Lane) (pos : Nat) (y : LaneSt) (s : State), (s.tport t).en = true → (s.tport t).lane l.val = y →
    y.mode = .lock → y.pos = pos → y.miss < 2 → ∃ u, exec (.fawPosition t l pos none) s = .next u ∧ (u.tport t).lane l.val =
    { y with sfn := (y.sfn + 1) % 2 ^ 48, arrival := y.arrival + 125000, miss := y.miss + 1 } ∧ sget 0 (u.tport t).ctr
    kFawMiss = addW (sget 0 (s.tport t).ctr kFawMiss) 1 ∧ (u.tport t).up = (s.tport t).up) ∧
  (∀ (t : TrunkPort) (l : Lane) (pos : Nat) (y : LaneSt) (s : State), (s.tport t).en = true → (s.tport t).up = true →
    (s.tport t).lane l.val = y → y.mode = .lock → y.pos = pos → y.miss = 2 → ∃ u, exec (.fawPosition t l pos none) s = .next
    u ∧ ((u.tport t).lane l.val).mode = .lock ∧ (u.tport t).up = false ∧ (u.tport t).wrapped = true) ∧
  (∀ (t : TrunkPort) (l : Lane) (pos : Nat) (y : LaneSt) (s : State), (s.tport t).en = true → (s.tport t).lane l.val = y →
    y.mode = .lock → y.pos = pos → y.miss = 3 → ∃ u, exec (.fawPosition t l pos none) s = .next u ∧ ((u.tport t).lane
    l.val).mode = .hunt ∧ sget 0 (u.tport t).ctr kLockLoss = addW (sget 0 (s.tport t).ctr kLockLoss) 1) ∧
  (∀ (t : TrunkPort) (h : TrkHeader) (own : Option Int) (s : State), (s.tport t).up = true → ∃ u, exec (.trunkRxHeader t h
    own) s = .next u ∧ (u.tport t).neigh = h.srcId ∧ (u.tport t).neighRelay = h.relayOnly ∧ (u.tport t).rxSfn = h.sfn ∧
    (u.tport t).advId = h.tmId ∧ (u.tport t).advPrio = h.tmPrio ∧ (u.tport t).advHops = h.tmHops ∧ (u.tport t).advValid =
    h.tmValid ∧ (u.tport t).advSeq = h.tmSeq ∧ sget 0 (u.tport t).ctr kFecCw = addW (sget 0 (s.tport t).ctr kFecCw) h.fecCw
    ∧ u.trk.topoSeq = (if (s.tport t).neigh ≠ h.srcId ∧ s.ownId ≠ 0xFF then addW s.trk.topoSeq 1 else s.trk.topoSeq)) ∧
  (∀ (t : TrunkPort) (h : TrkHeader) (own : Option Int) (a : Int) (s : State), (s.tport t).up = true → (s.tport t).ownMeas =
    some (a, h.measSfn) → ∃ u, exec (.trunkRxHeader t h own) s = .next u ∧ (u.tport t).delay = (a + h.meas) / 2 ∧ (u.tport
    t).offset = (a - h.meas) / 2) ∧
  (∀ (s : State), 64 ≤ s.trk.tmIdle → s.trk.tmValid = true → s.trk.tmHops ≠ 0 → s.ownId ≠ 0xFF → s.trk.relayOnly = false → ∃
    t, exec .timeMasterTimeout s = .next t ∧ t.trk.tmId = s.ownId ∧ t.trk.tmPrio = s.trk.prio ∧ t.trk.tmHops = 0 ∧
    t.trk.tmValid = true ∧ t.trk.timePort = none) ∧
  (∀ (s : State), 64 ≤ s.trk.tmIdle → s.trk.tmValid = true → s.trk.tmHops ≠ 0 → s.ownId = 0xFF ∨ s.trk.relayOnly = true → ∃
    t, exec .timeMasterTimeout s = .next t ∧ t.trk.tmValid = false ∧ t.trk.timePort = none) ∧
  (∀ (t : TrunkPort) (s : State), (s.tport t).wrapped = true → (s.tport t).up = true → 64 ≤ (s.tport t).upCount → s.trk.sfn
    % 8 = 0 → (s.tport t).wrapForce = false → ∃ u, exec (.unwrap t) s = .next u ∧ (u.tport t).wrapped = false ∧ (u.tport
    t).up = true ∧ u.trk.topoSeq = (if s.ownId = 0xFF then s.trk.topoSeq else addW s.trk.topoSeq 1)) ∧
  (∀ (t : TrunkPort) (l : Lane) (ctrl : BitVec 12) (s : State), (s.tport t).en = true → ((s.tport t).lane l.val).training =
    true → ((s.tport t).lane l.val).trainAt ≤ s.now → ctrl.getLsbD 7 = true → 7 ≤ ((s.tport t).lane l.val).ready → ∃ u, exec
    (.trainingFrameRx t l ctrl true true) s = .next u ∧ ((u.tport t).lane l.val).training = false ∧ ((u.tport t).lane
    l.val).mode = .hunt) ∧
  (∀ (t : TrunkPort) (l : Lane) (ctrl : BitVec 12) (rxReady : Bool) (s : State), (s.tport t).en = true → ((s.tport t).lane
    l.val).training = true → ((s.tport t).lane l.val).trainAt ≤ s.now → ctrl.getLsbD 7 = false → ∃ u, exec (.trainingFrameRx
    t l ctrl true rxReady) s = .next u ∧ ((u.tport t).lane l.val).training = true ∧ ((u.tport t).lane l.val).ready = 0 ∧
    ((u.tport t).lane l.val).rxReady = rxReady) ∧
  (∀ (t : TrunkPort) (l : Lane) (s : State), (s.tport t).en = true → ((s.tport t).lane l.val).training = true → ((s.tport
    t).lane l.val).trainAt + msTicks 300 ≤ s.now → ∃ u, exec (.laneTrainingTimeout t l) s = .next u ∧ ((u.tport t).lane
    l.val).training = true ∧ ((u.tport t).lane l.val).ready = 0 ∧ ((u.tport t).lane l.val).trainAt = s.now + msTicks 100)

/-- A frame with a bad header or payload, an aborted one, one without a buffer and one whose DMA faults is discarded and
counted; this module's own is stripped and counted; one for this module is accepted; one for another station is
relayed with HOPS advanced; a later broadcast is both. A topology broadcast enters the ring map, and one with this
module's ID and another serial number sets relay-only mode; a UTC mapping and a replica block are stored; a request
of the crown gets a slot. A frame whose buffer runs dry waits again under a higher threshold; one whose read faults
is counted and gone. (R106, R107, R108, R111, R112, R114, R265, R297, R361) -/
def Obligations.TrunkFramesTakeEffect : Prop :=
  (∀ (t : TrunkPort) (f : TrkFrame) (crc : PayCrc) (fault : Option EngFault) (full : Bool) (s : State), (s.tport
    t).delivers = true → crc = .wrong → ∃ u, exec (.trunkRxFrame t f crc fault full) s = .next u ∧ sget 0 (u.tport t).ctr
    kPayErr = addW (sget 0 (s.tport t).ctr kPayErr) 1 ∧ u.trk.lastSeq = s.trk.lastSeq) ∧
  (∀ (t : TrunkPort) (f : TrkFrame) (crc : PayCrc) (fault : Option EngFault) (full : Bool) (s : State), (s.tport
    t).delivers = true → crc = .inverted → ∃ u, exec (.trunkRxFrame t f crc fault full) s = .next u ∧ sget 0 (u.tport t).ctr
    kAborted = addW (sget 0 (s.tport t).ctr kAborted) 1 ∧ u.trk.lastSeq = s.trk.lastSeq) ∧
  (∀ (t : TrunkPort) (f : TrkFrame) (crc : PayCrc) (fault : Option EngFault) (full : Bool) (s : State), (s.tport
    t).delivers = true → crc = .good → full = true → ∃ u, exec (.trunkRxFrame t f crc fault full) s = .next u ∧ sget 0
    (u.tport t).ctr kRxOverrun = addW (sget 0 (s.tport t).ctr kRxOverrun) 1 ∧ u.trk.lastSeq = s.trk.lastSeq) ∧
  (∀ (t : TrunkPort) (f : TrkFrame) (crc : PayCrc) (fault : Option EngFault) (full : Bool) (e : EngFault) (s : State),
    (s.tport t).delivers = true → crc = .good → full = false → fault = some e → ∃ u, exec (.trunkRxFrame t f crc fault full)
    s = .next u ∧ sget 0 (u.tport t).ctr kRxXlate = addW (sget 0 (s.tport t).ctr kRxXlate) 1 ∧ u.trk.lastSeq =
    s.trk.lastSeq) ∧
  (∀ (t : TrunkPort) (f : TrkFrame) (crc : PayCrc) (fault : Option EngFault) (full : Bool) (s : State), (s.tport
    t).delivers = true → crc = .good → full = false → fault = none → f.src = s.ownId → s.ownId ≠ 0xFF → ∃ u, exec
    (.trunkRxFrame t f crc fault full) s = .next u ∧ sget 0 (u.tport t).ctr kStripped = addW (sget 0 (s.tport t).ctr
    kStripped) 1 ∧ (u.tport t).queues = (s.tport t).queues) ∧
  (∀ (t : TrunkPort) (f : TrkFrame) (crc : PayCrc) (fault : Option EngFault) (full : Bool) (s : State), (s.tport
    t).delivers = true → crc = .good → full = false → fault = none → f.src ≠ s.ownId → f.dst = s.ownId → s.ownId ≠ 0xFF →
    s.trk.relayOnly = false ∨ f.cls = 0 → ∃ u, exec (.trunkRxFrame t f crc fault full) s = .next u ∧ sget 0 (u.tport
    t).rxClass f.cls = addW (sget 0 (s.tport t).rxClass f.cls) 1 ∧ (u.tport t).queues = (s.tport t).queues) ∧
  (∀ (t : TrunkPort) (f : TrkFrame) (crc : PayCrc) (fault : Option EngFault) (full : Bool) (s : State), (s.tport
    t).delivers = true → crc = .good → full = false → fault = none → f.src ≠ s.ownId → f.dst ≠ s.ownId → f.dst ≠ 255 →
    f.hops < 254 → (s.tport (!t)).wrapped = false → sget [] (s.tport (!t)).queues (classQueue f.cls) = [] → ∃ u, exec
    (.trunkRxFrame t f crc fault full) s = .next u ∧ sget [] (u.tport (!t)).queues (classQueue f.cls) =
    [{ frame := { f with hops := f.hops + 1 }, relayed := true }]) ∧
  (∀ (t : TrunkPort) (f : TrkFrame) (crc : PayCrc) (fault : Option EngFault) (full : Bool) (s : State), (s.tport
    t).delivers = true → crc = .good → full = false → fault = none → f.src ≠ s.ownId → f.dst = 255 → s.ownId ≠ 0xFF →
    s.trk.relayOnly = false → sfind s.trk.lastSeq (8 * f.src.toNat + f.cls) = none → f.hops < 254 → (s.tport (!t)).wrapped =
    false → sget [] (s.tport (!t)).queues (classQueue f.cls) = [] → ∃ u, exec (.trunkRxFrame t f crc fault full) s = .next u
    ∧ sget 0 (u.tport t).rxClass f.cls = addW (sget 0 (s.tport t).rxClass f.cls) 1 ∧ sfind u.trk.lastSeq (8 * f.src.toNat +
    f.cls) = some f.seq ∧ sget [] (u.tport (!t)).queues (classQueue f.cls) =
    [{ frame := { f with hops := f.hops + 1 }, relayed := true }]) ∧
  (∀ (t : TrunkPort) (header : Bool) (s : State), (s.tport t).up = true → header = true → ∃ u, exec (.trunkRxBadFrame t
    header) s = .next u ∧ sget 0 (u.tport t).ctr kHdrErr = addW (sget 0 (s.tport t).ctr kHdrErr) 1) ∧
  (∀ (t : TrunkPort) (header : Bool) (s : State), (s.tport t).up = true → header = false → ∃ u, exec (.trunkRxBadFrame t
    header) s = .next u ∧ sget 0 (u.tport t).ctr kPayErr = addW (sget 0 (s.tport t).ctr kPayErr) 1) ∧
  (∀ (t : TrunkPort) (f : TrkFrame) (b : Topology) (s : State), (s.tport t).delivers = true → f.src ≠ s.ownId → f.dst =
    s.ownId → s.ownId ≠ 0xFF → f.cls = 0 → b.id ≠ s.ownId → ∃ u, exec (.trunkRxTopology t f b) s = .next u ∧ sfind
    u.trk.ringMap b.id.toNat = some b ∧ u.trk.dupId = s.trk.dupId ∧ u.trk.relayOnly = s.trk.relayOnly) ∧
  (∀ (t : TrunkPort) (f : TrkFrame) (b : Topology) (s : State), (s.tport t).delivers = true → b.id = s.ownId → s.ownId ≠
    0xFF → b.serial ≠ s.host.serial → ∃ u, exec (.trunkRxTopology t f b) s = .next u ∧ u.trk.dupId = true ∧ u.trk.relayOnly
    = true ∧ u.trk.ringMap = s.trk.ringMap) ∧
  (∀ (t : TrunkPort) (f : TrkFrame) (u : UtcMap) (s : State), (s.tport t).delivers = true → f.src ≠ s.ownId → f.dst =
    s.ownId → s.ownId ≠ 0xFF → s.trk.relayOnly = false → u.valid = true → ∃ w, exec (.trunkRxUtcMapping t f u) s = .next w ∧
    w.time.mapping = some u ∧ w.time.mapTick = s.now) ∧
  (∀ (t : TrunkPort) (f : TrkFrame) (seg blk : Nat) (data : List Byte) (n : Nat) (g : Segment) (s : State), (s.tport
    t).delivers = true → f.src ≠ s.ownId → f.dst = s.ownId → s.ownId ≠ 0xFF → s.trk.relayOnly = false → f.cls = 5 →
    s.storeOn = true → s.hst.segs.find? (fun e => e.2.tenant == f.tenant && e.2.kind == 1 && e.2.src == f.src && e.2.isOpen
    && e.2.blocks.length < 16383) = some (n, g) → sfind s.hst.segs n = some g → ∃ u, exec (.trunkRxReplicaBlock t f seg blk
    data) s = .next u ∧ sfind u.hst.segs n = some
    { g with blocks := g.blocks ++ [{ replica := data, t0 := s.now, blk := g.blocks.length + 1 }] }) ∧
  (∀ (t : TrunkPort) (f : TrkFrame) (slot : Option SlotNo) (b : List Byte) (k : Nat) (s : State), (s.tport t).delivers =
    true → f.src ≠ s.ownId → f.dst = s.ownId → s.ownId ≠ 0xFF → s.trk.relayOnly = false → f.cls = 2 → s.host.mbxRdy = true →
    slot = none → s.freeSlot = some k → ∃ u, exec (.trunkRxMailboxRequest t f slot b) s = .next u ∧ (u.sender k).remote =
    true ∧ (u.sender k).reqs = (s.sender k).reqs ++ [{ head := farHead b }]) ∧
  (∀ (t : TrunkPort) (n : Nat) (why : TxFail) (f : TrkOut) (s : State), (s.tport t).air[n]? = some f → why = .dry → (s.tport
    t).thr < trkOctets f.frame → ∃ u, exec (.trunkTxUnderrun t n why) s = .next u ∧ (u.tport t).air = (s.tport
    t).air.eraseIdx n ∧ sget [] (u.tport t).queues (classQueue f.frame.cls) = f :: sget [] (s.tport t).queues (classQueue
    f.frame.cls) ∧ (u.tport t).thr = min 9236 ((s.tport t).thr + 256) ∧ sget 0 (u.tport t).ctr kTxUnderrun = addW (sget 0
    (s.tport t).ctr kTxUnderrun) 1) ∧
  (∀ (t : TrunkPort) (n : Nat) (why : TxFail) (f : TrkOut) (e : EngFault) (s : State), (s.tport t).air[n]? = some f → why =
    .access e → ∃ u, exec (.trunkTxUnderrun t n why) s = .next u ∧ (u.tport t).air = (s.tport t).air.eraseIdx n ∧ (u.tport
    t).queues = (s.tport t).queues ∧ (u.tport t).thr = (s.tport t).thr ∧ sget 0 (u.tport t).ctr kTxXlate = addW (sget 0
    (s.tport t).ctr kTxXlate) 1)

/-- A request is fetched in order from host memory; one whose memory does not answer ends with HOST_FAULT, and one that
meets a fault in Exyan's memory with INTERNAL; a request with its result is completed into the completion ring under
the present phase; the heartbeat counts; PERST_N and a function level reset put every host slot to its reset values;
D3hot pauses and D0 resumes; a watermark that is reached rises; a second advances the calendar; a freeze ends; a
committed time takes effect as host-set time; a trim window takes over N and ADD and counts for ATRIM; automatic
trim and the sync check write the RTC; lost ring time leaves UTC to run on without a step, source RTC; the battery
flag follows. (R282, R284, R292, R293, R304, R354, R356, R357, R358, R359, R360, R362) -/
def Obligations.HostPortAndClockTakeEffect : Prop :=
  (∀ (k : SlotNo) (m : HostMem) (fault : Option EngFault) (e : List Byte) (h : ReqHead) (x : SlotSt) (s : State),
    s.host.mbxRdy = true → s.host.d3 = false → s.sender k.val = x → x.en = true → x.remote = false → x.closing = false →
    x.rqHead ≠ x.rqTail → x.reqs.length < 8 → x.reqs.length + x.unread + 1 < x.cqSize → hostBytes m (x.rqBase.toNat + 64 *
    x.rqHead.toNat) 64 = some e → hostFetch m e = h → h.hostOk = true → fault = none → ∃ t, exec (.requestFetch k m fault) s
    = .next t ∧ t.sender k.val =
    { x with rqHead := BitVec.ofNat 12 ((x.rqHead.toNat + 1) % 2 ^ x.rqLog.toNat), reqs := x.reqs ++ [{ head := h }] }) ∧
  (∀ (k : SlotNo) (m : HostMem) (fault : Option EngFault) (e : List Byte) (h : ReqHead) (x : SlotSt) (s : State),
    s.host.mbxRdy = true → s.host.d3 = false → s.sender k.val = x → x.en = true → x.remote = false → x.closing = false →
    x.rqHead ≠ x.rqTail → x.reqs.length < 8 → x.reqs.length + x.unread + 1 < x.cqSize → hostBytes m (x.rqBase.toNat + 64 *
    x.rqHead.toNat) 64 = some e → hostFetch m e = h → h.hostOk = false → fault = none → ∃ t, exec (.requestFetch k m fault)
    s = .next t ∧ t.sender k.val =
    { x with rqHead := BitVec.ofNat 12 ((x.rqHead.toNat + 1) % 2 ^ x.rqLog.toNat), reqs := x.reqs ++ [{ head := h, begun := true, result := some (refusal stHostFault 0) }], err := x.err ||| 4 })
    ∧
  (∀ (k : SlotNo) (m : HostMem) (fault : Option EngFault) (e : List Byte) (h : ReqHead) (x : SlotSt) (s : State),
    s.host.mbxRdy = true → s.host.d3 = false → s.sender k.val = x → x.en = true → x.remote = false → x.closing = false →
    x.rqHead ≠ x.rqTail → x.reqs.length < 8 → x.reqs.length + x.unread + 1 < x.cqSize → hostBytes m (x.rqBase.toNat + 64 *
    x.rqHead.toNat) 64 = some e → hostFetch m e = h → h.hostOk = true → fault.isSome = true → ∃ t, exec (.requestFetch k m
    fault) s = .next t ∧ t.sender k.val =
    { x with rqHead := BitVec.ofNat 12 ((x.rqHead.toNat + 1) % 2 ^ x.rqLog.toNat), reqs := x.reqs ++ [{ head := h, begun := true, result := some (refusal stInternal 0) }] })
    ∧
  (∀ (r : Req) (hostOk : Bool) (x : SlotSt) (q : ReqSt) (v : Result) (s : State), r.sender.val < 32 → s.host.d3 = false →
    s.sender r.sender.val = x → x.remote = false → x.closing = false → x.reqs = [q] → q.begun = true → q.head.tag = r.tag →
    q.result = some v → hostOk = true → ∃ t, exec (.requestComplete r hostOk) s = .next t ∧ (t.sender r.sender.val).reqs =
    [] ∧ sfind (t.sender r.sender.val).ring x.cqTail.toNat = some
    { Completion.of q.head v with rqh := x.rqHead, phase := x.phase } ∧ (t.sender r.sender.val).cqTail = BitVec.ofNat 12
    ((x.cqTail.toNat + 1) % 2 ^ x.cqLog.toNat) ∧ (t.sender r.sender.val).phase = (if (x.cqTail.toNat + 1) % 2 ^
    x.cqLog.toNat = 0 then !x.phase else x.phase)) ∧
  (∀ (s : State), s.exyan = true → s.host.beatAt + msTicks 10 ≤ s.now → ∃ t, exec (.heartbeatTimer) s = .next t ∧
    t.host.heartbeat = s.host.heartbeat + 1 ∧ t.host.beatAt = s.host.beatAt + msTicks 10) ∧
  (∀ (k : Nat) (s : State), k < 32 → (s.sender k).remote = false → ∃ t, exec (.perstAssert) s = .next t ∧ t.sender k = {} ∧
    t.host.win = none ∧ t.host.intMask = 0 ∧ t.host.d3 = s.host.d3) ∧
  (∀ (k : Nat) (s : State), k < 32 → (s.sender k).remote = false → ∃ t, exec (.functionLevelReset) s = .next t ∧ t.sender k
    = {} ∧ t.host.win = none ∧ t.host.intMask = 0 ∧ t.host.d3 = s.host.d3) ∧
  (∀ (s : State), ∃ t, exec (.d3hotEntry) s = .next t ∧ t.host.d3 = true ∧ t.host.slots = s.host.slots) ∧
  (∀ (s : State), ∃ t, exec (.d0Return) s = .next t ∧ t.host.d3 = false ∧ t.host.slots = s.host.slots) ∧
  (∀ (w : Wmk) (s : State), s.exyan = true → s.host.cmpAt + msTicks 1 ≤ s.now → s.wmk 5 = w → w.en = true → w.pol = false →
    w.level = false → s.sec.records.length < 2 ^ 23 → w.thr.toInt ≤ (s.sec.records.length : Int) → ∃ t, exec
    (.watermarkCompare) s = .next t ∧ (t.wmk 5).level = true ∧ (t.wmk 5).raised = true ∧ (t.wmk 5).value = BitVec.ofNat 24
    s.sec.records.length ∧ (t.wmk 5).armed = false) ∧
  (∀ (s : State), ∃ t, exec (.rtcSecond) s = .next t ∧ t.time.cal = (calNext s.time.cal).1 ∧ t.time.sub = s.time.sub - 32768
    ∧ t.time.wrap = (s.time.wrap || (calNext s.time.cal).2)) ∧
  (∀ (s : State), s.time.frozen = true → ∃ t, exec (.rtcFreezeTimeout) s = .next t ∧ t.time.frozen = false ∧ t.time.cal =
    s.time.cal) ∧
  (∀ (s : State), s.time.pend = true → s.time.source ≠ .ring → ∃ t, exec (.rtcCommitDone) s = .next t ∧ t.time.pend = false
    ∧ t.time.valid = true ∧ t.time.wrap = false ∧ t.time.cal = { s.time.pendCal with msec := 0 } ∧ t.time.source = .host ∧
    t.time.utcMs = calMs s.time.pendCal ∧ t.time.utcOk = true) ∧
  (∀ (s : State), ∃ t, exec (.rtcTrimWindow) s = .next t ∧ t.time.trimNow = (s.time.trimAdd, s.time.trimN) ∧ t.time.win =
    s.time.win - 1048576 ∧ t.time.atrimFrom = s.time.measure s.ringInUse s.now) ∧
  (∀ (a b n : Nat) (e : Int) (s : State), s.time.atrim = true → s.ringInUse = true → s.time.atrimFrom = some (a, b, n) → 32
    ≤ n → a < b → rateError n (b - a) = e → ∃ t, exec (.rtcAtrimMeasure) s = .next t ∧ t.time.trimAdd = decide (e < 0) ∧
    t.time.trimErr = BitVec.ofInt 24 e ∧ t.time.trimN = BitVec.ofNat 10 (min 1023 (roundDiv (10 * e.natAbs) 954).toNat) ∧
    t.time.atrimFrom = some (b, b, 0)) ∧
  (∀ (s : State), s.time.syncAt + secTicks 60 ≤ s.now → s.time.source = .host ∨ s.time.source = .ring → 2 < ((calMs s.rtcCal
    : Int) - s.utcNow).natAbs → ∃ t, exec (.rtcSyncCheck) s = .next t ∧ t.time.valid = true ∧ t.time.cal =
    { calOf s.utcNow with msec := 0 } ∧ t.time.sub = subOf (calOf s.utcNow).msec) ∧
  (∀ (s : State), s.time.source = .ring → s.trk.timePort = none → ∃ t, exec (.ringTimeLoss) s = .next t ∧ t.time.source =
    .rtc ∧ t.time.utcMs = s.time.utcMs ∧ t.time.utcTick = s.time.utcTick) ∧
  (∀ (s : State), s.su.vinGood = true → ∃ t, exec (.vbatLowDetect) s = .next t ∧ t.time.vbatLow = true ∧
    t.time.irqStat.getLsbD 3 = true) ∧
  (∀ (s : State), s.su.vinGood = true → ∃ t, exec (.vbatRestored) s = .next t ∧ t.time.vbatLow = false)

/-- On a core that executes it, each arithmetic, logic, shift, compare and load-immediate instruction with register
fields the table allows writes its result to rd (a write to zr is discarded), sets the flags the table names, leaves
its operands as read before the write, and advances the PC past its words. (R139, R141, R148, R155, R156) -/
def Obligations.RegisterInstructionsTakeEffect : Prop :=
  (∀ (k : CoreRef) (r : RForm) (a b : V24) (s : State), s.mayRun k 1 → legalR r = true → (s.coreOf k).r r.rs1 = a →
    (s.coreOf k).r r.rs2 = b → ∃ t, exec (.add k r) s = .next t ∧ (t.coreOf k).r r.rd = (if r.rd.toNat < 24 then a + b else
    0) ∧ (t.coreOf k).z = (a + b == 0) ∧ (t.coreOf k).n = (a + b).msb ∧ (t.coreOf k).c = decide (2 ^ 24 ≤ a.toNat + b.toNat)
    ∧ ((t.coreOf k).v = decide (a.toInt + b.toInt < -8388608 ∨ 8388607 < a.toInt + b.toInt)) ∧ (t.coreOf k).pc = (s.coreOf
    k).pc + 1) ∧
  (∀ (k : CoreRef) (r : RForm) (a b : V24) (s : State), s.mayRun k 1 → legalR r = true → (s.coreOf k).r r.rs1 = a →
    (s.coreOf k).r r.rs2 = b → ∃ t, exec (.adds k r) s = .next t ∧ (t.coreOf k).r r.rd = (if r.rd.toNat < 24 then sat24
    (a.toInt + b.toInt) else 0) ∧ (t.coreOf k).z = (sat24 (a.toInt + b.toInt) == 0) ∧ (t.coreOf k).n = (sat24 (a.toInt +
    b.toInt)).msb ∧ (t.coreOf k).c = false ∧ (t.coreOf k).v = overflows (a.toInt + b.toInt) ∧ (t.coreOf k).sats = ((s.coreOf
    k).sats || overflows (a.toInt + b.toInt)) ∧ (t.coreOf k).pc = (s.coreOf k).pc + 1) ∧
  (∀ (k : CoreRef) (r : RForm) (a b : V24) (s : State), s.mayRun k 1 → legalR r = true → (s.coreOf k).r r.rs1 = a →
    (s.coreOf k).r r.rs2 = b → ∃ t, exec (.sub k r) s = .next t ∧ (t.coreOf k).r r.rd = (if r.rd.toNat < 24 then a - b else
    0) ∧ (t.coreOf k).z = (a == b) ∧ (t.coreOf k).n = (a - b).msb ∧ (t.coreOf k).c = decide (a.toNat < b.toNat) ∧ ((t.coreOf
    k).v = decide (a.toInt - b.toInt < -8388608 ∨ 8388607 < a.toInt - b.toInt)) ∧ (t.coreOf k).pc = (s.coreOf k).pc + 1) ∧
  (∀ (k : CoreRef) (r : RForm) (a b : V24) (s : State), s.mayRun k 1 → legalR r = true → (s.coreOf k).r r.rs1 = a →
    (s.coreOf k).r r.rs2 = b → ∃ t, exec (.subs k r) s = .next t ∧ (t.coreOf k).r r.rd = (if r.rd.toNat < 24 then sat24
    (a.toInt - b.toInt) else 0) ∧ (t.coreOf k).z = (sat24 (a.toInt - b.toInt) == 0) ∧ (t.coreOf k).n = (sat24 (a.toInt -
    b.toInt)).msb ∧ (t.coreOf k).c = false ∧ (t.coreOf k).v = overflows (a.toInt - b.toInt) ∧ (t.coreOf k).sats = ((s.coreOf
    k).sats || overflows (a.toInt - b.toInt)) ∧ (t.coreOf k).pc = (s.coreOf k).pc + 1) ∧
  (∀ (k : CoreRef) (r : RForm) (a b : V24) (s : State), s.mayRun k 1 → legalR r = true → (s.coreOf k).r r.rs1 = a →
    (s.coreOf k).r r.rs2 = b → ∃ t, exec (.and k r) s = .next t ∧ (t.coreOf k).r r.rd = (if r.rd.toNat < 24 then a &&& b
    else 0) ∧ (t.coreOf k).z = ((a &&& b) == 0) ∧ (t.coreOf k).n = ((a &&& b)).msb ∧ (t.coreOf k).c = false ∧ (t.coreOf k).v
    = false ∧ (t.coreOf k).pc = (s.coreOf k).pc + 1) ∧
  (∀ (k : CoreRef) (r : RForm) (a b : V24) (s : State), s.mayRun k 1 → legalR r = true → (s.coreOf k).r r.rs1 = a →
    (s.coreOf k).r r.rs2 = b → ∃ t, exec (.or k r) s = .next t ∧ (t.coreOf k).r r.rd = (if r.rd.toNat < 24 then a ||| b else
    0) ∧ (t.coreOf k).z = ((a ||| b) == 0) ∧ (t.coreOf k).n = ((a ||| b)).msb ∧ (t.coreOf k).c = false ∧ (t.coreOf k).v =
    false ∧ (t.coreOf k).pc = (s.coreOf k).pc + 1) ∧
  (∀ (k : CoreRef) (r : RForm) (a b : V24) (s : State), s.mayRun k 1 → legalR r = true → (s.coreOf k).r r.rs1 = a →
    (s.coreOf k).r r.rs2 = b → ∃ t, exec (.xor k r) s = .next t ∧ (t.coreOf k).r r.rd = (if r.rd.toNat < 24 then a ^^^ b
    else 0) ∧ (t.coreOf k).z = ((a ^^^ b) == 0) ∧ (t.coreOf k).n = ((a ^^^ b)).msb ∧ (t.coreOf k).c = false ∧ (t.coreOf k).v
    = false ∧ (t.coreOf k).pc = (s.coreOf k).pc + 1) ∧
  (∀ (k : CoreRef) (r : RForm) (a b : V24) (s : State), s.mayRun k 1 → legalR r = true → (s.coreOf k).r r.rs1 = a →
    (s.coreOf k).r r.rs2 = b → ∃ t, exec (.shl k r) s = .next t ∧ (t.coreOf k).r r.rd = (if r.rd.toNat < 24 then shl24 a
    (b.toNat % 32) else 0) ∧ (t.coreOf k).z = (shl24 a (b.toNat % 32) == 0) ∧ (t.coreOf k).n = (shl24 a (b.toNat % 32)).msb
    ∧ (t.coreOf k).c = false ∧ (t.coreOf k).v = false ∧ (t.coreOf k).pc = (s.coreOf k).pc + 1) ∧
  (∀ (k : CoreRef) (r : RForm) (a b : V24) (s : State), s.mayRun k 1 → legalR r = true → (s.coreOf k).r r.rs1 = a →
    (s.coreOf k).r r.rs2 = b → ∃ t, exec (.shr k r) s = .next t ∧ (t.coreOf k).r r.rd = (if r.rd.toNat < 24 then shr24 a
    (b.toNat % 32) else 0) ∧ (t.coreOf k).z = (shr24 a (b.toNat % 32) == 0) ∧ (t.coreOf k).n = (shr24 a (b.toNat % 32)).msb
    ∧ (t.coreOf k).c = false ∧ (t.coreOf k).v = false ∧ (t.coreOf k).pc = (s.coreOf k).pc + 1) ∧
  (∀ (k : CoreRef) (r : RForm) (a b : V24) (s : State), s.mayRun k 1 → legalR r = true → (s.coreOf k).r r.rs1 = a →
    (s.coreOf k).r r.rs2 = b → ∃ t, exec (.sha k r) s = .next t ∧ (t.coreOf k).r r.rd = (if r.rd.toNat < 24 then sha24 a
    (b.toNat % 32) else 0) ∧ (t.coreOf k).z = (sha24 a (b.toNat % 32) == 0) ∧ (t.coreOf k).n = (sha24 a (b.toNat % 32)).msb
    ∧ (t.coreOf k).c = false ∧ (t.coreOf k).v = false ∧ (t.coreOf k).pc = (s.coreOf k).pc + 1) ∧
  (∀ (k : CoreRef) (r : RForm) (a b : V24) (p : BitVec 48) (s : State), s.mayRun k 1 → legalR r = true → r.rd.toNat % 2 = 0
    → r.rd.toNat ≤ 22 → (s.coreOf k).r r.rs1 = a → (s.coreOf k).r r.rs2 = b → p = BitVec.ofInt 48 (a.toInt * b.toInt) → ∃ t,
    exec (.mul k r) s = .next t ∧ (t.coreOf k).r r.rd = p.setWidth 24 ∧ (t.coreOf k).r (r.rd + 1) = p.extractLsb' 24 24 ∧
    (t.coreOf k).z = (p == 0) ∧ (t.coreOf k).n = p.msb ∧ (t.coreOf k).c = false ∧ (t.coreOf k).v = false ∧ (t.coreOf k).pc =
    (s.coreOf k).pc + 1) ∧
  (∀ (k : CoreRef) (r : RForm) (a b : V24) (s : State), s.mayRun k 1 → (gen r.rd && gen r.rs1 && gen r.rs2) = true →
    (s.coreOf k).r r.rs1 = a → (s.coreOf k).r r.rs2 = b → ∃ t, exec (.mulf k r) s = .next t ∧ (t.coreOf k).r r.rd = (if
    r.rd.toNat < 24 then sat24 (mulfExact a b (mulfShift r.fn)) else 0) ∧ (t.coreOf k).z = (sat24 (mulfExact a b (mulfShift
    r.fn)) == 0) ∧ (t.coreOf k).n = (sat24 (mulfExact a b (mulfShift r.fn))).msb ∧ (t.coreOf k).c = false ∧ (t.coreOf k).v =
    overflows (mulfExact a b (mulfShift r.fn)) ∧ (t.coreOf k).sats = ((s.coreOf k).sats || overflows (mulfExact a b
    (mulfShift r.fn))) ∧ (t.coreOf k).pc = (s.coreOf k).pc + 1) ∧
  (∀ (k : CoreRef) (r : RForm) (a b : V24) (s : State), s.mayRun k 1 → legalR r = true → (s.coreOf k).r r.rs1 = a →
    (s.coreOf k).r r.rs2 = b → b ≠ 0 → ∃ t, exec (.div k r) s = .next t ∧ (t.coreOf k).r r.rd = (if r.rd.toNat < 24 then
    sat24 (a.toInt.tdiv b.toInt) else 0) ∧ (t.coreOf k).z = (sat24 (a.toInt.tdiv b.toInt) == 0) ∧ (t.coreOf k).n = (sat24
    (a.toInt.tdiv b.toInt)).msb ∧ (t.coreOf k).c = false ∧ (t.coreOf k).v = overflows (a.toInt.tdiv b.toInt) ∧ (t.coreOf
    k).sats = ((s.coreOf k).sats || overflows (a.toInt.tdiv b.toInt)) ∧ (t.coreOf k).pc = (s.coreOf k).pc + 1) ∧
  (∀ (k : CoreRef) (r : RForm) (a b : V24) (s : State), s.mayRun k 1 → legalR r = true → (s.coreOf k).r r.rs1 = a →
    (s.coreOf k).r r.rs2 = b → b ≠ 0 → ∃ t, exec (.rem k r) s = .next t ∧ (t.coreOf k).r r.rd = (if r.rd.toNat < 24 then
    BitVec.ofInt 24 (a.toInt.tmod b.toInt) else 0) ∧ (t.coreOf k).z = (BitVec.ofInt 24 (a.toInt.tmod b.toInt) == 0) ∧
    (t.coreOf k).n = (BitVec.ofInt 24 (a.toInt.tmod b.toInt)).msb ∧ (t.coreOf k).c = false ∧ (t.coreOf k).v = false ∧
    (t.coreOf k).pc = (s.coreOf k).pc + 1) ∧
  (∀ (k : CoreRef) (r : RForm) (a b : V24) (s : State), s.mayRun k 1 → legalCmp r = true → (s.coreOf k).r r.rs1 = a →
    (s.coreOf k).r r.rs2 = b → ∃ t, exec (.cmp k r) s = .next t ∧ (t.coreOf k).regs = (s.coreOf k).regs ∧ (t.coreOf k).z =
    (a == b) ∧ (t.coreOf k).n = (a - b).msb ∧ (t.coreOf k).c = decide (a.toNat < b.toNat) ∧ ((t.coreOf k).v = decide
    (a.toInt - b.toInt < -8388608 ∨ 8388607 < a.toInt - b.toInt)) ∧ (t.coreOf k).pc = (s.coreOf k).pc + 1) ∧
  (∀ (k : CoreRef) (r : RForm) (a b : V24) (s : State), s.mayRun k 1 → legalR r = true → (s.coreOf k).r r.rs1 = a →
    (s.coreOf k).r r.rs2 = b → ∃ t, exec (.min k r) s = .next t ∧ (t.coreOf k).r r.rd = (if r.rd.toNat < 24 then (if a.toInt
    < b.toInt then a else b) else 0) ∧ (t.coreOf k).z = ((if a.toInt < b.toInt then a else b) == 0) ∧ (t.coreOf k).n = ((if
    a.toInt < b.toInt then a else b)).msb ∧ (t.coreOf k).c = false ∧ (t.coreOf k).v = false ∧ (t.coreOf k).pc = (s.coreOf
    k).pc + 1) ∧
  (∀ (k : CoreRef) (r : RForm) (a b : V24) (s : State), s.mayRun k 1 → legalR r = true → (s.coreOf k).r r.rs1 = a →
    (s.coreOf k).r r.rs2 = b → ∃ t, exec (.max k r) s = .next t ∧ (t.coreOf k).r r.rd = (if r.rd.toNat < 24 then (if a.toInt
    < b.toInt then b else a) else 0) ∧ (t.coreOf k).z = ((if a.toInt < b.toInt then b else a) == 0) ∧ (t.coreOf k).n = ((if
    a.toInt < b.toInt then b else a)).msb ∧ (t.coreOf k).c = false ∧ (t.coreOf k).v = false ∧ (t.coreOf k).pc = (s.coreOf
    k).pc + 1) ∧
  (∀ (k : CoreRef) (i : IForm) (a b : V24) (s : State), s.mayRun k 1 → legalI i = true → (s.coreOf k).r i.rs1 = a →
    i.imm.signExtend 24 = b → ∃ t, exec (.addi k i) s = .next t ∧ (t.coreOf k).r i.rd = (if i.rd.toNat < 24 then a + b else
    0) ∧ (t.coreOf k).z = (a + b == 0) ∧ (t.coreOf k).n = (a + b).msb ∧ (t.coreOf k).c = decide (2 ^ 24 ≤ a.toNat + b.toNat)
    ∧ ((t.coreOf k).v = decide (a.toInt + b.toInt < -8388608 ∨ 8388607 < a.toInt + b.toInt)) ∧ (t.coreOf k).pc = (s.coreOf
    k).pc + 1) ∧
  (∀ (k : CoreRef) (i : IForm) (a b : V24) (s : State), s.mayRun k 1 → legalI i = true → (s.coreOf k).r i.rs1 = a →
    i.imm.signExtend 24 = b → ∃ t, exec (.addsi k i) s = .next t ∧ (t.coreOf k).r i.rd = (if i.rd.toNat < 24 then sat24
    (a.toInt + b.toInt) else 0) ∧ (t.coreOf k).z = (sat24 (a.toInt + b.toInt) == 0) ∧ (t.coreOf k).n = (sat24 (a.toInt +
    b.toInt)).msb ∧ (t.coreOf k).c = false ∧ (t.coreOf k).v = overflows (a.toInt + b.toInt) ∧ (t.coreOf k).sats = ((s.coreOf
    k).sats || overflows (a.toInt + b.toInt)) ∧ (t.coreOf k).pc = (s.coreOf k).pc + 1) ∧
  (∀ (k : CoreRef) (i : IForm) (a b : V24) (s : State), s.mayRun k 1 → legalI i = true → (s.coreOf k).r i.rs1 = a →
    i.imm.setWidth 24 = b → ∃ t, exec (.andi k i) s = .next t ∧ (t.coreOf k).r i.rd = (if i.rd.toNat < 24 then a &&& b else
    0) ∧ (t.coreOf k).z = ((a &&& b) == 0) ∧ (t.coreOf k).n = ((a &&& b)).msb ∧ (t.coreOf k).c = false ∧ (t.coreOf k).v =
    false ∧ (t.coreOf k).pc = (s.coreOf k).pc + 1) ∧
  (∀ (k : CoreRef) (i : IForm) (a b : V24) (s : State), s.mayRun k 1 → legalI i = true → (s.coreOf k).r i.rs1 = a →
    i.imm.setWidth 24 = b → ∃ t, exec (.ori k i) s = .next t ∧ (t.coreOf k).r i.rd = (if i.rd.toNat < 24 then a ||| b else
    0) ∧ (t.coreOf k).z = ((a ||| b) == 0) ∧ (t.coreOf k).n = ((a ||| b)).msb ∧ (t.coreOf k).c = false ∧ (t.coreOf k).v =
    false ∧ (t.coreOf k).pc = (s.coreOf k).pc + 1) ∧
  (∀ (k : CoreRef) (i : IForm) (a b : V24) (s : State), s.mayRun k 1 → legalI i = true → (s.coreOf k).r i.rs1 = a →
    i.imm.setWidth 24 = b → ∃ t, exec (.xori k i) s = .next t ∧ (t.coreOf k).r i.rd = (if i.rd.toNat < 24 then a ^^^ b else
    0) ∧ (t.coreOf k).z = ((a ^^^ b) == 0) ∧ (t.coreOf k).n = ((a ^^^ b)).msb ∧ (t.coreOf k).c = false ∧ (t.coreOf k).v =
    false ∧ (t.coreOf k).pc = (s.coreOf k).pc + 1) ∧
  (∀ (k : CoreRef) (i : IForm) (a b : V24) (s : State), s.mayRun k 1 → legalI i = true → (s.coreOf k).r i.rs1 = a →
    i.imm.setWidth 24 = b → i.imm.toNat < 32 → ∃ t, exec (.shli k i) s = .next t ∧ (t.coreOf k).r i.rd = (if i.rd.toNat < 24
    then shl24 a b.toNat else 0) ∧ (t.coreOf k).z = (shl24 a b.toNat == 0) ∧ (t.coreOf k).n = (shl24 a b.toNat).msb ∧
    (t.coreOf k).c = false ∧ (t.coreOf k).v = false ∧ (t.coreOf k).pc = (s.coreOf k).pc + 1) ∧
  (∀ (k : CoreRef) (i : IForm) (a b : V24) (s : State), s.mayRun k 1 → legalI i = true → (s.coreOf k).r i.rs1 = a →
    i.imm.setWidth 24 = b → i.imm.toNat < 32 → ∃ t, exec (.shri k i) s = .next t ∧ (t.coreOf k).r i.rd = (if i.rd.toNat < 24
    then shr24 a b.toNat else 0) ∧ (t.coreOf k).z = (shr24 a b.toNat == 0) ∧ (t.coreOf k).n = (shr24 a b.toNat).msb ∧
    (t.coreOf k).c = false ∧ (t.coreOf k).v = false ∧ (t.coreOf k).pc = (s.coreOf k).pc + 1) ∧
  (∀ (k : CoreRef) (i : IForm) (a b : V24) (s : State), s.mayRun k 1 → legalI i = true → (s.coreOf k).r i.rs1 = a →
    i.imm.setWidth 24 = b → i.imm.toNat < 32 → ∃ t, exec (.shai k i) s = .next t ∧ (t.coreOf k).r i.rd = (if i.rd.toNat < 24
    then sha24 a b.toNat else 0) ∧ (t.coreOf k).z = (sha24 a b.toNat == 0) ∧ (t.coreOf k).n = (sha24 a b.toNat).msb ∧
    (t.coreOf k).c = false ∧ (t.coreOf k).v = false ∧ (t.coreOf k).pc = (s.coreOf k).pc + 1) ∧
  (∀ (k : CoreRef) (i : IForm) (a b : V24) (s : State), s.mayRun k 1 → i.rd = 0 → (s.coreOf k).r i.rs1 = a →
    i.imm.signExtend 24 = b → gen i.rs1 = true → ∃ t, exec (.cmpi k i) s = .next t ∧ (t.coreOf k).regs = (s.coreOf k).regs ∧
    (t.coreOf k).z = (a == b) ∧ (t.coreOf k).n = (a - b).msb ∧ (t.coreOf k).c = decide (a.toNat < b.toNat) ∧ ((t.coreOf k).v
    = decide (a.toInt - b.toInt < -8388608 ∨ 8388607 < a.toInt - b.toInt)) ∧ (t.coreOf k).pc = (s.coreOf k).pc + 1) ∧
  (∀ (k : CoreRef) (i : IForm) (s : State), s.mayRun k 2 → gen i.rd = true → i.rs1 = 0 → i.imm = 0 → ∃ t, exec (.ldi k i) s
    = .next t ∧ (t.coreOf k).r i.rd = (if i.rd.toNat < 24 then i.ext else 0) ∧ (t.coreOf k).z = (s.coreOf k).z ∧ (t.coreOf
    k).n = (s.coreOf k).n ∧ (t.coreOf k).c = (s.coreOf k).c ∧ (t.coreOf k).v = (s.coreOf k).v ∧ (t.coreOf k).pc = (s.coreOf
    k).pc + 2)

/-- On a core that executes it, a load returns the word of the task partition (its own latest store of the scan first),
of the constant table or, for LDX, of task data through the translation unit; a store enters the journal and changes
no variable before the commit; a point load reads the snapshot of a declared input and a point store enters the
journal; TSTART, TELAP and TDONE work on the ms of the scan. (R121, R124, R152, R153, R157, R158, R141) -/
def Obligations.MemoryInstructionsTakeEffect : Prop :=
  (∀ (k : CoreRef) (i : IForm) (a : V24) (g : LogicImage) (s : State), s.mayRun k 1 → legalI i = true → a = (s.coreOf k).r
    i.rs1 + i.imm.signExtend 24 → a.toNat < 0x40000 → (s.dieOf k).image = some g → imgReach g (s.coreOf k).tnt a.toNat =
    true → ∃ t, exec (.ld k i) s = .next t ∧ (t.coreOf k).r i.rd = (if i.rd.toNat < 24 then (s.dieOf k).load a.toNat else 0)
    ∧ (t.coreOf k).z = (s.coreOf k).z ∧ (t.coreOf k).n = (s.coreOf k).n ∧ (t.coreOf k).c = (s.coreOf k).c ∧ (t.coreOf k).v =
    (s.coreOf k).v ∧ (t.coreOf k).pc = (s.coreOf k).pc + 1) ∧
  (∀ (k : CoreRef) (i : IForm) (a : V24) (s : State), s.mayRun k 1 → legalI i = true → a = (s.coreOf k).r i.rs1 +
    i.imm.signExtend 24 → 0x40000 ≤ a.toNat → a.toNat < 0x50000 → ∃ t, exec (.ld k i) s = .next t ∧ (t.coreOf k).r i.rd =
    (if i.rd.toNat < 24 then ((s.dieOf k).consts[a.toNat - 0x40000]?).getD 0 else 0) ∧ (t.coreOf k).z = (s.coreOf k).z ∧
    (t.coreOf k).n = (s.coreOf k).n ∧ (t.coreOf k).c = (s.coreOf k).c ∧ (t.coreOf k).v = (s.coreOf k).v ∧ (t.coreOf k).pc =
    (s.coreOf k).pc + 1) ∧
  (∀ (k : CoreRef) (i : IForm) (a : V24) (g : LogicImage) (s : State), s.mayRun k 1 → legalI i = true → a = (s.coreOf k).r
    i.rs1 + i.imm.signExtend 24 → a.toNat < 0x40000 → (s.dieOf k).image = some g → imgReach g (s.coreOf k).tnt a.toNat =
    true → ∃ t, exec (.st k i) s = .next t ∧ (t.dieOf k).journal = (s.dieOf k).journal ++ [(a.toNat, (s.coreOf k).r i.rd)] ∧
    (t.dieOf k).vars = (s.dieOf k).vars ∧ (t.coreOf k).regs = (s.coreOf k).regs ∧ (t.coreOf k).z = (s.coreOf k).z ∧
    (t.coreOf k).n = (s.coreOf k).n ∧ (t.coreOf k).c = (s.coreOf k).c ∧ (t.coreOf k).v = (s.coreOf k).v ∧ (t.coreOf k).pc =
    (s.coreOf k).pc + 1) ∧
  (∀ (k : CoreRef) (i : IForm) (a : V24) (g : LogicImage) (s : State), s.mayRun k 2 → legalI i = true → i.imm = 0 → a =
    (s.coreOf k).r i.rs1 + i.ext → a.toNat < 0x40000 → (s.dieOf k).image = some g → imgReach g (s.coreOf k).tnt a.toNat =
    true → ∃ t, exec (.ldx k i) s = .next t ∧ (t.coreOf k).r i.rd = (if i.rd.toNat < 24 then (s.dieOf k).load a.toNat else
    0) ∧ (t.coreOf k).z = (s.coreOf k).z ∧ (t.coreOf k).n = (s.coreOf k).n ∧ (t.coreOf k).c = (s.coreOf k).c ∧ (t.coreOf
    k).v = (s.coreOf k).v ∧ (t.coreOf k).pc = (s.coreOf k).pc + 2) ∧
  (∀ (k : CoreRef) (i : IForm) (a : V24) (page : Nat) (e : Pte) (pa : Nat) (s : State), s.mayRun k 2 → legalI i = true →
    i.imm = 0 → a = (s.coreOf k).r i.rs1 + i.ext → 0x400000 ≤ a.toNat → a.toNat < 0x800000 → s.mapped k.die.val (s.ctxOf
    (s.coreOf k).tnt 1) (4 * a.toNat) page e → pa = 4096 * page + 4 * a.toNat % 4096 → (s.tag (pa / 64)).ok = true → ∃ t,
    exec (.ldx k i) s = .next t ∧ (t.coreOf k).r i.rd = (if i.rd.toNat < 24 then BitVec.ofNat 24 (ofLe (memGets s.mem pa 4))
    else 0) ∧ (t.coreOf k).z = (s.coreOf k).z ∧ (t.coreOf k).n = (s.coreOf k).n ∧ (t.coreOf k).c = (s.coreOf k).c ∧
    (t.coreOf k).v = (s.coreOf k).v ∧ (t.coreOf k).pc = (s.coreOf k).pc + 2) ∧
  (∀ (k : CoreRef) (i : IForm) (a : V24) (g : LogicImage) (s : State), s.mayRun k 2 → legalI i = true → i.imm = 0 → a =
    (s.coreOf k).r i.rs1 + i.ext → a.toNat < 0x40000 → (s.dieOf k).image = some g → imgReach g (s.coreOf k).tnt a.toNat =
    true → ∃ t, exec (.stx k i) s = .next t ∧ (t.dieOf k).journal = (s.dieOf k).journal ++ [(a.toNat, (s.coreOf k).r i.rd)]
    ∧ (t.dieOf k).vars = (s.dieOf k).vars ∧ (t.coreOf k).regs = (s.coreOf k).regs ∧ (t.coreOf k).z = (s.coreOf k).z ∧
    (t.coreOf k).n = (s.coreOf k).n ∧ (t.coreOf k).c = (s.coreOf k).c ∧ (t.coreOf k).v = (s.coreOf k).v ∧ (t.coreOf k).pc =
    (s.coreOf k).pc + 2) ∧
  (∀ (k : CoreRef) (i : IForm) (m : Nat) (s : State), s.mayRun k 1 → legalI i = true → m = ((s.coreOf k).r i.rs1).toNat +
    i.imm.toNat → s.pointOk k.die.val k.core.val m false = true → ∃ t, exec (.ldp k i) s = .next t ∧ (t.coreOf k).r i.rd =
    (if i.rd.toNat < 24 then ((s.dieOf k).snap m).value else 0) ∧ (t.coreOf k).z = (s.coreOf k).z ∧ (t.coreOf k).n =
    (s.coreOf k).n ∧ (t.coreOf k).c = (s.coreOf k).c ∧ (t.coreOf k).v = (s.coreOf k).v ∧ (t.coreOf k).pc = (s.coreOf k).pc +
    1) ∧
  (∀ (k : CoreRef) (i : IForm) (m : Nat) (s : State), s.mayRun k 1 → legalI i = true → m = ((s.coreOf k).r i.rs1).toNat +
    i.imm.toNat → s.pointOk k.die.val k.core.val m false = true → ∃ t, exec (.ldps k i) s = .next t ∧ (t.coreOf k).r i.rd =
    (if i.rd.toNat < 24 then BitVec.ofNat 24 (cellByte ((s.dieOf k).snap m)) else 0) ∧ (t.coreOf k).z = (s.coreOf k).z ∧
    (t.coreOf k).n = (s.coreOf k).n ∧ (t.coreOf k).c = (s.coreOf k).c ∧ (t.coreOf k).v = (s.coreOf k).v ∧ (t.coreOf k).pc =
    (s.coreOf k).pc + 1) ∧
  (∀ (k : CoreRef) (i : IForm) (m : Nat) (s : State), s.mayRun k 1 → legalI i = true → m = ((s.coreOf k).r i.rs1).toNat +
    i.imm.toNat → s.pointOk k.die.val k.core.val m true = true → ∃ t, exec (.stp k i) s = .next t ∧ (t.dieOf k).outJ =
    (s.dieOf k).outJ ++ [{ mpn := m, value := (s.coreOf k).r i.rd, qual := .good }] ∧ t.pnt = s.pnt ∧ (t.coreOf k).z =
    (s.coreOf k).z ∧ (t.coreOf k).n = (s.coreOf k).n ∧ (t.coreOf k).c = (s.coreOf k).c ∧ (t.coreOf k).v = (s.coreOf k).v ∧
    (t.coreOf k).pc = (s.coreOf k).pc + 1) ∧
  (∀ (k : CoreRef) (r : RForm) (m : Nat) (s : State), s.mayRun k 1 → legalR r = true → m = ((s.coreOf k).r r.rs1).toNat →
    s.pointOk k.die.val k.core.val m true = true → ∃ t, exec (.stpq k r) s = .next t ∧ (t.dieOf k).outJ = (s.dieOf k).outJ
    ++ [{ mpn := m, value := (s.coreOf k).r r.rs2, qual := qualOf (((s.coreOf k).r r.rd).toNat % 4) }] ∧ t.pnt = s.pnt ∧
    (t.coreOf k).z = (s.coreOf k).z ∧ (t.coreOf k).n = (s.coreOf k).n ∧ (t.coreOf k).c = (s.coreOf k).c ∧ (t.coreOf k).v =
    (s.coreOf k).v ∧ (t.coreOf k).pc = (s.coreOf k).pc + 1) ∧
  (∀ (k : CoreRef) (i : IForm) (a : V24) (g : LogicImage) (s : State), s.mayRun k 1 → i.rd = 0 → gen i.rs1 = true → a =
    (s.coreOf k).r i.rs1 + i.imm.signExtend 24 → a.toNat < 0x40000 → (s.dieOf k).image = some g → imgReach g (s.coreOf
    k).tnt a.toNat = true → ∃ t, exec (.tstart k i) s = .next t ∧ (t.dieOf k).journal = (s.dieOf k).journal ++ [(a.toNat,
    BitVec.ofNat 24 ((s.dieOf k).scanTick.toNat / 16))] ∧ (t.coreOf k).regs = (s.coreOf k).regs ∧ (t.coreOf k).z = (s.coreOf
    k).z ∧ (t.coreOf k).n = (s.coreOf k).n ∧ (t.coreOf k).c = (s.coreOf k).c ∧ (t.coreOf k).v = (s.coreOf k).v ∧ (t.coreOf
    k).pc = (s.coreOf k).pc + 1) ∧
  (∀ (k : CoreRef) (i : IForm) (a : V24) (g : LogicImage) (s : State), s.mayRun k 1 → legalI i = true → a = (s.coreOf k).r
    i.rs1 + i.imm.signExtend 24 → a.toNat < 0x40000 → (s.dieOf k).image = some g → imgReach g (s.coreOf k).tnt a.toNat =
    true → ∃ t, exec (.telap k i) s = .next t ∧ (t.coreOf k).r i.rd = (if i.rd.toNat < 24 then BitVec.ofNat 24 ((s.dieOf
    k).scanTick.toNat / 16) - (s.dieOf k).load a.toNat else 0) ∧ (t.coreOf k).z = (s.coreOf k).z ∧ (t.coreOf k).n =
    (s.coreOf k).n ∧ (t.coreOf k).c = (s.coreOf k).c ∧ (t.coreOf k).v = (s.coreOf k).v ∧ (t.coreOf k).pc = (s.coreOf k).pc +
    1) ∧
  (∀ (k : CoreRef) (r : RForm) (a : V24) (g : LogicImage) (yes : Bool) (s : State), s.mayRun k 1 → legalR r = true → a =
    (s.coreOf k).r r.rs1 → a.toNat < 0x40000 → (s.dieOf k).image = some g → imgReach g (s.coreOf k).tnt a.toNat = true → yes
    = decide (((s.coreOf k).r r.rs2).toNat ≤ (BitVec.ofNat 24 ((s.dieOf k).scanTick.toNat / 16) - (s.dieOf k).load
    a.toNat).toNat) → ∃ t, exec (.tdone k r) s = .next t ∧ (t.coreOf k).r r.rd = (if r.rd.toNat < 24 ∧ yes = true then 1
    else 0) ∧ (t.coreOf k).z = !yes ∧ (t.coreOf k).n = (s.coreOf k).n ∧ (t.coreOf k).c = (s.coreOf k).c ∧ (t.coreOf k).v =
    (s.coreOf k).v ∧ (t.coreOf k).pc = (s.coreOf k).pc + 1)

/-- On a core that executes it, a branch jumps when its condition holds, a call opens the next window with the arguments
and a return closes it, TASKEND begins the next task of the run order, TRAP and an illegal word enter the trap
window, a breakpoint puts the die into HOLD, MFS and MTS reach the special registers, SPILL and FILL move a window
to and from its line, ABORT ends the scan without a commit, and TRET leaves the trap window. (R142, R143, R144,
R145, R146, R147, R148, R149, R150, R139, R141, R155) -/
def Obligations.ControlInstructionsTakeEffect : Prop :=
  (∀ (k : CoreRef) (b : BForm) (s : State), s.mayRun k 1 → (s.coreOf k).cond b.cond = true → ∃ t, exec (.br k b) s = .next
    t ∧ (t.coreOf k) = { (s.coreOf k) with pc := (s.coreOf k).pc + 1 + b.disp.signExtend 24, bpPass := false }) ∧
  (∀ (k : CoreRef) (b : BForm) (s : State), s.mayRun k 1 → (s.coreOf k).cond b.cond = false → ∃ t, exec (.br k b) s = .next
    t ∧ (t.coreOf k) = { (s.coreOf k) with pc := (s.coreOf k).pc + 1, bpPass := false }) ∧
  (∀ (k : CoreRef) (b : BForm) (x : CoreSt) (s : State), s.mayRun k 2 → b.cond = 0 → b.disp = 0 → (s.coreOf k) = x → x.tw =
    false → x.occ ((x.wix + 1) % 10) = false → ∃ t, exec (.call k b) s = .next t ∧ (t.coreOf k).wix = (x.wix + 1) % 10 ∧
    (t.coreOf k).depth = x.depth + 1 ∧ (t.coreOf k).pc = b.ext ∧ sget 0 (t.coreOf k).retpc ((x.wix + 1) % 10) = x.pc + 2 ∧
    (t.coreOf k).occ ((x.wix + 1) % 10) = true ∧ (t.coreOf k).window ((x.wix + 1) % 10) = List.replicate 8 0 ++ x.args) ∧
  (∀ (k : CoreRef) (r : RForm) (x : CoreSt) (s : State), s.mayRun k 1 → r.rd = 0 → gen r.rs1 = true → r.rs2 = 0 → r.fn = 0 →
    (s.coreOf k) = x → x.tw = false → x.occ ((x.wix + 1) % 10) = false → ∃ t, exec (.callr k r) s = .next t ∧ (t.coreOf
    k).wix = (x.wix + 1) % 10 ∧ (t.coreOf k).depth = x.depth + 1 ∧ (t.coreOf k).pc = x.r r.rs1 ∧ sget 0 (t.coreOf k).retpc
    ((x.wix + 1) % 10) = x.pc + 1 ∧ (t.coreOf k).occ ((x.wix + 1) % 10) = true ∧ (t.coreOf k).window ((x.wix + 1) % 10) =
    List.replicate 8 0 ++ x.args) ∧
  (∀ (k : CoreRef) (r : RForm) (x : CoreSt) (s : State), s.mayRun k 1 → zeroR r = true → (s.coreOf k) = x → x.tw = false →
    x.depth ≠ 0 → x.occ ((x.wix + 9) % 10) = true → x.wix < 10 → ∃ t, exec (.ret k r) s = .next t ∧ (t.coreOf k).wix =
    (x.wix + 9) % 10 ∧ (t.coreOf k).depth = x.depth - 1 ∧ (t.coreOf k).pc = sget 0 x.retpc x.wix ∧ (t.coreOf k).occ x.wix =
    false ∧ (t.coreOf k).args = (x.window x.wix).drop 8) ∧
  (∀ (k : CoreRef) (r : RForm) (s : State), s.mayRun k 1 → zeroR r = true → (s.coreOf k).tw = false → (s.coreOf k).rest =
    [] → ∃ t, exec (.taskend k r) s = .next t ∧ (t.coreOf k).task = none ∧ (t.coreOf k).rest = [] ∧ (t.dieOf k).inScan =
    true ∧ (t.dieOf k).journal = (s.dieOf k).journal) ∧
  (∀ (k : CoreRef) (r : RForm) (n : Nat) (l : List Nat) (z : Task) (s : State), s.mayRun k 1 → zeroR r = true → (s.coreOf
    k).rest = n :: l → (s.dieOf k).task? n = some z → ∃ t, exec (.taskend k r) s = .next t ∧ (t.coreOf k).task = some z.no ∧
    (t.coreOf k).rest = l ∧ (t.coreOf k).pc = z.entry ∧ (t.coreOf k).tnt = z.tenant ∧ (t.coreOf k).sp = BitVec.ofNat 24
    z.spillBase ∧ (t.coreOf k).regs = [] ∧ (t.coreOf k).wix = 0 ∧ (t.coreOf k).depth = 0) ∧
  (∀ (k : CoreRef) (i : IForm) (g : LogicImage) (s : State), s.mayRun k 1 → i.rd = 0 → gen i.rs1 = true → (s.coreOf k).tw =
    false → (s.dieOf k).image = some g → ∃ t, exec (.trap k i) s = .next t ∧ (t.coreOf k).tw = true ∧ (t.coreOf k).tc = 9 ∧
    (t.coreOf k).pc = Config.handlerPc g.imageId 9 ∧ sget 0 (t.coreOf k).regs (trapBase + 8) = (s.coreOf k).pc ∧ sget 0
    (t.coreOf k).regs (trapBase + 9) = (s.coreOf k).st k.core.val ∧ sget 0 (t.coreOf k).regs (trapBase + 10) = 0 ∧ sget 0
    (t.coreOf k).regs (trapBase + 11) = iWord 0x2D i) ∧
  (∀ (k : CoreRef) (w : V24) (g : LogicImage) (s : State), s.coreRuns k.die.val k.core.val = true → s.beyond k.die.val
    k.core.val (wordLen w) = false → (s.coreOf k).tw = false → (s.dieOf k).image = some g → (s.coreOf k).ending = false →
    (decodeCore k w 0).isNone = true → ∃ t, exec (.illegalInstruction k w) s = .next t ∧ (t.coreOf k).tw = true ∧ (t.coreOf
    k).tc = 7 ∧ (t.coreOf k).pc = Config.handlerPc g.imageId 7 ∧ sget 0 (t.coreOf k).regs (trapBase + 8) = (s.coreOf k).pc ∧
    sget 0 (t.coreOf k).regs (trapBase + 9) = (s.coreOf k).st k.core.val ∧ sget 0 (t.coreOf k).regs (trapBase + 10) = 0 ∧
    sget 0 (t.coreOf k).regs (trapBase + 11) = w) ∧
  (∀ (k : CoreRef) (r : RForm) (s : State), s.mayRun k 1 → zeroR r = true → (s.coreOf k).tw = false → (List.range 4).all
    (fun j => !(s.core k.die.val j).tw) = true → (s.dieOf k).mode = .run → ∃ t, exec (.brk k r) s = .next t ∧ (t.dieOf
    k).mode = .hold ∧ (t.dieOf k).holdBreak = true ∧ (t.coreOf k).pc = (s.coreOf k).pc + 1 ∧ (t.coreOf k).tw = false) ∧
  (∀ (k : CoreRef) (s : State), s.coreRuns k.die.val k.core.val = true → (s.coreOf k).atBp = true → (List.range 4).all (fun
    j => !(s.core k.die.val j).tw) = true → (s.dieOf k).mode = .run → ∃ t, exec (.hwBreakpoint k) s = .next t ∧ (t.dieOf
    k).mode = .hold ∧ (t.dieOf k).holdBreak = true ∧ (t.coreOf k).bpPass = true ∧ (t.coreOf k).pc = (s.coreOf k).pc) ∧
  (∀ (k : CoreRef) (r : RForm) (s : State), s.mayRun k 1 → gen r.rd = true → r.rs1 = 25 → r.rs2 = 0 → r.fn = 0 → ∃ t, exec
    (.mfs k r) s = .next t ∧ (t.coreOf k).r r.rd = (if r.rd.toNat < 24 then (s.dieOf k).scanTick.setWidth 24 else 0) ∧
    (t.coreOf k).pc = (s.coreOf k).pc + 1) ∧
  (∀ (k : CoreRef) (r : RForm) (s : State), s.mayRun k 1 → gen r.rd = true → r.rs1 = 26 → r.rs2 = 0 → r.fn = 0 → ∃ t, exec
    (.mfs k r) s = .next t ∧ (t.coreOf k).r r.rd = (if r.rd.toNat < 24 then (s.coreOf k).tnt.setWidth 24 else 0) ∧ (t.coreOf
    k).pc = (s.coreOf k).pc + 1) ∧
  (∀ (k : CoreRef) (r : RForm) (s : State), s.mayRun k 1 → gen r.rd = true → r.rs1 = 27 → r.rs2 = 0 → r.fn = 0 → ∃ t, exec
    (.mfs k r) s = .next t ∧ (t.coreOf k).r r.rd = (if r.rd.toNat < 24 then (s.coreOf k).st k.core.val else 0) ∧ (t.coreOf
    k).pc = (s.coreOf k).pc + 1) ∧
  (∀ (k : CoreRef) (r : RForm) (s : State), s.mayRun k 1 → gen r.rd = true → r.rs1 = 28 → r.rs2 = 0 → r.fn = 0 → ∃ t, exec
    (.mfs k r) s = .next t ∧ (t.coreOf k).r r.rd = (if r.rd.toNat < 24 then (s.coreOf k).sp else 0) ∧ (t.coreOf k).pc =
    (s.coreOf k).pc + 1) ∧
  (∀ (k : CoreRef) (r : RForm) (s : State), s.mayRun k 1 → gen r.rd = true → r.rs1 = 29 → r.rs2 = 0 → r.fn = 0 → ∃ t, exec
    (.mfs k r) s = .next t ∧ (t.coreOf k).r r.rd = (if r.rd.toNat < 24 then (s.coreOf k).tc.setWidth 24 else 0) ∧ (t.coreOf
    k).pc = (s.coreOf k).pc + 1) ∧
  (∀ (k : CoreRef) (r : RForm) (a : V24) (s : State), s.mayRun k 1 → r.rd = 27 → gen r.rs1 = true → r.rs2 = 0 → r.fn = 0 →
    (s.coreOf k).r r.rs1 = a → ∃ t, exec (.mts k r) s = .next t ∧ (t.coreOf k) =
    { (s.coreOf k) with z := a.getLsbD 0, n := a.getLsbD 1, c := a.getLsbD 2, v := a.getLsbD 3, sats := a.getLsbD 4, dzs := a.getLsbD 5, pc := (s.coreOf k).pc + 1, bpPass := false })
    ∧
  (∀ (k : CoreRef) (r : RForm) (s : State), s.mayRun k 1 → r.rd = 28 → gen r.rs1 = true → r.rs2 = 0 → r.fn = 0 → (s.coreOf
    k).tw = true → ∃ t, exec (.mts k r) s = .next t ∧ (t.coreOf k) =
    { (s.coreOf k) with sp := (s.coreOf k).r r.rs1, pc := (s.coreOf k).pc + 1, bpPass := false }) ∧
  (∀ (k : CoreRef) (r : RForm) (x : CoreSt) (w page : Nat) (e : Pte) (pa : Nat) (s : State), s.mayRun k 1 → (s.coreOf k) = x
    → x.tw = true → r.rd = 0 → gen r.rs1 = true → r.rs2 = 0 → r.fn = 0 → w = (x.r r.rs1).toNat → w < 10 → x.sp.toNat % 16 =
    0 → x.sp.toNat ≠ s.spillLimit k.die.val k.core.val → s.mapped k.die.val (s.ctxOf x.tnt 1) (4 * x.sp.toNat) page e → e.w
    = true → Memory.wf s.mem = true → pa = 4096 * page + 4 * x.sp.toNat % 4096 → regionOf x.sp = .spill → ∃ t, exec (.spill
    k r) s = .next t ∧ memGets t.mem pa 64 = (s.spillWords k.die.val k.core.val w).flatMap (fun n => leBytes n 4) ∧ (∀ a, a
    < pa ∨ pa + 64 ≤ a → memGet t.mem a = memGet s.mem a) ∧ (t.coreOf k).occ w = false ∧ (t.coreOf k).sp = x.sp + 16 ∧
    (t.coreOf k).pc = x.pc + 1) ∧
  (∀ (k : CoreRef) (r : RForm) (x : CoreSt) (w : Nat) (a : V24) (page : Nat) (e : Pte) (pa : Nat) (ws : List Nat) (s :
    State), s.mayRun k 1 → (s.coreOf k) = x → x.tw = true → r.rd = 0 → gen r.rs1 = true → r.rs2 = 0 → r.fn = 0 → w = (x.r
    r.rs1).toNat → w < 10 → a = x.sp - 16 → a.toNat % 16 = 0 → s.mapped k.die.val (s.ctxOf x.tnt 1) (4 * a.toNat) page e →
    pa = 4096 * page + 4 * a.toNat % 4096 → (s.tag (pa / 64)).ok = true → ws = (List.range 16).map (fun i => ofLe (memGets
    s.mem (pa + 4 * i) 4)) → frameOk ws w (s.dieOf k).seq = true → regionOf a = .spill → ∃ t, exec (.fill k r) s = .next t ∧
    (t.coreOf k).window w = (ws.take 12).map (fun n => BitVec.ofNat 24 n) ∧ sget 0 (t.coreOf k).retpc w = BitVec.ofNat 24
    (ws.getD 12 0) ∧ (t.coreOf k).occ w = true ∧ (t.coreOf k).sp = a ∧ (t.coreOf k).pc = x.pc + 1) ∧
  (∀ (k : CoreRef) (r : RForm) (s : State), s.mayRun k 1 → (s.coreOf k).tw = true → zeroR r = true → (s.dieOf k).queue = []
    → ∃ t, exec (.abort k r) s = .next t ∧ (t.dieOf k).inScan = false ∧ (t.dieOf k).journal = [] ∧ (t.dieOf k).skips = addW
    (s.dieOf k).skips 1 ∧ (t.coreOf k).task = none ∧ (t.coreOf k).tw = false ∧ (t.dieOf k).vars = (s.dieOf k).vars) ∧
  (∀ (k : CoreRef) (r : RForm) (st : V24) (s : State), s.mayRun k 1 → (s.coreOf k).tw = true → r.rd = 0 → r.rs1 = 0 → r.rs2
    = 0 → r.fn = 0 → st = sget 0 (s.coreOf k).regs (trapBase + 9) → ∃ t, exec (.tret k r) s = .next t ∧ (t.coreOf k).tw =
    false ∧ (t.coreOf k).z = st.getLsbD 0 ∧ (t.coreOf k).n = st.getLsbD 1 ∧ (t.coreOf k).c = st.getLsbD 2 ∧ (t.coreOf k).v =
    st.getLsbD 3 ∧ (t.coreOf k).sats = ((s.coreOf k).sats || st.getLsbD 4) ∧ (t.coreOf k).dzs = ((s.coreOf k).dzs || decide
    ((s.coreOf k).tc = 3) || st.getLsbD 5) ∧ (t.coreOf k).pc = sget 0 (s.coreOf k).regs (trapBase + 8)) ∧
  (∀ (k : CoreRef) (r : RForm) (st : V24) (s : State), s.mayRun k 1 → (s.coreOf k).tw = true → r.rd = 0 → r.rs1 = 0 → r.rs2
    = 0 → r.fn = 1 → st = sget 0 (s.coreOf k).regs (trapBase + 9) → ∃ t, exec (.tret k r) s = .next t ∧ (t.coreOf k).tw =
    false ∧ (t.coreOf k).z = st.getLsbD 0 ∧ (t.coreOf k).n = st.getLsbD 1 ∧ (t.coreOf k).c = st.getLsbD 2 ∧ (t.coreOf k).v =
    st.getLsbD 3 ∧ (t.coreOf k).sats = ((s.coreOf k).sats || st.getLsbD 4) ∧ (t.coreOf k).dzs = ((s.coreOf k).dzs || decide
    ((s.coreOf k).tc = 3) || st.getLsbD 5) ∧ (t.coreOf k).pc = sget 0 (s.coreOf k).regs (trapBase + 8) + BitVec.ofNat 24
    (wordLen (sget 0 (s.coreOf k).regs (trapBase + 11))))

/-- A scan starts on a die in RUN with every due task at the head of its core and an empty journal; its commit exchanges
the banks, so that the journal of the scan stands, the sequence advances and the stamps are taken; a scan past its
limit is skipped and leaves no trace in the variables; a retain write that reads back makes its slot good. (R121,
R123, R124, R126, R131) -/
def Obligations.ScansTakeEffect : Prop :=
  (∀ (d : Die) (g : LogicImage) (c : Nat) (s : State), (s.die d.val).image = some g → (s.die d.val).mode = .run → (s.die
    d.val).inScan = false → s.dieUp d.val = true → c < 4 → (s.die d.val).holding = none → ∃ t, exec (.scanStart d) s = .next
    t ∧ (t.die d.val).inScan = true ∧ (t.die d.val).journal = [] ∧ (t.die d.val).scanTick = s.tick ∧ (t.die d.val).ran =
    (imgDue g ((s.die d.val).seq + 1)).map (·.no) ∧ (t.core d.val c).task = (((imgDue g ((s.die d.val).seq + 1)).filter
    (·.core == c)).map (·.no)).head?) ∧
  (∀ (d : Die) (us : Nat) (g : LogicImage) (s : State), (s.die d.val).image = some g → (s.die d.val).mode = .run → (s.die
    d.val).inScan = true → (List.range 4).all (fun c => (s.core d.val c).task.isNone) = true → (s.die d.val).pend = false →
    (s.die d.val).queue = [] → ∃ t, exec (.scanCommit d us) s = .next t ∧ (t.die d.val).vars = sputs (s.die d.val).vars
    (s.die d.val).journal ∧ (t.die d.val).seq = (s.die d.val).seq + 1 ∧ (t.die d.val).startTick = (s.die d.val).scanTick ∧
    (t.die d.val).commitTick = s.tick ∧ (t.die d.val).inScan = false ∧ (t.die d.val).journal = [] ∧ (t.die d.val).scanLast =
    w32 us) ∧
  (∀ (d : Die) (s : State), (s.die d.val).mode = .run → (s.die d.val).inScan = true → (s.die d.val).holding = none → (s.die
    d.val).limitOver s.now = true → s.commitDue d.val = false → (s.die d.val).queue = [] → ∃ t, exec (.scanLimitExpiry d) s
    = .next t ∧ (t.die d.val).inScan = false ∧ (t.die d.val).skips = addW (s.die d.val).skips 1 ∧ (t.die d.val).journal = []
    ∧ (t.die d.val).vars = (s.die d.val).vars ∧ (t.die d.val).seq = (s.die d.val).seq) ∧
  (∀ (d : Die) (readBack : Bool) (s : State), (s.die d.val).writing = some false → readBack = true → ∃ t, exec
    (.retainWriteComplete d readBack) s = .next t ∧ (t.die d.val).slotA = { (s.die d.val).writeData with good := true } ∧
    (t.die d.val).slotB = (s.die d.val).slotB ∧ (t.die d.val).writing = none) ∧
  (∀ (d : Die) (readBack : Bool) (s : State), (s.die d.val).writing = some true → readBack = false → ∃ t, exec
    (.retainWriteComplete d readBack) s = .next t ∧ (t.die d.val).slotB = { (s.die d.val).writeData with good := false } ∧
    (t.die d.val).slotA = (s.die d.val).slotA ∧ (t.die d.val).writing = none)

/-- A loop of a die that is up samples at its tick: with good values it evaluates its active bank and latches the output
for its boundary, with a bad process value the output holds with QUAL uncertain, and under HOLD with HOLDF it stands
still; the output that is due is applied to its analog output or to its cell; the analog words that were sent take
effect. (R165, R166, R167, R168, R170, R171, R172, R173, R176, R188) -/
def Obligations.LoopsTakeEffect : Prop :=
  (∀ (d : Die) (n : LoopNo) (late : Fin 4) (x : LoopSlot) (c : LoopCfg) (p u : Int) (y : Eval) (s : State), (s.loop d.val
    n.val) = x → x.cfg = some c → s.dieUp d.val = true → c.outer = false → c.sp = .const → c.loc = false → s.now % c.div =
    c.phase → x.lastAt ≠ some s.now → s.loopHeld d.val c = false → x.pending = false → (s.lpe d.val).units = [] → late = 0 →
    s.loopPv d.val c = { v := p, q := .good } → x.uPrev = some u → y = x.eval p x.spc.toInt none u (s.loopForced c) → ∃ t,
    exec (.loopSample d n late) s = .next t ∧ (t.loop d.val n.val).latches = x.latches ++
    [{ due := s.now + c.div, value := BitVec.ofInt 24 y.u, qual := .good, late := false }] ∧ (t.loop d.val n.val).s1 =
    y.slot.s1 ∧ (t.loop d.val n.val).s2 = y.slot.s2 ∧ (t.loop d.val n.val).uPrev = some y.u ∧ (t.loop d.val n.val).lastAt =
    some s.now ∧ (t.loop d.val n.val).count = x.count + 1) ∧
  (∀ (d : Die) (n : LoopNo) (late : Fin 4) (x : LoopSlot) (c : LoopCfg) (u : Int) (s : State), (s.loop d.val n.val) = x →
    x.cfg = some c → s.dieUp d.val = true → c.outer = false → c.sp = .const → c.loc = false → s.now % c.div = c.phase →
    x.lastAt ≠ some s.now → s.loopHeld d.val c = false → x.pending = false → (s.lpe d.val).units = [] → late = 0 → (s.loopPv
    d.val c).q = .bad → x.uPrev = some u → ∃ t, exec (.loopSample d n late) s = .next t ∧ (t.loop d.val n.val).latches =
    x.latches ++ [{ due := s.now + c.div, value := BitVec.ofInt 24 u, qual := .uncertain, late := false }] ∧ (t.loop d.val
    n.val).pvbad = true ∧ (t.loop d.val n.val).s1 = x.s1 ∧ (t.loop d.val n.val).s2 = x.s2) ∧
  (∀ (d : Die) (n : LoopNo) (late : Fin 4) (x : LoopSlot) (c : LoopCfg) (s : State), (s.loop d.val n.val) = x → x.cfg = some
    c → s.dieUp d.val = true → c.outer = false → s.now % c.div = c.phase → x.lastAt ≠ some s.now → c.holdf = true → (s.die
    d.val).mode = .hold → ∃ t, exec (.loopSample d n late) s = .next t ∧ t.loop d.val n.val =
    { x with latches := [], lastAt := some s.now }) ∧
  (∀ (d : Die) (n : LoopNo) (x : LoopSlot) (c : LoopCfg) (k : Nat) (l : Latch) (s : State), s.dieUp d.val = true → s.loop
    d.val n.val = x → x.cfg = some c → c.outer = false → c.loc = false → c.sp = .const → c.dst = .aout k none → s.loopHeld
    d.val c = false → x.latches = [l] → l.due = s.now → l.late = false → s.fio.safe = false → ∃ t, exec (.loopOutputApply d
    n) s = .next t ∧ sget 0 t.fio.aouts k = l.value ∧ (t.loop d.val n.val).out = l.value ∧ (t.loop d.val n.val).outQual =
    l.qual ∧ (t.loop d.val n.val).latches = []) ∧
  (∀ (d : Die) (n : LoopNo) (x : LoopSlot) (c : LoopCfg) (m : Nat) (l : Latch) (e : Desc) (s : State), s.dieUp d.val = true
    → s.loop d.val n.val = x → x.cfg = some c → c.outer = false → c.loc = false → c.sp = .const → c.dst = .cell m →
    s.loopHeld d.val c = false → x.latches = [l] → l.due = s.now → l.late = false → s.desc? m = some e → e.fbk = false →
    (s.cell m).forced = false → ∃ t, exec (.loopOutputApply d n) s = .next t ∧ (t.cell m).value = l.value ∧ (t.cell m).qual
    = l.qual ∧ (t.cell m).src = .loop ∧ (t.loop d.val n.val).latches = []) ∧
  (∀ (s : State), s.fio.safe = false → s.localSlots = [] → ∃ t, exec (.localLoopOutput) s = .next t ∧ t.fio.aouts = sputs
    s.fio.aouts s.fio.aoNext ∧ t.fio.aoNext = [])

/-- Link loss and the watchdog enter SAFE with its cause and switch off the outputs whose safe state is off; power-up
leaves the controller unconfigured and in SAFE; an input is filtered by its counter; channel and analog points fall
due for the next batch; a pulse counts; a short circuit, a thermal trip and a group overload switch the channel off
with its fault; retries wait for their time and for cooling, and then for a window of their group; a supply sample
sets MISSING; a self-test pass starts and records its results. (R188, R190, R192, R193, R194, R195, R196, R197,
R198, R199, R200) -/
def Obligations.FieldInputsAndOutputsTakeEffect : Prop :=
  (∀ (s : State), s.fio.safe = true → ∃ t, exec (.fioLinkLoss) s = .next t ∧ t.fio.linkUp = false ∧ t.fio.safe = true ∧
    t.fio.cause = s.fio.cause) ∧
  (∀ (c : Nat) (s : State), s.fio.safe = false → s.outChans.contains c = true → (s.ccfg c).safe = .off → ∃ t, exec
    (.fioLinkLoss) s = .next t ∧ t.fio.linkUp = false ∧ t.fio.safe = true ∧ t.fio.cause = 3 ∧ (t.chan c).on = false ∧
    (t.chan c).cmd = false) ∧
  (∀ (s : State), s.su.phase = .running → s.fio.wdLogic = false → s.fio.linkUp = true → ∃ t, exec (.watchdogRefresh) s =
    .next t ∧ t.fio.refreshed = s.now ∧ t.fio.linkUp = true ∧ t.fio.safe = s.fio.safe) ∧
  (∀ (s : State), s.su.phase = .running → s.fio.wdLogic = false → s.fio.linkUp = false → s.fio.configured = true → ∃ t, exec
    (.watchdogRefresh) s = .next t ∧ t.fio.refreshed = s.now ∧ t.fio.linkUp = true ∧ t.fio.safe = false) ∧
  (∀ (c : Nat) (s : State), s.fio.safe = false → s.fio.refreshed + msTicks s.fio.wdTmo ≤ s.now → s.outChans.contains c =
    true → (s.ccfg c).safe = .off → ∃ t, exec (.fioWatchdogExpiry) s = .next t ∧ t.fio.wdExp = addW s.fio.wdExp 1 ∧
    t.fio.safe = true ∧ t.fio.cause = 1 ∧ (t.chan c).on = false ∧ (t.chan c).cmd = false) ∧
  (∀ (s : State), ∃ t, exec (.fioControllerPowerUp) s = .next t ∧ t.fio.configured = false ∧ t.fio.safe = true ∧ t.fio.cause
    = 4 ∧ t.fio.linkUp = false ∧ t.fio.chans = [] ∧ t.fio.aouts = [] ∧ t.fio.irqStat.getLsbD 5 = true ∧ t.fio.wdTmo =
    s.fio.wdTmo) ∧
  (∀ (c : Chan) (high : Bool) (x : ChanSt) (s : State), s.isOut c.val = false → s.isPulse c.val = false → s.chan c.val = x →
    ∃ t, exec (.inputRawChange c high) s = .next t ∧ t.chan c.val =
    { x with raw := high, sampling := (if high then x.integ != (s.ccfg c.val).ftop else x.integ != 0) }) ∧
  (∀ (c : Chan) (x : ChanSt) (s : State), s.chan c.val = x → x.sampling = true → x.stBusy = false → x.raw = true → x.integ +
    1 < (s.ccfg c.val).ftop → ∃ t, exec (.inputFilterSample c) s = .next t ∧ (t.chan c.val).integ = x.integ + 1 ∧ (t.chan
    c.val).filt = x.filt ∧ (t.chan c.val).sampling = true) ∧
  (∀ (c : Chan) (x : ChanSt) (s : State), s.chan c.val = x → x.sampling = true → x.stBusy = false → x.raw = true → x.filt =
    false → x.integ + 1 = (s.ccfg c.val).ftop → ∃ t, exec (.inputFilterSample c) s = .next t ∧ (t.chan c.val).integ =
    x.integ + 1 ∧ (t.chan c.val).filt = true ∧ (t.chan c.val).sampling = false ∧ (t.chan c.val).dirty = true) ∧
  (∀ (c : Chan) (x : ChanSt) (s : State), s.chan c.val = x → x.sampling = true → x.stBusy = false → x.raw = false → x.filt =
    true → x.integ = 1 → 0 < (s.ccfg c.val).ftop → ∃ t, exec (.inputFilterSample c) s = .next t ∧ (t.chan c.val).integ = 0 ∧
    (t.chan c.val).filt = false ∧ (t.chan c.val).sampling = false ∧ (t.chan c.val).dirty = true) ∧
  (∀ (analog : Bool) (s : State), s.fio.linkUp = true → analog = false → ∃ t, exec (.inputPointRefresh analog) s = .next t ∧
    t.fio = { s.fio with chanDue := true }) ∧
  (∀ (analog : Bool) (s : State), s.fio.linkUp = true → analog = true → ∃ t, exec (.inputPointRefresh analog) s = .next t ∧
    t.fio = { s.fio with ainDue := true }) ∧
  (∀ (c : Chan) (s : State), s.isPulse c.val = true → ∃ t, exec (.pulseEdge c) s = .next t ∧ (t.chan c.val).count = (s.chan
    c.val).count + 1 ∧ (t.chan c.val).dirty = true) ∧
  (∀ (c : Chan) (limiting : Bool) (x : ChanSt) (s : State), s.chan c.val = x → x.on = true → x.blanking = true → limiting =
    false → x.retrying = false → ∃ t, exec (.blankingEnd c limiting) s = .next t ∧ t.chan c.val =
    { x with blanking := false, curlim := false }) ∧
  (∀ (c : Chan) (limiting : Bool) (x : ChanSt) (s : State), s.chan c.val = x → x.on = true → x.blanking = true → limiting =
    true → ∃ t, exec (.blankingEnd c limiting) s = .next t ∧ (t.chan c.val).on = false ∧ (t.chan c.val).short = true ∧
    t.fio.shorts = addW s.fio.shorts 1) ∧
  (∀ (c : Chan) (limiting : Bool) (x : ChanSt) (s : State), s.chan c.val = x → x.on = true → x.blanking = true → limiting =
    false → x.retrying = true → ∃ t, exec (.blankingEnd c limiting) s = .next t ∧ t.chan c.val =
    { x with blanking := false, curlim := false, retrying := false, retryPend := false, short := false, thermal := false, elapsed := false })
    ∧
  (∀ (c : Chan) (s : State), (s.chan c.val).on = true → (s.chan c.val).blanking = false → ∃ t, exec (.overcurrentDetect c)
    s = .next t ∧ (t.chan c.val).on = false ∧ (t.chan c.val).short = true ∧ (t.chan c.val).retryPend = ((s.ccfg c.val).retry
    && !s.motionOwns c.val) ∧ t.fio.shorts = addW s.fio.shorts 1) ∧
  (∀ (c : Chan) (x : ChanSt) (s : State), s.chan c.val = x → x.on = true → x.blanking = true → ∃ t, exec (.overcurrentDetect
    c) s = .next t ∧ t.chan c.val = { x with curlim := true }) ∧
  (∀ (c : Chan) (s : State), (s.chan c.val).on = true → ∃ t, exec (.thermalTrip c) s = .next t ∧ (t.chan c.val).on = false
    ∧ (t.chan c.val).thermal = true ∧ (t.chan c.val).cooled = false ∧ (t.chan c.val).retryPend = ((s.ccfg c.val).retry &&
    !s.motionOwns c.val)) ∧
  (∀ (c : Chan) (x : ChanSt) (s : State), s.chan c.val = x → x.retryPend = true → x.on = false → x.cooled = false → ∃ t,
    exec (.retryTimerExpiry c) s = .next t ∧ t.chan c.val = { x with elapsed := true }) ∧
  (∀ (c : Chan) (x : ChanSt) (s : State), s.chan c.val = x → x.retryPend = true → x.on = false → x.cooled = true → (s.group
    (c.val / 16)).retryQ = [] → ∃ t, exec (.retryTimerExpiry c) s = .next t ∧ t.chan c.val = { x with elapsed := true } ∧
    (t.group (c.val / 16)).retryQ = [(max (s.group (c.val / 16)).freeAt s.now, c.val)]) ∧
  (∀ (c : Chan) (x : ChanSt) (s : State), s.chan c.val = x → x.elapsed = false → ∃ t, exec (.junctionCooled c) s = .next t ∧
    t.chan c.val = { x with cooled := true }) ∧
  (∀ (c : Chan) (x : ChanSt) (s : State), s.chan c.val = x → x.retryPend = true → x.elapsed = true → x.cooled = false → x.on
    = false → (s.group (c.val / 16)).retryQ = [] → ∃ t, exec (.junctionCooled c) s = .next t ∧ t.chan c.val =
    { x with cooled := true } ∧ (t.group (c.val / 16)).retryQ = [(max (s.group (c.val / 16)).freeAt s.now, c.val)]) ∧
  (∀ (g : Fin 4) (c : Nat) (s : State), s.latestOn g.val = some c → ∃ t, exec (.groupOverloadDetect g) s = .next t ∧ (t.chan
    c).on = false ∧ (t.chan c).groupOvl = true ∧ (t.chan c).latched = true ∧ (t.chan c).retryPend = false) ∧
  (∀ (volts currents : List Nat) (g mv : Nat) (x : Group) (s : State), g < 4 → mv = volts.getD g 0 → s.group g = x → ∃ t,
    exec (.supplySample volts currents) s = .next t ∧ (t.group g).volt = mv ∧ (t.group g).current = currents.getD g 0 ∧
    (t.group g).missing = (if x.missing then decide ((if 9500 < mv then x.above + 1 else 0) < 10) else decide (2 ≤ (if mv <
    9000 then x.below + 1 else 0))) ∧ (t.group g).low = (if x.low then decide (mv ≤ 100 * x.thr + 500) else decide (mv < 100
    * x.thr))) ∧
  (∀ (c : Nat) (s : State), s.fio.stInt ≠ 0 → s.fio.pass = none → s.fio.stAt + secTicks s.fio.stInt ≤ s.now →
    s.fio.configured = true → s.stNext 0 = some c → ∃ t, exec (.selftestPassStart) s = .next t ∧ t.fio.pass = some c ∧
    (t.chan c).stBusy = true ∧ t.fio.stAt = s.now) ∧
  (∀ (c : Chan) (bad : Bool) (s : State), s.fio.pass = some c.val → s.stSkips c.val = false → s.isOut c.val = false → ∃ t,
    exec (.selftestSlot c bad) s = .next t ∧ (t.chan c.val).inFail = bad ∧ (t.chan c.val).openLoad = (s.chan
    c.val).openLoad) ∧
  (∀ (c : Chan) (bad : Bool) (s : State), s.fio.pass = some c.val → s.stSkips c.val = false → s.isOut c.val = true →
    (s.chan c.val).on = false → ∃ t, exec (.selftestSlot c bad) s = .next t ∧ (t.chan c.val).openLoad = bad ∧ (t.chan
    c.val).inFail = (s.chan c.val).inFail)

/-- A coast ends and is measured; after the dead time the waiting move begins; a move past its time and a drive without
pulses hold their fault; a changed target point is a command; a metering second closes with its totals in the older
slot; a zero crossing begins a half cycle, and the next one ends it with the points of its phase; a crossing begins
a harmonic window, and the one that completes its cycles stores the orders of its inputs; the self-test of an input
is connected, judged and goes on. (R203, R205, R207, R208, R212, R217, R219, R222, R223, R227) -/
def Obligations.MotionAndMeteringTakeEffect : Prop :=
  (∀ (m : MotNo) (c : MotCfg) (x : Motion) (h : Bool) (s : State), s.motCfg? m.val = some c → s.mot m.val = x → x.state =
    .coasting → x.next = none → x.fault = 0 → x.lastLeg = some h → c.pulse = true → ∃ t, exec (.coastEnd m) s = .next t ∧
    (t.mot m.val).state = .idle ∧ (t.mot m.val).lastC = x.coast % 65536 ∧ (t.mot m.val).lastDir = h ∧ (t.mot m.val).lastAcc
    = coastOk c x h ∧ (t.mot m.val).learnRej = !coastOk c x h) ∧
  (∀ (m : MotNo) (s : State), (s.mot m.val).dtPend = true → (s.mot m.val).state = .idle → ∃ t, exec (.deadTimeExpiry m) s =
    .next t ∧ t.mot m.val = { s.mot m.val with dtPend := false }) ∧
  (∀ (m : MotNo) (s : State), (s.mot m.val).dtPend = true → (s.mot m.val).state = .dead → (s.mot m.val).next = some
    .homeLimit → s.limitOn m.val true = false → (s.chan (legCh m.val false)).on = false → (s.group 3).missing = false → ∃ t,
    exec (.deadTimeExpiry m) s = .next t ∧ (t.mot m.val).state = .home ∧ (t.mot m.val).dtPend = false ∧ (t.mot m.val).goal =
    some .homeLimit ∧ (t.chan (legCh m.val true)).on = true) ∧
  (∀ (m : MotNo) (s : State), (s.mot m.val).state = .far → ∃ t, exec (.moveTimeout m) s = .next t ∧ (t.mot m.val).fault = 3
    ∧ (t.mot m.val).state = .coasting ∧ (t.mot m.val).next = none ∧ (t.chan (legCh m.val false)).on = false) ∧
  (∀ (m : MotNo) (c : MotCfg) (s : State), (s.mot m.val).state = .far → s.motCfg? m.val = some c → c.pulse = true → ∃ t,
    exec (.pulseLossTimeout m) s = .next t ∧ (t.mot m.val).fault = 6 ∧ (t.mot m.val).homed = false ∧ (t.mot m.val).state =
    .coasting ∧ (t.chan (legCh m.val false)).on = false) ∧
  (∀ (m : MotNo) (c : MotCfg) (p : Nat) (s : State), s.motCfg? m.val = some c → c.target = some p → sfind s.fio.targets
    m.val ≠ some 0x800001 → (s.cell p).value = 0x800001 → (s.mot m.val).state = .far → ∃ t, exec (.motionTargetChange m) s =
    .next t ∧ sfind t.fio.targets m.val = some 0x800001 ∧ (t.mot m.val).state = .coasting ∧ (t.mot m.val).next = none) ∧
  (∀ (s : State), s.mtr.running = true → 16000 ≤ s.mtr.tau → s.mtr.connected = false ∨ s.mtr.stNext.isSome = true → ∃ t,
    exec (.meteringSecondEnd) s = .next t ∧ t.mtr.tau = 0 ∧ t.mtr.sec = s.mtr.sec + 1 ∧ t.mtr.count = s.mtr.count + 1 ∧
    t.mtr.lastSlot = !s.mtr.lastSlot ∧ (if s.mtr.lastSlot then t.mtr.slotA else t.mtr.slotB).good = true ∧ (if
    s.mtr.lastSlot then t.mtr.slotA else t.mtr.slotB).count = s.mtr.count + 1 ∧ t.mtr.connected = false ∧
    t.mtr.irqStat.getLsbD 0 = true) ∧
  (∀ (v : Fin 6) (x : Nat) (s : State), (s.crossNow v.val true).or (s.crossNow v.val false) = some x → sfind s.mtr.halfAt
    v.val = none → ∃ t, exec (.halfCycleEnd v) s = .next t ∧ sfind t.mtr.halfAt v.val = some x ∧ t.pnt = s.pnt) ∧
  (∀ (v : Fin 6) (x a m : Nat) (c : CircuitCfg) (e : Desc) (w : V24) (s : State), s.mtr.running = true → (s.crossNow v.val
    true).or (s.crossNow v.val false) = some x → sfind s.mtr.halfAt v.val = some a → a < x → s.cfg.circuits = [c] → c.three
    = false → 1 ≤ c.phase → 3 * c.set + c.phase - 1 = v.val → (s.vset (v.val / 3)).vbad.getLsbD (v.val % 3) = false →
    s.mtrPoints c.k (fun q => q == 1 || q == 3) = [(m, e, 0, 1)] → s.tested (touching c) a = false → (s.minput v.val).calBad
    = false → pointValue (rmsOf (sumSq (s.spanFrom v.val a (x - a))) (x - a) (s.mcfg v.val).ratio.toNat) 1000 e.exp = (w,
    false) → s.desc? m = some e → e.fbk = false → (s.cell m).forced = false → ∃ t, exec (.halfCycleEnd v) s = .next t ∧
    sfind t.mtr.halfAt v.val = some x ∧ (t.cell m).value = w ∧ (t.cell m).qual = .good ∧ (t.cell m).src = .field) ∧
  (∀ (set : Fin 2) (x : Nat) (s : State), s.mtr.running = true → (s.vset set.val).vbad.getLsbD 0 = false → s.crossNow (3 *
    set.val) true = some x → sfind s.mtr.harmAt set.val = none → ∃ t, exec (.harmonicWindowEnd set) s = .next t ∧ sfind
    t.mtr.harmAt set.val = some x ∧ t.mtr.inputs = s.mtr.inputs) ∧
  (∀ (set : Fin 2) (x a c : Nat) (s : State), s.mtr.running = true → (s.vset set.val).vbad.getLsbD 0 = false → s.crossNow (3
    * set.val) true = some x → sfind s.mtr.harmAt set.val = some a → (upCross (s.pastHyst (3 * set.val)) 0 false false 0
    (s.spanFrom (3 * set.val) a (s.now + 1 - a))).length = s.harmCycles set.val → s.harmTested set.val c a = false →
    (s.harmInputs set.val).contains c = true → ∃ t, exec (.harmonicWindowEnd set) s = .next t ∧ sfind t.mtr.harmAt set.val =
    some x ∧ (t.minput c).harm = s.harmonics set.val c a (x - a)) ∧
  (∀ (s : State), s.mtr.stInt ≠ 0 → s.mtr.stNext = none → s.mtr.stAt + secTicks (60 * s.mtr.stInt) ≤ s.now → ∃ t, exec
    (.mtrSelftestTimer) s = .next t ∧ t.mtr.stActive = true ∧ t.mtr.stNext = some 0 ∧ t.mtr.stAt = s.now ∧ t.mtr.connected =
    s.mtr.connected) ∧
  (∀ (c : Nat) (s : State), s.mtr.stNext = some c → s.mtr.running = true → 4000 ≤ s.mtr.tau → s.mtr.tau < 7200 →
    s.mtr.connected = false → ∃ t, exec (.meterSelftestConnect) s = .next t ∧ t.mtr.connected = true ∧ t.mtr.stInput =
    BitVec.ofNat 6 c ∧ t.mtr.stNext = some c) ∧
  (∀ (c : Nat) (fail : Bool) (s : State), s.mtr.stNext = some c → c ≠ 53 → s.mtr.connected = true → 7200 ≤ s.mtr.tau → fail
    = decide (2 * 2 ^ 20 < (s.gainDev c).natAbs * 1000) → ∃ t, exec (.meterSelftestDisconnect) s = .next t ∧ t.mtr.connected
    = false ∧ t.mtr.stNext = some (c + 1) ∧ t.mtr.stActive = true ∧ t.mtr.stLast = w32 (c + flag (!fail) 6 + 256 *
    (BitVec.ofInt 24 (s.gainDev c)).toNat) ∧ t.mtr.stFails = (if fail then addW s.mtr.stFails 1 else s.mtr.stFails))

/-- A page that gets a new owner reads as zeros with good tags, and keeps its owner when it is mapped as well, with the
invalidation that goes with the mapping; an invalidation completes once no channel that moves holds bytes in its
write buffer; the DMA engine serves its next channel: an aborted channel ends with its reason, and an element is
read through the translation unit and handed to the engine port. (R233, R235, R240, R244, R245, R246, R247, R248) -/
def Obligations.MemoryAndDmaTakeEffect : Prop :=
  (∀ (d : Die) (page : Nat) (owner : Tenant) (map : Option PageMap) (p : Nat) (s : State), d.val < s.nDies → page < 0xE0000
    → map = none → p = d.val * 2 ^ 24 + page → s.owner p ≠ owner → Memory.wf s.mem = true → ∃ t, exec (.pageOwnerAssign d
    page owner map) s = .next t ∧ t.owner p = owner ∧ (∀ i < 4096, memGet t.mem (4096 * p + i) = 0) ∧ (∀ i < 64, (t.tag (64
    * p + i)).ok = true) ∧ (∀ a, a / 4096 ≠ p → memGet t.mem a = memGet s.mem a)) ∧
  (∀ (d : Die) (page : Nat) (owner : Tenant) (map : Option PageMap) (p : Nat) (q : PageMap) (s : State), d.val < s.nDies →
    page < 0xE0000 → p = d.val * 2 ^ 24 + page → map = some q → owner ≠ 0xFFF → ∃ t, exec (.pageOwnerAssign d page owner
    map) s = .next t ∧ t.owner p = owner ∧ (s.owner p ≠ owner → ∀ i < 64, (t.tag (64 * p + i)).ok = true) ∧ (q.inv = 3 →
    (t.atu d.val).tlb = [] ∧ (t.atu d.val).invBusy = true)) ∧
  (∀ (d : Die) (s : State), (s.atu d.val).invBusy = true → (List.range 16).all (fun c => (s.dch d.val c).wbLine.isNone ||
    s.dmaStopped d.val c) = true → ∃ t, exec (.invalidationComplete d) s = .next t ∧ (t.atu d.val).invBusy = false ∧ (t.atu
    d.val).irqStat.getLsbD 3 = true ∧ (t.atu d.val).tlb = (s.atu d.val).tlb) ∧
  (∀ (d : Die) (bus : Option DmaAccess) (c : Nat) (x : DmaCh) (s : State), (s.lpe d.val).units = [] → s.nextChan d.val =
    some c → (s.dma d.val).last = none → s.dch d.val c = x → x.abort = true → x.retrying = false → x.wbLine = none → ∃ t,
    exec (.dmaElement d bus) s = .next t ∧ t.dch d.val c =
    { x with used := 0, abort := false, state := .done, reason := 6, cur := none } ∧ t.mem = s.mem) ∧
  (∀ (d : Die) (bus : Option DmaAccess) (c : Nat) (x : DmaCh) (de : Descriptor) (sa n page : Nat) (e : Pte) (pa : Nat) (s :
    State), (s.lpe d.val).units = [] → s.nextChan d.val = some c → (s.dma d.val).last = none → s.dch d.val c = x → x.abort =
    false → bus = none → x.cur = some de → de.mode = 0 → de.srcSp = 0 → de.dstSp = 2 → sa = de.src + x.off → n = min
    (de.count - x.off) (min (64 - sa % 64) (64 - (de.dst + x.off) % 64)) → x.off + n < de.count → sa + n ≤ 2 ^ 36 → s.mapped
    d.val x.ctx.toNat sa page e → pa = 4096 * page + sa % 4096 → (s.tag (pa / 64)).ok = true → ∃ t, exec (.dmaElement d bus)
    s = .next t ∧ (t.dma d.val).port = (s.dma d.val).port ++ memGets s.mem pa n ∧ (t.dch d.val c).off = x.off + n ∧ (t.dch
    d.val c).el = x.el + 1 ∧ (t.dch d.val c).state = .running ∧ (t.dma d.val).last = some c ∧ t.mem = s.mem) ∧
  (∀ (d : Die) (bus : Option DmaAccess) (c : Nat) (x : DmaCh) (de : Descriptor) (page : Nat) (e : Pte) (p page' : Nat) (e' :
    Pte) (q : Nat) (s : State), (s.lpe d.val).units = [] → s.nextChan d.val = some c → (s.dma d.val).last = none → s.dch
    d.val c = x → x.abort = false → bus = none → x.wbLine = none → x.wbBytes = [] → x.cur = some de → de.mode = 0 → de.srcSp
    = 0 → de.dstSp = 0 → x.off + 64 < de.count → (de.src + x.off) % 64 = 0 → (de.dst + x.off) % 64 = 0 → de.src + x.off + 64
    ≤ 2 ^ 36 → de.dst + x.off + 64 ≤ 2 ^ 36 → s.mapped d.val x.ctx.toNat (de.src + x.off) page e → p = 4096 * page + (de.src
    + x.off) % 4096 → (s.tag (p / 64)).ok = true → s.mapped d.val x.ctx.toNat (de.dst + x.off) page' e' → e'.w = true → q =
    4096 * page' + (de.dst + x.off) % 4096 → Memory.wf s.mem = true → ∃ t, exec (.dmaElement d bus) s = .next t ∧ memGets
    t.mem q 64 = memGets s.mem p 64 ∧ (∀ a, a / 64 ≠ q / 64 → memGet t.mem a = memGet s.mem a) ∧ (t.tag (q / 64)).ok = true
    ∧ (t.dch d.val c).off = x.off + 64 ∧ (t.dch d.val c).state = .running)

/-- A secured frame that verifies is taken in and one that does not is counted; the oldest READ is granted when its
record passes every step and refused when no record matches; an offline grant moves the credential; TIME is sent
under the next counter, and to a node without a key nothing; forgiveness forgets a location; a lockout, an unlock
time and a floor set end; a node acts on a secured message that it accepts, discards one that it does not, and
decides from its cache in fallback. (R332, R342, R344, R346, R347, R348, R349, R350, R41) -/
def Obligations.AccessCommandsTakeEffect : Prop :=
  (∀ (p : Port) (addr : Byte) (f : SecureFrame) (c : NodeCfg) (k : BitVec 256) (reader method : Byte) (cid : Uid) (seq :
    Byte) (s : State), (s.port p.val).running = true → s.nodeCfg? p.val addr.toNat = some c → c.secured = true → ((s.port
    p.val).node addr.toNat).key = some k → f.kgen = ((s.port p.val).node addr.toNat).kgen → ((s.port p.val).node
    addr.toNat).ctrIn < f.ctr → f.ctr < 2 ^ 31 → f.dir = 1 → f.body = secureSeal k c.uid 0 addr f.tc f.kgen 1 f.ctr f.inner
    → f.inner = .read reader method cid seq → ∃ t, exec (.branchRxSecure p addr f) s = .next t ∧ t.sec.reads = s.sec.reads
    ++ [{ port := p.val, addr := addr.toNat, reader := reader, method := method, cid := cid, seq := seq, tick := s.now }] ∧
    ((t.port p.val).node addr.toNat).ctrIn = f.ctr ∧ t.sec.secureFail = s.sec.secureFail) ∧
  (∀ (p : Port) (addr : Byte) (f : SecureFrame) (n : CtlNode) (s : State), (s.port p.val).running = true → (s.port
    p.val).node addr.toNat = n → tagOk (keyFor n.kgen n.prevOk n.key n.prevKey f.kgen) (s.nodeUid p.val addr.toNat) 0 addr 1
    f = false ∨ f.ctr ≤ n.ctrIn → ∃ t, exec (.branchRxSecure p addr f) s = .next t ∧ t.sec.secureFail = addW
    s.sec.secureFail 1 ∧ t.sec.reads = s.sec.reads ∧ t.sec.offlines = s.sec.offlines ∧ ((t.port p.val).node addr.toNat) = n)
    ∧
  (∀ (q : ReadReq) (l : List ReadReq) (c : DoorCfg) (i : Nat) (r : Cred) (s : State), s.sec.reads = q :: l → s.readerDoor
    q.port q.addr q.reader.toNat = some c → s.matching q.cid = [(i, r)] → s.judgeRecord c q.method i r = 0 → ∃ t, exec
    (.read) s = .next t ∧ t.sec.reads = l ∧ t.sec.grants = addW s.sec.grants 1 ∧ t.sec.refusals = s.sec.refusals ∧ (t.door
    c.door).unlocked = true ∧ (t.door c.door).lockAt = some (s.now + 1600 * c.unlockT) ∧ (t.door c.door).last = w32 i ∧
    sfind t.sec.locs i = some (c.toArea, s.now)) ∧
  (∀ (q : ReadReq) (l : List ReadReq) (c : DoorCfg) (s : State), s.sec.reads = q :: l → s.readerDoor q.port q.addr
    q.reader.toNat = some c → s.matching q.cid = [] → ∃ t, exec (.read) s = .next t ∧ t.sec.reads = l ∧ t.sec.refusals =
    addW s.sec.refusals 1 ∧ t.sec.grants = s.sec.grants ∧ t.sec.doors = s.sec.doors ∧ t.sec.locs = s.sec.locs) ∧
  (∀ (q : OfflineReq) (l : List OfflineReq) (c : DoorCfg) (i : Nat) (r : Cred) (s : State), s.sec.offlines = q :: l →
    s.readerDoor q.port q.addr q.reader.toNat = some c → s.matching q.cid = [(i, r)] → credAdmits r c = true → q.unlocked =
    true → ∃ t, exec (.offline) s = .next t ∧ t.sec.offlines = l ∧ sfind t.sec.locs i = some (c.toArea, s.now) ∧ t.sec.doors
    = s.sec.doors) ∧
  (∀ (n : NodeCfg) (x : CtlNode) (k : BitVec 256) (s : State), s.sec.timeAt + secTicks 60 ≤ s.now → s.time.utcOk = true →
    s.cfg.nodes = [n] → n.secured = true → n.cls = 5 → (s.port n.port).running = true → x = (s.port n.port).node n.addr →
    x.key = some k → x.ctrOut + 1 < 2 ^ 31 → ∃ t, exec (.timeMessageSend) s = .next t ∧ t.sec.timeAt = s.now ∧ ((t.port
    n.port).node n.addr).ctrOut = x.ctrOut + 1 ∧ (t.port n.port).queue 0 = (s.port n.port).queue 0 ++
    [{ dst := BitVec.ofNat 8 n.addr, payload := .secure x.kgen (x.ctrOut + 1) (.time s.utcNow s.time.offset) (secureSeal k n.uid (BitVec.ofNat 8 n.addr) 0 secureTc x.kgen 0 (x.ctrOut + 1) (.time s.utcNow s.time.offset)) }])
    ∧
  (∀ (n : NodeCfg) (s : State), s.sec.timeAt + secTicks 60 ≤ s.now → s.cfg.nodes = [n] → ((s.port n.port).node n.addr).key =
    none → ∃ t, exec (.timeMessageSend) s = .next t ∧ t.sec.timeAt = s.now ∧ t.ports = s.ports) ∧
  (∀ (idx : BitVec 20) (area a : Nat) (s : State), sfind s.sec.locs idx.toNat = some (area, a) → s.cfg.doors.any (fun c =>
    c.toArea == area && c.forgive != 0 && a + 960000 * c.forgive ≤ s.now) = true → ∃ t, exec (.passbackForgiveness idx) s =
    .next t ∧ sfind t.sec.locs idx.toNat = none) ∧
  (∀ (slot : Fin 65) (s : State), (sget {} s.sec.creds slot.val).locked = true → (sget {} s.sec.creds slot.val).lockedAt +
    secTicks 60 ≤ s.now → ∃ t, exec (.credentialLockoutEnd slot) s = .next t ∧ (sget {} t.sec.creds slot.val).locked = false
    ∧ (sget {} t.sec.creds slot.val).refusals = 0 ∧ (sget {} t.sec.creds slot.val).ckind = (sget {} s.sec.creds
    slot.val).ckind) ∧
  (∀ (door : BitVec 11) (c : DoorCfg) (a : Nat) (s : State), s.doorCfg? door.toNat = some c → (s.door door.toNat).lockAt =
    some a → a ≤ s.now → (s.door door.toNat).isOpen = false → ∃ t, exec (.unlockTimeExpiry door) s = .next t ∧ (t.door
    door.toNat).unlocked = false ∧ (t.door door.toNat).lockAt = none ∧ (t.door door.toNat).state = 0) ∧
  (∀ (door : BitVec 11) (c : DoorCfg) (a : Nat) (s : State), s.doorCfg? door.toNat = some c → (s.door door.toNat).lockAt =
    some a → a ≤ s.now → (s.door door.toNat).isOpen = true → (s.door door.toNat).state = 2 → ∃ t, exec (.unlockTimeExpiry
    door) s = .next t ∧ (t.door door.toNat).unlocked = false ∧ (t.door door.toNat).state = 3) ∧
  (∀ (station : Byte) (c : StationCfg) (s : State), s.stationCfg? station.toNat = some c → c.station = station.toNat → sget
    0 s.sec.stations station.toNat = 1 → sget 0 s.sec.floorsTill station.toNat ≤ s.now → ∃ t, exec (.floorValidityExpiry
    station) s = .next t ∧ sget 0 t.sec.stations station.toNat = 0) ∧
  (∀ (uid : Uid) (dst : Byte) (f : SecureFrame) (n : Node) (k : BitVec 256) (d : Decide) (s : State), s.node? uid = some n →
    n.takes dst = true → n.key = some k → f.kgen = n.kgen → n.ctrIn < f.ctr → f.dir = 0 → f.body = secureSeal k uid dst 0
    f.tc f.kgen 0 f.ctr f.inner → f.inner = .decide d → d.unlock = true → ∃ t, exec (.nodeSecureRx uid dst f) s = .next t ∧
    (∃ m, t.node? uid = some m ∧ m.unlocked = d.time ∧ m.ctrIn = f.ctr)) ∧
  (∀ (uid : Uid) (dst : Byte) (f : SecureFrame) (n : Node) (s : State), s.node? uid = some n → n.takes dst = false ∨ f.ctr ≤
    n.ctrIn ∨ tagOk (keyFor n.kgen n.prevOk n.key n.prevKey f.kgen) uid dst 0 0 f = false → ∃ t, exec (.nodeSecureRx uid dst
    f) s = .next t ∧ t.node? uid = some n) ∧
  (∀ (uid : Uid) (reader method : Byte) (cid : Uid) (n : Node) (ok : Bool) (s : State), s.node? uid = some n → n.cls = 5 →
    n.mode = .fallback → n.clockMs = none → n.offlineQ.length < 256 → ok = n.cache.any (fun e => e.cid == cid && (!e.cardPin
    || method == 2) && e.untilT == 0xFFFFFFFF && e.sched == 0xFF) → ∃ t, exec (.offlineDecision uid reader method cid) s =
    .next t ∧ (∃ m, t.node? uid = some m ∧ m.offlineQ = n.offlineQ ++ [(cid, 0, ok, reader)] ∧ (ok = false → m.unlocked =
    n.unlocked)))

/-- A request of group 0x01 or 0x02 that may start and passes its checks gets its result: information, temperatures (a
free value), watermarks read, set and re-armed, poisoned lines listed and cleared, registers read and written, and a
session opened, closed, described and listed and its window taken and given. (R310, R312, R313, R316, R287, R289,
R302, R306, R236, R331, R332) -/
def Obligations.DeviceAndSessionRequestsTakeEffect : Prop :=
  (∀ (r : Req) (h : ReqHead) (i : Nat) (s : State), s.offers r 0x0101 (· == []) h i → ∃ t, exec (.devInfo r) s = .next t ∧
    t.resultOf r i = some (okWords (w32 s.devId) s.host.fw (lo32 s.host.serial.toNat) (hi32 s.host.serial.toNat)
    s.devStatus) ∧ t.pnt = s.pnt) ∧
  (∀ (r : Req) (h : ReqHead) (i : Nat) (s : State), s.offers r 0x0102 (· == []) h i → s.reqTenant r.sender.val = 0 → ∃ t,
    exec (.devTemps r) s = .next t ∧ t.resultOf r i = some { resp := (s.temps s.nDies).1 } ∧ (s.temps s.nDies).1.length = 2
    * s.nDies) ∧
  (∀ (r : Req) (slot : Byte) (h : ReqHead) (i : Nat) (w : Wmk) (s : State), s.offers r 0x0103 (· == [slot]) h i → slot.toNat
    < 16 → s.wmkSeen (s.reqTenant r.sender.val) slot.toNat = true → s.wmk slot.toNat = w → ∃ t, exec (.wmkGet r slot) s =
    .next t ∧ t.resultOf r i = some (okWords (w32 (flag w.en 0 + flag w.pol 1)) (w32 (vW w.thr)) (w32 (vW w.hyst)) (w32 (vW
    w.value)) (w32 w.stat)) ∧ t.host.wmks = s.host.wmks) ∧
  (∀ (r : Req) (slot en : Byte) (thr hyst : V24) (ten : BitVec 16) (h : ReqHead) (i : Nat) (s : State), s.offers r 0x0104 (·
    == pack [(slot.toNat, 1), (en.toNat, 1), (thr.toNat, 3), (hyst.toNat, 3), (ten.toNat, 2)]) h i → s.reqTenant
    r.sender.val = 0 → slot.toNat < 16 → en.toNat ≤ 1 → ten.toNat ≤ 0xFFF → ∃ t, exec (.wmkSet r slot en thr hyst ten) s =
    .next t ∧ t.resultOf r i = some {} ∧ (t.wmk slot.toNat).thr = thr ∧ (t.wmk slot.toNat).hyst = hyst ∧ (t.wmk
    slot.toNat).en = (en == 1) ∧ (t.wmk slot.toNat).ten = (if 12 ≤ slot.toNat then ten.setWidth 12 else (s.wmk
    slot.toNat).ten)) ∧
  (∀ (r : Req) (slot : Byte) (h : ReqHead) (i : Nat) (s : State), s.offers r 0x0105 (· == [slot]) h i → slot.toNat < 16 →
    s.wmkSeen (s.reqTenant r.sender.val) slot.toNat = true → (s.wmk slot.toNat).en = true → ∃ t, exec (.wmkRearm r slot) s =
    .next t ∧ t.resultOf r i = some { r0 := w32 (t.wmk slot.toNat).stat } ∧ t.wmk slot.toNat =
    { s.wmk slot.toNat with raised := false, fell := false, armed := true, count := 0 }) ∧
  (∀ (r : Req) (die : Byte) (start : Word) (h : ReqHead) (i : Nat) (l : List Nat) (s : State), s.offers r 0x0106 (· == pack
    [(die.toNat, 1), (start.toNat, 4)]) h i → s.reqTenant r.sender.val = 0 → die.toNat < s.nDies → l = ((s.poisonedLines
    die.toNat).drop start.toNat).take (h.rlen / 8) → ∃ t, exec (.memPoisonList r die start) s = .next t ∧ t.resultOf r i =
    some { r0 := w32 l.length, r1 := w32 (start.toNat + l.length), resp := l.flatMap fun n => leBytes (64 * n) 8 } ∧ t.tags
    = s.tags) ∧
  (∀ (r : Req) (pa : BitVec 64) (h : ReqHead) (i : Nat) (s : State), s.offers r 0x0107 (· == pack [(pa.toNat, 8)]) h i →
    s.reqTenant r.sender.val = 0 → pa.toNat % 64 = 0 → pa.toNat < 2 ^ 40 → s.paOk pa.toNat = true → (s.tag (pa.toNat /
    64)).poison = true → Memory.wf s.mem = true → ∃ t, exec (.memPoisonClear r pa) s = .next t ∧ t.resultOf r i = some {} ∧
    (t.tag (pa.toNat / 64)).poison = false ∧ (t.tag (pa.toNat / 64)).good = true ∧ memGets t.mem pa.toNat 64 =
    List.replicate 64 0 ∧ (∀ a, a / 64 ≠ pa.toNat / 64 → memGet t.mem a = memGet s.mem a)) ∧
  (∀ (r : Req) (die : Byte) (off : Word) (words : BitVec 16) (gen : Word) (h : ReqHead) (i : Nat) (s : State), s.offers r
    0x0108 (· == pack [(die.toNat, 1), (off.toNat, 4), (words.toNat, 2), (gen.toNat, 4)]) h i → die.toNat < s.nDies →
    off.toNat % 4 = 0 → 1 ≤ words.toNat → words.toNat ≤ 256 → off.toNat + 4 * words.toNat ≤ 0x2000000 → gen = 0xFFFFFFFF → ∃
    t, exec (.regRead r die off words gen) s = .next t ∧ t.resultOf r i = some
    { resp := wordBytes (s.dieWords (s.reqTenant r.sender.val) die.toNat off.toNat words.toNat).1 }) ∧
  (∀ (r : Req) (die : Byte) (off : Word) (words : BitVec 16) (gen : Word) (h : ReqHead) (i : Nat) (k : Nat) (s : State),
    s.offers r 0x0108 (· == pack [(die.toNat, 1), (off.toNat, 4), (words.toNat, 2), (gen.toNat, 4)]) h i → s.reqTenant
    r.sender.val = 0 → die.toNat < s.nDies → k < 16 → off = BitVec.ofNat 32 (0x30100 + 4 * k) → words = 1 → gen = 0xFFFFFFFF
    → ∃ t, exec (.regRead r die off words gen) s = .next t ∧ t.resultOf r i = some
    { resp := leBytes (sget 0 (sget {} s.pnt.regs die.toNat).chgmap k).toNat 4 } ∧ sget 0 (sget {} t.pnt.regs
    die.toNat).chgmap k = 0) ∧
  (∀ (r : Req) (die : Byte) (off v : Word) (h : ReqHead) (i : Nat) (s : State), s.offers r 0x0109 (· == pack [(die.toNat,
    1), (off.toNat, 4), (v.toNat, 4)]) h i → s.reqTenant r.sender.val = 0 → die.toNat < s.nDies → off = 0x30048 → v = 0 → ∃
    t, exec (.regWrite r die off v) s = .next t ∧ t.resultOf r i = some {} ∧ (sget {} t.pnt.regs die.toNat).refused = 0) ∧
  (∀ (r : Req) (c : CredTry) (h : ReqHead) (i : Nat) (s : State), s.offers r 0x0201 (· == tryBytes c) h i → r.sender.val <
    32 → (s.sender r.sender.val).opened = false → c.ckind = 1 ∨ c.ckind = 2 → c.slot.toNat < 60 → s.credPasses c.slot.toNat
    c = true → ∃ t, exec (.sessionOpen r c) s = .next t ∧ t.resultOf r i = some
    { r0 := (s.credSlot c.slot.toNat).tenant.setWidth 32, r1 := w32 r.sender.val } ∧ (t.sender r.sender.val).opened = true ∧
    (t.sender r.sender.val).tenant = (s.credSlot c.slot.toNat).tenant ∧ (t.credSlot c.slot.toNat).refusals = 0) ∧
  (∀ (r : Req) (c : CredTry) (h : ReqHead) (i : Nat) (x : CredSlot) (s : State), s.offers r 0x0201 (· == tryBytes c) h i →
    r.sender.val < 32 → (s.sender r.sender.val).opened = false → c.ckind = 1 ∨ c.ckind = 2 → c.slot.toNat < 60 →
    s.credPasses c.slot.toNat c = false → s.credSlot c.slot.toNat = x → x.locked = false → ∃ t, exec (.sessionOpen r c) s =
    .next t ∧ t.resultOf r i = some (refusal stAuthFailed 0) ∧ (t.sender r.sender.val).opened = false ∧ t.credSlot
    c.slot.toNat = { x with refusals := x.refusals + 1, locked := 5 ≤ x.refusals + 1, lockedAt := s.now } ∧ t.sec.authFail =
    addW s.sec.authFail 1) ∧
  (∀ (r : Req) (h : ReqHead) (i : Nat) (s : State), s.offers r 0x0202 (· == []) h i → r.sender.val < 32 → ∃ t, exec
    (.sessionClose r) s = .next t ∧ t.resultOf r i = some {} ∧ (t.sender r.sender.val).opened = false ∧ t.winTenant = (if
    s.holdsWin r.sender.val then none else s.winTenant)) ∧
  (∀ (r : Req) (h : ReqHead) (i : Nat) (ten : Tenant) (n : Nat) (s : State), s.offers r 0x0203 (· == []) h i → s.reqTenant
    r.sender.val = ten → ((s.sender r.sender.val).reqs.filter fun q => q.result.isNone).length = n → ∃ t, exec (.sessionInfo
    r) s = .next t ∧ t.resultOf r i = some
    { r0 := ten.setWidth 32, r1 := w32 r.sender.val, r2 := w32 (n - 1), r3 := w32 (flag (s.holdsWin r.sender.val) 0) }) ∧
  (∀ (r : Req) (h : ReqHead) (i : Nat) (s : State), s.offers r 0x0204 (· == []) h i → r.sender.val < 32 → s.host.win = none
    → ∃ t, exec (.winTake r) s = .next t ∧ t.resultOf r i = some { r0 := 0xFF } ∧ t.host.win.map (·.val) = some r.sender.val
    ∧ (t.sender r.sender.val).winLost = false) ∧
  (∀ (r : Req) (h : ReqHead) (i : Nat) (w : Fin 32) (s : State), s.offers r 0x0204 (· == []) h i → r.sender.val < 32 →
    s.host.win = some w → w.val ≠ r.sender.val → (s.sender r.sender.val).tenant = 0 → (s.sender w.val).tenant ≠ 0 → ∃ t,
    exec (.winTake r) s = .next t ∧ t.resultOf r i = some { r0 := w32 w.val } ∧ t.host.win.map (·.val) = some r.sender.val ∧
    (t.sender w.val).winLost = true) ∧
  (∀ (r : Req) (h : ReqHead) (i : Nat) (s : State), s.offers r 0x0205 (· == []) h i → s.holdsWin r.sender.val = true → ∃ t,
    exec (.winGive r) s = .next t ∧ t.resultOf r i = some {} ∧ t.host.win = none) ∧
  (∀ (r : Req) (h : ReqHead) (i : Nat) (l : List Nat) (s : State), s.offers r 0x0206 (· == []) h i → s.reqTenant
    r.sender.val = 0 → (List.range 32).filter (fun k => (s.sender k).opened) = l → ∃ t, exec (.sessionList r) s = .next t ∧
    t.resultOf r i = some
    { resp := l.flatMap fun k => leBytes k 1 ++ leBytes (flag (s.sender k).remote 0 + flag (s.holdsWin k) 1) 1 ++ leBytes (s.sender k).tenant.toNat 2 })

/-- A landlord request of group 0x04 that may start and passes its checks has its effect: the port is enabled or
disabled, its state, counters, nodes and unbound devices are read, a schedule is loaded into the inactive bank and
waits for its swap, the transmit threshold (clamped) and the dormancy are set, a COMMAND goes to a node and waits
for its answer, and a claim round begins. (R62, R69, R70, R76, R83, R86, R318, R312) -/
def Obligations.PortRequestsTakeEffect : Prop :=
  (∀ (r : Req) (port en mode : Byte) (h : ReqHead) (i : Nat) (s : State), s.offers r 0x0401 (· == [port, en, mode]) h i →
    s.reqTenant r.sender.val = 0 → port.toNat < s.nPorts → en = 1 → mode.toNat ≤ 1 → (s.port port.toNat).en = false → ∃ t,
    exec (.brEnable r port en mode) s = .next t ∧ t.resultOf r i = some {} ∧ (t.port port.toNat).en = true ∧ (t.port
    port.toNat).running = true ∧ (t.port port.toNat).mode = (mode == 1) ∧ (t.port port.toNat).rollcall = true) ∧
  (∀ (r : Req) (port en mode : Byte) (h : ReqHead) (i : Nat) (s : State), s.offers r 0x0401 (· == [port, en, mode]) h i →
    s.reqTenant r.sender.val = 0 → port.toNat < s.nPorts → en = 0 → mode.toNat ≤ 1 → ∃ t, exec (.brEnable r port en mode) s
    = .next t ∧ t.resultOf r i = some {} ∧ (t.port port.toNat).en = false ∧ (t.port port.toNat).running = false ∧ (t.port
    port.toNat).dormant = false) ∧
  (∀ (r : Req) (port en mode : Byte) (h : ReqHead) (i : Nat) (s : State), s.offers r 0x0401 (· == [port, en, mode]) h i →
    s.reqTenant r.sender.val = 0 → port.toNat < s.nPorts → en = 1 → (s.port port.toNat).en = true → mode.toNat ≤ 1 → (s.port
    port.toNat).mode ≠ (mode == 1) → ∃ t, exec (.brEnable r port en mode) s = .next t ∧ t.resultOf r i = some (refusal
    stWrongMode 0) ∧ t.ports = s.ports) ∧
  (∀ (r : Req) (port : Byte) (h : ReqHead) (i : Nat) (x : BrPort) (s : State), s.offers r 0x0402 (· == [port]) h i →
    s.reqTenant r.sender.val = 0 → port.toNat < s.nPorts → s.port port.toNat = x → ∃ t, exec (.brStatus r port) s = .next t
    ∧ t.resultOf r i = some (okWords (w32 x.status) x.cycnum (w32 (x.nodes.filter fun e => e.2.state == .present).length)
    (w32 (x.nodes.filter fun e => e.2.state == .missing).length) (w32 (x.nodes.filter fun e => e.2.state == .lost).length))
    ∧ t.ports = s.ports) ∧
  (∀ (r : Req) (port : Byte) (cycleMs : BitVec 16) (n : Byte) (gcl : List GclEntry) (h : ReqHead) (i : Nat) (s : State),
    s.offers r 0x0403 (· == schedData port cycleMs n gcl) h i → s.reqTenant r.sender.val = 0 → port.toNat < s.nPorts →
    n.toNat = gcl.length → gclErrOf cycleMs.toNat gcl.length gcl = 0 → (s.port port.toNat).pending = false → ∃ t, exec
    (.brSchedLoad r port cycleMs n gcl) s = .next t ∧ t.resultOf r i = none ∧ (t.port port.toNat).pending = true ∧ (t.port
    port.toNat).swapTick = s.now ∧ (t.port port.toNat).swapReq = some r ∧ (t.port port.toNat).active = (s.port
    port.toNat).active ∧ (if (t.port port.toNat).active then (t.port port.toNat).gclA else (t.port port.toNat).gclB) = gclOf
    gcl) ∧
  (∀ (r : Req) (port : Byte) (cycleMs : BitVec 16) (n : Byte) (gcl : List GclEntry) (h : ReqHead) (i : Nat) (e : Nat) (s :
    State), s.offers r 0x0403 (· == schedData port cycleMs n gcl) h i → s.reqTenant r.sender.val = 0 → port.toNat < s.nPorts
    → n.toNat = gcl.length → gclErrOf cycleMs.toNat gcl.length gcl = e → e ≠ 0 → (s.port port.toNat).pending = false → ∃ t,
    exec (.brSchedLoad r port cycleMs n gcl) s = .next t ∧ t.resultOf r i = some (refusal stInvalid e) ∧ t.ports = s.ports)
    ∧
  (∀ (r : Req) (port clear : Byte) (h : ReqHead) (i : Nat) (s : State), s.offers r 0x0404 (· == [port, clear]) h i →
    s.reqTenant r.sender.val = 0 → port.toNat < s.nPorts → clear.toNat ≤ 1 → ∃ t, exec (.brStats r port clear) s = .next t ∧
    t.resultOf r i = some { resp := wordBytes (s.brWords port.toNat 0x200 19 ++ s.brWords port.toNat 0x300 16) } ∧ (clear =
    1 → (t.port port.toNat).ctr = [] ∧ (t.port port.toNat).rxType = []) ∧ (clear = 0 → t.ports = s.ports)) ∧
  (∀ (r : Req) (port : Byte) (thr : BitVec 16) (h : ReqHead) (i : Nat) (s : State), s.offers r 0x0405 (· == pack
    [(port.toNat, 1), (thr.toNat, 2)]) h i → s.reqTenant r.sender.val = 0 → port.toNat < s.nPorts → ∃ t, exec (.brTxthr r
    port thr) s = .next t ∧ t.resultOf r i = some { r0 := w32 (min (max 16 thr.toNat) 256) } ∧ (t.port port.toNat).thr = min
    (max 16 thr.toNat) 256) ∧
  (∀ (r : Req) (port en : Byte) (start stop period : BitVec 16) (rcn : Byte) (h : ReqHead) (i : Nat) (s : State), s.offers r
    0x0406 (· == pack [(port.toNat, 1), (en.toNat, 1), (start.toNat, 2), (stop.toNat, 2), (period.toNat, 2), (rcn.toNat,
    1)]) h i → s.reqTenant r.sender.val = 0 → port.toNat < s.nPorts → en.toNat ≤ 1 → start.toNat < 1440 → stop.toNat < 1440
    → 1000 ≤ period.toNat → period.toNat ≤ 60000 → 1 ≤ rcn.toNat → rcn.toNat ≤ 64 → ∃ t, exec (.brDormancy r port en start
    stop period rcn) s = .next t ∧ t.resultOf r i = some {} ∧ (t.port port.toNat).dormEn = (en == 1) ∧ (t.port
    port.toNat).dormStart = start.toNat ∧ (t.port port.toNat).dormStop = stop.toNat ∧ (t.port port.toNat).period =
    period.toNat ∧ (t.port port.toNat).rcn = rcn.toNat) ∧
  (∀ (r : Req) (port : Byte) (h : ReqHead) (i : Nat) (n : NodeCfg) (x : CtlNode) (s : State), s.offers r 0x0407 (· ==
    [port]) h i → s.reqTenant r.sender.val = 0 → port.toNat < s.nPorts → s.cfg.nodes = [n] → n.port = port.toNat → (s.port
    n.port).node n.addr = x → ∃ t, exec (.brNodes r port) s = .next t ∧ t.resultOf r i = some
    { resp := leBytes n.addr 1 ++ leBytes n.cls 1 ++ leBytes (presenceByte x.state) 1 ++ leBytes 0 1 ++ leBytes n.uid.toNat 8 })
    ∧
  (∀ (r : Req) (node : BitVec 16) (op : Byte) (args : List Byte) (h : ReqHead) (i : Nat) (p a : Nat) (s : State), s.offers r
    0x0408 (· == (leBytes node.toNat 2 ++ op :: args)) h i → s.reqTenant r.sender.val = 0 → node = BitVec.ofNat 16 (256 * p
    + a) → p < 128 → 1 ≤ a → a ≤ 250 → args.length ≤ 238 → (s.nodeCfg? p a).isSome = true → shas (s.port p).cmds a = false →
    ∃ t, exec (.brNodeCmd r node op args) s = .next t ∧ t.resultOf r i = none ∧ (t.port p).cmdSeq = (s.port p).cmdSeq + 1 ∧
    sfind (t.port p).cmds a = some { seq := (s.port p).cmdSeq + 1, op := op, args := args, req := some r, sentAt := s.now }
    ∧ (t.port p).queue 0 = (s.port p).queue 0 ++
    [{ dst := BitVec.ofNat 8 a, payload := .command ((s.port p).cmdSeq + 1) op args }]) ∧
  (∀ (r : Req) (port nslot : Byte) (slotbt : BitVec 16) (h : ReqHead) (i : Nat) (s : State), s.offers r 0x0409 (· == pack
    [(port.toNat, 1), (nslot.toNat, 1), (slotbt.toNat, 2)]) h i → s.reqTenant r.sender.val = 0 → port.toNat < s.nPorts → 1 ≤
    nslot.toNat → 800 ≤ slotbt.toNat → slotbt.toNat ≤ 10000 → (s.port port.toNat).running = true → (s.port
    port.toNat).dormant = false → ∃ t, exec (.brClaim r port nslot slotbt) s = .next t ∧ t.resultOf r i = some {} ∧ (t.port
    port.toNat).round = (s.port port.toNat).round + 1 ∧ (t.port port.toNat).claimLeft = 2 ∧ (t.port port.toNat).queue 0 =
    (s.port port.toNat).queue 0 ++ [{ dst := 0xFF, payload := .claim ((s.port port.toNat).round + 1) nslot slotbt.toNat }])
    ∧
  (∀ (r : Req) (port : Byte) (h : ReqHead) (i : Nat) (s : State), s.offers r 0x040A (· == [port]) h i → s.reqTenant
    r.sender.val = 0 → port.toNat < s.nPorts → ∃ t, exec (.brUnbound r port) s = .next t ∧ t.resultOf r i = some
    { resp := (s.port port.toNat).unbound.flatMap fun e => leBytes e.1.toNat 8 ++ [e.2] } ∧ t.ports = s.ports)

/-- A landlord request of group 0x05 that may start and passes its checks has its effect: port status and counters are
read, a port is enabled or disabled, a schedule is loaded into the inactive bank and waits for its swap, the
transmit threshold is clamped and set, the ring map is read from port A on, and the priority of the time master is
set. (R109, R110, R111, R115, R318, R312) -/
def Obligations.TrunkRequestsTakeEffect : Prop :=
  (∀ (r : Req) (port : Byte) (h : ReqHead) (i : Nat) (p : Bool) (x : TrkPort) (s : State), s.offers r 0x0501 (· == [port]) h
    i → s.reqTenant r.sender.val = 0 → port = (if p then 1 else 0) → s.tport p = x → ∃ t, exec (.trkStatus r port) s = .next
    t ∧ t.resultOf r i = some (okWords (w32 (s.trkStatus p)) (x.neigh.setWidth 32) (w32 s.trkTm) (lo32 x.rxSfn) (hi32
    x.rxSfn)) ∧ t.trk = s.trk) ∧
  (∀ (r : Req) (port : Byte) (v : BitVec 16) (h : ReqHead) (i : Nat) (p : Bool) (s : State), s.offers r 0x0502 (· == pack
    [(port.toNat, 1), (v.toNat, 2)]) h i → s.reqTenant r.sender.val = 0 → port = (if p then 1 else 0) → (s.tport p).en =
    false → v.getLsbD 0 = true → v.getLsbD 2 = false → ∃ t, exec (.trkEnable r port v) s = .next t ∧ t.resultOf r i = some
    {} ∧ (t.tport p).en = true ∧ (t.tport p).mode = v.getLsbD 1 ∧ (t.tport p).lanes = freshLanes s.now ∧ (t.tport p).up =
    false) ∧
  (∀ (r : Req) (port : Byte) (v : BitVec 16) (h : ReqHead) (i : Nat) (p : Bool) (s : State), s.offers r 0x0502 (· == pack
    [(port.toNat, 1), (v.toNat, 2)]) h i → s.reqTenant r.sender.val = 0 → port = (if p then 1 else 0) → v.getLsbD 0 = false
    → v.getLsbD 2 = false → ∃ t, exec (.trkEnable r port v) s = .next t ∧ t.resultOf r i = some {} ∧ (t.tport p).en = false
    ∧ (t.tport p).lanes = freshLanes s.now ∧ (t.tport p).up = false) ∧
  (∀ (r : Req) (port : Byte) (n : BitVec 16) (gcl : List TrkEntry) (h : ReqHead) (i : Nat) (p : Bool) (s : State), s.offers
    r 0x0503 (· == trkSchedData port n gcl) h i → s.reqTenant r.sender.val = 0 → port = (if p then 1 else 0) → n.toNat =
    gcl.length → 1 ≤ n.toNat → n.toNat ≤ 256 → trkGclErr gcl.length gcl = 0 → (s.tport p).pending = false → ∃ t, exec
    (.trkSchedLoad r port n gcl) s = .next t ∧ t.resultOf r i = none ∧ (t.tport p).pending = true ∧ (t.tport p).swapTick =
    s.now ∧ (t.tport p).swapReq = some r ∧ (t.tport p).active = (s.tport p).active) ∧
  (∀ (r : Req) (port clear : Byte) (h : ReqHead) (i : Nat) (p : Bool) (s : State), s.offers r 0x0504 (· == [port, clear]) h
    i → s.reqTenant r.sender.val = 0 → port = (if p then 1 else 0) → clear.toNat ≤ 1 → ∃ t, exec (.trkStats r port clear) s
    = .next t ∧ t.resultOf r i = some
    { resp := wordBytes ((List.range 24).map (fun j => w32 (s.trkReg p (0x200 + 4 * j))) ++ (List.range 8).map (fun j => w32 (s.trkReg p (0x300 + 4 * j)))) }
    ∧ (clear = 1 → (t.tport p).ctr = [] ∧ (t.tport p).rxClass = []) ∧ (clear = 0 → t.trk = s.trk)) ∧
  (∀ (r : Req) (port : Byte) (thr : BitVec 16) (h : ReqHead) (i : Nat) (p : Bool) (s : State), s.offers r 0x0505 (· == pack
    [(port.toNat, 1), (thr.toNat, 2)]) h i → s.reqTenant r.sender.val = 0 → port = (if p then 1 else 0) → ∃ t, exec
    (.trkTxthr r port thr) s = .next t ∧ t.resultOf r i = some { r0 := w32 (min (max 256 thr.toNat) 9236) } ∧ (t.tport
    p).thr = min (max 256 thr.toNat) 9236) ∧
  (∀ (r : Req) (h : ReqHead) (i : Nat) (e : Topology) (s : State), s.offers r 0x0506 (· == []) h i → s.reqTenant
    r.sender.val = 0 → ringFrom s.trk.ringMap s.ownId s.ownId 255 s.trk.a.neigh = [e] → ∃ t, exec (.trkRingMap r) s = .next
    t ∧ t.resultOf r i = some
    { r0 := s.trk.topoSeq, resp := [e.id] ++ leBytes (flag e.wrapped 0 + flag e.relay 1 + flag e.dupId 2) 1 ++ leBytes 0 2 }
    ∧ t.trk = s.trk) ∧
  (∀ (r : Req) (prio : Byte) (h : ReqHead) (i : Nat) (s : State), s.offers r 0x0507 (· == [prio]) h i → s.reqTenant
    r.sender.val = 0 → ∃ t, exec (.trkPrio r prio) s = .next t ∧ t.resultOf r i = some {} ∧ t.trk.prio = prio ∧ t.trk.a =
    s.trk.a ∧ t.trk.b = s.trk.b)

/-- A request of group 0x06 that may start and passes its checks has its effect: a die of the mask restarts cold or
warm, stops at the end of its scan or at once, holds (a hold waits for a core in its trap window), resumes or steps;
status, tasks, variables, breakpoints and the registers of a held core outside its trap window are read; a variable
or a constant is changed at once in STOP and queued otherwise; a breakpoint is set; a downloaded image stands in
every die of the mask. (R128, R129, R130, R132, R133, R135, R136, R137, R159, R319) -/
def Obligations.LogicRequestsTakeEffect : Prop :=
  (∀ (r : Req) (die : Byte) (h : ReqHead) (i : Nat) (g : LogicDie) (s : State), s.offers r 0x0601 (· == [die]) h i →
    s.reqTenant r.sender.val = 0 → die.toNat < s.nDies → s.die die.toNat = g → ∃ t, exec (.logicStatus r die) s = .next t ∧
    t.resultOf r i = some (okWords (w32 (s.lscMode die.toNat)) g.seq g.scanLast g.skips g.resumeSeq) ∧ t.logic = s.logic) ∧
  (∀ (r : Req) (mask warm : Byte) (h : ReqHead) (i : Nat) (d : Nat) (m : LogicImage) (s : State), s.offers r 0x0602 (· ==
    [mask, warm]) h i → s.reqTenant r.sender.val = 0 → mask = BitVec.ofNat 8 (2 ^ d) → d < s.nDies → warm = 0 → s.dieUp d =
    true → (s.die d).mode = .stop → (s.die d).image = some m → ∃ t, exec (.logicRun r mask warm) s = .next t ∧ t.resultOf r
    i = some {} ∧ (t.die d).mode = .run ∧ (t.die d).vars = sputs [] m.initVars ∧ (t.die d).slotA.good = false ∧ (t.die
    d).slotB.good = false ∧ (t.die d).resumeSeq = 0xFFFFFFFF) ∧
  (∀ (r : Req) (mask warm : Byte) (h : ReqHead) (i : Nat) (d : Nat) (m : LogicImage) (x : RetainSlot) (s : State), s.offers
    r 0x0602 (· == [mask, warm]) h i → s.reqTenant r.sender.val = 0 → mask = BitVec.ofNat 8 (2 ^ d) → d < s.nDies → warm = 1
    → s.dieUp d = true → (s.die d).mode = .stop → (s.die d).image = some m → (s.die d).warmSlot m.retainId = some x → ∃ t,
    exec (.logicRun r mask warm) s = .next t ∧ t.resultOf r i = some {} ∧ (t.die d).mode = .run ∧ (t.die d).vars = sputs
    (sputs [] m.initVars) x.vars ∧ (t.die d).seq = x.seq) ∧
  (∀ (r : Req) (mask : Byte) (h : ReqHead) (i : Nat) (d : Nat) (s : State), s.offers r 0x0603 (· == [mask]) h i →
    s.reqTenant r.sender.val = 0 → mask = BitVec.ofNat 8 (2 ^ d) → d < s.nDies → (s.die d).mode = .run → (s.die d).inScan =
    true → ∃ t, exec (.logicStop r mask) s = .next t ∧ t.resultOf r i = none ∧ (t.die d).mode = .run ∧ (t.die d).pend = true
    ∧ (t.die d).stopReqs = (s.die d).stopReqs ++ [(r, 0)]) ∧
  (∀ (r : Req) (mask : Byte) (h : ReqHead) (i : Nat) (d : Nat) (s : State), s.offers r 0x0603 (· == [mask]) h i →
    s.reqTenant r.sender.val = 0 → mask = BitVec.ofNat 8 (2 ^ d) → d < s.nDies → (s.die d).mode = .run → (s.die d).inScan =
    false → ∃ t, exec (.logicStop r mask) s = .next t ∧ (t.die d).mode = .stop ∧ (t.die d).fault = (s.die d).fault ∧ ((s.die
    d).stopReqs = [] → (s.die d).queue = [] → (s.die d).holdReqs = [] → t.resultOf r i = some {}) ∧ ∀ a v, (s.die d).queue =
    [.var a v none] → (t.die d).vars = sput (s.die d).vars a v) ∧
  (∀ (r : Req) (mask : Byte) (h : ReqHead) (i : Nat) (d : Nat) (s : State), s.offers r 0x0603 (· == [mask]) h i →
    s.reqTenant r.sender.val = 0 → mask = BitVec.ofNat 8 (2 ^ d) → d < s.nDies → (s.die d).mode = .stop → ∃ t, exec
    (.logicStop r mask) s = .next t ∧ t.resultOf r i = some (refusal stWrongMode (2 ^ d)) ∧ t.logic = s.logic) ∧
  (∀ (r : Req) (mask : Byte) (h : ReqHead) (i : Nat) (d : Nat) (s : State), s.offers r 0x0604 (· == [mask]) h i →
    s.reqTenant r.sender.val = 0 → mask = BitVec.ofNat 8 (2 ^ d) → d < s.nDies → (s.die d).mode = .run → (s.die d).holding =
    none → (s.die d).holdReqs = [] → (List.range 4).all (fun c => !(s.core d c).tw) = true → ∃ t, exec (.logicHold r mask) s
    = .next t ∧ t.resultOf r i = some {} ∧ (t.die d).mode = .hold ∧ (t.die d).vars = (s.die d).vars) ∧
  (∀ (r : Req) (mask : Byte) (h : ReqHead) (i : Nat) (d : Nat) (s : State), s.offers r 0x0604 (· == [mask]) h i →
    s.reqTenant r.sender.val = 0 → mask = BitVec.ofNat 8 (2 ^ d) → d < s.nDies → (s.die d).mode = .run → (s.die d).holding =
    none → (s.die d).holdReqs = [] → (∃ c < 4, (s.core d c).tw = true) → ∃ t, exec (.logicHold r mask) s = .next t ∧
    t.resultOf r i = none ∧ (t.die d).mode = .run ∧ (t.die d).holding.isSome = true ∧ (t.die d).holdReqs = [(r, 0)]) ∧
  (∀ (r : Req) (mask : Byte) (h : ReqHead) (i : Nat) (d : Nat) (s : State), s.offers r 0x0606 (· == [mask]) h i →
    s.reqTenant r.sender.val = 0 → mask = BitVec.ofNat 8 (2 ^ d) → d < s.nDies → (s.die d).mode = .hold → (s.die d).fault =
    false → ∃ t, exec (.logicResume r mask) s = .next t ∧ t.resultOf r i = some {} ∧ (t.die d).mode = .run ∧ (t.die d).vars
    = (s.die d).vars) ∧
  (∀ (r : Req) (die core : Byte) (h : ReqHead) (i : Nat) (k : Nat) (s : State), s.offers r 0x0605 (· == [die, core]) h i →
    s.reqTenant r.sender.val = 0 → die.toNat < s.nDies → core.toNat < 4 → (s.die die.toNat).mode = .hold → (s.die
    die.toNat).fault = false → (s.core die.toNat core.toNat).stepping = false → (s.core die.toNat core.toNat).task = some k
    → ∃ t, exec (.logicStep r die core) s = .next t ∧ t.resultOf r i = none ∧ (t.core die.toNat core.toNat).stepping = true
    ∧ (t.core die.toNat core.toNat).stepReq = some r ∧ (t.die die.toNat).mode = .hold) ∧
  (∀ (r : Req) (mask : Byte) (img : LogicImage) (ck : ImageCheck) (h : ReqHead) (i : Nat) (d : Nat) (s : State), s.offers r
    0x0607 (fun d => d.head? == some mask) h i → s.reqTenant r.sender.val = 0 → mask = BitVec.ofNat 8 (2 ^ d) → d < s.nDies
    → 1 ≤ h.len → s.signed ck = true → logicBad s.cfg.tenants img = false → (s.die d).mode = .stop → ∃ t, exec
    (.logicDownload r mask img ck) s = .next t ∧ t.resultOf r i = some { r0 := img.imageId } ∧ (t.die d).image = some img ∧
    (t.die d).vars = [] ∧ (t.die d).consts = img.consts) ∧
  (∀ (r : Req) (die : Byte) (h : ReqHead) (i : Nat) (l : List Nat) (s : State), s.offers r 0x0608 (· == [die]) h i →
    die.toNat < s.nDies → (List.range 64).filter (fun n => ((s.die die.toNat).task? n).any fun k => reaches (s.reqTenant
    r.sender.val) k.tenant) = l → ∃ t, exec (.logicTasks r die) s = .next t ∧ t.resultOf r i = some
    { resp := l.flatMap fun n => leBytes ((s.die die.toNat).taskWord n) 4 ++ leBytes (sget 0 (s.die die.toNat).taskUs n).toNat 4 }
    ∧ t.logic = s.logic) ∧
  (∀ (r : Req) (die task : Byte) (addr : V24) (count : BitVec 16) (h : ReqHead) (i : Nat) (m : LogicImage) (k : Task) (s :
    State), s.offers r 0x0609 (· == pack [(die.toNat, 1), (task.toNat, 1), (addr.toNat, 3), (count.toNat, 2)]) h i →
    die.toNat < s.nDies → task.toNat < 64 → (s.die die.toNat).image = some m → (s.die die.toNat).task? task.toNat = some k →
    reaches (s.reqTenant r.sender.val) k.tenant = true → 1 ≤ count.toNat → count.toNat ≤ 1024 → addr.toNat + count.toNat ≤
    262144 → (List.range count.toNat).all (fun j => imgReach m k.tenant (addr.toNat + j)) = true → ∃ t, exec (.logicReadVar
    r die task addr count) s = .next t ∧ t.resultOf r i = some
    { resp := wordBytes ((List.range count.toNat).map fun j => w32 (vW (sget 0 (s.die die.toNat).vars (addr.toNat + j)))) }
    ∧ t.logic = s.logic) ∧
  (∀ (r : Req) (die task : Byte) (addr v : V24) (h : ReqHead) (i : Nat) (m : LogicImage) (k : Task) (s : State), s.offers r
    0x060A (· == pack [(die.toNat, 1), (task.toNat, 1), (addr.toNat, 3), (v.toNat, 3)]) h i → die.toNat < s.nDies →
    task.toNat < 64 → (s.die die.toNat).image = some m → (s.die die.toNat).task? task.toNat = some k → reaches (s.reqTenant
    r.sender.val) k.tenant = true → addr.toNat < 262144 → imgReach m k.tenant addr.toNat = true → (s.die die.toNat).mode =
    .stop → ∃ t, exec (.logicWriteVar r die task addr v) s = .next t ∧ t.resultOf r i = some {} ∧ (t.die die.toNat).vars =
    sput (s.die die.toNat).vars addr.toNat v ∧ sget 0 (t.die die.toNat).vars addr.toNat = v) ∧
  (∀ (r : Req) (die task : Byte) (addr v : V24) (h : ReqHead) (i : Nat) (m : LogicImage) (k : Task) (s : State), s.offers r
    0x060A (· == pack [(die.toNat, 1), (task.toNat, 1), (addr.toNat, 3), (v.toNat, 3)]) h i → die.toNat < s.nDies →
    task.toNat < 64 → (s.die die.toNat).image = some m → (s.die die.toNat).task? task.toNat = some k → reaches (s.reqTenant
    r.sender.val) k.tenant = true → addr.toNat < 262144 → imgReach m k.tenant addr.toNat = true → (s.die die.toNat).mode ≠
    .stop → (s.die die.toNat).queue.length < 256 → ∃ t, exec (.logicWriteVar r die task addr v) s = .next t ∧ t.resultOf r i
    = none ∧ (t.die die.toNat).queue = (s.die die.toNat).queue ++ [.var addr.toNat v (some r)] ∧ (t.die die.toNat).vars =
    (s.die die.toNat).vars) ∧
  (∀ (r : Req) (die task : Byte) (idx : BitVec 16) (v : V24) (h : ReqHead) (i : Nat) (m : LogicImage) (k : Task) (s :
    State), s.offers r 0x060B (· == pack [(die.toNat, 1), (task.toNat, 1), (idx.toNat, 2), (v.toNat, 3)]) h i → die.toNat <
    s.nDies → task.toNat < 64 → (s.die die.toNat).image = some m → (s.die die.toNat).task? task.toNat = some k → reaches
    (s.reqTenant r.sender.val) k.tenant = true → idx.toNat < m.consts.length → constSeen m (s.reqTenant r.sender.val)
    idx.toNat = true → (s.die die.toNat).mode = .stop → ∃ t, exec (.logicPatchConst r die task idx v) s = .next t ∧
    t.resultOf r i = some {} ∧ (t.die die.toNat).consts = (s.die die.toNat).consts.set idx.toNat v) ∧
  (∀ (r : Req) (die task : Byte) (idx : BitVec 16) (v : V24) (h : ReqHead) (i : Nat) (m : LogicImage) (k : Task) (s :
    State), s.offers r 0x060B (· == pack [(die.toNat, 1), (task.toNat, 1), (idx.toNat, 2), (v.toNat, 3)]) h i → die.toNat <
    s.nDies → task.toNat < 64 → (s.die die.toNat).image = some m → (s.die die.toNat).task? task.toNat = some k → reaches
    (s.reqTenant r.sender.val) k.tenant = true → idx.toNat < m.consts.length → constSeen m (s.reqTenant r.sender.val)
    idx.toNat = true → (s.die die.toNat).mode ≠ .stop → (s.die die.toNat).queue.length < 256 → ∃ t, exec (.logicPatchConst r
    die task idx v) s = .next t ∧ t.resultOf r i = none ∧ (t.die die.toNat).queue = (s.die die.toNat).queue ++ [.const
    idx.toNat v (some r)] ∧ (t.die die.toNat).vars = (s.die die.toNat).vars) ∧
  (∀ (r : Req) (die core idx : Byte) (addr : V24) (en : Byte) (h : ReqHead) (i : Nat) (s : State), s.offers r 0x060C (· ==
    pack [(die.toNat, 1), (core.toNat, 1), (idx.toNat, 1), (addr.toNat, 3), (en.toNat, 1)]) h i → s.reqTenant r.sender.val =
    0 → die.toNat < s.nDies → core.toNat < 4 → idx.toNat < 4 → en.toNat ≤ 1 → ∃ t, exec (.logicBpSet r die core idx addr en)
    s = .next t ∧ t.resultOf r i = some {} ∧ sfind (t.core die.toNat core.toNat).bps idx.toNat = (if en = 1 then some addr
    else none)) ∧
  (∀ (r : Req) (die core : Byte) (h : ReqHead) (i : Nat) (k : Nat) (b : Map V24) (s : State), s.offers r 0x060D (· == [die,
    core]) h i → die.toNat < s.nDies → core.toNat < 4 → (s.core die.toNat core.toNat).task = some k → (s.core die.toNat
    core.toNat).tnt = s.reqTenant r.sender.val → (s.core die.toNat core.toNat).bps = b → ∃ t, exec (.logicBpRead r die core)
    s = .next t ∧ t.resultOf r i = some
    { resp := (List.range 4).flatMap fun j => leBytes (sget 0 b j).toNat 3 ++ leBytes (flag (shas b j) 0) 1 } ∧ t.cores =
    s.cores) ∧
  (∀ (r : Req) (die core : Byte) (h : ReqHead) (i : Nat) (x : CoreSt) (s : State), s.offers r 0x060E (· == [die, core]) h i
    → s.reqTenant r.sender.val = 0 → die.toNat < s.nDies → core.toNat < 4 → (s.die die.toNat).mode = .hold → s.core
    die.toNat core.toNat = x → x.tw = false → ∃ t, exec (.logicCoreRead r die core) s = .next t ∧ t.resultOf r i = some
    { resp := wordBytes ((((List.range 12).map fun j => sget 0 x.regs j) ++ ((List.range 10).flatMap fun w => x.window w) ++ [x.st core.toNat, x.sp, x.pc]).map fun v => w32 (vW v)) }
    ∧ t.cores = s.cores)

/-- A request of group 0x07 that may start and passes its checks has its effect: a slot is read, its limits and its
constant setpoint set, its inactive bank written and a swap of it requested; a loop test is started on the lowest
free unit, stopped and its records read; the load of a die is read. (R163, R166, R178, R179, R184, R187, R319) -/
def Obligations.LoopRequestsTakeEffect : Prop :=
  (∀ (r : Req) (die : Byte) (slot : BitVec 16) (h : ReqHead) (i : Nat) (c : LoopCfg) (s : State), s.offers r 0x0701 (· ==
    pack [(die.toNat, 1), (slot.toNat, 2)]) h i → die.toNat < s.nDies → slot.toNat < 8192 → s.slotFor (s.reqTenant
    r.sender.val) die.toNat slot.toNat = some c → ∃ t, exec (.loopGet r die slot) s = .next t ∧ t.resultOf r i = some
    { resp := wordBytes ((((List.range 16).map fun j => s.slotWord die.toNat slot.toNat (4 * j) c) ++ (List.range 58).map (bankWord (s.loop die.toNat slot.toNat).bankA) ++ (List.range 58).map (bankWord (s.loop die.toNat slot.toNat).bankB)).map w32) }
    ∧ t.loops = s.loops) ∧
  (∀ (r : Req) (die : Byte) (slot : BitVec 16) (omin omax rate : V24) (h : ReqHead) (i : Nat) (c : LoopCfg) (s : State),
    s.offers r 0x0702 (· == pack [(die.toNat, 1), (slot.toNat, 2), (omin.toNat, 3), (omax.toNat, 3), (rate.toNat, 3)]) h i →
    die.toNat < s.nDies → slot.toNat < 8192 → s.slotFor (s.reqTenant r.sender.val) die.toNat slot.toNat = some c →
    omin.toInt ≤ omax.toInt → ∃ t, exec (.loopSetLimits r die slot omin omax rate) s = .next t ∧ t.resultOf r i = some {} ∧
    (t.loop die.toNat slot.toNat) = { s.loop die.toNat slot.toNat with omin := omin, omax := omax, rate := rate }) ∧
  (∀ (r : Req) (die : Byte) (slot : BitVec 16) (omin omax rate : V24) (h : ReqHead) (i : Nat) (c : LoopCfg) (s : State),
    s.offers r 0x0702 (· == pack [(die.toNat, 1), (slot.toNat, 2), (omin.toNat, 3), (omax.toNat, 3), (rate.toNat, 3)]) h i →
    die.toNat < s.nDies → slot.toNat < 8192 → s.slotFor (s.reqTenant r.sender.val) die.toNat slot.toNat = some c →
    omax.toInt < omin.toInt → ∃ t, exec (.loopSetLimits r die slot omin omax rate) s = .next t ∧ t.resultOf r i = some
    (refusal stInvalid 1) ∧ t.loops = s.loops) ∧
  (∀ (r : Req) (die : Byte) (slot : BitVec 16) (v : V24) (h : ReqHead) (i : Nat) (c : LoopCfg) (s : State), s.offers r
    0x0703 (· == pack [(die.toNat, 1), (slot.toNat, 2), (v.toNat, 3)]) h i → die.toNat < s.nDies → slot.toNat < 8192 →
    s.slotFor (s.reqTenant r.sender.val) die.toNat slot.toNat = some c → c.sp = .const → ∃ t, exec (.loopSetSp r die slot v)
    s = .next t ∧ t.resultOf r i = some {} ∧ t.loop die.toNat slot.toNat = { s.loop die.toNat slot.toNat with spc := v }) ∧
  (∀ (r : Req) (die : Byte) (slot : BitVec 16) (words : List Word) (h : ReqHead) (i : Nat) (c : LoopCfg) (s : State),
    s.offers r 0x0704 (· == (leBytes die.toNat 1 ++ leBytes slot.toNat 2 ++ wordBytes words)) h i → die.toNat < s.nDies →
    slot.toNat < 8192 → s.slotFor (s.reqTenant r.sender.val) die.toNat slot.toNat = some c → words.length = 58 → (s.loop
    die.toNat slot.toNat).pending = false → ∃ t, exec (.loopWriteBank r die slot words) s = .next t ∧ t.resultOf r i = some
    {} ∧ t.loop die.toNat slot.toNat = (s.loop die.toNat slot.toNat).writeWords (!(s.loop die.toNat slot.toNat).bank) 0
    words ∧ (t.loop die.toNat slot.toNat).active = (s.loop die.toNat slot.toNat).active) ∧
  (∀ (r : Req) (die : Byte) (slot : BitVec 16) (reset : Byte) (h : ReqHead) (i : Nat) (c : LoopCfg) (x : LoopSlot) (s :
    State), s.offers r 0x0705 (· == pack [(die.toNat, 1), (slot.toNat, 2), (reset.toNat, 1)]) h i → die.toNat < s.nDies →
    slot.toNat < 8192 → s.slotFor (s.reqTenant r.sender.val) die.toNat slot.toNat = some c → reset.toNat ≤ 1 → s.loop
    die.toNat slot.toNat = x → x.pending = false → swapErrOf x.inactive (loadOf (s.dieLoops die.toNat) fun y => if y.slot =
    slot.toNat then x.inactive.nsec.toNat else (s.loop die.toNat y.slot).active.nsec.toNat) = 0 → ∃ t, exec (.loopSwap r die
    slot reset) s = .next t ∧ t.resultOf r i = none ∧ (t.loop die.toNat slot.toNat).pending = true ∧ (t.loop die.toNat
    slot.toNat).resetSt = (reset == 1) ∧ (t.loop die.toNat slot.toNat).swapReq = some r) ∧
  (∀ (r : Req) (die : Byte) (slot ctrl : BitVec 16) (amp len : V24) (hold : Byte) (p0 rho steps records : V24) (h : ReqHead)
    (i : Nat) (c : LoopCfg) (x : TestUnit) (n : Nat) (s : State), s.offers r 0x0706 (· == pack [(die.toNat, 1), (slot.toNat,
    2), (ctrl.toNat, 2), (amp.toNat, 3), (len.toNat, 3), (hold.toNat, 1), (p0.toNat, 3), (rho.toNat, 3), (steps.toNat, 3),
    (records.toNat, 3)]) h i → die.toNat < s.nDies → slot.toNat < 8192 → s.slotFor (s.reqTenant r.sender.val) die.toNat
    slot.toNat = some c → testUnitOf slot ctrl amp len hold p0 rho steps records = x → ctrl.toNat < 1024 → amp.toNat < 2 ^
    23 → len.toNat ≤ 1048576 → records.toNat ≤ 65536 → x.rangesOk = true → c.prot = false → (s.loop die.toNat
    slot.toNat).cfg = some c → s.unitOf die.toNat slot.toNat (fun y => y.injEn && (y.injOn || y.starting)) = none →
    (List.range 4).find? (fun j => !(s.unit die.toNat j).active) = some n → ∃ t, exec (.loopTestStart r die slot ctrl amp
    len hold p0 rho steps records) s = .next t ∧ t.resultOf r i = some { r0 := w32 n } ∧ (t.unit die.toNat n).active = true
    ∧ (t.unit die.toNat n).starting = true ∧ (t.unit die.toNat n).owner = some c.tenant ∧ (t.unit die.toNat n).slot =
    slot.toNat) ∧
  (∀ (r : Req) (die unit : Byte) (h : ReqHead) (i : Nat) (x : TestUnit) (s : State), s.offers r 0x0707 (· == [die, unit]) h
    i → die.toNat < s.nDies → unit.toNat < 4 → s.unit die.toNat unit.toNat = x → unitSeen (s.reqTenant r.sender.val) x =
    true → ∃ t, exec (.loopTestStop r die unit) s = .next t ∧ t.resultOf r i = some {} ∧ t.unit die.toNat unit.toNat =
    { x with stopping := x.stopping || x.active }) ∧
  (∀ (r : Req) (die unit : Byte) (first : V24) (h : ReqHead) (i : Nat) (x : TestUnit) (l : List CapRec) (s : State),
    s.offers r 0x0708 (· == pack [(die.toNat, 1), (unit.toNat, 1), (first.toNat, 3)]) h i → die.toNat < s.nDies → unit.toNat
    < 4 → s.unit die.toNat unit.toNat = x → unitSeen (s.reqTenant r.sender.val) x = true → ((x.records.take x.count).drop
    first.toNat).take (h.rlen / 16) = l → ∃ t, exec (.loopTestRead r die unit first) s = .next t ∧ t.resultOf r i = some
    { r0 := w32 (tuWord x 0x2C), r1 := w32 l.length, r2 := lo32 x.t0.toNat, r3 := hi32 x.t0.toNat, resp := l.flatMap CapRec.bytes })
    ∧
  (∀ (r : Req) (die : Byte) (h : ReqHead) (i : Nat) (s : State), s.offers r 0x0709 (· == [die]) h i → s.reqTenant
    r.sender.val = 0 → die.toNat < s.nDies → ∃ t, exec (.loopBudget r die) s = .next t ∧ t.resultOf r i = some
    { r0 := w32 (s.lpeLoad die.toNat), r1 := (s.lpe die.toNat).peak.setWidth 32, r2 := w32 (localCount (s.dieLoops die.toNat)) }
    ∧ t.loops = s.loops)

/-- A landlord request of group 0x0E or 0x0F that may start and passes its checks has its effect: the copies and the
vault are described; an image that is signed, whole and of the stated size goes to the copy that is not in use,
under the next SEQ; a load begins; a credential slot is set or erased; a key of a tenant gets its next generation,
at most 127, which the module then holds, and a history key waits for the store's start to give the first (the
model's reading: assumption log entry 60); an escrow bundle of the tenant's held history keys, wrapped under an
ephemeral key of free choice, is exported, its algorithms being functions of Config. (R321, R326, R330, R331, R340,
R376, R377) -/
def Obligations.ConfigurationAndSecurityRequestsTakeEffect : Prop :=
  (∀ (r : Req) (h : ReqHead) (i : Nat) (s : State), s.offers r 0x0E01 (· == []) h i → s.reqTenant r.sender.val = 0 → ∃ t,
    exec (.cfgStatus r) s = .next t ∧ t.resultOf r i = some
    { r0 := s.su.copyA.seq, r1 := s.su.copyB.seq, r2 := w32 (flag (s.copyValid false) 0 + flag (s.copyValid true) 1 + flag (s.su.inUse == some true) 2) }
    ∧ t.su = s.su) ∧
  (∀ (r : Req) (img : Image) (ck : ImageCheck) (h : ReqHead) (i : Nat) (b : Bool) (s : State), s.offers r 0x0E02 (fun _ =>
    true) h i → s.reqTenant r.sender.val = 0 → s.signed ck = true → ck.digestOk = true → ck.sizeOk = true → s.su.inUse =
    some b → ∃ t, exec (.cfgWrite r img ck) s = .next t ∧ t.resultOf r i = some { r0 := w32 (flag (!b) 0) } ∧ (t.copy
    (!b)).good = true ∧ (t.copy (!b)).img = img ∧ (t.copy (!b)).signer = ck.signer ∧ (t.copy (!b)).seq = s.nextCopySeq ∧
    t.copy b = s.copy b ∧ t.cfg = s.cfg) ∧
  (∀ (r : Req) (img : Image) (ck : ImageCheck) (h : ReqHead) (i : Nat) (s : State), s.offers r 0x0E02 (fun _ => true) h i →
    s.reqTenant r.sender.val = 0 → s.signed ck = false → ∃ t, exec (.cfgWrite r img ck) s = .next t ∧ t.resultOf r i = some
    (refusal stInvalid 1) ∧ t.su = s.su ∧ t.sec.sigFail = addW s.sec.sigFail 1) ∧
  (∀ (r : Req) (h : ReqHead) (i : Nat) (s : State), s.offers r 0x0E03 (· == []) h i → s.reqTenant r.sender.val = 0 →
    s.copies ≠ [] → ∃ t, exec (.cfgActivate r) s = .next t ∧ t.resultOf r i = none ∧ t.su.loading = true ∧ t.cfg = s.cfg) ∧
  (∀ (r : Req) (h : ReqHead) (i : Nat) (s : State), s.offers r 0x0F01 (· == []) h i → s.reqTenant r.sender.val = 0 → ∃ t,
    exec (.secStatus r) s = .next t ∧ t.resultOf r i = some
    { r0 := w32 s.secVault, r1 := w32 s.sec.fuses, r2 := w32 s.secBark } ∧ t.sec = s.sec) ∧
  (∀ (r : Req) (slot : Byte) (ten : BitVec 16) (ckind : Byte) (verifier : List Byte) (h : ReqHead) (i : Nat) (s : State),
    s.offers r 0x0F02 (· == (pack [(slot.toNat, 1), (ten.toNat, 2)] ++ ckind :: verifier)) h i → s.reqTenant r.sender.val =
    0 → slot.toNat < 64 → 1 ≤ ckind.toNat → ckind.toNat ≤ 2 → ten.toNat ≤ 0xFFF → s.inTable (ten.setWidth 12) = true → ∃ t,
    exec (.secCredSet r slot ten ckind verifier) s = .next t ∧ t.resultOf r i = some {} ∧ t.credSlot slot.toNat =
    { ckind := ckind, tenant := ten.setWidth 12, verifier := verifier }) ∧
  (∀ (r : Req) (slot : Byte) (ten : BitVec 16) (ckind : Byte) (verifier : List Byte) (h : ReqHead) (i : Nat) (s : State),
    s.offers r 0x0F02 (· == (pack [(slot.toNat, 1), (ten.toNat, 2)] ++ ckind :: verifier)) h i → s.reqTenant r.sender.val =
    0 → slot.toNat < 64 → ckind = 0 → ten.toNat ≤ 0xFFF → ∃ t, exec (.secCredSet r slot ten ckind verifier) s = .next t ∧
    t.resultOf r i = some {} ∧ t.credSlot slot.toNat = {}) ∧
  (∀ (r : Req) (ten : BitVec 16) (kind : Byte) (h : ReqHead) (i : Nat) (g : Nat) (s : State), s.offers r 0x0F03 (· == pack
    [(ten.toNat, 2), (kind.toNat, 1)]) h i → s.reqTenant r.sender.val = 0 → kind = 0 → ten.toNat ≤ 0xFFF → s.inTable
    (ten.setWidth 12) = true → shas s.sec.histGen ten.toNat = true → sget 0 s.sec.histGen ten.toNat = g → g < 127 → ∃ t,
    exec (.secKeyRotate r ten kind) s = .next t ∧ t.resultOf r i = some { r0 := w32 (g + 1) } ∧ sget 0 t.sec.histGen
    ten.toNat = g + 1 ∧ (t.sec.key? (.hist ten.toNat (g + 1))).isSome = true ∧ t.sec.integGen = s.sec.integGen) ∧
  (∀ (r : Req) (ten : BitVec 16) (kind : Byte) (h : ReqHead) (i : Nat) (s : State), s.offers r 0x0F03 (· == pack
    [(ten.toNat, 2), (kind.toNat, 1)]) h i → kind = 0 → s.inTable (ten.setWidth 12) = true → shas s.sec.histGen ten.toNat =
    false → ∃ t, exec (.secKeyRotate r ten kind) s = .next t ∧ t.resultOf r i = none ∧ t.sec = s.sec) ∧
  (∀ (r : Req) (ten : BitVec 16) (kind : Byte) (h : ReqHead) (i : Nat) (g : Nat) (s : State), s.offers r 0x0F03 (· == pack
    [(ten.toNat, 2), (kind.toNat, 1)]) h i → s.reqTenant r.sender.val = 0 → kind = 1 → ten.toNat ≤ 0xFFF → s.inTable
    (ten.setWidth 12) = true → sget 0 s.sec.integGen ten.toNat = g → g < 127 → ∃ t, exec (.secKeyRotate r ten kind) s =
    .next t ∧ t.resultOf r i = some { r0 := w32 (g + 1) } ∧ sget 0 t.sec.integGen ten.toNat = g + 1 ∧ (t.sec.key? (.integ
    ten.toNat (g + 1))).isSome = true ∧ t.sec.histGen = s.sec.histGen) ∧
  (∀ (r : Req) (ten : BitVec 16) (key : Word) (h : ReqHead) (i : Nat) (e : Nat × List Byte) (s : State), s.offers r 0x0F04
    (· == pack [(ten.toNat, 2), (key.toNat, 4)]) h i → s.reqTenant r.sender.val = 0 → ten.toNat ≤ 0xFFF → s.inTable
    (ten.setWidth 12) = true → s.cfg.crownKeys.find? (fun e => e.1 == key.toNat) = some e → ∃ t, exec (.secEscrowExport r
    ten key) s = .next t ∧ (∃ x, t.resultOf r i = some
    { resp := Config.bundleLayout s.host.serial (ten.setWidth 12) (s.histKeysOf (ten.setWidth 12)).length (Config.ecPublic x) ((s.histKeysOf (ten.setWidth 12)).map (Config.keyWrap (Config.escrowKdf x e.2))) })
    ∧ t.sec = s.sec)

/-- A request of group 0x08 that may start and passes its checks has its effect: the channels that the requester sees,
the groups and a motion channel are read, a latched channel is cleared, the self-test interval and the watchdog are
set, and a move begins, whose request waits for its end. (R195, R197, R198, R199, R205, R208, R320) -/
def Obligations.FieldRequestsTakeEffect : Prop :=
  (∀ (r : Req) (h : ReqHead) (i : Nat) (l : List Nat) (s : State), s.offers r 0x0801 (· == []) h i → (List.range 64).filter
    (s.chanSeen (s.reqTenant r.sender.val)) = l → ∃ t, exec (.fioStatus r) s = .next t ∧ t.resultOf r i = some
    { resp := (s.chanRows l).1 } ∧ t.fio = s.fio) ∧
  (∀ (r : Req) (h : ReqHead) (i : Nat) (s : State), s.offers r 0x0802 (· == []) h i → s.reqTenant r.sender.val = 0 → ∃ t,
    exec (.fioGroups r) s = .next t ∧ t.resultOf r i = some (okWords (w32 (s.groupWord 0)) (w32 (s.groupWord 1)) (w32
    (s.groupWord 2)) (w32 (s.groupWord 3)) (w32 s.fioStatus)) ∧ t.fio = s.fio) ∧
  (∀ (r : Req) (ch : Byte) (h : ReqHead) (i : Nat) (s : State), s.offers r 0x0803 (· == [ch]) h i → ch.toNat < 64 →
    s.chanSeen (s.reqTenant r.sender.val) ch.toNat = true → (s.chan ch.toNat).latched = true → s.motionOwns ch.toNat = false
    → ∃ t, exec (.fioClear r ch) s = .next t ∧ t.resultOf r i = some {} ∧ t.chan ch.toNat =
    { s.chan ch.toNat with latched := false, short := false, thermal := false, groupOvl := false }) ∧
  (∀ (r : Req) (action : Byte) (interval : BitVec 16) (h : ReqHead) (i : Nat) (s : State), s.offers r 0x0804 (· == pack
    [(action.toNat, 1), (interval.toNat, 2)]) h i → s.reqTenant r.sender.val = 0 → action = 1 → interval.toNat ≤ 3600 → ∃ t,
    exec (.fioSelftest r action interval) s = .next t ∧ t.resultOf r i = some {} ∧ t.fio.stInt = interval.toNat ∧ t.fio.pass
    = none) ∧
  (∀ (r : Req) (action : Byte) (interval : BitVec 16) (h : ReqHead) (i : Nat) (c : Nat) (s : State), s.offers r 0x0804 (· ==
    pack [(action.toNat, 1), (interval.toNat, 2)]) h i → s.reqTenant r.sender.val = 0 → action = 0 → interval.toNat ≤ 3600 →
    s.fio.configured = true → s.stNext 0 = some c → ∃ t, exec (.fioSelftest r action interval) s = .next t ∧ t.resultOf r i
    = some {} ∧ t.fio.stInt = interval.toNat ∧ t.fio.pass = some c ∧ (t.chan c).stBusy = true) ∧
  (∀ (r : Req) (tmo : BitVec 16) (logic : Byte) (h : ReqHead) (i : Nat) (s : State), s.offers r 0x0805 (· == pack
    [(tmo.toNat, 2), (logic.toNat, 1)]) h i → s.reqTenant r.sender.val = 0 → 10 ≤ tmo.toNat → tmo.toNat ≤ 10000 →
    logic.toNat ≤ 1 → ∃ t, exec (.fioWatchdog r tmo logic) s = .next t ∧ t.resultOf r i = some {} ∧ t.fio.wdTmo = tmo.toNat
    ∧ t.fio.wdLogic = (logic == 1) ∧ t.fio.chans = s.fio.chans) ∧
  (∀ (r : Req) (m cmd : Byte) (target : V24) (h : ReqHead) (i : Nat) (c : MotCfg) (x : Motion) (s : State), s.offers r
    0x0806 (· == pack [(m.toNat, 1), (cmd.toNat, 1), (target.toNat, 3)]) h i → m.toNat < 8 → cmd = 1 → s.motCfg? m.toNat =
    some c → reaches (s.reqTenant r.sender.val) c.tenant = true → s.fio.safe = false → (s.group 3).missing = false → (s.chan
    (legCh m.toNat true)).on = false → s.mot m.toNat = x → x.fault = 0 → x.state = .idle → x.dtPend = false → x.reqs = [] →
    s.limitOn m.toNat false = false → ∃ t, exec (.motCmd r m cmd target) s = .next t ∧ t.resultOf r i = none ∧ (t.mot
    m.toNat).state = .far ∧ (t.mot m.toNat).goal = some .farLimit ∧ (t.mot m.toNat).lastLeg = some false ∧ (t.mot
    m.toNat).reqs = [r]) ∧
  (∀ (r : Req) (m : Byte) (h : ReqHead) (i : Nat) (c : MotCfg) (s : State), s.offers r 0x0807 (· == [m]) h i → m.toNat < 8 →
    s.motCfg? m.toNat = some c → reaches (s.reqTenant r.sender.val) c.tenant = true → ∃ t, exec (.motStatus r m) s = .next t
    ∧ t.resultOf r i = some (okWords (w32 (s.motWord m.toNat 0x14)) (w32 (s.motWord m.toNat 0x08)) (w32 (s.motWord m.toNat
    0x0C)) (w32 (s.motWord m.toNat 0x10)) (w32 (s.motWord m.toNat 0x20))) ∧ t.fio = s.fio)

/-- A request of group 0x09 that may start and passes its checks has its effect: a circuit, a voltage set, harmonics,
totals and the configuration are read, totals are marked to be cleared after the next write, a calibration set is
read, measured and written (at once while metering is stopped, at the next second otherwise), the self-test starts
or stops, and a wave stream starts on DMA channel 11 and ends. (R218, R219, R222, R225, R226, R227, R228, R320) -/
def Obligations.MeteringRequestsTakeEffect : Prop :=
  (∀ (r : Req) (k : Byte) (h : ReqHead) (i : Nat) (c : CircuitCfg) (s : State), s.offers r 0x0901 (· == [k]) h i → k.toNat <
    48 → s.circuitCfg? k.toNat = some c → reaches (s.reqTenant r.sender.val) c.tenant = true → ∃ t, exec (.mtrCircuit r k) s
    = .next t ∧ t.resultOf r i = some
    { resp := wordBytes ((List.range 10).map fun j => w32 (s.circuitWord k.toNat (8 + 4 * j))) ++ (List.range 6).flatMap fun e => leBytes (sget 0 (s.circuit k.toNat).shown e).toNat 8 }
    ∧ t.mtr = s.mtr) ∧
  (∀ (r : Req) (set : Byte) (h : ReqHead) (i : Nat) (s : State), s.offers r 0x0902 (· == [set]) h i → s.reqTenant
    r.sender.val = 0 → set.toNat < 2 → ∃ t, exec (.mtrVset r set) s = .next t ∧ t.resultOf r i = some
    { resp := wordBytes ((List.range 10).map fun j => w32 (s.vsetWord set.toNat (4 * j))) } ∧ t.mtr = s.mtr) ∧
  (∀ (r : Req) (input orders : Byte) (h : ReqHead) (i : Nat) (s : State), s.offers r 0x0903 (· == [input, orders]) h i →
    input.toNat < 54 → 1 ≤ orders.toNat → orders.toNat ≤ 63 → s.inputSeen (s.reqTenant r.sender.val) input.toNat = true → ∃
    t, exec (.mtrHarm r input orders) s = .next t ∧ t.resultOf r i = some
    { resp := (List.range orders.toNat).flatMap fun j => leBytes ((s.minput input.toNat).harm.mag.getD j 0) 4 ++ leBytes (BitVec.ofInt 16 ((s.minput input.toNat).harm.phase.getD j 0)).toNat 2 }
    ∧ t.mtr = s.mtr) ∧
  (∀ (r : Req) (k : Byte) (h : ReqHead) (i : Nat) (c : CircuitCfg) (s : State), s.offers r 0x0904 (· == [k]) h i → k.toNat <
    48 → s.circuitCfg? k.toNat = some c → reaches (s.reqTenant r.sender.val) c.tenant = true → ∃ t, exec (.mtrTotals r k) s
    = .next t ∧ t.resultOf r i = some
    { r0 := lo32 s.mtr.sec.toNat, resp := ((List.range 6).flatMap fun e => leBytes (sget 0 (s.circuit k.toNat).shown e).toNat 8) ++ (List.range 6).flatMap fun e => leBytes (sget 0 (s.circuit k.toNat).shownRes e).toNat 4 }
    ∧ t.mtr = s.mtr) ∧
  (∀ (r : Req) (k : Byte) (h : ReqHead) (i : Nat) (c : CircuitCfg) (s : State), s.offers r 0x0905 (· == [k]) h i →
    s.reqTenant r.sender.val = 0 → k.toNat < 48 → s.circuitCfg? k.toNat = some c → ∃ t, exec (.mtrTotalsClear r k) s = .next
    t ∧ t.resultOf r i = some {} ∧ (t.circuit k.toNat).clear = true ∧ (t.circuit k.toNat).e = (s.circuit k.toNat).e) ∧
  (∀ (r : Req) (input : Byte) (h : ReqHead) (i : Nat) (b : List Byte) (s : State), s.offers r 0x0906 (· == [input]) h i →
    s.reqTenant r.sender.val = 0 → input.toNat < 54 → calBytes (s.minput input.toNat).stored = b → ∃ t, exec (.mtrCalRead r
    input) s = .next t ∧ t.resultOf r i = some { resp := b ++ leBytes (s.minput input.toNat).crc.toNat 4 } ∧ t.mtr = s.mtr)
    ∧
  (∀ (r : Req) (input : Byte) (h : ReqHead) (i : Nat) (s : State), s.offers r 0x0907 (· == [input]) h i → s.reqTenant
    r.sender.val = 0 → input.toNat < 54 → s.mtr.stActive = false → ∃ t, exec (.mtrCalMeasure r input) s = .next t ∧
    t.resultOf r i = none ∧ t.mtr.measures = s.mtr.measures ++
    [{ input := input.toNat, req := r, cal := (s.minput input.toNat).cal }]) ∧
  (∀ (r : Req) (input : Byte) (gain phase offset itrim : Word) (h : ReqHead) (i : Nat) (s : State), s.offers r 0x0908 (· ==
    pack [(input.toNat, 1), (gain.toNat, 4), (phase.toNat, 4), (offset.toNat, 4), (itrim.toNat, 4)]) h i → s.reqTenant
    r.sender.val = 0 → input.toNat < 54 → phase.toNat < 2 ^ 24 → offset.toNat < 2 ^ 24 → itrim.toNat < 2 ^ 24 → 0x200000 ≤
    gain.toNat → gain.toNat ≤ 0x800000 → -1048576 ≤ (phase.setWidth 24).toInt → (phase.setWidth 24).toInt ≤ 1048576 →
    s.mtr.running = true → ∃ t, exec (.mtrCalWrite r input gain phase offset itrim) s = .next t ∧ t.resultOf r i = some {} ∧
    t.minput input.toNat =
    { s.minput input.toNat with crc := crc32 (calBytes (gain.setWidth 24, phase.setWidth 24, offset.setWidth 24, itrim.setWidth 24)), nextCal := some (gain.setWidth 24, phase.setWidth 24, offset.setWidth 24, itrim.setWidth 24) })
    ∧
  (∀ (r : Req) (input : Byte) (gain phase offset itrim : Word) (h : ReqHead) (i : Nat) (s : State), s.offers r 0x0908 (· ==
    pack [(input.toNat, 1), (gain.toNat, 4), (phase.toNat, 4), (offset.toNat, 4), (itrim.toNat, 4)]) h i → s.reqTenant
    r.sender.val = 0 → input.toNat < 54 → phase.toNat < 2 ^ 24 → offset.toNat < 2 ^ 24 → itrim.toNat < 2 ^ 24 → 0x200000 ≤
    gain.toNat → gain.toNat ≤ 0x800000 → -1048576 ≤ (phase.setWidth 24).toInt → (phase.setWidth 24).toInt ≤ 1048576 →
    s.mtr.running = false → ∃ t, exec (.mtrCalWrite r input gain phase offset itrim) s = .next t ∧ t.resultOf r i = some {}
    ∧ t.minput input.toNat =
    { s.minput input.toNat with crc := crc32 (calBytes (gain.setWidth 24, phase.setWidth 24, offset.setWidth 24, itrim.setWidth 24)), gain := gain.setWidth 24, phase := phase.setWidth 24, offset := offset.setWidth 24, itrim := itrim.setWidth 24, calBad := false, nextCal := none })
    ∧
  (∀ (r : Req) (action : Byte) (interval : BitVec 16) (h : ReqHead) (i : Nat) (s : State), s.offers r 0x0909 (· == pack
    [(action.toNat, 1), (interval.toNat, 2)]) h i → s.reqTenant r.sender.val = 0 → action = 0 → interval.toNat ≤ 1440 → ∃ t,
    exec (.mtrSelftest r action interval) s = .next t ∧ t.resultOf r i = some {} ∧ t.mtr.stInt = interval.toNat ∧
    t.mtr.stActive = true) ∧
  (∀ (r : Req) (action : Byte) (interval : BitVec 16) (h : ReqHead) (i : Nat) (s : State), s.offers r 0x0909 (· == pack
    [(action.toNat, 1), (interval.toNat, 2)]) h i → s.reqTenant r.sender.val = 0 → action = 1 → interval.toNat ≤ 1440 → ∃ t,
    exec (.mtrSelftest r action interval) s = .next t ∧ t.resultOf r i = some {} ∧ t.mtr.stInt = interval.toNat ∧
    t.mtr.stActive = false) ∧
  (∀ (r : Req) (mask : BitVec 64) (frames : Word) (va : BitVec 64) (h : ReqHead) (i : Nat) (l : List Nat) (s : State),
    s.offers r 0x090A (· == pack [(mask.toNat, 8), (frames.toNat, 4), (va.toNat, 8)]) h i → mask ≠ 0 → mask.toNat < 2 ^ 54 →
    frames ≠ 0 → va.toNat < 2 ^ 36 → s.mtr.wave = none → (s.dch 0 11).state = .idle → (List.range 54).filter (fun c =>
    mask.getLsbD c) = l → l.all (s.inputSeen (s.reqTenant r.sender.val)) = true → ∃ t, exec (.mtrWaveStart r mask frames va)
    s = .next t ∧ t.resultOf r i = some {} ∧ t.mtr.wave = some
    { inputs := l, frames := frames.toNat, va := va.toNat, tenant := s.reqTenant r.sender.val } ∧ (t.dch 0 11).prio = 2 ∧
    (t.dch 0 11).ctx = BitVec.ofNat 16 (s.ctxOf (s.reqTenant r.sender.val) 10)) ∧
  (∀ (r : Req) (h : ReqHead) (i : Nat) (w : WaveRun) (s : State), s.offers r 0x090B (· == []) h i → s.mtr.wave = some w →
    reaches (s.reqTenant r.sender.val) w.tenant = true → ∃ t, exec (.mtrWaveStop r) s = .next t ∧ t.resultOf r i = some
    { r0 := w32 (s.waveWritten w) } ∧ t.mtr.wave = none ∧ t.mtr.waveLast = some w) ∧
  (∀ (r : Req) (h : ReqHead) (i : Nat) (s : State), s.offers r 0x090C (· == []) h i → s.reqTenant r.sender.val = 0 → ∃ t,
    exec (.mtrConfigRead r) s = .next t ∧ t.resultOf r i = some
    { resp := wordBytes (((List.range 54).flatMap fun c => [w32 (s.minputWord c 0), w32 (s.minputWord c 4)]) ++ (List.range 48).flatMap fun c => [w32 (s.circuitWord c 0), w32 (s.circuitWord c 4)]) }
    ∧ t.mtr = s.mtr)

/-- A request of group 0x0C or 0x0D that may start and passes its checks has its effect: a credential record is added at
the lowest free index, deleted and read; a door is commanded and described; locations are deleted; time is read and
set, a set with ring time in use, or coming into use in the same ms (the model's reading of the queue: assumption
log entry 65), is refused after its offset is taken; the RTC trim is set and its user area and system area are read
and written. (R342, R343, R348, R349, R355, R359, R362, R321) -/
def Obligations.AccessAndTimeRequestsTakeEffect : Prop :=
  (∀ (r : Req) (c : Cred) (h : ReqHead) (i : Nat) (n : Nat) (s : State), s.offers r 0x0C01 (· == (credBytes c)) h i → credOk
    c = true → reaches (s.reqTenant r.sender.val) c.tenant = true → s.inTable c.tenant = true → c.doors.all (s.entryOk
    c.tenant) = true → s.sec.records.any (fun e => e.2.tenant == c.tenant && e.2.cid == c.cid) = false → freeIndex 0
    s.sec.records = n → n < 2 ^ 20 → ∃ t, exec (.accCredAdd r c) s = .next t ∧ t.resultOf r i = some { r0 := w32 n } ∧ sfind
    t.sec.records n = some c) ∧
  (∀ (r : Req) (idx : Word) (h : ReqHead) (i : Nat) (c : Cred) (s : State), s.offers r 0x0C02 (· == pack [(idx.toNat, 4)]) h
    i → sfind s.sec.records idx.toNat = some c → reaches (s.reqTenant r.sender.val) c.tenant = true → ∃ t, exec (.accCredDel
    r idx) s = .next t ∧ t.resultOf r i = some {} ∧ sfind t.sec.records idx.toNat = none ∧ sfind t.sec.locs idx.toNat =
    none) ∧
  (∀ (r : Req) (idx : Word) (h : ReqHead) (i : Nat) (c : Cred) (s : State), s.offers r 0x0C03 (· == pack [(idx.toNat, 4)]) h
    i → sfind s.sec.records idx.toNat = some c → reaches (s.reqTenant r.sender.val) c.tenant = true → ∃ t, exec
    (.accCredRead r idx) s = .next t ∧ t.resultOf r i = some { resp := credBytes c } ∧ t.sec = s.sec) ∧
  (∀ (r : Req) (door : BitVec 16) (action : Byte) (seconds : BitVec 16) (h : ReqHead) (i : Nat) (c : DoorCfg) (s : State),
    s.offers r 0x0C04 (· == pack [(door.toNat, 2), (action.toNat, 1), (seconds.toNat, 2)]) h i → door.toNat < 2048 → action
    = 2 → 1 ≤ seconds.toNat → seconds.toNat ≤ 600 → s.doorFor (s.reqTenant r.sender.val) door.toNat = some c → (s.port
    c.port).running = true → s.nodeState c.port c.addr = .present → ∃ t, exec (.accDoorCmd r door action seconds) s = .next
    t ∧ t.resultOf r i = some { r0 := w32 (t.doorCode c) } ∧ (t.door c.door).unlocked = true ∧ (t.door c.door).lockAt = some
    (s.now + 16000 * seconds.toNat)) ∧
  (∀ (r : Req) (door : BitVec 16) (action : Byte) (seconds : BitVec 16) (h : ReqHead) (i : Nat) (c : DoorCfg) (s : State),
    s.offers r 0x0C04 (· == pack [(door.toNat, 2), (action.toNat, 1), (seconds.toNat, 2)]) h i → door.toNat < 2048 → action
    = 0 → s.doorFor (s.reqTenant r.sender.val) door.toNat = some c → (s.port c.port).running = true → s.nodeState c.port
    c.addr = .present → ∃ t, exec (.accDoorCmd r door action seconds) s = .next t ∧ t.resultOf r i = some
    { r0 := w32 (t.doorCode c) } ∧ (t.door c.door).unlocked = false ∧ (t.door c.door).lockAt = none) ∧
  (∀ (r : Req) (door : BitVec 16) (h : ReqHead) (i : Nat) (c : DoorCfg) (s : State), s.offers r 0x0C05 (· == pack
    [(door.toNat, 2)]) h i → door.toNat < 2048 → s.doorFor (s.reqTenant r.sender.val) door.toNat = some c → ∃ t, exec
    (.accDoorStatus r door) s = .next t ∧ t.resultOf r i = some { r0 := w32 (s.doorCode c), r1 := (s.door c.door).last } ∧
    t.sec = s.sec) ∧
  (∀ (r : Req) (area : BitVec 16) (idx : Word) (h : ReqHead) (i : Nat) (s : State), s.offers r 0x0C06 (· == pack
    [(area.toNat, 2), (idx.toNat, 4)]) h i → s.reqTenant r.sender.val = 0 → area.toNat < 1024 → idx = 0xFFFFFFFF → ∃ t, exec
    (.accPassbackReset r area idx) s = .next t ∧ t.resultOf r i = some {} ∧ t.sec.locs = s.sec.locs.filter (fun e => e.2.1
    != area.toNat)) ∧
  (∀ (r : Req) (h : ReqHead) (i : Nat) (s : State), s.offers r 0x0D01 (· == []) h i → ∃ t, exec (.timeGet r) s = .next t ∧
    t.resultOf r i = some { r0 := lo32 s.utcNow, r1 := hi32 s.utcNow, r2 := w32 s.host.snap.stat } ∧ t.time = s.time) ∧
  (∀ (r : Req) (utcMs : BitVec 48) (offset : BitVec 16) (h : ReqHead) (i : Nat) (s : State), s.offers r 0x0D02 (· == pack
    [(utcMs.toNat, 6), (offset.toNat, 2)]) h i → s.reqTenant r.sender.val = 0 → utcMs.toNat < 3155760000000 → -1080 ≤
    offset.toInt → offset.toInt ≤ 1080 → s.ringInUse = false → s.mappingAhead (15 - s.now % 16) s.pending = false → ∃ t,
    exec (.timeSet r utcMs offset) s = .next t ∧ t.resultOf r i = some {} ∧ t.time.utcOk = true ∧ t.utcNow = utcMs.toNat ∧
    t.time.offset = offset.toInt) ∧
  (∀ (r : Req) (utcMs : BitVec 48) (offset : BitVec 16) (h : ReqHead) (i : Nat) (s : State), s.offers r 0x0D02 (· == pack
    [(utcMs.toNat, 6), (offset.toNat, 2)]) h i → s.reqTenant r.sender.val = 0 → utcMs.toNat < 3155760000000 → -1080 ≤
    offset.toInt → offset.toInt ≤ 1080 → (s.ringInUse = true ∨ s.mappingAhead (15 - s.now % 16) s.pending = true) → ∃ t,
    exec (.timeSet r utcMs offset) s = .next t ∧ t.resultOf r i = some (refusal stWrongMode 0) ∧ t.time =
    { s.time with offset := offset.toInt }) ∧
  (∀ (r : Req) (add : Byte) (n : BitVec 16) (h : ReqHead) (i : Nat) (s : State), s.offers r 0x0D03 (· == pack [(add.toNat,
    1), (n.toNat, 2)]) h i → s.reqTenant r.sender.val = 0 → add.toNat ≤ 1 → n.toNat ≤ 1023 → ∃ t, exec (.rtcTrim r add n) s
    = .next t ∧ t.resultOf r i = some {} ∧ t.time = s.time.setTrim (add == 1) (n.setWidth 10)) ∧
  (∀ (r : Req) (first count : Byte) (h : ReqHead) (i : Nat) (s : State), s.offers r 0x0D04 (· == [first, count]) h i →
    s.reqTenant r.sender.val = 0 → 1 ≤ count.toNat → first.toNat + count.toNat ≤ 64 → ∃ t, exec (.rtcUserRead r first count)
    s = .next t ∧ t.resultOf r i = some { resp := (List.range count.toNat).map fun j => userByte s.time (first.toNat + j) }
    ∧ t.time = s.time) ∧
  (∀ (r : Req) (first count : Byte) (bytes : List Byte) (h : ReqHead) (i : Nat) (j : Nat) (s : State), s.offers r 0x0D05 (·
    == (first :: count :: bytes)) h i → s.reqTenant r.sender.val = 0 → 1 ≤ count.toNat → first.toNat + count.toNat ≤ 64 →
    bytes.length = count.toNat → j < count.toNat → ∃ t, exec (.rtcUserWrite r first count bytes) s = .next t ∧ t.resultOf r
    i = some {} ∧ userByte t.time (first.toNat + j) = bytes.getD j 0) ∧
  (∀ (r : Req) (h : ReqHead) (i : Nat) (s : State), s.offers r 0x0D06 (· == []) h i → s.reqTenant r.sender.val = 0 → ∃ t,
    exec (.rtcSysRead r) s = .next t ∧ t.resultOf r i = some { resp := s.sysBytes } ∧ t.time = s.time)
end

