-- ==== Sys2Proof/Laws/Tables.lean ====
section
/-! SUPPORT. Laws of the sparse tables: what is read back after a write, a change or a removal. -/
namespace Sys2Proof.Machine

variable {α : Type}

@[simp] theorem sget_nil (d : α) (k : Nat) : sget d [] k = d := rfl
@[simp] theorem sfind_nil (k : Nat) : sfind ([] : Map α) k = none := rfl

/-- A written entry reads back. -/
@[simp] theorem sget_sput_same (d : α) (m : Map α) (k : Nat) (a : α) : sget d (sput m k a) k = a := by
  induction m with
  | nil => simp [sput, sget]
  | cons e m ih =>
    obtain ⟨j, b⟩ := e
    simp only [sput]
    split
    · simp [sget]
    · split
      · simp [sget]
      · have : ¬j = k := by omega
        simp [sget, this, ih]

/-- A write leaves every other entry alone. -/
theorem sget_sput_ne (d : α) (m : Map α) {k j : Nat} (a : α) (h : k ≠ j) : sget d (sput m k a) j = sget d m j := by
  induction m with
  | nil => simp [sput, sget, h]
  | cons e m ih =>
    obtain ⟨i, b⟩ := e
    simp only [sput]
    split
    · simp [sget, h]
    · split
      · rename_i h1 h2; subst h2; simp [sget, h]
      · simp [sget, ih]

theorem sget_sput (d : α) (m : Map α) (k j : Nat) (a : α) : sget d (sput m k a) j = if k = j then a else sget d m j := by
  split
  · rename_i h; subst h; exact sget_sput_same d m k a
  · rename_i h; exact sget_sput_ne d m a h

/-- The same for a look-up that says whether there is an entry. -/
@[simp] theorem sfind_sput_same (m : Map α) (k : Nat) (a : α) : sfind (sput m k a) k = some a := by
  induction m with
  | nil => simp [sput, sfind]
  | cons e m ih =>
    obtain ⟨j, b⟩ := e
    simp only [sput]
    split
    · simp [sfind]
    · split
      · simp [sfind]
      · have : ¬j = k := by omega
        simp [sfind, this, ih]
theorem sfind_sput_ne (m : Map α) {k j : Nat} (a : α) (h : k ≠ j) : sfind (sput m k a) j = sfind m j := by
  induction m with
  | nil => simp [sput, sfind, h]
  | cons e m ih =>
    obtain ⟨i, b⟩ := e
    simp only [sput]
    split
    · simp [sfind, h]
    · split
      · rename_i h1 h2; subst h2; simp [sfind, h]
      · simp [sfind, ih]

/-- A change reads back, and leaves every other entry alone. -/
@[simp] theorem sget_supd_same (d : α) (m : Map α) (k : Nat) (f : α → α) : sget d (supd d m k f) k = f (sget d m k) := by
  simp [supd]
theorem sget_supd_ne (d : α) (m : Map α) {k j : Nat} (f : α → α) (h : k ≠ j) : sget d (supd d m k f) j = sget d m j := by
  simp [supd, sget_sput_ne d m _ h]

/-- A removed entry is gone, and the others stay. -/
@[simp] theorem sfind_sdel_same (m : Map α) (k : Nat) : sfind (sdel m k) k = none := by
  induction m with
  | nil => rfl
  | cons e m ih =>
    obtain ⟨j, b⟩ := e
    simp only [sdel, List.filter_cons] at *
    split
    · rename_i h
      have : ¬j = k := by simpa using h
      simp [sfind, this, ih]
    · exact ih
theorem sfind_sdel_ne (m : Map α) {k j : Nat} (h : k ≠ j) : sfind (sdel m k) j = sfind m j := by
  induction m with
  | nil => rfl
  | cons e m ih =>
    obtain ⟨i, b⟩ := e
    simp only [sdel, List.filter_cons] at *
    split
    · simp [sfind, ih]
    · rename_i h1
      have : i = k := by simpa using h1
      subst this
      simp [sfind, h, ih]

end Sys2Proof.Machine
end

