-- ==== Sys2Proof/Laws/State.lean ====
section
/-! SUPPORT. One lemma for each field of State and each update of it, so that no proof unfolds a record update; what an accessor
reads after its own update; and what the interrupt line's bookkeeping after a command leaves alone. -/
namespace Sys2Proof.Machine

/-! ### offer -/

@[simp] theorem State.offer_pending (s : State) (cls : Nat) (t : Tenant) (data : List Byte) : (s.offer cls t data).pending = s.pending := rfl
@[simp] theorem State.offer_member (s : State) (cls : Nat) (t : Tenant) (data : List Byte) : (s.offer cls t data).member = s.member := rfl
@[simp] theorem State.offer_tick (s : State) (cls : Nat) (t : Tenant) (data : List Byte) : (s.offer cls t data).tick = s.tick := rfl
@[simp] theorem State.offer_tickHi (s : State) (cls : Nat) (t : Tenant) (data : List Byte) : (s.offer cls t data).tickHi = s.tickHi := rfl
@[simp] theorem State.offer_links (s : State) (cls : Nat) (t : Tenant) (data : List Byte) : (s.offer cls t data).links = s.links := rfl
@[simp] theorem State.offer_cfg (s : State) (cls : Nat) (t : Tenant) (data : List Byte) : (s.offer cls t data).cfg = s.cfg := rfl
@[simp] theorem State.offer_pnt (s : State) (cls : Nat) (t : Tenant) (data : List Byte) : (s.offer cls t data).pnt = s.pnt := rfl
@[simp] theorem State.offer_ports (s : State) (cls : Nat) (t : Tenant) (data : List Byte) : (s.offer cls t data).ports = s.ports := rfl
@[simp] theorem State.offer_nodes (s : State) (cls : Nat) (t : Tenant) (data : List Byte) : (s.offer cls t data).nodes = s.nodes := rfl
@[simp] theorem State.offer_trk (s : State) (cls : Nat) (t : Tenant) (data : List Byte) : (s.offer cls t data).trk = s.trk := rfl
@[simp] theorem State.offer_outbox (s : State) (cls : Nat) (t : Tenant) (data : List Byte) : (s.offer cls t data).outbox = s.outbox ++ [{ cls := cls, tenant := t, data := data }] := rfl
@[simp] theorem State.offer_logic (s : State) (cls : Nat) (t : Tenant) (data : List Byte) : (s.offer cls t data).logic = s.logic := rfl
@[simp] theorem State.offer_cores (s : State) (cls : Nat) (t : Tenant) (data : List Byte) : (s.offer cls t data).cores = s.cores := rfl
@[simp] theorem State.offer_loopDies (s : State) (cls : Nat) (t : Tenant) (data : List Byte) : (s.offer cls t data).loopDies = s.loopDies := rfl
@[simp] theorem State.offer_loops (s : State) (cls : Nat) (t : Tenant) (data : List Byte) : (s.offer cls t data).loops = s.loops := rfl
@[simp] theorem State.offer_fio (s : State) (cls : Nat) (t : Tenant) (data : List Byte) : (s.offer cls t data).fio = s.fio := rfl
@[simp] theorem State.offer_mtr (s : State) (cls : Nat) (t : Tenant) (data : List Byte) : (s.offer cls t data).mtr = s.mtr := rfl
@[simp] theorem State.offer_mem (s : State) (cls : Nat) (t : Tenant) (data : List Byte) : (s.offer cls t data).mem = s.mem := rfl
@[simp] theorem State.offer_tags (s : State) (cls : Nat) (t : Tenant) (data : List Byte) : (s.offer cls t data).tags = s.tags := rfl
@[simp] theorem State.offer_owners (s : State) (cls : Nat) (t : Tenant) (data : List Byte) : (s.offer cls t data).owners = s.owners := rfl
@[simp] theorem State.offer_atus (s : State) (cls : Nat) (t : Tenant) (data : List Byte) : (s.offer cls t data).atus = s.atus := rfl
@[simp] theorem State.offer_dmas (s : State) (cls : Nat) (t : Tenant) (data : List Byte) : (s.offer cls t data).dmas = s.dmas := rfl
@[simp] theorem State.offer_hst (s : State) (cls : Nat) (t : Tenant) (data : List Byte) : (s.offer cls t data).hst = s.hst := rfl
@[simp] theorem State.offer_evr (s : State) (cls : Nat) (t : Tenant) (data : List Byte) : (s.offer cls t data).evr = s.evr := rfl
@[simp] theorem State.offer_host (s : State) (cls : Nat) (t : Tenant) (data : List Byte) : (s.offer cls t data).host = s.host := rfl
@[simp] theorem State.offer_sec (s : State) (cls : Nat) (t : Tenant) (data : List Byte) : (s.offer cls t data).sec = s.sec := rfl
@[simp] theorem State.offer_time (s : State) (cls : Nat) (t : Tenant) (data : List Byte) : (s.offer cls t data).time = s.time := rfl
@[simp] theorem State.offer_su (s : State) (cls : Nat) (t : Tenant) (data : List Byte) : (s.offer cls t data).su = s.su := rfl
@[simp] theorem State.offer_freeN (s : State) (cls : Nat) (t : Tenant) (data : List Byte) : (s.offer cls t data).freeN = s.freeN := rfl

/-! ### setPort -/

@[simp] theorem State.setPort_pending (s : State) (p : Nat) (x : BrPort) : (s.setPort p x).pending = s.pending := rfl
@[simp] theorem State.setPort_member (s : State) (p : Nat) (x : BrPort) : (s.setPort p x).member = s.member := rfl
@[simp] theorem State.setPort_tick (s : State) (p : Nat) (x : BrPort) : (s.setPort p x).tick = s.tick := rfl
@[simp] theorem State.setPort_tickHi (s : State) (p : Nat) (x : BrPort) : (s.setPort p x).tickHi = s.tickHi := rfl
@[simp] theorem State.setPort_links (s : State) (p : Nat) (x : BrPort) : (s.setPort p x).links = s.links := rfl
@[simp] theorem State.setPort_cfg (s : State) (p : Nat) (x : BrPort) : (s.setPort p x).cfg = s.cfg := rfl
@[simp] theorem State.setPort_pnt (s : State) (p : Nat) (x : BrPort) : (s.setPort p x).pnt = s.pnt := rfl
@[simp] theorem State.setPort_ports (s : State) (p : Nat) (x : BrPort) : (s.setPort p x).ports = sput s.ports p x := rfl
@[simp] theorem State.setPort_nodes (s : State) (p : Nat) (x : BrPort) : (s.setPort p x).nodes = s.nodes := rfl
@[simp] theorem State.setPort_trk (s : State) (p : Nat) (x : BrPort) : (s.setPort p x).trk = s.trk := rfl
@[simp] theorem State.setPort_outbox (s : State) (p : Nat) (x : BrPort) : (s.setPort p x).outbox = s.outbox := rfl
@[simp] theorem State.setPort_logic (s : State) (p : Nat) (x : BrPort) : (s.setPort p x).logic = s.logic := rfl
@[simp] theorem State.setPort_cores (s : State) (p : Nat) (x : BrPort) : (s.setPort p x).cores = s.cores := rfl
@[simp] theorem State.setPort_loopDies (s : State) (p : Nat) (x : BrPort) : (s.setPort p x).loopDies = s.loopDies := rfl
@[simp] theorem State.setPort_loops (s : State) (p : Nat) (x : BrPort) : (s.setPort p x).loops = s.loops := rfl
@[simp] theorem State.setPort_fio (s : State) (p : Nat) (x : BrPort) : (s.setPort p x).fio = s.fio := rfl
@[simp] theorem State.setPort_mtr (s : State) (p : Nat) (x : BrPort) : (s.setPort p x).mtr = s.mtr := rfl
@[simp] theorem State.setPort_mem (s : State) (p : Nat) (x : BrPort) : (s.setPort p x).mem = s.mem := rfl
@[simp] theorem State.setPort_tags (s : State) (p : Nat) (x : BrPort) : (s.setPort p x).tags = s.tags := rfl
@[simp] theorem State.setPort_owners (s : State) (p : Nat) (x : BrPort) : (s.setPort p x).owners = s.owners := rfl
@[simp] theorem State.setPort_atus (s : State) (p : Nat) (x : BrPort) : (s.setPort p x).atus = s.atus := rfl
@[simp] theorem State.setPort_dmas (s : State) (p : Nat) (x : BrPort) : (s.setPort p x).dmas = s.dmas := rfl
@[simp] theorem State.setPort_hst (s : State) (p : Nat) (x : BrPort) : (s.setPort p x).hst = s.hst := rfl
@[simp] theorem State.setPort_evr (s : State) (p : Nat) (x : BrPort) : (s.setPort p x).evr = s.evr := rfl
@[simp] theorem State.setPort_host (s : State) (p : Nat) (x : BrPort) : (s.setPort p x).host = s.host := rfl
@[simp] theorem State.setPort_sec (s : State) (p : Nat) (x : BrPort) : (s.setPort p x).sec = s.sec := rfl
@[simp] theorem State.setPort_time (s : State) (p : Nat) (x : BrPort) : (s.setPort p x).time = s.time := rfl
@[simp] theorem State.setPort_su (s : State) (p : Nat) (x : BrPort) : (s.setPort p x).su = s.su := rfl
@[simp] theorem State.setPort_freeN (s : State) (p : Nat) (x : BrPort) : (s.setPort p x).freeN = s.freeN := rfl

/-! ### modPort -/

@[simp] theorem State.modPort_pending (s : State) (p : Nat) (f : BrPort → BrPort) : (s.modPort p f).pending = s.pending := rfl
@[simp] theorem State.modPort_member (s : State) (p : Nat) (f : BrPort → BrPort) : (s.modPort p f).member = s.member := rfl
@[simp] theorem State.modPort_tick (s : State) (p : Nat) (f : BrPort → BrPort) : (s.modPort p f).tick = s.tick := rfl
@[simp] theorem State.modPort_tickHi (s : State) (p : Nat) (f : BrPort → BrPort) : (s.modPort p f).tickHi = s.tickHi := rfl
@[simp] theorem State.modPort_links (s : State) (p : Nat) (f : BrPort → BrPort) : (s.modPort p f).links = s.links := rfl
@[simp] theorem State.modPort_cfg (s : State) (p : Nat) (f : BrPort → BrPort) : (s.modPort p f).cfg = s.cfg := rfl
@[simp] theorem State.modPort_pnt (s : State) (p : Nat) (f : BrPort → BrPort) : (s.modPort p f).pnt = s.pnt := rfl
@[simp] theorem State.modPort_ports (s : State) (p : Nat) (f : BrPort → BrPort) : (s.modPort p f).ports = sput s.ports p (f (s.port p)) := rfl
@[simp] theorem State.modPort_nodes (s : State) (p : Nat) (f : BrPort → BrPort) : (s.modPort p f).nodes = s.nodes := rfl
@[simp] theorem State.modPort_trk (s : State) (p : Nat) (f : BrPort → BrPort) : (s.modPort p f).trk = s.trk := rfl
@[simp] theorem State.modPort_outbox (s : State) (p : Nat) (f : BrPort → BrPort) : (s.modPort p f).outbox = s.outbox := rfl
@[simp] theorem State.modPort_logic (s : State) (p : Nat) (f : BrPort → BrPort) : (s.modPort p f).logic = s.logic := rfl
@[simp] theorem State.modPort_cores (s : State) (p : Nat) (f : BrPort → BrPort) : (s.modPort p f).cores = s.cores := rfl
@[simp] theorem State.modPort_loopDies (s : State) (p : Nat) (f : BrPort → BrPort) : (s.modPort p f).loopDies = s.loopDies := rfl
@[simp] theorem State.modPort_loops (s : State) (p : Nat) (f : BrPort → BrPort) : (s.modPort p f).loops = s.loops := rfl
@[simp] theorem State.modPort_fio (s : State) (p : Nat) (f : BrPort → BrPort) : (s.modPort p f).fio = s.fio := rfl
@[simp] theorem State.modPort_mtr (s : State) (p : Nat) (f : BrPort → BrPort) : (s.modPort p f).mtr = s.mtr := rfl
@[simp] theorem State.modPort_mem (s : State) (p : Nat) (f : BrPort → BrPort) : (s.modPort p f).mem = s.mem := rfl
@[simp] theorem State.modPort_tags (s : State) (p : Nat) (f : BrPort → BrPort) : (s.modPort p f).tags = s.tags := rfl
@[simp] theorem State.modPort_owners (s : State) (p : Nat) (f : BrPort → BrPort) : (s.modPort p f).owners = s.owners := rfl
@[simp] theorem State.modPort_atus (s : State) (p : Nat) (f : BrPort → BrPort) : (s.modPort p f).atus = s.atus := rfl
@[simp] theorem State.modPort_dmas (s : State) (p : Nat) (f : BrPort → BrPort) : (s.modPort p f).dmas = s.dmas := rfl
@[simp] theorem State.modPort_hst (s : State) (p : Nat) (f : BrPort → BrPort) : (s.modPort p f).hst = s.hst := rfl
@[simp] theorem State.modPort_evr (s : State) (p : Nat) (f : BrPort → BrPort) : (s.modPort p f).evr = s.evr := rfl
@[simp] theorem State.modPort_host (s : State) (p : Nat) (f : BrPort → BrPort) : (s.modPort p f).host = s.host := rfl
@[simp] theorem State.modPort_sec (s : State) (p : Nat) (f : BrPort → BrPort) : (s.modPort p f).sec = s.sec := rfl
@[simp] theorem State.modPort_time (s : State) (p : Nat) (f : BrPort → BrPort) : (s.modPort p f).time = s.time := rfl
@[simp] theorem State.modPort_su (s : State) (p : Nat) (f : BrPort → BrPort) : (s.modPort p f).su = s.su := rfl
@[simp] theorem State.modPort_freeN (s : State) (p : Nat) (f : BrPort → BrPort) : (s.modPort p f).freeN = s.freeN := rfl

/-! ### setNode -/

@[simp] theorem State.setNode_pending (s : State) (u : Uid) (x : Node) : (s.setNode u x).pending = s.pending := rfl
@[simp] theorem State.setNode_member (s : State) (u : Uid) (x : Node) : (s.setNode u x).member = s.member := rfl
@[simp] theorem State.setNode_tick (s : State) (u : Uid) (x : Node) : (s.setNode u x).tick = s.tick := rfl
@[simp] theorem State.setNode_tickHi (s : State) (u : Uid) (x : Node) : (s.setNode u x).tickHi = s.tickHi := rfl
@[simp] theorem State.setNode_links (s : State) (u : Uid) (x : Node) : (s.setNode u x).links = s.links := rfl
@[simp] theorem State.setNode_cfg (s : State) (u : Uid) (x : Node) : (s.setNode u x).cfg = s.cfg := rfl
@[simp] theorem State.setNode_pnt (s : State) (u : Uid) (x : Node) : (s.setNode u x).pnt = s.pnt := rfl
@[simp] theorem State.setNode_ports (s : State) (u : Uid) (x : Node) : (s.setNode u x).ports = s.ports := rfl
@[simp] theorem State.setNode_nodes (s : State) (u : Uid) (x : Node) : (s.setNode u x).nodes = sput s.nodes u.toNat x := rfl
@[simp] theorem State.setNode_trk (s : State) (u : Uid) (x : Node) : (s.setNode u x).trk = s.trk := rfl
@[simp] theorem State.setNode_outbox (s : State) (u : Uid) (x : Node) : (s.setNode u x).outbox = s.outbox := rfl
@[simp] theorem State.setNode_logic (s : State) (u : Uid) (x : Node) : (s.setNode u x).logic = s.logic := rfl
@[simp] theorem State.setNode_cores (s : State) (u : Uid) (x : Node) : (s.setNode u x).cores = s.cores := rfl
@[simp] theorem State.setNode_loopDies (s : State) (u : Uid) (x : Node) : (s.setNode u x).loopDies = s.loopDies := rfl
@[simp] theorem State.setNode_loops (s : State) (u : Uid) (x : Node) : (s.setNode u x).loops = s.loops := rfl
@[simp] theorem State.setNode_fio (s : State) (u : Uid) (x : Node) : (s.setNode u x).fio = s.fio := rfl
@[simp] theorem State.setNode_mtr (s : State) (u : Uid) (x : Node) : (s.setNode u x).mtr = s.mtr := rfl
@[simp] theorem State.setNode_mem (s : State) (u : Uid) (x : Node) : (s.setNode u x).mem = s.mem := rfl
@[simp] theorem State.setNode_tags (s : State) (u : Uid) (x : Node) : (s.setNode u x).tags = s.tags := rfl
@[simp] theorem State.setNode_owners (s : State) (u : Uid) (x : Node) : (s.setNode u x).owners = s.owners := rfl
@[simp] theorem State.setNode_atus (s : State) (u : Uid) (x : Node) : (s.setNode u x).atus = s.atus := rfl
@[simp] theorem State.setNode_dmas (s : State) (u : Uid) (x : Node) : (s.setNode u x).dmas = s.dmas := rfl
@[simp] theorem State.setNode_hst (s : State) (u : Uid) (x : Node) : (s.setNode u x).hst = s.hst := rfl
@[simp] theorem State.setNode_evr (s : State) (u : Uid) (x : Node) : (s.setNode u x).evr = s.evr := rfl
@[simp] theorem State.setNode_host (s : State) (u : Uid) (x : Node) : (s.setNode u x).host = s.host := rfl
@[simp] theorem State.setNode_sec (s : State) (u : Uid) (x : Node) : (s.setNode u x).sec = s.sec := rfl
@[simp] theorem State.setNode_time (s : State) (u : Uid) (x : Node) : (s.setNode u x).time = s.time := rfl
@[simp] theorem State.setNode_su (s : State) (u : Uid) (x : Node) : (s.setNode u x).su = s.su := rfl
@[simp] theorem State.setNode_freeN (s : State) (u : Uid) (x : Node) : (s.setNode u x).freeN = s.freeN := rfl

/-! ### setDie -/

@[simp] theorem State.setDie_pending (s : State) (d : Nat) (x : LogicDie) : (s.setDie d x).pending = s.pending := rfl
@[simp] theorem State.setDie_member (s : State) (d : Nat) (x : LogicDie) : (s.setDie d x).member = s.member := rfl
@[simp] theorem State.setDie_tick (s : State) (d : Nat) (x : LogicDie) : (s.setDie d x).tick = s.tick := rfl
@[simp] theorem State.setDie_tickHi (s : State) (d : Nat) (x : LogicDie) : (s.setDie d x).tickHi = s.tickHi := rfl
@[simp] theorem State.setDie_links (s : State) (d : Nat) (x : LogicDie) : (s.setDie d x).links = s.links := rfl
@[simp] theorem State.setDie_cfg (s : State) (d : Nat) (x : LogicDie) : (s.setDie d x).cfg = s.cfg := rfl
@[simp] theorem State.setDie_pnt (s : State) (d : Nat) (x : LogicDie) : (s.setDie d x).pnt = s.pnt := rfl
@[simp] theorem State.setDie_ports (s : State) (d : Nat) (x : LogicDie) : (s.setDie d x).ports = s.ports := rfl
@[simp] theorem State.setDie_nodes (s : State) (d : Nat) (x : LogicDie) : (s.setDie d x).nodes = s.nodes := rfl
@[simp] theorem State.setDie_trk (s : State) (d : Nat) (x : LogicDie) : (s.setDie d x).trk = s.trk := rfl
@[simp] theorem State.setDie_outbox (s : State) (d : Nat) (x : LogicDie) : (s.setDie d x).outbox = s.outbox := rfl
@[simp] theorem State.setDie_logic (s : State) (d : Nat) (x : LogicDie) : (s.setDie d x).logic = sput s.logic d x := rfl
@[simp] theorem State.setDie_cores (s : State) (d : Nat) (x : LogicDie) : (s.setDie d x).cores = s.cores := rfl
@[simp] theorem State.setDie_loopDies (s : State) (d : Nat) (x : LogicDie) : (s.setDie d x).loopDies = s.loopDies := rfl
@[simp] theorem State.setDie_loops (s : State) (d : Nat) (x : LogicDie) : (s.setDie d x).loops = s.loops := rfl
@[simp] theorem State.setDie_fio (s : State) (d : Nat) (x : LogicDie) : (s.setDie d x).fio = s.fio := rfl
@[simp] theorem State.setDie_mtr (s : State) (d : Nat) (x : LogicDie) : (s.setDie d x).mtr = s.mtr := rfl
@[simp] theorem State.setDie_mem (s : State) (d : Nat) (x : LogicDie) : (s.setDie d x).mem = s.mem := rfl
@[simp] theorem State.setDie_tags (s : State) (d : Nat) (x : LogicDie) : (s.setDie d x).tags = s.tags := rfl
@[simp] theorem State.setDie_owners (s : State) (d : Nat) (x : LogicDie) : (s.setDie d x).owners = s.owners := rfl
@[simp] theorem State.setDie_atus (s : State) (d : Nat) (x : LogicDie) : (s.setDie d x).atus = s.atus := rfl
@[simp] theorem State.setDie_dmas (s : State) (d : Nat) (x : LogicDie) : (s.setDie d x).dmas = s.dmas := rfl
@[simp] theorem State.setDie_hst (s : State) (d : Nat) (x : LogicDie) : (s.setDie d x).hst = s.hst := rfl
@[simp] theorem State.setDie_evr (s : State) (d : Nat) (x : LogicDie) : (s.setDie d x).evr = s.evr := rfl
@[simp] theorem State.setDie_host (s : State) (d : Nat) (x : LogicDie) : (s.setDie d x).host = s.host := rfl
@[simp] theorem State.setDie_sec (s : State) (d : Nat) (x : LogicDie) : (s.setDie d x).sec = s.sec := rfl
@[simp] theorem State.setDie_time (s : State) (d : Nat) (x : LogicDie) : (s.setDie d x).time = s.time := rfl
@[simp] theorem State.setDie_su (s : State) (d : Nat) (x : LogicDie) : (s.setDie d x).su = s.su := rfl
@[simp] theorem State.setDie_freeN (s : State) (d : Nat) (x : LogicDie) : (s.setDie d x).freeN = s.freeN := rfl

/-! ### modDie -/

@[simp] theorem State.modDie_pending (s : State) (d : Nat) (f : LogicDie → LogicDie) : (s.modDie d f).pending = s.pending := rfl
@[simp] theorem State.modDie_member (s : State) (d : Nat) (f : LogicDie → LogicDie) : (s.modDie d f).member = s.member := rfl
@[simp] theorem State.modDie_tick (s : State) (d : Nat) (f : LogicDie → LogicDie) : (s.modDie d f).tick = s.tick := rfl
@[simp] theorem State.modDie_tickHi (s : State) (d : Nat) (f : LogicDie → LogicDie) : (s.modDie d f).tickHi = s.tickHi := rfl
@[simp] theorem State.modDie_links (s : State) (d : Nat) (f : LogicDie → LogicDie) : (s.modDie d f).links = s.links := rfl
@[simp] theorem State.modDie_cfg (s : State) (d : Nat) (f : LogicDie → LogicDie) : (s.modDie d f).cfg = s.cfg := rfl
@[simp] theorem State.modDie_pnt (s : State) (d : Nat) (f : LogicDie → LogicDie) : (s.modDie d f).pnt = s.pnt := rfl
@[simp] theorem State.modDie_ports (s : State) (d : Nat) (f : LogicDie → LogicDie) : (s.modDie d f).ports = s.ports := rfl
@[simp] theorem State.modDie_nodes (s : State) (d : Nat) (f : LogicDie → LogicDie) : (s.modDie d f).nodes = s.nodes := rfl
@[simp] theorem State.modDie_trk (s : State) (d : Nat) (f : LogicDie → LogicDie) : (s.modDie d f).trk = s.trk := rfl
@[simp] theorem State.modDie_outbox (s : State) (d : Nat) (f : LogicDie → LogicDie) : (s.modDie d f).outbox = s.outbox := rfl
@[simp] theorem State.modDie_logic (s : State) (d : Nat) (f : LogicDie → LogicDie) : (s.modDie d f).logic = sput s.logic d (f (s.die d)) := rfl
@[simp] theorem State.modDie_cores (s : State) (d : Nat) (f : LogicDie → LogicDie) : (s.modDie d f).cores = s.cores := rfl
@[simp] theorem State.modDie_loopDies (s : State) (d : Nat) (f : LogicDie → LogicDie) : (s.modDie d f).loopDies = s.loopDies := rfl
@[simp] theorem State.modDie_loops (s : State) (d : Nat) (f : LogicDie → LogicDie) : (s.modDie d f).loops = s.loops := rfl
@[simp] theorem State.modDie_fio (s : State) (d : Nat) (f : LogicDie → LogicDie) : (s.modDie d f).fio = s.fio := rfl
@[simp] theorem State.modDie_mtr (s : State) (d : Nat) (f : LogicDie → LogicDie) : (s.modDie d f).mtr = s.mtr := rfl
@[simp] theorem State.modDie_mem (s : State) (d : Nat) (f : LogicDie → LogicDie) : (s.modDie d f).mem = s.mem := rfl
@[simp] theorem State.modDie_tags (s : State) (d : Nat) (f : LogicDie → LogicDie) : (s.modDie d f).tags = s.tags := rfl
@[simp] theorem State.modDie_owners (s : State) (d : Nat) (f : LogicDie → LogicDie) : (s.modDie d f).owners = s.owners := rfl
@[simp] theorem State.modDie_atus (s : State) (d : Nat) (f : LogicDie → LogicDie) : (s.modDie d f).atus = s.atus := rfl
@[simp] theorem State.modDie_dmas (s : State) (d : Nat) (f : LogicDie → LogicDie) : (s.modDie d f).dmas = s.dmas := rfl
@[simp] theorem State.modDie_hst (s : State) (d : Nat) (f : LogicDie → LogicDie) : (s.modDie d f).hst = s.hst := rfl
@[simp] theorem State.modDie_evr (s : State) (d : Nat) (f : LogicDie → LogicDie) : (s.modDie d f).evr = s.evr := rfl
@[simp] theorem State.modDie_host (s : State) (d : Nat) (f : LogicDie → LogicDie) : (s.modDie d f).host = s.host := rfl
@[simp] theorem State.modDie_sec (s : State) (d : Nat) (f : LogicDie → LogicDie) : (s.modDie d f).sec = s.sec := rfl
@[simp] theorem State.modDie_time (s : State) (d : Nat) (f : LogicDie → LogicDie) : (s.modDie d f).time = s.time := rfl
@[simp] theorem State.modDie_su (s : State) (d : Nat) (f : LogicDie → LogicDie) : (s.modDie d f).su = s.su := rfl
@[simp] theorem State.modDie_freeN (s : State) (d : Nat) (f : LogicDie → LogicDie) : (s.modDie d f).freeN = s.freeN := rfl

/-! ### setCore -/

@[simp] theorem State.setCore_pending (s : State) (d c : Nat) (x : CoreSt) : (s.setCore d c x).pending = s.pending := rfl
@[simp] theorem State.setCore_member (s : State) (d c : Nat) (x : CoreSt) : (s.setCore d c x).member = s.member := rfl
@[simp] theorem State.setCore_tick (s : State) (d c : Nat) (x : CoreSt) : (s.setCore d c x).tick = s.tick := rfl
@[simp] theorem State.setCore_tickHi (s : State) (d c : Nat) (x : CoreSt) : (s.setCore d c x).tickHi = s.tickHi := rfl
@[simp] theorem State.setCore_links (s : State) (d c : Nat) (x : CoreSt) : (s.setCore d c x).links = s.links := rfl
@[simp] theorem State.setCore_cfg (s : State) (d c : Nat) (x : CoreSt) : (s.setCore d c x).cfg = s.cfg := rfl
@[simp] theorem State.setCore_pnt (s : State) (d c : Nat) (x : CoreSt) : (s.setCore d c x).pnt = s.pnt := rfl
@[simp] theorem State.setCore_ports (s : State) (d c : Nat) (x : CoreSt) : (s.setCore d c x).ports = s.ports := rfl
@[simp] theorem State.setCore_nodes (s : State) (d c : Nat) (x : CoreSt) : (s.setCore d c x).nodes = s.nodes := rfl
@[simp] theorem State.setCore_trk (s : State) (d c : Nat) (x : CoreSt) : (s.setCore d c x).trk = s.trk := rfl
@[simp] theorem State.setCore_outbox (s : State) (d c : Nat) (x : CoreSt) : (s.setCore d c x).outbox = s.outbox := rfl
@[simp] theorem State.setCore_logic (s : State) (d c : Nat) (x : CoreSt) : (s.setCore d c x).logic = s.logic := rfl
@[simp] theorem State.setCore_cores (s : State) (d c : Nat) (x : CoreSt) : (s.setCore d c x).cores = sput s.cores (4 * d + c) x := rfl
@[simp] theorem State.setCore_loopDies (s : State) (d c : Nat) (x : CoreSt) : (s.setCore d c x).loopDies = s.loopDies := rfl
@[simp] theorem State.setCore_loops (s : State) (d c : Nat) (x : CoreSt) : (s.setCore d c x).loops = s.loops := rfl
@[simp] theorem State.setCore_fio (s : State) (d c : Nat) (x : CoreSt) : (s.setCore d c x).fio = s.fio := rfl
@[simp] theorem State.setCore_mtr (s : State) (d c : Nat) (x : CoreSt) : (s.setCore d c x).mtr = s.mtr := rfl
@[simp] theorem State.setCore_mem (s : State) (d c : Nat) (x : CoreSt) : (s.setCore d c x).mem = s.mem := rfl
@[simp] theorem State.setCore_tags (s : State) (d c : Nat) (x : CoreSt) : (s.setCore d c x).tags = s.tags := rfl
@[simp] theorem State.setCore_owners (s : State) (d c : Nat) (x : CoreSt) : (s.setCore d c x).owners = s.owners := rfl
@[simp] theorem State.setCore_atus (s : State) (d c : Nat) (x : CoreSt) : (s.setCore d c x).atus = s.atus := rfl
@[simp] theorem State.setCore_dmas (s : State) (d c : Nat) (x : CoreSt) : (s.setCore d c x).dmas = s.dmas := rfl
@[simp] theorem State.setCore_hst (s : State) (d c : Nat) (x : CoreSt) : (s.setCore d c x).hst = s.hst := rfl
@[simp] theorem State.setCore_evr (s : State) (d c : Nat) (x : CoreSt) : (s.setCore d c x).evr = s.evr := rfl
@[simp] theorem State.setCore_host (s : State) (d c : Nat) (x : CoreSt) : (s.setCore d c x).host = s.host := rfl
@[simp] theorem State.setCore_sec (s : State) (d c : Nat) (x : CoreSt) : (s.setCore d c x).sec = s.sec := rfl
@[simp] theorem State.setCore_time (s : State) (d c : Nat) (x : CoreSt) : (s.setCore d c x).time = s.time := rfl
@[simp] theorem State.setCore_su (s : State) (d c : Nat) (x : CoreSt) : (s.setCore d c x).su = s.su := rfl
@[simp] theorem State.setCore_freeN (s : State) (d c : Nat) (x : CoreSt) : (s.setCore d c x).freeN = s.freeN := rfl

/-! ### setLoop -/

@[simp] theorem State.setLoop_pending (s : State) (d n : Nat) (x : LoopSlot) : (s.setLoop d n x).pending = s.pending := rfl
@[simp] theorem State.setLoop_member (s : State) (d n : Nat) (x : LoopSlot) : (s.setLoop d n x).member = s.member := rfl
@[simp] theorem State.setLoop_tick (s : State) (d n : Nat) (x : LoopSlot) : (s.setLoop d n x).tick = s.tick := rfl
@[simp] theorem State.setLoop_tickHi (s : State) (d n : Nat) (x : LoopSlot) : (s.setLoop d n x).tickHi = s.tickHi := rfl
@[simp] theorem State.setLoop_links (s : State) (d n : Nat) (x : LoopSlot) : (s.setLoop d n x).links = s.links := rfl
@[simp] theorem State.setLoop_cfg (s : State) (d n : Nat) (x : LoopSlot) : (s.setLoop d n x).cfg = s.cfg := rfl
@[simp] theorem State.setLoop_pnt (s : State) (d n : Nat) (x : LoopSlot) : (s.setLoop d n x).pnt = s.pnt := rfl
@[simp] theorem State.setLoop_ports (s : State) (d n : Nat) (x : LoopSlot) : (s.setLoop d n x).ports = s.ports := rfl
@[simp] theorem State.setLoop_nodes (s : State) (d n : Nat) (x : LoopSlot) : (s.setLoop d n x).nodes = s.nodes := rfl
@[simp] theorem State.setLoop_trk (s : State) (d n : Nat) (x : LoopSlot) : (s.setLoop d n x).trk = s.trk := rfl
@[simp] theorem State.setLoop_outbox (s : State) (d n : Nat) (x : LoopSlot) : (s.setLoop d n x).outbox = s.outbox := rfl
@[simp] theorem State.setLoop_logic (s : State) (d n : Nat) (x : LoopSlot) : (s.setLoop d n x).logic = s.logic := rfl
@[simp] theorem State.setLoop_cores (s : State) (d n : Nat) (x : LoopSlot) : (s.setLoop d n x).cores = s.cores := rfl
@[simp] theorem State.setLoop_loopDies (s : State) (d n : Nat) (x : LoopSlot) : (s.setLoop d n x).loopDies = s.loopDies := rfl
@[simp] theorem State.setLoop_loops (s : State) (d n : Nat) (x : LoopSlot) : (s.setLoop d n x).loops = sput s.loops (8192 * d + n) x := rfl
@[simp] theorem State.setLoop_fio (s : State) (d n : Nat) (x : LoopSlot) : (s.setLoop d n x).fio = s.fio := rfl
@[simp] theorem State.setLoop_mtr (s : State) (d n : Nat) (x : LoopSlot) : (s.setLoop d n x).mtr = s.mtr := rfl
@[simp] theorem State.setLoop_mem (s : State) (d n : Nat) (x : LoopSlot) : (s.setLoop d n x).mem = s.mem := rfl
@[simp] theorem State.setLoop_tags (s : State) (d n : Nat) (x : LoopSlot) : (s.setLoop d n x).tags = s.tags := rfl
@[simp] theorem State.setLoop_owners (s : State) (d n : Nat) (x : LoopSlot) : (s.setLoop d n x).owners = s.owners := rfl
@[simp] theorem State.setLoop_atus (s : State) (d n : Nat) (x : LoopSlot) : (s.setLoop d n x).atus = s.atus := rfl
@[simp] theorem State.setLoop_dmas (s : State) (d n : Nat) (x : LoopSlot) : (s.setLoop d n x).dmas = s.dmas := rfl
@[simp] theorem State.setLoop_hst (s : State) (d n : Nat) (x : LoopSlot) : (s.setLoop d n x).hst = s.hst := rfl
@[simp] theorem State.setLoop_evr (s : State) (d n : Nat) (x : LoopSlot) : (s.setLoop d n x).evr = s.evr := rfl
@[simp] theorem State.setLoop_host (s : State) (d n : Nat) (x : LoopSlot) : (s.setLoop d n x).host = s.host := rfl
@[simp] theorem State.setLoop_sec (s : State) (d n : Nat) (x : LoopSlot) : (s.setLoop d n x).sec = s.sec := rfl
@[simp] theorem State.setLoop_time (s : State) (d n : Nat) (x : LoopSlot) : (s.setLoop d n x).time = s.time := rfl
@[simp] theorem State.setLoop_su (s : State) (d n : Nat) (x : LoopSlot) : (s.setLoop d n x).su = s.su := rfl
@[simp] theorem State.setLoop_freeN (s : State) (d n : Nat) (x : LoopSlot) : (s.setLoop d n x).freeN = s.freeN := rfl

/-! ### modLoop -/

@[simp] theorem State.modLoop_pending (s : State) (d n : Nat) (f : LoopSlot → LoopSlot) : (s.modLoop d n f).pending = s.pending := rfl
@[simp] theorem State.modLoop_member (s : State) (d n : Nat) (f : LoopSlot → LoopSlot) : (s.modLoop d n f).member = s.member := rfl
@[simp] theorem State.modLoop_tick (s : State) (d n : Nat) (f : LoopSlot → LoopSlot) : (s.modLoop d n f).tick = s.tick := rfl
@[simp] theorem State.modLoop_tickHi (s : State) (d n : Nat) (f : LoopSlot → LoopSlot) : (s.modLoop d n f).tickHi = s.tickHi := rfl
@[simp] theorem State.modLoop_links (s : State) (d n : Nat) (f : LoopSlot → LoopSlot) : (s.modLoop d n f).links = s.links := rfl
@[simp] theorem State.modLoop_cfg (s : State) (d n : Nat) (f : LoopSlot → LoopSlot) : (s.modLoop d n f).cfg = s.cfg := rfl
@[simp] theorem State.modLoop_pnt (s : State) (d n : Nat) (f : LoopSlot → LoopSlot) : (s.modLoop d n f).pnt = s.pnt := rfl
@[simp] theorem State.modLoop_ports (s : State) (d n : Nat) (f : LoopSlot → LoopSlot) : (s.modLoop d n f).ports = s.ports := rfl
@[simp] theorem State.modLoop_nodes (s : State) (d n : Nat) (f : LoopSlot → LoopSlot) : (s.modLoop d n f).nodes = s.nodes := rfl
@[simp] theorem State.modLoop_trk (s : State) (d n : Nat) (f : LoopSlot → LoopSlot) : (s.modLoop d n f).trk = s.trk := rfl
@[simp] theorem State.modLoop_outbox (s : State) (d n : Nat) (f : LoopSlot → LoopSlot) : (s.modLoop d n f).outbox = s.outbox := rfl
@[simp] theorem State.modLoop_logic (s : State) (d n : Nat) (f : LoopSlot → LoopSlot) : (s.modLoop d n f).logic = s.logic := rfl
@[simp] theorem State.modLoop_cores (s : State) (d n : Nat) (f : LoopSlot → LoopSlot) : (s.modLoop d n f).cores = s.cores := rfl
@[simp] theorem State.modLoop_loopDies (s : State) (d n : Nat) (f : LoopSlot → LoopSlot) : (s.modLoop d n f).loopDies = s.loopDies := rfl
@[simp] theorem State.modLoop_loops (s : State) (d n : Nat) (f : LoopSlot → LoopSlot) : (s.modLoop d n f).loops = sput s.loops (8192 * d + n) (f (s.loop d n)) := rfl
@[simp] theorem State.modLoop_fio (s : State) (d n : Nat) (f : LoopSlot → LoopSlot) : (s.modLoop d n f).fio = s.fio := rfl
@[simp] theorem State.modLoop_mtr (s : State) (d n : Nat) (f : LoopSlot → LoopSlot) : (s.modLoop d n f).mtr = s.mtr := rfl
@[simp] theorem State.modLoop_mem (s : State) (d n : Nat) (f : LoopSlot → LoopSlot) : (s.modLoop d n f).mem = s.mem := rfl
@[simp] theorem State.modLoop_tags (s : State) (d n : Nat) (f : LoopSlot → LoopSlot) : (s.modLoop d n f).tags = s.tags := rfl
@[simp] theorem State.modLoop_owners (s : State) (d n : Nat) (f : LoopSlot → LoopSlot) : (s.modLoop d n f).owners = s.owners := rfl
@[simp] theorem State.modLoop_atus (s : State) (d n : Nat) (f : LoopSlot → LoopSlot) : (s.modLoop d n f).atus = s.atus := rfl
@[simp] theorem State.modLoop_dmas (s : State) (d n : Nat) (f : LoopSlot → LoopSlot) : (s.modLoop d n f).dmas = s.dmas := rfl
@[simp] theorem State.modLoop_hst (s : State) (d n : Nat) (f : LoopSlot → LoopSlot) : (s.modLoop d n f).hst = s.hst := rfl
@[simp] theorem State.modLoop_evr (s : State) (d n : Nat) (f : LoopSlot → LoopSlot) : (s.modLoop d n f).evr = s.evr := rfl
@[simp] theorem State.modLoop_host (s : State) (d n : Nat) (f : LoopSlot → LoopSlot) : (s.modLoop d n f).host = s.host := rfl
@[simp] theorem State.modLoop_sec (s : State) (d n : Nat) (f : LoopSlot → LoopSlot) : (s.modLoop d n f).sec = s.sec := rfl
@[simp] theorem State.modLoop_time (s : State) (d n : Nat) (f : LoopSlot → LoopSlot) : (s.modLoop d n f).time = s.time := rfl
@[simp] theorem State.modLoop_su (s : State) (d n : Nat) (f : LoopSlot → LoopSlot) : (s.modLoop d n f).su = s.su := rfl
@[simp] theorem State.modLoop_freeN (s : State) (d n : Nat) (f : LoopSlot → LoopSlot) : (s.modLoop d n f).freeN = s.freeN := rfl

/-! ### setLpe -/

@[simp] theorem State.setLpe_pending (s : State) (d : Nat) (x : LoopDie) : (s.setLpe d x).pending = s.pending := rfl
@[simp] theorem State.setLpe_member (s : State) (d : Nat) (x : LoopDie) : (s.setLpe d x).member = s.member := rfl
@[simp] theorem State.setLpe_tick (s : State) (d : Nat) (x : LoopDie) : (s.setLpe d x).tick = s.tick := rfl
@[simp] theorem State.setLpe_tickHi (s : State) (d : Nat) (x : LoopDie) : (s.setLpe d x).tickHi = s.tickHi := rfl
@[simp] theorem State.setLpe_links (s : State) (d : Nat) (x : LoopDie) : (s.setLpe d x).links = s.links := rfl
@[simp] theorem State.setLpe_cfg (s : State) (d : Nat) (x : LoopDie) : (s.setLpe d x).cfg = s.cfg := rfl
@[simp] theorem State.setLpe_pnt (s : State) (d : Nat) (x : LoopDie) : (s.setLpe d x).pnt = s.pnt := rfl
@[simp] theorem State.setLpe_ports (s : State) (d : Nat) (x : LoopDie) : (s.setLpe d x).ports = s.ports := rfl
@[simp] theorem State.setLpe_nodes (s : State) (d : Nat) (x : LoopDie) : (s.setLpe d x).nodes = s.nodes := rfl
@[simp] theorem State.setLpe_trk (s : State) (d : Nat) (x : LoopDie) : (s.setLpe d x).trk = s.trk := rfl
@[simp] theorem State.setLpe_outbox (s : State) (d : Nat) (x : LoopDie) : (s.setLpe d x).outbox = s.outbox := rfl
@[simp] theorem State.setLpe_logic (s : State) (d : Nat) (x : LoopDie) : (s.setLpe d x).logic = s.logic := rfl
@[simp] theorem State.setLpe_cores (s : State) (d : Nat) (x : LoopDie) : (s.setLpe d x).cores = s.cores := rfl
@[simp] theorem State.setLpe_loopDies (s : State) (d : Nat) (x : LoopDie) : (s.setLpe d x).loopDies = sput s.loopDies d x := rfl
@[simp] theorem State.setLpe_loops (s : State) (d : Nat) (x : LoopDie) : (s.setLpe d x).loops = s.loops := rfl
@[simp] theorem State.setLpe_fio (s : State) (d : Nat) (x : LoopDie) : (s.setLpe d x).fio = s.fio := rfl
@[simp] theorem State.setLpe_mtr (s : State) (d : Nat) (x : LoopDie) : (s.setLpe d x).mtr = s.mtr := rfl
@[simp] theorem State.setLpe_mem (s : State) (d : Nat) (x : LoopDie) : (s.setLpe d x).mem = s.mem := rfl
@[simp] theorem State.setLpe_tags (s : State) (d : Nat) (x : LoopDie) : (s.setLpe d x).tags = s.tags := rfl
@[simp] theorem State.setLpe_owners (s : State) (d : Nat) (x : LoopDie) : (s.setLpe d x).owners = s.owners := rfl
@[simp] theorem State.setLpe_atus (s : State) (d : Nat) (x : LoopDie) : (s.setLpe d x).atus = s.atus := rfl
@[simp] theorem State.setLpe_dmas (s : State) (d : Nat) (x : LoopDie) : (s.setLpe d x).dmas = s.dmas := rfl
@[simp] theorem State.setLpe_hst (s : State) (d : Nat) (x : LoopDie) : (s.setLpe d x).hst = s.hst := rfl
@[simp] theorem State.setLpe_evr (s : State) (d : Nat) (x : LoopDie) : (s.setLpe d x).evr = s.evr := rfl
@[simp] theorem State.setLpe_host (s : State) (d : Nat) (x : LoopDie) : (s.setLpe d x).host = s.host := rfl
@[simp] theorem State.setLpe_sec (s : State) (d : Nat) (x : LoopDie) : (s.setLpe d x).sec = s.sec := rfl
@[simp] theorem State.setLpe_time (s : State) (d : Nat) (x : LoopDie) : (s.setLpe d x).time = s.time := rfl
@[simp] theorem State.setLpe_su (s : State) (d : Nat) (x : LoopDie) : (s.setLpe d x).su = s.su := rfl
@[simp] theorem State.setLpe_freeN (s : State) (d : Nat) (x : LoopDie) : (s.setLpe d x).freeN = s.freeN := rfl

/-! ### modLpe -/

@[simp] theorem State.modLpe_pending (s : State) (d : Nat) (f : LoopDie → LoopDie) : (s.modLpe d f).pending = s.pending := rfl
@[simp] theorem State.modLpe_member (s : State) (d : Nat) (f : LoopDie → LoopDie) : (s.modLpe d f).member = s.member := rfl
@[simp] theorem State.modLpe_tick (s : State) (d : Nat) (f : LoopDie → LoopDie) : (s.modLpe d f).tick = s.tick := rfl
@[simp] theorem State.modLpe_tickHi (s : State) (d : Nat) (f : LoopDie → LoopDie) : (s.modLpe d f).tickHi = s.tickHi := rfl
@[simp] theorem State.modLpe_links (s : State) (d : Nat) (f : LoopDie → LoopDie) : (s.modLpe d f).links = s.links := rfl
@[simp] theorem State.modLpe_cfg (s : State) (d : Nat) (f : LoopDie → LoopDie) : (s.modLpe d f).cfg = s.cfg := rfl
@[simp] theorem State.modLpe_pnt (s : State) (d : Nat) (f : LoopDie → LoopDie) : (s.modLpe d f).pnt = s.pnt := rfl
@[simp] theorem State.modLpe_ports (s : State) (d : Nat) (f : LoopDie → LoopDie) : (s.modLpe d f).ports = s.ports := rfl
@[simp] theorem State.modLpe_nodes (s : State) (d : Nat) (f : LoopDie → LoopDie) : (s.modLpe d f).nodes = s.nodes := rfl
@[simp] theorem State.modLpe_trk (s : State) (d : Nat) (f : LoopDie → LoopDie) : (s.modLpe d f).trk = s.trk := rfl
@[simp] theorem State.modLpe_outbox (s : State) (d : Nat) (f : LoopDie → LoopDie) : (s.modLpe d f).outbox = s.outbox := rfl
@[simp] theorem State.modLpe_logic (s : State) (d : Nat) (f : LoopDie → LoopDie) : (s.modLpe d f).logic = s.logic := rfl
@[simp] theorem State.modLpe_cores (s : State) (d : Nat) (f : LoopDie → LoopDie) : (s.modLpe d f).cores = s.cores := rfl
@[simp] theorem State.modLpe_loopDies (s : State) (d : Nat) (f : LoopDie → LoopDie) : (s.modLpe d f).loopDies = sput s.loopDies d (f (s.lpe d)) := rfl
@[simp] theorem State.modLpe_loops (s : State) (d : Nat) (f : LoopDie → LoopDie) : (s.modLpe d f).loops = s.loops := rfl
@[simp] theorem State.modLpe_fio (s : State) (d : Nat) (f : LoopDie → LoopDie) : (s.modLpe d f).fio = s.fio := rfl
@[simp] theorem State.modLpe_mtr (s : State) (d : Nat) (f : LoopDie → LoopDie) : (s.modLpe d f).mtr = s.mtr := rfl
@[simp] theorem State.modLpe_mem (s : State) (d : Nat) (f : LoopDie → LoopDie) : (s.modLpe d f).mem = s.mem := rfl
@[simp] theorem State.modLpe_tags (s : State) (d : Nat) (f : LoopDie → LoopDie) : (s.modLpe d f).tags = s.tags := rfl
@[simp] theorem State.modLpe_owners (s : State) (d : Nat) (f : LoopDie → LoopDie) : (s.modLpe d f).owners = s.owners := rfl
@[simp] theorem State.modLpe_atus (s : State) (d : Nat) (f : LoopDie → LoopDie) : (s.modLpe d f).atus = s.atus := rfl
@[simp] theorem State.modLpe_dmas (s : State) (d : Nat) (f : LoopDie → LoopDie) : (s.modLpe d f).dmas = s.dmas := rfl
@[simp] theorem State.modLpe_hst (s : State) (d : Nat) (f : LoopDie → LoopDie) : (s.modLpe d f).hst = s.hst := rfl
@[simp] theorem State.modLpe_evr (s : State) (d : Nat) (f : LoopDie → LoopDie) : (s.modLpe d f).evr = s.evr := rfl
@[simp] theorem State.modLpe_host (s : State) (d : Nat) (f : LoopDie → LoopDie) : (s.modLpe d f).host = s.host := rfl
@[simp] theorem State.modLpe_sec (s : State) (d : Nat) (f : LoopDie → LoopDie) : (s.modLpe d f).sec = s.sec := rfl
@[simp] theorem State.modLpe_time (s : State) (d : Nat) (f : LoopDie → LoopDie) : (s.modLpe d f).time = s.time := rfl
@[simp] theorem State.modLpe_su (s : State) (d : Nat) (f : LoopDie → LoopDie) : (s.modLpe d f).su = s.su := rfl
@[simp] theorem State.modLpe_freeN (s : State) (d : Nat) (f : LoopDie → LoopDie) : (s.modLpe d f).freeN = s.freeN := rfl

/-! ### setChan -/

@[simp] theorem State.setChan_pending (s : State) (c : Nat) (x : ChanSt) : (s.setChan c x).pending = s.pending := rfl
@[simp] theorem State.setChan_member (s : State) (c : Nat) (x : ChanSt) : (s.setChan c x).member = s.member := rfl
@[simp] theorem State.setChan_tick (s : State) (c : Nat) (x : ChanSt) : (s.setChan c x).tick = s.tick := rfl
@[simp] theorem State.setChan_tickHi (s : State) (c : Nat) (x : ChanSt) : (s.setChan c x).tickHi = s.tickHi := rfl
@[simp] theorem State.setChan_links (s : State) (c : Nat) (x : ChanSt) : (s.setChan c x).links = s.links := rfl
@[simp] theorem State.setChan_cfg (s : State) (c : Nat) (x : ChanSt) : (s.setChan c x).cfg = s.cfg := rfl
@[simp] theorem State.setChan_pnt (s : State) (c : Nat) (x : ChanSt) : (s.setChan c x).pnt = s.pnt := rfl
@[simp] theorem State.setChan_ports (s : State) (c : Nat) (x : ChanSt) : (s.setChan c x).ports = s.ports := rfl
@[simp] theorem State.setChan_nodes (s : State) (c : Nat) (x : ChanSt) : (s.setChan c x).nodes = s.nodes := rfl
@[simp] theorem State.setChan_trk (s : State) (c : Nat) (x : ChanSt) : (s.setChan c x).trk = s.trk := rfl
@[simp] theorem State.setChan_outbox (s : State) (c : Nat) (x : ChanSt) : (s.setChan c x).outbox = s.outbox := rfl
@[simp] theorem State.setChan_logic (s : State) (c : Nat) (x : ChanSt) : (s.setChan c x).logic = s.logic := rfl
@[simp] theorem State.setChan_cores (s : State) (c : Nat) (x : ChanSt) : (s.setChan c x).cores = s.cores := rfl
@[simp] theorem State.setChan_loopDies (s : State) (c : Nat) (x : ChanSt) : (s.setChan c x).loopDies = s.loopDies := rfl
@[simp] theorem State.setChan_loops (s : State) (c : Nat) (x : ChanSt) : (s.setChan c x).loops = s.loops := rfl
@[simp] theorem State.setChan_fio (s : State) (c : Nat) (x : ChanSt) : (s.setChan c x).fio = { s.fio with chans := sput s.fio.chans c x } := rfl
@[simp] theorem State.setChan_mtr (s : State) (c : Nat) (x : ChanSt) : (s.setChan c x).mtr = s.mtr := rfl
@[simp] theorem State.setChan_mem (s : State) (c : Nat) (x : ChanSt) : (s.setChan c x).mem = s.mem := rfl
@[simp] theorem State.setChan_tags (s : State) (c : Nat) (x : ChanSt) : (s.setChan c x).tags = s.tags := rfl
@[simp] theorem State.setChan_owners (s : State) (c : Nat) (x : ChanSt) : (s.setChan c x).owners = s.owners := rfl
@[simp] theorem State.setChan_atus (s : State) (c : Nat) (x : ChanSt) : (s.setChan c x).atus = s.atus := rfl
@[simp] theorem State.setChan_dmas (s : State) (c : Nat) (x : ChanSt) : (s.setChan c x).dmas = s.dmas := rfl
@[simp] theorem State.setChan_hst (s : State) (c : Nat) (x : ChanSt) : (s.setChan c x).hst = s.hst := rfl
@[simp] theorem State.setChan_evr (s : State) (c : Nat) (x : ChanSt) : (s.setChan c x).evr = s.evr := rfl
@[simp] theorem State.setChan_host (s : State) (c : Nat) (x : ChanSt) : (s.setChan c x).host = s.host := rfl
@[simp] theorem State.setChan_sec (s : State) (c : Nat) (x : ChanSt) : (s.setChan c x).sec = s.sec := rfl
@[simp] theorem State.setChan_time (s : State) (c : Nat) (x : ChanSt) : (s.setChan c x).time = s.time := rfl
@[simp] theorem State.setChan_su (s : State) (c : Nat) (x : ChanSt) : (s.setChan c x).su = s.su := rfl
@[simp] theorem State.setChan_freeN (s : State) (c : Nat) (x : ChanSt) : (s.setChan c x).freeN = s.freeN := rfl

/-! ### modChan -/

@[simp] theorem State.modChan_pending (s : State) (c : Nat) (f : ChanSt → ChanSt) : (s.modChan c f).pending = s.pending := rfl
@[simp] theorem State.modChan_member (s : State) (c : Nat) (f : ChanSt → ChanSt) : (s.modChan c f).member = s.member := rfl
@[simp] theorem State.modChan_tick (s : State) (c : Nat) (f : ChanSt → ChanSt) : (s.modChan c f).tick = s.tick := rfl
@[simp] theorem State.modChan_tickHi (s : State) (c : Nat) (f : ChanSt → ChanSt) : (s.modChan c f).tickHi = s.tickHi := rfl
@[simp] theorem State.modChan_links (s : State) (c : Nat) (f : ChanSt → ChanSt) : (s.modChan c f).links = s.links := rfl
@[simp] theorem State.modChan_cfg (s : State) (c : Nat) (f : ChanSt → ChanSt) : (s.modChan c f).cfg = s.cfg := rfl
@[simp] theorem State.modChan_pnt (s : State) (c : Nat) (f : ChanSt → ChanSt) : (s.modChan c f).pnt = s.pnt := rfl
@[simp] theorem State.modChan_ports (s : State) (c : Nat) (f : ChanSt → ChanSt) : (s.modChan c f).ports = s.ports := rfl
@[simp] theorem State.modChan_nodes (s : State) (c : Nat) (f : ChanSt → ChanSt) : (s.modChan c f).nodes = s.nodes := rfl
@[simp] theorem State.modChan_trk (s : State) (c : Nat) (f : ChanSt → ChanSt) : (s.modChan c f).trk = s.trk := rfl
@[simp] theorem State.modChan_outbox (s : State) (c : Nat) (f : ChanSt → ChanSt) : (s.modChan c f).outbox = s.outbox := rfl
@[simp] theorem State.modChan_logic (s : State) (c : Nat) (f : ChanSt → ChanSt) : (s.modChan c f).logic = s.logic := rfl
@[simp] theorem State.modChan_cores (s : State) (c : Nat) (f : ChanSt → ChanSt) : (s.modChan c f).cores = s.cores := rfl
@[simp] theorem State.modChan_loopDies (s : State) (c : Nat) (f : ChanSt → ChanSt) : (s.modChan c f).loopDies = s.loopDies := rfl
@[simp] theorem State.modChan_loops (s : State) (c : Nat) (f : ChanSt → ChanSt) : (s.modChan c f).loops = s.loops := rfl
@[simp] theorem State.modChan_fio (s : State) (c : Nat) (f : ChanSt → ChanSt) : (s.modChan c f).fio = { s.fio with chans := sput s.fio.chans c (f (s.chan c)) } := rfl
@[simp] theorem State.modChan_mtr (s : State) (c : Nat) (f : ChanSt → ChanSt) : (s.modChan c f).mtr = s.mtr := rfl
@[simp] theorem State.modChan_mem (s : State) (c : Nat) (f : ChanSt → ChanSt) : (s.modChan c f).mem = s.mem := rfl
@[simp] theorem State.modChan_tags (s : State) (c : Nat) (f : ChanSt → ChanSt) : (s.modChan c f).tags = s.tags := rfl
@[simp] theorem State.modChan_owners (s : State) (c : Nat) (f : ChanSt → ChanSt) : (s.modChan c f).owners = s.owners := rfl
@[simp] theorem State.modChan_atus (s : State) (c : Nat) (f : ChanSt → ChanSt) : (s.modChan c f).atus = s.atus := rfl
@[simp] theorem State.modChan_dmas (s : State) (c : Nat) (f : ChanSt → ChanSt) : (s.modChan c f).dmas = s.dmas := rfl
@[simp] theorem State.modChan_hst (s : State) (c : Nat) (f : ChanSt → ChanSt) : (s.modChan c f).hst = s.hst := rfl
@[simp] theorem State.modChan_evr (s : State) (c : Nat) (f : ChanSt → ChanSt) : (s.modChan c f).evr = s.evr := rfl
@[simp] theorem State.modChan_host (s : State) (c : Nat) (f : ChanSt → ChanSt) : (s.modChan c f).host = s.host := rfl
@[simp] theorem State.modChan_sec (s : State) (c : Nat) (f : ChanSt → ChanSt) : (s.modChan c f).sec = s.sec := rfl
@[simp] theorem State.modChan_time (s : State) (c : Nat) (f : ChanSt → ChanSt) : (s.modChan c f).time = s.time := rfl
@[simp] theorem State.modChan_su (s : State) (c : Nat) (f : ChanSt → ChanSt) : (s.modChan c f).su = s.su := rfl
@[simp] theorem State.modChan_freeN (s : State) (c : Nat) (f : ChanSt → ChanSt) : (s.modChan c f).freeN = s.freeN := rfl

/-! ### setMot -/

@[simp] theorem State.setMot_pending (s : State) (m : Nat) (x : Motion) : (s.setMot m x).pending = s.pending := rfl
@[simp] theorem State.setMot_member (s : State) (m : Nat) (x : Motion) : (s.setMot m x).member = s.member := rfl
@[simp] theorem State.setMot_tick (s : State) (m : Nat) (x : Motion) : (s.setMot m x).tick = s.tick := rfl
@[simp] theorem State.setMot_tickHi (s : State) (m : Nat) (x : Motion) : (s.setMot m x).tickHi = s.tickHi := rfl
@[simp] theorem State.setMot_links (s : State) (m : Nat) (x : Motion) : (s.setMot m x).links = s.links := rfl
@[simp] theorem State.setMot_cfg (s : State) (m : Nat) (x : Motion) : (s.setMot m x).cfg = s.cfg := rfl
@[simp] theorem State.setMot_pnt (s : State) (m : Nat) (x : Motion) : (s.setMot m x).pnt = s.pnt := rfl
@[simp] theorem State.setMot_ports (s : State) (m : Nat) (x : Motion) : (s.setMot m x).ports = s.ports := rfl
@[simp] theorem State.setMot_nodes (s : State) (m : Nat) (x : Motion) : (s.setMot m x).nodes = s.nodes := rfl
@[simp] theorem State.setMot_trk (s : State) (m : Nat) (x : Motion) : (s.setMot m x).trk = s.trk := rfl
@[simp] theorem State.setMot_outbox (s : State) (m : Nat) (x : Motion) : (s.setMot m x).outbox = s.outbox := rfl
@[simp] theorem State.setMot_logic (s : State) (m : Nat) (x : Motion) : (s.setMot m x).logic = s.logic := rfl
@[simp] theorem State.setMot_cores (s : State) (m : Nat) (x : Motion) : (s.setMot m x).cores = s.cores := rfl
@[simp] theorem State.setMot_loopDies (s : State) (m : Nat) (x : Motion) : (s.setMot m x).loopDies = s.loopDies := rfl
@[simp] theorem State.setMot_loops (s : State) (m : Nat) (x : Motion) : (s.setMot m x).loops = s.loops := rfl
@[simp] theorem State.setMot_fio (s : State) (m : Nat) (x : Motion) : (s.setMot m x).fio = { s.fio with mots := sput s.fio.mots m x } := rfl
@[simp] theorem State.setMot_mtr (s : State) (m : Nat) (x : Motion) : (s.setMot m x).mtr = s.mtr := rfl
@[simp] theorem State.setMot_mem (s : State) (m : Nat) (x : Motion) : (s.setMot m x).mem = s.mem := rfl
@[simp] theorem State.setMot_tags (s : State) (m : Nat) (x : Motion) : (s.setMot m x).tags = s.tags := rfl
@[simp] theorem State.setMot_owners (s : State) (m : Nat) (x : Motion) : (s.setMot m x).owners = s.owners := rfl
@[simp] theorem State.setMot_atus (s : State) (m : Nat) (x : Motion) : (s.setMot m x).atus = s.atus := rfl
@[simp] theorem State.setMot_dmas (s : State) (m : Nat) (x : Motion) : (s.setMot m x).dmas = s.dmas := rfl
@[simp] theorem State.setMot_hst (s : State) (m : Nat) (x : Motion) : (s.setMot m x).hst = s.hst := rfl
@[simp] theorem State.setMot_evr (s : State) (m : Nat) (x : Motion) : (s.setMot m x).evr = s.evr := rfl
@[simp] theorem State.setMot_host (s : State) (m : Nat) (x : Motion) : (s.setMot m x).host = s.host := rfl
@[simp] theorem State.setMot_sec (s : State) (m : Nat) (x : Motion) : (s.setMot m x).sec = s.sec := rfl
@[simp] theorem State.setMot_time (s : State) (m : Nat) (x : Motion) : (s.setMot m x).time = s.time := rfl
@[simp] theorem State.setMot_su (s : State) (m : Nat) (x : Motion) : (s.setMot m x).su = s.su := rfl
@[simp] theorem State.setMot_freeN (s : State) (m : Nat) (x : Motion) : (s.setMot m x).freeN = s.freeN := rfl

/-! ### modMot -/

@[simp] theorem State.modMot_pending (s : State) (m : Nat) (f : Motion → Motion) : (s.modMot m f).pending = s.pending := rfl
@[simp] theorem State.modMot_member (s : State) (m : Nat) (f : Motion → Motion) : (s.modMot m f).member = s.member := rfl
@[simp] theorem State.modMot_tick (s : State) (m : Nat) (f : Motion → Motion) : (s.modMot m f).tick = s.tick := rfl
@[simp] theorem State.modMot_tickHi (s : State) (m : Nat) (f : Motion → Motion) : (s.modMot m f).tickHi = s.tickHi := rfl
@[simp] theorem State.modMot_links (s : State) (m : Nat) (f : Motion → Motion) : (s.modMot m f).links = s.links := rfl
@[simp] theorem State.modMot_cfg (s : State) (m : Nat) (f : Motion → Motion) : (s.modMot m f).cfg = s.cfg := rfl
@[simp] theorem State.modMot_pnt (s : State) (m : Nat) (f : Motion → Motion) : (s.modMot m f).pnt = s.pnt := rfl
@[simp] theorem State.modMot_ports (s : State) (m : Nat) (f : Motion → Motion) : (s.modMot m f).ports = s.ports := rfl
@[simp] theorem State.modMot_nodes (s : State) (m : Nat) (f : Motion → Motion) : (s.modMot m f).nodes = s.nodes := rfl
@[simp] theorem State.modMot_trk (s : State) (m : Nat) (f : Motion → Motion) : (s.modMot m f).trk = s.trk := rfl
@[simp] theorem State.modMot_outbox (s : State) (m : Nat) (f : Motion → Motion) : (s.modMot m f).outbox = s.outbox := rfl
@[simp] theorem State.modMot_logic (s : State) (m : Nat) (f : Motion → Motion) : (s.modMot m f).logic = s.logic := rfl
@[simp] theorem State.modMot_cores (s : State) (m : Nat) (f : Motion → Motion) : (s.modMot m f).cores = s.cores := rfl
@[simp] theorem State.modMot_loopDies (s : State) (m : Nat) (f : Motion → Motion) : (s.modMot m f).loopDies = s.loopDies := rfl
@[simp] theorem State.modMot_loops (s : State) (m : Nat) (f : Motion → Motion) : (s.modMot m f).loops = s.loops := rfl
@[simp] theorem State.modMot_fio (s : State) (m : Nat) (f : Motion → Motion) : (s.modMot m f).fio = { s.fio with mots := sput s.fio.mots m (f (s.mot m)) } := rfl
@[simp] theorem State.modMot_mtr (s : State) (m : Nat) (f : Motion → Motion) : (s.modMot m f).mtr = s.mtr := rfl
@[simp] theorem State.modMot_mem (s : State) (m : Nat) (f : Motion → Motion) : (s.modMot m f).mem = s.mem := rfl
@[simp] theorem State.modMot_tags (s : State) (m : Nat) (f : Motion → Motion) : (s.modMot m f).tags = s.tags := rfl
@[simp] theorem State.modMot_owners (s : State) (m : Nat) (f : Motion → Motion) : (s.modMot m f).owners = s.owners := rfl
@[simp] theorem State.modMot_atus (s : State) (m : Nat) (f : Motion → Motion) : (s.modMot m f).atus = s.atus := rfl
@[simp] theorem State.modMot_dmas (s : State) (m : Nat) (f : Motion → Motion) : (s.modMot m f).dmas = s.dmas := rfl
@[simp] theorem State.modMot_hst (s : State) (m : Nat) (f : Motion → Motion) : (s.modMot m f).hst = s.hst := rfl
@[simp] theorem State.modMot_evr (s : State) (m : Nat) (f : Motion → Motion) : (s.modMot m f).evr = s.evr := rfl
@[simp] theorem State.modMot_host (s : State) (m : Nat) (f : Motion → Motion) : (s.modMot m f).host = s.host := rfl
@[simp] theorem State.modMot_sec (s : State) (m : Nat) (f : Motion → Motion) : (s.modMot m f).sec = s.sec := rfl
@[simp] theorem State.modMot_time (s : State) (m : Nat) (f : Motion → Motion) : (s.modMot m f).time = s.time := rfl
@[simp] theorem State.modMot_su (s : State) (m : Nat) (f : Motion → Motion) : (s.modMot m f).su = s.su := rfl
@[simp] theorem State.modMot_freeN (s : State) (m : Nat) (f : Motion → Motion) : (s.modMot m f).freeN = s.freeN := rfl

/-! ### modFio -/

@[simp] theorem State.modFio_pending (s : State) (f : FieldIO → FieldIO) : (s.modFio f).pending = s.pending := rfl
@[simp] theorem State.modFio_member (s : State) (f : FieldIO → FieldIO) : (s.modFio f).member = s.member := rfl
@[simp] theorem State.modFio_tick (s : State) (f : FieldIO → FieldIO) : (s.modFio f).tick = s.tick := rfl
@[simp] theorem State.modFio_tickHi (s : State) (f : FieldIO → FieldIO) : (s.modFio f).tickHi = s.tickHi := rfl
@[simp] theorem State.modFio_links (s : State) (f : FieldIO → FieldIO) : (s.modFio f).links = s.links := rfl
@[simp] theorem State.modFio_cfg (s : State) (f : FieldIO → FieldIO) : (s.modFio f).cfg = s.cfg := rfl
@[simp] theorem State.modFio_pnt (s : State) (f : FieldIO → FieldIO) : (s.modFio f).pnt = s.pnt := rfl
@[simp] theorem State.modFio_ports (s : State) (f : FieldIO → FieldIO) : (s.modFio f).ports = s.ports := rfl
@[simp] theorem State.modFio_nodes (s : State) (f : FieldIO → FieldIO) : (s.modFio f).nodes = s.nodes := rfl
@[simp] theorem State.modFio_trk (s : State) (f : FieldIO → FieldIO) : (s.modFio f).trk = s.trk := rfl
@[simp] theorem State.modFio_outbox (s : State) (f : FieldIO → FieldIO) : (s.modFio f).outbox = s.outbox := rfl
@[simp] theorem State.modFio_logic (s : State) (f : FieldIO → FieldIO) : (s.modFio f).logic = s.logic := rfl
@[simp] theorem State.modFio_cores (s : State) (f : FieldIO → FieldIO) : (s.modFio f).cores = s.cores := rfl
@[simp] theorem State.modFio_loopDies (s : State) (f : FieldIO → FieldIO) : (s.modFio f).loopDies = s.loopDies := rfl
@[simp] theorem State.modFio_loops (s : State) (f : FieldIO → FieldIO) : (s.modFio f).loops = s.loops := rfl
@[simp] theorem State.modFio_fio (s : State) (f : FieldIO → FieldIO) : (s.modFio f).fio = f s.fio := rfl
@[simp] theorem State.modFio_mtr (s : State) (f : FieldIO → FieldIO) : (s.modFio f).mtr = s.mtr := rfl
@[simp] theorem State.modFio_mem (s : State) (f : FieldIO → FieldIO) : (s.modFio f).mem = s.mem := rfl
@[simp] theorem State.modFio_tags (s : State) (f : FieldIO → FieldIO) : (s.modFio f).tags = s.tags := rfl
@[simp] theorem State.modFio_owners (s : State) (f : FieldIO → FieldIO) : (s.modFio f).owners = s.owners := rfl
@[simp] theorem State.modFio_atus (s : State) (f : FieldIO → FieldIO) : (s.modFio f).atus = s.atus := rfl
@[simp] theorem State.modFio_dmas (s : State) (f : FieldIO → FieldIO) : (s.modFio f).dmas = s.dmas := rfl
@[simp] theorem State.modFio_hst (s : State) (f : FieldIO → FieldIO) : (s.modFio f).hst = s.hst := rfl
@[simp] theorem State.modFio_evr (s : State) (f : FieldIO → FieldIO) : (s.modFio f).evr = s.evr := rfl
@[simp] theorem State.modFio_host (s : State) (f : FieldIO → FieldIO) : (s.modFio f).host = s.host := rfl
@[simp] theorem State.modFio_sec (s : State) (f : FieldIO → FieldIO) : (s.modFio f).sec = s.sec := rfl
@[simp] theorem State.modFio_time (s : State) (f : FieldIO → FieldIO) : (s.modFio f).time = s.time := rfl
@[simp] theorem State.modFio_su (s : State) (f : FieldIO → FieldIO) : (s.modFio f).su = s.su := rfl
@[simp] theorem State.modFio_freeN (s : State) (f : FieldIO → FieldIO) : (s.modFio f).freeN = s.freeN := rfl

/-! ### modMtr -/

@[simp] theorem State.modMtr_pending (s : State) (f : Metering → Metering) : (s.modMtr f).pending = s.pending := rfl
@[simp] theorem State.modMtr_member (s : State) (f : Metering → Metering) : (s.modMtr f).member = s.member := rfl
@[simp] theorem State.modMtr_tick (s : State) (f : Metering → Metering) : (s.modMtr f).tick = s.tick := rfl
@[simp] theorem State.modMtr_tickHi (s : State) (f : Metering → Metering) : (s.modMtr f).tickHi = s.tickHi := rfl
@[simp] theorem State.modMtr_links (s : State) (f : Metering → Metering) : (s.modMtr f).links = s.links := rfl
@[simp] theorem State.modMtr_cfg (s : State) (f : Metering → Metering) : (s.modMtr f).cfg = s.cfg := rfl
@[simp] theorem State.modMtr_pnt (s : State) (f : Metering → Metering) : (s.modMtr f).pnt = s.pnt := rfl
@[simp] theorem State.modMtr_ports (s : State) (f : Metering → Metering) : (s.modMtr f).ports = s.ports := rfl
@[simp] theorem State.modMtr_nodes (s : State) (f : Metering → Metering) : (s.modMtr f).nodes = s.nodes := rfl
@[simp] theorem State.modMtr_trk (s : State) (f : Metering → Metering) : (s.modMtr f).trk = s.trk := rfl
@[simp] theorem State.modMtr_outbox (s : State) (f : Metering → Metering) : (s.modMtr f).outbox = s.outbox := rfl
@[simp] theorem State.modMtr_logic (s : State) (f : Metering → Metering) : (s.modMtr f).logic = s.logic := rfl
@[simp] theorem State.modMtr_cores (s : State) (f : Metering → Metering) : (s.modMtr f).cores = s.cores := rfl
@[simp] theorem State.modMtr_loopDies (s : State) (f : Metering → Metering) : (s.modMtr f).loopDies = s.loopDies := rfl
@[simp] theorem State.modMtr_loops (s : State) (f : Metering → Metering) : (s.modMtr f).loops = s.loops := rfl
@[simp] theorem State.modMtr_fio (s : State) (f : Metering → Metering) : (s.modMtr f).fio = s.fio := rfl
@[simp] theorem State.modMtr_mtr (s : State) (f : Metering → Metering) : (s.modMtr f).mtr = f s.mtr := rfl
@[simp] theorem State.modMtr_mem (s : State) (f : Metering → Metering) : (s.modMtr f).mem = s.mem := rfl
@[simp] theorem State.modMtr_tags (s : State) (f : Metering → Metering) : (s.modMtr f).tags = s.tags := rfl
@[simp] theorem State.modMtr_owners (s : State) (f : Metering → Metering) : (s.modMtr f).owners = s.owners := rfl
@[simp] theorem State.modMtr_atus (s : State) (f : Metering → Metering) : (s.modMtr f).atus = s.atus := rfl
@[simp] theorem State.modMtr_dmas (s : State) (f : Metering → Metering) : (s.modMtr f).dmas = s.dmas := rfl
@[simp] theorem State.modMtr_hst (s : State) (f : Metering → Metering) : (s.modMtr f).hst = s.hst := rfl
@[simp] theorem State.modMtr_evr (s : State) (f : Metering → Metering) : (s.modMtr f).evr = s.evr := rfl
@[simp] theorem State.modMtr_host (s : State) (f : Metering → Metering) : (s.modMtr f).host = s.host := rfl
@[simp] theorem State.modMtr_sec (s : State) (f : Metering → Metering) : (s.modMtr f).sec = s.sec := rfl
@[simp] theorem State.modMtr_time (s : State) (f : Metering → Metering) : (s.modMtr f).time = s.time := rfl
@[simp] theorem State.modMtr_su (s : State) (f : Metering → Metering) : (s.modMtr f).su = s.su := rfl
@[simp] theorem State.modMtr_freeN (s : State) (f : Metering → Metering) : (s.modMtr f).freeN = s.freeN := rfl

/-! ### setAtu -/

@[simp] theorem State.setAtu_pending (s : State) (d : Nat) (x : Atu) : (s.setAtu d x).pending = s.pending := rfl
@[simp] theorem State.setAtu_member (s : State) (d : Nat) (x : Atu) : (s.setAtu d x).member = s.member := rfl
@[simp] theorem State.setAtu_tick (s : State) (d : Nat) (x : Atu) : (s.setAtu d x).tick = s.tick := rfl
@[simp] theorem State.setAtu_tickHi (s : State) (d : Nat) (x : Atu) : (s.setAtu d x).tickHi = s.tickHi := rfl
@[simp] theorem State.setAtu_links (s : State) (d : Nat) (x : Atu) : (s.setAtu d x).links = s.links := rfl
@[simp] theorem State.setAtu_cfg (s : State) (d : Nat) (x : Atu) : (s.setAtu d x).cfg = s.cfg := rfl
@[simp] theorem State.setAtu_pnt (s : State) (d : Nat) (x : Atu) : (s.setAtu d x).pnt = s.pnt := rfl
@[simp] theorem State.setAtu_ports (s : State) (d : Nat) (x : Atu) : (s.setAtu d x).ports = s.ports := rfl
@[simp] theorem State.setAtu_nodes (s : State) (d : Nat) (x : Atu) : (s.setAtu d x).nodes = s.nodes := rfl
@[simp] theorem State.setAtu_trk (s : State) (d : Nat) (x : Atu) : (s.setAtu d x).trk = s.trk := rfl
@[simp] theorem State.setAtu_outbox (s : State) (d : Nat) (x : Atu) : (s.setAtu d x).outbox = s.outbox := rfl
@[simp] theorem State.setAtu_logic (s : State) (d : Nat) (x : Atu) : (s.setAtu d x).logic = s.logic := rfl
@[simp] theorem State.setAtu_cores (s : State) (d : Nat) (x : Atu) : (s.setAtu d x).cores = s.cores := rfl
@[simp] theorem State.setAtu_loopDies (s : State) (d : Nat) (x : Atu) : (s.setAtu d x).loopDies = s.loopDies := rfl
@[simp] theorem State.setAtu_loops (s : State) (d : Nat) (x : Atu) : (s.setAtu d x).loops = s.loops := rfl
@[simp] theorem State.setAtu_fio (s : State) (d : Nat) (x : Atu) : (s.setAtu d x).fio = s.fio := rfl
@[simp] theorem State.setAtu_mtr (s : State) (d : Nat) (x : Atu) : (s.setAtu d x).mtr = s.mtr := rfl
@[simp] theorem State.setAtu_mem (s : State) (d : Nat) (x : Atu) : (s.setAtu d x).mem = s.mem := rfl
@[simp] theorem State.setAtu_tags (s : State) (d : Nat) (x : Atu) : (s.setAtu d x).tags = s.tags := rfl
@[simp] theorem State.setAtu_owners (s : State) (d : Nat) (x : Atu) : (s.setAtu d x).owners = s.owners := rfl
@[simp] theorem State.setAtu_atus (s : State) (d : Nat) (x : Atu) : (s.setAtu d x).atus = sput s.atus d x := rfl
@[simp] theorem State.setAtu_dmas (s : State) (d : Nat) (x : Atu) : (s.setAtu d x).dmas = s.dmas := rfl
@[simp] theorem State.setAtu_hst (s : State) (d : Nat) (x : Atu) : (s.setAtu d x).hst = s.hst := rfl
@[simp] theorem State.setAtu_evr (s : State) (d : Nat) (x : Atu) : (s.setAtu d x).evr = s.evr := rfl
@[simp] theorem State.setAtu_host (s : State) (d : Nat) (x : Atu) : (s.setAtu d x).host = s.host := rfl
@[simp] theorem State.setAtu_sec (s : State) (d : Nat) (x : Atu) : (s.setAtu d x).sec = s.sec := rfl
@[simp] theorem State.setAtu_time (s : State) (d : Nat) (x : Atu) : (s.setAtu d x).time = s.time := rfl
@[simp] theorem State.setAtu_su (s : State) (d : Nat) (x : Atu) : (s.setAtu d x).su = s.su := rfl
@[simp] theorem State.setAtu_freeN (s : State) (d : Nat) (x : Atu) : (s.setAtu d x).freeN = s.freeN := rfl

/-! ### modAtu -/

@[simp] theorem State.modAtu_pending (s : State) (d : Nat) (f : Atu → Atu) : (s.modAtu d f).pending = s.pending := rfl
@[simp] theorem State.modAtu_member (s : State) (d : Nat) (f : Atu → Atu) : (s.modAtu d f).member = s.member := rfl
@[simp] theorem State.modAtu_tick (s : State) (d : Nat) (f : Atu → Atu) : (s.modAtu d f).tick = s.tick := rfl
@[simp] theorem State.modAtu_tickHi (s : State) (d : Nat) (f : Atu → Atu) : (s.modAtu d f).tickHi = s.tickHi := rfl
@[simp] theorem State.modAtu_links (s : State) (d : Nat) (f : Atu → Atu) : (s.modAtu d f).links = s.links := rfl
@[simp] theorem State.modAtu_cfg (s : State) (d : Nat) (f : Atu → Atu) : (s.modAtu d f).cfg = s.cfg := rfl
@[simp] theorem State.modAtu_pnt (s : State) (d : Nat) (f : Atu → Atu) : (s.modAtu d f).pnt = s.pnt := rfl
@[simp] theorem State.modAtu_ports (s : State) (d : Nat) (f : Atu → Atu) : (s.modAtu d f).ports = s.ports := rfl
@[simp] theorem State.modAtu_nodes (s : State) (d : Nat) (f : Atu → Atu) : (s.modAtu d f).nodes = s.nodes := rfl
@[simp] theorem State.modAtu_trk (s : State) (d : Nat) (f : Atu → Atu) : (s.modAtu d f).trk = s.trk := rfl
@[simp] theorem State.modAtu_outbox (s : State) (d : Nat) (f : Atu → Atu) : (s.modAtu d f).outbox = s.outbox := rfl
@[simp] theorem State.modAtu_logic (s : State) (d : Nat) (f : Atu → Atu) : (s.modAtu d f).logic = s.logic := rfl
@[simp] theorem State.modAtu_cores (s : State) (d : Nat) (f : Atu → Atu) : (s.modAtu d f).cores = s.cores := rfl
@[simp] theorem State.modAtu_loopDies (s : State) (d : Nat) (f : Atu → Atu) : (s.modAtu d f).loopDies = s.loopDies := rfl
@[simp] theorem State.modAtu_loops (s : State) (d : Nat) (f : Atu → Atu) : (s.modAtu d f).loops = s.loops := rfl
@[simp] theorem State.modAtu_fio (s : State) (d : Nat) (f : Atu → Atu) : (s.modAtu d f).fio = s.fio := rfl
@[simp] theorem State.modAtu_mtr (s : State) (d : Nat) (f : Atu → Atu) : (s.modAtu d f).mtr = s.mtr := rfl
@[simp] theorem State.modAtu_mem (s : State) (d : Nat) (f : Atu → Atu) : (s.modAtu d f).mem = s.mem := rfl
@[simp] theorem State.modAtu_tags (s : State) (d : Nat) (f : Atu → Atu) : (s.modAtu d f).tags = s.tags := rfl
@[simp] theorem State.modAtu_owners (s : State) (d : Nat) (f : Atu → Atu) : (s.modAtu d f).owners = s.owners := rfl
@[simp] theorem State.modAtu_atus (s : State) (d : Nat) (f : Atu → Atu) : (s.modAtu d f).atus = sput s.atus d (f (s.atu d)) := rfl
@[simp] theorem State.modAtu_dmas (s : State) (d : Nat) (f : Atu → Atu) : (s.modAtu d f).dmas = s.dmas := rfl
@[simp] theorem State.modAtu_hst (s : State) (d : Nat) (f : Atu → Atu) : (s.modAtu d f).hst = s.hst := rfl
@[simp] theorem State.modAtu_evr (s : State) (d : Nat) (f : Atu → Atu) : (s.modAtu d f).evr = s.evr := rfl
@[simp] theorem State.modAtu_host (s : State) (d : Nat) (f : Atu → Atu) : (s.modAtu d f).host = s.host := rfl
@[simp] theorem State.modAtu_sec (s : State) (d : Nat) (f : Atu → Atu) : (s.modAtu d f).sec = s.sec := rfl
@[simp] theorem State.modAtu_time (s : State) (d : Nat) (f : Atu → Atu) : (s.modAtu d f).time = s.time := rfl
@[simp] theorem State.modAtu_su (s : State) (d : Nat) (f : Atu → Atu) : (s.modAtu d f).su = s.su := rfl
@[simp] theorem State.modAtu_freeN (s : State) (d : Nat) (f : Atu → Atu) : (s.modAtu d f).freeN = s.freeN := rfl

/-! ### setDma -/

@[simp] theorem State.setDma_pending (s : State) (d : Nat) (x : DmaDie) : (s.setDma d x).pending = s.pending := rfl
@[simp] theorem State.setDma_member (s : State) (d : Nat) (x : DmaDie) : (s.setDma d x).member = s.member := rfl
@[simp] theorem State.setDma_tick (s : State) (d : Nat) (x : DmaDie) : (s.setDma d x).tick = s.tick := rfl
@[simp] theorem State.setDma_tickHi (s : State) (d : Nat) (x : DmaDie) : (s.setDma d x).tickHi = s.tickHi := rfl
@[simp] theorem State.setDma_links (s : State) (d : Nat) (x : DmaDie) : (s.setDma d x).links = s.links := rfl
@[simp] theorem State.setDma_cfg (s : State) (d : Nat) (x : DmaDie) : (s.setDma d x).cfg = s.cfg := rfl
@[simp] theorem State.setDma_pnt (s : State) (d : Nat) (x : DmaDie) : (s.setDma d x).pnt = s.pnt := rfl
@[simp] theorem State.setDma_ports (s : State) (d : Nat) (x : DmaDie) : (s.setDma d x).ports = s.ports := rfl
@[simp] theorem State.setDma_nodes (s : State) (d : Nat) (x : DmaDie) : (s.setDma d x).nodes = s.nodes := rfl
@[simp] theorem State.setDma_trk (s : State) (d : Nat) (x : DmaDie) : (s.setDma d x).trk = s.trk := rfl
@[simp] theorem State.setDma_outbox (s : State) (d : Nat) (x : DmaDie) : (s.setDma d x).outbox = s.outbox := rfl
@[simp] theorem State.setDma_logic (s : State) (d : Nat) (x : DmaDie) : (s.setDma d x).logic = s.logic := rfl
@[simp] theorem State.setDma_cores (s : State) (d : Nat) (x : DmaDie) : (s.setDma d x).cores = s.cores := rfl
@[simp] theorem State.setDma_loopDies (s : State) (d : Nat) (x : DmaDie) : (s.setDma d x).loopDies = s.loopDies := rfl
@[simp] theorem State.setDma_loops (s : State) (d : Nat) (x : DmaDie) : (s.setDma d x).loops = s.loops := rfl
@[simp] theorem State.setDma_fio (s : State) (d : Nat) (x : DmaDie) : (s.setDma d x).fio = s.fio := rfl
@[simp] theorem State.setDma_mtr (s : State) (d : Nat) (x : DmaDie) : (s.setDma d x).mtr = s.mtr := rfl
@[simp] theorem State.setDma_mem (s : State) (d : Nat) (x : DmaDie) : (s.setDma d x).mem = s.mem := rfl
@[simp] theorem State.setDma_tags (s : State) (d : Nat) (x : DmaDie) : (s.setDma d x).tags = s.tags := rfl
@[simp] theorem State.setDma_owners (s : State) (d : Nat) (x : DmaDie) : (s.setDma d x).owners = s.owners := rfl
@[simp] theorem State.setDma_atus (s : State) (d : Nat) (x : DmaDie) : (s.setDma d x).atus = s.atus := rfl
@[simp] theorem State.setDma_dmas (s : State) (d : Nat) (x : DmaDie) : (s.setDma d x).dmas = sput s.dmas d x := rfl
@[simp] theorem State.setDma_hst (s : State) (d : Nat) (x : DmaDie) : (s.setDma d x).hst = s.hst := rfl
@[simp] theorem State.setDma_evr (s : State) (d : Nat) (x : DmaDie) : (s.setDma d x).evr = s.evr := rfl
@[simp] theorem State.setDma_host (s : State) (d : Nat) (x : DmaDie) : (s.setDma d x).host = s.host := rfl
@[simp] theorem State.setDma_sec (s : State) (d : Nat) (x : DmaDie) : (s.setDma d x).sec = s.sec := rfl
@[simp] theorem State.setDma_time (s : State) (d : Nat) (x : DmaDie) : (s.setDma d x).time = s.time := rfl
@[simp] theorem State.setDma_su (s : State) (d : Nat) (x : DmaDie) : (s.setDma d x).su = s.su := rfl
@[simp] theorem State.setDma_freeN (s : State) (d : Nat) (x : DmaDie) : (s.setDma d x).freeN = s.freeN := rfl

/-! ### modHstDie -/

@[simp] theorem State.modHstDie_pending (s : State) (d : Nat) (f : HstDie → HstDie) : (s.modHstDie d f).pending = s.pending := rfl
@[simp] theorem State.modHstDie_member (s : State) (d : Nat) (f : HstDie → HstDie) : (s.modHstDie d f).member = s.member := rfl
@[simp] theorem State.modHstDie_tick (s : State) (d : Nat) (f : HstDie → HstDie) : (s.modHstDie d f).tick = s.tick := rfl
@[simp] theorem State.modHstDie_tickHi (s : State) (d : Nat) (f : HstDie → HstDie) : (s.modHstDie d f).tickHi = s.tickHi := rfl
@[simp] theorem State.modHstDie_links (s : State) (d : Nat) (f : HstDie → HstDie) : (s.modHstDie d f).links = s.links := rfl
@[simp] theorem State.modHstDie_cfg (s : State) (d : Nat) (f : HstDie → HstDie) : (s.modHstDie d f).cfg = s.cfg := rfl
@[simp] theorem State.modHstDie_pnt (s : State) (d : Nat) (f : HstDie → HstDie) : (s.modHstDie d f).pnt = s.pnt := rfl
@[simp] theorem State.modHstDie_ports (s : State) (d : Nat) (f : HstDie → HstDie) : (s.modHstDie d f).ports = s.ports := rfl
@[simp] theorem State.modHstDie_nodes (s : State) (d : Nat) (f : HstDie → HstDie) : (s.modHstDie d f).nodes = s.nodes := rfl
@[simp] theorem State.modHstDie_trk (s : State) (d : Nat) (f : HstDie → HstDie) : (s.modHstDie d f).trk = s.trk := rfl
@[simp] theorem State.modHstDie_outbox (s : State) (d : Nat) (f : HstDie → HstDie) : (s.modHstDie d f).outbox = s.outbox := rfl
@[simp] theorem State.modHstDie_logic (s : State) (d : Nat) (f : HstDie → HstDie) : (s.modHstDie d f).logic = s.logic := rfl
@[simp] theorem State.modHstDie_cores (s : State) (d : Nat) (f : HstDie → HstDie) : (s.modHstDie d f).cores = s.cores := rfl
@[simp] theorem State.modHstDie_loopDies (s : State) (d : Nat) (f : HstDie → HstDie) : (s.modHstDie d f).loopDies = s.loopDies := rfl
@[simp] theorem State.modHstDie_loops (s : State) (d : Nat) (f : HstDie → HstDie) : (s.modHstDie d f).loops = s.loops := rfl
@[simp] theorem State.modHstDie_fio (s : State) (d : Nat) (f : HstDie → HstDie) : (s.modHstDie d f).fio = s.fio := rfl
@[simp] theorem State.modHstDie_mtr (s : State) (d : Nat) (f : HstDie → HstDie) : (s.modHstDie d f).mtr = s.mtr := rfl
@[simp] theorem State.modHstDie_mem (s : State) (d : Nat) (f : HstDie → HstDie) : (s.modHstDie d f).mem = s.mem := rfl
@[simp] theorem State.modHstDie_tags (s : State) (d : Nat) (f : HstDie → HstDie) : (s.modHstDie d f).tags = s.tags := rfl
@[simp] theorem State.modHstDie_owners (s : State) (d : Nat) (f : HstDie → HstDie) : (s.modHstDie d f).owners = s.owners := rfl
@[simp] theorem State.modHstDie_atus (s : State) (d : Nat) (f : HstDie → HstDie) : (s.modHstDie d f).atus = s.atus := rfl
@[simp] theorem State.modHstDie_dmas (s : State) (d : Nat) (f : HstDie → HstDie) : (s.modHstDie d f).dmas = s.dmas := rfl
@[simp] theorem State.modHstDie_hst (s : State) (d : Nat) (f : HstDie → HstDie) : (s.modHstDie d f).hst = { s.hst with dies := supd {} s.hst.dies d f } := rfl
@[simp] theorem State.modHstDie_evr (s : State) (d : Nat) (f : HstDie → HstDie) : (s.modHstDie d f).evr = s.evr := rfl
@[simp] theorem State.modHstDie_host (s : State) (d : Nat) (f : HstDie → HstDie) : (s.modHstDie d f).host = s.host := rfl
@[simp] theorem State.modHstDie_sec (s : State) (d : Nat) (f : HstDie → HstDie) : (s.modHstDie d f).sec = s.sec := rfl
@[simp] theorem State.modHstDie_time (s : State) (d : Nat) (f : HstDie → HstDie) : (s.modHstDie d f).time = s.time := rfl
@[simp] theorem State.modHstDie_su (s : State) (d : Nat) (f : HstDie → HstDie) : (s.modHstDie d f).su = s.su := rfl
@[simp] theorem State.modHstDie_freeN (s : State) (d : Nat) (f : HstDie → HstDie) : (s.modHstDie d f).freeN = s.freeN := rfl

/-! ### modHst -/

@[simp] theorem State.modHst_pending (s : State) (f : History → History) : (s.modHst f).pending = s.pending := rfl
@[simp] theorem State.modHst_member (s : State) (f : History → History) : (s.modHst f).member = s.member := rfl
@[simp] theorem State.modHst_tick (s : State) (f : History → History) : (s.modHst f).tick = s.tick := rfl
@[simp] theorem State.modHst_tickHi (s : State) (f : History → History) : (s.modHst f).tickHi = s.tickHi := rfl
@[simp] theorem State.modHst_links (s : State) (f : History → History) : (s.modHst f).links = s.links := rfl
@[simp] theorem State.modHst_cfg (s : State) (f : History → History) : (s.modHst f).cfg = s.cfg := rfl
@[simp] theorem State.modHst_pnt (s : State) (f : History → History) : (s.modHst f).pnt = s.pnt := rfl
@[simp] theorem State.modHst_ports (s : State) (f : History → History) : (s.modHst f).ports = s.ports := rfl
@[simp] theorem State.modHst_nodes (s : State) (f : History → History) : (s.modHst f).nodes = s.nodes := rfl
@[simp] theorem State.modHst_trk (s : State) (f : History → History) : (s.modHst f).trk = s.trk := rfl
@[simp] theorem State.modHst_outbox (s : State) (f : History → History) : (s.modHst f).outbox = s.outbox := rfl
@[simp] theorem State.modHst_logic (s : State) (f : History → History) : (s.modHst f).logic = s.logic := rfl
@[simp] theorem State.modHst_cores (s : State) (f : History → History) : (s.modHst f).cores = s.cores := rfl
@[simp] theorem State.modHst_loopDies (s : State) (f : History → History) : (s.modHst f).loopDies = s.loopDies := rfl
@[simp] theorem State.modHst_loops (s : State) (f : History → History) : (s.modHst f).loops = s.loops := rfl
@[simp] theorem State.modHst_fio (s : State) (f : History → History) : (s.modHst f).fio = s.fio := rfl
@[simp] theorem State.modHst_mtr (s : State) (f : History → History) : (s.modHst f).mtr = s.mtr := rfl
@[simp] theorem State.modHst_mem (s : State) (f : History → History) : (s.modHst f).mem = s.mem := rfl
@[simp] theorem State.modHst_tags (s : State) (f : History → History) : (s.modHst f).tags = s.tags := rfl
@[simp] theorem State.modHst_owners (s : State) (f : History → History) : (s.modHst f).owners = s.owners := rfl
@[simp] theorem State.modHst_atus (s : State) (f : History → History) : (s.modHst f).atus = s.atus := rfl
@[simp] theorem State.modHst_dmas (s : State) (f : History → History) : (s.modHst f).dmas = s.dmas := rfl
@[simp] theorem State.modHst_hst (s : State) (f : History → History) : (s.modHst f).hst = f s.hst := rfl
@[simp] theorem State.modHst_evr (s : State) (f : History → History) : (s.modHst f).evr = s.evr := rfl
@[simp] theorem State.modHst_host (s : State) (f : History → History) : (s.modHst f).host = s.host := rfl
@[simp] theorem State.modHst_sec (s : State) (f : History → History) : (s.modHst f).sec = s.sec := rfl
@[simp] theorem State.modHst_time (s : State) (f : History → History) : (s.modHst f).time = s.time := rfl
@[simp] theorem State.modHst_su (s : State) (f : History → History) : (s.modHst f).su = s.su := rfl
@[simp] theorem State.modHst_freeN (s : State) (f : History → History) : (s.modHst f).freeN = s.freeN := rfl

/-! ### modEvr -/

@[simp] theorem State.modEvr_pending (s : State) (f : Recorder → Recorder) : (s.modEvr f).pending = s.pending := rfl
@[simp] theorem State.modEvr_member (s : State) (f : Recorder → Recorder) : (s.modEvr f).member = s.member := rfl
@[simp] theorem State.modEvr_tick (s : State) (f : Recorder → Recorder) : (s.modEvr f).tick = s.tick := rfl
@[simp] theorem State.modEvr_tickHi (s : State) (f : Recorder → Recorder) : (s.modEvr f).tickHi = s.tickHi := rfl
@[simp] theorem State.modEvr_links (s : State) (f : Recorder → Recorder) : (s.modEvr f).links = s.links := rfl
@[simp] theorem State.modEvr_cfg (s : State) (f : Recorder → Recorder) : (s.modEvr f).cfg = s.cfg := rfl
@[simp] theorem State.modEvr_pnt (s : State) (f : Recorder → Recorder) : (s.modEvr f).pnt = s.pnt := rfl
@[simp] theorem State.modEvr_ports (s : State) (f : Recorder → Recorder) : (s.modEvr f).ports = s.ports := rfl
@[simp] theorem State.modEvr_nodes (s : State) (f : Recorder → Recorder) : (s.modEvr f).nodes = s.nodes := rfl
@[simp] theorem State.modEvr_trk (s : State) (f : Recorder → Recorder) : (s.modEvr f).trk = s.trk := rfl
@[simp] theorem State.modEvr_outbox (s : State) (f : Recorder → Recorder) : (s.modEvr f).outbox = s.outbox := rfl
@[simp] theorem State.modEvr_logic (s : State) (f : Recorder → Recorder) : (s.modEvr f).logic = s.logic := rfl
@[simp] theorem State.modEvr_cores (s : State) (f : Recorder → Recorder) : (s.modEvr f).cores = s.cores := rfl
@[simp] theorem State.modEvr_loopDies (s : State) (f : Recorder → Recorder) : (s.modEvr f).loopDies = s.loopDies := rfl
@[simp] theorem State.modEvr_loops (s : State) (f : Recorder → Recorder) : (s.modEvr f).loops = s.loops := rfl
@[simp] theorem State.modEvr_fio (s : State) (f : Recorder → Recorder) : (s.modEvr f).fio = s.fio := rfl
@[simp] theorem State.modEvr_mtr (s : State) (f : Recorder → Recorder) : (s.modEvr f).mtr = s.mtr := rfl
@[simp] theorem State.modEvr_mem (s : State) (f : Recorder → Recorder) : (s.modEvr f).mem = s.mem := rfl
@[simp] theorem State.modEvr_tags (s : State) (f : Recorder → Recorder) : (s.modEvr f).tags = s.tags := rfl
@[simp] theorem State.modEvr_owners (s : State) (f : Recorder → Recorder) : (s.modEvr f).owners = s.owners := rfl
@[simp] theorem State.modEvr_atus (s : State) (f : Recorder → Recorder) : (s.modEvr f).atus = s.atus := rfl
@[simp] theorem State.modEvr_dmas (s : State) (f : Recorder → Recorder) : (s.modEvr f).dmas = s.dmas := rfl
@[simp] theorem State.modEvr_hst (s : State) (f : Recorder → Recorder) : (s.modEvr f).hst = s.hst := rfl
@[simp] theorem State.modEvr_evr (s : State) (f : Recorder → Recorder) : (s.modEvr f).evr = f s.evr := rfl
@[simp] theorem State.modEvr_host (s : State) (f : Recorder → Recorder) : (s.modEvr f).host = s.host := rfl
@[simp] theorem State.modEvr_sec (s : State) (f : Recorder → Recorder) : (s.modEvr f).sec = s.sec := rfl
@[simp] theorem State.modEvr_time (s : State) (f : Recorder → Recorder) : (s.modEvr f).time = s.time := rfl
@[simp] theorem State.modEvr_su (s : State) (f : Recorder → Recorder) : (s.modEvr f).su = s.su := rfl
@[simp] theorem State.modEvr_freeN (s : State) (f : Recorder → Recorder) : (s.modEvr f).freeN = s.freeN := rfl

/-! ### modHost -/

@[simp] theorem State.modHost_pending (s : State) (f : HostPort → HostPort) : (s.modHost f).pending = s.pending := rfl
@[simp] theorem State.modHost_member (s : State) (f : HostPort → HostPort) : (s.modHost f).member = s.member := rfl
@[simp] theorem State.modHost_tick (s : State) (f : HostPort → HostPort) : (s.modHost f).tick = s.tick := rfl
@[simp] theorem State.modHost_tickHi (s : State) (f : HostPort → HostPort) : (s.modHost f).tickHi = s.tickHi := rfl
@[simp] theorem State.modHost_links (s : State) (f : HostPort → HostPort) : (s.modHost f).links = s.links := rfl
@[simp] theorem State.modHost_cfg (s : State) (f : HostPort → HostPort) : (s.modHost f).cfg = s.cfg := rfl
@[simp] theorem State.modHost_pnt (s : State) (f : HostPort → HostPort) : (s.modHost f).pnt = s.pnt := rfl
@[simp] theorem State.modHost_ports (s : State) (f : HostPort → HostPort) : (s.modHost f).ports = s.ports := rfl
@[simp] theorem State.modHost_nodes (s : State) (f : HostPort → HostPort) : (s.modHost f).nodes = s.nodes := rfl
@[simp] theorem State.modHost_trk (s : State) (f : HostPort → HostPort) : (s.modHost f).trk = s.trk := rfl
@[simp] theorem State.modHost_outbox (s : State) (f : HostPort → HostPort) : (s.modHost f).outbox = s.outbox := rfl
@[simp] theorem State.modHost_logic (s : State) (f : HostPort → HostPort) : (s.modHost f).logic = s.logic := rfl
@[simp] theorem State.modHost_cores (s : State) (f : HostPort → HostPort) : (s.modHost f).cores = s.cores := rfl
@[simp] theorem State.modHost_loopDies (s : State) (f : HostPort → HostPort) : (s.modHost f).loopDies = s.loopDies := rfl
@[simp] theorem State.modHost_loops (s : State) (f : HostPort → HostPort) : (s.modHost f).loops = s.loops := rfl
@[simp] theorem State.modHost_fio (s : State) (f : HostPort → HostPort) : (s.modHost f).fio = s.fio := rfl
@[simp] theorem State.modHost_mtr (s : State) (f : HostPort → HostPort) : (s.modHost f).mtr = s.mtr := rfl
@[simp] theorem State.modHost_mem (s : State) (f : HostPort → HostPort) : (s.modHost f).mem = s.mem := rfl
@[simp] theorem State.modHost_tags (s : State) (f : HostPort → HostPort) : (s.modHost f).tags = s.tags := rfl
@[simp] theorem State.modHost_owners (s : State) (f : HostPort → HostPort) : (s.modHost f).owners = s.owners := rfl
@[simp] theorem State.modHost_atus (s : State) (f : HostPort → HostPort) : (s.modHost f).atus = s.atus := rfl
@[simp] theorem State.modHost_dmas (s : State) (f : HostPort → HostPort) : (s.modHost f).dmas = s.dmas := rfl
@[simp] theorem State.modHost_hst (s : State) (f : HostPort → HostPort) : (s.modHost f).hst = s.hst := rfl
@[simp] theorem State.modHost_evr (s : State) (f : HostPort → HostPort) : (s.modHost f).evr = s.evr := rfl
@[simp] theorem State.modHost_host (s : State) (f : HostPort → HostPort) : (s.modHost f).host = f s.host := rfl
@[simp] theorem State.modHost_sec (s : State) (f : HostPort → HostPort) : (s.modHost f).sec = s.sec := rfl
@[simp] theorem State.modHost_time (s : State) (f : HostPort → HostPort) : (s.modHost f).time = s.time := rfl
@[simp] theorem State.modHost_su (s : State) (f : HostPort → HostPort) : (s.modHost f).su = s.su := rfl
@[simp] theorem State.modHost_freeN (s : State) (f : HostPort → HostPort) : (s.modHost f).freeN = s.freeN := rfl

/-! ### modSec -/

@[simp] theorem State.modSec_pending (s : State) (f : Security → Security) : (s.modSec f).pending = s.pending := rfl
@[simp] theorem State.modSec_member (s : State) (f : Security → Security) : (s.modSec f).member = s.member := rfl
@[simp] theorem State.modSec_tick (s : State) (f : Security → Security) : (s.modSec f).tick = s.tick := rfl
@[simp] theorem State.modSec_tickHi (s : State) (f : Security → Security) : (s.modSec f).tickHi = s.tickHi := rfl
@[simp] theorem State.modSec_links (s : State) (f : Security → Security) : (s.modSec f).links = s.links := rfl
@[simp] theorem State.modSec_cfg (s : State) (f : Security → Security) : (s.modSec f).cfg = s.cfg := rfl
@[simp] theorem State.modSec_pnt (s : State) (f : Security → Security) : (s.modSec f).pnt = s.pnt := rfl
@[simp] theorem State.modSec_ports (s : State) (f : Security → Security) : (s.modSec f).ports = s.ports := rfl
@[simp] theorem State.modSec_nodes (s : State) (f : Security → Security) : (s.modSec f).nodes = s.nodes := rfl
@[simp] theorem State.modSec_trk (s : State) (f : Security → Security) : (s.modSec f).trk = s.trk := rfl
@[simp] theorem State.modSec_outbox (s : State) (f : Security → Security) : (s.modSec f).outbox = s.outbox := rfl
@[simp] theorem State.modSec_logic (s : State) (f : Security → Security) : (s.modSec f).logic = s.logic := rfl
@[simp] theorem State.modSec_cores (s : State) (f : Security → Security) : (s.modSec f).cores = s.cores := rfl
@[simp] theorem State.modSec_loopDies (s : State) (f : Security → Security) : (s.modSec f).loopDies = s.loopDies := rfl
@[simp] theorem State.modSec_loops (s : State) (f : Security → Security) : (s.modSec f).loops = s.loops := rfl
@[simp] theorem State.modSec_fio (s : State) (f : Security → Security) : (s.modSec f).fio = s.fio := rfl
@[simp] theorem State.modSec_mtr (s : State) (f : Security → Security) : (s.modSec f).mtr = s.mtr := rfl
@[simp] theorem State.modSec_mem (s : State) (f : Security → Security) : (s.modSec f).mem = s.mem := rfl
@[simp] theorem State.modSec_tags (s : State) (f : Security → Security) : (s.modSec f).tags = s.tags := rfl
@[simp] theorem State.modSec_owners (s : State) (f : Security → Security) : (s.modSec f).owners = s.owners := rfl
@[simp] theorem State.modSec_atus (s : State) (f : Security → Security) : (s.modSec f).atus = s.atus := rfl
@[simp] theorem State.modSec_dmas (s : State) (f : Security → Security) : (s.modSec f).dmas = s.dmas := rfl
@[simp] theorem State.modSec_hst (s : State) (f : Security → Security) : (s.modSec f).hst = s.hst := rfl
@[simp] theorem State.modSec_evr (s : State) (f : Security → Security) : (s.modSec f).evr = s.evr := rfl
@[simp] theorem State.modSec_host (s : State) (f : Security → Security) : (s.modSec f).host = s.host := rfl
@[simp] theorem State.modSec_sec (s : State) (f : Security → Security) : (s.modSec f).sec = f s.sec := rfl
@[simp] theorem State.modSec_time (s : State) (f : Security → Security) : (s.modSec f).time = s.time := rfl
@[simp] theorem State.modSec_su (s : State) (f : Security → Security) : (s.modSec f).su = s.su := rfl
@[simp] theorem State.modSec_freeN (s : State) (f : Security → Security) : (s.modSec f).freeN = s.freeN := rfl

/-! ### modTime -/

@[simp] theorem State.modTime_pending (s : State) (f : Time → Time) : (s.modTime f).pending = s.pending := rfl
@[simp] theorem State.modTime_member (s : State) (f : Time → Time) : (s.modTime f).member = s.member := rfl
@[simp] theorem State.modTime_tick (s : State) (f : Time → Time) : (s.modTime f).tick = s.tick := rfl
@[simp] theorem State.modTime_tickHi (s : State) (f : Time → Time) : (s.modTime f).tickHi = s.tickHi := rfl
@[simp] theorem State.modTime_links (s : State) (f : Time → Time) : (s.modTime f).links = s.links := rfl
@[simp] theorem State.modTime_cfg (s : State) (f : Time → Time) : (s.modTime f).cfg = s.cfg := rfl
@[simp] theorem State.modTime_pnt (s : State) (f : Time → Time) : (s.modTime f).pnt = s.pnt := rfl
@[simp] theorem State.modTime_ports (s : State) (f : Time → Time) : (s.modTime f).ports = s.ports := rfl
@[simp] theorem State.modTime_nodes (s : State) (f : Time → Time) : (s.modTime f).nodes = s.nodes := rfl
@[simp] theorem State.modTime_trk (s : State) (f : Time → Time) : (s.modTime f).trk = s.trk := rfl
@[simp] theorem State.modTime_outbox (s : State) (f : Time → Time) : (s.modTime f).outbox = s.outbox := rfl
@[simp] theorem State.modTime_logic (s : State) (f : Time → Time) : (s.modTime f).logic = s.logic := rfl
@[simp] theorem State.modTime_cores (s : State) (f : Time → Time) : (s.modTime f).cores = s.cores := rfl
@[simp] theorem State.modTime_loopDies (s : State) (f : Time → Time) : (s.modTime f).loopDies = s.loopDies := rfl
@[simp] theorem State.modTime_loops (s : State) (f : Time → Time) : (s.modTime f).loops = s.loops := rfl
@[simp] theorem State.modTime_fio (s : State) (f : Time → Time) : (s.modTime f).fio = s.fio := rfl
@[simp] theorem State.modTime_mtr (s : State) (f : Time → Time) : (s.modTime f).mtr = s.mtr := rfl
@[simp] theorem State.modTime_mem (s : State) (f : Time → Time) : (s.modTime f).mem = s.mem := rfl
@[simp] theorem State.modTime_tags (s : State) (f : Time → Time) : (s.modTime f).tags = s.tags := rfl
@[simp] theorem State.modTime_owners (s : State) (f : Time → Time) : (s.modTime f).owners = s.owners := rfl
@[simp] theorem State.modTime_atus (s : State) (f : Time → Time) : (s.modTime f).atus = s.atus := rfl
@[simp] theorem State.modTime_dmas (s : State) (f : Time → Time) : (s.modTime f).dmas = s.dmas := rfl
@[simp] theorem State.modTime_hst (s : State) (f : Time → Time) : (s.modTime f).hst = s.hst := rfl
@[simp] theorem State.modTime_evr (s : State) (f : Time → Time) : (s.modTime f).evr = s.evr := rfl
@[simp] theorem State.modTime_host (s : State) (f : Time → Time) : (s.modTime f).host = s.host := rfl
@[simp] theorem State.modTime_sec (s : State) (f : Time → Time) : (s.modTime f).sec = s.sec := rfl
@[simp] theorem State.modTime_time (s : State) (f : Time → Time) : (s.modTime f).time = f s.time := rfl
@[simp] theorem State.modTime_su (s : State) (f : Time → Time) : (s.modTime f).su = s.su := rfl
@[simp] theorem State.modTime_freeN (s : State) (f : Time → Time) : (s.modTime f).freeN = s.freeN := rfl

/-! ### modSu -/

@[simp] theorem State.modSu_pending (s : State) (f : Startup → Startup) : (s.modSu f).pending = s.pending := rfl
@[simp] theorem State.modSu_member (s : State) (f : Startup → Startup) : (s.modSu f).member = s.member := rfl
@[simp] theorem State.modSu_tick (s : State) (f : Startup → Startup) : (s.modSu f).tick = s.tick := rfl
@[simp] theorem State.modSu_tickHi (s : State) (f : Startup → Startup) : (s.modSu f).tickHi = s.tickHi := rfl
@[simp] theorem State.modSu_links (s : State) (f : Startup → Startup) : (s.modSu f).links = s.links := rfl
@[simp] theorem State.modSu_cfg (s : State) (f : Startup → Startup) : (s.modSu f).cfg = s.cfg := rfl
@[simp] theorem State.modSu_pnt (s : State) (f : Startup → Startup) : (s.modSu f).pnt = s.pnt := rfl
@[simp] theorem State.modSu_ports (s : State) (f : Startup → Startup) : (s.modSu f).ports = s.ports := rfl
@[simp] theorem State.modSu_nodes (s : State) (f : Startup → Startup) : (s.modSu f).nodes = s.nodes := rfl
@[simp] theorem State.modSu_trk (s : State) (f : Startup → Startup) : (s.modSu f).trk = s.trk := rfl
@[simp] theorem State.modSu_outbox (s : State) (f : Startup → Startup) : (s.modSu f).outbox = s.outbox := rfl
@[simp] theorem State.modSu_logic (s : State) (f : Startup → Startup) : (s.modSu f).logic = s.logic := rfl
@[simp] theorem State.modSu_cores (s : State) (f : Startup → Startup) : (s.modSu f).cores = s.cores := rfl
@[simp] theorem State.modSu_loopDies (s : State) (f : Startup → Startup) : (s.modSu f).loopDies = s.loopDies := rfl
@[simp] theorem State.modSu_loops (s : State) (f : Startup → Startup) : (s.modSu f).loops = s.loops := rfl
@[simp] theorem State.modSu_fio (s : State) (f : Startup → Startup) : (s.modSu f).fio = s.fio := rfl
@[simp] theorem State.modSu_mtr (s : State) (f : Startup → Startup) : (s.modSu f).mtr = s.mtr := rfl
@[simp] theorem State.modSu_mem (s : State) (f : Startup → Startup) : (s.modSu f).mem = s.mem := rfl
@[simp] theorem State.modSu_tags (s : State) (f : Startup → Startup) : (s.modSu f).tags = s.tags := rfl
@[simp] theorem State.modSu_owners (s : State) (f : Startup → Startup) : (s.modSu f).owners = s.owners := rfl
@[simp] theorem State.modSu_atus (s : State) (f : Startup → Startup) : (s.modSu f).atus = s.atus := rfl
@[simp] theorem State.modSu_dmas (s : State) (f : Startup → Startup) : (s.modSu f).dmas = s.dmas := rfl
@[simp] theorem State.modSu_hst (s : State) (f : Startup → Startup) : (s.modSu f).hst = s.hst := rfl
@[simp] theorem State.modSu_evr (s : State) (f : Startup → Startup) : (s.modSu f).evr = s.evr := rfl
@[simp] theorem State.modSu_host (s : State) (f : Startup → Startup) : (s.modSu f).host = s.host := rfl
@[simp] theorem State.modSu_sec (s : State) (f : Startup → Startup) : (s.modSu f).sec = s.sec := rfl
@[simp] theorem State.modSu_time (s : State) (f : Startup → Startup) : (s.modSu f).time = s.time := rfl
@[simp] theorem State.modSu_su (s : State) (f : Startup → Startup) : (s.modSu f).su = f s.su := rfl
@[simp] theorem State.modSu_freeN (s : State) (f : Startup → Startup) : (s.modSu f).freeN = s.freeN := rfl

/-! ### modPnt -/

@[simp] theorem State.modPnt_pending (s : State) (f : Points → Points) : (s.modPnt f).pending = s.pending := rfl
@[simp] theorem State.modPnt_member (s : State) (f : Points → Points) : (s.modPnt f).member = s.member := rfl
@[simp] theorem State.modPnt_tick (s : State) (f : Points → Points) : (s.modPnt f).tick = s.tick := rfl
@[simp] theorem State.modPnt_tickHi (s : State) (f : Points → Points) : (s.modPnt f).tickHi = s.tickHi := rfl
@[simp] theorem State.modPnt_links (s : State) (f : Points → Points) : (s.modPnt f).links = s.links := rfl
@[simp] theorem State.modPnt_cfg (s : State) (f : Points → Points) : (s.modPnt f).cfg = s.cfg := rfl
@[simp] theorem State.modPnt_pnt (s : State) (f : Points → Points) : (s.modPnt f).pnt = f s.pnt := rfl
@[simp] theorem State.modPnt_ports (s : State) (f : Points → Points) : (s.modPnt f).ports = s.ports := rfl
@[simp] theorem State.modPnt_nodes (s : State) (f : Points → Points) : (s.modPnt f).nodes = s.nodes := rfl
@[simp] theorem State.modPnt_trk (s : State) (f : Points → Points) : (s.modPnt f).trk = s.trk := rfl
@[simp] theorem State.modPnt_outbox (s : State) (f : Points → Points) : (s.modPnt f).outbox = s.outbox := rfl
@[simp] theorem State.modPnt_logic (s : State) (f : Points → Points) : (s.modPnt f).logic = s.logic := rfl
@[simp] theorem State.modPnt_cores (s : State) (f : Points → Points) : (s.modPnt f).cores = s.cores := rfl
@[simp] theorem State.modPnt_loopDies (s : State) (f : Points → Points) : (s.modPnt f).loopDies = s.loopDies := rfl
@[simp] theorem State.modPnt_loops (s : State) (f : Points → Points) : (s.modPnt f).loops = s.loops := rfl
@[simp] theorem State.modPnt_fio (s : State) (f : Points → Points) : (s.modPnt f).fio = s.fio := rfl
@[simp] theorem State.modPnt_mtr (s : State) (f : Points → Points) : (s.modPnt f).mtr = s.mtr := rfl
@[simp] theorem State.modPnt_mem (s : State) (f : Points → Points) : (s.modPnt f).mem = s.mem := rfl
@[simp] theorem State.modPnt_tags (s : State) (f : Points → Points) : (s.modPnt f).tags = s.tags := rfl
@[simp] theorem State.modPnt_owners (s : State) (f : Points → Points) : (s.modPnt f).owners = s.owners := rfl
@[simp] theorem State.modPnt_atus (s : State) (f : Points → Points) : (s.modPnt f).atus = s.atus := rfl
@[simp] theorem State.modPnt_dmas (s : State) (f : Points → Points) : (s.modPnt f).dmas = s.dmas := rfl
@[simp] theorem State.modPnt_hst (s : State) (f : Points → Points) : (s.modPnt f).hst = s.hst := rfl
@[simp] theorem State.modPnt_evr (s : State) (f : Points → Points) : (s.modPnt f).evr = s.evr := rfl
@[simp] theorem State.modPnt_host (s : State) (f : Points → Points) : (s.modPnt f).host = s.host := rfl
@[simp] theorem State.modPnt_sec (s : State) (f : Points → Points) : (s.modPnt f).sec = s.sec := rfl
@[simp] theorem State.modPnt_time (s : State) (f : Points → Points) : (s.modPnt f).time = s.time := rfl
@[simp] theorem State.modPnt_su (s : State) (f : Points → Points) : (s.modPnt f).su = s.su := rfl
@[simp] theorem State.modPnt_freeN (s : State) (f : Points → Points) : (s.modPnt f).freeN = s.freeN := rfl

/-! ### modTrk -/

@[simp] theorem State.modTrk_pending (s : State) (f : Trunk → Trunk) : (s.modTrk f).pending = s.pending := rfl
@[simp] theorem State.modTrk_member (s : State) (f : Trunk → Trunk) : (s.modTrk f).member = s.member := rfl
@[simp] theorem State.modTrk_tick (s : State) (f : Trunk → Trunk) : (s.modTrk f).tick = s.tick := rfl
@[simp] theorem State.modTrk_tickHi (s : State) (f : Trunk → Trunk) : (s.modTrk f).tickHi = s.tickHi := rfl
@[simp] theorem State.modTrk_links (s : State) (f : Trunk → Trunk) : (s.modTrk f).links = s.links := rfl
@[simp] theorem State.modTrk_cfg (s : State) (f : Trunk → Trunk) : (s.modTrk f).cfg = s.cfg := rfl
@[simp] theorem State.modTrk_pnt (s : State) (f : Trunk → Trunk) : (s.modTrk f).pnt = s.pnt := rfl
@[simp] theorem State.modTrk_ports (s : State) (f : Trunk → Trunk) : (s.modTrk f).ports = s.ports := rfl
@[simp] theorem State.modTrk_nodes (s : State) (f : Trunk → Trunk) : (s.modTrk f).nodes = s.nodes := rfl
@[simp] theorem State.modTrk_trk (s : State) (f : Trunk → Trunk) : (s.modTrk f).trk = f s.trk := rfl
@[simp] theorem State.modTrk_outbox (s : State) (f : Trunk → Trunk) : (s.modTrk f).outbox = s.outbox := rfl
@[simp] theorem State.modTrk_logic (s : State) (f : Trunk → Trunk) : (s.modTrk f).logic = s.logic := rfl
@[simp] theorem State.modTrk_cores (s : State) (f : Trunk → Trunk) : (s.modTrk f).cores = s.cores := rfl
@[simp] theorem State.modTrk_loopDies (s : State) (f : Trunk → Trunk) : (s.modTrk f).loopDies = s.loopDies := rfl
@[simp] theorem State.modTrk_loops (s : State) (f : Trunk → Trunk) : (s.modTrk f).loops = s.loops := rfl
@[simp] theorem State.modTrk_fio (s : State) (f : Trunk → Trunk) : (s.modTrk f).fio = s.fio := rfl
@[simp] theorem State.modTrk_mtr (s : State) (f : Trunk → Trunk) : (s.modTrk f).mtr = s.mtr := rfl
@[simp] theorem State.modTrk_mem (s : State) (f : Trunk → Trunk) : (s.modTrk f).mem = s.mem := rfl
@[simp] theorem State.modTrk_tags (s : State) (f : Trunk → Trunk) : (s.modTrk f).tags = s.tags := rfl
@[simp] theorem State.modTrk_owners (s : State) (f : Trunk → Trunk) : (s.modTrk f).owners = s.owners := rfl
@[simp] theorem State.modTrk_atus (s : State) (f : Trunk → Trunk) : (s.modTrk f).atus = s.atus := rfl
@[simp] theorem State.modTrk_dmas (s : State) (f : Trunk → Trunk) : (s.modTrk f).dmas = s.dmas := rfl
@[simp] theorem State.modTrk_hst (s : State) (f : Trunk → Trunk) : (s.modTrk f).hst = s.hst := rfl
@[simp] theorem State.modTrk_evr (s : State) (f : Trunk → Trunk) : (s.modTrk f).evr = s.evr := rfl
@[simp] theorem State.modTrk_host (s : State) (f : Trunk → Trunk) : (s.modTrk f).host = s.host := rfl
@[simp] theorem State.modTrk_sec (s : State) (f : Trunk → Trunk) : (s.modTrk f).sec = s.sec := rfl
@[simp] theorem State.modTrk_time (s : State) (f : Trunk → Trunk) : (s.modTrk f).time = s.time := rfl
@[simp] theorem State.modTrk_su (s : State) (f : Trunk → Trunk) : (s.modTrk f).su = s.su := rfl
@[simp] theorem State.modTrk_freeN (s : State) (f : Trunk → Trunk) : (s.modTrk f).freeN = s.freeN := rfl

/-! ### setTport -/

@[simp] theorem State.setTport_pending (s : State) (t : TrunkPort) (x : TrkPort) : (s.setTport t x).pending = s.pending := rfl
@[simp] theorem State.setTport_member (s : State) (t : TrunkPort) (x : TrkPort) : (s.setTport t x).member = s.member := rfl
@[simp] theorem State.setTport_tick (s : State) (t : TrunkPort) (x : TrkPort) : (s.setTport t x).tick = s.tick := rfl
@[simp] theorem State.setTport_tickHi (s : State) (t : TrunkPort) (x : TrkPort) : (s.setTport t x).tickHi = s.tickHi := rfl
@[simp] theorem State.setTport_links (s : State) (t : TrunkPort) (x : TrkPort) : (s.setTport t x).links = s.links := rfl
@[simp] theorem State.setTport_cfg (s : State) (t : TrunkPort) (x : TrkPort) : (s.setTport t x).cfg = s.cfg := rfl
@[simp] theorem State.setTport_pnt (s : State) (t : TrunkPort) (x : TrkPort) : (s.setTport t x).pnt = s.pnt := rfl
@[simp] theorem State.setTport_ports (s : State) (t : TrunkPort) (x : TrkPort) : (s.setTport t x).ports = s.ports := rfl
@[simp] theorem State.setTport_nodes (s : State) (t : TrunkPort) (x : TrkPort) : (s.setTport t x).nodes = s.nodes := rfl
@[simp] theorem State.setTport_trk (s : State) (t : TrunkPort) (x : TrkPort) : (s.setTport t x).trk = if t then { s.trk with b := x } else { s.trk with a := x } := rfl
@[simp] theorem State.setTport_outbox (s : State) (t : TrunkPort) (x : TrkPort) : (s.setTport t x).outbox = s.outbox := rfl
@[simp] theorem State.setTport_logic (s : State) (t : TrunkPort) (x : TrkPort) : (s.setTport t x).logic = s.logic := rfl
@[simp] theorem State.setTport_cores (s : State) (t : TrunkPort) (x : TrkPort) : (s.setTport t x).cores = s.cores := rfl
@[simp] theorem State.setTport_loopDies (s : State) (t : TrunkPort) (x : TrkPort) : (s.setTport t x).loopDies = s.loopDies := rfl
@[simp] theorem State.setTport_loops (s : State) (t : TrunkPort) (x : TrkPort) : (s.setTport t x).loops = s.loops := rfl
@[simp] theorem State.setTport_fio (s : State) (t : TrunkPort) (x : TrkPort) : (s.setTport t x).fio = s.fio := rfl
@[simp] theorem State.setTport_mtr (s : State) (t : TrunkPort) (x : TrkPort) : (s.setTport t x).mtr = s.mtr := rfl
@[simp] theorem State.setTport_mem (s : State) (t : TrunkPort) (x : TrkPort) : (s.setTport t x).mem = s.mem := rfl
@[simp] theorem State.setTport_tags (s : State) (t : TrunkPort) (x : TrkPort) : (s.setTport t x).tags = s.tags := rfl
@[simp] theorem State.setTport_owners (s : State) (t : TrunkPort) (x : TrkPort) : (s.setTport t x).owners = s.owners := rfl
@[simp] theorem State.setTport_atus (s : State) (t : TrunkPort) (x : TrkPort) : (s.setTport t x).atus = s.atus := rfl
@[simp] theorem State.setTport_dmas (s : State) (t : TrunkPort) (x : TrkPort) : (s.setTport t x).dmas = s.dmas := rfl
@[simp] theorem State.setTport_hst (s : State) (t : TrunkPort) (x : TrkPort) : (s.setTport t x).hst = s.hst := rfl
@[simp] theorem State.setTport_evr (s : State) (t : TrunkPort) (x : TrkPort) : (s.setTport t x).evr = s.evr := rfl
@[simp] theorem State.setTport_host (s : State) (t : TrunkPort) (x : TrkPort) : (s.setTport t x).host = s.host := rfl
@[simp] theorem State.setTport_sec (s : State) (t : TrunkPort) (x : TrkPort) : (s.setTport t x).sec = s.sec := rfl
@[simp] theorem State.setTport_time (s : State) (t : TrunkPort) (x : TrkPort) : (s.setTport t x).time = s.time := rfl
@[simp] theorem State.setTport_su (s : State) (t : TrunkPort) (x : TrkPort) : (s.setTport t x).su = s.su := rfl
@[simp] theorem State.setTport_freeN (s : State) (t : TrunkPort) (x : TrkPort) : (s.setTport t x).freeN = s.freeN := rfl

/-! ### modTport -/

@[simp] theorem State.modTport_pending (s : State) (t : TrunkPort) (f : TrkPort → TrkPort) : (s.modTport t f).pending = s.pending := rfl
@[simp] theorem State.modTport_member (s : State) (t : TrunkPort) (f : TrkPort → TrkPort) : (s.modTport t f).member = s.member := rfl
@[simp] theorem State.modTport_tick (s : State) (t : TrunkPort) (f : TrkPort → TrkPort) : (s.modTport t f).tick = s.tick := rfl
@[simp] theorem State.modTport_tickHi (s : State) (t : TrunkPort) (f : TrkPort → TrkPort) : (s.modTport t f).tickHi = s.tickHi := rfl
@[simp] theorem State.modTport_links (s : State) (t : TrunkPort) (f : TrkPort → TrkPort) : (s.modTport t f).links = s.links := rfl
@[simp] theorem State.modTport_cfg (s : State) (t : TrunkPort) (f : TrkPort → TrkPort) : (s.modTport t f).cfg = s.cfg := rfl
@[simp] theorem State.modTport_pnt (s : State) (t : TrunkPort) (f : TrkPort → TrkPort) : (s.modTport t f).pnt = s.pnt := rfl
@[simp] theorem State.modTport_ports (s : State) (t : TrunkPort) (f : TrkPort → TrkPort) : (s.modTport t f).ports = s.ports := rfl
@[simp] theorem State.modTport_nodes (s : State) (t : TrunkPort) (f : TrkPort → TrkPort) : (s.modTport t f).nodes = s.nodes := rfl
@[simp] theorem State.modTport_trk (s : State) (t : TrunkPort) (f : TrkPort → TrkPort) : (s.modTport t f).trk = if t then { s.trk with b := f (s.tport t) } else { s.trk with a := f (s.tport t) } := rfl
@[simp] theorem State.modTport_outbox (s : State) (t : TrunkPort) (f : TrkPort → TrkPort) : (s.modTport t f).outbox = s.outbox := rfl
@[simp] theorem State.modTport_logic (s : State) (t : TrunkPort) (f : TrkPort → TrkPort) : (s.modTport t f).logic = s.logic := rfl
@[simp] theorem State.modTport_cores (s : State) (t : TrunkPort) (f : TrkPort → TrkPort) : (s.modTport t f).cores = s.cores := rfl
@[simp] theorem State.modTport_loopDies (s : State) (t : TrunkPort) (f : TrkPort → TrkPort) : (s.modTport t f).loopDies = s.loopDies := rfl
@[simp] theorem State.modTport_loops (s : State) (t : TrunkPort) (f : TrkPort → TrkPort) : (s.modTport t f).loops = s.loops := rfl
@[simp] theorem State.modTport_fio (s : State) (t : TrunkPort) (f : TrkPort → TrkPort) : (s.modTport t f).fio = s.fio := rfl
@[simp] theorem State.modTport_mtr (s : State) (t : TrunkPort) (f : TrkPort → TrkPort) : (s.modTport t f).mtr = s.mtr := rfl
@[simp] theorem State.modTport_mem (s : State) (t : TrunkPort) (f : TrkPort → TrkPort) : (s.modTport t f).mem = s.mem := rfl
@[simp] theorem State.modTport_tags (s : State) (t : TrunkPort) (f : TrkPort → TrkPort) : (s.modTport t f).tags = s.tags := rfl
@[simp] theorem State.modTport_owners (s : State) (t : TrunkPort) (f : TrkPort → TrkPort) : (s.modTport t f).owners = s.owners := rfl
@[simp] theorem State.modTport_atus (s : State) (t : TrunkPort) (f : TrkPort → TrkPort) : (s.modTport t f).atus = s.atus := rfl
@[simp] theorem State.modTport_dmas (s : State) (t : TrunkPort) (f : TrkPort → TrkPort) : (s.modTport t f).dmas = s.dmas := rfl
@[simp] theorem State.modTport_hst (s : State) (t : TrunkPort) (f : TrkPort → TrkPort) : (s.modTport t f).hst = s.hst := rfl
@[simp] theorem State.modTport_evr (s : State) (t : TrunkPort) (f : TrkPort → TrkPort) : (s.modTport t f).evr = s.evr := rfl
@[simp] theorem State.modTport_host (s : State) (t : TrunkPort) (f : TrkPort → TrkPort) : (s.modTport t f).host = s.host := rfl
@[simp] theorem State.modTport_sec (s : State) (t : TrunkPort) (f : TrkPort → TrkPort) : (s.modTport t f).sec = s.sec := rfl
@[simp] theorem State.modTport_time (s : State) (t : TrunkPort) (f : TrkPort → TrkPort) : (s.modTport t f).time = s.time := rfl
@[simp] theorem State.modTport_su (s : State) (t : TrunkPort) (f : TrkPort → TrkPort) : (s.modTport t f).su = s.su := rfl
@[simp] theorem State.modTport_freeN (s : State) (t : TrunkPort) (f : TrkPort → TrkPort) : (s.modTport t f).freeN = s.freeN := rfl

/-! ### setSender -/

@[simp] theorem State.setSender_pending (s : State) (n : Nat) (x : SlotSt) : (s.setSender n x).pending = s.pending := rfl
@[simp] theorem State.setSender_member (s : State) (n : Nat) (x : SlotSt) : (s.setSender n x).member = s.member := rfl
@[simp] theorem State.setSender_tick (s : State) (n : Nat) (x : SlotSt) : (s.setSender n x).tick = s.tick := rfl
@[simp] theorem State.setSender_tickHi (s : State) (n : Nat) (x : SlotSt) : (s.setSender n x).tickHi = s.tickHi := rfl
@[simp] theorem State.setSender_links (s : State) (n : Nat) (x : SlotSt) : (s.setSender n x).links = s.links := rfl
@[simp] theorem State.setSender_cfg (s : State) (n : Nat) (x : SlotSt) : (s.setSender n x).cfg = s.cfg := rfl
@[simp] theorem State.setSender_pnt (s : State) (n : Nat) (x : SlotSt) : (s.setSender n x).pnt = s.pnt := rfl
@[simp] theorem State.setSender_ports (s : State) (n : Nat) (x : SlotSt) : (s.setSender n x).ports = s.ports := rfl
@[simp] theorem State.setSender_nodes (s : State) (n : Nat) (x : SlotSt) : (s.setSender n x).nodes = s.nodes := rfl
@[simp] theorem State.setSender_trk (s : State) (n : Nat) (x : SlotSt) : (s.setSender n x).trk = s.trk := rfl
@[simp] theorem State.setSender_outbox (s : State) (n : Nat) (x : SlotSt) : (s.setSender n x).outbox = s.outbox := rfl
@[simp] theorem State.setSender_logic (s : State) (n : Nat) (x : SlotSt) : (s.setSender n x).logic = s.logic := rfl
@[simp] theorem State.setSender_cores (s : State) (n : Nat) (x : SlotSt) : (s.setSender n x).cores = s.cores := rfl
@[simp] theorem State.setSender_loopDies (s : State) (n : Nat) (x : SlotSt) : (s.setSender n x).loopDies = s.loopDies := rfl
@[simp] theorem State.setSender_loops (s : State) (n : Nat) (x : SlotSt) : (s.setSender n x).loops = s.loops := rfl
@[simp] theorem State.setSender_fio (s : State) (n : Nat) (x : SlotSt) : (s.setSender n x).fio = s.fio := rfl
@[simp] theorem State.setSender_mtr (s : State) (n : Nat) (x : SlotSt) : (s.setSender n x).mtr = s.mtr := rfl
@[simp] theorem State.setSender_mem (s : State) (n : Nat) (x : SlotSt) : (s.setSender n x).mem = s.mem := rfl
@[simp] theorem State.setSender_tags (s : State) (n : Nat) (x : SlotSt) : (s.setSender n x).tags = s.tags := rfl
@[simp] theorem State.setSender_owners (s : State) (n : Nat) (x : SlotSt) : (s.setSender n x).owners = s.owners := rfl
@[simp] theorem State.setSender_atus (s : State) (n : Nat) (x : SlotSt) : (s.setSender n x).atus = s.atus := rfl
@[simp] theorem State.setSender_dmas (s : State) (n : Nat) (x : SlotSt) : (s.setSender n x).dmas = s.dmas := rfl
@[simp] theorem State.setSender_hst (s : State) (n : Nat) (x : SlotSt) : (s.setSender n x).hst = s.hst := rfl
@[simp] theorem State.setSender_evr (s : State) (n : Nat) (x : SlotSt) : (s.setSender n x).evr = s.evr := rfl
@[simp] theorem State.setSender_host (s : State) (n : Nat) (x : SlotSt) : (s.setSender n x).host = if n < 32 then { s.host with slots := sput s.host.slots n x } else { s.host with service := x } := rfl
@[simp] theorem State.setSender_sec (s : State) (n : Nat) (x : SlotSt) : (s.setSender n x).sec = s.sec := rfl
@[simp] theorem State.setSender_time (s : State) (n : Nat) (x : SlotSt) : (s.setSender n x).time = s.time := rfl
@[simp] theorem State.setSender_su (s : State) (n : Nat) (x : SlotSt) : (s.setSender n x).su = s.su := rfl
@[simp] theorem State.setSender_freeN (s : State) (n : Nat) (x : SlotSt) : (s.setSender n x).freeN = s.freeN := rfl

/-! ### modSender -/

@[simp] theorem State.modSender_pending (s : State) (n : Nat) (f : SlotSt → SlotSt) : (s.modSender n f).pending = s.pending := rfl
@[simp] theorem State.modSender_member (s : State) (n : Nat) (f : SlotSt → SlotSt) : (s.modSender n f).member = s.member := rfl
@[simp] theorem State.modSender_tick (s : State) (n : Nat) (f : SlotSt → SlotSt) : (s.modSender n f).tick = s.tick := rfl
@[simp] theorem State.modSender_tickHi (s : State) (n : Nat) (f : SlotSt → SlotSt) : (s.modSender n f).tickHi = s.tickHi := rfl
@[simp] theorem State.modSender_links (s : State) (n : Nat) (f : SlotSt → SlotSt) : (s.modSender n f).links = s.links := rfl
@[simp] theorem State.modSender_cfg (s : State) (n : Nat) (f : SlotSt → SlotSt) : (s.modSender n f).cfg = s.cfg := rfl
@[simp] theorem State.modSender_pnt (s : State) (n : Nat) (f : SlotSt → SlotSt) : (s.modSender n f).pnt = s.pnt := rfl
@[simp] theorem State.modSender_ports (s : State) (n : Nat) (f : SlotSt → SlotSt) : (s.modSender n f).ports = s.ports := rfl
@[simp] theorem State.modSender_nodes (s : State) (n : Nat) (f : SlotSt → SlotSt) : (s.modSender n f).nodes = s.nodes := rfl
@[simp] theorem State.modSender_trk (s : State) (n : Nat) (f : SlotSt → SlotSt) : (s.modSender n f).trk = s.trk := rfl
@[simp] theorem State.modSender_outbox (s : State) (n : Nat) (f : SlotSt → SlotSt) : (s.modSender n f).outbox = s.outbox := rfl
@[simp] theorem State.modSender_logic (s : State) (n : Nat) (f : SlotSt → SlotSt) : (s.modSender n f).logic = s.logic := rfl
@[simp] theorem State.modSender_cores (s : State) (n : Nat) (f : SlotSt → SlotSt) : (s.modSender n f).cores = s.cores := rfl
@[simp] theorem State.modSender_loopDies (s : State) (n : Nat) (f : SlotSt → SlotSt) : (s.modSender n f).loopDies = s.loopDies := rfl
@[simp] theorem State.modSender_loops (s : State) (n : Nat) (f : SlotSt → SlotSt) : (s.modSender n f).loops = s.loops := rfl
@[simp] theorem State.modSender_fio (s : State) (n : Nat) (f : SlotSt → SlotSt) : (s.modSender n f).fio = s.fio := rfl
@[simp] theorem State.modSender_mtr (s : State) (n : Nat) (f : SlotSt → SlotSt) : (s.modSender n f).mtr = s.mtr := rfl
@[simp] theorem State.modSender_mem (s : State) (n : Nat) (f : SlotSt → SlotSt) : (s.modSender n f).mem = s.mem := rfl
@[simp] theorem State.modSender_tags (s : State) (n : Nat) (f : SlotSt → SlotSt) : (s.modSender n f).tags = s.tags := rfl
@[simp] theorem State.modSender_owners (s : State) (n : Nat) (f : SlotSt → SlotSt) : (s.modSender n f).owners = s.owners := rfl
@[simp] theorem State.modSender_atus (s : State) (n : Nat) (f : SlotSt → SlotSt) : (s.modSender n f).atus = s.atus := rfl
@[simp] theorem State.modSender_dmas (s : State) (n : Nat) (f : SlotSt → SlotSt) : (s.modSender n f).dmas = s.dmas := rfl
@[simp] theorem State.modSender_hst (s : State) (n : Nat) (f : SlotSt → SlotSt) : (s.modSender n f).hst = s.hst := rfl
@[simp] theorem State.modSender_evr (s : State) (n : Nat) (f : SlotSt → SlotSt) : (s.modSender n f).evr = s.evr := rfl
@[simp] theorem State.modSender_host (s : State) (n : Nat) (f : SlotSt → SlotSt) : (s.modSender n f).host = if n < 32 then { s.host with slots := sput s.host.slots n (f (s.sender n)) } else { s.host with service := f (s.sender n) } := rfl
@[simp] theorem State.modSender_sec (s : State) (n : Nat) (f : SlotSt → SlotSt) : (s.modSender n f).sec = s.sec := rfl
@[simp] theorem State.modSender_time (s : State) (n : Nat) (f : SlotSt → SlotSt) : (s.modSender n f).time = s.time := rfl
@[simp] theorem State.modSender_su (s : State) (n : Nat) (f : SlotSt → SlotSt) : (s.modSender n f).su = s.su := rfl
@[simp] theorem State.modSender_freeN (s : State) (n : Nat) (f : SlotSt → SlotSt) : (s.modSender n f).freeN = s.freeN := rfl

/-! ### draw -/

@[simp] theorem State.draw_pending (s : State) : s.draw.2.pending = s.pending := rfl
@[simp] theorem State.draw_member (s : State) : s.draw.2.member = s.member := rfl
@[simp] theorem State.draw_tick (s : State) : s.draw.2.tick = s.tick := rfl
@[simp] theorem State.draw_tickHi (s : State) : s.draw.2.tickHi = s.tickHi := rfl
@[simp] theorem State.draw_links (s : State) : s.draw.2.links = s.links := rfl
@[simp] theorem State.draw_cfg (s : State) : s.draw.2.cfg = s.cfg := rfl
@[simp] theorem State.draw_pnt (s : State) : s.draw.2.pnt = s.pnt := rfl
@[simp] theorem State.draw_ports (s : State) : s.draw.2.ports = s.ports := rfl
@[simp] theorem State.draw_nodes (s : State) : s.draw.2.nodes = s.nodes := rfl
@[simp] theorem State.draw_trk (s : State) : s.draw.2.trk = s.trk := rfl
@[simp] theorem State.draw_outbox (s : State) : s.draw.2.outbox = s.outbox := rfl
@[simp] theorem State.draw_logic (s : State) : s.draw.2.logic = s.logic := rfl
@[simp] theorem State.draw_cores (s : State) : s.draw.2.cores = s.cores := rfl
@[simp] theorem State.draw_loopDies (s : State) : s.draw.2.loopDies = s.loopDies := rfl
@[simp] theorem State.draw_loops (s : State) : s.draw.2.loops = s.loops := rfl
@[simp] theorem State.draw_fio (s : State) : s.draw.2.fio = s.fio := rfl
@[simp] theorem State.draw_mtr (s : State) : s.draw.2.mtr = s.mtr := rfl
@[simp] theorem State.draw_mem (s : State) : s.draw.2.mem = s.mem := rfl
@[simp] theorem State.draw_tags (s : State) : s.draw.2.tags = s.tags := rfl
@[simp] theorem State.draw_owners (s : State) : s.draw.2.owners = s.owners := rfl
@[simp] theorem State.draw_atus (s : State) : s.draw.2.atus = s.atus := rfl
@[simp] theorem State.draw_dmas (s : State) : s.draw.2.dmas = s.dmas := rfl
@[simp] theorem State.draw_hst (s : State) : s.draw.2.hst = s.hst := rfl
@[simp] theorem State.draw_evr (s : State) : s.draw.2.evr = s.evr := rfl
@[simp] theorem State.draw_host (s : State) : s.draw.2.host = s.host := rfl
@[simp] theorem State.draw_sec (s : State) : s.draw.2.sec = s.sec := rfl
@[simp] theorem State.draw_time (s : State) : s.draw.2.time = s.time := rfl
@[simp] theorem State.draw_su (s : State) : s.draw.2.su = s.su := rfl
@[simp] theorem State.draw_freeN (s : State) : s.draw.2.freeN = s.freeN + 1 := rfl
@[simp] theorem State.draw_fst (s : State) : s.draw.1 = Config.freeNat s.freeN := rfl

/-! ### Reading what was written -/

@[simp] theorem State.port_setPort (s : State) (p : Nat) (x : BrPort) : (s.setPort p x).port p = x := by
  simp [State.port, State.setPort]
@[simp] theorem State.die_setDie (s : State) (d : Nat) (x : LogicDie) : (s.setDie d x).die d = x := by
  simp [State.die, State.setDie]
@[simp] theorem State.core_setCore (s : State) (d c : Nat) (x : CoreSt) : (s.setCore d c x).core d c = x := by
  simp [State.core, State.setCore]
@[simp] theorem State.loop_setLoop (s : State) (d n : Nat) (x : LoopSlot) : (s.setLoop d n x).loop d n = x := by
  simp [State.loop, State.setLoop]
@[simp] theorem State.lpe_setLpe (s : State) (d : Nat) (x : LoopDie) : (s.setLpe d x).lpe d = x := by
  simp [State.lpe, State.setLpe]
@[simp] theorem State.chan_setChan (s : State) (c : Nat) (x : ChanSt) : (s.setChan c x).chan c = x := by
  simp [State.chan, State.setChan]
@[simp] theorem State.mot_setMot (s : State) (m : Nat) (x : Motion) : (s.setMot m x).mot m = x := by
  simp [State.mot, State.setMot]
@[simp] theorem State.atu_setAtu (s : State) (d : Nat) (x : Atu) : (s.setAtu d x).atu d = x := by
  simp [State.atu, State.setAtu]
@[simp] theorem State.dma_setDma (s : State) (d : Nat) (x : DmaDie) : (s.setDma d x).dma d = x := by
  simp [State.dma, State.setDma]
@[simp] theorem State.node?_setNode (s : State) (u : Uid) (x : Node) : (s.setNode u x).node? u = some x := by
  simp [State.node?, State.setNode]
@[simp] theorem State.tport_setTport (s : State) (t : TrunkPort) (x : TrkPort) : (s.setTport t x).tport t = x := by
  cases t <;> rfl
@[simp] theorem State.sender_setSender (s : State) (n : Nat) (x : SlotSt) : (s.setSender n x).sender n = x := by
  unfold State.sender State.setSender; split <;> simp_all
@[simp] theorem State.sender_modSender (s : State) (n : Nat) (f : SlotSt → SlotSt) : (s.modSender n f).sender n = f (s.sender n) := by
  simp [State.modSender]
@[simp] theorem State.port_modPort (s : State) (p : Nat) (f : BrPort → BrPort) : (s.modPort p f).port p = f (s.port p) := by
  simp [State.modPort]
@[simp] theorem State.die_modDie (s : State) (d : Nat) (f : LogicDie → LogicDie) : (s.modDie d f).die d = f (s.die d) := by
  simp [State.modDie]

/-! ### After a command -/

/-- Every command that is done answers a next state. -/
theorem done_next (s t : State) : done s t = .next (settle s t) := rfl

@[simp] theorem settle_pending (s t : State) : (settle s t).pending = t.pending := by
  unfold settle; dsimp only; (repeat' split) <;> rfl
@[simp] theorem settle_member (s t : State) : (settle s t).member = t.member := by
  unfold settle; dsimp only; (repeat' split) <;> rfl
@[simp] theorem settle_tick (s t : State) : (settle s t).tick = t.tick := by
  unfold settle; dsimp only; (repeat' split) <;> rfl
@[simp] theorem settle_tickHi (s t : State) : (settle s t).tickHi = t.tickHi := by
  unfold settle; dsimp only; (repeat' split) <;> rfl
@[simp] theorem settle_links (s t : State) : (settle s t).links = t.links := by
  unfold settle; dsimp only; (repeat' split) <;> rfl
@[simp] theorem settle_cfg (s t : State) : (settle s t).cfg = t.cfg := by
  unfold settle; dsimp only; (repeat' split) <;> rfl
@[simp] theorem settle_pnt (s t : State) : (settle s t).pnt = t.pnt := by
  unfold settle; dsimp only; (repeat' split) <;> rfl
@[simp] theorem settle_ports (s t : State) : (settle s t).ports = t.ports := by
  unfold settle; dsimp only; (repeat' split) <;> rfl
@[simp] theorem settle_nodes (s t : State) : (settle s t).nodes = t.nodes := by
  unfold settle; dsimp only; (repeat' split) <;> rfl
@[simp] theorem settle_trk (s t : State) : (settle s t).trk = t.trk := by
  unfold settle; dsimp only; (repeat' split) <;> rfl
@[simp] theorem settle_outbox (s t : State) : (settle s t).outbox = t.outbox := by
  unfold settle; dsimp only; (repeat' split) <;> rfl
@[simp] theorem settle_logic (s t : State) : (settle s t).logic = t.logic := by
  unfold settle; dsimp only; (repeat' split) <;> rfl
@[simp] theorem settle_cores (s t : State) : (settle s t).cores = t.cores := by
  unfold settle; dsimp only; (repeat' split) <;> rfl
@[simp] theorem settle_loopDies (s t : State) : (settle s t).loopDies = t.loopDies := by
  unfold settle; dsimp only; (repeat' split) <;> rfl
@[simp] theorem settle_loops (s t : State) : (settle s t).loops = t.loops := by
  unfold settle; dsimp only; (repeat' split) <;> rfl
@[simp] theorem settle_fio (s t : State) : (settle s t).fio = t.fio := by
  unfold settle; dsimp only; (repeat' split) <;> rfl
@[simp] theorem settle_mtr (s t : State) : (settle s t).mtr = t.mtr := by
  unfold settle; dsimp only; (repeat' split) <;> rfl
@[simp] theorem settle_mem (s t : State) : (settle s t).mem = t.mem := by
  unfold settle; dsimp only; (repeat' split) <;> rfl
@[simp] theorem settle_tags (s t : State) : (settle s t).tags = t.tags := by
  unfold settle; dsimp only; (repeat' split) <;> rfl
@[simp] theorem settle_owners (s t : State) : (settle s t).owners = t.owners := by
  unfold settle; dsimp only; (repeat' split) <;> rfl
@[simp] theorem settle_atus (s t : State) : (settle s t).atus = t.atus := by
  unfold settle; dsimp only; (repeat' split) <;> rfl
@[simp] theorem settle_dmas (s t : State) : (settle s t).dmas = t.dmas := by
  unfold settle; dsimp only; (repeat' split) <;> rfl
@[simp] theorem settle_hst (s t : State) : (settle s t).hst = t.hst := by
  unfold settle; dsimp only; (repeat' split) <;> rfl
@[simp] theorem settle_evr (s t : State) : (settle s t).evr = t.evr := by
  unfold settle; dsimp only; (repeat' split) <;> rfl
@[simp] theorem settle_sec (s t : State) : (settle s t).sec = t.sec := by
  unfold settle; dsimp only; (repeat' split) <;> rfl
@[simp] theorem settle_time (s t : State) : (settle s t).time = t.time := by
  unfold settle; dsimp only; (repeat' split) <;> rfl
@[simp] theorem settle_su (s t : State) : (settle s t).su = t.su := by
  unfold settle; dsimp only; (repeat' split) <;> rfl
@[simp] theorem settle_freeN (s t : State) : (settle s t).freeN = t.freeN := by
  unfold settle; dsimp only; (repeat' split) <;> rfl
@[simp] theorem settle_host_fw (s t : State) : (settle s t).host.fw = t.host.fw := by
  unfold settle; dsimp only; (repeat' split) <;> rfl
@[simp] theorem settle_host_serial (s t : State) : (settle s t).host.serial = t.host.serial := by
  unfold settle; dsimp only; (repeat' split) <;> rfl
@[simp] theorem settle_host_serialHi (s t : State) : (settle s t).host.serialHi = t.host.serialHi := by
  unfold settle; dsimp only; (repeat' split) <;> rfl
@[simp] theorem settle_host_mbxRdy (s t : State) : (settle s t).host.mbxRdy = t.host.mbxRdy := by
  unfold settle; dsimp only; (repeat' split) <;> rfl
@[simp] theorem settle_host_cfgOk (s t : State) : (settle s t).host.cfgOk = t.host.cfgOk := by
  unfold settle; dsimp only; (repeat' split) <;> rfl
@[simp] theorem settle_host_heartbeat (s t : State) : (settle s t).host.heartbeat = t.host.heartbeat := by
  unfold settle; dsimp only; (repeat' split) <;> rfl
@[simp] theorem settle_host_beatAt (s t : State) : (settle s t).host.beatAt = t.host.beatAt := by
  unfold settle; dsimp only; (repeat' split) <;> rfl
@[simp] theorem settle_host_cmpAt (s t : State) : (settle s t).host.cmpAt = t.host.cmpAt := by
  unfold settle; dsimp only; (repeat' split) <;> rfl
@[simp] theorem settle_host_badAcc (s t : State) : (settle s t).host.badAcc = t.host.badAcc := by
  unfold settle; dsimp only; (repeat' split) <;> rfl
@[simp] theorem settle_host_win (s t : State) : (settle s t).host.win = t.host.win := by
  unfold settle; dsimp only; (repeat' split) <;> rfl
@[simp] theorem settle_host_slots (s t : State) : (settle s t).host.slots = t.host.slots := by
  unfold settle; dsimp only; (repeat' split) <;> rfl
@[simp] theorem settle_host_service (s t : State) : (settle s t).host.service = t.host.service := by
  unfold settle; dsimp only; (repeat' split) <;> rfl
@[simp] theorem settle_host_intWmk (s t : State) : (settle s t).host.intWmk = t.host.intWmk := by
  unfold settle; dsimp only; (repeat' split) <;> rfl
@[simp] theorem settle_host_intMbx (s t : State) : (settle s t).host.intMbx = t.host.intMbx := by
  unfold settle; dsimp only; (repeat' split) <;> rfl
@[simp] theorem settle_host_intMask (s t : State) : (settle s t).host.intMask = t.host.intMask := by
  unfold settle; dsimp only; (repeat' split) <;> rfl
@[simp] theorem settle_host_wmks (s t : State) : (settle s t).host.wmks = t.host.wmks := by
  unfold settle; dsimp only; (repeat' split) <;> rfl
@[simp] theorem settle_host_wmkSec (s t : State) : (settle s t).host.wmkSec = t.host.wmkSec := by
  unfold settle; dsimp only; (repeat' split) <;> rfl
@[simp] theorem settle_host_wmkMin (s t : State) : (settle s t).host.wmkMin = t.host.wmkMin := by
  unfold settle; dsimp only; (repeat' split) <;> rfl
@[simp] theorem settle_host_wmkAcc (s t : State) : (settle s t).host.wmkAcc = t.host.wmkAcc := by
  unfold settle; dsimp only; (repeat' split) <;> rfl
@[simp] theorem settle_host_wmkRate (s t : State) : (settle s t).host.wmkRate = t.host.wmkRate := by
  unfold settle; dsimp only; (repeat' split) <;> rfl
@[simp] theorem settle_host_wmkHist (s t : State) : (settle s t).host.wmkHist = t.host.wmkHist := by
  unfold settle; dsimp only; (repeat' split) <;> rfl
@[simp] theorem settle_host_snap (s t : State) : (settle s t).host.snap = t.host.snap := by
  unfold settle; dsimp only; (repeat' split) <;> rfl
@[simp] theorem settle_host_d3 (s t : State) : (settle s t).host.d3 = t.host.d3 := by
  unfold settle; dsimp only; (repeat' split) <;> rfl
@[simp] theorem settle_host_busData (s t : State) : (settle s t).host.busData = t.host.busData := by
  unfold settle; dsimp only; (repeat' split) <;> rfl
@[simp] theorem settle_host_crown (s t : State) : (settle s t).host.crown = t.host.crown := by
  unfold settle; dsimp only; (repeat' split) <;> rfl
@[simp] theorem settle_host_msix (s t : State) : (settle s t).host.msix = t.host.msix := by
  unfold settle; dsimp only; (repeat' split) <;> rfl
@[simp] theorem settle_port_get (s t : State) (p : Nat) : (settle s t).port p = t.port p := by
  simp [State.port]
@[simp] theorem settle_die_get (s t : State) (d : Nat) : (settle s t).die d = t.die d := by
  simp [State.die]
@[simp] theorem settle_core_get (s t : State) (d c : Nat) : (settle s t).core d c = t.core d c := by
  simp [State.core]
@[simp] theorem settle_loop_get (s t : State) (d n : Nat) : (settle s t).loop d n = t.loop d n := by
  simp [State.loop]
@[simp] theorem settle_lpe_get (s t : State) (d : Nat) : (settle s t).lpe d = t.lpe d := by
  simp [State.lpe]
@[simp] theorem settle_chan_get (s t : State) (c : Nat) : (settle s t).chan c = t.chan c := by
  simp [State.chan]
@[simp] theorem settle_mot_get (s t : State) (m : Nat) : (settle s t).mot m = t.mot m := by
  simp [State.mot]
@[simp] theorem settle_atu_get (s t : State) (d : Nat) : (settle s t).atu d = t.atu d := by
  simp [State.atu]
@[simp] theorem settle_dma_get (s t : State) (d : Nat) : (settle s t).dma d = t.dma d := by
  simp [State.dma]
@[simp] theorem settle_tport_get (s t : State) (t1 : TrunkPort) : (settle s t).tport t1 = t.tport t1 := by
  simp [State.tport]
@[simp] theorem settle_nodeOf_get (s t : State) (u : Uid) : (settle s t).node? u = t.node? u := by
  simp [State.node?]
@[simp] theorem settle_sender_get (s t : State) (n : Nat) : (settle s t).sender n = t.sender n := by
  simp [State.sender]

end Sys2Proof.Machine
end

