-- ==== Sys2Proof/Laws/Serve.lean ====
section
/-! SUPPORT. How a mailbox command runs whose request may start and passes every check: its own part is executed on the state
in which the request has begun, and its answer becomes the request's result. -/
namespace Sys2Proof.Machine

/-- The state in which the request at place `i` of a session has begun. -/
def State.begun (s : State) (r : Req) (h : ReqHead) (i : Nat) : State :=
  s.modSender r.sender.val fun x => { x with reqs := x.reqs.set i { head := h, begun := true } }

theorem State.begun_sender (s : State) (r : Req) (h : ReqHead) (i : Nat) :
    (s.begun r h i).sender r.sender.val = { s.sender r.sender.val with
      reqs := (s.sender r.sender.val).reqs.set i { head := h, begun := true } } := by
  simp [State.begun]

theorem State.begun_early (s : State) (r : Req) (h : ReqHead) (i : Nat) :
    (s.begun r h i).early r.sender.val h = s.early r.sender.val h := by
  simp only [State.early, State.begun_sender]; simp [State.begun]

/-- The request that has begun, as the list holds it. -/
theorem State.begun_get (s : State) (r : Req) (op : Nat) (p : List Byte → Bool) (h : ReqHead) (i : Nat)
    (ho : s.offers r op p h i) :
    ((s.begun r h i).sender r.sender.val).reqs[i]? = some { head := h, begun := true } := by
  obtain ⟨_, e, _⟩ := ho
  have hl : i < (s.sender r.sender.val).reqs.length := (List.getElem?_eq_some_iff.1 e).1
  simp [State.begun_sender, hl]

/-- A command whose request may start and passes the checks runs its own part. -/
theorem State.serve_offers (s : State) (r : Req) (op : Nat) (h : ReqHead) (i : Nat) (landlord : Bool) (p : List Byte → Bool)
    (bad : Option Nat) (f : Tenant → Nat → State → Answer) (ho : s.offers r op p h i) (hr : bad = none)
    (ht : landlord = true → s.reqTenant r.sender.val = 0) :
    s.serve r op landlord p bad f =
      match f (s.reqTenant r.sender.val) h.rlen (s.begun r h i) with
      | (none, u) => u
      | (some res, u) => u.modSender r.sender.val fun x => { x with reqs := putResult i r.tag res x.reqs } := by
  subst hr
  have hb := s.begun_early r h i
  obtain ⟨e1, e2, e3, e7, e4, e5, e6⟩ := ho
  have hs : (s.begun r h i).su = s.su := rfl
  have htn : (s.begun r h i).reqTenant r.sender.val = s.reqTenant r.sender.val := by
    simp only [State.reqTenant, State.begun_sender]
  have key : (s.begun r h i).attempt r.sender.val op h landlord p none f
      = f (s.reqTenant r.sender.val) h.rlen (s.begun r h i) := by
    unfold State.attempt
    simp only [hb, e4, e7, htn, hs, e5, e6]
    cases landlord <;> simp_all
  unfold State.serve
  simp only [e1, e2]
  show (match (s.begun r h i).attempt r.sender.val op h landlord p none f with
    | (none, u) => u
    | (some res, u) => u.modSender r.sender.val fun x => { x with reqs := putResult i r.tag res x.reqs }) = _
  rw [key]

/-- A result that is put where a begun request stands is that request's result. -/
theorem State.resultOf_put (u : State) (r : Req) (h : ReqHead) (i : Nat) (res : Result)
    (hq : (u.sender r.sender.val).reqs[i]? = some { head := h, begun := true }) (ht : h.tag = r.tag) :
    (u.modSender r.sender.val fun x => { x with reqs := putResult i r.tag res x.reqs }).resultOf r i = some res := by
  have hl : i < (u.sender r.sender.val).reqs.length := (List.getElem?_eq_some_iff.1 hq).1
  have hp : putResult i r.tag res (u.sender r.sender.val).reqs
      = (u.sender r.sender.val).reqs.set i { head := h, begun := true, result := some res } := by
    unfold putResult; rw [hq]; simp [ht]
  simp [State.resultOf, hp, hl]

/-- The answer of a command whose own part leaves the host port alone is its request's result. -/
theorem State.resultOf_answer (s u : State) (r : Req) (op : Nat) (p : List Byte → Bool) (h : ReqHead) (i : Nat) (res : Result)
    (ho : s.offers r op p h i)
    (hu : u.host = (s.begun r h i).host) :
    (u.modSender r.sender.val fun x => { x with reqs := putResult i r.tag res x.reqs }).resultOf r i = some res := by
  have hq := s.begun_get r op p h i ho
  refine u.resultOf_put r h i res ?_ ho.2.2.1
  have e : u.sender r.sender.val = (s.begun r h i).sender r.sender.val := by simp only [State.sender, hu]
  rw [e]; exact hq

@[simp] theorem settle_resultOf (s t : State) (r : Req) (i : Nat) : (settle s t).resultOf r i = t.resultOf r i := by
  simp [State.resultOf]

end Sys2Proof.Machine
end

