-- ==== Sys2Proof/Laws/Begun.lean ====
section
/-! SUPPORT. A request that begins, and any change of a session, changes nothing but that session: what every reader of the other kinds of state sees is as before. -/
namespace Sys2Proof.Machine

@[simp] theorem begun_pending (s : State) (r : Req) (h : ReqHead) (i : Nat) : (s.begun r h i).pending = s.pending := rfl
@[simp] theorem begun_member (s : State) (r : Req) (h : ReqHead) (i : Nat) : (s.begun r h i).member = s.member := rfl
@[simp] theorem begun_tick (s : State) (r : Req) (h : ReqHead) (i : Nat) : (s.begun r h i).tick = s.tick := rfl
@[simp] theorem begun_tickHi (s : State) (r : Req) (h : ReqHead) (i : Nat) : (s.begun r h i).tickHi = s.tickHi := rfl
@[simp] theorem begun_links (s : State) (r : Req) (h : ReqHead) (i : Nat) : (s.begun r h i).links = s.links := rfl
@[simp] theorem begun_cfg (s : State) (r : Req) (h : ReqHead) (i : Nat) : (s.begun r h i).cfg = s.cfg := rfl
@[simp] theorem begun_pnt (s : State) (r : Req) (h : ReqHead) (i : Nat) : (s.begun r h i).pnt = s.pnt := rfl
@[simp] theorem begun_ports (s : State) (r : Req) (h : ReqHead) (i : Nat) : (s.begun r h i).ports = s.ports := rfl
@[simp] theorem begun_nodes (s : State) (r : Req) (h : ReqHead) (i : Nat) : (s.begun r h i).nodes = s.nodes := rfl
@[simp] theorem begun_trk (s : State) (r : Req) (h : ReqHead) (i : Nat) : (s.begun r h i).trk = s.trk := rfl
@[simp] theorem begun_logic (s : State) (r : Req) (h : ReqHead) (i : Nat) : (s.begun r h i).logic = s.logic := rfl
@[simp] theorem begun_cores (s : State) (r : Req) (h : ReqHead) (i : Nat) : (s.begun r h i).cores = s.cores := rfl
@[simp] theorem begun_loopDies (s : State) (r : Req) (h : ReqHead) (i : Nat) : (s.begun r h i).loopDies = s.loopDies := rfl
@[simp] theorem begun_loops (s : State) (r : Req) (h : ReqHead) (i : Nat) : (s.begun r h i).loops = s.loops := rfl
@[simp] theorem begun_fio (s : State) (r : Req) (h : ReqHead) (i : Nat) : (s.begun r h i).fio = s.fio := rfl
@[simp] theorem begun_mtr (s : State) (r : Req) (h : ReqHead) (i : Nat) : (s.begun r h i).mtr = s.mtr := rfl
@[simp] theorem begun_mem (s : State) (r : Req) (h : ReqHead) (i : Nat) : (s.begun r h i).mem = s.mem := rfl
@[simp] theorem begun_tags (s : State) (r : Req) (h : ReqHead) (i : Nat) : (s.begun r h i).tags = s.tags := rfl
@[simp] theorem begun_owners (s : State) (r : Req) (h : ReqHead) (i : Nat) : (s.begun r h i).owners = s.owners := rfl
@[simp] theorem begun_atus (s : State) (r : Req) (h : ReqHead) (i : Nat) : (s.begun r h i).atus = s.atus := rfl
@[simp] theorem begun_dmas (s : State) (r : Req) (h : ReqHead) (i : Nat) : (s.begun r h i).dmas = s.dmas := rfl
@[simp] theorem begun_hst (s : State) (r : Req) (h : ReqHead) (i : Nat) : (s.begun r h i).hst = s.hst := rfl
@[simp] theorem begun_evr (s : State) (r : Req) (h : ReqHead) (i : Nat) : (s.begun r h i).evr = s.evr := rfl
@[simp] theorem begun_sec (s : State) (r : Req) (h : ReqHead) (i : Nat) : (s.begun r h i).sec = s.sec := rfl
@[simp] theorem begun_time (s : State) (r : Req) (h : ReqHead) (i : Nat) : (s.begun r h i).time = s.time := rfl
@[simp] theorem begun_su (s : State) (r : Req) (h : ReqHead) (i : Nat) : (s.begun r h i).su = s.su := rfl
@[simp] theorem begun_freeN (s : State) (r : Req) (h : ReqHead) (i : Nat) : (s.begun r h i).freeN = s.freeN := rfl
@[simp] theorem begun_now_get (s : State) (r : Req) (h : ReqHead) (i : Nat)  : (s.begun r h i).now  = s.now  := rfl
@[simp] theorem begun_utcNow_get (s : State) (r : Req) (h : ReqHead) (i : Nat)  : (s.begun r h i).utcNow  = s.utcNow  := rfl
@[simp] theorem begun_ringInUse_get (s : State) (r : Req) (h : ReqHead) (i : Nat)  : (s.begun r h i).ringInUse  = s.ringInUse  := rfl
@[simp] theorem begun_nDies_get (s : State) (r : Req) (h : ReqHead) (i : Nat)  : (s.begun r h i).nDies  = s.nDies  := rfl
@[simp] theorem begun_nPorts_get (s : State) (r : Req) (h : ReqHead) (i : Nat)  : (s.begun r h i).nPorts  = s.nPorts  := rfl
@[simp] theorem begun_nPoints_get (s : State) (r : Req) (h : ReqHead) (i : Nat)  : (s.begun r h i).nPoints  = s.nPoints  := rfl
@[simp] theorem begun_dies_get (s : State) (r : Req) (h : ReqHead) (i : Nat)  : (s.begun r h i).dies  = s.dies  := rfl
@[simp] theorem begun_port_get (s : State) (r : Req) (h : ReqHead) (i : Nat) (p : Nat) : (s.begun r h i).port p = s.port p := rfl
@[simp] theorem begun_nodeOf_get (s : State) (r : Req) (h : ReqHead) (i : Nat) (u : Uid) : (s.begun r h i).node? u = s.node? u := rfl
@[simp] theorem begun_die_get (s : State) (r : Req) (h : ReqHead) (i : Nat) (d : Nat) : (s.begun r h i).die d = s.die d := rfl
@[simp] theorem begun_core_get (s : State) (r : Req) (h : ReqHead) (i : Nat) (d c : Nat) : (s.begun r h i).core d c = s.core d c := rfl
@[simp] theorem begun_loop_get (s : State) (r : Req) (h : ReqHead) (i : Nat) (d n : Nat) : (s.begun r h i).loop d n = s.loop d n := rfl
@[simp] theorem begun_lpe_get (s : State) (r : Req) (h : ReqHead) (i : Nat) (d : Nat) : (s.begun r h i).lpe d = s.lpe d := rfl
@[simp] theorem begun_chan_get (s : State) (r : Req) (h : ReqHead) (i : Nat) (c : Nat) : (s.begun r h i).chan c = s.chan c := rfl
@[simp] theorem begun_mot_get (s : State) (r : Req) (h : ReqHead) (i : Nat) (m : Nat) : (s.begun r h i).mot m = s.mot m := rfl
@[simp] theorem begun_atu_get (s : State) (r : Req) (h : ReqHead) (i : Nat) (d : Nat) : (s.begun r h i).atu d = s.atu d := rfl
@[simp] theorem begun_dma_get (s : State) (r : Req) (h : ReqHead) (i : Nat) (d : Nat) : (s.begun r h i).dma d = s.dma d := rfl
@[simp] theorem begun_hstDie_get (s : State) (r : Req) (h : ReqHead) (i : Nat) (d : Nat) : (s.begun r h i).hstDie d = s.hstDie d := rfl
@[simp] theorem begun_tport_get (s : State) (r : Req) (h : ReqHead) (i : Nat) (t : TrunkPort) : (s.begun r h i).tport t = s.tport t := rfl
@[simp] theorem begun_descOf_get (s : State) (r : Req) (h : ReqHead) (i : Nat) (m : Nat) : (s.begun r h i).desc? m = s.desc? m := rfl
@[simp] theorem begun_chanCfgOf_get (s : State) (r : Req) (h : ReqHead) (i : Nat) (c : Nat) : (s.begun r h i).chanCfg? c = s.chanCfg? c := rfl
@[simp] theorem begun_ainCfgOf_get (s : State) (r : Req) (h : ReqHead) (i : Nat) (k : Nat) : (s.begun r h i).ainCfg? k = s.ainCfg? k := rfl
@[simp] theorem begun_aoutCfgOf_get (s : State) (r : Req) (h : ReqHead) (i : Nat) (k : Nat) : (s.begun r h i).aoutCfg? k = s.aoutCfg? k := rfl
@[simp] theorem begun_motCfgOf_get (s : State) (r : Req) (h : ReqHead) (i : Nat) (m : Nat) : (s.begun r h i).motCfg? m = s.motCfg? m := rfl
@[simp] theorem begun_circuitCfgOf_get (s : State) (r : Req) (h : ReqHead) (i : Nat) (k : Nat) : (s.begun r h i).circuitCfg? k = s.circuitCfg? k := rfl
@[simp] theorem begun_vsetCfgOf_get (s : State) (r : Req) (h : ReqHead) (i : Nat) (k : Nat) : (s.begun r h i).vsetCfg? k = s.vsetCfg? k := rfl
@[simp] theorem begun_minputCfgOf_get (s : State) (r : Req) (h : ReqHead) (i : Nat) (k : Nat) : (s.begun r h i).minputCfg? k = s.minputCfg? k := rfl
@[simp] theorem begun_doorCfgOf_get (s : State) (r : Req) (h : ReqHead) (i : Nat) (d : Nat) : (s.begun r h i).doorCfg? d = s.doorCfg? d := rfl
@[simp] theorem begun_stationCfgOf_get (s : State) (r : Req) (h : ReqHead) (i : Nat) (k : Nat) : (s.begun r h i).stationCfg? k = s.stationCfg? k := rfl
@[simp] theorem begun_trendCfgOf_get (s : State) (r : Req) (h : ReqHead) (i : Nat) (n : Nat) : (s.begun r h i).trendCfg? n = s.trendCfg? n := rfl
@[simp] theorem begun_nodeCfgOf_get (s : State) (r : Req) (h : ReqHead) (i : Nat) (p a : Nat) : (s.begun r h i).nodeCfg? p a = s.nodeCfg? p a := rfl
@[simp] theorem begun_quota_get (s : State) (r : Req) (h : ReqHead) (i : Nat) (t : Tenant) : (s.begun r h i).quota t = s.quota t := rfl
@[simp] theorem begun_intBlk_get (s : State) (r : Req) (h : ReqHead) (i : Nat) (d : Nat) : (s.begun r h i).intBlk d = s.intBlk d := rfl
@[simp] theorem begun_newRec_get (s : State) (r : Req) (h : ReqHead) (i : Nat) (e : Event) : (s.begun r h i).newRec e = s.newRec e := rfl
@[simp] theorem begun_lossRec_get (s : State) (r : Req) (h : ReqHead) (i : Nat) (l : Loss) : (s.begun r h i).lossRec l = s.lossRec l := rfl
@[simp] theorem begun_histGenOf_get (s : State) (r : Req) (h : ReqHead) (i : Nat) (t : Tenant) : (s.begun r h i).histGenOf t = s.histGenOf t := rfl
@[simp] theorem begun_freeSeg_get (s : State) (r : Req) (h : ReqHead) (i : Nat)  : (s.begun r h i).freeSeg  = s.freeSeg  := rfl
@[simp] theorem begun_storeOn_get (s : State) (r : Req) (h : ReqHead) (i : Nat)  : (s.begun r h i).storeOn  = s.storeOn  := rfl
@[simp] theorem begun_staging_get (s : State) (r : Req) (h : ReqHead) (i : Nat) (d : Nat) (t : Tenant) : (s.begun r h i).staging d t = s.staging d t := rfl
@[simp] theorem begun_cell_get (s : State) (r : Req) (h : ReqHead) (i : Nat) (m : Nat) : (s.begun r h i).cell m = s.cell m := rfl
@[simp] theorem begun_cellFor_get (s : State) (r : Req) (h : ReqHead) (i : Nat) (t : Tenant) (m : Nat) : (s.begun r h i).cellFor t m = s.cellFor t m := rfl
@[simp] theorem begun_touches_get (s : State) (r : Req) (h : ReqHead) (i : Nat) (m : Nat) : (s.begun r h i).touches m = s.touches m := rfl
@[simp] theorem begun_forceCheck_get (s : State) (r : Req) (h : ReqHead) (i : Nat) (t : Tenant) (m : Nat) (release : Bool) : (s.begun r h i).forceCheck t m release = s.forceCheck t m release := rfl
@[simp] theorem begun_door_get (s : State) (r : Req) (h : ReqHead) (i : Nat) (d : Nat) : (s.begun r h i).door d = s.door d := rfl
@[simp] theorem begun_nodeState_get (s : State) (r : Req) (h : ReqHead) (i : Nat) (p a : Nat) : (s.begun r h i).nodeState p a = s.nodeState p a := rfl
@[simp] theorem begun_doorCode_get (s : State) (r : Req) (h : ReqHead) (i : Nat) (c : DoorCfg) : (s.begun r h i).doorCode c = s.doorCode c := rfl
@[simp] theorem begun_stationCode_get (s : State) (r : Req) (h : ReqHead) (i : Nat) (c : StationCfg) : (s.begun r h i).stationCode c = s.stationCode c := rfl
@[simp] theorem begun_accPoints_get (s : State) (r : Req) (h : ReqHead) (i : Nat) (kind n : Nat) : (s.begun r h i).accPoints kind n = s.accPoints kind n := rfl
@[simp] theorem begun_portOutputs_get (s : State) (r : Req) (h : ReqHead) (i : Nat) (p : Nat) : (s.begun r h i).portOutputs p = s.portOutputs p := rfl
@[simp] theorem begun_changedOutputs_get (s : State) (r : Req) (h : ReqHead) (i : Nat) (p : Nat) : (s.begun r h i).changedOutputs p = s.changedOutputs p := rfl
@[simp] theorem begun_nodePoints_get (s : State) (r : Req) (h : ReqHead) (i : Nat) (p a : Nat) : (s.begun r h i).nodePoints p a = s.nodePoints p a := rfl
@[simp] theorem begun_chanPoint_get (s : State) (r : Req) (h : ReqHead) (i : Nat) (p a ch : Nat) : (s.begun r h i).chanPoint p a ch = s.chanPoint p a ch := rfl
@[simp] theorem begun_localMinute_get (s : State) (r : Req) (h : ReqHead) (i : Nat)  : (s.begun r h i).localMinute  = s.localMinute  := rfl
@[simp] theorem begun_hasPort_get (s : State) (r : Req) (h : ReqHead) (i : Nat) (p : Nat) : (s.begun r h i).hasPort p = s.hasPort p := rfl
@[simp] theorem begun_rtcMsec_get (s : State) (r : Req) (h : ReqHead) (i : Nat)  : (s.begun r h i).rtcMsec  = s.rtcMsec  := rfl
@[simp] theorem begun_rtcCal_get (s : State) (r : Req) (h : ReqHead) (i : Nat)  : (s.begun r h i).rtcCal  = s.rtcCal  := rfl
@[simp] theorem begun_rtcView_get (s : State) (r : Req) (h : ReqHead) (i : Nat)  : (s.begun r h i).rtcView  = s.rtcView  := rfl
@[simp] theorem begun_sysBytes_get (s : State) (r : Req) (h : ReqHead) (i : Nat)  : (s.begun r h i).sysBytes  = s.sysBytes  := rfl
@[simp] theorem begun_routePort_get (s : State) (r : Req) (h : ReqHead) (i : Nat) (dst : Byte) : (s.begun r h i).routePort dst = s.routePort dst := rfl
@[simp] theorem begun_portReaches_get (s : State) (r : Req) (h : ReqHead) (i : Nat) (t : TrunkPort) : (s.begun r h i).portReaches t = s.portReaches t := rfl
@[simp] theorem begun_pickTimePort_get (s : State) (r : Req) (h : ReqHead) (i : Nat)  : (s.begun r h i).pickTimePort  = s.pickTimePort  := rfl
@[simp] theorem begun_paOk_get (s : State) (r : Req) (h : ReqHead) (i : Nat) (pa : Nat) : (s.begun r h i).paOk pa = s.paOk pa := rfl
@[simp] theorem begun_tag_get (s : State) (r : Req) (h : ReqHead) (i : Nat) (line : Nat) : (s.begun r h i).tag line = s.tag line := rfl
@[simp] theorem begun_owner_get (s : State) (r : Req) (h : ReqHead) (i : Nat) (page : Nat) : (s.begun r h i).owner page = s.owner page := rfl
@[simp] theorem begun_integGenOf_get (s : State) (r : Req) (h : ReqHead) (i : Nat) (t : Tenant) : (s.begun r h i).integGenOf t = s.integGenOf t := rfl
@[simp] theorem begun_tenantTable_get (s : State) (r : Req) (h : ReqHead) (i : Nat)  : (s.begun r h i).tenantTable  = s.tenantTable  := rfl
@[simp] theorem begun_ctxTenant_get (s : State) (r : Req) (h : ReqHead) (i : Nat) (ctx : Nat) : (s.begun r h i).ctxTenant ctx = s.ctxTenant ctx := rfl
@[simp] theorem begun_ctxOf_get (s : State) (r : Req) (h : ReqHead) (i : Nat) (t : Tenant) (cls : Nat) : (s.begun r h i).ctxOf t cls = s.ctxOf t cls := rfl
@[simp] theorem begun_dch_get (s : State) (r : Req) (h : ReqHead) (i : Nat) (d c : Nat) : (s.begun r h i).dch d c = s.dch d c := rfl
@[simp] theorem begun_imageBytes_get (s : State) (r : Req) (h : ReqHead) (i : Nat) (t : Tenant) (d off n : Nat) : (s.begun r h i).imageBytes t d off n = s.imageBytes t d off n := rfl
@[simp] theorem begun_ready_get (s : State) (r : Req) (h : ReqHead) (i : Nat) (d : Nat) : (s.begun r h i).ready d = s.ready d := rfl
@[simp] theorem begun_nextChan_get (s : State) (r : Req) (h : ReqHead) (i : Nat) (d : Nat) : (s.begun r h i).nextChan d = s.nextChan d := rfl
@[simp] theorem begun_dmaStopped_get (s : State) (r : Req) (h : ReqHead) (i : Nat) (d c : Nat) : (s.begun r h i).dmaStopped d c = s.dmaStopped d c := rfl
@[simp] theorem begun_dieUp_get (s : State) (r : Req) (h : ReqHead) (i : Nat) (d : Nat) : (s.begun r h i).dieUp d = s.dieUp d := rfl
@[simp] theorem begun_up_get (s : State) (r : Req) (h : ReqHead) (i : Nat)  : (s.begun r h i).up  = s.up  := rfl
@[simp] theorem begun_taskPoints_get (s : State) (r : Req) (h : ReqHead) (i : Nat) (d : Nat) (sel : Nat → Bool) : (s.begun r h i).taskPoints d sel = s.taskPoints d sel := rfl
@[simp] theorem begun_coreTask_get (s : State) (r : Req) (h : ReqHead) (i : Nat) (d c : Nat) : (s.begun r h i).coreTask d c = s.coreTask d c := rfl
@[simp] theorem begun_varWrites_get (s : State) (r : Req) (h : ReqHead) (i : Nat) (d : Nat) (ran : List Nat) : (s.begun r h i).varWrites d ran = s.varWrites d ran := rfl
@[simp] theorem begun_coreRuns_get (s : State) (r : Req) (h : ReqHead) (i : Nat) (d c : Nat) : (s.begun r h i).coreRuns d c = s.coreRuns d c := rfl
@[simp] theorem begun_beyond_get (s : State) (r : Req) (h : ReqHead) (i : Nat) (d c len : Nat) : (s.begun r h i).beyond d c len = s.beyond d c len := rfl
@[simp] theorem begun_accessTrap_get (s : State) (r : Req) (h : ReqHead) (i : Nat) (d c : Nat) (a : V24) (load : Bool) : (s.begun r h i).accessTrap d c a load = s.accessTrap d c a load := rfl
@[simp] theorem begun_loadWord_get (s : State) (r : Req) (h : ReqHead) (i : Nat) (d : Nat) (a : V24) : (s.begun r h i).loadWord d a = s.loadWord d a := rfl
@[simp] theorem begun_pointOk_get (s : State) (r : Req) (h : ReqHead) (i : Nat) (d c m : Nat) (out : Bool) : (s.begun r h i).pointOk d c m out = s.pointOk d c m out := rfl
@[simp] theorem begun_special_get (s : State) (r : Req) (h : ReqHead) (i : Nat) (d c i0 : Nat) : (s.begun r h i).special d c i0 = s.special d c i0 := rfl
@[simp] theorem begun_spillWords_get (s : State) (r : Req) (h : ReqHead) (i : Nat) (d c w : Nat) : (s.begun r h i).spillWords d c w = s.spillWords d c w := rfl
@[simp] theorem begun_due_get (s : State) (r : Req) (h : ReqHead) (i : Nat) (a n : Nat) : (s.begun r h i).due a n = s.due a n := rfl
@[simp] theorem begun_spillLimit_get (s : State) (r : Req) (h : ReqHead) (i : Nat) (d c : Nat) : (s.begun r h i).spillLimit d c = s.spillLimit d c := rfl
@[simp] theorem begun_dieLoops_get (s : State) (r : Req) (h : ReqHead) (i : Nat) (d : Nat) : (s.begun r h i).dieLoops d = s.dieLoops d := rfl
@[simp] theorem begun_loopLoad_get (s : State) (r : Req) (h : ReqHead) (i : Nat) (d : Nat) : (s.begun r h i).loopLoad d = s.loopLoad d := rfl
@[simp] theorem begun_lpeLoad_get (s : State) (r : Req) (h : ReqHead) (i : Nat) (d : Nat) : (s.begun r h i).lpeLoad d = s.lpeLoad d := rfl
@[simp] theorem begun_unit_get (s : State) (r : Req) (h : ReqHead) (i : Nat) (d u : Nat) : (s.begun r h i).unit d u = s.unit d u := rfl
@[simp] theorem begun_unitOf_get (s : State) (r : Req) (h : ReqHead) (i : Nat) (d n : Nat) (p : TestUnit → Bool) : (s.begun r h i).unitOf d n p = s.unitOf d n p := rfl
@[simp] theorem begun_loopPv_get (s : State) (r : Req) (h : ReqHead) (i : Nat) (d : Nat) (c : LoopCfg) : (s.begun r h i).loopPv d c = s.loopPv d c := rfl
@[simp] theorem begun_loopSp_get (s : State) (r : Req) (h : ReqHead) (i : Nat) (d : Nat) (c : LoopCfg) : (s.begun r h i).loopSp d c = s.loopSp d c := rfl
@[simp] theorem begun_loopDest_get (s : State) (r : Req) (h : ReqHead) (i : Nat) (x : LoopSlot) (c : LoopCfg) : (s.begun r h i).loopDest x c = s.loopDest x c := rfl
@[simp] theorem begun_loopForced_get (s : State) (r : Req) (h : ReqHead) (i : Nat) (c : LoopCfg) : (s.begun r h i).loopForced c = s.loopForced c := rfl
@[simp] theorem begun_slotStat_get (s : State) (r : Req) (h : ReqHead) (i : Nat) (d n : Nat) : (s.begun r h i).slotStat d n = s.slotStat d n := rfl
@[simp] theorem begun_loopHeld_get (s : State) (r : Req) (h : ReqHead) (i : Nat) (d : Nat) (c : LoopCfg) : (s.begun r h i).loopHeld d c = s.loopHeld d c := rfl
@[simp] theorem begun_localSlots_get (s : State) (r : Req) (h : ReqHead) (i : Nat)  : (s.begun r h i).localSlots  = s.localSlots  := rfl
@[simp] theorem begun_group_get (s : State) (r : Req) (h : ReqHead) (i : Nat) (g : Nat) : (s.begun r h i).group g = s.group g := rfl
@[simp] theorem begun_ccfg_get (s : State) (r : Req) (h : ReqHead) (i : Nat) (c : Nat) : (s.begun r h i).ccfg c = s.ccfg c := rfl
@[simp] theorem begun_motionOwns_get (s : State) (r : Req) (h : ReqHead) (i : Nat) (c : Nat) : (s.begun r h i).motionOwns c = s.motionOwns c := rfl
@[simp] theorem begun_legOf_get (s : State) (r : Req) (h : ReqHead) (i : Nat) (c : Nat) : (s.begun r h i).legOf c = s.legOf c := rfl
@[simp] theorem begun_isPulse_get (s : State) (r : Req) (h : ReqHead) (i : Nat) (c : Nat) : (s.begun r h i).isPulse c = s.isPulse c := rfl
@[simp] theorem begun_isOut_get (s : State) (r : Req) (h : ReqHead) (i : Nat) (c : Nat) : (s.begun r h i).isOut c = s.isOut c := rfl
@[simp] theorem begun_retryReady_get (s : State) (r : Req) (h : ReqHead) (i : Nat) (c : Nat) : (s.begun r h i).retryReady c = s.retryReady c := rfl
@[simp] theorem begun_driven_get (s : State) (r : Req) (h : ReqHead) (i : Nat)  : (s.begun r h i).driven  = s.driven  := rfl
@[simp] theorem begun_outChans_get (s : State) (r : Req) (h : ReqHead) (i : Nat)  : (s.begun r h i).outChans  = s.outChans  := rfl
@[simp] theorem begun_chValue_get (s : State) (r : Req) (h : ReqHead) (i : Nat) (c : Nat) : (s.begun r h i).chValue c = s.chValue c := rfl
@[simp] theorem begun_chQual_get (s : State) (r : Req) (h : ReqHead) (i : Nat) (c : Nat) : (s.begun r h i).chQual c = s.chQual c := rfl
@[simp] theorem begun_chWrites_get (s : State) (r : Req) (h : ReqHead) (i : Nat) (sel : Nat → Bool) : (s.begun r h i).chWrites sel = s.chWrites sel := rfl
@[simp] theorem begun_ainValue_get (s : State) (r : Req) (h : ReqHead) (i : Nat) (k : Nat) : (s.begun r h i).ainValue k = s.ainValue k := rfl
@[simp] theorem begun_ainWrites_get (s : State) (r : Req) (h : ReqHead) (i : Nat)  : (s.begun r h i).ainWrites  = s.ainWrites  := rfl
@[simp] theorem begun_limitOn_get (s : State) (r : Req) (h : ReqHead) (i : Nat) (m : Nat) (home : Bool) : (s.begun r h i).limitOn m home = s.limitOn m home := rfl
@[simp] theorem begun_motTenant_get (s : State) (r : Req) (h : ReqHead) (i : Nat) (m : Nat) : (s.begun r h i).motTenant m = s.motTenant m := rfl
@[simp] theorem begun_motState_get (s : State) (r : Req) (h : ReqHead) (i : Nat) (m : Nat) : (s.begun r h i).motState m = s.motState m := rfl
@[simp] theorem begun_logicAlive_get (s : State) (r : Req) (h : ReqHead) (i : Nat)  : (s.begun r h i).logicAlive  = s.logicAlive  := rfl
@[simp] theorem begun_latestOn_get (s : State) (r : Req) (h : ReqHead) (i : Nat) (g : Nat) : (s.begun r h i).latestOn g = s.latestOn g := rfl
@[simp] theorem begun_margin_get (s : State) (r : Req) (h : ReqHead) (i : Nat)  : (s.begun r h i).margin  = s.margin  := rfl
@[simp] theorem begun_stSkips_get (s : State) (r : Req) (h : ReqHead) (i : Nat) (c : Nat) : (s.begun r h i).stSkips c = s.stSkips c := rfl
@[simp] theorem begun_stNext_get (s : State) (r : Req) (h : ReqHead) (i : Nat) (k : Nat) : (s.begun r h i).stNext k = s.stNext k := rfl
@[simp] theorem begun_mcfg_get (s : State) (r : Req) (h : ReqHead) (i : Nat) (c : Nat) : (s.begun r h i).mcfg c = s.mcfg c := rfl
@[simp] theorem begun_minput_get (s : State) (r : Req) (h : ReqHead) (i : Nat) (c : Nat) : (s.begun r h i).minput c = s.minput c := rfl
@[simp] theorem begun_calRun_get (s : State) (r : Req) (h : ReqHead) (i : Nat) (c : Nat) (set : CalSet) : (s.begun r h i).calRun c set = s.calRun c set := rfl
@[simp] theorem begun_calList_get (s : State) (r : Req) (h : ReqHead) (i : Nat) (c : Nat) : (s.begun r h i).calList c = s.calList c := rfl
@[simp] theorem begun_circuit_get (s : State) (r : Req) (h : ReqHead) (i : Nat) (k : Nat) : (s.begun r h i).circuit k = s.circuit k := rfl
@[simp] theorem begun_vset_get (s : State) (r : Req) (h : ReqHead) (i : Nat) (v : Nat) : (s.begun r h i).vset v = s.vset v := rfl
@[simp] theorem begun_inUse_get (s : State) (r : Req) (h : ReqHead) (i : Nat) (c : Nat) : (s.begun r h i).inUse c = s.inUse c := rfl
@[simp] theorem begun_heldValue_get (s : State) (r : Req) (h : ReqHead) (i : Nat) (m : Nat) : (s.begun r h i).heldValue m = s.heldValue m := rfl
@[simp] theorem begun_mtrPoints_get (s : State) (r : Req) (h : ReqHead) (i : Nat) (k : Nat) (sel : Nat → Bool) : (s.begun r h i).mtrPoints k sel = s.mtrPoints k sel := rfl
@[simp] theorem begun_calQual_get (s : State) (r : Req) (h : ReqHead) (i : Nat) (l : List Nat) : (s.begun r h i).calQual l = s.calQual l := rfl
@[simp] theorem begun_periodOf_get (s : State) (r : Req) (h : ReqHead) (i : Nat) (set : Nat) : (s.begun r h i).periodOf set = s.periodOf set := rfl
@[simp] theorem begun_phaseSum_get (s : State) (r : Req) (h : ReqHead) (i : Nat) (set : Nat) (p : PhaseRef) : (s.begun r h i).phaseSum set p = s.phaseSum set p := rfl
@[simp] theorem begun_energyOf_get (s : State) (r : Req) (h : ReqHead) (i : Nat) (set : Nat) (p : PhaseRef) (test : Bool) : (s.begun r h i).energyOf set p test = s.energyOf set p test := rfl
@[simp] theorem begun_testHits_get (s : State) (r : Req) (h : ReqHead) (i : Nat) (c : CircuitCfg) : (s.begun r h i).testHits c = s.testHits c := rfl
@[simp] theorem begun_neutral_get (s : State) (r : Req) (h : ReqHead) (i : Nat) (c : CircuitCfg) : (s.begun r h i).neutral c = s.neutral c := rfl
@[simp] theorem begun_phaseLow_get (s : State) (r : Req) (h : ReqHead) (i : Nat) (input nominal : Nat) : (s.begun r h i).phaseLow input nominal = s.phaseLow input nominal := rfl
@[simp] theorem begun_circOut_get (s : State) (r : Req) (h : ReqHead) (i : Nat) (c : CircuitCfg) : (s.begun r h i).circOut c = s.circOut c := rfl
@[simp] theorem begun_secondQuant_get (s : State) (r : Req) (h : ReqHead) (i : Nat) (c : CircuitCfg) (o : CircOut) (phase code : Nat) : (s.begun r h i).secondQuant c o phase code = s.secondQuant c o phase code := rfl
@[simp] theorem begun_secondWrites_get (s : State) (r : Req) (h : ReqHead) (i : Nat) (c : CircuitCfg) (o : CircOut) : (s.begun r h i).secondWrites c o = s.secondWrites c o := rfl
@[simp] theorem begun_harmBadWrites_get (s : State) (r : Req) (h : ReqHead) (i : Nat)  : (s.begun r h i).harmBadWrites  = s.harmBadWrites  := rfl
@[simp] theorem begun_harmInputs_get (s : State) (r : Req) (h : ReqHead) (i : Nat) (set : Nat) : (s.begun r h i).harmInputs set = s.harmInputs set := rfl
@[simp] theorem begun_harmTested_get (s : State) (r : Req) (h : ReqHead) (i : Nat) (inputs : Nat) (start : Nat) : (s.begun r h i).harmTested inputs start = s.harmTested inputs start := rfl
@[simp] theorem begun_gainDev_get (s : State) (r : Req) (h : ReqHead) (i : Nat) (c : Nat) : (s.begun r h i).gainDev c = s.gainDev c := rfl
@[simp] theorem begun_holdsKey_get (s : State) (r : Req) (h : ReqHead) (i : Nat) (t : Tenant) (b : Block) : (s.begun r h i).holdsKey t b = s.holdsKey t b := rfl
@[simp] theorem begun_exyan_get (s : State) (r : Req) (h : ReqHead) (i : Nat)  : (s.begun r h i).exyan  = s.exyan  := rfl
@[simp] theorem begun_wmkSum_get (s : State) (r : Req) (h : ReqHead) (i : Nat)  : (s.begun r h i).wmkSum  = s.wmkSum  := rfl
@[simp] theorem begun_countCells_get (s : State) (r : Req) (h : ReqHead) (i : Nat) (d : Nat) (p : Cell → Bool) : (s.begun r h i).countCells d p = s.countCells d p := rfl
@[simp] theorem begun_pntRead_get (s : State) (r : Req) (h : ReqHead) (i : Nat) (t : Tenant) (d o : Nat) : (s.begun r h i).pntRead t d o = s.pntRead t d o := rfl
@[simp] theorem begun_brpRead_get (s : State) (r : Req) (h : ReqHead) (i : Nat) (d o : Nat) : (s.begun r h i).brpRead d o = s.brpRead d o := rfl
@[simp] theorem begun_slotFor_get (s : State) (r : Req) (h : ReqHead) (i : Nat) (t : Tenant) (d n : Nat) : (s.begun r h i).slotFor t d n = s.slotFor t d n := rfl
@[simp] theorem begun_slotWord_get (s : State) (r : Req) (h : ReqHead) (i : Nat) (d n a : Nat) (c : LoopCfg) : (s.begun r h i).slotWord d n a c = s.slotWord d n a c := rfl
@[simp] theorem begun_lpeRead_get (s : State) (r : Req) (h : ReqHead) (i : Nat) (t : Tenant) (d o : Nat) : (s.begun r h i).lpeRead t d o = s.lpeRead t d o := rfl
@[simp] theorem begun_lscRead_get (s : State) (r : Req) (h : ReqHead) (i : Nat) (d o : Nat) : (s.begun r h i).lscRead d o = s.lscRead d o := rfl
@[simp] theorem begun_dmaChWord_get (s : State) (r : Req) (h : ReqHead) (i : Nat) (d c a : Nat) : (s.begun r h i).dmaChWord d c a = s.dmaChWord d c a := rfl
@[simp] theorem begun_dmaReg_get (s : State) (r : Req) (h : ReqHead) (i : Nat) (d o : Nat) : (s.begun r h i).dmaReg d o = s.dmaReg d o := rfl
@[simp] theorem begun_atuReg_get (s : State) (r : Req) (h : ReqHead) (i : Nat) (d o : Nat) : (s.begun r h i).atuReg d o = s.atuReg d o := rfl
@[simp] theorem begun_trkStatus_get (s : State) (r : Req) (h : ReqHead) (i : Nat) (t : TrunkPort) : (s.begun r h i).trkStatus t = s.trkStatus t := rfl
@[simp] theorem begun_trkTm_get (s : State) (r : Req) (h : ReqHead) (i : Nat)  : (s.begun r h i).trkTm  = s.trkTm  := rfl
@[simp] theorem begun_fioStatus_get (s : State) (r : Req) (h : ReqHead) (i : Nat)  : (s.begun r h i).fioStatus  = s.fioStatus  := rfl
@[simp] theorem begun_groupWord_get (s : State) (r : Req) (h : ReqHead) (i : Nat) (g : Nat) : (s.begun r h i).groupWord g = s.groupWord g := rfl
@[simp] theorem begun_chanBits_get (s : State) (r : Req) (h : ReqHead) (i : Nat) (p : ChanSt → Bool) : (s.begun r h i).chanBits p = s.chanBits p := rfl
@[simp] theorem begun_chCfgWord_get (s : State) (r : Req) (h : ReqHead) (i : Nat) (c : Nat) : (s.begun r h i).chCfgWord c = s.chCfgWord c := rfl
@[simp] theorem begun_chInWord_get (s : State) (r : Req) (h : ReqHead) (i : Nat) (c : Nat) : (s.begun r h i).chInWord c = s.chInWord c := rfl
@[simp] theorem begun_chStatWord_get (s : State) (r : Req) (h : ReqHead) (i : Nat) (c : Nat) : (s.begun r h i).chStatWord c = s.chStatWord c := rfl
@[simp] theorem begun_chCntWord_get (s : State) (r : Req) (h : ReqHead) (i : Nat) (c : Nat) : (s.begun r h i).chCntWord c = s.chCntWord c := rfl
@[simp] theorem begun_motWord_get (s : State) (r : Req) (h : ReqHead) (i : Nat) (m a : Nat) : (s.begun r h i).motWord m a = s.motWord m a := rfl
@[simp] theorem begun_fioReg_get (s : State) (r : Req) (h : ReqHead) (i : Nat) (o : Nat) : (s.begun r h i).fioReg o = s.fioReg o := rfl
@[simp] theorem begun_mtrStatus_get (s : State) (r : Req) (h : ReqHead) (i : Nat)  : (s.begun r h i).mtrStatus  = s.mtrStatus  := rfl
@[simp] theorem begun_vsetWord_get (s : State) (r : Req) (h : ReqHead) (i : Nat) (n a : Nat) : (s.begun r h i).vsetWord n a = s.vsetWord n a := rfl
@[simp] theorem begun_minputWord_get (s : State) (r : Req) (h : ReqHead) (i : Nat) (c a : Nat) : (s.begun r h i).minputWord c a = s.minputWord c a := rfl
@[simp] theorem begun_circuitWord_get (s : State) (r : Req) (h : ReqHead) (i : Nat) (k a : Nat) : (s.begun r h i).circuitWord k a = s.circuitWord k a := rfl
@[simp] theorem begun_mtrReg_get (s : State) (r : Req) (h : ReqHead) (i : Nat) (o : Nat) : (s.begun r h i).mtrReg o = s.mtrReg o := rfl
@[simp] theorem begun_hstStatus_get (s : State) (r : Req) (h : ReqHead) (i : Nat) (d : Nat) : (s.begun r h i).hstStatus d = s.hstStatus d := rfl
@[simp] theorem begun_hstReg_get (s : State) (r : Req) (h : ReqHead) (i : Nat) (d o : Nat) : (s.begun r h i).hstReg d o = s.hstReg d o := rfl
@[simp] theorem begun_evrReg_get (s : State) (r : Req) (h : ReqHead) (i : Nat) (o : Nat) : (s.begun r h i).evrReg o = s.evrReg o := rfl
@[simp] theorem begun_userWord_get (s : State) (r : Req) (h : ReqHead) (i : Nat) (n : Nat) : (s.begun r h i).userWord n = s.userWord n := rfl
@[simp] theorem begun_rtcReg_get (s : State) (r : Req) (h : ReqHead) (i : Nat) (o : Nat) : (s.begun r h i).rtcReg o = s.rtcReg o := rfl
@[simp] theorem begun_secVault_get (s : State) (r : Req) (h : ReqHead) (i : Nat)  : (s.begun r h i).secVault  = s.secVault  := rfl
@[simp] theorem begun_secBark_get (s : State) (r : Req) (h : ReqHead) (i : Nat)  : (s.begun r h i).secBark  = s.secBark  := rfl
@[simp] theorem begun_secFuse_get (s : State) (r : Req) (h : ReqHead) (i : Nat)  : (s.begun r h i).secFuse  = s.secFuse  := rfl
@[simp] theorem begun_secReg_get (s : State) (r : Req) (h : ReqHead) (i : Nat) (o : Nat) : (s.begun r h i).secReg o = s.secReg o := rfl
@[simp] theorem begun_hasBlock_get (s : State) (r : Req) (h : ReqHead) (i : Nat) (d b : Nat) : (s.begun r h i).hasBlock d b = s.hasBlock d b := rfl
@[simp] theorem begun_devId_get (s : State) (r : Req) (h : ReqHead) (i : Nat)  : (s.begun r h i).devId  = s.devId  := rfl
@[simp] theorem begun_poisonedLines_get (s : State) (r : Req) (h : ReqHead) (i : Nat) (d : Nat) : (s.begun r h i).poisonedLines d = s.poisonedLines d := rfl
@[simp] theorem begun_credSlot_get (s : State) (r : Req) (h : ReqHead) (i : Nat) (n : Nat) : (s.begun r h i).credSlot n = s.credSlot n := rfl
@[simp] theorem begun_credPasses_get (s : State) (r : Req) (h : ReqHead) (i : Nat) (n : Nat) (c : CredTry) : (s.begun r h i).credPasses n c = s.credPasses n c := by
  have d : (s.begun r h i).host.serial = s.host.serial := by simp only [State.begun, State.modSender, State.setSender]; split <;> rfl
  have e : (s.begun r h i).counterDigest c = s.counterDigest c := by unfold State.counterDigest; rw [d]
  unfold State.credPasses; rw [e]; rfl
@[simp] theorem begun_countNodes_get (s : State) (r : Req) (h : ReqHead) (i : Nat) (p : Nat) (st : Presence) : (s.begun r h i).countNodes p st = s.countNodes p st := rfl
@[simp] theorem begun_brWords_get (s : State) (r : Req) (h : ReqHead) (i : Nat) (p a n : Nat) : (s.begun r h i).brWords p a n = s.brWords p a n := rfl
@[simp] theorem begun_lacking_get (s : State) (r : Req) (h : ReqHead) (i : Nat) (m : Byte) : (s.begun r h i).lacking m = s.lacking m := rfl
@[simp] theorem begun_chanSeen_get (s : State) (r : Req) (h : ReqHead) (i : Nat) (t : Tenant) (c : Nat) : (s.begun r h i).chanSeen t c = s.chanSeen t c := rfl
@[simp] theorem begun_inputSeen_get (s : State) (r : Req) (h : ReqHead) (i : Nat) (t : Tenant) (c : Nat) : (s.begun r h i).inputSeen t c = s.inputSeen t c := rfl
@[simp] theorem begun_readerDoor_get (s : State) (r : Req) (h : ReqHead) (i : Nat) (p a r0 : Nat) : (s.begun r h i).readerDoor p a r0 = s.readerDoor p a r0 := rfl
@[simp] theorem begun_scheduleOf_get (s : State) (r : Req) (h : ReqHead) (i : Nat) (n : Nat) : (s.begun r h i).schedule? n = s.schedule? n := rfl
@[simp] theorem begun_validNow_get (s : State) (r : Req) (h : ReqHead) (i : Nat) (r0 : Cred) : (s.begun r h i).validNow r0 = s.validNow r0 := rfl
@[simp] theorem begun_schedNow_get (s : State) (r : Req) (h : ReqHead) (i : Nat) (r0 : Cred) : (s.begun r h i).schedNow r0 = s.schedNow r0 := rfl
@[simp] theorem begun_passbackBad_get (s : State) (r : Req) (h : ReqHead) (i : Nat) (c : DoorCfg) (i0 : Nat) (r0 : Cred) : (s.begun r h i).passbackBad c i0 r0 = s.passbackBad c i0 r0 := rfl
@[simp] theorem begun_judgeRecord_get (s : State) (r : Req) (h : ReqHead) (i : Nat) (c : DoorCfg) (method : Byte) (i0 : Nat) (r0 : Cred) : (s.begun r h i).judgeRecord c method i0 r0 = s.judgeRecord c method i0 r0 := rfl
@[simp] theorem begun_matching_get (s : State) (r : Req) (h : ReqHead) (i : Nat) (cid : Uid) : (s.begun r h i).matching cid = s.matching cid := rfl
@[simp] theorem begun_qualify_get (s : State) (r : Req) (h : ReqHead) (i : Nat) (c : DoorCfg) : (s.begun r h i).qualify c = s.qualify c := rfl
@[simp] theorem begun_cut_get (s : State) (r : Req) (h : ReqHead) (i : Nat) (c : DoorCfg) (l : List (Nat × Cred)) : (s.begun r h i).cut c l = s.cut c l := rfl
@[simp] theorem begun_selection_get (s : State) (r : Req) (h : ReqHead) (i : Nat) (c : DoorCfg) : (s.begun r h i).selection c = s.selection c := rfl
@[simp] theorem begun_hasCache_get (s : State) (r : Req) (h : ReqHead) (i : Nat) (c : DoorCfg) : (s.begun r h i).hasCache c = s.hasCache c := rfl
@[simp] theorem begun_cacheScheds_get (s : State) (r : Req) (h : ReqHead) (i : Nat) (x : List Nat) : (s.begun r h i).cacheScheds x = s.cacheScheds x := rfl
@[simp] theorem begun_doorStation_get (s : State) (r : Req) (h : ReqHead) (i : Nat) (c : DoorCfg) : (s.begun r h i).doorStation c = s.doorStation c := rfl
@[simp] theorem begun_entryOk_get (s : State) (r : Req) (h : ReqHead) (i : Nat) (t : Tenant) (e : BitVec 16) : (s.begun r h i).entryOk t e = s.entryOk t e := rfl
@[simp] theorem begun_inTable_get (s : State) (r : Req) (h : ReqHead) (i : Nat) (t : Tenant) : (s.begun r h i).inTable t = s.inTable t := rfl
@[simp] theorem begun_recordOf_get (s : State) (r : Req) (h : ReqHead) (i : Nat) (t : Tenant) (i0 : Nat) : (s.begun r h i).record? t i0 = s.record? t i0 := rfl
@[simp] theorem begun_doorFor_get (s : State) (r : Req) (h : ReqHead) (i : Nat) (t : Tenant) (d : Nat) : (s.begun r h i).doorFor t d = s.doorFor t d := rfl
@[simp] theorem begun_loadRules_get (s : State) (r : Req) (h : ReqHead) (i : Nat) (g : Image) : (s.begun r h i).loadRules g = s.loadRules g := rfl
@[simp] theorem begun_brokenRule_get (s : State) (r : Req) (h : ReqHead) (i : Nat) (g : Image) : (s.begun r h i).brokenRule g = s.brokenRule g := rfl
@[simp] theorem begun_copy_get (s : State) (r : Req) (h : ReqHead) (i : Nat) (b : Bool) : (s.begun r h i).copy b = s.copy b := rfl
@[simp] theorem begun_copyValid_get (s : State) (r : Req) (h : ReqHead) (i : Nat) (b : Bool) : (s.begun r h i).copyValid b = s.copyValid b := rfl
@[simp] theorem begun_copies_get (s : State) (r : Req) (h : ReqHead) (i : Nat)  : (s.begun r h i).copies  = s.copies  := rfl
@[simp] theorem begun_keptTime_get (s : State) (r : Req) (h : ReqHead) (i : Nat)  : (s.begun r h i).keptTime  = s.keptTime  := rfl
@[simp] theorem begun_goodLinks_get (s : State) (r : Req) (h : ReqHead) (i : Nat)  : (s.begun r h i).goodLinks  = s.goodLinks  := rfl
@[simp] theorem begun_reached_get (s : State) (r : Req) (h : ReqHead) (i : Nat)  : (s.begun r h i).reached  = s.reached  := rfl
@[simp] theorem begun_seedCause_get (s : State) (r : Req) (h : ReqHead) (i : Nat) (failed : Bool) : (s.begun r h i).seedCause failed = s.seedCause failed := rfl
@[simp] theorem begun_runs_get (s : State) (r : Req) (h : ReqHead) (i : Nat)  : (s.begun r h i).runs  = s.runs  := rfl
@[simp] theorem begun_bootable_get (s : State) (r : Req) (h : ReqHead) (i : Nat) (b : Bool) : (s.begun r h i).bootable b = s.bootable b := rfl
@[simp] theorem begun_wavePorts_get (s : State) (r : Req) (h : ReqHead) (i : Nat)  : (s.begun r h i).wavePorts  = s.wavePorts  := rfl
@[simp] theorem begun_unmet_get (s : State) (r : Req) (h : ReqHead) (i : Nat)  : (s.begun r h i).unmet  = s.unmet  := rfl
@[simp] theorem begun_fwCheck_get (s : State) (r : Req) (h : ReqHead) (i : Nat) (h0 : FwHeader) : (s.begun r h i).fwCheck h0 = s.fwCheck h0 := rfl
@[simp] theorem begun_provisionBad_get (s : State) (r : Req) (h : ReqHead) (i : Nat) (pr : Provision) : (s.begun r h i).provisionBad pr = s.provisionBad pr := rfl
@[simp] theorem begun_signed_get (s : State) (r : Req) (h : ReqHead) (i : Nat) (ck : ImageCheck) : (s.begun r h i).signed ck = s.signed ck := rfl
@[simp] theorem begun_writeTarget_get (s : State) (r : Req) (h : ReqHead) (i : Nat)  : (s.begun r h i).writeTarget  = s.writeTarget  := rfl
@[simp] theorem begun_nextCopySeq_get (s : State) (r : Req) (h : ReqHead) (i : Nat)  : (s.begun r h i).nextCopySeq  = s.nextCopySeq  := rfl
@[simp] theorem modSender_now_get (s : State) (n0 : Nat) (f0 : SlotSt → SlotSt)  : (s.modSender n0 f0).now  = s.now  := rfl
@[simp] theorem modSender_utcNow_get (s : State) (n0 : Nat) (f0 : SlotSt → SlotSt)  : (s.modSender n0 f0).utcNow  = s.utcNow  := rfl
@[simp] theorem modSender_ringInUse_get (s : State) (n0 : Nat) (f0 : SlotSt → SlotSt)  : (s.modSender n0 f0).ringInUse  = s.ringInUse  := rfl
@[simp] theorem modSender_nDies_get (s : State) (n0 : Nat) (f0 : SlotSt → SlotSt)  : (s.modSender n0 f0).nDies  = s.nDies  := rfl
@[simp] theorem modSender_nPorts_get (s : State) (n0 : Nat) (f0 : SlotSt → SlotSt)  : (s.modSender n0 f0).nPorts  = s.nPorts  := rfl
@[simp] theorem modSender_nPoints_get (s : State) (n0 : Nat) (f0 : SlotSt → SlotSt)  : (s.modSender n0 f0).nPoints  = s.nPoints  := rfl
@[simp] theorem modSender_dies_get (s : State) (n0 : Nat) (f0 : SlotSt → SlotSt)  : (s.modSender n0 f0).dies  = s.dies  := rfl
@[simp] theorem modSender_port_get (s : State) (n0 : Nat) (f0 : SlotSt → SlotSt) (p : Nat) : (s.modSender n0 f0).port p = s.port p := rfl
@[simp] theorem modSender_nodeOf_get (s : State) (n0 : Nat) (f0 : SlotSt → SlotSt) (u : Uid) : (s.modSender n0 f0).node? u = s.node? u := rfl
@[simp] theorem modSender_die_get (s : State) (n0 : Nat) (f0 : SlotSt → SlotSt) (d : Nat) : (s.modSender n0 f0).die d = s.die d := rfl
@[simp] theorem modSender_core_get (s : State) (n0 : Nat) (f0 : SlotSt → SlotSt) (d c : Nat) : (s.modSender n0 f0).core d c = s.core d c := rfl
@[simp] theorem modSender_loop_get (s : State) (n0 : Nat) (f0 : SlotSt → SlotSt) (d n : Nat) : (s.modSender n0 f0).loop d n = s.loop d n := rfl
@[simp] theorem modSender_lpe_get (s : State) (n0 : Nat) (f0 : SlotSt → SlotSt) (d : Nat) : (s.modSender n0 f0).lpe d = s.lpe d := rfl
@[simp] theorem modSender_chan_get (s : State) (n0 : Nat) (f0 : SlotSt → SlotSt) (c : Nat) : (s.modSender n0 f0).chan c = s.chan c := rfl
@[simp] theorem modSender_mot_get (s : State) (n0 : Nat) (f0 : SlotSt → SlotSt) (m : Nat) : (s.modSender n0 f0).mot m = s.mot m := rfl
@[simp] theorem modSender_atu_get (s : State) (n0 : Nat) (f0 : SlotSt → SlotSt) (d : Nat) : (s.modSender n0 f0).atu d = s.atu d := rfl
@[simp] theorem modSender_dma_get (s : State) (n0 : Nat) (f0 : SlotSt → SlotSt) (d : Nat) : (s.modSender n0 f0).dma d = s.dma d := rfl
@[simp] theorem modSender_hstDie_get (s : State) (n0 : Nat) (f0 : SlotSt → SlotSt) (d : Nat) : (s.modSender n0 f0).hstDie d = s.hstDie d := rfl
@[simp] theorem modSender_tport_get (s : State) (n0 : Nat) (f0 : SlotSt → SlotSt) (t : TrunkPort) : (s.modSender n0 f0).tport t = s.tport t := rfl
@[simp] theorem modSender_descOf_get (s : State) (n0 : Nat) (f0 : SlotSt → SlotSt) (m : Nat) : (s.modSender n0 f0).desc? m = s.desc? m := rfl
@[simp] theorem modSender_chanCfgOf_get (s : State) (n0 : Nat) (f0 : SlotSt → SlotSt) (c : Nat) : (s.modSender n0 f0).chanCfg? c = s.chanCfg? c := rfl
@[simp] theorem modSender_ainCfgOf_get (s : State) (n0 : Nat) (f0 : SlotSt → SlotSt) (k : Nat) : (s.modSender n0 f0).ainCfg? k = s.ainCfg? k := rfl
@[simp] theorem modSender_aoutCfgOf_get (s : State) (n0 : Nat) (f0 : SlotSt → SlotSt) (k : Nat) : (s.modSender n0 f0).aoutCfg? k = s.aoutCfg? k := rfl
@[simp] theorem modSender_motCfgOf_get (s : State) (n0 : Nat) (f0 : SlotSt → SlotSt) (m : Nat) : (s.modSender n0 f0).motCfg? m = s.motCfg? m := rfl
@[simp] theorem modSender_circuitCfgOf_get (s : State) (n0 : Nat) (f0 : SlotSt → SlotSt) (k : Nat) : (s.modSender n0 f0).circuitCfg? k = s.circuitCfg? k := rfl
@[simp] theorem modSender_vsetCfgOf_get (s : State) (n0 : Nat) (f0 : SlotSt → SlotSt) (k : Nat) : (s.modSender n0 f0).vsetCfg? k = s.vsetCfg? k := rfl
@[simp] theorem modSender_minputCfgOf_get (s : State) (n0 : Nat) (f0 : SlotSt → SlotSt) (k : Nat) : (s.modSender n0 f0).minputCfg? k = s.minputCfg? k := rfl
@[simp] theorem modSender_doorCfgOf_get (s : State) (n0 : Nat) (f0 : SlotSt → SlotSt) (d : Nat) : (s.modSender n0 f0).doorCfg? d = s.doorCfg? d := rfl
@[simp] theorem modSender_stationCfgOf_get (s : State) (n0 : Nat) (f0 : SlotSt → SlotSt) (k : Nat) : (s.modSender n0 f0).stationCfg? k = s.stationCfg? k := rfl
@[simp] theorem modSender_trendCfgOf_get (s : State) (n0 : Nat) (f0 : SlotSt → SlotSt) (n : Nat) : (s.modSender n0 f0).trendCfg? n = s.trendCfg? n := rfl
@[simp] theorem modSender_nodeCfgOf_get (s : State) (n0 : Nat) (f0 : SlotSt → SlotSt) (p a : Nat) : (s.modSender n0 f0).nodeCfg? p a = s.nodeCfg? p a := rfl
@[simp] theorem modSender_quota_get (s : State) (n0 : Nat) (f0 : SlotSt → SlotSt) (t : Tenant) : (s.modSender n0 f0).quota t = s.quota t := rfl
@[simp] theorem modSender_intBlk_get (s : State) (n0 : Nat) (f0 : SlotSt → SlotSt) (d : Nat) : (s.modSender n0 f0).intBlk d = s.intBlk d := rfl
@[simp] theorem modSender_newRec_get (s : State) (n0 : Nat) (f0 : SlotSt → SlotSt) (e : Event) : (s.modSender n0 f0).newRec e = s.newRec e := rfl
@[simp] theorem modSender_lossRec_get (s : State) (n0 : Nat) (f0 : SlotSt → SlotSt) (l : Loss) : (s.modSender n0 f0).lossRec l = s.lossRec l := rfl
@[simp] theorem modSender_histGenOf_get (s : State) (n0 : Nat) (f0 : SlotSt → SlotSt) (t : Tenant) : (s.modSender n0 f0).histGenOf t = s.histGenOf t := rfl
@[simp] theorem modSender_freeSeg_get (s : State) (n0 : Nat) (f0 : SlotSt → SlotSt)  : (s.modSender n0 f0).freeSeg  = s.freeSeg  := rfl
@[simp] theorem modSender_storeOn_get (s : State) (n0 : Nat) (f0 : SlotSt → SlotSt)  : (s.modSender n0 f0).storeOn  = s.storeOn  := rfl
@[simp] theorem modSender_staging_get (s : State) (n0 : Nat) (f0 : SlotSt → SlotSt) (d : Nat) (t : Tenant) : (s.modSender n0 f0).staging d t = s.staging d t := rfl
@[simp] theorem modSender_cell_get (s : State) (n0 : Nat) (f0 : SlotSt → SlotSt) (m : Nat) : (s.modSender n0 f0).cell m = s.cell m := rfl
@[simp] theorem modSender_cellFor_get (s : State) (n0 : Nat) (f0 : SlotSt → SlotSt) (t : Tenant) (m : Nat) : (s.modSender n0 f0).cellFor t m = s.cellFor t m := rfl
@[simp] theorem modSender_touches_get (s : State) (n0 : Nat) (f0 : SlotSt → SlotSt) (m : Nat) : (s.modSender n0 f0).touches m = s.touches m := rfl
@[simp] theorem modSender_forceCheck_get (s : State) (n0 : Nat) (f0 : SlotSt → SlotSt) (t : Tenant) (m : Nat) (release : Bool) : (s.modSender n0 f0).forceCheck t m release = s.forceCheck t m release := rfl
@[simp] theorem modSender_door_get (s : State) (n0 : Nat) (f0 : SlotSt → SlotSt) (d : Nat) : (s.modSender n0 f0).door d = s.door d := rfl
@[simp] theorem modSender_nodeState_get (s : State) (n0 : Nat) (f0 : SlotSt → SlotSt) (p a : Nat) : (s.modSender n0 f0).nodeState p a = s.nodeState p a := rfl
@[simp] theorem modSender_doorCode_get (s : State) (n0 : Nat) (f0 : SlotSt → SlotSt) (c : DoorCfg) : (s.modSender n0 f0).doorCode c = s.doorCode c := rfl
@[simp] theorem modSender_stationCode_get (s : State) (n0 : Nat) (f0 : SlotSt → SlotSt) (c : StationCfg) : (s.modSender n0 f0).stationCode c = s.stationCode c := rfl
@[simp] theorem modSender_accPoints_get (s : State) (n0 : Nat) (f0 : SlotSt → SlotSt) (kind n : Nat) : (s.modSender n0 f0).accPoints kind n = s.accPoints kind n := rfl
@[simp] theorem modSender_portOutputs_get (s : State) (n0 : Nat) (f0 : SlotSt → SlotSt) (p : Nat) : (s.modSender n0 f0).portOutputs p = s.portOutputs p := rfl
@[simp] theorem modSender_changedOutputs_get (s : State) (n0 : Nat) (f0 : SlotSt → SlotSt) (p : Nat) : (s.modSender n0 f0).changedOutputs p = s.changedOutputs p := rfl
@[simp] theorem modSender_nodePoints_get (s : State) (n0 : Nat) (f0 : SlotSt → SlotSt) (p a : Nat) : (s.modSender n0 f0).nodePoints p a = s.nodePoints p a := rfl
@[simp] theorem modSender_chanPoint_get (s : State) (n0 : Nat) (f0 : SlotSt → SlotSt) (p a ch : Nat) : (s.modSender n0 f0).chanPoint p a ch = s.chanPoint p a ch := rfl
@[simp] theorem modSender_localMinute_get (s : State) (n0 : Nat) (f0 : SlotSt → SlotSt)  : (s.modSender n0 f0).localMinute  = s.localMinute  := rfl
@[simp] theorem modSender_hasPort_get (s : State) (n0 : Nat) (f0 : SlotSt → SlotSt) (p : Nat) : (s.modSender n0 f0).hasPort p = s.hasPort p := rfl
@[simp] theorem modSender_rtcMsec_get (s : State) (n0 : Nat) (f0 : SlotSt → SlotSt)  : (s.modSender n0 f0).rtcMsec  = s.rtcMsec  := rfl
@[simp] theorem modSender_rtcCal_get (s : State) (n0 : Nat) (f0 : SlotSt → SlotSt)  : (s.modSender n0 f0).rtcCal  = s.rtcCal  := rfl
@[simp] theorem modSender_rtcView_get (s : State) (n0 : Nat) (f0 : SlotSt → SlotSt)  : (s.modSender n0 f0).rtcView  = s.rtcView  := rfl
@[simp] theorem modSender_sysBytes_get (s : State) (n0 : Nat) (f0 : SlotSt → SlotSt)  : (s.modSender n0 f0).sysBytes  = s.sysBytes  := rfl
@[simp] theorem modSender_routePort_get (s : State) (n0 : Nat) (f0 : SlotSt → SlotSt) (dst : Byte) : (s.modSender n0 f0).routePort dst = s.routePort dst := rfl
@[simp] theorem modSender_portReaches_get (s : State) (n0 : Nat) (f0 : SlotSt → SlotSt) (t : TrunkPort) : (s.modSender n0 f0).portReaches t = s.portReaches t := rfl
@[simp] theorem modSender_pickTimePort_get (s : State) (n0 : Nat) (f0 : SlotSt → SlotSt)  : (s.modSender n0 f0).pickTimePort  = s.pickTimePort  := rfl
@[simp] theorem modSender_paOk_get (s : State) (n0 : Nat) (f0 : SlotSt → SlotSt) (pa : Nat) : (s.modSender n0 f0).paOk pa = s.paOk pa := rfl
@[simp] theorem modSender_tag_get (s : State) (n0 : Nat) (f0 : SlotSt → SlotSt) (line : Nat) : (s.modSender n0 f0).tag line = s.tag line := rfl
@[simp] theorem modSender_owner_get (s : State) (n0 : Nat) (f0 : SlotSt → SlotSt) (page : Nat) : (s.modSender n0 f0).owner page = s.owner page := rfl
@[simp] theorem modSender_integGenOf_get (s : State) (n0 : Nat) (f0 : SlotSt → SlotSt) (t : Tenant) : (s.modSender n0 f0).integGenOf t = s.integGenOf t := rfl
@[simp] theorem modSender_tenantTable_get (s : State) (n0 : Nat) (f0 : SlotSt → SlotSt)  : (s.modSender n0 f0).tenantTable  = s.tenantTable  := rfl
@[simp] theorem modSender_ctxTenant_get (s : State) (n0 : Nat) (f0 : SlotSt → SlotSt) (ctx : Nat) : (s.modSender n0 f0).ctxTenant ctx = s.ctxTenant ctx := rfl
@[simp] theorem modSender_ctxOf_get (s : State) (n0 : Nat) (f0 : SlotSt → SlotSt) (t : Tenant) (cls : Nat) : (s.modSender n0 f0).ctxOf t cls = s.ctxOf t cls := rfl
@[simp] theorem modSender_dch_get (s : State) (n0 : Nat) (f0 : SlotSt → SlotSt) (d c : Nat) : (s.modSender n0 f0).dch d c = s.dch d c := rfl
@[simp] theorem modSender_imageBytes_get (s : State) (n0 : Nat) (f0 : SlotSt → SlotSt) (t : Tenant) (d off n : Nat) : (s.modSender n0 f0).imageBytes t d off n = s.imageBytes t d off n := rfl
@[simp] theorem modSender_ready_get (s : State) (n0 : Nat) (f0 : SlotSt → SlotSt) (d : Nat) : (s.modSender n0 f0).ready d = s.ready d := rfl
@[simp] theorem modSender_nextChan_get (s : State) (n0 : Nat) (f0 : SlotSt → SlotSt) (d : Nat) : (s.modSender n0 f0).nextChan d = s.nextChan d := rfl
@[simp] theorem modSender_dmaStopped_get (s : State) (n0 : Nat) (f0 : SlotSt → SlotSt) (d c : Nat) : (s.modSender n0 f0).dmaStopped d c = s.dmaStopped d c := rfl
@[simp] theorem modSender_dieUp_get (s : State) (n0 : Nat) (f0 : SlotSt → SlotSt) (d : Nat) : (s.modSender n0 f0).dieUp d = s.dieUp d := rfl
@[simp] theorem modSender_up_get (s : State) (n0 : Nat) (f0 : SlotSt → SlotSt)  : (s.modSender n0 f0).up  = s.up  := rfl
@[simp] theorem modSender_taskPoints_get (s : State) (n0 : Nat) (f0 : SlotSt → SlotSt) (d : Nat) (sel : Nat → Bool) : (s.modSender n0 f0).taskPoints d sel = s.taskPoints d sel := rfl
@[simp] theorem modSender_coreTask_get (s : State) (n0 : Nat) (f0 : SlotSt → SlotSt) (d c : Nat) : (s.modSender n0 f0).coreTask d c = s.coreTask d c := rfl
@[simp] theorem modSender_varWrites_get (s : State) (n0 : Nat) (f0 : SlotSt → SlotSt) (d : Nat) (ran : List Nat) : (s.modSender n0 f0).varWrites d ran = s.varWrites d ran := rfl
@[simp] theorem modSender_coreRuns_get (s : State) (n0 : Nat) (f0 : SlotSt → SlotSt) (d c : Nat) : (s.modSender n0 f0).coreRuns d c = s.coreRuns d c := rfl
@[simp] theorem modSender_beyond_get (s : State) (n0 : Nat) (f0 : SlotSt → SlotSt) (d c len : Nat) : (s.modSender n0 f0).beyond d c len = s.beyond d c len := rfl
@[simp] theorem modSender_accessTrap_get (s : State) (n0 : Nat) (f0 : SlotSt → SlotSt) (d c : Nat) (a : V24) (load : Bool) : (s.modSender n0 f0).accessTrap d c a load = s.accessTrap d c a load := rfl
@[simp] theorem modSender_loadWord_get (s : State) (n0 : Nat) (f0 : SlotSt → SlotSt) (d : Nat) (a : V24) : (s.modSender n0 f0).loadWord d a = s.loadWord d a := rfl
@[simp] theorem modSender_pointOk_get (s : State) (n0 : Nat) (f0 : SlotSt → SlotSt) (d c m : Nat) (out : Bool) : (s.modSender n0 f0).pointOk d c m out = s.pointOk d c m out := rfl
@[simp] theorem modSender_special_get (s : State) (n0 : Nat) (f0 : SlotSt → SlotSt) (d c i0 : Nat) : (s.modSender n0 f0).special d c i0 = s.special d c i0 := rfl
@[simp] theorem modSender_spillWords_get (s : State) (n0 : Nat) (f0 : SlotSt → SlotSt) (d c w : Nat) : (s.modSender n0 f0).spillWords d c w = s.spillWords d c w := rfl
@[simp] theorem modSender_spillLimit_get (s : State) (n0 : Nat) (f0 : SlotSt → SlotSt) (d c : Nat) : (s.modSender n0 f0).spillLimit d c = s.spillLimit d c := rfl
@[simp] theorem modSender_dieLoops_get (s : State) (n0 : Nat) (f0 : SlotSt → SlotSt) (d : Nat) : (s.modSender n0 f0).dieLoops d = s.dieLoops d := rfl
@[simp] theorem modSender_loopLoad_get (s : State) (n0 : Nat) (f0 : SlotSt → SlotSt) (d : Nat) : (s.modSender n0 f0).loopLoad d = s.loopLoad d := rfl
@[simp] theorem modSender_lpeLoad_get (s : State) (n0 : Nat) (f0 : SlotSt → SlotSt) (d : Nat) : (s.modSender n0 f0).lpeLoad d = s.lpeLoad d := rfl
@[simp] theorem modSender_unit_get (s : State) (n0 : Nat) (f0 : SlotSt → SlotSt) (d u : Nat) : (s.modSender n0 f0).unit d u = s.unit d u := rfl
@[simp] theorem modSender_unitOf_get (s : State) (n0 : Nat) (f0 : SlotSt → SlotSt) (d n : Nat) (p : TestUnit → Bool) : (s.modSender n0 f0).unitOf d n p = s.unitOf d n p := rfl
@[simp] theorem modSender_loopPv_get (s : State) (n0 : Nat) (f0 : SlotSt → SlotSt) (d : Nat) (c : LoopCfg) : (s.modSender n0 f0).loopPv d c = s.loopPv d c := rfl
@[simp] theorem modSender_loopSp_get (s : State) (n0 : Nat) (f0 : SlotSt → SlotSt) (d : Nat) (c : LoopCfg) : (s.modSender n0 f0).loopSp d c = s.loopSp d c := rfl
@[simp] theorem modSender_loopDest_get (s : State) (n0 : Nat) (f0 : SlotSt → SlotSt) (x : LoopSlot) (c : LoopCfg) : (s.modSender n0 f0).loopDest x c = s.loopDest x c := rfl
@[simp] theorem modSender_loopForced_get (s : State) (n0 : Nat) (f0 : SlotSt → SlotSt) (c : LoopCfg) : (s.modSender n0 f0).loopForced c = s.loopForced c := rfl
@[simp] theorem modSender_slotStat_get (s : State) (n0 : Nat) (f0 : SlotSt → SlotSt) (d n : Nat) : (s.modSender n0 f0).slotStat d n = s.slotStat d n := rfl
@[simp] theorem modSender_loopHeld_get (s : State) (n0 : Nat) (f0 : SlotSt → SlotSt) (d : Nat) (c : LoopCfg) : (s.modSender n0 f0).loopHeld d c = s.loopHeld d c := rfl
@[simp] theorem modSender_localSlots_get (s : State) (n0 : Nat) (f0 : SlotSt → SlotSt)  : (s.modSender n0 f0).localSlots  = s.localSlots  := rfl
@[simp] theorem modSender_group_get (s : State) (n0 : Nat) (f0 : SlotSt → SlotSt) (g : Nat) : (s.modSender n0 f0).group g = s.group g := rfl
@[simp] theorem modSender_ccfg_get (s : State) (n0 : Nat) (f0 : SlotSt → SlotSt) (c : Nat) : (s.modSender n0 f0).ccfg c = s.ccfg c := rfl
@[simp] theorem modSender_motionOwns_get (s : State) (n0 : Nat) (f0 : SlotSt → SlotSt) (c : Nat) : (s.modSender n0 f0).motionOwns c = s.motionOwns c := rfl
@[simp] theorem modSender_legOf_get (s : State) (n0 : Nat) (f0 : SlotSt → SlotSt) (c : Nat) : (s.modSender n0 f0).legOf c = s.legOf c := rfl
@[simp] theorem modSender_isPulse_get (s : State) (n0 : Nat) (f0 : SlotSt → SlotSt) (c : Nat) : (s.modSender n0 f0).isPulse c = s.isPulse c := rfl
@[simp] theorem modSender_isOut_get (s : State) (n0 : Nat) (f0 : SlotSt → SlotSt) (c : Nat) : (s.modSender n0 f0).isOut c = s.isOut c := rfl
@[simp] theorem modSender_retryReady_get (s : State) (n0 : Nat) (f0 : SlotSt → SlotSt) (c : Nat) : (s.modSender n0 f0).retryReady c = s.retryReady c := rfl
@[simp] theorem modSender_driven_get (s : State) (n0 : Nat) (f0 : SlotSt → SlotSt)  : (s.modSender n0 f0).driven  = s.driven  := rfl
@[simp] theorem modSender_outChans_get (s : State) (n0 : Nat) (f0 : SlotSt → SlotSt)  : (s.modSender n0 f0).outChans  = s.outChans  := rfl
@[simp] theorem modSender_chValue_get (s : State) (n0 : Nat) (f0 : SlotSt → SlotSt) (c : Nat) : (s.modSender n0 f0).chValue c = s.chValue c := rfl
@[simp] theorem modSender_chQual_get (s : State) (n0 : Nat) (f0 : SlotSt → SlotSt) (c : Nat) : (s.modSender n0 f0).chQual c = s.chQual c := rfl
@[simp] theorem modSender_chWrites_get (s : State) (n0 : Nat) (f0 : SlotSt → SlotSt) (sel : Nat → Bool) : (s.modSender n0 f0).chWrites sel = s.chWrites sel := rfl
@[simp] theorem modSender_ainValue_get (s : State) (n0 : Nat) (f0 : SlotSt → SlotSt) (k : Nat) : (s.modSender n0 f0).ainValue k = s.ainValue k := rfl
@[simp] theorem modSender_ainWrites_get (s : State) (n0 : Nat) (f0 : SlotSt → SlotSt)  : (s.modSender n0 f0).ainWrites  = s.ainWrites  := rfl
@[simp] theorem modSender_limitOn_get (s : State) (n0 : Nat) (f0 : SlotSt → SlotSt) (m : Nat) (home : Bool) : (s.modSender n0 f0).limitOn m home = s.limitOn m home := rfl
@[simp] theorem modSender_motTenant_get (s : State) (n0 : Nat) (f0 : SlotSt → SlotSt) (m : Nat) : (s.modSender n0 f0).motTenant m = s.motTenant m := rfl
@[simp] theorem modSender_motState_get (s : State) (n0 : Nat) (f0 : SlotSt → SlotSt) (m : Nat) : (s.modSender n0 f0).motState m = s.motState m := rfl
@[simp] theorem modSender_logicAlive_get (s : State) (n0 : Nat) (f0 : SlotSt → SlotSt)  : (s.modSender n0 f0).logicAlive  = s.logicAlive  := rfl
@[simp] theorem modSender_latestOn_get (s : State) (n0 : Nat) (f0 : SlotSt → SlotSt) (g : Nat) : (s.modSender n0 f0).latestOn g = s.latestOn g := rfl
@[simp] theorem modSender_margin_get (s : State) (n0 : Nat) (f0 : SlotSt → SlotSt)  : (s.modSender n0 f0).margin  = s.margin  := rfl
@[simp] theorem modSender_stSkips_get (s : State) (n0 : Nat) (f0 : SlotSt → SlotSt) (c : Nat) : (s.modSender n0 f0).stSkips c = s.stSkips c := rfl
@[simp] theorem modSender_stNext_get (s : State) (n0 : Nat) (f0 : SlotSt → SlotSt) (k : Nat) : (s.modSender n0 f0).stNext k = s.stNext k := rfl
@[simp] theorem modSender_mcfg_get (s : State) (n0 : Nat) (f0 : SlotSt → SlotSt) (c : Nat) : (s.modSender n0 f0).mcfg c = s.mcfg c := rfl
@[simp] theorem modSender_minput_get (s : State) (n0 : Nat) (f0 : SlotSt → SlotSt) (c : Nat) : (s.modSender n0 f0).minput c = s.minput c := rfl
@[simp] theorem modSender_calRun_get (s : State) (n0 : Nat) (f0 : SlotSt → SlotSt) (c : Nat) (set : CalSet) : (s.modSender n0 f0).calRun c set = s.calRun c set := rfl
@[simp] theorem modSender_calList_get (s : State) (n0 : Nat) (f0 : SlotSt → SlotSt) (c : Nat) : (s.modSender n0 f0).calList c = s.calList c := rfl
@[simp] theorem modSender_circuit_get (s : State) (n0 : Nat) (f0 : SlotSt → SlotSt) (k : Nat) : (s.modSender n0 f0).circuit k = s.circuit k := rfl
@[simp] theorem modSender_vset_get (s : State) (n0 : Nat) (f0 : SlotSt → SlotSt) (v : Nat) : (s.modSender n0 f0).vset v = s.vset v := rfl
@[simp] theorem modSender_inUse_get (s : State) (n0 : Nat) (f0 : SlotSt → SlotSt) (c : Nat) : (s.modSender n0 f0).inUse c = s.inUse c := rfl
@[simp] theorem modSender_heldValue_get (s : State) (n0 : Nat) (f0 : SlotSt → SlotSt) (m : Nat) : (s.modSender n0 f0).heldValue m = s.heldValue m := rfl
@[simp] theorem modSender_mtrPoints_get (s : State) (n0 : Nat) (f0 : SlotSt → SlotSt) (k : Nat) (sel : Nat → Bool) : (s.modSender n0 f0).mtrPoints k sel = s.mtrPoints k sel := rfl
@[simp] theorem modSender_calQual_get (s : State) (n0 : Nat) (f0 : SlotSt → SlotSt) (l : List Nat) : (s.modSender n0 f0).calQual l = s.calQual l := rfl
@[simp] theorem modSender_periodOf_get (s : State) (n0 : Nat) (f0 : SlotSt → SlotSt) (set : Nat) : (s.modSender n0 f0).periodOf set = s.periodOf set := rfl
@[simp] theorem modSender_phaseSum_get (s : State) (n0 : Nat) (f0 : SlotSt → SlotSt) (set : Nat) (p : PhaseRef) : (s.modSender n0 f0).phaseSum set p = s.phaseSum set p := rfl
@[simp] theorem modSender_energyOf_get (s : State) (n0 : Nat) (f0 : SlotSt → SlotSt) (set : Nat) (p : PhaseRef) (test : Bool) : (s.modSender n0 f0).energyOf set p test = s.energyOf set p test := rfl
@[simp] theorem modSender_testHits_get (s : State) (n0 : Nat) (f0 : SlotSt → SlotSt) (c : CircuitCfg) : (s.modSender n0 f0).testHits c = s.testHits c := rfl
@[simp] theorem modSender_neutral_get (s : State) (n0 : Nat) (f0 : SlotSt → SlotSt) (c : CircuitCfg) : (s.modSender n0 f0).neutral c = s.neutral c := rfl
@[simp] theorem modSender_phaseLow_get (s : State) (n0 : Nat) (f0 : SlotSt → SlotSt) (input nominal : Nat) : (s.modSender n0 f0).phaseLow input nominal = s.phaseLow input nominal := rfl
@[simp] theorem modSender_circOut_get (s : State) (n0 : Nat) (f0 : SlotSt → SlotSt) (c : CircuitCfg) : (s.modSender n0 f0).circOut c = s.circOut c := rfl
@[simp] theorem modSender_secondQuant_get (s : State) (n0 : Nat) (f0 : SlotSt → SlotSt) (c : CircuitCfg) (o : CircOut) (phase code : Nat) : (s.modSender n0 f0).secondQuant c o phase code = s.secondQuant c o phase code := rfl
@[simp] theorem modSender_secondWrites_get (s : State) (n0 : Nat) (f0 : SlotSt → SlotSt) (c : CircuitCfg) (o : CircOut) : (s.modSender n0 f0).secondWrites c o = s.secondWrites c o := rfl
@[simp] theorem modSender_harmBadWrites_get (s : State) (n0 : Nat) (f0 : SlotSt → SlotSt)  : (s.modSender n0 f0).harmBadWrites  = s.harmBadWrites  := rfl
@[simp] theorem modSender_harmInputs_get (s : State) (n0 : Nat) (f0 : SlotSt → SlotSt) (set : Nat) : (s.modSender n0 f0).harmInputs set = s.harmInputs set := rfl
@[simp] theorem modSender_harmTested_get (s : State) (n0 : Nat) (f0 : SlotSt → SlotSt) (inputs : Nat) (start : Nat) : (s.modSender n0 f0).harmTested inputs start = s.harmTested inputs start := rfl
@[simp] theorem modSender_gainDev_get (s : State) (n0 : Nat) (f0 : SlotSt → SlotSt) (c : Nat) : (s.modSender n0 f0).gainDev c = s.gainDev c := rfl
@[simp] theorem modSender_holdsKey_get (s : State) (n0 : Nat) (f0 : SlotSt → SlotSt) (t : Tenant) (b : Block) : (s.modSender n0 f0).holdsKey t b = s.holdsKey t b := rfl
@[simp] theorem modSender_exyan_get (s : State) (n0 : Nat) (f0 : SlotSt → SlotSt)  : (s.modSender n0 f0).exyan  = s.exyan  := rfl
@[simp] theorem modSender_wmkSum_get (s : State) (n0 : Nat) (f0 : SlotSt → SlotSt)  : (s.modSender n0 f0).wmkSum  = s.wmkSum  := rfl
@[simp] theorem modSender_countCells_get (s : State) (n0 : Nat) (f0 : SlotSt → SlotSt) (d : Nat) (p : Cell → Bool) : (s.modSender n0 f0).countCells d p = s.countCells d p := rfl
@[simp] theorem modSender_pntRead_get (s : State) (n0 : Nat) (f0 : SlotSt → SlotSt) (t : Tenant) (d o : Nat) : (s.modSender n0 f0).pntRead t d o = s.pntRead t d o := rfl
@[simp] theorem modSender_brpRead_get (s : State) (n0 : Nat) (f0 : SlotSt → SlotSt) (d o : Nat) : (s.modSender n0 f0).brpRead d o = s.brpRead d o := rfl
@[simp] theorem modSender_slotFor_get (s : State) (n0 : Nat) (f0 : SlotSt → SlotSt) (t : Tenant) (d n : Nat) : (s.modSender n0 f0).slotFor t d n = s.slotFor t d n := rfl
@[simp] theorem modSender_slotWord_get (s : State) (n0 : Nat) (f0 : SlotSt → SlotSt) (d n a : Nat) (c : LoopCfg) : (s.modSender n0 f0).slotWord d n a c = s.slotWord d n a c := rfl
@[simp] theorem modSender_lpeRead_get (s : State) (n0 : Nat) (f0 : SlotSt → SlotSt) (t : Tenant) (d o : Nat) : (s.modSender n0 f0).lpeRead t d o = s.lpeRead t d o := rfl
@[simp] theorem modSender_lscRead_get (s : State) (n0 : Nat) (f0 : SlotSt → SlotSt) (d o : Nat) : (s.modSender n0 f0).lscRead d o = s.lscRead d o := rfl
@[simp] theorem modSender_dmaChWord_get (s : State) (n0 : Nat) (f0 : SlotSt → SlotSt) (d c a : Nat) : (s.modSender n0 f0).dmaChWord d c a = s.dmaChWord d c a := rfl
@[simp] theorem modSender_dmaReg_get (s : State) (n0 : Nat) (f0 : SlotSt → SlotSt) (d o : Nat) : (s.modSender n0 f0).dmaReg d o = s.dmaReg d o := rfl
@[simp] theorem modSender_atuReg_get (s : State) (n0 : Nat) (f0 : SlotSt → SlotSt) (d o : Nat) : (s.modSender n0 f0).atuReg d o = s.atuReg d o := rfl
@[simp] theorem modSender_trkStatus_get (s : State) (n0 : Nat) (f0 : SlotSt → SlotSt) (t : TrunkPort) : (s.modSender n0 f0).trkStatus t = s.trkStatus t := rfl
@[simp] theorem modSender_trkTm_get (s : State) (n0 : Nat) (f0 : SlotSt → SlotSt)  : (s.modSender n0 f0).trkTm  = s.trkTm  := rfl
@[simp] theorem modSender_fioStatus_get (s : State) (n0 : Nat) (f0 : SlotSt → SlotSt)  : (s.modSender n0 f0).fioStatus  = s.fioStatus  := rfl
@[simp] theorem modSender_groupWord_get (s : State) (n0 : Nat) (f0 : SlotSt → SlotSt) (g : Nat) : (s.modSender n0 f0).groupWord g = s.groupWord g := rfl
@[simp] theorem modSender_chanBits_get (s : State) (n0 : Nat) (f0 : SlotSt → SlotSt) (p : ChanSt → Bool) : (s.modSender n0 f0).chanBits p = s.chanBits p := rfl
@[simp] theorem modSender_chCfgWord_get (s : State) (n0 : Nat) (f0 : SlotSt → SlotSt) (c : Nat) : (s.modSender n0 f0).chCfgWord c = s.chCfgWord c := rfl
@[simp] theorem modSender_chInWord_get (s : State) (n0 : Nat) (f0 : SlotSt → SlotSt) (c : Nat) : (s.modSender n0 f0).chInWord c = s.chInWord c := rfl
@[simp] theorem modSender_chStatWord_get (s : State) (n0 : Nat) (f0 : SlotSt → SlotSt) (c : Nat) : (s.modSender n0 f0).chStatWord c = s.chStatWord c := rfl
@[simp] theorem modSender_chCntWord_get (s : State) (n0 : Nat) (f0 : SlotSt → SlotSt) (c : Nat) : (s.modSender n0 f0).chCntWord c = s.chCntWord c := rfl
@[simp] theorem modSender_motWord_get (s : State) (n0 : Nat) (f0 : SlotSt → SlotSt) (m a : Nat) : (s.modSender n0 f0).motWord m a = s.motWord m a := rfl
@[simp] theorem modSender_fioReg_get (s : State) (n0 : Nat) (f0 : SlotSt → SlotSt) (o : Nat) : (s.modSender n0 f0).fioReg o = s.fioReg o := rfl
@[simp] theorem modSender_mtrStatus_get (s : State) (n0 : Nat) (f0 : SlotSt → SlotSt)  : (s.modSender n0 f0).mtrStatus  = s.mtrStatus  := rfl
@[simp] theorem modSender_vsetWord_get (s : State) (n0 : Nat) (f0 : SlotSt → SlotSt) (n a : Nat) : (s.modSender n0 f0).vsetWord n a = s.vsetWord n a := rfl
@[simp] theorem modSender_minputWord_get (s : State) (n0 : Nat) (f0 : SlotSt → SlotSt) (c a : Nat) : (s.modSender n0 f0).minputWord c a = s.minputWord c a := rfl
@[simp] theorem modSender_circuitWord_get (s : State) (n0 : Nat) (f0 : SlotSt → SlotSt) (k a : Nat) : (s.modSender n0 f0).circuitWord k a = s.circuitWord k a := rfl
@[simp] theorem modSender_mtrReg_get (s : State) (n0 : Nat) (f0 : SlotSt → SlotSt) (o : Nat) : (s.modSender n0 f0).mtrReg o = s.mtrReg o := rfl
@[simp] theorem modSender_hstStatus_get (s : State) (n0 : Nat) (f0 : SlotSt → SlotSt) (d : Nat) : (s.modSender n0 f0).hstStatus d = s.hstStatus d := rfl
@[simp] theorem modSender_hstReg_get (s : State) (n0 : Nat) (f0 : SlotSt → SlotSt) (d o : Nat) : (s.modSender n0 f0).hstReg d o = s.hstReg d o := rfl
@[simp] theorem modSender_evrReg_get (s : State) (n0 : Nat) (f0 : SlotSt → SlotSt) (o : Nat) : (s.modSender n0 f0).evrReg o = s.evrReg o := rfl
@[simp] theorem modSender_userWord_get (s : State) (n0 : Nat) (f0 : SlotSt → SlotSt) (n : Nat) : (s.modSender n0 f0).userWord n = s.userWord n := rfl
@[simp] theorem modSender_rtcReg_get (s : State) (n0 : Nat) (f0 : SlotSt → SlotSt) (o : Nat) : (s.modSender n0 f0).rtcReg o = s.rtcReg o := rfl
@[simp] theorem modSender_secVault_get (s : State) (n0 : Nat) (f0 : SlotSt → SlotSt)  : (s.modSender n0 f0).secVault  = s.secVault  := rfl
@[simp] theorem modSender_secBark_get (s : State) (n0 : Nat) (f0 : SlotSt → SlotSt)  : (s.modSender n0 f0).secBark  = s.secBark  := rfl
@[simp] theorem modSender_secFuse_get (s : State) (n0 : Nat) (f0 : SlotSt → SlotSt)  : (s.modSender n0 f0).secFuse  = s.secFuse  := rfl
@[simp] theorem modSender_secReg_get (s : State) (n0 : Nat) (f0 : SlotSt → SlotSt) (o : Nat) : (s.modSender n0 f0).secReg o = s.secReg o := rfl
@[simp] theorem modSender_hasBlock_get (s : State) (n0 : Nat) (f0 : SlotSt → SlotSt) (d b : Nat) : (s.modSender n0 f0).hasBlock d b = s.hasBlock d b := rfl
@[simp] theorem modSender_devId_get (s : State) (n0 : Nat) (f0 : SlotSt → SlotSt)  : (s.modSender n0 f0).devId  = s.devId  := rfl
@[simp] theorem modSender_poisonedLines_get (s : State) (n0 : Nat) (f0 : SlotSt → SlotSt) (d : Nat) : (s.modSender n0 f0).poisonedLines d = s.poisonedLines d := rfl
@[simp] theorem modSender_credSlot_get (s : State) (n0 : Nat) (f0 : SlotSt → SlotSt) (n : Nat) : (s.modSender n0 f0).credSlot n = s.credSlot n := rfl
@[simp] theorem modSender_credPasses_get (s : State) (n0 : Nat) (f0 : SlotSt → SlotSt) (n : Nat) (c : CredTry) : (s.modSender n0 f0).credPasses n c = s.credPasses n c := by
  have d : (s.modSender n0 f0).host.serial = s.host.serial := by simp only [State.modSender, State.setSender]; split <;> rfl
  have e : (s.modSender n0 f0).counterDigest c = s.counterDigest c := by unfold State.counterDigest; rw [d]
  unfold State.credPasses; rw [e]; rfl
@[simp] theorem modSender_countNodes_get (s : State) (n0 : Nat) (f0 : SlotSt → SlotSt) (p : Nat) (st : Presence) : (s.modSender n0 f0).countNodes p st = s.countNodes p st := rfl
@[simp] theorem modSender_brWords_get (s : State) (n0 : Nat) (f0 : SlotSt → SlotSt) (p a n : Nat) : (s.modSender n0 f0).brWords p a n = s.brWords p a n := rfl
@[simp] theorem modSender_lacking_get (s : State) (n0 : Nat) (f0 : SlotSt → SlotSt) (m : Byte) : (s.modSender n0 f0).lacking m = s.lacking m := rfl
@[simp] theorem modSender_chanSeen_get (s : State) (n0 : Nat) (f0 : SlotSt → SlotSt) (t : Tenant) (c : Nat) : (s.modSender n0 f0).chanSeen t c = s.chanSeen t c := rfl
@[simp] theorem modSender_inputSeen_get (s : State) (n0 : Nat) (f0 : SlotSt → SlotSt) (t : Tenant) (c : Nat) : (s.modSender n0 f0).inputSeen t c = s.inputSeen t c := rfl
@[simp] theorem modSender_readerDoor_get (s : State) (n0 : Nat) (f0 : SlotSt → SlotSt) (p a r0 : Nat) : (s.modSender n0 f0).readerDoor p a r0 = s.readerDoor p a r0 := rfl
@[simp] theorem modSender_scheduleOf_get (s : State) (n0 : Nat) (f0 : SlotSt → SlotSt) (n : Nat) : (s.modSender n0 f0).schedule? n = s.schedule? n := rfl
@[simp] theorem modSender_validNow_get (s : State) (n0 : Nat) (f0 : SlotSt → SlotSt) (r0 : Cred) : (s.modSender n0 f0).validNow r0 = s.validNow r0 := rfl
@[simp] theorem modSender_schedNow_get (s : State) (n0 : Nat) (f0 : SlotSt → SlotSt) (r0 : Cred) : (s.modSender n0 f0).schedNow r0 = s.schedNow r0 := rfl
@[simp] theorem modSender_passbackBad_get (s : State) (n0 : Nat) (f0 : SlotSt → SlotSt) (c : DoorCfg) (i0 : Nat) (r0 : Cred) : (s.modSender n0 f0).passbackBad c i0 r0 = s.passbackBad c i0 r0 := rfl
@[simp] theorem modSender_judgeRecord_get (s : State) (n0 : Nat) (f0 : SlotSt → SlotSt) (c : DoorCfg) (method : Byte) (i0 : Nat) (r0 : Cred) : (s.modSender n0 f0).judgeRecord c method i0 r0 = s.judgeRecord c method i0 r0 := rfl
@[simp] theorem modSender_matching_get (s : State) (n0 : Nat) (f0 : SlotSt → SlotSt) (cid : Uid) : (s.modSender n0 f0).matching cid = s.matching cid := rfl
@[simp] theorem modSender_qualify_get (s : State) (n0 : Nat) (f0 : SlotSt → SlotSt) (c : DoorCfg) : (s.modSender n0 f0).qualify c = s.qualify c := rfl
@[simp] theorem modSender_cut_get (s : State) (n0 : Nat) (f0 : SlotSt → SlotSt) (c : DoorCfg) (l : List (Nat × Cred)) : (s.modSender n0 f0).cut c l = s.cut c l := rfl
@[simp] theorem modSender_selection_get (s : State) (n0 : Nat) (f0 : SlotSt → SlotSt) (c : DoorCfg) : (s.modSender n0 f0).selection c = s.selection c := rfl
@[simp] theorem modSender_hasCache_get (s : State) (n0 : Nat) (f0 : SlotSt → SlotSt) (c : DoorCfg) : (s.modSender n0 f0).hasCache c = s.hasCache c := rfl
@[simp] theorem modSender_cacheScheds_get (s : State) (n0 : Nat) (f0 : SlotSt → SlotSt) (x : List Nat) : (s.modSender n0 f0).cacheScheds x = s.cacheScheds x := rfl
@[simp] theorem modSender_doorStation_get (s : State) (n0 : Nat) (f0 : SlotSt → SlotSt) (c : DoorCfg) : (s.modSender n0 f0).doorStation c = s.doorStation c := rfl
@[simp] theorem modSender_entryOk_get (s : State) (n0 : Nat) (f0 : SlotSt → SlotSt) (t : Tenant) (e : BitVec 16) : (s.modSender n0 f0).entryOk t e = s.entryOk t e := rfl
@[simp] theorem modSender_inTable_get (s : State) (n0 : Nat) (f0 : SlotSt → SlotSt) (t : Tenant) : (s.modSender n0 f0).inTable t = s.inTable t := rfl
@[simp] theorem modSender_recordOf_get (s : State) (n0 : Nat) (f0 : SlotSt → SlotSt) (t : Tenant) (i0 : Nat) : (s.modSender n0 f0).record? t i0 = s.record? t i0 := rfl
@[simp] theorem modSender_doorFor_get (s : State) (n0 : Nat) (f0 : SlotSt → SlotSt) (t : Tenant) (d : Nat) : (s.modSender n0 f0).doorFor t d = s.doorFor t d := rfl
@[simp] theorem modSender_loadRules_get (s : State) (n0 : Nat) (f0 : SlotSt → SlotSt) (g : Image) : (s.modSender n0 f0).loadRules g = s.loadRules g := rfl
@[simp] theorem modSender_brokenRule_get (s : State) (n0 : Nat) (f0 : SlotSt → SlotSt) (g : Image) : (s.modSender n0 f0).brokenRule g = s.brokenRule g := rfl
@[simp] theorem modSender_copy_get (s : State) (n0 : Nat) (f0 : SlotSt → SlotSt) (b : Bool) : (s.modSender n0 f0).copy b = s.copy b := rfl
@[simp] theorem modSender_copyValid_get (s : State) (n0 : Nat) (f0 : SlotSt → SlotSt) (b : Bool) : (s.modSender n0 f0).copyValid b = s.copyValid b := rfl
@[simp] theorem modSender_copies_get (s : State) (n0 : Nat) (f0 : SlotSt → SlotSt)  : (s.modSender n0 f0).copies  = s.copies  := rfl
@[simp] theorem modSender_keptTime_get (s : State) (n0 : Nat) (f0 : SlotSt → SlotSt)  : (s.modSender n0 f0).keptTime  = s.keptTime  := rfl
@[simp] theorem modSender_goodLinks_get (s : State) (n0 : Nat) (f0 : SlotSt → SlotSt)  : (s.modSender n0 f0).goodLinks  = s.goodLinks  := rfl
@[simp] theorem modSender_reached_get (s : State) (n0 : Nat) (f0 : SlotSt → SlotSt)  : (s.modSender n0 f0).reached  = s.reached  := rfl
@[simp] theorem modSender_seedCause_get (s : State) (n0 : Nat) (f0 : SlotSt → SlotSt) (failed : Bool) : (s.modSender n0 f0).seedCause failed = s.seedCause failed := rfl
@[simp] theorem modSender_runs_get (s : State) (n0 : Nat) (f0 : SlotSt → SlotSt)  : (s.modSender n0 f0).runs  = s.runs  := rfl
@[simp] theorem modSender_bootable_get (s : State) (n0 : Nat) (f0 : SlotSt → SlotSt) (b : Bool) : (s.modSender n0 f0).bootable b = s.bootable b := rfl
@[simp] theorem modSender_wavePorts_get (s : State) (n0 : Nat) (f0 : SlotSt → SlotSt)  : (s.modSender n0 f0).wavePorts  = s.wavePorts  := rfl
@[simp] theorem modSender_unmet_get (s : State) (n0 : Nat) (f0 : SlotSt → SlotSt)  : (s.modSender n0 f0).unmet  = s.unmet  := rfl
@[simp] theorem modSender_fwCheck_get (s : State) (n0 : Nat) (f0 : SlotSt → SlotSt) (h0 : FwHeader) : (s.modSender n0 f0).fwCheck h0 = s.fwCheck h0 := rfl
@[simp] theorem modSender_provisionBad_get (s : State) (n0 : Nat) (f0 : SlotSt → SlotSt) (pr : Provision) : (s.modSender n0 f0).provisionBad pr = s.provisionBad pr := rfl
@[simp] theorem modSender_signed_get (s : State) (n0 : Nat) (f0 : SlotSt → SlotSt) (ck : ImageCheck) : (s.modSender n0 f0).signed ck = s.signed ck := rfl
@[simp] theorem modSender_writeTarget_get (s : State) (n0 : Nat) (f0 : SlotSt → SlotSt)  : (s.modSender n0 f0).writeTarget  = s.writeTarget  := rfl
@[simp] theorem modSender_nextCopySeq_get (s : State) (n0 : Nat) (f0 : SlotSt → SlotSt)  : (s.modSender n0 f0).nextCopySeq  = s.nextCopySeq  := rfl
@[simp] theorem begun_host_fw (s : State) (r : Req) (h : ReqHead) (i : Nat) : (s.begun r h i).host.fw = s.host.fw := by
  unfold State.begun State.modSender State.setSender; dsimp only; split <;> rfl
@[simp] theorem begun_host_serial (s : State) (r : Req) (h : ReqHead) (i : Nat) : (s.begun r h i).host.serial = s.host.serial := by
  unfold State.begun State.modSender State.setSender; dsimp only; split <;> rfl
@[simp] theorem begun_host_serialHi (s : State) (r : Req) (h : ReqHead) (i : Nat) : (s.begun r h i).host.serialHi = s.host.serialHi := by
  unfold State.begun State.modSender State.setSender; dsimp only; split <;> rfl
@[simp] theorem begun_host_mbxRdy (s : State) (r : Req) (h : ReqHead) (i : Nat) : (s.begun r h i).host.mbxRdy = s.host.mbxRdy := by
  unfold State.begun State.modSender State.setSender; dsimp only; split <;> rfl
@[simp] theorem begun_host_cfgOk (s : State) (r : Req) (h : ReqHead) (i : Nat) : (s.begun r h i).host.cfgOk = s.host.cfgOk := by
  unfold State.begun State.modSender State.setSender; dsimp only; split <;> rfl
@[simp] theorem begun_host_heartbeat (s : State) (r : Req) (h : ReqHead) (i : Nat) : (s.begun r h i).host.heartbeat = s.host.heartbeat := by
  unfold State.begun State.modSender State.setSender; dsimp only; split <;> rfl
@[simp] theorem begun_host_badAcc (s : State) (r : Req) (h : ReqHead) (i : Nat) : (s.begun r h i).host.badAcc = s.host.badAcc := by
  unfold State.begun State.modSender State.setSender; dsimp only; split <;> rfl
@[simp] theorem begun_host_win (s : State) (r : Req) (h : ReqHead) (i : Nat) : (s.begun r h i).host.win = s.host.win := by
  unfold State.begun State.modSender State.setSender; dsimp only; split <;> rfl
@[simp] theorem begun_host_intWmk (s : State) (r : Req) (h : ReqHead) (i : Nat) : (s.begun r h i).host.intWmk = s.host.intWmk := by
  unfold State.begun State.modSender State.setSender; dsimp only; split <;> rfl
@[simp] theorem begun_host_intDev (s : State) (r : Req) (h : ReqHead) (i : Nat) : (s.begun r h i).host.intDev = s.host.intDev := by
  unfold State.begun State.modSender State.setSender; dsimp only; split <;> rfl
@[simp] theorem begun_host_intMbx (s : State) (r : Req) (h : ReqHead) (i : Nat) : (s.begun r h i).host.intMbx = s.host.intMbx := by
  unfold State.begun State.modSender State.setSender; dsimp only; split <;> rfl
@[simp] theorem begun_host_intMask (s : State) (r : Req) (h : ReqHead) (i : Nat) : (s.begun r h i).host.intMask = s.host.intMask := by
  unfold State.begun State.modSender State.setSender; dsimp only; split <;> rfl
@[simp] theorem begun_host_vectors (s : State) (r : Req) (h : ReqHead) (i : Nat) : (s.begun r h i).host.vectors = s.host.vectors := by
  unfold State.begun State.modSender State.setSender; dsimp only; split <;> rfl
@[simp] theorem begun_host_irqLine (s : State) (r : Req) (h : ReqHead) (i : Nat) : (s.begun r h i).host.irqLine = s.host.irqLine := by
  unfold State.begun State.modSender State.setSender; dsimp only; split <;> rfl
@[simp] theorem begun_host_wmks (s : State) (r : Req) (h : ReqHead) (i : Nat) : (s.begun r h i).host.wmks = s.host.wmks := by
  unfold State.begun State.modSender State.setSender; dsimp only; split <;> rfl
@[simp] theorem begun_host_wmkSec (s : State) (r : Req) (h : ReqHead) (i : Nat) : (s.begun r h i).host.wmkSec = s.host.wmkSec := by
  unfold State.begun State.modSender State.setSender; dsimp only; split <;> rfl
@[simp] theorem begun_host_wmkMin (s : State) (r : Req) (h : ReqHead) (i : Nat) : (s.begun r h i).host.wmkMin = s.host.wmkMin := by
  unfold State.begun State.modSender State.setSender; dsimp only; split <;> rfl
@[simp] theorem begun_host_wmkAcc (s : State) (r : Req) (h : ReqHead) (i : Nat) : (s.begun r h i).host.wmkAcc = s.host.wmkAcc := by
  unfold State.begun State.modSender State.setSender; dsimp only; split <;> rfl
@[simp] theorem begun_host_wmkRate (s : State) (r : Req) (h : ReqHead) (i : Nat) : (s.begun r h i).host.wmkRate = s.host.wmkRate := by
  unfold State.begun State.modSender State.setSender; dsimp only; split <;> rfl
@[simp] theorem begun_host_wmkHist (s : State) (r : Req) (h : ReqHead) (i : Nat) : (s.begun r h i).host.wmkHist = s.host.wmkHist := by
  unfold State.begun State.modSender State.setSender; dsimp only; split <;> rfl
@[simp] theorem begun_host_snap (s : State) (r : Req) (h : ReqHead) (i : Nat) : (s.begun r h i).host.snap = s.host.snap := by
  unfold State.begun State.modSender State.setSender; dsimp only; split <;> rfl
@[simp] theorem begun_host_d3 (s : State) (r : Req) (h : ReqHead) (i : Nat) : (s.begun r h i).host.d3 = s.host.d3 := by
  unfold State.begun State.modSender State.setSender; dsimp only; split <;> rfl
@[simp] theorem begun_host_busData (s : State) (r : Req) (h : ReqHead) (i : Nat) : (s.begun r h i).host.busData = s.host.busData := by
  unfold State.begun State.modSender State.setSender; dsimp only; split <;> rfl
@[simp] theorem begun_host_crown (s : State) (r : Req) (h : ReqHead) (i : Nat) : (s.begun r h i).host.crown = s.host.crown := by
  unfold State.begun State.modSender State.setSender; dsimp only; split <;> rfl
@[simp] theorem begun_host_msix (s : State) (r : Req) (h : ReqHead) (i : Nat) : (s.begun r h i).host.msix = s.host.msix := by
  unfold State.begun State.modSender State.setSender; dsimp only; split <;> rfl
@[simp] theorem begun_host_pba (s : State) (r : Req) (h : ReqHead) (i : Nat) : (s.begun r h i).host.pba = s.host.pba := by
  unfold State.begun State.modSender State.setSender; dsimp only; split <;> rfl
@[simp] theorem begun_ownId_get (s : State) (r : Req) (h : ReqHead) (i : Nat)  : (s.begun r h i).ownId  = s.ownId  := by
  simp [State.ownId]
@[simp] theorem begun_pointRef_get (s : State) (r : Req) (h : ReqHead) (i : Nat) (m : Nat) : (s.begun r h i).pointRef m = s.pointRef m := by
  simp [State.pointRef]
@[simp] theorem begun_refPoint_get (s : State) (r : Req) (h : ReqHead) (i : Nat) (t : Tenant) (w : Word) : (s.begun r h i).refPoint t w = s.refPoint t w := by
  unfold State.refPoint; rw [begun_ownId_get]; rfl
@[simp] theorem begun_devStatus_get (s : State) (r : Req) (h : ReqHead) (i : Nat)  : (s.begun r h i).devStatus  = s.devStatus  := by
  simp [State.devStatus]
@[simp] theorem begun_intStat_get (s : State) (r : Req) (h : ReqHead) (i : Nat)  : (s.begun r h i).intStat  = s.intStat  := by
  simp [State.intStat]
@[simp] theorem begun_holdsWin_get (s : State) (r : Req) (h : ReqHead) (i : Nat) (k : Nat) : (s.begun r h i).holdsWin k = s.holdsWin k := by
  simp [State.holdsWin]
@[simp] theorem begun_wmk_get (s : State) (r : Req) (h : ReqHead) (i : Nat) (n : Nat) : (s.begun r h i).wmk n = s.wmk n := by
  simp [State.wmk]
@[simp] theorem begun_wmkWord_get (s : State) (r : Req) (h : ReqHead) (i : Nat) (n a : Nat) : (s.begun r h i).wmkWord n a = s.wmkWord n a := by
  simp [State.wmkWord]
@[simp] theorem begun_wmkValue_get (s : State) (r : Req) (h : ReqHead) (i : Nat) (n : Nat) : (s.begun r h i).wmkValue n = s.wmkValue n := by
  simp [State.wmkValue]
@[simp] theorem begun_wmkSeen_get (s : State) (r : Req) (h : ReqHead) (i : Nat) (t : Tenant) (n : Nat) : (s.begun r h i).wmkSeen t n = s.wmkSeen t n := by
  simp [State.wmkSeen]
@[simp] theorem begun_readRefs_get (s : State) (r : Req) (h : ReqHead) (i : Nat) (t : Tenant) (n : Nat) (l : List Word) :
    (s.begun r h i).readRefs t n l = s.readRefs t n l := by
  induction l generalizing n with
  | nil => rfl
  | cons w l ih => simp only [State.readRefs, begun_refPoint_get, ih, begun_cell_get]

end Sys2Proof.Machine
end

