-- ==== Sys2Proof/Laws/Memory.lean ====
section
/-! SUPPORT. Laws of memory: a byte reads back, a write leaves every other address alone, and every operation keeps the
canonical form. -/
namespace Sys2Proof.Machine

/-- In a list that starts above an address, the address holds 0. -/
theorem memGet_below (m : List Host.Cell) (lo a : Nat) (h : memWfFrom lo m = true) (ha : a < lo) : memGet m a = 0 := by
  induction m generalizing lo with
  | nil => rfl
  | cons e m ih =>
    obtain ⟨j, b⟩ := e
    simp only [memWfFrom, Bool.and_eq_true, decide_eq_true_eq] at h
    have : ¬j = a := by omega
    simp only [memGet, this, if_false]
    exact ih (j + 1) h.2 (by omega)

/-- A written byte reads back. -/
theorem memGet_memPut_same (m : List Host.Cell) (a : Nat) (v : Byte) (lo : Nat) (h : memWfFrom lo m = true) :
    memGet (memPut m a v) a = v := by
  induction m generalizing lo with
  | nil => simp only [memPut]; split <;> simp_all [memGet]
  | cons e m ih =>
    obtain ⟨j, b⟩ := e
    simp only [memWfFrom, Bool.and_eq_true, decide_eq_true_eq] at h
    simp only [memPut]
    split
    · rename_i hlt
      split
      · have : ¬j = a := by omega
        simp only [memGet, this, if_false]
        rename_i hv; rw [hv]; exact memGet_below m (j + 1) a h.2 (by omega)
      · simp [memGet]
    · split
      · rename_i _ he
        subst he
        split
        · rename_i hv; rw [hv]; exact memGet_below m _ _ h.2 (by omega)
        · simp [memGet]
      · have : ¬j = a := by omega
        simp only [memGet, this, if_false]
        exact ih (j + 1) h.2

/-- A write leaves every other address alone. -/
theorem memGet_memPut_ne (m : List Host.Cell) {a x : Nat} (v : Byte) (hx : x ≠ a) : memGet (memPut m a v) x = memGet m x := by
  have h' : ¬a = x := fun e => hx e.symm
  induction m with
  | nil => simp only [memPut]; split <;> simp [memGet, h']
  | cons e m ih =>
    obtain ⟨j, b⟩ := e
    simp only [memPut]
    split
    · split <;> simp [memGet, h']
    · split
      · rename_i _ he
        subst he
        split <;> simp [memGet, h']
      · simp [memGet, ih]

/-- A byte written into a canonical list leaves it canonical. -/
theorem memPut_wfFrom (m : List Host.Cell) (a : Nat) (v : Byte) (lo : Nat) (h : memWfFrom lo m = true) (ha : lo ≤ a) :
    memWfFrom lo (memPut m a v) = true := by
  induction m generalizing lo with
  | nil => simp only [memPut]; split <;> simp_all [memWfFrom]
  | cons e m ih =>
    obtain ⟨j, b⟩ := e
    have hc := h
    simp only [memWfFrom, Bool.and_eq_true, decide_eq_true_eq] at h
    obtain ⟨⟨h1, h2⟩, h3⟩ := h
    simp only [memPut]
    split
    · rename_i hlt
      split
      · exact hc
      · rename_i hv
        simp only [memWfFrom, Bool.and_eq_true, decide_eq_true_eq]
        exact ⟨⟨ha, by simpa using hv⟩, ⟨by omega, h2⟩, h3⟩
    · split
      · rename_i _ he
        subst he
        split
        · cases m with
          | nil => rfl
          | cons f m =>
            obtain ⟨i, c⟩ := f
            simp only [memWfFrom, Bool.and_eq_true, decide_eq_true_eq] at h3 ⊢
            exact ⟨⟨by omega, h3.1.2⟩, h3.2⟩
        · rename_i hv
          simp only [memWfFrom, Bool.and_eq_true, decide_eq_true_eq]
          exact ⟨⟨ha, by simpa using hv⟩, h3⟩
      · simp only [memWfFrom, Bool.and_eq_true, decide_eq_true_eq]
        exact ⟨⟨h1, h2⟩, ih (j + 1) h3 (by omega)⟩

theorem memPut_wf (m : List Host.Cell) (h : Memory.wf m = true) (a : Nat) (v : Byte) : Memory.wf (memPut m a v) = true :=
  memPut_wfFrom m a v 0 h (Nat.zero_le a)

theorem memPuts_wf (m : List Host.Cell) (h : Memory.wf m = true) (a : Nat) (l : List Byte) : Memory.wf (memPuts m a l) = true := by
  induction l generalizing m a with
  | nil => exact h
  | cons v l ih => exact ih _ (memPut_wf m h a v) _

/-- Bytes written one by one at addresses of their own. -/
theorem foldPut_wf (f : Nat × Byte → Nat) (l : List (Nat × Byte)) (m : List Host.Cell) (h : Memory.wf m = true) :
    Memory.wf (l.foldl (fun m e => memPut m (f e) e.2) m) = true := by
  induction l generalizing m with
  | nil => exact h
  | cons e l ih => exact ih _ (memPut_wf m h _ _)

/-- A write of bytes leaves every address outside them alone. -/
theorem memGet_memPuts_ne (m : List Host.Cell) (a : Nat) (l : List Byte) (x : Nat) (h : x < a ∨ a + l.length ≤ x) :
    memGet (memPuts m a l) x = memGet m x := by
  induction l generalizing m a with
  | nil => rfl
  | cons v l ih =>
    simp only [List.length_cons] at h
    simp only [memPuts]
    rw [ih _ _ (by omega), memGet_memPut_ne m v (by omega)]

end Sys2Proof.Machine
end

