-- ==== Sys2Proof/Laws/Frame.lean ====
section
/-! SUPPORT. What every operation leaves unchanged: DRAM, the member, the graft links, the fuses, the vault's state and TAMPER_N;
for the operations that write DRAM, that its canonical form stays. Here: the relations and how they compose. -/
namespace Sys2Proof.Machine

/-- The member, the graft links, the fuses, the vault's state and the TAMPER_N pin are as before. -/
@[simp] abbrev KeptSec (t s : State) : Prop :=
  t.member = s.member ∧ t.links = s.links ∧ t.sec.fuses = s.sec.fuses ∧ t.sec.vault = s.sec.vault ∧ t.sec.tamperN = s.sec.tamperN
/-- DRAM too is as before. -/
@[simp] abbrev Kept (t s : State) : Prop := t.mem = s.mem ∧ KeptSec t s
/-- Memory has its canonical form. -/
@[simp] abbrev MemWf (s : State) : Prop := Memory.wf s.mem = true
theorem KeptSec.trans {a b c : State} (h : KeptSec a b) (g : KeptSec b c) : KeptSec a c :=
  ⟨h.1.trans g.1, h.2.1.trans g.2.1, h.2.2.1.trans g.2.2.1, h.2.2.2.1.trans g.2.2.2.1, h.2.2.2.2.trans g.2.2.2.2⟩
theorem Kept.trans {a b c : State} (h : Kept a b) (g : Kept b c) : Kept a c := ⟨h.1.trans g.1, KeptSec.trans h.2 g.2⟩
theorem Kept.wf {t s : State} (h : Kept t s) (w : MemWf s) : MemWf t := by simp_all
@[simp] theorem foldl_kept {α : Type} (f : State → α → State) (l : List α) (s : State) (h : ∀ s x, Kept (f s x) s) :
    Kept (l.foldl f s) s := by
  induction l generalizing s with
  | nil => simp
  | cons a l ih => exact Kept.trans (ih (f s a)) (h s a)
theorem foldl_sec {α : Type} (f : State → α → State) (l : List α) (s : State) (h : ∀ s x, KeptSec (f s x) s) :
    KeptSec (l.foldl f s) s := by
  induction l generalizing s with
  | nil => simp
  | cons a l ih => exact KeptSec.trans (ih (f s a)) (h s a)
theorem foldl_wf {α : Type} (f : State → α → State) (l : List α) (s : State) (hw : MemWf s) (h : ∀ s x, MemWf s → MemWf (f s x)) :
    MemWf (l.foldl f s) := by
  induction l generalizing s with
  | nil => exact hw
  | cons a l ih => exact ih (f s a) (h s a hw)
theorem snd_of {α β : Type} {x : α × β} {a : α} {b : β} (h : x = (a, b)) : b = x.2 := by rw [h]
theorem done_eq (s u t : State) : (done s u = .next t) ↔ settle s u = t := by simp [done]
@[simp] theorem settle_kept (s t : State) : Kept (settle s t) t := by
  unfold settle Kept; dsimp only
  repeat' split
  all_goals simp
theorem settle_kept' (s t u : State) : Kept (settle s t) u = Kept t u := by simp
theorem settle_sec' (s t u : State) : KeptSec (settle s t) u = KeptSec t u := by simp
theorem settle_wf' (s t : State) : MemWf (settle s t) = MemWf t := by simp
theorem kept_ite (c : Prop) [Decidable c] (a b s : State) (ha : Kept a s) (hb : Kept b s) : Kept (if c then a else b) s := by
  split <;> assumption

end Sys2Proof.Machine
end

