-- ==== Sys2Proof/Laws/FrameShared.lean ====
section
/-! SUPPORT. What the operations and commands leave unchanged: the shared operations: accessors, events, the store, points, requests, DRAM and translation. -/
namespace Sys2Proof.Machine

/-! ### Machine/Ops -/

@[simp] theorem State.setPort_kept (s : State) (p : Nat) (x : BrPort) : Kept (State.setPort s p x) s := by
  simp [State.setPort]
@[simp] theorem State.modPort_kept (s : State) (p : Nat) (f : BrPort → BrPort) : Kept (State.modPort s p f) s := by
  simp [State.modPort]
@[simp] theorem State.setNode_kept (s : State) (u : Uid) (x : Node) : Kept (State.setNode s u x) s := by
  simp [State.setNode]
@[simp] theorem State.setDie_kept (s : State) (d : Nat) (x : LogicDie) : Kept (State.setDie s d x) s := by
  simp [State.setDie]
@[simp] theorem State.modDie_kept (s : State) (d : Nat) (f : LogicDie → LogicDie) : Kept (State.modDie s d f) s := by
  simp [State.modDie]
@[simp] theorem State.setCore_kept (s : State) (d c : Nat) (x : CoreSt) : Kept (State.setCore s d c x) s := by
  simp [State.setCore]
@[simp] theorem State.setLoop_kept (s : State) (d n : Nat) (x : LoopSlot) : Kept (State.setLoop s d n x) s := by
  simp [State.setLoop]
@[simp] theorem State.modLoop_kept (s : State) (d n : Nat) (f : LoopSlot → LoopSlot) : Kept (State.modLoop s d n f) s := by
  simp [State.modLoop]
@[simp] theorem State.setLpe_kept (s : State) (d : Nat) (x : LoopDie) : Kept (State.setLpe s d x) s := by
  simp [State.setLpe]
@[simp] theorem State.modLpe_kept (s : State) (d : Nat) (f : LoopDie → LoopDie) : Kept (State.modLpe s d f) s := by
  simp [State.modLpe]
@[simp] theorem State.setChan_kept (s : State) (c : Nat) (x : ChanSt) : Kept (State.setChan s c x) s := by
  simp [State.setChan]
@[simp] theorem State.modChan_kept (s : State) (c : Nat) (f : ChanSt → ChanSt) : Kept (State.modChan s c f) s := by
  simp [State.modChan]
@[simp] theorem State.setMot_kept (s : State) (m : Nat) (x : Motion) : Kept (State.setMot s m x) s := by
  simp [State.setMot]
@[simp] theorem State.modMot_kept (s : State) (m : Nat) (f : Motion → Motion) : Kept (State.modMot s m f) s := by
  simp [State.modMot]
@[simp] theorem State.modFio_kept (s : State) (f : FieldIO → FieldIO) : Kept (State.modFio s f) s := by
  simp [State.modFio]
@[simp] theorem State.modMtr_kept (s : State) (f : Metering → Metering) : Kept (State.modMtr s f) s := by
  simp [State.modMtr]
@[simp] theorem State.setAtu_kept (s : State) (d : Nat) (x : Atu) : Kept (State.setAtu s d x) s := by
  simp [State.setAtu]
@[simp] theorem State.modAtu_kept (s : State) (d : Nat) (f : Atu → Atu) : Kept (State.modAtu s d f) s := by
  simp [State.modAtu]
@[simp] theorem State.setDma_kept (s : State) (d : Nat) (x : DmaDie) : Kept (State.setDma s d x) s := by
  simp [State.setDma]
@[simp] theorem State.modHstDie_kept (s : State) (d : Nat) (f : HstDie → HstDie) : Kept (State.modHstDie s d f) s := by
  simp [State.modHstDie]
@[simp] theorem State.modHst_kept (s : State) (f : History → History) : Kept (State.modHst s f) s := by
  simp [State.modHst]
@[simp] theorem State.modEvr_kept (s : State) (f : Recorder → Recorder) : Kept (State.modEvr s f) s := by
  simp [State.modEvr]
@[simp] theorem State.modHost_kept (s : State) (f : HostPort → HostPort) : Kept (State.modHost s f) s := by
  simp [State.modHost]
@[simp] theorem State.modSec_kept (s : State) (f : Security → Security) :
    (s.modSec f).mem = s.mem ∧ (s.modSec f).member = s.member ∧ (s.modSec f).links = s.links ∧ (s.modSec f).sec = f s.sec := by
  simp [State.modSec]
@[simp] theorem State.modTime_kept (s : State) (f : Time → Time) : Kept (State.modTime s f) s := by
  simp [State.modTime]
@[simp] theorem State.modSu_kept (s : State) (f : Startup → Startup) : Kept (State.modSu s f) s := by
  simp [State.modSu]
@[simp] theorem State.modPnt_kept (s : State) (f : Points → Points) : Kept (State.modPnt s f) s := by
  simp [State.modPnt]
@[simp] theorem State.modTrk_kept (s : State) (f : Trunk → Trunk) : Kept (State.modTrk s f) s := by
  simp [State.modTrk]
@[simp] theorem State.setTport_kept (s : State) (t : TrunkPort) (x : TrkPort) : Kept (State.setTport s t x) s := by
  simp [State.setTport]
@[simp] theorem State.modTport_kept (s : State) (t : TrunkPort) (f : TrkPort → TrkPort) : Kept (State.modTport s t f) s := by
  simp [State.modTport]
@[simp] theorem State.setSender_kept (s : State) (n : Nat) (x : SlotSt) : Kept (State.setSender s n x) s := by
  simp [State.setSender]
@[simp] theorem State.modSender_kept (s : State) (n : Nat) (f : SlotSt → SlotSt) : Kept (State.modSender s n f) s := by
  simp [State.modSender]
@[simp] theorem State.draw_kept (s : State) : Kept (State.draw s).2 s := by
  simp [State.draw]
@[simp] theorem State.offer_kept (s : State) (cls : Nat) (t : Tenant) (data : List Byte) : Kept (State.offer s cls t data) s := by
  simp [State.offer]
/-! ### Machine/Recorder -/

@[simp] theorem State.create_kept (s : State) (e : Event) : Kept (State.create s e) s := by
  unfold State.create; (try dsimp only); (repeat' split) <;> simp
@[simp] theorem State.report_kept (s : State) (e : Event) : Kept (State.report s e) s := by
  unfold State.report; (try dsimp only); (repeat' split) <;> simp
@[simp] theorem State.event_kept (s : State) (t : Tenant) (d b inst c : Nat) (data : List Word) : Kept (State.event s t d b inst c data) s := by
  simp [State.event]
@[simp] theorem State.thaw_kept (s : State) : Kept (State.thaw s) s := by
  unfold State.thaw; (try dsimp only); (repeat' split) <;> simp
theorem execEventReport_kept (e : Event) (s : State) (z : State) (hz : execEventReport e s = .next z) : Kept z s := by
  obtain rfl := (done_eq _ _ _).1 hz; simp
theorem execEventCommit_kept (s : State) (z : State) (hz : execEventCommit s = .next z) : Kept z s := by
  revert hz; unfold execEventCommit; (try dsimp only); (repeat' split) <;> (simp only [done_eq]; rintro rfl; simp)
theorem execEvrOverflowClear_kept (s : State) (z : State) (hz : execEvrOverflowClear s = .next z) : Kept z s := by
  revert hz; unfold execEvrOverflowClear; (try dsimp only); (repeat' split) <;> (simp only [done_eq]; rintro rfl; simp)
theorem execRecorderPowerfailWindowEnd_kept (s : State) (z : State) (hz : execRecorderPowerfailWindowEnd s = .next z) : Kept z s := by
  revert hz; unfold execRecorderPowerfailWindowEnd; (try dsimp only); (repeat' split) <;> (simp only [done_eq]; rintro rfl; simp)
theorem execFreezeTimeout_kept (s : State) (z : State) (hz : execFreezeTimeout s = .next z) : Kept z s := by
  revert hz; unfold execFreezeTimeout; (try dsimp only); (repeat' split) <;> (simp only [done_eq]; rintro rfl; simp)
theorem execOpsecIncrement_kept (s : State) (z : State) (hz : execOpsecIncrement s = .next z) : Kept z s := by
  revert hz; unfold execOpsecIncrement; (try dsimp only); (repeat' split) <;> (simp only [done_eq]; rintro rfl; simp)
/-! ### Machine/Store -/

@[simp] theorem State.modDrive_kept (s : State) (n : Nat) (f : Drive → Drive) : Kept (State.modDrive s n f) s := by
  simp [State.modDrive]
@[simp] theorem State.hstIrq_kept (s : State) (d bit : Nat) : Kept (State.hstIrq s d bit) s := by
  simp [State.hstIrq]
@[simp] theorem State.nvmeCmd_kept (s : State) (d : Nat) (op : NvmeOp) (sba blocks : Nat) (data : List Byte) : Kept (State.nvmeCmd s d op sba blocks data) s := by
  unfold State.nvmeCmd; (try dsimp only); (repeat' split) <;> simp
@[simp] theorem State.nvmeWrite_kept (s : State) (d sba : Nat) (data : List Byte) : Kept (State.nvmeWrite s d sba data) s := by
  unfold State.nvmeWrite; (try dsimp only); (repeat' split) <;> simp
@[simp] theorem State.storeWrite_kept (s : State) (sba : Nat) (data : List Byte) : Kept (State.storeWrite s sba data) s := by
  unfold State.storeWrite; (try dsimp only); (repeat' split) <;> simp
@[simp] theorem State.deallocate_kept (s : State) (n : Nat) : Kept (State.deallocate s n) s := by
  unfold State.deallocate; (try dsimp only); (repeat' split) <;> simp
@[simp] theorem State.takeNonces_kept (s : State) (t : Tenant) (k : Nat) : Kept (State.takeNonces s t k).2 s := by
  simp [State.takeNonces]
@[simp] theorem State.takeNonce_kept (s : State) (t : Tenant) : Kept (State.takeNonce s t).2 s := by
  simp [State.takeNonce]
@[simp] theorem State.metaWrite_kept (s : State) (blk n : Nat) (payload : Nat → List Byte) : Kept (State.metaWrite s blk n payload) s := by
  unfold State.metaWrite
  apply foldl_kept; intro s e; dsimp only
  exact Kept.trans (foldl_kept _ _ _ fun s d => by simp) (by simp)
@[simp] theorem State.flushCaches_kept (s : State) : Kept (State.flushCaches s) s := by
  unfold State.flushCaches
  apply foldl_kept; intro s e; split <;> simp
@[simp] theorem State.writeSuper_kept (s : State) (b : Bool) : Kept (State.writeSuper s b) s := by
  simp [State.writeSuper]
@[simp] theorem State.checkpoint_kept (s : State) : Kept (State.checkpoint s) s := by
  unfold State.checkpoint; (try dsimp only); (repeat' split) <;> simp
@[simp] theorem State.reclaim_kept (s : State) (n : Nat) : Kept (State.reclaim s n) s := by
  unfold State.reclaim; (try dsimp only); (repeat' split) <;> simp
@[simp] theorem State.reclaimTo_kept (s : State) (t : Tenant) (n : Nat) : Kept (State.reclaimTo s t n) s := by
  induction n generalizing s  with
  | zero => unfold State.reclaimTo; (try dsimp only); (repeat' (split <;> (try (rename_i h; have h2 := congrArg Prod.snd h; dsimp only at h2; clear h; subst h2)))) <;>
    first
    | done
    | (simp_all; done)
    | (rename_i h; have h2 := congrArg Prod.snd h; dsimp only at h2; clear h; subst h2; simp_all; done)
    | (rename_i h _; have h2 := congrArg Prod.snd h; dsimp only at h2; clear h; subst h2; simp_all; done)
    | (rename_i h _ _; have h2 := congrArg Prod.snd h; dsimp only at h2; clear h; subst h2; simp_all; done)
    | skip
  | succ n ih => unfold State.reclaimTo; (try dsimp only); (repeat' (split <;> (try (rename_i h; have h2 := congrArg Prod.snd h; dsimp only at h2; clear h; subst h2)))) <;>
    first
    | done
    | (simp_all; done)
    | (rename_i h; have h2 := congrArg Prod.snd h; dsimp only at h2; clear h; subst h2; simp_all; done)
    | (rename_i h _; have h2 := congrArg Prod.snd h; dsimp only at h2; clear h; subst h2; simp_all; done)
    | (rename_i h _ _; have h2 := congrArg Prod.snd h; dsimp only at h2; clear h; subst h2; simp_all; done)
    | skip
theorem State.openSeg_kept (s : State) (t : Tenant) (kind : Nat) (src : Byte) (z) (h : State.openSeg s t kind src = some z) : Kept z.2 s := by
  revert h; unfold State.openSeg; (try dsimp only)
  (repeat' (split <;> (try (rename_i h; have h2 := congrArg Prod.snd h; dsimp only at h2; clear h; subst h2)))) <;> (try simp) <;> (try rintro rfl) <;> (try simp_all)
theorem State.segFor_kept (s : State) (t : Tenant) (kind : Nat) (src : Byte) (z : Nat × State)
    (h : s.segFor t kind src = some z) : Kept z.2 s := by
  unfold State.segFor at h
  split at h
  · cases h; simp
  · exact State.openSeg_kept _ _ _ _ _ h
theorem State.writeBlock_kept (s : State) (t : Tenant) (kind : Nat) (src : Byte) (b : Block) (z : State)
    (h : s.writeBlock t kind src b = some z) : Kept z s := by
  unfold State.writeBlock at h
  split at h
  · split at h
    · cases h
    · rename_i n u hu
      have k := State.segFor_kept _ _ _ _ _ hu
      by_cases hk : kind = 0 <;> simp only [hk, if_true, if_false, Option.some.injEq] at h <;> subst h <;> simp_all
  · cases h
@[simp] theorem State.drain_kept (s : State) (t : Tenant) (l : List Block) : Kept (s.drain t l).2 s := by
  induction l generalizing s with
  | nil => simp [State.drain]
  | cons a l ih =>
    unfold State.drain
    split
    · rename_i u hu
      exact Kept.trans (ih u) (State.writeBlock_kept _ _ _ _ _ _ hu)
    · simp
@[simp] theorem State.setStaging_kept (s : State) (d : Nat) (t : Tenant) (x : Staging) : Kept (State.setStaging s d t x) s := by
  simp [State.setStaging]
@[simp] theorem State.flushStaging_kept (s : State) (d : Nat) (t : Tenant) : Kept (State.flushStaging s d t) s := by
  unfold State.flushStaging; dsimp only; (repeat' split) <;> simp
theorem State.stage_kept (s : State) (d : Nat) (t : Tenant) (r : TrendRec) (z : State) (h : s.stage d t r = some z) : Kept z s := by
  unfold State.stage at h; dsimp only at h
  repeat' split at h
  all_goals first | (simp at h; done) | (obtain rfl := Option.some.inj h; simp)
@[simp] theorem State.recordTrend_kept (s : State) (d : Nat) (t : Tenant) (series : Nat) (status : Byte) (v : V24) (periodic : Bool) :
    Kept (s.recordTrend d t series status v periodic) s := by
  unfold State.recordTrend; dsimp only
  split
  · rename_i u hu
    have k := State.stage_kept _ _ _ _ _ hu
    simp_all
  · simp
/-! ### Machine/PointOps -/

@[simp] theorem State.trendChange_kept (s : State) (m : Nat) (d : Desc) (c : Cell) : Kept (State.trendChange s m d c) s := by
  unfold State.trendChange; (try dsimp only); (repeat' split) <;> simp
@[simp] theorem State.putCell_kept (s : State) (m : Nat) (d : Desc) (c : Cell) : Kept (State.putCell s m d c) s := by
  unfold State.putCell; (try dsimp only); (repeat' split) <;> simp
@[simp] theorem State.bumpGen_kept (s : State) (b : Nat) : Kept (State.bumpGen s b) s := by
  simp [State.bumpGen]
@[simp] theorem State.sourceWrite_kept (s : State) (m : Nat) (src : Src) (q : Qual) (v : V24) : Kept (State.sourceWrite s m src q v) s := by
  unfold State.sourceWrite; (try dsimp only); (repeat' split) <;> simp
@[simp] theorem State.sourceWrites_kept (s : State) (l : List CellWrite) : Kept (State.sourceWrites s l) s := by
  induction l generalizing s with
  | nil => unfold State.sourceWrites; (try dsimp only); (repeat' (split <;> (try (rename_i h; have h2 := congrArg Prod.snd h; dsimp only at h2; clear h; subst h2)))) <;>
    first
    | done
    | (simp_all; done)
    | (rename_i h; have h2 := congrArg Prod.snd h; dsimp only at h2; clear h; subst h2; simp_all; done)
    | (rename_i h _; have h2 := congrArg Prod.snd h; dsimp only at h2; clear h; subst h2; simp_all; done)
    | (rename_i h _ _; have h2 := congrArg Prod.snd h; dsimp only at h2; clear h; subst h2; simp_all; done)
    | skip
  | cons a l ih => unfold State.sourceWrites; (try dsimp only); (repeat' (split <;> (try (rename_i h; have h2 := congrArg Prod.snd h; dsimp only at h2; clear h; subst h2)))) <;>
    first
    | done
    | (simp_all; done)
    | (rename_i h; have h2 := congrArg Prod.snd h; dsimp only at h2; clear h; subst h2; simp_all; done)
    | (rename_i h _; have h2 := congrArg Prod.snd h; dsimp only at h2; clear h; subst h2; simp_all; done)
    | (rename_i h _ _; have h2 := congrArg Prod.snd h; dsimp only at h2; clear h; subst h2; simp_all; done)
    | skip
@[simp] theorem State.bumpGens_kept (s : State) (l : List Nat) : Kept (State.bumpGens s l) s := by
  induction l generalizing s with
  | nil => unfold State.bumpGens; (try dsimp only); (repeat' (split <;> (try (rename_i h; have h2 := congrArg Prod.snd h; dsimp only at h2; clear h; subst h2)))) <;>
    first
    | done
    | (simp_all; done)
    | (rename_i h; have h2 := congrArg Prod.snd h; dsimp only at h2; clear h; subst h2; simp_all; done)
    | (rename_i h _; have h2 := congrArg Prod.snd h; dsimp only at h2; clear h; subst h2; simp_all; done)
    | (rename_i h _ _; have h2 := congrArg Prod.snd h; dsimp only at h2; clear h; subst h2; simp_all; done)
    | skip
  | cons a l ih => unfold State.bumpGens; (try dsimp only); (repeat' (split <;> (try (rename_i h; have h2 := congrArg Prod.snd h; dsimp only at h2; clear h; subst h2)))) <;>
    first
    | done
    | (simp_all; done)
    | (rename_i h; have h2 := congrArg Prod.snd h; dsimp only at h2; clear h; subst h2; simp_all; done)
    | (rename_i h _; have h2 := congrArg Prod.snd h; dsimp only at h2; clear h; subst h2; simp_all; done)
    | (rename_i h _ _; have h2 := congrArg Prod.snd h; dsimp only at h2; clear h; subst h2; simp_all; done)
    | skip
@[simp] theorem State.batch_kept (s : State) (l : List CellWrite) : Kept (State.batch s l) s := by
  simp [State.batch]
@[simp] theorem State.oneBatch_kept (s : State) (m : Nat) (d : Desc) (c : Cell) : Kept (State.oneBatch s m d c) s := by
  simp [State.oneBatch]
@[simp] theorem State.markBad_kept (s : State) (m : Nat) : Kept (State.markBad s m) s := by
  unfold State.markBad; (try dsimp only); (repeat' split) <;> simp
@[simp] theorem State.refuseWrite_kept (s : State) (m : Nat) : Kept (State.refuseWrite s m) s := by
  simp [State.refuseWrite]
@[simp] theorem State.placeForce_kept (s : State) (m : Nat) (v : V24) : Kept (State.placeForce s m v) s := by
  unfold State.placeForce; (try dsimp only); (repeat' split) <;> simp
@[simp] theorem State.force_kept (s : State) (t : Tenant) (m : Nat) (v : V24) : Kept (State.force s t m v) s := by
  unfold State.force; (try dsimp only); (repeat' split) <;> simp
@[simp] theorem State.release_kept (s : State) (m : Nat) : Kept (State.release s m) s := by
  unfold State.release; (try dsimp only); (repeat' split) <;> simp
theorem execStaleCheck_kept (m : Mpn) (s : State) (z : State) (hz : execStaleCheck m s = .next z) : Kept z s := by
  revert hz; unfold execStaleCheck; (try dsimp only); (repeat' split) <;> (simp only [done_eq]; rintro rfl; simp)
theorem execTrendPeriodic_kept (series : BitVec 19) (s : State) (z : State) (hz : execTrendPeriodic series s = .next z) : Kept z s := by
  revert hz; unfold execTrendPeriodic; (try dsimp only); (repeat' split) <;> (simp only [done_eq]; rintro rfl; simp)
/-! ### Machine/ReqOps -/

@[simp] theorem State.finish_kept (s : State) (r : Req) (res : Result) : Kept (State.finish s r res) s := by
  simp [State.finish]
@[simp] theorem State.finish?_kept (s : State) (r : Option Req) (res : Result) : Kept (State.finish? s r res) s := by
  unfold State.finish?; (try dsimp only); (repeat' split) <;> simp
@[simp] theorem State.finishAll_kept (s : State) (res : Result) (l : List Req) : Kept (State.finishAll s res l) s := by
  induction l generalizing s with
  | nil => unfold State.finishAll; (try dsimp only); (repeat' (split <;> (try (rename_i h; have h2 := congrArg Prod.snd h; dsimp only at h2; clear h; subst h2)))) <;>
    first
    | done
    | (simp_all; done)
    | (rename_i h; have h2 := congrArg Prod.snd h; dsimp only at h2; clear h; subst h2; simp_all; done)
    | (rename_i h _; have h2 := congrArg Prod.snd h; dsimp only at h2; clear h; subst h2; simp_all; done)
    | (rename_i h _ _; have h2 := congrArg Prod.snd h; dsimp only at h2; clear h; subst h2; simp_all; done)
    | skip
  | cons a l ih => unfold State.finishAll; (try dsimp only); (repeat' (split <;> (try (rename_i h; have h2 := congrArg Prod.snd h; dsimp only at h2; clear h; subst h2)))) <;>
    first
    | done
    | (simp_all; done)
    | (rename_i h; have h2 := congrArg Prod.snd h; dsimp only at h2; clear h; subst h2; simp_all; done)
    | (rename_i h _; have h2 := congrArg Prod.snd h; dsimp only at h2; clear h; subst h2; simp_all; done)
    | (rename_i h _ _; have h2 := congrArg Prod.snd h; dsimp only at h2; clear h; subst h2; simp_all; done)
    | skip
/-! ### Machine/Memory -/

@[simp] theorem State.integFail_kept (s : State) (line : Nat) : Kept (State.integFail s line) s := by
  unfold State.integFail; (try dsimp only); (repeat' split) <;> simp
@[simp] theorem State.writeLine_sec (s : State) (line : Nat) (data : List Byte) : KeptSec (s.writeLine line data) s := by
  simp [State.writeLine]
@[simp] theorem State.writeLine_wf (s : State) (line : Nat) (data : List Byte) (hw : MemWf s) : MemWf (s.writeLine line data) :=
  memPuts_wf _ hw _ _
@[simp] theorem State.mergeLine_sec (s : State) (line : Nat) (data : List (Nat × Byte)) : KeptSec (s.mergeLine line data).2 s := by
  unfold State.mergeLine; split <;> simp
@[simp] theorem State.mergeLine_wf (s : State) (line : Nat) (data : List (Nat × Byte)) (hw : MemWf s) :
    MemWf (s.mergeLine line data).2 := by
  unfold State.mergeLine; split
  · exact foldPut_wf (fun e => 64 * line + e.1) data s.mem hw
  · simp_all
@[simp] theorem State.readPhys_kept (s : State) (pa : Nat) (n : Nat) : Kept (State.readPhys s pa n).2 s := by
  induction n generalizing s pa with
  | zero => unfold State.readPhys; (try dsimp only); (repeat' (split <;> (try (rename_i h; have h2 := congrArg Prod.snd h; dsimp only at h2; clear h; subst h2)))) <;>
    first
    | done
    | (simp_all; done)
    | (rename_i h; have h2 := congrArg Prod.snd h; dsimp only at h2; clear h; subst h2; simp_all; done)
    | (rename_i h _; have h2 := congrArg Prod.snd h; dsimp only at h2; clear h; subst h2; simp_all; done)
    | (rename_i h _ _; have h2 := congrArg Prod.snd h; dsimp only at h2; clear h; subst h2; simp_all; done)
    | skip
  | succ n ih => unfold State.readPhys; (try dsimp only); (repeat' (split <;> (try (rename_i h; have h2 := congrArg Prod.snd h; dsimp only at h2; clear h; subst h2)))) <;>
    first
    | done
    | (simp_all; done)
    | (rename_i h; have h2 := congrArg Prod.snd h; dsimp only at h2; clear h; subst h2; simp_all; done)
    | (rename_i h _; have h2 := congrArg Prod.snd h; dsimp only at h2; clear h; subst h2; simp_all; done)
    | (rename_i h _ _; have h2 := congrArg Prod.snd h; dsimp only at h2; clear h; subst h2; simp_all; done)
    | skip
@[simp] theorem State.xlateFault_kept (s : State) (d ctx cause : Nat) (write pin : Bool) (inst va : Nat) : Kept (State.xlateFault s d ctx cause write pin inst va) s := by
  unfold State.xlateFault; (try dsimp only); (repeat' split) <;> simp
@[simp] theorem State.engFault_kept (s : State) (d cls inst : Nat) (write : Bool) (e : EngFault) :
    Kept (s.engFault d cls inst write e) s := by
  unfold State.engFault; split
  · simp
  · split <;> simp
@[simp] theorem State.walkWord_kept (s : State) (pa : Nat) : Kept (State.walkWord s pa).2 s := by
  unfold State.walkWord; try dsimp only
  repeat' (split <;> (try (rename_i h; have h2 := congrArg Prod.snd h; dsimp only at h2; clear h; subst h2)))
  all_goals first
    | done
    | (simp_all; done)
    | (apply foldl_kept; intro s x; (repeat' split) <;> simp_all; done)
    | (rename_i h; have h2 := congrArg Prod.snd h; dsimp only at h2; clear h; subst h2; simp_all; done)
    | (rename_i h _; have h2 := congrArg Prod.snd h; dsimp only at h2; clear h; subst h2; simp_all; done)
    | (rename_i h _ _; have h2 := congrArg Prod.snd h; dsimp only at h2; clear h; subst h2; simp_all; done)
    | skip
@[simp] theorem State.walkPage_kept (s : State) (e : Pte) (va : Nat) (wp : Bool) : Kept (State.walkPage s e va wp).2 s := by
  rw [State.walkPage]
  have h := State.walkWord_kept s (e.entry va)
  generalize s.walkWord (e.entry va) = r at h ⊢
  rcases r with ⟨_ | w, u⟩ <;> exact h
@[simp] theorem State.walkTop_kept (s : State) (c va : Nat) : Kept (State.walkTop s c va).2 s := by
  rw [State.walkTop]
  have h := State.walkWord_kept s (topEntry c va)
  generalize s.walkWord (topEntry c va) = r at h ⊢
  rcases r with ⟨_ | w, u⟩
  · exact h
  · dsimp only
    split
    · exact h
    · exact (State.walkPage_kept u _ va _).trans h
@[simp] theorem State.walk_kept (s : State) (d ctx va : Nat) : Kept (State.walk s d ctx va).2 s := by
  unfold State.walk; try dsimp only
  repeat' (split <;> (try (rename_i h; have h2 := congrArg Prod.snd h; dsimp only at h2; clear h; subst h2)))
  all_goals first
    | done
    | (simp_all; done)
    | (apply foldl_kept; intro s x; (repeat' split) <;> simp_all; done)
    | (rename_i h; have h2 := congrArg Prod.snd h; dsimp only at h2; clear h; subst h2; simp_all; done)
    | (rename_i h _; have h2 := congrArg Prod.snd h; dsimp only at h2; clear h; subst h2; simp_all; done)
    | (rename_i h _ _; have h2 := congrArg Prod.snd h; dsimp only at h2; clear h; subst h2; simp_all; done)
    | skip
@[simp] theorem State.cacheTlb_kept (s : State) (d key : Nat) (e : Nat × Pte) : Kept (State.cacheTlb s d key e) s := by
  unfold State.cacheTlb; (try dsimp only); (repeat' split) <;> simp
@[simp] theorem State.lookup_kept (s : State) (d ctx va : Nat) : Kept (State.lookup s d ctx va).2 s := by
  unfold State.lookup; try dsimp only
  repeat' (split <;> (try (rename_i h; have h2 := congrArg Prod.snd h; dsimp only at h2; clear h; subst h2)))
  all_goals first
    | done
    | (simp_all; done)
    | (apply foldl_kept; intro s x; (repeat' split) <;> simp_all; done)
    | (rename_i h; have h2 := congrArg Prod.snd h; dsimp only at h2; clear h; subst h2; simp_all; done)
    | (rename_i h _; have h2 := congrArg Prod.snd h; dsimp only at h2; clear h; subst h2; simp_all; done)
    | (rename_i h _ _; have h2 := congrArg Prod.snd h; dsimp only at h2; clear h; subst h2; simp_all; done)
    | skip
@[simp] theorem State.translate_kept (s : State) (d ctx inst va : Nat) (write : Bool) : Kept (State.translate s d ctx inst va write).2 s := by
  unfold State.translate; try dsimp only
  repeat' (split <;> (try (rename_i h; have h2 := congrArg Prod.snd h; dsimp only at h2; clear h; subst h2)))
  all_goals first
    | done
    | (simp_all; done)
    | (apply foldl_kept; intro s x; (repeat' split) <;> simp_all; done)
    | (rename_i h; have h2 := congrArg Prod.snd h; dsimp only at h2; clear h; subst h2; simp_all; done)
    | (rename_i h _; have h2 := congrArg Prod.snd h; dsimp only at h2; clear h; subst h2; simp_all; done)
    | (rename_i h _ _; have h2 := congrArg Prod.snd h; dsimp only at h2; clear h; subst h2; simp_all; done)
    | skip
@[simp] theorem State.readVa_kept (s : State) (d ctx inst va : Nat) (n : Nat) : Kept (State.readVa s d ctx inst va n).2 s := by
  induction n generalizing s d ctx inst va with
  | zero => unfold State.readVa; (try dsimp only); (repeat' (split <;> (try (rename_i h; have h2 := congrArg Prod.snd h; dsimp only at h2; clear h; subst h2)))) <;>
    first
    | done
    | (simp_all; done)
    | (rename_i h; have h2 := congrArg Prod.snd h; dsimp only at h2; clear h; subst h2; simp_all; done)
    | (rename_i h _; have h2 := congrArg Prod.snd h; dsimp only at h2; clear h; subst h2; simp_all; done)
    | (rename_i h _ _; have h2 := congrArg Prod.snd h; dsimp only at h2; clear h; subst h2; simp_all; done)
    | skip
  | succ n ih => unfold State.readVa; (try dsimp only); (repeat' (split <;> (try (rename_i h; have h2 := congrArg Prod.snd h; dsimp only at h2; clear h; subst h2)))) <;>
    first
    | done
    | (simp_all; done)
    | (rename_i h; have h2 := congrArg Prod.snd h; dsimp only at h2; clear h; subst h2; simp_all; done)
    | (rename_i h _; have h2 := congrArg Prod.snd h; dsimp only at h2; clear h; subst h2; simp_all; done)
    | (rename_i h _ _; have h2 := congrArg Prod.snd h; dsimp only at h2; clear h; subst h2; simp_all; done)
    | skip
@[simp] theorem State.readLineVa_kept (s : State) (d ctx inst va : Nat) : Kept (State.readLineVa s d ctx inst va).2 s := by
  unfold State.readLineVa; try dsimp only
  repeat' (split <;> (try (rename_i h; have h2 := congrArg Prod.snd h; dsimp only at h2; clear h; subst h2)))
  all_goals first
    | done
    | (simp_all; done)
    | (apply foldl_kept; intro s x; (repeat' split) <;> simp_all; done)
    | (rename_i h; have h2 := congrArg Prod.snd h; dsimp only at h2; clear h; subst h2; simp_all; done)
    | (rename_i h _; have h2 := congrArg Prod.snd h; dsimp only at h2; clear h; subst h2; simp_all; done)
    | (rename_i h _ _; have h2 := congrArg Prod.snd h; dsimp only at h2; clear h; subst h2; simp_all; done)
    | skip
@[simp] theorem State.writeLineVa_sec (s : State) (d ctx inst va : Nat) (data : List Byte) : KeptSec (State.writeLineVa s d ctx inst va data).2 s := by
  unfold State.writeLineVa; try dsimp only
  repeat' (split <;> (try (rename_i h; have h2 := congrArg Prod.snd h; dsimp only at h2; clear h; subst h2)))
  all_goals first
    | done
    | (simp_all; done)
    | (apply foldl_sec; intro s x; (repeat' split) <;> simp_all; done)
    | (rename_i h; have h2 := congrArg Prod.snd h; dsimp only at h2; clear h; subst h2; simp_all; done)
    | (rename_i h _; have h2 := congrArg Prod.snd h; dsimp only at h2; clear h; subst h2; simp_all; done)
    | (rename_i h _ _; have h2 := congrArg Prod.snd h; dsimp only at h2; clear h; subst h2; simp_all; done)
    | skip
@[simp] theorem State.writeLineVa_wf (s : State) (d ctx inst va : Nat) (data : List Byte) (hw : MemWf s) : MemWf (State.writeLineVa s d ctx inst va data).2 := by
  unfold State.writeLineVa; try dsimp only
  repeat' (split <;> (try (rename_i h; have h2 := congrArg Prod.snd h; dsimp only at h2; clear h; subst h2)))
  all_goals first
    | done
    | (simp_all; done)
    | (apply foldl_wf (hw := by simp_all); intro s x hx; (repeat' split) <;> simp_all; done)
    | (rename_i h; have h2 := congrArg Prod.snd h; dsimp only at h2; clear h; subst h2; simp_all; done)
    | (rename_i h _; have h2 := congrArg Prod.snd h; dsimp only at h2; clear h; subst h2; simp_all; done)
    | (rename_i h _ _; have h2 := congrArg Prod.snd h; dsimp only at h2; clear h; subst h2; simp_all; done)
    | skip
@[simp] theorem State.assignPage_sec (s : State) (page : Nat) (t : Tenant) : KeptSec (State.assignPage s page t) s := by
  unfold State.assignPage; try dsimp only
  repeat' (split <;> (try (rename_i h; have h2 := congrArg Prod.snd h; dsimp only at h2; clear h; subst h2)))
  all_goals first
    | done
    | (simp_all; done)
    | (apply foldl_sec; intro s x; (repeat' split) <;> simp_all; done)
    | (rename_i h; have h2 := congrArg Prod.snd h; dsimp only at h2; clear h; subst h2; simp_all; done)
    | (rename_i h _; have h2 := congrArg Prod.snd h; dsimp only at h2; clear h; subst h2; simp_all; done)
    | (rename_i h _ _; have h2 := congrArg Prod.snd h; dsimp only at h2; clear h; subst h2; simp_all; done)
    | skip
@[simp] theorem State.assignPage_wf (s : State) (page : Nat) (t : Tenant) (hw : MemWf s) : MemWf (State.assignPage s page t) := by
  unfold State.assignPage; try dsimp only
  repeat' (split <;> (try (rename_i h; have h2 := congrArg Prod.snd h; dsimp only at h2; clear h; subst h2)))
  all_goals first
    | done
    | (simp_all; done)
    | (apply foldl_wf (hw := by simp_all); intro s x hx; (repeat' split) <;> simp_all; done)
    | (rename_i h; have h2 := congrArg Prod.snd h; dsimp only at h2; clear h; subst h2; simp_all; done)
    | (rename_i h _; have h2 := congrArg Prod.snd h; dsimp only at h2; clear h; subst h2; simp_all; done)
    | (rename_i h _ _; have h2 := congrArg Prod.snd h; dsimp only at h2; clear h; subst h2; simp_all; done)
    | skip
@[simp] theorem State.putTable_sec (s : State) (pa w : Nat) : KeptSec (s.putTable pa w) s := by
  unfold State.putTable; dsimp only
  repeat' (split <;> (try (rename_i h; have h2 := congrArg Prod.snd h; dsimp only at h2; clear h; subst h2)))
  all_goals simp
theorem State.putTable_wfIn (s : State) (pa w : Nat) (hw : MemWf s) :
    MemWf (match s.mergeLine (pa / 64) ((leBytes w 8).zipIdx.map fun e => (pa % 64 + e.2, e.1)) with
      | (true, t) => t
      | (false, t) => t.writeLine (pa / 64) (List.replicate (pa % 64) 0 ++ leBytes w 8)) := by
  have h := State.mergeLine_wf s (pa / 64) ((leBytes w 8).zipIdx.map fun e => (pa % 64 + e.2, e.1)) hw
  split <;> (rename_i t e; rw [e] at h)
  · exact h
  · exact State.writeLine_wf _ _ _ h
@[simp] theorem State.putTable_wf (s : State) (pa w : Nat) (hw : MemWf s) : MemWf (s.putTable pa w) := by
  unfold State.putTable
  split
  · exact hw
  · exact State.putTable_wfIn _ _ _ (by split <;> simp_all)
theorem State.mapEntries_sec (s : State) (d page : Nat) (m : PageMap) : KeptSec (s.mapEntries d page m) s := by
  unfold State.mapEntries; dsimp only; (repeat' split) <;> simp
theorem State.mapEntries_wf (s : State) (d page : Nat) (m : PageMap) (hw : MemWf s) : MemWf (s.mapEntries d page m) := by
  unfold State.mapEntries; dsimp only; split
  · exact State.putTable_wf _ _ _ (State.putTable_wf _ _ _ (State.putTable_wf _ _ _ hw))
  · exact State.putTable_wf _ _ _ (State.putTable_wf _ _ _ (State.putTable_wf _ _ _ (State.putTable_wf _ _ _ hw)))
theorem State.invalidate_kept (s : State) (d n : Nat) : Kept (s.invalidate d n) s := by
  unfold State.invalidate; (try dsimp only); (repeat' split) <;> simp
@[simp] theorem State.mapPage_sec (s : State) (d page : Nat) (m : PageMap) : KeptSec (s.mapPage d page m) s := by
  unfold State.mapPage; dsimp only; split
  · exact State.mapEntries_sec _ _ _ _
  · exact KeptSec.trans (State.invalidate_kept _ _ _).2 (by simpa using State.mapEntries_sec s d page m)
@[simp] theorem State.mapPage_wf (s : State) (d page : Nat) (m : PageMap) (hw : MemWf s) : MemWf (s.mapPage d page m) := by
  unfold State.mapPage; dsimp only; split
  · exact State.mapEntries_wf _ _ _ _ hw
  · exact Kept.wf (State.invalidate_kept _ _ _) (by simpa using State.mapEntries_wf s d page m hw)

end Sys2Proof.Machine
end

