-- ==== Sys2Proof/Laws/FrameBranch.lean ====
section
/-! SUPPORT. What the operations and commands leave unchanged: branch lines, leaf nodes, time and the trunk. -/
namespace Sys2Proof.Machine

/-! ### Machine/DoorPoint -/

@[simp] theorem State.setDoor_kept (s : State) (d : Nat) (x : Door) : Kept (State.setDoor s d x) s := by
  simp [State.setDoor]
@[simp] theorem State.takeAcc_kept (s : State) (kind n v : Nat) : Kept (State.takeAcc s kind n v) s := by
  simp [State.takeAcc]
@[simp] theorem State.showAcc_kept (s : State) (kind n v : Nat) (bad : Bool) : Kept (State.showAcc s kind n v bad) s := by
  unfold State.showAcc; split <;> simp
@[simp] theorem State.showDoor_kept (s : State) (c : DoorCfg) : Kept (State.showDoor s c) s := by
  simp [State.showDoor]
@[simp] theorem State.showStation_kept (s : State) (c : StationCfg) : Kept (State.showStation s c) s := by
  simp [State.showStation]
@[simp] theorem State.showNode_kept (s : State) (p a : Nat) : Kept (State.showNode s p a) s := by
  simp [State.showNode]
@[simp] theorem State.showPort_kept (s : State) (p : Nat) : Kept (State.showPort s p) s := by
  simp [State.showPort]
@[simp] theorem State.stepDoor_kept (s : State) (c : DoorCfg) (x : Door) : Kept (State.stepDoor s c x) s := by
  unfold State.stepDoor; (try dsimp only); (repeat' split) <;> simp
/-! ### Machine/Branch -/

@[simp] theorem State.queueFrame_kept (s : State) (p : Nat) (dst : Byte) (pl : Payload) : Kept (State.queueFrame s p dst pl) s := by
  simp [State.queueFrame]
@[simp] theorem State.brCtrl_kept (s : State) (p : Nat) (en mode : Bool) : Kept (State.brCtrl s p en mode) s := by
  simp [State.brCtrl]
@[simp] theorem State.takeOutputs_kept (s : State) (p : Nat) : Kept (State.takeOutputs s p).2 s := by
  simp [State.takeOutputs]
@[simp] theorem State.takeSwap_kept (s : State) (p : Nat) : Kept (State.takeSwap s p) s := by
  unfold State.takeSwap; (try dsimp only); (repeat' split) <;> simp
@[simp] theorem State.cycleStart_kept (s : State) (p : Nat) (dormNext : Option Nat) (buffered : Bool) : Kept (State.cycleStart s p dormNext buffered) s := by
  unfold State.cycleStart; (try dsimp only); (repeat' split) <;> simp
@[simp] theorem State.putBads_kept (s : State) (l : List Nat) : Kept (s.putBads l) s := by
  induction l generalizing s with
  | nil => simp [State.putBads]
  | cons m l ih => unfold State.putBads; exact Kept.trans (ih _) (by simp)
@[simp] theorem State.markBads_kept (s : State) (l : List Nat) : Kept (s.markBads l) s := by
  unfold State.markBads; exact Kept.trans (State.bumpGens_kept _ _) (State.putBads_kept _ _)
@[simp] theorem State.modNode_kept (s : State) (p a : Nat) (f : CtlNode → CtlNode) : Kept (State.modNode s p a f) s := by
  simp [State.modNode]
@[simp] theorem State.brEvent_kept (s : State) (p code : Nat) (data : List Word) : Kept (State.brEvent s p code data) s := by
  simp [State.brEvent]
@[simp] theorem State.markMissing_kept (s : State) (p a : Nat) : Kept (State.markMissing s p a) s := by
  simp [State.markMissing]
@[simp] theorem State.markLost_kept (s : State) (p a : Nat) : Kept (State.markLost s p a) s := by
  simp [State.markLost]
@[simp] theorem State.markPresent_kept (s : State) (p a : Nat) : Kept (State.markPresent s p a) s := by
  unfold State.markPresent; (try dsimp only); (repeat' split) <;> simp
@[simp] theorem State.sendAssign_kept (s : State) (p : Nat) (dst : Byte) (uid : Uid) (plan : Plan) : Kept (State.sendAssign s p dst uid plan) s := by
  simp [State.sendAssign]
@[simp] theorem State.sendClaim_kept (s : State) (p : Nat) (nslot : Byte) (slotbt : Nat) : Kept (State.sendClaim s p nslot slotbt) s := by
  simp [State.sendClaim]
@[simp] theorem State.resendOutputs_kept (s : State) (p a : Nat) : Kept (State.resendOutputs s p a) s := by
  unfold State.resendOutputs; (try dsimp only); (repeat' split) <;> simp
@[simp] theorem State.judge_kept (s : State) (p : Nat) (l : List Nat) : Kept (State.judge s p l) s := by
  induction l generalizing s with
  | nil => simp [State.judge]
  | cons a l ih =>
    unfold State.judge; dsimp only
    refine Kept.trans (ih _) ?_
    (repeat' split) <;> simp
@[simp] theorem State.judgeSubset_kept (s : State) (p : Nat) : Kept (State.judgeSubset s p) s := by
  simp [State.judgeSubset]
theorem execGclEntryBoundary_kept (p : Port) (s : State) (z : State) (hz : execGclEntryBoundary p s = .next z) : Kept z s := by
  revert hz; unfold execGclEntryBoundary; (try dsimp only); (repeat' split) <;> (simp only [done_eq]; rintro rfl; simp)
theorem execBranchTxStart_kept (p : Port) (room at_ buf : Nat) (s : State) (z : State) (hz : execBranchTxStart p room at_ buf s = .next z) : Kept z s := by
  obtain rfl := (done_eq _ _ _).1 hz; simp
theorem execBranchTxEnd_kept (p : Port) (s : State) (z : State) (hz : execBranchTxEnd p s = .next z) : Kept z s := by
  revert hz; unfold execBranchTxEnd; (try dsimp only); (repeat' split) <;> (simp only [done_eq]; rintro rfl; simp)
@[simp] theorem State.modLeaf_kept (s : State) (u : Uid) (f : Node → Node) : Kept (State.modLeaf s u f) s := by
  unfold State.modLeaf; (try dsimp only); (repeat' split) <;> simp
@[simp] theorem State.brCollide_kept (s : State) (p bt : Nat) : Kept (State.brCollide s p bt) s := by
  unfold State.brCollide; (try dsimp only); (repeat' split) <;> simp
theorem execCollisionDetect_kept (p : Port) (by_ : Option Uid) (bt : Nat) (s : State) (z : State) (hz : execCollisionDetect p by_ bt s = .next z) : Kept z s := by
  revert hz; unfold execCollisionDetect; (try dsimp only); (repeat' split) <;> (simp only [done_eq]; rintro rfl; simp)
theorem execBackoffExpiry_kept (p : Port) (by_ : Option Uid) (room at_ buf : Nat) (s : State) (z : State) (hz : execBackoffExpiry p by_ room at_ buf s = .next z) : Kept z s := by
  revert hz; unfold execBackoffExpiry; (try dsimp only); (repeat' split) <;> (simp only [done_eq]; rintro rfl; simp)
theorem execScheduledOverAmplitude_kept (p : Port) (addr : Byte) (s : State) (z : State) (hz : execScheduledOverAmplitude p addr s = .next z) : Kept z s := by
  revert hz; unfold execScheduledOverAmplitude; (try dsimp only); (repeat' split) <;> (simp only [done_eq]; rintro rfl; simp)
theorem execBranchTxUnderrun_kept (p : Port) (why : TxFail) (s : State) (z : State)
    (hz : execBranchTxUnderrun p why s = .next z) : Kept z s := by
  revert hz; unfold execBranchTxUnderrun; dsimp only
  repeat' split
  all_goals (simp only [done_eq]; rintro rfl; rw [settle_kept'])
  all_goals first
    | (exact Kept.trans (State.engFault_kept _ _ _ _ _ _) (by simp))
    | simp
theorem execBranchRxBadFrame_kept (p : Port) (why : RxFail) (s : State) (z : State) (hz : execBranchRxBadFrame p why s = .next z) : Kept z s := by
  revert hz; unfold execBranchRxBadFrame; try dsimp only
  repeat' split
  all_goals (simp only [done_eq]; rintro rfl)
  repeat' (split <;> (try (rename_i h; have h2 := congrArg Prod.snd h; dsimp only at h2; clear h; subst h2)))
  all_goals first
    | done
    | (simp_all; done)
    | (apply foldl_kept; intro s x; (repeat' split) <;> simp_all; done)
    | (rename_i h; have h2 := congrArg Prod.snd h; dsimp only at h2; clear h; subst h2; simp_all; done)
    | (rename_i h _; have h2 := congrArg Prod.snd h; dsimp only at h2; clear h; subst h2; simp_all; done)
    | (rename_i h _ _; have h2 := congrArg Prod.snd h; dsimp only at h2; clear h; subst h2; simp_all; done)
    | skip
@[simp] theorem State.nodeValues_kept (s : State) (p a ch : Nat) (l : List ChanVal) : Kept (State.nodeValues s p a ch l) s := by
  simp [State.nodeValues]
theorem execBranchRxReport_kept (p : Port) (addr : Byte) (first : Nat) (vals : List ChanVal) (s : State) (z : State) (hz : execBranchRxReport p addr first vals s = .next z) : Kept z s := by
  revert hz; unfold execBranchRxReport; (try dsimp only); (repeat' split) <;> (simp only [done_eq]; rintro rfl; simp)
@[simp] theorem State.sentEvent_kept (s : State) (p : Nat) (addr seq ch : Byte) (v : ChanVal) :
    Kept (State.sentEvent s p addr seq ch v) s := by
  simp [State.sentEvent]
theorem execBranchRxEvent_kept (p : Port) (addr seq ch : Byte) (v : ChanVal) (s : State) (z : State) (hz : execBranchRxEvent p addr seq ch v s = .next z) : Kept z s := by
  revert hz; unfold execBranchRxEvent; (try dsimp only); (repeat' split) <;> (simp only [done_eq]; rintro rfl; simp)
@[simp] theorem State.response_kept (s : State) (p a : Nat) (seq op status : Byte) (data : List Byte) : Kept (State.response s p a seq op status data) s := by
  unfold State.response; (try dsimp only); (repeat' split) <;> simp
theorem execBranchRxResponse_kept (p : Port) (addr seq op status : Byte) (data : List Byte) (s : State) (z : State) (hz : execBranchRxResponse p addr seq op status data s = .next z) : Kept z s := by
  revert hz; unfold execBranchRxResponse; (try dsimp only); (repeat' split) <;> (simp only [done_eq]; rintro rfl; simp)
theorem execBranchRxClaim_kept (p : Port) (uid : Uid) (cls : Byte) (chmap : List Byte) (s : State) (z : State) (hz : execBranchRxClaim p uid cls chmap s = .next z) : Kept z s := by
  revert hz; unfold execBranchRxClaim; (try dsimp only); (repeat' split) <;> (simp only [done_eq]; rintro rfl; simp)
@[simp] theorem State.clearAddr_kept (s : State) (p : Nat) (addr : Byte) (uid : Uid) : Kept (State.clearAddr s p addr uid) s := by
  simp [State.clearAddr]
theorem execBranchRxRollcall_kept (p : Port) (addr : Byte) (uid : Uid) (_cls : Byte) (stat : BitVec 3) (s : State) (z : State) (hz : execBranchRxRollcall p addr uid _cls stat s = .next z) : Kept z s := by
  revert hz; unfold execBranchRxRollcall; (try dsimp only); (repeat' split) <;> (simp only [done_eq]; rintro rfl; simp)
theorem execSlotEnd_kept (p : Port) (addr : Byte) (s : State) (z : State) (hz : execSlotEnd p addr s = .next z) : Kept z s := by
  revert hz; unfold execSlotEnd; (try dsimp only); (repeat' split) <;> (simp only [done_eq]; rintro rfl; simp)
theorem execNodeLostTimeout_kept (p : Port) (addr : Byte) (s : State) (z : State) (hz : execNodeLostTimeout p addr s = .next z) : Kept z s := by
  revert hz; unfold execNodeLostTimeout; (try dsimp only); (repeat' split) <;> (simp only [done_eq]; rintro rfl; simp)
theorem execAssignRetryTimeout_kept (p : Port) (addr : Byte) (s : State) (z : State) (hz : execAssignRetryTimeout p addr s = .next z) : Kept z s := by
  revert hz; unfold execAssignRetryTimeout; (try dsimp only); (repeat' split) <;> (simp only [done_eq]; rintro rfl; simp)
theorem execNodeCommandTimeout_kept (p : Port) (addr : Byte) (s : State) (z : State) (hz : execNodeCommandTimeout p addr s = .next z) : Kept z s := by
  revert hz; unfold execNodeCommandTimeout; (try dsimp only); (repeat' split) <;> (simp only [done_eq]; rintro rfl; simp)
theorem execClaimBroadcastTimer_kept (p : Port) (s : State) (z : State) (hz : execClaimBroadcastTimer p s = .next z) : Kept z s := by
  revert hz; unfold execClaimBroadcastTimer; (try dsimp only); (repeat' split) <;> (simp only [done_eq]; rintro rfl; simp)
theorem execDormancyEntry_kept (p : Port) (s : State) (z : State) (hz : execDormancyEntry p s = .next z) : Kept z s := by
  revert hz; unfold execDormancyEntry; (try dsimp only); (repeat' split) <;> (simp only [done_eq]; rintro rfl; simp)
theorem execDormantBeacon_kept (p : Port) (s : State) (z : State) (hz : execDormantBeacon p s = .next z) : Kept z s := by
  revert hz; unfold execDormantBeacon; (try dsimp only); (repeat' split) <;> (simp only [done_eq]; rintro rfl; simp)
theorem execWakeTrainStart_kept (p : Port) (s : State) (z : State) (hz : execWakeTrainStart p s = .next z) : Kept z s := by
  revert hz; unfold execWakeTrainStart; (try dsimp only); (repeat' split) <;> (simp only [done_eq]; rintro rfl; simp)
theorem execWakePulse_kept (p : Port) (s : State) (z : State) (hz : execWakePulse p s = .next z) : Kept z s := by
  revert hz; unfold execWakePulse; (try dsimp only); (repeat' split) <;> (simp only [done_eq]; rintro rfl; simp)
theorem execDormancyEnd_kept (p : Port) (s : State) (z : State) (hz : execDormancyEnd p s = .next z) : Kept z s := by
  revert hz; unfold execDormancyEnd; (try dsimp only); (repeat' split) <;> (simp only [done_eq]; rintro rfl; simp)
/-! ### Machine/Nodes -/

theorem execNodePowerUp_kept (p : Port) (uid : Uid) (cls : Byte) (chmap : List Byte) (factory fault : Bool) (key : Option (BitVec 256)) (timer : Nat) (s : State) (z : State) (hz : execNodePowerUp p uid cls chmap factory fault key timer s = .next z) : Kept z s := by
  obtain rfl := (done_eq _ _ _).1 hz; simp
theorem execNodeClaimBroadcastRx_kept (uid : Uid) (nslot : Byte) (slotbt : Nat) (claimOpen : Bool) (timer : Nat) (s : State) (z : State) (hz : execNodeClaimBroadcastRx uid nslot slotbt claimOpen timer s = .next z) : Kept z s := by
  revert hz; unfold execNodeClaimBroadcastRx; (try dsimp only); (repeat' split) <;> (simp only [done_eq]; rintro rfl; simp)
theorem execNodeClaimSlot_kept (uid : Uid) (timer : Nat) (s : State) (z : State) (hz : execNodeClaimSlot uid timer s = .next z) : Kept z s := by
  obtain rfl := (done_eq _ _ _).1 hz; simp
theorem execNodeAssignRx_kept (uid : Uid) (dst : Byte) (target : Uid) (plan : Plan) (timer : Nat) (s : State) (z : State) (hz : execNodeAssignRx uid dst target plan timer s = .next z) : Kept z s := by
  obtain rfl := (done_eq _ _ _).1 hz; simp
theorem execNodeBeaconRx_kept (uid : Uid) (b : Beacon) (timer : Nat) (s : State) (z : State) (hz : execNodeBeaconRx uid b timer s = .next z) : Kept z s := by
  obtain rfl := (done_eq _ _ _).1 hz; simp
theorem execNodeSlotStart_kept (uid : Uid) (first : Nat) (vals : List ChanVal) (s : State) (z : State) (hz : execNodeSlotStart uid first vals s = .next z) : Kept z s := by
  obtain rfl := (done_eq _ _ _).1 hz; simp
theorem execNodeOutputRx_kept (uid : Uid) (dst : Byte) (first : Nat) (vals : List V24) (s : State) (z : State) (hz : execNodeOutputRx uid dst first vals s = .next z) : Kept z s := by
  obtain rfl := (done_eq _ _ _).1 hz; simp
theorem execNodeFallbackTimeout_kept (uid : Uid) (timer : Nat) (s : State) (z : State) (hz : execNodeFallbackTimeout uid timer s = .next z) : Kept z s := by
  obtain rfl := (done_eq _ _ _).1 hz; simp
theorem execNodeWindowOpen_kept (uid : Uid) (timer : Nat) (s : State) (z : State) (hz : execNodeWindowOpen uid timer s = .next z) : Kept z s := by
  obtain rfl := (done_eq _ _ _).1 hz; simp
theorem execNodeWindowClose_kept (uid : Uid) (timer : Nat) (s : State) (z : State) (hz : execNodeWindowClose uid timer s = .next z) : Kept z s := by
  obtain rfl := (done_eq _ _ _).1 hz; simp
theorem execNodeSeekTimeout_kept (uid : Uid) (timer : Nat) (s : State) (z : State) (hz : execNodeSeekTimeout uid timer s = .next z) : Kept z s := by
  obtain rfl := (done_eq _ _ _).1 hz; simp
theorem execNodeSniff_kept (uid : Uid) (carrier : Bool) (timer : Nat) (s : State) (z : State) (hz : execNodeSniff uid carrier timer s = .next z) : Kept z s := by
  obtain rfl := (done_eq _ _ _).1 hz; simp
theorem execNodeWakeCondition_kept (uid : Uid) (ch : BitVec 6) (timer : Nat) (s : State) (z : State) (hz : execNodeWakeCondition uid ch timer s = .next z) : Kept z s := by
  obtain rfl := (done_eq _ _ _).1 hz; simp
@[simp] theorem State.nodeCommand_kept (s : State) (uid : Uid) (dst seq op : Byte) (act : Node → Node × Byte × List Byte) : Kept (State.nodeCommand s uid dst seq op act) s := by
  simp [State.nodeCommand]
theorem execReadInfo_kept (uid : Uid) (dst seq : Byte) (s : State) (z : State) (hz : execReadInfo uid dst seq s = .next z) : Kept z s := by
  obtain rfl := (done_eq _ _ _).1 hz; simp
theorem execSetFallback_kept (uid : Uid) (dst seq : Byte) (fbt : Nat) (entries : List (Nat × V24)) (s : State) (z : State) (hz : execSetFallback uid dst seq fbt entries s = .next z) : Kept z s := by
  obtain rfl := (done_eq _ _ _).1 hz; simp
theorem execIdentify_kept (uid : Uid) (dst seq : Byte) (seconds : Byte) (s : State) (z : State) (hz : execIdentify uid dst seq seconds s = .next z) : Kept z s := by
  obtain rfl := (done_eq _ _ _).1 hz; simp
theorem execSetWake_kept (uid : Uid) (dst seq : Byte) (mask : BitVec 64) (s : State) (z : State) (hz : execSetWake uid dst seq mask s = .next z) : Kept z s := by
  obtain rfl := (done_eq _ _ _).1 hz; simp
theorem execForget_kept (uid : Uid) (dst seq : Byte) (target : Uid) (s : State) (z : State) (hz : execForget uid dst seq target s = .next z) : Kept z s := by
  obtain rfl := (done_eq _ _ _).1 hz; simp
theorem execSetRamp_kept (uid : Uid) (dst seq : Byte) (ramp : Nat) (s : State) (z : State) (hz : execSetRamp uid dst seq ramp s = .next z) : Kept z s := by
  obtain rfl := (done_eq _ _ _).1 hz; simp
/-! ### Machine/Clock -/

@[simp] theorem State.putRtc_kept (s : State) (c : Calendar) : Kept (State.putRtc s c) s := by
  simp [State.putRtc]
@[simp] theorem State.writeRtc_kept (s : State) (ms : Nat) : Kept (State.writeRtc s ms) s := by
  simp [State.writeRtc]
@[simp] theorem State.setUtcAt_kept (s : State) (src : TimeSource) (ms : Nat) (at_ : Int) : Kept (State.setUtcAt s src ms at_) s := by
  unfold State.setUtcAt; (try dsimp only); (repeat' split) <;> simp
@[simp] theorem State.setUtc_kept (s : State) (src : TimeSource) (ms : Nat) : Kept (State.setUtc s src ms) s := by
  simp [State.setUtc]
@[simp] theorem State.ringUtc_kept (s : State) (u : UtcMap) : Kept (State.ringUtc s u) s := by
  simp [State.ringUtc]
@[simp] theorem State.ringEnter_kept (s : State) : Kept (State.ringEnter s) s := by
  unfold State.ringEnter; (try dsimp only); (repeat' split) <;> simp
@[simp] theorem State.hostTime_kept (s : State) (ms : Nat) : Kept (State.hostTime s ms) s := by
  simp [State.hostTime]
@[simp] theorem State.setOffset_kept (s : State) (o : Int) : Kept (State.setOffset s o) s := by
  simp [State.setOffset]
@[simp] theorem State.ringMapping_kept (s : State) (u : UtcMap) : Kept (State.ringMapping s u) s := by
  unfold State.ringMapping; (try dsimp only); (repeat' split) <;> simp
@[simp] theorem State.ringLoss_kept (s : State) : Kept (State.ringLoss s) s := by
  unfold State.ringLoss; (try dsimp only); (repeat' split) <;> simp
@[simp] theorem State.timeStart_kept (s : State) : Kept (State.timeStart s) s := by
  unfold State.timeStart; (try dsimp only); (repeat' split) <;> simp
@[simp] theorem State.rtcCommit_kept (s : State) : Kept (State.rtcCommit s) s := by
  unfold State.rtcCommit; (try dsimp only); (repeat' split) <;> simp
@[simp] theorem State.rtcFreeze_kept (s : State) : Kept (State.rtcFreeze s) s := by
  simp [State.rtcFreeze]
theorem execRtcSecond_kept (s : State) (z : State) (hz : execRtcSecond s = .next z) : Kept z s := by
  revert hz; unfold execRtcSecond; (try dsimp only); (repeat' split) <;> (simp only [done_eq]; rintro rfl; simp)
theorem execRtcFreezeTimeout_kept (s : State) (z : State) (hz : execRtcFreezeTimeout s = .next z) : Kept z s := by
  revert hz; unfold execRtcFreezeTimeout; (try dsimp only); (repeat' split) <;> (simp only [done_eq]; rintro rfl; simp)
theorem execRtcCommitDone_kept (s : State) (z : State) (hz : execRtcCommitDone s = .next z) : Kept z s := by
  revert hz; unfold execRtcCommitDone; (try dsimp only); (repeat' split) <;> (simp only [done_eq]; rintro rfl; simp)
theorem execRtcTrimWindow_kept (s : State) (z : State) (hz : execRtcTrimWindow s = .next z) : Kept z s := by
  obtain rfl := (done_eq _ _ _).1 hz; simp
theorem execRtcAtrimMeasure_kept (s : State) (z : State) (hz : execRtcAtrimMeasure s = .next z) : Kept z s := by
  revert hz; unfold execRtcAtrimMeasure; (try dsimp only); (repeat' split) <;> (simp only [done_eq]; rintro rfl; simp)
theorem execRtcSyncCheck_kept (s : State) (z : State) (hz : execRtcSyncCheck s = .next z) : Kept z s := by
  revert hz; unfold execRtcSyncCheck; (try dsimp only); (repeat' split) <;> (simp only [done_eq]; rintro rfl; simp)
theorem execRingTimeLoss_kept (s : State) (z : State) (hz : execRingTimeLoss s = .next z) : Kept z s := by
  revert hz; unfold execRingTimeLoss; (try dsimp only); (repeat' split) <;> (simp only [done_eq]; rintro rfl; simp)
theorem execVbatLowDetect_kept (s : State) (z : State) (hz : execVbatLowDetect s = .next z) : Kept z s := by
  revert hz; unfold execVbatLowDetect; (try dsimp only); (repeat' split) <;> (simp only [done_eq]; rintro rfl; simp)
theorem execVbatRestored_kept (s : State) (z : State) (hz : execVbatRestored s = .next z) : Kept z s := by
  revert hz; unfold execVbatRestored; (try dsimp only); (repeat' split) <;> (simp only [done_eq]; rintro rfl; simp)
/-! ### Machine/TrunkPort -/

@[simp] theorem State.takeTrkSwap_kept (s : State) (t : TrunkPort) : Kept (State.takeTrkSwap s t) s := by
  unfold State.takeTrkSwap; (try dsimp only); (repeat' split) <;> simp
@[simp] theorem State.sendBy_kept (s : State) (t : TrunkPort) (f : TrkOut) : Kept (State.sendBy s t f) s := by
  simp [State.sendBy]
@[simp] theorem State.nextSeq_kept (s : State) (c : Nat) : Kept (State.nextSeq s c).2 s := by
  simp [State.nextSeq]
@[simp] theorem State.sendAll_kept (s : State) (f : TrkOut) : Kept (State.sendAll s f) s := by
  unfold State.sendAll; (try dsimp only); (repeat' split) <;> simp
@[simp] theorem State.trkSend_kept (s : State) (dst : Byte) (cls : Nat) (tenant : Tenant) (len : Nat) (body : List Byte := []) : Kept (State.trkSend s dst cls tenant len body) s := by
  unfold State.trkSend; (try dsimp only); (repeat' split) <;> simp
@[simp] theorem State.sendParts_kept (s : State) (dst : Byte) (cls : Nat) (tenant : Tenant) (n : Nat) (l : List Byte) :
    Kept (s.sendParts dst cls tenant n l) s := by
  induction n generalizing s l with
  | zero => simp [State.sendParts]
  | succ n ih =>
    unfold State.sendParts; dsimp only
    split
    · simp
    · exact Kept.trans (ih _ _) (by simp)
@[simp] theorem State.sendOutbox_kept (s : State) : Kept s.sendOutbox s := by
  unfold State.sendOutbox; extract_lets near
  refine Kept.trans (foldl_kept _ _ _ ?_) (by simp)
  intro s x; split <;> simp
@[simp] theorem State.topoBroadcast_kept (s : State) : Kept (State.topoBroadcast s) s := by
  unfold State.topoBroadcast; (try dsimp only); (repeat' split) <;> simp
@[simp] theorem State.trkEvent_kept (s : State) (t : TrunkPort) (code : Nat) (data : List Word) : Kept (State.trkEvent s t code data) s := by
  simp [State.trkEvent]
@[simp] theorem State.retime_kept (s : State) : Kept (State.retime s) s := by
  simp [State.retime]
@[simp] theorem State.wrap_kept (s : State) (t : TrunkPort) : Kept (State.wrap s t) s := by
  simp [State.wrap]
@[simp] theorem State.linkFault_kept (s : State) (t : TrunkPort) : Kept (State.linkFault s t) s := by
  unfold State.linkFault; (try dsimp only); (repeat' split) <;> simp
@[simp] theorem State.advertiseSelf_kept (s : State) : Kept (State.advertiseSelf s) s := by
  simp [State.advertiseSelf]
@[simp] theorem State.tmChanged_kept (s : State) (old : Byte) : Kept (State.tmChanged s old) s := by
  unfold State.tmChanged; (try dsimp only); (repeat' split) <;> simp
@[simp] theorem State.weighSelf_kept (s : State) : Kept (State.weighSelf s) s := by
  unfold State.weighSelf; (try dsimp only); (repeat' split) <;> simp
@[simp] theorem State.dropMaster_kept (s : State) : Kept (State.dropMaster s) s := by
  unfold State.dropMaster; (try dsimp only); (repeat' split) <;> simp
@[simp] theorem State.advert_kept (s : State) (h : TrkHeader) : Kept (State.advert s h) s := by
  unfold State.advert; (try dsimp only); (repeat' split) <;> simp
@[simp] theorem State.portDown_kept (s : State) (t : TrunkPort) (x : TrkPort) : Kept (State.portDown s t x) s := by
  simp [State.portDown]
@[simp] theorem State.evalPort_kept (s : State) (t : TrunkPort) : Kept (State.evalPort s t) s := by
  unfold State.evalPort; (try dsimp only); (repeat' split) <;> simp
/-! ### Machine/TrunkCmds -/

theorem execSuperframeStart_kept (s : State) (z : State) (hz : execSuperframeStart s = .next z) : Kept z s := by
  revert hz; unfold execSuperframeStart; (try dsimp only); (repeat' split) <;> (simp only [done_eq]; rintro rfl; simp)
theorem execFawSighting_kept (t : TrunkPort) (l : Lane) (pos : Nat) (s : State) (z : State) (hz : execFawSighting t l pos s = .next z) : Kept z s := by
  revert hz; unfold execFawSighting; (try dsimp only); (repeat' split) <;> (simp only [done_eq]; rintro rfl; simp)
theorem execFawPosition_missed_kept (t : TrunkPort) (l : Lane) (s : State) (x : TrkPort) (y : LaneSt) (next : Nat) :
    Kept (execFawPosition.missed t l s x y next) s := by
  unfold execFawPosition.missed; dsimp only
  repeat' split
  all_goals simp
theorem execFawPosition_kept (t : TrunkPort) (l : Lane) (pos : Nat) (hdr : Option (Nat × Nat)) (s : State) (z : State)
    (hz : execFawPosition t l pos hdr s = .next z) : Kept z s := by
  revert hz; unfold execFawPosition; dsimp only
  repeat' split
  all_goals (simp only [done_eq]; rintro rfl)
  all_goals first
    | (simp; done)
    | (rw [settle_kept']; exact execFawPosition_missed_kept _ _ _ _ _ _)
theorem execTrunkRxHeader_kept (t : TrunkPort) (h : TrkHeader) (own : Option Int) (s : State) (z : State) (hz : execTrunkRxHeader t h own s = .next z) : Kept z s := by
  revert hz; unfold execTrunkRxHeader; (try dsimp only); (repeat' split) <;> (simp only [done_eq]; rintro rfl; simp)
theorem execTimeMasterTimeout_kept (s : State) (z : State) (hz : execTimeMasterTimeout s = .next z) : Kept z s := by
  revert hz; unfold execTimeMasterTimeout; (try dsimp only); (repeat' split) <;> (simp only [done_eq]; rintro rfl; simp)
@[simp] theorem State.relayFrame_kept (s : State) (t : TrunkPort) (f : TrkFrame) : Kept (State.relayFrame s t f) s := by
  unfold State.relayFrame; (try dsimp only); (repeat' split) <;> simp
@[simp] theorem State.takeFrame_kept (s : State) (t : TrunkPort) (f : TrkFrame) : Kept (State.takeFrame s t f).2 s := by
  unfold State.takeFrame; (try dsimp only); (repeat' split) <;> simp
theorem execTrunkRxFrame_kept (t : TrunkPort) (f : TrkFrame) (crc : PayCrc) (fault : Option EngFault) (full : Bool) (s : State) (z : State) (hz : execTrunkRxFrame t f crc fault full s = .next z) : Kept z s := by
  revert hz; unfold execTrunkRxFrame; try dsimp only
  repeat' split
  all_goals (simp only [done_eq]; rintro rfl)
  repeat' (split <;> (try (rename_i h; have h2 := congrArg Prod.snd h; dsimp only at h2; clear h; subst h2)))
  all_goals first
    | done
    | (simp_all; done)
    | (apply foldl_kept; intro s x; (repeat' split) <;> simp_all; done)
    | (rename_i h; have h2 := congrArg Prod.snd h; dsimp only at h2; clear h; subst h2; simp_all; done)
    | (rename_i h _; have h2 := congrArg Prod.snd h; dsimp only at h2; clear h; subst h2; simp_all; done)
    | (rename_i h _ _; have h2 := congrArg Prod.snd h; dsimp only at h2; clear h; subst h2; simp_all; done)
    | skip
theorem execTrunkRxBadFrame_kept (t : TrunkPort) (header : Bool) (s : State) (z : State) (hz : execTrunkRxBadFrame t header s = .next z) : Kept z s := by
  revert hz; unfold execTrunkRxBadFrame; (try dsimp only); (repeat' split) <;> (simp only [done_eq]; rintro rfl; simp)
theorem execTrunkRxTopology_kept (t : TrunkPort) (f : TrkFrame) (b : Topology) (s : State) (z : State) (hz : execTrunkRxTopology t f b s = .next z) : Kept z s := by
  revert hz; unfold execTrunkRxTopology; (try dsimp only); (repeat' split) <;> (simp only [done_eq]; rintro rfl; simp)
theorem execTrunkRxUtcMapping_kept (t : TrunkPort) (f : TrkFrame) (m : UtcMap) (s : State) (z : State) (hz : execTrunkRxUtcMapping t f m s = .next z) : Kept z s := by
  revert hz; unfold execTrunkRxUtcMapping; (try dsimp only); (repeat' split) <;> (simp only [done_eq]; rintro rfl; simp)
theorem execTrunkRxReplicaBlock_kept (t : TrunkPort) (f : TrkFrame) (seg blk : Nat) (data : List Byte) (s z : State)
    (hz : execTrunkRxReplicaBlock t f seg blk data s = .next z) : Kept z s := by
  revert hz; unfold execTrunkRxReplicaBlock; dsimp only
  repeat' split
  all_goals (simp only [done_eq]; rintro rfl; rw [settle_kept'])
  · cases hb : ((s.takeFrame t f).2.writeBlock f.tenant 1 f.src { t0 := s.now, source := 0#2, pcc := 0#24, replica := data }) with
    | none => simp_all
    | some u => have k := State.writeBlock_kept _ _ _ _ _ _ hb; simp_all
  all_goals simp
theorem execUnwrap_kept (t : TrunkPort) (s : State) (z : State) (hz : execUnwrap t s = .next z) : Kept z s := by
  revert hz; unfold execUnwrap; (try dsimp only); (repeat' split) <;> (simp only [done_eq]; rintro rfl; simp)
theorem execTrunkTxUnderrun_kept (t : TrunkPort) (n : Nat) (why : TxFail) (s : State) (z : State) (hz : execTrunkTxUnderrun t n why s = .next z) : Kept z s := by
  revert hz; unfold execTrunkTxUnderrun; try dsimp only
  repeat' split
  all_goals (simp only [done_eq]; rintro rfl)
  repeat' (split <;> (try (rename_i h; have h2 := congrArg Prod.snd h; dsimp only at h2; clear h; subst h2)))
  all_goals first
    | done
    | (simp_all; done)
    | (apply foldl_kept; intro s x; (repeat' split) <;> simp_all; done)
    | (rename_i h; have h2 := congrArg Prod.snd h; dsimp only at h2; clear h; subst h2; simp_all; done)
    | (rename_i h _; have h2 := congrArg Prod.snd h; dsimp only at h2; clear h; subst h2; simp_all; done)
    | (rename_i h _ _; have h2 := congrArg Prod.snd h; dsimp only at h2; clear h; subst h2; simp_all; done)
    | skip
@[simp] theorem State.trkCtrl_kept (s : State) (t : TrunkPort) (v : Word) : Kept (State.trkCtrl s t v) s := by
  unfold State.trkCtrl; (try dsimp only); (repeat' split) <;> simp
theorem execTrainingFrameRx_kept (t : TrunkPort) (l : Lane) (ctrl : BitVec 12) (crcOk rxReady : Bool) (s : State) (z : State) (hz : execTrainingFrameRx t l ctrl crcOk rxReady s = .next z) : Kept z s := by
  revert hz; unfold execTrainingFrameRx; (try dsimp only); (repeat' split) <;> (simp only [done_eq]; rintro rfl; simp)
theorem execLaneTrainingTimeout_kept (t : TrunkPort) (l : Lane) (s : State) (z : State) (hz : execLaneTrainingTimeout t l s = .next z) : Kept z s := by
  revert hz; unfold execLaneTrainingTimeout; (try dsimp only); (repeat' split) <;> (simp only [done_eq]; rintro rfl; simp)

end Sys2Proof.Machine
end

