-- ==== Sys2Proof/Laws/FrameMemory.lean ====
section
/-! SUPPORT. What the operations and commands leave unchanged: DMA. -/
namespace Sys2Proof.Machine

/-! ### Machine/Dma -/

@[simp] theorem State.setDch_kept (s : State) (d c : Nat) (x : DmaCh) : Kept (State.setDch s d c x) s := by
  simp [State.setDch]
@[simp] theorem State.modDch_kept (s : State) (d c : Nat) (f : DmaCh → DmaCh) : Kept (State.modDch s d c f) s := by
  simp [State.modDch]
@[simp] theorem State.dmaIrq_kept (s : State) (d i : Nat) : Kept (State.dmaIrq s d i) s := by
  simp [State.dmaIrq]
@[simp] theorem State.flushWb_sec (s : State) (d c : Nat) : KeptSec (State.flushWb s d c).2 s := by
  unfold State.flushWb; dsimp only; split
  · simp
  · split
    · simp
    · split <;> (rename_i h; obtain rfl := snd_of h; simp)
@[simp] theorem State.flushWb_wf (s : State) (d c : Nat) (hw : MemWf s) : MemWf (State.flushWb s d c).2 := by
  unfold State.flushWb; dsimp only; split
  · exact hw
  · split
    · exact State.writeLine_wf _ _ _ (by simpa using hw)
    · split <;> (rename_i h; obtain rfl := snd_of h; clear h; simp_all)
@[simp] theorem State.markStop_kept (s : State) (d c : Nat) (st : DmaState) (reason faddr : Nat) (write index point : Bool) :
    Kept (s.markStop d c st reason faddr write index point) s := by
  unfold State.markStop; dsimp only; split <;> simp
@[simp] theorem State.wbFail_kept (s : State) (d c : Nat) : Kept (s.wbFail d c) s := by
  simp [State.wbFail]
@[simp] theorem State.writeOut_sec (s : State) (d c : Nat) : KeptSec (s.writeOut d c) s := by
  unfold State.writeOut; split <;> (rename_i h; obtain rfl := snd_of h; simp)
@[simp] theorem State.writeOut_wf (s : State) (d c : Nat) (hw : MemWf s) : MemWf (s.writeOut d c) := by
  unfold State.writeOut; split <;> (rename_i h; obtain rfl := snd_of h; clear h; simp_all)
@[simp] theorem State.abortEnd_sec (s : State) (d c : Nat) : KeptSec (s.abortEnd d c) s := by
  unfold State.abortEnd; split <;> (rename_i h; obtain rfl := snd_of h; simp)
@[simp] theorem State.abortEnd_wf (s : State) (d c : Nat) (hw : MemWf s) : MemWf (s.abortEnd d c) := by
  unfold State.abortEnd; split <;> (rename_i h; obtain rfl := snd_of h; clear h; simp_all)
@[simp] theorem State.stopDma_sec (s : State) (d c : Nat) (st : DmaState) (reason faddr : Nat) (write index point : Bool) : KeptSec (s.stopDma d c st reason faddr write index point) s := by
  unfold State.stopDma; split <;> (rename_i h; obtain rfl := snd_of h; simp)
@[simp] theorem State.stopDma_wf (s : State) (d c : Nat) (st : DmaState) (reason faddr : Nat) (write index point : Bool) (hw : MemWf s) : MemWf (s.stopDma d c st reason faddr write index point) := by
  unfold State.stopDma; split <;> (rename_i h; obtain rfl := snd_of h; clear h; simp_all)
@[simp] theorem State.accStop_sec (s : State) (d c : Nat) (e : AccErr) (faddr : Nat) (write index : Bool) : KeptSec (State.accStop s d c e faddr write index) s := by
  unfold State.accStop; (try dsimp only); (repeat' split) <;> simp
@[simp] theorem State.accStop_wf (s : State) (d c : Nat) (e : AccErr) (faddr : Nat) (write index : Bool) (hw : MemWf s) : MemWf (State.accStop s d c e faddr write index) := by
  unfold State.accStop; (try dsimp only); (repeat' split) <;> simp_all
@[simp] theorem State.haltDma_sec (s : State) (d c reason faddr : Nat) (write point : Bool) : KeptSec (State.haltDma s d c reason faddr write point) s := by
  simp [State.haltDma]
@[simp] theorem State.haltDma_wf (s : State) (d c reason faddr : Nat) (write point : Bool) (hw : MemWf s) : MemWf (State.haltDma s d c reason faddr write point) := by
  simp_all [State.haltDma]
@[simp] theorem State.fetchDesc_sec (s : State) (d c : Nat) : KeptSec (State.fetchDesc s d c) s := by
  unfold State.fetchDesc; try dsimp only
  repeat' (split <;> (try (rename_i h; have h2 := congrArg Prod.snd h; dsimp only at h2; clear h; subst h2)))
  all_goals first
    | done
    | (simp_all; done)
    | (apply foldl_sec; intro s x; (repeat' split) <;> simp_all; done)
    | (rename_i h; have h2 := congrArg Prod.snd h; dsimp only at h2; clear h; subst h2; simp_all; done)
    | (rename_i h _; have h2 := congrArg Prod.snd h; dsimp only at h2; clear h; subst h2; simp_all; done)
    | (rename_i h _ _; have h2 := congrArg Prod.snd h; dsimp only at h2; clear h; subst h2; simp_all; done)
    | skip
@[simp] theorem State.fetchDesc_wf (s : State) (d c : Nat) (hw : MemWf s) : MemWf (State.fetchDesc s d c) := by
  unfold State.fetchDesc; try dsimp only
  repeat' (split <;> (try (rename_i h; have h2 := congrArg Prod.snd h; dsimp only at h2; clear h; subst h2)))
  all_goals first
    | done
    | (simp_all; done)
    | (apply foldl_wf (hw := by simp_all); intro s x hx; (repeat' split) <;> simp_all; done)
    | (rename_i h; have h2 := congrArg Prod.snd h; dsimp only at h2; clear h; subst h2; simp_all; done)
    | (rename_i h _; have h2 := congrArg Prod.snd h; dsimp only at h2; clear h; subst h2; simp_all; done)
    | (rename_i h _ _; have h2 := congrArg Prod.snd h; dsimp only at h2; clear h; subst h2; simp_all; done)
    | skip
@[simp] theorem State.fillPort_kept (s : State) (d c n f : Nat) : Kept (s.fillPort d c n f) s := by
  induction f generalizing s with
  | zero => simp [State.fillPort]
  | succ f ih =>
    unfold State.fillPort
    repeat' split
    · simp
    · simp
    · exact Kept.trans (ih _) (by simp)
@[simp] theorem State.dmaRead_kept (s : State) (d c sp a n : Nat) : Kept (s.dmaRead d c sp a n).2 s := by
  unfold State.dmaRead; dsimp only
  split
  · exact State.readVa_kept _ _ _ _ _ _
  · simp
  · split
    · simp
    · split
      · simp
      · dsimp only; split <;> simp
@[simp] theorem State.dmaTargets_kept (s : State) (d c a : Nat) (n : Nat) : Kept (State.dmaTargets s d c a n).2 s := by
  induction n generalizing s d c a with
  | zero => unfold State.dmaTargets; (try dsimp only); (repeat' (split <;> (try (rename_i h; have h2 := congrArg Prod.snd h; dsimp only at h2; clear h; subst h2)))) <;>
    first
    | done
    | (simp_all; done)
    | (rename_i h; have h2 := congrArg Prod.snd h; dsimp only at h2; clear h; subst h2; simp_all; done)
    | (rename_i h _; have h2 := congrArg Prod.snd h; dsimp only at h2; clear h; subst h2; simp_all; done)
    | (rename_i h _ _; have h2 := congrArg Prod.snd h; dsimp only at h2; clear h; subst h2; simp_all; done)
    | skip
  | succ n ih => unfold State.dmaTargets; (try dsimp only); (repeat' (split <;> (try (rename_i h; have h2 := congrArg Prod.snd h; dsimp only at h2; clear h; subst h2)))) <;>
    first
    | done
    | (simp_all; done)
    | (rename_i h; have h2 := congrArg Prod.snd h; dsimp only at h2; clear h; subst h2; simp_all; done)
    | (rename_i h _; have h2 := congrArg Prod.snd h; dsimp only at h2; clear h; subst h2; simp_all; done)
    | (rename_i h _ _; have h2 := congrArg Prod.snd h; dsimp only at h2; clear h; subst h2; simp_all; done)
    | skip
@[simp] theorem State.bufferBytes_sec (s : State) (d c va : Nat) (l : List (Nat × Byte)) : KeptSec (s.bufferBytes d c va l).2 s := by
  induction l generalizing s va with
  | nil => simp [State.bufferBytes]
  | cons a l ih =>
    unfold State.bufferBytes; dsimp only
    repeat' split
    all_goals (simp_all; done)
@[simp] theorem State.bufferBytes_wf (s : State) (d c va : Nat) (l : List (Nat × Byte)) (hw : MemWf s) : MemWf (s.bufferBytes d c va l).2 := by
  induction l generalizing s va with
  | nil => simpa [State.bufferBytes] using hw
  | cons a l ih =>
    have hmod : ∀ (u : State) (f : DmaCh → DmaCh), MemWf u → MemWf (u.modDch d c f) := by intro u f h; simp_all
    unfold State.bufferBytes; dsimp only
    repeat' split
    all_goals first
      | exact hw
      | exact State.flushWb_wf _ _ _ hw
      | exact ih _ _ (hmod _ _ hw)
      | exact ih _ _ (hmod _ _ (State.flushWb_wf _ _ _ hw))
      | exact ih _ _ (State.flushWb_wf _ _ _ (hmod _ _ hw))
      | exact ih _ _ (State.flushWb_wf _ _ _ (hmod _ _ (State.flushWb_wf _ _ _ hw)))
      | exact State.flushWb_wf _ _ _ (hmod _ _ hw)
      | exact State.flushWb_wf _ _ _ (hmod _ _ (State.flushWb_wf _ _ _ hw))
@[simp] theorem State.dmaWrite_sec (s : State) (d c sp a : Nat) (data : List Byte) : KeptSec (State.dmaWrite s d c sp a data).2 s := by
  unfold State.dmaWrite; split
  · simp
  · split
    · rename_i h; obtain rfl := snd_of h; simp
    · rename_i h; obtain rfl := snd_of h
      split <;> (rename_i h; obtain rfl := snd_of h; simp)
@[simp] theorem State.dmaWrite_wf (s : State) (d c sp a : Nat) (data : List Byte) (hw : MemWf s) : MemWf (State.dmaWrite s d c sp a data).2 := by
  unfold State.dmaWrite; split
  · simpa using hw
  · split
    · rename_i h; obtain rfl := snd_of h; simpa using hw
    · rename_i h; obtain rfl := snd_of h
      split <;> (rename_i h; obtain rfl := snd_of h; exact State.bufferBytes_wf _ _ _ _ _ (by simpa using hw))
@[simp] theorem State.advance_sec (s : State) (d c n : Nat) (de : Descriptor) : KeptSec (State.advance s d c n de) s := by
  unfold State.advance; (try dsimp only); (repeat' split) <;> simp
@[simp] theorem State.advance_wf (s : State) (d c n : Nat) (de : Descriptor) (hw : MemWf s) : MemWf (State.advance s d c n de) := by
  unfold State.advance; (try dsimp only); (repeat' split) <;> simp_all
@[simp] theorem State.moveBits_sec (s : State) (d c : Nat) (de : Descriptor) : KeptSec (State.moveBits s d c de) s := by
  unfold State.moveBits; try dsimp only
  repeat' (split <;> (try (rename_i h; have h2 := congrArg Prod.snd h; dsimp only at h2; clear h; subst h2)))
  all_goals first
    | done
    | (simp_all; done)
    | (apply foldl_sec; intro s x; (repeat' split) <;> simp_all; done)
    | (rename_i h; have h2 := congrArg Prod.snd h; dsimp only at h2; clear h; subst h2; simp_all; done)
    | (rename_i h _; have h2 := congrArg Prod.snd h; dsimp only at h2; clear h; subst h2; simp_all; done)
    | (rename_i h _ _; have h2 := congrArg Prod.snd h; dsimp only at h2; clear h; subst h2; simp_all; done)
    | skip
@[simp] theorem State.moveBits_wf (s : State) (d c : Nat) (de : Descriptor) (hw : MemWf s) : MemWf (State.moveBits s d c de) := by
  unfold State.moveBits; try dsimp only
  repeat' (split <;> (try (rename_i h; have h2 := congrArg Prod.snd h; dsimp only at h2; clear h; subst h2)))
  all_goals first
    | done
    | (simp_all; done)
    | (apply foldl_wf (hw := by simp_all); intro s x hx; (repeat' split) <;> simp_all; done)
    | (rename_i h; have h2 := congrArg Prod.snd h; dsimp only at h2; clear h; subst h2; simp_all; done)
    | (rename_i h _; have h2 := congrArg Prod.snd h; dsimp only at h2; clear h; subst h2; simp_all; done)
    | (rename_i h _ _; have h2 := congrArg Prod.snd h; dsimp only at h2; clear h; subst h2; simp_all; done)
    | skip
@[simp] theorem State.dmaFeed_kept (s : State) (d c ctx : Nat) (de : Descriptor) : Kept (State.dmaFeed s d c ctx de) s := by
  simp [State.dmaFeed]
@[simp] theorem State.setUnit_kept (s : State) (d u : Nat) (x : TestUnit) : Kept (State.setUnit s d u x) s := by
  simp [State.setUnit]
@[simp] theorem State.noteCapture_kept (s : State) (d c : Nat) : Kept (State.noteCapture s d c) s := by
  unfold State.noteCapture; (try dsimp only); (repeat' split) <;> simp
@[simp] theorem State.capFeed_kept (s : State) (d u : Nat) : Kept (State.capFeed s d u) s := by
  unfold State.capFeed; (try dsimp only); (repeat' split) <;> simp
@[simp] theorem State.capFeeds_kept (s : State) (d : Nat) : Kept (State.capFeeds s d) s := by
  simp [State.capFeeds]
@[simp] theorem State.elemIndex_sec (s : State) (d c : Nat) (de : Descriptor) : KeptSec (State.elemIndex s d c de).2 s := by
  unfold State.elemIndex; try dsimp only
  repeat' (split <;> (try (rename_i h; have h2 := congrArg Prod.snd h; dsimp only at h2; clear h; subst h2)))
  all_goals first
    | done
    | (simp_all; done)
    | (apply foldl_sec; intro s x; (repeat' split) <;> simp_all; done)
    | (rename_i h; have h2 := congrArg Prod.snd h; dsimp only at h2; clear h; subst h2; simp_all; done)
    | (rename_i h _; have h2 := congrArg Prod.snd h; dsimp only at h2; clear h; subst h2; simp_all; done)
    | (rename_i h _ _; have h2 := congrArg Prod.snd h; dsimp only at h2; clear h; subst h2; simp_all; done)
    | skip
@[simp] theorem State.copyElem_sec (s : State) (d c : Nat) (de : Descriptor) (sa da n : Nat) : KeptSec (State.copyElem s d c de sa da n) s := by
  unfold State.copyElem; try dsimp only
  repeat' (split <;> (try (rename_i h; have h2 := congrArg Prod.snd h; dsimp only at h2; clear h; subst h2)))
  all_goals first
    | done
    | (simp_all; done)
    | (apply foldl_sec; intro s x; (repeat' split) <;> simp_all; done)
    | (rename_i h; have h2 := congrArg Prod.snd h; dsimp only at h2; clear h; subst h2; simp_all; done)
    | (rename_i h _; have h2 := congrArg Prod.snd h; dsimp only at h2; clear h; subst h2; simp_all; done)
    | (rename_i h _ _; have h2 := congrArg Prod.snd h; dsimp only at h2; clear h; subst h2; simp_all; done)
    | skip
@[simp] theorem State.aimElem_sec (s : State) (d c : Nat) (de : Descriptor) (sa da n : Nat) : KeptSec (State.aimElem s d c de sa da n) s := by
  unfold State.aimElem; try dsimp only
  repeat' (split <;> (try (rename_i h; have h2 := congrArg Prod.snd h; dsimp only at h2; clear h; subst h2)))
  all_goals first
    | done
    | (simp_all; done)
    | (apply foldl_sec; intro s x; (repeat' split) <;> simp_all; done)
    | (rename_i h; have h2 := congrArg Prod.snd h; dsimp only at h2; clear h; subst h2; simp_all; done)
    | (rename_i h _; have h2 := congrArg Prod.snd h; dsimp only at h2; clear h; subst h2; simp_all; done)
    | (rename_i h _ _; have h2 := congrArg Prod.snd h; dsimp only at h2; clear h; subst h2; simp_all; done)
    | skip
@[simp] theorem State.moveElem_sec (s : State) (d c : Nat) (de : Descriptor) : KeptSec (State.moveElem s d c de) s := by
  unfold State.moveElem; try dsimp only
  repeat' (split <;> (try (rename_i h; have h2 := congrArg Prod.snd h; dsimp only at h2; clear h; subst h2)))
  all_goals first
    | done
    | (simp_all; done)
    | (apply foldl_sec; intro s x; (repeat' split) <;> simp_all; done)
    | (rename_i h; have h2 := congrArg Prod.snd h; dsimp only at h2; clear h; subst h2; simp_all; done)
    | (rename_i h _; have h2 := congrArg Prod.snd h; dsimp only at h2; clear h; subst h2; simp_all; done)
    | (rename_i h _ _; have h2 := congrArg Prod.snd h; dsimp only at h2; clear h; subst h2; simp_all; done)
    | skip
@[simp] theorem State.elemIndex_wf (s : State) (d c : Nat) (de : Descriptor) (hw : MemWf s) : MemWf (State.elemIndex s d c de).2 := by
  unfold State.elemIndex; try dsimp only
  repeat' (split <;> (try (rename_i h; have h2 := congrArg Prod.snd h; dsimp only at h2; clear h; subst h2)))
  all_goals first
    | done
    | (simp_all; done)
    | (apply foldl_wf (hw := by simp_all); intro s x hx; (repeat' split) <;> simp_all; done)
    | (rename_i h; have h2 := congrArg Prod.snd h; dsimp only at h2; clear h; subst h2; simp_all; done)
    | (rename_i h _; have h2 := congrArg Prod.snd h; dsimp only at h2; clear h; subst h2; simp_all; done)
    | (rename_i h _ _; have h2 := congrArg Prod.snd h; dsimp only at h2; clear h; subst h2; simp_all; done)
    | skip
@[simp] theorem State.copyElem_wf (s : State) (d c : Nat) (de : Descriptor) (sa da n : Nat) (hw : MemWf s) : MemWf (State.copyElem s d c de sa da n) := by
  unfold State.copyElem; try dsimp only
  repeat' (split <;> (try (rename_i h; have h2 := congrArg Prod.snd h; dsimp only at h2; clear h; subst h2)))
  all_goals first
    | done
    | (simp_all; done)
    | (apply foldl_wf (hw := by simp_all); intro s x hx; (repeat' split) <;> simp_all; done)
    | (rename_i h; have h2 := congrArg Prod.snd h; dsimp only at h2; clear h; subst h2; simp_all; done)
    | (rename_i h _; have h2 := congrArg Prod.snd h; dsimp only at h2; clear h; subst h2; simp_all; done)
    | (rename_i h _ _; have h2 := congrArg Prod.snd h; dsimp only at h2; clear h; subst h2; simp_all; done)
    | skip
@[simp] theorem State.aimElem_wf (s : State) (d c : Nat) (de : Descriptor) (sa da n : Nat) (hw : MemWf s) : MemWf (State.aimElem s d c de sa da n) := by
  unfold State.aimElem; try dsimp only
  repeat' (split <;> (try (rename_i h; have h2 := congrArg Prod.snd h; dsimp only at h2; clear h; subst h2)))
  all_goals first
    | done
    | (simp_all; done)
    | (apply foldl_wf (hw := by simp_all); intro s x hx; (repeat' split) <;> simp_all; done)
    | (rename_i h; have h2 := congrArg Prod.snd h; dsimp only at h2; clear h; subst h2; simp_all; done)
    | (rename_i h _; have h2 := congrArg Prod.snd h; dsimp only at h2; clear h; subst h2; simp_all; done)
    | (rename_i h _ _; have h2 := congrArg Prod.snd h; dsimp only at h2; clear h; subst h2; simp_all; done)
    | skip
@[simp] theorem State.moveElem_wf (s : State) (d c : Nat) (de : Descriptor) (hw : MemWf s) : MemWf (State.moveElem s d c de) := by
  unfold State.moveElem; try dsimp only
  repeat' (split <;> (try (rename_i h; have h2 := congrArg Prod.snd h; dsimp only at h2; clear h; subst h2)))
  all_goals first
    | done
    | (simp_all; done)
    | (apply foldl_wf (hw := by simp_all); intro s x hx; (repeat' split) <;> simp_all; done)
    | (rename_i h; have h2 := congrArg Prod.snd h; dsimp only at h2; clear h; subst h2; simp_all; done)
    | (rename_i h _; have h2 := congrArg Prod.snd h; dsimp only at h2; clear h; subst h2; simp_all; done)
    | (rename_i h _ _; have h2 := congrArg Prod.snd h; dsimp only at h2; clear h; subst h2; simp_all; done)
    | skip
@[simp] theorem State.preempt_sec (s : State) (d c : Nat) : KeptSec (State.preempt s d c) s := by
  unfold State.preempt; (try dsimp only); (repeat' split) <;> simp
@[simp] theorem State.preempt_wf (s : State) (d c : Nat) (hw : MemWf s) : MemWf (State.preempt s d c) := by
  unfold State.preempt; (try dsimp only); (repeat' split) <;> simp_all
@[simp] theorem State.busElem_sec (s : State) (d c : Nat) (de : Descriptor) (k : DmaAccess) : KeptSec (s.busElem d c de k) s := by
  unfold State.busElem; dsimp only
  split
  · simp
  · split
    · simp
    · split
      · simp
      · split <;> (rename_i h; obtain rfl := snd_of h; simp)
@[simp] theorem State.busElem_wf (s : State) (d c : Nat) (de : Descriptor) (k : DmaAccess) (hw : MemWf s) : MemWf (s.busElem d c de k) := by
  unfold State.busElem; dsimp only
  split
  · simp_all
  · split
    · simp_all
    · split
      · simp_all
      · split <;> (rename_i h; obtain rfl := snd_of h; exact State.accStop_wf _ _ _ _ _ _ _ (State.elemIndex_wf _ _ _ _ hw))
theorem execDmaElement_sec (d : Die) (bus : Option DmaAccess) (s : State) (z : State) (hz : execDmaElement d bus s = .next z) : KeptSec z s := by
  revert hz; unfold execDmaElement; (try dsimp only); (repeat' split) <;> (simp only [done_eq]; rintro rfl; simp)
theorem execDmaElement_wf (d : Die) (bus : Option DmaAccess) (s : State) (z : State) (hw : MemWf s) (hz : execDmaElement d bus s = .next z) : MemWf z := by
  revert hz; unfold execDmaElement; (try dsimp only); (repeat' split) <;> (simp only [done_eq]; rintro rfl; simp_all)
@[simp] theorem State.dmaStart_sec (s : State) (d c : Nat) : KeptSec (State.dmaStart s d c) s := by
  unfold State.dmaStart; (try dsimp only); (repeat' split) <;> simp
@[simp] theorem State.dmaStart_wf (s : State) (d c : Nat) (hw : MemWf s) : MemWf (State.dmaStart s d c) := by
  unfold State.dmaStart; (try dsimp only); (repeat' split) <;> simp_all
@[simp] theorem State.rewrite_sec (s : State) (d c : Nat) : KeptSec (s.rewrite d c) s := by
  unfold State.rewrite; dsimp only; split
  · simp
  · split <;> (rename_i h; obtain rfl := snd_of h; simp)
@[simp] theorem State.rewrite_wf (s : State) (d c : Nat) (hw : MemWf s) : MemWf (s.rewrite d c) := by
  unfold State.rewrite; dsimp only; split
  · exact hw
  · split <;> (rename_i h; obtain rfl := snd_of h; clear h; simp_all)
@[simp] theorem State.dmaResume_sec (s : State) (d c : Nat) : KeptSec (State.dmaResume s d c) s := by
  unfold State.dmaResume; (try dsimp only); (repeat' split) <;> simp
@[simp] theorem State.dmaResume_wf (s : State) (d c : Nat) (hw : MemWf s) : MemWf (State.dmaResume s d c) := by
  unfold State.dmaResume; (try dsimp only); (repeat' split) <;> simp_all
@[simp] theorem State.dmaSkip_sec (s : State) (d c : Nat) : KeptSec (State.dmaSkip s d c) s := by
  unfold State.dmaSkip; (try dsimp only); (repeat' split) <;> simp
@[simp] theorem State.dmaSkip_wf (s : State) (d c : Nat) (hw : MemWf s) : MemWf (State.dmaSkip s d c) := by
  unfold State.dmaSkip; (try dsimp only); (repeat' split) <;> simp_all
@[simp] theorem State.dmaAbort_kept (s : State) (d c : Nat) : Kept (State.dmaAbort s d c) s := by
  unfold State.dmaAbort; (try dsimp only); (repeat' split) <;> simp
@[simp] theorem State.dmaExyan_sec (s : State) (d c : Nat) (u : DmaSetup) : KeptSec (s.dmaExyan d c u) s := by
  unfold State.dmaExyan; dsimp only; split <;> simp
@[simp] theorem State.dmaExyan_wf (s : State) (d c : Nat) (u : DmaSetup) (hw : MemWf s) : MemWf (s.dmaExyan d c u) := by
  unfold State.dmaExyan; dsimp only; split
  · exact State.dmaStart_wf _ _ _ (by simpa using hw)
  · exact hw
@[simp] theorem State.retirePage_sec (s : State) (p : Nat) : KeptSec (s.retirePage p) s := by
  unfold State.retirePage
  refine foldl_sec _ _ _ fun s d => ?_
  dsimp only
  have h : KeptSec ((List.range 16).foldl (fun s c =>
      if (s.dch d c).wbLine.any (fun l => l / 64 == p) && !s.dmaStopped d c then s.writeOut d c else s) s) s :=
    foldl_sec _ _ _ fun s c => by split <;> simp
  split
  · exact KeptSec.trans (by simp) h
  · exact h
@[simp] theorem State.retirePage_wf (s : State) (p : Nat) (hw : MemWf s) : MemWf (s.retirePage p) := by
  unfold State.retirePage
  refine foldl_wf _ _ _ hw fun s d hw => ?_
  dsimp only
  have h : MemWf ((List.range 16).foldl (fun s c =>
      if (s.dch d c).wbLine.any (fun l => l / 64 == p) && !s.dmaStopped d c then s.writeOut d c else s) s) :=
    foldl_wf _ _ _ hw fun s c hw => by split <;> simp_all
  split
  · simpa using h
  · exact h
theorem execPageOwnerAssign_sec (d : Die) (page : Nat) (owner : Tenant) (map : Option PageMap) (s z : State)
    (hz : execPageOwnerAssign d page owner map s = .next z) : KeptSec z s := by
  revert hz; unfold execPageOwnerAssign; (try dsimp only); (repeat' split) <;> (simp only [done_eq]; rintro rfl; simp)
theorem execPageOwnerAssign_wf (d : Die) (page : Nat) (owner : Tenant) (map : Option PageMap) (s z : State) (hw : MemWf s)
    (hz : execPageOwnerAssign d page owner map s = .next z) : MemWf z := by
  have h : ∀ p : Nat, MemWf (if s.owner p == owner then s else (s.retirePage p).assignPage p owner) := by
    intro p; split
    · exact hw
    · exact State.assignPage_wf _ _ _ (State.retirePage_wf _ _ hw)
  revert hz; unfold execPageOwnerAssign; dsimp only
  split
  · split
    · simp only [done_eq]; rintro rfl; rw [settle_wf']; exact h _
    · simp only [done_eq]; rintro rfl; rw [settle_wf']; exact State.mapPage_wf _ _ _ _ (h _)
  · simp only [done_eq]; rintro rfl; rw [settle_wf']; exact hw

end Sys2Proof.Machine
end

