-- ==== Sys2Proof/Laws/FrameLogic.lean ====
section
/-! SUPPORT. What the operations and commands leave unchanged: scans and the logic cores. -/
namespace Sys2Proof.Machine

/-! ### Machine/Scan -/

@[simp] theorem State.modCore_kept (s : State) (d c : Nat) (f : CoreSt → CoreSt) : Kept (State.modCore s d c f) s := by
  simp [State.modCore]
@[simp] theorem State.setMode_kept (s : State) (d : Nat) (m : LogicMode) (cause : Nat) : Kept (State.setMode s d m cause) s := by
  unfold State.setMode; (try dsimp only); (repeat' split) <;> simp
@[simp] theorem State.stopBehaviour_kept (s : State) (d : Nat) : Kept (State.stopBehaviour s d) s := by
  simp [State.stopBehaviour]
@[simp] theorem State.stopDone_kept (s : State) (e : Req × Byte) : Kept (State.stopDone s e) s := by
  unfold State.stopDone; (try dsimp only); (repeat' split) <;> simp
@[simp] theorem State.applyOnline_kept (s : State) (d : Nat) (x : Online) : Kept (State.applyOnline s d x) s := by
  cases x <;> unfold State.applyOnline <;> (try dsimp only) <;> (repeat' (split <;> (try (rename_i h; have h2 := congrArg Prod.snd h; dsimp only at h2; clear h; subst h2)))) <;>
    first
    | done
    | (simp_all; done)
    | (rename_i h; have h2 := congrArg Prod.snd h; dsimp only at h2; clear h; subst h2; simp_all; done)
    | (rename_i h _; have h2 := congrArg Prod.snd h; dsimp only at h2; clear h; subst h2; simp_all; done)
    | (rename_i h _ _; have h2 := congrArg Prod.snd h; dsimp only at h2; clear h; subst h2; simp_all; done)
    | skip
@[simp] theorem State.drainOnline_kept (s : State) (d : Nat) : Kept (State.drainOnline s d) s := by
  simp [State.drainOnline]
@[simp] theorem State.holdDone_kept (s : State) (e : Req × Byte) : Kept (State.holdDone s e) s := by
  unfold State.holdDone; split <;> simp
@[simp] theorem State.holdRefused_kept (s : State) (r : Req) (m : Byte) : Kept (State.holdRefused s r m) s := by
  simp [State.holdRefused]
@[simp] theorem State.endHolds_kept (s : State) (d : Nat) (ok : Bool) : Kept (State.endHolds s d ok) s := by
  unfold State.endHolds; exact Kept.trans (foldl_kept _ _ _ fun s e => Kept.trans (State.holdDone_kept _ _) (by simp)) (by simp)
@[simp] theorem State.toStop_kept (s : State) (d cause : Nat) (fault : Bool) : Kept (State.toStop s d cause fault) s := by
  simp [State.toStop]
@[simp] theorem State.endStep_kept (s : State) (d c : Nat) : Kept (State.endStep s d c) s := by
  unfold State.endStep; (try dsimp only); (repeat' split) <;> simp
@[simp] theorem State.dropScan_kept (s : State) (d : Nat) : Kept (State.dropScan s d) s := by
  simp [State.dropScan]
@[simp] theorem State.discardScan_kept (s : State) (d : Nat) : Kept (State.discardScan s d) s := by
  unfold State.discardScan; (try dsimp only); (repeat' split) <;> simp
@[simp] theorem State.holdReached_kept (s : State) (d : Nat) : Kept (State.holdReached s d) s := by
  unfold State.holdReached; (try dsimp only); (repeat' split) <;> simp
@[simp] theorem State.toHold_kept (s : State) (d c cause : Nat) (brk : Bool) (task : Option Nat) : Kept (State.toHold s d c cause brk task) s := by
  simp [State.toHold]
@[simp] theorem State.skipScan_kept (s : State) (d : Nat) : Kept (s.skipScan d) s := by
  unfold State.skipScan; dsimp only
  repeat' split
  all_goals simp
@[simp] theorem State.nextTask_kept (s : State) (d c : Nat) (l : List Nat) : Kept (State.nextTask s d c l) s := by
  induction l generalizing s with
  | nil => unfold State.nextTask; (try dsimp only); (repeat' (split <;> (try (rename_i h; have h2 := congrArg Prod.snd h; dsimp only at h2; clear h; subst h2)))) <;>
    first
    | done
    | (simp_all; done)
    | (rename_i h; have h2 := congrArg Prod.snd h; dsimp only at h2; clear h; subst h2; simp_all; done)
    | (rename_i h _; have h2 := congrArg Prod.snd h; dsimp only at h2; clear h; subst h2; simp_all; done)
    | (rename_i h _ _; have h2 := congrArg Prod.snd h; dsimp only at h2; clear h; subst h2; simp_all; done)
    | skip
  | cons a l ih => unfold State.nextTask; (try dsimp only); (repeat' (split <;> (try (rename_i h; have h2 := congrArg Prod.snd h; dsimp only at h2; clear h; subst h2)))) <;>
    first
    | done
    | (simp_all; done)
    | (rename_i h; have h2 := congrArg Prod.snd h; dsimp only at h2; clear h; subst h2; simp_all; done)
    | (rename_i h _; have h2 := congrArg Prod.snd h; dsimp only at h2; clear h; subst h2; simp_all; done)
    | (rename_i h _ _; have h2 := congrArg Prod.snd h; dsimp only at h2; clear h; subst h2; simp_all; done)
    | skip
@[simp] theorem State.snapCell_kept (s : State) (d m : Nat) : Kept (State.snapCell s d m) s := by
  unfold State.snapCell; (try dsimp only); (repeat' split) <;> simp
theorem execScanStart_kept (d : Die) (s : State) (z : State) (hz : execScanStart d s = .next z) : Kept z s := by
  revert hz; unfold execScanStart; (try dsimp only); (repeat' split) <;> (simp only [done_eq]; rintro rfl; simp)
theorem execRetainWriteComplete_kept (d : Die) (readBack : Bool) (s : State) (z : State) (hz : execRetainWriteComplete d readBack s = .next z) : Kept z s := by
  revert hz; unfold execRetainWriteComplete; (try dsimp only); (repeat' split) <;> (simp only [done_eq]; rintro rfl; simp)
@[simp] theorem State.toRun_kept (s : State) (d cause : Nat) : Kept (State.toRun s d cause) s := by
  simp [State.toRun]
@[simp] theorem State.coldRestart_kept (s : State) (d cause : Nat) (i : LogicImage) : Kept (State.coldRestart s d cause i) s := by
  simp [State.coldRestart]
theorem State.warmRestart_kept (s : State) (d cause : Nat) (i : LogicImage) (z) (h : State.warmRestart s d cause i = some z) : Kept z s := by
  revert h; unfold State.warmRestart; (try dsimp only)
  (repeat' (split <;> (try (rename_i h; have h2 := congrArg Prod.snd h; dsimp only at h2; clear h; subst h2)))) <;> (try simp) <;> (try rintro rfl) <;> (try simp_all)
@[simp] theorem State.commitOutputs_kept (s : State) (d : Nat) (l : List OutStore) (ran : List Nat) : Kept (State.commitOutputs s d l ran) s := by
  simp [State.commitOutputs]
@[simp] theorem State.commitScan_kept (s : State) (d us : Nat) (i : LogicImage) : Kept (State.commitScan s d us i) s := by
  unfold State.commitScan; (try dsimp only); (repeat' split) <;> simp
theorem execScanCommit_kept (d : Die) (us : Nat) (s : State) (z : State) (hz : execScanCommit d us s = .next z) : Kept z s := by
  revert hz; unfold execScanCommit; (try dsimp only); (repeat' split) <;> (simp only [done_eq]; rintro rfl; simp)
theorem execScanLimitExpiry_kept (d : Die) (s : State) (z : State) (hz : execScanLimitExpiry d s = .next z) : Kept z s := by
  revert hz; unfold execScanLimitExpiry; (try dsimp only); (repeat' split) <;> (simp only [done_eq]; rintro rfl; simp)
@[simp] theorem State.logicRun_kept (s : State) (d : Nat) (warm : Bool) : Kept (s.logicRun d warm).2 s := by
  unfold State.logicRun
  repeat' split
  all_goals first
    | (simp; done)
    | exact State.warmRestart_kept _ _ _ _ _ (by assumption)
@[simp] theorem State.logicStop_kept (s : State) (d : Nat) : Kept (State.logicStop s d).2 s := by
  unfold State.logicStop; (try dsimp only); (repeat' split) <;> simp
@[simp] theorem State.logicHold_kept (s : State) (d : Nat) : Kept (State.logicHold s d).2 s := by
  unfold State.logicHold; (try dsimp only); (repeat' split) <;> simp
@[simp] theorem State.logicStep_kept (s : State) (d c : Nat) (r : Option Req) : Kept (State.logicStep s d c r).2 s := by
  unfold State.logicStep; (try dsimp only); (repeat' split) <;> simp
@[simp] theorem State.logicResume_kept (s : State) (d : Nat) : Kept (State.logicResume s d).2 s := by
  unfold State.logicResume; (try dsimp only); (repeat' split) <;> simp
@[simp] theorem State.lscCtrl_kept (s : State) (d v : Nat) : Kept (State.lscCtrl s d v) s := by
  unfold State.lscCtrl; (try dsimp only); (repeat' split) <;> simp
@[simp] theorem State.openCommit_kept (s : State) (d : Nat) : Kept (State.openCommit s d) s := by
  unfold State.openCommit; (try dsimp only); (repeat' split) <;> simp
@[simp] theorem State.logicPowerFail_kept (s : State) (d : Nat) : Kept (State.logicPowerFail s d) s := by
  unfold State.logicPowerFail; (try dsimp only); (repeat' split) <;> simp
@[simp] theorem State.applyStartMode_kept (s : State) (d : Nat) : Kept (s.applyStartMode d) s := by
  unfold State.applyStartMode; dsimp only
  repeat' split
  all_goals first
    | (simp; done)
    | exact Kept.trans (State.warmRestart_kept _ _ _ _ _ (by assumption)) (State.modDie_kept _ _ _)
/-! ### Machine/Traps -/

@[simp] theorem State.dtrapLimit_kept (s : State) (d c : Nat) (task : Option Nat) : Kept (State.dtrapLimit s d c task) s := by
  unfold State.dtrapLimit; (try dsimp only); (repeat' split) <;> simp
@[simp] theorem State.finishing_kept (s old : State) (d c : Nat) : Kept (s.finishing old d c) s := by
  unfold State.finishing; apply foldl_kept; intro s x; simp
@[simp] theorem State.doubleTrap_kept (s : State) (d c cause : Nat) : Kept (State.doubleTrap s d c cause) s := by
  simp [State.doubleTrap]
@[simp] theorem State.trap_kept (s : State) (d c cause : Nat) (addr w : V24) : Kept (State.trap s d c cause addr w) s := by
  unfold State.trap; (try dsimp only); (repeat' split) <;> simp
@[simp] theorem State.breakpoint_kept (s : State) (d c : Nat) : Kept (State.breakpoint s d c) s := by
  unfold State.breakpoint; split <;> simp
@[simp] theorem State.boundary_kept (s : State) (d c : Nat) : Kept (State.boundary s d c) s := by
  unfold State.boundary; (try dsimp only); (repeat' split) <;> simp
@[simp] theorem State.retire_kept (s : State) (d c : Nat) (x : CoreSt) (w : V24) : Kept (State.retire s d c x w) s := by
  simp [State.retire]
@[simp] theorem State.jump_kept (s : State) (d c : Nat) (x : CoreSt) : Kept (State.jump s d c x) s := by
  simp [State.jump]
@[simp] theorem State.afterInstr_kept (s : State) (d c : Nat) (ending : Bool) : Kept (State.afterInstr s d c ending) s := by
  unfold State.afterInstr; (try dsimp only); (repeat' split) <;> simp
theorem State.instr_kept (s : State) (k : CoreRef) (w : V24) (legal : Bool) (body : CoreSt → State)
    (hb : ∀ x, Kept (body x) s) : Kept (s.instr k w legal body) s := by
  unfold State.instr; dsimp only
  repeat' split
  all_goals first
    | (refine Kept.trans (State.afterInstr_kept _ _ _ _) ?_; first | exact hb _ | (simp; done))
    | (simp; done)
theorem State.instr_sec (s : State) (k : CoreRef) (w : V24) (legal : Bool) (body : CoreSt → State)
    (hb : ∀ x, KeptSec (body x) s) : KeptSec (s.instr k w legal body) s := by
  unfold State.instr; dsimp only
  repeat' split
  all_goals first
    | (refine KeptSec.trans (State.afterInstr_kept _ _ _ _).2 ?_; first | exact hb _ | (simp; done))
    | (simp; done)
theorem State.instr_wf (s : State) (k : CoreRef) (w : V24) (legal : Bool) (body : CoreSt → State) (hw : MemWf s)
    (hb : ∀ x, MemWf (body x)) : MemWf (s.instr k w legal body) := by
  unfold State.instr; dsimp only
  repeat' split
  all_goals first
    | (refine Kept.wf (State.afterInstr_kept _ _ _ _) ?_; first | exact hb _ | (simp_all; done))
    | exact hw
theorem State.pureInstr_kept (s : State) (k : CoreRef) (w : V24) (legal : Bool) (f : CoreSt → CoreSt) :
    Kept (s.pureInstr k w legal f) s := by
  apply State.instr_kept; intro x; simp
theorem execIllegalInstruction_kept (k : CoreRef) (w : V24) (s : State) (z : State)
    (hz : execIllegalInstruction k w s = .next z) : Kept z s := by
  revert hz; unfold execIllegalInstruction
  split <;> (simp only [done_eq]; rintro rfl; rw [settle_kept'])
  · exact State.instr_kept _ _ _ _ _ fun _ => by simp
  · simp
theorem execHwBreakpoint_kept (k : CoreRef) (s : State) (z : State) (hz : execHwBreakpoint k s = .next z) : Kept z s := by
  revert hz; unfold execHwBreakpoint; (try dsimp only); (repeat' split) <;> (simp only [done_eq]; rintro rfl; simp)
/-! ### Machine/Alu -/

theorem execAdd_kept (k : CoreRef) (r : RForm) (s : State) (z : State) (hz : execAdd k r s = .next z) : Kept z s := by
  obtain rfl := (done_eq _ _ _).1 hz
  rw [settle_kept']
  apply State.pureInstr_kept <;> intros <;> simp [ansOk, ansNo, ansWait]
theorem execAdds_kept (k : CoreRef) (r : RForm) (s : State) (z : State) (hz : execAdds k r s = .next z) : Kept z s := by
  obtain rfl := (done_eq _ _ _).1 hz
  rw [settle_kept']
  apply State.pureInstr_kept <;> intros <;> simp [ansOk, ansNo, ansWait]
theorem execSub_kept (k : CoreRef) (r : RForm) (s : State) (z : State) (hz : execSub k r s = .next z) : Kept z s := by
  obtain rfl := (done_eq _ _ _).1 hz
  rw [settle_kept']
  apply State.pureInstr_kept <;> intros <;> simp [ansOk, ansNo, ansWait]
theorem execSubs_kept (k : CoreRef) (r : RForm) (s : State) (z : State) (hz : execSubs k r s = .next z) : Kept z s := by
  obtain rfl := (done_eq _ _ _).1 hz
  rw [settle_kept']
  apply State.pureInstr_kept <;> intros <;> simp [ansOk, ansNo, ansWait]
theorem execAnd_kept (k : CoreRef) (r : RForm) (s : State) (z : State) (hz : execAnd k r s = .next z) : Kept z s := by
  obtain rfl := (done_eq _ _ _).1 hz
  rw [settle_kept']
  apply State.pureInstr_kept <;> intros <;> simp [ansOk, ansNo, ansWait]
theorem execOr_kept (k : CoreRef) (r : RForm) (s : State) (z : State) (hz : execOr k r s = .next z) : Kept z s := by
  obtain rfl := (done_eq _ _ _).1 hz
  rw [settle_kept']
  apply State.pureInstr_kept <;> intros <;> simp [ansOk, ansNo, ansWait]
theorem execXor_kept (k : CoreRef) (r : RForm) (s : State) (z : State) (hz : execXor k r s = .next z) : Kept z s := by
  obtain rfl := (done_eq _ _ _).1 hz
  rw [settle_kept']
  apply State.pureInstr_kept <;> intros <;> simp [ansOk, ansNo, ansWait]
theorem execShl_kept (k : CoreRef) (r : RForm) (s : State) (z : State) (hz : execShl k r s = .next z) : Kept z s := by
  obtain rfl := (done_eq _ _ _).1 hz
  rw [settle_kept']
  apply State.pureInstr_kept <;> intros <;> simp [ansOk, ansNo, ansWait]
theorem execShr_kept (k : CoreRef) (r : RForm) (s : State) (z : State) (hz : execShr k r s = .next z) : Kept z s := by
  obtain rfl := (done_eq _ _ _).1 hz
  rw [settle_kept']
  apply State.pureInstr_kept <;> intros <;> simp [ansOk, ansNo, ansWait]
theorem execSha_kept (k : CoreRef) (r : RForm) (s : State) (z : State) (hz : execSha k r s = .next z) : Kept z s := by
  obtain rfl := (done_eq _ _ _).1 hz
  rw [settle_kept']
  apply State.pureInstr_kept <;> intros <;> simp [ansOk, ansNo, ansWait]
theorem execMul_kept (k : CoreRef) (r : RForm) (s : State) (z : State) (hz : execMul k r s = .next z) : Kept z s := by
  obtain rfl := (done_eq _ _ _).1 hz
  rw [settle_kept']
  apply State.pureInstr_kept <;> intros <;> simp [ansOk, ansNo, ansWait]
theorem execMulf_kept (k : CoreRef) (r : RForm) (s : State) (z : State) (hz : execMulf k r s = .next z) : Kept z s := by
  obtain rfl := (done_eq _ _ _).1 hz
  rw [settle_kept']
  apply State.pureInstr_kept <;> intros <;> simp [ansOk, ansNo, ansWait]
theorem execDiv_kept (k : CoreRef) (r : RForm) (s : State) (z : State) (hz : execDiv k r s = .next z) : Kept z s := by
  obtain rfl := (done_eq _ _ _).1 hz
  rw [settle_kept']
  apply State.instr_kept <;> intros <;> (try dsimp only) <;> (repeat' split) <;> simp [ansOk, ansNo, ansWait]
theorem execRem_kept (k : CoreRef) (r : RForm) (s : State) (z : State) (hz : execRem k r s = .next z) : Kept z s := by
  obtain rfl := (done_eq _ _ _).1 hz
  rw [settle_kept']
  apply State.instr_kept <;> intros <;> (try dsimp only) <;> (repeat' split) <;> simp [ansOk, ansNo, ansWait]
theorem execCmp_kept (k : CoreRef) (r : RForm) (s : State) (z : State) (hz : execCmp k r s = .next z) : Kept z s := by
  obtain rfl := (done_eq _ _ _).1 hz
  rw [settle_kept']
  apply State.pureInstr_kept <;> intros <;> simp [ansOk, ansNo, ansWait]
theorem execMin_kept (k : CoreRef) (r : RForm) (s : State) (z : State) (hz : execMin k r s = .next z) : Kept z s := by
  obtain rfl := (done_eq _ _ _).1 hz
  rw [settle_kept']
  apply State.pureInstr_kept <;> intros <;> simp [ansOk, ansNo, ansWait]
theorem execMax_kept (k : CoreRef) (r : RForm) (s : State) (z : State) (hz : execMax k r s = .next z) : Kept z s := by
  obtain rfl := (done_eq _ _ _).1 hz
  rw [settle_kept']
  apply State.pureInstr_kept <;> intros <;> simp [ansOk, ansNo, ansWait]
theorem execAddi_kept (k : CoreRef) (i : IForm) (s : State) (z : State) (hz : execAddi k i s = .next z) : Kept z s := by
  obtain rfl := (done_eq _ _ _).1 hz
  rw [settle_kept']
  apply State.pureInstr_kept <;> intros <;> simp [ansOk, ansNo, ansWait]
theorem execAddsi_kept (k : CoreRef) (i : IForm) (s : State) (z : State) (hz : execAddsi k i s = .next z) : Kept z s := by
  obtain rfl := (done_eq _ _ _).1 hz
  rw [settle_kept']
  apply State.pureInstr_kept <;> intros <;> simp [ansOk, ansNo, ansWait]
theorem execAndi_kept (k : CoreRef) (i : IForm) (s : State) (z : State) (hz : execAndi k i s = .next z) : Kept z s := by
  obtain rfl := (done_eq _ _ _).1 hz
  rw [settle_kept']
  apply State.pureInstr_kept <;> intros <;> simp [ansOk, ansNo, ansWait]
theorem execOri_kept (k : CoreRef) (i : IForm) (s : State) (z : State) (hz : execOri k i s = .next z) : Kept z s := by
  obtain rfl := (done_eq _ _ _).1 hz
  rw [settle_kept']
  apply State.pureInstr_kept <;> intros <;> simp [ansOk, ansNo, ansWait]
theorem execXori_kept (k : CoreRef) (i : IForm) (s : State) (z : State) (hz : execXori k i s = .next z) : Kept z s := by
  obtain rfl := (done_eq _ _ _).1 hz
  rw [settle_kept']
  apply State.pureInstr_kept <;> intros <;> simp [ansOk, ansNo, ansWait]
theorem execShli_kept (k : CoreRef) (i : IForm) (s : State) (z : State) (hz : execShli k i s = .next z) : Kept z s := by
  obtain rfl := (done_eq _ _ _).1 hz
  rw [settle_kept']
  apply State.pureInstr_kept <;> intros <;> simp [ansOk, ansNo, ansWait]
theorem execShri_kept (k : CoreRef) (i : IForm) (s : State) (z : State) (hz : execShri k i s = .next z) : Kept z s := by
  obtain rfl := (done_eq _ _ _).1 hz
  rw [settle_kept']
  apply State.pureInstr_kept <;> intros <;> simp [ansOk, ansNo, ansWait]
theorem execShai_kept (k : CoreRef) (i : IForm) (s : State) (z : State) (hz : execShai k i s = .next z) : Kept z s := by
  obtain rfl := (done_eq _ _ _).1 hz
  rw [settle_kept']
  apply State.pureInstr_kept <;> intros <;> simp [ansOk, ansNo, ansWait]
theorem execCmpi_kept (k : CoreRef) (i : IForm) (s : State) (z : State) (hz : execCmpi k i s = .next z) : Kept z s := by
  obtain rfl := (done_eq _ _ _).1 hz
  rw [settle_kept']
  apply State.pureInstr_kept <;> intros <;> simp [ansOk, ansNo, ansWait]
theorem execLdi_kept (k : CoreRef) (i : IForm) (s : State) (z : State) (hz : execLdi k i s = .next z) : Kept z s := by
  obtain rfl := (done_eq _ _ _).1 hz
  rw [settle_kept']
  apply State.pureInstr_kept <;> intros <;> simp [ansOk, ansNo, ansWait]
/-! ### Machine/LoadStore -/

@[simp] theorem State.storeWord_kept (s : State) (d : Nat) (a v : V24) : Kept (State.storeWord s d a v) s := by
  simp [State.storeWord]
@[simp] theorem State.loadInstr_kept (s : State) (d c : Nat) (w a : V24) (load : Bool) (f : V24 → CoreSt) : Kept (State.loadInstr s d c w a load f) s := by
  unfold State.loadInstr; (try dsimp only); (repeat' split) <;> simp
@[simp] theorem State.storeInstr_kept (s : State) (d c : Nat) (w a v : V24) : Kept (State.storeInstr s d c w a v) s := by
  unfold State.storeInstr; (try dsimp only); (repeat' split) <;> simp
theorem execLd_kept (k : CoreRef) (i : IForm) (s : State) (z : State) (hz : execLd k i s = .next z) : Kept z s := by
  obtain rfl := (done_eq _ _ _).1 hz
  rw [settle_kept']
  apply State.instr_kept <;> intros <;> simp [ansOk, ansNo, ansWait]
theorem execSt_kept (k : CoreRef) (i : IForm) (s : State) (z : State) (hz : execSt k i s = .next z) : Kept z s := by
  obtain rfl := (done_eq _ _ _).1 hz
  rw [settle_kept']
  apply State.instr_kept <;> intros <;> simp [ansOk, ansNo, ansWait]
theorem execLdx_kept (k : CoreRef) (i : IForm) (s : State) (z : State) (hz : execLdx k i s = .next z) : Kept z s := by
  obtain rfl := (done_eq _ _ _).1 hz
  rw [settle_kept']
  apply State.instr_kept
  all_goals (intros; try dsimp only)
  repeat' (split <;> (try (rename_i h; have h2 := congrArg Prod.snd h; dsimp only at h2; clear h; subst h2)))
  all_goals first
    | done
    | (simp_all; done)
    | (apply foldl_kept; intro s x; (repeat' split) <;> simp_all; done)
    | (rename_i h; have h2 := congrArg Prod.snd h; dsimp only at h2; clear h; subst h2; simp_all; done)
    | (rename_i h _; have h2 := congrArg Prod.snd h; dsimp only at h2; clear h; subst h2; simp_all; done)
    | (rename_i h _ _; have h2 := congrArg Prod.snd h; dsimp only at h2; clear h; subst h2; simp_all; done)
    | skip
theorem execStx_kept (k : CoreRef) (i : IForm) (s : State) (z : State) (hz : execStx k i s = .next z) : Kept z s := by
  obtain rfl := (done_eq _ _ _).1 hz
  rw [settle_kept']
  apply State.instr_kept <;> intros <;> simp [ansOk, ansNo, ansWait]
@[simp] theorem State.storePoint_kept (s : State) (d : Nat) (o : OutStore) : Kept (State.storePoint s d o) s := by
  simp [State.storePoint]
theorem execLdp_kept (k : CoreRef) (i : IForm) (s : State) (z : State) (hz : execLdp k i s = .next z) : Kept z s := by
  obtain rfl := (done_eq _ _ _).1 hz
  rw [settle_kept']
  apply State.instr_kept <;> intros <;> (try dsimp only) <;> (repeat' split) <;> simp [ansOk, ansNo, ansWait]
theorem execLdps_kept (k : CoreRef) (i : IForm) (s : State) (z : State) (hz : execLdps k i s = .next z) : Kept z s := by
  obtain rfl := (done_eq _ _ _).1 hz
  rw [settle_kept']
  apply State.instr_kept <;> intros <;> (try dsimp only) <;> (repeat' split) <;> simp [ansOk, ansNo, ansWait]
theorem execStp_kept (k : CoreRef) (i : IForm) (s : State) (z : State) (hz : execStp k i s = .next z) : Kept z s := by
  obtain rfl := (done_eq _ _ _).1 hz
  rw [settle_kept']
  apply State.instr_kept <;> intros <;> (try dsimp only) <;> (repeat' split) <;> simp [ansOk, ansNo, ansWait]
theorem execStpq_kept (k : CoreRef) (r : RForm) (s : State) (z : State) (hz : execStpq k r s = .next z) : Kept z s := by
  obtain rfl := (done_eq _ _ _).1 hz
  rw [settle_kept']
  apply State.instr_kept <;> intros <;> (try dsimp only) <;> (repeat' split) <;> simp [ansOk, ansNo, ansWait]
theorem execTstart_kept (k : CoreRef) (i : IForm) (s : State) (z : State) (hz : execTstart k i s = .next z) : Kept z s := by
  obtain rfl := (done_eq _ _ _).1 hz
  rw [settle_kept']
  apply State.instr_kept <;> intros <;> simp [ansOk, ansNo, ansWait]
theorem execTelap_kept (k : CoreRef) (i : IForm) (s : State) (z : State) (hz : execTelap k i s = .next z) : Kept z s := by
  obtain rfl := (done_eq _ _ _).1 hz
  rw [settle_kept']
  apply State.instr_kept <;> intros <;> simp [ansOk, ansNo, ansWait]
theorem execTdone_kept (k : CoreRef) (r : RForm) (s : State) (z : State) (hz : execTdone k r s = .next z) : Kept z s := by
  obtain rfl := (done_eq _ _ _).1 hz
  rw [settle_kept']
  apply State.instr_kept <;> intros <;> simp [ansOk, ansNo, ansWait]
/-! ### Machine/Control -/

theorem execBr_kept (k : CoreRef) (b : BForm) (s : State) (z : State) (hz : execBr k b s = .next z) : Kept z s := by
  obtain rfl := (done_eq _ _ _).1 hz
  rw [settle_kept']
  apply State.instr_kept <;> intros <;> (try dsimp only) <;> (repeat' split) <;> simp [ansOk, ansNo, ansWait]
@[simp] theorem State.call_kept (s : State) (d c : Nat) (w target : V24) : Kept (State.call s d c w target) s := by
  unfold State.call; (try dsimp only); (repeat' split) <;> simp
theorem execCall_kept (k : CoreRef) (b : BForm) (s : State) (z : State) (hz : execCall k b s = .next z) : Kept z s := by
  obtain rfl := (done_eq _ _ _).1 hz
  rw [settle_kept']
  apply State.instr_kept <;> intros <;> simp [ansOk, ansNo, ansWait]
theorem execCallr_kept (k : CoreRef) (r : RForm) (s : State) (z : State) (hz : execCallr k r s = .next z) : Kept z s := by
  obtain rfl := (done_eq _ _ _).1 hz
  rw [settle_kept']
  apply State.instr_kept <;> intros <;> simp [ansOk, ansNo, ansWait]
theorem execRet_kept (k : CoreRef) (r : RForm) (s : State) (z : State) (hz : execRet k r s = .next z) : Kept z s := by
  obtain rfl := (done_eq _ _ _).1 hz
  rw [settle_kept']
  apply State.instr_kept <;> intros <;> (try dsimp only) <;> (repeat' split) <;> simp [ansOk, ansNo, ansWait]
theorem execTaskend_kept (k : CoreRef) (r : RForm) (s : State) (z : State) (hz : execTaskend k r s = .next z) : Kept z s := by
  obtain rfl := (done_eq _ _ _).1 hz
  rw [settle_kept']
  apply State.instr_kept <;> intros <;> simp [ansOk, ansNo, ansWait]
theorem execTrap_kept (k : CoreRef) (i : IForm) (s : State) (z : State) (hz : execTrap k i s = .next z) : Kept z s := by
  obtain rfl := (done_eq _ _ _).1 hz
  rw [settle_kept']
  apply State.instr_kept <;> intros <;> simp [ansOk, ansNo, ansWait]
theorem execBrk_kept (k : CoreRef) (r : RForm) (s : State) (z : State) (hz : execBrk k r s = .next z) : Kept z s := by
  obtain rfl := (done_eq _ _ _).1 hz
  rw [settle_kept']
  apply State.instr_kept <;> intros <;> (try dsimp only) <;> (repeat' split) <;> simp [ansOk, ansNo, ansWait]
theorem execMfs_kept (k : CoreRef) (r : RForm) (s : State) (z : State) (hz : execMfs k r s = .next z) : Kept z s := by
  obtain rfl := (done_eq _ _ _).1 hz
  rw [settle_kept']
  apply State.pureInstr_kept <;> intros <;> simp [ansOk, ansNo, ansWait]
theorem execMts_kept (k : CoreRef) (r : RForm) (s : State) (z : State) (hz : execMts k r s = .next z) : Kept z s := by
  obtain rfl := (done_eq _ _ _).1 hz
  rw [settle_kept']
  apply State.pureInstr_kept <;> intros <;> simp [ansOk, ansNo, ansWait]
@[simp] theorem State.spillLine_kept (s : State) (d c w : Nat) : Kept (State.spillLine s d c w).2 s := by
  unfold State.spillLine; (try dsimp only); (repeat' split) <;> simp
theorem execSpill_sec (k : CoreRef) (r : RForm) (s z : State) (hz : execSpill k r s = .next z) : KeptSec z s := by
  obtain rfl := (done_eq _ _ _).1 hz
  rw [settle_sec']
  apply State.instr_sec; intro x; dsimp only
  repeat' (split <;> (try (rename_i h; have h2 := congrArg Prod.snd h; dsimp only at h2; clear h; subst h2)))
  all_goals simp
theorem execSpill_wf (k : CoreRef) (r : RForm) (s z : State) (hw : MemWf s) (hz : execSpill k r s = .next z) : MemWf z := by
  obtain rfl := (done_eq _ _ _).1 hz
  rw [settle_wf']
  apply State.instr_wf _ _ _ _ _ hw; intro x; dsimp only
  repeat' (split <;> (try (rename_i h; have h2 := congrArg Prod.snd h; dsimp only at h2; clear h; subst h2)))
  all_goals simp_all
theorem execFill_kept (k : CoreRef) (r : RForm) (s : State) (z : State) (hz : execFill k r s = .next z) : Kept z s := by
  obtain rfl := (done_eq _ _ _).1 hz
  rw [settle_kept']
  apply State.instr_kept
  all_goals (intros; try dsimp only)
  repeat' (split <;> (try (rename_i h; have h2 := congrArg Prod.snd h; dsimp only at h2; clear h; subst h2)))
  all_goals first
    | done
    | (simp_all; done)
    | (apply foldl_kept; intro s x; (repeat' split) <;> simp_all; done)
    | (rename_i h; have h2 := congrArg Prod.snd h; dsimp only at h2; clear h; subst h2; simp_all; done)
    | (rename_i h _; have h2 := congrArg Prod.snd h; dsimp only at h2; clear h; subst h2; simp_all; done)
    | (rename_i h _ _; have h2 := congrArg Prod.snd h; dsimp only at h2; clear h; subst h2; simp_all; done)
    | skip
theorem execAbort_kept (k : CoreRef) (r : RForm) (s : State) (z : State) (hz : execAbort k r s = .next z) : Kept z s := by
  obtain rfl := (done_eq _ _ _).1 hz
  rw [settle_kept']
  apply State.instr_kept <;> intros <;> simp [ansOk, ansNo, ansWait]
@[simp] theorem State.handlerEvent_kept (s : State) (d c : Nat) : Kept (State.handlerEvent s d c) s := by
  unfold State.handlerEvent; (try dsimp only); (repeat' split) <;> simp
theorem execTret_kept (k : CoreRef) (r : RForm) (s : State) (z : State) (hz : execTret k r s = .next z) : Kept z s := by
  obtain rfl := (done_eq _ _ _).1 hz
  rw [settle_kept']
  apply State.instr_kept <;> intros <;> (try dsimp only) <;> (repeat' split) <;> simp [ansOk, ansNo, ansWait]

end Sys2Proof.Machine
end

