-- ==== Sys2Proof/Laws/FrameField.lean ====
section
/-! SUPPORT. What the operations and commands leave unchanged: loops, field I/O, metering and the drives. -/
namespace Sys2Proof.Machine

/-! ### Machine/Loops -/

@[simp] theorem State.takeLoopSwap_kept (s : State) (d n : Nat) : Kept (State.takeLoopSwap s d n) s := by
  unfold State.takeLoopSwap; (try dsimp only); (repeat' split) <;> simp
@[simp] theorem State.requestSwap_kept (s : State) (d n : Nat) (reset : Bool) (r : Option Req) : Kept (State.requestSwap s d n reset r) s := by
  unfold State.requestSwap; (try dsimp only); (repeat' split) <;> simp
@[simp] theorem State.unitEnd_sec (s : State) (d u : Nat) : KeptSec (State.unitEnd s d u) s := by
  unfold State.unitEnd; (try dsimp only); (repeat' split) <;> simp
@[simp] theorem State.unitEnd_wf (s : State) (d u : Nat) (hw : MemWf s) : MemWf (State.unitEnd s d u) := by
  unfold State.unitEnd; (try dsimp only); (repeat' split) <;> simp_all
@[simp] theorem State.capRecord_sec (s : State) (d u : Nat) (r : CapRec) : KeptSec (State.capRecord s d u r) s := by
  unfold State.capRecord; (try dsimp only); (repeat' split) <;> simp
@[simp] theorem State.capRecord_wf (s : State) (d u : Nat) (r : CapRec) (hw : MemWf s) : MemWf (State.capRecord s d u r) := by
  unfold State.capRecord; (try dsimp only); (repeat' split) <;> simp_all
@[simp] theorem State.unitEdge_sec (s : State) (d n : Nat) : KeptSec (s.unitEdge d n) s := by
  unfold State.unitEdge
  apply foldl_sec; intro s u; dsimp only
  (repeat' split) <;> simp
@[simp] theorem State.unitEdge_wf (s : State) (d n : Nat) (hw : MemWf s) : MemWf (s.unitEdge d n) := by
  unfold State.unitEdge
  apply foldl_wf _ _ _ hw; intro s u hs; dsimp only
  (repeat' split) <;> simp_all
@[simp] theorem State.inject_kept (s : State) (d n : Nat) : Kept (State.inject s d n).2 s := by
  unfold State.inject; (try dsimp only); (repeat' split) <;> simp
@[simp] theorem State.capture_sec (s : State) (d n : Nat) (r : CapRec) : KeptSec (s.capture d n r) s := by
  unfold State.capture; apply foldl_sec
  intro s u; split <;> simp
@[simp] theorem State.capture_wf (s : State) (d n : Nat) (r : CapRec) (hw : MemWf s) : MemWf (s.capture d n r) := by
  unfold State.capture; apply foldl_wf _ _ _ hw
  intro s u hs; split <;> simp_all
@[simp] theorem State.sampleBad_sec (s : State) (d due n : Nat) (late : Bool) (x : LoopSlot) (u0 : Int) (r : CapRec) : KeptSec (State.sampleBad s d due n late x u0 r) s := by
  simp [State.sampleBad]
@[simp] theorem State.sampleBad_wf (s : State) (d due n : Nat) (late : Bool) (x : LoopSlot) (u0 : Int) (r : CapRec) (hw : MemWf s) : MemWf (State.sampleBad s d due n late x u0 r) := by
  simp_all [State.sampleBad]
@[simp] theorem State.sampleLate_sec (s : State) (d due n : Nat) (x : LoopSlot) (u0 : Int) (r : CapRec) : KeptSec (State.sampleLate s d due n x u0 r) s := by
  simp [State.sampleLate]
@[simp] theorem State.sampleLate_wf (s : State) (d due n : Nat) (x : LoopSlot) (u0 : Int) (r : CapRec) (hw : MemWf s) : MemWf (State.sampleLate s d due n x u0 r) := by
  simp_all [State.sampleLate]
@[simp] theorem State.sampleGood_sec (s : State) (d due n : Nat) (c : LoopCfg) (x : LoopSlot) (pv sp : Sig) (inj : Option (Bool × Signal)) (u0 : Int) (mark : Nat) : KeptSec (State.sampleGood s d due n c x pv sp inj u0 mark) s := by
  unfold State.sampleGood; (try dsimp only); (repeat' split) <;> simp
@[simp] theorem State.sampleGood_wf (s : State) (d due n : Nat) (c : LoopCfg) (x : LoopSlot) (pv sp : Sig) (inj : Option (Bool × Signal)) (u0 : Int) (mark : Nat) (hw : MemWf s) : MemWf (State.sampleGood s d due n c x pv sp inj u0 mark) := by
  unfold State.sampleGood; (try dsimp only); (repeat' split) <;> simp_all
@[simp] theorem State.sampleWith_sec (s : State) (d due : Nat) (late : Bool) (n : Nat) (c : LoopCfg) (pv sp : Sig) (u0 : Int) (inj : Option (Bool × Signal)) : KeptSec (State.sampleWith s d due late n c pv sp u0 inj) s := by
  unfold State.sampleWith; (try dsimp only); (repeat' split) <;> simp
@[simp] theorem State.sampleWith_wf (s : State) (d due : Nat) (late : Bool) (n : Nat) (c : LoopCfg) (pv sp : Sig) (u0 : Int) (inj : Option (Bool × Signal)) (hw : MemWf s) : MemWf (State.sampleWith s d due late n c pv sp u0 inj) := by
  unfold State.sampleWith; (try dsimp only); (repeat' split) <;> simp_all
@[simp] theorem State.sampleNow_sec (s : State) (d due : Nat) (late : Bool) (n : Nat) (c : LoopCfg) : KeptSec (State.sampleNow s d due late n c) s := by
  simp [State.sampleNow]
@[simp] theorem State.sampleNow_wf (s : State) (d due : Nat) (late : Bool) (n : Nat) (c : LoopCfg) (hw : MemWf s) : MemWf (State.sampleNow s d due late n c) := by
  simp_all [State.sampleNow]
@[simp] theorem State.sampleOwn_sec (s : State) (d due : Nat) (late : Bool) (n : Nat) (c : LoopCfg) : KeptSec (State.sampleOwn s d due late n c) s := by
  simp [State.sampleOwn]
@[simp] theorem State.sampleOwn_wf (s : State) (d due : Nat) (late : Bool) (n : Nat) (c : LoopCfg) (hw : MemWf s) : MemWf (State.sampleOwn s d due late n c) := by
  simp_all [State.sampleOwn]
@[simp] theorem State.sampleHeld_sec (s : State) (d n : Nat) : KeptSec (s.sampleHeld d n) s := by
  unfold State.sampleHeld; dsimp only
  exact KeptSec.trans (State.capture_sec _ _ _ _) (by simp)
@[simp] theorem State.sampleHeld_wf (s : State) (d n : Nat) (hw : MemWf s) : MemWf (s.sampleHeld d n) := by
  unfold State.sampleHeld; dsimp only
  exact State.capture_wf _ _ _ _ (by simpa using hw)
@[simp] theorem State.sampleLoop_sec (s : State) (d due f late n : Nat) : KeptSec (s.sampleLoop d due f late n) s := by
  induction f generalizing s n late with
  | zero => simp [State.sampleLoop]
  | succ f ih =>
    unfold State.sampleLoop
    split
    · simp
    · split
      · simp
      · refine KeptSec.trans (State.sampleOwn_sec _ _ _ _ _ _) ?_
        split
        · dsimp only; (repeat' split) <;> first | exact ih _ _ _ | simp
        · simp
@[simp] theorem State.sampleLoop_wf (s : State) (d due f late n : Nat) (hw : MemWf s) : MemWf (s.sampleLoop d due f late n) := by
  induction f generalizing s n late with
  | zero => simpa [State.sampleLoop] using hw
  | succ f ih =>
    unfold State.sampleLoop
    split
    · exact hw
    · split
      · exact State.sampleHeld_wf _ _ _ hw
      · apply State.sampleOwn_wf
        split
        · dsimp only; (repeat' split) <;> first | exact ih _ _ _ hw | exact hw
        · exact hw
theorem execLoopSample_sec (d : Die) (n : LoopNo) (late : Fin 4) (s : State) (z : State)
    (hz : execLoopSample d n late s = .next z) : KeptSec z s := by
  revert hz; unfold execLoopSample; dsimp only
  split
  · simp only [done_eq]; rintro rfl; simp
  · split
    · simp only [done_eq]; rintro rfl; rw [settle_sec']
      exact KeptSec.trans (State.modLoop_kept _ _ _ _).2 (State.sampleLoop_sec _ _ _ _ _ _)
    · simp only [done_eq]; rintro rfl; simp
theorem execLoopSample_wf (d : Die) (n : LoopNo) (late : Fin 4) (s : State) (z : State) (hw : MemWf s)
    (hz : execLoopSample d n late s = .next z) : MemWf z := by
  revert hz; unfold execLoopSample; dsimp only
  split
  · simp only [done_eq]; rintro rfl; simpa using hw
  · split
    · simp only [done_eq]; rintro rfl; rw [settle_wf']
      exact Kept.wf (State.modLoop_kept _ _ _ _) (State.sampleLoop_wf _ _ _ _ _ _ hw)
    · simp only [done_eq]; rintro rfl; simpa using hw
@[simp] theorem State.setAo_kept (s : State) (k : Nat) (v : V24) : Kept (State.setAo s k v) s := by
  unfold State.setAo; (try dsimp only); (repeat' split) <;> simp
@[simp] theorem State.writeLoopOut_kept (s : State) (d n : Nat) (c : LoopCfg) (l : Latch) : Kept (State.writeLoopOut s d n c l) s := by
  unfold State.writeLoopOut; (try dsimp only); (repeat' split) <;> simp
@[simp] theorem State.applyLoop_kept (s : State) (d : Nat) (a b : Nat) : Kept (State.applyLoop s d a b) s := by
  induction a generalizing s b with
  | zero => simp [State.applyLoop]
  | succ n ih => unfold State.applyLoop; (try dsimp only); (repeat' (split <;> (try (rename_i h; have h2 := congrArg Prod.snd h; dsimp only at h2; clear h; subst h2)))) <;> simp_all
theorem execLoopOutputApply_kept (d : Die) (n : LoopNo) (s : State) (z : State) (hz : execLoopOutputApply d n s = .next z) : Kept z s := by
  revert hz; unfold execLoopOutputApply; (try dsimp only); (repeat' split) <;> (simp only [done_eq]; rintro rfl; simp)
@[simp] theorem State.applyAoNext_kept (s : State) : Kept (State.applyAoNext s) s := by
  unfold State.applyAoNext; (try dsimp only); (repeat' split) <;> simp
theorem execLocalLoopOutput_kept (s z : State) (hz : execLocalLoopOutput s = .next z) : Kept z s := by
  obtain rfl := (done_eq _ _ _).1 hz
  rw [settle_kept']
  refine Kept.trans (foldl_kept _ _ _ ?_) (by simp)
  intro s e; repeat' split
  all_goals simp
@[simp] theorem State.startUnit_kept (s : State) (d u : Nat) : Kept (State.startUnit s d u) s := by
  unfold State.startUnit; (try dsimp only); (repeat' split) <;> simp
@[simp] theorem State.tuCtrl_kept (s : State) (d u v : Nat) : Kept (State.tuCtrl s d u v) s := by
  unfold State.tuCtrl; (try dsimp only); (repeat' split) <;> simp
/-! ### Machine/Channels -/

@[simp] theorem State.setGroup_kept (s : State) (g : Nat) (x : Group) : Kept (State.setGroup s g x) s := by
  simp [State.setGroup]
@[simp] theorem State.modGroup_kept (s : State) (g : Nat) (f : Group → Group) : Kept (State.modGroup s g f) s := by
  simp [State.modGroup]
@[simp] theorem State.chEvent_kept (s : State) (c code what : Nat) : Kept (State.chEvent s c code what) s := by
  simp [State.chEvent]
@[simp] theorem State.switchOn_kept (s : State) (c rank : Nat) : Kept (State.switchOn s c rank) s := by
  simp [State.switchOn]
@[simp] theorem State.switchOff_kept (s : State) (c : Nat) : Kept (State.switchOff s c) s := by
  simp [State.switchOff]
@[simp] theorem State.chFault_kept (s : State) (c : Nat) (thermal : Bool) : Kept (State.chFault s c thermal) s := by
  simp [State.chFault]
@[simp] theorem State.serveRetry_kept (s : State) (g : Nat) : Kept (State.serveRetry s g) s := by
  unfold State.serveRetry; (try dsimp only); (repeat' split) <;> simp
@[simp] theorem State.queueRetry_kept (s : State) (c : Nat) : Kept (State.queueRetry s c) s := by
  simp [State.queueRetry]
@[simp] theorem State.cancelRetry_kept (s : State) (c : Nat) : Kept (State.cancelRetry s c) s := by
  unfold State.cancelRetry; (try dsimp only); (repeat' split) <;> simp
@[simp] theorem State.quitChan_kept (s : State) (c : Nat) : Kept (State.quitChan s c) s := by
  simp [State.quitChan]
@[simp] theorem State.obey_kept (s : State) (c rank : Nat) (want : Bool) : Kept (State.obey s c rank want) s := by
  unfold State.obey; (try dsimp only); (repeat' split) <;> simp
@[simp] theorem State.obeyAll_kept (s : State) : Kept (State.obeyAll s) s := by
  simp [State.obeyAll]
@[simp] theorem State.sendAo_kept (s : State) : Kept (State.sendAo s) s := by
  simp [State.sendAo]
@[simp] theorem State.sampleAins_kept (s : State) (l : List Int) : Kept (State.sampleAins s l) s := by
  simp [State.sampleAins]
/-! ### Machine/Motion -/

@[simp] theorem State.writeDue_kept (s : State) : Kept (State.writeDue s) s := by
  simp [State.writeDue]
@[simp] theorem State.moveDone_kept (s : State) (m : Nat) : Kept (State.moveDone s m) s := by
  simp [State.moveDone]
@[simp] theorem State.legOff_kept (s : State) (m : Nat) : Kept (State.legOff s m) s := by
  unfold State.legOff; (try dsimp only); (repeat' split) <;> simp
@[simp] theorem State.rest_kept (s : State) (m : Nat) : Kept (State.rest s m) s := by
  simp [State.rest]
@[simp] theorem State.motFault_kept (s : State) (m n : Nat) : Kept (State.motFault s m n) s := by
  unfold State.motFault; (try dsimp only); (repeat' split) <;> simp
@[simp] theorem State.motStop_kept (s : State) (m : Nat) : Kept (State.motStop s m) s := by
  unfold State.motStop; (try dsimp only); (repeat' split) <;> simp
@[simp] theorem State.legOn_kept (s : State) (m : Nat) (home : Bool) (g : MoveGoal) : Kept (State.legOn s m home g) s := by
  unfold State.legOn; (try dsimp only); (repeat' split) <;> simp
@[simp] theorem State.homeFirst_kept (s : State) (m : Nat) (g : MoveGoal) : Kept (State.homeFirst s m g) s := by
  unfold State.homeFirst; (try dsimp only); (repeat' split) <;> simp
@[simp] theorem State.startMove_kept (s : State) (m : Nat) (g : MoveGoal) : Kept (State.startMove s m g) s := by
  unfold State.startMove; (try dsimp only); (repeat' split) <;> simp
@[simp] theorem State.waitMove_kept (s : State) (m : Nat) (g : MoveGoal) : Kept (State.waitMove s m g) s := by
  unfold State.waitMove; (try dsimp only); (repeat' split) <;> simp
@[simp] theorem State.redirect_kept (s : State) (m : Nat) (g : MoveGoal) : Kept (State.redirect s m g) s := by
  unfold State.redirect; (try dsimp only); (repeat' split) <;> simp
@[simp] theorem State.move_kept (s : State) (m : Nat) (g : MoveGoal) (r : Option Req) : Kept (State.move s m g r).2 s := by
  unfold State.move; (try dsimp only); (repeat' split) <;> simp
@[simp] theorem State.motClear_kept (s : State) (m : Nat) : Kept (State.motClear s m) s := by
  simp [State.motClear]
@[simp] theorem State.motAns_kept (s : State) (m : Nat) (r : Option Req) : Kept (State.motAns s m r) s := by
  simp [State.motAns]
@[simp] theorem State.motCmd_kept (s : State) (m cmd : Nat) (target : V24) (r : Option Req) : Kept (State.motCmd s m cmd target r).2 s := by
  unfold State.motCmd; (try dsimp only); (repeat' split) <;> simp
@[simp] theorem State.limitChange_kept (s : State) (m : Nat) (home : Bool) : Kept (State.limitChange s m home) s := by
  unfold State.limitChange; (try dsimp only); (repeat' split) <;> simp
@[simp] theorem State.motPulse_kept (s : State) (m : Nat) : Kept (State.motPulse s m) s := by
  unfold State.motPulse; (try dsimp only); (repeat' split) <;> simp
theorem execCoastEnd_kept (m : MotNo) (s : State) (z : State) (hz : execCoastEnd m s = .next z) : Kept z s := by
  revert hz; unfold execCoastEnd; (try dsimp only); (repeat' split) <;> (simp only [done_eq]; rintro rfl; simp)
theorem execDeadTimeExpiry_kept (m : MotNo) (s : State) (z : State) (hz : execDeadTimeExpiry m s = .next z) : Kept z s := by
  revert hz; unfold execDeadTimeExpiry; (try dsimp only); (repeat' split) <;> (simp only [done_eq]; rintro rfl; simp)
theorem execMoveTimeout_kept (m : MotNo) (s : State) (z : State) (hz : execMoveTimeout m s = .next z) : Kept z s := by
  revert hz; unfold execMoveTimeout; (try dsimp only); (repeat' split) <;> (simp only [done_eq]; rintro rfl; simp)
theorem execPulseLossTimeout_kept (m : MotNo) (s : State) (z : State) (hz : execPulseLossTimeout m s = .next z) : Kept z s := by
  revert hz; unfold execPulseLossTimeout; (try dsimp only); (repeat' split) <;> (simp only [done_eq]; rintro rfl; simp)
theorem execMotionTargetChange_kept (m : MotNo) (s : State) (z : State) (hz : execMotionTargetChange m s = .next z) : Kept z s := by
  revert hz; unfold execMotionTargetChange; (try dsimp only); (repeat' split) <;> (simp only [done_eq]; rintro rfl; simp)
@[simp] theorem State.legReport_kept (s : State) (m : Nat) (home : Bool) : Kept (State.legReport s m home) s := by
  unfold State.legReport; (try dsimp only); (repeat' split) <;> simp
@[simp] theorem State.legFault_kept (s : State) (m : Nat) (home : Bool) : Kept (State.legFault s m home) s := by
  unfold State.legFault; (try dsimp only); (repeat' split) <;> simp
@[simp] theorem State.fault_kept (s : State) (c : Nat) (thermal : Bool) : Kept (State.fault s c thermal) s := by
  unfold State.fault; (try dsimp only); (repeat' split) <;> simp
/-! ### Machine/FieldIO -/

@[simp] theorem State.safeChan_kept (s : State) (rank : Nat) (c : Nat) : Kept (State.safeChan s rank c) s := by
  unfold State.safeChan; (try dsimp only); (repeat' split) <;> simp
@[simp] theorem State.applySafe_kept (s : State) : Kept (State.applySafe s) s := by
  simp [State.applySafe]
@[simp] theorem State.enterSafe_kept (s : State) (cause : Nat) : Kept (State.enterSafe s cause) s := by
  simp [State.enterSafe]
@[simp] theorem State.fioRelease_kept (s : State) : Kept (State.fioRelease s) s := by
  unfold State.fioRelease; (try dsimp only); (repeat' split) <;> simp
@[simp] theorem State.sendCfg_kept (s : State) : Kept (State.sendCfg s) s := by
  unfold State.sendCfg; (try dsimp only); (repeat' split) <;> simp
@[simp] theorem State.linkBack_kept (s : State) : Kept (State.linkBack s) s := by
  unfold State.linkBack; (try dsimp only); (repeat' split) <;> simp
theorem execFioLinkLoss_kept (s : State) (z : State) (hz : execFioLinkLoss s = .next z) : Kept z s := by
  revert hz; unfold execFioLinkLoss; (try dsimp only); (repeat' split) <;> (simp only [done_eq]; rintro rfl; simp)
theorem execWatchdogRefresh_kept (s : State) (z : State) (hz : execWatchdogRefresh s = .next z) : Kept z s := by
  revert hz; unfold execWatchdogRefresh; (try dsimp only); (repeat' split) <;> (simp only [done_eq]; rintro rfl; simp)
theorem execFioWatchdogExpiry_kept (s : State) (z : State) (hz : execFioWatchdogExpiry s = .next z) : Kept z s := by
  revert hz; unfold execFioWatchdogExpiry; (try dsimp only); (repeat' split) <;> (simp only [done_eq]; rintro rfl; simp)
theorem execFioControllerPowerUp_kept (s : State) (z : State) (hz : execFioControllerPowerUp s = .next z) : Kept z s := by
  obtain rfl := (done_eq _ _ _).1 hz; simp
@[simp] theorem State.filtChange_kept (s : State) (c : Nat) : Kept (State.filtChange s c) s := by
  unfold State.filtChange; (try dsimp only); (repeat' split) <;> simp
theorem execInputRawChange_kept (c : Chan) (high : Bool) (s : State) (z : State) (hz : execInputRawChange c high s = .next z) : Kept z s := by
  revert hz; unfold execInputRawChange; (try dsimp only); (repeat' split) <;> (simp only [done_eq]; rintro rfl; simp)
theorem execInputFilterSample_kept (c : Chan) (s : State) (z : State) (hz : execInputFilterSample c s = .next z) : Kept z s := by
  revert hz; unfold execInputFilterSample; (try dsimp only); (repeat' split) <;> (simp only [done_eq]; rintro rfl; simp)
theorem execInputPointRefresh_kept (analog : Bool) (s : State) (z : State) (hz : execInputPointRefresh analog s = .next z) : Kept z s := by
  revert hz; unfold execInputPointRefresh; (try dsimp only); (repeat' split) <;> (simp only [done_eq]; rintro rfl; simp)
theorem execPulseEdge_kept (c : Chan) (s : State) (z : State) (hz : execPulseEdge c s = .next z) : Kept z s := by
  revert hz; unfold execPulseEdge; (try dsimp only); (repeat' split) <;> (simp only [done_eq]; rintro rfl; simp)
theorem execBlankingEnd_kept (c : Chan) (limiting : Bool) (s : State) (z : State) (hz : execBlankingEnd c limiting s = .next z) : Kept z s := by
  revert hz; unfold execBlankingEnd; (try dsimp only); (repeat' split) <;> (simp only [done_eq]; rintro rfl; simp)
theorem execOvercurrentDetect_kept (c : Chan) (s : State) (z : State) (hz : execOvercurrentDetect c s = .next z) : Kept z s := by
  revert hz; unfold execOvercurrentDetect; (try dsimp only); (repeat' split) <;> (simp only [done_eq]; rintro rfl; simp)
theorem execThermalTrip_kept (c : Chan) (s : State) (z : State) (hz : execThermalTrip c s = .next z) : Kept z s := by
  revert hz; unfold execThermalTrip; (try dsimp only); (repeat' split) <;> (simp only [done_eq]; rintro rfl; simp)
theorem execRetryTimerExpiry_kept (c : Chan) (s : State) (z : State) (hz : execRetryTimerExpiry c s = .next z) : Kept z s := by
  revert hz; unfold execRetryTimerExpiry; (try dsimp only); (repeat' split) <;> (simp only [done_eq]; rintro rfl; simp)
theorem execJunctionCooled_kept (c : Chan) (s : State) (z : State) (hz : execJunctionCooled c s = .next z) : Kept z s := by
  revert hz; unfold execJunctionCooled; (try dsimp only); (repeat' split) <;> (simp only [done_eq]; rintro rfl; simp)
theorem execGroupOverloadDetect_kept (g : Fin 4) (s : State) (z : State) (hz : execGroupOverloadDetect g s = .next z) : Kept z s := by
  revert hz; unfold execGroupOverloadDetect; (try dsimp only); (repeat' split) <;> (simp only [done_eq]; rintro rfl; simp)
@[simp] theorem State.clearChan_kept (s : State) (c : Nat) : Kept (State.clearChan s c) s := by
  unfold State.clearChan; (try dsimp only); (repeat' split) <;> simp
@[simp] theorem State.fioClr_kept (s : State) (v : Nat) : Kept (State.fioClr s v) s := by
  unfold State.fioClr; (try dsimp only); (repeat' split) <;> simp
@[simp] theorem State.groupLost_kept (s : State) (g : Nat) : Kept (State.groupLost s g) s := by
  unfold State.groupLost; try dsimp only
  repeat' (split <;> (try (rename_i h; have h2 := congrArg Prod.snd h; dsimp only at h2; clear h; subst h2)))
  all_goals first
    | done
    | (simp_all; done)
    | (apply foldl_kept; intro s x; (repeat' split) <;> simp_all; done)
    | (rename_i h; have h2 := congrArg Prod.snd h; dsimp only at h2; clear h; subst h2; simp_all; done)
    | (rename_i h _; have h2 := congrArg Prod.snd h; dsimp only at h2; clear h; subst h2; simp_all; done)
    | (rename_i h _ _; have h2 := congrArg Prod.snd h; dsimp only at h2; clear h; subst h2; simp_all; done)
    | skip
@[simp] theorem State.groupBack_kept (s : State) (g : Nat) : Kept (State.groupBack s g) s := by
  simp [State.groupBack]
@[simp] theorem State.serveRestore_kept (s : State) (g : Nat) : Kept (State.serveRestore s g) s := by
  unfold State.serveRestore; (try dsimp only); (repeat' split) <;> simp
@[simp] theorem State.supplyTurn_kept (s : State) (g : Nat) (x y : Group) : Kept (State.supplyTurn s g x y) s := by
  unfold State.supplyTurn; (repeat' split) <;> simp
@[simp] theorem State.supplyShow_kept (s : State) (g : Nat) (x y : Group) : Kept (State.supplyShow s g x y) s := by
  unfold State.supplyShow; split <;> simp
@[simp] theorem State.supply_kept (s : State) (g mv ma : Nat) : Kept (State.supply s g mv ma) s := by
  simp [State.supply]
theorem execSupplySample_kept (volts currents : List Nat) (s : State) (z : State) (hz : execSupplySample volts currents s = .next z) : Kept z s := by
  obtain rfl := (done_eq _ _ _).1 hz; simp
@[simp] theorem State.stGo_kept (s : State) (k : Nat) : Kept (State.stGo s k) s := by
  unfold State.stGo; (try dsimp only); (repeat' split) <;> simp
@[simp] theorem State.fioStStart_kept (s : State) : Kept (State.fioStStart s) s := by
  unfold State.fioStStart; (try dsimp only); (repeat' split) <;> simp
@[simp] theorem State.fioStStop_kept (s : State) : Kept (State.fioStStop s) s := by
  simp [State.fioStStop]
theorem execSelftestPassStart_kept (s : State) (z : State) (hz : execSelftestPassStart s = .next z) : Kept z s := by
  revert hz; unfold execSelftestPassStart; (try dsimp only); (repeat' split) <;> (simp only [done_eq]; rintro rfl; simp)
theorem execSelftestSlot_kept (c : Chan) (bad : Bool) (s : State) (z : State) (hz : execSelftestSlot c bad s = .next z) : Kept z s := by
  revert hz; unfold execSelftestSlot; (try dsimp only); (repeat' split) <;> (simp only [done_eq]; rintro rfl; simp)
@[simp] theorem State.fioServe_kept (s : State) : Kept (State.fioServe s) s := by
  simp [State.fioServe]
@[simp] theorem State.fioTick_kept (s : State) (l : List Int) : Kept (State.fioTick s l) s := by
  unfold State.fioTick; (try dsimp only); (repeat' split) <;> simp
/-! ### Machine/MeterMath -/

@[simp] theorem State.setMinput_kept (s : State) (c : Nat) (x : MInputSt) : Kept (State.setMinput s c x) s := by
  simp [State.setMinput]
@[simp] theorem State.modMinput_kept (s : State) (c : Nat) (f : MInputSt → MInputSt) : Kept (State.modMinput s c f) s := by
  simp [State.modMinput]
/-! ### Machine/Metering -/

@[simp] theorem State.modCircuit_kept (s : State) (k : Nat) (f : Circuit → Circuit) : Kept (State.modCircuit s k f) s := by
  simp [State.modCircuit]
@[simp] theorem State.modVset_kept (s : State) (v : Nat) (f : Vset → Vset) : Kept (State.modVset s v f) s := by
  simp [State.modVset]
@[simp] theorem State.waveEnd_sec (s : State) (w : WaveRun) (ovf : Bool) : KeptSec (s.waveEnd w ovf) s := by
  unfold State.waveEnd; extract_lets s1 y all s2
  have h : KeptSec s2 s := by
    show KeptSec (if all then _ else _) s
    split
    · split <;> (rename_i h; obtain rfl := snd_of h; simp [s1])
    · simp [s1]
  exact KeptSec.trans (by simp) h
@[simp] theorem State.waveEnd_wf (s : State) (w : WaveRun) (ovf : Bool) (hw : MemWf s) : MemWf (s.waveEnd w ovf) := by
  unfold State.waveEnd; extract_lets s1 y all s2
  have h1 : MemWf s1 := by simpa [s1] using hw
  have h : MemWf s2 := by
    show MemWf (if all then _ else _)
    split
    · split <;> (rename_i h; obtain rfl := snd_of h; simp [State.flushWb_wf _ _ _ h1])
    · exact h1
  simpa using h
@[simp] theorem State.waveFrame_sec (s : State) : KeptSec s.waveFrame s := by
  unfold State.waveFrame; dsimp only
  repeat' split
  all_goals simp
@[simp] theorem State.waveFrame_wf (s : State) (hw : MemWf s) : MemWf s.waveFrame := by
  unfold State.waveFrame; dsimp only
  repeat' split
  all_goals simp_all
@[simp] theorem State.waveStart_kept (s : State) (w : WaveRun) : Kept (State.waveStart s w) s := by
  simp [State.waveStart]
@[simp] theorem State.mtrTick_sec (s : State) (codes : List Int) : KeptSec (State.mtrTick s codes) s := by
  unfold State.mtrTick; (try dsimp only); (repeat' split) <;> simp
@[simp] theorem State.mtrTick_wf (s : State) (codes : List Int) (hw : MemWf s) : MemWf (State.mtrTick s codes) := by
  unfold State.mtrTick; (try dsimp only); (repeat' split) <;> simp_all
@[simp] theorem State.endCircuit_kept (s : State) (c : CircuitCfg) (o : CircOut) (sec : Nat) (how : SecondEnd) : Kept (State.endCircuit s c o sec how) s := by
  simp [State.endCircuit]
@[simp] theorem State.endVset_kept (s : State) (c : VsetCfg) : Kept (State.endVset s c) s := by
  unfold State.endVset; (try dsimp only); (repeat' split) <;> simp
@[simp] theorem State.turnInput_kept (s : State) (c : Nat) : Kept (State.turnInput s c) s := by
  unfold State.turnInput; (try dsimp only); (repeat' split) <;> simp
@[simp] theorem State.calMeasures_kept (s : State) : Kept (State.calMeasures s) s := by
  unfold State.calMeasures; try dsimp only
  repeat' (split <;> (try (rename_i h; have h2 := congrArg Prod.snd h; dsimp only at h2; clear h; subst h2)))
  all_goals first
    | done
    | (simp_all; done)
    | (apply foldl_kept; intro s x; (repeat' split) <;> simp_all; done)
    | (rename_i h; have h2 := congrArg Prod.snd h; dsimp only at h2; clear h; subst h2; simp_all; done)
    | (rename_i h _; have h2 := congrArg Prod.snd h; dsimp only at h2; clear h; subst h2; simp_all; done)
    | (rename_i h _ _; have h2 := congrArg Prod.snd h; dsimp only at h2; clear h; subst h2; simp_all; done)
    | skip
@[simp] theorem State.closeSecond_kept (s : State) (how : SecondEnd) : Kept (State.closeSecond s how) s := by
  simp [State.closeSecond]
@[simp] theorem State.testEnds_kept (s : State) : Kept (State.testEnds s) s := by
  unfold State.testEnds; (try dsimp only); (repeat' split) <;> simp
theorem execMeteringSecondEnd_kept (s : State) (z : State) (hz : execMeteringSecondEnd s = .next z) : Kept z s := by
  revert hz; unfold execMeteringSecondEnd; (try dsimp only); (repeat' split) <;> (simp only [done_eq]; rintro rfl; simp)
@[simp] theorem State.mtrPowerFail_kept (s : State) : Kept (State.mtrPowerFail s) s := by
  unfold State.mtrPowerFail; (try dsimp only); (repeat' split) <;> simp
theorem execHalfCycleEnd_kept (v : Fin 6) (s : State) (z : State) (hz : execHalfCycleEnd v s = .next z) : Kept z s := by
  revert hz; unfold execHalfCycleEnd; (try dsimp only); (repeat' split) <;> (simp only [done_eq]; rintro rfl; simp)
@[simp] theorem State.harmReport_kept (s : State) (set start n : Nat) : Kept (State.harmReport s set start n) s := by
  simp [State.harmReport]
theorem execHarmonicWindowEnd_kept (set : Fin 2) (s : State) (z : State) (hz : execHarmonicWindowEnd set s = .next z) : Kept z s := by
  revert hz; unfold execHarmonicWindowEnd; (try dsimp only); (repeat' split) <;> (simp only [done_eq]; rintro rfl; simp)
@[simp] theorem State.stStart_kept (s : State) : Kept (State.stStart s) s := by
  simp [State.stStart]
@[simp] theorem State.stStop_kept (s : State) : Kept (State.stStop s) s := by
  simp [State.stStop]
theorem execMtrSelftestTimer_kept (s : State) (z : State) (hz : execMtrSelftestTimer s = .next z) : Kept z s := by
  revert hz; unfold execMtrSelftestTimer; (try dsimp only); (repeat' split) <;> (simp only [done_eq]; rintro rfl; simp)
theorem execMeterSelftestConnect_kept (s : State) (z : State) (hz : execMeterSelftestConnect s = .next z) : Kept z s := by
  revert hz; unfold execMeterSelftestConnect; (try dsimp only); (repeat' split) <;> (simp only [done_eq]; rintro rfl; simp)
theorem execMeterSelftestDisconnect_kept (s : State) (z : State) (hz : execMeterSelftestDisconnect s = .next z) : Kept z s := by
  revert hz; unfold execMeterSelftestDisconnect; (try dsimp only); (repeat' split) <;> (simp only [done_eq]; rintro rfl; simp)
/-! ### Machine/Drives -/

@[simp] theorem State.driveFail_kept (s : State) (n : Nat) : Kept (State.driveFail s n) s := by
  unfold State.driveFail; (try dsimp only); (repeat' split) <;> simp
@[simp] theorem State.nvmeFail_kept (s : State) (n cid : Nat) : Kept (State.nvmeFail s n cid) s := by
  unfold State.nvmeFail; (try dsimp only); (repeat' split) <;> simp
theorem execNvmeCompletion_kept (drive : Fin 2) (cid : Nat) (ok : Bool) (fault : Option EngFault) (s : State) (z : State) (hz : execNvmeCompletion drive cid ok fault s = .next z) : Kept z s := by
  revert hz; unfold execNvmeCompletion; try dsimp only
  repeat' split
  all_goals (simp only [done_eq]; rintro rfl)
  repeat' (split <;> (try (rename_i h; have h2 := congrArg Prod.snd h; dsimp only at h2; clear h; subst h2)))
  all_goals first
    | done
    | (simp_all; done)
    | (apply foldl_kept; intro s x; (repeat' split) <;> simp_all; done)
    | (rename_i h; have h2 := congrArg Prod.snd h; dsimp only at h2; clear h; subst h2; simp_all; done)
    | (rename_i h _; have h2 := congrArg Prod.snd h; dsimp only at h2; clear h; subst h2; simp_all; done)
    | (rename_i h _ _; have h2 := congrArg Prod.snd h; dsimp only at h2; clear h; subst h2; simp_all; done)
    | skip
theorem execNvmeCommandTimeout_kept (drive : Fin 2) (cid : Nat) (s : State) (z : State) (hz : execNvmeCommandTimeout drive cid s = .next z) : Kept z s := by
  revert hz; unfold execNvmeCommandTimeout; (try dsimp only); (repeat' split) <;> (simp only [done_eq]; rintro rfl; simp)
theorem execNvmeReissue_kept (drive : Fin 2) (cid : Nat) (s : State) (z : State) (hz : execNvmeReissue drive cid s = .next z) : Kept z s := by
  revert hz; unfold execNvmeReissue; (try dsimp only); (repeat' split) <;> (simp only [done_eq]; rintro rfl; simp)
@[simp] theorem State.reclaimAll_kept (s : State) (l : List Nat) : Kept (State.reclaimAll s l) s := by
  induction l generalizing s with
  | nil => unfold State.reclaimAll; (try dsimp only); (repeat' (split <;> (try (rename_i h; have h2 := congrArg Prod.snd h; dsimp only at h2; clear h; subst h2)))) <;>
    first
    | done
    | (simp_all; done)
    | (rename_i h; have h2 := congrArg Prod.snd h; dsimp only at h2; clear h; subst h2; simp_all; done)
    | (rename_i h _; have h2 := congrArg Prod.snd h; dsimp only at h2; clear h; subst h2; simp_all; done)
    | (rename_i h _ _; have h2 := congrArg Prod.snd h; dsimp only at h2; clear h; subst h2; simp_all; done)
    | skip
  | cons a l ih => unfold State.reclaimAll; (try dsimp only); (repeat' (split <;> (try (rename_i h; have h2 := congrArg Prod.snd h; dsimp only at h2; clear h; subst h2)))) <;>
    first
    | done
    | (simp_all; done)
    | (rename_i h; have h2 := congrArg Prod.snd h; dsimp only at h2; clear h; subst h2; simp_all; done)
    | (rename_i h _; have h2 := congrArg Prod.snd h; dsimp only at h2; clear h; subst h2; simp_all; done)
    | (rename_i h _ _; have h2 := congrArg Prod.snd h; dsimp only at h2; clear h; subst h2; simp_all; done)
    | skip
@[simp] theorem State.newKey_kept (s : State) (k : KeyName) : Kept (State.newKey s k) s := by
  simp [State.newKey, Security.hold]
@[simp] theorem State.newKeys_kept (s : State) (t : Tenant) : Kept (State.newKeys s t) s := by
  unfold State.newKeys; (try dsimp only); (repeat' split) <;> simp
@[simp] theorem State.takeEscrow_kept (s : State) (t : Tenant) (l : List (Nat × BitVec 256)) : Kept (State.takeEscrow s t l) s := by
  induction l generalizing s with
  | nil => simp [State.takeEscrow]
  | cons a l ih =>
    unfold State.takeEscrow
    refine Kept.trans (ih _) ?_
    (repeat' split) <;> simp [Security.hold]
    split <;> simp
@[simp] theorem State.keysStart_kept (s : State) : Kept (State.keysStart s) s := by
  unfold State.keysStart; (try dsimp only); (repeat' split) <;> simp
@[simp] theorem State.adminStart_kept (s : State) (n : Nat) (cache : Bool) : Kept (State.adminStart s n cache) s := by
  simp [State.adminStart]
@[simp] theorem State.startReads_kept (s : State) : Kept (State.startReads s) s := by
  unfold State.startReads
  exact Kept.trans (foldl_kept _ _ _ fun s e => by simp) (foldl_kept _ _ _ fun s e => by simp)
@[simp] theorem State.storeStart_kept (s : State) : Kept (State.storeStart s) s := by
  unfold State.storeStart; (try dsimp only); (repeat' split) <;> simp
theorem execDriveReady_kept (drive : Fin 2) (blocks : Nat) (suitable cache dsm : Bool) (serial : Nat) (s : State) (z : State) (hz : execDriveReady drive blocks suitable cache dsm serial s = .next z) : Kept z s := by
  revert hz; unfold execDriveReady; (try dsimp only); (repeat' split) <;> (simp only [done_eq]; rintro rfl; simp)
theorem execCheckpointTimer_kept (s : State) (z : State) (hz : execCheckpointTimer s = .next z) : Kept z s := by
  revert hz; unfold execCheckpointTimer; (try dsimp only); (repeat' split) <;> (simp only [done_eq]; rintro rfl; simp)
theorem execTrendFlushTimer_kept (d : Die) (ten : Tenant) (s : State) (z : State) (hz : execTrendFlushTimer d ten s = .next z) : Kept z s := by
  revert hz; unfold execTrendFlushTimer; (try dsimp only); (repeat' split) <;> (simp only [done_eq]; rintro rfl; simp)
theorem execResyncSegmentCopy_kept (s : State) (z : State) (hz : execResyncSegmentCopy s = .next z) : Kept z s := by
  revert hz; unfold execResyncSegmentCopy; (try dsimp only); (repeat' split) <;> (simp only [done_eq]; rintro rfl; simp)
@[simp] theorem State.readStored_kept (s : State) (n i : Nat) : Kept (State.readStored s n i).2 s := by
  unfold State.readStored; (try dsimp only); (repeat' split) <;> simp

end Sys2Proof.Machine
end

