-- ==== Sys2Proof/Laws/FrameHost.lean ====
section
/-! SUPPORT. What the operations and commands leave unchanged: the host port and its registers. -/
namespace Sys2Proof.Machine

/-! ### Machine/HostPort -/

@[simp] theorem State.forgetReqs_kept (s : State) (k : Nat) : Kept (State.forgetReqs s k) s := by
  simp [State.forgetReqs]
@[simp] theorem State.releaseWin_kept (s : State) (k : Nat) : Kept (State.releaseWin s k) s := by
  unfold State.releaseWin; (try dsimp only); (repeat' split) <;> simp
@[simp] theorem State.closeService_kept (s : State) : Kept (State.closeService s) s := by
  simp [State.closeService]
@[simp] theorem State.closeSession_kept (s : State) (k : Nat) : Kept (State.closeSession s k) s := by
  unfold State.closeSession; (try dsimp only); (repeat' split) <;> simp
@[simp] theorem State.mbxErr_kept (s : State) (k : Nat) (bit : BitVec 3) : Kept (State.mbxErr s k bit) s := by
  simp [State.mbxErr]
@[simp] theorem State.slotDisable_kept (s : State) (k : Nat) : Kept (State.slotDisable s k) s := by
  simp [State.slotDisable]
@[simp] theorem State.slotCtrl_kept (s : State) (k : Nat) (en irq : Bool) : Kept (State.slotCtrl s k en irq) s := by
  unfold State.slotCtrl; (try dsimp only); (repeat' split) <;> simp
@[simp] theorem State.rqTailWrite_kept (s : State) (k v : Nat) : Kept (State.rqTailWrite s k v) s := by
  unfold State.rqTailWrite; (try dsimp only); (repeat' split) <;> simp
@[simp] theorem State.cqHeadWrite_kept (s : State) (k v : Nat) : Kept (State.cqHeadWrite s k v) s := by
  unfold State.cqHeadWrite; (try dsimp only); (repeat' split) <;> simp
@[simp] theorem State.internal_kept (s : State) (e : EngFault) : Kept (State.internal s e) s := by
  simp [State.internal]
@[simp] theorem State.nextHead_kept (s : State) (x : SlotSt) (m : HostMem) : Kept (State.nextHead s x m).2 s := by
  unfold State.nextHead; split <;> simp
theorem execRequestFetch_kept (k : SlotNo) (m : HostMem) (fault : Option EngFault) (s : State) (z : State) (hz : execRequestFetch k m fault s = .next z) : Kept z s := by
  revert hz; unfold execRequestFetch; (try dsimp only); (repeat' split) <;> (simp only [done_eq]; rintro rfl; simp)
@[simp] theorem State.toCrown_kept (s : State) (k : Nat) (t : Tenant) (c : Completion) : Kept (s.toCrown k t c) s := by
  unfold State.toCrown; exact Kept.trans (State.sendParts_kept _ _ _ _ _ _) (by simp)
theorem execTrunkRxMailboxRequest_kept (t : TrunkPort) (f : TrkFrame) (slot : Option SlotNo) (b : List Byte) (s : State) (z : State) (hz : execTrunkRxMailboxRequest t f slot b s = .next z) : Kept z s := by
  revert hz; unfold execTrunkRxMailboxRequest; (try dsimp only); (repeat' split) <;> (simp only [done_eq]; rintro rfl; simp)
@[simp] theorem State.writeCompletion_kept (s : State) (k : Nat) (c : Completion) : Kept (State.writeCompletion s k c) s := by
  unfold State.writeCompletion; (try dsimp only); (repeat' split) <;> simp
@[simp] theorem State.afterCompletion_kept (s : State) (k : Nat) : Kept (State.afterCompletion s k) s := by
  unfold State.afterCompletion; (try dsimp only); (repeat' split) <;> simp
@[simp] theorem State.judgeEarly_kept (s : State) (k : Nat) (tag : Word) : Kept (State.judgeEarly s k tag) s := by
  unfold State.judgeEarly; (try dsimp only); (repeat' split) <;> simp
theorem execRequestComplete_kept (r : Req) (hostOk : Bool) (s : State) (z : State) (hz : execRequestComplete r hostOk s = .next z) : Kept z s := by
  revert hz; unfold execRequestComplete; (try dsimp only); (repeat' split) <;> (simp only [done_eq]; rintro rfl; simp)
theorem execHeartbeatTimer_kept (s : State) (z : State) (hz : execHeartbeatTimer s = .next z) : Kept z s := by
  revert hz; unfold execHeartbeatTimer; (try dsimp only); (repeat' split) <;> (simp only [done_eq]; rintro rfl; simp)
@[simp] theorem State.perstSlot_kept (s : State) (k : Nat) : Kept (State.perstSlot s k) s := by
  unfold State.perstSlot; (try dsimp only); (repeat' split) <;> simp
@[simp] theorem State.perst_kept (s : State) : Kept (State.perst s) s := by
  simp [State.perst]
theorem execPerstAssert_kept (s : State) (z : State) (hz : execPerstAssert s = .next z) : Kept z s := by
  obtain rfl := (done_eq _ _ _).1 hz; simp
theorem execFunctionLevelReset_kept (s : State) (z : State) (hz : execFunctionLevelReset s = .next z) : Kept z s := by
  obtain rfl := (done_eq _ _ _).1 hz; simp
theorem execD3hotEntry_kept (s : State) (z : State) (hz : execD3hotEntry s = .next z) : Kept z s := by
  obtain rfl := (done_eq _ _ _).1 hz; simp
theorem execD0Return_kept (s : State) (z : State) (hz : execD0Return s = .next z) : Kept z s := by
  obtain rfl := (done_eq _ _ _).1 hz; simp
@[simp] theorem State.setWmk_kept (s : State) (n : Nat) (w : Wmk) : Kept (State.setWmk s n w) s := by
  simp [State.setWmk]
@[simp] theorem State.wmkRoll_kept (s : State) : Kept (State.wmkRoll s) s := by
  simp [State.wmkRoll]
@[simp] theorem State.compare_kept (s : State) (n : Nat) : Kept (State.compare s n) s := by
  unfold State.compare; (try dsimp only); (repeat' split) <;> simp
theorem execWatermarkCompare_kept (s : State) (z : State) (hz : execWatermarkCompare s = .next z) : Kept z s := by
  revert hz; unfold execWatermarkCompare; (try dsimp only); (repeat' split) <;> (simp only [done_eq]; rintro rfl; simp)
@[simp] theorem State.wmkStatW_kept (s : State) (n : Nat) (v : Word) : Kept (State.wmkStatW s n v) s := by
  unfold State.wmkStatW; (try dsimp only); (repeat' split) <;> simp
@[simp] theorem State.wmkCfgW_kept (s : State) (n : Nat) (en pol : Bool) : Kept (State.wmkCfgW s n en pol) s := by
  unfold State.wmkCfgW; (try dsimp only); (repeat' split) <;> simp
@[simp] theorem State.snapTake_kept (s : State) : Kept (State.snapTake s) s := by
  simp [State.snapTake]
/-! ### Machine/RegsA -/

@[simp] theorem State.pntReadFx_kept (s : State) (t : Tenant) (d o : Nat) : Kept (State.pntReadFx s t d o) s := by
  unfold State.pntReadFx; (try dsimp only); (repeat' split) <;> simp
@[simp] theorem State.forceCtrl_kept (s : State) (t : Tenant) (d cmd : Nat) : Kept (State.forceCtrl s t d cmd) s := by
  unfold State.forceCtrl; (try dsimp only); (repeat' split) <;> simp
@[simp] theorem State.pntWrite_kept (s : State) (t : Tenant) (d o : Nat) (v : Word) : Kept (State.pntWrite s t d o v) s := by
  unfold State.pntWrite; (try dsimp only); (repeat' split) <;> simp
@[simp] theorem State.brSwapReg_kept (s : State) (p : Nat) : Kept (State.brSwapReg s p) s := by
  unfold State.brSwapReg; (try dsimp only); (repeat' split) <;> simp
@[simp] theorem State.brpWrite_kept (s : State) (d o : Nat) (v : Word) : Kept (State.brpWrite s d o v) s := by
  unfold State.brpWrite; dsimp only
  repeat' (with_reducible apply kept_ite)
  all_goals first
    | (simp; done)
    | (split <;> simp; done)
    | skip
@[simp] theorem State.lpeReadFx_kept (s : State) (t : Tenant) (d o : Nat) : Kept (State.lpeReadFx s t d o) s := by
  unfold State.lpeReadFx; (try dsimp only); (repeat' split) <;> simp
@[simp] theorem State.slotCtrlW_kept (s : State) (d n : Nat) (swap reset clrSat : Bool) : Kept (State.slotCtrlW s d n swap reset clrSat) s := by
  unfold State.slotCtrlW; (try dsimp only); (repeat' split) <;> simp
@[simp] theorem State.slotWrite_kept (s : State) (d n a : Nat) (v : Word) : Kept (State.slotWrite s d n a v) s := by
  unfold State.slotWrite; (try dsimp only); (repeat' split) <;> simp
@[simp] theorem State.lpeWrite_kept (s : State) (t : Tenant) (d o : Nat) (v : Word) : Kept (State.lpeWrite s t d o v) s := by
  unfold State.lpeWrite; dsimp only
  repeat' (with_reducible apply kept_ite)
  all_goals first
    | (simp; done)
    | (split <;> simp; done)
    | skip
@[simp] theorem State.lscReadFx_kept (s : State) (d o : Nat) : Kept (State.lscReadFx s d o) s := by
  unfold State.lscReadFx; (try dsimp only); (repeat' split) <;> simp
@[simp] theorem State.lscWrite_kept (s : State) (d o : Nat) (v : Word) : Kept (State.lscWrite s d o v) s := by
  unfold State.lscWrite; dsimp only
  repeat' (with_reducible apply kept_ite)
  all_goals first
    | (simp; done)
    | (split <;> simp; done)
    | skip
/-! ### Machine/RegsB -/

@[simp] theorem State.dmaCtrl_sec (s : State) (d c : Nat) (v : Word) : KeptSec (s.dmaCtrl d c v) s := by
  have i : ∀ (b : Prop) [Decidable b] (x y : State), KeptSec x s → KeptSec y s → KeptSec (if b then x else y) s := by
    intro b _ x y h g; split <;> assumption
  have h1 : ∀ (u : State), KeptSec u s → KeptSec (u.dmaAbort d c) s := by intro u h; simp_all
  have h2 : ∀ (u : State), KeptSec u s → KeptSec (u.dmaStart d c) s := by intro u h; simp_all
  have h3 : ∀ (u : State), KeptSec u s → KeptSec (u.dmaResume d c) s := by intro u h; simp_all
  have h4 : ∀ (u : State), KeptSec u s → KeptSec (u.dmaSkip d c) s := by intro u h; simp_all
  have hs : KeptSec s s := ⟨rfl, rfl, rfl, rfl, rfl⟩
  have a1 := i (v.getLsbD 3 = true) _ _ (h1 s hs) hs
  have a2 := i (v.getLsbD 0 = true) _ _ (h2 _ a1) a1
  have a3 := i (v.getLsbD 1 = true) _ _ (h3 _ a2) a2
  exact i (v.getLsbD 2 = true) _ _ (h4 _ a3) a3
@[simp] theorem State.dmaCtrl_wf (s : State) (d c : Nat) (v : Word) (hw : MemWf s) : MemWf (s.dmaCtrl d c v) := by
  have i : ∀ (b : Prop) [Decidable b] (x y : State), MemWf x → MemWf y → MemWf (if b then x else y) := by
    intro b _ x y h g; split <;> assumption
  have h1 : ∀ (u : State), MemWf u → MemWf (u.dmaAbort d c) := by intro u h; simp_all
  have h2 : ∀ (u : State), MemWf u → MemWf (u.dmaStart d c) := by intro u h; simp_all
  have h3 : ∀ (u : State), MemWf u → MemWf (u.dmaResume d c) := by intro u h; simp_all
  have h4 : ∀ (u : State), MemWf u → MemWf (u.dmaSkip d c) := by intro u h; simp_all
  have a1 := i (v.getLsbD 3 = true) _ _ (h1 s hw) hw
  have a2 := i (v.getLsbD 0 = true) _ _ (h2 _ a1) a1
  have a3 := i (v.getLsbD 1 = true) _ _ (h3 _ a2) a2
  exact i (v.getLsbD 2 = true) _ _ (h4 _ a3) a3
@[simp] theorem State.dmaChWrite_sec (s : State) (d c a : Nat) (v : Word) : KeptSec (State.dmaChWrite s d c a v) s := by
  unfold State.dmaChWrite; (try dsimp only); (repeat' split) <;> simp
@[simp] theorem State.dmaChWrite_wf (s : State) (d c a : Nat) (v : Word) (hw : MemWf s) : MemWf (State.dmaChWrite s d c a v) := by
  unfold State.dmaChWrite; (try dsimp only); (repeat' split) <;> simp_all
@[simp] theorem State.dmaRegW_sec (s : State) (d o : Nat) (v : Word) : KeptSec (State.dmaRegW s d o v) s := by
  unfold State.dmaRegW; (try dsimp only); (repeat' split) <;> simp
@[simp] theorem State.dmaRegW_wf (s : State) (d o : Nat) (v : Word) (hw : MemWf s) : MemWf (State.dmaRegW s d o v) := by
  unfold State.dmaRegW; (try dsimp only); (repeat' split) <;> simp_all
@[simp] theorem State.atuRegW_kept (s : State) (d o : Nat) (v : Word) : Kept (State.atuRegW s d o v) s := by
  unfold State.atuRegW; dsimp only
  repeat' (with_reducible apply kept_ite)
  all_goals first
    | (simp; done)
    | exact State.invalidate_kept _ _ _
    | (split <;> simp; done)
    | skip
@[simp] theorem State.trkRegFx_kept (s : State) (t : TrunkPort) (o : Nat) : Kept (State.trkRegFx s t o) s := by
  unfold State.trkRegFx; (try dsimp only); (repeat' split) <;> simp
@[simp] theorem State.trkSwapReg_kept (s : State) (t : TrunkPort) : Kept (State.trkSwapReg s t) s := by
  unfold State.trkSwapReg; (try dsimp only); (repeat' split) <;> simp
@[simp] theorem State.trkRegW_kept (s : State) (t : TrunkPort) (o : Nat) (v : Word) : Kept (State.trkRegW s t o v) s := by
  unfold State.trkRegW; dsimp only
  repeat' (with_reducible apply kept_ite)
  all_goals first
    | (simp; done)
    | (split <;> simp; done)
    | skip
@[simp] theorem State.fioRegFx_kept (s : State) (o : Nat) : Kept (State.fioRegFx s o) s := by
  unfold State.fioRegFx; (try dsimp only); (repeat' split) <;> simp
@[simp] theorem State.fioCtrl_kept (s : State) (v : Word) : Kept (State.fioCtrl s v) s := by
  unfold State.fioCtrl; (try dsimp only); (repeat' split) <;> simp
@[simp] theorem State.fioRegW_kept (s : State) (o : Nat) (v : Word) : Kept (State.fioRegW s o v) s := by
  unfold State.fioRegW; dsimp only
  repeat' (with_reducible apply kept_ite)
  all_goals first
    | exact State.modFio_kept _ _
    | exact State.modMot_kept _ _ _
    | exact State.modGroup_kept _ _ _
    | exact State.fioCtrl_kept _ _
    | exact State.fioClr_kept _ _
    | exact State.motCmd_kept _ _ _ _ _
    | simp
@[simp] theorem State.mtrRegFx_kept (s : State) (o : Nat) : Kept (State.mtrRegFx s o) s := by
  unfold State.mtrRegFx; (try dsimp only); (repeat' split) <;> simp
@[simp] theorem State.mtrCtrl_kept (s : State) (v : Word) : Kept (State.mtrCtrl s v) s := by
  unfold State.mtrCtrl; (try dsimp only); (repeat' split) <;> simp
@[simp] theorem State.mtrRegW_kept (s : State) (o : Nat) (v : Word) : Kept (State.mtrRegW s o v) s := by
  unfold State.mtrRegW; (try dsimp only); (repeat' split) <;> simp
/-! ### Machine/RegsC -/

@[simp] theorem State.hstRegFx_kept (s : State) (d o : Nat) : Kept (State.hstRegFx s d o) s := by
  unfold State.hstRegFx; (try dsimp only); (repeat' split) <;> simp
@[simp] theorem State.hstRegW_kept (s : State) (d o : Nat) (v : Word) : Kept (State.hstRegW s d o v) s := by
  unfold State.hstRegW
  repeat' (with_reducible apply kept_ite)
  all_goals simp
@[simp] theorem State.evrRegFx_kept (s : State) (o : Nat) : Kept (State.evrRegFx s o) s := by
  unfold State.evrRegFx; (try dsimp only); (repeat' split) <;> simp
@[simp] theorem State.evrRegW_kept (s : State) (o : Nat) (v : Word) : Kept (State.evrRegW s o v) s := by
  unfold State.evrRegW; (try dsimp only); (repeat' split) <;> simp
@[simp] theorem State.rtcRegFx_kept (s : State) (o : Nat) : Kept (State.rtcRegFx s o) s := by
  unfold State.rtcRegFx; (try dsimp only); (repeat' split) <;> simp
@[simp] theorem State.rtcRegW_kept (s : State) (o : Nat) (v : Word) : Kept (State.rtcRegW s o v) s := by
  unfold State.rtcRegW; (try dsimp only); (repeat' split) <;> simp
@[simp] theorem State.dieRead_kept (s : State) (t : Tenant) (d off : Nat) : Kept (State.dieRead s t d off).2 s := by
  unfold State.dieRead; (try dsimp only); (repeat' split) <;> simp
@[simp] theorem State.dieWrite_sec (s : State) (t : Tenant) (d off : Nat) (v : Word) : KeptSec (State.dieWrite s t d off v) s := by
  unfold State.dieWrite; (try dsimp only); (repeat' split) <;> simp
@[simp] theorem State.dieWrite_wf (s : State) (t : Tenant) (d off : Nat) (v : Word) (hw : MemWf s) : MemWf (State.dieWrite s t d off v) := by
  unfold State.dieWrite; (try dsimp only); (repeat' split) <;> simp_all
@[simp] theorem State.bar0Fx_kept (s : State) (o : Nat) : Kept (State.bar0Fx s o) s := by
  unfold State.bar0Fx; (try dsimp only); (repeat' split) <;> simp
@[simp] theorem State.mbxWrite_kept (s : State) (k a : Nat) (v : Word) : Kept (State.mbxWrite s k a v) s := by
  unfold State.mbxWrite; (try dsimp only); (repeat' split) <;> simp
@[simp] theorem State.wmkWrite_kept (s : State) (n a : Nat) (v : Word) : Kept (State.wmkWrite s n a v) s := by
  unfold State.wmkWrite; (try dsimp only); (repeat' split) <;> simp
@[simp] theorem State.bar0Write_kept (s : State) (o : Nat) (v : Word) : Kept (State.bar0Write s o v) s := by
  unfold State.bar0Write; (try dsimp only); (repeat' split) <;> simp
@[simp] theorem State.badAcc_kept (s : State) : Kept (State.badAcc s) s := by
  simp [State.badAcc]
@[simp] theorem State.hostWord_kept (s : State) (bar2 : Bool) (off : Nat) : Kept (State.hostWord s bar2 off).2 s := by
  unfold State.hostWord; (try dsimp only); (repeat' split) <;> simp
@[simp] theorem State.hostRead_kept (s : State) (bar2 : Bool) (off size : Nat) : Kept (State.hostRead s bar2 off size).2 s := by
  unfold State.hostRead; (try dsimp only); (repeat' split) <;> simp
@[simp] theorem State.busRead_kept (s : State) (bar2 : Bool) (off size : Nat) : Kept (State.busRead s bar2 off size) s := by
  simp [State.busRead]
@[simp] theorem State.hostWordW_sec (s : State) (bar2 : Bool) (off : Nat) (v : Word) : KeptSec (State.hostWordW s bar2 off v) s := by
  unfold State.hostWordW; (try dsimp only); (repeat' split) <;> simp
@[simp] theorem State.hostWordW_wf (s : State) (bar2 : Bool) (off : Nat) (v : Word) (hw : MemWf s) : MemWf (State.hostWordW s bar2 off v) := by
  unfold State.hostWordW; (try dsimp only); (repeat' split) <;> simp_all
@[simp] theorem State.hostWrite_sec (s : State) (bar2 : Bool) (off size v : Nat) : KeptSec (State.hostWrite s bar2 off size v) s := by
  unfold State.hostWrite; (try dsimp only); (repeat' split) <;> simp
@[simp] theorem State.hostWrite_wf (s : State) (bar2 : Bool) (off size v : Nat) (hw : MemWf s) : MemWf (State.hostWrite s bar2 off size v) := by
  unfold State.hostWrite; (try dsimp only); (repeat' split) <;> simp_all
@[simp] theorem State.regW_sec (s : State) (d b o : Nat) (v : Word) : KeptSec (State.regW s d b o v) s := by
  simp [State.regW]
@[simp] theorem State.regW_wf (s : State) (d b o : Nat) (v : Word) (hw : MemWf s) : MemWf (State.regW s d b o v) := by
  simp_all [State.regW]
/-! ### Machine/HostRegs -/

theorem execRlLowWordRead_kept (bar2 : Bool) (off : BitVec 28) (wide : Bool) (s : State) (z : State) (hz : execRlLowWordRead bar2 off wide s = .next z) : Kept z s := by
  revert hz; unfold execRlLowWordRead; (try dsimp only); (repeat' split) <;> (simp only [done_eq]; rintro rfl; simp)
theorem execRcRead_kept (off : BitVec 28) (s : State) (z : State) (hz : execRcRead off s = .next z) : Kept z s := by
  revert hz; unfold execRcRead; (try dsimp only); (repeat' split) <;> (simp only [done_eq]; rintro rfl; simp)
theorem execW1cWrite_sec (bar2 : Bool) (off : BitVec 28) (v : Word) (s : State) (z : State) (hz : execW1cWrite bar2 off v s = .next z) : KeptSec z s := by
  revert hz; unfold execW1cWrite; (try dsimp only); (repeat' split) <;> (simp only [done_eq]; rintro rfl; simp)
theorem execW1cWrite_wf (bar2 : Bool) (off : BitVec 28) (v : Word) (s : State) (z : State) (hw : MemWf s) (hz : execW1cWrite bar2 off v s = .next z) : MemWf z := by
  revert hz; unfold execW1cWrite; (try dsimp only); (repeat' split) <;> (simp only [done_eq]; rintro rfl; simp_all)
theorem execCounterClearWrite_sec (off : BitVec 28) (v : Word) (s : State) (z : State) (hz : execCounterClearWrite off v s = .next z) : KeptSec z s := by
  revert hz; unfold execCounterClearWrite; (try dsimp only); (repeat' split) <;> (simp only [done_eq]; rintro rfl; simp)
theorem execCounterClearWrite_wf (off : BitVec 28) (v : Word) (s : State) (z : State) (hw : MemWf s) (hz : execCounterClearWrite off v s = .next z) : MemWf z := by
  revert hz; unfold execCounterClearWrite; (try dsimp only); (repeat' split) <;> (simp only [done_eq]; rintro rfl; simp_all)
theorem execRegisterWrite_sec (bar2 : Bool) (off : BitVec 28) (size : Nat) (v : BitVec 64) (s : State) (z : State) (hz : execRegisterWrite bar2 off size v s = .next z) : KeptSec z s := by
  obtain rfl := (done_eq _ _ _).1 hz; simp
theorem execRegisterWrite_wf (bar2 : Bool) (off : BitVec 28) (size : Nat) (v : BitVec 64) (s : State) (z : State) (hw : MemWf s) (hz : execRegisterWrite bar2 off size v s = .next z) : MemWf z := by
  obtain rfl := (done_eq _ _ _).1 hz; simp_all
theorem execPntForceCtrlForce_sec (d : Die) (s : State) (z : State) (hz : execPntForceCtrlForce d s = .next z) : KeptSec z s := by
  obtain rfl := (done_eq _ _ _).1 hz; simp
theorem execPntForceCtrlForce_wf (d : Die) (s : State) (z : State) (hw : MemWf s) (hz : execPntForceCtrlForce d s = .next z) : MemWf z := by
  obtain rfl := (done_eq _ _ _).1 hz; simp_all
theorem execPntForceCtrlRelease_sec (d : Die) (s : State) (z : State) (hz : execPntForceCtrlRelease d s = .next z) : KeptSec z s := by
  obtain rfl := (done_eq _ _ _).1 hz; simp
theorem execPntForceCtrlRelease_wf (d : Die) (s : State) (z : State) (hw : MemWf s) (hz : execPntForceCtrlRelease d s = .next z) : MemWf z := by
  obtain rfl := (done_eq _ _ _).1 hz; simp_all
theorem execBrpCtrlWrite_sec (p : Port) (v : Word) (s : State) (z : State) (hz : execBrpCtrlWrite p v s = .next z) : KeptSec z s := by
  obtain rfl := (done_eq _ _ _).1 hz; simp
theorem execBrpCtrlWrite_wf (p : Port) (v : Word) (s : State) (z : State) (hw : MemWf s) (hz : execBrpCtrlWrite p v s = .next z) : MemWf z := by
  obtain rfl := (done_eq _ _ _).1 hz; simp_all
theorem execBrpGclSwap_sec (p : Port) (s : State) (z : State) (hz : execBrpGclSwap p s = .next z) : KeptSec z s := by
  obtain rfl := (done_eq _ _ _).1 hz; simp
theorem execBrpGclSwap_wf (p : Port) (s : State) (z : State) (hw : MemWf s) (hz : execBrpGclSwap p s = .next z) : MemWf z := by
  obtain rfl := (done_eq _ _ _).1 hz; simp_all
theorem execTrkCtrlWrite_sec (t : TrunkPort) (v : Word) (s : State) (z : State) (hz : execTrkCtrlWrite t v s = .next z) : KeptSec z s := by
  obtain rfl := (done_eq _ _ _).1 hz; simp
theorem execTrkCtrlWrite_wf (t : TrunkPort) (v : Word) (s : State) (z : State) (hw : MemWf s) (hz : execTrkCtrlWrite t v s = .next z) : MemWf z := by
  obtain rfl := (done_eq _ _ _).1 hz; simp_all
theorem execTrkGclSwap_sec (t : TrunkPort) (s : State) (z : State) (hz : execTrkGclSwap t s = .next z) : KeptSec z s := by
  obtain rfl := (done_eq _ _ _).1 hz; simp
theorem execTrkGclSwap_wf (t : TrunkPort) (s : State) (z : State) (hw : MemWf s) (hz : execTrkGclSwap t s = .next z) : MemWf z := by
  obtain rfl := (done_eq _ _ _).1 hz; simp_all
theorem execLscCtrlRunCold_sec (d : Die) (s : State) (z : State) (hz : execLscCtrlRunCold d s = .next z) : KeptSec z s := by
  obtain rfl := (done_eq _ _ _).1 hz; simp
theorem execLscCtrlRunCold_wf (d : Die) (s : State) (z : State) (hw : MemWf s) (hz : execLscCtrlRunCold d s = .next z) : MemWf z := by
  obtain rfl := (done_eq _ _ _).1 hz; simp_all
theorem execLscCtrlRunWarm_sec (d : Die) (s : State) (z : State) (hz : execLscCtrlRunWarm d s = .next z) : KeptSec z s := by
  obtain rfl := (done_eq _ _ _).1 hz; simp
theorem execLscCtrlRunWarm_wf (d : Die) (s : State) (z : State) (hw : MemWf s) (hz : execLscCtrlRunWarm d s = .next z) : MemWf z := by
  obtain rfl := (done_eq _ _ _).1 hz; simp_all
theorem execLscCtrlStop_sec (d : Die) (s : State) (z : State) (hz : execLscCtrlStop d s = .next z) : KeptSec z s := by
  obtain rfl := (done_eq _ _ _).1 hz; simp
theorem execLscCtrlStop_wf (d : Die) (s : State) (z : State) (hw : MemWf s) (hz : execLscCtrlStop d s = .next z) : MemWf z := by
  obtain rfl := (done_eq _ _ _).1 hz; simp_all
theorem execLscCtrlHold_sec (d : Die) (s : State) (z : State) (hz : execLscCtrlHold d s = .next z) : KeptSec z s := by
  obtain rfl := (done_eq _ _ _).1 hz; simp
theorem execLscCtrlHold_wf (d : Die) (s : State) (z : State) (hw : MemWf s) (hz : execLscCtrlHold d s = .next z) : MemWf z := by
  obtain rfl := (done_eq _ _ _).1 hz; simp_all
theorem execLscCtrlStep_sec (d : Die) (c : CoreNo) (s : State) (z : State) (hz : execLscCtrlStep d c s = .next z) : KeptSec z s := by
  obtain rfl := (done_eq _ _ _).1 hz; simp
theorem execLscCtrlStep_wf (d : Die) (c : CoreNo) (s : State) (z : State) (hw : MemWf s) (hz : execLscCtrlStep d c s = .next z) : MemWf z := by
  obtain rfl := (done_eq _ _ _).1 hz; simp_all
theorem execLscCtrlResume_sec (d : Die) (s : State) (z : State) (hz : execLscCtrlResume d s = .next z) : KeptSec z s := by
  obtain rfl := (done_eq _ _ _).1 hz; simp
theorem execLscCtrlResume_wf (d : Die) (s : State) (z : State) (hw : MemWf s) (hz : execLscCtrlResume d s = .next z) : MemWf z := by
  obtain rfl := (done_eq _ _ _).1 hz; simp_all
theorem execLpeSSwap_sec (d : Die) (n : LoopNo) (reset : Bool) (s : State) (z : State) (hz : execLpeSSwap d n reset s = .next z) : KeptSec z s := by
  obtain rfl := (done_eq _ _ _).1 hz; simp
theorem execLpeSSwap_wf (d : Die) (n : LoopNo) (reset : Bool) (s : State) (z : State) (hw : MemWf s) (hz : execLpeSSwap d n reset s = .next z) : MemWf z := by
  obtain rfl := (done_eq _ _ _).1 hz; simp_all
theorem execLpeSClrSat_sec (d : Die) (n : LoopNo) (s : State) (z : State) (hz : execLpeSClrSat d n s = .next z) : KeptSec z s := by
  obtain rfl := (done_eq _ _ _).1 hz; simp
theorem execLpeSClrSat_wf (d : Die) (n : LoopNo) (s : State) (z : State) (hw : MemWf s) (hz : execLpeSClrSat d n s = .next z) : MemWf z := by
  obtain rfl := (done_eq _ _ _).1 hz; simp_all
theorem execLpeTuStart_sec (d : Die) (u : UnitNo) (v : Word) (s : State) (z : State) (hz : execLpeTuStart d u v s = .next z) : KeptSec z s := by
  obtain rfl := (done_eq _ _ _).1 hz; simp
theorem execLpeTuStart_wf (d : Die) (u : UnitNo) (v : Word) (s : State) (z : State) (hw : MemWf s) (hz : execLpeTuStart d u v s = .next z) : MemWf z := by
  obtain rfl := (done_eq _ _ _).1 hz; simp_all
theorem execLpeTuStop_sec (d : Die) (u : UnitNo) (s : State) (z : State) (hz : execLpeTuStop d u s = .next z) : KeptSec z s := by
  obtain rfl := (done_eq _ _ _).1 hz; simp
theorem execLpeTuStop_wf (d : Die) (u : UnitNo) (s : State) (z : State) (hw : MemWf s) (hz : execLpeTuStop d u s = .next z) : MemWf z := by
  obtain rfl := (done_eq _ _ _).1 hz; simp_all
theorem execFioRelease_sec (s : State) (z : State) (hz : execFioRelease s = .next z) : KeptSec z s := by
  obtain rfl := (done_eq _ _ _).1 hz; simp
theorem execFioRelease_wf (s : State) (z : State) (hw : MemWf s) (hz : execFioRelease s = .next z) : MemWf z := by
  obtain rfl := (done_eq _ _ _).1 hz; simp_all
theorem execFioStStart_sec (s : State) (z : State) (hz : execFioStStart s = .next z) : KeptSec z s := by
  obtain rfl := (done_eq _ _ _).1 hz; simp
theorem execFioStStart_wf (s : State) (z : State) (hw : MemWf s) (hz : execFioStStart s = .next z) : MemWf z := by
  obtain rfl := (done_eq _ _ _).1 hz; simp_all
theorem execFioStStop_sec (s : State) (z : State) (hz : execFioStStop s = .next z) : KeptSec z s := by
  obtain rfl := (done_eq _ _ _).1 hz; simp
theorem execFioStStop_wf (s : State) (z : State) (hw : MemWf s) (hz : execFioStStop s = .next z) : MemWf z := by
  obtain rfl := (done_eq _ _ _).1 hz; simp_all
theorem execFioClr_sec (v : Word) (s : State) (z : State) (hz : execFioClr v s = .next z) : KeptSec z s := by
  obtain rfl := (done_eq _ _ _).1 hz; simp
theorem execFioClr_wf (v : Word) (s : State) (z : State) (hw : MemWf s) (hz : execFioClr v s = .next z) : MemWf z := by
  obtain rfl := (done_eq _ _ _).1 hz; simp_all
theorem execFioMFar_sec (m : MotNo) (s : State) (z : State) (hz : execFioMFar m s = .next z) : KeptSec z s := by
  obtain rfl := (done_eq _ _ _).1 hz; simp
theorem execFioMFar_wf (m : MotNo) (s : State) (z : State) (hw : MemWf s) (hz : execFioMFar m s = .next z) : MemWf z := by
  obtain rfl := (done_eq _ _ _).1 hz; simp_all
theorem execFioMHomeDirection_sec (m : MotNo) (s : State) (z : State) (hz : execFioMHomeDirection m s = .next z) : KeptSec z s := by
  obtain rfl := (done_eq _ _ _).1 hz; simp
theorem execFioMHomeDirection_wf (m : MotNo) (s : State) (z : State) (hw : MemWf s) (hz : execFioMHomeDirection m s = .next z) : MemWf z := by
  obtain rfl := (done_eq _ _ _).1 hz; simp_all
theorem execFioMGoto_sec (m : MotNo) (s : State) (z : State) (hz : execFioMGoto m s = .next z) : KeptSec z s := by
  obtain rfl := (done_eq _ _ _).1 hz; simp
theorem execFioMGoto_wf (m : MotNo) (s : State) (z : State) (hw : MemWf s) (hz : execFioMGoto m s = .next z) : MemWf z := by
  obtain rfl := (done_eq _ _ _).1 hz; simp_all
theorem execFioMStop_sec (m : MotNo) (s : State) (z : State) (hz : execFioMStop m s = .next z) : KeptSec z s := by
  obtain rfl := (done_eq _ _ _).1 hz; simp
theorem execFioMStop_wf (m : MotNo) (s : State) (z : State) (hw : MemWf s) (hz : execFioMStop m s = .next z) : MemWf z := by
  obtain rfl := (done_eq _ _ _).1 hz; simp_all
theorem execFioMHome_sec (m : MotNo) (s : State) (z : State) (hz : execFioMHome m s = .next z) : KeptSec z s := by
  obtain rfl := (done_eq _ _ _).1 hz; simp
theorem execFioMHome_wf (m : MotNo) (s : State) (z : State) (hw : MemWf s) (hz : execFioMHome m s = .next z) : MemWf z := by
  obtain rfl := (done_eq _ _ _).1 hz; simp_all
theorem execFioMClearFault_sec (m : MotNo) (s : State) (z : State) (hz : execFioMClearFault m s = .next z) : KeptSec z s := by
  obtain rfl := (done_eq _ _ _).1 hz; simp
theorem execFioMClearFault_wf (m : MotNo) (s : State) (z : State) (hw : MemWf s) (hz : execFioMClearFault m s = .next z) : MemWf z := by
  obtain rfl := (done_eq _ _ _).1 hz; simp_all
theorem execFioMResetCoast_sec (m : MotNo) (s : State) (z : State) (hz : execFioMResetCoast m s = .next z) : KeptSec z s := by
  obtain rfl := (done_eq _ _ _).1 hz; simp
theorem execFioMResetCoast_wf (m : MotNo) (s : State) (z : State) (hw : MemWf s) (hz : execFioMResetCoast m s = .next z) : MemWf z := by
  obtain rfl := (done_eq _ _ _).1 hz; simp_all
theorem execMtrStStart_sec (s : State) (z : State) (hz : execMtrStStart s = .next z) : KeptSec z s := by
  obtain rfl := (done_eq _ _ _).1 hz; simp
theorem execMtrStStart_wf (s : State) (z : State) (hw : MemWf s) (hz : execMtrStStart s = .next z) : MemWf z := by
  obtain rfl := (done_eq _ _ _).1 hz; simp_all
theorem execMtrStStop_sec (s : State) (z : State) (hz : execMtrStStop s = .next z) : KeptSec z s := by
  obtain rfl := (done_eq _ _ _).1 hz; simp
theorem execMtrStStop_wf (s : State) (z : State) (hw : MemWf s) (hz : execMtrStStop s = .next z) : MemWf z := by
  obtain rfl := (done_eq _ _ _).1 hz; simp_all
theorem execDmaStart_sec (d : Die) (c : DmaNo) (exyan : Option DmaSetup) (s : State) (z : State) (hz : execDmaStart d c exyan s = .next z) : KeptSec z s := by
  revert hz; unfold execDmaStart; (try dsimp only); (repeat' split) <;> (simp only [done_eq]; rintro rfl; simp)
theorem execDmaStart_wf (d : Die) (c : DmaNo) (exyan : Option DmaSetup) (s : State) (z : State) (hw : MemWf s) (hz : execDmaStart d c exyan s = .next z) : MemWf z := by
  revert hz; unfold execDmaStart; (try dsimp only); (repeat' split) <;> (simp only [done_eq]; rintro rfl; simp_all)
theorem execDmaResume_sec (d : Die) (c : DmaNo) (exyan : Bool) (s : State) (z : State) (hz : execDmaResume d c exyan s = .next z) : KeptSec z s := by
  revert hz; unfold execDmaResume; (try dsimp only); (repeat' split) <;> (simp only [done_eq]; rintro rfl; simp)
theorem execDmaResume_wf (d : Die) (c : DmaNo) (exyan : Bool) (s : State) (z : State) (hw : MemWf s) (hz : execDmaResume d c exyan s = .next z) : MemWf z := by
  revert hz; unfold execDmaResume; (try dsimp only); (repeat' split) <;> (simp only [done_eq]; rintro rfl; simp_all)
theorem execDmaSkip_sec (d : Die) (c : DmaNo) (exyan : Bool) (s : State) (z : State) (hz : execDmaSkip d c exyan s = .next z) : KeptSec z s := by
  revert hz; unfold execDmaSkip; (try dsimp only); (repeat' split) <;> (simp only [done_eq]; rintro rfl; simp)
theorem execDmaSkip_wf (d : Die) (c : DmaNo) (exyan : Bool) (s : State) (z : State) (hw : MemWf s) (hz : execDmaSkip d c exyan s = .next z) : MemWf z := by
  revert hz; unfold execDmaSkip; (try dsimp only); (repeat' split) <;> (simp only [done_eq]; rintro rfl; simp_all)
theorem execDmaAbort_sec (d : Die) (c : DmaNo) (exyan : Bool) (s : State) (z : State) (hz : execDmaAbort d c exyan s = .next z) : KeptSec z s := by
  revert hz; unfold execDmaAbort; (try dsimp only); (repeat' split) <;> (simp only [done_eq]; rintro rfl; simp)
theorem execDmaAbort_wf (d : Die) (c : DmaNo) (exyan : Bool) (s : State) (z : State) (hw : MemWf s) (hz : execDmaAbort d c exyan s = .next z) : MemWf z := by
  revert hz; unfold execDmaAbort; (try dsimp only); (repeat' split) <;> (simp only [done_eq]; rintro rfl; simp_all)
theorem execAtuInvContext_sec (d : Die) (s : State) (z : State) (hz : execAtuInvContext d s = .next z) : KeptSec z s := by
  obtain rfl := (done_eq _ _ _).1 hz; simp
theorem execAtuInvContext_wf (d : Die) (s : State) (z : State) (hw : MemWf s) (hz : execAtuInvContext d s = .next z) : MemWf z := by
  obtain rfl := (done_eq _ _ _).1 hz; simp_all
theorem execAtuInvPage_sec (d : Die) (s : State) (z : State) (hz : execAtuInvPage d s = .next z) : KeptSec z s := by
  obtain rfl := (done_eq _ _ _).1 hz; simp
theorem execAtuInvPage_wf (d : Die) (s : State) (z : State) (hw : MemWf s) (hz : execAtuInvPage d s = .next z) : MemWf z := by
  obtain rfl := (done_eq _ _ _).1 hz; simp_all
theorem execAtuInvAll_sec (d : Die) (s : State) (z : State) (hz : execAtuInvAll d s = .next z) : KeptSec z s := by
  obtain rfl := (done_eq _ _ _).1 hz; simp
theorem execAtuInvAll_wf (d : Die) (s : State) (z : State) (hw : MemWf s) (hz : execAtuInvAll d s = .next z) : MemWf z := by
  obtain rfl := (done_eq _ _ _).1 hz; simp_all
theorem execAtuFqPop_sec (d : Die) (s : State) (z : State) (hz : execAtuFqPop d s = .next z) : KeptSec z s := by
  obtain rfl := (done_eq _ _ _).1 hz; simp
theorem execAtuFqPop_wf (d : Die) (s : State) (z : State) (hw : MemWf s) (hz : execAtuFqPop d s = .next z) : MemWf z := by
  obtain rfl := (done_eq _ _ _).1 hz; simp_all
theorem execRtcMsecRead_kept (s : State) (z : State) (hz : execRtcMsecRead s = .next z) : Kept z s := by
  obtain rfl := (done_eq _ _ _).1 hz; simp
theorem execRtcYearRead_kept (s : State) (z : State) (hz : execRtcYearRead s = .next z) : Kept z s := by
  obtain rfl := (done_eq _ _ _).1 hz; simp
theorem execRtcCommit_sec (s : State) (z : State) (hz : execRtcCommit s = .next z) : KeptSec z s := by
  obtain rfl := (done_eq _ _ _).1 hz; simp
theorem execRtcCommit_wf (s : State) (z : State) (hw : MemWf s) (hz : execRtcCommit s = .next z) : MemWf z := by
  obtain rfl := (done_eq _ _ _).1 hz; simp_all
theorem execRtcTrimWrite_sec (v : Word) (s : State) (z : State) (hz : execRtcTrimWrite v s = .next z) : KeptSec z s := by
  obtain rfl := (done_eq _ _ _).1 hz; simp
theorem execRtcTrimWrite_wf (v : Word) (s : State) (z : State) (hw : MemWf s) (hz : execRtcTrimWrite v s = .next z) : MemWf z := by
  obtain rfl := (done_eq _ _ _).1 hz; simp_all
theorem execMbxSlotEnable_sec (k : SlotNo) (irq : Bool) (s : State) (z : State) (hz : execMbxSlotEnable k irq s = .next z) : KeptSec z s := by
  obtain rfl := (done_eq _ _ _).1 hz; simp
theorem execMbxSlotEnable_wf (k : SlotNo) (irq : Bool) (s : State) (z : State) (hw : MemWf s) (hz : execMbxSlotEnable k irq s = .next z) : MemWf z := by
  obtain rfl := (done_eq _ _ _).1 hz; simp_all
theorem execMbxSlotDisable_sec (k : SlotNo) (irq : Bool) (s : State) (z : State) (hz : execMbxSlotDisable k irq s = .next z) : KeptSec z s := by
  obtain rfl := (done_eq _ _ _).1 hz; simp
theorem execMbxSlotDisable_wf (k : SlotNo) (irq : Bool) (s : State) (z : State) (hw : MemWf s) (hz : execMbxSlotDisable k irq s = .next z) : MemWf z := by
  obtain rfl := (done_eq _ _ _).1 hz; simp_all
theorem execMbxIrqEnable_sec (k : SlotNo) (s : State) (z : State) (hz : execMbxIrqEnable k s = .next z) : KeptSec z s := by
  obtain rfl := (done_eq _ _ _).1 hz; simp
theorem execMbxIrqEnable_wf (k : SlotNo) (s : State) (z : State) (hw : MemWf s) (hz : execMbxIrqEnable k s = .next z) : MemWf z := by
  obtain rfl := (done_eq _ _ _).1 hz; simp_all
theorem execMbxRqTail_sec (k : SlotNo) (v : Word) (s : State) (z : State) (hz : execMbxRqTail k v s = .next z) : KeptSec z s := by
  obtain rfl := (done_eq _ _ _).1 hz; simp
theorem execMbxRqTail_wf (k : SlotNo) (v : Word) (s : State) (z : State) (hw : MemWf s) (hz : execMbxRqTail k v s = .next z) : MemWf z := by
  obtain rfl := (done_eq _ _ _).1 hz; simp_all
theorem execMbxCqHead_sec (k : SlotNo) (v : Word) (s : State) (z : State) (hz : execMbxCqHead k v s = .next z) : KeptSec z s := by
  obtain rfl := (done_eq _ _ _).1 hz; simp
theorem execMbxCqHead_wf (k : SlotNo) (v : Word) (s : State) (z : State) (hw : MemWf s) (hz : execMbxCqHead k v s = .next z) : MemWf z := by
  obtain rfl := (done_eq _ _ _).1 hz; simp_all
theorem execWmkStatWrite_sec (n : BitVec 5) (v : Word) (s : State) (z : State) (hz : execWmkStatWrite n v s = .next z) : KeptSec z s := by
  obtain rfl := (done_eq _ _ _).1 hz; simp
theorem execWmkStatWrite_wf (n : BitVec 5) (v : Word) (s : State) (z : State) (hw : MemWf s) (hz : execWmkStatWrite n v s = .next z) : MemWf z := by
  obtain rfl := (done_eq _ _ _).1 hz; simp_all
theorem execWmkEnable_sec (n : BitVec 5) (s : State) (z : State) (hz : execWmkEnable n s = .next z) : KeptSec z s := by
  obtain rfl := (done_eq _ _ _).1 hz; simp
theorem execWmkEnable_wf (n : BitVec 5) (s : State) (z : State) (hw : MemWf s) (hz : execWmkEnable n s = .next z) : MemWf z := by
  obtain rfl := (done_eq _ _ _).1 hz; simp_all
theorem execSnapTake_sec (s : State) (z : State) (hz : execSnapTake s = .next z) : KeptSec z s := by
  obtain rfl := (done_eq _ _ _).1 hz; simp
theorem execSnapTake_wf (s : State) (z : State) (hw : MemWf s) (hz : execSnapTake s = .next z) : MemWf z := by
  obtain rfl := (done_eq _ _ _).1 hz; simp_all

end Sys2Proof.Machine
end

