-- ==== Sys2Proof/Laws/FrameMailbox.lean ====
section
/-! SUPPORT. What the operations and commands leave unchanged: the mailbox commands. -/
namespace Sys2Proof.Machine

/-! ### Machine/Requests -/

@[simp] theorem ansOk_kept (res : Result) (s : State) : Kept (ansOk res s).2 s := by
  simp [ansOk]
@[simp] theorem ansNo_kept (st : BitVec 16) (detail : Nat) (s : State) : Kept (ansNo st detail s).2 s := by
  simp [ansNo]
@[simp] theorem ansWait_kept (s : State) : Kept (ansWait s).2 s := by
  simp [ansWait]
theorem State.attempt_kept (s : State) (k op : Nat) (h : ReqHead) (landlord : Bool) (p : List Byte → Bool) (bad : Option Nat)
    (f : Tenant → Nat → State → Answer) (hf : ∀ t n s, Kept (f t n s).2 s) :
    Kept (s.attempt k op h landlord p bad f).2 s := by
  unfold State.attempt; dsimp only
  repeat' split
  all_goals first
    | exact hf _ _ _
    | simp [ansNo]
theorem State.attempt_sec (s : State) (k op : Nat) (h : ReqHead) (landlord : Bool) (p : List Byte → Bool) (bad : Option Nat)
    (f : Tenant → Nat → State → Answer) (hf : ∀ t n s, KeptSec (f t n s).2 s) :
    KeptSec (s.attempt k op h landlord p bad f).2 s := by
  unfold State.attempt; dsimp only
  repeat' split
  all_goals first
    | exact hf _ _ _
    | simp [ansNo]
theorem State.attempt_wf (s : State) (k op : Nat) (h : ReqHead) (landlord : Bool) (p : List Byte → Bool) (bad : Option Nat)
    (f : Tenant → Nat → State → Answer) (hw : MemWf s) (hf : ∀ t n s, MemWf s → MemWf (f t n s).2) :
    MemWf (s.attempt k op h landlord p bad f).2 := by
  unfold State.attempt; dsimp only
  repeat' split
  all_goals first
    | exact hf _ _ _ hw
    | simpa [ansNo] using hw
theorem State.serve_kept (s : State) (r : Req) (op : Nat) (landlord : Bool) (p : List Byte → Bool) (bad : Option Nat)
    (f : Tenant → Nat → State → Answer) (hf : ∀ t n s, Kept (f t n s).2 s) : Kept (s.serve r op landlord p bad f) s := by
  have key : ∀ (u v : State) (x : Option Result) (k : Nat) (h : ReqHead), v.attempt k op h landlord p bad f = (x, u) → Kept u v := by
    intro u v x k h e
    have := State.attempt_kept v k op h landlord p bad f hf
    rw [e] at this; exact this
  unfold State.serve; dsimp only
  repeat' split
  all_goals first
    | (simp; done)
    | exact Kept.trans (key _ _ _ _ _ (by assumption)) (State.modSender_kept _ _ _)
    | exact Kept.trans (State.modSender_kept _ _ _) (Kept.trans (key _ _ _ _ _ (by assumption)) (State.modSender_kept _ _ _))
theorem State.serve_sec (s : State) (r : Req) (op : Nat) (landlord : Bool) (p : List Byte → Bool) (bad : Option Nat)
    (f : Tenant → Nat → State → Answer) (hf : ∀ t n s, KeptSec (f t n s).2 s) : KeptSec (s.serve r op landlord p bad f) s := by
  have key : ∀ (u v : State) (x : Option Result) (k : Nat) (h : ReqHead), v.attempt k op h landlord p bad f = (x, u) → KeptSec u v := by
    intro u v x k h e
    have := State.attempt_sec v k op h landlord p bad f hf
    rw [e] at this; exact this
  unfold State.serve; dsimp only
  repeat' split
  all_goals first
    | (simp; done)
    | exact KeptSec.trans (key _ _ _ _ _ (by assumption)) (State.modSender_kept _ _ _).2
    | exact KeptSec.trans (State.modSender_kept _ _ _).2 (KeptSec.trans (key _ _ _ _ _ (by assumption)) (State.modSender_kept _ _ _).2)
theorem State.serve_wf (s : State) (r : Req) (op : Nat) (landlord : Bool) (p : List Byte → Bool) (bad : Option Nat)
    (f : Tenant → Nat → State → Answer) (hw : MemWf s) (hf : ∀ t n s, MemWf s → MemWf (f t n s).2) :
    MemWf (s.serve r op landlord p bad f) := by
  have key : ∀ (u v : State) (x : Option Result) (k : Nat) (h : ReqHead), v.attempt k op h landlord p bad f = (x, u) → MemWf v → MemWf u := by
    intro u v x k h e w
    have := State.attempt_wf v k op h landlord p bad f w hf
    rw [e] at this; exact this
  have ms : ∀ (v : State) (k : Nat) (g : SlotSt → SlotSt), MemWf v → MemWf (v.modSender k g) := by intro v k g w; simp_all
  unfold State.serve; dsimp only
  repeat' split
  all_goals first
    | exact hw
    | exact key _ _ _ _ _ (by assumption) (ms _ _ _ hw)
    | exact ms _ _ _ (key _ _ _ _ _ (by assumption) (ms _ _ _ hw))
theorem State.serveA_kept (s : State) (r : Req) (op : Nat) (data : List Byte) (ranges : Bool) (f : Tenant → Nat → State → Answer)
    (hf : ∀ t n s, Kept (f t n s).2 s) : Kept (s.serveA r op data ranges f) s := State.serve_kept _ _ _ _ _ _ _ hf
theorem State.serveA_sec (s : State) (r : Req) (op : Nat) (data : List Byte) (ranges : Bool) (f : Tenant → Nat → State → Answer)
    (hf : ∀ t n s, KeptSec (f t n s).2 s) : KeptSec (s.serveA r op data ranges f) s := State.serve_sec _ _ _ _ _ _ _ hf
theorem State.serveA_wf (s : State) (r : Req) (op : Nat) (data : List Byte) (ranges : Bool) (f : Tenant → Nat → State → Answer) (hw : MemWf s)
    (hf : ∀ t n s, MemWf s → MemWf (f t n s).2) : MemWf (s.serveA r op data ranges f) := State.serve_wf _ _ _ _ _ _ _ hw hf
theorem State.serveL_kept (s : State) (r : Req) (op : Nat) (data : List Byte) (ranges : Bool) (f : Nat → State → Answer)
    (hf : ∀ n s, Kept (f n s).2 s) : Kept (s.serveL r op data ranges f) s := State.serve_kept _ _ _ _ _ _ _ fun _ n s => hf n s
theorem State.serveL_sec (s : State) (r : Req) (op : Nat) (data : List Byte) (ranges : Bool) (f : Nat → State → Answer)
    (hf : ∀ n s, KeptSec (f n s).2 s) : KeptSec (s.serveL r op data ranges f) s := State.serve_sec _ _ _ _ _ _ _ fun _ n s => hf n s
theorem State.serveL_wf (s : State) (r : Req) (op : Nat) (data : List Byte) (ranges : Bool) (f : Nat → State → Answer) (hw : MemWf s)
    (hf : ∀ n s, MemWf s → MemWf (f n s).2) : MemWf (s.serveL r op data ranges f) :=
  State.serve_wf _ _ _ _ _ _ _ hw fun _ n s => hf n s
theorem execDevInfo_kept (r : Req) (s : State) (z : State) (hz : execDevInfo r s = .next z) : Kept z s := by
  obtain rfl := (done_eq _ _ _).1 hz
  rw [settle_kept']
  apply State.serveA_kept <;> intros <;> simp [ansOk, ansNo, ansWait]
@[simp] theorem State.temps_kept (s : State) (n : Nat) : Kept (State.temps s n).2 s := by
  induction n generalizing s  with
  | zero => unfold State.temps; (try dsimp only); (repeat' (split <;> (try (rename_i h; have h2 := congrArg Prod.snd h; dsimp only at h2; clear h; subst h2)))) <;>
    first
    | done
    | (simp_all; done)
    | (rename_i h; have h2 := congrArg Prod.snd h; dsimp only at h2; clear h; subst h2; simp_all; done)
    | (rename_i h _; have h2 := congrArg Prod.snd h; dsimp only at h2; clear h; subst h2; simp_all; done)
    | (rename_i h _ _; have h2 := congrArg Prod.snd h; dsimp only at h2; clear h; subst h2; simp_all; done)
    | skip
  | succ n ih => unfold State.temps; (try dsimp only); (repeat' (split <;> (try (rename_i h; have h2 := congrArg Prod.snd h; dsimp only at h2; clear h; subst h2)))) <;>
    first
    | done
    | (simp_all; done)
    | (rename_i h; have h2 := congrArg Prod.snd h; dsimp only at h2; clear h; subst h2; simp_all; done)
    | (rename_i h _; have h2 := congrArg Prod.snd h; dsimp only at h2; clear h; subst h2; simp_all; done)
    | (rename_i h _ _; have h2 := congrArg Prod.snd h; dsimp only at h2; clear h; subst h2; simp_all; done)
    | skip
theorem execDevTemps_kept (r : Req) (s : State) (z : State) (hz : execDevTemps r s = .next z) : Kept z s := by
  obtain rfl := (done_eq _ _ _).1 hz
  rw [settle_kept']
  apply State.serveL_kept <;> intros <;> simp [ansOk, ansNo, ansWait]
theorem execWmkGet_kept (r : Req) (slot : Byte) (s : State) (z : State) (hz : execWmkGet r slot s = .next z) : Kept z s := by
  obtain rfl := (done_eq _ _ _).1 hz
  rw [settle_kept']
  apply State.serveA_kept <;> intros <;> (try dsimp only) <;> (repeat' split) <;> simp [ansOk, ansNo, ansWait]
theorem execWmkSet_kept (r : Req) (slot en : Byte) (thr hyst : V24) (ten : BitVec 16) (s : State) (z : State) (hz : execWmkSet r slot en thr hyst ten s = .next z) : Kept z s := by
  obtain rfl := (done_eq _ _ _).1 hz
  rw [settle_kept']
  apply State.serveL_kept <;> intros <;> (try dsimp only) <;> (repeat' split) <;> simp [ansOk, ansNo, ansWait]
theorem execWmkRearm_kept (r : Req) (slot : Byte) (s : State) (z : State) (hz : execWmkRearm r slot s = .next z) : Kept z s := by
  obtain rfl := (done_eq _ _ _).1 hz
  rw [settle_kept']
  apply State.serveA_kept <;> intros <;> (try dsimp only) <;> (repeat' split) <;> simp [ansOk, ansNo, ansWait]
theorem execMemPoisonList_kept (r : Req) (die : Byte) (start : Word) (s : State) (z : State) (hz : execMemPoisonList r die start s = .next z) : Kept z s := by
  obtain rfl := (done_eq _ _ _).1 hz
  rw [settle_kept']
  apply State.serveL_kept <;> intros <;> (try dsimp only) <;> (repeat' split) <;> simp [ansOk, ansNo, ansWait]
theorem execMemPoisonClear_sec (r : Req) (pa : BitVec 64) (s : State) (z : State) (hz : execMemPoisonClear r pa s = .next z) : KeptSec z s := by
  obtain rfl := (done_eq _ _ _).1 hz
  rw [settle_sec']
  apply State.serveL_sec <;> intros <;> (try dsimp only) <;> (repeat' split) <;> simp [ansOk, ansNo, ansWait]
theorem execMemPoisonClear_wf (r : Req) (pa : BitVec 64) (s : State) (z : State) (hw : MemWf s) (hz : execMemPoisonClear r pa s = .next z) : MemWf z := by
  obtain rfl := (done_eq _ _ _).1 hz
  rw [settle_wf']
  apply State.serveL_wf (hw := hw) <;> intros <;> (try dsimp only) <;> (repeat' split) <;> simp_all [ansOk, ansNo, ansWait]
@[simp] theorem State.dieWords_kept (s : State) (t : Tenant) (d off : Nat) (n : Nat) : Kept (State.dieWords s t d off n).2 s := by
  induction n generalizing s t d off with
  | zero => unfold State.dieWords; (try dsimp only); (repeat' (split <;> (try (rename_i h; have h2 := congrArg Prod.snd h; dsimp only at h2; clear h; subst h2)))) <;>
    first
    | done
    | (simp_all; done)
    | (rename_i h; have h2 := congrArg Prod.snd h; dsimp only at h2; clear h; subst h2; simp_all; done)
    | (rename_i h _; have h2 := congrArg Prod.snd h; dsimp only at h2; clear h; subst h2; simp_all; done)
    | (rename_i h _ _; have h2 := congrArg Prod.snd h; dsimp only at h2; clear h; subst h2; simp_all; done)
    | skip
  | succ n ih => unfold State.dieWords; (try dsimp only); (repeat' (split <;> (try (rename_i h; have h2 := congrArg Prod.snd h; dsimp only at h2; clear h; subst h2)))) <;>
    first
    | done
    | (simp_all; done)
    | (rename_i h; have h2 := congrArg Prod.snd h; dsimp only at h2; clear h; subst h2; simp_all; done)
    | (rename_i h _; have h2 := congrArg Prod.snd h; dsimp only at h2; clear h; subst h2; simp_all; done)
    | (rename_i h _ _; have h2 := congrArg Prod.snd h; dsimp only at h2; clear h; subst h2; simp_all; done)
    | skip
theorem execRegRead_kept (r : Req) (die : Byte) (off : Word) (words : BitVec 16) (gen : Word) (s : State) (z : State) (hz : execRegRead r die off words gen s = .next z) : Kept z s := by
  obtain rfl := (done_eq _ _ _).1 hz
  rw [settle_kept']
  apply State.serveA_kept <;> intros <;> (try dsimp only) <;> (repeat' split) <;> simp [ansOk, ansNo, ansWait]
theorem execRegWrite_sec (r : Req) (die : Byte) (off v : Word) (s : State) (z : State) (hz : execRegWrite r die off v s = .next z) : KeptSec z s := by
  obtain rfl := (done_eq _ _ _).1 hz
  rw [settle_sec']
  apply State.serveA_sec <;> intros <;> (try dsimp only) <;> (repeat' split) <;> simp [ansOk, ansNo, ansWait]
theorem execRegWrite_wf (r : Req) (die : Byte) (off v : Word) (s : State) (z : State) (hw : MemWf s) (hz : execRegWrite r die off v s = .next z) : MemWf z := by
  obtain rfl := (done_eq _ _ _).1 hz
  rw [settle_wf']
  apply State.serveA_wf (hw := hw) <;> intros <;> (try dsimp only) <;> (repeat' split) <;> simp_all [ansOk, ansNo, ansWait]
@[simp] theorem State.setCredSlot_kept (s : State) (n : Nat) (x : CredSlot) : Kept (State.setCredSlot s n x) s := by
  simp [State.setCredSlot]
@[simp] theorem State.credRefused_kept (s : State) (k n : Nat) (own : Bool) : Kept (State.credRefused s k n own) s := by
  unfold State.credRefused; (try dsimp only); (repeat' split) <;> simp
@[simp] theorem State.credAccepted_kept (s : State) (n : Nat) (c : CredTry) : Kept (State.credAccepted s n c) s := by
  simp [State.credAccepted]
theorem execSessionOpen_kept (r : Req) (c : CredTry) (s : State) (z : State) (hz : execSessionOpen r c s = .next z) : Kept z s := by
  obtain rfl := (done_eq _ _ _).1 hz
  rw [settle_kept']
  apply State.serve_kept <;> intros <;> (try dsimp only) <;> (repeat' split) <;> simp [ansOk, ansNo, ansWait]
theorem execSessionClose_kept (r : Req) (s : State) (z : State) (hz : execSessionClose r s = .next z) : Kept z s := by
  obtain rfl := (done_eq _ _ _).1 hz
  rw [settle_kept']
  apply State.serveA_kept <;> intros <;> (try dsimp only) <;> (repeat' split) <;> simp [ansOk, ansNo, ansWait]
theorem execSessionInfo_kept (r : Req) (s : State) (z : State) (hz : execSessionInfo r s = .next z) : Kept z s := by
  obtain rfl := (done_eq _ _ _).1 hz
  rw [settle_kept']
  apply State.serveA_kept <;> intros <;> simp [ansOk, ansNo, ansWait]
@[simp] theorem State.winTake_kept (s : State) (k : Fin 32) : Kept (State.winTake s k).2 s := by
  unfold State.winTake; (try dsimp only); (repeat' split) <;> simp
theorem execWinTake_kept (r : Req) (s : State) (z : State) (hz : execWinTake r s = .next z) : Kept z s := by
  obtain rfl := (done_eq _ _ _).1 hz
  rw [settle_kept']
  apply State.serveA_kept <;> intros <;> (try dsimp only) <;> (repeat' split) <;> simp [ansOk, ansNo, ansWait]
theorem execWinGive_kept (r : Req) (s : State) (z : State) (hz : execWinGive r s = .next z) : Kept z s := by
  obtain rfl := (done_eq _ _ _).1 hz
  rw [settle_kept']
  apply State.serveA_kept <;> intros <;> (try dsimp only) <;> (repeat' split) <;> simp [ansOk, ansNo, ansWait]
theorem execSessionList_kept (r : Req) (s : State) (z : State) (hz : execSessionList r s = .next z) : Kept z s := by
  obtain rfl := (done_eq _ _ _).1 hz
  rw [settle_kept']
  apply State.serveL_kept <;> intros <;> simp [ansOk, ansNo, ansWait]
/-! ### Machine/ReqPoints -/

theorem execPntRead_kept (r : Req) (refs : List Word) (s : State) (z : State) (hz : execPntRead r refs s = .next z) : Kept z s := by
  obtain rfl := (done_eq _ _ _).1 hz
  rw [settle_kept']
  apply State.serveA_kept <;> intros <;> (try dsimp only) <;> (repeat' split) <;> simp [ansOk, ansNo, ansWait]
theorem execPntReadBlock_kept (r : Req) (die : Byte) (block : BitVec 16) (s : State) (z : State) (hz : execPntReadBlock r die block s = .next z) : Kept z s := by
  obtain rfl := (done_eq _ _ _).1 hz
  rw [settle_kept']
  apply State.serveA_kept <;> intros <;> (try dsimp only) <;> (repeat' split) <;> simp [ansOk, ansNo, ansWait]
theorem execPntWrite_kept (r : Req) (ref : Word) (v : V24) (s : State) (z : State) (hz : execPntWrite r ref v s = .next z) : Kept z s := by
  obtain rfl := (done_eq _ _ _).1 hz
  rw [settle_kept']
  apply State.serveA_kept <;> intros <;> (try dsimp only) <;> (repeat' split) <;> simp [ansOk, ansNo, ansWait]
@[simp] theorem forceAns_kept (n : Nat) (s : State) : Kept (forceAns n s).2 s := by
  unfold forceAns; (try dsimp only); (repeat' split) <;> simp
theorem execPntForce_kept (r : Req) (ref : Word) (v : V24) (s : State) (z : State) (hz : execPntForce r ref v s = .next z) : Kept z s := by
  obtain rfl := (done_eq _ _ _).1 hz
  rw [settle_kept']
  apply State.serveA_kept <;> intros <;> (try dsimp only) <;> (repeat' split) <;> simp [ansOk, ansNo, ansWait]
theorem execPntRelease_kept (r : Req) (ref : Word) (s : State) (z : State) (hz : execPntRelease r ref s = .next z) : Kept z s := by
  obtain rfl := (done_eq _ _ _).1 hz
  rw [settle_kept']
  apply State.serveA_kept <;> intros <;> (try dsimp only) <;> (repeat' split) <;> simp [ansOk, ansNo, ansWait]
theorem execPntForceList_kept (r : Req) (start : BitVec 16) (s : State) (z : State) (hz : execPntForceList r start s = .next z) : Kept z s := by
  obtain rfl := (done_eq _ _ _).1 hz
  rw [settle_kept']
  apply State.serveA_kept <;> intros <;> simp [ansOk, ansNo, ansWait]
theorem execPntDescRead_kept (r : Req) (ref : Word) (s : State) (z : State) (hz : execPntDescRead r ref s = .next z) : Kept z s := by
  obtain rfl := (done_eq _ _ _).1 hz
  rw [settle_kept']
  apply State.serveA_kept <;> intros <;> (try dsimp only) <;> (repeat' split) <;> simp [ansOk, ansNo, ansWait]
/-! ### Machine/ReqPorts -/

theorem State.servePort_kept (s : State) (r : Req) (op : Nat) (data : List Byte) (p : Byte) (ranges : Bool) (f : Nat → State → Answer)
    (hf : ∀ n s, Kept (f n s).2 s) : Kept (s.servePort r op data p ranges f) s := by
  apply State.serveL_kept; intro n s
  split
  · simp [ansNo]
  · exact hf n s
theorem execBrEnable_kept (r : Req) (port en mode : Byte) (s : State) (z : State) (hz : execBrEnable r port en mode s = .next z) : Kept z s := by
  obtain rfl := (done_eq _ _ _).1 hz
  rw [settle_kept']
  apply State.servePort_kept <;> intros <;> (try dsimp only) <;> (repeat' split) <;> simp [ansOk, ansNo, ansWait]
theorem execBrStatus_kept (r : Req) (port : Byte) (s : State) (z : State) (hz : execBrStatus r port s = .next z) : Kept z s := by
  obtain rfl := (done_eq _ _ _).1 hz
  rw [settle_kept']
  apply State.servePort_kept <;> intros <;> simp [ansOk, ansNo, ansWait]
@[simp] theorem State.loadGcl_kept (s : State) (p cycleMs : Nat) (l : List GclEntry) : Kept (State.loadGcl s p cycleMs l) s := by
  simp [State.loadGcl]
theorem execBrSchedLoad_kept (r : Req) (port : Byte) (cycleMs : BitVec 16) (n : Byte) (gcl : List GclEntry) (s : State) (z : State) (hz : execBrSchedLoad r port cycleMs n gcl s = .next z) : Kept z s := by
  revert hz; unfold execBrSchedLoad; dsimp only
  split
  · simp only [done_eq]; rintro rfl; simp
  · simp only [done_eq]; rintro rfl; rw [settle_kept']
    apply State.serve_kept; intros; (repeat' split) <;> simp [ansNo, ansWait]
theorem execBrStats_kept (r : Req) (port clear : Byte) (s : State) (z : State) (hz : execBrStats r port clear s = .next z) : Kept z s := by
  obtain rfl := (done_eq _ _ _).1 hz
  rw [settle_kept']
  apply State.servePort_kept <;> intros <;> (try dsimp only) <;> (repeat' split) <;> simp [ansOk, ansNo, ansWait]
theorem execBrTxthr_kept (r : Req) (port : Byte) (thr : BitVec 16) (s : State) (z : State) (hz : execBrTxthr r port thr s = .next z) : Kept z s := by
  obtain rfl := (done_eq _ _ _).1 hz
  rw [settle_kept']
  apply State.servePort_kept <;> intros <;> simp [ansOk, ansNo, ansWait]
theorem execBrDormancy_kept (r : Req) (port en : Byte) (start stop period : BitVec 16) (rcn : Byte) (s : State) (z : State) (hz : execBrDormancy r port en start stop period rcn s = .next z) : Kept z s := by
  obtain rfl := (done_eq _ _ _).1 hz
  rw [settle_kept']
  apply State.servePort_kept <;> intros <;> simp [ansOk, ansNo, ansWait]
theorem execBrNodes_kept (r : Req) (port : Byte) (s : State) (z : State) (hz : execBrNodes r port s = .next z) : Kept z s := by
  obtain rfl := (done_eq _ _ _).1 hz
  rw [settle_kept']
  apply State.servePort_kept <;> intros <;> simp [ansOk, ansNo, ansWait]
@[simp] theorem State.sendCommand_kept (s : State) (p a : Nat) (op : Byte) (args : List Byte) (r : Option Req) : Kept (State.sendCommand s p a op args r) s := by
  simp [State.sendCommand]
theorem execBrNodeCmd_kept (r : Req) (node : BitVec 16) (op : Byte) (args : List Byte) (s : State) (z : State) (hz : execBrNodeCmd r node op args s = .next z) : Kept z s := by
  revert hz; unfold execBrNodeCmd; dsimp only
  split
  · simp only [done_eq]; rintro rfl; simp
  · simp only [done_eq]; rintro rfl; rw [settle_kept']
    apply State.serveL_kept; intros; (repeat' split) <;> simp [ansNo, ansWait]
theorem execBrClaim_kept (r : Req) (port nslot : Byte) (slotbt : BitVec 16) (s : State) (z : State) (hz : execBrClaim r port nslot slotbt s = .next z) : Kept z s := by
  obtain rfl := (done_eq _ _ _).1 hz
  rw [settle_kept']
  apply State.servePort_kept <;> intros <;> (try dsimp only) <;> (repeat' split) <;> simp [ansOk, ansNo, ansWait]
theorem execBrUnbound_kept (r : Req) (port : Byte) (s : State) (z : State) (hz : execBrUnbound r port s = .next z) : Kept z s := by
  obtain rfl := (done_eq _ _ _).1 hz
  rw [settle_kept']
  apply State.servePort_kept <;> intros <;> simp [ansOk, ansNo, ansWait]
theorem State.serveTrunk_kept (s : State) (r : Req) (op : Nat) (data : List Byte) (p : Byte) (ranges : Bool) (f : TrunkPort → State → Answer)
    (hf : ∀ t s, Kept (f t s).2 s) : Kept (s.serveTrunk r op data p ranges f) s := State.serveL_kept _ _ _ _ _ _ fun _ s => hf _ s
theorem execTrkStatus_kept (r : Req) (port : Byte) (s : State) (z : State) (hz : execTrkStatus r port s = .next z) : Kept z s := by
  obtain rfl := (done_eq _ _ _).1 hz
  rw [settle_kept']
  apply State.serveTrunk_kept <;> intros <;> simp [ansOk, ansNo, ansWait]
theorem execTrkEnable_kept (r : Req) (port : Byte) (v : BitVec 16) (s : State) (z : State) (hz : execTrkEnable r port v s = .next z) : Kept z s := by
  obtain rfl := (done_eq _ _ _).1 hz
  rw [settle_kept']
  apply State.serveTrunk_kept <;> intros <;> (try dsimp only) <;> (repeat' split) <;> simp [ansOk, ansNo, ansWait]
@[simp] theorem State.loadTrkGcl_kept (s : State) (t : TrunkPort) (l : List TrkEntry) : Kept (State.loadTrkGcl s t l) s := by
  simp [State.loadTrkGcl]
theorem execTrkSchedLoad_kept (r : Req) (port : Byte) (n : BitVec 16) (gcl : List TrkEntry) (s : State) (z : State) (hz : execTrkSchedLoad r port n gcl s = .next z) : Kept z s := by
  revert hz; unfold execTrkSchedLoad; dsimp only
  split
  · simp only [done_eq]; rintro rfl; simp
  · simp only [done_eq]; rintro rfl; rw [settle_kept']
    apply State.serve_kept; intros; simp [ansWait]
theorem execTrkStats_kept (r : Req) (port clear : Byte) (s : State) (z : State) (hz : execTrkStats r port clear s = .next z) : Kept z s := by
  obtain rfl := (done_eq _ _ _).1 hz
  rw [settle_kept']
  apply State.serveTrunk_kept <;> intros <;> (try dsimp only) <;> (repeat' split) <;> simp [ansOk, ansNo, ansWait]
theorem execTrkTxthr_kept (r : Req) (port : Byte) (thr : BitVec 16) (s : State) (z : State) (hz : execTrkTxthr r port thr s = .next z) : Kept z s := by
  obtain rfl := (done_eq _ _ _).1 hz
  rw [settle_kept']
  apply State.serveTrunk_kept <;> intros <;> simp [ansOk, ansNo, ansWait]
theorem execTrkRingMap_kept (r : Req) (s : State) (z : State) (hz : execTrkRingMap r s = .next z) : Kept z s := by
  obtain rfl := (done_eq _ _ _).1 hz
  rw [settle_kept']
  apply State.serveL_kept <;> intros <;> simp [ansOk, ansNo, ansWait]
theorem execTrkPrio_kept (r : Req) (prio : Byte) (s : State) (z : State) (hz : execTrkPrio r prio s = .next z) : Kept z s := by
  obtain rfl := (done_eq _ _ _).1 hz
  rw [settle_kept']
  apply State.serveL_kept <;> intros <;> simp [ansOk, ansNo, ansWait]
/-! ### Machine/ReqLogic -/

theorem modeEach_kept (f : State → Nat → BitVec 16 × State) (hf : ∀ s d, Kept (f s d).2 s) (l : List Nat) (s : State) :
    Kept (modeEach f l s).2.2 s := by
  induction l generalizing s with
  | nil => simp [modeEach]
  | cons a l ih => exact Kept.trans (ih _) (hf s a)
@[simp] theorem modeAns_kept (x : BitVec 16 × Nat × State) : Kept (modeAns x).2 x.2.2 := by
  unfold modeAns; split <;> simp [ansOk, ansNo]
theorem modeEach_ans (f : State → Nat → BitVec 16 × State) (hf : ∀ s d, Kept (f s d).2 s) (l : List Nat) (s : State) :
    Kept (modeAns (modeEach f l s)).2 s := Kept.trans (modeAns_kept _) (modeEach_kept f hf l s)
theorem State.serveMode_kept (s : State) (r : Req) (op : Nat) (data : List Byte) (m : Byte) (ranges : Bool) (f : State → Answer)
    (hf : ∀ s, Kept (f s).2 s) : Kept (s.serveMode r op data m ranges f) s := by
  apply State.serveL_kept; intro n s
  split
  · simp [ansNo]
  · exact hf s
theorem execLogicStatus_kept (r : Req) (die : Byte) (s : State) (z : State) (hz : execLogicStatus r die s = .next z) : Kept z s := by
  obtain rfl := (done_eq _ _ _).1 hz
  rw [settle_kept']
  apply State.serveL_kept <;> intros <;> (try dsimp only) <;> (repeat' split) <;> simp [ansOk, ansNo, ansWait]
theorem execLogicRun_kept (r : Req) (mask warm : Byte) (s z : State) (hz : execLogicRun r mask warm s = .next z) : Kept z s := by
  obtain rfl := (done_eq _ _ _).1 hz
  rw [settle_kept']
  apply State.serveMode_kept; intro s
  exact modeEach_ans _ (fun s d => by simp) _ s
theorem execLogicStop_kept (r : Req) (mask : Byte) (s z : State) (hz : execLogicStop r mask s = .next z) : Kept z s := by
  obtain rfl := (done_eq _ _ _).1 hz
  rw [settle_kept']
  apply State.serveMode_kept; intro s; dsimp only
  split
  · exact modeEach_ans _ (fun s d => by simp) _ s
  · exact Kept.trans (foldl_kept _ _ _ (fun s d => by simp)) (modeEach_kept _ (fun s d => by simp) _ s)
theorem execLogicHold_kept (r : Req) (mask : Byte) (s z : State) (hz : execLogicHold r mask s = .next z) : Kept z s := by
  obtain rfl := (done_eq _ _ _).1 hz
  rw [settle_kept']
  apply State.serveMode_kept; intro s; dsimp only
  split
  · exact modeEach_ans _ (fun s d => by simp) _ s
  · exact Kept.trans (foldl_kept _ _ _ (fun s d => by simp)) (modeEach_kept _ (fun s d => by simp) _ s)
theorem execLogicResume_kept (r : Req) (mask : Byte) (s z : State) (hz : execLogicResume r mask s = .next z) : Kept z s := by
  obtain rfl := (done_eq _ _ _).1 hz
  rw [settle_kept']
  apply State.serveMode_kept; intro s
  exact modeEach_ans _ (fun s d => by simp) _ s
theorem execLogicStep_kept (r : Req) (die core : Byte) (s : State) (z : State) (hz : execLogicStep r die core s = .next z) : Kept z s := by
  obtain rfl := (done_eq _ _ _).1 hz
  rw [settle_kept']
  apply State.serveL_kept <;> intros <;> (try dsimp only) <;> (repeat' split) <;> simp [ansOk, ansNo, ansWait]
theorem execLogicTasks_kept (r : Req) (die : Byte) (s : State) (z : State) (hz : execLogicTasks r die s = .next z) : Kept z s := by
  obtain rfl := (done_eq _ _ _).1 hz
  rw [settle_kept']
  apply State.serveA_kept <;> intros <;> (try dsimp only) <;> (repeat' split) <;> simp [ansOk, ansNo, ansWait]
theorem State.serveTask_kept (s : State) (r : Req) (op : Nat) (data : List Byte) (die task : Byte) (ranges : Bool)
    (f : LogicImage → Task → State → Answer) (hf : ∀ i k s, Kept (f i k s).2 s) : Kept (s.serveTask r op data die task ranges f) s := by
  apply State.serveA_kept; intro t n s; dsimp only
  repeat' split
  all_goals first
    | exact hf _ _ _
    | simp [ansNo]
theorem execLogicReadVar_kept (r : Req) (die task : Byte) (addr : V24) (count : BitVec 16) (s : State) (z : State) (hz : execLogicReadVar r die task addr count s = .next z) : Kept z s := by
  obtain rfl := (done_eq _ _ _).1 hz
  rw [settle_kept']
  apply State.serveTask_kept <;> intros <;> (try dsimp only) <;> (repeat' split) <;> simp [ansOk, ansNo, ansWait]
@[simp] theorem State.onlineReq_kept (s : State) (d : Nat) (c : Option Req → Online) (r : Req) : Kept (State.onlineReq s d c r).2 s := by
  unfold State.onlineReq; (try dsimp only); (repeat' split) <;> simp
theorem execLogicWriteVar_kept (r : Req) (die task : Byte) (addr v : V24) (s : State) (z : State) (hz : execLogicWriteVar r die task addr v s = .next z) : Kept z s := by
  obtain rfl := (done_eq _ _ _).1 hz
  rw [settle_kept']
  apply State.serveTask_kept <;> intros <;> (try dsimp only) <;> (repeat' split) <;> simp [ansOk, ansNo, ansWait]
theorem execLogicPatchConst_kept (r : Req) (die task : Byte) (idx : BitVec 16) (v : V24) (s : State) (z : State) (hz : execLogicPatchConst r die task idx v s = .next z) : Kept z s := by
  obtain rfl := (done_eq _ _ _).1 hz
  rw [settle_kept']
  apply State.serveTask_kept <;> intros <;> (try dsimp only) <;> (repeat' split) <;> simp [ansOk, ansNo, ansWait]
theorem State.serveCore_kept (s : State) (r : Req) (op : Nat) (data : List Byte) (die core : Byte) (ranges : Bool) (f : State → Answer)
    (hf : ∀ s, Kept (f s).2 s) : Kept (s.serveCore r op data die core ranges f) s := by
  apply State.serveA_kept; intro t n s; dsimp only
  repeat' split
  all_goals first
    | exact hf _
    | simp [ansNo]
theorem execLogicBpSet_kept (r : Req) (die core idx : Byte) (addr : V24) (en : Byte) (s : State) (z : State) (hz : execLogicBpSet r die core idx addr en s = .next z) : Kept z s := by
  obtain rfl := (done_eq _ _ _).1 hz
  rw [settle_kept']
  apply State.serveCore_kept <;> intros <;> simp [ansOk, ansNo, ansWait]
theorem execLogicBpRead_kept (r : Req) (die core : Byte) (s : State) (z : State) (hz : execLogicBpRead r die core s = .next z) : Kept z s := by
  obtain rfl := (done_eq _ _ _).1 hz
  rw [settle_kept']
  apply State.serveCore_kept <;> intros <;> simp [ansOk, ansNo, ansWait]
theorem execLogicCoreRead_kept (r : Req) (die core : Byte) (s : State) (z : State) (hz : execLogicCoreRead r die core s = .next z) : Kept z s := by
  obtain rfl := (done_eq _ _ _).1 hz
  rw [settle_kept']
  apply State.serveCore_kept <;> intros <;> (try dsimp only) <;> (repeat' split) <;> simp [ansOk, ansNo, ansWait]
theorem State.withLoop_kept (s : State) (t : Tenant) (die : Byte) (slot : BitVec 16) (f : LoopCfg → Nat → State → Answer)
    (hf : ∀ c n s, Kept (f c n s).2 s) : Kept (s.withLoop t die slot f).2 s := by
  unfold State.withLoop
  repeat' split
  all_goals first
    | exact hf _ _ _
    | simp [ansNo]
theorem State.serveLoop_kept (s : State) (r : Req) (op : Nat) (data : List Byte) (die : Byte) (slot : BitVec 16) (ranges : Bool)
    (f : LoopCfg → Nat → State → Answer)
    (hf : ∀ c n s, Kept (f c n s).2 s) : Kept (s.serveLoop r op data die slot ranges f) s := State.serveA_kept _ _ _ _ _ _ fun t _ s => State.withLoop_kept s t die slot f hf
theorem execLoopGet_kept (r : Req) (die : Byte) (slot : BitVec 16) (s : State) (z : State) (hz : execLoopGet r die slot s = .next z) : Kept z s := by
  obtain rfl := (done_eq _ _ _).1 hz
  rw [settle_kept']
  apply State.serveLoop_kept <;> intros <;> simp [ansOk, ansNo, ansWait]
theorem execLoopSetLimits_kept (r : Req) (die : Byte) (slot : BitVec 16) (omin omax rate : V24) (s : State) (z : State) (hz : execLoopSetLimits r die slot omin omax rate s = .next z) : Kept z s := by
  obtain rfl := (done_eq _ _ _).1 hz
  rw [settle_kept']
  apply State.serve_kept; intros; apply State.withLoop_kept; intros; simp [ansOk]
theorem execLoopSetSp_kept (r : Req) (die : Byte) (slot : BitVec 16) (v : V24) (s : State) (z : State) (hz : execLoopSetSp r die slot v s = .next z) : Kept z s := by
  obtain rfl := (done_eq _ _ _).1 hz
  rw [settle_kept']
  apply State.serveLoop_kept <;> intros <;> (try dsimp only) <;> (repeat' split) <;> simp [ansOk, ansNo, ansWait]
theorem execLoopWriteBank_kept (r : Req) (die : Byte) (slot : BitVec 16) (words : List Word) (s : State) (z : State) (hz : execLoopWriteBank r die slot words s = .next z) : Kept z s := by
  obtain rfl := (done_eq _ _ _).1 hz
  rw [settle_kept']
  apply State.serveLoop_kept <;> intros <;> (try dsimp only) <;> (repeat' split) <;> simp [ansOk, ansNo, ansWait]
theorem execLoopSwap_kept (r : Req) (die : Byte) (slot : BitVec 16) (reset : Byte) (s : State) (z : State) (hz : execLoopSwap r die slot reset s = .next z) : Kept z s := by
  obtain rfl := (done_eq _ _ _).1 hz
  rw [settle_kept']
  apply State.serveLoop_kept <;> intros <;> (try dsimp only) <;> (repeat' split) <;> simp [ansOk, ansNo, ansWait]
theorem execLoopTestStart_kept (r : Req) (die : Byte) (slot ctrl : BitVec 16) (amp len : V24) (hold : Byte) (p0 rho steps records : V24) (s : State) (z : State) (hz : execLoopTestStart r die slot ctrl amp len hold p0 rho steps records s = .next z) : Kept z s := by
  obtain rfl := (done_eq _ _ _).1 hz
  rw [settle_kept']
  apply State.serveLoop_kept <;> intros <;> (try dsimp only) <;> (repeat' split) <;> simp [ansOk, ansNo, ansWait]
theorem execLoopTestStop_kept (r : Req) (die unit : Byte) (s : State) (z : State) (hz : execLoopTestStop r die unit s = .next z) : Kept z s := by
  obtain rfl := (done_eq _ _ _).1 hz
  rw [settle_kept']
  apply State.serveA_kept <;> intros <;> (try dsimp only) <;> (repeat' split) <;> simp [ansOk, ansNo, ansWait]
theorem execLoopTestRead_kept (r : Req) (die unit : Byte) (first : V24) (s : State) (z : State) (hz : execLoopTestRead r die unit first s = .next z) : Kept z s := by
  obtain rfl := (done_eq _ _ _).1 hz
  rw [settle_kept']
  apply State.serveA_kept <;> intros <;> (try dsimp only) <;> (repeat' split) <;> simp [ansOk, ansNo, ansWait]
theorem execLoopBudget_kept (r : Req) (die : Byte) (s : State) (z : State) (hz : execLoopBudget r die s = .next z) : Kept z s := by
  obtain rfl := (done_eq _ _ _).1 hz
  rw [settle_kept']
  apply State.serveL_kept <;> intros <;> (try dsimp only) <;> (repeat' split) <;> simp [ansOk, ansNo, ansWait]
/-! ### Machine/ReqField -/

@[simp] theorem State.chanRows_kept (s : State) (l : List Nat) : Kept (State.chanRows s l).2 s := by
  induction l generalizing s with
  | nil => unfold State.chanRows; (try dsimp only); (repeat' (split <;> (try (rename_i h; have h2 := congrArg Prod.snd h; dsimp only at h2; clear h; subst h2)))) <;>
    first
    | done
    | (simp_all; done)
    | (rename_i h; have h2 := congrArg Prod.snd h; dsimp only at h2; clear h; subst h2; simp_all; done)
    | (rename_i h _; have h2 := congrArg Prod.snd h; dsimp only at h2; clear h; subst h2; simp_all; done)
    | (rename_i h _ _; have h2 := congrArg Prod.snd h; dsimp only at h2; clear h; subst h2; simp_all; done)
    | skip
  | cons a l ih => unfold State.chanRows; (try dsimp only); (repeat' (split <;> (try (rename_i h; have h2 := congrArg Prod.snd h; dsimp only at h2; clear h; subst h2)))) <;>
    first
    | done
    | (simp_all; done)
    | (rename_i h; have h2 := congrArg Prod.snd h; dsimp only at h2; clear h; subst h2; simp_all; done)
    | (rename_i h _; have h2 := congrArg Prod.snd h; dsimp only at h2; clear h; subst h2; simp_all; done)
    | (rename_i h _ _; have h2 := congrArg Prod.snd h; dsimp only at h2; clear h; subst h2; simp_all; done)
    | skip
theorem execFioStatus_kept (r : Req) (s : State) (z : State) (hz : execFioStatus r s = .next z) : Kept z s := by
  obtain rfl := (done_eq _ _ _).1 hz
  rw [settle_kept']
  apply State.serveA_kept <;> intros <;> simp [ansOk, ansNo, ansWait]
theorem execFioGroups_kept (r : Req) (s : State) (z : State) (hz : execFioGroups r s = .next z) : Kept z s := by
  obtain rfl := (done_eq _ _ _).1 hz
  rw [settle_kept']
  apply State.serveL_kept <;> intros <;> simp [ansOk, ansNo, ansWait]
theorem execFioClear_kept (r : Req) (ch : Byte) (s : State) (z : State) (hz : execFioClear r ch s = .next z) : Kept z s := by
  obtain rfl := (done_eq _ _ _).1 hz
  rw [settle_kept']
  apply State.serveA_kept <;> intros <;> (try dsimp only) <;> (repeat' split) <;> simp [ansOk, ansNo, ansWait]
theorem execFioSelftest_kept (r : Req) (action : Byte) (interval : BitVec 16) (s : State) (z : State) (hz : execFioSelftest r action interval s = .next z) : Kept z s := by
  obtain rfl := (done_eq _ _ _).1 hz
  rw [settle_kept']
  apply State.serveL_kept <;> intros <;> (try dsimp only) <;> (repeat' split) <;> simp [ansOk, ansNo, ansWait]
theorem execFioWatchdog_kept (r : Req) (tmo : BitVec 16) (logic : Byte) (s : State) (z : State) (hz : execFioWatchdog r tmo logic s = .next z) : Kept z s := by
  obtain rfl := (done_eq _ _ _).1 hz
  rw [settle_kept']
  apply State.serveL_kept <;> intros <;> simp [ansOk, ansNo, ansWait]
theorem State.serveMot_kept (s : State) (r : Req) (op : Nat) (data : List Byte) (m : Byte) (ranges : Bool) (f : State → Answer)
    (hf : ∀ s, Kept (f s).2 s) : Kept (s.serveMot r op data m ranges f) s := by
  apply State.serveA_kept; intro t n s
  repeat' split
  all_goals first
    | exact hf _
    | exact hf _ _ _
    | simp [ansNo]
theorem execMotCmd_kept (r : Req) (m cmd : Byte) (target : V24) (s : State) (z : State) (hz : execMotCmd r m cmd target s = .next z) : Kept z s := by
  obtain rfl := (done_eq _ _ _).1 hz
  rw [settle_kept']
  apply State.serveMot_kept <;> intros <;> (try dsimp only) <;> (repeat' split) <;> simp [ansOk, ansNo, ansWait]
theorem execMotStatus_kept (r : Req) (m : Byte) (s : State) (z : State) (hz : execMotStatus r m s = .next z) : Kept z s := by
  obtain rfl := (done_eq _ _ _).1 hz
  rw [settle_kept']
  apply State.serveMot_kept <;> intros <;> simp [ansOk, ansNo, ansWait]
theorem State.serveCircuit_kept (s : State) (r : Req) (op : Nat) (landlord : Bool) (k : Byte) (f : State → Answer)
    (hf : ∀ s, Kept (f s).2 s) : Kept (s.serveCircuit r op landlord k f) s := by
  apply State.serve_kept; intro t n s
  repeat' split
  all_goals first
    | exact hf _
    | exact hf _ _ _
    | simp [ansNo]
theorem execMtrCircuit_kept (r : Req) (k : Byte) (s : State) (z : State) (hz : execMtrCircuit r k s = .next z) : Kept z s := by
  obtain rfl := (done_eq _ _ _).1 hz
  rw [settle_kept']
  apply State.serveCircuit_kept <;> intros <;> simp [ansOk, ansNo, ansWait]
theorem execMtrVset_kept (r : Req) (set : Byte) (s : State) (z : State) (hz : execMtrVset r set s = .next z) : Kept z s := by
  obtain rfl := (done_eq _ _ _).1 hz
  rw [settle_kept']
  apply State.serveL_kept <;> intros <;> simp [ansOk, ansNo, ansWait]
theorem execMtrHarm_kept (r : Req) (input orders : Byte) (s : State) (z : State) (hz : execMtrHarm r input orders s = .next z) : Kept z s := by
  obtain rfl := (done_eq _ _ _).1 hz
  rw [settle_kept']
  apply State.serveA_kept <;> intros <;> (try dsimp only) <;> (repeat' split) <;> simp [ansOk, ansNo, ansWait]
theorem execMtrTotals_kept (r : Req) (k : Byte) (s : State) (z : State) (hz : execMtrTotals r k s = .next z) : Kept z s := by
  obtain rfl := (done_eq _ _ _).1 hz
  rw [settle_kept']
  apply State.serveCircuit_kept <;> intros <;> simp [ansOk, ansNo, ansWait]
theorem execMtrTotalsClear_kept (r : Req) (k : Byte) (s : State) (z : State) (hz : execMtrTotalsClear r k s = .next z) : Kept z s := by
  obtain rfl := (done_eq _ _ _).1 hz
  rw [settle_kept']
  apply State.serveCircuit_kept <;> intros <;> simp [ansOk, ansNo, ansWait]
theorem execMtrCalRead_kept (r : Req) (input : Byte) (s : State) (z : State) (hz : execMtrCalRead r input s = .next z) : Kept z s := by
  obtain rfl := (done_eq _ _ _).1 hz
  rw [settle_kept']
  apply State.serveL_kept <;> intros <;> (try dsimp only) <;> (repeat' split) <;> simp [ansOk, ansNo, ansWait]
theorem execMtrCalMeasure_kept (r : Req) (input : Byte) (s : State) (z : State) (hz : execMtrCalMeasure r input s = .next z) : Kept z s := by
  obtain rfl := (done_eq _ _ _).1 hz
  rw [settle_kept']
  apply State.serveL_kept <;> intros <;> (try dsimp only) <;> (repeat' split) <;> simp [ansOk, ansNo, ansWait]
theorem execMtrCalWrite_kept (r : Req) (input : Byte) (gain phase offset itrim : Word) (s : State) (z : State) (hz : execMtrCalWrite r input gain phase offset itrim s = .next z) : Kept z s := by
  obtain rfl := (done_eq _ _ _).1 hz
  rw [settle_kept']
  apply State.serveL_kept <;> intros <;> (try dsimp only) <;> (repeat' split) <;> simp [ansOk, ansNo, ansWait]
theorem execMtrSelftest_kept (r : Req) (action : Byte) (interval : BitVec 16) (s : State) (z : State) (hz : execMtrSelftest r action interval s = .next z) : Kept z s := by
  obtain rfl := (done_eq _ _ _).1 hz
  rw [settle_kept']
  apply State.serveL_kept <;> intros <;> (try dsimp only) <;> (repeat' split) <;> simp [ansOk, ansNo, ansWait]
theorem execMtrWaveStart_kept (r : Req) (mask : BitVec 64) (frames : Word) (va : BitVec 64) (s : State) (z : State) (hz : execMtrWaveStart r mask frames va s = .next z) : Kept z s := by
  obtain rfl := (done_eq _ _ _).1 hz
  rw [settle_kept']
  apply State.serveA_kept <;> intros <;> (try dsimp only) <;> (repeat' split) <;> simp [ansOk, ansNo, ansWait]
theorem execMtrWaveStop_sec (r : Req) (s : State) (z : State) (hz : execMtrWaveStop r s = .next z) : KeptSec z s := by
  obtain rfl := (done_eq _ _ _).1 hz
  rw [settle_sec']
  apply State.serveA_sec <;> intros <;> (try dsimp only) <;> (repeat' split) <;> simp [ansOk, ansNo, ansWait]
theorem execMtrWaveStop_wf (r : Req) (s : State) (z : State) (hw : MemWf s) (hz : execMtrWaveStop r s = .next z) : MemWf z := by
  obtain rfl := (done_eq _ _ _).1 hz
  rw [settle_wf']
  apply State.serveA_wf (hw := hw) <;> intros <;> (try dsimp only) <;> (repeat' split) <;> simp_all [ansOk, ansNo, ansWait]
theorem execMtrConfigRead_kept (r : Req) (s : State) (z : State) (hz : execMtrConfigRead r s = .next z) : Kept z s := by
  obtain rfl := (done_eq _ _ _).1 hz
  rw [settle_kept']
  apply State.serveL_kept <;> intros <;> simp [ansOk, ansNo, ansWait]
/-! ### Machine/ReqStore -/

@[simp] theorem State.readBlocks_kept (s : State) (t : Tenant) (l : List (Nat × Nat)) : Kept (State.readBlocks s t l).2 s := by
  induction l generalizing s with
  | nil => unfold State.readBlocks; (try dsimp only); (repeat' (split <;> (try (rename_i h; have h2 := congrArg Prod.snd h; dsimp only at h2; clear h; subst h2)))) <;>
    first
    | done
    | (simp_all; done)
    | (rename_i h; have h2 := congrArg Prod.snd h; dsimp only at h2; clear h; subst h2; simp_all; done)
    | (rename_i h _; have h2 := congrArg Prod.snd h; dsimp only at h2; clear h; subst h2; simp_all; done)
    | (rename_i h _ _; have h2 := congrArg Prod.snd h; dsimp only at h2; clear h; subst h2; simp_all; done)
    | skip
  | cons a l ih => unfold State.readBlocks; (try dsimp only); (repeat' (split <;> (try (rename_i h; have h2 := congrArg Prod.snd h; dsimp only at h2; clear h; subst h2)))) <;>
    first
    | done
    | (simp_all; done)
    | (rename_i h; have h2 := congrArg Prod.snd h; dsimp only at h2; clear h; subst h2; simp_all; done)
    | (rename_i h _; have h2 := congrArg Prod.snd h; dsimp only at h2; clear h; subst h2; simp_all; done)
    | (rename_i h _ _; have h2 := congrArg Prod.snd h; dsimp only at h2; clear h; subst h2; simp_all; done)
    | skip
@[simp] theorem State.histRead_kept (s : State) (series : V24) (t : Tenant) (rlen : Nat) (p : Block → TrendRec → Bool) (stop : Nat) (gone : Nat × Nat → Bool) : Kept (State.histRead s series t rlen p stop gone).2 s := by
  unfold State.histRead; try dsimp only
  repeat' (split <;> (try (rename_i h; have h2 := congrArg Prod.snd h; dsimp only at h2; clear h; subst h2)))
  all_goals first
    | done
    | (simp_all; done)
    | (apply foldl_kept; intro s x; (repeat' split) <;> simp_all; done)
    | (rename_i h; have h2 := congrArg Prod.snd h; dsimp only at h2; clear h; subst h2; simp_all; done)
    | (rename_i h _; have h2 := congrArg Prod.snd h; dsimp only at h2; clear h; subst h2; simp_all; done)
    | (rename_i h _ _; have h2 := congrArg Prod.snd h; dsimp only at h2; clear h; subst h2; simp_all; done)
    | skip
theorem execHstRead_kept (r : Req) (series : V24) (first last : BitVec 64) (s : State) (z : State) (hz : execHstRead r series first last s = .next z) : Kept z s := by
  obtain rfl := (done_eq _ _ _).1 hz
  rw [settle_kept']
  apply State.serveA_kept <;> intros <;> simp [ansOk, ansNo, ansWait]
theorem execHstReadTime_kept (r : Req) (series : V24) (first last : BitVec 48) (s : State) (z : State) (hz : execHstReadTime r series first last s = .next z) : Kept z s := by
  obtain rfl := (done_eq _ _ _).1 hz
  rw [settle_kept']
  apply State.serveA_kept <;> intros <;> simp [ansOk, ansNo, ansWait]
theorem execHstQuota_kept (r : Req) (ten : BitVec 16) (s : State) (z : State) (hz : execHstQuota r ten s = .next z) : Kept z s := by
  obtain rfl := (done_eq _ _ _).1 hz
  rw [settle_kept']
  apply State.serveA_kept <;> intros <;> (try dsimp only) <;> (repeat' split) <;> simp [ansOk, ansNo, ansWait]
theorem execHstStatus_kept (r : Req) (s : State) (z : State) (hz : execHstStatus r s = .next z) : Kept z s := by
  obtain rfl := (done_eq _ _ _).1 hz
  rw [settle_kept']
  apply State.serveL_kept <;> intros <;> simp [ansOk, ansNo, ansWait]
theorem execHstResync_kept (r : Req) (s : State) (z : State) (hz : execHstResync r s = .next z) : Kept z s := by
  obtain rfl := (done_eq _ _ _).1 hz
  rw [settle_kept']
  apply State.serveL_kept <;> intros <;> (try dsimp only) <;> (repeat' split) <;> simp [ansOk, ansNo, ansWait]
@[simp] theorem State.replicaBlocks_kept (s : State) (g i : Nat) (n : Nat) : Kept (State.replicaBlocks s g i n).2 s := by
  induction n generalizing s g i with
  | zero => unfold State.replicaBlocks; (try dsimp only); (repeat' (split <;> (try (rename_i h; have h2 := congrArg Prod.snd h; dsimp only at h2; clear h; subst h2)))) <;>
    first
    | done
    | (simp_all; done)
    | (rename_i h; have h2 := congrArg Prod.snd h; dsimp only at h2; clear h; subst h2; simp_all; done)
    | (rename_i h _; have h2 := congrArg Prod.snd h; dsimp only at h2; clear h; subst h2; simp_all; done)
    | (rename_i h _ _; have h2 := congrArg Prod.snd h; dsimp only at h2; clear h; subst h2; simp_all; done)
    | skip
  | succ n ih => unfold State.replicaBlocks; (try dsimp only); (repeat' (split <;> (try (rename_i h; have h2 := congrArg Prod.snd h; dsimp only at h2; clear h; subst h2)))) <;>
    first
    | done
    | (simp_all; done)
    | (rename_i h; have h2 := congrArg Prod.snd h; dsimp only at h2; clear h; subst h2; simp_all; done)
    | (rename_i h _; have h2 := congrArg Prod.snd h; dsimp only at h2; clear h; subst h2; simp_all; done)
    | (rename_i h _ _; have h2 := congrArg Prod.snd h; dsimp only at h2; clear h; subst h2; simp_all; done)
    | skip
theorem execHstReplicaRead_kept (r : Req) (src : Byte) (seg : V24) (blk count : BitVec 16) (s : State) (z : State) (hz : execHstReplicaRead r src seg blk count s = .next z) : Kept z s := by
  obtain rfl := (done_eq _ _ _).1 hz
  rw [settle_kept']
  apply State.serveA_kept
  all_goals (intros; try dsimp only)
  repeat' (split <;> (try (rename_i h; have h2 := congrArg Prod.snd h; dsimp only at h2; clear h; subst h2)))
  all_goals first
    | done
    | (simp_all; done)
    | (apply foldl_kept; intro s x; (repeat' split) <;> simp_all; done)
    | (rename_i h; have h2 := congrArg Prod.snd h; dsimp only at h2; clear h; subst h2; simp_all; done)
    | (rename_i h _; have h2 := congrArg Prod.snd h; dsimp only at h2; clear h; subst h2; simp_all; done)
    | (rename_i h _ _; have h2 := congrArg Prod.snd h; dsimp only at h2; clear h; subst h2; simp_all; done)
    | skip
theorem execEvtRead_kept (r : Req) (first : BitVec 64) (count : BitVec 16) (s : State) (z : State) (hz : execEvtRead r first count s = .next z) : Kept z s := by
  obtain rfl := (done_eq _ _ _).1 hz
  rw [settle_kept']
  apply State.serveA_kept <;> intros <;> simp [ansOk, ansNo, ansWait]
theorem execEvtHeartRead_kept (r : Req) (first count : BitVec 16) (s : State) (z : State) (hz : execEvtHeartRead r first count s = .next z) : Kept z s := by
  obtain rfl := (done_eq _ _ _).1 hz
  rw [settle_kept']
  apply State.serveA_kept <;> intros <;> simp [ansOk, ansNo, ansWait]
theorem execEvtPlant_kept (r : Req) (s : State) (z : State) (hz : execEvtPlant r s = .next z) : Kept z s := by
  obtain rfl := (done_eq _ _ _).1 hz
  rw [settle_kept']
  apply State.serveL_kept <;> intros <;> (try dsimp only) <;> (repeat' split) <;> simp [ansOk, ansNo, ansWait]
/-! ### Machine/Access -/

@[simp] theorem State.sealed_kept (s : State) (p a : Nat) (i : Inner) : Kept (State.sealed s p a i) s := by
  unfold State.sealed; (try dsimp only); (repeat' split) <;> simp
@[simp] theorem State.rekey_kept (s : State) (p a : Nat) : Kept (State.rekey s p a) s := by
  simp [State.rekey]
@[simp] theorem State.sendSecure_kept (s : State) (p a : Nat) (i : Inner) : Kept (State.sendSecure s p a i) s := by
  unfold State.sendSecure; (try dsimp only); (repeat' split) <;> simp
@[simp] theorem State.cacheCheck_kept (s : State) (c : DoorCfg) : Kept (State.cacheCheck s c) s := by
  unfold State.cacheCheck; (try dsimp only); (repeat' split) <;> simp
@[simp] theorem State.cacheChecks_kept (s : State) : Kept (State.cacheChecks s) s := by
  simp [State.cacheChecks]
@[simp] theorem State.sendChunk_kept (s : State) (c : DoorCfg) : Kept (State.sendChunk s c) s := by
  unfold State.sendChunk; (try dsimp only); (repeat' split) <;> simp
@[simp] theorem State.sendChunks_kept (s : State) (p : Nat) : Kept (State.sendChunks s p) s := by
  simp [State.sendChunks]
@[simp] theorem State.enter_kept (s : State) (i area : Nat) : Kept (State.enter s i area) s := by
  simp [State.enter]
@[simp] theorem State.countPassback_kept (s : State) : Kept (State.countPassback s) s := by
  simp [State.countPassback]
@[simp] theorem State.decided_kept (s : State) (q : ReadReq) : Kept (State.decided s q) s := by
  simp [State.decided]
@[simp] theorem State.sendFloors_kept (s : State) (c : DoorCfg) (r : Cred) : Kept (State.sendFloors s c r) s := by
  unfold State.sendFloors; (try dsimp only); (repeat' split) <;> simp
@[simp] theorem State.grant_kept (s : State) (c : DoorCfg) (q : ReadReq) (i : Nat) (r : Cred) : Kept (State.grant s c q i r) s := by
  unfold State.grant; (try dsimp only); (repeat' split) <;> simp
@[simp] theorem State.refuse_kept (s : State) (c : DoorCfg) (q : ReadReq) (reason : Nat) : Kept (State.refuse s c q reason) s := by
  unfold State.refuse; (try dsimp only); (repeat' split) <;> simp
@[simp] theorem State.decideRead_kept (s : State) (c : DoorCfg) (q : ReadReq) : Kept (State.decideRead s c q) s := by
  unfold State.decideRead; (try dsimp only); (repeat' split) <;> simp
theorem execBranchCycleStart_kept (p : Port) (buffered : Bool) (s : State) (z : State) (hz : execBranchCycleStart p buffered s = .next z) : Kept z s := by
  revert hz; unfold execBranchCycleStart; (try dsimp only); (repeat' split) <;> (simp only [done_eq]; rintro rfl; simp)
@[simp] theorem State.contact_kept (s : State) (p a ch : Nat) (v : V24) : Kept (State.contact s p a ch v) s := by
  unfold State.contact; (try dsimp only); (repeat' split) <;> simp
@[simp] theorem State.innerRx_kept (s : State) (p a : Nat) (x : Inner) : Kept (State.innerRx s p a x) s := by
  cases x <;> unfold State.innerRx <;> (try dsimp only) <;> (repeat' (split <;> (try (rename_i h; have h2 := congrArg Prod.snd h; dsimp only at h2; clear h; subst h2)))) <;>
    first
    | done
    | (simp_all; done)
    | (rename_i h; have h2 := congrArg Prod.snd h; dsimp only at h2; clear h; subst h2; simp_all; done)
    | (rename_i h _; have h2 := congrArg Prod.snd h; dsimp only at h2; clear h; subst h2; simp_all; done)
    | (rename_i h _ _; have h2 := congrArg Prod.snd h; dsimp only at h2; clear h; subst h2; simp_all; done)
    | skip
theorem execBranchRxSecure_kept (p : Port) (addr : Byte) (f : SecureFrame) (s : State) (z : State) (hz : execBranchRxSecure p addr f s = .next z) : Kept z s := by
  revert hz; unfold execBranchRxSecure; (try dsimp only); (repeat' split) <;> (simp only [done_eq]; rintro rfl; simp)
theorem execRead_kept (s : State) (z : State) (hz : execRead s = .next z) : Kept z s := by
  revert hz; unfold execRead; (try dsimp only); (repeat' split) <;> (simp only [done_eq]; rintro rfl; simp)
theorem execOffline_kept (s : State) (z : State) (hz : execOffline s = .next z) : Kept z s := by
  revert hz; unfold execOffline; (try dsimp only); (repeat' split) <;> (simp only [done_eq]; rintro rfl; simp)
@[simp] theorem State.sendTime_kept (s : State) (n : NodeCfg) : Kept (State.sendTime s n) s := by
  unfold State.sendTime; (try dsimp only); (repeat' split) <;> simp
theorem execTimeMessageSend_kept (s : State) (z : State) (hz : execTimeMessageSend s = .next z) : Kept z s := by
  revert hz; unfold execTimeMessageSend; (try dsimp only); (repeat' split) <;> (simp only [done_eq]; rintro rfl; simp)
theorem execPassbackForgiveness_kept (idx : BitVec 20) (s : State) (z : State) (hz : execPassbackForgiveness idx s = .next z) : Kept z s := by
  revert hz; unfold execPassbackForgiveness; (try dsimp only); (repeat' split) <;> (simp only [done_eq]; rintro rfl; simp)
theorem execCredentialLockoutEnd_kept (slot : Fin 65) (s : State) (z : State) (hz : execCredentialLockoutEnd slot s = .next z) : Kept z s := by
  revert hz; unfold execCredentialLockoutEnd; (try dsimp only); (repeat' split) <;> (simp only [done_eq]; rintro rfl; simp)
theorem execUnlockTimeExpiry_kept (door : BitVec 11) (s : State) (z : State) (hz : execUnlockTimeExpiry door s = .next z) : Kept z s := by
  revert hz; unfold execUnlockTimeExpiry; (try dsimp only); (repeat' split) <;> (simp only [done_eq]; rintro rfl; simp)
theorem execFloorValidityExpiry_kept (station : Byte) (s : State) (z : State) (hz : execFloorValidityExpiry station s = .next z) : Kept z s := by
  revert hz; unfold execFloorValidityExpiry; (try dsimp only); (repeat' split) <;> (simp only [done_eq]; rintro rfl; simp)
theorem execNodeSecureRx_kept (uid : Uid) (dst : Byte) (f : SecureFrame) (s : State) (z : State) (hz : execNodeSecureRx uid dst f s = .next z) : Kept z s := by
  obtain rfl := (done_eq _ _ _).1 hz; simp
theorem execOfflineDecision_kept (uid : Uid) (reader method : Byte) (cid : Uid) (s : State) (z : State) (hz : execOfflineDecision uid reader method cid s = .next z) : Kept z s := by
  revert hz; unfold execOfflineDecision; (try dsimp only); (repeat' split) <;> (simp only [done_eq]; rintro rfl; simp)
/-! ### Machine/ReqAccess -/

theorem execAccCredAdd_kept (r : Req) (c : Cred) (s : State) (z : State) (hz : execAccCredAdd r c s = .next z) : Kept z s := by
  obtain rfl := (done_eq _ _ _).1 hz
  rw [settle_kept']
  apply State.serveA_kept <;> intros <;> (try dsimp only) <;> (repeat' split) <;> simp [ansOk, ansNo, ansWait]
theorem execAccCredDel_kept (r : Req) (idx : Word) (s : State) (z : State) (hz : execAccCredDel r idx s = .next z) : Kept z s := by
  obtain rfl := (done_eq _ _ _).1 hz
  rw [settle_kept']
  apply State.serveA_kept <;> intros <;> (try dsimp only) <;> (repeat' split) <;> simp [ansOk, ansNo, ansWait]
theorem execAccCredRead_kept (r : Req) (idx : Word) (s : State) (z : State) (hz : execAccCredRead r idx s = .next z) : Kept z s := by
  obtain rfl := (done_eq _ _ _).1 hz
  rw [settle_kept']
  apply State.serveA_kept <;> intros <;> (try dsimp only) <;> (repeat' split) <;> simp [ansOk, ansNo, ansWait]
theorem execAccDoorCmd_kept (r : Req) (door : BitVec 16) (action : Byte) (seconds : BitVec 16) (s : State) (z : State) (hz : execAccDoorCmd r door action seconds s = .next z) : Kept z s := by
  obtain rfl := (done_eq _ _ _).1 hz
  rw [settle_kept']
  apply State.serveA_kept <;> intros <;> (try dsimp only) <;> (repeat' split) <;> simp [ansOk, ansNo, ansWait]
theorem execAccDoorStatus_kept (r : Req) (door : BitVec 16) (s : State) (z : State) (hz : execAccDoorStatus r door s = .next z) : Kept z s := by
  obtain rfl := (done_eq _ _ _).1 hz
  rw [settle_kept']
  apply State.serveA_kept <;> intros <;> (try dsimp only) <;> (repeat' split) <;> simp [ansOk, ansNo, ansWait]
theorem execAccPassbackReset_kept (r : Req) (area : BitVec 16) (idx : Word) (s : State) (z : State) (hz : execAccPassbackReset r area idx s = .next z) : Kept z s := by
  obtain rfl := (done_eq _ _ _).1 hz
  rw [settle_kept']
  apply State.serveL_kept <;> intros <;> (try dsimp only) <;> (repeat' split) <;> simp [ansOk, ansNo, ansWait]
theorem execTimeGet_kept (r : Req) (s : State) (z : State) (hz : execTimeGet r s = .next z) : Kept z s := by
  obtain rfl := (done_eq _ _ _).1 hz
  rw [settle_kept']
  apply State.serveA_kept <;> intros <;> simp [ansOk, ansNo, ansWait]
theorem execTimeSet_kept (r : Req) (utcMs : BitVec 48) (offset : BitVec 16) (s : State) (z : State) (hz : execTimeSet r utcMs offset s = .next z) : Kept z s := by
  obtain rfl := (done_eq _ _ _).1 hz
  rw [settle_kept']
  apply State.serveL_kept <;> intros <;> (try dsimp only) <;> (repeat' split) <;> simp [ansOk, ansNo, ansWait]
theorem execRtcTrim_kept (r : Req) (add : Byte) (n : BitVec 16) (s : State) (z : State) (hz : execRtcTrim r add n s = .next z) : Kept z s := by
  obtain rfl := (done_eq _ _ _).1 hz
  rw [settle_kept']
  apply State.serveL_kept <;> intros <;> simp [ansOk, ansNo, ansWait]
theorem execRtcUserRead_kept (r : Req) (first count : Byte) (s : State) (z : State) (hz : execRtcUserRead r first count s = .next z) : Kept z s := by
  obtain rfl := (done_eq _ _ _).1 hz
  rw [settle_kept']
  apply State.serve_kept <;> intros <;> (try dsimp only) <;> (repeat' split) <;> simp [ansOk, ansNo, ansWait]
theorem execRtcUserWrite_kept (r : Req) (first count : Byte) (bytes : List Byte) (s : State) (z : State) (hz : execRtcUserWrite r first count bytes s = .next z) : Kept z s := by
  obtain rfl := (done_eq _ _ _).1 hz
  rw [settle_kept']
  apply State.serve_kept <;> intros <;> (try dsimp only) <;> (repeat' split) <;> simp [ansOk, ansNo, ansWait]
theorem execRtcSysRead_kept (r : Req) (s : State) (z : State) (hz : execRtcSysRead r s = .next z) : Kept z s := by
  obtain rfl := (done_eq _ _ _).1 hz
  rw [settle_kept']
  apply State.serveL_kept <;> intros <;> simp [ansOk, ansNo, ansWait]

end Sys2Proof.Machine
end

