-- ==== Sys2Proof/Laws/FrameStart.lean ====
section
/-! SUPPORT. What the operations and commands leave unchanged: configuration loads, resets, start-up and the service port. -/
namespace Sys2Proof.Machine

/-! ### Machine/Load -/

@[simp] theorem State.loadPoints_kept (s : State) (l : List (Nat × Desc)) : Kept (State.loadPoints s l) s := by
  simp [State.loadPoints]
@[simp] theorem State.loadForces_kept (s : State) : Kept (State.loadForces s) s := by
  simp [State.loadForces]
@[simp] theorem State.loadPort_kept (g : Image) (s : State) (c : PortCfg) : Kept (State.loadPort g s c) s := by
  unfold State.loadPort; (try dsimp only); (repeat' split) <;> simp
@[simp] theorem State.dropWait_kept (s : State) (r : Option Req) : Kept (State.dropWait s r) s := by
  simp [State.dropWait]
@[simp] theorem State.loadPorts_kept (s : State) (g : Image) : Kept (State.loadPorts s g) s := by
  simp [State.loadPorts]
@[simp] theorem State.loadLogic_kept (s : State) (g : Image) (d : Nat) : Kept (State.loadLogic s g d) s := by
  unfold State.loadLogic; (try dsimp only); (repeat' split) <;> simp
@[simp] theorem State.loadLoops_kept (s : State) (l : List LoopCfg) : Kept (State.loadLoops s l) s := by
  simp [State.loadLoops]
@[simp] theorem State.stopMoves_kept (s : State) : Kept s.stopMoves s := by
  unfold State.stopMoves; apply foldl_kept; intro s x; simp
@[simp] theorem State.newPair_kept (s : State) (old : Image) (m : Nat) : Kept (State.newPair s old m) s := by
  unfold State.newPair; (try dsimp only); (repeat' split) <;> simp
@[simp] theorem State.quitOuts_kept (s : State) (old : Image) : Kept (State.quitOuts s old) s := by
  simp [State.quitOuts]
@[simp] theorem State.takeField_kept (s : State) (old : Image) : Kept (State.takeField s old) s := by
  simp [State.takeField]
@[simp] theorem State.loadField_kept (s : State) (old : Image) : Kept (State.loadField s old) s := by
  unfold State.loadField; dsimp only; split <;> simp
@[simp] theorem State.loadMeter_kept (s : State) (old : Image) : Kept (State.loadMeter s old) s := by
  simp [State.loadMeter]
@[simp] theorem State.loadWmk_kept (s : State) (n : Nat) : Kept (State.loadWmk s n) s := by
  unfold State.loadWmk; (try dsimp only); (repeat' split) <;> simp
@[simp] theorem State.loadSecurity_kept (s : State) : Kept (State.loadSecurity s) s := by
  simp [State.loadSecurity]
@[simp] theorem State.integKeys_kept (s : State) : Kept (State.integKeys s) s := by
  unfold State.integKeys; apply foldl_kept; intro s t; split <;> simp
@[simp] theorem State.nodeKeys_kept (s : State) : Kept (State.nodeKeys s) s := by
  unfold State.nodeKeys; apply foldl_kept; intro s c; split <;> simp
@[simp] theorem State.meetAcc_kept (s : State) (kind n v : Nat) (bad : Bool) : Kept (State.meetAcc s kind n v bad) s := by
  unfold State.meetAcc; split <;> simp
@[simp] theorem State.loadAccess_kept (s : State) : Kept (State.loadAccess s) s := by
  simp [State.loadAccess]
@[simp] theorem State.takeId_kept (s : State) (unique : Bool) : Kept (State.takeId s unique) s := by
  simp [State.takeId]
@[simp] theorem State.applyImage_kept (s : State) (g : Image) : Kept (State.applyImage s g) s := by
  simp [State.applyImage]
@[simp] theorem State.setCopy_kept (s : State) (b : Bool) (c : CfgCopy) : Kept (State.setCopy s b c) s := by
  simp [State.setCopy]
@[simp] theorem State.sigRefused_kept (s : State) : Kept (State.sigRefused s) s := by
  simp [State.sigRefused]
@[simp] theorem State.refuseCopies_kept (s : State) : Kept (State.refuseCopies s) s := by
  unfold State.refuseCopies; apply foldl_kept; intro t b; split <;> simp
@[simp] theorem State.loadCopy_kept (s : State) (b : Bool) : Kept (State.loadCopy s b) s := by
  simp [State.loadCopy]
/-! ### Machine/Reset -/

/-- The member, the fuses, the vault's state and the TAMPER_N pin are as before. -/
@[simp] abbrev KeptSafe (t s : State) : Prop :=
  t.member = s.member ∧ t.sec.fuses = s.sec.fuses ∧ t.sec.vault = s.sec.vault ∧ t.sec.tamperN = s.sec.tamperN
theorem KeptSec.safe {t s : State} (h : KeptSec t s) : KeptSafe t s := ⟨h.1, h.2.2.1, h.2.2.2.1, h.2.2.2.2⟩
theorem KeptSafe.trans {a b c : State} (h : KeptSafe a b) (g : KeptSafe b c) : KeptSafe a c :=
  ⟨h.1.trans g.1, h.2.1.trans g.2.1, h.2.2.1.trans g.2.2.1, h.2.2.2.trans g.2.2.2⟩
theorem settle_safe' (s t : State) (u : State) : KeptSafe (settle s t) u = KeptSafe t u := by simp
@[simp] theorem State.moduleReset_safe (s : State) (n : Nat) : KeptSafe (s.moduleReset n) s := by
  simp [State.moduleReset, keptSecurity]
@[simp] theorem State.moduleReset_wf (s : State) (n : Nat) : MemWf (s.moduleReset n) := by
  simp only [MemWf, State.moduleReset]; rfl
@[simp] theorem State.showBreak_kept (s : State) (c : BarkCause) : Kept (State.showBreak s c) s := by
  simp [State.showBreak]
@[simp] theorem State.enterSeedling_kept (s : State) (reason : Nat) : Kept (State.enterSeedling s reason) s := by
  simp [State.enterSeedling]
@[simp] theorem State.mbxCheck_kept (s : State) : Kept (State.mbxCheck s) s := by
  unfold State.mbxCheck; (try dsimp only); (repeat' split) <;> simp
@[simp] theorem State.dieReady_kept (s : State) (d : Nat) : Kept (State.dieReady s d) s := by
  unfold State.dieReady; (try dsimp only); (repeat' split) <;> simp
@[simp] theorem State.holdDie_kept (s : State) (d : Nat) : Kept (State.holdDie s d) s := by
  simp [State.holdDie]
@[simp] theorem State.checkCal_kept (s : State) : Kept (State.checkCal s) s := by
  simp [State.checkCal]
/-- DRAM, the member, the links and the fuses are as before, and TAMPER_N goes on following the vault. -/
@[simp] abbrev Boots (t s : State) : Prop :=
  t.mem = s.mem ∧ t.member = s.member ∧ t.links = s.links ∧ t.sec.fuses = s.sec.fuses ∧ (s.tamperOk → t.tamperOk)
theorem Kept.boots {t s : State} (h : Kept t s) : Boots t s :=
  ⟨h.1, h.2.1, h.2.2.1, h.2.2.2.1, fun i => by simp_all [State.tamperOk]⟩
theorem Boots.trans {a b c : State} (h : Boots a b) (g : Boots b c) : Boots a c :=
  ⟨h.1.trans g.1, h.2.1.trans g.2.1, h.2.2.1.trans g.2.2.1, h.2.2.2.1.trans g.2.2.2.1, fun i => h.2.2.2.2 (g.2.2.2.2 i)⟩
theorem State.openVault_boots (s : State) : Boots s.openVault s := by
  unfold State.openVault
  split
  · exact Kept.boots (by simp)
  · split
    · exact Kept.boots (by simp)
    · exact ⟨by simp [State.loseKek], by simp [State.loseKek], by simp [State.loseKek], by simp [State.loseKek],
        fun _ => by simp [State.loseKek, State.tamperOk]⟩
theorem State.bootExyan_boots (s : State) (failed : Bool) : Boots (s.bootExyan failed) s := by
  have h : Boots s.timeStart.openVault s := Boots.trans (State.openVault_boots _) (Kept.boots (by simp))
  refine Boots.trans (Kept.boots ?_) h
  unfold State.bootExyan; generalize s.timeStart.openVault = u; dsimp only
  (repeat' split) <;> simp
/-! ### Machine/StartUp -/

@[simp] theorem Security.watch_fuses (x : Security) (m l : Bool) (n : Nat) : (x.watch m l n).fuses = x.fuses := rfl
@[simp] theorem Security.watch_vault (x : Security) (m l : Bool) (n : Nat) : (x.watch m l n).vault = x.vault := rfl
@[simp] theorem Security.watch_tamperN (x : Security) (m l : Bool) (n : Nat) : (x.watch m l n).tamperN = x.tamperN := rfl
theorem execTick_sec (inp : TickIn) (s : State) (z : State) (hz : execTick inp s = .next z) : KeptSec z s := by
  revert hz; unfold execTick; (try dsimp only); (repeat' split) <;> (simp only [done_eq]; rintro rfl; simp)
theorem execTick_wf (inp : TickIn) (s : State) (z : State) (hw : MemWf s) (hz : execTick inp s = .next z) : MemWf z := by
  revert hz; unfold execTick; (try dsimp only); (repeat' split) <;> (simp only [done_eq]; rintro rfl; simp_all)
theorem execVinGood_safe (s : State) (z : State) (hz : execVinGood s = .next z) : KeptSafe z s := by
  revert hz; unfold execVinGood; (try dsimp only); (repeat' split) <;> (simp only [done_eq]; rintro rfl; simp)
theorem execVinGood_wf (s : State) (z : State) (hw : MemWf s) (hz : execVinGood s = .next z) : MemWf z := by
  revert hz; unfold execVinGood; (try dsimp only); (repeat' split) <;> (simp only [done_eq]; rintro rfl; simp_all)
theorem execPowerFailDetect_kept (s : State) (z : State) (hz : execPowerFailDetect s = .next z) : Kept z s := by
  revert hz; unfold execPowerFailDetect; (try dsimp only); (repeat' split) <;> (simp only [done_eq]; rintro rfl; simp)
theorem execVinCollapse_safe (s : State) (z : State) (hz : execVinCollapse s = .next z) : KeptSafe z s := by
  revert hz; unfold execVinCollapse; (try dsimp only); (repeat' split) <;> (simp only [done_eq]; rintro rfl; simp)
theorem execVinCollapse_wf (s : State) (z : State) (hw : MemWf s) (hz : execVinCollapse s = .next z) : MemWf z := by
  revert hz; unfold execVinCollapse; (try dsimp only); (repeat' split) <;> (simp only [done_eq]; rintro rfl; simp_all)
theorem execResetN_safe (s : State) (z : State) (hz : execResetN s = .next z) : KeptSafe z s := by
  revert hz; unfold execResetN; (try dsimp only); (repeat' split) <;> (simp only [done_eq]; rintro rfl; simp)
theorem execResetN_wf (s : State) (z : State) (hw : MemWf s) (hz : execResetN s = .next z) : MemWf z := by
  revert hz; unfold execResetN; (try dsimp only); (repeat' split) <;> (simp only [done_eq]; rintro rfl; simp_all)
theorem execManagementWatchdogExpiry_safe (s : State) (z : State) (hz : execManagementWatchdogExpiry s = .next z) : KeptSafe z s := by
  revert hz; unfold execManagementWatchdogExpiry; (try dsimp only); (repeat' split) <;> (simp only [done_eq]; rintro rfl; simp)
theorem execManagementWatchdogExpiry_wf (s : State) (z : State) (hw : MemWf s) (hz : execManagementWatchdogExpiry s = .next z) : MemWf z := by
  revert hz; unfold execManagementWatchdogExpiry; (try dsimp only); (repeat' split) <;> (simp only [done_eq]; rintro rfl; simp_all)
theorem execThermalShutdown_safe (d : Die) (s : State) (z : State) (hz : execThermalShutdown d s = .next z) : KeptSafe z s := by
  revert hz; unfold execThermalShutdown; (try dsimp only); (repeat' split) <;> (simp only [done_eq]; rintro rfl; simp)
theorem execThermalShutdown_wf (d : Die) (s : State) (z : State) (hw : MemWf s) (hz : execThermalShutdown d s = .next z) : MemWf z := by
  revert hz; unfold execThermalShutdown; (try dsimp only); (repeat' split) <;> (simp only [done_eq]; rintro rfl; simp_all)
theorem execBarkRearm_kept (s : State) (z : State) (hz : execBarkRearm s = .next z) : Kept z s := by
  revert hz; unfold execBarkRearm; split <;> (simp only [done_eq]; rintro rfl; simp)
@[simp] theorem State.enterRom_kept (s : State) : Kept (State.enterRom s) s := by
  simp [State.enterRom]
theorem State.bootLast_boots (s : State) : Boots s.bootLast s := by
  unfold State.bootLast; dsimp only
  split
  · exact Boots.trans (State.bootExyan_boots _ _) (Kept.boots (by simp))
  · split
    · exact Boots.trans (State.bootExyan_boots _ _) (Kept.boots (by simp))
    · exact Boots.trans (Kept.boots (State.enterRom_kept _)) (Kept.boots (by simp))
theorem State.bootTrial_boots (s : State) : Boots s.bootTrial s := by
  unfold State.bootTrial; dsimp only
  split
  · exact Boots.trans (State.bootExyan_boots _ _) (Kept.boots (by simp))
  · exact Boots.trans (State.bootLast_boots _) (Kept.boots (by simp))
theorem settle_boots (s t u : State) (h : Boots t u) : Boots (settle s t) u := Boots.trans (Kept.boots (settle_kept s t)) h
theorem execRootRomBoot_boots (s : State) (z : State) (hz : execRootRomBoot s = .next z) : Boots z s := by
  revert hz; unfold execRootRomBoot; dsimp only
  split
  · simp only [done_eq]; rintro rfl; exact Kept.boots (by simp)
  · split
    · simp only [done_eq]; rintro rfl
      exact settle_boots _ _ _ (Boots.trans (State.bootLast_boots _) (Kept.boots (by simp)))
    · split
      · simp only [done_eq]; rintro rfl
        exact settle_boots _ _ _ (Boots.trans (State.bootTrial_boots _) (Kept.boots (by simp)))
      · simp only [done_eq]; rintro rfl
        refine settle_boots _ _ _ ?_
        split
        · exact Boots.trans (Kept.boots (State.event_kept _ _ _ _ _ _ _)) (Boots.trans (State.bootLast_boots _) (Kept.boots (by simp)))
        · exact Boots.trans (State.bootLast_boots _) (Kept.boots (by simp))
theorem execDieRelease_kept (d : Die) (ready : Bool) (s : State) (z : State) (hz : execDieRelease d ready s = .next z) : Kept z s := by
  revert hz; unfold execDieRelease; (try dsimp only); (repeat' split) <;> (simp only [done_eq]; rintro rfl; simp)
theorem execDieReadyTimeout_kept (d : Die) (s : State) (z : State) (hz : execDieReadyTimeout d s = .next z) : Kept z s := by
  revert hz; unfold execDieReadyTimeout; (try dsimp only); (repeat' split) <;> (simp only [done_eq]; rintro rfl; simp)
@[simp] theorem State.bootLoad_kept (s : State) (l : List Bool) : Kept (State.bootLoad s l) s := by
  induction l generalizing s with
  | nil => unfold State.bootLoad; (try dsimp only); (repeat' (split <;> (try (rename_i h; have h2 := congrArg Prod.snd h; dsimp only at h2; clear h; subst h2)))) <;>
    first
    | done
    | (simp_all; done)
    | (rename_i h; have h2 := congrArg Prod.snd h; dsimp only at h2; clear h; subst h2; simp_all; done)
    | (rename_i h _; have h2 := congrArg Prod.snd h; dsimp only at h2; clear h; subst h2; simp_all; done)
    | (rename_i h _ _; have h2 := congrArg Prod.snd h; dsimp only at h2; clear h; subst h2; simp_all; done)
    | skip
  | cons a l ih => unfold State.bootLoad; (try dsimp only); (repeat' (split <;> (try (rename_i h; have h2 := congrArg Prod.snd h; dsimp only at h2; clear h; subst h2)))) <;>
    first
    | done
    | (simp_all; done)
    | (rename_i h; have h2 := congrArg Prod.snd h; dsimp only at h2; clear h; subst h2; simp_all; done)
    | (rename_i h _; have h2 := congrArg Prod.snd h; dsimp only at h2; clear h; subst h2; simp_all; done)
    | (rename_i h _ _; have h2 := congrArg Prod.snd h; dsimp only at h2; clear h; subst h2; simp_all; done)
    | skip
@[simp] theorem State.activate_safe (s : State) : KeptSafe (State.activate s) s := by
  unfold State.activate; (try dsimp only); (repeat' split) <;> simp
@[simp] theorem State.activate_wf (s : State) (hw : MemWf s) : MemWf (State.activate s) := by
  unfold State.activate; (try dsimp only); (repeat' split) <;> simp_all
theorem execConfigurationLoad_safe (s : State) (z : State) (hz : execConfigurationLoad s = .next z) : KeptSafe z s := by
  revert hz; unfold execConfigurationLoad; (try dsimp only); (repeat' split) <;> (simp only [done_eq]; rintro rfl; simp)
theorem execConfigurationLoad_wf (s : State) (z : State) (hw : MemWf s) (hz : execConfigurationLoad s = .next z) : MemWf z := by
  revert hz; unfold execConfigurationLoad; (try dsimp only); (repeat' split) <;> (simp only [done_eq]; rintro rfl; simp_all)
theorem execBranchPowerWave_kept (w : Fin 4) (s : State) (z : State) (hz : execBranchPowerWave w s = .next z) : Kept z s := by
  revert hz; unfold execBranchPowerWave; (try dsimp only); (repeat' split) <;> (simp only [done_eq]; rintro rfl; simp)
theorem execPortCyclingStart_kept (p : Port) (s : State) (z : State) (hz : execPortCyclingStart p s = .next z) : Kept z s := by
  revert hz; unfold execPortCyclingStart; (try dsimp only); (repeat' split) <;> (simp only [done_eq]; rintro rfl; simp)
theorem execLogicStartModeApply_kept (s : State) (z : State) (hz : execLogicStartModeApply s = .next z) : Kept z s := by
  revert hz; unfold execLogicStartModeApply; (try dsimp only); (repeat' split) <;> (simp only [done_eq]; rintro rfl; simp)
theorem execStartIncompleteTimeout_safe (s : State) (z : State) (hz : execStartIncompleteTimeout s = .next z) : KeptSafe z s := by
  revert hz; unfold execStartIncompleteTimeout; (try dsimp only); (repeat' split) <;> (simp only [done_eq]; rintro rfl; simp)
theorem execStartIncompleteTimeout_wf (s : State) (z : State) (hw : MemWf s) (hz : execStartIncompleteTimeout s = .next z) : MemWf z := by
  revert hz; unfold execStartIncompleteTimeout; (try dsimp only); (repeat' split) <;> (simp only [done_eq]; rintro rfl; simp_all)
/-! ### Machine/Service -/

@[simp] theorem State.svcAns_kept (s : State) (st : BitVec 16) (detail : Nat) : Kept (State.svcAns s st detail) s := by
  simp [State.svcAns]
theorem State.svcDo_kept (s : State) (admits : SvcKind → Bool) (f : State → State) (hf : ∀ s, Kept (f s) s) :
    Kept (s.svcDo admits f) s := by
  unfold State.svcDo
  repeat' split
  all_goals first
    | exact Kept.trans (hf _) (State.svcAns_kept _ _ _)
    | simp
theorem State.svcDo_safe (s : State) (admits : SvcKind → Bool) (f : State → State) (hf : ∀ s, KeptSafe (f s) s) :
    KeptSafe (s.svcDo admits f) s := by
  unfold State.svcDo
  repeat' split
  all_goals first
    | exact KeptSafe.trans (hf _) (KeptSec.safe (State.svcAns_kept _ _ _).2)
    | simp
theorem State.svcDo_wf (s : State) (admits : SvcKind → Bool) (f : State → State) (hw : MemWf s) (hf : ∀ s, MemWf s → MemWf (f s)) :
    MemWf (s.svcDo admits f) := by
  unfold State.svcDo
  repeat' split
  all_goals first
    | exact hf _ (by simp_all)
    | simp_all
@[simp] theorem State.svcStart_kept (s : State) (k : SvcKind) (cred : Option Nat) : Kept (State.svcStart s k cred) s := by
  simp [State.svcStart]
@[simp] theorem State.svcOpenLandlord_kept (s : State) (c : CredTry) : Kept (State.svcOpenLandlord s c) s := by
  unfold State.svcOpenLandlord; (try dsimp only); (repeat' split) <;> simp
@[simp] theorem State.svcOpenShipped_kept (s : State) (c : CredTry) : Kept (State.svcOpenShipped s c) s := by
  unfold State.svcOpenShipped; (try dsimp only); (repeat' split) <;> simp
@[simp] theorem State.svcOpenCleared_kept (s : State) (c : CredTry) : Kept (State.svcOpenCleared s c) s := by
  unfold State.svcOpenCleared; (try dsimp only); (repeat' split) <;> simp
theorem execSvcOpen_kept (c : CredTry) (s : State) (z : State) (hz : execSvcOpen c s = .next z) : Kept z s := by
  revert hz; unfold execSvcOpen; (try dsimp only); (repeat' split) <;> (simp only [done_eq]; rintro rfl; simp)
theorem execSvcMbx_kept (b : List Byte) (s : State) (z : State) (hz : execSvcMbx b s = .next z) : Kept z s := by
  obtain rfl := (done_eq _ _ _).1 hz
  rw [settle_kept']
  apply State.svcDo_kept <;> intros <;> simp [ansOk, ansNo, ansWait]
theorem execUsbDisconnect_kept (s : State) (z : State) (hz : execUsbDisconnect s = .next z) : Kept z s := by
  revert hz; unfold execUsbDisconnect; (try dsimp only); (repeat' split) <;> (simp only [done_eq]; rintro rfl; simp)
@[simp] theorem State.setSlot_kept (s : State) (b : Bool) (x : FwSlot) : Kept (State.setSlot s b x) s := by
  simp [State.setSlot]
theorem execSvcUpdateBegin_kept (h : FwHeader) (s : State) (z : State) (hz : execSvcUpdateBegin h s = .next z) : Kept z s := by
  obtain rfl := (done_eq _ _ _).1 hz
  rw [settle_kept']
  apply State.svcDo_kept <;> intros <;> (try dsimp only) <;> (repeat' split) <;> simp [ansOk, ansNo, ansWait]
theorem execSvcUpdateChunk_kept (idx len : Nat) (s : State) (z : State) (hz : execSvcUpdateChunk idx len s = .next z) : Kept z s := by
  obtain rfl := (done_eq _ _ _).1 hz
  rw [settle_kept']
  apply State.svcDo_kept <;> intros <;> (try dsimp only) <;> (repeat' split) <;> simp [ansOk, ansNo, ansWait]
theorem State.svcDo_boots (s : State) (admits : SvcKind → Bool) (f : State → State) (hf : ∀ s, Boots (f s) s) :
    Boots (s.svcDo admits f) s := by
  unfold State.svcDo
  repeat' split
  all_goals first
    | exact Boots.trans (hf _) (Kept.boots (State.svcAns_kept _ _ _))
    | exact Kept.boots (by simp)
theorem execSvcUpdateEnd_boots (digestOk sigOk : Bool) (s : State) (z : State) (hz : execSvcUpdateEnd digestOk sigOk s = .next z) : Boots z s := by
  obtain rfl := (done_eq _ _ _).1 hz
  refine settle_boots _ _ _ (State.svcDo_boots _ _ _ fun t => ?_)
  dsimp only
  split
  · exact Kept.boots (by simp)
  · split
    · exact Kept.boots (by simp)
    · split
      · exact Boots.trans (Kept.boots (State.event_kept _ _ _ _ _ _ _)) (Boots.trans (State.bootExyan_boots _ _) (Kept.boots (by simp)))
      · exact Kept.boots (by simp)
theorem execSvcActivate_safe (s : State) (z : State) (hz : execSvcActivate s = .next z) : KeptSafe z s := by
  obtain rfl := (done_eq _ _ _).1 hz
  rw [settle_safe']
  apply State.svcDo_safe <;> intros <;> (try dsimp only) <;> (repeat' split) <;> simp [ansOk, ansNo, ansWait]
theorem execSvcActivate_wf (s : State) (z : State) (hw : MemWf s) (hz : execSvcActivate s = .next z) : MemWf z := by
  obtain rfl := (done_eq _ _ _).1 hz
  rw [settle_wf']
  apply State.svcDo_wf (hw := hw) <;> intros <;> (try dsimp only) <;> (repeat' split) <;> simp_all [ansOk, ansNo, ansWait]
theorem execSvcSeedling_safe (s : State) (z : State) (hz : execSvcSeedling s = .next z) : KeptSafe z s := by
  obtain rfl := (done_eq _ _ _).1 hz
  rw [settle_safe']
  apply State.svcDo_safe <;> intros <;> simp [ansOk, ansNo, ansWait]
theorem execSvcSeedling_wf (s : State) (z : State) (hw : MemWf s) (hz : execSvcSeedling s = .next z) : MemWf z := by
  obtain rfl := (done_eq _ _ _).1 hz
  rw [settle_wf']
  apply State.svcDo_wf (hw := hw) <;> intros <;> simp_all [ansOk, ansNo, ansWait]
theorem execSvcRestart_safe (s : State) (z : State) (hz : execSvcRestart s = .next z) : KeptSafe z s := by
  obtain rfl := (done_eq _ _ _).1 hz
  rw [settle_safe']
  apply State.svcDo_safe <;> intros <;> simp [ansOk, ansNo, ansWait]
theorem execSvcRestart_wf (s : State) (z : State) (hw : MemWf s) (hz : execSvcRestart s = .next z) : MemWf z := by
  obtain rfl := (done_eq _ _ _).1 hz
  rw [settle_wf']
  apply State.svcDo_wf (hw := hw) <;> intros <;> simp_all [ansOk, ansNo, ansWait]
theorem execSvcFreeze_kept (s : State) (z : State) (hz : execSvcFreeze s = .next z) : Kept z s := by
  obtain rfl := (done_eq _ _ _).1 hz
  rw [settle_kept']
  apply State.svcDo_kept <;> intros <;> (try dsimp only) <;> (repeat' split) <;> simp [ansOk, ansNo, ansWait]
theorem execSvcThaw_kept (s : State) (z : State) (hz : execSvcThaw s = .next z) : Kept z s := by
  obtain rfl := (done_eq _ _ _).1 hz
  rw [settle_kept']
  apply State.svcDo_kept <;> intros <;> (try dsimp only) <;> (repeat' split) <;> simp [ansOk, ansNo, ansWait]
theorem execSvcFactoryErase_kept (s : State) (z : State) (hz : execSvcFactoryErase s = .next z) : Kept z s := by
  obtain rfl := (done_eq _ _ _).1 hz
  rw [settle_kept']
  apply State.svcDo_kept <;> intros <;> (try dsimp only) <;> (repeat' split) <;> simp [ansOk, ansNo, ansWait]
/-! ### Machine/ReqConfig -/

@[simp] theorem State.putLogic_kept (s : State) (img : LogicImage) (d : Nat) : Kept (State.putLogic s img d) s := by
  simp [State.putLogic]
theorem execLogicDownload_kept (r : Req) (mask : Byte) (img : LogicImage) (ck : ImageCheck) (s : State) (z : State) (hz : execLogicDownload r mask img ck s = .next z) : Kept z s := by
  obtain rfl := (done_eq _ _ _).1 hz
  rw [settle_kept']
  apply State.serve_kept <;> intros <;> (try dsimp only) <;> (repeat' split) <;> simp [ansOk, ansNo, ansWait]
theorem execCfgStatus_kept (r : Req) (s : State) (z : State) (hz : execCfgStatus r s = .next z) : Kept z s := by
  obtain rfl := (done_eq _ _ _).1 hz
  rw [settle_kept']
  apply State.serveL_kept <;> intros <;> simp [ansOk, ansNo, ansWait]
theorem execCfgWrite_kept (r : Req) (img : Image) (ck : ImageCheck) (s : State) (z : State) (hz : execCfgWrite r img ck s = .next z) : Kept z s := by
  obtain rfl := (done_eq _ _ _).1 hz
  rw [settle_kept']
  apply State.serve_kept <;> intros <;> (try dsimp only) <;> (repeat' split) <;> simp [ansOk, ansNo, ansWait]
theorem execCfgActivate_kept (r : Req) (s : State) (z : State) (hz : execCfgActivate r s = .next z) : Kept z s := by
  obtain rfl := (done_eq _ _ _).1 hz
  rw [settle_kept']
  apply State.serveL_kept <;> intros <;> (try dsimp only) <;> (repeat' split) <;> simp [ansOk, ansNo, ansWait]
theorem execSecStatus_kept (r : Req) (s : State) (z : State) (hz : execSecStatus r s = .next z) : Kept z s := by
  obtain rfl := (done_eq _ _ _).1 hz
  rw [settle_kept']
  apply State.serveL_kept <;> intros <;> simp [ansOk, ansNo, ansWait]
@[simp] theorem State.closeUsers_kept (s : State) (n : Nat) : Kept (State.closeUsers s n) s := by
  unfold State.closeUsers; try dsimp only
  repeat' (split <;> (try (rename_i h; have h2 := congrArg Prod.snd h; dsimp only at h2; clear h; subst h2)))
  all_goals first
    | done
    | (simp_all; done)
    | (apply foldl_kept; intro s x; (repeat' split) <;> simp_all; done)
    | (rename_i h; have h2 := congrArg Prod.snd h; dsimp only at h2; clear h; subst h2; simp_all; done)
    | (rename_i h _; have h2 := congrArg Prod.snd h; dsimp only at h2; clear h; subst h2; simp_all; done)
    | (rename_i h _ _; have h2 := congrArg Prod.snd h; dsimp only at h2; clear h; subst h2; simp_all; done)
    | skip
theorem execSecCredSet_kept (r : Req) (slot : Byte) (ten : BitVec 16) (ckind : Byte) (verifier : List Byte) (s : State) (z : State) (hz : execSecCredSet r slot ten ckind verifier s = .next z) : Kept z s := by
  obtain rfl := (done_eq _ _ _).1 hz
  rw [settle_kept']
  apply State.serve_kept <;> intros <;> (try dsimp only) <;> (repeat' split) <;> simp [ansOk, ansNo, ansWait]
theorem execSecKeyRotate_kept (r : Req) (ten : BitVec 16) (kind : Byte) (s : State) (z : State) (hz : execSecKeyRotate r ten kind s = .next z) : Kept z s := by
  revert hz; unfold execSecKeyRotate
  split
  · simp only [done_eq]; rintro rfl; simp
  · simp only [done_eq]; rintro rfl; rw [settle_kept']
    apply State.serveL_kept; intros; (repeat' split) <;> simp [ansOk, ansNo]
theorem execSecEscrowExport_kept (r : Req) (ten : BitVec 16) (key : Word) (s : State) (z : State) (hz : execSecEscrowExport r ten key s = .next z) : Kept z s := by
  obtain rfl := (done_eq _ _ _).1 hz
  rw [settle_kept']
  apply State.serveL_kept <;> intros <;> (try dsimp only) <;> (repeat' split) <;> simp [ansOk, ansNo, ansWait]

/-! ### Operations that change the links, the vault or the fuses -/

theorem State.graftChange_eff (s : State) (l : Nat) (b : Bool) :
    (s.graftChange l b).mem = s.mem ∧ (s.graftChange l b).member = s.member ∧ (s.graftChange l b).sec.fuses = s.sec.fuses
      ∧ (s.graftChange l b).sec.vault = s.sec.vault ∧ (s.graftChange l b).sec.tamperN = s.sec.tamperN := by
  unfold State.graftChange; split <;> simp
theorem State.loseKek_eff (s : State) (st : VaultState) (c : Nat) :
    (s.loseKek st c).mem = s.mem ∧ (s.loseKek st c).member = s.member ∧ (s.loseKek st c).links = s.links
      ∧ (s.loseKek st c).sec.fuses = s.sec.fuses ∧ (s.loseKek st c).sec.vault = st ∧ (s.loseKek st c).sec.tamperN = false := by
  simp [State.loseKek, State.modSu]
theorem State.zeroise_eff (s : State) (c : BarkCause) :
    (s.zeroise c).mem = s.mem ∧ (s.zeroise c).member = s.member ∧ (s.zeroise c).links = s.links
      ∧ (s.zeroise c).sec.fuses = s.sec.fuses ∧ (s.zeroise c).sec.vault = .cleared ∧ (s.zeroise c).sec.tamperN = false := by
  have h := State.loseKek_eff s .cleared (barkCode c)
  simp_all [State.zeroise]
theorem State.setCreds_kept (l : List (Nat × Byte × List Byte)) (s : State) :
    Kept (l.foldl (fun s e => s.setCredSlot e.1 { ckind := e.2.1, verifier := e.2.2 }) s) s :=
  foldl_kept _ _ _ fun s e => by simp
@[simp] theorem State.newKek_kept (s : State) : Kept (State.newKek s) s := by
  simp [State.newKek]
theorem State.provision_eff (s : State) (pr : Provision) :
    (s.provision pr).mem = s.mem ∧ (s.provision pr).member = s.member ∧ (s.provision pr).links = s.links
      ∧ (s.provision pr).sec.fuses = s.sec.fuses ∧ (s.provision pr).sec.vault = .provisioned ∧ (s.provision pr).sec.tamperN = true := by
  have h := State.setCreds_kept pr.creds (((s.newKek.newKey .config).newKey .credStore).modSec fun x => { x with
    vault := .provisioned, cause := 0, tamperN := true, keyHashes := pr.keyHashes })
  unfold State.provision; dsimp only
  split <;> simp_all
/-! ### The commands among them -/

theorem tamperOk_of_sec {t s : State} (h : KeptSec t s) (i : s.tamperOk) : t.tamperOk := by simp_all [State.tamperOk]
theorem execGraftLinkFail_inv (link : Fin 12) (s z : State) (hz : execGraftLinkFail link s = .next z) :
    (MemWf s → MemWf z) ∧ (s.tamperOk → z.tamperOk) := by
  obtain rfl := (done_eq _ _ _).1 hz
  have h := State.graftChange_eff s link.val true
  exact ⟨fun w => by simp_all, fun w => by simp_all [State.tamperOk]⟩
theorem execGraftLinkRestored_inv (link : Fin 12) (s z : State) (hz : execGraftLinkRestored link s = .next z) :
    (MemWf s → MemWf z) ∧ (s.tamperOk → z.tamperOk) := by
  obtain rfl := (done_eq _ _ _).1 hz
  have h := State.graftChange_eff s link.val false
  exact ⟨fun w => by simp_all, fun w => by simp_all [State.tamperOk]⟩
theorem showBreak_kept (s : State) (c : BarkCause) : Kept (s.showBreak c) s := by simp [State.showBreak]
theorem execBarkBreak_inv (cause : BarkCause) (s z : State) (hz : execBarkBreak cause s = .next z) :
    (MemWf s → MemWf z) ∧ (s.tamperOk → z.tamperOk) := by
  have h := State.zeroise_eff s cause
  have g := State.moduleReset_safe (s.zeroise cause) 5
  have b := showBreak_kept s cause
  revert hz; unfold execBarkBreak
  (repeat' split) <;> (simp only [done_eq]; rintro rfl)
  · exact ⟨fun w => by simp_all, fun w => by simp_all [State.tamperOk]⟩
  · exact ⟨fun w => by simp, fun w => by simp_all [State.tamperOk]⟩
  · exact ⟨fun w => by simp_all, fun w => by simp_all [State.tamperOk]⟩
theorem execBarkPoll_inv (cause : Option BarkCause) (s z : State) (hz : execBarkPoll cause s = .next z) :
    (MemWf s → MemWf z) ∧ (s.tamperOk → z.tamperOk) := by
  revert hz; unfold execBarkPoll
  split
  · simp only [done_eq]; rintro rfl
    exact ⟨fun w => by simp_all, fun w => by simp_all [State.tamperOk]⟩
  · split
    · simp only [done_eq]; rintro rfl
      exact ⟨fun w => by simp_all, fun w => by simp_all [State.tamperOk]⟩
    · rename_i c
      have h := State.zeroise_eff s c
      have b := showBreak_kept s c
      (repeat' split) <;> (simp only [done_eq]; rintro rfl)
      all_goals exact ⟨fun w => by simp_all, fun w => by simp_all [State.tamperOk]⟩
theorem execBackupPowerLoss_kept (s z : State) (hz : execBackupPowerLoss s = .next z) : Kept z s := by
  revert hz; unfold execBackupPowerLoss; dsimp only
  split <;> (simp only [done_eq]; rintro rfl; simp)
theorem execSvcProvision_inv (pr : Provision) (s z : State) (hz : execSvcProvision pr s = .next z) :
    (MemWf s → MemWf z) ∧ (s.tamperOk → z.tamperOk) := by
  obtain rfl := (done_eq _ _ _).1 hz
  unfold State.svcDo
  split
  · exact ⟨fun w => by simp_all, fun w => by simp_all [State.tamperOk]⟩
  · split
    · exact ⟨fun w => by simp_all, fun w => by simp_all [State.tamperOk]⟩
    · split
      · exact ⟨fun w => by simp_all, fun w => by simp_all [State.tamperOk]⟩
      · have h := State.provision_eff (s.svcAns stOk 0) pr
        dsimp only
        repeat' split
        all_goals exact ⟨fun w => by simp_all, fun w => by simp_all [State.tamperOk]⟩
theorem execStartComplete_inv (s z : State) (hz : execStartComplete s = .next z) :
    (MemWf s → MemWf z) ∧ (s.tamperOk → z.tamperOk) := by
  revert hz; unfold execStartComplete; dsimp only
  (repeat' split) <;> (simp only [done_eq]; rintro rfl)
  all_goals exact ⟨fun w => by simp_all, fun w => by simp_all [State.tamperOk]⟩

end Sys2Proof.Machine
end

