-- ==== Sys2Proof/Laws/OutShared.lean ====
section
/-! SUPPORT. Events, the store and points: everything but points, recorder, history and host port is as before. -/
namespace Sys2Proof.Machine

/-- Every other kind of state is as before. -/
@[simp] abbrev Quiet (t s : State) : Prop := t.pending = s.pending ∧ t.member = s.member ∧ t.tick = s.tick ∧ t.tickHi = s.tickHi ∧ t.links = s.links ∧ t.cfg = s.cfg ∧ t.ports = s.ports ∧ t.nodes = s.nodes ∧ t.trk = s.trk ∧ t.logic = s.logic ∧ t.cores = s.cores ∧ t.loopDies = s.loopDies ∧ t.loops = s.loops ∧ t.fio = s.fio ∧ t.mtr = s.mtr ∧ t.mem = s.mem ∧ t.tags = s.tags ∧ t.owners = s.owners ∧ t.atus = s.atus ∧ t.dmas = s.dmas ∧ t.sec = s.sec ∧ t.time = s.time ∧ t.su = s.su
theorem Quiet.trans {a b c : State} (h : Quiet a b) (g : Quiet b c) : Quiet a c := by
  simp_all only [Quiet, and_self]
@[simp] theorem foldl_quiet {α : Type} (f : State → α → State) (l : List α) (s : State) (h : ∀ s x, Quiet (f s x) s) :
    Quiet (l.foldl f s) s := by
  induction l generalizing s with
  | nil => simp only [List.foldl_nil, Quiet, and_self]
  | cons a l ih => exact Quiet.trans (ih (f s a)) (h s a)
@[simp] theorem settle_quiet (s t : State) : Quiet (settle s t) t := by
  simp only [Quiet, settle_pending, settle_member, settle_tick, settle_tickHi, settle_links, settle_cfg, settle_ports, settle_nodes, settle_trk, settle_logic, settle_cores, settle_loopDies, settle_loops, settle_fio, settle_mtr, settle_mem, settle_tags, settle_owners, settle_atus, settle_dmas, settle_sec, settle_time, settle_su, and_self]
theorem settle_quiet' (s t u : State) : Quiet (settle s t) u = Quiet t u := by
  simp only [Quiet, settle_pending, settle_member, settle_tick, settle_tickHi, settle_links, settle_cfg, settle_ports, settle_nodes, settle_trk, settle_logic, settle_cores, settle_loopDies, settle_loops, settle_fio, settle_mtr, settle_mem, settle_tags, settle_owners, settle_atus, settle_dmas, settle_sec, settle_time, settle_su]
@[simp] theorem State.create_quiet (s : State) (e : Event) : Quiet (State.create s e) s := by
  unfold State.create; (try dsimp only); (repeat' split) <;> simp
@[simp] theorem State.report_quiet (s : State) (e : Event) : Quiet (State.report s e) s := by
  unfold State.report; (try dsimp only); (repeat' split) <;> simp
@[simp] theorem State.event_quiet (s : State) (t : Tenant) (d b inst c : Nat) (data : List Word) : Quiet (State.event s t d b inst c data) s := by
  simp [State.event]
@[simp] theorem State.thaw_quiet (s : State) : Quiet (State.thaw s) s := by
  unfold State.thaw; (try dsimp only); (repeat' split) <;> simp
theorem execEventReport_quiet (e : Event) (s : State) (z : State) (hz : execEventReport e s = .next z) : Quiet z s := by
  obtain rfl := (done_eq _ _ _).1 hz; simp
theorem execEventCommit_quiet (s : State) (z : State) (hz : execEventCommit s = .next z) : Quiet z s := by
  revert hz; unfold execEventCommit; (try dsimp only); (repeat' split) <;> (simp only [done_eq]; rintro rfl; simp)
theorem execEvrOverflowClear_quiet (s : State) (z : State) (hz : execEvrOverflowClear s = .next z) : Quiet z s := by
  revert hz; unfold execEvrOverflowClear; (try dsimp only); (repeat' split) <;> (simp only [done_eq]; rintro rfl; simp)
theorem execRecorderPowerfailWindowEnd_quiet (s : State) (z : State) (hz : execRecorderPowerfailWindowEnd s = .next z) : Quiet z s := by
  revert hz; unfold execRecorderPowerfailWindowEnd; (try dsimp only); (repeat' split) <;> (simp only [done_eq]; rintro rfl; simp)
theorem execFreezeTimeout_quiet (s : State) (z : State) (hz : execFreezeTimeout s = .next z) : Quiet z s := by
  revert hz; unfold execFreezeTimeout; (try dsimp only); (repeat' split) <;> (simp only [done_eq]; rintro rfl; simp)
theorem execOpsecIncrement_quiet (s : State) (z : State) (hz : execOpsecIncrement s = .next z) : Quiet z s := by
  revert hz; unfold execOpsecIncrement; (try dsimp only); (repeat' split) <;> (simp only [done_eq]; rintro rfl; simp)
@[simp] theorem State.modDrive_quiet (s : State) (n : Nat) (f : Drive → Drive) : Quiet (State.modDrive s n f) s := by
  simp [State.modDrive]
@[simp] theorem State.hstIrq_quiet (s : State) (d bit : Nat) : Quiet (State.hstIrq s d bit) s := by
  simp [State.hstIrq]
@[simp] theorem State.nvmeCmd_quiet (s : State) (d : Nat) (op : NvmeOp) (sba blocks : Nat) (data : List Byte) : Quiet (State.nvmeCmd s d op sba blocks data) s := by
  unfold State.nvmeCmd; (try dsimp only); (repeat' split) <;> simp
@[simp] theorem State.nvmeWrite_quiet (s : State) (d sba : Nat) (data : List Byte) : Quiet (State.nvmeWrite s d sba data) s := by
  unfold State.nvmeWrite; (try dsimp only); (repeat' split) <;> simp
@[simp] theorem State.storeWrite_quiet (s : State) (sba : Nat) (data : List Byte) : Quiet (State.storeWrite s sba data) s := by
  unfold State.storeWrite; (try dsimp only); (repeat' split) <;> simp
@[simp] theorem State.deallocate_quiet (s : State) (n : Nat) : Quiet (State.deallocate s n) s := by
  unfold State.deallocate; (try dsimp only); (repeat' split) <;> simp
@[simp] theorem State.takeNonces_quiet (s : State) (t : Tenant) (k : Nat) : Quiet (State.takeNonces s t k).2 s := by
  simp [State.takeNonces]
@[simp] theorem State.takeNonce_quiet (s : State) (t : Tenant) : Quiet (State.takeNonce s t).2 s := by
  simp [State.takeNonce]
@[simp] theorem State.metaWrite_quiet (s : State) (blk n : Nat) (payload : Nat → List Byte) : Quiet (State.metaWrite s blk n payload) s := by
  unfold State.metaWrite
  apply foldl_quiet; intro s e; dsimp only
  exact Quiet.trans (foldl_quiet _ _ _ fun s d => by simp) (by simp)
@[simp] theorem State.flushCaches_quiet (s : State) : Quiet (State.flushCaches s) s := by
  unfold State.flushCaches
  apply foldl_quiet; intro s e; split <;> simp
@[simp] theorem State.writeSuper_quiet (s : State) (b : Bool) : Quiet (State.writeSuper s b) s := by
  simp [State.writeSuper]
@[simp] theorem State.checkpoint_quiet (s : State) : Quiet (State.checkpoint s) s := by
  unfold State.checkpoint; (try dsimp only); (repeat' split) <;> simp
@[simp] theorem State.reclaim_quiet (s : State) (n : Nat) : Quiet (State.reclaim s n) s := by
  unfold State.reclaim; (try dsimp only); (repeat' split) <;> simp
@[simp] theorem State.reclaimTo_quiet (s : State) (t : Tenant) (n : Nat) : Quiet (State.reclaimTo s t n) s := by
  induction n generalizing s  with
  | zero => unfold State.reclaimTo; (try dsimp only); (repeat' (split <;> (try (rename_i h; have h2 := congrArg Prod.snd h; dsimp only at h2; clear h; subst h2)))) <;>
    first
    | done
    | (simp_all; done)
    | (rename_i h; have h2 := congrArg Prod.snd h; dsimp only at h2; clear h; subst h2; simp_all; done)
    | (rename_i h _; have h2 := congrArg Prod.snd h; dsimp only at h2; clear h; subst h2; simp_all; done)
    | (rename_i h _ _; have h2 := congrArg Prod.snd h; dsimp only at h2; clear h; subst h2; simp_all; done)
    | skip
  | succ n ih => unfold State.reclaimTo; (try dsimp only); (repeat' (split <;> (try (rename_i h; have h2 := congrArg Prod.snd h; dsimp only at h2; clear h; subst h2)))) <;>
    first
    | done
    | (simp_all; done)
    | (rename_i h; have h2 := congrArg Prod.snd h; dsimp only at h2; clear h; subst h2; simp_all; done)
    | (rename_i h _; have h2 := congrArg Prod.snd h; dsimp only at h2; clear h; subst h2; simp_all; done)
    | (rename_i h _ _; have h2 := congrArg Prod.snd h; dsimp only at h2; clear h; subst h2; simp_all; done)
    | skip
theorem State.openSeg_quiet (s : State) (t : Tenant) (kind : Nat) (src : Byte) (z) (h : State.openSeg s t kind src = some z) : Quiet z.2 s := by
  revert h; unfold State.openSeg; (try dsimp only)
  (repeat' (split <;> (try (rename_i h; have h2 := congrArg Prod.snd h; dsimp only at h2; clear h; subst h2)))) <;> (try simp) <;> (try rintro rfl) <;> (try simp_all)
theorem State.segFor_quiet (s : State) (t : Tenant) (kind : Nat) (src : Byte) (z : Nat × State)
    (h : s.segFor t kind src = some z) : Quiet z.2 s := by
  unfold State.segFor at h
  split at h
  · cases h; simp
  · exact State.openSeg_quiet _ _ _ _ _ h
theorem State.writeBlock_quiet (s : State) (t : Tenant) (kind : Nat) (src : Byte) (b : Block) (z : State)
    (h : s.writeBlock t kind src b = some z) : Quiet z s := by
  unfold State.writeBlock at h
  split at h
  · split at h
    · cases h
    · rename_i n u hu
      have k := State.segFor_quiet _ _ _ _ _ hu
      by_cases hk : kind = 0 <;> simp only [hk, if_true, if_false, Option.some.injEq] at h <;> subst h <;> simp_all
  · cases h
@[simp] theorem State.drain_quiet (s : State) (t : Tenant) (l : List Block) : Quiet (s.drain t l).2 s := by
  induction l generalizing s with
  | nil => simp [State.drain]
  | cons a l ih =>
    unfold State.drain
    split
    · rename_i u hu
      exact Quiet.trans (ih u) (State.writeBlock_quiet _ _ _ _ _ _ hu)
    · simp
@[simp] theorem State.setStaging_quiet (s : State) (d : Nat) (t : Tenant) (x : Staging) : Quiet (State.setStaging s d t x) s := by
  simp [State.setStaging]
@[simp] theorem State.flushStaging_quiet (s : State) (d : Nat) (t : Tenant) : Quiet (State.flushStaging s d t) s := by
  unfold State.flushStaging; dsimp only; (repeat' split) <;> simp
theorem State.stage_quiet (s : State) (d : Nat) (t : Tenant) (r : TrendRec) (z : State) (h : s.stage d t r = some z) : Quiet z s := by
  unfold State.stage at h; dsimp only at h
  repeat' split at h
  all_goals first | (simp at h; done) | (obtain rfl := Option.some.inj h; simp)
@[simp] theorem State.recordTrend_quiet (s : State) (d : Nat) (t : Tenant) (series : Nat) (status : Byte) (v : V24) (periodic : Bool) :
    Quiet (s.recordTrend d t series status v periodic) s := by
  unfold State.recordTrend; dsimp only
  split
  · rename_i u hu
    have k := State.stage_quiet _ _ _ _ _ hu
    simp_all
  · simp
@[simp] theorem State.trendChange_quiet (s : State) (m : Nat) (d : Desc) (c : Cell) : Quiet (State.trendChange s m d c) s := by
  unfold State.trendChange; (try dsimp only); (repeat' split) <;> simp
@[simp] theorem State.putCell_quiet (s : State) (m : Nat) (d : Desc) (c : Cell) : Quiet (State.putCell s m d c) s := by
  unfold State.putCell; (try dsimp only); (repeat' split) <;> simp
@[simp] theorem State.bumpGen_quiet (s : State) (b : Nat) : Quiet (State.bumpGen s b) s := by
  simp [State.bumpGen]
@[simp] theorem State.sourceWrite_quiet (s : State) (m : Nat) (src : Src) (q : Qual) (v : V24) : Quiet (State.sourceWrite s m src q v) s := by
  unfold State.sourceWrite; (try dsimp only); (repeat' split) <;> simp
@[simp] theorem State.sourceWrites_quiet (s : State) (l : List CellWrite) : Quiet (State.sourceWrites s l) s := by
  induction l generalizing s with
  | nil => unfold State.sourceWrites; (try dsimp only); (repeat' (split <;> (try (rename_i h; have h2 := congrArg Prod.snd h; dsimp only at h2; clear h; subst h2)))) <;>
    first
    | done
    | (simp_all; done)
    | (rename_i h; have h2 := congrArg Prod.snd h; dsimp only at h2; clear h; subst h2; simp_all; done)
    | (rename_i h _; have h2 := congrArg Prod.snd h; dsimp only at h2; clear h; subst h2; simp_all; done)
    | (rename_i h _ _; have h2 := congrArg Prod.snd h; dsimp only at h2; clear h; subst h2; simp_all; done)
    | skip
  | cons a l ih => unfold State.sourceWrites; (try dsimp only); (repeat' (split <;> (try (rename_i h; have h2 := congrArg Prod.snd h; dsimp only at h2; clear h; subst h2)))) <;>
    first
    | done
    | (simp_all; done)
    | (rename_i h; have h2 := congrArg Prod.snd h; dsimp only at h2; clear h; subst h2; simp_all; done)
    | (rename_i h _; have h2 := congrArg Prod.snd h; dsimp only at h2; clear h; subst h2; simp_all; done)
    | (rename_i h _ _; have h2 := congrArg Prod.snd h; dsimp only at h2; clear h; subst h2; simp_all; done)
    | skip
@[simp] theorem State.bumpGens_quiet (s : State) (l : List Nat) : Quiet (State.bumpGens s l) s := by
  induction l generalizing s with
  | nil => unfold State.bumpGens; (try dsimp only); (repeat' (split <;> (try (rename_i h; have h2 := congrArg Prod.snd h; dsimp only at h2; clear h; subst h2)))) <;>
    first
    | done
    | (simp_all; done)
    | (rename_i h; have h2 := congrArg Prod.snd h; dsimp only at h2; clear h; subst h2; simp_all; done)
    | (rename_i h _; have h2 := congrArg Prod.snd h; dsimp only at h2; clear h; subst h2; simp_all; done)
    | (rename_i h _ _; have h2 := congrArg Prod.snd h; dsimp only at h2; clear h; subst h2; simp_all; done)
    | skip
  | cons a l ih => unfold State.bumpGens; (try dsimp only); (repeat' (split <;> (try (rename_i h; have h2 := congrArg Prod.snd h; dsimp only at h2; clear h; subst h2)))) <;>
    first
    | done
    | (simp_all; done)
    | (rename_i h; have h2 := congrArg Prod.snd h; dsimp only at h2; clear h; subst h2; simp_all; done)
    | (rename_i h _; have h2 := congrArg Prod.snd h; dsimp only at h2; clear h; subst h2; simp_all; done)
    | (rename_i h _ _; have h2 := congrArg Prod.snd h; dsimp only at h2; clear h; subst h2; simp_all; done)
    | skip
@[simp] theorem State.batch_quiet (s : State) (l : List CellWrite) : Quiet (State.batch s l) s := by
  simp [State.batch]
@[simp] theorem State.oneBatch_quiet (s : State) (m : Nat) (d : Desc) (c : Cell) : Quiet (State.oneBatch s m d c) s := by
  simp [State.oneBatch]
@[simp] theorem State.markBad_quiet (s : State) (m : Nat) : Quiet (State.markBad s m) s := by
  unfold State.markBad; (try dsimp only); (repeat' split) <;> simp
@[simp] theorem State.refuseWrite_quiet (s : State) (m : Nat) : Quiet (State.refuseWrite s m) s := by
  simp [State.refuseWrite]
@[simp] theorem State.placeForce_quiet (s : State) (m : Nat) (v : V24) : Quiet (State.placeForce s m v) s := by
  unfold State.placeForce; (try dsimp only); (repeat' split) <;> simp
@[simp] theorem State.force_quiet (s : State) (t : Tenant) (m : Nat) (v : V24) : Quiet (State.force s t m v) s := by
  unfold State.force; (try dsimp only); (repeat' split) <;> simp
@[simp] theorem State.release_quiet (s : State) (m : Nat) : Quiet (State.release s m) s := by
  unfold State.release; (try dsimp only); (repeat' split) <;> simp
theorem execStaleCheck_quiet (m : Mpn) (s : State) (z : State) (hz : execStaleCheck m s = .next z) : Quiet z s := by
  revert hz; unfold execStaleCheck; (try dsimp only); (repeat' split) <;> (simp only [done_eq]; rintro rfl; simp)
theorem execTrendPeriodic_quiet (series : BitVec 19) (s : State) (z : State) (hz : execTrendPeriodic series s = .next z) : Quiet z s := by
  revert hz; unfold execTrendPeriodic; (try dsimp only); (repeat' split) <;> (simp only [done_eq]; rintro rfl; simp)
@[simp] theorem State.finish_quiet (s : State) (r : Req) (res : Result) : Quiet (State.finish s r res) s := by
  simp [State.finish]
@[simp] theorem State.finish?_quiet (s : State) (r : Option Req) (res : Result) : Quiet (State.finish? s r res) s := by
  unfold State.finish?; (try dsimp only); (repeat' split) <;> simp
@[simp] theorem State.finishAll_quiet (s : State) (res : Result) (l : List Req) : Quiet (State.finishAll s res l) s := by
  induction l generalizing s with
  | nil => unfold State.finishAll; (try dsimp only); (repeat' (split <;> (try (rename_i h; have h2 := congrArg Prod.snd h; dsimp only at h2; clear h; subst h2)))) <;>
    first
    | done
    | (simp_all; done)
    | (rename_i h; have h2 := congrArg Prod.snd h; dsimp only at h2; clear h; subst h2; simp_all; done)
    | (rename_i h _; have h2 := congrArg Prod.snd h; dsimp only at h2; clear h; subst h2; simp_all; done)
    | (rename_i h _ _; have h2 := congrArg Prod.snd h; dsimp only at h2; clear h; subst h2; simp_all; done)
    | skip
  | cons a l ih => unfold State.finishAll; (try dsimp only); (repeat' (split <;> (try (rename_i h; have h2 := congrArg Prod.snd h; dsimp only at h2; clear h; subst h2)))) <;>
    first
    | done
    | (simp_all; done)
    | (rename_i h; have h2 := congrArg Prod.snd h; dsimp only at h2; clear h; subst h2; simp_all; done)
    | (rename_i h _; have h2 := congrArg Prod.snd h; dsimp only at h2; clear h; subst h2; simp_all; done)
    | (rename_i h _ _; have h2 := congrArg Prod.snd h; dsimp only at h2; clear h; subst h2; simp_all; done)
    | skip

end Sys2Proof.Machine
end

