-- ==== Sys2Proof/Laws/OutBranch.lean ====
section
/-! SUPPORT. Branch lines and doors: what a command of these families leaves unchanged. -/
namespace Sys2Proof.Machine

/-- Every other kind of state is as before. -/
@[simp] abbrev OutBranch (t s : State) : Prop := t.pending = s.pending ∧ t.member = s.member ∧ t.tick = s.tick ∧ t.tickHi = s.tickHi ∧ t.links = s.links ∧ t.cfg = s.cfg ∧ t.trk = s.trk ∧ t.logic = s.logic ∧ t.cores = s.cores ∧ t.loopDies = s.loopDies ∧ t.loops = s.loops ∧ t.fio = s.fio ∧ t.mtr = s.mtr ∧ t.mem = s.mem ∧ t.owners = s.owners ∧ t.dmas = s.dmas ∧ t.time = s.time ∧ t.su = s.su
theorem OutBranch.trans {a b c : State} (h : OutBranch a b) (g : OutBranch b c) : OutBranch a c := by
  simp_all only [OutBranch, and_self]
@[simp] theorem foldl_br {α : Type} (f : State → α → State) (l : List α) (s : State) (h : ∀ s x, OutBranch (f s x) s) :
    OutBranch (l.foldl f s) s := by
  induction l generalizing s with
  | nil => simp only [List.foldl_nil, OutBranch, and_self]
  | cons a l ih => exact OutBranch.trans (ih (f s a)) (h s a)
@[simp] theorem settle_br (s t : State) : OutBranch (settle s t) t := by
  simp only [OutBranch, settle_pending, settle_member, settle_tick, settle_tickHi, settle_links, settle_cfg, settle_trk, settle_logic, settle_cores, settle_loopDies, settle_loops, settle_fio, settle_mtr, settle_mem, settle_owners, settle_dmas, settle_time, settle_su, and_self]
theorem settle_br' (s t u : State) : OutBranch (settle s t) u = OutBranch t u := by
  simp only [OutBranch, settle_pending, settle_member, settle_tick, settle_tickHi, settle_links, settle_cfg, settle_trk, settle_logic, settle_cores, settle_loopDies, settle_loops, settle_fio, settle_mtr, settle_mem, settle_owners, settle_dmas, settle_time, settle_su]
@[simp] theorem State.integFail_br (s : State) (line : Nat) : OutBranch (State.integFail s line) s := by
  unfold State.integFail; (try dsimp only); (repeat' split) <;> simp
@[simp] theorem State.xlateFault_br (s : State) (d ctx cause : Nat) (write pin : Bool) (inst va : Nat) : OutBranch (State.xlateFault s d ctx cause write pin inst va) s := by
  unfold State.xlateFault; (try dsimp only); (repeat' split) <;> simp
@[simp] theorem State.engFault_br (s : State) (d cls inst : Nat) (write : Bool) (e : EngFault) :
    OutBranch (s.engFault d cls inst write e) s := by
  unfold State.engFault; split
  · simp
  · split <;> simp
@[simp] theorem State.setDoor_br (s : State) (d : Nat) (x : Door) : OutBranch (State.setDoor s d x) s := by
  simp [State.setDoor]
@[simp] theorem State.takeAcc_br (s : State) (kind n v : Nat) : OutBranch (State.takeAcc s kind n v) s := by
  simp [State.takeAcc]
@[simp] theorem State.showAcc_br (s : State) (kind n v : Nat) (bad : Bool) : OutBranch (State.showAcc s kind n v bad) s := by
  unfold State.showAcc; split <;> simp
@[simp] theorem State.showDoor_br (s : State) (c : DoorCfg) : OutBranch (State.showDoor s c) s := by
  simp [State.showDoor]
@[simp] theorem State.showStation_br (s : State) (c : StationCfg) : OutBranch (State.showStation s c) s := by
  simp [State.showStation]
@[simp] theorem State.showNode_br (s : State) (p a : Nat) : OutBranch (State.showNode s p a) s := by
  simp [State.showNode]
@[simp] theorem State.showPort_br (s : State) (p : Nat) : OutBranch (State.showPort s p) s := by
  simp [State.showPort]
@[simp] theorem State.stepDoor_br (s : State) (c : DoorCfg) (x : Door) : OutBranch (State.stepDoor s c x) s := by
  unfold State.stepDoor; (try dsimp only); (repeat' split) <;> simp
@[simp] theorem State.queueFrame_br (s : State) (p : Nat) (dst : Byte) (pl : Payload) : OutBranch (State.queueFrame s p dst pl) s := by
  simp [State.queueFrame]
@[simp] theorem State.brCtrl_br (s : State) (p : Nat) (en mode : Bool) : OutBranch (State.brCtrl s p en mode) s := by
  simp [State.brCtrl]
@[simp] theorem State.takeOutputs_br (s : State) (p : Nat) : OutBranch (State.takeOutputs s p).2 s := by
  simp [State.takeOutputs]
@[simp] theorem State.takeSwap_br (s : State) (p : Nat) : OutBranch (State.takeSwap s p) s := by
  unfold State.takeSwap; (try dsimp only); (repeat' split) <;> simp
@[simp] theorem State.cycleStart_br (s : State) (p : Nat) (dormNext : Option Nat) (buffered : Bool) : OutBranch (State.cycleStart s p dormNext buffered) s := by
  unfold State.cycleStart; (try dsimp only); (repeat' split) <;> simp
@[simp] theorem State.putBads_br (s : State) (l : List Nat) : OutBranch (s.putBads l) s := by
  induction l generalizing s with
  | nil => simp [State.putBads]
  | cons m l ih => unfold State.putBads; exact OutBranch.trans (ih _) (by simp)
@[simp] theorem State.markBads_br (s : State) (l : List Nat) : OutBranch (s.markBads l) s := by
  unfold State.markBads; simp
@[simp] theorem State.modNode_br (s : State) (p a : Nat) (f : CtlNode → CtlNode) : OutBranch (State.modNode s p a f) s := by
  simp [State.modNode]
@[simp] theorem State.brEvent_br (s : State) (p code : Nat) (data : List Word) : OutBranch (State.brEvent s p code data) s := by
  simp [State.brEvent]
@[simp] theorem State.markMissing_br (s : State) (p a : Nat) : OutBranch (State.markMissing s p a) s := by
  simp [State.markMissing]
@[simp] theorem State.markLost_br (s : State) (p a : Nat) : OutBranch (State.markLost s p a) s := by
  simp [State.markLost]
@[simp] theorem State.markPresent_br (s : State) (p a : Nat) : OutBranch (State.markPresent s p a) s := by
  unfold State.markPresent; (try dsimp only); (repeat' split) <;> simp
@[simp] theorem State.sendAssign_br (s : State) (p : Nat) (dst : Byte) (uid : Uid) (plan : Plan) : OutBranch (State.sendAssign s p dst uid plan) s := by
  simp [State.sendAssign]
@[simp] theorem State.sendClaim_br (s : State) (p : Nat) (nslot : Byte) (slotbt : Nat) : OutBranch (State.sendClaim s p nslot slotbt) s := by
  simp [State.sendClaim]
@[simp] theorem State.resendOutputs_br (s : State) (p a : Nat) : OutBranch (State.resendOutputs s p a) s := by
  unfold State.resendOutputs; (try dsimp only); (repeat' split) <;> simp
@[simp] theorem State.judge_br (s : State) (p : Nat) (l : List Nat) : OutBranch (State.judge s p l) s := by
  induction l generalizing s with
  | nil => simp [State.judge]
  | cons a l ih =>
    unfold State.judge; dsimp only
    refine OutBranch.trans (ih _) ?_
    (repeat' split) <;> simp
@[simp] theorem State.judgeSubset_br (s : State) (p : Nat) : OutBranch (State.judgeSubset s p) s := by
  simp [State.judgeSubset]
theorem execGclEntryBoundary_br (p : Port) (s : State) (z : State) (hz : execGclEntryBoundary p s = .next z) : OutBranch z s := by
  revert hz; unfold execGclEntryBoundary; (try dsimp only); (repeat' split) <;> (simp only [done_eq]; rintro rfl; simp)
theorem execBranchTxStart_br (p : Port) (room at_ buf : Nat) (s : State) (z : State) (hz : execBranchTxStart p room at_ buf s = .next z) : OutBranch z s := by
  obtain rfl := (done_eq _ _ _).1 hz; simp
theorem execBranchTxEnd_br (p : Port) (s : State) (z : State) (hz : execBranchTxEnd p s = .next z) : OutBranch z s := by
  revert hz; unfold execBranchTxEnd; (try dsimp only); (repeat' split) <;> (simp only [done_eq]; rintro rfl; simp)
@[simp] theorem State.modLeaf_br (s : State) (u : Uid) (f : Node → Node) : OutBranch (State.modLeaf s u f) s := by
  unfold State.modLeaf; (try dsimp only); (repeat' split) <;> simp
@[simp] theorem State.brCollide_br (s : State) (p bt : Nat) : OutBranch (State.brCollide s p bt) s := by
  unfold State.brCollide; (try dsimp only); (repeat' split) <;> simp
theorem execCollisionDetect_br (p : Port) (by_ : Option Uid) (bt : Nat) (s : State) (z : State) (hz : execCollisionDetect p by_ bt s = .next z) : OutBranch z s := by
  revert hz; unfold execCollisionDetect; try dsimp only
  repeat' split
  all_goals (simp only [done_eq]; rintro rfl)
  repeat' (split <;> (try (rename_i h; have h2 := congrArg Prod.snd h; dsimp only at h2; clear h; subst h2)))
  all_goals first
    | done
    | (simp_all; done)
    | (apply foldl_br; intro s x; (repeat' split) <;> simp_all; done)
    | (rename_i h; have h2 := congrArg Prod.snd h; dsimp only at h2; clear h; subst h2; simp_all; done)
    | (rename_i h; have h2 := congrArg Prod.snd h; dsimp only at h2; clear h; subst h2; simp; done)
    | (rename_i h _; have h2 := congrArg Prod.snd h; dsimp only at h2; clear h; subst h2; simp_all; done)
    | skip
theorem execBackoffExpiry_br (p : Port) (by_ : Option Uid) (room at_ buf : Nat) (s : State) (z : State) (hz : execBackoffExpiry p by_ room at_ buf s = .next z) : OutBranch z s := by
  revert hz; unfold execBackoffExpiry; (try dsimp only); (repeat' split) <;> (simp only [done_eq]; rintro rfl; simp)
theorem execScheduledOverAmplitude_br (p : Port) (addr : Byte) (s : State) (z : State) (hz : execScheduledOverAmplitude p addr s = .next z) : OutBranch z s := by
  revert hz; unfold execScheduledOverAmplitude; (try dsimp only); (repeat' split) <;> (simp only [done_eq]; rintro rfl; simp)
theorem execBranchTxUnderrun_br (p : Port) (why : TxFail) (s : State) (z : State)
    (hz : execBranchTxUnderrun p why s = .next z) : OutBranch z s := by
  revert hz; unfold execBranchTxUnderrun; dsimp only
  repeat' split
  all_goals (simp only [done_eq]; rintro rfl; rw [settle_br'])
  all_goals first
    | (exact OutBranch.trans (State.engFault_br _ _ _ _ _ _) (by simp))
    | simp
theorem execBranchRxBadFrame_br (p : Port) (why : RxFail) (s : State) (z : State) (hz : execBranchRxBadFrame p why s = .next z) : OutBranch z s := by
  revert hz; unfold execBranchRxBadFrame; try dsimp only
  repeat' split
  all_goals (simp only [done_eq]; rintro rfl)
  repeat' (split <;> (try (rename_i h; have h2 := congrArg Prod.snd h; dsimp only at h2; clear h; subst h2)))
  all_goals first
    | done
    | (simp_all; done)
    | (apply foldl_br; intro s x; (repeat' split) <;> simp_all; done)
    | (rename_i h; have h2 := congrArg Prod.snd h; dsimp only at h2; clear h; subst h2; simp_all; done)
    | (rename_i h; have h2 := congrArg Prod.snd h; dsimp only at h2; clear h; subst h2; simp; done)
    | (rename_i h _; have h2 := congrArg Prod.snd h; dsimp only at h2; clear h; subst h2; simp_all; done)
    | skip
@[simp] theorem State.nodeValues_br (s : State) (p a ch : Nat) (l : List ChanVal) : OutBranch (State.nodeValues s p a ch l) s := by
  simp [State.nodeValues]
theorem execBranchRxReport_br (p : Port) (addr : Byte) (first : Nat) (vals : List ChanVal) (s : State) (z : State) (hz : execBranchRxReport p addr first vals s = .next z) : OutBranch z s := by
  revert hz; unfold execBranchRxReport; (try dsimp only); (repeat' split) <;> (simp only [done_eq]; rintro rfl; simp)
@[simp] theorem State.sentEvent_br (s : State) (p : Nat) (addr seq ch : Byte) (v : ChanVal) :
    OutBranch (State.sentEvent s p addr seq ch v) s := by
  simp [State.sentEvent]
theorem execBranchRxEvent_br (p : Port) (addr seq ch : Byte) (v : ChanVal) (s : State) (z : State) (hz : execBranchRxEvent p addr seq ch v s = .next z) : OutBranch z s := by
  revert hz; unfold execBranchRxEvent; (try dsimp only); (repeat' split) <;> (simp only [done_eq]; rintro rfl; simp)
@[simp] theorem State.response_br (s : State) (p a : Nat) (seq op status : Byte) (data : List Byte) : OutBranch (State.response s p a seq op status data) s := by
  unfold State.response; (try dsimp only); (repeat' split) <;> simp
theorem execBranchRxResponse_br (p : Port) (addr seq op status : Byte) (data : List Byte) (s : State) (z : State) (hz : execBranchRxResponse p addr seq op status data s = .next z) : OutBranch z s := by
  revert hz; unfold execBranchRxResponse; (try dsimp only); (repeat' split) <;> (simp only [done_eq]; rintro rfl; simp)
theorem execBranchRxClaim_br (p : Port) (uid : Uid) (cls : Byte) (chmap : List Byte) (s : State) (z : State) (hz : execBranchRxClaim p uid cls chmap s = .next z) : OutBranch z s := by
  revert hz; unfold execBranchRxClaim; (try dsimp only); (repeat' split) <;> (simp only [done_eq]; rintro rfl; simp)
@[simp] theorem State.clearAddr_br (s : State) (p : Nat) (addr : Byte) (uid : Uid) : OutBranch (State.clearAddr s p addr uid) s := by
  simp [State.clearAddr]
theorem execBranchRxRollcall_br (p : Port) (addr : Byte) (uid : Uid) (_cls : Byte) (stat : BitVec 3) (s : State) (z : State) (hz : execBranchRxRollcall p addr uid _cls stat s = .next z) : OutBranch z s := by
  revert hz; unfold execBranchRxRollcall; (try dsimp only); (repeat' split) <;> (simp only [done_eq]; rintro rfl; simp)
theorem execSlotEnd_br (p : Port) (addr : Byte) (s : State) (z : State) (hz : execSlotEnd p addr s = .next z) : OutBranch z s := by
  revert hz; unfold execSlotEnd; (try dsimp only); (repeat' split) <;> (simp only [done_eq]; rintro rfl; simp)
theorem execNodeLostTimeout_br (p : Port) (addr : Byte) (s : State) (z : State) (hz : execNodeLostTimeout p addr s = .next z) : OutBranch z s := by
  revert hz; unfold execNodeLostTimeout; (try dsimp only); (repeat' split) <;> (simp only [done_eq]; rintro rfl; simp)
theorem execAssignRetryTimeout_br (p : Port) (addr : Byte) (s : State) (z : State) (hz : execAssignRetryTimeout p addr s = .next z) : OutBranch z s := by
  revert hz; unfold execAssignRetryTimeout; (try dsimp only); (repeat' split) <;> (simp only [done_eq]; rintro rfl; simp)
theorem execNodeCommandTimeout_br (p : Port) (addr : Byte) (s : State) (z : State) (hz : execNodeCommandTimeout p addr s = .next z) : OutBranch z s := by
  revert hz; unfold execNodeCommandTimeout; (try dsimp only); (repeat' split) <;> (simp only [done_eq]; rintro rfl; simp)
theorem execClaimBroadcastTimer_br (p : Port) (s : State) (z : State) (hz : execClaimBroadcastTimer p s = .next z) : OutBranch z s := by
  revert hz; unfold execClaimBroadcastTimer; (try dsimp only); (repeat' split) <;> (simp only [done_eq]; rintro rfl; simp)
theorem execDormancyEntry_br (p : Port) (s : State) (z : State) (hz : execDormancyEntry p s = .next z) : OutBranch z s := by
  revert hz; unfold execDormancyEntry; (try dsimp only); (repeat' split) <;> (simp only [done_eq]; rintro rfl; simp)
theorem execDormantBeacon_br (p : Port) (s : State) (z : State) (hz : execDormantBeacon p s = .next z) : OutBranch z s := by
  revert hz; unfold execDormantBeacon; (try dsimp only); (repeat' split) <;> (simp only [done_eq]; rintro rfl; simp)
theorem execWakeTrainStart_br (p : Port) (s : State) (z : State) (hz : execWakeTrainStart p s = .next z) : OutBranch z s := by
  revert hz; unfold execWakeTrainStart; (try dsimp only); (repeat' split) <;> (simp only [done_eq]; rintro rfl; simp)
theorem execWakePulse_br (p : Port) (s : State) (z : State) (hz : execWakePulse p s = .next z) : OutBranch z s := by
  revert hz; unfold execWakePulse; (try dsimp only); (repeat' split) <;> (simp only [done_eq]; rintro rfl; simp)
theorem execDormancyEnd_br (p : Port) (s : State) (z : State) (hz : execDormancyEnd p s = .next z) : OutBranch z s := by
  revert hz; unfold execDormancyEnd; (try dsimp only); (repeat' split) <;> (simp only [done_eq]; rintro rfl; simp)
theorem execNodePowerUp_br (p : Port) (uid : Uid) (cls : Byte) (chmap : List Byte) (factory fault : Bool) (key : Option (BitVec 256)) (timer : Nat) (s : State) (z : State) (hz : execNodePowerUp p uid cls chmap factory fault key timer s = .next z) : OutBranch z s := by
  obtain rfl := (done_eq _ _ _).1 hz; simp
theorem execNodeClaimBroadcastRx_br (uid : Uid) (nslot : Byte) (slotbt : Nat) (claimOpen : Bool) (timer : Nat) (s : State) (z : State) (hz : execNodeClaimBroadcastRx uid nslot slotbt claimOpen timer s = .next z) : OutBranch z s := by
  revert hz; unfold execNodeClaimBroadcastRx; try dsimp only
  repeat' split
  all_goals (simp only [done_eq]; rintro rfl)
  repeat' (split <;> (try (rename_i h; have h2 := congrArg Prod.snd h; dsimp only at h2; clear h; subst h2)))
  all_goals first
    | done
    | (simp_all; done)
    | (apply foldl_br; intro s x; (repeat' split) <;> simp_all; done)
    | (rename_i h; have h2 := congrArg Prod.snd h; dsimp only at h2; clear h; subst h2; simp_all; done)
    | (rename_i h; have h2 := congrArg Prod.snd h; dsimp only at h2; clear h; subst h2; simp; done)
    | (rename_i h _; have h2 := congrArg Prod.snd h; dsimp only at h2; clear h; subst h2; simp_all; done)
    | skip
theorem execNodeClaimSlot_br (uid : Uid) (timer : Nat) (s : State) (z : State) (hz : execNodeClaimSlot uid timer s = .next z) : OutBranch z s := by
  obtain rfl := (done_eq _ _ _).1 hz; simp
theorem execNodeAssignRx_br (uid : Uid) (dst : Byte) (target : Uid) (plan : Plan) (timer : Nat) (s : State) (z : State) (hz : execNodeAssignRx uid dst target plan timer s = .next z) : OutBranch z s := by
  obtain rfl := (done_eq _ _ _).1 hz; simp
theorem execNodeBeaconRx_br (uid : Uid) (b : Beacon) (timer : Nat) (s : State) (z : State) (hz : execNodeBeaconRx uid b timer s = .next z) : OutBranch z s := by
  obtain rfl := (done_eq _ _ _).1 hz; simp
theorem execNodeSlotStart_br (uid : Uid) (first : Nat) (vals : List ChanVal) (s : State) (z : State) (hz : execNodeSlotStart uid first vals s = .next z) : OutBranch z s := by
  obtain rfl := (done_eq _ _ _).1 hz; simp
theorem execNodeOutputRx_br (uid : Uid) (dst : Byte) (first : Nat) (vals : List V24) (s : State) (z : State) (hz : execNodeOutputRx uid dst first vals s = .next z) : OutBranch z s := by
  obtain rfl := (done_eq _ _ _).1 hz; simp
theorem execNodeFallbackTimeout_br (uid : Uid) (timer : Nat) (s : State) (z : State) (hz : execNodeFallbackTimeout uid timer s = .next z) : OutBranch z s := by
  obtain rfl := (done_eq _ _ _).1 hz; simp
theorem execNodeWindowOpen_br (uid : Uid) (timer : Nat) (s : State) (z : State) (hz : execNodeWindowOpen uid timer s = .next z) : OutBranch z s := by
  obtain rfl := (done_eq _ _ _).1 hz; simp
theorem execNodeWindowClose_br (uid : Uid) (timer : Nat) (s : State) (z : State) (hz : execNodeWindowClose uid timer s = .next z) : OutBranch z s := by
  obtain rfl := (done_eq _ _ _).1 hz; simp
theorem execNodeSeekTimeout_br (uid : Uid) (timer : Nat) (s : State) (z : State) (hz : execNodeSeekTimeout uid timer s = .next z) : OutBranch z s := by
  obtain rfl := (done_eq _ _ _).1 hz; simp
theorem execNodeSniff_br (uid : Uid) (carrier : Bool) (timer : Nat) (s : State) (z : State) (hz : execNodeSniff uid carrier timer s = .next z) : OutBranch z s := by
  obtain rfl := (done_eq _ _ _).1 hz; simp
theorem execNodeWakeCondition_br (uid : Uid) (ch : BitVec 6) (timer : Nat) (s : State) (z : State) (hz : execNodeWakeCondition uid ch timer s = .next z) : OutBranch z s := by
  obtain rfl := (done_eq _ _ _).1 hz; simp
@[simp] theorem State.nodeCommand_br (s : State) (uid : Uid) (dst seq op : Byte) (act : Node → Node × Byte × List Byte) : OutBranch (State.nodeCommand s uid dst seq op act) s := by
  simp [State.nodeCommand]
theorem execReadInfo_br (uid : Uid) (dst seq : Byte) (s : State) (z : State) (hz : execReadInfo uid dst seq s = .next z) : OutBranch z s := by
  obtain rfl := (done_eq _ _ _).1 hz; simp
theorem execSetFallback_br (uid : Uid) (dst seq : Byte) (fbt : Nat) (entries : List (Nat × V24)) (s : State) (z : State) (hz : execSetFallback uid dst seq fbt entries s = .next z) : OutBranch z s := by
  obtain rfl := (done_eq _ _ _).1 hz; simp
theorem execIdentify_br (uid : Uid) (dst seq : Byte) (seconds : Byte) (s : State) (z : State) (hz : execIdentify uid dst seq seconds s = .next z) : OutBranch z s := by
  obtain rfl := (done_eq _ _ _).1 hz; simp
theorem execSetWake_br (uid : Uid) (dst seq : Byte) (mask : BitVec 64) (s : State) (z : State) (hz : execSetWake uid dst seq mask s = .next z) : OutBranch z s := by
  obtain rfl := (done_eq _ _ _).1 hz; simp
theorem execForget_br (uid : Uid) (dst seq : Byte) (target : Uid) (s : State) (z : State) (hz : execForget uid dst seq target s = .next z) : OutBranch z s := by
  obtain rfl := (done_eq _ _ _).1 hz; simp
theorem execSetRamp_br (uid : Uid) (dst seq : Byte) (ramp : Nat) (s : State) (z : State) (hz : execSetRamp uid dst seq ramp s = .next z) : OutBranch z s := by
  obtain rfl := (done_eq _ _ _).1 hz; simp

end Sys2Proof.Machine
end

