-- ==== Sys2Proof/Laws/OutClock.lean ====
section
/-! SUPPORT. Time and modes: what these commands leave unchanged. -/
namespace Sys2Proof.Machine

/-- Every other kind of state is as before. -/
@[simp] abbrev OutClock (t s : State) : Prop := t.pending = s.pending ∧ t.member = s.member ∧ t.tick = s.tick ∧ t.tickHi = s.tickHi ∧ t.links = s.links ∧ t.cfg = s.cfg ∧ t.ports = s.ports ∧ t.nodes = s.nodes ∧ t.logic = s.logic ∧ t.cores = s.cores ∧ t.loopDies = s.loopDies ∧ t.loops = s.loops ∧ t.fio = s.fio ∧ t.mtr = s.mtr ∧ t.mem = s.mem ∧ t.tags = s.tags ∧ t.owners = s.owners ∧ t.atus = s.atus ∧ t.dmas = s.dmas ∧ t.su = s.su
theorem OutClock.trans {a b c : State} (h : OutClock a b) (g : OutClock b c) : OutClock a c := by
  simp_all only [OutClock, and_self]
@[simp] theorem foldl_clk {α : Type} (f : State → α → State) (l : List α) (s : State) (h : ∀ s x, OutClock (f s x) s) :
    OutClock (l.foldl f s) s := by
  induction l generalizing s with
  | nil => simp only [List.foldl_nil, OutClock, and_self]
  | cons a l ih => exact OutClock.trans (ih (f s a)) (h s a)
@[simp] theorem settle_clk (s t : State) : OutClock (settle s t) t := by
  simp only [OutClock, settle_pending, settle_member, settle_tick, settle_tickHi, settle_links, settle_cfg, settle_ports, settle_nodes, settle_logic, settle_cores, settle_loopDies, settle_loops, settle_fio, settle_mtr, settle_mem, settle_tags, settle_owners, settle_atus, settle_dmas, settle_su, and_self]
theorem settle_clk' (s t u : State) : OutClock (settle s t) u = OutClock t u := by
  simp only [OutClock, settle_pending, settle_member, settle_tick, settle_tickHi, settle_links, settle_cfg, settle_ports, settle_nodes, settle_logic, settle_cores, settle_loopDies, settle_loops, settle_fio, settle_mtr, settle_mem, settle_tags, settle_owners, settle_atus, settle_dmas, settle_su]
@[simp] theorem State.putRtc_clk (s : State) (c : Calendar) : OutClock (State.putRtc s c) s := by
  simp [State.putRtc]
@[simp] theorem State.writeRtc_clk (s : State) (ms : Nat) : OutClock (State.writeRtc s ms) s := by
  simp [State.writeRtc]
@[simp] theorem State.setUtcAt_clk (s : State) (src : TimeSource) (ms : Nat) (at_ : Int) : OutClock (State.setUtcAt s src ms at_) s := by
  unfold State.setUtcAt; (try dsimp only); (repeat' split) <;> simp
@[simp] theorem State.setUtc_clk (s : State) (src : TimeSource) (ms : Nat) : OutClock (State.setUtc s src ms) s := by
  simp [State.setUtc]
@[simp] theorem State.ringUtc_clk (s : State) (u : UtcMap) : OutClock (State.ringUtc s u) s := by
  simp [State.ringUtc]
@[simp] theorem State.ringEnter_clk (s : State) : OutClock (State.ringEnter s) s := by
  unfold State.ringEnter; (try dsimp only); (repeat' split) <;> simp
@[simp] theorem State.hostTime_clk (s : State) (ms : Nat) : OutClock (State.hostTime s ms) s := by
  simp [State.hostTime]
@[simp] theorem State.setOffset_clk (s : State) (o : Int) : OutClock (State.setOffset s o) s := by
  simp [State.setOffset]
@[simp] theorem State.ringMapping_clk (s : State) (u : UtcMap) : OutClock (State.ringMapping s u) s := by
  unfold State.ringMapping; (try dsimp only); (repeat' split) <;> simp
@[simp] theorem State.ringLoss_clk (s : State) : OutClock (State.ringLoss s) s := by
  unfold State.ringLoss; (try dsimp only); (repeat' split) <;> simp
@[simp] theorem State.timeStart_clk (s : State) : OutClock (State.timeStart s) s := by
  unfold State.timeStart; (try dsimp only); (repeat' split) <;> simp
@[simp] theorem State.rtcCommit_clk (s : State) : OutClock (State.rtcCommit s) s := by
  unfold State.rtcCommit; (try dsimp only); (repeat' split) <;> simp
@[simp] theorem State.rtcFreeze_clk (s : State) : OutClock (State.rtcFreeze s) s := by
  simp [State.rtcFreeze]
theorem execRtcSecond_clk (s : State) (z : State) (hz : execRtcSecond s = .next z) : OutClock z s := by
  revert hz; unfold execRtcSecond; (try dsimp only); (repeat' split) <;> (simp only [done_eq]; rintro rfl; simp)
theorem execRtcFreezeTimeout_clk (s : State) (z : State) (hz : execRtcFreezeTimeout s = .next z) : OutClock z s := by
  revert hz; unfold execRtcFreezeTimeout; (try dsimp only); (repeat' split) <;> (simp only [done_eq]; rintro rfl; simp)
theorem execRtcCommitDone_clk (s : State) (z : State) (hz : execRtcCommitDone s = .next z) : OutClock z s := by
  revert hz; unfold execRtcCommitDone; (try dsimp only); (repeat' split) <;> (simp only [done_eq]; rintro rfl; simp)
theorem execRtcTrimWindow_clk (s : State) (z : State) (hz : execRtcTrimWindow s = .next z) : OutClock z s := by
  obtain rfl := (done_eq _ _ _).1 hz; simp
theorem execRtcAtrimMeasure_clk (s : State) (z : State) (hz : execRtcAtrimMeasure s = .next z) : OutClock z s := by
  revert hz; unfold execRtcAtrimMeasure; (try dsimp only); (repeat' split) <;> (simp only [done_eq]; rintro rfl; simp)
theorem execRtcSyncCheck_clk (s : State) (z : State) (hz : execRtcSyncCheck s = .next z) : OutClock z s := by
  revert hz; unfold execRtcSyncCheck; (try dsimp only); (repeat' split) <;> (simp only [done_eq]; rintro rfl; simp)
theorem execRingTimeLoss_clk (s : State) (z : State) (hz : execRingTimeLoss s = .next z) : OutClock z s := by
  revert hz; unfold execRingTimeLoss; (try dsimp only); (repeat' split) <;> (simp only [done_eq]; rintro rfl; simp)
theorem execVbatLowDetect_clk (s : State) (z : State) (hz : execVbatLowDetect s = .next z) : OutClock z s := by
  revert hz; unfold execVbatLowDetect; (try dsimp only); (repeat' split) <;> (simp only [done_eq]; rintro rfl; simp)
theorem execVbatRestored_clk (s : State) (z : State) (hz : execVbatRestored s = .next z) : OutClock z s := by
  revert hz; unfold execVbatRestored; (try dsimp only); (repeat' split) <;> (simp only [done_eq]; rintro rfl; simp)

end Sys2Proof.Machine
end

