-- ==== Sys2Proof/Laws/OutTrunk.lean ====
section
/-! SUPPORT. The trunk: what these commands leave unchanged. -/
namespace Sys2Proof.Machine

/-- Every other kind of state is as before. -/
@[simp] abbrev OutTrunk (t s : State) : Prop := t.pending = s.pending ∧ t.member = s.member ∧ t.tick = s.tick ∧ t.tickHi = s.tickHi ∧ t.links = s.links ∧ t.cfg = s.cfg ∧ t.ports = s.ports ∧ t.nodes = s.nodes ∧ t.logic = s.logic ∧ t.cores = s.cores ∧ t.loopDies = s.loopDies ∧ t.loops = s.loops ∧ t.fio = s.fio ∧ t.mtr = s.mtr ∧ t.mem = s.mem ∧ t.owners = s.owners ∧ t.dmas = s.dmas ∧ t.su = s.su
theorem OutTrunk.trans {a b c : State} (h : OutTrunk a b) (g : OutTrunk b c) : OutTrunk a c := by
  simp_all only [OutTrunk, and_self]
@[simp] theorem foldl_ring {α : Type} (f : State → α → State) (l : List α) (s : State) (h : ∀ s x, OutTrunk (f s x) s) :
    OutTrunk (l.foldl f s) s := by
  induction l generalizing s with
  | nil => simp only [List.foldl_nil, OutTrunk, and_self]
  | cons a l ih => exact OutTrunk.trans (ih (f s a)) (h s a)
@[simp] theorem settle_ring (s t : State) : OutTrunk (settle s t) t := by
  simp only [OutTrunk, settle_pending, settle_member, settle_tick, settle_tickHi, settle_links, settle_cfg, settle_ports, settle_nodes, settle_logic, settle_cores, settle_loopDies, settle_loops, settle_fio, settle_mtr, settle_mem, settle_owners, settle_dmas, settle_su, and_self]
theorem settle_ring' (s t u : State) : OutTrunk (settle s t) u = OutTrunk t u := by
  simp only [OutTrunk, settle_pending, settle_member, settle_tick, settle_tickHi, settle_links, settle_cfg, settle_ports, settle_nodes, settle_logic, settle_cores, settle_loopDies, settle_loops, settle_fio, settle_mtr, settle_mem, settle_owners, settle_dmas, settle_su]
@[simp] theorem State.integFail_ring (s : State) (line : Nat) : OutTrunk (State.integFail s line) s := by
  unfold State.integFail; (try dsimp only); (repeat' split) <;> simp
@[simp] theorem State.xlateFault_ring (s : State) (d ctx cause : Nat) (write pin : Bool) (inst va : Nat) : OutTrunk (State.xlateFault s d ctx cause write pin inst va) s := by
  unfold State.xlateFault; (try dsimp only); (repeat' split) <;> simp
@[simp] theorem State.engFault_ring (s : State) (d cls inst : Nat) (write : Bool) (e : EngFault) :
    OutTrunk (s.engFault d cls inst write e) s := by
  unfold State.engFault; split
  · simp
  · split <;> simp
@[simp] theorem State.setUtcAt_ring (s : State) (src : TimeSource) (ms : Nat) (at_ : Int) : OutTrunk (State.setUtcAt s src ms at_) s := by
  unfold State.setUtcAt; (try dsimp only); (repeat' split) <;> simp
@[simp] theorem State.setUtc_ring (s : State) (src : TimeSource) (ms : Nat) : OutTrunk (State.setUtc s src ms) s := by
  simp [State.setUtc]
@[simp] theorem State.ringUtc_ring (s : State) (u : UtcMap) : OutTrunk (State.ringUtc s u) s := by
  simp [State.ringUtc]
@[simp] theorem State.ringEnter_ring (s : State) : OutTrunk (State.ringEnter s) s := by
  unfold State.ringEnter; (try dsimp only); (repeat' split) <;> simp
@[simp] theorem State.takeTrkSwap_ring (s : State) (t : TrunkPort) : OutTrunk (State.takeTrkSwap s t) s := by
  unfold State.takeTrkSwap; (try dsimp only); (repeat' split) <;> simp
@[simp] theorem State.sendBy_ring (s : State) (t : TrunkPort) (f : TrkOut) : OutTrunk (State.sendBy s t f) s := by
  unfold State.sendBy; (try dsimp only); (repeat' split) <;> simp
@[simp] theorem State.nextSeq_ring (s : State) (c : Nat) : OutTrunk (State.nextSeq s c).2 s := by
  simp [State.nextSeq]
@[simp] theorem State.sendAll_ring (s : State) (f : TrkOut) : OutTrunk (State.sendAll s f) s := by
  unfold State.sendAll; (try dsimp only); (repeat' split) <;> simp
@[simp] theorem State.trkSend_ring (s : State) (dst : Byte) (cls : Nat) (tenant : Tenant) (len : Nat) (body : List Byte := []) : OutTrunk (State.trkSend s dst cls tenant len body) s := by
  unfold State.trkSend; (try dsimp only); (repeat' split) <;> simp
@[simp] theorem State.sendParts_ring (s : State) (dst : Byte) (cls : Nat) (tenant : Tenant) (n : Nat) (l : List Byte) :
    OutTrunk (s.sendParts dst cls tenant n l) s := by
  induction n generalizing s l with
  | zero => simp [State.sendParts]
  | succ n ih =>
    unfold State.sendParts; dsimp only
    split
    · simp
    · exact OutTrunk.trans (ih _ _) (by simp)
@[simp] theorem State.sendOutbox_ring (s : State) : OutTrunk s.sendOutbox s := by
  unfold State.sendOutbox; extract_lets near
  refine OutTrunk.trans (foldl_ring _ _ _ ?_) (by simp)
  intro s x; split <;> simp
@[simp] theorem State.topoBroadcast_ring (s : State) : OutTrunk (State.topoBroadcast s) s := by
  unfold State.topoBroadcast; (try dsimp only); (repeat' split) <;> simp
@[simp] theorem State.trkEvent_ring (s : State) (t : TrunkPort) (code : Nat) (data : List Word) : OutTrunk (State.trkEvent s t code data) s := by
  simp [State.trkEvent]
@[simp] theorem State.retime_ring (s : State) : OutTrunk (State.retime s) s := by
  simp [State.retime]
@[simp] theorem State.wrap_ring (s : State) (t : TrunkPort) : OutTrunk (State.wrap s t) s := by
  simp [State.wrap]
@[simp] theorem State.linkFault_ring (s : State) (t : TrunkPort) : OutTrunk (State.linkFault s t) s := by
  unfold State.linkFault; (try dsimp only); (repeat' split) <;> simp
@[simp] theorem State.advertiseSelf_ring (s : State) : OutTrunk (State.advertiseSelf s) s := by
  simp [State.advertiseSelf]
@[simp] theorem State.tmChanged_ring (s : State) (old : Byte) : OutTrunk (State.tmChanged s old) s := by
  unfold State.tmChanged; (try dsimp only); (repeat' split) <;> simp
@[simp] theorem State.weighSelf_ring (s : State) : OutTrunk (State.weighSelf s) s := by
  unfold State.weighSelf; (try dsimp only); (repeat' split) <;> simp
@[simp] theorem State.dropMaster_ring (s : State) : OutTrunk (State.dropMaster s) s := by
  unfold State.dropMaster; (try dsimp only); (repeat' split) <;> simp
@[simp] theorem State.advert_ring (s : State) (h : TrkHeader) : OutTrunk (State.advert s h) s := by
  unfold State.advert; (try dsimp only); (repeat' split) <;> simp
@[simp] theorem State.portDown_ring (s : State) (t : TrunkPort) (x : TrkPort) : OutTrunk (State.portDown s t x) s := by
  simp [State.portDown]
@[simp] theorem State.evalPort_ring (s : State) (t : TrunkPort) : OutTrunk (State.evalPort s t) s := by
  unfold State.evalPort; (try dsimp only); (repeat' split) <;> simp
theorem execSuperframeStart_ring (s : State) (z : State) (hz : execSuperframeStart s = .next z) : OutTrunk z s := by
  revert hz; unfold execSuperframeStart; (try dsimp only); (repeat' split) <;> (simp only [done_eq]; rintro rfl; simp)
theorem execFawSighting_ring (t : TrunkPort) (l : Lane) (pos : Nat) (s : State) (z : State) (hz : execFawSighting t l pos s = .next z) : OutTrunk z s := by
  revert hz; unfold execFawSighting; (try dsimp only); (repeat' split) <;> (simp only [done_eq]; rintro rfl; simp)
theorem execFawPosition_missed_ring (t : TrunkPort) (l : Lane) (s : State) (x : TrkPort) (y : LaneSt) (next : Nat) :
    OutTrunk (execFawPosition.missed t l s x y next) s := by
  unfold execFawPosition.missed; dsimp only
  repeat' split
  all_goals simp
theorem execFawPosition_ring (t : TrunkPort) (l : Lane) (pos : Nat) (hdr : Option (Nat × Nat)) (s : State) (z : State)
    (hz : execFawPosition t l pos hdr s = .next z) : OutTrunk z s := by
  revert hz; unfold execFawPosition; dsimp only
  repeat' split
  all_goals (simp only [done_eq]; rintro rfl)
  all_goals first
    | (simp; done)
    | (rw [settle_ring']; exact execFawPosition_missed_ring _ _ _ _ _ _)
theorem execTrunkRxHeader_ring (t : TrunkPort) (h : TrkHeader) (own : Option Int) (s : State) (z : State) (hz : execTrunkRxHeader t h own s = .next z) : OutTrunk z s := by
  revert hz; unfold execTrunkRxHeader; (try dsimp only); (repeat' split) <;> (simp only [done_eq]; rintro rfl; simp)
theorem execTimeMasterTimeout_ring (s : State) (z : State) (hz : execTimeMasterTimeout s = .next z) : OutTrunk z s := by
  revert hz; unfold execTimeMasterTimeout; (try dsimp only); (repeat' split) <;> (simp only [done_eq]; rintro rfl; simp)
@[simp] theorem State.relayFrame_ring (s : State) (t : TrunkPort) (f : TrkFrame) : OutTrunk (State.relayFrame s t f) s := by
  unfold State.relayFrame; (try dsimp only); (repeat' split) <;> simp
@[simp] theorem State.takeFrame_ring (s : State) (t : TrunkPort) (f : TrkFrame) : OutTrunk (State.takeFrame s t f).2 s := by
  unfold State.takeFrame; (try dsimp only); (repeat' split) <;> simp
theorem execTrunkRxFrame_ring (t : TrunkPort) (f : TrkFrame) (crc : PayCrc) (fault : Option EngFault) (full : Bool) (s : State) (z : State) (hz : execTrunkRxFrame t f crc fault full s = .next z) : OutTrunk z s := by
  revert hz; unfold execTrunkRxFrame; try dsimp only
  repeat' split
  all_goals (simp only [done_eq]; rintro rfl)
  repeat' (split <;> (try (rename_i h; have h2 := congrArg Prod.snd h; dsimp only at h2; clear h; subst h2)))
  all_goals first
    | done
    | (simp_all; done)
    | (apply foldl_ring; intro s x; (repeat' split) <;> simp_all; done)
    | (rename_i h; have h2 := congrArg Prod.snd h; dsimp only at h2; clear h; subst h2; simp_all; done)
    | (rename_i h; have h2 := congrArg Prod.snd h; dsimp only at h2; clear h; subst h2; simp; done)
    | (rename_i h _; have h2 := congrArg Prod.snd h; dsimp only at h2; clear h; subst h2; simp_all; done)
    | skip
theorem execTrunkRxBadFrame_ring (t : TrunkPort) (header : Bool) (s : State) (z : State) (hz : execTrunkRxBadFrame t header s = .next z) : OutTrunk z s := by
  revert hz; unfold execTrunkRxBadFrame; (try dsimp only); (repeat' split) <;> (simp only [done_eq]; rintro rfl; simp)
theorem execTrunkRxTopology_ring (t : TrunkPort) (f : TrkFrame) (b : Topology) (s : State) (z : State) (hz : execTrunkRxTopology t f b s = .next z) : OutTrunk z s := by
  revert hz; unfold execTrunkRxTopology; (try dsimp only); (repeat' split) <;> (simp only [done_eq]; rintro rfl; simp)
theorem execTrunkRxUtcMapping_ring (t : TrunkPort) (f : TrkFrame) (m : UtcMap) (s : State) (z : State) (hz : execTrunkRxUtcMapping t f m s = .next z) : OutTrunk z s := by
  revert hz; unfold execTrunkRxUtcMapping; (try dsimp only); (repeat' split) <;> (simp only [done_eq]; rintro rfl; simp)
theorem execTrunkRxReplicaBlock_ring (t : TrunkPort) (f : TrkFrame) (seg blk : Nat) (data : List Byte) (s z : State)
    (hz : execTrunkRxReplicaBlock t f seg blk data s = .next z) : OutTrunk z s := by
  revert hz; unfold execTrunkRxReplicaBlock; dsimp only
  repeat' split
  all_goals (simp only [done_eq]; rintro rfl; rw [settle_ring'])
  · cases hb : ((s.takeFrame t f).2.writeBlock f.tenant 1 f.src { t0 := s.now, source := 0#2, pcc := 0#24, replica := data }) with
    | none => simp_all
    | some u => have k := State.writeBlock_quiet _ _ _ _ _ _ hb; simp_all
  all_goals simp
theorem execUnwrap_ring (t : TrunkPort) (s : State) (z : State) (hz : execUnwrap t s = .next z) : OutTrunk z s := by
  revert hz; unfold execUnwrap; (try dsimp only); (repeat' split) <;> (simp only [done_eq]; rintro rfl; simp)
theorem execTrunkTxUnderrun_ring (t : TrunkPort) (n : Nat) (why : TxFail) (s : State) (z : State) (hz : execTrunkTxUnderrun t n why s = .next z) : OutTrunk z s := by
  revert hz; unfold execTrunkTxUnderrun; try dsimp only
  repeat' split
  all_goals (simp only [done_eq]; rintro rfl)
  repeat' (split <;> (try (rename_i h; have h2 := congrArg Prod.snd h; dsimp only at h2; clear h; subst h2)))
  all_goals first
    | done
    | (simp_all; done)
    | (apply foldl_ring; intro s x; (repeat' split) <;> simp_all; done)
    | (rename_i h; have h2 := congrArg Prod.snd h; dsimp only at h2; clear h; subst h2; simp_all; done)
    | (rename_i h; have h2 := congrArg Prod.snd h; dsimp only at h2; clear h; subst h2; simp; done)
    | (rename_i h _; have h2 := congrArg Prod.snd h; dsimp only at h2; clear h; subst h2; simp_all; done)
    | skip
@[simp] theorem State.trkCtrl_ring (s : State) (t : TrunkPort) (v : Word) : OutTrunk (State.trkCtrl s t v) s := by
  unfold State.trkCtrl; (try dsimp only); (repeat' split) <;> simp
theorem execTrainingFrameRx_ring (t : TrunkPort) (l : Lane) (ctrl : BitVec 12) (crcOk rxReady : Bool) (s : State) (z : State) (hz : execTrainingFrameRx t l ctrl crcOk rxReady s = .next z) : OutTrunk z s := by
  revert hz; unfold execTrainingFrameRx; (try dsimp only); (repeat' split) <;> (simp only [done_eq]; rintro rfl; simp)
theorem execLaneTrainingTimeout_ring (t : TrunkPort) (l : Lane) (s : State) (z : State) (hz : execLaneTrainingTimeout t l s = .next z) : OutTrunk z s := by
  revert hz; unfold execLaneTrainingTimeout; (try dsimp only); (repeat' split) <;> (simp only [done_eq]; rintro rfl; simp)

end Sys2Proof.Machine
end

