-- ==== Sys2Proof/Laws/OutMemory.lean ====
section
/-! SUPPORT. DRAM and DMA: what these commands leave unchanged. -/
namespace Sys2Proof.Machine

/-- Every other kind of state is as before. -/
@[simp] abbrev OutMemory (t s : State) : Prop := t.pending = s.pending ∧ t.member = s.member ∧ t.tick = s.tick ∧ t.tickHi = s.tickHi ∧ t.links = s.links ∧ t.cfg = s.cfg ∧ t.ports = s.ports ∧ t.nodes = s.nodes ∧ t.trk = s.trk ∧ t.logic = s.logic ∧ t.cores = s.cores ∧ t.loopDies = s.loopDies ∧ t.loops = s.loops ∧ t.fio = s.fio ∧ t.mtr = s.mtr ∧ t.sec = s.sec ∧ t.time = s.time ∧ t.su = s.su
theorem OutMemory.trans {a b c : State} (h : OutMemory a b) (g : OutMemory b c) : OutMemory a c := by
  simp_all only [OutMemory, and_self]
@[simp] theorem foldl_dram {α : Type} (f : State → α → State) (l : List α) (s : State) (h : ∀ s x, OutMemory (f s x) s) :
    OutMemory (l.foldl f s) s := by
  induction l generalizing s with
  | nil => simp only [List.foldl_nil, OutMemory, and_self]
  | cons a l ih => exact OutMemory.trans (ih (f s a)) (h s a)
@[simp] theorem settle_dram (s t : State) : OutMemory (settle s t) t := by
  simp only [OutMemory, settle_pending, settle_member, settle_tick, settle_tickHi, settle_links, settle_cfg, settle_ports, settle_nodes, settle_trk, settle_logic, settle_cores, settle_loopDies, settle_loops, settle_fio, settle_mtr, settle_sec, settle_time, settle_su, and_self]
theorem settle_dram' (s t u : State) : OutMemory (settle s t) u = OutMemory t u := by
  simp only [OutMemory, settle_pending, settle_member, settle_tick, settle_tickHi, settle_links, settle_cfg, settle_ports, settle_nodes, settle_trk, settle_logic, settle_cores, settle_loopDies, settle_loops, settle_fio, settle_mtr, settle_sec, settle_time, settle_su]
@[simp] theorem State.integFail_dram (s : State) (line : Nat) : OutMemory (State.integFail s line) s := by
  unfold State.integFail; (try dsimp only); (repeat' split) <;> simp
@[simp] theorem State.writeLine_dram (s : State) (line : Nat) (data : List Byte) : OutMemory (s.writeLine line data) s := by
  simp [State.writeLine]
@[simp] theorem State.mergeLine_dram (s : State) (line : Nat) (data : List (Nat × Byte)) : OutMemory (s.mergeLine line data).2 s := by
  unfold State.mergeLine; split <;> simp
@[simp] theorem State.readPhys_dram (s : State) (pa : Nat) (n : Nat) : OutMemory (State.readPhys s pa n).2 s := by
  induction n generalizing s pa with
  | zero => unfold State.readPhys; (try dsimp only); (repeat' (split <;> (try (rename_i h; have h2 := congrArg Prod.snd h; dsimp only at h2; clear h; subst h2)))) <;>
    first
    | done
    | (simp_all; done)
    | (rename_i h; have h2 := congrArg Prod.snd h; dsimp only at h2; clear h; subst h2; simp_all; done)
    | (rename_i h _; have h2 := congrArg Prod.snd h; dsimp only at h2; clear h; subst h2; simp_all; done)
    | (rename_i h _ _; have h2 := congrArg Prod.snd h; dsimp only at h2; clear h; subst h2; simp_all; done)
    | skip
  | succ n ih => unfold State.readPhys; (try dsimp only); (repeat' (split <;> (try (rename_i h; have h2 := congrArg Prod.snd h; dsimp only at h2; clear h; subst h2)))) <;>
    first
    | done
    | (simp_all; done)
    | (rename_i h; have h2 := congrArg Prod.snd h; dsimp only at h2; clear h; subst h2; simp_all; done)
    | (rename_i h _; have h2 := congrArg Prod.snd h; dsimp only at h2; clear h; subst h2; simp_all; done)
    | (rename_i h _ _; have h2 := congrArg Prod.snd h; dsimp only at h2; clear h; subst h2; simp_all; done)
    | skip
@[simp] theorem State.xlateFault_dram (s : State) (d ctx cause : Nat) (write pin : Bool) (inst va : Nat) : OutMemory (State.xlateFault s d ctx cause write pin inst va) s := by
  unfold State.xlateFault; (try dsimp only); (repeat' split) <;> simp
@[simp] theorem State.engFault_dram (s : State) (d cls inst : Nat) (write : Bool) (e : EngFault) :
    OutMemory (s.engFault d cls inst write e) s := by
  unfold State.engFault; split
  · simp
  · split <;> simp
@[simp] theorem State.walkWord_dram (s : State) (pa : Nat) : OutMemory (State.walkWord s pa).2 s := by
  unfold State.walkWord; try dsimp only
  repeat' (split <;> (try (rename_i h; have h2 := congrArg Prod.snd h; dsimp only at h2; clear h; subst h2)))
  all_goals first
    | done
    | (simp_all; done)
    | (apply foldl_dram; intro s x; (repeat' split) <;> simp_all; done)
    | (rename_i h; have h2 := congrArg Prod.snd h; dsimp only at h2; clear h; subst h2; simp_all; done)
    | (rename_i h; have h2 := congrArg Prod.snd h; dsimp only at h2; clear h; subst h2; simp; done)
    | (rename_i h _; have h2 := congrArg Prod.snd h; dsimp only at h2; clear h; subst h2; simp_all; done)
    | skip
@[simp] theorem State.walkPage_dram (s : State) (e : Pte) (va : Nat) (wp : Bool) : OutMemory (State.walkPage s e va wp).2 s := by
  rw [State.walkPage]
  have h := State.walkWord_dram s (e.entry va)
  generalize s.walkWord (e.entry va) = r at h ⊢
  rcases r with ⟨_ | w, u⟩ <;> exact h
@[simp] theorem State.walkTop_dram (s : State) (c va : Nat) : OutMemory (State.walkTop s c va).2 s := by
  rw [State.walkTop]
  have h := State.walkWord_dram s (topEntry c va)
  generalize s.walkWord (topEntry c va) = r at h ⊢
  rcases r with ⟨_ | w, u⟩
  · exact h
  · dsimp only
    split
    · exact h
    · exact (State.walkPage_dram u _ va _).trans h
@[simp] theorem State.walk_dram (s : State) (d ctx va : Nat) : OutMemory (State.walk s d ctx va).2 s := by
  unfold State.walk; try dsimp only
  repeat' (split <;> (try (rename_i h; have h2 := congrArg Prod.snd h; dsimp only at h2; clear h; subst h2)))
  all_goals first
    | done
    | (simp_all; done)
    | (apply foldl_dram; intro s x; (repeat' split) <;> simp_all; done)
    | (rename_i h; have h2 := congrArg Prod.snd h; dsimp only at h2; clear h; subst h2; simp_all; done)
    | (rename_i h; have h2 := congrArg Prod.snd h; dsimp only at h2; clear h; subst h2; simp; done)
    | (rename_i h _; have h2 := congrArg Prod.snd h; dsimp only at h2; clear h; subst h2; simp_all; done)
    | skip
@[simp] theorem State.cacheTlb_dram (s : State) (d key : Nat) (e : Nat × Pte) : OutMemory (State.cacheTlb s d key e) s := by
  unfold State.cacheTlb; try dsimp only
  repeat' (split <;> (try (rename_i h; have h2 := congrArg Prod.snd h; dsimp only at h2; clear h; subst h2)))
  all_goals first
    | done
    | (simp_all; done)
    | (apply foldl_dram; intro s x; (repeat' split) <;> simp_all; done)
    | (rename_i h; have h2 := congrArg Prod.snd h; dsimp only at h2; clear h; subst h2; simp_all; done)
    | (rename_i h; have h2 := congrArg Prod.snd h; dsimp only at h2; clear h; subst h2; simp; done)
    | (rename_i h _; have h2 := congrArg Prod.snd h; dsimp only at h2; clear h; subst h2; simp_all; done)
    | skip
@[simp] theorem State.lookup_dram (s : State) (d ctx va : Nat) : OutMemory (State.lookup s d ctx va).2 s := by
  unfold State.lookup; try dsimp only
  repeat' (split <;> (try (rename_i h; have h2 := congrArg Prod.snd h; dsimp only at h2; clear h; subst h2)))
  all_goals first
    | done
    | (simp_all; done)
    | (apply foldl_dram; intro s x; (repeat' split) <;> simp_all; done)
    | (rename_i h; have h2 := congrArg Prod.snd h; dsimp only at h2; clear h; subst h2; simp_all; done)
    | (rename_i h; have h2 := congrArg Prod.snd h; dsimp only at h2; clear h; subst h2; simp; done)
    | (rename_i h _; have h2 := congrArg Prod.snd h; dsimp only at h2; clear h; subst h2; simp_all; done)
    | skip
@[simp] theorem State.translate_dram (s : State) (d ctx inst va : Nat) (write : Bool) : OutMemory (State.translate s d ctx inst va write).2 s := by
  unfold State.translate; try dsimp only
  repeat' (split <;> (try (rename_i h; have h2 := congrArg Prod.snd h; dsimp only at h2; clear h; subst h2)))
  all_goals first
    | done
    | (simp_all; done)
    | (apply foldl_dram; intro s x; (repeat' split) <;> simp_all; done)
    | (rename_i h; have h2 := congrArg Prod.snd h; dsimp only at h2; clear h; subst h2; simp_all; done)
    | (rename_i h; have h2 := congrArg Prod.snd h; dsimp only at h2; clear h; subst h2; simp; done)
    | (rename_i h _; have h2 := congrArg Prod.snd h; dsimp only at h2; clear h; subst h2; simp_all; done)
    | skip
@[simp] theorem State.readVa_dram (s : State) (d ctx inst va : Nat) (n : Nat) : OutMemory (State.readVa s d ctx inst va n).2 s := by
  induction n generalizing s d ctx inst va with
  | zero => unfold State.readVa; (try dsimp only); (repeat' (split <;> (try (rename_i h; have h2 := congrArg Prod.snd h; dsimp only at h2; clear h; subst h2)))) <;>
    first
    | done
    | (simp_all; done)
    | (rename_i h; have h2 := congrArg Prod.snd h; dsimp only at h2; clear h; subst h2; simp_all; done)
    | (rename_i h _; have h2 := congrArg Prod.snd h; dsimp only at h2; clear h; subst h2; simp_all; done)
    | (rename_i h _ _; have h2 := congrArg Prod.snd h; dsimp only at h2; clear h; subst h2; simp_all; done)
    | skip
  | succ n ih => unfold State.readVa; (try dsimp only); (repeat' (split <;> (try (rename_i h; have h2 := congrArg Prod.snd h; dsimp only at h2; clear h; subst h2)))) <;>
    first
    | done
    | (simp_all; done)
    | (rename_i h; have h2 := congrArg Prod.snd h; dsimp only at h2; clear h; subst h2; simp_all; done)
    | (rename_i h _; have h2 := congrArg Prod.snd h; dsimp only at h2; clear h; subst h2; simp_all; done)
    | (rename_i h _ _; have h2 := congrArg Prod.snd h; dsimp only at h2; clear h; subst h2; simp_all; done)
    | skip
@[simp] theorem State.readLineVa_dram (s : State) (d ctx inst va : Nat) : OutMemory (State.readLineVa s d ctx inst va).2 s := by
  unfold State.readLineVa; try dsimp only
  repeat' (split <;> (try (rename_i h; have h2 := congrArg Prod.snd h; dsimp only at h2; clear h; subst h2)))
  all_goals first
    | done
    | (simp_all; done)
    | (apply foldl_dram; intro s x; (repeat' split) <;> simp_all; done)
    | (rename_i h; have h2 := congrArg Prod.snd h; dsimp only at h2; clear h; subst h2; simp_all; done)
    | (rename_i h; have h2 := congrArg Prod.snd h; dsimp only at h2; clear h; subst h2; simp; done)
    | (rename_i h _; have h2 := congrArg Prod.snd h; dsimp only at h2; clear h; subst h2; simp_all; done)
    | skip
@[simp] theorem State.writeLineVa_dram (s : State) (d ctx inst va : Nat) (data : List Byte) : OutMemory (State.writeLineVa s d ctx inst va data).2 s := by
  unfold State.writeLineVa; try dsimp only
  repeat' (split <;> (try (rename_i h; have h2 := congrArg Prod.snd h; dsimp only at h2; clear h; subst h2)))
  all_goals first
    | done
    | (simp_all; done)
    | (apply foldl_dram; intro s x; (repeat' split) <;> simp_all; done)
    | (rename_i h; have h2 := congrArg Prod.snd h; dsimp only at h2; clear h; subst h2; simp_all; done)
    | (rename_i h; have h2 := congrArg Prod.snd h; dsimp only at h2; clear h; subst h2; simp; done)
    | (rename_i h _; have h2 := congrArg Prod.snd h; dsimp only at h2; clear h; subst h2; simp_all; done)
    | skip
@[simp] theorem State.assignPage_dram (s : State) (page : Nat) (t : Tenant) : OutMemory (State.assignPage s page t) s := by
  simp [State.assignPage]
@[simp] theorem State.putTable_dram (s : State) (pa w : Nat) : OutMemory (s.putTable pa w) s := by
  unfold State.putTable; dsimp only
  repeat' (split <;> (try (rename_i h; have h2 := congrArg Prod.snd h; dsimp only at h2; clear h; subst h2)))
  all_goals simp
@[simp] theorem State.invalidate_dram (s : State) (d cmd : Nat) : OutMemory (State.invalidate s d cmd) s := by
  unfold State.invalidate; (try dsimp only); (repeat' split) <;> simp
theorem State.mapEntries_dram (s : State) (d page : Nat) (m : PageMap) : OutMemory (s.mapEntries d page m) s := by
  unfold State.mapEntries; dsimp only; (repeat' split) <;> simp
@[simp] theorem State.mapPage_dram (s : State) (d page : Nat) (m : PageMap) : OutMemory (s.mapPage d page m) s := by
  unfold State.mapPage; dsimp only; split
  · exact State.mapEntries_dram _ _ _ _
  · exact OutMemory.trans (State.invalidate_dram _ _ _) (by simpa using State.mapEntries_dram s d page m)
theorem execInvalidationComplete_dram (d : Die) (s : State) (z : State) (hz : execInvalidationComplete d s = .next z) : OutMemory z s := by
  revert hz; unfold execInvalidationComplete; (try dsimp only); (repeat' split) <;> (simp only [done_eq]; rintro rfl; simp)
@[simp] theorem State.setDch_dram (s : State) (d c : Nat) (x : DmaCh) : OutMemory (State.setDch s d c x) s := by
  simp [State.setDch]
@[simp] theorem State.modDch_dram (s : State) (d c : Nat) (f : DmaCh → DmaCh) : OutMemory (State.modDch s d c f) s := by
  simp [State.modDch]
@[simp] theorem State.dmaIrq_dram (s : State) (d i : Nat) : OutMemory (State.dmaIrq s d i) s := by
  simp [State.dmaIrq]
@[simp] theorem State.markStop_dram (s : State) (d c : Nat) (st : DmaState) (reason faddr : Nat) (write index point : Bool) :
    OutMemory (s.markStop d c st reason faddr write index point) s := by
  unfold State.markStop; dsimp only; split <;> simp
@[simp] theorem State.wbFail_dram (s : State) (d c : Nat) : OutMemory (s.wbFail d c) s := by
  simp [State.wbFail]
@[simp] theorem State.flushWb_dram (s : State) (d c : Nat) : OutMemory (State.flushWb s d c).2 s := by
  unfold State.flushWb; dsimp only; split
  · simp
  · split
    · simp
    · split <;> (rename_i h; obtain rfl := snd_of h; simp)
@[simp] theorem State.writeOut_dram (s : State) (d c : Nat) : OutMemory (s.writeOut d c) s := by
  unfold State.writeOut; split <;> (rename_i h; obtain rfl := snd_of h; simp)
@[simp] theorem State.abortEnd_dram (s : State) (d c : Nat) : OutMemory (s.abortEnd d c) s := by
  unfold State.abortEnd; split <;> (rename_i h; obtain rfl := snd_of h; simp)
@[simp] theorem State.stopDma_dram (s : State) (d c : Nat) (st : DmaState) (reason faddr : Nat) (write index point : Bool) : OutMemory (s.stopDma d c st reason faddr write index point) s := by
  unfold State.stopDma; split <;> (rename_i h; obtain rfl := snd_of h; simp)
@[simp] theorem State.accStop_dram (s : State) (d c : Nat) (e : AccErr) (faddr : Nat) (write index : Bool) : OutMemory (State.accStop s d c e faddr write index) s := by
  unfold State.accStop; (try dsimp only); (repeat' split) <;> simp
@[simp] theorem State.haltDma_dram (s : State) (d c reason faddr : Nat) (write point : Bool) : OutMemory (State.haltDma s d c reason faddr write point) s := by
  simp [State.haltDma]
@[simp] theorem State.fetchDesc_dram (s : State) (d c : Nat) : OutMemory (State.fetchDesc s d c) s := by
  unfold State.fetchDesc; try dsimp only
  repeat' (split <;> (try (rename_i h; have h2 := congrArg Prod.snd h; dsimp only at h2; clear h; subst h2)))
  all_goals first
    | done
    | (simp_all; done)
    | (apply foldl_dram; intro s x; (repeat' split) <;> simp_all; done)
    | (rename_i h; have h2 := congrArg Prod.snd h; dsimp only at h2; clear h; subst h2; simp_all; done)
    | (rename_i h; have h2 := congrArg Prod.snd h; dsimp only at h2; clear h; subst h2; simp; done)
    | (rename_i h _; have h2 := congrArg Prod.snd h; dsimp only at h2; clear h; subst h2; simp_all; done)
    | skip
@[simp] theorem State.fillPort_dram (s : State) (d c n f : Nat) : OutMemory (s.fillPort d c n f) s := by
  induction f generalizing s with
  | zero => simp [State.fillPort]
  | succ f ih =>
    unfold State.fillPort
    repeat' split
    · simp
    · simp
    · exact OutMemory.trans (ih _) (by simp)
@[simp] theorem State.dmaRead_dram (s : State) (d c sp a n : Nat) : OutMemory (s.dmaRead d c sp a n).2 s := by
  unfold State.dmaRead; dsimp only
  split
  · exact State.readVa_dram _ _ _ _ _ _
  · simp
  · split
    · simp
    · split
      · simp
      · dsimp only; split <;> simp
@[simp] theorem State.dmaTargets_dram (s : State) (d c a : Nat) (n : Nat) : OutMemory (State.dmaTargets s d c a n).2 s := by
  induction n generalizing s d c a with
  | zero => unfold State.dmaTargets; (try dsimp only); (repeat' (split <;> (try (rename_i h; have h2 := congrArg Prod.snd h; dsimp only at h2; clear h; subst h2)))) <;>
    first
    | done
    | (simp_all; done)
    | (rename_i h; have h2 := congrArg Prod.snd h; dsimp only at h2; clear h; subst h2; simp_all; done)
    | (rename_i h _; have h2 := congrArg Prod.snd h; dsimp only at h2; clear h; subst h2; simp_all; done)
    | (rename_i h _ _; have h2 := congrArg Prod.snd h; dsimp only at h2; clear h; subst h2; simp_all; done)
    | skip
  | succ n ih => unfold State.dmaTargets; (try dsimp only); (repeat' (split <;> (try (rename_i h; have h2 := congrArg Prod.snd h; dsimp only at h2; clear h; subst h2)))) <;>
    first
    | done
    | (simp_all; done)
    | (rename_i h; have h2 := congrArg Prod.snd h; dsimp only at h2; clear h; subst h2; simp_all; done)
    | (rename_i h _; have h2 := congrArg Prod.snd h; dsimp only at h2; clear h; subst h2; simp_all; done)
    | (rename_i h _ _; have h2 := congrArg Prod.snd h; dsimp only at h2; clear h; subst h2; simp_all; done)
    | skip
@[simp] theorem State.bufferBytes_dram (s : State) (d c va : Nat) (l : List (Nat × Byte)) : OutMemory (s.bufferBytes d c va l).2 s := by
  induction l generalizing s va with
  | nil => simp [State.bufferBytes]
  | cons a l ih =>
    unfold State.bufferBytes; dsimp only
    repeat' split
    all_goals (simp_all; done)
@[simp] theorem State.dmaWrite_dram (s : State) (d c sp a : Nat) (data : List Byte) : OutMemory (State.dmaWrite s d c sp a data).2 s := by
  unfold State.dmaWrite; split
  · simp
  · split
    · rename_i h; obtain rfl := snd_of h; simp
    · rename_i h; obtain rfl := snd_of h
      split <;> (rename_i h; obtain rfl := snd_of h; simp)
@[simp] theorem State.advance_dram (s : State) (d c n : Nat) (de : Descriptor) : OutMemory (State.advance s d c n de) s := by
  unfold State.advance; (try dsimp only); (repeat' split) <;> simp
@[simp] theorem State.moveBits_dram (s : State) (d c : Nat) (de : Descriptor) : OutMemory (State.moveBits s d c de) s := by
  unfold State.moveBits; try dsimp only
  repeat' (split <;> (try (rename_i h; have h2 := congrArg Prod.snd h; dsimp only at h2; clear h; subst h2)))
  all_goals first
    | done
    | (simp_all; done)
    | (apply foldl_dram; intro s x; (repeat' split) <;> simp_all; done)
    | (rename_i h; have h2 := congrArg Prod.snd h; dsimp only at h2; clear h; subst h2; simp_all; done)
    | (rename_i h; have h2 := congrArg Prod.snd h; dsimp only at h2; clear h; subst h2; simp; done)
    | (rename_i h _; have h2 := congrArg Prod.snd h; dsimp only at h2; clear h; subst h2; simp_all; done)
    | skip
@[simp] theorem State.dmaFeed_dram (s : State) (d c ctx : Nat) (de : Descriptor) : OutMemory (State.dmaFeed s d c ctx de) s := by
  simp [State.dmaFeed]
@[simp] theorem State.preempt_dram (s : State) (d c : Nat) : OutMemory (State.preempt s d c) s := by
  unfold State.preempt; (try dsimp only); (repeat' split) <;> simp
@[simp] theorem State.dmaStart_dram (s : State) (d c : Nat) : OutMemory (State.dmaStart s d c) s := by
  unfold State.dmaStart; (try dsimp only); (repeat' split) <;> simp
@[simp] theorem State.rewrite_dram (s : State) (d c : Nat) : OutMemory (s.rewrite d c) s := by
  unfold State.rewrite; dsimp only; split
  · simp
  · split <;> (rename_i h; obtain rfl := snd_of h; simp)
@[simp] theorem State.dmaResume_dram (s : State) (d c : Nat) : OutMemory (State.dmaResume s d c) s := by
  unfold State.dmaResume; (try dsimp only); (repeat' split) <;> simp
@[simp] theorem State.dmaSkip_dram (s : State) (d c : Nat) : OutMemory (State.dmaSkip s d c) s := by
  unfold State.dmaSkip; (try dsimp only); (repeat' split) <;> simp
@[simp] theorem State.dmaAbort_dram (s : State) (d c : Nat) : OutMemory (State.dmaAbort s d c) s := by
  unfold State.dmaAbort; (try dsimp only); (repeat' split) <;> simp
@[simp] theorem State.dmaExyan_dram (s : State) (d c : Nat) (u : DmaSetup) : OutMemory (s.dmaExyan d c u) s := by
  unfold State.dmaExyan; dsimp only; split <;> simp
@[simp] theorem State.retirePage_dram (s : State) (p : Nat) : OutMemory (s.retirePage p) s := by
  unfold State.retirePage
  refine foldl_dram _ _ _ fun s d => ?_
  dsimp only
  have h : OutMemory ((List.range 16).foldl (fun s c =>
      if (s.dch d c).wbLine.any (fun l => l / 64 == p) && !s.dmaStopped d c then s.writeOut d c else s) s) s :=
    foldl_dram _ _ _ fun s c => by split <;> simp
  split
  · exact OutMemory.trans (by simp) h
  · exact h
theorem execPageOwnerAssign_dram (d : Die) (page : Nat) (owner : Tenant) (map : Option PageMap) (s z : State)
    (hz : execPageOwnerAssign d page owner map s = .next z) : OutMemory z s := by
  revert hz; unfold execPageOwnerAssign; (try dsimp only); (repeat' split) <;> (simp only [done_eq]; rintro rfl; simp)

end Sys2Proof.Machine
end

