-- ==== Sys2Proof/Laws/OutCapture.lean ====
section
/-! SUPPORT. The elements DMA moves and the captures they end: what these commands leave unchanged. -/
namespace Sys2Proof.Machine

/-- Every other kind of state is as before. -/
@[simp] abbrev OutCapture (t s : State) : Prop := t.pending = s.pending ∧ t.member = s.member ∧ t.tick = s.tick ∧ t.tickHi = s.tickHi ∧ t.links = s.links ∧ t.cfg = s.cfg ∧ t.ports = s.ports ∧ t.nodes = s.nodes ∧ t.trk = s.trk ∧ t.logic = s.logic ∧ t.cores = s.cores ∧ t.loops = s.loops ∧ t.fio = s.fio ∧ t.mtr = s.mtr ∧ t.sec = s.sec ∧ t.time = s.time ∧ t.su = s.su
theorem OutCapture.trans {a b c : State} (h : OutCapture a b) (g : OutCapture b c) : OutCapture a c := by
  simp_all only [OutCapture, and_self]
@[simp] theorem foldl_cap {α : Type} (f : State → α → State) (l : List α) (s : State) (h : ∀ s x, OutCapture (f s x) s) :
    OutCapture (l.foldl f s) s := by
  induction l generalizing s with
  | nil => simp only [List.foldl_nil, OutCapture, and_self]
  | cons a l ih => exact OutCapture.trans (ih (f s a)) (h s a)
@[simp] theorem settle_cap (s t : State) : OutCapture (settle s t) t := by
  simp only [OutCapture, settle_pending, settle_member, settle_tick, settle_tickHi, settle_links, settle_cfg, settle_ports, settle_nodes, settle_trk, settle_logic, settle_cores, settle_loops, settle_fio, settle_mtr, settle_sec, settle_time, settle_su, and_self]
theorem settle_cap' (s t u : State) : OutCapture (settle s t) u = OutCapture t u := by
  simp only [OutCapture, settle_pending, settle_member, settle_tick, settle_tickHi, settle_links, settle_cfg, settle_ports, settle_nodes, settle_trk, settle_logic, settle_cores, settle_loops, settle_fio, settle_mtr, settle_sec, settle_time, settle_su]
@[simp] theorem State.setUnit_cap (s : State) (d u : Nat) (x : TestUnit) : OutCapture (State.setUnit s d u x) s := by
  simp [State.setUnit]
@[simp] theorem State.noteCapture_cap (s : State) (d c : Nat) : OutCapture (State.noteCapture s d c) s := by
  unfold State.noteCapture; (try dsimp only); (repeat' split) <;> simp
@[simp] theorem State.capFeed_cap (s : State) (d u : Nat) : OutCapture (State.capFeed s d u) s := by
  unfold State.capFeed; (try dsimp only); (repeat' split) <;> simp
@[simp] theorem State.capFeeds_cap (s : State) (d : Nat) : OutCapture (State.capFeeds s d) s := by
  simp [State.capFeeds]
@[simp] theorem State.elemIndex_cap (s : State) (d c : Nat) (de : Descriptor) : OutCapture (State.elemIndex s d c de).2 s := by
  unfold State.elemIndex; try dsimp only
  repeat' (split <;> (try (rename_i h; have h2 := congrArg Prod.snd h; dsimp only at h2; clear h; subst h2)))
  all_goals first
    | done
    | (simp_all; done)
    | (apply foldl_cap; intro s x; (repeat' split) <;> simp_all; done)
    | (rename_i h; have h2 := congrArg Prod.snd h; dsimp only at h2; clear h; subst h2; simp_all; done)
    | (rename_i h; have h2 := congrArg Prod.snd h; dsimp only at h2; clear h; subst h2; simp; done)
    | (rename_i h _; have h2 := congrArg Prod.snd h; dsimp only at h2; clear h; subst h2; simp_all; done)
    | skip
@[simp] theorem State.copyElem_cap (s : State) (d c : Nat) (de : Descriptor) (sa da n : Nat) : OutCapture (State.copyElem s d c de sa da n) s := by
  unfold State.copyElem; try dsimp only
  repeat' (split <;> (try (rename_i h; have h2 := congrArg Prod.snd h; dsimp only at h2; clear h; subst h2)))
  all_goals first
    | done
    | (simp_all; done)
    | (apply foldl_cap; intro s x; (repeat' split) <;> simp_all; done)
    | (rename_i h; have h2 := congrArg Prod.snd h; dsimp only at h2; clear h; subst h2; simp_all; done)
    | (rename_i h; have h2 := congrArg Prod.snd h; dsimp only at h2; clear h; subst h2; simp; done)
    | (rename_i h _; have h2 := congrArg Prod.snd h; dsimp only at h2; clear h; subst h2; simp_all; done)
    | skip
@[simp] theorem State.aimElem_cap (s : State) (d c : Nat) (de : Descriptor) (sa da n : Nat) : OutCapture (State.aimElem s d c de sa da n) s := by
  unfold State.aimElem; try dsimp only
  repeat' (split <;> (try (rename_i h; have h2 := congrArg Prod.snd h; dsimp only at h2; clear h; subst h2)))
  all_goals first
    | done
    | (simp_all; done)
    | (apply foldl_cap; intro s x; (repeat' split) <;> simp_all; done)
    | (rename_i h; have h2 := congrArg Prod.snd h; dsimp only at h2; clear h; subst h2; simp_all; done)
    | (rename_i h; have h2 := congrArg Prod.snd h; dsimp only at h2; clear h; subst h2; simp; done)
    | (rename_i h _; have h2 := congrArg Prod.snd h; dsimp only at h2; clear h; subst h2; simp_all; done)
    | skip
@[simp] theorem State.moveElem_cap (s : State) (d c : Nat) (de : Descriptor) : OutCapture (State.moveElem s d c de) s := by
  unfold State.moveElem; try dsimp only
  repeat' (split <;> (try (rename_i h; have h2 := congrArg Prod.snd h; dsimp only at h2; clear h; subst h2)))
  all_goals first
    | done
    | (simp_all; done)
    | (apply foldl_cap; intro s x; (repeat' split) <;> simp_all; done)
    | (rename_i h; have h2 := congrArg Prod.snd h; dsimp only at h2; clear h; subst h2; simp_all; done)
    | (rename_i h; have h2 := congrArg Prod.snd h; dsimp only at h2; clear h; subst h2; simp; done)
    | (rename_i h _; have h2 := congrArg Prod.snd h; dsimp only at h2; clear h; subst h2; simp_all; done)
    | skip
@[simp] theorem State.busElem_cap (s : State) (d c : Nat) (de : Descriptor) (k : DmaAccess) : OutCapture (s.busElem d c de k) s := by
  unfold State.busElem; dsimp only
  split
  · simp
  · split
    · simp
    · split
      · simp
      · split <;> (rename_i h; obtain rfl := snd_of h; simp)
theorem execDmaElement_cap (d : Die) (bus : Option DmaAccess) (s : State) (z : State) (hz : execDmaElement d bus s = .next z) : OutCapture z s := by
  revert hz; unfold execDmaElement; (try dsimp only); (repeat' split) <;> (simp only [done_eq]; rintro rfl; simp)
end Sys2Proof.Machine
end

