-- ==== Sys2Proof/Laws/OutLogic.lean ====
section
/-! SUPPORT. Scans and logic cores: what these commands leave unchanged. -/
namespace Sys2Proof.Machine

/-- Every other kind of state is as before. -/
@[simp] abbrev OutLogic (t s : State) : Prop := t.pending = s.pending ∧ t.member = s.member ∧ t.tick = s.tick ∧ t.tickHi = s.tickHi ∧ t.links = s.links ∧ t.cfg = s.cfg ∧ t.ports = s.ports ∧ t.nodes = s.nodes ∧ t.trk = s.trk ∧ t.loopDies = s.loopDies ∧ t.loops = s.loops ∧ t.fio = s.fio ∧ t.mtr = s.mtr ∧ t.sec = s.sec ∧ t.time = s.time ∧ t.su = s.su
theorem OutLogic.trans {a b c : State} (h : OutLogic a b) (g : OutLogic b c) : OutLogic a c := by
  simp_all only [OutLogic, and_self]
@[simp] theorem foldl_lsc {α : Type} (f : State → α → State) (l : List α) (s : State) (h : ∀ s x, OutLogic (f s x) s) :
    OutLogic (l.foldl f s) s := by
  induction l generalizing s with
  | nil => simp only [List.foldl_nil, OutLogic, and_self]
  | cons a l ih => exact OutLogic.trans (ih (f s a)) (h s a)
@[simp] theorem settle_lsc (s t : State) : OutLogic (settle s t) t := by
  simp only [OutLogic, settle_pending, settle_member, settle_tick, settle_tickHi, settle_links, settle_cfg, settle_ports, settle_nodes, settle_trk, settle_loopDies, settle_loops, settle_fio, settle_mtr, settle_sec, settle_time, settle_su, and_self]
theorem settle_lsc' (s t u : State) : OutLogic (settle s t) u = OutLogic t u := by
  simp only [OutLogic, settle_pending, settle_member, settle_tick, settle_tickHi, settle_links, settle_cfg, settle_ports, settle_nodes, settle_trk, settle_loopDies, settle_loops, settle_fio, settle_mtr, settle_sec, settle_time, settle_su]
@[simp] theorem State.modCore_lsc (s : State) (d c : Nat) (f : CoreSt → CoreSt) : OutLogic (State.modCore s d c f) s := by
  simp [State.modCore]
@[simp] theorem State.setMode_lsc (s : State) (d : Nat) (m : LogicMode) (cause : Nat) : OutLogic (State.setMode s d m cause) s := by
  unfold State.setMode; (try dsimp only); (repeat' split) <;> simp
@[simp] theorem State.stopBehaviour_lsc (s : State) (d : Nat) : OutLogic (State.stopBehaviour s d) s := by
  simp [State.stopBehaviour]
@[simp] theorem State.stopDone_lsc (s : State) (e : Req × Byte) : OutLogic (State.stopDone s e) s := by
  unfold State.stopDone; (try dsimp only); (repeat' split) <;> simp
@[simp] theorem State.applyOnline_lsc (s : State) (d : Nat) (x : Online) : OutLogic (State.applyOnline s d x) s := by
  cases x <;> unfold State.applyOnline <;> (try dsimp only) <;> (repeat' (split <;> (try (rename_i h; have h2 := congrArg Prod.snd h; dsimp only at h2; clear h; subst h2)))) <;>
    first
    | done
    | (simp_all; done)
    | (rename_i h; have h2 := congrArg Prod.snd h; dsimp only at h2; clear h; subst h2; simp_all; done)
    | (rename_i h _; have h2 := congrArg Prod.snd h; dsimp only at h2; clear h; subst h2; simp_all; done)
    | (rename_i h _ _; have h2 := congrArg Prod.snd h; dsimp only at h2; clear h; subst h2; simp_all; done)
    | skip
@[simp] theorem State.drainOnline_lsc (s : State) (d : Nat) : OutLogic (State.drainOnline s d) s := by
  simp [State.drainOnline]
@[simp] theorem State.holdDone_lsc (s : State) (e : Req × Byte) : OutLogic (State.holdDone s e) s := by
  unfold State.holdDone; split <;> simp
@[simp] theorem State.holdRefused_lsc (s : State) (r : Req) (m : Byte) : OutLogic (State.holdRefused s r m) s := by
  simp [State.holdRefused]
@[simp] theorem State.endHolds_lsc (s : State) (d : Nat) (ok : Bool) : OutLogic (State.endHolds s d ok) s := by
  unfold State.endHolds; exact OutLogic.trans (foldl_lsc _ _ _ fun s e => OutLogic.trans (State.holdDone_lsc _ _) (by simp)) (by simp)
@[simp] theorem State.toStop_lsc (s : State) (d cause : Nat) (fault : Bool) : OutLogic (State.toStop s d cause fault) s := by
  simp [State.toStop]
@[simp] theorem State.endStep_lsc (s : State) (d c : Nat) : OutLogic (State.endStep s d c) s := by
  unfold State.endStep; (try dsimp only); (repeat' split) <;> simp
@[simp] theorem State.dropScan_lsc (s : State) (d : Nat) : OutLogic (State.dropScan s d) s := by
  simp [State.dropScan]
@[simp] theorem State.discardScan_lsc (s : State) (d : Nat) : OutLogic (State.discardScan s d) s := by
  unfold State.discardScan; (try dsimp only); (repeat' split) <;> simp
@[simp] theorem State.holdReached_lsc (s : State) (d : Nat) : OutLogic (State.holdReached s d) s := by
  unfold State.holdReached; (try dsimp only); (repeat' split) <;> simp
@[simp] theorem State.toHold_lsc (s : State) (d c cause : Nat) (brk : Bool) (task : Option Nat) : OutLogic (State.toHold s d c cause brk task) s := by
  simp [State.toHold]
@[simp] theorem State.skipScan_lsc (s : State) (d : Nat) : OutLogic (s.skipScan d) s := by
  unfold State.skipScan; dsimp only
  repeat' split
  all_goals simp
@[simp] theorem State.nextTask_lsc (s : State) (d c : Nat) (l : List Nat) : OutLogic (State.nextTask s d c l) s := by
  induction l generalizing s with
  | nil => unfold State.nextTask; (try dsimp only); (repeat' (split <;> (try (rename_i h; have h2 := congrArg Prod.snd h; dsimp only at h2; clear h; subst h2)))) <;>
    first
    | done
    | (simp_all; done)
    | (rename_i h; have h2 := congrArg Prod.snd h; dsimp only at h2; clear h; subst h2; simp_all; done)
    | (rename_i h _; have h2 := congrArg Prod.snd h; dsimp only at h2; clear h; subst h2; simp_all; done)
    | (rename_i h _ _; have h2 := congrArg Prod.snd h; dsimp only at h2; clear h; subst h2; simp_all; done)
    | skip
  | cons a l ih => unfold State.nextTask; (try dsimp only); (repeat' (split <;> (try (rename_i h; have h2 := congrArg Prod.snd h; dsimp only at h2; clear h; subst h2)))) <;>
    first
    | done
    | (simp_all; done)
    | (rename_i h; have h2 := congrArg Prod.snd h; dsimp only at h2; clear h; subst h2; simp_all; done)
    | (rename_i h _; have h2 := congrArg Prod.snd h; dsimp only at h2; clear h; subst h2; simp_all; done)
    | (rename_i h _ _; have h2 := congrArg Prod.snd h; dsimp only at h2; clear h; subst h2; simp_all; done)
    | skip
@[simp] theorem State.snapCell_lsc (s : State) (d m : Nat) : OutLogic (State.snapCell s d m) s := by
  unfold State.snapCell; (try dsimp only); (repeat' split) <;> simp
theorem execScanStart_lsc (d : Die) (s : State) (z : State) (hz : execScanStart d s = .next z) : OutLogic z s := by
  revert hz; unfold execScanStart; (try dsimp only); (repeat' split) <;> (simp only [done_eq]; rintro rfl; simp)
theorem execRetainWriteComplete_lsc (d : Die) (readBack : Bool) (s : State) (z : State) (hz : execRetainWriteComplete d readBack s = .next z) : OutLogic z s := by
  revert hz; unfold execRetainWriteComplete; (try dsimp only); (repeat' split) <;> (simp only [done_eq]; rintro rfl; simp)
@[simp] theorem State.toRun_lsc (s : State) (d cause : Nat) : OutLogic (State.toRun s d cause) s := by
  simp [State.toRun]
@[simp] theorem State.coldRestart_lsc (s : State) (d cause : Nat) (i : LogicImage) : OutLogic (State.coldRestart s d cause i) s := by
  simp [State.coldRestart]
theorem State.warmRestart_lsc (s : State) (d cause : Nat) (i : LogicImage) (z) (h : State.warmRestart s d cause i = some z) : OutLogic z s := by
  revert h; unfold State.warmRestart; (try dsimp only)
  (repeat' (split <;> (try (rename_i h; have h2 := congrArg Prod.snd h; dsimp only at h2; clear h; subst h2)))) <;> (try simp) <;> (try rintro rfl) <;> (try simp_all)
@[simp] theorem State.commitOutputs_lsc (s : State) (d : Nat) (l : List OutStore) (ran : List Nat) : OutLogic (State.commitOutputs s d l ran) s := by
  simp [State.commitOutputs]
@[simp] theorem State.commitScan_lsc (s : State) (d us : Nat) (i : LogicImage) : OutLogic (State.commitScan s d us i) s := by
  unfold State.commitScan; (try dsimp only); (repeat' split) <;> simp
theorem execScanCommit_lsc (d : Die) (us : Nat) (s : State) (z : State) (hz : execScanCommit d us s = .next z) : OutLogic z s := by
  revert hz; unfold execScanCommit; (try dsimp only); (repeat' split) <;> (simp only [done_eq]; rintro rfl; simp)
theorem execScanLimitExpiry_lsc (d : Die) (s : State) (z : State) (hz : execScanLimitExpiry d s = .next z) : OutLogic z s := by
  revert hz; unfold execScanLimitExpiry; (try dsimp only); (repeat' split) <;> (simp only [done_eq]; rintro rfl; simp)
@[simp] theorem State.logicRun_lsc (s : State) (d : Nat) (warm : Bool) : OutLogic (s.logicRun d warm).2 s := by
  unfold State.logicRun
  repeat' split
  all_goals first
    | (simp; done)
    | exact State.warmRestart_lsc _ _ _ _ _ (by assumption)
@[simp] theorem State.logicStop_lsc (s : State) (d : Nat) : OutLogic (State.logicStop s d).2 s := by
  unfold State.logicStop; (try dsimp only); (repeat' split) <;> simp
@[simp] theorem State.logicHold_lsc (s : State) (d : Nat) : OutLogic (State.logicHold s d).2 s := by
  unfold State.logicHold; try dsimp only
  repeat' (split <;> (try (rename_i h; have h2 := congrArg Prod.snd h; dsimp only at h2; clear h; subst h2)))
  all_goals first
    | done
    | (simp_all; done)
    | (apply foldl_lsc; intro s x; (repeat' split) <;> simp_all; done)
    | (rename_i h; have h2 := congrArg Prod.snd h; dsimp only at h2; clear h; subst h2; simp_all; done)
    | (rename_i h; have h2 := congrArg Prod.snd h; dsimp only at h2; clear h; subst h2; simp; done)
    | (rename_i h _; have h2 := congrArg Prod.snd h; dsimp only at h2; clear h; subst h2; simp_all; done)
    | skip
@[simp] theorem State.logicStep_lsc (s : State) (d c : Nat) (r : Option Req) : OutLogic (State.logicStep s d c r).2 s := by
  unfold State.logicStep; (try dsimp only); (repeat' split) <;> simp
@[simp] theorem State.logicResume_lsc (s : State) (d : Nat) : OutLogic (State.logicResume s d).2 s := by
  unfold State.logicResume; (try dsimp only); (repeat' split) <;> simp
@[simp] theorem State.lscCtrl_lsc (s : State) (d v : Nat) : OutLogic (State.lscCtrl s d v) s := by
  unfold State.lscCtrl; (try dsimp only); (repeat' split) <;> simp
@[simp] theorem State.openCommit_lsc (s : State) (d : Nat) : OutLogic (State.openCommit s d) s := by
  unfold State.openCommit; (try dsimp only); (repeat' split) <;> simp
@[simp] theorem State.logicPowerFail_lsc (s : State) (d : Nat) : OutLogic (State.logicPowerFail s d) s := by
  unfold State.logicPowerFail; (try dsimp only); (repeat' split) <;> simp
@[simp] theorem State.applyStartMode_lsc (s : State) (d : Nat) : OutLogic (s.applyStartMode d) s := by
  unfold State.applyStartMode; dsimp only
  repeat' split
  all_goals first
    | (simp; done)
    | exact OutLogic.trans (State.warmRestart_lsc _ _ _ _ _ (by assumption)) (by simp)
@[simp] theorem State.dtrapLimit_lsc (s : State) (d c : Nat) (task : Option Nat) : OutLogic (State.dtrapLimit s d c task) s := by
  unfold State.dtrapLimit; (try dsimp only); (repeat' split) <;> simp
@[simp] theorem State.finishing_lsc (s old : State) (d c : Nat) : OutLogic (s.finishing old d c) s := by
  unfold State.finishing; apply foldl_lsc; intro s x; simp
@[simp] theorem State.doubleTrap_lsc (s : State) (d c cause : Nat) : OutLogic (State.doubleTrap s d c cause) s := by
  simp [State.doubleTrap]
@[simp] theorem State.trap_lsc (s : State) (d c cause : Nat) (addr w : V24) : OutLogic (State.trap s d c cause addr w) s := by
  unfold State.trap; (try dsimp only); (repeat' split) <;> simp
@[simp] theorem State.breakpoint_lsc (s : State) (d c : Nat) : OutLogic (State.breakpoint s d c) s := by
  unfold State.breakpoint; split <;> simp
@[simp] theorem State.boundary_lsc (s : State) (d c : Nat) : OutLogic (State.boundary s d c) s := by
  unfold State.boundary; (try dsimp only); (repeat' split) <;> simp
@[simp] theorem State.retire_lsc (s : State) (d c : Nat) (x : CoreSt) (w : V24) : OutLogic (State.retire s d c x w) s := by
  simp [State.retire]
@[simp] theorem State.jump_lsc (s : State) (d c : Nat) (x : CoreSt) : OutLogic (State.jump s d c x) s := by
  simp [State.jump]
@[simp] theorem State.afterInstr_lsc (s : State) (d c : Nat) (ending : Bool) : OutLogic (State.afterInstr s d c ending) s := by
  unfold State.afterInstr; (try dsimp only); (repeat' split) <;> simp
theorem State.instr_lsc (s : State) (k : CoreRef) (w : V24) (legal : Bool) (body : CoreSt → State)
    (hb : ∀ x, OutLogic (body x) s) : OutLogic (s.instr k w legal body) s := by
  unfold State.instr; dsimp only
  repeat' split
  all_goals first
    | (refine OutLogic.trans (State.afterInstr_lsc _ _ _ _) ?_; first | exact hb _ | (simp; done))
    | (simp; done)
theorem State.pureInstr_lsc (s : State) (k : CoreRef) (w : V24) (legal : Bool) (f : CoreSt → CoreSt) :
    OutLogic (s.pureInstr k w legal f) s := by
  apply State.instr_lsc; intro x; simp
theorem execIllegalInstruction_lsc (k : CoreRef) (w : V24) (s : State) (z : State)
    (hz : execIllegalInstruction k w s = .next z) : OutLogic z s := by
  revert hz; unfold execIllegalInstruction
  split <;> (simp only [done_eq]; rintro rfl; rw [settle_lsc'])
  · exact State.instr_lsc _ _ _ _ _ fun _ => by simp
  · simp
theorem execHwBreakpoint_lsc (k : CoreRef) (s : State) (z : State) (hz : execHwBreakpoint k s = .next z) : OutLogic z s := by
  revert hz; unfold execHwBreakpoint; (try dsimp only); (repeat' split) <;> (simp only [done_eq]; rintro rfl; simp)
theorem execAdd_lsc (k : CoreRef) (r : RForm) (s : State) (z : State) (hz : execAdd k r s = .next z) : OutLogic z s := by
  obtain rfl := (done_eq _ _ _).1 hz
  rw [settle_lsc']
  apply State.pureInstr_lsc <;> intros <;> simp
theorem execAdds_lsc (k : CoreRef) (r : RForm) (s : State) (z : State) (hz : execAdds k r s = .next z) : OutLogic z s := by
  obtain rfl := (done_eq _ _ _).1 hz
  rw [settle_lsc']
  apply State.pureInstr_lsc <;> intros <;> simp
theorem execSub_lsc (k : CoreRef) (r : RForm) (s : State) (z : State) (hz : execSub k r s = .next z) : OutLogic z s := by
  obtain rfl := (done_eq _ _ _).1 hz
  rw [settle_lsc']
  apply State.pureInstr_lsc <;> intros <;> simp
theorem execSubs_lsc (k : CoreRef) (r : RForm) (s : State) (z : State) (hz : execSubs k r s = .next z) : OutLogic z s := by
  obtain rfl := (done_eq _ _ _).1 hz
  rw [settle_lsc']
  apply State.pureInstr_lsc <;> intros <;> simp
theorem execAnd_lsc (k : CoreRef) (r : RForm) (s : State) (z : State) (hz : execAnd k r s = .next z) : OutLogic z s := by
  obtain rfl := (done_eq _ _ _).1 hz
  rw [settle_lsc']
  apply State.pureInstr_lsc <;> intros <;> simp
theorem execOr_lsc (k : CoreRef) (r : RForm) (s : State) (z : State) (hz : execOr k r s = .next z) : OutLogic z s := by
  obtain rfl := (done_eq _ _ _).1 hz
  rw [settle_lsc']
  apply State.pureInstr_lsc <;> intros <;> simp
theorem execXor_lsc (k : CoreRef) (r : RForm) (s : State) (z : State) (hz : execXor k r s = .next z) : OutLogic z s := by
  obtain rfl := (done_eq _ _ _).1 hz
  rw [settle_lsc']
  apply State.pureInstr_lsc <;> intros <;> simp
theorem execShl_lsc (k : CoreRef) (r : RForm) (s : State) (z : State) (hz : execShl k r s = .next z) : OutLogic z s := by
  obtain rfl := (done_eq _ _ _).1 hz
  rw [settle_lsc']
  apply State.pureInstr_lsc <;> intros <;> simp
theorem execShr_lsc (k : CoreRef) (r : RForm) (s : State) (z : State) (hz : execShr k r s = .next z) : OutLogic z s := by
  obtain rfl := (done_eq _ _ _).1 hz
  rw [settle_lsc']
  apply State.pureInstr_lsc <;> intros <;> simp
theorem execSha_lsc (k : CoreRef) (r : RForm) (s : State) (z : State) (hz : execSha k r s = .next z) : OutLogic z s := by
  obtain rfl := (done_eq _ _ _).1 hz
  rw [settle_lsc']
  apply State.pureInstr_lsc <;> intros <;> simp
theorem execMul_lsc (k : CoreRef) (r : RForm) (s : State) (z : State) (hz : execMul k r s = .next z) : OutLogic z s := by
  obtain rfl := (done_eq _ _ _).1 hz
  rw [settle_lsc']
  apply State.pureInstr_lsc <;> intros <;> simp
theorem execMulf_lsc (k : CoreRef) (r : RForm) (s : State) (z : State) (hz : execMulf k r s = .next z) : OutLogic z s := by
  obtain rfl := (done_eq _ _ _).1 hz
  rw [settle_lsc']
  apply State.pureInstr_lsc <;> intros <;> simp
theorem execDiv_lsc (k : CoreRef) (r : RForm) (s : State) (z : State) (hz : execDiv k r s = .next z) : OutLogic z s := by
  obtain rfl := (done_eq _ _ _).1 hz
  rw [settle_lsc']
  apply State.instr_lsc <;> intros <;> (try dsimp only) <;> (repeat' split) <;> simp
theorem execRem_lsc (k : CoreRef) (r : RForm) (s : State) (z : State) (hz : execRem k r s = .next z) : OutLogic z s := by
  obtain rfl := (done_eq _ _ _).1 hz
  rw [settle_lsc']
  apply State.instr_lsc <;> intros <;> (try dsimp only) <;> (repeat' split) <;> simp
theorem execCmp_lsc (k : CoreRef) (r : RForm) (s : State) (z : State) (hz : execCmp k r s = .next z) : OutLogic z s := by
  obtain rfl := (done_eq _ _ _).1 hz
  rw [settle_lsc']
  apply State.pureInstr_lsc <;> intros <;> simp
theorem execMin_lsc (k : CoreRef) (r : RForm) (s : State) (z : State) (hz : execMin k r s = .next z) : OutLogic z s := by
  obtain rfl := (done_eq _ _ _).1 hz
  rw [settle_lsc']
  apply State.pureInstr_lsc <;> intros <;> simp
theorem execMax_lsc (k : CoreRef) (r : RForm) (s : State) (z : State) (hz : execMax k r s = .next z) : OutLogic z s := by
  obtain rfl := (done_eq _ _ _).1 hz
  rw [settle_lsc']
  apply State.pureInstr_lsc <;> intros <;> simp
theorem execAddi_lsc (k : CoreRef) (i : IForm) (s : State) (z : State) (hz : execAddi k i s = .next z) : OutLogic z s := by
  obtain rfl := (done_eq _ _ _).1 hz
  rw [settle_lsc']
  apply State.pureInstr_lsc <;> intros <;> simp
theorem execAddsi_lsc (k : CoreRef) (i : IForm) (s : State) (z : State) (hz : execAddsi k i s = .next z) : OutLogic z s := by
  obtain rfl := (done_eq _ _ _).1 hz
  rw [settle_lsc']
  apply State.pureInstr_lsc <;> intros <;> simp
theorem execAndi_lsc (k : CoreRef) (i : IForm) (s : State) (z : State) (hz : execAndi k i s = .next z) : OutLogic z s := by
  obtain rfl := (done_eq _ _ _).1 hz
  rw [settle_lsc']
  apply State.pureInstr_lsc <;> intros <;> simp
theorem execOri_lsc (k : CoreRef) (i : IForm) (s : State) (z : State) (hz : execOri k i s = .next z) : OutLogic z s := by
  obtain rfl := (done_eq _ _ _).1 hz
  rw [settle_lsc']
  apply State.pureInstr_lsc <;> intros <;> simp
theorem execXori_lsc (k : CoreRef) (i : IForm) (s : State) (z : State) (hz : execXori k i s = .next z) : OutLogic z s := by
  obtain rfl := (done_eq _ _ _).1 hz
  rw [settle_lsc']
  apply State.pureInstr_lsc <;> intros <;> simp
theorem execShli_lsc (k : CoreRef) (i : IForm) (s : State) (z : State) (hz : execShli k i s = .next z) : OutLogic z s := by
  obtain rfl := (done_eq _ _ _).1 hz
  rw [settle_lsc']
  apply State.pureInstr_lsc <;> intros <;> simp
theorem execShri_lsc (k : CoreRef) (i : IForm) (s : State) (z : State) (hz : execShri k i s = .next z) : OutLogic z s := by
  obtain rfl := (done_eq _ _ _).1 hz
  rw [settle_lsc']
  apply State.pureInstr_lsc <;> intros <;> simp
theorem execShai_lsc (k : CoreRef) (i : IForm) (s : State) (z : State) (hz : execShai k i s = .next z) : OutLogic z s := by
  obtain rfl := (done_eq _ _ _).1 hz
  rw [settle_lsc']
  apply State.pureInstr_lsc <;> intros <;> simp
theorem execCmpi_lsc (k : CoreRef) (i : IForm) (s : State) (z : State) (hz : execCmpi k i s = .next z) : OutLogic z s := by
  obtain rfl := (done_eq _ _ _).1 hz
  rw [settle_lsc']
  apply State.pureInstr_lsc <;> intros <;> simp
theorem execLdi_lsc (k : CoreRef) (i : IForm) (s : State) (z : State) (hz : execLdi k i s = .next z) : OutLogic z s := by
  obtain rfl := (done_eq _ _ _).1 hz
  rw [settle_lsc']
  apply State.pureInstr_lsc <;> intros <;> simp
@[simp] theorem State.storeWord_lsc (s : State) (d : Nat) (a v : V24) : OutLogic (State.storeWord s d a v) s := by
  simp [State.storeWord]
@[simp] theorem State.loadInstr_lsc (s : State) (d c : Nat) (w a : V24) (load : Bool) (f : V24 → CoreSt) : OutLogic (State.loadInstr s d c w a load f) s := by
  unfold State.loadInstr; (try dsimp only); (repeat' split) <;> simp
@[simp] theorem State.storeInstr_lsc (s : State) (d c : Nat) (w a v : V24) : OutLogic (State.storeInstr s d c w a v) s := by
  unfold State.storeInstr; (try dsimp only); (repeat' split) <;> simp
theorem execLd_lsc (k : CoreRef) (i : IForm) (s : State) (z : State) (hz : execLd k i s = .next z) : OutLogic z s := by
  obtain rfl := (done_eq _ _ _).1 hz
  rw [settle_lsc']
  apply State.instr_lsc <;> intros <;> simp
theorem execSt_lsc (k : CoreRef) (i : IForm) (s : State) (z : State) (hz : execSt k i s = .next z) : OutLogic z s := by
  obtain rfl := (done_eq _ _ _).1 hz
  rw [settle_lsc']
  apply State.instr_lsc <;> intros <;> simp
theorem execLdx_lsc (k : CoreRef) (i : IForm) (s : State) (z : State) (hz : execLdx k i s = .next z) : OutLogic z s := by
  obtain rfl := (done_eq _ _ _).1 hz
  rw [settle_lsc']
  apply State.instr_lsc
  all_goals (intros; try dsimp only)
  repeat' (split <;> (try (rename_i h; have h2 := congrArg Prod.snd h; dsimp only at h2; clear h; subst h2)))
  all_goals first
    | done
    | (simp_all; done)
    | (apply foldl_lsc; intro s x; (repeat' split) <;> simp_all; done)
    | (rename_i h; have h2 := congrArg Prod.snd h; dsimp only at h2; clear h; subst h2; simp_all; done)
    | (rename_i h; have h2 := congrArg Prod.snd h; dsimp only at h2; clear h; subst h2; simp; done)
    | (rename_i h _; have h2 := congrArg Prod.snd h; dsimp only at h2; clear h; subst h2; simp_all; done)
    | skip
theorem execStx_lsc (k : CoreRef) (i : IForm) (s : State) (z : State) (hz : execStx k i s = .next z) : OutLogic z s := by
  obtain rfl := (done_eq _ _ _).1 hz
  rw [settle_lsc']
  apply State.instr_lsc <;> intros <;> simp
@[simp] theorem State.storePoint_lsc (s : State) (d : Nat) (o : OutStore) : OutLogic (State.storePoint s d o) s := by
  simp [State.storePoint]
theorem execLdp_lsc (k : CoreRef) (i : IForm) (s : State) (z : State) (hz : execLdp k i s = .next z) : OutLogic z s := by
  obtain rfl := (done_eq _ _ _).1 hz
  rw [settle_lsc']
  apply State.instr_lsc <;> intros <;> (try dsimp only) <;> (repeat' split) <;> simp
theorem execLdps_lsc (k : CoreRef) (i : IForm) (s : State) (z : State) (hz : execLdps k i s = .next z) : OutLogic z s := by
  obtain rfl := (done_eq _ _ _).1 hz
  rw [settle_lsc']
  apply State.instr_lsc <;> intros <;> (try dsimp only) <;> (repeat' split) <;> simp
theorem execStp_lsc (k : CoreRef) (i : IForm) (s : State) (z : State) (hz : execStp k i s = .next z) : OutLogic z s := by
  obtain rfl := (done_eq _ _ _).1 hz
  rw [settle_lsc']
  apply State.instr_lsc <;> intros <;> (try dsimp only) <;> (repeat' split) <;> simp
theorem execStpq_lsc (k : CoreRef) (r : RForm) (s : State) (z : State) (hz : execStpq k r s = .next z) : OutLogic z s := by
  obtain rfl := (done_eq _ _ _).1 hz
  rw [settle_lsc']
  apply State.instr_lsc <;> intros <;> (try dsimp only) <;> (repeat' split) <;> simp
theorem execTstart_lsc (k : CoreRef) (i : IForm) (s : State) (z : State) (hz : execTstart k i s = .next z) : OutLogic z s := by
  obtain rfl := (done_eq _ _ _).1 hz
  rw [settle_lsc']
  apply State.instr_lsc <;> intros <;> simp
theorem execTelap_lsc (k : CoreRef) (i : IForm) (s : State) (z : State) (hz : execTelap k i s = .next z) : OutLogic z s := by
  obtain rfl := (done_eq _ _ _).1 hz
  rw [settle_lsc']
  apply State.instr_lsc <;> intros <;> simp
theorem execTdone_lsc (k : CoreRef) (r : RForm) (s : State) (z : State) (hz : execTdone k r s = .next z) : OutLogic z s := by
  obtain rfl := (done_eq _ _ _).1 hz
  rw [settle_lsc']
  apply State.instr_lsc <;> intros <;> simp
theorem execBr_lsc (k : CoreRef) (b : BForm) (s : State) (z : State) (hz : execBr k b s = .next z) : OutLogic z s := by
  obtain rfl := (done_eq _ _ _).1 hz
  rw [settle_lsc']
  apply State.instr_lsc <;> intros <;> (try dsimp only) <;> (repeat' split) <;> simp
@[simp] theorem State.call_lsc (s : State) (d c : Nat) (w target : V24) : OutLogic (State.call s d c w target) s := by
  unfold State.call; try dsimp only
  repeat' (split <;> (try (rename_i h; have h2 := congrArg Prod.snd h; dsimp only at h2; clear h; subst h2)))
  all_goals first
    | done
    | (simp_all; done)
    | (apply foldl_lsc; intro s x; (repeat' split) <;> simp_all; done)
    | (rename_i h; have h2 := congrArg Prod.snd h; dsimp only at h2; clear h; subst h2; simp_all; done)
    | (rename_i h; have h2 := congrArg Prod.snd h; dsimp only at h2; clear h; subst h2; simp; done)
    | (rename_i h _; have h2 := congrArg Prod.snd h; dsimp only at h2; clear h; subst h2; simp_all; done)
    | skip
theorem execCall_lsc (k : CoreRef) (b : BForm) (s : State) (z : State) (hz : execCall k b s = .next z) : OutLogic z s := by
  obtain rfl := (done_eq _ _ _).1 hz
  rw [settle_lsc']
  apply State.instr_lsc <;> intros <;> simp
theorem execCallr_lsc (k : CoreRef) (r : RForm) (s : State) (z : State) (hz : execCallr k r s = .next z) : OutLogic z s := by
  obtain rfl := (done_eq _ _ _).1 hz
  rw [settle_lsc']
  apply State.instr_lsc <;> intros <;> simp
theorem execRet_lsc (k : CoreRef) (r : RForm) (s : State) (z : State) (hz : execRet k r s = .next z) : OutLogic z s := by
  obtain rfl := (done_eq _ _ _).1 hz
  rw [settle_lsc']
  apply State.instr_lsc
  all_goals (intros; try dsimp only)
  repeat' (split <;> (try (rename_i h; have h2 := congrArg Prod.snd h; dsimp only at h2; clear h; subst h2)))
  all_goals first
    | done
    | (simp_all; done)
    | (apply foldl_lsc; intro s x; (repeat' split) <;> simp_all; done)
    | (rename_i h; have h2 := congrArg Prod.snd h; dsimp only at h2; clear h; subst h2; simp_all; done)
    | (rename_i h; have h2 := congrArg Prod.snd h; dsimp only at h2; clear h; subst h2; simp; done)
    | (rename_i h _; have h2 := congrArg Prod.snd h; dsimp only at h2; clear h; subst h2; simp_all; done)
    | skip
theorem execTaskend_lsc (k : CoreRef) (r : RForm) (s : State) (z : State) (hz : execTaskend k r s = .next z) : OutLogic z s := by
  obtain rfl := (done_eq _ _ _).1 hz
  rw [settle_lsc']
  apply State.instr_lsc
  all_goals (intros; try dsimp only)
  repeat' (split <;> (try (rename_i h; have h2 := congrArg Prod.snd h; dsimp only at h2; clear h; subst h2)))
  all_goals first
    | done
    | (simp_all; done)
    | (apply foldl_lsc; intro s x; (repeat' split) <;> simp_all; done)
    | (rename_i h; have h2 := congrArg Prod.snd h; dsimp only at h2; clear h; subst h2; simp_all; done)
    | (rename_i h; have h2 := congrArg Prod.snd h; dsimp only at h2; clear h; subst h2; simp; done)
    | (rename_i h _; have h2 := congrArg Prod.snd h; dsimp only at h2; clear h; subst h2; simp_all; done)
    | skip
theorem execTrap_lsc (k : CoreRef) (i : IForm) (s : State) (z : State) (hz : execTrap k i s = .next z) : OutLogic z s := by
  obtain rfl := (done_eq _ _ _).1 hz
  rw [settle_lsc']
  apply State.instr_lsc <;> intros <;> simp
theorem execBrk_lsc (k : CoreRef) (r : RForm) (s : State) (z : State) (hz : execBrk k r s = .next z) : OutLogic z s := by
  obtain rfl := (done_eq _ _ _).1 hz
  rw [settle_lsc']
  apply State.instr_lsc <;> intros <;> (try dsimp only) <;> (repeat' split) <;> simp
theorem execMfs_lsc (k : CoreRef) (r : RForm) (s : State) (z : State) (hz : execMfs k r s = .next z) : OutLogic z s := by
  obtain rfl := (done_eq _ _ _).1 hz
  rw [settle_lsc']
  apply State.pureInstr_lsc <;> intros <;> simp
theorem execMts_lsc (k : CoreRef) (r : RForm) (s : State) (z : State) (hz : execMts k r s = .next z) : OutLogic z s := by
  obtain rfl := (done_eq _ _ _).1 hz
  rw [settle_lsc']
  apply State.pureInstr_lsc <;> intros <;> simp
@[simp] theorem State.spillLine_lsc (s : State) (d c w : Nat) : OutLogic (State.spillLine s d c w).2 s := by
  unfold State.spillLine; try dsimp only
  repeat' (split <;> (try (rename_i h; have h2 := congrArg Prod.snd h; dsimp only at h2; clear h; subst h2)))
  all_goals first
    | done
    | (simp_all; done)
    | (apply foldl_lsc; intro s x; (repeat' split) <;> simp_all; done)
    | (rename_i h; have h2 := congrArg Prod.snd h; dsimp only at h2; clear h; subst h2; simp_all; done)
    | (rename_i h; have h2 := congrArg Prod.snd h; dsimp only at h2; clear h; subst h2; simp; done)
    | (rename_i h _; have h2 := congrArg Prod.snd h; dsimp only at h2; clear h; subst h2; simp_all; done)
    | skip
theorem execSpill_lsc (k : CoreRef) (r : RForm) (s z : State) (hz : execSpill k r s = .next z) : OutLogic z s := by
  obtain rfl := (done_eq _ _ _).1 hz
  rw [settle_lsc']
  apply State.instr_lsc; intro x; dsimp only
  repeat' (split <;> (try (rename_i h; have h2 := congrArg Prod.snd h; dsimp only at h2; clear h; subst h2)))
  all_goals simp
theorem execFill_lsc (k : CoreRef) (r : RForm) (s : State) (z : State) (hz : execFill k r s = .next z) : OutLogic z s := by
  obtain rfl := (done_eq _ _ _).1 hz
  rw [settle_lsc']
  apply State.instr_lsc
  all_goals (intros; try dsimp only)
  repeat' (split <;> (try (rename_i h; have h2 := congrArg Prod.snd h; dsimp only at h2; clear h; subst h2)))
  all_goals first
    | done
    | (simp_all; done)
    | (apply foldl_lsc; intro s x; (repeat' split) <;> simp_all; done)
    | (rename_i h; have h2 := congrArg Prod.snd h; dsimp only at h2; clear h; subst h2; simp_all; done)
    | (rename_i h; have h2 := congrArg Prod.snd h; dsimp only at h2; clear h; subst h2; simp; done)
    | (rename_i h _; have h2 := congrArg Prod.snd h; dsimp only at h2; clear h; subst h2; simp_all; done)
    | skip
theorem execAbort_lsc (k : CoreRef) (r : RForm) (s : State) (z : State) (hz : execAbort k r s = .next z) : OutLogic z s := by
  obtain rfl := (done_eq _ _ _).1 hz
  rw [settle_lsc']
  apply State.instr_lsc <;> intros <;> simp
@[simp] theorem State.handlerEvent_lsc (s : State) (d c : Nat) : OutLogic (State.handlerEvent s d c) s := by
  unfold State.handlerEvent; (try dsimp only); (repeat' split) <;> simp
theorem execTret_lsc (k : CoreRef) (r : RForm) (s : State) (z : State) (hz : execTret k r s = .next z) : OutLogic z s := by
  obtain rfl := (done_eq _ _ _).1 hz
  rw [settle_lsc']
  apply State.instr_lsc <;> intros <;> (try dsimp only) <;> (repeat' split) <;> simp

end Sys2Proof.Machine
end

