-- ==== Sys2Proof/Laws/OutLoops.lean ====
section
/-! SUPPORT. Loop engines: what these commands leave unchanged. -/
namespace Sys2Proof.Machine

/-- Every other kind of state is as before. -/
@[simp] abbrev OutLoops (t s : State) : Prop := t.pending = s.pending ∧ t.member = s.member ∧ t.tick = s.tick ∧ t.tickHi = s.tickHi ∧ t.links = s.links ∧ t.cfg = s.cfg ∧ t.ports = s.ports ∧ t.nodes = s.nodes ∧ t.trk = s.trk ∧ t.logic = s.logic ∧ t.cores = s.cores ∧ t.mtr = s.mtr ∧ t.sec = s.sec ∧ t.time = s.time ∧ t.su = s.su
theorem OutLoops.trans {a b c : State} (h : OutLoops a b) (g : OutLoops b c) : OutLoops a c := by
  simp_all only [OutLoops, and_self]
@[simp] theorem foldl_lp {α : Type} (f : State → α → State) (l : List α) (s : State) (h : ∀ s x, OutLoops (f s x) s) :
    OutLoops (l.foldl f s) s := by
  induction l generalizing s with
  | nil => simp only [List.foldl_nil, OutLoops, and_self]
  | cons a l ih => exact OutLoops.trans (ih (f s a)) (h s a)
@[simp] theorem settle_lp (s t : State) : OutLoops (settle s t) t := by
  simp only [OutLoops, settle_pending, settle_member, settle_tick, settle_tickHi, settle_links, settle_cfg, settle_ports, settle_nodes, settle_trk, settle_logic, settle_cores, settle_mtr, settle_sec, settle_time, settle_su, and_self]
theorem settle_lp' (s t u : State) : OutLoops (settle s t) u = OutLoops t u := by
  simp only [OutLoops, settle_pending, settle_member, settle_tick, settle_tickHi, settle_links, settle_cfg, settle_ports, settle_nodes, settle_trk, settle_logic, settle_cores, settle_mtr, settle_sec, settle_time, settle_su]
@[simp] theorem State.setUnit_lp (s : State) (d u : Nat) (x : TestUnit) : OutLoops (State.setUnit s d u x) s := by
  simp [State.setUnit]
@[simp] theorem State.noteCapture_lp (s : State) (d c : Nat) : OutLoops (State.noteCapture s d c) s := by
  unfold State.noteCapture; (try dsimp only); (repeat' split) <;> simp
@[simp] theorem State.capFeed_lp (s : State) (d u : Nat) : OutLoops (State.capFeed s d u) s := by
  unfold State.capFeed; (try dsimp only); (repeat' split) <;> simp
@[simp] theorem State.capFeeds_lp (s : State) (d : Nat) : OutLoops (State.capFeeds s d) s := by
  simp [State.capFeeds]
@[simp] theorem State.elemIndex_lp (s : State) (d c : Nat) (de : Descriptor) : OutLoops (State.elemIndex s d c de).2 s := by
  unfold State.elemIndex; try dsimp only
  repeat' (split <;> (try (rename_i h; have h2 := congrArg Prod.snd h; dsimp only at h2; clear h; subst h2)))
  all_goals first
    | done
    | (simp_all; done)
    | (apply foldl_lp; intro s x; (repeat' split) <;> simp_all; done)
    | (rename_i h; have h2 := congrArg Prod.snd h; dsimp only at h2; clear h; subst h2; simp_all; done)
    | (rename_i h; have h2 := congrArg Prod.snd h; dsimp only at h2; clear h; subst h2; simp; done)
    | (rename_i h _; have h2 := congrArg Prod.snd h; dsimp only at h2; clear h; subst h2; simp_all; done)
    | skip
@[simp] theorem State.copyElem_lp (s : State) (d c : Nat) (de : Descriptor) (sa da n : Nat) : OutLoops (State.copyElem s d c de sa da n) s := by
  unfold State.copyElem; try dsimp only
  repeat' (split <;> (try (rename_i h; have h2 := congrArg Prod.snd h; dsimp only at h2; clear h; subst h2)))
  all_goals first
    | done
    | (simp_all; done)
    | (apply foldl_lp; intro s x; (repeat' split) <;> simp_all; done)
    | (rename_i h; have h2 := congrArg Prod.snd h; dsimp only at h2; clear h; subst h2; simp_all; done)
    | (rename_i h; have h2 := congrArg Prod.snd h; dsimp only at h2; clear h; subst h2; simp; done)
    | (rename_i h _; have h2 := congrArg Prod.snd h; dsimp only at h2; clear h; subst h2; simp_all; done)
    | skip
@[simp] theorem State.aimElem_lp (s : State) (d c : Nat) (de : Descriptor) (sa da n : Nat) : OutLoops (State.aimElem s d c de sa da n) s := by
  unfold State.aimElem; try dsimp only
  repeat' (split <;> (try (rename_i h; have h2 := congrArg Prod.snd h; dsimp only at h2; clear h; subst h2)))
  all_goals first
    | done
    | (simp_all; done)
    | (apply foldl_lp; intro s x; (repeat' split) <;> simp_all; done)
    | (rename_i h; have h2 := congrArg Prod.snd h; dsimp only at h2; clear h; subst h2; simp_all; done)
    | (rename_i h; have h2 := congrArg Prod.snd h; dsimp only at h2; clear h; subst h2; simp; done)
    | (rename_i h _; have h2 := congrArg Prod.snd h; dsimp only at h2; clear h; subst h2; simp_all; done)
    | skip
@[simp] theorem State.moveElem_lp (s : State) (d c : Nat) (de : Descriptor) : OutLoops (State.moveElem s d c de) s := by
  unfold State.moveElem; try dsimp only
  repeat' (split <;> (try (rename_i h; have h2 := congrArg Prod.snd h; dsimp only at h2; clear h; subst h2)))
  all_goals first
    | done
    | (simp_all; done)
    | (apply foldl_lp; intro s x; (repeat' split) <;> simp_all; done)
    | (rename_i h; have h2 := congrArg Prod.snd h; dsimp only at h2; clear h; subst h2; simp_all; done)
    | (rename_i h; have h2 := congrArg Prod.snd h; dsimp only at h2; clear h; subst h2; simp; done)
    | (rename_i h _; have h2 := congrArg Prod.snd h; dsimp only at h2; clear h; subst h2; simp_all; done)
    | skip
@[simp] theorem State.takeLoopSwap_lp (s : State) (d n : Nat) : OutLoops (State.takeLoopSwap s d n) s := by
  unfold State.takeLoopSwap; (try dsimp only); (repeat' split) <;> simp
@[simp] theorem State.requestSwap_lp (s : State) (d n : Nat) (reset : Bool) (r : Option Req) : OutLoops (State.requestSwap s d n reset r) s := by
  unfold State.requestSwap; (try dsimp only); (repeat' split) <;> simp
@[simp] theorem State.unitEnd_lp (s : State) (d u : Nat) : OutLoops (State.unitEnd s d u) s := by
  unfold State.unitEnd; (try dsimp only); (repeat' split) <;> simp_all
@[simp] theorem State.capRecord_lp (s : State) (d u : Nat) (r : CapRec) : OutLoops (State.capRecord s d u r) s := by
  unfold State.capRecord; (try dsimp only); (repeat' split) <;> simp_all
@[simp] theorem State.unitEdge_lp (s : State) (d n : Nat) : OutLoops (s.unitEdge d n) s := by
  unfold State.unitEdge
  apply foldl_lp; intro s u; dsimp only
  (repeat' split) <;> simp
@[simp] theorem State.inject_lp (s : State) (d n : Nat) : OutLoops (State.inject s d n).2 s := by
  unfold State.inject; (try dsimp only); (repeat' split) <;> simp_all
@[simp] theorem State.capture_lp (s : State) (d n : Nat) (r : CapRec) : OutLoops (s.capture d n r) s := by
  unfold State.capture; apply foldl_lp
  intro s u; split <;> simp
@[simp] theorem State.sampleBad_lp (s : State) (d due n : Nat) (late : Bool) (x : LoopSlot) (u0 : Int) (r : CapRec) : OutLoops (State.sampleBad s d due n late x u0 r) s := by
  simp [State.sampleBad]
@[simp] theorem State.sampleLate_lp (s : State) (d due n : Nat) (x : LoopSlot) (u0 : Int) (r : CapRec) : OutLoops (State.sampleLate s d due n x u0 r) s := by
  simp [State.sampleLate]
@[simp] theorem State.sampleGood_lp (s : State) (d due n : Nat) (c : LoopCfg) (x : LoopSlot) (pv sp : Sig) (inj : Option (Bool × Signal)) (u0 : Int) (mark : Nat) : OutLoops (State.sampleGood s d due n c x pv sp inj u0 mark) s := by
  unfold State.sampleGood; (try dsimp only); (repeat' split) <;> simp
@[simp] theorem State.sampleWith_lp (s : State) (d due : Nat) (late : Bool) (n : Nat) (c : LoopCfg) (pv sp : Sig) (u0 : Int) (inj : Option (Bool × Signal)) : OutLoops (State.sampleWith s d due late n c pv sp u0 inj) s := by
  unfold State.sampleWith; (try dsimp only); (repeat' split) <;> simp
@[simp] theorem State.sampleNow_lp (s : State) (d due : Nat) (late : Bool) (n : Nat) (c : LoopCfg) : OutLoops (State.sampleNow s d due late n c) s := by
  simp [State.sampleNow]
@[simp] theorem State.sampleOwn_lp (s : State) (d due : Nat) (late : Bool) (n : Nat) (c : LoopCfg) : OutLoops (State.sampleOwn s d due late n c) s := by
  simp [State.sampleOwn]
@[simp] theorem State.sampleHeld_lp (s : State) (d n : Nat) : OutLoops (s.sampleHeld d n) s := by
  unfold State.sampleHeld; dsimp only
  exact OutLoops.trans (State.capture_lp _ _ _ _) (by simp)
@[simp] theorem State.sampleLoop_lp (s : State) (d due f late n : Nat) : OutLoops (s.sampleLoop d due f late n) s := by
  induction f generalizing s n late with
  | zero => simp [State.sampleLoop]
  | succ f ih =>
    unfold State.sampleLoop
    split
    · simp
    · split
      · simp
      · refine OutLoops.trans (State.sampleOwn_lp _ _ _ _ _ _) ?_
        split
        · dsimp only; (repeat' split) <;> first | exact ih _ _ _ | simp
        · simp
theorem execLoopSample_lp (d : Die) (n : LoopNo) (late : Fin 4) (s : State) (z : State)
    (hz : execLoopSample d n late s = .next z) : OutLoops z s := by
  revert hz; unfold execLoopSample; dsimp only
  split
  · simp only [done_eq]; rintro rfl; simp
  · split
    · simp only [done_eq]; rintro rfl; rw [settle_lp']
      simp
    · simp only [done_eq]; rintro rfl; simp
@[simp] theorem State.setAo_lp (s : State) (k : Nat) (v : V24) : OutLoops (State.setAo s k v) s := by
  unfold State.setAo; (try dsimp only); (repeat' split) <;> simp
@[simp] theorem State.writeLoopOut_lp (s : State) (d n : Nat) (c : LoopCfg) (l : Latch) : OutLoops (State.writeLoopOut s d n c l) s := by
  unfold State.writeLoopOut; (try dsimp only); (repeat' split) <;> simp
@[simp] theorem State.applyLoop_lp (s : State) (d : Nat) (a b : Nat) : OutLoops (State.applyLoop s d a b) s := by
  induction a generalizing s b with
  | zero => simp [State.applyLoop]
  | succ n ih => unfold State.applyLoop; (try dsimp only); (repeat' (split <;> (try (rename_i h; have h2 := congrArg Prod.snd h; dsimp only at h2; clear h; subst h2)))) <;> simp_all
theorem execLoopOutputApply_lp (d : Die) (n : LoopNo) (s : State) (z : State) (hz : execLoopOutputApply d n s = .next z) : OutLoops z s := by
  revert hz; unfold execLoopOutputApply; (try dsimp only); (repeat' split) <;> (simp only [done_eq]; rintro rfl; simp)
@[simp] theorem State.applyAoNext_lp (s : State) : OutLoops (State.applyAoNext s) s := by
  unfold State.applyAoNext; (try dsimp only); (repeat' split) <;> simp
theorem execLocalLoopOutput_lp (s z : State) (hz : execLocalLoopOutput s = .next z) : OutLoops z s := by
  obtain rfl := (done_eq _ _ _).1 hz
  rw [settle_lp']
  refine OutLoops.trans (foldl_lp _ _ _ ?_) (by simp)
  intro s e; repeat' split
  all_goals simp
@[simp] theorem State.startUnit_lp (s : State) (d u : Nat) : OutLoops (State.startUnit s d u) s := by
  unfold State.startUnit; (try dsimp only); (repeat' split) <;> simp_all
@[simp] theorem State.tuCtrl_lp (s : State) (d u v : Nat) : OutLoops (State.tuCtrl s d u v) s := by
  unfold State.tuCtrl; (try dsimp only); (repeat' split) <;> simp_all

end Sys2Proof.Machine
end

