-- ==== Sys2Proof/Laws/OutField.lean ====
section
/-! SUPPORT. Field I/O and motion: what these commands leave unchanged. -/
namespace Sys2Proof.Machine

/-- Every other kind of state is as before. -/
@[simp] abbrev OutField (t s : State) : Prop := t.pending = s.pending ∧ t.member = s.member ∧ t.tick = s.tick ∧ t.tickHi = s.tickHi ∧ t.links = s.links ∧ t.cfg = s.cfg ∧ t.ports = s.ports ∧ t.nodes = s.nodes ∧ t.trk = s.trk ∧ t.logic = s.logic ∧ t.cores = s.cores ∧ t.loopDies = s.loopDies ∧ t.loops = s.loops ∧ t.mtr = s.mtr ∧ t.mem = s.mem ∧ t.tags = s.tags ∧ t.owners = s.owners ∧ t.atus = s.atus ∧ t.dmas = s.dmas ∧ t.sec = s.sec ∧ t.time = s.time ∧ t.su = s.su
theorem OutField.trans {a b c : State} (h : OutField a b) (g : OutField b c) : OutField a c := by
  simp_all only [OutField, and_self]
@[simp] theorem foldl_fld {α : Type} (f : State → α → State) (l : List α) (s : State) (h : ∀ s x, OutField (f s x) s) :
    OutField (l.foldl f s) s := by
  induction l generalizing s with
  | nil => simp only [List.foldl_nil, OutField, and_self]
  | cons a l ih => exact OutField.trans (ih (f s a)) (h s a)
@[simp] theorem settle_fld (s t : State) : OutField (settle s t) t := by
  simp only [OutField, settle_pending, settle_member, settle_tick, settle_tickHi, settle_links, settle_cfg, settle_ports, settle_nodes, settle_trk, settle_logic, settle_cores, settle_loopDies, settle_loops, settle_mtr, settle_mem, settle_tags, settle_owners, settle_atus, settle_dmas, settle_sec, settle_time, settle_su, and_self]
theorem settle_fld' (s t u : State) : OutField (settle s t) u = OutField t u := by
  simp only [OutField, settle_pending, settle_member, settle_tick, settle_tickHi, settle_links, settle_cfg, settle_ports, settle_nodes, settle_trk, settle_logic, settle_cores, settle_loopDies, settle_loops, settle_mtr, settle_mem, settle_tags, settle_owners, settle_atus, settle_dmas, settle_sec, settle_time, settle_su]
@[simp] theorem State.setGroup_fld (s : State) (g : Nat) (x : Group) : OutField (State.setGroup s g x) s := by
  simp [State.setGroup]
@[simp] theorem State.modGroup_fld (s : State) (g : Nat) (f : Group → Group) : OutField (State.modGroup s g f) s := by
  simp [State.modGroup]
@[simp] theorem State.chEvent_fld (s : State) (c code what : Nat) : OutField (State.chEvent s c code what) s := by
  simp [State.chEvent]
@[simp] theorem State.switchOn_fld (s : State) (c rank : Nat) : OutField (State.switchOn s c rank) s := by
  simp [State.switchOn]
@[simp] theorem State.switchOff_fld (s : State) (c : Nat) : OutField (State.switchOff s c) s := by
  simp [State.switchOff]
@[simp] theorem State.chFault_fld (s : State) (c : Nat) (thermal : Bool) : OutField (State.chFault s c thermal) s := by
  simp [State.chFault]
@[simp] theorem State.serveRetry_fld (s : State) (g : Nat) : OutField (State.serveRetry s g) s := by
  unfold State.serveRetry; (try dsimp only); (repeat' split) <;> simp
@[simp] theorem State.queueRetry_fld (s : State) (c : Nat) : OutField (State.queueRetry s c) s := by
  simp [State.queueRetry]
@[simp] theorem State.cancelRetry_fld (s : State) (c : Nat) : OutField (State.cancelRetry s c) s := by
  unfold State.cancelRetry; (try dsimp only); (repeat' split) <;> simp
@[simp] theorem State.quitChan_fld (s : State) (c : Nat) : OutField (State.quitChan s c) s := by
  simp [State.quitChan]
@[simp] theorem State.obey_fld (s : State) (c rank : Nat) (want : Bool) : OutField (State.obey s c rank want) s := by
  unfold State.obey; (try dsimp only); (repeat' split) <;> simp
@[simp] theorem State.obeyAll_fld (s : State) : OutField (State.obeyAll s) s := by
  simp [State.obeyAll]
@[simp] theorem State.sendAo_fld (s : State) : OutField (State.sendAo s) s := by
  simp [State.sendAo]
@[simp] theorem State.sampleAins_fld (s : State) (l : List Int) : OutField (State.sampleAins s l) s := by
  simp [State.sampleAins]
@[simp] theorem State.writeDue_fld (s : State) : OutField (State.writeDue s) s := by
  simp [State.writeDue]
@[simp] theorem State.moveDone_fld (s : State) (m : Nat) : OutField (State.moveDone s m) s := by
  simp [State.moveDone]
@[simp] theorem State.legOff_fld (s : State) (m : Nat) : OutField (State.legOff s m) s := by
  unfold State.legOff; (try dsimp only); (repeat' split) <;> simp
@[simp] theorem State.rest_fld (s : State) (m : Nat) : OutField (State.rest s m) s := by
  simp [State.rest]
@[simp] theorem State.motFault_fld (s : State) (m n : Nat) : OutField (State.motFault s m n) s := by
  unfold State.motFault; (try dsimp only); (repeat' split) <;> simp
@[simp] theorem State.motStop_fld (s : State) (m : Nat) : OutField (State.motStop s m) s := by
  unfold State.motStop; (try dsimp only); (repeat' split) <;> simp
@[simp] theorem State.legOn_fld (s : State) (m : Nat) (home : Bool) (g : MoveGoal) : OutField (State.legOn s m home g) s := by
  unfold State.legOn; (try dsimp only); (repeat' split) <;> simp
@[simp] theorem State.homeFirst_fld (s : State) (m : Nat) (g : MoveGoal) : OutField (State.homeFirst s m g) s := by
  unfold State.homeFirst; (try dsimp only); (repeat' split) <;> simp
@[simp] theorem State.startMove_fld (s : State) (m : Nat) (g : MoveGoal) : OutField (State.startMove s m g) s := by
  unfold State.startMove; (try dsimp only); (repeat' split) <;> simp
@[simp] theorem State.waitMove_fld (s : State) (m : Nat) (g : MoveGoal) : OutField (State.waitMove s m g) s := by
  unfold State.waitMove; (try dsimp only); (repeat' split) <;> simp
@[simp] theorem State.redirect_fld (s : State) (m : Nat) (g : MoveGoal) : OutField (State.redirect s m g) s := by
  unfold State.redirect; (try dsimp only); (repeat' split) <;> simp
@[simp] theorem State.move_fld (s : State) (m : Nat) (g : MoveGoal) (r : Option Req) : OutField (State.move s m g r).2 s := by
  unfold State.move; (try dsimp only); (repeat' split) <;> simp
@[simp] theorem State.motClear_fld (s : State) (m : Nat) : OutField (State.motClear s m) s := by
  simp [State.motClear]
@[simp] theorem State.motAns_fld (s : State) (m : Nat) (r : Option Req) : OutField (State.motAns s m r) s := by
  simp [State.motAns]
@[simp] theorem State.motCmd_fld (s : State) (m cmd : Nat) (target : V24) (r : Option Req) : OutField (State.motCmd s m cmd target r).2 s := by
  unfold State.motCmd; (try dsimp only); (repeat' split) <;> simp
@[simp] theorem State.limitChange_fld (s : State) (m : Nat) (home : Bool) : OutField (State.limitChange s m home) s := by
  unfold State.limitChange; (try dsimp only); (repeat' split) <;> simp
@[simp] theorem State.motPulse_fld (s : State) (m : Nat) : OutField (State.motPulse s m) s := by
  unfold State.motPulse; (try dsimp only); (repeat' split) <;> simp
theorem execCoastEnd_fld (m : MotNo) (s : State) (z : State) (hz : execCoastEnd m s = .next z) : OutField z s := by
  revert hz; unfold execCoastEnd; (try dsimp only); (repeat' split) <;> (simp only [done_eq]; rintro rfl; simp)
theorem execDeadTimeExpiry_fld (m : MotNo) (s : State) (z : State) (hz : execDeadTimeExpiry m s = .next z) : OutField z s := by
  revert hz; unfold execDeadTimeExpiry; (try dsimp only); (repeat' split) <;> (simp only [done_eq]; rintro rfl; simp)
theorem execMoveTimeout_fld (m : MotNo) (s : State) (z : State) (hz : execMoveTimeout m s = .next z) : OutField z s := by
  revert hz; unfold execMoveTimeout; (try dsimp only); (repeat' split) <;> (simp only [done_eq]; rintro rfl; simp)
theorem execPulseLossTimeout_fld (m : MotNo) (s : State) (z : State) (hz : execPulseLossTimeout m s = .next z) : OutField z s := by
  revert hz; unfold execPulseLossTimeout; (try dsimp only); (repeat' split) <;> (simp only [done_eq]; rintro rfl; simp)
theorem execMotionTargetChange_fld (m : MotNo) (s : State) (z : State) (hz : execMotionTargetChange m s = .next z) : OutField z s := by
  revert hz; unfold execMotionTargetChange; (try dsimp only); (repeat' split) <;> (simp only [done_eq]; rintro rfl; simp)
@[simp] theorem State.legReport_fld (s : State) (m : Nat) (home : Bool) : OutField (State.legReport s m home) s := by
  unfold State.legReport; (try dsimp only); (repeat' split) <;> simp
@[simp] theorem State.legFault_fld (s : State) (m : Nat) (home : Bool) : OutField (State.legFault s m home) s := by
  unfold State.legFault; (try dsimp only); (repeat' split) <;> simp
@[simp] theorem State.fault_fld (s : State) (c : Nat) (thermal : Bool) : OutField (State.fault s c thermal) s := by
  unfold State.fault; (try dsimp only); (repeat' split) <;> simp
@[simp] theorem State.safeChan_fld (s : State) (rank : Nat) (c : Nat) : OutField (State.safeChan s rank c) s := by
  unfold State.safeChan; (try dsimp only); (repeat' split) <;> simp
@[simp] theorem State.applySafe_fld (s : State) : OutField (State.applySafe s) s := by
  simp [State.applySafe]
@[simp] theorem State.enterSafe_fld (s : State) (cause : Nat) : OutField (State.enterSafe s cause) s := by
  simp [State.enterSafe]
@[simp] theorem State.fioRelease_fld (s : State) : OutField (State.fioRelease s) s := by
  unfold State.fioRelease; (try dsimp only); (repeat' split) <;> simp
@[simp] theorem State.sendCfg_fld (s : State) : OutField (State.sendCfg s) s := by
  unfold State.sendCfg; (try dsimp only); (repeat' split) <;> simp
@[simp] theorem State.linkBack_fld (s : State) : OutField (State.linkBack s) s := by
  unfold State.linkBack; (try dsimp only); (repeat' split) <;> simp
theorem execFioLinkLoss_fld (s : State) (z : State) (hz : execFioLinkLoss s = .next z) : OutField z s := by
  revert hz; unfold execFioLinkLoss; (try dsimp only); (repeat' split) <;> (simp only [done_eq]; rintro rfl; simp)
theorem execWatchdogRefresh_fld (s : State) (z : State) (hz : execWatchdogRefresh s = .next z) : OutField z s := by
  revert hz; unfold execWatchdogRefresh; (try dsimp only); (repeat' split) <;> (simp only [done_eq]; rintro rfl; simp)
theorem execFioWatchdogExpiry_fld (s : State) (z : State) (hz : execFioWatchdogExpiry s = .next z) : OutField z s := by
  revert hz; unfold execFioWatchdogExpiry; (try dsimp only); (repeat' split) <;> (simp only [done_eq]; rintro rfl; simp)
theorem execFioControllerPowerUp_fld (s : State) (z : State) (hz : execFioControllerPowerUp s = .next z) : OutField z s := by
  obtain rfl := (done_eq _ _ _).1 hz; simp
@[simp] theorem State.filtChange_fld (s : State) (c : Nat) : OutField (State.filtChange s c) s := by
  unfold State.filtChange; (try dsimp only); (repeat' split) <;> simp
theorem execInputRawChange_fld (c : Chan) (high : Bool) (s : State) (z : State) (hz : execInputRawChange c high s = .next z) : OutField z s := by
  revert hz; unfold execInputRawChange; (try dsimp only); (repeat' split) <;> (simp only [done_eq]; rintro rfl; simp)
theorem execInputFilterSample_fld (c : Chan) (s : State) (z : State) (hz : execInputFilterSample c s = .next z) : OutField z s := by
  revert hz; unfold execInputFilterSample; (try dsimp only); (repeat' split) <;> (simp only [done_eq]; rintro rfl; simp)
theorem execInputPointRefresh_fld (analog : Bool) (s : State) (z : State) (hz : execInputPointRefresh analog s = .next z) : OutField z s := by
  revert hz; unfold execInputPointRefresh; (try dsimp only); (repeat' split) <;> (simp only [done_eq]; rintro rfl; simp)
theorem execPulseEdge_fld (c : Chan) (s : State) (z : State) (hz : execPulseEdge c s = .next z) : OutField z s := by
  revert hz; unfold execPulseEdge; (try dsimp only); (repeat' split) <;> (simp only [done_eq]; rintro rfl; simp)
theorem execBlankingEnd_fld (c : Chan) (limiting : Bool) (s : State) (z : State) (hz : execBlankingEnd c limiting s = .next z) : OutField z s := by
  revert hz; unfold execBlankingEnd; (try dsimp only); (repeat' split) <;> (simp only [done_eq]; rintro rfl; simp)
theorem execOvercurrentDetect_fld (c : Chan) (s : State) (z : State) (hz : execOvercurrentDetect c s = .next z) : OutField z s := by
  revert hz; unfold execOvercurrentDetect; (try dsimp only); (repeat' split) <;> (simp only [done_eq]; rintro rfl; simp)
theorem execThermalTrip_fld (c : Chan) (s : State) (z : State) (hz : execThermalTrip c s = .next z) : OutField z s := by
  revert hz; unfold execThermalTrip; (try dsimp only); (repeat' split) <;> (simp only [done_eq]; rintro rfl; simp)
theorem execRetryTimerExpiry_fld (c : Chan) (s : State) (z : State) (hz : execRetryTimerExpiry c s = .next z) : OutField z s := by
  revert hz; unfold execRetryTimerExpiry; (try dsimp only); (repeat' split) <;> (simp only [done_eq]; rintro rfl; simp)
theorem execJunctionCooled_fld (c : Chan) (s : State) (z : State) (hz : execJunctionCooled c s = .next z) : OutField z s := by
  revert hz; unfold execJunctionCooled; (try dsimp only); (repeat' split) <;> (simp only [done_eq]; rintro rfl; simp)
theorem execGroupOverloadDetect_fld (g : Fin 4) (s : State) (z : State) (hz : execGroupOverloadDetect g s = .next z) : OutField z s := by
  revert hz; unfold execGroupOverloadDetect; (try dsimp only); (repeat' split) <;> (simp only [done_eq]; rintro rfl; simp)
@[simp] theorem State.clearChan_fld (s : State) (c : Nat) : OutField (State.clearChan s c) s := by
  unfold State.clearChan; (try dsimp only); (repeat' split) <;> simp
@[simp] theorem State.fioClr_fld (s : State) (v : Nat) : OutField (State.fioClr s v) s := by
  unfold State.fioClr; (try dsimp only); (repeat' split) <;> simp
@[simp] theorem State.groupLost_fld (s : State) (g : Nat) : OutField (State.groupLost s g) s := by
  unfold State.groupLost; try dsimp only
  repeat' (split <;> (try (rename_i h; have h2 := congrArg Prod.snd h; dsimp only at h2; clear h; subst h2)))
  all_goals first
    | done
    | (simp_all; done)
    | (apply foldl_fld; intro s x; (repeat' split) <;> simp_all; done)
    | (rename_i h; have h2 := congrArg Prod.snd h; dsimp only at h2; clear h; subst h2; simp_all; done)
    | (rename_i h; have h2 := congrArg Prod.snd h; dsimp only at h2; clear h; subst h2; simp; done)
    | (rename_i h _; have h2 := congrArg Prod.snd h; dsimp only at h2; clear h; subst h2; simp_all; done)
    | skip
@[simp] theorem State.groupBack_fld (s : State) (g : Nat) : OutField (State.groupBack s g) s := by
  simp [State.groupBack]
@[simp] theorem State.serveRestore_fld (s : State) (g : Nat) : OutField (State.serveRestore s g) s := by
  unfold State.serveRestore; (try dsimp only); (repeat' split) <;> simp
@[simp] theorem State.supplyTurn_fld (s : State) (g : Nat) (x y : Group) : OutField (State.supplyTurn s g x y) s := by
  unfold State.supplyTurn; (repeat' split) <;> simp
@[simp] theorem State.supplyShow_fld (s : State) (g : Nat) (x y : Group) : OutField (State.supplyShow s g x y) s := by
  unfold State.supplyShow; split <;> simp
@[simp] theorem State.supply_fld (s : State) (g mv ma : Nat) : OutField (State.supply s g mv ma) s := by
  simp [State.supply]
theorem execSupplySample_fld (volts currents : List Nat) (s : State) (z : State) (hz : execSupplySample volts currents s = .next z) : OutField z s := by
  obtain rfl := (done_eq _ _ _).1 hz; simp
@[simp] theorem State.stGo_fld (s : State) (k : Nat) : OutField (State.stGo s k) s := by
  unfold State.stGo; (try dsimp only); (repeat' split) <;> simp
@[simp] theorem State.fioStStart_fld (s : State) : OutField (State.fioStStart s) s := by
  unfold State.fioStStart; (try dsimp only); (repeat' split) <;> simp
@[simp] theorem State.fioStStop_fld (s : State) : OutField (State.fioStStop s) s := by
  simp [State.fioStStop]
theorem execSelftestPassStart_fld (s : State) (z : State) (hz : execSelftestPassStart s = .next z) : OutField z s := by
  revert hz; unfold execSelftestPassStart; (try dsimp only); (repeat' split) <;> (simp only [done_eq]; rintro rfl; simp)
theorem execSelftestSlot_fld (c : Chan) (bad : Bool) (s : State) (z : State) (hz : execSelftestSlot c bad s = .next z) : OutField z s := by
  revert hz; unfold execSelftestSlot; (try dsimp only); (repeat' split) <;> (simp only [done_eq]; rintro rfl; simp)
@[simp] theorem State.fioServe_fld (s : State) : OutField (State.fioServe s) s := by
  simp [State.fioServe]
@[simp] theorem State.fioTick_fld (s : State) (l : List Int) : OutField (State.fioTick s l) s := by
  unfold State.fioTick; (try dsimp only); (repeat' split) <;> simp

end Sys2Proof.Machine
end

