-- ==== Sys2Proof/Laws/OutHost.lean ====
section
/-! SUPPORT. The operations that leave the host port alone. -/
namespace Sys2Proof.Machine

/-- The host port is as before. -/
@[simp] abbrev SameHost (t s : State) : Prop := t.host = s.host
theorem SameHost.trans {a b c : State} (h : SameHost a b) (g : SameHost b c) : SameHost a c := by
  simp_all only [SameHost, and_self]
@[simp] theorem foldl_hp {α : Type} (f : State → α → State) (l : List α) (s : State) (h : ∀ s x, SameHost (f s x) s) :
    SameHost (l.foldl f s) s := by
  induction l generalizing s with
  | nil => simp only [List.foldl_nil, SameHost, and_self]
  | cons a l ih => exact SameHost.trans (ih (f s a)) (h s a)
@[simp] theorem State.create_hp (s : State) (e : Event) : SameHost (State.create s e) s := by
  unfold State.create; (try dsimp only); (repeat' split) <;> simp
@[simp] theorem State.report_hp (s : State) (e : Event) : SameHost (State.report s e) s := by
  unfold State.report; (try dsimp only); (repeat' split) <;> simp
@[simp] theorem State.event_hp (s : State) (t : Tenant) (d b inst c : Nat) (data : List Word) : SameHost (State.event s t d b inst c data) s := by
  simp [State.event]
@[simp] theorem State.thaw_hp (s : State) : SameHost (State.thaw s) s := by
  unfold State.thaw; (try dsimp only); (repeat' split) <;> simp
@[simp] theorem State.modDrive_hp (s : State) (n : Nat) (f : Drive → Drive) : SameHost (State.modDrive s n f) s := by
  simp [State.modDrive]
@[simp] theorem State.hstIrq_hp (s : State) (d bit : Nat) : SameHost (State.hstIrq s d bit) s := by
  simp [State.hstIrq]
@[simp] theorem State.nvmeCmd_hp (s : State) (d : Nat) (op : NvmeOp) (sba blocks : Nat) (data : List Byte) : SameHost (State.nvmeCmd s d op sba blocks data) s := by
  unfold State.nvmeCmd; (try dsimp only); (repeat' split) <;> simp
@[simp] theorem State.nvmeWrite_hp (s : State) (d sba : Nat) (data : List Byte) : SameHost (State.nvmeWrite s d sba data) s := by
  unfold State.nvmeWrite; (try dsimp only); (repeat' split) <;> simp
@[simp] theorem State.storeWrite_hp (s : State) (sba : Nat) (data : List Byte) : SameHost (State.storeWrite s sba data) s := by
  unfold State.storeWrite; (try dsimp only); (repeat' split) <;> simp
@[simp] theorem State.deallocate_hp (s : State) (n : Nat) : SameHost (State.deallocate s n) s := by
  unfold State.deallocate; (try dsimp only); (repeat' split) <;> simp
@[simp] theorem State.takeNonces_hp (s : State) (t : Tenant) (k : Nat) : SameHost (State.takeNonces s t k).2 s := by
  simp [State.takeNonces]
@[simp] theorem State.takeNonce_hp (s : State) (t : Tenant) : SameHost (State.takeNonce s t).2 s := by
  simp [State.takeNonce]
@[simp] theorem State.metaWrite_hp (s : State) (blk n : Nat) (payload : Nat → List Byte) : SameHost (State.metaWrite s blk n payload) s := by
  unfold State.metaWrite
  apply foldl_hp; intro s e; dsimp only
  exact SameHost.trans (foldl_hp _ _ _ fun s d => by simp) (by simp)
@[simp] theorem State.flushCaches_hp (s : State) : SameHost (State.flushCaches s) s := by
  unfold State.flushCaches
  apply foldl_hp; intro s e; split <;> simp
@[simp] theorem State.writeSuper_hp (s : State) (b : Bool) : SameHost (State.writeSuper s b) s := by
  simp [State.writeSuper]
@[simp] theorem State.checkpoint_hp (s : State) : SameHost (State.checkpoint s) s := by
  unfold State.checkpoint; (try dsimp only); (repeat' split) <;> simp
@[simp] theorem State.reclaim_hp (s : State) (n : Nat) : SameHost (State.reclaim s n) s := by
  unfold State.reclaim; (try dsimp only); (repeat' split) <;> simp
@[simp] theorem State.reclaimTo_hp (s : State) (t : Tenant) (n : Nat) : SameHost (State.reclaimTo s t n) s := by
  induction n generalizing s  with
  | zero => unfold State.reclaimTo; (try dsimp only); (repeat' (split <;> (try (rename_i h; have h2 := congrArg Prod.snd h; dsimp only at h2; clear h; subst h2)))) <;>
    first
    | done
    | (simp_all; done)
    | (rename_i h; have h2 := congrArg Prod.snd h; dsimp only at h2; clear h; subst h2; simp_all; done)
    | (rename_i h _; have h2 := congrArg Prod.snd h; dsimp only at h2; clear h; subst h2; simp_all; done)
    | (rename_i h _ _; have h2 := congrArg Prod.snd h; dsimp only at h2; clear h; subst h2; simp_all; done)
    | skip
  | succ n ih => unfold State.reclaimTo; (try dsimp only); (repeat' (split <;> (try (rename_i h; have h2 := congrArg Prod.snd h; dsimp only at h2; clear h; subst h2)))) <;>
    first
    | done
    | (simp_all; done)
    | (rename_i h; have h2 := congrArg Prod.snd h; dsimp only at h2; clear h; subst h2; simp_all; done)
    | (rename_i h _; have h2 := congrArg Prod.snd h; dsimp only at h2; clear h; subst h2; simp_all; done)
    | (rename_i h _ _; have h2 := congrArg Prod.snd h; dsimp only at h2; clear h; subst h2; simp_all; done)
    | skip
theorem State.openSeg_hp (s : State) (t : Tenant) (kind : Nat) (src : Byte) (z) (h : State.openSeg s t kind src = some z) : SameHost z.2 s := by
  revert h; unfold State.openSeg; (try dsimp only)
  (repeat' (split <;> (try (rename_i h; have h2 := congrArg Prod.snd h; dsimp only at h2; clear h; subst h2)))) <;> (try simp) <;> (try rintro rfl) <;> (try simp_all)
theorem State.segFor_hp (s : State) (t : Tenant) (kind : Nat) (src : Byte) (z : Nat × State)
    (h : s.segFor t kind src = some z) : SameHost z.2 s := by
  unfold State.segFor at h
  split at h
  · cases h; simp
  · exact State.openSeg_hp _ _ _ _ _ h
theorem State.writeBlock_hp (s : State) (t : Tenant) (kind : Nat) (src : Byte) (b : Block) (z : State)
    (h : s.writeBlock t kind src b = some z) : SameHost z s := by
  unfold State.writeBlock at h
  split at h
  · split at h
    · cases h
    · rename_i n u hu
      have k := State.segFor_hp _ _ _ _ _ hu
      by_cases hk : kind = 0 <;> simp only [hk, if_true, if_false, Option.some.injEq] at h <;> subst h <;> simp_all
  · cases h
@[simp] theorem State.drain_hp (s : State) (t : Tenant) (l : List Block) : SameHost (s.drain t l).2 s := by
  induction l generalizing s with
  | nil => simp [State.drain]
  | cons a l ih =>
    unfold State.drain
    split
    · rename_i u hu
      exact SameHost.trans (ih u) (State.writeBlock_hp _ _ _ _ _ _ hu)
    · simp
@[simp] theorem State.setStaging_hp (s : State) (d : Nat) (t : Tenant) (x : Staging) : SameHost (State.setStaging s d t x) s := by
  simp [State.setStaging]
@[simp] theorem State.flushStaging_hp (s : State) (d : Nat) (t : Tenant) : SameHost (State.flushStaging s d t) s := by
  unfold State.flushStaging; dsimp only; (repeat' split) <;> simp
theorem State.stage_hp (s : State) (d : Nat) (t : Tenant) (r : TrendRec) (z : State) (h : s.stage d t r = some z) : SameHost z s := by
  unfold State.stage at h; dsimp only at h
  repeat' split at h
  all_goals first | (simp at h; done) | (obtain rfl := Option.some.inj h; simp)
@[simp] theorem State.recordTrend_hp (s : State) (d : Nat) (t : Tenant) (series : Nat) (status : Byte) (v : V24) (periodic : Bool) :
    SameHost (s.recordTrend d t series status v periodic) s := by
  unfold State.recordTrend; dsimp only
  split
  · rename_i u hu
    have k := State.stage_hp _ _ _ _ _ hu
    simp_all
  · simp
@[simp] theorem State.trendChange_hp (s : State) (m : Nat) (d : Desc) (c : Cell) : SameHost (State.trendChange s m d c) s := by
  unfold State.trendChange; (try dsimp only); (repeat' split) <;> simp
@[simp] theorem State.putCell_hp (s : State) (m : Nat) (d : Desc) (c : Cell) : SameHost (State.putCell s m d c) s := by
  unfold State.putCell; (try dsimp only); (repeat' split) <;> simp
@[simp] theorem State.bumpGen_hp (s : State) (b : Nat) : SameHost (State.bumpGen s b) s := by
  simp [State.bumpGen]
@[simp] theorem State.sourceWrite_hp (s : State) (m : Nat) (src : Src) (q : Qual) (v : V24) : SameHost (State.sourceWrite s m src q v) s := by
  unfold State.sourceWrite; (try dsimp only); (repeat' split) <;> simp
@[simp] theorem State.sourceWrites_hp (s : State) (l : List CellWrite) : SameHost (State.sourceWrites s l) s := by
  induction l generalizing s with
  | nil => unfold State.sourceWrites; (try dsimp only); (repeat' (split <;> (try (rename_i h; have h2 := congrArg Prod.snd h; dsimp only at h2; clear h; subst h2)))) <;>
    first
    | done
    | (simp_all; done)
    | (rename_i h; have h2 := congrArg Prod.snd h; dsimp only at h2; clear h; subst h2; simp_all; done)
    | (rename_i h _; have h2 := congrArg Prod.snd h; dsimp only at h2; clear h; subst h2; simp_all; done)
    | (rename_i h _ _; have h2 := congrArg Prod.snd h; dsimp only at h2; clear h; subst h2; simp_all; done)
    | skip
  | cons a l ih => unfold State.sourceWrites; (try dsimp only); (repeat' (split <;> (try (rename_i h; have h2 := congrArg Prod.snd h; dsimp only at h2; clear h; subst h2)))) <;>
    first
    | done
    | (simp_all; done)
    | (rename_i h; have h2 := congrArg Prod.snd h; dsimp only at h2; clear h; subst h2; simp_all; done)
    | (rename_i h _; have h2 := congrArg Prod.snd h; dsimp only at h2; clear h; subst h2; simp_all; done)
    | (rename_i h _ _; have h2 := congrArg Prod.snd h; dsimp only at h2; clear h; subst h2; simp_all; done)
    | skip
@[simp] theorem State.bumpGens_hp (s : State) (l : List Nat) : SameHost (State.bumpGens s l) s := by
  induction l generalizing s with
  | nil => unfold State.bumpGens; (try dsimp only); (repeat' (split <;> (try (rename_i h; have h2 := congrArg Prod.snd h; dsimp only at h2; clear h; subst h2)))) <;>
    first
    | done
    | (simp_all; done)
    | (rename_i h; have h2 := congrArg Prod.snd h; dsimp only at h2; clear h; subst h2; simp_all; done)
    | (rename_i h _; have h2 := congrArg Prod.snd h; dsimp only at h2; clear h; subst h2; simp_all; done)
    | (rename_i h _ _; have h2 := congrArg Prod.snd h; dsimp only at h2; clear h; subst h2; simp_all; done)
    | skip
  | cons a l ih => unfold State.bumpGens; (try dsimp only); (repeat' (split <;> (try (rename_i h; have h2 := congrArg Prod.snd h; dsimp only at h2; clear h; subst h2)))) <;>
    first
    | done
    | (simp_all; done)
    | (rename_i h; have h2 := congrArg Prod.snd h; dsimp only at h2; clear h; subst h2; simp_all; done)
    | (rename_i h _; have h2 := congrArg Prod.snd h; dsimp only at h2; clear h; subst h2; simp_all; done)
    | (rename_i h _ _; have h2 := congrArg Prod.snd h; dsimp only at h2; clear h; subst h2; simp_all; done)
    | skip
@[simp] theorem State.batch_hp (s : State) (l : List CellWrite) : SameHost (State.batch s l) s := by
  simp [State.batch]
@[simp] theorem State.oneBatch_hp (s : State) (m : Nat) (d : Desc) (c : Cell) : SameHost (State.oneBatch s m d c) s := by
  simp [State.oneBatch]
@[simp] theorem State.markBad_hp (s : State) (m : Nat) : SameHost (State.markBad s m) s := by
  unfold State.markBad; (try dsimp only); (repeat' split) <;> simp
@[simp] theorem State.refuseWrite_hp (s : State) (m : Nat) : SameHost (State.refuseWrite s m) s := by
  simp [State.refuseWrite]
@[simp] theorem State.placeForce_hp (s : State) (m : Nat) (v : V24) : SameHost (State.placeForce s m v) s := by
  unfold State.placeForce; (try dsimp only); (repeat' split) <;> simp
@[simp] theorem State.force_hp (s : State) (t : Tenant) (m : Nat) (v : V24) : SameHost (State.force s t m v) s := by
  unfold State.force; (try dsimp only); (repeat' split) <;> simp
@[simp] theorem State.release_hp (s : State) (m : Nat) : SameHost (State.release s m) s := by
  unfold State.release; (try dsimp only); (repeat' split) <;> simp
@[simp] theorem State.integFail_hp (s : State) (line : Nat) : SameHost (State.integFail s line) s := by
  unfold State.integFail; (try dsimp only); (repeat' split) <;> simp
@[simp] theorem State.writeLine_hp (s : State) (line : Nat) (data : List Byte) : SameHost (s.writeLine line data) s := by
  simp [State.writeLine]
@[simp] theorem State.mergeLine_hp (s : State) (line : Nat) (data : List (Nat × Byte)) : SameHost (s.mergeLine line data).2 s := by
  unfold State.mergeLine; split <;> simp
@[simp] theorem State.readPhys_hp (s : State) (pa : Nat) (n : Nat) : SameHost (State.readPhys s pa n).2 s := by
  induction n generalizing s pa with
  | zero => unfold State.readPhys; (try dsimp only); (repeat' (split <;> (try (rename_i h; have h2 := congrArg Prod.snd h; dsimp only at h2; clear h; subst h2)))) <;>
    first
    | done
    | (simp_all; done)
    | (rename_i h; have h2 := congrArg Prod.snd h; dsimp only at h2; clear h; subst h2; simp_all; done)
    | (rename_i h _; have h2 := congrArg Prod.snd h; dsimp only at h2; clear h; subst h2; simp_all; done)
    | (rename_i h _ _; have h2 := congrArg Prod.snd h; dsimp only at h2; clear h; subst h2; simp_all; done)
    | skip
  | succ n ih => unfold State.readPhys; (try dsimp only); (repeat' (split <;> (try (rename_i h; have h2 := congrArg Prod.snd h; dsimp only at h2; clear h; subst h2)))) <;>
    first
    | done
    | (simp_all; done)
    | (rename_i h; have h2 := congrArg Prod.snd h; dsimp only at h2; clear h; subst h2; simp_all; done)
    | (rename_i h _; have h2 := congrArg Prod.snd h; dsimp only at h2; clear h; subst h2; simp_all; done)
    | (rename_i h _ _; have h2 := congrArg Prod.snd h; dsimp only at h2; clear h; subst h2; simp_all; done)
    | skip
@[simp] theorem State.xlateFault_hp (s : State) (d ctx cause : Nat) (write pin : Bool) (inst va : Nat) : SameHost (State.xlateFault s d ctx cause write pin inst va) s := by
  unfold State.xlateFault; (try dsimp only); (repeat' split) <;> simp
@[simp] theorem State.engFault_hp (s : State) (d cls inst : Nat) (write : Bool) (e : EngFault) :
    SameHost (s.engFault d cls inst write e) s := by
  unfold State.engFault; split
  · simp
  · split <;> simp
@[simp] theorem State.walkWord_hp (s : State) (pa : Nat) : SameHost (State.walkWord s pa).2 s := by
  unfold State.walkWord; try dsimp only
  repeat' (split <;> (try (rename_i h; have h2 := congrArg Prod.snd h; dsimp only at h2; clear h; subst h2)))
  all_goals first
    | done
    | (simp_all; done)
    | (apply foldl_hp; intro s x; (repeat' split) <;> simp_all; done)
    | (rename_i h; have h2 := congrArg Prod.snd h; dsimp only at h2; clear h; subst h2; simp_all; done)
    | (rename_i h; have h2 := congrArg Prod.snd h; dsimp only at h2; clear h; subst h2; simp; done)
    | (rename_i h _; have h2 := congrArg Prod.snd h; dsimp only at h2; clear h; subst h2; simp_all; done)
    | skip
@[simp] theorem State.walkPage_hp (s : State) (e : Pte) (va : Nat) (wp : Bool) : SameHost (State.walkPage s e va wp).2 s := by
  rw [State.walkPage]
  have h := State.walkWord_hp s (e.entry va)
  generalize s.walkWord (e.entry va) = r at h ⊢
  rcases r with ⟨_ | w, u⟩ <;> exact h
@[simp] theorem State.walkTop_hp (s : State) (c va : Nat) : SameHost (State.walkTop s c va).2 s := by
  rw [State.walkTop]
  have h := State.walkWord_hp s (topEntry c va)
  generalize s.walkWord (topEntry c va) = r at h ⊢
  rcases r with ⟨_ | w, u⟩
  · exact h
  · dsimp only
    split
    · exact h
    · exact (State.walkPage_hp u _ va _).trans h
@[simp] theorem State.walk_hp (s : State) (d ctx va : Nat) : SameHost (State.walk s d ctx va).2 s := by
  unfold State.walk; try dsimp only
  repeat' (split <;> (try (rename_i h; have h2 := congrArg Prod.snd h; dsimp only at h2; clear h; subst h2)))
  all_goals first
    | done
    | (simp_all; done)
    | (apply foldl_hp; intro s x; (repeat' split) <;> simp_all; done)
    | (rename_i h; have h2 := congrArg Prod.snd h; dsimp only at h2; clear h; subst h2; simp_all; done)
    | (rename_i h; have h2 := congrArg Prod.snd h; dsimp only at h2; clear h; subst h2; simp; done)
    | (rename_i h _; have h2 := congrArg Prod.snd h; dsimp only at h2; clear h; subst h2; simp_all; done)
    | skip
@[simp] theorem State.cacheTlb_hp (s : State) (d key : Nat) (e : Nat × Pte) : SameHost (State.cacheTlb s d key e) s := by
  unfold State.cacheTlb; (try dsimp only); (repeat' split) <;> simp
@[simp] theorem State.lookup_hp (s : State) (d ctx va : Nat) : SameHost (State.lookup s d ctx va).2 s := by
  unfold State.lookup; try dsimp only
  repeat' (split <;> (try (rename_i h; have h2 := congrArg Prod.snd h; dsimp only at h2; clear h; subst h2)))
  all_goals first
    | done
    | (simp_all; done)
    | (apply foldl_hp; intro s x; (repeat' split) <;> simp_all; done)
    | (rename_i h; have h2 := congrArg Prod.snd h; dsimp only at h2; clear h; subst h2; simp_all; done)
    | (rename_i h; have h2 := congrArg Prod.snd h; dsimp only at h2; clear h; subst h2; simp; done)
    | (rename_i h _; have h2 := congrArg Prod.snd h; dsimp only at h2; clear h; subst h2; simp_all; done)
    | skip
@[simp] theorem State.translate_hp (s : State) (d ctx inst va : Nat) (write : Bool) : SameHost (State.translate s d ctx inst va write).2 s := by
  unfold State.translate; try dsimp only
  repeat' (split <;> (try (rename_i h; have h2 := congrArg Prod.snd h; dsimp only at h2; clear h; subst h2)))
  all_goals first
    | done
    | (simp_all; done)
    | (apply foldl_hp; intro s x; (repeat' split) <;> simp_all; done)
    | (rename_i h; have h2 := congrArg Prod.snd h; dsimp only at h2; clear h; subst h2; simp_all; done)
    | (rename_i h; have h2 := congrArg Prod.snd h; dsimp only at h2; clear h; subst h2; simp; done)
    | (rename_i h _; have h2 := congrArg Prod.snd h; dsimp only at h2; clear h; subst h2; simp_all; done)
    | skip
@[simp] theorem State.readVa_hp (s : State) (d ctx inst va : Nat) (n : Nat) : SameHost (State.readVa s d ctx inst va n).2 s := by
  induction n generalizing s d ctx inst va with
  | zero => unfold State.readVa; (try dsimp only); (repeat' (split <;> (try (rename_i h; have h2 := congrArg Prod.snd h; dsimp only at h2; clear h; subst h2)))) <;>
    first
    | done
    | (simp_all; done)
    | (rename_i h; have h2 := congrArg Prod.snd h; dsimp only at h2; clear h; subst h2; simp_all; done)
    | (rename_i h _; have h2 := congrArg Prod.snd h; dsimp only at h2; clear h; subst h2; simp_all; done)
    | (rename_i h _ _; have h2 := congrArg Prod.snd h; dsimp only at h2; clear h; subst h2; simp_all; done)
    | skip
  | succ n ih => unfold State.readVa; (try dsimp only); (repeat' (split <;> (try (rename_i h; have h2 := congrArg Prod.snd h; dsimp only at h2; clear h; subst h2)))) <;>
    first
    | done
    | (simp_all; done)
    | (rename_i h; have h2 := congrArg Prod.snd h; dsimp only at h2; clear h; subst h2; simp_all; done)
    | (rename_i h _; have h2 := congrArg Prod.snd h; dsimp only at h2; clear h; subst h2; simp_all; done)
    | (rename_i h _ _; have h2 := congrArg Prod.snd h; dsimp only at h2; clear h; subst h2; simp_all; done)
    | skip
@[simp] theorem State.readLineVa_hp (s : State) (d ctx inst va : Nat) : SameHost (State.readLineVa s d ctx inst va).2 s := by
  unfold State.readLineVa; try dsimp only
  repeat' (split <;> (try (rename_i h; have h2 := congrArg Prod.snd h; dsimp only at h2; clear h; subst h2)))
  all_goals first
    | done
    | (simp_all; done)
    | (apply foldl_hp; intro s x; (repeat' split) <;> simp_all; done)
    | (rename_i h; have h2 := congrArg Prod.snd h; dsimp only at h2; clear h; subst h2; simp_all; done)
    | (rename_i h; have h2 := congrArg Prod.snd h; dsimp only at h2; clear h; subst h2; simp; done)
    | (rename_i h _; have h2 := congrArg Prod.snd h; dsimp only at h2; clear h; subst h2; simp_all; done)
    | skip
@[simp] theorem State.writeLineVa_hp (s : State) (d ctx inst va : Nat) (data : List Byte) : SameHost (State.writeLineVa s d ctx inst va data).2 s := by
  unfold State.writeLineVa; try dsimp only
  repeat' (split <;> (try (rename_i h; have h2 := congrArg Prod.snd h; dsimp only at h2; clear h; subst h2)))
  all_goals first
    | done
    | (simp_all; done)
    | (apply foldl_hp; intro s x; (repeat' split) <;> simp_all; done)
    | (rename_i h; have h2 := congrArg Prod.snd h; dsimp only at h2; clear h; subst h2; simp_all; done)
    | (rename_i h; have h2 := congrArg Prod.snd h; dsimp only at h2; clear h; subst h2; simp; done)
    | (rename_i h _; have h2 := congrArg Prod.snd h; dsimp only at h2; clear h; subst h2; simp_all; done)
    | skip
@[simp] theorem State.assignPage_hp (s : State) (page : Nat) (t : Tenant) : SameHost (State.assignPage s page t) s := by
  simp [State.assignPage]
@[simp] theorem State.putTable_hp (s : State) (pa w : Nat) : SameHost (s.putTable pa w) s := by
  unfold State.putTable; dsimp only
  repeat' (split <;> (try (rename_i h; have h2 := congrArg Prod.snd h; dsimp only at h2; clear h; subst h2)))
  all_goals simp
@[simp] theorem State.invalidate_hp (s : State) (d cmd : Nat) : SameHost (State.invalidate s d cmd) s := by
  unfold State.invalidate; (try dsimp only); (repeat' split) <;> simp
theorem State.mapEntries_hp (s : State) (d page : Nat) (m : PageMap) : SameHost (s.mapEntries d page m) s := by
  unfold State.mapEntries; dsimp only; (repeat' split) <;> simp
@[simp] theorem State.mapPage_hp (s : State) (d page : Nat) (m : PageMap) : SameHost (s.mapPage d page m) s := by
  unfold State.mapPage; dsimp only; split
  · exact State.mapEntries_hp _ _ _ _
  · exact SameHost.trans (State.invalidate_hp _ _ _) (by simpa using State.mapEntries_hp s d page m)
@[simp] theorem State.setDoor_hp (s : State) (d : Nat) (x : Door) : SameHost (State.setDoor s d x) s := by
  simp [State.setDoor]
@[simp] theorem State.takeAcc_hp (s : State) (kind n v : Nat) : SameHost (State.takeAcc s kind n v) s := by
  simp [State.takeAcc]
@[simp] theorem State.showAcc_hp (s : State) (kind n v : Nat) (bad : Bool) : SameHost (State.showAcc s kind n v bad) s := by
  unfold State.showAcc; split <;> simp
@[simp] theorem State.showDoor_hp (s : State) (c : DoorCfg) : SameHost (State.showDoor s c) s := by
  simp [State.showDoor]
@[simp] theorem State.showStation_hp (s : State) (c : StationCfg) : SameHost (State.showStation s c) s := by
  simp [State.showStation]
@[simp] theorem State.showNode_hp (s : State) (p a : Nat) : SameHost (State.showNode s p a) s := by
  simp [State.showNode]
@[simp] theorem State.showPort_hp (s : State) (p : Nat) : SameHost (State.showPort s p) s := by
  simp [State.showPort]
@[simp] theorem State.stepDoor_hp (s : State) (c : DoorCfg) (x : Door) : SameHost (State.stepDoor s c x) s := by
  unfold State.stepDoor; (try dsimp only); (repeat' split) <;> simp
@[simp] theorem State.queueFrame_hp (s : State) (p : Nat) (dst : Byte) (pl : Payload) : SameHost (State.queueFrame s p dst pl) s := by
  simp [State.queueFrame]
@[simp] theorem State.brCtrl_hp (s : State) (p : Nat) (en mode : Bool) : SameHost (State.brCtrl s p en mode) s := by
  simp [State.brCtrl]
@[simp] theorem State.takeOutputs_hp (s : State) (p : Nat) : SameHost (State.takeOutputs s p).2 s := by
  simp [State.takeOutputs]
@[simp] theorem State.putBads_hp (s : State) (l : List Nat) : SameHost (s.putBads l) s := by
  induction l generalizing s with
  | nil => simp [State.putBads]
  | cons m l ih => unfold State.putBads; exact SameHost.trans (ih _) (by simp)
@[simp] theorem State.markBads_hp (s : State) (l : List Nat) : SameHost (s.markBads l) s := by
  unfold State.markBads; simp
@[simp] theorem State.modNode_hp (s : State) (p a : Nat) (f : CtlNode → CtlNode) : SameHost (State.modNode s p a f) s := by
  simp [State.modNode]
@[simp] theorem State.brEvent_hp (s : State) (p code : Nat) (data : List Word) : SameHost (State.brEvent s p code data) s := by
  simp [State.brEvent]
@[simp] theorem State.markMissing_hp (s : State) (p a : Nat) : SameHost (State.markMissing s p a) s := by
  simp [State.markMissing]
@[simp] theorem State.markLost_hp (s : State) (p a : Nat) : SameHost (State.markLost s p a) s := by
  simp [State.markLost]
@[simp] theorem State.markPresent_hp (s : State) (p a : Nat) : SameHost (State.markPresent s p a) s := by
  unfold State.markPresent; (try dsimp only); (repeat' split) <;> simp
@[simp] theorem State.sendAssign_hp (s : State) (p : Nat) (dst : Byte) (uid : Uid) (plan : Plan) : SameHost (State.sendAssign s p dst uid plan) s := by
  simp [State.sendAssign]
@[simp] theorem State.sendClaim_hp (s : State) (p : Nat) (nslot : Byte) (slotbt : Nat) : SameHost (State.sendClaim s p nslot slotbt) s := by
  simp [State.sendClaim]
@[simp] theorem State.resendOutputs_hp (s : State) (p a : Nat) : SameHost (State.resendOutputs s p a) s := by
  unfold State.resendOutputs; (try dsimp only); (repeat' split) <;> simp
@[simp] theorem State.judge_hp (s : State) (p : Nat) (l : List Nat) : SameHost (State.judge s p l) s := by
  induction l generalizing s with
  | nil => simp [State.judge]
  | cons a l ih =>
    unfold State.judge; dsimp only
    refine SameHost.trans (ih _) ?_
    (repeat' split) <;> simp
@[simp] theorem State.judgeSubset_hp (s : State) (p : Nat) : SameHost (State.judgeSubset s p) s := by
  simp [State.judgeSubset]
@[simp] theorem State.modLeaf_hp (s : State) (u : Uid) (f : Node → Node) : SameHost (State.modLeaf s u f) s := by
  unfold State.modLeaf; (try dsimp only); (repeat' split) <;> simp
@[simp] theorem State.brCollide_hp (s : State) (p bt : Nat) : SameHost (State.brCollide s p bt) s := by
  unfold State.brCollide; (try dsimp only); (repeat' split) <;> simp
@[simp] theorem State.nodeValues_hp (s : State) (p a ch : Nat) (l : List ChanVal) : SameHost (State.nodeValues s p a ch l) s := by
  simp [State.nodeValues]
@[simp] theorem State.sentEvent_hp (s : State) (p : Nat) (addr seq ch : Byte) (v : ChanVal) :
    SameHost (State.sentEvent s p addr seq ch v) s := by
  simp [State.sentEvent]
@[simp] theorem State.clearAddr_hp (s : State) (p : Nat) (addr : Byte) (uid : Uid) : SameHost (State.clearAddr s p addr uid) s := by
  simp [State.clearAddr]
@[simp] theorem State.nodeCommand_hp (s : State) (uid : Uid) (dst seq op : Byte) (act : Node → Node × Byte × List Byte) : SameHost (State.nodeCommand s uid dst seq op act) s := by
  simp [State.nodeCommand]
@[simp] theorem State.putRtc_hp (s : State) (c : Calendar) : SameHost (State.putRtc s c) s := by
  simp [State.putRtc]
@[simp] theorem State.writeRtc_hp (s : State) (ms : Nat) : SameHost (State.writeRtc s ms) s := by
  simp [State.writeRtc]
@[simp] theorem State.setUtcAt_hp (s : State) (src : TimeSource) (ms : Nat) (at_ : Int) : SameHost (State.setUtcAt s src ms at_) s := by
  unfold State.setUtcAt; (try dsimp only); (repeat' split) <;> simp
@[simp] theorem State.setUtc_hp (s : State) (src : TimeSource) (ms : Nat) : SameHost (State.setUtc s src ms) s := by
  unfold State.setUtc; (try dsimp only); (repeat' split) <;> simp
@[simp] theorem State.ringUtc_hp (s : State) (u : UtcMap) : SameHost (State.ringUtc s u) s := by
  simp [State.ringUtc]
@[simp] theorem State.ringEnter_hp (s : State) : SameHost (State.ringEnter s) s := by
  unfold State.ringEnter; (try dsimp only); (repeat' split) <;> simp
@[simp] theorem State.hostTime_hp (s : State) (ms : Nat) : SameHost (State.hostTime s ms) s := by
  simp [State.hostTime]
@[simp] theorem State.setOffset_hp (s : State) (o : Int) : SameHost (State.setOffset s o) s := by
  simp [State.setOffset]
@[simp] theorem State.ringMapping_hp (s : State) (u : UtcMap) : SameHost (State.ringMapping s u) s := by
  unfold State.ringMapping; (try dsimp only); (repeat' split) <;> simp
@[simp] theorem State.ringLoss_hp (s : State) : SameHost (State.ringLoss s) s := by
  unfold State.ringLoss; (try dsimp only); (repeat' split) <;> simp
@[simp] theorem State.timeStart_hp (s : State) : SameHost (State.timeStart s) s := by
  unfold State.timeStart; (try dsimp only); (repeat' split) <;> simp
@[simp] theorem State.rtcCommit_hp (s : State) : SameHost (State.rtcCommit s) s := by
  unfold State.rtcCommit; (try dsimp only); (repeat' split) <;> simp
@[simp] theorem State.rtcFreeze_hp (s : State) : SameHost (State.rtcFreeze s) s := by
  simp [State.rtcFreeze]
@[simp] theorem State.sendBy_hp (s : State) (t : TrunkPort) (f : TrkOut) : SameHost (State.sendBy s t f) s := by
  simp [State.sendBy]
@[simp] theorem State.nextSeq_hp (s : State) (c : Nat) : SameHost (State.nextSeq s c).2 s := by
  simp [State.nextSeq]
@[simp] theorem State.sendAll_hp (s : State) (f : TrkOut) : SameHost (State.sendAll s f) s := by
  unfold State.sendAll; (try dsimp only); (repeat' split) <;> simp
@[simp] theorem State.trkSend_hp (s : State) (dst : Byte) (cls : Nat) (tenant : Tenant) (len : Nat) (body : List Byte := []) : SameHost (State.trkSend s dst cls tenant len body) s := by
  unfold State.trkSend; (try dsimp only); (repeat' split) <;> simp
@[simp] theorem State.sendParts_hp (s : State) (dst : Byte) (cls : Nat) (tenant : Tenant) (n : Nat) (l : List Byte) :
    SameHost (s.sendParts dst cls tenant n l) s := by
  induction n generalizing s l with
  | zero => simp [State.sendParts]
  | succ n ih =>
    unfold State.sendParts; dsimp only
    split
    · simp
    · exact SameHost.trans (ih _ _) (by simp)
@[simp] theorem State.sendOutbox_hp (s : State) : SameHost s.sendOutbox s := by
  unfold State.sendOutbox; extract_lets near
  refine SameHost.trans (foldl_hp _ _ _ ?_) (by simp)
  intro s x; split <;> simp
@[simp] theorem State.topoBroadcast_hp (s : State) : SameHost (State.topoBroadcast s) s := by
  unfold State.topoBroadcast; (try dsimp only); (repeat' split) <;> simp
@[simp] theorem State.trkEvent_hp (s : State) (t : TrunkPort) (code : Nat) (data : List Word) : SameHost (State.trkEvent s t code data) s := by
  simp [State.trkEvent]
@[simp] theorem State.retime_hp (s : State) : SameHost (State.retime s) s := by
  simp [State.retime]
@[simp] theorem State.wrap_hp (s : State) (t : TrunkPort) : SameHost (State.wrap s t) s := by
  simp [State.wrap]
@[simp] theorem State.linkFault_hp (s : State) (t : TrunkPort) : SameHost (State.linkFault s t) s := by
  unfold State.linkFault; (try dsimp only); (repeat' split) <;> simp
@[simp] theorem State.advertiseSelf_hp (s : State) : SameHost (State.advertiseSelf s) s := by
  simp [State.advertiseSelf]
@[simp] theorem State.tmChanged_hp (s : State) (old : Byte) : SameHost (State.tmChanged s old) s := by
  unfold State.tmChanged; (try dsimp only); (repeat' split) <;> simp
@[simp] theorem State.weighSelf_hp (s : State) : SameHost (State.weighSelf s) s := by
  unfold State.weighSelf; (try dsimp only); (repeat' split) <;> simp
@[simp] theorem State.dropMaster_hp (s : State) : SameHost (State.dropMaster s) s := by
  unfold State.dropMaster; (try dsimp only); (repeat' split) <;> simp
@[simp] theorem State.advert_hp (s : State) (h : TrkHeader) : SameHost (State.advert s h) s := by
  unfold State.advert; (try dsimp only); (repeat' split) <;> simp
@[simp] theorem State.portDown_hp (s : State) (t : TrunkPort) (x : TrkPort) : SameHost (State.portDown s t x) s := by
  simp [State.portDown]
@[simp] theorem State.evalPort_hp (s : State) (t : TrunkPort) : SameHost (State.evalPort s t) s := by
  unfold State.evalPort; (try dsimp only); (repeat' split) <;> simp
@[simp] theorem State.relayFrame_hp (s : State) (t : TrunkPort) (f : TrkFrame) : SameHost (State.relayFrame s t f) s := by
  unfold State.relayFrame; (try dsimp only); (repeat' split) <;> simp
@[simp] theorem State.takeFrame_hp (s : State) (t : TrunkPort) (f : TrkFrame) : SameHost (State.takeFrame s t f).2 s := by
  unfold State.takeFrame; (try dsimp only); (repeat' split) <;> simp
@[simp] theorem State.trkCtrl_hp (s : State) (t : TrunkPort) (v : Word) : SameHost (State.trkCtrl s t v) s := by
  unfold State.trkCtrl; (try dsimp only); (repeat' split) <;> simp
@[simp] theorem State.setDch_hp (s : State) (d c : Nat) (x : DmaCh) : SameHost (State.setDch s d c x) s := by
  simp [State.setDch]
@[simp] theorem State.modDch_hp (s : State) (d c : Nat) (f : DmaCh → DmaCh) : SameHost (State.modDch s d c f) s := by
  simp [State.modDch]
@[simp] theorem State.dmaIrq_hp (s : State) (d i : Nat) : SameHost (State.dmaIrq s d i) s := by
  simp [State.dmaIrq]
@[simp] theorem State.flushWb_hp (s : State) (d c : Nat) : SameHost (State.flushWb s d c).2 s := by
  unfold State.flushWb; dsimp only; split
  · simp
  · split
    · simp
    · split <;> (rename_i h; obtain rfl := snd_of h; simp)
@[simp] theorem State.markStop_hp (s : State) (d c : Nat) (st : DmaState) (reason faddr : Nat) (write index point : Bool) :
    SameHost (s.markStop d c st reason faddr write index point) s := by
  unfold State.markStop; dsimp only; split <;> simp
@[simp] theorem State.wbFail_hp (s : State) (d c : Nat) : SameHost (s.wbFail d c) s := by
  simp [State.wbFail]
@[simp] theorem State.writeOut_hp (s : State) (d c : Nat) : SameHost (s.writeOut d c) s := by
  unfold State.writeOut; split <;> (rename_i h; obtain rfl := snd_of h; simp)
@[simp] theorem State.abortEnd_hp (s : State) (d c : Nat) : SameHost (s.abortEnd d c) s := by
  unfold State.abortEnd; split <;> (rename_i h; obtain rfl := snd_of h; simp)
@[simp] theorem State.stopDma_hp (s : State) (d c : Nat) (st : DmaState) (reason faddr : Nat) (write index point : Bool) : SameHost (s.stopDma d c st reason faddr write index point) s := by
  unfold State.stopDma; split <;> (rename_i h; obtain rfl := snd_of h; simp)
@[simp] theorem State.accStop_hp (s : State) (d c : Nat) (e : AccErr) (faddr : Nat) (write index : Bool) : SameHost (State.accStop s d c e faddr write index) s := by
  unfold State.accStop; (try dsimp only); (repeat' split) <;> simp
@[simp] theorem State.haltDma_hp (s : State) (d c reason faddr : Nat) (write point : Bool) : SameHost (State.haltDma s d c reason faddr write point) s := by
  simp [State.haltDma]
@[simp] theorem State.fetchDesc_hp (s : State) (d c : Nat) : SameHost (State.fetchDesc s d c) s := by
  unfold State.fetchDesc; try dsimp only
  repeat' (split <;> (try (rename_i h; have h2 := congrArg Prod.snd h; dsimp only at h2; clear h; subst h2)))
  all_goals first
    | done
    | (simp_all; done)
    | (apply foldl_hp; intro s x; (repeat' split) <;> simp_all; done)
    | (rename_i h; have h2 := congrArg Prod.snd h; dsimp only at h2; clear h; subst h2; simp_all; done)
    | (rename_i h; have h2 := congrArg Prod.snd h; dsimp only at h2; clear h; subst h2; simp; done)
    | (rename_i h _; have h2 := congrArg Prod.snd h; dsimp only at h2; clear h; subst h2; simp_all; done)
    | skip
@[simp] theorem State.fillPort_hp (s : State) (d c n f : Nat) : SameHost (s.fillPort d c n f) s := by
  induction f generalizing s with
  | zero => simp [State.fillPort]
  | succ f ih =>
    unfold State.fillPort
    repeat' split
    · simp
    · simp
    · exact SameHost.trans (ih _) (by simp)
@[simp] theorem State.dmaRead_hp (s : State) (d c sp a n : Nat) : SameHost (s.dmaRead d c sp a n).2 s := by
  unfold State.dmaRead; dsimp only
  split
  · exact State.readVa_hp _ _ _ _ _ _
  · simp
  · split
    · simp
    · split
      · simp
      · dsimp only; split <;> simp
@[simp] theorem State.dmaTargets_hp (s : State) (d c a : Nat) (n : Nat) : SameHost (State.dmaTargets s d c a n).2 s := by
  induction n generalizing s d c a with
  | zero => unfold State.dmaTargets; (try dsimp only); (repeat' (split <;> (try (rename_i h; have h2 := congrArg Prod.snd h; dsimp only at h2; clear h; subst h2)))) <;>
    first
    | done
    | (simp_all; done)
    | (rename_i h; have h2 := congrArg Prod.snd h; dsimp only at h2; clear h; subst h2; simp_all; done)
    | (rename_i h _; have h2 := congrArg Prod.snd h; dsimp only at h2; clear h; subst h2; simp_all; done)
    | (rename_i h _ _; have h2 := congrArg Prod.snd h; dsimp only at h2; clear h; subst h2; simp_all; done)
    | skip
  | succ n ih => unfold State.dmaTargets; (try dsimp only); (repeat' (split <;> (try (rename_i h; have h2 := congrArg Prod.snd h; dsimp only at h2; clear h; subst h2)))) <;>
    first
    | done
    | (simp_all; done)
    | (rename_i h; have h2 := congrArg Prod.snd h; dsimp only at h2; clear h; subst h2; simp_all; done)
    | (rename_i h _; have h2 := congrArg Prod.snd h; dsimp only at h2; clear h; subst h2; simp_all; done)
    | (rename_i h _ _; have h2 := congrArg Prod.snd h; dsimp only at h2; clear h; subst h2; simp_all; done)
    | skip
@[simp] theorem State.bufferBytes_hp (s : State) (d c va : Nat) (l : List (Nat × Byte)) : SameHost (s.bufferBytes d c va l).2 s := by
  induction l generalizing s va with
  | nil => simp [State.bufferBytes]
  | cons a l ih =>
    unfold State.bufferBytes; dsimp only
    repeat' split
    all_goals (simp_all; done)
@[simp] theorem State.dmaWrite_hp (s : State) (d c sp a : Nat) (data : List Byte) : SameHost (State.dmaWrite s d c sp a data).2 s := by
  unfold State.dmaWrite; split
  · simp
  · split
    · rename_i h; obtain rfl := snd_of h; simp
    · rename_i h; obtain rfl := snd_of h
      split <;> (rename_i h; obtain rfl := snd_of h; simp)
@[simp] theorem State.advance_hp (s : State) (d c n : Nat) (de : Descriptor) : SameHost (State.advance s d c n de) s := by
  unfold State.advance; (try dsimp only); (repeat' split) <;> simp
@[simp] theorem State.moveBits_hp (s : State) (d c : Nat) (de : Descriptor) : SameHost (State.moveBits s d c de) s := by
  unfold State.moveBits; try dsimp only
  repeat' (split <;> (try (rename_i h; have h2 := congrArg Prod.snd h; dsimp only at h2; clear h; subst h2)))
  all_goals first
    | done
    | (simp_all; done)
    | (apply foldl_hp; intro s x; (repeat' split) <;> simp_all; done)
    | (rename_i h; have h2 := congrArg Prod.snd h; dsimp only at h2; clear h; subst h2; simp_all; done)
    | (rename_i h; have h2 := congrArg Prod.snd h; dsimp only at h2; clear h; subst h2; simp; done)
    | (rename_i h _; have h2 := congrArg Prod.snd h; dsimp only at h2; clear h; subst h2; simp_all; done)
    | skip
@[simp] theorem State.dmaFeed_hp (s : State) (d c ctx : Nat) (de : Descriptor) : SameHost (State.dmaFeed s d c ctx de) s := by
  simp [State.dmaFeed]
@[simp] theorem State.setUnit_hp (s : State) (d u : Nat) (x : TestUnit) : SameHost (State.setUnit s d u x) s := by
  simp [State.setUnit]
@[simp] theorem State.noteCapture_hp (s : State) (d c : Nat) : SameHost (State.noteCapture s d c) s := by
  unfold State.noteCapture; (try dsimp only); (repeat' split) <;> simp
@[simp] theorem State.capFeed_hp (s : State) (d u : Nat) : SameHost (State.capFeed s d u) s := by
  unfold State.capFeed; (try dsimp only); (repeat' split) <;> simp
@[simp] theorem State.capFeeds_hp (s : State) (d : Nat) : SameHost (State.capFeeds s d) s := by
  simp [State.capFeeds]
@[simp] theorem State.elemIndex_hp (s : State) (d c : Nat) (de : Descriptor) : SameHost (State.elemIndex s d c de).2 s := by
  unfold State.elemIndex; try dsimp only
  repeat' (split <;> (try (rename_i h; have h2 := congrArg Prod.snd h; dsimp only at h2; clear h; subst h2)))
  all_goals first
    | done
    | (simp_all; done)
    | (apply foldl_hp; intro s x; (repeat' split) <;> simp_all; done)
    | (rename_i h; have h2 := congrArg Prod.snd h; dsimp only at h2; clear h; subst h2; simp_all; done)
    | (rename_i h; have h2 := congrArg Prod.snd h; dsimp only at h2; clear h; subst h2; simp; done)
    | (rename_i h _; have h2 := congrArg Prod.snd h; dsimp only at h2; clear h; subst h2; simp_all; done)
    | skip
@[simp] theorem State.copyElem_hp (s : State) (d c : Nat) (de : Descriptor) (sa da n : Nat) : SameHost (State.copyElem s d c de sa da n) s := by
  unfold State.copyElem; try dsimp only
  repeat' (split <;> (try (rename_i h; have h2 := congrArg Prod.snd h; dsimp only at h2; clear h; subst h2)))
  all_goals first
    | done
    | (simp_all; done)
    | (apply foldl_hp; intro s x; (repeat' split) <;> simp_all; done)
    | (rename_i h; have h2 := congrArg Prod.snd h; dsimp only at h2; clear h; subst h2; simp_all; done)
    | (rename_i h; have h2 := congrArg Prod.snd h; dsimp only at h2; clear h; subst h2; simp; done)
    | (rename_i h _; have h2 := congrArg Prod.snd h; dsimp only at h2; clear h; subst h2; simp_all; done)
    | skip
@[simp] theorem State.aimElem_hp (s : State) (d c : Nat) (de : Descriptor) (sa da n : Nat) : SameHost (State.aimElem s d c de sa da n) s := by
  unfold State.aimElem; try dsimp only
  repeat' (split <;> (try (rename_i h; have h2 := congrArg Prod.snd h; dsimp only at h2; clear h; subst h2)))
  all_goals first
    | done
    | (simp_all; done)
    | (apply foldl_hp; intro s x; (repeat' split) <;> simp_all; done)
    | (rename_i h; have h2 := congrArg Prod.snd h; dsimp only at h2; clear h; subst h2; simp_all; done)
    | (rename_i h; have h2 := congrArg Prod.snd h; dsimp only at h2; clear h; subst h2; simp; done)
    | (rename_i h _; have h2 := congrArg Prod.snd h; dsimp only at h2; clear h; subst h2; simp_all; done)
    | skip
@[simp] theorem State.moveElem_hp (s : State) (d c : Nat) (de : Descriptor) : SameHost (State.moveElem s d c de) s := by
  unfold State.moveElem; try dsimp only
  repeat' (split <;> (try (rename_i h; have h2 := congrArg Prod.snd h; dsimp only at h2; clear h; subst h2)))
  all_goals first
    | done
    | (simp_all; done)
    | (apply foldl_hp; intro s x; (repeat' split) <;> simp_all; done)
    | (rename_i h; have h2 := congrArg Prod.snd h; dsimp only at h2; clear h; subst h2; simp_all; done)
    | (rename_i h; have h2 := congrArg Prod.snd h; dsimp only at h2; clear h; subst h2; simp; done)
    | (rename_i h _; have h2 := congrArg Prod.snd h; dsimp only at h2; clear h; subst h2; simp_all; done)
    | skip
@[simp] theorem State.preempt_hp (s : State) (d c : Nat) : SameHost (State.preempt s d c) s := by
  unfold State.preempt; (try dsimp only); (repeat' split) <;> simp
@[simp] theorem State.busElem_hp (s : State) (d c : Nat) (de : Descriptor) (k : DmaAccess) : SameHost (s.busElem d c de k) s := by
  unfold State.busElem; dsimp only
  split
  · simp
  · split
    · simp
    · split
      · simp
      · split <;> (rename_i h; obtain rfl := snd_of h; simp)
@[simp] theorem State.dmaStart_hp (s : State) (d c : Nat) : SameHost (State.dmaStart s d c) s := by
  unfold State.dmaStart; (try dsimp only); (repeat' split) <;> simp
@[simp] theorem State.rewrite_hp (s : State) (d c : Nat) : SameHost (s.rewrite d c) s := by
  unfold State.rewrite; dsimp only; split
  · simp
  · split <;> (rename_i h; obtain rfl := snd_of h; simp)
@[simp] theorem State.dmaResume_hp (s : State) (d c : Nat) : SameHost (State.dmaResume s d c) s := by
  unfold State.dmaResume; (try dsimp only); (repeat' split) <;> simp
@[simp] theorem State.dmaSkip_hp (s : State) (d c : Nat) : SameHost (State.dmaSkip s d c) s := by
  unfold State.dmaSkip; (try dsimp only); (repeat' split) <;> simp
@[simp] theorem State.dmaAbort_hp (s : State) (d c : Nat) : SameHost (State.dmaAbort s d c) s := by
  unfold State.dmaAbort; (try dsimp only); (repeat' split) <;> simp
@[simp] theorem State.dmaExyan_hp (s : State) (d c : Nat) (u : DmaSetup) : SameHost (s.dmaExyan d c u) s := by
  unfold State.dmaExyan; dsimp only; split <;> simp
@[simp] theorem State.retirePage_hp (s : State) (p : Nat) : SameHost (s.retirePage p) s := by
  unfold State.retirePage
  refine foldl_hp _ _ _ fun s d => ?_
  dsimp only
  have h : SameHost ((List.range 16).foldl (fun s c =>
      if (s.dch d c).wbLine.any (fun l => l / 64 == p) && !s.dmaStopped d c then s.writeOut d c else s) s) s :=
    foldl_hp _ _ _ fun s c => by split <;> simp
  split
  · exact SameHost.trans (by simp) h
  · exact h
@[simp] theorem State.modCore_hp (s : State) (d c : Nat) (f : CoreSt → CoreSt) : SameHost (State.modCore s d c f) s := by
  simp [State.modCore]
@[simp] theorem State.setMode_hp (s : State) (d : Nat) (m : LogicMode) (cause : Nat) : SameHost (State.setMode s d m cause) s := by
  unfold State.setMode; (try dsimp only); (repeat' split) <;> simp
@[simp] theorem State.stopBehaviour_hp (s : State) (d : Nat) : SameHost (State.stopBehaviour s d) s := by
  simp [State.stopBehaviour]
@[simp] theorem State.snapCell_hp (s : State) (d m : Nat) : SameHost (State.snapCell s d m) s := by
  unfold State.snapCell; (try dsimp only); (repeat' split) <;> simp
@[simp] theorem State.toRun_hp (s : State) (d cause : Nat) : SameHost (State.toRun s d cause) s := by
  simp [State.toRun]
@[simp] theorem State.coldRestart_hp (s : State) (d cause : Nat) (i : LogicImage) : SameHost (State.coldRestart s d cause i) s := by
  simp [State.coldRestart]
theorem State.warmRestart_hp (s : State) (d cause : Nat) (i : LogicImage) (z) (h : State.warmRestart s d cause i = some z) : SameHost z s := by
  revert h; unfold State.warmRestart; (try dsimp only)
  (repeat' (split <;> (try (rename_i h; have h2 := congrArg Prod.snd h; dsimp only at h2; clear h; subst h2)))) <;> (try simp) <;> (try rintro rfl) <;> (try simp_all)
@[simp] theorem State.commitOutputs_hp (s : State) (d : Nat) (l : List OutStore) (ran : List Nat) : SameHost (State.commitOutputs s d l ran) s := by
  simp [State.commitOutputs]
@[simp] theorem State.logicRun_hp (s : State) (d : Nat) (warm : Bool) : SameHost (s.logicRun d warm).2 s := by
  unfold State.logicRun
  repeat' split
  all_goals first
    | (simp; done)
    | exact State.warmRestart_hp _ _ _ _ _ (by assumption)
@[simp] theorem State.logicResume_hp (s : State) (d : Nat) : SameHost (State.logicResume s d).2 s := by
  unfold State.logicResume; (try dsimp only); (repeat' split) <;> simp
@[simp] theorem State.finishing_hp (s old : State) (d c : Nat) : SameHost (s.finishing old d c) s := by
  unfold State.finishing; apply foldl_hp; intro s x; simp
@[simp] theorem State.unitEnd_hp (s : State) (d u : Nat) : SameHost (State.unitEnd s d u) s := by
  unfold State.unitEnd; (try dsimp only); (repeat' split) <;> simp
@[simp] theorem State.capRecord_hp (s : State) (d u : Nat) (r : CapRec) : SameHost (State.capRecord s d u r) s := by
  unfold State.capRecord; (try dsimp only); (repeat' split) <;> simp
@[simp] theorem State.unitEdge_hp (s : State) (d n : Nat) : SameHost (s.unitEdge d n) s := by
  unfold State.unitEdge
  apply foldl_hp; intro s u; dsimp only
  (repeat' split) <;> simp
@[simp] theorem State.inject_hp (s : State) (d n : Nat) : SameHost (State.inject s d n).2 s := by
  unfold State.inject; (try dsimp only); (repeat' split) <;> simp
@[simp] theorem State.capture_hp (s : State) (d n : Nat) (r : CapRec) : SameHost (s.capture d n r) s := by
  unfold State.capture; apply foldl_hp
  intro s u; split <;> simp
@[simp] theorem State.sampleBad_hp (s : State) (d due n : Nat) (late : Bool) (x : LoopSlot) (u0 : Int) (r : CapRec) : SameHost (State.sampleBad s d due n late x u0 r) s := by
  simp [State.sampleBad]
@[simp] theorem State.sampleLate_hp (s : State) (d due n : Nat) (x : LoopSlot) (u0 : Int) (r : CapRec) : SameHost (State.sampleLate s d due n x u0 r) s := by
  simp [State.sampleLate]
@[simp] theorem State.sampleGood_hp (s : State) (d due n : Nat) (c : LoopCfg) (x : LoopSlot) (pv sp : Sig) (inj : Option (Bool × Signal)) (u0 : Int) (mark : Nat) : SameHost (State.sampleGood s d due n c x pv sp inj u0 mark) s := by
  unfold State.sampleGood; (try dsimp only); (repeat' split) <;> simp
@[simp] theorem State.sampleWith_hp (s : State) (d due : Nat) (late : Bool) (n : Nat) (c : LoopCfg) (pv sp : Sig) (u0 : Int) (inj : Option (Bool × Signal)) : SameHost (State.sampleWith s d due late n c pv sp u0 inj) s := by
  unfold State.sampleWith; (try dsimp only); (repeat' split) <;> simp
@[simp] theorem State.sampleNow_hp (s : State) (d due : Nat) (late : Bool) (n : Nat) (c : LoopCfg) : SameHost (State.sampleNow s d due late n c) s := by
  simp [State.sampleNow]
@[simp] theorem State.sampleHeld_hp (s : State) (d n : Nat) : SameHost (s.sampleHeld d n) s := by
  unfold State.sampleHeld; dsimp only
  exact SameHost.trans (State.capture_hp _ _ _ _) (by simp)
@[simp] theorem State.setAo_hp (s : State) (k : Nat) (v : V24) : SameHost (State.setAo s k v) s := by
  unfold State.setAo; (try dsimp only); (repeat' split) <;> simp
@[simp] theorem State.writeLoopOut_hp (s : State) (d n : Nat) (c : LoopCfg) (l : Latch) : SameHost (State.writeLoopOut s d n c l) s := by
  unfold State.writeLoopOut; (try dsimp only); (repeat' split) <;> simp
@[simp] theorem State.applyLoop_hp (s : State) (d : Nat) (a b : Nat) : SameHost (State.applyLoop s d a b) s := by
  induction a generalizing s b with
  | zero => simp [State.applyLoop]
  | succ n ih => unfold State.applyLoop; (try dsimp only); (repeat' (split <;> (try (rename_i h; have h2 := congrArg Prod.snd h; dsimp only at h2; clear h; subst h2)))) <;> simp_all
@[simp] theorem State.applyAoNext_hp (s : State) : SameHost (State.applyAoNext s) s := by
  unfold State.applyAoNext; (try dsimp only); (repeat' split) <;> simp
@[simp] theorem State.startUnit_hp (s : State) (d u : Nat) : SameHost (State.startUnit s d u) s := by
  unfold State.startUnit; (try dsimp only); (repeat' split) <;> simp
@[simp] theorem State.tuCtrl_hp (s : State) (d u v : Nat) : SameHost (State.tuCtrl s d u v) s := by
  unfold State.tuCtrl; (try dsimp only); (repeat' split) <;> simp
@[simp] theorem State.setGroup_hp (s : State) (g : Nat) (x : Group) : SameHost (State.setGroup s g x) s := by
  simp [State.setGroup]
@[simp] theorem State.modGroup_hp (s : State) (g : Nat) (f : Group → Group) : SameHost (State.modGroup s g f) s := by
  simp [State.modGroup]
@[simp] theorem State.chEvent_hp (s : State) (c code what : Nat) : SameHost (State.chEvent s c code what) s := by
  simp [State.chEvent]
@[simp] theorem State.switchOn_hp (s : State) (c rank : Nat) : SameHost (State.switchOn s c rank) s := by
  simp [State.switchOn]
@[simp] theorem State.switchOff_hp (s : State) (c : Nat) : SameHost (State.switchOff s c) s := by
  simp [State.switchOff]
@[simp] theorem State.chFault_hp (s : State) (c : Nat) (thermal : Bool) : SameHost (State.chFault s c thermal) s := by
  simp [State.chFault]
@[simp] theorem State.serveRetry_hp (s : State) (g : Nat) : SameHost (State.serveRetry s g) s := by
  unfold State.serveRetry; (try dsimp only); (repeat' split) <;> simp
@[simp] theorem State.queueRetry_hp (s : State) (c : Nat) : SameHost (State.queueRetry s c) s := by
  simp [State.queueRetry]
@[simp] theorem State.cancelRetry_hp (s : State) (c : Nat) : SameHost (State.cancelRetry s c) s := by
  unfold State.cancelRetry; (try dsimp only); (repeat' split) <;> simp
@[simp] theorem State.quitChan_hp (s : State) (c : Nat) : SameHost (State.quitChan s c) s := by
  simp [State.quitChan]
@[simp] theorem State.obey_hp (s : State) (c rank : Nat) (want : Bool) : SameHost (State.obey s c rank want) s := by
  unfold State.obey; (try dsimp only); (repeat' split) <;> simp
@[simp] theorem State.obeyAll_hp (s : State) : SameHost (State.obeyAll s) s := by
  simp [State.obeyAll]
@[simp] theorem State.sendAo_hp (s : State) : SameHost (State.sendAo s) s := by
  simp [State.sendAo]
@[simp] theorem State.sampleAins_hp (s : State) (l : List Int) : SameHost (State.sampleAins s l) s := by
  unfold State.sampleAins; try dsimp only
  repeat' (split <;> (try (rename_i h; have h2 := congrArg Prod.snd h; dsimp only at h2; clear h; subst h2)))
  all_goals first
    | done
    | (simp_all; done)
    | (apply foldl_hp; intro s x; (repeat' split) <;> simp_all; done)
    | (rename_i h; have h2 := congrArg Prod.snd h; dsimp only at h2; clear h; subst h2; simp_all; done)
    | (rename_i h; have h2 := congrArg Prod.snd h; dsimp only at h2; clear h; subst h2; simp; done)
    | (rename_i h _; have h2 := congrArg Prod.snd h; dsimp only at h2; clear h; subst h2; simp_all; done)
    | skip
@[simp] theorem State.writeDue_hp (s : State) : SameHost (State.writeDue s) s := by
  simp [State.writeDue]
@[simp] theorem State.legOff_hp (s : State) (m : Nat) : SameHost (State.legOff s m) s := by
  unfold State.legOff; (try dsimp only); (repeat' split) <;> simp
@[simp] theorem State.homeFirst_hp (s : State) (m : Nat) (g : MoveGoal) : SameHost (State.homeFirst s m g) s := by
  unfold State.homeFirst; (try dsimp only); (repeat' split) <;> simp
@[simp] theorem State.redirect_hp (s : State) (m : Nat) (g : MoveGoal) : SameHost (State.redirect s m g) s := by
  unfold State.redirect; (try dsimp only); (repeat' split) <;> simp
@[simp] theorem State.motClear_hp (s : State) (m : Nat) : SameHost (State.motClear s m) s := by
  simp [State.motClear]
@[simp] theorem State.motPulse_hp (s : State) (m : Nat) : SameHost (State.motPulse s m) s := by
  unfold State.motPulse; (try dsimp only); (repeat' split) <;> simp
@[simp] theorem State.safeChan_hp (s : State) (rank : Nat) (c : Nat) : SameHost (State.safeChan s rank c) s := by
  unfold State.safeChan; (try dsimp only); (repeat' split) <;> simp
@[simp] theorem State.fioRelease_hp (s : State) : SameHost (State.fioRelease s) s := by
  unfold State.fioRelease; (try dsimp only); (repeat' split) <;> simp
@[simp] theorem State.clearChan_hp (s : State) (c : Nat) : SameHost (State.clearChan s c) s := by
  unfold State.clearChan; (try dsimp only); (repeat' split) <;> simp
@[simp] theorem State.fioClr_hp (s : State) (v : Nat) : SameHost (State.fioClr s v) s := by
  unfold State.fioClr; (try dsimp only); (repeat' split) <;> simp
@[simp] theorem State.groupBack_hp (s : State) (g : Nat) : SameHost (State.groupBack s g) s := by
  unfold State.groupBack; try dsimp only
  repeat' (split <;> (try (rename_i h; have h2 := congrArg Prod.snd h; dsimp only at h2; clear h; subst h2)))
  all_goals first
    | done
    | (simp_all; done)
    | (apply foldl_hp; intro s x; (repeat' split) <;> simp_all; done)
    | (rename_i h; have h2 := congrArg Prod.snd h; dsimp only at h2; clear h; subst h2; simp_all; done)
    | (rename_i h; have h2 := congrArg Prod.snd h; dsimp only at h2; clear h; subst h2; simp; done)
    | (rename_i h _; have h2 := congrArg Prod.snd h; dsimp only at h2; clear h; subst h2; simp_all; done)
    | skip
@[simp] theorem State.serveRestore_hp (s : State) (g : Nat) : SameHost (State.serveRestore s g) s := by
  unfold State.serveRestore; (try dsimp only); (repeat' split) <;> simp
@[simp] theorem State.stGo_hp (s : State) (k : Nat) : SameHost (State.stGo s k) s := by
  unfold State.stGo; (try dsimp only); (repeat' split) <;> simp
@[simp] theorem State.fioStStart_hp (s : State) : SameHost (State.fioStStart s) s := by
  unfold State.fioStStart; (try dsimp only); (repeat' split) <;> simp
@[simp] theorem State.fioStStop_hp (s : State) : SameHost (State.fioStStop s) s := by
  simp [State.fioStStop]
@[simp] theorem State.fioServe_hp (s : State) : SameHost (State.fioServe s) s := by
  simp [State.fioServe]
@[simp] theorem State.fioTick_hp (s : State) (l : List Int) : SameHost (State.fioTick s l) s := by
  unfold State.fioTick; (try dsimp only); (repeat' split) <;> simp
@[simp] theorem State.setMinput_hp (s : State) (c : Nat) (x : MInputSt) : SameHost (State.setMinput s c x) s := by
  simp [State.setMinput]
@[simp] theorem State.modMinput_hp (s : State) (c : Nat) (f : MInputSt → MInputSt) : SameHost (State.modMinput s c f) s := by
  simp [State.modMinput]
@[simp] theorem State.modCircuit_hp (s : State) (k : Nat) (f : Circuit → Circuit) : SameHost (State.modCircuit s k f) s := by
  simp [State.modCircuit]
@[simp] theorem State.modVset_hp (s : State) (v : Nat) (f : Vset → Vset) : SameHost (State.modVset s v f) s := by
  simp [State.modVset]
@[simp] theorem State.waveEnd_hp (s : State) (w : WaveRun) (ovf : Bool) : SameHost (s.waveEnd w ovf) s := by
  unfold State.waveEnd; extract_lets s1 y all s2
  have h : SameHost s2 s := by
    show SameHost (if all then _ else _) s
    split
    · split <;> (rename_i h; obtain rfl := snd_of h; simp [s1])
    · simp [s1]
  exact SameHost.trans (by simp) h
@[simp] theorem State.waveFrame_hp (s : State) : SameHost s.waveFrame s := by
  unfold State.waveFrame; dsimp only
  repeat' split
  all_goals simp
@[simp] theorem State.waveStart_hp (s : State) (w : WaveRun) : SameHost (State.waveStart s w) s := by
  simp [State.waveStart]
@[simp] theorem State.mtrTick_hp (s : State) (codes : List Int) : SameHost (State.mtrTick s codes) s := by
  unfold State.mtrTick; (try dsimp only); (repeat' split) <;> simp
@[simp] theorem State.endCircuit_hp (s : State) (c : CircuitCfg) (o : CircOut) (sec : Nat) (how : SecondEnd) : SameHost (State.endCircuit s c o sec how) s := by
  simp [State.endCircuit]
@[simp] theorem State.endVset_hp (s : State) (c : VsetCfg) : SameHost (State.endVset s c) s := by
  unfold State.endVset; (try dsimp only); (repeat' split) <;> simp
@[simp] theorem State.turnInput_hp (s : State) (c : Nat) : SameHost (State.turnInput s c) s := by
  unfold State.turnInput; (try dsimp only); (repeat' split) <;> simp
@[simp] theorem State.closeSecond_hp (s : State) (how : SecondEnd) : SameHost (State.closeSecond s how) s := by
  simp [State.closeSecond]
@[simp] theorem State.testEnds_hp (s : State) : SameHost (State.testEnds s) s := by
  unfold State.testEnds; (try dsimp only); (repeat' split) <;> simp
@[simp] theorem State.mtrPowerFail_hp (s : State) : SameHost (State.mtrPowerFail s) s := by
  unfold State.mtrPowerFail; (try dsimp only); (repeat' split) <;> simp
@[simp] theorem State.harmReport_hp (s : State) (set start n : Nat) : SameHost (State.harmReport s set start n) s := by
  simp [State.harmReport]
@[simp] theorem State.stStart_hp (s : State) : SameHost (State.stStart s) s := by
  simp [State.stStart]
@[simp] theorem State.stStop_hp (s : State) : SameHost (State.stStop s) s := by
  simp [State.stStop]
@[simp] theorem State.driveFail_hp (s : State) (n : Nat) : SameHost (State.driveFail s n) s := by
  unfold State.driveFail; (try dsimp only); (repeat' split) <;> simp
@[simp] theorem State.nvmeFail_hp (s : State) (n cid : Nat) : SameHost (State.nvmeFail s n cid) s := by
  unfold State.nvmeFail; (try dsimp only); (repeat' split) <;> simp
@[simp] theorem State.reclaimAll_hp (s : State) (l : List Nat) : SameHost (State.reclaimAll s l) s := by
  induction l generalizing s with
  | nil => unfold State.reclaimAll; (try dsimp only); (repeat' (split <;> (try (rename_i h; have h2 := congrArg Prod.snd h; dsimp only at h2; clear h; subst h2)))) <;>
    first
    | done
    | (simp_all; done)
    | (rename_i h; have h2 := congrArg Prod.snd h; dsimp only at h2; clear h; subst h2; simp_all; done)
    | (rename_i h _; have h2 := congrArg Prod.snd h; dsimp only at h2; clear h; subst h2; simp_all; done)
    | (rename_i h _ _; have h2 := congrArg Prod.snd h; dsimp only at h2; clear h; subst h2; simp_all; done)
    | skip
  | cons a l ih => unfold State.reclaimAll; (try dsimp only); (repeat' (split <;> (try (rename_i h; have h2 := congrArg Prod.snd h; dsimp only at h2; clear h; subst h2)))) <;>
    first
    | done
    | (simp_all; done)
    | (rename_i h; have h2 := congrArg Prod.snd h; dsimp only at h2; clear h; subst h2; simp_all; done)
    | (rename_i h _; have h2 := congrArg Prod.snd h; dsimp only at h2; clear h; subst h2; simp_all; done)
    | (rename_i h _ _; have h2 := congrArg Prod.snd h; dsimp only at h2; clear h; subst h2; simp_all; done)
    | skip
@[simp] theorem State.newKey_hp (s : State) (k : KeyName) : SameHost (State.newKey s k) s := by
  simp [State.newKey, Security.hold]
@[simp] theorem State.newKeys_hp (s : State) (t : Tenant) : SameHost (State.newKeys s t) s := by
  unfold State.newKeys; (try dsimp only); (repeat' split) <;> simp
@[simp] theorem State.takeEscrow_hp (s : State) (t : Tenant) (l : List (Nat × BitVec 256)) : SameHost (State.takeEscrow s t l) s := by
  induction l generalizing s with
  | nil => simp [State.takeEscrow]
  | cons a l ih =>
    unfold State.takeEscrow
    refine SameHost.trans (ih _) ?_
    (repeat' split) <;> simp [Security.hold]
@[simp] theorem State.keysStart_hp (s : State) : SameHost (State.keysStart s) s := by
  unfold State.keysStart; (try dsimp only); (repeat' split) <;> simp
@[simp] theorem State.adminStart_hp (s : State) (n : Nat) (cache : Bool) : SameHost (State.adminStart s n cache) s := by
  simp [State.adminStart]
@[simp] theorem State.startReads_hp (s : State) : SameHost (State.startReads s) s := by
  unfold State.startReads
  exact SameHost.trans (foldl_hp _ _ _ fun s e => by simp) (foldl_hp _ _ _ fun s e => by simp)
@[simp] theorem State.storeStart_hp (s : State) : SameHost (State.storeStart s) s := by
  unfold State.storeStart; (try dsimp only); (repeat' split) <;> simp
@[simp] theorem State.readStored_hp (s : State) (n i : Nat) : SameHost (State.readStored s n i).2 s := by
  unfold State.readStored; (try dsimp only); (repeat' split) <;> simp
@[simp] theorem ansOk_hp (res : Result) (s : State) : SameHost (ansOk res s).2 s := by
  simp [ansOk]
@[simp] theorem ansNo_hp (st : BitVec 16) (detail : Nat) (s : State) : SameHost (ansNo st detail s).2 s := by
  simp [ansNo]
@[simp] theorem ansWait_hp (s : State) : SameHost (ansWait s).2 s := by
  simp [ansWait]
@[simp] theorem State.temps_hp (s : State) (n : Nat) : SameHost (State.temps s n).2 s := by
  induction n generalizing s  with
  | zero => unfold State.temps; (try dsimp only); (repeat' (split <;> (try (rename_i h; have h2 := congrArg Prod.snd h; dsimp only at h2; clear h; subst h2)))) <;>
    first
    | done
    | (simp_all; done)
    | (rename_i h; have h2 := congrArg Prod.snd h; dsimp only at h2; clear h; subst h2; simp_all; done)
    | (rename_i h _; have h2 := congrArg Prod.snd h; dsimp only at h2; clear h; subst h2; simp_all; done)
    | (rename_i h _ _; have h2 := congrArg Prod.snd h; dsimp only at h2; clear h; subst h2; simp_all; done)
    | skip
  | succ n ih => unfold State.temps; (try dsimp only); (repeat' (split <;> (try (rename_i h; have h2 := congrArg Prod.snd h; dsimp only at h2; clear h; subst h2)))) <;>
    first
    | done
    | (simp_all; done)
    | (rename_i h; have h2 := congrArg Prod.snd h; dsimp only at h2; clear h; subst h2; simp_all; done)
    | (rename_i h _; have h2 := congrArg Prod.snd h; dsimp only at h2; clear h; subst h2; simp_all; done)
    | (rename_i h _ _; have h2 := congrArg Prod.snd h; dsimp only at h2; clear h; subst h2; simp_all; done)
    | skip
@[simp] theorem State.setCredSlot_hp (s : State) (n : Nat) (x : CredSlot) : SameHost (State.setCredSlot s n x) s := by
  simp [State.setCredSlot]
@[simp] theorem State.credRefused_hp (s : State) (k n : Nat) (own : Bool) : SameHost (State.credRefused s k n own) s := by
  unfold State.credRefused; (try dsimp only); (repeat' split) <;> simp
@[simp] theorem State.credAccepted_hp (s : State) (n : Nat) (c : CredTry) : SameHost (State.credAccepted s n c) s := by
  simp [State.credAccepted]
@[simp] theorem State.loadGcl_hp (s : State) (p cycleMs : Nat) (l : List GclEntry) : SameHost (State.loadGcl s p cycleMs l) s := by
  simp [State.loadGcl]
@[simp] theorem State.sendCommand_hp (s : State) (p a : Nat) (op : Byte) (args : List Byte) (r : Option Req) : SameHost (State.sendCommand s p a op args r) s := by
  simp [State.sendCommand]
@[simp] theorem State.loadTrkGcl_hp (s : State) (t : TrunkPort) (l : List TrkEntry) : SameHost (State.loadTrkGcl s t l) s := by
  simp [State.loadTrkGcl]
theorem modeEach_hp (f : State → Nat → BitVec 16 × State) (hf : ∀ s d, SameHost (f s d).2 s) (l : List Nat) (s : State) :
    SameHost (modeEach f l s).2.2 s := by
  induction l generalizing s with
  | nil => simp [modeEach]
  | cons a l ih => exact SameHost.trans (ih _) (hf s a)
@[simp] theorem modeAns_hp (x : BitVec 16 × Nat × State) : SameHost (modeAns x).2 x.2.2 := by
  unfold modeAns; split <;> simp [ansOk, ansNo]
@[simp] theorem State.chanRows_hp (s : State) (l : List Nat) : SameHost (State.chanRows s l).2 s := by
  induction l generalizing s with
  | nil => unfold State.chanRows; (try dsimp only); (repeat' (split <;> (try (rename_i h; have h2 := congrArg Prod.snd h; dsimp only at h2; clear h; subst h2)))) <;>
    first
    | done
    | (simp_all; done)
    | (rename_i h; have h2 := congrArg Prod.snd h; dsimp only at h2; clear h; subst h2; simp_all; done)
    | (rename_i h _; have h2 := congrArg Prod.snd h; dsimp only at h2; clear h; subst h2; simp_all; done)
    | (rename_i h _ _; have h2 := congrArg Prod.snd h; dsimp only at h2; clear h; subst h2; simp_all; done)
    | skip
  | cons a l ih => unfold State.chanRows; (try dsimp only); (repeat' (split <;> (try (rename_i h; have h2 := congrArg Prod.snd h; dsimp only at h2; clear h; subst h2)))) <;>
    first
    | done
    | (simp_all; done)
    | (rename_i h; have h2 := congrArg Prod.snd h; dsimp only at h2; clear h; subst h2; simp_all; done)
    | (rename_i h _; have h2 := congrArg Prod.snd h; dsimp only at h2; clear h; subst h2; simp_all; done)
    | (rename_i h _ _; have h2 := congrArg Prod.snd h; dsimp only at h2; clear h; subst h2; simp_all; done)
    | skip
@[simp] theorem State.readBlocks_hp (s : State) (t : Tenant) (l : List (Nat × Nat)) : SameHost (State.readBlocks s t l).2 s := by
  induction l generalizing s with
  | nil => unfold State.readBlocks; (try dsimp only); (repeat' (split <;> (try (rename_i h; have h2 := congrArg Prod.snd h; dsimp only at h2; clear h; subst h2)))) <;>
    first
    | done
    | (simp_all; done)
    | (rename_i h; have h2 := congrArg Prod.snd h; dsimp only at h2; clear h; subst h2; simp_all; done)
    | (rename_i h _; have h2 := congrArg Prod.snd h; dsimp only at h2; clear h; subst h2; simp_all; done)
    | (rename_i h _ _; have h2 := congrArg Prod.snd h; dsimp only at h2; clear h; subst h2; simp_all; done)
    | skip
  | cons a l ih => unfold State.readBlocks; (try dsimp only); (repeat' (split <;> (try (rename_i h; have h2 := congrArg Prod.snd h; dsimp only at h2; clear h; subst h2)))) <;>
    first
    | done
    | (simp_all; done)
    | (rename_i h; have h2 := congrArg Prod.snd h; dsimp only at h2; clear h; subst h2; simp_all; done)
    | (rename_i h _; have h2 := congrArg Prod.snd h; dsimp only at h2; clear h; subst h2; simp_all; done)
    | (rename_i h _ _; have h2 := congrArg Prod.snd h; dsimp only at h2; clear h; subst h2; simp_all; done)
    | skip
@[simp] theorem State.histRead_hp (s : State) (series : V24) (t : Tenant) (rlen : Nat) (p : Block → TrendRec → Bool) (stop : Nat) (gone : Nat × Nat → Bool) : SameHost (State.histRead s series t rlen p stop gone).2 s := by
  unfold State.histRead; try dsimp only
  repeat' (split <;> (try (rename_i h; have h2 := congrArg Prod.snd h; dsimp only at h2; clear h; subst h2)))
  all_goals first
    | done
    | (simp_all; done)
    | (apply foldl_hp; intro s x; (repeat' split) <;> simp_all; done)
    | (rename_i h; have h2 := congrArg Prod.snd h; dsimp only at h2; clear h; subst h2; simp_all; done)
    | (rename_i h; have h2 := congrArg Prod.snd h; dsimp only at h2; clear h; subst h2; simp; done)
    | (rename_i h _; have h2 := congrArg Prod.snd h; dsimp only at h2; clear h; subst h2; simp_all; done)
    | skip
@[simp] theorem State.replicaBlocks_hp (s : State) (g i : Nat) (n : Nat) : SameHost (State.replicaBlocks s g i n).2 s := by
  induction n generalizing s g i with
  | zero => unfold State.replicaBlocks; (try dsimp only); (repeat' (split <;> (try (rename_i h; have h2 := congrArg Prod.snd h; dsimp only at h2; clear h; subst h2)))) <;>
    first
    | done
    | (simp_all; done)
    | (rename_i h; have h2 := congrArg Prod.snd h; dsimp only at h2; clear h; subst h2; simp_all; done)
    | (rename_i h _; have h2 := congrArg Prod.snd h; dsimp only at h2; clear h; subst h2; simp_all; done)
    | (rename_i h _ _; have h2 := congrArg Prod.snd h; dsimp only at h2; clear h; subst h2; simp_all; done)
    | skip
  | succ n ih => unfold State.replicaBlocks; (try dsimp only); (repeat' (split <;> (try (rename_i h; have h2 := congrArg Prod.snd h; dsimp only at h2; clear h; subst h2)))) <;>
    first
    | done
    | (simp_all; done)
    | (rename_i h; have h2 := congrArg Prod.snd h; dsimp only at h2; clear h; subst h2; simp_all; done)
    | (rename_i h _; have h2 := congrArg Prod.snd h; dsimp only at h2; clear h; subst h2; simp_all; done)
    | (rename_i h _ _; have h2 := congrArg Prod.snd h; dsimp only at h2; clear h; subst h2; simp_all; done)
    | skip
@[simp] theorem State.sealed_hp (s : State) (p a : Nat) (i : Inner) : SameHost (State.sealed s p a i) s := by
  unfold State.sealed; (try dsimp only); (repeat' split) <;> simp
@[simp] theorem State.rekey_hp (s : State) (p a : Nat) : SameHost (State.rekey s p a) s := by
  simp [State.rekey]
@[simp] theorem State.sendSecure_hp (s : State) (p a : Nat) (i : Inner) : SameHost (State.sendSecure s p a i) s := by
  unfold State.sendSecure; (try dsimp only); (repeat' split) <;> simp
@[simp] theorem State.cacheCheck_hp (s : State) (c : DoorCfg) : SameHost (State.cacheCheck s c) s := by
  unfold State.cacheCheck; (try dsimp only); (repeat' split) <;> simp
@[simp] theorem State.cacheChecks_hp (s : State) : SameHost (State.cacheChecks s) s := by
  simp [State.cacheChecks]
@[simp] theorem State.sendChunk_hp (s : State) (c : DoorCfg) : SameHost (State.sendChunk s c) s := by
  unfold State.sendChunk; (try dsimp only); (repeat' split) <;> simp
@[simp] theorem State.sendChunks_hp (s : State) (p : Nat) : SameHost (State.sendChunks s p) s := by
  simp [State.sendChunks]
@[simp] theorem State.enter_hp (s : State) (i area : Nat) : SameHost (State.enter s i area) s := by
  simp [State.enter]
@[simp] theorem State.countPassback_hp (s : State) : SameHost (State.countPassback s) s := by
  simp [State.countPassback]
@[simp] theorem State.decided_hp (s : State) (q : ReadReq) : SameHost (State.decided s q) s := by
  simp [State.decided]
@[simp] theorem State.sendFloors_hp (s : State) (c : DoorCfg) (r : Cred) : SameHost (State.sendFloors s c r) s := by
  unfold State.sendFloors; (try dsimp only); (repeat' split) <;> simp
@[simp] theorem State.grant_hp (s : State) (c : DoorCfg) (q : ReadReq) (i : Nat) (r : Cred) : SameHost (State.grant s c q i r) s := by
  unfold State.grant; (try dsimp only); (repeat' split) <;> simp
@[simp] theorem State.refuse_hp (s : State) (c : DoorCfg) (q : ReadReq) (reason : Nat) : SameHost (State.refuse s c q reason) s := by
  unfold State.refuse; (try dsimp only); (repeat' split) <;> simp
@[simp] theorem State.decideRead_hp (s : State) (c : DoorCfg) (q : ReadReq) : SameHost (State.decideRead s c q) s := by
  unfold State.decideRead; (try dsimp only); (repeat' split) <;> simp
@[simp] theorem State.contact_hp (s : State) (p a ch : Nat) (v : V24) : SameHost (State.contact s p a ch v) s := by
  unfold State.contact; (try dsimp only); (repeat' split) <;> simp
@[simp] theorem State.sendTime_hp (s : State) (n : NodeCfg) : SameHost (State.sendTime s n) s := by
  unfold State.sendTime; (try dsimp only); (repeat' split) <;> simp

end Sys2Proof.Machine
end

