-- ==== Sys2Proof/Laws/OutMeter.lean ====
section
/-! SUPPORT. Metering: what these commands leave unchanged. -/
namespace Sys2Proof.Machine

/-- Every other kind of state is as before. -/
@[simp] abbrev OutMeter (t s : State) : Prop := t.pending = s.pending ∧ t.member = s.member ∧ t.tick = s.tick ∧ t.tickHi = s.tickHi ∧ t.links = s.links ∧ t.cfg = s.cfg ∧ t.ports = s.ports ∧ t.nodes = s.nodes ∧ t.trk = s.trk ∧ t.logic = s.logic ∧ t.cores = s.cores ∧ t.loopDies = s.loopDies ∧ t.loops = s.loops ∧ t.fio = s.fio ∧ t.sec = s.sec ∧ t.time = s.time ∧ t.su = s.su
theorem OutMeter.trans {a b c : State} (h : OutMeter a b) (g : OutMeter b c) : OutMeter a c := by
  simp_all only [OutMeter, and_self]
@[simp] theorem foldl_met {α : Type} (f : State → α → State) (l : List α) (s : State) (h : ∀ s x, OutMeter (f s x) s) :
    OutMeter (l.foldl f s) s := by
  induction l generalizing s with
  | nil => simp only [List.foldl_nil, OutMeter, and_self]
  | cons a l ih => exact OutMeter.trans (ih (f s a)) (h s a)
@[simp] theorem settle_met (s t : State) : OutMeter (settle s t) t := by
  simp only [OutMeter, settle_pending, settle_member, settle_tick, settle_tickHi, settle_links, settle_cfg, settle_ports, settle_nodes, settle_trk, settle_logic, settle_cores, settle_loopDies, settle_loops, settle_fio, settle_sec, settle_time, settle_su, and_self]
theorem settle_met' (s t u : State) : OutMeter (settle s t) u = OutMeter t u := by
  simp only [OutMeter, settle_pending, settle_member, settle_tick, settle_tickHi, settle_links, settle_cfg, settle_ports, settle_nodes, settle_trk, settle_logic, settle_cores, settle_loopDies, settle_loops, settle_fio, settle_sec, settle_time, settle_su]
@[simp] theorem State.setMinput_met (s : State) (c : Nat) (x : MInputSt) : OutMeter (State.setMinput s c x) s := by
  simp [State.setMinput]
@[simp] theorem State.modMinput_met (s : State) (c : Nat) (f : MInputSt → MInputSt) : OutMeter (State.modMinput s c f) s := by
  simp [State.modMinput]
@[simp] theorem State.modCircuit_met (s : State) (k : Nat) (f : Circuit → Circuit) : OutMeter (State.modCircuit s k f) s := by
  simp [State.modCircuit]
@[simp] theorem State.modVset_met (s : State) (v : Nat) (f : Vset → Vset) : OutMeter (State.modVset s v f) s := by
  simp [State.modVset]
@[simp] theorem State.waveEnd_met (s : State) (w : WaveRun) (ovf : Bool) : OutMeter (s.waveEnd w ovf) s := by
  unfold State.waveEnd; extract_lets s1 y all s2
  have h : OutMeter s2 s := by
    show OutMeter (if all then _ else _) s
    split
    · split <;> (rename_i h; obtain rfl := snd_of h; simp [s1])
    · simp [s1]
  exact OutMeter.trans (by simp) h
@[simp] theorem State.waveFrame_met (s : State) : OutMeter s.waveFrame s := by
  unfold State.waveFrame; dsimp only
  repeat' split
  all_goals simp
@[simp] theorem State.waveStart_met (s : State) (w : WaveRun) : OutMeter (State.waveStart s w) s := by
  unfold State.waveStart; try dsimp only
  repeat' (split <;> (try (rename_i h; have h2 := congrArg Prod.snd h; dsimp only at h2; clear h; subst h2)))
  all_goals first
    | done
    | (simp_all; done)
    | (apply foldl_met; intro s x; (repeat' split) <;> simp_all; done)
    | (rename_i h; have h2 := congrArg Prod.snd h; dsimp only at h2; clear h; subst h2; simp_all; done)
    | (rename_i h; have h2 := congrArg Prod.snd h; dsimp only at h2; clear h; subst h2; simp; done)
    | (rename_i h _; have h2 := congrArg Prod.snd h; dsimp only at h2; clear h; subst h2; simp_all; done)
    | skip
@[simp] theorem State.mtrTick_met (s : State) (codes : List Int) : OutMeter (State.mtrTick s codes) s := by
  unfold State.mtrTick; (try dsimp only); (repeat' split) <;> simp
@[simp] theorem State.endCircuit_met (s : State) (c : CircuitCfg) (o : CircOut) (sec : Nat) (how : SecondEnd) : OutMeter (State.endCircuit s c o sec how) s := by
  simp [State.endCircuit]
@[simp] theorem State.endVset_met (s : State) (c : VsetCfg) : OutMeter (State.endVset s c) s := by
  unfold State.endVset; (try dsimp only); (repeat' split) <;> simp
@[simp] theorem State.turnInput_met (s : State) (c : Nat) : OutMeter (State.turnInput s c) s := by
  unfold State.turnInput; (try dsimp only); (repeat' split) <;> simp
@[simp] theorem State.calMeasures_met (s : State) : OutMeter (State.calMeasures s) s := by
  unfold State.calMeasures; try dsimp only
  repeat' (split <;> (try (rename_i h; have h2 := congrArg Prod.snd h; dsimp only at h2; clear h; subst h2)))
  all_goals first
    | done
    | (simp_all; done)
    | (apply foldl_met; intro s x; (repeat' split) <;> simp_all; done)
    | (rename_i h; have h2 := congrArg Prod.snd h; dsimp only at h2; clear h; subst h2; simp_all; done)
    | (rename_i h; have h2 := congrArg Prod.snd h; dsimp only at h2; clear h; subst h2; simp; done)
    | (rename_i h _; have h2 := congrArg Prod.snd h; dsimp only at h2; clear h; subst h2; simp_all; done)
    | skip
@[simp] theorem State.closeSecond_met (s : State) (how : SecondEnd) : OutMeter (State.closeSecond s how) s := by
  simp [State.closeSecond]
@[simp] theorem State.testEnds_met (s : State) : OutMeter (State.testEnds s) s := by
  unfold State.testEnds; (try dsimp only); (repeat' split) <;> simp
theorem execMeteringSecondEnd_met (s : State) (z : State) (hz : execMeteringSecondEnd s = .next z) : OutMeter z s := by
  revert hz; unfold execMeteringSecondEnd; (try dsimp only); (repeat' split) <;> (simp only [done_eq]; rintro rfl; simp)
@[simp] theorem State.mtrPowerFail_met (s : State) : OutMeter (State.mtrPowerFail s) s := by
  unfold State.mtrPowerFail; (try dsimp only); (repeat' split) <;> simp
theorem execHalfCycleEnd_met (v : Fin 6) (s : State) (z : State) (hz : execHalfCycleEnd v s = .next z) : OutMeter z s := by
  revert hz; unfold execHalfCycleEnd; (try dsimp only); (repeat' split) <;> (simp only [done_eq]; rintro rfl; simp)
@[simp] theorem State.harmReport_met (s : State) (set start n : Nat) : OutMeter (State.harmReport s set start n) s := by
  simp [State.harmReport]
theorem execHarmonicWindowEnd_met (set : Fin 2) (s : State) (z : State) (hz : execHarmonicWindowEnd set s = .next z) : OutMeter z s := by
  revert hz; unfold execHarmonicWindowEnd; (try dsimp only); (repeat' split) <;> (simp only [done_eq]; rintro rfl; simp)
@[simp] theorem State.stStart_met (s : State) : OutMeter (State.stStart s) s := by
  simp [State.stStart]
@[simp] theorem State.stStop_met (s : State) : OutMeter (State.stStop s) s := by
  simp [State.stStop]
theorem execMtrSelftestTimer_met (s : State) (z : State) (hz : execMtrSelftestTimer s = .next z) : OutMeter z s := by
  revert hz; unfold execMtrSelftestTimer; (try dsimp only); (repeat' split) <;> (simp only [done_eq]; rintro rfl; simp)
theorem execMeterSelftestConnect_met (s : State) (z : State) (hz : execMeterSelftestConnect s = .next z) : OutMeter z s := by
  revert hz; unfold execMeterSelftestConnect; (try dsimp only); (repeat' split) <;> (simp only [done_eq]; rintro rfl; simp)
theorem execMeterSelftestDisconnect_met (s : State) (z : State) (hz : execMeterSelftestDisconnect s = .next z) : OutMeter z s := by
  revert hz; unfold execMeterSelftestDisconnect; (try dsimp only); (repeat' split) <;> (simp only [done_eq]; rintro rfl; simp)

end Sys2Proof.Machine
end

