-- ==== Sys2Proof/Laws/OutStore.lean ====
section
/-! SUPPORT. The history drives: what these commands leave unchanged. -/
namespace Sys2Proof.Machine

/-- Every other kind of state is as before. -/
@[simp] abbrev OutDrives (t s : State) : Prop := t.pending = s.pending ∧ t.member = s.member ∧ t.tick = s.tick ∧ t.tickHi = s.tickHi ∧ t.links = s.links ∧ t.cfg = s.cfg ∧ t.ports = s.ports ∧ t.nodes = s.nodes ∧ t.trk = s.trk ∧ t.logic = s.logic ∧ t.cores = s.cores ∧ t.loopDies = s.loopDies ∧ t.loops = s.loops ∧ t.fio = s.fio ∧ t.mtr = s.mtr ∧ t.mem = s.mem ∧ t.owners = s.owners ∧ t.dmas = s.dmas ∧ t.time = s.time ∧ t.su = s.su
theorem OutDrives.trans {a b c : State} (h : OutDrives a b) (g : OutDrives b c) : OutDrives a c := by
  simp_all only [OutDrives, and_self]
@[simp] theorem foldl_drv {α : Type} (f : State → α → State) (l : List α) (s : State) (h : ∀ s x, OutDrives (f s x) s) :
    OutDrives (l.foldl f s) s := by
  induction l generalizing s with
  | nil => simp only [List.foldl_nil, OutDrives, and_self]
  | cons a l ih => exact OutDrives.trans (ih (f s a)) (h s a)
@[simp] theorem settle_drv (s t : State) : OutDrives (settle s t) t := by
  simp only [OutDrives, settle_pending, settle_member, settle_tick, settle_tickHi, settle_links, settle_cfg, settle_ports, settle_nodes, settle_trk, settle_logic, settle_cores, settle_loopDies, settle_loops, settle_fio, settle_mtr, settle_mem, settle_owners, settle_dmas, settle_time, settle_su, and_self]
theorem settle_drv' (s t u : State) : OutDrives (settle s t) u = OutDrives t u := by
  simp only [OutDrives, settle_pending, settle_member, settle_tick, settle_tickHi, settle_links, settle_cfg, settle_ports, settle_nodes, settle_trk, settle_logic, settle_cores, settle_loopDies, settle_loops, settle_fio, settle_mtr, settle_mem, settle_owners, settle_dmas, settle_time, settle_su]
@[simp] theorem State.integFail_drv (s : State) (line : Nat) : OutDrives (State.integFail s line) s := by
  unfold State.integFail; (try dsimp only); (repeat' split) <;> simp
@[simp] theorem State.xlateFault_drv (s : State) (d ctx cause : Nat) (write pin : Bool) (inst va : Nat) : OutDrives (State.xlateFault s d ctx cause write pin inst va) s := by
  unfold State.xlateFault; (try dsimp only); (repeat' split) <;> simp
@[simp] theorem State.engFault_drv (s : State) (d cls inst : Nat) (write : Bool) (e : EngFault) :
    OutDrives (s.engFault d cls inst write e) s := by
  unfold State.engFault; split
  · simp
  · split <;> simp
@[simp] theorem State.driveFail_drv (s : State) (n : Nat) : OutDrives (State.driveFail s n) s := by
  unfold State.driveFail; (try dsimp only); (repeat' split) <;> simp
@[simp] theorem State.nvmeFail_drv (s : State) (n cid : Nat) : OutDrives (State.nvmeFail s n cid) s := by
  unfold State.nvmeFail; (try dsimp only); (repeat' split) <;> simp
theorem execNvmeCompletion_drv (drive : Fin 2) (cid : Nat) (ok : Bool) (fault : Option EngFault) (s : State) (z : State) (hz : execNvmeCompletion drive cid ok fault s = .next z) : OutDrives z s := by
  revert hz; unfold execNvmeCompletion; try dsimp only
  repeat' split
  all_goals (simp only [done_eq]; rintro rfl)
  repeat' (split <;> (try (rename_i h; have h2 := congrArg Prod.snd h; dsimp only at h2; clear h; subst h2)))
  all_goals first
    | done
    | (simp_all; done)
    | (apply foldl_drv; intro s x; (repeat' split) <;> simp_all; done)
    | (rename_i h; have h2 := congrArg Prod.snd h; dsimp only at h2; clear h; subst h2; simp_all; done)
    | (rename_i h; have h2 := congrArg Prod.snd h; dsimp only at h2; clear h; subst h2; simp; done)
    | (rename_i h _; have h2 := congrArg Prod.snd h; dsimp only at h2; clear h; subst h2; simp_all; done)
    | skip
theorem execNvmeCommandTimeout_drv (drive : Fin 2) (cid : Nat) (s : State) (z : State) (hz : execNvmeCommandTimeout drive cid s = .next z) : OutDrives z s := by
  revert hz; unfold execNvmeCommandTimeout; (try dsimp only); (repeat' split) <;> (simp only [done_eq]; rintro rfl; simp)
theorem execNvmeReissue_drv (drive : Fin 2) (cid : Nat) (s : State) (z : State) (hz : execNvmeReissue drive cid s = .next z) : OutDrives z s := by
  revert hz; unfold execNvmeReissue; (try dsimp only); (repeat' split) <;> (simp only [done_eq]; rintro rfl; simp)
@[simp] theorem State.reclaimAll_drv (s : State) (l : List Nat) : OutDrives (State.reclaimAll s l) s := by
  induction l generalizing s with
  | nil => unfold State.reclaimAll; (try dsimp only); (repeat' (split <;> (try (rename_i h; have h2 := congrArg Prod.snd h; dsimp only at h2; clear h; subst h2)))) <;>
    first
    | done
    | (simp_all; done)
    | (rename_i h; have h2 := congrArg Prod.snd h; dsimp only at h2; clear h; subst h2; simp_all; done)
    | (rename_i h _; have h2 := congrArg Prod.snd h; dsimp only at h2; clear h; subst h2; simp_all; done)
    | (rename_i h _ _; have h2 := congrArg Prod.snd h; dsimp only at h2; clear h; subst h2; simp_all; done)
    | skip
  | cons a l ih => unfold State.reclaimAll; (try dsimp only); (repeat' (split <;> (try (rename_i h; have h2 := congrArg Prod.snd h; dsimp only at h2; clear h; subst h2)))) <;>
    first
    | done
    | (simp_all; done)
    | (rename_i h; have h2 := congrArg Prod.snd h; dsimp only at h2; clear h; subst h2; simp_all; done)
    | (rename_i h _; have h2 := congrArg Prod.snd h; dsimp only at h2; clear h; subst h2; simp_all; done)
    | (rename_i h _ _; have h2 := congrArg Prod.snd h; dsimp only at h2; clear h; subst h2; simp_all; done)
    | skip
@[simp] theorem State.newKey_drv (s : State) (k : KeyName) : OutDrives (State.newKey s k) s := by
  simp [State.newKey, Security.hold]
@[simp] theorem State.newKeys_drv (s : State) (t : Tenant) : OutDrives (State.newKeys s t) s := by
  unfold State.newKeys; (try dsimp only); (repeat' split) <;> simp
@[simp] theorem State.takeEscrow_drv (s : State) (t : Tenant) (l : List (Nat × BitVec 256)) : OutDrives (State.takeEscrow s t l) s := by
  induction l generalizing s with
  | nil => simp [State.takeEscrow]
  | cons a l ih =>
    unfold State.takeEscrow
    refine OutDrives.trans (ih _) ?_
    (repeat' split) <;> simp [Security.hold]
@[simp] theorem State.keysStart_drv (s : State) : OutDrives (State.keysStart s) s := by
  unfold State.keysStart; (try dsimp only); (repeat' split) <;> simp
@[simp] theorem State.adminStart_drv (s : State) (n : Nat) (cache : Bool) : OutDrives (State.adminStart s n cache) s := by
  simp [State.adminStart]
@[simp] theorem State.startReads_drv (s : State) : OutDrives (State.startReads s) s := by
  unfold State.startReads
  exact OutDrives.trans (foldl_drv _ _ _ fun s e => by simp) (foldl_drv _ _ _ fun s e => by simp)
@[simp] theorem State.storeStart_drv (s : State) : OutDrives (State.storeStart s) s := by
  unfold State.storeStart; (try dsimp only); (repeat' split) <;> simp
theorem execDriveReady_drv (drive : Fin 2) (blocks : Nat) (suitable cache dsm : Bool) (serial : Nat) (s : State) (z : State) (hz : execDriveReady drive blocks suitable cache dsm serial s = .next z) : OutDrives z s := by
  revert hz; unfold execDriveReady; (try dsimp only); (repeat' split) <;> (simp only [done_eq]; rintro rfl; simp)
theorem execCheckpointTimer_drv (s : State) (z : State) (hz : execCheckpointTimer s = .next z) : OutDrives z s := by
  revert hz; unfold execCheckpointTimer; (try dsimp only); (repeat' split) <;> (simp only [done_eq]; rintro rfl; simp)
theorem execTrendFlushTimer_drv (d : Die) (ten : Tenant) (s : State) (z : State) (hz : execTrendFlushTimer d ten s = .next z) : OutDrives z s := by
  revert hz; unfold execTrendFlushTimer; (try dsimp only); (repeat' split) <;> (simp only [done_eq]; rintro rfl; simp)
theorem execResyncSegmentCopy_drv (s : State) (z : State) (hz : execResyncSegmentCopy s = .next z) : OutDrives z s := by
  revert hz; unfold execResyncSegmentCopy; (try dsimp only); (repeat' split) <;> (simp only [done_eq]; rintro rfl; simp)
@[simp] theorem State.readStored_drv (s : State) (n i : Nat) : OutDrives (State.readStored s n i).2 s := by
  unfold State.readStored; (try dsimp only); (repeat' split) <;> simp

end Sys2Proof.Machine
end

