-- ==== Sys2Proof/Laws/OutReads.lean ====
section
/-! SUPPORT. Reading mailbox commands: everything but the host port is as before. -/
namespace Sys2Proof.Machine

/-- Every other kind of state is as before. -/
@[simp] abbrev OutHost (t s : State) : Prop := t.pending = s.pending ∧ t.member = s.member ∧ t.tick = s.tick ∧ t.tickHi = s.tickHi ∧ t.links = s.links ∧ t.cfg = s.cfg ∧ t.pnt = s.pnt ∧ t.ports = s.ports ∧ t.nodes = s.nodes ∧ t.trk = s.trk ∧ t.outbox = s.outbox ∧ t.logic = s.logic ∧ t.cores = s.cores ∧ t.loopDies = s.loopDies ∧ t.loops = s.loops ∧ t.fio = s.fio ∧ t.mtr = s.mtr ∧ t.mem = s.mem ∧ t.tags = s.tags ∧ t.owners = s.owners ∧ t.atus = s.atus ∧ t.dmas = s.dmas ∧ t.hst = s.hst ∧ t.evr = s.evr ∧ t.sec = s.sec ∧ t.time = s.time ∧ t.su = s.su
theorem OutHost.trans {a b c : State} (h : OutHost a b) (g : OutHost b c) : OutHost a c := by
  simp_all only [OutHost, and_self]
@[simp] theorem foldl_rd {α : Type} (f : State → α → State) (l : List α) (s : State) (h : ∀ s x, OutHost (f s x) s) :
    OutHost (l.foldl f s) s := by
  induction l generalizing s with
  | nil => simp only [List.foldl_nil, OutHost, and_self]
  | cons a l ih => exact OutHost.trans (ih (f s a)) (h s a)
@[simp] theorem settle_rd (s t : State) : OutHost (settle s t) t := by
  simp only [OutHost, settle_pending, settle_member, settle_tick, settle_tickHi, settle_links, settle_cfg, settle_pnt, settle_ports, settle_nodes, settle_trk, settle_outbox, settle_logic, settle_cores, settle_loopDies, settle_loops, settle_fio, settle_mtr, settle_mem, settle_tags, settle_owners, settle_atus, settle_dmas, settle_hst, settle_evr, settle_sec, settle_time, settle_su, and_self]
theorem settle_rd' (s t u : State) : OutHost (settle s t) u = OutHost t u := by
  simp only [OutHost, settle_pending, settle_member, settle_tick, settle_tickHi, settle_links, settle_cfg, settle_pnt, settle_ports, settle_nodes, settle_trk, settle_outbox, settle_logic, settle_cores, settle_loopDies, settle_loops, settle_fio, settle_mtr, settle_mem, settle_tags, settle_owners, settle_atus, settle_dmas, settle_hst, settle_evr, settle_sec, settle_time, settle_su]
@[simp] theorem State.modSender_rd (s : State) (n : Nat) (f : SlotSt → SlotSt) : OutHost (State.modSender s n f) s := by
  simp [State.modSender]
theorem State.attempt_rd (s : State) (k op : Nat) (h : ReqHead) (landlord : Bool) (p : List Byte → Bool) (bad : Option Nat)
    (f : Tenant → Nat → State → Answer) (hf : ∀ t n s, OutHost (f t n s).2 s) :
    OutHost (s.attempt k op h landlord p bad f).2 s := by
  unfold State.attempt; dsimp only
  repeat' split
  all_goals first
    | exact hf _ _ _
    | simp [ansNo]
theorem State.serve_rd (s : State) (r : Req) (op : Nat) (landlord : Bool) (p : List Byte → Bool) (bad : Option Nat)
    (f : Tenant → Nat → State → Answer) (hf : ∀ t n s, OutHost (f t n s).2 s) : OutHost (s.serve r op landlord p bad f) s := by
  have key : ∀ (u v : State) (x : Option Result) (k : Nat) (h : ReqHead), v.attempt k op h landlord p bad f = (x, u) → OutHost u v := by
    intro u v x k h e
    have := State.attempt_rd v k op h landlord p bad f hf
    rw [e] at this; exact this
  unfold State.serve; dsimp only
  repeat' split
  all_goals first
    | (simp; done)
    | exact OutHost.trans (key _ _ _ _ _ (by assumption)) (State.modSender_rd _ _ _)
    | exact OutHost.trans (State.modSender_rd _ _ _) (OutHost.trans (key _ _ _ _ _ (by assumption)) (State.modSender_rd _ _ _))
theorem State.serveA_rd (s : State) (r : Req) (op : Nat) (data : List Byte) (ranges : Bool) (f : Tenant → Nat → State → Answer)
    (hf : ∀ t n s, OutHost (f t n s).2 s) : OutHost (s.serveA r op data ranges f) s := State.serve_rd _ _ _ _ _ _ _ hf
theorem State.serveL_rd (s : State) (r : Req) (op : Nat) (data : List Byte) (ranges : Bool) (f : Nat → State → Answer)
    (hf : ∀ n s, OutHost (f n s).2 s) : OutHost (s.serveL r op data ranges f) s := State.serve_rd _ _ _ _ _ _ _ fun _ n s => hf n s
theorem State.servePort_rd (s : State) (r : Req) (op : Nat) (data : List Byte) (p : Byte) (ranges : Bool) (f : Nat → State → Answer)
    (hf : ∀ n s, OutHost (f n s).2 s) : OutHost (s.servePort r op data p ranges f) s := by
  apply State.serveL_rd; intro n s
  split
  · simp [ansNo]
  · exact hf n s
theorem State.serveTrunk_rd (s : State) (r : Req) (op : Nat) (data : List Byte) (p : Byte) (ranges : Bool) (f : TrunkPort → State → Answer)
    (hf : ∀ t s, OutHost (f t s).2 s) : OutHost (s.serveTrunk r op data p ranges f) s := State.serveL_rd _ _ _ _ _ _ fun _ s => hf _ s
theorem State.serveTask_rd (s : State) (r : Req) (op : Nat) (data : List Byte) (die task : Byte) (ranges : Bool)
    (f : LogicImage → Task → State → Answer) (hf : ∀ i k s, OutHost (f i k s).2 s) : OutHost (s.serveTask r op data die task ranges f) s := by
  apply State.serveA_rd; intro t n s; dsimp only
  repeat' split
  all_goals first
    | exact hf _ _ _
    | simp [ansNo]
theorem State.serveCore_rd (s : State) (r : Req) (op : Nat) (data : List Byte) (die core : Byte) (ranges : Bool) (f : State → Answer)
    (hf : ∀ s, OutHost (f s).2 s) : OutHost (s.serveCore r op data die core ranges f) s := by
  apply State.serveA_rd; intro t n s; dsimp only
  repeat' split
  all_goals first
    | exact hf _
    | simp [ansNo]
theorem State.withLoop_rd (s : State) (t : Tenant) (die : Byte) (slot : BitVec 16) (f : LoopCfg → Nat → State → Answer)
    (hf : ∀ c n s, OutHost (f c n s).2 s) : OutHost (s.withLoop t die slot f).2 s := by
  unfold State.withLoop
  repeat' split
  all_goals first
    | exact hf _ _ _
    | simp [ansNo]
theorem State.serveLoop_rd (s : State) (r : Req) (op : Nat) (data : List Byte) (die : Byte) (slot : BitVec 16) (ranges : Bool)
    (f : LoopCfg → Nat → State → Answer)
    (hf : ∀ c n s, OutHost (f c n s).2 s) : OutHost (s.serveLoop r op data die slot ranges f) s := State.serveA_rd _ _ _ _ _ _ fun t _ s => State.withLoop_rd s t die slot f hf
theorem State.serveMot_rd (s : State) (r : Req) (op : Nat) (data : List Byte) (m : Byte) (ranges : Bool) (f : State → Answer)
    (hf : ∀ s, OutHost (f s).2 s) : OutHost (s.serveMot r op data m ranges f) s := by
  apply State.serveA_rd; intro t n s
  repeat' split
  all_goals first
    | exact hf _
    | exact hf _ _ _
    | simp [ansNo]
theorem State.serveCircuit_rd (s : State) (r : Req) (op : Nat) (landlord : Bool) (k : Byte) (f : State → Answer)
    (hf : ∀ s, OutHost (f s).2 s) : OutHost (s.serveCircuit r op landlord k f) s := by
  apply State.serve_rd; intro t n s
  repeat' split
  all_goals first
    | exact hf _
    | exact hf _ _ _
    | simp [ansNo]
@[simp] theorem State.temps_rd (s : State) (n : Nat) : OutHost (State.temps s n).2 s := by
  induction n generalizing s  with
  | zero => unfold State.temps; (try dsimp only); (repeat' (split <;> (try (rename_i h; have h2 := congrArg Prod.snd h; dsimp only at h2; clear h; subst h2)))) <;>
    first
    | done
    | (simp_all; done)
    | (rename_i h; have h2 := congrArg Prod.snd h; dsimp only at h2; clear h; subst h2; simp_all; done)
    | (rename_i h _; have h2 := congrArg Prod.snd h; dsimp only at h2; clear h; subst h2; simp_all; done)
    | (rename_i h _ _; have h2 := congrArg Prod.snd h; dsimp only at h2; clear h; subst h2; simp_all; done)
    | skip
  | succ n ih => unfold State.temps; (try dsimp only); (repeat' (split <;> (try (rename_i h; have h2 := congrArg Prod.snd h; dsimp only at h2; clear h; subst h2)))) <;>
    first
    | done
    | (simp_all; done)
    | (rename_i h; have h2 := congrArg Prod.snd h; dsimp only at h2; clear h; subst h2; simp_all; done)
    | (rename_i h _; have h2 := congrArg Prod.snd h; dsimp only at h2; clear h; subst h2; simp_all; done)
    | (rename_i h _ _; have h2 := congrArg Prod.snd h; dsimp only at h2; clear h; subst h2; simp_all; done)
    | skip
theorem execDevInfo_rd (r : Req) (s : State) (z : State) (hz : execDevInfo r s = .next z) : OutHost z s := by
  obtain rfl := (done_eq _ _ _).1 hz
  rw [settle_rd']
  apply State.serveA_rd <;> intros <;> (try dsimp only) <;> (repeat' split) <;> simp [ansOk, ansNo, ansWait]
theorem execDevTemps_rd (r : Req) (s : State) (z : State) (hz : execDevTemps r s = .next z) : OutHost z s := by
  obtain rfl := (done_eq _ _ _).1 hz
  rw [settle_rd']
  apply State.serveL_rd <;> intros <;> (try dsimp only) <;> (repeat' split) <;> simp [ansOk, ansNo, ansWait]
theorem execWmkGet_rd (r : Req) (slot : Byte) (s : State) (z : State) (hz : execWmkGet r slot s = .next z) : OutHost z s := by
  obtain rfl := (done_eq _ _ _).1 hz
  rw [settle_rd']
  apply State.serveA_rd <;> intros <;> (try dsimp only) <;> (repeat' split) <;> simp [ansOk, ansNo, ansWait]
theorem execMemPoisonList_rd (r : Req) (die : Byte) (start : Word) (s : State) (z : State) (hz : execMemPoisonList r die start s = .next z) : OutHost z s := by
  obtain rfl := (done_eq _ _ _).1 hz
  rw [settle_rd']
  apply State.serveL_rd <;> intros <;> (try dsimp only) <;> (repeat' split) <;> simp [ansOk, ansNo, ansWait]
theorem execSessionInfo_rd (r : Req) (s : State) (z : State) (hz : execSessionInfo r s = .next z) : OutHost z s := by
  obtain rfl := (done_eq _ _ _).1 hz
  rw [settle_rd']
  apply State.serveA_rd <;> intros <;> (try dsimp only) <;> (repeat' split) <;> simp [ansOk, ansNo, ansWait]
theorem execSessionList_rd (r : Req) (s : State) (z : State) (hz : execSessionList r s = .next z) : OutHost z s := by
  obtain rfl := (done_eq _ _ _).1 hz
  rw [settle_rd']
  apply State.serveL_rd <;> intros <;> (try dsimp only) <;> (repeat' split) <;> simp [ansOk, ansNo, ansWait]
theorem execPntRead_rd (r : Req) (refs : List Word) (s : State) (z : State) (hz : execPntRead r refs s = .next z) : OutHost z s := by
  obtain rfl := (done_eq _ _ _).1 hz
  rw [settle_rd']
  apply State.serveA_rd <;> intros <;> (try dsimp only) <;> (repeat' split) <;> simp [ansOk, ansNo, ansWait]
theorem execPntReadBlock_rd (r : Req) (die : Byte) (block : BitVec 16) (s : State) (z : State) (hz : execPntReadBlock r die block s = .next z) : OutHost z s := by
  obtain rfl := (done_eq _ _ _).1 hz
  rw [settle_rd']
  apply State.serveA_rd <;> intros <;> (try dsimp only) <;> (repeat' split) <;> simp [ansOk, ansNo, ansWait]
theorem execPntForceList_rd (r : Req) (start : BitVec 16) (s : State) (z : State) (hz : execPntForceList r start s = .next z) : OutHost z s := by
  obtain rfl := (done_eq _ _ _).1 hz
  rw [settle_rd']
  apply State.serveA_rd <;> intros <;> (try dsimp only) <;> (repeat' split) <;> simp [ansOk, ansNo, ansWait]
theorem execPntDescRead_rd (r : Req) (ref : Word) (s : State) (z : State) (hz : execPntDescRead r ref s = .next z) : OutHost z s := by
  obtain rfl := (done_eq _ _ _).1 hz
  rw [settle_rd']
  apply State.serveA_rd <;> intros <;> (try dsimp only) <;> (repeat' split) <;> simp [ansOk, ansNo, ansWait]
theorem execBrStatus_rd (r : Req) (port : Byte) (s : State) (z : State) (hz : execBrStatus r port s = .next z) : OutHost z s := by
  obtain rfl := (done_eq _ _ _).1 hz
  rw [settle_rd']
  apply State.servePort_rd <;> intros <;> (try dsimp only) <;> (repeat' split) <;> simp [ansOk, ansNo, ansWait]
theorem execBrNodes_rd (r : Req) (port : Byte) (s : State) (z : State) (hz : execBrNodes r port s = .next z) : OutHost z s := by
  obtain rfl := (done_eq _ _ _).1 hz
  rw [settle_rd']
  apply State.servePort_rd <;> intros <;> (try dsimp only) <;> (repeat' split) <;> simp [ansOk, ansNo, ansWait]
theorem execBrUnbound_rd (r : Req) (port : Byte) (s : State) (z : State) (hz : execBrUnbound r port s = .next z) : OutHost z s := by
  obtain rfl := (done_eq _ _ _).1 hz
  rw [settle_rd']
  apply State.servePort_rd <;> intros <;> (try dsimp only) <;> (repeat' split) <;> simp [ansOk, ansNo, ansWait]
theorem execTrkStatus_rd (r : Req) (port : Byte) (s : State) (z : State) (hz : execTrkStatus r port s = .next z) : OutHost z s := by
  obtain rfl := (done_eq _ _ _).1 hz
  rw [settle_rd']
  apply State.serveTrunk_rd <;> intros <;> (try dsimp only) <;> (repeat' split) <;> simp [ansOk, ansNo, ansWait]
theorem execTrkRingMap_rd (r : Req) (s : State) (z : State) (hz : execTrkRingMap r s = .next z) : OutHost z s := by
  obtain rfl := (done_eq _ _ _).1 hz
  rw [settle_rd']
  apply State.serveL_rd <;> intros <;> (try dsimp only) <;> (repeat' split) <;> simp [ansOk, ansNo, ansWait]
theorem execLogicStatus_rd (r : Req) (die : Byte) (s : State) (z : State) (hz : execLogicStatus r die s = .next z) : OutHost z s := by
  obtain rfl := (done_eq _ _ _).1 hz
  rw [settle_rd']
  apply State.serveL_rd <;> intros <;> (try dsimp only) <;> (repeat' split) <;> simp [ansOk, ansNo, ansWait]
theorem execLogicTasks_rd (r : Req) (die : Byte) (s : State) (z : State) (hz : execLogicTasks r die s = .next z) : OutHost z s := by
  obtain rfl := (done_eq _ _ _).1 hz
  rw [settle_rd']
  apply State.serveA_rd <;> intros <;> (try dsimp only) <;> (repeat' split) <;> simp [ansOk, ansNo, ansWait]
theorem execLogicReadVar_rd (r : Req) (die task : Byte) (addr : V24) (count : BitVec 16) (s : State) (z : State) (hz : execLogicReadVar r die task addr count s = .next z) : OutHost z s := by
  obtain rfl := (done_eq _ _ _).1 hz
  rw [settle_rd']
  apply State.serveTask_rd <;> intros <;> (try dsimp only) <;> (repeat' split) <;> simp [ansOk, ansNo, ansWait]
theorem execLogicBpRead_rd (r : Req) (die core : Byte) (s : State) (z : State) (hz : execLogicBpRead r die core s = .next z) : OutHost z s := by
  obtain rfl := (done_eq _ _ _).1 hz
  rw [settle_rd']
  apply State.serveCore_rd <;> intros <;> (try dsimp only) <;> (repeat' split) <;> simp [ansOk, ansNo, ansWait]
theorem execLogicCoreRead_rd (r : Req) (die core : Byte) (s : State) (z : State) (hz : execLogicCoreRead r die core s = .next z) : OutHost z s := by
  obtain rfl := (done_eq _ _ _).1 hz
  rw [settle_rd']
  apply State.serveCore_rd <;> intros <;> (try dsimp only) <;> (repeat' split) <;> simp [ansOk, ansNo, ansWait]
theorem execLoopGet_rd (r : Req) (die : Byte) (slot : BitVec 16) (s : State) (z : State) (hz : execLoopGet r die slot s = .next z) : OutHost z s := by
  obtain rfl := (done_eq _ _ _).1 hz
  rw [settle_rd']
  apply State.serveLoop_rd <;> intros <;> (try dsimp only) <;> (repeat' split) <;> simp [ansOk, ansNo, ansWait]
theorem execLoopTestRead_rd (r : Req) (die unit : Byte) (first : V24) (s : State) (z : State) (hz : execLoopTestRead r die unit first s = .next z) : OutHost z s := by
  obtain rfl := (done_eq _ _ _).1 hz
  rw [settle_rd']
  apply State.serveA_rd <;> intros <;> (try dsimp only) <;> (repeat' split) <;> simp [ansOk, ansNo, ansWait]
theorem execLoopBudget_rd (r : Req) (die : Byte) (s : State) (z : State) (hz : execLoopBudget r die s = .next z) : OutHost z s := by
  obtain rfl := (done_eq _ _ _).1 hz
  rw [settle_rd']
  apply State.serveL_rd <;> intros <;> (try dsimp only) <;> (repeat' split) <;> simp [ansOk, ansNo, ansWait]
theorem execFioGroups_rd (r : Req) (s : State) (z : State) (hz : execFioGroups r s = .next z) : OutHost z s := by
  obtain rfl := (done_eq _ _ _).1 hz
  rw [settle_rd']
  apply State.serveL_rd <;> intros <;> (try dsimp only) <;> (repeat' split) <;> simp [ansOk, ansNo, ansWait]
theorem execMotStatus_rd (r : Req) (m : Byte) (s : State) (z : State) (hz : execMotStatus r m s = .next z) : OutHost z s := by
  obtain rfl := (done_eq _ _ _).1 hz
  rw [settle_rd']
  apply State.serveMot_rd <;> intros <;> (try dsimp only) <;> (repeat' split) <;> simp [ansOk, ansNo, ansWait]
theorem execMtrCircuit_rd (r : Req) (k : Byte) (s : State) (z : State) (hz : execMtrCircuit r k s = .next z) : OutHost z s := by
  obtain rfl := (done_eq _ _ _).1 hz
  rw [settle_rd']
  apply State.serveCircuit_rd <;> intros <;> (try dsimp only) <;> (repeat' split) <;> simp [ansOk, ansNo, ansWait]
theorem execMtrVset_rd (r : Req) (set : Byte) (s : State) (z : State) (hz : execMtrVset r set s = .next z) : OutHost z s := by
  obtain rfl := (done_eq _ _ _).1 hz
  rw [settle_rd']
  apply State.serveL_rd <;> intros <;> (try dsimp only) <;> (repeat' split) <;> simp [ansOk, ansNo, ansWait]
theorem execMtrHarm_rd (r : Req) (input orders : Byte) (s : State) (z : State) (hz : execMtrHarm r input orders s = .next z) : OutHost z s := by
  obtain rfl := (done_eq _ _ _).1 hz
  rw [settle_rd']
  apply State.serveA_rd <;> intros <;> (try dsimp only) <;> (repeat' split) <;> simp [ansOk, ansNo, ansWait]
theorem execMtrTotals_rd (r : Req) (k : Byte) (s : State) (z : State) (hz : execMtrTotals r k s = .next z) : OutHost z s := by
  obtain rfl := (done_eq _ _ _).1 hz
  rw [settle_rd']
  apply State.serveCircuit_rd <;> intros <;> (try dsimp only) <;> (repeat' split) <;> simp [ansOk, ansNo, ansWait]
theorem execMtrCalRead_rd (r : Req) (input : Byte) (s : State) (z : State) (hz : execMtrCalRead r input s = .next z) : OutHost z s := by
  obtain rfl := (done_eq _ _ _).1 hz
  rw [settle_rd']
  apply State.serveL_rd <;> intros <;> (try dsimp only) <;> (repeat' split) <;> simp [ansOk, ansNo, ansWait]
theorem execMtrConfigRead_rd (r : Req) (s : State) (z : State) (hz : execMtrConfigRead r s = .next z) : OutHost z s := by
  obtain rfl := (done_eq _ _ _).1 hz
  rw [settle_rd']
  apply State.serveL_rd <;> intros <;> (try dsimp only) <;> (repeat' split) <;> simp [ansOk, ansNo, ansWait]
theorem execHstQuota_rd (r : Req) (ten : BitVec 16) (s : State) (z : State) (hz : execHstQuota r ten s = .next z) : OutHost z s := by
  obtain rfl := (done_eq _ _ _).1 hz
  rw [settle_rd']
  apply State.serveA_rd <;> intros <;> (try dsimp only) <;> (repeat' split) <;> simp [ansOk, ansNo, ansWait]
theorem execHstStatus_rd (r : Req) (s : State) (z : State) (hz : execHstStatus r s = .next z) : OutHost z s := by
  obtain rfl := (done_eq _ _ _).1 hz
  rw [settle_rd']
  apply State.serveL_rd <;> intros <;> (try dsimp only) <;> (repeat' split) <;> simp [ansOk, ansNo, ansWait]
theorem execEvtRead_rd (r : Req) (first : BitVec 64) (count : BitVec 16) (s : State) (z : State) (hz : execEvtRead r first count s = .next z) : OutHost z s := by
  obtain rfl := (done_eq _ _ _).1 hz
  rw [settle_rd']
  apply State.serveA_rd <;> intros <;> (try dsimp only) <;> (repeat' split) <;> simp [ansOk, ansNo, ansWait]
theorem execEvtHeartRead_rd (r : Req) (first count : BitVec 16) (s : State) (z : State) (hz : execEvtHeartRead r first count s = .next z) : OutHost z s := by
  obtain rfl := (done_eq _ _ _).1 hz
  rw [settle_rd']
  apply State.serveA_rd <;> intros <;> (try dsimp only) <;> (repeat' split) <;> simp [ansOk, ansNo, ansWait]
theorem execAccCredRead_rd (r : Req) (idx : Word) (s : State) (z : State) (hz : execAccCredRead r idx s = .next z) : OutHost z s := by
  obtain rfl := (done_eq _ _ _).1 hz
  rw [settle_rd']
  apply State.serveA_rd <;> intros <;> (try dsimp only) <;> (repeat' split) <;> simp [ansOk, ansNo, ansWait]
theorem execAccDoorStatus_rd (r : Req) (door : BitVec 16) (s : State) (z : State) (hz : execAccDoorStatus r door s = .next z) : OutHost z s := by
  obtain rfl := (done_eq _ _ _).1 hz
  rw [settle_rd']
  apply State.serveA_rd <;> intros <;> (try dsimp only) <;> (repeat' split) <;> simp [ansOk, ansNo, ansWait]
theorem execTimeGet_rd (r : Req) (s : State) (z : State) (hz : execTimeGet r s = .next z) : OutHost z s := by
  obtain rfl := (done_eq _ _ _).1 hz
  rw [settle_rd']
  apply State.serveA_rd <;> intros <;> (try dsimp only) <;> (repeat' split) <;> simp [ansOk, ansNo, ansWait]
theorem execRtcUserRead_rd (r : Req) (first count : Byte) (s : State) (z : State) (hz : execRtcUserRead r first count s = .next z) : OutHost z s := by
  obtain rfl := (done_eq _ _ _).1 hz
  rw [settle_rd']
  apply State.serve_rd <;> intros <;> (try dsimp only) <;> (repeat' split) <;> simp [ansOk, ansNo, ansWait]
theorem execRtcSysRead_rd (r : Req) (s : State) (z : State) (hz : execRtcSysRead r s = .next z) : OutHost z s := by
  obtain rfl := (done_eq _ _ _).1 hz
  rw [settle_rd']
  apply State.serveL_rd <;> intros <;> (try dsimp only) <;> (repeat' split) <;> simp [ansOk, ansNo, ansWait]
theorem execCfgStatus_rd (r : Req) (s : State) (z : State) (hz : execCfgStatus r s = .next z) : OutHost z s := by
  obtain rfl := (done_eq _ _ _).1 hz
  rw [settle_rd']
  apply State.serveL_rd <;> intros <;> (try dsimp only) <;> (repeat' split) <;> simp [ansOk, ansNo, ansWait]
theorem execSecStatus_rd (r : Req) (s : State) (z : State) (hz : execSecStatus r s = .next z) : OutHost z s := by
  obtain rfl := (done_eq _ _ _).1 hz
  rw [settle_rd']
  apply State.serveL_rd <;> intros <;> (try dsimp only) <;> (repeat' split) <;> simp [ansOk, ansNo, ansWait]

end Sys2Proof.Machine
end

