-- ==== Sys2Proof/Laws/Points.lean ====
section
/-! SUPPORT. What leaves the points alone, and what a cell holds after a write, a force and a release. -/
namespace Sys2Proof.Machine

/-- The points are as before. -/
@[simp] abbrev SamePoints (t s : State) : Prop := t.pnt = s.pnt
theorem SamePoints.trans {a b c : State} (h : SamePoints a b) (g : SamePoints b c) : SamePoints a c := by
  simp_all only [SamePoints, and_self]
@[simp] theorem foldl_sp {α : Type} (f : State → α → State) (l : List α) (s : State) (h : ∀ s x, SamePoints (f s x) s) :
    SamePoints (l.foldl f s) s := by
  induction l generalizing s with
  | nil => simp only [List.foldl_nil, SamePoints, and_self]
  | cons a l ih => exact SamePoints.trans (ih (f s a)) (h s a)
@[simp] theorem State.create_sp (s : State) (e : Event) : SamePoints (State.create s e) s := by
  unfold State.create; (try dsimp only); (repeat' split) <;> simp
@[simp] theorem State.report_sp (s : State) (e : Event) : SamePoints (State.report s e) s := by
  unfold State.report; (try dsimp only); (repeat' split) <;> simp
@[simp] theorem State.event_sp (s : State) (t : Tenant) (d b inst c : Nat) (data : List Word) : SamePoints (State.event s t d b inst c data) s := by
  simp [State.event]
@[simp] theorem State.thaw_sp (s : State) : SamePoints (State.thaw s) s := by
  unfold State.thaw; (try dsimp only); (repeat' split) <;> simp
@[simp] theorem State.modDrive_sp (s : State) (n : Nat) (f : Drive → Drive) : SamePoints (State.modDrive s n f) s := by
  simp [State.modDrive]
@[simp] theorem State.hstIrq_sp (s : State) (d bit : Nat) : SamePoints (State.hstIrq s d bit) s := by
  simp [State.hstIrq]
@[simp] theorem State.nvmeCmd_sp (s : State) (d : Nat) (op : NvmeOp) (sba blocks : Nat) (data : List Byte) : SamePoints (State.nvmeCmd s d op sba blocks data) s := by
  unfold State.nvmeCmd; (try dsimp only); (repeat' split) <;> simp
@[simp] theorem State.nvmeWrite_sp (s : State) (d sba : Nat) (data : List Byte) : SamePoints (State.nvmeWrite s d sba data) s := by
  unfold State.nvmeWrite; (try dsimp only); (repeat' split) <;> simp
@[simp] theorem State.storeWrite_sp (s : State) (sba : Nat) (data : List Byte) : SamePoints (State.storeWrite s sba data) s := by
  unfold State.storeWrite; (try dsimp only); (repeat' split) <;> simp
@[simp] theorem State.deallocate_sp (s : State) (n : Nat) : SamePoints (State.deallocate s n) s := by
  unfold State.deallocate; (try dsimp only); (repeat' split) <;> simp
@[simp] theorem State.takeNonces_sp (s : State) (t : Tenant) (k : Nat) : SamePoints (State.takeNonces s t k).2 s := by
  simp [State.takeNonces]
@[simp] theorem State.takeNonce_sp (s : State) (t : Tenant) : SamePoints (State.takeNonce s t).2 s := by
  simp [State.takeNonce]
@[simp] theorem State.metaWrite_sp (s : State) (blk n : Nat) (payload : Nat → List Byte) : SamePoints (State.metaWrite s blk n payload) s := by
  unfold State.metaWrite
  apply foldl_sp; intro s e; dsimp only
  exact SamePoints.trans (foldl_sp _ _ _ fun s d => by simp) (by simp)
@[simp] theorem State.flushCaches_sp (s : State) : SamePoints (State.flushCaches s) s := by
  unfold State.flushCaches
  apply foldl_sp; intro s e; split <;> simp
@[simp] theorem State.writeSuper_sp (s : State) (b : Bool) : SamePoints (State.writeSuper s b) s := by
  simp [State.writeSuper]
@[simp] theorem State.checkpoint_sp (s : State) : SamePoints (State.checkpoint s) s := by
  unfold State.checkpoint; (try dsimp only); (repeat' split) <;> simp
@[simp] theorem State.reclaim_sp (s : State) (n : Nat) : SamePoints (State.reclaim s n) s := by
  unfold State.reclaim; (try dsimp only); (repeat' split) <;> simp
@[simp] theorem State.reclaimTo_sp (s : State) (t : Tenant) (n : Nat) : SamePoints (State.reclaimTo s t n) s := by
  induction n generalizing s  with
  | zero => unfold State.reclaimTo; (try dsimp only); (repeat' (split <;> (try (rename_i h; have h2 := congrArg Prod.snd h; dsimp only at h2; clear h; subst h2)))) <;>
    first
    | done
    | (simp_all; done)
    | (rename_i h; have h2 := congrArg Prod.snd h; dsimp only at h2; clear h; subst h2; simp_all; done)
    | (rename_i h _; have h2 := congrArg Prod.snd h; dsimp only at h2; clear h; subst h2; simp_all; done)
    | (rename_i h _ _; have h2 := congrArg Prod.snd h; dsimp only at h2; clear h; subst h2; simp_all; done)
    | skip
  | succ n ih => unfold State.reclaimTo; (try dsimp only); (repeat' (split <;> (try (rename_i h; have h2 := congrArg Prod.snd h; dsimp only at h2; clear h; subst h2)))) <;>
    first
    | done
    | (simp_all; done)
    | (rename_i h; have h2 := congrArg Prod.snd h; dsimp only at h2; clear h; subst h2; simp_all; done)
    | (rename_i h _; have h2 := congrArg Prod.snd h; dsimp only at h2; clear h; subst h2; simp_all; done)
    | (rename_i h _ _; have h2 := congrArg Prod.snd h; dsimp only at h2; clear h; subst h2; simp_all; done)
    | skip
theorem State.openSeg_sp (s : State) (t : Tenant) (kind : Nat) (src : Byte) (z) (h : State.openSeg s t kind src = some z) : SamePoints z.2 s := by
  revert h; unfold State.openSeg; (try dsimp only)
  (repeat' (split <;> (try (rename_i h; have h2 := congrArg Prod.snd h; dsimp only at h2; clear h; subst h2)))) <;> (try simp) <;> (try rintro rfl) <;> (try simp_all)
theorem State.segFor_sp (s : State) (t : Tenant) (kind : Nat) (src : Byte) (z : Nat × State)
    (h : s.segFor t kind src = some z) : SamePoints z.2 s := by
  unfold State.segFor at h
  split at h
  · cases h; simp
  · exact State.openSeg_sp _ _ _ _ _ h
theorem State.writeBlock_sp (s : State) (t : Tenant) (kind : Nat) (src : Byte) (b : Block) (z : State)
    (h : s.writeBlock t kind src b = some z) : SamePoints z s := by
  unfold State.writeBlock at h
  split at h
  · split at h
    · cases h
    · rename_i n u hu
      have k := State.segFor_sp _ _ _ _ _ hu
      by_cases hk : kind = 0 <;> simp only [hk, if_true, if_false, Option.some.injEq] at h <;> subst h <;> simp_all
  · cases h
@[simp] theorem State.drain_sp (s : State) (t : Tenant) (l : List Block) : SamePoints (s.drain t l).2 s := by
  induction l generalizing s with
  | nil => simp [State.drain]
  | cons a l ih =>
    unfold State.drain
    split
    · rename_i u hu
      exact SamePoints.trans (ih u) (State.writeBlock_sp _ _ _ _ _ _ hu)
    · simp
@[simp] theorem State.setStaging_sp (s : State) (d : Nat) (t : Tenant) (x : Staging) : SamePoints (State.setStaging s d t x) s := by
  simp [State.setStaging]
@[simp] theorem State.flushStaging_sp (s : State) (d : Nat) (t : Tenant) : SamePoints (State.flushStaging s d t) s := by
  unfold State.flushStaging; dsimp only; (repeat' split) <;> simp
theorem State.stage_sp (s : State) (d : Nat) (t : Tenant) (r : TrendRec) (z : State) (h : s.stage d t r = some z) : SamePoints z s := by
  unfold State.stage at h; dsimp only at h
  repeat' split at h
  all_goals first | (simp at h; done) | (obtain rfl := Option.some.inj h; simp)
@[simp] theorem State.recordTrend_sp (s : State) (d : Nat) (t : Tenant) (series : Nat) (status : Byte) (v : V24) (periodic : Bool) :
    SamePoints (s.recordTrend d t series status v periodic) s := by
  unfold State.recordTrend; dsimp only
  split
  · rename_i u hu
    have k := State.stage_sp _ _ _ _ _ hu
    simp_all
  · simp
@[simp] theorem State.integFail_sp (s : State) (line : Nat) : SamePoints (State.integFail s line) s := by
  unfold State.integFail; (try dsimp only); (repeat' split) <;> simp
@[simp] theorem State.writeLine_sp (s : State) (line : Nat) (data : List Byte) : SamePoints (s.writeLine line data) s := by
  simp [State.writeLine]
@[simp] theorem State.mergeLine_sp (s : State) (line : Nat) (data : List (Nat × Byte)) : SamePoints (s.mergeLine line data).2 s := by
  unfold State.mergeLine; split <;> simp
@[simp] theorem State.readPhys_sp (s : State) (pa : Nat) (n : Nat) : SamePoints (State.readPhys s pa n).2 s := by
  induction n generalizing s pa with
  | zero => unfold State.readPhys; (try dsimp only); (repeat' (split <;> (try (rename_i h; have h2 := congrArg Prod.snd h; dsimp only at h2; clear h; subst h2)))) <;>
    first
    | done
    | (simp_all; done)
    | (rename_i h; have h2 := congrArg Prod.snd h; dsimp only at h2; clear h; subst h2; simp_all; done)
    | (rename_i h _; have h2 := congrArg Prod.snd h; dsimp only at h2; clear h; subst h2; simp_all; done)
    | (rename_i h _ _; have h2 := congrArg Prod.snd h; dsimp only at h2; clear h; subst h2; simp_all; done)
    | skip
  | succ n ih => unfold State.readPhys; (try dsimp only); (repeat' (split <;> (try (rename_i h; have h2 := congrArg Prod.snd h; dsimp only at h2; clear h; subst h2)))) <;>
    first
    | done
    | (simp_all; done)
    | (rename_i h; have h2 := congrArg Prod.snd h; dsimp only at h2; clear h; subst h2; simp_all; done)
    | (rename_i h _; have h2 := congrArg Prod.snd h; dsimp only at h2; clear h; subst h2; simp_all; done)
    | (rename_i h _ _; have h2 := congrArg Prod.snd h; dsimp only at h2; clear h; subst h2; simp_all; done)
    | skip
@[simp] theorem State.xlateFault_sp (s : State) (d ctx cause : Nat) (write pin : Bool) (inst va : Nat) : SamePoints (State.xlateFault s d ctx cause write pin inst va) s := by
  unfold State.xlateFault; (try dsimp only); (repeat' split) <;> simp
@[simp] theorem State.engFault_sp (s : State) (d cls inst : Nat) (write : Bool) (e : EngFault) :
    SamePoints (s.engFault d cls inst write e) s := by
  unfold State.engFault; split
  · simp
  · split <;> simp
@[simp] theorem State.cacheTlb_sp (s : State) (d key : Nat) (e : Nat × Pte) : SamePoints (State.cacheTlb s d key e) s := by
  unfold State.cacheTlb; (try dsimp only); (repeat' split) <;> simp
@[simp] theorem State.assignPage_sp (s : State) (page : Nat) (t : Tenant) : SamePoints (State.assignPage s page t) s := by
  simp [State.assignPage]
@[simp] theorem State.putTable_sp (s : State) (pa w : Nat) : SamePoints (s.putTable pa w) s := by
  unfold State.putTable; dsimp only
  repeat' (split <;> (try (rename_i h; have h2 := congrArg Prod.snd h; dsimp only at h2; clear h; subst h2)))
  all_goals simp
@[simp] theorem State.invalidate_sp (s : State) (d cmd : Nat) : SamePoints (State.invalidate s d cmd) s := by
  unfold State.invalidate; (try dsimp only); (repeat' split) <;> simp
theorem State.mapEntries_sp (s : State) (d page : Nat) (m : PageMap) : SamePoints (s.mapEntries d page m) s := by
  unfold State.mapEntries; dsimp only; (repeat' split) <;> simp
@[simp] theorem State.mapPage_sp (s : State) (d page : Nat) (m : PageMap) : SamePoints (s.mapPage d page m) s := by
  unfold State.mapPage; dsimp only; split
  · exact State.mapEntries_sp _ _ _ _
  · exact SamePoints.trans (State.invalidate_sp _ _ _) (by simpa using State.mapEntries_sp s d page m)
@[simp] theorem State.putRtc_sp (s : State) (c : Calendar) : SamePoints (State.putRtc s c) s := by
  simp [State.putRtc]
@[simp] theorem State.writeRtc_sp (s : State) (ms : Nat) : SamePoints (State.writeRtc s ms) s := by
  simp [State.writeRtc]
@[simp] theorem State.setUtcAt_sp (s : State) (src : TimeSource) (ms : Nat) (at_ : Int) : SamePoints (State.setUtcAt s src ms at_) s := by
  unfold State.setUtcAt; (try dsimp only); (repeat' split) <;> simp
@[simp] theorem State.setUtc_sp (s : State) (src : TimeSource) (ms : Nat) : SamePoints (State.setUtc s src ms) s := by
  simp [State.setUtc]
@[simp] theorem State.ringUtc_sp (s : State) (u : UtcMap) : SamePoints (State.ringUtc s u) s := by
  simp [State.ringUtc]
@[simp] theorem State.ringEnter_sp (s : State) : SamePoints (State.ringEnter s) s := by
  unfold State.ringEnter; (try dsimp only); (repeat' split) <;> simp
@[simp] theorem State.hostTime_sp (s : State) (ms : Nat) : SamePoints (State.hostTime s ms) s := by
  simp [State.hostTime]
@[simp] theorem State.setOffset_sp (s : State) (o : Int) : SamePoints (State.setOffset s o) s := by
  simp [State.setOffset]
@[simp] theorem State.ringMapping_sp (s : State) (u : UtcMap) : SamePoints (State.ringMapping s u) s := by
  unfold State.ringMapping; (try dsimp only); (repeat' split) <;> simp
@[simp] theorem State.ringLoss_sp (s : State) : SamePoints (State.ringLoss s) s := by
  unfold State.ringLoss; (try dsimp only); (repeat' split) <;> simp
@[simp] theorem State.timeStart_sp (s : State) : SamePoints (State.timeStart s) s := by
  unfold State.timeStart; (try dsimp only); (repeat' split) <;> simp
@[simp] theorem State.rtcCommit_sp (s : State) : SamePoints (State.rtcCommit s) s := by
  unfold State.rtcCommit; (try dsimp only); (repeat' split) <;> simp
@[simp] theorem State.rtcFreeze_sp (s : State) : SamePoints (State.rtcFreeze s) s := by
  simp [State.rtcFreeze]
@[simp] theorem State.sendBy_sp (s : State) (t : TrunkPort) (f : TrkOut) : SamePoints (State.sendBy s t f) s := by
  simp [State.sendBy]
@[simp] theorem State.nextSeq_sp (s : State) (c : Nat) : SamePoints (State.nextSeq s c).2 s := by
  simp [State.nextSeq]
@[simp] theorem State.sendAll_sp (s : State) (f : TrkOut) : SamePoints (State.sendAll s f) s := by
  unfold State.sendAll; (try dsimp only); (repeat' split) <;> simp
@[simp] theorem State.trkSend_sp (s : State) (dst : Byte) (cls : Nat) (tenant : Tenant) (len : Nat) (body : List Byte := []) : SamePoints (State.trkSend s dst cls tenant len body) s := by
  unfold State.trkSend; (try dsimp only); (repeat' split) <;> simp
@[simp] theorem State.sendParts_sp (s : State) (dst : Byte) (cls : Nat) (tenant : Tenant) (n : Nat) (l : List Byte) :
    SamePoints (s.sendParts dst cls tenant n l) s := by
  induction n generalizing s l with
  | zero => simp [State.sendParts]
  | succ n ih =>
    unfold State.sendParts; dsimp only
    split
    · simp
    · exact SamePoints.trans (ih _ _) (by simp)
@[simp] theorem State.sendOutbox_sp (s : State) : SamePoints s.sendOutbox s := by
  unfold State.sendOutbox; extract_lets near
  refine SamePoints.trans (foldl_sp _ _ _ ?_) (by simp)
  intro s x; split <;> simp
@[simp] theorem State.topoBroadcast_sp (s : State) : SamePoints (State.topoBroadcast s) s := by
  unfold State.topoBroadcast; (try dsimp only); (repeat' split) <;> simp
@[simp] theorem State.trkEvent_sp (s : State) (t : TrunkPort) (code : Nat) (data : List Word) : SamePoints (State.trkEvent s t code data) s := by
  simp [State.trkEvent]
@[simp] theorem State.retime_sp (s : State) : SamePoints (State.retime s) s := by
  simp [State.retime]
@[simp] theorem State.wrap_sp (s : State) (t : TrunkPort) : SamePoints (State.wrap s t) s := by
  simp [State.wrap]
@[simp] theorem State.linkFault_sp (s : State) (t : TrunkPort) : SamePoints (State.linkFault s t) s := by
  unfold State.linkFault; (try dsimp only); (repeat' split) <;> simp
@[simp] theorem State.advertiseSelf_sp (s : State) : SamePoints (State.advertiseSelf s) s := by
  simp [State.advertiseSelf]
@[simp] theorem State.tmChanged_sp (s : State) (old : Byte) : SamePoints (State.tmChanged s old) s := by
  unfold State.tmChanged; (try dsimp only); (repeat' split) <;> simp
@[simp] theorem State.weighSelf_sp (s : State) : SamePoints (State.weighSelf s) s := by
  unfold State.weighSelf; (try dsimp only); (repeat' split) <;> simp
@[simp] theorem State.dropMaster_sp (s : State) : SamePoints (State.dropMaster s) s := by
  unfold State.dropMaster; (try dsimp only); (repeat' split) <;> simp
@[simp] theorem State.advert_sp (s : State) (h : TrkHeader) : SamePoints (State.advert s h) s := by
  unfold State.advert; (try dsimp only); (repeat' split) <;> simp
@[simp] theorem State.portDown_sp (s : State) (t : TrunkPort) (x : TrkPort) : SamePoints (State.portDown s t x) s := by
  simp [State.portDown]
@[simp] theorem State.evalPort_sp (s : State) (t : TrunkPort) : SamePoints (State.evalPort s t) s := by
  unfold State.evalPort; (try dsimp only); (repeat' split) <;> simp
@[simp] theorem State.driveFail_sp (s : State) (n : Nat) : SamePoints (State.driveFail s n) s := by
  unfold State.driveFail; (try dsimp only); (repeat' split) <;> simp
@[simp] theorem State.nvmeFail_sp (s : State) (n cid : Nat) : SamePoints (State.nvmeFail s n cid) s := by
  unfold State.nvmeFail; (try dsimp only); (repeat' split) <;> simp
@[simp] theorem State.reclaimAll_sp (s : State) (l : List Nat) : SamePoints (State.reclaimAll s l) s := by
  induction l generalizing s with
  | nil => unfold State.reclaimAll; (try dsimp only); (repeat' (split <;> (try (rename_i h; have h2 := congrArg Prod.snd h; dsimp only at h2; clear h; subst h2)))) <;>
    first
    | done
    | (simp_all; done)
    | (rename_i h; have h2 := congrArg Prod.snd h; dsimp only at h2; clear h; subst h2; simp_all; done)
    | (rename_i h _; have h2 := congrArg Prod.snd h; dsimp only at h2; clear h; subst h2; simp_all; done)
    | (rename_i h _ _; have h2 := congrArg Prod.snd h; dsimp only at h2; clear h; subst h2; simp_all; done)
    | skip
  | cons a l ih => unfold State.reclaimAll; (try dsimp only); (repeat' (split <;> (try (rename_i h; have h2 := congrArg Prod.snd h; dsimp only at h2; clear h; subst h2)))) <;>
    first
    | done
    | (simp_all; done)
    | (rename_i h; have h2 := congrArg Prod.snd h; dsimp only at h2; clear h; subst h2; simp_all; done)
    | (rename_i h _; have h2 := congrArg Prod.snd h; dsimp only at h2; clear h; subst h2; simp_all; done)
    | (rename_i h _ _; have h2 := congrArg Prod.snd h; dsimp only at h2; clear h; subst h2; simp_all; done)
    | skip
@[simp] theorem State.newKey_sp (s : State) (k : KeyName) : SamePoints (State.newKey s k) s := by
  simp [State.newKey, Security.hold]
@[simp] theorem State.newKeys_sp (s : State) (t : Tenant) : SamePoints (State.newKeys s t) s := by
  unfold State.newKeys; (try dsimp only); (repeat' split) <;> simp
@[simp] theorem State.takeEscrow_sp (s : State) (t : Tenant) (l : List (Nat × BitVec 256)) : SamePoints (State.takeEscrow s t l) s := by
  induction l generalizing s with
  | nil => simp [State.takeEscrow]
  | cons a l ih =>
    unfold State.takeEscrow
    refine SamePoints.trans (ih _) ?_
    (repeat' split) <;> simp [Security.hold]
@[simp] theorem State.keysStart_sp (s : State) : SamePoints (State.keysStart s) s := by
  unfold State.keysStart; (try dsimp only); (repeat' split) <;> simp
@[simp] theorem State.adminStart_sp (s : State) (n : Nat) (cache : Bool) : SamePoints (State.adminStart s n cache) s := by
  simp [State.adminStart]
@[simp] theorem State.startReads_sp (s : State) : SamePoints (State.startReads s) s := by
  unfold State.startReads
  exact SamePoints.trans (foldl_sp _ _ _ fun s e => by simp) (foldl_sp _ _ _ fun s e => by simp)
@[simp] theorem State.storeStart_sp (s : State) : SamePoints (State.storeStart s) s := by
  unfold State.storeStart; (try dsimp only); (repeat' split) <;> simp
@[simp] theorem State.readStored_sp (s : State) (n i : Nat) : SamePoints (State.readStored s n i).2 s := by
  unfold State.readStored; (try dsimp only); (repeat' split) <;> simp
@[simp] theorem State.trendChange_sp (s : State) (m : Nat) (d : Desc) (c : Cell) : SamePoints (State.trendChange s m d c) s := by
  unfold State.trendChange; (try dsimp only); (repeat' split) <;> simp
@[simp] theorem markChg_cells (p : Points) (m : Nat) : (p.markChg m).cells = p.cells := rfl
@[simp] theorem markChg_forces (p : Points) (m : Nat) : (p.markChg m).forces = p.forces := rfl
@[simp] theorem markChg_shadows (p : Points) (m : Nat) : (p.markChg m).shadows = p.shadows := rfl
@[simp] theorem markChg_descs (p : Points) (m : Nat) : (p.markChg m).descs = p.descs := rfl
/-- The cell that a write leaves: what was written, with ALARM evaluated and CHG set by a change. -/
theorem State.putCell_cell (s : State) (m : Nat) (d : Desc) (c : Cell) :
    ∃ b, (s.putCell m d c).cell m = { c with alarm := alarmOf d (s.cell m).alarm c.value, chg := b } := by
  unfold State.putCell State.cell; dsimp only; split
  · exact ⟨true, by simp⟩
  · exact ⟨_, by simp; rfl⟩
@[simp] theorem State.putCell_value (s : State) (m : Nat) (d : Desc) (c : Cell) : ((s.putCell m d c).cell m).value = c.value := by
  obtain ⟨b, h⟩ := s.putCell_cell m d c; simp [h]
@[simp] theorem State.putCell_qual (s : State) (m : Nat) (d : Desc) (c : Cell) : ((s.putCell m d c).cell m).qual = c.qual := by
  obtain ⟨b, h⟩ := s.putCell_cell m d c; simp [h]
@[simp] theorem State.putCell_src (s : State) (m : Nat) (d : Desc) (c : Cell) : ((s.putCell m d c).cell m).src = c.src := by
  obtain ⟨b, h⟩ := s.putCell_cell m d c; simp [h]
@[simp] theorem State.putCell_forced (s : State) (m : Nat) (d : Desc) (c : Cell) : ((s.putCell m d c).cell m).forced = c.forced := by
  obtain ⟨b, h⟩ := s.putCell_cell m d c; simp [h]
@[simp] theorem State.putCell_stale (s : State) (m : Nat) (d : Desc) (c : Cell) : ((s.putCell m d c).cell m).stale = c.stale := by
  obtain ⟨b, h⟩ := s.putCell_cell m d c; simp [h]
@[simp] theorem State.putCell_forces (s : State) (m : Nat) (d : Desc) (c : Cell) : (s.putCell m d c).pnt.forces = s.pnt.forces := by
  unfold State.putCell; dsimp only; split <;> simp
@[simp] theorem State.putCell_shadows (s : State) (m : Nat) (d : Desc) (c : Cell) : (s.putCell m d c).pnt.shadows = s.pnt.shadows := by
  unfold State.putCell; dsimp only; split <;> simp
@[simp] theorem State.putCell_descs (s : State) (m : Nat) (d : Desc) (c : Cell) : (s.putCell m d c).pnt.descs = s.pnt.descs := by
  unfold State.putCell; dsimp only; split <;> simp
@[simp] theorem State.bumpGen_cell (s : State) (b m : Nat) : (s.bumpGen b).cell m = s.cell m := rfl
@[simp] theorem State.bumpGen_forces (s : State) (b : Nat) : (s.bumpGen b).pnt.forces = s.pnt.forces := rfl
@[simp] theorem State.bumpGen_shadows (s : State) (b : Nat) : (s.bumpGen b).pnt.shadows = s.pnt.shadows := rfl
@[simp] theorem State.bumpGen_descs (s : State) (b : Nat) : (s.bumpGen b).pnt.descs = s.pnt.descs := rfl
@[simp] theorem State.bumpGens_cell (s : State) (l : List Nat) (m : Nat) : (s.bumpGens l).cell m = s.cell m := by
  induction l generalizing s with
  | nil => rfl
  | cons b l ih => simp [State.bumpGens, ih]
@[simp] theorem settle_cell_get (s t : State) (m : Nat) : (settle s t).cell m = t.cell m := by simp [State.cell]
@[simp] theorem settle_descOf_get (s t : State) (m : Nat) : (settle s t).desc? m = t.desc? m := by simp [State.desc?]
/-- A reference that names a visible point names a configured one. -/
theorem State.refPoint_desc (s : State) (t : Tenant) (w : Word) (m : Nat) (d : Desc) (h : s.refPoint t w = some (m, d)) :
    s.desc? m = some d := by
  unfold State.refPoint at h; dsimp only at h
  (repeat' split at h) <;> simp_all
/-- References that all name visible points read their cells. -/
theorem State.readRefs_ok (s : State) (t : Tenant) (n : Nat) (l : List Word) (p : List (Nat × Desc))
    (h : l.map (s.refPoint t) = p.map some) : s.readRefs t n l = .ok (p.map fun e => cellWord (s.cell e.1)) := by
  induction l generalizing n p with
  | nil => cases p <;> simp_all [State.readRefs]
  | cons w l ih =>
    cases p with
    | nil => simp at h
    | cons e p =>
      simp only [List.map_cons, List.cons.injEq] at h
      simp [State.readRefs, h.1, ih (n + 1) p h.2]

end Sys2Proof.Machine
end

