-- ==== Sys2Proof/Laws/Registers.lean ====
section
/-! SUPPORT. A host write that reaches a block: in the landlord's window a register command is a write to its block's register
map, and while no session holds the window it changes nothing but the count of bad accesses. -/
namespace Sys2Proof.Machine

@[simp] theorem w32_toNat (v : Word) : w32 v.toNat = v := by simp [w32]
@[simp] theorem gated_zero (b : Nat) : gated 0 b = true := by simp [gated]

/-- In the landlord's window a word write at an aligned offset of a present block reaches the block. -/
theorem State.regW_open (s : State) (d b o : Nat) (v : Word) (hr : s.host.mbxRdy = true) (hw : s.winTenant = some 0)
    (hp : s.hasBlock d b = true) (hd : d < 8) (hb : b < 32) (ho : o < 0x100000) (h4 : o % 4 = 0) :
    s.regW d b o v = s.dieWrite 0 d (0x100000 * b + o) v ∧ (0x100000 * b + o) / 0x100000 = b
      ∧ (0x100000 * b + o) % 0x100000 = o := by
  have hwin : s.host.win.isNone = false := by
    cases h : s.host.win <;> simp_all [State.winTenant]
  have e1 : (blkOff d b + o) / 0x2000000 = d := by unfold blkOff; omega
  have e2 : (blkOff d b + o) % 0x2000000 = 0x100000 * b + o := by unfold blkOff; omega
  have e3 : (blkOff d b + o) % 4 = 0 := by unfold blkOff; omega
  refine ⟨?_, by omega, by omega⟩
  simp [State.regW, State.hostWrite, e3, hwin, State.hostWordW, hr, hw, e1, e2]

theorem State.regW_pnt (s : State) (d o : Nat) (v : Word) (hr : s.host.mbxRdy = true) (hw : s.winTenant = some 0) (hd : d < s.nDies)
    (ho : o < 0x100000) (h4 : o % 4 = 0) : s.regW d 0 o v = s.pntWrite 0 d o v := by
  have h8 : d < 8 := Nat.lt_of_lt_of_le hd (by unfold State.nDies; split <;> decide)
  have hp : s.hasBlock d 0 = true := by simp [State.hasBlock, hd]
  obtain ⟨e1, e2, e3⟩ := s.regW_open d 0 o v hr hw hp h8 (by decide) ho h4
  rw [e1]; simp only [State.dieWrite, e2, e3, hp, gated_zero, Bool.not_true, Bool.or_self, Bool.false_eq_true, if_false]
theorem State.regW_brp (s : State) (d o : Nat) (v : Word) (hr : s.host.mbxRdy = true) (hw : s.winTenant = some 0) (hd : d < s.nDies)
    (ho : o < 0x100000) (h4 : o % 4 = 0) : s.regW d 1 o v = s.brpWrite d o v := by
  have h8 : d < 8 := Nat.lt_of_lt_of_le hd (by unfold State.nDies; split <;> decide)
  have hp : s.hasBlock d 1 = true := by simp [State.hasBlock, hd]
  obtain ⟨e1, e2, e3⟩ := s.regW_open d 1 o v hr hw hp h8 (by decide) ho h4
  rw [e1]; simp only [State.dieWrite, e2, e3, hp, gated_zero, Bool.not_true, Bool.or_self, Bool.false_eq_true, if_false]
theorem State.regW_lpe (s : State) (d o : Nat) (v : Word) (hr : s.host.mbxRdy = true) (hw : s.winTenant = some 0) (hd : d < s.nDies)
    (ho : o < 0x100000) (h4 : o % 4 = 0) : s.regW d 2 o v = s.lpeWrite 0 d o v := by
  have h8 : d < 8 := Nat.lt_of_lt_of_le hd (by unfold State.nDies; split <;> decide)
  have hp : s.hasBlock d 2 = true := by simp [State.hasBlock, hd]
  obtain ⟨e1, e2, e3⟩ := s.regW_open d 2 o v hr hw hp h8 (by decide) ho h4
  rw [e1]; simp only [State.dieWrite, e2, e3, hp, gated_zero, Bool.not_true, Bool.or_self, Bool.false_eq_true, if_false]
theorem State.regW_lsc (s : State) (d o : Nat) (v : Word) (hr : s.host.mbxRdy = true) (hw : s.winTenant = some 0) (hd : d < s.nDies)
    (ho : o < 0x100000) (h4 : o % 4 = 0) : s.regW d 3 o v = s.lscWrite d o v := by
  have h8 : d < 8 := Nat.lt_of_lt_of_le hd (by unfold State.nDies; split <;> decide)
  have hp : s.hasBlock d 3 = true := by simp [State.hasBlock, hd]
  obtain ⟨e1, e2, e3⟩ := s.regW_open d 3 o v hr hw hp h8 (by decide) ho h4
  rw [e1]; simp only [State.dieWrite, e2, e3, hp, gated_zero, Bool.not_true, Bool.or_self, Bool.false_eq_true, if_false]
theorem State.regW_dma (s : State) (d o : Nat) (v : Word) (hr : s.host.mbxRdy = true) (hw : s.winTenant = some 0) (hd : d < s.nDies)
    (ho : o < 0x100000) (h4 : o % 4 = 0) : s.regW d 4 o v = s.dmaRegW d o v := by
  have h8 : d < 8 := Nat.lt_of_lt_of_le hd (by unfold State.nDies; split <;> decide)
  have hp : s.hasBlock d 4 = true := by simp [State.hasBlock, hd]
  obtain ⟨e1, e2, e3⟩ := s.regW_open d 4 o v hr hw hp h8 (by decide) ho h4
  rw [e1]; simp only [State.dieWrite, e2, e3, hp, gated_zero, Bool.not_true, Bool.or_self, Bool.false_eq_true, if_false]
theorem State.regW_atu (s : State) (d o : Nat) (v : Word) (hr : s.host.mbxRdy = true) (hw : s.winTenant = some 0) (hd : d < s.nDies)
    (ho : o < 0x100000) (h4 : o % 4 = 0) : s.regW d 5 o v = s.atuRegW d o v := by
  have h8 : d < 8 := Nat.lt_of_lt_of_le hd (by unfold State.nDies; split <;> decide)
  have hp : s.hasBlock d 5 = true := by simp [State.hasBlock, hd]
  obtain ⟨e1, e2, e3⟩ := s.regW_open d 5 o v hr hw hp h8 (by decide) ho h4
  rw [e1]; simp only [State.dieWrite, e2, e3, hp, gated_zero, Bool.not_true, Bool.or_self, Bool.false_eq_true, if_false]
theorem State.regW_trk (s : State) (d o : Nat) (v : Word) (hr : s.host.mbxRdy = true) (hw : s.winTenant = some 0) (hd : d < s.nDies) (h2 : d < 2)
    (ho : o < 0x100000) (h4 : o % 4 = 0) : s.regW d 6 o v = s.trkRegW (d == 1) o v := by
  have h8 : d < 8 := Nat.lt_of_lt_of_le hd (by unfold State.nDies; split <;> decide)
  have hp : s.hasBlock d 6 = true := by simp [State.hasBlock, hd, h2]
  obtain ⟨e1, e2, e3⟩ := s.regW_open d 6 o v hr hw hp h8 (by decide) ho h4
  rw [e1]; simp only [State.dieWrite, e2, e3, hp, gated_zero, Bool.not_true, Bool.or_self, Bool.false_eq_true, if_false]
theorem State.regW_fio (s : State) (o : Nat) (v : Word) (hr : s.host.mbxRdy = true) (hw : s.winTenant = some 0)
    (ho : o < 0x100000) (h4 : o % 4 = 0) : s.regW 0 7 o v = s.fioRegW o v := by
  have hn : 0 < s.nDies := by unfold State.nDies; split <;> decide
  have h8 : 0 < 8 := Nat.lt_of_lt_of_le hn (by unfold State.nDies; split <;> decide)
  have hp : s.hasBlock 0 7 = true := by simp [State.hasBlock, hn]
  obtain ⟨e1, e2, e3⟩ := s.regW_open 0 7 o v hr hw hp h8 (by decide) ho h4
  rw [e1]; simp only [State.dieWrite, e2, e3, hp, gated_zero, Bool.not_true, Bool.or_self, Bool.false_eq_true, if_false]
theorem State.regW_mtr (s : State) (o : Nat) (v : Word) (hr : s.host.mbxRdy = true) (hw : s.winTenant = some 0)
    (ho : o < 0x100000) (h4 : o % 4 = 0) : s.regW 0 8 o v = s.mtrRegW o v := by
  have hn : 0 < s.nDies := by unfold State.nDies; split <;> decide
  have h8 : 0 < 8 := Nat.lt_of_lt_of_le hn (by unfold State.nDies; split <;> decide)
  have hp : s.hasBlock 0 8 = true := by simp [State.hasBlock, hn]
  obtain ⟨e1, e2, e3⟩ := s.regW_open 0 8 o v hr hw hp h8 (by decide) ho h4
  rw [e1]; simp only [State.dieWrite, e2, e3, hp, gated_zero, Bool.not_true, Bool.or_self, Bool.false_eq_true, if_false]
theorem State.regW_hst (s : State) (d o : Nat) (v : Word) (hr : s.host.mbxRdy = true) (hw : s.winTenant = some 0) (hd : d < s.nDies)
    (ho : o < 0x100000) (h4 : o % 4 = 0) : s.regW d 9 o v = s.hstRegW d o v := by
  have h8 : d < 8 := Nat.lt_of_lt_of_le hd (by unfold State.nDies; split <;> decide)
  have hp : s.hasBlock d 9 = true := by simp [State.hasBlock, hd]
  obtain ⟨e1, e2, e3⟩ := s.regW_open d 9 o v hr hw hp h8 (by decide) ho h4
  rw [e1]; simp only [State.dieWrite, e2, e3, hp, gated_zero, Bool.not_true, Bool.or_self, Bool.false_eq_true, if_false]
theorem State.regW_evr (s : State) (o : Nat) (v : Word) (hr : s.host.mbxRdy = true) (hw : s.winTenant = some 0)
    (ho : o < 0x100000) (h4 : o % 4 = 0) : s.regW 0 10 o v = s.evrRegW o v := by
  have hn : 0 < s.nDies := by unfold State.nDies; split <;> decide
  have h8 : 0 < 8 := Nat.lt_of_lt_of_le hn (by unfold State.nDies; split <;> decide)
  have hp : s.hasBlock 0 10 = true := by simp [State.hasBlock, hn]
  obtain ⟨e1, e2, e3⟩ := s.regW_open 0 10 o v hr hw hp h8 (by decide) ho h4
  rw [e1]; simp only [State.dieWrite, e2, e3, hp, gated_zero, Bool.not_true, Bool.or_self, Bool.false_eq_true, if_false]
theorem State.regW_rtc (s : State) (o : Nat) (v : Word) (hr : s.host.mbxRdy = true) (hw : s.winTenant = some 0)
    (ho : o < 0x100000) (h4 : o % 4 = 0) : s.regW 0 11 o v = s.rtcRegW o v := by
  have hn : 0 < s.nDies := by unfold State.nDies; split <;> decide
  have h8 : 0 < 8 := Nat.lt_of_lt_of_le hn (by unfold State.nDies; split <;> decide)
  have hp : s.hasBlock 0 11 = true := by simp [State.hasBlock, hn]
  obtain ⟨e1, e2, e3⟩ := s.regW_open 0 11 o v hr hw hp h8 (by decide) ho h4
  rw [e1]; simp only [State.dieWrite, e2, e3, hp, gated_zero, Bool.not_true, Bool.or_self, Bool.false_eq_true, if_false]

end Sys2Proof.Machine
end

