-- ==== Sys2Proof/Laws/Words.lean ====
section
/-! SUPPORT. The words of a logic core's instructions: what an instruction encodes to decodes to it again, with every operand
at every value (07 R154, Tables 07.6 and 07.7). -/
namespace Sys2Proof

theorem rEncode_opcode (op : Nat) (x : RForm) : (rEncode op x).extractLsb' 18 6 = BitVec.ofNat 6 op := by
  ext j hj
  simp only [rEncode, BitVec.getElem_extractLsb', BitVec.getLsbD_append]
  grind
theorem rEncode_rd (op : Nat) (x : RForm) : (rEncode op x).extractLsb' 13 5 = x.rd := by
  ext j hj
  simp only [rEncode, BitVec.getElem_extractLsb', BitVec.getLsbD_append]
  grind
theorem rEncode_rs1 (op : Nat) (x : RForm) : (rEncode op x).extractLsb' 8 5 = x.rs1 := by
  ext j hj
  simp only [rEncode, BitVec.getElem_extractLsb', BitVec.getLsbD_append]
  grind
theorem rEncode_rs2 (op : Nat) (x : RForm) : (rEncode op x).extractLsb' 3 5 = x.rs2 := by
  ext j hj
  simp only [rEncode, BitVec.getElem_extractLsb', BitVec.getLsbD_append]
  grind
theorem rEncode_fn (op : Nat) (x : RForm) : (rEncode op x).extractLsb' 0 3 = x.fn := by
  ext j hj
  simp only [rEncode, BitVec.getElem_extractLsb', BitVec.getLsbD_append]
  grind
theorem iEncode_opcode (op : Nat) (x : IForm) : (iEncode op x).extractLsb' 18 6 = BitVec.ofNat 6 op := by
  ext j hj
  simp only [iEncode, BitVec.getElem_extractLsb', BitVec.getLsbD_append]
  grind
theorem iEncode_rd (op : Nat) (x : IForm) : (iEncode op x).extractLsb' 13 5 = x.rd := by
  ext j hj
  simp only [iEncode, BitVec.getElem_extractLsb', BitVec.getLsbD_append]
  grind
theorem iEncode_rs1 (op : Nat) (x : IForm) : (iEncode op x).extractLsb' 8 5 = x.rs1 := by
  ext j hj
  simp only [iEncode, BitVec.getElem_extractLsb', BitVec.getLsbD_append]
  grind
theorem iEncode_imm (op : Nat) (x : IForm) : (iEncode op x).extractLsb' 0 8 = x.imm := by
  ext j hj
  simp only [iEncode, BitVec.getElem_extractLsb', BitVec.getLsbD_append]
  grind
theorem bEncode_opcode (op : Nat) (x : BForm) : (bEncode op x).extractLsb' 18 6 = BitVec.ofNat 6 op := by
  ext j hj
  simp only [bEncode, BitVec.getElem_extractLsb', BitVec.getLsbD_append]
  grind
theorem bEncode_cond (op : Nat) (x : BForm) : (bEncode op x).extractLsb' 14 4 = x.cond := by
  ext j hj
  simp only [bEncode, BitVec.getElem_extractLsb', BitVec.getLsbD_append]
  grind
theorem bEncode_disp (op : Nat) (x : BForm) : (bEncode op x).extractLsb' 0 14 = x.disp := by
  ext j hj
  simp only [bEncode, BitVec.getElem_extractLsb', BitVec.getLsbD_append]
  grind

@[simp] theorem rFields_rEncode (op : Nat) (x : RForm) : rFields (rEncode op x) = x := by
  simp [rFields, rEncode_rd, rEncode_rs1, rEncode_rs2, rEncode_fn]
@[simp] theorem iFields_iEncode (op : Nat) (x : IForm) : iFields (iEncode op x) x.ext = x := by
  simp [iFields, iEncode_rd, iEncode_rs1, iEncode_imm]
@[simp] theorem bFields_bEncode (op : Nat) (x : BForm) : bFields (bEncode op x) x.ext = x := by
  simp [bFields, bEncode_cond, bEncode_disp]
theorem iFields_plain (op : Nat) (x : IForm) (h : x.ext = 0) : iFields (iEncode op x) 0 = x := by
  rw [← h]; exact iFields_iEncode op x
theorem bFields_plain (op : Nat) (x : BForm) (h : x.ext = 0) : bFields (bEncode op x) 0 = x := by
  rw [← h]; exact bFields_bEncode op x

/-! ### The words that a trap window shows are the encodings -/

theorem rWord_eq (op : Nat) (r : RForm) : Machine.rWord op r = rEncode op r := by
  apply BitVec.eq_of_toNat_eq
  have h1 := r.rd.isLt; have h2 := r.rs1.isLt; have h3 := r.rs2.isLt; have h4 := r.fn.isLt
  simp only [Machine.rWord, rEncode, BitVec.toNat_append, BitVec.toNat_ofNat]
  rw [← Nat.shiftLeft_add_eq_or_of_lt h1, ← Nat.shiftLeft_add_eq_or_of_lt h2, ← Nat.shiftLeft_add_eq_or_of_lt h3,
    ← Nat.shiftLeft_add_eq_or_of_lt h4]
  simp only [Nat.shiftLeft_eq]
  omega
theorem iWord_eq (op : Nat) (i : IForm) : Machine.iWord op i = iEncode op i := by
  apply BitVec.eq_of_toNat_eq
  have h1 := i.rd.isLt; have h2 := i.rs1.isLt; have h3 := i.imm.isLt
  simp only [Machine.iWord, iEncode, BitVec.toNat_append, BitVec.toNat_ofNat]
  rw [← Nat.shiftLeft_add_eq_or_of_lt h1, ← Nat.shiftLeft_add_eq_or_of_lt h2, ← Nat.shiftLeft_add_eq_or_of_lt h3]
  simp only [Nat.shiftLeft_eq]
  omega
theorem bWord_eq (op : Nat) (b : BForm) : Machine.bWord op b = bEncode op b := by
  apply BitVec.eq_of_toNat_eq
  have h1 := b.cond.isLt; have h2 := b.disp.isLt
  simp only [Machine.bWord, bEncode, BitVec.toNat_append, BitVec.toNat_ofNat]
  rw [← Nat.shiftLeft_add_eq_or_of_lt h1, ← Nat.shiftLeft_add_eq_or_of_lt h2]
  simp only [Nat.shiftLeft_eq]
  omega

/-! ### Each instruction, by its format -/

/-- An instruction of R format decodes from its word. -/
theorem decode_rEncode (k : CoreRef) (r : RForm) :
      decodeCore k (rEncode 0x01 r) 0 = some (.add k r) ∧
      decodeCore k (rEncode 0x02 r) 0 = some (.adds k r) ∧
      decodeCore k (rEncode 0x03 r) 0 = some (.sub k r) ∧
      decodeCore k (rEncode 0x04 r) 0 = some (.subs k r) ∧
      decodeCore k (rEncode 0x05 r) 0 = some (.and k r) ∧
      decodeCore k (rEncode 0x06 r) 0 = some (.or k r) ∧
      decodeCore k (rEncode 0x07 r) 0 = some (.xor k r) ∧
      decodeCore k (rEncode 0x08 r) 0 = some (.shl k r) ∧
      decodeCore k (rEncode 0x09 r) 0 = some (.shr k r) ∧
      decodeCore k (rEncode 0x0A r) 0 = some (.sha k r) ∧
      decodeCore k (rEncode 0x0B r) 0 = some (.mul k r) ∧
      decodeCore k (rEncode 0x0C r) 0 = some (.mulf k r) ∧
      decodeCore k (rEncode 0x0D r) 0 = some (.div k r) ∧
      decodeCore k (rEncode 0x0E r) 0 = some (.rem k r) ∧
      decodeCore k (rEncode 0x0F r) 0 = some (.cmp k r) ∧
      decodeCore k (rEncode 0x10 r) 0 = some (.min k r) ∧
      decodeCore k (rEncode 0x11 r) 0 = some (.max k r) ∧
      decodeCore k (rEncode 0x27 r) 0 = some (.stpq k r) ∧
      decodeCore k (rEncode 0x2A r) 0 = some (.callr k r) ∧
      decodeCore k (rEncode 0x2B r) 0 = some (.ret k r) ∧
      decodeCore k (rEncode 0x2C r) 0 = some (.taskend k r) ∧
      decodeCore k (rEncode 0x2E r) 0 = some (.brk k r) ∧
      decodeCore k (rEncode 0x32 r) 0 = some (.tdone k r) ∧
      decodeCore k (rEncode 0x38 r) 0 = some (.mfs k r) ∧
      decodeCore k (rEncode 0x39 r) 0 = some (.mts k r) ∧
      decodeCore k (rEncode 0x3C r) 0 = some (.spill k r) ∧
      decodeCore k (rEncode 0x3D r) 0 = some (.fill k r) ∧
      decodeCore k (rEncode 0x3E r) 0 = some (.abort k r) ∧
      decodeCore k (rEncode 0x3F r) 0 = some (.tret k r) := by
  refine ⟨?_, ?_, ?_, ?_, ?_, ?_, ?_, ?_, ?_, ?_, ?_, ?_, ?_, ?_, ?_, ?_, ?_, ?_, ?_, ?_, ?_, ?_, ?_, ?_, ?_, ?_, ?_, ?_, ?_⟩ <;> simp [decodeCore, rEncode_opcode]
/-- An instruction of I format without an extension word decodes from its word. -/
theorem decode_iEncode (k : CoreRef) (i : IForm) (h : i.ext = 0) :
      decodeCore k (iEncode 0x14 i) 0 = some (.addi k i) ∧
      decodeCore k (iEncode 0x15 i) 0 = some (.addsi k i) ∧
      decodeCore k (iEncode 0x16 i) 0 = some (.andi k i) ∧
      decodeCore k (iEncode 0x17 i) 0 = some (.ori k i) ∧
      decodeCore k (iEncode 0x18 i) 0 = some (.xori k i) ∧
      decodeCore k (iEncode 0x19 i) 0 = some (.shli k i) ∧
      decodeCore k (iEncode 0x1A i) 0 = some (.shri k i) ∧
      decodeCore k (iEncode 0x1B i) 0 = some (.shai k i) ∧
      decodeCore k (iEncode 0x1C i) 0 = some (.cmpi k i) ∧
      decodeCore k (iEncode 0x20 i) 0 = some (.ld k i) ∧
      decodeCore k (iEncode 0x21 i) 0 = some (.st k i) ∧
      decodeCore k (iEncode 0x24 i) 0 = some (.ldp k i) ∧
      decodeCore k (iEncode 0x25 i) 0 = some (.ldps k i) ∧
      decodeCore k (iEncode 0x26 i) 0 = some (.stp k i) ∧
      decodeCore k (iEncode 0x2D i) 0 = some (.trap k i) ∧
      decodeCore k (iEncode 0x30 i) 0 = some (.tstart k i) ∧
      decodeCore k (iEncode 0x31 i) 0 = some (.telap k i) := by
  refine ⟨?_, ?_, ?_, ?_, ?_, ?_, ?_, ?_, ?_, ?_, ?_, ?_, ?_, ?_, ?_, ?_, ?_⟩ <;>
    (simp [decodeCore, iEncode_opcode]; exact iFields_plain _ _ h)
/-- LDI, LDX, STX and CALL decode from their two words, and BR from its one. -/
theorem decode_ext (k : CoreRef) (i : IForm) (b : BForm) :
      decodeCore k (iEncode 0x1D i) i.ext = some (.ldi k i) ∧
      decodeCore k (iEncode 0x22 i) i.ext = some (.ldx k i) ∧
      decodeCore k (iEncode 0x23 i) i.ext = some (.stx k i) ∧
      decodeCore k (bEncode 0x29 b) b.ext = some (.call k b) ∧
      (b.ext = 0 → decodeCore k (bEncode 0x28 b) 0 = some (.br k b)) := by
  refine ⟨?_, ?_, ?_, ?_, fun h => ?_⟩ <;> simp [decodeCore, iEncode_opcode, bEncode_opcode]
  exact bFields_plain _ _ h

end Sys2Proof
end

