-- ==== Sys2Proof/WellFormed.lean ====
section
/-! DEFINITION. Well-formed commands: operands that the field they stand for can carry. -/
namespace Sys2Proof

/-- One code for each metering input and one reading for each analog input (10 R211, 09 R188). -/
def tickOk (inp : TickIn) : Bool := inp.mtr.length == 54 && inp.ain.length == 16
/-- Host writes of 1, 2, 4 or 8 bytes (13 R300). -/
def sizeOk (n : Nat) : Bool := n == 1 || n == 2 || n == 4 || n == 8
/-- A node address (03 R46). -/
def addrOk (a : Byte) : Bool := 1 ≤ a.toNat && a.toNat ≤ 250
/-- A cause of Table 11.5. -/
def faultOk : EngFault → Bool
  | .xlate c _ _ => 1 ≤ c.toNat && c.toNat ≤ 6
  | .integ _ => true
/-- A frame that is not passed on has a TYPE that is not reserved and a LEN of at most 240 (03 R47, R49). -/
def rxFailOk : RxFail → Bool
  | .access f => faultOk f
  | .notPassed _ type len => type < 10 && len ≤ 240
  | _ => true
def txFailOk : TxFail → Bool
  | .dry => true
  | .access f => faultOk f
/-- A channel of a node (04 R73). -/
def chOk (c : Byte) : Bool := c.toNat < 64
/-- A SECURE counter has 32 bits (15 R347). -/
def ctrOk (n : Nat) : Bool := n < 4294967296
/-- The fields of an inner message hold what they can carry, its payload at most 217 bytes (15 R346, Table 15.8). -/
def innerOk : Inner → Bool
  | .event _ ch _ _ => chOk ch
  | .command _ _ a => a.length ≤ 215
  | .response _ _ _ d => d.length ≤ 214
  | .read .. => true
  | .decide d => d.reason < 256 && d.time < 65536
  | .cache v k n d => v < 4294967296 && k < 65536 && n < 65536 && d.length ≤ 208
  | .time ms off => ms < 281474976710656 && -32768 ≤ off && off < 32768
  | .floors st v _ => st < 256 && 1 ≤ v && v < 256
  | .offline _ ms _ _ => ms < 281474976710656
  | .rekey .. => true
/-- A SECURE frame: TYPE 9, LEN 23 + m with m of 0 to 217 (15 R346). -/
def secureFrameOk (f : SecureFrame) : Bool :=
  f.tc.toNat / 8 == 9 && ctrOk f.ctr && 16 ≤ f.body.length && f.body.length ≤ 233 && innerOk f.inner
/-- Widths of a superframe header's fields (05 Table 05.2). -/
def headerOk (h : TrkHeader) : Bool := h.tmHops < 256 && h.tmSeq < 65536
/-- Class and length of a trunk frame (05 Table 05.4). -/
def frameOk (f : TrkFrame) : Bool := f.cls < 8 && f.len ≤ 9216
/-- Widths of a request entry's fields (13 Table 13.7). -/
def entryOk (b : List Byte) : Bool := 64 ≤ b.length && b.length ≤ 64 + 16777216
/-- Chunks of host memory at 64-bit addresses. -/
def hostMemOk (m : HostMem) : Bool := m.all fun c => c.1 + c.2.length ≤ 2 ^ 64
/-- A command identifier of NVMe has 16 bits (12 R256). -/
def cidOk (n : Nat) : Bool := n < 65536
/-- Fields of an event record (12 R268). -/
def eventOk (e : Event) : Bool := e.sev < 8 && e.die < 8 && e.block < 32 && e.data.length ≤ 7
/-- A presented credential fits the request that carries it (13 Table 13.7). -/
def tryOk (c : CredTry) : Bool := c.proof.length ≤ 16777216

/-- Is every operand of a command one that the field it stands for can carry? Fixed-width operands always are. -/
def Instr.wf : Instr → Bool
  | .tick inp => tickOk inp
  | .graftLinkFail _ => true
  | .graftLinkRestored _ => true
  | .rlLowWordRead _ _ _ => true
  | .rcRead _ => true
  | .w1cWrite _ _ _ => true
  | .counterClearWrite _ _ => true
  | .registerWrite _ _ size _ => sizeOk size
  | .pntForceCtrlForce _ => true
  | .pntForceCtrlRelease _ => true
  | .staleCheck _ => true
  | .branchCycleStart _ _ => true
  | .gclEntryBoundary _ => true
  | .branchTxStart _ _ _ _ => true
  | .branchTxEnd _ => true
  | .collisionDetect _ _ _ => true
  | .backoffExpiry _ _ _ _ _ => true
  | .scheduledOverAmplitude _ addr => addrOk addr
  | .branchTxUnderrun _ why => txFailOk why
  | .branchRxBadFrame _ why => rxFailOk why
  | .branchRxReport _ addr first vals => addrOk addr && first < 64 && vals.length ≤ 64
  | .branchRxEvent _ addr _ ch _ => addrOk addr && chOk ch
  | .branchRxResponse _ addr _ _ _ data => addrOk addr && data.length ≤ 237
  | .branchRxClaim _ _ _ _ => true
  | .branchRxRollcall _ addr _ _ _ => addrOk addr
  | .branchRxSecure _ addr f => addrOk addr && secureFrameOk f
  | .slotEnd _ addr => addrOk addr
  | .nodeLostTimeout _ addr => addrOk addr
  | .assignRetryTimeout _ addr => addrOk addr
  | .nodeCommandTimeout _ addr => addrOk addr
  | .claimBroadcastTimer _ => true
  | .brpCtrlWrite _ _ => true
  | .brpGclSwap _ => true
  | .dormancyEntry _ => true
  | .dormantBeacon _ => true
  | .wakeTrainStart _ => true
  | .wakePulse _ => true
  | .dormancyEnd _ => true
  | .nodePowerUp _ _ _ _ _ _ _ _ => true
  | .nodeClaimBroadcastRx _ nslot _ _ _ => 0 < nslot.toNat
  | .nodeClaimSlot _ _ => true
  | .nodeAssignRx _ _ _ _ _ => true
  | .nodeBeaconRx _ _ _ => true
  | .nodeSlotStart _ first vals => first < 64 && vals.length ≤ 64
  | .nodeOutputRx _ _ first vals => first < 64 && vals.length ≤ 64
  | .nodeFallbackTimeout _ _ => true
  | .nodeWindowOpen _ _ => true
  | .nodeWindowClose _ _ => true
  | .nodeSeekTimeout _ _ => true
  | .nodeSniff _ _ _ => true
  | .nodeWakeCondition _ _ _ => true
  | .readInfo _ _ _ => true
  | .setFallback _ _ _ _ entries => entries.all fun e => e.1 < 64
  | .identify _ _ _ _ => true
  | .setWake _ _ _ _ => true
  | .forget _ _ _ _ => true
  | .setRamp _ _ _ _ => true
  | .superframeStart => true
  | .fawSighting _ _ _ => true
  | .fawPosition _ _ _ _ => true
  | .trunkRxHeader _ h _ => headerOk h
  | .timeMasterTimeout => true
  | .trunkRxFrame _ f _ fault _ => frameOk f && fault.all faultOk
  | .trunkRxBadFrame _ _ => true
  | .trunkRxTopology _ f _ => frameOk f
  | .trunkRxUtcMapping _ f _ => frameOk f
  | .trunkRxMailboxRequest _ f _ b => frameOk f && entryOk b && b.length ≤ 9216
  | .trunkRxReplicaBlock _ f _ _ data => frameOk f && data.length == 4096
  | .unwrap _ => true
  | .trunkTxUnderrun _ _ why => txFailOk why
  | .trkCtrlWrite _ _ => true
  | .trkGclSwap _ => true
  | .trainingFrameRx _ _ _ _ _ => true
  | .laneTrainingTimeout _ _ => true
  | .scanStart _ => true
  | .scanCommit _ _ => true
  | .retainWriteComplete _ _ => true
  | .scanLimitExpiry _ => true
  | .lscCtrlRunCold _ => true
  | .lscCtrlRunWarm _ => true
  | .lscCtrlStop _ => true
  | .lscCtrlHold _ => true
  | .lscCtrlStep _ _ => true
  | .lscCtrlResume _ => true
  | .hwBreakpoint _ => true
  | .illegalInstruction _ _ => true
  | .add _ _ => true
  | .adds _ _ => true
  | .sub _ _ => true
  | .subs _ _ => true
  | .and _ _ => true
  | .or _ _ => true
  | .xor _ _ => true
  | .shl _ _ => true
  | .shr _ _ => true
  | .sha _ _ => true
  | .mul _ _ => true
  | .mulf _ _ => true
  | .div _ _ => true
  | .rem _ _ => true
  | .cmp _ _ => true
  | .min _ _ => true
  | .max _ _ => true
  | .addi _ _ => true
  | .addsi _ _ => true
  | .andi _ _ => true
  | .ori _ _ => true
  | .xori _ _ => true
  | .shli _ _ => true
  | .shri _ _ => true
  | .shai _ _ => true
  | .cmpi _ _ => true
  | .ldi _ _ => true
  | .ld _ _ => true
  | .st _ _ => true
  | .ldx _ _ => true
  | .stx _ _ => true
  | .ldp _ _ => true
  | .ldps _ _ => true
  | .stp _ _ => true
  | .stpq _ _ => true
  | .br _ _ => true
  | .call _ _ => true
  | .callr _ _ => true
  | .ret _ _ => true
  | .taskend _ _ => true
  | .trap _ _ => true
  | .brk _ _ => true
  | .tstart _ _ => true
  | .telap _ _ => true
  | .tdone _ _ => true
  | .mfs _ _ => true
  | .mts _ _ => true
  | .spill _ _ => true
  | .fill _ _ => true
  | .abort _ _ => true
  | .tret _ _ => true
  | .loopSample _ _ _ => true
  | .loopOutputApply _ _ => true
  | .localLoopOutput => true
  | .lpeSSwap _ _ _ => true
  | .lpeSClrSat _ _ => true
  | .lpeTuStart _ _ _ => true
  | .lpeTuStop _ _ => true
  | .fioLinkLoss => true
  | .watchdogRefresh => true
  | .fioWatchdogExpiry => true
  | .fioControllerPowerUp => true
  | .fioRelease => true
  | .fioStStart => true
  | .fioStStop => true
  | .fioClr _ => true
  | .supplySample volts currents => volts.length == 4 && currents.length == 4
  | .inputRawChange _ _ => true
  | .inputFilterSample _ => true
  | .inputPointRefresh _ => true
  | .pulseEdge _ => true
  | .blankingEnd _ _ => true
  | .overcurrentDetect _ => true
  | .thermalTrip _ => true
  | .retryTimerExpiry _ => true
  | .groupOverloadDetect _ => true
  | .selftestPassStart => true
  | .selftestSlot _ _ => true
  | .motionTargetChange _ => true
  | .moveTimeout _ => true
  | .pulseLossTimeout _ => true
  | .deadTimeExpiry _ => true
  | .coastEnd _ => true
  | .fioMFar _ => true
  | .fioMHomeDirection _ => true
  | .fioMGoto _ => true
  | .fioMStop _ => true
  | .fioMHome _ => true
  | .fioMClearFault _ => true
  | .fioMResetCoast _ => true
  | .meteringSecondEnd => true
  | .halfCycleEnd _ => true
  | .harmonicWindowEnd _ => true
  | .mtrStStart => true
  | .mtrStStop => true
  | .mtrSelftestTimer => true
  | .meterSelftestConnect => true
  | .meterSelftestDisconnect => true
  | .dmaStart _ _ _ => true
  | .dmaResume _ _ _ => true
  | .dmaSkip _ _ _ => true
  | .dmaAbort _ _ _ => true
  | .dmaElement _ _ => true
  | .atuInvContext _ => true
  | .atuInvPage _ => true
  | .atuInvAll _ => true
  | .invalidationComplete _ => true
  | .atuFqPop _ => true
  | .pageOwnerAssign _ page _ _ => page < 917504
  | .nvmeCompletion _ cid _ _ => cidOk cid
  | .nvmeCommandTimeout _ cid => cidOk cid
  | .nvmeReissue _ cid => cidOk cid
  | .driveReady _ _ _ _ _ _ => true
  | .checkpointTimer => true
  | .trendPeriodic _ => true
  | .trendFlushTimer _ _ => true
  | .resyncSegmentCopy => true
  | .eventReport e => eventOk e
  | .eventCommit => true
  | .evrOverflowClear => true
  | .recorderPowerfailWindowEnd => true
  | .freezeTimeout => true
  | .opsecIncrement => true
  | .perstAssert => true
  | .functionLevelReset => true
  | .d3hotEntry => true
  | .d0Return => true
  | .heartbeatTimer => true
  | .mbxSlotEnable _ _ => true
  | .mbxSlotDisable _ _ => true
  | .mbxIrqEnable _ => true
  | .mbxRqTail _ _ => true
  | .mbxCqHead _ _ => true
  | .requestFetch _ m _ => hostMemOk m
  | .requestComplete _ _ => true
  | .watermarkCompare => true
  | .wmkStatWrite _ _ => true
  | .wmkEnable _ => true
  | .snapTake => true
  | .devInfo _ => true
  | .devTemps _ => true
  | .wmkGet _ _ => true
  | .wmkSet _ _ _ _ _ _ => true
  | .wmkRearm _ _ => true
  | .memPoisonList _ _ _ => true
  | .memPoisonClear _ _ => true
  | .regRead _ _ _ _ _ => true
  | .regWrite _ _ _ _ => true
  | .sessionOpen _ c => tryOk c
  | .sessionClose _ => true
  | .sessionInfo _ => true
  | .winTake _ => true
  | .winGive _ => true
  | .sessionList _ => true
  | .pntRead _ _ => true
  | .pntReadBlock _ _ _ => true
  | .pntWrite _ _ _ => true
  | .pntForce _ _ _ => true
  | .pntRelease _ _ => true
  | .pntForceList _ _ => true
  | .pntDescRead _ _ => true
  | .brEnable _ _ _ _ => true
  | .brStatus _ _ => true
  | .brSchedLoad _ _ _ _ gcl => gcl.length ≤ 255
  | .brStats _ _ _ => true
  | .brTxthr _ _ _ => true
  | .brDormancy _ _ _ _ _ _ _ => true
  | .brNodes _ _ => true
  | .brNodeCmd _ _ _ args => args.length ≤ 255
  | .brClaim _ _ _ _ => true
  | .brUnbound _ _ => true
  | .trkStatus _ _ => true
  | .trkEnable _ _ _ => true
  | .trkSchedLoad _ _ _ gcl => gcl.length ≤ 65535
  | .trkStats _ _ _ => true
  | .trkTxthr _ _ _ => true
  | .trkRingMap _ => true
  | .trkPrio _ _ => true
  | .logicStatus _ _ => true
  | .logicRun _ _ _ => true
  | .logicStop _ _ => true
  | .logicHold _ _ => true
  | .logicStep _ _ _ => true
  | .logicResume _ _ => true
  | .logicDownload _ _ _ _ => true
  | .logicTasks _ _ => true
  | .logicReadVar _ _ _ _ _ => true
  | .logicWriteVar _ _ _ _ _ => true
  | .logicPatchConst _ _ _ _ _ => true
  | .logicBpSet _ _ _ _ _ _ => true
  | .logicBpRead _ _ _ => true
  | .logicCoreRead _ _ _ => true
  | .loopGet _ _ _ => true
  | .loopSetLimits _ _ _ _ _ _ => true
  | .loopSetSp _ _ _ _ => true
  | .loopWriteBank _ _ _ _ => true
  | .loopSwap _ _ _ _ => true
  | .loopTestStart _ _ _ _ _ _ _ _ _ _ _ => true
  | .loopTestStop _ _ _ => true
  | .loopTestRead _ _ _ _ => true
  | .loopBudget _ _ => true
  | .fioStatus _ => true
  | .fioGroups _ => true
  | .fioClear _ _ => true
  | .fioSelftest _ _ _ => true
  | .fioWatchdog _ _ _ => true
  | .motCmd _ _ _ _ => true
  | .motStatus _ _ => true
  | .mtrCircuit _ _ => true
  | .mtrVset _ _ => true
  | .mtrHarm _ _ _ => true
  | .mtrTotals _ _ => true
  | .mtrTotalsClear _ _ => true
  | .mtrCalRead _ _ => true
  | .mtrCalMeasure _ _ => true
  | .mtrCalWrite _ _ _ _ _ _ => true
  | .mtrSelftest _ _ _ => true
  | .mtrWaveStart _ _ _ _ => true
  | .mtrWaveStop _ => true
  | .mtrConfigRead _ => true
  | .hstRead _ _ _ _ => true
  | .hstReadTime _ _ _ _ => true
  | .hstQuota _ _ => true
  | .hstStatus _ => true
  | .hstResync _ => true
  | .hstReplicaRead _ _ _ _ _ => true
  | .evtRead _ _ _ => true
  | .evtHeartRead _ _ _ => true
  | .evtPlant _ => true
  | .accCredAdd _ _ => true
  | .accCredDel _ _ => true
  | .accCredRead _ _ => true
  | .accDoorCmd _ _ _ _ => true
  | .accDoorStatus _ _ => true
  | .accPassbackReset _ _ _ => true
  | .timeGet _ => true
  | .timeSet _ _ _ => true
  | .rtcTrim _ _ _ => true
  | .rtcUserRead _ _ _ => true
  | .rtcUserWrite _ _ _ bytes => bytes.length ≤ 255
  | .rtcSysRead _ => true
  | .cfgStatus _ => true
  | .cfgWrite _ _ _ => true
  | .cfgActivate _ => true
  | .secStatus _ => true
  | .secCredSet _ _ _ _ v => v.length ≤ 16777216
  | .secKeyRotate _ _ _ => true
  | .secEscrowExport _ _ _ => true
  | .barkBreak _ => true
  | .barkPoll _ => true
  | .barkRearm => true
  | .read => true
  | .offline => true
  | .timeMessageSend => true
  | .passbackForgiveness _ => true
  | .credentialLockoutEnd _ => true
  | .rtcSecond => true
  | .rtcMsecRead => true
  | .rtcYearRead => true
  | .rtcFreezeTimeout => true
  | .rtcCommit => true
  | .rtcCommitDone => true
  | .rtcTrimWrite _ => true
  | .rtcTrimWindow => true
  | .rtcAtrimMeasure => true
  | .rtcSyncCheck => true
  | .ringTimeLoss => true
  | .vbatLowDetect => true
  | .vinGood => true
  | .powerFailDetect => true
  | .vinCollapse => true
  | .resetN => true
  | .managementWatchdogExpiry => true
  | .thermalShutdown _ => true
  | .rootRomBoot => true
  | .dieRelease _ _ => true
  | .dieReadyTimeout _ => true
  | .configurationLoad => true
  | .branchPowerWave _ => true
  | .portCyclingStart _ => true
  | .logicStartModeApply => true
  | .startComplete => true
  | .startIncompleteTimeout => true
  | .svcOpen c => tryOk c
  | .svcMbx b => entryOk b
  | .svcUpdateBegin h => h.plen < 4294967296
  | .svcUpdateChunk idx len => idx < 4294967296 && len ≤ 65536
  | .svcUpdateEnd _ _ => true
  | .svcActivate => true
  | .svcSeedling => true
  | .svcRestart => true
  | .svcFreeze => true
  | .svcThaw => true
  | .svcFactoryErase => true
  | .svcProvision pr => pr.creds.all fun e => e.1 < 256
  | .usbDisconnect => true
  | .junctionCooled _ => true
  | .vbatRestored => true
  | .backupPowerLoss => true
  | .unlockTimeExpiry _ => true
  | .floorValidityExpiry _ => true
  | .nodeSecureRx _ _ f => secureFrameOk f
  | .offlineDecision _ _ _ _ => true

end Sys2Proof
end

