-- ==== Sys2Proof/Tests/Slice0.lean ====
section
/-!
SUPPORT. Tests of the model: small states, one ill-formed command for each well-formedness check, the spec's worked examples
(each test names its example; expected values are the spec's), and, for every statement with hypotheses, states and operands
that meet them (`test_met_<statement>`, one part for each clause).
-/

set_option linter.unusedVariables false
set_option maxRecDepth 20000

namespace Sys2Proof.Machine

/-! ### States the tests start from -/

def runState : State := { State.reset with su := { State.reset.su with phase := .running, ready := List.range 8 } }
def romState : State := { State.reset with su := { State.reset.su with phase := .exyan, ready := [0] } }
def startedState : State := { runState with logic := (List.range 8).map fun d => (d, { started := true }) }
def cfgState : State := { State.reset with
  su := { State.reset.su with phase := .exyan, ready := List.range 8, loading := true, copyA := { good := true, signer := 5, img := { moduleId := 1 } } }
  host := { State.reset.host with mbxRdy := true }
  sec := { State.reset.sec with vault := .provisioned, keyHashes := [5] } }
def svcState (k : SvcKind) : State := { runState with su := { runState.su with svc := k } }
def seedState : State := { runState with su := { runState.su with phase := .exyan, seedling := true, svc := .recovery } }

/-- A fetched request. -/
def hd (op : BitVec 16) (data : List Byte) (rlen : Nat) : ReqHead :=
  { tag := 9, opcode := op, len := data.length, rlen := rlen, inline := decide (data.length ≤ 40), data := data }
/-- A session of a tenant at slot 0, with one fetched request, in a running module. -/
def reqState (t : Tenant) (op : BitVec 16) (data : List Byte) (rlen : Nat) : State := { runState with
  host := { runState.host with mbxRdy := true, cfgOk := true, slots := [(0, { en := true, opened := true, tenant := t, reqs := [{ head := hd op data rlen }] })] }
  cfg := { runState.cfg with moduleId := 1 } }
def rq : Req := { sender := 0, tag := 9 }
/-- The verifier of a secret; the secret matches it. -/
def verifierOf (secret : List Byte) : List Byte := List.replicate 16 0 ++ Config.sha384 (List.replicate 16 0 ++ secret)
theorem secret_ok (secret : List Byte) : secretOk (verifierOf secret) secret = true := by simp [secretOk, verifierOf]
def withPnt (s : State) (p : Points) : State := { s with pnt := p }
/-- The landlord holds the window. -/
def winState (p : Points) : State := { runState with
  host := { runState.host with mbxRdy := true, win := some 0, slots := [(0, { en := true, opened := true })] }
  pnt := p }
def withHst (s : State) (h : History) : State := { s with hst := h }
def withEvr (s : State) (e : Recorder) : State := { s with evr := e }
def blk1 : Block := { t0 := 100, timeOk := true, timeMs := 5, recs := [{ series := 4, tick := 100, status := 0, value := 7 }] }
def hst1 : History := { d0 := { ok := true, linkUp := true, blocks := 1638400 }, up := true, segs := [(1, { tenant := 2, age := 1, isOpen := true, blocks := [blk1] })] }
def readState (op : BitVec 16) (data : List Byte) : State := { withHst (reqState 2 op data 4096) hst1 with
  cfg := { moduleId := 1, trends := [{ series := 4, tenant := 2 }], tenants := [{ id := 2, quota := 9 }] }
  sec := { runState.sec with openKeys := [(.hist 2 0, 0)] } }
/-- A running module with port 5 as given; a module that knows node 77 as given. -/
def portState (x : BrPort) : State := { runState with ports := [(5, x)] }
def nodeState (n : Node) : State := { runState with nodes := [(77, n)] }
/-- A running module, module number 3, with trunk port A as given. -/
def trkState (x : TrkPort) : State := { runState with
  cfg := { moduleId := 3 }, host := { runState.host with cfgOk := true, mbxRdy := true }, trk := { relayOnly := false, a := x } }
/-- Core 2 of die 1 as given, in an open scan of an image of a hundred words whose one task is task 0 of the landlord. -/
def coreState (x : CoreSt) : State := { runState with
  logic := [(1, { mode := .run, inScan := true, image := some { codeLen := 100, tasks := [{ inputs := [3], outputs := [3], spillLimit := 0x800100 }] }, seq := 4 })]
  cores := [(6, { x with task := some 0 })] }
def coreRef : CoreRef := { die := 1, core := 2 }
def regs3 : CoreSt := { regs := [(0, 5), (1, 3), (2, 7)], pc := 9 }
/-- A running module with the field I/O controller and the configuration as given. -/
def fioState (c : Image) (f : FieldIO) : State := { runState with cfg := c, fio := f }

/-! ### Ill-formed commands: each check refuses one -/

/-- A value of a channel. -/
def chv : ChanVal := {}

theorem test_wf_tick : (Instr.tick { mtr := [], ain := [] }).wf = false := by decide
theorem test_wf_tick_ok : (Instr.tick { mtr := List.replicate 54 0, ain := List.replicate 16 0 }).wf = true := by decide
theorem test_wf_access_size : (Instr.registerWrite true 0 3 0).wf = false := by decide
theorem test_wf_address : (Instr.scheduledOverAmplitude 5 251).wf = false := by decide
theorem test_wf_first_channel : (Instr.branchRxReport 5 1 64 []).wf = false := by decide
theorem test_wf_report_length : (Instr.branchRxReport 5 1 0 (List.replicate 65 chv)).wf = false := by decide
theorem test_wf_channel : (Instr.branchRxEvent 5 1 0 64 chv).wf = false := by decide
theorem test_wf_response_length : (Instr.branchRxResponse 5 1 0 0 0 (List.replicate 238 0)).wf = false := by decide
theorem test_wf_secure_counter : (Instr.branchRxSecure 5 1 { ctr := 4294967296, body := List.replicate 16 0, inner := .time 0 0 }).wf = false := by decide
theorem test_wf_inner_channel : (Instr.nodeSecureRx 7 1 { body := List.replicate 16 0, inner := .event 0 64 .good 0 }).wf = false := by decide
theorem test_wf_claim_slots : (Instr.nodeClaimBroadcastRx 7 0 1000 true 0).wf = false := by decide
theorem test_wf_output_length : (Instr.nodeOutputRx 7 1 0 (List.replicate 65 0)).wf = false := by decide
theorem test_wf_fallback_channel : (Instr.setFallback 7 1 0 10 [(64, 0)]).wf = false := by decide
theorem test_wf_header : (Instr.trunkRxHeader false { tmHops := 256 } none).wf = false := by decide
theorem test_wf_frame : (Instr.trunkRxFrame false { cls := 8 } .good none false).wf = false := by decide
theorem test_wf_frame_length : (Instr.trunkRxFrame false { len := 9217 } .good none false).wf = false := by decide
theorem test_wf_request_length : (Instr.requestFetch 0 [(18446744073709551615, [0, 0])] none).wf = false := by decide
theorem test_wf_replica : (Instr.trunkRxReplicaBlock false {} 0 1 []).wf = false := by decide
theorem test_wf_supplies : (Instr.supplySample [24000] [0, 0, 0, 0]).wf = false := by decide
theorem test_wf_page : (Instr.pageOwnerAssign 0 917504 0 none).wf = false := by decide
theorem test_wf_command_id : (Instr.nvmeCompletion 0 65536 true none).wf = false := by decide
theorem test_wf_event : (Instr.eventReport { sev := 8 }).wf = false := by decide
theorem long_proof (l : List Byte) (h : 16777216 < l.length) : (Instr.svcOpen { proof := l }).wf = false := decide_eq_false (by simpa using h)
theorem test_wf_credential : (Instr.svcOpen { proof := List.replicate 16777217 0 }).wf = false :=
  long_proof _ (by rw [List.length_replicate]; decide)
theorem long_gcl (l : List GclEntry) (h : 255 < l.length) : (Instr.brSchedLoad rq 5 25 3 l).wf = false := decide_eq_false (by omega)
theorem test_wf_gcl : (Instr.brSchedLoad rq 5 25 3 (List.replicate 256 {})).wf = false :=
  long_gcl _ (by rw [List.length_replicate]; decide)
theorem long_arguments (l : List Byte) (h : 255 < l.length) : (Instr.brNodeCmd rq 0x1776 1 l).wf = false := decide_eq_false (by omega)
theorem test_wf_arguments : (Instr.brNodeCmd rq 0x1776 1 (List.replicate 256 0)).wf = false :=
  long_arguments _ (by rw [List.length_replicate]; decide)
theorem long_user_bytes (l : List Byte) (h : 255 < l.length) : (Instr.rtcUserWrite rq 0 0 l).wf = false := decide_eq_false (by omega)
theorem test_wf_user_bytes : (Instr.rtcUserWrite rq 0 0 (List.replicate 256 0)).wf = false :=
  long_user_bytes _ (by rw [List.length_replicate]; decide)
theorem long_trunk_gcl (l : List TrkEntry) (h : 65535 < l.length) : (Instr.trkSchedLoad rq 0 5 l).wf = false := decide_eq_false (by omega)
theorem test_wf_trunk_gcl : (Instr.trkSchedLoad rq 0 5 (List.replicate 65536 {})).wf = false :=
  long_trunk_gcl _ (by rw [List.length_replicate]; decide)
theorem test_wf_update_length : (Instr.svcUpdateBegin { plen := 4294967296 }).wf = false := by decide
theorem test_wf_update_chunk : (Instr.svcUpdateChunk 0 65537).wf = false := by decide
theorem test_wf_provision : (Instr.svcProvision { creds := [(256, 1, [])] }).wf = false := by decide

/-! ### The spec's worked examples -/

/-- The state a meaning answers with. -/
def after (o : Host.Outcome State Fault Refusal) : State :=
  match o with
  | .next t => t
  | _ => State.reset

/-- Example 02.1: the daylight cell. -/
theorem test_cell_daylight :
    cellWord { qual := .good, chg := true, src := .field, value := 6700 } = 0x04001A2C := by decide
/-- Example 02.1: the forced temperature cell. -/
theorem test_cell_forced :
    cellWord { qual := .good, forced := true, chg := true, src := .host, value := BitVec.ofInt 24 (-800) } = 0x27FFFCE0 := by decide
/-- Example 02.2: the reference of MPN 36,642 on module 17, and its local index and die. -/
theorem test_point_reference :
    ({ runState with cfg := { moduleId := 17 }, host := { runState.host with cfgOk := true } } : State).pointRef 36642 = 0x00448F22
    ∧ mpnDie 36642 = 1 := by decide
/-- Example 03.1: CRC-32 of the nine digits. -/
theorem test_crc : crc32 [0x31, 0x32, 0x33, 0x34, 0x35, 0x36, 0x37, 0x38, 0x39] = 0xCBF43926 := by decide
/-- Example 03.2: a payload of 28 bytes takes 320 bit-times; here an OUTPUT of eight channels and two bytes of header. -/
theorem test_frame_time : frameBits (.output 0 (List.replicate 8 0)) = 96 + 8 * 26 := by decide
/-- Example 03.3: the reset GCL is accepted with the 25 ms cycle. -/
theorem test_default_gcl : gclErrOf 25 3 (gclList (State.reset.port 5).gcl 3) = 0
    ∧ (gclList (State.reset.port 5).gcl 3).map (fun e => e.duration.toNat) = [2064, 100000, 147936] := by decide
/-- R53: a second beacon entry is error 2, a sum that is not the cycle error 1. -/
theorem test_gcl_errors : gclErrOf 25 1 [{ duration := 2064 }] = 1
    ∧ gclErrOf 25 2 [{ duration := 2064 }, { duration := 247936 }] = 2 := by decide
/-- Example 07.1: the four words. -/
theorem test_words : rWord 0x02 { rd := 14, rs1 := 20, rs2 := 21 } = 0x09D4A8
    ∧ rWord 0x0C { rd := 12, rs1 := 20, rs2 := 3, fn := 6 } = 0x31941E
    ∧ bWord 0x28 { cond := 3, disp := 0x3FFB } = 0xA0FFFB ∧ iWord 0x1D { rd := 1 } = 0x742000 := by decide
/-- Example 07.1: the words as a core decodes them; opcode 0x00 is no instruction. -/
theorem test_decode : decodeCore coreRef 0x09D4A8 0 = some (.adds coreRef { rd := 14, rs1 := 20, rs2 := 21 })
    ∧ decodeCore coreRef 0x31941E 0 = some (.mulf coreRef { rd := 12, rs1 := 20, rs2 := 3, fn := 6 })
    ∧ decodeCore coreRef 0xA0FFFB 0 = some (.br coreRef { cond := 3, disp := 0x3FFB })
    ∧ decodeCore coreRef 0x742000 0x0CCCCD = some (.ldi coreRef { rd := 1, ext := 0x0CCCCD })
    ∧ decodeCore coreRef 0 0 = none := by decide
/-- Example 07.1: 3.0 × −1.0 with 20 fractional bits. -/
theorem test_mulf : let t := after (execMulf coreRef { rd := 12, rs1 := 20, rs2 := 3, fn := 6 }
      (coreState { regs := [(3, 0xF00000), (24, 0x300000)] }))
    (t.coreOf coreRef).r 12 = 0xD00000 := by decide
/-- Example 07.1: 6.0 × 2.0 exceeds the range: saturated, with V and SATS. -/
theorem test_mulf_saturates : let t := after (execMulf coreRef { rd := 12, rs1 := 20, rs2 := 3, fn := 6 }
      (coreState { regs := [(3, 0x200000), (24, 0x600000)] }))
    (t.coreOf coreRef).r 12 = 0x7FFFFF ∧ (t.coreOf coreRef).v = true ∧ (t.coreOf coreRef).sats = true := by decide
/-- Example 07.1: BR to PC + 1 − 5 when N and V differ. -/
theorem test_br : let t := after (execBr coreRef { cond := 3, disp := 0x3FFB } (coreState { n := true, pc := 40 }))
    (t.coreOf coreRef).pc = 36 := by decide
/-- Example 07.1: LDI loads its extension word. -/
theorem test_ldi : let t := after (execLdi coreRef { rd := 1, ext := 0x0CCCCD } (coreState { pc := 4 }))
    (t.coreOf coreRef).r 1 = 0x0CCCCD ∧ (t.coreOf coreRef).pc = 6 := by decide
/-- Example 07.2, step 3: a CALL into an occupied window takes the overflow trap. -/
theorem test_window_overflow : let t := after (execCall coreRef { ext := 7 } (coreState { wix := 9, wom := 0x3FF, depth := 9 }))
    (t.coreOf coreRef).tw = true ∧ (t.coreOf coreRef).wix = 9 ∧ (t.coreOf coreRef).wom = 0x3FF := by decide
/-- Example 07.2, step 10: a RET to a clear window takes the underflow trap. -/
theorem test_window_underflow : let t := after (execRet coreRef {} (coreState { wix := 2, wom := 0x004, depth := 2 }))
    (t.coreOf coreRef).tw = true ∧ (t.coreOf coreRef).wix = 2 ∧ (t.coreOf coreRef).wom = 0x004 := by decide

/-- The bank of Example 08.1. -/
def lightBank : Bank := { nsec := 2, integ := 2, dir := 0, k := 0x0CCCCD, gexp := 8, sections := [
  { b0 := 0x033333, a1 := 0xF33333 }, { b0 := 0x1051EC, b1 := 0xF00000, a1 := 0xF00000, slo := 0, shi := 0x007D00 }] }
/-- Its words. -/
theorem test_bank_words : [0, 1, 2, 5, 7, 8, 10, 45].map (bankWord lightBank)
    = [0x0202, 0x080CCCCD, 0x033333, 0xF33333, 0x1051EC, 0xF00000, 0xF00000, 0x7D00] := by decide
/-- Example 08.2: section 0, section 1 and the gain of the first sample. -/
theorem test_first_sample : secStep (bankSec lightBank 0) false 1300 0 0 = { y := 260, s1 := 218103860, s2 := 0, sat := 0 }
    ∧ secStep (bankSec lightBank 1) true 260 0 0 = { y := 265, s1 := 5452720, s2 := 0, sat := 0 }
    ∧ outGain lightBank 265 = 54272 ∧ commitS1 lightBank 1 0 5452720 1 false = 0 := by decide
/-- Example 08.2 as one command: the rate limit gives 32,768, section 0 commits and section 1 keeps its state. -/
theorem test_loop_sample :
    let c : LoopCfg := { div := 1600, pv := .cell 1, sp := .cell 2, dst := .cell 3 }
    let x : LoopSlot := { cfg := some c, omax := 0x640000, rate := 0x8000, bankA := lightBank, uPrev := some 0 }
    let p : Points := { cells := [(1, { qual := .good, value := 6700 }), (2, { qual := .good, value := 8000 }), (3, { qual := .good })] }
    let t := after (execLoopSample 0 0 0 { runState with cfg := { loops := [c] }, pnt := p, loops := [(0, x)] })
    (t.loop 0 0).latches.map (·.value) = [32768] ∧ sget 0 (t.loop 0 0).s1 0 = 218103860 ∧ sget 0 (t.loop 0 0).s1 1 = 0 := by
  decide
/-- Example 11.1: the gather descriptor. -/
theorem test_descriptor :
    let d : Descriptor := { mode := 1, irq := true, last := true, srcSp := 1, count := 1024, dst := 0x0801F800, idx := 0x08000000 }
    descOf 0x04000581 0 0x0801F800 0x0080000000000000 = d
    ∧ descReserved 0x04000581 0 0x0801F800 0x0080000000000000 = false := by decide
/-- Example 12.1: the records' 26 bytes; the end byte follows. -/
theorem test_trend_bytes : recsBytes [{ series := 41003, tick := 100, status := 0, value := 6700 },
      { series := 41004, tick := 100, status := 0, value := 3120 }, { series := 41003, tick := 16100, status := 0, value := 6712 },
      { series := 41003, tick := 24100, status := 0, value := 6650 }]
    = [0x0E, 0x2B, 0xA0, 0x00, 0x00, 0x00, 0x2C, 0x1A, 0x00, 0x0D, 0x00, 0x00, 0x30, 0x0C, 0x00,
       0x02, 0x2B, 0xA0, 0x00, 0x80, 0x7D, 0x18, 0x00, 0xC0, 0x3E, 0x7B] := by decide
/-- Example 13.1, step 7: WMK_STAT. -/
theorem test_watermark_status : Wmk.stat { raised := true, fell := true, count := 2 } = 0x00020006 := by decide
/-- Example 13.1, step 2: a value of 540 crosses a threshold of 512. -/
theorem test_watermark_rises : let w := ({ runState with
      evr := { queue := List.replicate 540 (0, {}) },
      host := { wmks := [(2, { en := true, thr := 512, hyst := 128, armed := true })] } } : State).compare 2 |>.wmk 2
    w.level = true ∧ w.raised = true ∧ w.count = 1 ∧ w.armed = false := by decide
/-- Example 14.1: PNT_FORCE of tenant 0x0A4 on module 17. -/
theorem test_force_request : let b := reqState 0x0A4 0x0304 (pack [(0x00458100, 4), (0xFFFCE0, 3)]) 0
    let t := after (execPntForce rq 0x00458100 0xFFFCE0 { b with
      cfg := { moduleId := 17 }, host := { b.host with cfgOk := true },
      pnt := { descs := [(98560, { tenant := 0x0A4, tfa := true, cn := true })], cells := [(98560, { qual := .good })] } })
    t.resultOf rq 0 = some { r0 := 0x27FFFCE0, r1 := 0xA4 } := by decide
/-- Example 14.1: the same session does not find a point of tenant 0x021. -/
theorem test_force_hidden : let b := reqState 0x0A4 0x0304 (pack [(0x00458100, 4), (0xFFFCE0, 3)]) 0
    let t := after (execPntForce rq 0x00458100 0xFFFCE0 { b with
      cfg := { moduleId := 17 }, host := { b.host with cfgOk := true },
      pnt := { descs := [(98560, { tenant := 0x021, tfa := true })], cells := [(98560, { qual := .good })] } })
    t.resultOf rq 0 = some (refusal stNotFound 0) := by decide
/-- 13 R309: a step runs the command at the front of the queue. -/
theorem test_step : step { runState with tick := 16000, pending := [.opsecIncrement] }
    = .next { runState with tick := 16000, evr := { opsec := 1, opsecAt := 16000 } } := by
  rfl

/-! ### The hypotheses of the statements can be met -/

/-- The hypotheses of each clause of StepRunsTheFrontCommand can be met. -/
theorem test_met_StepRunsTheFrontCommand :
    (∃ (c : Instr) (l : List Instr) (s : State), (s.pending = c :: l)) ∧
    (∃ (s : State), (s.pending = [])) :=
  ⟨⟨.opsecIncrement, [], { runState with pending := [.opsecIncrement] }, by decide⟩,
   ⟨runState, by decide⟩⟩

/-- The hypotheses of MemoryKeepsItsForm can be met. -/
theorem test_met_MemoryKeepsItsForm :
    ∃ (s : State) (t : State), (Memory.wf s.mem = true) ∧ (step s = .next t) :=
  ⟨{ runState with pending := [.opsecIncrement] }, _, by decide, rfl⟩

/-- The hypotheses of TamperPinFollowsTheVault can be met. -/
theorem test_met_TamperPinFollowsTheVault :
    ∃ (s : State) (t : State), (s.tamperOk) ∧ (step s = .next t) :=
  ⟨{ runState with pending := [.opsecIncrement] }, _, rfl, rfl⟩

/-- The hypotheses of FusesOnlyAdvance can be met. -/
theorem test_met_FusesOnlyAdvance :
    ∃ (s : State) (t : State), (step s = .next t) :=
  ⟨{ runState with pending := [.opsecIncrement] }, _, rfl⟩

/-- The hypotheses of each clause of BranchCommandsKeepOtherUnits can be met. -/
theorem test_met_BranchCommandsKeepOtherUnits :
    (∃ (c : Instr) (s : State), (branchCmd c = true)) ∧
    (∃ (c : Instr) (p : Port) (q : Nat) (room : Nat) (at_ : Nat) (buf : Nat) (bt : Nat) (f : TxFail) (g : RxFail) (s : State),
      (q ≠ p.val) ∧ ([Instr.gclEntryBoundary p, .branchTxStart p room at_ buf, .branchTxEnd p, .collisionDetect p none bt,
      .backoffExpiry p none room at_ buf, .branchTxUnderrun p f, .branchRxBadFrame p g].contains c = true)) :=
  ⟨⟨.branchTxStart 3 100 0 64, runState, by decide⟩,
   ⟨.branchTxEnd 3, 3, 4, 100, 0, 5, 9, .dry, .crc, runState, by decide⟩⟩

/-- The hypotheses of each clause of TrunkClockAndPointCommandsKeepOtherUnits can be met. -/
theorem test_met_TrunkClockAndPointCommandsKeepOtherUnits :
    (∃ (c : Instr) (s : State), (trunkCmd c = true)) ∧
    (∃ (c : Instr) (s : State), (clockCmd c = true)) ∧
    (∃ (c : Instr) (s : State), (pointCmd c = true)) :=
  ⟨⟨.superframeStart, runState, by decide⟩,
   ⟨.rtcSecond, runState, by decide⟩,
   ⟨.opsecIncrement, runState, by decide⟩⟩

/-- The hypotheses of each clause of LogicCommandsKeepOtherUnits can be met. -/
theorem test_met_LogicCommandsKeepOtherUnits :
    (∃ (c : Instr) (s : State), (logicCmd c = true)) ∧
    (∃ (c : Instr) (k : CoreRef) (r : RForm) (s : State), (s.mayRun k 1) ∧ (legalR r = true) ∧ ([Instr.add k r, .adds k r,
      .sub k r, .subs k r, .and k r, .or k r, .xor k r, .shl k r, .shr k r, .sha k r, .min k r, .max k r, .mulf k r].contains
      c = true)) ∧
    (∃ (c : Instr) (k : CoreRef) (r : RForm) (s : State), (s.mayRun k 1) ∧ (legalR r = true) ∧ ((s.coreOf k).r r.rs2 ≠ 0) ∧
      ([Instr.div k r, .rem k r].contains c = true)) ∧
    (∃ (c : Instr) (k : CoreRef) (i : IForm) (s : State), (s.mayRun k 1) ∧ (legalI i = true) ∧ (i.imm.toNat < 32) ∧
      ([Instr.addi k i, .addsi k i, .andi k i, .ori k i, .xori k i, .shli k i, .shri k i, .shai k i].contains c = true)) :=
  ⟨⟨.scanStart 1, runState, by decide⟩,
   ⟨.add coreRef { rs1 := 0, rs2 := 1, rd := 2 }, coreRef, { rs1 := 0, rs2 := 1, rd := 2 }, coreState regs3, by decide⟩,
   ⟨.div coreRef { rs1 := 0, rs2 := 1, rd := 2 }, coreRef, { rs1 := 0, rs2 := 1, rd := 2 }, coreState regs3, by decide⟩,
   ⟨.addi coreRef { rs1 := 0, imm := 3, rd := 2 }, coreRef, { rs1 := 0, imm := 3, rd := 2 }, coreState regs3, by decide⟩⟩

/-- The hypotheses of each clause of LoopMemoryAndMeterCommandsKeepOtherUnits can be met. -/
theorem test_met_LoopMemoryAndMeterCommandsKeepOtherUnits :
    (∃ (c : Instr) (s : State), (loopCmd c = true)) ∧
    (∃ (c : Instr) (s : State), (memoryCmd c = true)) ∧
    (∃ (c : Instr) (s : State), (meterCmd c = true)) :=
  ⟨⟨.loopOutputApply 1 3, runState, by decide⟩,
   ⟨.invalidationComplete 1, runState, by decide⟩,
   ⟨.meteringSecondEnd, runState, by decide⟩⟩

/-- The hypotheses of each clause of FieldAndDriveCommandsKeepOtherUnits can be met. -/
theorem test_met_FieldAndDriveCommandsKeepOtherUnits :
    (∃ (c : Instr) (s : State), (fieldCmd c = true)) ∧
    (∃ (c : Instr) (s : State), (driveCmd c = true)) :=
  ⟨⟨.supplySample [] [], runState, by decide⟩,
   ⟨.checkpointTimer, runState, by decide⟩⟩

/-- The hypotheses of ReadRequestsChangeNothing can be met. -/
theorem test_met_ReadRequestsChangeNothing :
    ∃ (c : Instr) (s : State), (readCmd c = true) :=
  ⟨.devInfo rq, runState, by decide⟩

/-- The hypotheses of each clause of RequestsActOnTheirGroup can be met. -/
theorem test_met_RequestsActOnTheirGroup :
    (∃ (c : Instr) (s : State), (reqGroup c ≠ 0) ∧ (reqGroup c ≠ 15)) ∧
    (∃ (c : Instr) (s : State), (reqGroup c = 15)) :=
  ⟨⟨.brTxthr rq 5 9, runState, by decide⟩,
   ⟨.secStatus rq, runState, by decide⟩⟩

/-- The hypotheses of OnlyEnginesWriteDram can be met. -/
theorem test_met_OnlyEnginesWriteDram :
    ∃ (c : Instr) (s : State), (dramCmd c = false) :=
  ⟨.devInfo rq, runState, by decide⟩

/-- The hypotheses of each clause of PointCommandsChangeOneCell can be met. -/
theorem test_met_PointCommandsChangeOneCell :
    (∃ (r : Req) (ref : Word) (v : V24) (m : Nat) (d : Desc) (s : State), (s.refPoint (s.reqTenant r.sender.val) ref = some
      (m, d))) ∧
    (∃ (r : Req) (ref : Word) (v : V24) (m : Nat) (d : Desc) (s : State), (s.refPoint (s.reqTenant r.sender.val) ref = some
      (m, d))) ∧
    (∃ (r : Req) (ref : Word) (m : Nat) (d : Desc) (s : State), (s.refPoint (s.reqTenant r.sender.val) ref = some (m, d))) :=
  ⟨⟨rq, 0x40003, 77, 3, {}, withPnt (reqState 0 0x0303 [] 0) { descs := [(3, {})] }, by decide⟩,
   ⟨rq, 0x40003, 77, 3, {}, withPnt (reqState 0 0x0303 [] 0) { descs := [(3, {})] }, by decide⟩,
   ⟨rq, 0x40003, 3, {}, withPnt (reqState 0 0x0303 [] 0) { descs := [(3, {})] }, by decide⟩⟩

/-- The hypotheses of each clause of WindowAndSessionsGateAccess can be met. -/
theorem test_met_WindowAndSessionsGateAccess :
    (∃ (off : BitVec 28) (size : Nat) (v : BitVec 64) (s : State), (s.host.win = none) ∧ (s.host.mbxRdy = true)) ∧
    (∃ (r : Req) (op : Nat) (h : ReqHead) (i : Nat) (p : List Byte → Bool) (f : Tenant → Nat → State → Answer) (s : State),
      (s.offers r op p h i) ∧ (s.reqTenant r.sender.val ≠ 0)) ∧
    (∃ (r : Req) (op : Nat) (h : ReqHead) (i : Nat) (landlord : Bool) (p : List Byte → Bool) (f : Tenant → Nat → State →
      Answer) (s : State), (startable r.tag (reqIs op p) (s.sender r.sender.val).reqs = some i) ∧ ((s.sender
      r.sender.val).reqs[i]? = some { head := h }) ∧ (h.tag = r.tag) ∧ (p h.data = true) ∧ (s.early r.sender.val h = none) ∧
      (s.su.seedling = false) ∧ (s.su.loading = true) ∧ (loadHeld op = true) ∧ (landlord = true → s.reqTenant r.sender.val =
      0) ∧ (∀ u, (f (s.reqTenant r.sender.val) h.rlen u).1.any (fun x => x.status == stNotFound) = false)) :=
  ⟨⟨0x30004, 4, 9, { runState with host := { runState.host with mbxRdy := true } }, by decide⟩,
   ⟨rq, 0x0102, hd 0x0102 [] 0, 0, (· == []), fun _ _ s => ansOk {} s, reqState 5 0x0102 [] 0, by decide⟩,
   ⟨rq, 0x0301, hd 0x0301 [] 4, 0, false, (· == []), fun _ _ s => ansOk {} s, { reqState 5 0x0301 [] 4 with su := { runState.su with loading := true } }, by decide, by decide, by decide, by decide, by decide, by decide, by decide, by decide, by decide, fun _ => rfl⟩⟩

/-- The hypotheses of each clause of HiddenPointsDoNotShow can be met. -/
theorem test_met_HiddenPointsDoNotShow :
    (∃ (r : Req) (refs : List Word) (m : Nat) (i : Nat) (x : Cell) (s : State), ((s.desc? m).any (sees (s.reqTenant
      r.sender.val)) = false)) ∧
    (∃ (r : Req) (die : Byte) (block : BitVec 16) (m : Nat) (i : Nat) (x : Cell) (s : State), ((s.desc? m).any (sees
      (s.reqTenant r.sender.val)) = false)) :=
  ⟨⟨rq, [0x40003], 3, 0, { value := 9 }, withPnt (reqState 5 0x0301 [] 4) { descs := [(3, {})] }, by decide⟩,
   ⟨rq, 0, 0, 3, 0, { value := 9 }, withPnt (reqState 5 0x0301 [] 4) { descs := [(3, {})] }, by decide⟩⟩

/-- The hypotheses of each clause of ResetKeepsWhatMramHolds can be met. -/
theorem test_met_ResetKeepsWhatMramHolds :
    (∃ (s : State), (s.su.phase ≠ .off)) ∧
    (∃ (s : State), (s.exyan = true)) :=
  ⟨⟨runState, by decide⟩,
   ⟨runState, by decide⟩⟩

/-- The hypotheses of each clause of MailboxWritesReachHostPointsOnly can be met. -/
theorem test_met_MailboxWritesReachHostPointsOnly :
    (∃ (r : Req) (ref : Word) (v : V24) (h : ReqHead) (i : Nat) (m : Nat) (d : Desc) (s : State), (s.offers r 0x0303 (· ==
      pack [(ref.toNat, 4), (v.toNat, 3)]) h i) ∧ (refBad ref = false) ∧ (s.refPoint (s.reqTenant r.sender.val) ref = some (m,
      d))) ∧
    (∃ (r : Req) (ref : Word) (v : V24) (h : ReqHead) (i : Nat) (m : Nat) (d : Desc) (s : State), (s.offers r 0x0303 (· ==
      pack [(ref.toNat, 4), (v.toNat, 3)]) h i) ∧ (refBad ref = false) ∧ (s.refPoint (s.reqTenant r.sender.val) ref = some (m,
      d)) ∧ (d.bkind = 0) ∧ (d.ptype = 1 ∨ d.ptype = 3 ∨ d.ptype = 5 ∨ d.ptype = 6) ∧ (s.reqTenant r.sender.val = 0 ∨ d.tenant
      = s.reqTenant r.sender.val) ∧ ((s.cell m).forced = false)) ∧
    (∃ (r : Req) (ref : Word) (v : V24) (h : ReqHead) (i : Nat) (m : Nat) (d : Desc) (s : State), (s.offers r 0x0303 (· ==
      pack [(ref.toNat, 4), (v.toNat, 3)]) h i) ∧ (refBad ref = false) ∧ (s.refPoint (s.reqTenant r.sender.val) ref = some (m,
      d)) ∧ (d.bkind = 0) ∧ (d.ptype = 1 ∨ d.ptype = 3 ∨ d.ptype = 5 ∨ d.ptype = 6) ∧ (s.reqTenant r.sender.val = 0 ∨ d.tenant
      = s.reqTenant r.sender.val) ∧ ((s.cell m).forced = true)) ∧
    (∃ (r : Req) (ref : Word) (v : V24) (h : ReqHead) (i : Nat) (m : Nat) (d : Desc) (s : State), (s.offers r 0x0303 (· ==
      pack [(ref.toNat, 4), (v.toNat, 3)]) h i) ∧ (refBad ref = false) ∧ (s.refPoint (s.reqTenant r.sender.val) ref = some (m,
      d)) ∧ (d.bkind ≠ 0 ∨ (d.ptype ≠ 1 ∧ d.ptype ≠ 3 ∧ d.ptype ≠ 5 ∧ d.ptype ≠ 6))) :=
  ⟨⟨rq, 0x40003, 77, hd 0x0303 (pack [(0x40003, 4), (77, 3)]) 0, 0, 3, { ptype := 1 }, withPnt (reqState 0 0x0303 (pack [(0x40003, 4), (77, 3)]) 0) { descs := [(3, { ptype := 1 })], cells := [(3, {})] }, by decide⟩,
   ⟨rq, 0x40003, 77, hd 0x0303 (pack [(0x40003, 4), (77, 3)]) 0, 0, 3, { ptype := 6 }, withPnt (reqState 0 0x0303 (pack [(0x40003, 4), (77, 3)]) 0) { descs := [(3, { ptype := 6 })], cells := [(3, {})] }, by decide⟩,
   ⟨rq, 0x40003, 77, hd 0x0303 (pack [(0x40003, 4), (77, 3)]) 0, 0, 3, { ptype := 1 }, withPnt (reqState 0 0x0303 (pack [(0x40003, 4), (77, 3)]) 0) { descs := [(3, { ptype := 1 })], cells := [(3, { forced := true })] }, by decide⟩,
   ⟨rq, 0x40003, 77, hd 0x0303 (pack [(0x40003, 4), (77, 3)]) 0, 0, 3, { ptype := 0 }, withPnt (reqState 0 0x0303 (pack [(0x40003, 4), (77, 3)]) 0) { descs := [(3, { ptype := 0 })], cells := [(3, {})] }, by decide⟩⟩

/-- The hypotheses of each clause of TimerValueIsTheScanTick can be met. -/
theorem test_met_TimerValueIsTheScanTick :
    (∃ (d : Die) (m : LogicImage) (s : State), ((s.die d.val).image = some m) ∧ ((s.die d.val).mode = .run) ∧ ((s.die
      d.val).inScan = false) ∧ ((s.die d.val).holding = none) ∧ (s.dieUp d.val = true)) ∧
    (∃ (c : Instr) (d : Nat) (s : State) (t : State), (exec c s = .next t) ∧ ((s.die d).inScan = true) ∧ ((t.die d).inScan =
      true)) ∧
    (∃ (k : CoreRef) (x : IForm) (a : V24) (g : LogicImage) (s : State), (s.mayRun k 1) ∧ (x.rd = 0) ∧ (gen x.rs1 = true) ∧ (a
      = (s.coreOf k).r x.rs1 + x.imm.signExtend 24) ∧ (a.toNat < 0x40000) ∧ ((s.dieOf k).image = some g) ∧ (imgReach g
      (s.coreOf k).tnt a.toNat = true)) :=
  ⟨⟨1, {}, { runState with logic := [(1, { image := some {}, mode := .run })], tick := 0x10000020 }, by decide⟩,
   ⟨.opsecIncrement, 1, { runState with logic := [(1, { inScan := true })] }, _, rfl, by decide, by decide⟩,
   ⟨coreRef, { rs1 := 0, imm := 0xFF }, 4, { codeLen := 100, tasks := [{ inputs := [3], outputs := [3], spillLimit := 0x800100 }] }, coreState regs3, by decide⟩⟩

/-- The hypotheses of each clause of RootRomChoosesTheSlot can be met. -/
theorem test_met_RootRomChoosesTheSlot :
    (∃ (s : State), (s.su.phase = .held) ∧ (s.su.vinGood = true) ∧ (s.su.trial = true) ∧ (s.su.attempts < 3) ∧ ((s.su.slot
      (!s.su.bootSlot)).valid = true) ∧ (s.sec.fuses ≤ (s.su.slot (!s.su.bootSlot)).svn)) ∧
    (∃ (s : State), (s.su.phase = .held) ∧ (s.su.vinGood = true) ∧ (s.su.trial = false) ∧ ((s.su.slot s.su.bootSlot).valid =
      true) ∧ (s.sec.fuses ≤ (s.su.slot s.su.bootSlot).svn)) ∧
    (∃ (s : State), (s.su.phase = .held) ∧ (s.su.vinGood = true) ∧ (s.su.trial = false) ∧ ((s.su.slot s.su.bootSlot).valid =
      false ∨ (s.su.slot s.su.bootSlot).svn < s.sec.fuses) ∧ ((s.su.slot (!s.su.bootSlot)).valid = true) ∧ (s.sec.fuses ≤
      (s.su.slot (!s.su.bootSlot)).svn)) ∧
    (∃ (s : State), (s.su.phase = .held) ∧ (s.su.vinGood = true) ∧ ((s.su.slot false).valid = false ∨ (s.su.slot false).svn <
      s.sec.fuses) ∧ ((s.su.slot true).valid = false ∨ (s.su.slot true).svn < s.sec.fuses)) :=
  ⟨⟨{ State.reset with su := { State.reset.su with phase := .held, vinGood := true, trial := true, attempts := 0, slot0 := {}, slot1 := { valid := true, svn := 3 } }, sec := { State.reset.sec with fuses := 3 } }, by decide⟩,
   ⟨{ State.reset with su := { State.reset.su with phase := .held, vinGood := true, trial := false, slot0 := { valid := true, svn := 3 } }, sec := { State.reset.sec with fuses := 3 } }, by decide⟩,
   ⟨{ State.reset with su := { State.reset.su with phase := .held, vinGood := true, trial := false, slot0 := { valid := true, svn := 2 }, slot1 := { valid := true, svn := 3 } }, sec := { State.reset.sec with fuses := 3 } }, by decide⟩,
   ⟨{ State.reset with su := { State.reset.su with phase := .held, vinGood := true, slot0 := {}, slot1 := { valid := true, svn := 2 } }, sec := { State.reset.sec with fuses := 3 } }, by decide⟩⟩

/-- The hypotheses of each clause of SuppliesAndResetsTakeEffect can be met. -/
theorem test_met_SuppliesAndResetsTakeEffect :
    (∃ (inp : TickIn) (s : State), (s.runs = true)) ∧
    (∃ (link : Fin 12) (s : State), (s.runs = true) ∧ (link.val < (graftLinks s.member).length) ∧ (s.links.getLsbD link.val =
      false)) ∧
    (∃ (link : Fin 12) (s : State), (s.runs = true) ∧ (link.val < (graftLinks s.member).length) ∧ (s.links.getLsbD link.val =
      true)) ∧
    (∃ (s : State), (s.su.phase = .off)) ∧
    (∃ (s : State), (s.su.vinGood = true) ∧ (s.exyan = true)) ∧
    (∃ (s : State), (s.su.phase ≠ .off)) ∧
    (∃ (s : State), (s.su.phase ≠ .off)) ∧
    (∃ (s : State), (s.exyan = true)) ∧
    (∃ (d : Die) (s : State), (s.su.phase ≠ .off) ∧ (d.val < s.nDies)) ∧
    (∃ (cause : BarkCause) (s : State), (s.su.phase ≠ .off) ∧ (s.sec.armed = true)) ∧
    (∃ (cause : Option BarkCause) (c : BarkCause) (s : State), (cause = some c) ∧ (s.su.phase = .off) ∧ (s.sec.armed = true)) ∧
    (∃ (s : State), (s.sec.meshOk = true) ∧ (s.sec.lidClosed = true) ∧ (160000 ≤ s.sec.wholeFor)) ∧
    (∃ (s : State), (s.su.phase = .off)) :=
  ⟨⟨{}, runState, by decide⟩,
   ⟨0, runState, by decide⟩,
   ⟨0, { runState with links := 1 }, by decide⟩,
   ⟨{ State.reset with su := { State.reset.su with phase := .off } }, by decide⟩,
   ⟨runState, by decide⟩,
   ⟨runState, by decide⟩,
   ⟨runState, by decide⟩,
   ⟨runState, by decide⟩,
   ⟨3, runState, by decide⟩,
   ⟨.lid, { runState with sec := { runState.sec with armed := true } }, by decide⟩,
   ⟨some .meshOpen, .meshOpen, { State.reset with su := { State.reset.su with phase := .off }, sec := { State.reset.sec with armed := true } }, by decide⟩,
   ⟨{ runState with sec := { runState.sec with meshOk := true, lidClosed := true, wholeFor := 160000 } }, by decide⟩,
   ⟨{ State.reset with su := { State.reset.su with phase := .off } }, by decide⟩⟩

/-- The hypotheses of each clause of StartProceedsInOrder can be met. -/
theorem test_met_StartProceedsInOrder :
    (∃ (s : State), (s.su.phase = .held) ∧ (s.su.vinGood = true) ∧ (s.su.trial = false) ∧ ((s.su.slot s.su.bootSlot).valid =
      true) ∧ (s.sec.fuses ≤ (s.su.slot s.su.bootSlot).svn)) ∧
    (∃ (s : State), (s.su.phase = .held) ∧ (s.su.vinGood = true) ∧ (s.su.trial = false) ∧ ((s.su.slot s.su.bootSlot).valid =
      true) ∧ (s.sec.fuses ≤ (s.su.slot s.su.bootSlot).svn) ∧ (s.sec.vault = .provisioned) ∧ (s.sec.checkOk = false)) ∧
    (∃ (d : Die) (ready : Bool) (s : State), (ready = true) ∧ (s.su.phase = .exyan) ∧ (d.val < s.nDies) ∧ (d.val =
      s.su.released) ∧ (d.val ∉ s.su.heldDies) ∧ (d.val ∈ s.reached) ∧ (d.val = 1 ∨ s.su.releaseAt + msTicks 20 ≤ s.now)) ∧
    (∃ (d : Die) (s : State), (s.su.phase = .exyan) ∧ (d.val < s.nDies) ∧ (d.val ∉ s.su.ready) ∧ (d.val ∉ s.su.heldDies) ∧
      (msTicks 1500 ≤ s.now)) ∧
    (∃ (b : Bool) (l : List Bool) (s : State), (s.su.loading = true) ∧ (s.host.mbxRdy = true) ∧ (s.su.phase = .exyan) ∧
      (s.su.seedling = false) ∧ (s.copies = b :: l) ∧ (s.brokenRule (s.copy b).img = none)) ∧
    (∃ (w : Fin 4) (s : State), (s.up = true) ∧ (s.su.waves = w.val) ∧ (s.su.loadTick + msTicks (250 * w.val) ≤ s.now)) ∧
    (∃ (p : Port) (s : State), (s.up = true) ∧ (p.val ∈ s.wavePorts) ∧ ((s.port p.val).powered = true) ∧ ((s.port p.val).en =
      false) ∧ (s.su.loadTick + msTicks (250 * (p.val % 4) + 5000) ≤ s.now)) ∧
    (∃ (n : Nat) (s : State), (s.up = true) ∧ (s.portsReported = true) ∧ (s.dieUp n = true)) ∧
    (∃ (s : State), (s.up = true) ∧ (s.su.complete = false) ∧ (s.su.expired = false) ∧ (s.unmet = 0) ∧ (s.now ≤ secTicks 60)) ∧
    (∃ (s : State), (s.exyan = true) ∧ (s.su.complete = false) ∧ (s.su.expired = false) ∧ (s.su.inTrial = false) ∧ (secTicks
      60 ≤ s.now)) :=
  ⟨⟨State.reset, by decide⟩,
   ⟨{ State.reset with su := { State.reset.su with phase := .held, vinGood := true, slot0 := { valid := true, svn := 3 } }, sec := { State.reset.sec with vault := .provisioned } }, by decide⟩,
   ⟨1, true, romState, by set_option maxRecDepth 20000 in decide⟩,
   ⟨1, { romState with tick := 24000 }, by decide⟩,
   ⟨false, [], cfgState, by decide⟩,
   ⟨1, { runState with su := { runState.su with waves := 1 }, tick := 4000 }, by decide⟩,
   ⟨5, { runState with tick := 84000, cfg := { runState.cfg with ports := [{ port := 5 }] }, ports := [(5, { powered := true })] }, by decide⟩,
   ⟨0, runState, by decide⟩,
   ⟨startedState, by set_option maxRecDepth 20000 in decide⟩,
   ⟨{ runState with tick := 960000 }, by decide⟩⟩

/-- The hypotheses of each clause of ServiceSessionsAndUpdatesTakeEffect can be met. -/
theorem test_met_ServiceSessionsAndUpdatesTakeEffect :
    (∃ (c : CredTry) (s : State), (s.runs = true) ∧ (s.su.svc = .closed) ∧ (s.sec.vault = .provisioned) ∧ (60 ≤ c.slot.toNat)
      ∧ (c.slot.toNat < 64) ∧ (s.credPasses c.slot.toNat c = true)) ∧
    (∃ (b : List Byte) (s : State), (s.runs = true) ∧ (s.su.svc ≠ .closed) ∧ (s.su.svc ≠ .rom)) ∧
    (∃ (h : FwHeader) (s : State), (s.runs = true) ∧ (s.su.svc ≠ .closed) ∧ (svcUpdate s.su.svc = true) ∧ (s.fwCheck h = 0)) ∧
    (∃ (idx : Nat) (len : Nat) (h : FwHeader) (bytes : Nat) (s : State), (s.runs = true) ∧ (s.su.svc ≠ .closed) ∧ (svcUpdate
      s.su.svc = true) ∧ (s.su.update = some (h, idx, bytes)) ∧ (bytes < h.plen) ∧ (len = min 65536 (h.plen - bytes))) ∧
    (∃ (digestOk : Bool) (sigOk : Bool) (h : FwHeader) (n : Nat) (s : State), (s.runs = true) ∧ (svcMaint s.su.svc = true) ∧
      (s.su.update = some (h, n, h.plen)) ∧ (digestOk = true) ∧ (sigOk = true)) ∧
    (∃ (s : State), (s.runs = true) ∧ (svcMaint s.su.svc = true) ∧ ((s.su.slot (!s.su.running)).valid = true)) :=
  ⟨⟨{ ckind := 1, slot := 60, proof := [7] }, { runState with sec := { runState.sec with vault := .provisioned, creds := [(60, { ckind := 1, verifier := verifierOf [7] })] } }, by decide, by decide, by decide, by decide, by decide, by
  simp [State.credPasses, State.credSlot, sget, secret_ok]⟩,
   ⟨[], svcState .landlord, by decide⟩,
   ⟨{ plen := 100, svn := 1 }, svcState .landlord, by decide⟩,
   ⟨0, 100, { plen := 100 }, 0, { svcState .landlord with su := { (svcState .landlord).su with update := some ({ plen := 100 }, 0, 0) } }, by decide⟩,
   ⟨true, true, { plen := 100 }, 1, { svcState .landlord with su := { (svcState .landlord).su with update := some ({ plen := 100 }, 1, 100) } }, by decide⟩,
   ⟨{ svcState .landlord with su := { (svcState .landlord).su with slot1 := { valid := true } } }, by decide⟩⟩

/-- The hypotheses of each clause of ServiceMaintenanceTakesEffect can be met. -/
theorem test_met_ServiceMaintenanceTakesEffect :
    (∃ (s : State), (s.runs = true) ∧ (svcMaint s.su.svc = true)) ∧
    (∃ (s : State), (s.runs = true) ∧ (s.su.svc ≠ .closed)) ∧
    (∃ (s : State), (s.runs = true) ∧ (svcMaint s.su.svc = true) ∧ (s.su.seedling = true)) ∧
    (∃ (s : State), (s.runs = true) ∧ (svcMaint s.su.svc = true) ∧ (s.su.seedling = true)) ∧
    (∃ (s : State), (s.runs = true) ∧ (svcMaint s.su.svc = true) ∧ (s.su.seedling = true)) ∧
    (∃ (pr : Provision) (s : State), (s.runs = true) ∧ (svcProv s.su.svc = true) ∧ (s.sec.vault ≠ .provisioned) ∧
      (pr.keyHashes.length ≤ 8) ∧ (s.provisionBad pr = false) ∧ (s.su.seedling = false)) ∧
    (∃ (pr : Provision) (s : State), (s.runs = true) ∧ (svcProv s.su.svc = true) ∧ (s.sec.vault ≠ .provisioned) ∧
      (pr.keyHashes.length ≤ 8) ∧ (s.provisionBad pr = false) ∧ (s.su.seedling = true)) ∧
    (∃ (s : State), (s.su.svc ≠ .rom)) :=
  ⟨⟨svcState .landlord, by decide⟩,
   ⟨svcState .provisioning, by decide⟩,
   ⟨seedState, by decide⟩,
   ⟨{ seedState with evr := { seedState.evr with frozen := true } }, by decide⟩,
   ⟨seedState, by decide⟩,
   ⟨{ keyHashes := [7], creds := [(60, 1, List.replicate 64 0)], recovery := some [9] }, svcState .provisioning, by decide⟩,
   ⟨{ keyHashes := [7], creds := [(60, 1, List.replicate 64 0)], recovery := some [9] }, seedState, by decide⟩,
   ⟨svcState .landlord, by decide⟩⟩

/-- The hypotheses of each clause of PointRequestsTakeEffect can be met. -/
theorem test_met_PointRequestsTakeEffect :
    (∃ (r : Req) (refs : List Word) (h : ReqHead) (i : Nat) (l : List (Nat × Desc)) (s : State), (s.offers r 0x0301 (· ==
      (leBytes refs.length 2 ++ wordBytes refs)) h i) ∧ (1 ≤ refs.length) ∧ (refs.length ≤ 1024) ∧ (refs.any refBad = false) ∧
      (refs.map (s.refPoint (s.reqTenant r.sender.val)) = l.map some)) ∧
    (∃ (r : Req) (die : Byte) (block : BitVec 16) (h : ReqHead) (i : Nat) (s : State), (s.offers r 0x0302 (· == pack
      [(die.toNat, 1), (block.toNat, 2)]) h i) ∧ (die.toNat < s.nDies) ∧ (block.toNat < 512)) ∧
    (∃ (r : Req) (ref : Word) (v : V24) (h : ReqHead) (i : Nat) (m : Nat) (d : Desc) (s : State), (s.offers r 0x0303 (· ==
      pack [(ref.toNat, 4), (v.toNat, 3)]) h i) ∧ (refBad ref = false) ∧ (s.refPoint (s.reqTenant r.sender.val) ref = some (m,
      d)) ∧ (hostWritable (s.reqTenant r.sender.val) d = true) ∧ ((s.cell m).forced = false)) ∧
    (∃ (r : Req) (ref : Word) (v : V24) (h : ReqHead) (i : Nat) (m : Nat) (d : Desc) (s : State), (s.offers r 0x0304 (· ==
      pack [(ref.toNat, 4), (v.toNat, 3)]) h i) ∧ (refBad ref = false) ∧ (s.refPoint (s.reqTenant r.sender.val) ref = some (m,
      d)) ∧ (s.forceCheck (s.reqTenant r.sender.val) m false = 0)) ∧
    (∃ (r : Req) (ref : Word) (h : ReqHead) (i : Nat) (m : Nat) (d : Desc) (s : State), (s.offers r 0x0305 (· == pack
      [(ref.toNat, 4)]) h i) ∧ (refBad ref = false) ∧ (s.refPoint (s.reqTenant r.sender.val) ref = some (m, d)) ∧
      (s.forceCheck (s.reqTenant r.sender.val) m true = 0)) ∧
    (∃ (r : Req) (start : BitVec 16) (h : ReqHead) (i : Nat) (m : Nat) (f : Force) (s : State), (s.offers r 0x0306 (· == pack
      [(start.toNat, 2)]) h i) ∧ (12 ≤ h.rlen) ∧ (start = 0) ∧ (s.pnt.forces = [(m, f)]) ∧ ((s.desc? m).any (sees (s.reqTenant
      r.sender.val)) = true)) ∧
    (∃ (r : Req) (ref : Word) (h : ReqHead) (i : Nat) (m : Nat) (d : Desc) (s : State), (s.offers r 0x0307 (· == pack
      [(ref.toNat, 4)]) h i) ∧ (refBad ref = false) ∧ (s.refPoint (s.reqTenant r.sender.val) ref = some (m, d))) ∧
    (∃ (d : Die) (g : PntRegs) (s : State), (s.host.mbxRdy = true) ∧ (s.winTenant = some 0) ∧ (d.val < s.nDies) ∧ (sget {}
      s.pnt.regs d.val = g) ∧ (g.done = true) ∧ (s.forceCheck 0 (32768 * d.val + g.forceIdx.toNat) false = 0)) ∧
    (∃ (d : Die) (g : PntRegs) (s : State), (s.host.mbxRdy = true) ∧ (s.winTenant = some 0) ∧ (d.val < s.nDies) ∧ (sget {}
      s.pnt.regs d.val = g) ∧ (g.done = true) ∧ (s.forceCheck 0 (32768 * d.val + g.forceIdx.toNat) true = 0)) ∧
    (∃ (m : Mpn) (d : Desc) (s : State), (s.desc? m.val = some d) ∧ (d.staleT ≠ 0) ∧ ((s.cell m.val).stale = false) ∧ (sget 0
      s.pnt.lastSrc m.val + 1600 * d.staleT.toNat ≤ s.now)) ∧
    (∃ (series : BitVec 19) (c : TrendCfg) (m : Nat) (d : Desc) (s : State), (s.trendCfg? series.toNat = some c) ∧ (c.periodic
      = true) ∧ (s.pnt.descs.find? (fun e => seriesOf e.2 == some series.toNat) = some (m, d)) ∧ (s.now % (16000 * c.period) =
      0) ∧ ((sfind s.hst.lastTick series.toNat).map (· / 2) ≠ some s.now) ∧ ((s.staging (mpnDie m) c.tenant).current.recs =
      []) ∧ ((s.staging (mpnDie m) c.tenant).full.length < 64)) :=
  ⟨⟨rq, [0x40003], hd 0x0301 (leBytes ([0x40003] : List Word).length 2 ++ wordBytes ([0x40003] : List Word)) 4, 0, [(3, {})], withPnt (reqState 0 0x0301 (leBytes ([0x40003] : List Word).length 2 ++ wordBytes ([0x40003] : List Word)) 4) { descs := [(3, {})], cells := [(3, { qual := .good, value := 5 })] }, by decide⟩,
   ⟨rq, 7, 511, hd 0x0302 (pack [(7, 1), (511, 2)]) 256, 0, reqState 5 0x0302 (pack [(7, 1), (511, 2)]) 256, by decide⟩,
   ⟨rq, 0x40003, 77, hd 0x0303 (pack [(0x40003, 4), (77, 3)]) 0, 0, 3, { ptype := 1 }, withPnt (reqState 0 0x0303 (pack [(0x40003, 4), (77, 3)]) 0) { descs := [(3, { ptype := 1 })], cells := [(3, {})] }, by decide⟩,
   ⟨rq, 0x40003, 77, hd 0x0304 (pack [(0x40003, 4), (77, 3)]) 0, 0, 3, {}, withPnt (reqState 0 0x0304 (pack [(0x40003, 4), (77, 3)]) 0) { descs := [(3, {})], cells := [(3, {})] }, by decide⟩,
   ⟨rq, 0x40003, hd 0x0305 (pack [(0x40003, 4)]) 0, 0, 3, {}, withPnt (reqState 0 0x0305 (pack [(0x40003, 4)]) 0) { descs := [(3, {})], cells := [(3, { forced := true, value := 9 })], forces := [(3, {})] }, by decide⟩,
   ⟨rq, 0, hd 0x0306 (pack [(0, 2)]) 12, 0, 3, { value := 7 }, withPnt (reqState 0 0x0306 (pack [(0, 2)]) 12) { descs := [(3, {})], forces := [(3, { value := 7 })] }, by decide⟩,
   ⟨rq, 0x40003, hd 0x0307 (pack [(0x40003, 4)]) 64, 0, 3, { unit := 9 }, withPnt (reqState 0 0x0307 (pack [(0x40003, 4)]) 64) { descs := [(3, { unit := 9 })] }, by decide⟩,
   ⟨0, { forceIdx := 3, forceVal := 77 }, winState { descs := [(3, {})], regs := [(0, { forceIdx := 3, forceVal := 77 })] }, by decide⟩,
   ⟨0, { forceIdx := 3 }, winState { descs := [(3, {})], forces := [(3, {})], cells := [(3, { forced := true })], regs := [(0, { forceIdx := 3 })] }, by decide⟩,
   ⟨3, { staleT := 1 }, { withPnt runState { descs := [(3, { staleT := 1 })], cells := [(3, {})] } with tick := 1600 }, by decide⟩,
   ⟨4, { series := 4, periodic := true }, 3, { trendV := true, trend := 4 }, { withPnt runState { descs := [(3, { trendV := true, trend := 4 })] } with cfg := { trends := [{ series := 4, periodic := true }] } }, by decide⟩⟩

/-- The hypotheses of each clause of RecorderCommandsTakeEffect can be met. -/
theorem test_met_RecorderCommandsTakeEffect :
    (∃ (e : Event) (s : State), (s.evr.keys = []) ∧ (s.evr.overflow = false) ∧ (s.evr.queue.length < 1024) ∧ (s.evr.loss.n =
      0)) ∧
    (∃ (id : Nat) (x : EvRec) (l : List (Nat × EvRec)) (s : State), (s.evr.queue = (id, x) :: l) ∧ (s.evr.frozen = false) ∧
      (s.evr.stopped = false)) ∧
    (∃ (s : State), (s.evr.overflow = true) ∧ (s.evr.queue.length ≤ 768)) ∧
    (∃ (s : State), (s.evr.pfWindow = true) ∧ (s.evr.pfAt + 24 ≤ s.now)) ∧
    (∃ (s : State), (s.evr.frozen = true) ∧ (s.evr.frozenAt + secTicks 600 ≤ s.now)) ∧
    (∃ (s : State), (s.evr.opsecAt + secTicks 1 ≤ s.now)) ∧
    (∃ (r : Req) (first : BitVec 64) (count : BitVec 16) (h : ReqHead) (i : Nat) (x : EvRec) (s : State), (s.offers r 0x0B01
      (· == pack [(first.toNat, 8), (count.toNat, 2)]) h i) ∧ (count = 1) ∧ (64 ≤ h.rlen) ∧ (s.reqTenant r.sender.val = 0) ∧
      (s.evr.tail ≤ first.toNat) ∧ (first.toNat ≤ s.evr.head) ∧ (s.evr.rec? first.toNat = some x)) ∧
    (∃ (r : Req) (first : BitVec 16) (count : BitVec 16) (h : ReqHead) (i : Nat) (x : EvRec) (s : State), (s.offers r 0x0B02
      (· == pack [(first.toNat, 2), (count.toNat, 2)]) h i) ∧ (count = 1) ∧ (64 ≤ h.rlen) ∧ (s.reqTenant r.sender.val = 0) ∧
      (first.toNat < 4096) ∧ (first.toNat < s.evr.heartN) ∧ ((sfind s.evr.heart first.toNat).map (·.2) = some x)) ∧
    (∃ (r : Req) (h : ReqHead) (i : Nat) (s : State), (s.offers r 0x0B03 (· == []) h i) ∧ (s.reqTenant r.sender.val = 0) ∧
      (s.evr.planted = false)) :=
  ⟨⟨{ code := 3 }, runState, by decide⟩,
   ⟨4, {}, [], withEvr runState { queue := [(4, {})] }, by decide⟩,
   ⟨withEvr runState { overflow := true }, by decide⟩,
   ⟨{ withEvr runState { pfWindow := true } with tick := 24 }, by decide⟩,
   ⟨{ withEvr runState { frozen := true } with tick := 9600000 }, by decide⟩,
   ⟨{ runState with tick := 16000 }, by decide⟩,
   ⟨rq, 1, 1, hd 0x0B01 (pack [(1, 8), (1, 2)]) 64, 0, { seq := 1 }, withEvr (reqState 0 0x0B01 (pack [(1, 8), (1, 2)]) 64) { head := 1, sap := [(1, (0, { seq := 1 }))] }, by decide⟩,
   ⟨rq, 0, 1, hd 0x0B02 (pack [(0, 2), (1, 2)]) 64, 0, { seq := 1 }, withEvr (reqState 0 0x0B02 (pack [(0, 2), (1, 2)]) 64) { heartN := 1, heart := [(0, (0, { seq := 1 }))] }, by decide⟩,
   ⟨rq, hd 0x0B03 [] 0, 0, reqState 0 0x0B03 [] 0, by decide⟩⟩

/-- The hypotheses of each clause of DriveAndStoreEventsTakeEffect can be met. -/
theorem test_met_DriveAndStoreEventsTakeEffect :
    (∃ (drive : Fin 2) (cid : Nat) (ok : Bool) (fault : Option EngFault) (s : State), (ok = true) ∧ (fault = none) ∧
      ((s.hst.drive drive.val).wait = [])) ∧
    (∃ (drive : Fin 2) (cid : Nat) (ok : Bool) (fault : Option EngFault) (x : EngFault) (c : NvmeCmd) (s : State), (fault =
      some x) ∧ (sfind (s.hst.drive drive.val).cmds cid = some c) ∧ (c.failed = false) ∧ (c.attempts < 4)) ∧
    (∃ (drive : Fin 2) (cid : Nat) (c : NvmeCmd) (s : State), (sfind (s.hst.drive drive.val).cmds cid = some c) ∧ (c.failed =
      false) ∧ (c.attempts < 4) ∧ (c.issuedAt + secTicks 5 ≤ s.now)) ∧
    (∃ (drive : Fin 2) (cid : Nat) (c : NvmeCmd) (s : State), (sfind (s.hst.drive drive.val).cmds cid = some c) ∧ (c.failed =
      true) ∧ (c.failedAt + msTicks 100 ≤ s.now)) ∧
    (∃ (drive : Fin 2) (blocks : Nat) (suitable : Bool) (cache : Bool) (dsm : Bool) (serial : Nat) (s : State), (s.exyan =
      true) ∧ (s.su.seedling = false) ∧ (suitable = true)) ∧
    (∃ (s : State), (s.storeOn = true) ∧ (s.hst.ckptAt + secTicks 10 ≤ s.now)) ∧
    (∃ (d : Die) (ten : Tenant) (s : State), ((s.staging d.val ten).current.recs ≠ []) ∧ ((s.staging d.val ten).first +
      secTicks (s.hstDie d.val).flush ≤ s.now) ∧ ((s.drain ten ((s.staging d.val ten).full ++ [(s.staging d.val
      ten).current])).1 = [])) ∧
    (∃ (pos : Nat) (d : Nat) (n : Nat) (s : State), (s.hst.resync = some pos) ∧ (s.hst.replacedDrive = some d) ∧
      (s.hst.nextUsed pos = some n)) :=
  ⟨⟨0, 3, true, none, withHst runState { d0 := { cmds := [(3, {})] } }, by decide⟩,
   ⟨0, 3, true, some (.xlate 4 false 0), .xlate 4 false 0, {}, withHst runState { d0 := { cmds := [(3, {})] } }, by decide⟩,
   ⟨0, 3, {}, { withHst runState { d0 := { cmds := [(3, {})] } } with tick := 80000 }, by decide⟩,
   ⟨1, 3, { failed := true }, { withHst runState { d1 := { cmds := [(3, { failed := true })] } } with tick := 1600 }, by decide⟩,
   ⟨0, 1638400, true, true, false, 77, runState, by decide⟩,
   ⟨{ withHst runState hst1 with tick := 160000 }, by decide⟩,
   ⟨0, 2, { withHst runState { hst1 with staging := [(2, { current := { recs := [{}] } })] } with tick := 160000 }, by decide⟩,
   ⟨0, 1, 1, withHst runState { hst1 with mirror := true, resync := some 0, d1 := { ok := true, replaced := true } }, by decide⟩⟩

/-- The hypotheses of each clause of HistoryRequestsTakeEffect can be met. -/
theorem test_met_HistoryRequestsTakeEffect :
    (∃ (r : Req) (series : V24) (first : BitVec 64) (last : BitVec 64) (h : ReqHead) (i : Nat) (c : TrendCfg) (n : Nat) (j :
      Nat) (b : Block) (x : TrendRec) (s : State), (s.offers r 0x0A01 (· == pack [(series.toNat, 3), (first.toNat, 8),
      (last.toNat, 8)]) h i) ∧ (series.toNat < 2 ^ 19) ∧ (s.trendCfg? series.toNat = some c) ∧ (reaches (s.reqTenant
      r.sender.val) c.tenant = true) ∧ (s.trendBlocks c.tenant = [(n, j, b)]) ∧ (b.recs.find? (fun x => x.series ==
      series.toNat && (first.toNat ≤ x.tick && x.tick ≤ last.toNat)) = some x) ∧ (4096 ≤ h.rlen) ∧ ((s.readStored n j).1 =
      some b) ∧ (s.holdsKey c.tenant b = true)) ∧
    (∃ (r : Req) (series : V24) (first : BitVec 48) (last : BitVec 48) (h : ReqHead) (i : Nat) (c : TrendCfg) (n : Nat) (j :
      Nat) (b : Block) (x : TrendRec) (s : State), (s.offers r 0x0A02 (· == pack [(series.toNat, 3), (first.toNat, 6),
      (last.toNat, 6)]) h i) ∧ (series.toNat < 2 ^ 19) ∧ (s.trendCfg? series.toNat = some c) ∧ (reaches (s.reqTenant
      r.sender.val) c.tenant = true) ∧ (s.trendBlocks c.tenant = [(n, j, b)]) ∧ (b.timeOk = true) ∧ (b.recs.find? (fun x =>
      x.series == series.toNat && (first.toNat ≤ recMs b x && recMs b x ≤ last.toNat)) = some x) ∧ (4096 ≤ h.rlen) ∧
      ((s.readStored n j).1 = some b) ∧ (s.holdsKey c.tenant b = true)) ∧
    (∃ (r : Req) (ten : BitVec 16) (h : ReqHead) (i : Nat) (s : State), (s.offers r 0x0A03 (· == pack [(ten.toNat, 2)]) h i) ∧
      (ten.toNat ≤ 0xFFF) ∧ (reaches (s.reqTenant r.sender.val) (ten.setWidth 12) = true) ∧ (s.tenantTable.contains
      (ten.setWidth 12) = true)) ∧
    (∃ (r : Req) (h : ReqHead) (i : Nat) (s : State), (s.offers r 0x0A04 (· == []) h i) ∧ (s.reqTenant r.sender.val = 0)) ∧
    (∃ (r : Req) (h : ReqHead) (i : Nat) (s : State), (s.offers r 0x0A05 (· == []) h i) ∧ (s.reqTenant r.sender.val = 0) ∧
      (s.hst.replacedDrive.isSome = true) ∧ (s.hst.resync = none)) ∧
    (∃ (r : Req) (src : Byte) (seg : V24) (blk : BitVec 16) (count : BitVec 16) (h : ReqHead) (i : Nat) (g : Segment) (b :
      Block) (s : State), (s.offers r 0x0A06 (· == pack [(src.toNat, 1), (seg.toNat, 3), (blk.toNat, 2), (count.toNat, 2)]) h
      i) ∧ (seg.toNat < 2 ^ 20) ∧ (1 ≤ blk.toNat) ∧ (blk.toNat < 16384) ∧ (count = 1) ∧ (4096 ≤ h.rlen) ∧ (sfind s.hst.segs
      seg.toNat = some g) ∧ (g.kind = 1) ∧ (g.src = src) ∧ (reaches (s.reqTenant r.sender.val) g.tenant = true) ∧ (blk.toNat -
      1 < g.blocks.length) ∧ ((s.readStored seg.toNat (blk.toNat - 1)).1 = some b)) :=
  ⟨⟨rq, 4, 0, 200, hd 0x0A01 (pack [(4, 3), (0, 8), (200, 8)]) 4096, 0, { series := 4, tenant := 2 }, 1, 0, blk1, { series := 4, tick := 100, value := 7 }, readState 0x0A01 (pack [(4, 3), (0, 8), (200, 8)]), by decide⟩,
   ⟨rq, 4, 0, 200, hd 0x0A02 (pack [(4, 3), (0, 6), (200, 6)]) 4096, 0, { series := 4, tenant := 2 }, 1, 0, blk1, { series := 4, tick := 100, value := 7 }, readState 0x0A02 (pack [(4, 3), (0, 6), (200, 6)]), by decide⟩,
   ⟨rq, 2, hd 0x0A03 (pack [(2, 2)]) 4096, 0, readState 0x0A03 (pack [(2, 2)]), by decide⟩,
   ⟨rq, hd 0x0A04 [] 0, 0, reqState 0 0x0A04 [] 0, by decide⟩,
   ⟨rq, hd 0x0A05 [] 0, 0, withHst (reqState 0 0x0A05 [] 0) { mirror := true, d0 := { replaced := true } }, by decide⟩,
   ⟨rq, 5, 1, 1, 1, hd 0x0A06 (pack [(5, 1), (1, 3), (1, 2), (1, 2)]) 4096, 0, { kind := 1, src := 5, blocks := [{}] }, {}, withHst (reqState 0 0x0A06 (pack [(5, 1), (1, 3), (1, 2), (1, 2)]) 4096) { hst1 with segs := [(1, { kind := 1, src := 5, blocks := [{}] })] }, by decide⟩⟩

/-- The hypotheses of each clause of BranchTransmissionTakesEffect can be met. -/
theorem test_met_BranchTransmissionTakesEffect :
    (∃ (p : Port) (buffered : Bool) (s : State), (s.hasPort p.val = true) ∧ ((s.port p.val).running = true) ∧ ((s.port
      p.val).dormant = false) ∧ ((s.port p.val).mode = false) ∧ ((s.port p.val).tx = none) ∧ ((s.port p.val).pending = false)
      ∧ ((s.port p.val).cycleDue s.now = true) ∧ (buffered = true)) ∧
    (∃ (p : Port) (buffered : Bool) (s : State), (s.hasPort p.val = true) ∧ ((s.port p.val).running = true) ∧ ((s.port
      p.val).dormant = false) ∧ ((s.port p.val).mode = false) ∧ ((s.port p.val).pending = false) ∧ ((s.port p.val).cycleDue
      s.now = true) ∧ (buffered = false)) ∧
    (∃ (p : Port) (s : State), ((s.port p.val).running = true) ∧ ((s.port p.val).mode = false) ∧ ((s.port p.val).dormant =
      false) ∧ ((s.port p.val).entry + 1 < (s.port p.val).entries)) ∧
    (∃ (p : Port) (room : Nat) (at_ : Nat) (buf : Nat) (n : Nat) (f : TxFrame) (l : List TxFrame) (s : State), ((s.port
      p.val).running = true) ∧ ((s.port p.val).tx = none) ∧ ((s.port p.val).backoff = none) ∧ ((s.port p.val).train = none) ∧
      ((s.port p.val).dormant = false) ∧ ((s.port p.val).kind = .open) ∧ ((s.port p.val).gates.getLsbD n = true) ∧ (n < 8) ∧
      ((List.range 8).all (fun m => !(n < m) || ((s.port p.val).queue m).isEmpty) = true) ∧ ((s.port p.val).queue n = f :: l)
      ∧ (frameBits f.payload + 48 ≤ room) ∧ (min (s.port p.val).thr (payloadLen f.payload + 8) ≤ buf)) ∧
    (∃ (p : Port) (room : Nat) (at_ : Nat) (buf : Nat) (n : Nat) (f : TxFrame) (l : List TxFrame) (s : State), ((s.port
      p.val).running = true) ∧ ((s.port p.val).tx = none) ∧ ((s.port p.val).backoff = none) ∧ ((s.port p.val).train = none) ∧
      ((s.port p.val).dormant = false) ∧ ((s.port p.val).kind = .open) ∧ ((s.port p.val).gates.getLsbD n = true) ∧ (n < 8) ∧
      ((List.range 8).all (fun m => !(n < m) || ((s.port p.val).queue m).isEmpty) = true) ∧ ((s.port p.val).queue n = f :: l)
      ∧ (frameBits f.payload + 48 ≤ room) ∧ (buf < min (s.port p.val).thr (payloadLen f.payload + 8))) ∧
    (∃ (p : Port) (room : Nat) (at_ : Nat) (buf : Nat) (n : Nat) (f : TxFrame) (l : List TxFrame) (e : Nat × Nat) (c : Nat) (v
      : List V24) (s : State), ((s.port p.val).running = true) ∧ ((s.port p.val).tx = none) ∧ ((s.port p.val).backoff = none)
      ∧ ((s.port p.val).train = none) ∧ ((s.port p.val).dormant = false) ∧ ((s.port p.val).kind = .scheduled) ∧ ((s.port
      p.val).gates.getLsbD n = true) ∧ (n < 8) ∧ ((List.range 8).all (fun m => !(n < m) || ((s.port p.val).queue m).isEmpty) =
      true) ∧ ((s.port p.val).queue n = f :: l) ∧ ((s.port p.val).slotAt at_ = some e) ∧ (f.payload = .output c v) ∧
      (frameBits f.payload + 48 ≤ min room (e.1 + e.2 - at_)) ∧ (min (s.port p.val).thr (payloadLen f.payload + 8) ≤ buf)) ∧
    (∃ (p : Port) (f : TxFrame) (s : State), ((s.port p.val).tx = some f)) ∧
    (∃ (p : Port) (by_ : Option Uid) (bt : Nat) (f : TxFrame) (s : State), (by_ = none) ∧ ((s.port p.val).tx = some f) ∧ (bt ≤
      64) ∧ (isBeacon f.payload = false) ∧ (f.coll + 1 < 12)) ∧
    (∃ (p : Port) (by_ : Option Uid) (bt : Nat) (f : TxFrame) (s : State), (by_ = none) ∧ ((s.port p.val).tx = some f) ∧ (64 <
      bt)) ∧
    (∃ (p : Port) (by_ : Option Uid) (bt : Nat) (u : Uid) (n : Node) (s : State), (by_ = some u) ∧ (s.node? u = some n) ∧
      (n.sent.contends = true) ∧ (n.backoff = none) ∧ (bt ≤ 64) ∧ (n.coll + 1 < 12)) ∧
    (∃ (p : Port) (by_ : Option Uid) (bt : Nat) (u : Uid) (n : Node) (s : State), (by_ = some u) ∧ (s.node? u = some n) ∧
      (n.sent.contends = true) ∧ (n.backoff = none) ∧ (64 < bt ∨ 12 ≤ n.coll + 1)) ∧
    (∃ (p : Port) (by_ : Option Uid) (room : Nat) (at_ : Nat) (buf : Nat) (q : Nat) (b : Nat) (f : TxFrame) (l : List TxFrame)
      (s : State), (by_ = none) ∧ ((s.port p.val).running = true) ∧ ((s.port p.val).backoff = some (q, b)) ∧ ((s.port
      p.val).kind = .beacon) ∧ ((s.port p.val).queue q = f :: l) ∧ (f.held = false)) ∧
    (∃ (p : Port) (by_ : Option Uid) (room : Nat) (at_ : Nat) (buf : Nat) (n : Nat) (b : Nat) (f : TxFrame) (l : List TxFrame)
      (s : State), (by_ = none) ∧ ((s.port p.val).running = true) ∧ ((s.port p.val).tx = none) ∧ ((s.port p.val).train = none)
      ∧ ((s.port p.val).dormant = false) ∧ ((s.port p.val).backoff = some (n, b)) ∧ ((s.port p.val).kind = .open) ∧ ((s.port
      p.val).gates.getLsbD n = true) ∧ (n < 8) ∧ ((List.range 8).all (fun m => !(n < m) || ((s.port p.val).queue m).isEmpty) =
      true) ∧ ((s.port p.val).queue n = f :: l) ∧ (frameBits f.payload + 48 ≤ room) ∧ (min (s.port p.val).thr (payloadLen
      f.payload + 8) ≤ buf)) ∧
    (∃ (p : Port) (by_ : Option Uid) (room : Nat) (at_ : Nat) (buf : Nat) (u : Uid) (n : Node) (s : State), (by_ = some u) ∧
      (s.node? u = some n)) ∧
    (∃ (p : Port) (addr : Byte) (s : State), ((s.port p.val).tx = none) ∧ ((s.port p.val).running = true) ∧ ((s.port
      p.val).kind = .scheduled)) ∧
    (∃ (p : Port) (addr : Byte) (s : State), ((s.port p.val).tx = none) ∧ ((s.port p.val).running = true) ∧ ((s.port
      p.val).kind = .scheduled) ∧ ((s.port p.val).rollcallAt addr.toNat = true)) ∧
    (∃ (p : Port) (why : TxFail) (f : TxFrame) (s : State), ((s.port p.val).tx = some f) ∧ (why = .dry) ∧ (f.buf < payloadLen
      f.payload + 8)) ∧
    (∃ (p : Port) (why : TxFail) (f : TxFrame) (e : EngFault) (s : State), ((s.port p.val).tx = some f) ∧ (why = .access e)) :=
  ⟨⟨5, true, portState { en := true, running := true }, by decide⟩,
   ⟨5, false, portState { en := true, running := true }, by decide⟩,
   ⟨5, portState { en := true, running := true }, by decide⟩,
   ⟨5, 5000, 9000, 12, 0, { payload := .claim 1 64 1000 }, [], portState { en := true, running := true, entry := 2, queues := [(0, [{ payload := .claim 1 64 1000 }])] }, by decide⟩,
   ⟨5, 5000, 9000, 11, 0, { payload := .claim 1 64 1000 }, [], portState { en := true, running := true, entry := 2, queues := [(0, [{ payload := .claim 1 64 1000 }])] }, by decide⟩,
   ⟨5, 50000, 2100, 64, 0, { payload := .output 0 [5] }, [], (2000, 500), 0, [5], portState { en := true, running := true, entry := 1, gclA := [(1, ⟨100000, .scheduled, 1⟩)], slots0 := [(2000, 500)], queues := [(0, [{ payload := .output 0 [5] }])] }, by decide⟩,
   ⟨5, { payload := .claim 1 64 1000 }, portState { en := true, running := true, tx := some { payload := .claim 1 64 1000 } }, by decide⟩,
   ⟨5, none, 64, { payload := .claim 1 64 1000 }, portState { en := true, running := true, tx := some { payload := .claim 1 64 1000 } }, by decide⟩,
   ⟨5, none, 65, { payload := .claim 1 64 1000 }, portState { en := true, running := true, tx := some { payload := .claim 1 64 1000 } }, by decide⟩,
   ⟨5, some 77, 64, 77, { sent := .claim 77 1 [] }, nodeState { sent := .claim 77 1 [] }, by decide⟩,
   ⟨5, some 77, 65, 77, { sent := .claim 77 1 [] }, nodeState { sent := .claim 77 1 [] }, by decide⟩,
   ⟨5, none, 0, 0, 0, 0, 64, { payload := .claim 1 64 1000 }, [], portState { en := true, running := true, backoff := some (0, 64), queues := [(0, [{ payload := .claim 1 64 1000 }])] }, by decide⟩,
   ⟨5, none, 5000, 9000, 12, 0, 64, { payload := .claim 1 64 1000 }, [], portState { en := true, running := true, entry := 2, backoff := some (0, 64), queues := [(0, [{ payload := .claim 1 64 1000 }])] }, by decide⟩,
   ⟨5, some 77, 0, 0, 0, 77, { backoff := some 64 }, nodeState { backoff := some 64 }, by decide⟩,
   ⟨5, 7, portState { en := true, running := true, entry := 1 }, by decide⟩,
   ⟨5, 7, portState { en := true, running := true, entry := 1, rcNow := true }, by decide⟩,
   ⟨5, .dry, { payload := .claim 1 64 1000 }, portState { en := true, running := true, tx := some { payload := .claim 1 64 1000 } }, by decide⟩,
   ⟨5, .access (.xlate 4 false 0), { payload := .claim 1 64 1000 }, .xlate 4 false 0, portState { en := true, running := true, tx := some { payload := .claim 1 64 1000 } }, by decide⟩⟩

/-- The hypotheses of each clause of BranchReceptionTakesEffect can be met. -/
theorem test_met_BranchReceptionTakesEffect :
    (∃ (p : Port) (why : RxFail) (s : State), ((s.port p.val).running = true) ∧ (why = .crc)) ∧
    (∃ (p : Port) (addr : Byte) (first : Nat) (vals : List ChanVal) (v : ChanVal) (m : Nat) (d : Desc) (s : State), ((s.port
      p.val).running = true) ∧ ((s.nodeCfg? p.val addr.toNat).isSome = true) ∧ (vals = [v]) ∧ (first < 64) ∧ (((s.port
      p.val).node addr.toNat).state = .present) ∧ (s.chanPoint p.val addr.toNat first = some m) ∧ (s.desc? m = some d) ∧
      (d.fbk = false) ∧ ((s.cell m).forced = false)) ∧
    (∃ (p : Port) (addr : Byte) (seq : Byte) (ch : Byte) (v : ChanVal) (m : Nat) (d : Desc) (s : State), ((s.port
      p.val).running = true) ∧ ((s.nodeCfg? p.val addr.toNat).isSome = true) ∧ (s.chanPoint p.val addr.toNat ch.toNat = some
      m) ∧ (s.desc? m = some d) ∧ (d.fbk = false) ∧ ((s.cell m).forced = false)) ∧
    (∃ (p : Port) (addr : Byte) (seq : Byte) (op : Byte) (status : Byte) (data : List Byte) (c : PendCmd) (s : State),
      ((s.port p.val).running = true) ∧ (sfind (s.port p.val).cmds addr.toNat = some c) ∧ (c.seq = seq) ∧ (c.op = op)) ∧
    (∃ (p : Port) (uid : Uid) (cls : Byte) (chmap : List Byte) (n : NodeCfg) (s : State), ((s.port p.val).running = true) ∧
      (uid ≠ 0) ∧ (uid ≠ 0xFFFFFFFFFFFFFFFF) ∧ (s.cfg.nodes.find? (fun n => n.port == p.val && n.uid == uid) = some n)) ∧
    (∃ (p : Port) (addr : Byte) (uid : Uid) (cls : Byte) (stat : BitVec 3) (n : NodeCfg) (s : State), ((s.port p.val).running
      = true) ∧ (uidBad uid = false) ∧ (s.nodeCfg? p.val addr.toNat = some n) ∧ (n.uid = uid)) ∧
    (∃ (p : Port) (addr : Byte) (s : State), ((s.port p.val).running = true) ∧ ((s.port p.val).dormant = false) ∧ ((s.nodeCfg?
      p.val addr.toNat).isSome = true) ∧ (((s.port p.val).node addr.toNat).heard = false) ∧ (2 ≤ ((s.port p.val).node
      addr.toNat).empty) ∧ (((s.port p.val).node addr.toNat).state = .present)) ∧
    (∃ (p : Port) (addr : Byte) (s : State), ((s.port p.val).running = true) ∧ ((s.port p.val).dormant = false) ∧ (((s.port
      p.val).node addr.toNat).state = .missing) ∧ (((s.port p.val).node addr.toNat).markedAt + secTicks 60 ≤ s.now)) ∧
    (∃ (p : Port) (addr : Byte) (a : PendAssign) (s : State), (sfind (s.port p.val).assigns addr.toNat = some a) ∧ (a.sent <
      4) ∧ (((s.port p.val).cycnum - a.due).msb = false)) ∧
    (∃ (p : Port) (addr : Byte) (c : PendCmd) (s : State), (sfind (s.port p.val).cmds addr.toNat = some c) ∧ (c.sent < 4) ∧
      (c.sentAt + msTicks 100 ≤ s.now)) ∧
    (∃ (p : Port) (s : State), ((s.port p.val).running = true) ∧ (s.now < (s.port p.val).claimEnd) ∧ ((s.port p.val).claimAt ≤
      s.now)) :=
  ⟨⟨5, .crc, portState { en := true, running := true }, by decide⟩,
   ⟨5, 7, 2, [{ value := 9 }], { value := 9 }, 3, { bkind := 1, bref := 132359 }, { portState { en := true, running := true, nodes := [(7, { state := .present })] } with cfg := { nodes := [{ port := 5, addr := 7, uid := 77 }] }, pnt := { descs := [(3, { bkind := 1, bref := 132359 })] } }, by decide⟩,
   ⟨5, 7, 0, 2, { value := 9 }, 3, { bkind := 1, bref := 132359 }, { portState { en := true, running := true } with cfg := { nodes := [{ port := 5, addr := 7, uid := 77 }] }, pnt := { descs := [(3, { bkind := 1, bref := 132359 })] } }, by decide⟩,
   ⟨5, 7, 1, 3, 0, [], { seq := 1, op := 3 }, portState { en := true, running := true, cmds := [(7, { seq := 1, op := 3 })] }, by decide⟩,
   ⟨5, 77, 1, [], { port := 5, addr := 7, uid := 77 }, { portState { en := true, running := true } with cfg := { nodes := [{ port := 5, addr := 7, uid := 77 }] } }, by decide⟩,
   ⟨5, 7, 77, 1, 0, { port := 5, addr := 7, uid := 77 }, { portState { en := true, running := true } with cfg := { nodes := [{ port := 5, addr := 7, uid := 77 }] } }, by decide⟩,
   ⟨5, 7, { portState { en := true, running := true, nodes := [(7, { state := .present, empty := 2 })] } with cfg := { nodes := [{ port := 5, addr := 7, uid := 77 }] } }, by decide⟩,
   ⟨5, 7, { portState { en := true, running := true, nodes := [(7, { state := .missing })] } with tick := 960000 }, by decide⟩,
   ⟨5, 7, {}, portState { assigns := [(7, {})] }, by decide⟩,
   ⟨5, 7, {}, { portState { cmds := [(7, {})] } with tick := 1600 }, by decide⟩,
   ⟨5, portState { running := true, claimEnd := 9 }, by decide⟩⟩

/-- The hypotheses of each clause of DormancyAndLeafNodesTakeEffect can be met. -/
theorem test_met_DormancyAndLeafNodesTakeEffect :
    (∃ (p : Port) (s : State), ((s.port p.val).running = true) ∧ ((s.port p.val).dormant = false) ∧ ((s.port p.val).woke =
      false) ∧ ((s.port p.val).train = none) ∧ ((s.port p.val).dormEn = true) ∧ (inSchedule (s.port p.val).dormStart (s.port
      p.val).dormStop s.localMinute = true) ∧ ((s.port p.val).nextCycle ≤ s.now)) ∧
    (∃ (p : Port) (s : State), ((s.port p.val).running = true) ∧ ((s.port p.val).dormant = true) ∧ ((s.port p.val).nextCycle ≤
      s.now)) ∧
    (∃ (p : Port) (s : State), ((s.port p.val).running = true) ∧ ((s.port p.val).woke = true) ∧ ((s.port p.val).train = none)) ∧
    (∃ (p : Port) (s : State), ((s.port p.val).dormant = true)) ∧
    (∃ (p : Port) (s : State), ((s.port p.val).dormant = true) ∧ ((s.port p.val).dormEn = false)) ∧
    (∃ (p : Port) (uid : Uid) (cls : Byte) (chmap : List Byte) (factory : Bool) (fault : Bool) (key : Option (BitVec 256))
      (timer : Nat) (n : Node) (q : Plan) (s : State), (s.node? uid = some n) ∧ (n.plan = some q) ∧ (factory = false)) ∧
    (∃ (p : Port) (uid : Uid) (cls : Byte) (chmap : List Byte) (factory : Bool) (fault : Bool) (key : Option (BitVec 256))
      (timer : Nat) (s : State), (factory = true)) ∧
    (∃ (p : Port) (uid : Uid) (cls : Byte) (chmap : List Byte) (factory : Bool) (fault : Bool) (key : Option (BitVec 256))
      (timer : Nat) (s : State), (s.node? uid = none)) ∧
    (∃ (uid : Uid) (nslot : Byte) (slotbt : Nat) (claimOpen : Bool) (timer : Nat) (n : Node) (s : State), (s.node? uid = some
      n) ∧ (n.mode = .unaddr) ∧ (claimOpen = true) ∧ (0 < nslot.toNat)) ∧
    (∃ (uid : Uid) (timer : Nat) (n : Node) (s : State), (s.node? uid = some n) ∧ (n.claimR.isSome = true) ∧ (n.claimAt ≤
      timer)) ∧
    (∃ (uid : Uid) (dst : Byte) (target : Uid) (plan : Plan) (timer : Nat) (n : Node) (s : State), (s.node? uid = some n) ∧
      (target = uid) ∧ (dst = 0xFF) ∧ (n.mode = .unaddr) ∧ (1 ≤ plan.addr.toNat) ∧ (plan.addr.toNat ≤ 250)) ∧
    (∃ (uid : Uid) (dst : Byte) (target : Uid) (plan : Plan) (timer : Nat) (n : Node) (q : Plan) (s : State), (s.node? uid =
      some n) ∧ (target = uid) ∧ (n.hears = true) ∧ (n.plan = some q) ∧ (dst = q.addr) ∧ (plan.addr = 0)) ∧
    (∃ (uid : Uid) (b : Beacon) (timer : Nat) (n : Node) (q : Plan) (s : State), (s.node? uid = some n) ∧ (n.plan = some q) ∧
      (n.mode = .sync) ∧ (b.dormant = false) ∧ (b.subs = []) ∧ (n.offlineQ = [])) ∧
    (∃ (uid : Uid) (first : Nat) (vals : List ChanVal) (n : Node) (q : Plan) (s : State), (s.node? uid = some n) ∧ (n.plan =
      some q) ∧ (n.mode = .active) ∧ (n.heard = true) ∧ (n.cyc8.toNat % q.every = q.phase) ∧ (n.rollDue = false)) ∧
    (∃ (uid : Uid) (first : Nat) (vals : List ChanVal) (n : Node) (q : Plan) (s : State), (s.node? uid = some n) ∧ (n.plan =
      some q) ∧ (n.mode = .active) ∧ (n.heard = true) ∧ (n.cyc8.toNat % q.every = q.phase) ∧ (n.rollDue = true)) ∧
    (∃ (uid : Uid) (dst : Byte) (first : Nat) (vals : List V24) (n : Node) (v : V24) (q : Plan) (s : State), (s.node? uid =
      some n) ∧ (n.mode = .active) ∧ (n.plan = some q) ∧ (dst = q.addr ∨ dst = 0xFF) ∧ (vals = [v]) ∧ (first < 64) ∧
      (n.isOutput first = true)) ∧
    (∃ (uid : Uid) (timer : Nat) (n : Node) (q : Plan) (s : State), (s.node? uid = some n) ∧ (n.mode = .active) ∧ (n.plan =
      some q) ∧ (1000000 * q.fbt ≤ n.since n.fbFrom timer)) ∧
    (∃ (uid : Uid) (timer : Nat) (n : Node) (s : State), (s.node? uid = some n) ∧ (n.mode = .dsleep) ∧ (n.predicted ≤ n.since
      n.beaconAt timer + n.guard)) ∧
    (∃ (uid : Uid) (timer : Nat) (n : Node) (s : State), (s.node? uid = some n) ∧ (n.mode = .dlisten) ∧ (n.predicted + n.guard
      ≤ n.since n.beaconAt timer)) ∧
    (∃ (uid : Uid) (timer : Nat) (n : Node) (s : State), (s.node? uid = some n) ∧ (n.mode = .seek) ∧ (15000 * n.nextMs ≤
      n.since n.seekAt timer)) ∧
    (∃ (uid : Uid) (carrier : Bool) (timer : Nat) (n : Node) (s : State), (s.node? uid = some n) ∧ (n.mode = .fallback) ∧
      (n.sniff = true) ∧ (n.listening = false) ∧ (35000 ≤ n.since n.sniffAt timer)) ∧
    (∃ (uid : Uid) (carrier : Bool) (timer : Nat) (n : Node) (s : State), (s.node? uid = some n) ∧ (n.mode = .fallback) ∧
      (n.sniff = true) ∧ (n.listening = true) ∧ (n.since n.sniffAt timer < 20000000)) ∧
    (∃ (uid : Uid) (ch : BitVec 6) (timer : Nat) (n : Node) (s : State), (s.node? uid = some n) ∧ (n.mode = .dsleep) ∧
      (n.wakeMask.getLsbD ch.toNat = true)) :=
  ⟨⟨5, portState { en := true, running := true, dormEn := true, dormStop := 9 }, by decide⟩,
   ⟨5, portState { en := true, running := true, dormant := true }, by decide⟩,
   ⟨5, portState { running := true, woke := true }, by decide⟩,
   ⟨5, portState { dormant := true }, by decide⟩,
   ⟨5, portState { dormant := true }, by decide⟩,
   ⟨5, 77, 1, [], false, true, none, 9, { plan := some {} }, {}, nodeState { plan := some {} }, by decide⟩,
   ⟨5, 77, 1, [], true, false, none, 9, nodeState { plan := some {} }, by decide⟩,
   ⟨5, 78, 1, [], false, false, none, 9, nodeState {}, by decide⟩,
   ⟨77, 64, 1000, true, 9, {}, nodeState {}, by decide⟩,
   ⟨77, 9, { claimR := some 4, claimAt := 9 }, nodeState { claimR := some 4, claimAt := 9 }, by decide⟩,
   ⟨77, 0xFF, 77, { addr := 7 }, 9, {}, nodeState {}, by decide⟩,
   ⟨77, 7, 77, {}, 9, { mode := .active, plan := some { addr := 7 } }, { addr := 7 }, nodeState { mode := .active, plan := some { addr := 7 } }, by decide⟩,
   ⟨77, {}, 9, { plan := some {}, mode := .sync }, {}, nodeState { plan := some {}, mode := .sync }, by decide⟩,
   ⟨77, 0, [{ value := 9 }], { plan := some {}, mode := .active, heard := true }, {}, nodeState { plan := some {}, mode := .active, heard := true }, by decide⟩,
   ⟨77, 0, [], { plan := some {}, mode := .active, heard := true, rollDue := true }, {}, nodeState { plan := some {}, mode := .active, heard := true, rollDue := true }, by decide⟩,
   ⟨77, 0, 0, [5], { plan := some {}, mode := .active, chmap := [1] }, 5, {}, nodeState { plan := some {}, mode := .active, chmap := [1] }, by decide⟩,
   ⟨77, 10000000, { mode := .active, plan := some { fbt := 10 } }, { fbt := 10 }, nodeState { mode := .active, plan := some { fbt := 10 } }, by decide⟩,
   ⟨77, 0, { mode := .dsleep }, nodeState { mode := .dsleep }, by decide⟩,
   ⟨77, 500, { mode := .dlisten }, nodeState { mode := .dlisten }, by decide⟩,
   ⟨77, 15000, { mode := .seek, nextMs := 1 }, nodeState { mode := .seek, nextMs := 1 }, by decide⟩,
   ⟨77, true, 35000, { mode := .fallback, sniff := true }, nodeState { mode := .fallback, sniff := true }, by decide⟩,
   ⟨77, false, 35000, { mode := .fallback, sniff := true, listening := true }, nodeState { mode := .fallback, sniff := true, listening := true }, by decide⟩,
   ⟨77, 0, 9, { mode := .dsleep, wakeMask := 1 }, nodeState { mode := .dsleep, wakeMask := 1 }, by decide⟩⟩

/-- The hypotheses of each clause of NodeCommandsTakeEffect can be met. -/
theorem test_met_NodeCommandsTakeEffect :
    (∃ (uid : Uid) (dst : Byte) (seq : Byte) (n : Node) (s : State), (s.node? uid = some n) ∧ (n.plan.isSome = true) ∧ (some
      dst = n.addr ∨ dst = 0xFF) ∧ (n.hears = true) ∧ (n.lastSeq ≠ some seq)) ∧
    (∃ (uid : Uid) (dst : Byte) (seq : Byte) (fbt : Nat) (entries : List (Nat × V24)) (n : Node) (q : Plan) (s : State),
      (s.node? uid = some n) ∧ (n.plan = some q) ∧ (dst = q.addr ∨ dst = 0xFF) ∧ (n.hears = true) ∧ (n.lastSeq ≠ some seq) ∧
      (1 ≤ fbt) ∧ (fbt ≤ 600) ∧ (entries.all (fun e => n.isOutput e.1) = true)) ∧
    (∃ (uid : Uid) (dst : Byte) (seq : Byte) (seconds : Byte) (n : Node) (s : State), (s.node? uid = some n) ∧ (n.plan.isSome
      = true) ∧ (some dst = n.addr ∨ dst = 0xFF) ∧ (n.hears = true) ∧ (n.lastSeq ≠ some seq)) ∧
    (∃ (uid : Uid) (dst : Byte) (seq : Byte) (mask : BitVec 64) (n : Node) (s : State), (s.node? uid = some n) ∧
      (n.plan.isSome = true) ∧ (some dst = n.addr ∨ dst = 0xFF) ∧ (n.hears = true) ∧ (n.lastSeq ≠ some seq)) ∧
    (∃ (uid : Uid) (dst : Byte) (seq : Byte) (target : Uid) (n : Node) (s : State), (s.node? uid = some n) ∧ (n.plan.isSome =
      true) ∧ (some dst = n.addr ∨ dst = 0xFF) ∧ (n.hears = true) ∧ (n.lastSeq ≠ some seq) ∧ (target = uid)) ∧
    (∃ (uid : Uid) (dst : Byte) (seq : Byte) (ramp : Nat) (n : Node) (s : State), (s.node? uid = some n) ∧ (n.plan.isSome =
      true) ∧ (some dst = n.addr ∨ dst = 0xFF) ∧ (n.hears = true) ∧ (n.lastSeq ≠ some seq) ∧ (n.cls = 4) ∧ (1 ≤ ramp) ∧ (ramp
      ≤ 6000)) :=
  ⟨⟨77, 0xFF, 1, { plan := some {}, mode := .active }, nodeState { plan := some {}, mode := .active }, by decide⟩,
   ⟨77, 0xFF, 1, 600, [(0, 5)], { plan := some {}, mode := .active, chmap := [1] }, {}, nodeState { plan := some {}, mode := .active, chmap := [1] }, by decide⟩,
   ⟨77, 0xFF, 1, 9, { plan := some {}, mode := .active }, nodeState { plan := some {}, mode := .active }, by decide⟩,
   ⟨77, 0xFF, 1, 9, { plan := some {}, mode := .active }, nodeState { plan := some {}, mode := .active }, by decide⟩,
   ⟨77, 0xFF, 1, 77, { plan := some {}, mode := .active }, nodeState { plan := some {}, mode := .active }, by decide⟩,
   ⟨77, 0xFF, 1, 6000, { cls := 4, plan := some {}, mode := .active }, nodeState { cls := 4, plan := some {}, mode := .active }, by decide⟩⟩

/-- The hypotheses of each clause of RegisterAccessesTakeEffect can be met. -/
theorem test_met_RegisterAccessesTakeEffect :
    (∃ (bar2 : Bool) (off : BitVec 28) (wide : Bool) (s : State), (bar2 = false) ∧ (off = 0x5000) ∧ (wide = true)) ∧
    (∃ (bar2 : Bool) (off : BitVec 28) (wide : Bool) (s : State), (bar2 = false) ∧ (off = 0x5000) ∧ (wide = false)) ∧
    (∃ (off : BitVec 28) (d : Nat) (k : Nat) (s : State), (s.host.mbxRdy = true) ∧ (s.winTenant = some 0) ∧ (d < s.nDies) ∧ (k
      < 16) ∧ (off = BitVec.ofNat 28 (0x2000000 * d + 0x30100 + 4 * k))) ∧
    (∃ (bar2 : Bool) (off : BitVec 28) (v : Word) (s : State), (bar2 = false) ∧ (off = 0x3000)) ∧
    (∃ (bar2 : Bool) (off : BitVec 28) (v : Word) (d : Nat) (s : State), (s.host.mbxRdy = true) ∧ (s.winTenant = some 0) ∧ (d
      < s.nDies) ∧ (bar2 = true) ∧ (off = BitVec.ofNat 28 (0x2000000 * d + 0x400100))) ∧
    (∃ (off : BitVec 28) (v : Word) (d : Nat) (s : State), (s.host.mbxRdy = true) ∧ (s.winTenant = some 0) ∧ (d < s.nDies) ∧
      (off = BitVec.ofNat 28 (0x2000000 * d + 0x30048))) ∧
    (∃ (bar2 : Bool) (off : BitVec 28) (size : Nat) (v : BitVec 64) (n : Nat) (s : State), (bar2 = false) ∧ (size = 4) ∧ (n <
      16) ∧ (off = BitVec.ofNat 28 (0x4004 + 32 * n))) ∧
    (∃ (bar2 : Bool) (off : BitVec 28) (size : Nat) (v : BitVec 64) (s : State), (size ≠ 4) ∧ (size ≠ 8)) ∧
    (∃ (bar2 : Bool) (off : BitVec 28) (size : Nat) (v : BitVec 64) (s : State), (bar2 = true) ∧ (size = 4) ∧ (off.toNat % 4 =
      0) ∧ (s.host.mbxRdy = true) ∧ (s.host.win = none)) ∧
    (∃ (k : SlotNo) (irq : Bool) (s : State), ((s.sender k.val).en = false) ∧ ((s.sender k.val).ringsOk = true)) ∧
    (∃ (k : SlotNo) (irq : Bool) (s : State), ((s.sender k.val).en = false) ∧ ((s.sender k.val).ringsOk = false)) ∧
    (∃ (k : SlotNo) (irq : Bool) (s : State), ((s.sender k.val).en = true)) ∧
    (∃ (k : SlotNo) (s : State), ((s.sender k.val).en = true) ∧ ((s.sender k.val).irqEn = false)) ∧
    (∃ (k : SlotNo) (v : Word) (s : State), ((s.sender k.val).en = true) ∧ (v.toNat < 2 ^ (s.sender k.val).rqLog.toNat) ∧
      ((s.sender k.val).rqLog.toNat ≤ 12)) ∧
    (∃ (k : SlotNo) (v : Word) (s : State), ((s.sender k.val).en = true) ∧ (2 ^ (s.sender k.val).rqLog.toNat ≤ v.toNat)) ∧
    (∃ (k : SlotNo) (v : Word) (s : State), ((s.sender k.val).en = true) ∧ ((s.sender k.val).irqEn = false) ∧ (v.toNat < 2 ^
      (s.sender k.val).cqLog.toNat) ∧ ((s.sender k.val).cqLog.toNat ≤ 12)) ∧
    (∃ (n : BitVec 5) (v : Word) (s : State), (n.toNat < 16) ∧ ((s.wmk n.toNat).en = true) ∧ (v.getLsbD 1 = true) ∧ (v.getLsbD
      2 = true)) ∧
    (∃ (n : BitVec 5) (s : State), (n.toNat < 16) ∧ ((s.wmk n.toNat).en = false)) :=
  ⟨⟨false, 0x5000, true, { runState with tick := 0x500000009 }, by decide⟩,
   ⟨false, 0x5000, false, { runState with tick := 0x500000009 }, by decide⟩,
   ⟨0x2030104, 1, 1, winState { regs := [(1, { chgmap := [(1, 5)] })] }, by decide⟩,
   ⟨false, 0x3000, 0x100, { runState with host := { runState.host with intWmk := true } }, by decide⟩,
   ⟨true, 0x2400100, 1, 1, winState {}, by decide⟩,
   ⟨0x2030048, 0, 1, winState { regs := [(1, { refused := 7 })] }, by decide⟩,
   ⟨false, 0x4024, 4, 9, 1, runState, by decide⟩,
   ⟨true, 0x4024, 2, 9, runState, by decide⟩,
   ⟨true, 0x30004, 4, 9, { runState with host := { runState.host with mbxRdy := true } }, by decide⟩,
   ⟨3, true, runState, by decide⟩,
   ⟨3, true, { runState with host := { runState.host with slots := [(3, { rqLog := 3 })] } }, by decide⟩,
   ⟨3, true, { runState with host := { runState.host with slots := [(3, { en := true, opened := true })] } }, by decide⟩,
   ⟨3, { runState with host := { runState.host with slots := [(3, { en := true, opened := true })] } }, by decide⟩,
   ⟨3, 15, { runState with host := { runState.host with slots := [(3, { en := true, opened := true })] } }, by decide⟩,
   ⟨3, 16, { runState with host := { runState.host with slots := [(3, { en := true, opened := true })] } }, by decide⟩,
   ⟨3, 15, { runState with host := { runState.host with slots := [(3, { en := true, opened := true })] } }, by decide⟩,
   ⟨1, 6, { runState with host := { runState.host with wmks := [(1, { en := true, raised := true })] } }, by decide⟩,
   ⟨3, runState, by decide⟩⟩

/-- The hypotheses of each clause of LogicControlRegistersTakeEffect can be met. -/
theorem test_met_LogicControlRegistersTakeEffect :
    (∃ (d : Die) (i : LogicImage) (s : State), (s.host.mbxRdy = true) ∧ (s.winTenant = some 0) ∧ (d.val < s.nDies) ∧ (s.dieUp
      d.val = true) ∧ ((s.die d.val).mode = .stop) ∧ ((s.die d.val).image = some i)) ∧
    (∃ (d : Die) (i : LogicImage) (r : RetainSlot) (s : State), (s.host.mbxRdy = true) ∧ (s.winTenant = some 0) ∧ (d.val <
      s.nDies) ∧ (s.dieUp d.val = true) ∧ ((s.die d.val).mode = .stop) ∧ ((s.die d.val).image = some i) ∧ ((s.die
      d.val).warmSlot i.retainId = some r)) ∧
    (∃ (d : Die) (s : State), (s.host.mbxRdy = true) ∧ (s.winTenant = some 0) ∧ (d.val < s.nDies) ∧ ((s.die d.val).mode =
      .run) ∧ ((s.die d.val).inScan = true)) ∧
    (∃ (d : Die) (s : State), (s.host.mbxRdy = true) ∧ (s.winTenant = some 0) ∧ (d.val < s.nDies) ∧ ((s.die d.val).mode =
      .run) ∧ ((s.die d.val).inScan = false)) ∧
    (∃ (d : Die) (s : State), (s.host.mbxRdy = true) ∧ (s.winTenant = some 0) ∧ (d.val < s.nDies) ∧ ((s.die d.val).mode =
      .run) ∧ ((s.die d.val).holding = none) ∧ ((List.range 4).all (fun c => !(s.core d.val c).tw) = true)) ∧
    (∃ (d : Die) (s : State), (s.host.mbxRdy = true) ∧ (s.winTenant = some 0) ∧ (d.val < s.nDies) ∧ ((s.die d.val).mode =
      .run) ∧ ((s.die d.val).holding = none) ∧ ((List.range 4).all (fun c => !(s.core d.val c).tw) = false)) ∧
    (∃ (d : Die) (c : CoreNo) (k : Nat) (s : State), (s.host.mbxRdy = true) ∧ (s.winTenant = some 0) ∧ (d.val < s.nDies) ∧
      ((s.die d.val).mode = .hold) ∧ ((s.die d.val).fault = false) ∧ ((s.core d.val c.val).stepping = false) ∧ ((s.core d.val
      c.val).task = some k)) ∧
    (∃ (d : Die) (s : State), (s.host.mbxRdy = true) ∧ (s.winTenant = some 0) ∧ (d.val < s.nDies) ∧ ((s.die d.val).mode =
      .hold) ∧ ((s.die d.val).fault = false)) ∧
    (∃ (d : Die) (n : LoopNo) (reset : Bool) (c : LoopCfg) (s : State), (s.host.mbxRdy = true) ∧ (s.winTenant = some 0) ∧
      (d.val < s.nDies) ∧ ((s.loop d.val n.val).cfg = some c) ∧ ((s.loop d.val n.val).pending = false) ∧ (swapErrOf (s.loop
      d.val n.val).inactive (loadOf (s.dieLoops d.val) fun c => if c.slot = n.val then (s.loop d.val
      n.val).inactive.nsec.toNat else (s.loop d.val c.slot).active.nsec.toNat) = 0)) ∧
    (∃ (d : Die) (n : LoopNo) (c : LoopCfg) (s : State), (s.host.mbxRdy = true) ∧ (s.winTenant = some 0) ∧ (d.val < s.nDies) ∧
      ((s.loop d.val n.val).cfg = some c)) ∧
    (∃ (d : Die) (u : UnitNo) (v : Word) (c : LoopCfg) (s : State), (s.host.mbxRdy = true) ∧ (s.winTenant = some 0) ∧ (d.val <
      s.nDies) ∧ ((s.unit d.val u.val).active = false) ∧ (((s.unit d.val u.val).setCtrl (v ||| 1).toNat).rangesOk = true) ∧
      ((s.loop d.val (s.unit d.val u.val).slot).cfg = some c) ∧ (c.prot = false) ∧ (s.unitOf d.val (s.unit d.val u.val).slot
      (fun y => y.injEn && (y.injOn || y.starting)) = none)) ∧
    (∃ (d : Die) (u : UnitNo) (s : State), (s.host.mbxRdy = true) ∧ (s.winTenant = some 0) ∧ (d.val < s.nDies) ∧ ((s.unit
      d.val u.val).active = true)) :=
  ⟨⟨1, {}, { winState {} with logic := [(1, { image := some {} })] }, by decide⟩,
   ⟨1, {}, { good := true }, { winState {} with logic := [(1, { image := some {}, slotA := { good := true } })] }, by decide⟩,
   ⟨1, { winState {} with logic := [(1, { image := some {}, mode := .run, inScan := true })] }, by decide⟩,
   ⟨1, { winState {} with logic := [(1, { image := some {}, mode := .run })] }, by decide⟩,
   ⟨1, { winState {} with logic := [(1, { image := some {}, mode := .run })] }, by decide⟩,
   ⟨1, { winState {} with logic := [(1, { image := some {}, mode := .run })], cores := [(6, { tw := true, task := some 0 })] }, by decide⟩,
   ⟨1, 3, 2, { winState {} with logic := [(1, { image := some {}, mode := .hold })], cores := [(7, { task := some 2 })] }, by decide⟩,
   ⟨1, { winState {} with logic := [(1, { image := some {}, mode := .hold })] }, by decide⟩,
   ⟨1, 9, true, {}, { winState {} with loops := [(8201, { cfg := some {}, bankB := { nsec := 1 } })] }, by decide⟩,
   ⟨1, 9, {}, { winState {} with loops := [(8201, { cfg := some {}, sat := true })] }, by decide⟩,
   ⟨1, 3, 0, {}, { winState {} with loops := [(8192, { cfg := some {} })] }, by decide⟩,
   ⟨1, 3, { winState {} with loopDies := [(1, { units := [(3, { active := true })] })] }, by decide⟩⟩

/-- The hypotheses of each clause of PortAndFieldRegistersTakeEffect can be met. -/
theorem test_met_PortAndFieldRegistersTakeEffect :
    (∃ (p : Port) (v : Word) (s : State), (s.host.mbxRdy = true) ∧ (s.winTenant = some 0) ∧ (portDie p.val < s.nDies) ∧
      ((s.port p.val).en = false) ∧ (v.getLsbD 0 = true)) ∧
    (∃ (p : Port) (v : Word) (s : State), (s.host.mbxRdy = true) ∧ (s.winTenant = some 0) ∧ (portDie p.val < s.nDies) ∧
      ((s.port p.val).en = true) ∧ (v.getLsbD 0 = false)) ∧
    (∃ (p : Port) (x : BrPort) (s : State), (s.host.mbxRdy = true) ∧ (s.winTenant = some 0) ∧ (portDie p.val < s.nDies) ∧
      (s.port p.val = x) ∧ (gclErrOf (if x.active then x.cycleA else x.cycleB) (if x.active then x.entriesA else x.entriesB)
      (gclList (if x.active then x.gclA else x.gclB) (if x.active then x.entriesA else x.entriesB)) = 0)) ∧
    (∃ (p : Port) (x : BrPort) (e : Nat) (s : State), (s.host.mbxRdy = true) ∧ (s.winTenant = some 0) ∧ (portDie p.val <
      s.nDies) ∧ (s.port p.val = x) ∧ (gclErrOf (if x.active then x.cycleA else x.cycleB) (if x.active then x.entriesA else
      x.entriesB) (gclList (if x.active then x.gclA else x.gclB) (if x.active then x.entriesA else x.entriesB)) = e) ∧ (e ≠
      0)) ∧
    (∃ (t : TrunkPort) (v : Word) (s : State), (s.host.mbxRdy = true) ∧ (s.winTenant = some 0) ∧ ((s.tport t).en = false) ∧
      (v.getLsbD 0 = true) ∧ (v.getLsbD 2 = false)) ∧
    (∃ (t : TrunkPort) (v : Word) (s : State), (s.host.mbxRdy = true) ∧ (s.winTenant = some 0) ∧ (v.getLsbD 0 = false) ∧
      (v.getLsbD 2 = false)) ∧
    (∃ (t : TrunkPort) (x : TrkPort) (s : State), (s.host.mbxRdy = true) ∧ (s.winTenant = some 0) ∧ (s.tport t = x) ∧
      (trkGclErr (if x.active then x.nA else x.nB) (trkGclList (if x.active then x.gclA else x.gclB) (if x.active then x.nA
      else x.nB)) = 0)) ∧
    (∃ (t : TrunkPort) (x : TrkPort) (e : Nat) (s : State), (s.host.mbxRdy = true) ∧ (s.winTenant = some 0) ∧ (s.tport t = x)
      ∧ (trkGclErr (if x.active then x.nA else x.nB) (trkGclList (if x.active then x.gclA else x.gclB) (if x.active then x.nA
      else x.nB)) = e) ∧ (e ≠ 0)) ∧
    (∃ (s : State), (s.host.mbxRdy = true) ∧ (s.winTenant = some 0) ∧ (s.fio.linkUp = true) ∧ (s.fio.configured = true) ∧
      (s.fio.safe = true)) ∧
    (∃ (c : Nat) (s : State), (s.host.mbxRdy = true) ∧ (s.winTenant = some 0) ∧ (s.fio.configured = true) ∧ (s.stNext 0 = some
      c)) ∧
    (∃ (s : State), (s.host.mbxRdy = true) ∧ (s.winTenant = some 0)) ∧
    (∃ (v : Word) (s : State), (s.host.mbxRdy = true) ∧ (s.winTenant = some 0) ∧ (v.toNat < 64) ∧ ((s.chan v.toNat).latched =
      true) ∧ (s.motionOwns v.toNat = false)) ∧
    (∃ (m : MotNo) (c : MotCfg) (x : Motion) (s : State), (s.host.mbxRdy = true) ∧ (s.winTenant = some 0) ∧ (s.motCfg? m.val =
      some c) ∧ (s.fio.safe = false) ∧ ((s.group 3).missing = false) ∧ ((s.chan (legCh m.val true)).on = false) ∧ (s.mot m.val
      = x) ∧ (x.fault = 0) ∧ (x.state = .idle) ∧ (x.dtPend = false) ∧ (s.limitOn m.val false = false)) ∧
    (∃ (m : MotNo) (c : MotCfg) (x : Motion) (s : State), (s.host.mbxRdy = true) ∧ (s.winTenant = some 0) ∧ (s.motCfg? m.val =
      some c) ∧ (s.fio.safe = false) ∧ ((s.group 3).missing = false) ∧ ((s.chan (legCh m.val false)).on = false) ∧ (s.mot
      m.val = x) ∧ (x.fault = 0) ∧ (x.state = .idle) ∧ (x.dtPend = false) ∧ (s.limitOn m.val true = false)) ∧
    (∃ (m : MotNo) (c : MotCfg) (x : Motion) (h : Bool) (s : State), (s.host.mbxRdy = true) ∧ (s.winTenant = some 0) ∧
      (s.motCfg? m.val = some c) ∧ (c.pulse = true) ∧ (s.fio.safe = false) ∧ ((s.group 3).missing = false) ∧ ((s.chan (legCh
      m.val (!h))).on = false) ∧ (s.mot m.val = x) ∧ (x.homed = true) ∧ (x.fault = 0) ∧ (x.state = .idle) ∧ (x.dtPend = false)
      ∧ (decide (x.target.toInt < x.pos.toInt) = h) ∧ (s.limitOn m.val h = false) ∧ ((x.learned h : Int) < (if h then
      x.pos.toInt - x.target.toInt else x.target.toInt - x.pos.toInt))) ∧
    (∃ (m : MotNo) (x : Motion) (s : State), (s.host.mbxRdy = true) ∧ (s.winTenant = some 0) ∧ (s.mot m.val = x) ∧ (x.state =
      .far)) ∧
    (∃ (m : MotNo) (c : MotCfg) (x : Motion) (s : State), (s.host.mbxRdy = true) ∧ (s.winTenant = some 0) ∧ (s.motCfg? m.val =
      some c) ∧ (s.fio.safe = false) ∧ ((s.group 3).missing = false) ∧ ((s.chan (legCh m.val false)).on = false) ∧ (s.mot
      m.val = x) ∧ (x.fault = 0) ∧ (x.state = .idle) ∧ (x.dtPend = false) ∧ (s.limitOn m.val true = false)) ∧
    (∃ (m : MotNo) (c : MotCfg) (x : Motion) (s : State), (s.host.mbxRdy = true) ∧ (s.winTenant = some 0) ∧ (s.motCfg? m.val =
      some c) ∧ (s.fio.safe = false) ∧ ((s.group 3).missing = false) ∧ (s.mot m.val = x) ∧ (x.fault = 0) ∧ (x.state = .idle) ∧
      (s.limitOn m.val true = true)) ∧
    (∃ (m : MotNo) (s : State), (s.host.mbxRdy = true) ∧ (s.winTenant = some 0) ∧ ((s.mot m.val).state = .fault)) ∧
    (∃ (m : MotNo) (s : State), (s.host.mbxRdy = true) ∧ (s.winTenant = some 0)) ∧
    (∃ (s : State), (s.host.mbxRdy = true) ∧ (s.winTenant = some 0)) ∧
    (∃ (s : State), (s.host.mbxRdy = true) ∧ (s.winTenant = some 0)) :=
  ⟨⟨21, 1, winState {}, by decide⟩,
   ⟨21, 0, { winState {} with ports := [(21, { en := true, running := true })] }, by decide⟩,
   ⟨21, { active := true }, { winState {} with ports := [(21, { active := true })] }, by decide⟩,
   ⟨21, { cycleB := 1001 }, 4, { winState {} with ports := [(21, { cycleB := 1001 })] }, by decide⟩,
   ⟨true, 0x63, winState {}, by decide⟩,
   ⟨false, 2, winState {}, by decide⟩,
   ⟨true, (winState {}).tport true, winState {}, by decide⟩,
   ⟨false, { nB := 0 }, 4, { winState {} with trk := { runState.trk with a := { nB := 0 } } }, by decide⟩,
   ⟨{ winState {} with fio := { linkUp := true, configured := true, safe := true, cause := 1 } }, by decide⟩,
   ⟨4, { winState {} with fio := { configured := true }, cfg := { chans := [{ ch := 4, stEn := true }] } }, by decide⟩,
   ⟨{ winState {} with fio := { configured := true, pass := some 3 } }, by decide⟩,
   ⟨3, { winState {} with fio := { configured := true, chans := [(3, { latched := true, short := true })] } }, by decide⟩,
   ⟨2, { m := 2 }, {}, { winState {} with fio := { configured := true, safe := false }, cfg := { motions := [{ m := 2 }] } }, by decide⟩,
   ⟨2, { m := 2 }, {}, { winState {} with fio := { configured := true, safe := false }, cfg := { motions := [{ m := 2 }] } }, by decide⟩,
   ⟨2, { m := 2, pulse := true }, { homed := true, target := 50 }, false, { winState {} with fio := { configured := true, safe := false, mots := [(2, { homed := true, target := 50 })] }, cfg := { motions := [{ m := 2, pulse := true }] } }, by decide⟩,
   ⟨2, { state := .far }, { winState {} with fio := { configured := true, mots := [(2, { state := .far })] } }, by decide⟩,
   ⟨2, { m := 2 }, {}, { winState {} with fio := { configured := true, safe := false }, cfg := { motions := [{ m := 2 }] } }, by decide⟩,
   ⟨2, { m := 2 }, {}, { winState {} with fio := { configured := true, safe := false, chans := [(limitCh 2 true, { filt := true })] }, cfg := { motions := [{ m := 2 }] } }, by decide⟩,
   ⟨2, { winState {} with fio := { configured := true, mots := [(2, { state := .fault, fault := 3 })] } }, by decide⟩,
   ⟨2, { winState {} with fio := { configured := true, mots := [(2, { lFar := 3 })] } }, by decide⟩,
   ⟨winState {}, by decide⟩,
   ⟨winState {}, by decide⟩⟩

/-- The hypotheses of each clause of EngineAndClockRegistersTakeEffect can be met. -/
theorem test_met_EngineAndClockRegistersTakeEffect :
    (∃ (d : Die) (c : DmaNo) (exyan : Option DmaSetup) (x : DmaCh) (page : Nat) (e : Pte) (a : Nat) (w0 : Nat) (w1 : Nat) (w2
      : Nat) (w3 : Nat) (s : State), (exyan = none) ∧ (s.host.mbxRdy = true) ∧ (s.winTenant = some 0) ∧ (d.val < s.nDies) ∧ (8
      ≤ c.val) ∧ (c.val ≤ 10) ∧ (s.dch d.val c.val = x) ∧ (x.state = .idle) ∧ (x.desc.toNat % 32 = 0) ∧ (sfind (s.atu
      d.val).tlb (x.ctx.toNat * 2 ^ 24 + x.desc.toNat / 4096) = some (page, e)) ∧ (s.ctxTenant x.ctx.toNat = 0) ∧ (s.paOk
      (4096 * page) = true) ∧ (a = 4096 * page + x.desc.toNat % 4096) ∧ ((s.tag (a / 64)).ok = true) ∧ (w0 = ofLe (memGets
      s.mem a 8)) ∧ (w1 = ofLe (memGets s.mem (a + 8) 8)) ∧ (w2 = ofLe (memGets s.mem (a + 16) 8)) ∧ (w3 = ofLe (memGets s.mem
      (a + 24) 8)) ∧ (descReserved w0 w1 w2 w3 = false) ∧ (descOk (descOf w0 w1 w2 w3) = true)) ∧
    (∃ (d : Die) (c : DmaNo) (exyan : Option DmaSetup) (u : DmaSetup) (page : Nat) (e : Pte) (a : Nat) (w0 : Nat) (w1 : Nat)
      (w2 : Nat) (w3 : Nat) (s : State), (exyan = some u) ∧ (d.val < s.nDies) ∧ (dmaHost d.val c.val = false) ∧ ((s.dch d.val
      c.val).state = .idle) ∧ (u.desc.toNat % 32 = 0) ∧ (sfind (s.atu d.val).tlb (u.ctx.toNat * 2 ^ 24 + u.desc.toNat / 4096)
      = some (page, e)) ∧ (s.ctxTenant u.ctx.toNat = 0) ∧ (s.paOk (4096 * page) = true) ∧ (a = 4096 * page + u.desc.toNat %
      4096) ∧ ((s.tag (a / 64)).ok = true) ∧ (w0 = ofLe (memGets s.mem a 8)) ∧ (w1 = ofLe (memGets s.mem (a + 8) 8)) ∧ (w2 =
      ofLe (memGets s.mem (a + 16) 8)) ∧ (w3 = ofLe (memGets s.mem (a + 24) 8)) ∧ (descReserved w0 w1 w2 w3 = false) ∧ (descOk
      (descOf w0 w1 w2 w3) = true)) ∧
    (∃ (d : Die) (c : DmaNo) (exyan : Bool) (x : DmaCh) (de : Descriptor) (s : State), (exyan = false) ∧ (s.host.mbxRdy =
      true) ∧ (s.winTenant = some 0) ∧ (d.val < s.nDies) ∧ (8 ≤ c.val) ∧ (c.val ≤ 10) ∧ (s.dch d.val c.val = x) ∧ (x.state =
      .parked) ∧ (x.cur = some de) ∧ (x.wbLine = none)) ∧
    (∃ (d : Die) (c : DmaNo) (exyan : Bool) (x : DmaCh) (de : Descriptor) (s : State), (exyan = true) ∧ (d.val < s.nDies) ∧
      (dmaHost d.val c.val = false) ∧ (s.dch d.val c.val = x) ∧ (x.state = .parked) ∧ (x.cur = some de) ∧ (x.wbLine = none)) ∧
    (∃ (d : Die) (c : DmaNo) (exyan : Bool) (x : DmaCh) (de : Descriptor) (s : State), (exyan = false) ∧ (s.host.mbxRdy =
      true) ∧ (s.winTenant = some 0) ∧ (d.val < s.nDies) ∧ (8 ≤ c.val) ∧ (c.val ≤ 10) ∧ (s.dch d.val c.val = x) ∧ (x.state =
      .halted) ∧ (x.cur = some de) ∧ (de.mode = 1) ∧ (x.el + 1 < de.total)) ∧
    (∃ (d : Die) (c : DmaNo) (exyan : Bool) (x : DmaCh) (de : Descriptor) (s : State), (exyan = true) ∧ (d.val < s.nDies) ∧
      (dmaHost d.val c.val = false) ∧ (s.dch d.val c.val = x) ∧ (x.state = .halted) ∧ (x.cur = some de) ∧ (de.mode = 1) ∧
      (x.el + 1 < de.total)) ∧
    (∃ (d : Die) (c : DmaNo) (exyan : Bool) (x : DmaCh) (s : State), (exyan = false) ∧ (s.host.mbxRdy = true) ∧ (s.winTenant =
      some 0) ∧ (d.val < s.nDies) ∧ (8 ≤ c.val) ∧ (c.val ≤ 10) ∧ (s.dch d.val c.val = x) ∧ (x.state = .halted)) ∧
    (∃ (d : Die) (c : DmaNo) (exyan : Bool) (x : DmaCh) (s : State), (exyan = true) ∧ (d.val < s.nDies) ∧ (dmaHost d.val c.val
      = false) ∧ (s.dch d.val c.val = x) ∧ (x.state = .halted)) ∧
    (∃ (d : Die) (c : DmaNo) (exyan : Bool) (x : DmaCh) (s : State), (exyan = false) ∧ (s.host.mbxRdy = true) ∧ (s.winTenant =
      some 0) ∧ (d.val < s.nDies) ∧ (8 ≤ c.val) ∧ (c.val ≤ 10) ∧ (s.dch d.val c.val = x) ∧ (x.state = .running)) ∧
    (∃ (d : Die) (c : DmaNo) (exyan : Bool) (x : DmaCh) (s : State), (exyan = true) ∧ (d.val < s.nDies) ∧ (dmaHost d.val c.val
      = false) ∧ (s.dch d.val c.val = x) ∧ (x.state = .running)) ∧
    (∃ (d : Die) (s : State), (s.host.mbxRdy = true) ∧ (s.winTenant = some 0) ∧ (d.val < s.nDies)) ∧
    (∃ (d : Die) (k : Nat) (s : State), (s.host.mbxRdy = true) ∧ (s.winTenant = some 0) ∧ (d.val < s.nDies) ∧ (k = (s.atu
      d.val).invCtx.toNat * 2 ^ 24 + (s.atu d.val).invVa.toNat / 4096)) ∧
    (∃ (d : Die) (s : State), (s.host.mbxRdy = true) ∧ (s.winTenant = some 0) ∧ (d.val < s.nDies)) ∧
    (∃ (d : Die) (f : FaultEntry) (l : List FaultEntry) (s : State), (s.host.mbxRdy = true) ∧ (s.winTenant = some 0) ∧ (d.val
      < s.nDies) ∧ ((s.atu d.val).fq = f :: l)) ∧
    (∃ (s : State), (s.host.mbxRdy = true) ∧ (s.winTenant = some 0)) ∧
    (∃ (s : State), (s.host.mbxRdy = true) ∧ (s.winTenant = some 0) ∧ (s.rtcView.1.year < 128)) ∧
    (∃ (s : State), (s.host.mbxRdy = true) ∧ (s.winTenant = some 0) ∧ (s.time.pend = false) ∧ (calOk s.time.stagedCal = true)
      ∧ (s.ringInUse = false)) ∧
    (∃ (v : Word) (s : State), (s.host.mbxRdy = true) ∧ (s.winTenant = some 0)) :=
  ⟨⟨1, 8, none, {}, 5, {}, 20480, 0x400000001, 0, 0, 0, { winState {} with atus := [(1, { tlb := [(0, (5, {}))] })], tags := [(320, { good := true })], mem := [(20480, 1), (20484, 4)] }, by decide⟩,
   ⟨1, 3, some {}, {}, 5, {}, 20480, 0x400000001, 0, 0, 0, { winState {} with atus := [(1, { tlb := [(0, (5, {}))] })], tags := [(320, { good := true })], mem := [(20480, 1), (20484, 4)] }, by decide⟩,
   ⟨1, 8, false, { state := .parked, cur := some {}, reason := 1 }, {}, { winState {} with dmas := [(1, { chans := [(8, { state := .parked, cur := some {}, reason := 1 })] })] }, by decide⟩,
   ⟨1, 3, true, { state := .parked, cur := some {}, reason := 1 }, {}, { winState {} with dmas := [(1, { chans := [(3, { state := .parked, cur := some {}, reason := 1 })] })] }, by decide⟩,
   ⟨1, 8, false, { state := .halted, cur := some { mode := 1, count := 4 }, reason := 2 }, { mode := 1, count := 4 }, { winState {} with dmas := [(1, { chans := [(8, { state := .halted, cur := some { mode := 1, count := 4 }, reason := 2 })] })] }, by decide⟩,
   ⟨1, 3, true, { state := .halted, cur := some { mode := 1, count := 4 }, reason := 2 }, { mode := 1, count := 4 }, { winState {} with dmas := [(1, { chans := [(3, { state := .halted, cur := some { mode := 1, count := 4 }, reason := 2 })] })] }, by decide⟩,
   ⟨1, 8, false, { state := .halted }, { winState {} with dmas := [(1, { chans := [(8, { state := .halted })] })] }, by decide⟩,
   ⟨1, 3, true, { state := .halted }, { winState {} with dmas := [(1, { chans := [(3, { state := .halted })] })] }, by decide⟩,
   ⟨1, 8, false, { state := .running }, { winState {} with dmas := [(1, { chans := [(8, { state := .running })] })] }, by decide⟩,
   ⟨1, 3, true, { state := .running }, { winState {} with dmas := [(1, { chans := [(3, { state := .running })] })] }, by decide⟩,
   ⟨1, winState {}, by decide⟩,
   ⟨1, 0, winState {}, by decide⟩,
   ⟨1, winState {}, by decide⟩,
   ⟨1, {}, [], { winState {} with atus := [(1, { fq := [{}] })] }, by decide⟩,
   ⟨winState {}, by decide⟩,
   ⟨winState {}, by decide⟩,
   ⟨{ winState {} with time := { staged := [(4, 1), (5, 1)] } }, by decide⟩,
   ⟨0x8003, winState {}, by decide⟩⟩

/-- The hypotheses of each clause of TrunkSuperframesTakeEffect can be met. -/
theorem test_met_TrunkSuperframesTakeEffect :
    (∃ (s : State), (s.now % 2 = 0) ∧ (s.trk.lastSf ≠ some s.now)) ∧
    (∃ (s : State), (s.now % 2 = 1 ∨ s.trk.lastSf = some s.now)) ∧
    (∃ (t : TrunkPort) (l : Lane) (pos : Nat) (s : State), ((s.tport t).en = true) ∧ (((s.tport t).lane l.val).mode ≠ .lock) ∧
      (((s.tport t).lane l.val).cands.any (fun c => c.pos == pos) = false) ∧ (((s.tport t).lane l.val).cands.length < 8)) ∧
    (∃ (t : TrunkPort) (l : Lane) (pos : Nat) (s : State), ((s.tport t).en = true) ∧ (((s.tport t).lane l.val).mode ≠ .lock) ∧
      (((s.tport t).lane l.val).cands.any (fun c => c.pos == pos) = false) ∧ (8 ≤ ((s.tport t).lane l.val).cands.length)) ∧
    (∃ (t : TrunkPort) (l : Lane) (pos : Nat) (n : Nat) (arr : Nat) (c : Candidate) (s : State), ((s.tport t).en = true) ∧
      (((s.tport t).lane l.val).mode ≠ .lock) ∧ (((s.tport t).lane l.val).cands = [c]) ∧ (c.pos = pos) ∧ (c.sfn = none) ∧
      (c.hits = 0)) ∧
    (∃ (t : TrunkPort) (l : Lane) (pos : Nat) (c : Candidate) (s : State), ((s.tport t).en = true) ∧ (((s.tport t).lane
      l.val).mode ≠ .lock) ∧ (((s.tport t).lane l.val).cands = [c]) ∧ (c.pos = pos)) ∧
    (∃ (t : TrunkPort) (l : Lane) (pos : Nat) (n : Nat) (arr : Nat) (m : Nat) (c : Candidate) (s : State), ((s.tport t).en =
      true) ∧ (((s.tport t).lane l.val).mode ≠ .lock) ∧ (((s.tport t).lane l.val).cands = [c]) ∧ (c.pos = pos) ∧ (c.sfn = some
      m) ∧ (n = (m + 1) % 2 ^ 48) ∧ (c.hits = 2)) ∧
    (∃ (t : TrunkPort) (l : Lane) (pos : Nat) (arr : Nat) (y : LaneSt) (s : State), ((s.tport t).en = true) ∧ ((s.tport
      t).lane l.val = y) ∧ (y.mode = .lock) ∧ (y.pos = pos)) ∧
    (∃ (t : TrunkPort) (l : Lane) (pos : Nat) (y : LaneSt) (s : State), ((s.tport t).en = true) ∧ ((s.tport t).lane l.val = y)
      ∧ (y.mode = .lock) ∧ (y.pos = pos) ∧ (y.miss < 2)) ∧
    (∃ (t : TrunkPort) (l : Lane) (pos : Nat) (y : LaneSt) (s : State), ((s.tport t).en = true) ∧ ((s.tport t).up = true) ∧
      ((s.tport t).lane l.val = y) ∧ (y.mode = .lock) ∧ (y.pos = pos) ∧ (y.miss = 2)) ∧
    (∃ (t : TrunkPort) (l : Lane) (pos : Nat) (y : LaneSt) (s : State), ((s.tport t).en = true) ∧ ((s.tport t).lane l.val = y)
      ∧ (y.mode = .lock) ∧ (y.pos = pos) ∧ (y.miss = 3)) ∧
    (∃ (t : TrunkPort) (h : TrkHeader) (own : Option Int) (s : State), ((s.tport t).up = true)) ∧
    (∃ (t : TrunkPort) (h : TrkHeader) (own : Option Int) (a : Int) (s : State), ((s.tport t).up = true) ∧ ((s.tport
      t).ownMeas = some (a, h.measSfn))) ∧
    (∃ (s : State), (64 ≤ s.trk.tmIdle) ∧ (s.trk.tmValid = true) ∧ (s.trk.tmHops ≠ 0) ∧ (s.ownId ≠ 0xFF) ∧ (s.trk.relayOnly =
      false)) ∧
    (∃ (s : State), (64 ≤ s.trk.tmIdle) ∧ (s.trk.tmValid = true) ∧ (s.trk.tmHops ≠ 0) ∧ (s.ownId = 0xFF ∨ s.trk.relayOnly =
      true)) ∧
    (∃ (t : TrunkPort) (s : State), ((s.tport t).wrapped = true) ∧ ((s.tport t).up = true) ∧ (64 ≤ (s.tport t).upCount) ∧
      (s.trk.sfn % 8 = 0) ∧ ((s.tport t).wrapForce = false)) ∧
    (∃ (t : TrunkPort) (l : Lane) (ctrl : BitVec 12) (s : State), ((s.tport t).en = true) ∧ (((s.tport t).lane l.val).training
      = true) ∧ (((s.tport t).lane l.val).trainAt ≤ s.now) ∧ (ctrl.getLsbD 7 = true) ∧ (7 ≤ ((s.tport t).lane l.val).ready)) ∧
    (∃ (t : TrunkPort) (l : Lane) (ctrl : BitVec 12) (rxReady : Bool) (s : State), ((s.tport t).en = true) ∧ (((s.tport
      t).lane l.val).training = true) ∧ (((s.tport t).lane l.val).trainAt ≤ s.now) ∧ (ctrl.getLsbD 7 = false)) ∧
    (∃ (t : TrunkPort) (l : Lane) (s : State), ((s.tport t).en = true) ∧ (((s.tport t).lane l.val).training = true) ∧
      (((s.tport t).lane l.val).trainAt + msTicks 300 ≤ s.now)) :=
  ⟨⟨trkState { en := true, up := true }, by decide⟩,
   ⟨{ trkState {} with tick := 1 }, by decide⟩,
   ⟨false, 1, 99, trkState { en := true }, by decide⟩,
   ⟨false, 1, 99, trkState { en := true, lanes := [(1, { cands := [{}, {}, {}, {}, {}, {}, {}, {}] })] }, by decide⟩,
   ⟨false, 1, 9, 7, 30, { pos := 9 }, trkState { en := true, lanes := [(1, { cands := [{ pos := 9 }] })] }, by decide⟩,
   ⟨false, 1, 9, { pos := 9, hits := 1 }, trkState { en := true, lanes := [(1, { cands := [{ pos := 9, hits := 1 }] })] }, by decide⟩,
   ⟨false, 0, 9, 0, 30, 281474976710655, { pos := 9, sfn := some 281474976710655, hits := 2 }, trkState { en := true, lanes := [(0, { cands := [{ pos := 9, sfn := some 281474976710655, hits := 2 }] })] }, by decide⟩,
   ⟨false, 0, 9, 30, { mode := .lock, pos := 9, sfn := 7 }, trkState { en := true, lanes := [(0, { mode := .lock, pos := 9, sfn := 7 })] }, by decide⟩,
   ⟨false, 0, 9, { mode := .lock, pos := 9, miss := 1 }, trkState { en := true, lanes := [(0, { mode := .lock, pos := 9, miss := 1 })] }, by decide⟩,
   ⟨false, 0, 9, { mode := .lock, pos := 9, miss := 2 }, trkState { en := true, up := true, lanes := [(0, { mode := .lock, pos := 9, miss := 2 })] }, by decide⟩,
   ⟨false, 0, 9, { mode := .lock, pos := 9, miss := 3 }, trkState { en := true, lanes := [(0, { mode := .lock, pos := 9, miss := 3 })] }, by decide⟩,
   ⟨false, { srcId := 9, sfn := 77 }, none, trkState { en := true, up := true }, by decide⟩,
   ⟨false, { srcId := 9, sfn := 78, measSfn := 77 }, some 5, 40, trkState { en := true, up := true, ownMeas := some (40, 77) }, by decide⟩,
   ⟨{ trkState {} with trk := { relayOnly := false, tmIdle := 64, tmHops := 1, tmValid := true } }, by decide⟩,
   ⟨{ trkState {} with trk := { relayOnly := true, tmIdle := 64, tmHops := 1, tmValid := true } }, by decide⟩,
   ⟨false, trkState { en := true, up := true, wrapped := true, upCount := 64 }, by decide⟩,
   ⟨false, 0, 0x80, trkState { en := true, lanes := [(0, { ready := 7 })] }, by decide⟩,
   ⟨false, 0, 0, true, trkState { en := true, lanes := [(0, { ready := 7 })] }, by decide⟩,
   ⟨false, 0, { trkState { en := true, lanes := [(0, { ready := 7 })] } with tick := 4800 }, by decide⟩⟩

/-- The hypotheses of each clause of TrunkFramesTakeEffect can be met. -/
theorem test_met_TrunkFramesTakeEffect :
    (∃ (t : TrunkPort) (f : TrkFrame) (crc : PayCrc) (fault : Option EngFault) (full : Bool) (s : State), ((s.tport
      t).delivers = true) ∧ (crc = .wrong)) ∧
    (∃ (t : TrunkPort) (f : TrkFrame) (crc : PayCrc) (fault : Option EngFault) (full : Bool) (s : State), ((s.tport
      t).delivers = true) ∧ (crc = .inverted)) ∧
    (∃ (t : TrunkPort) (f : TrkFrame) (crc : PayCrc) (fault : Option EngFault) (full : Bool) (s : State), ((s.tport
      t).delivers = true) ∧ (crc = .good) ∧ (full = true)) ∧
    (∃ (t : TrunkPort) (f : TrkFrame) (crc : PayCrc) (fault : Option EngFault) (full : Bool) (e : EngFault) (s : State),
      ((s.tport t).delivers = true) ∧ (crc = .good) ∧ (full = false) ∧ (fault = some e)) ∧
    (∃ (t : TrunkPort) (f : TrkFrame) (crc : PayCrc) (fault : Option EngFault) (full : Bool) (s : State), ((s.tport
      t).delivers = true) ∧ (crc = .good) ∧ (full = false) ∧ (fault = none) ∧ (f.src = s.ownId) ∧ (s.ownId ≠ 0xFF)) ∧
    (∃ (t : TrunkPort) (f : TrkFrame) (crc : PayCrc) (fault : Option EngFault) (full : Bool) (s : State), ((s.tport
      t).delivers = true) ∧ (crc = .good) ∧ (full = false) ∧ (fault = none) ∧ (f.src ≠ s.ownId) ∧ (f.dst = s.ownId) ∧ (s.ownId
      ≠ 0xFF) ∧ (s.trk.relayOnly = false ∨ f.cls = 0)) ∧
    (∃ (t : TrunkPort) (f : TrkFrame) (crc : PayCrc) (fault : Option EngFault) (full : Bool) (s : State), ((s.tport
      t).delivers = true) ∧ (crc = .good) ∧ (full = false) ∧ (fault = none) ∧ (f.src ≠ s.ownId) ∧ (f.dst ≠ s.ownId) ∧ (f.dst ≠
      255) ∧ (f.hops < 254) ∧ ((s.tport (!t)).wrapped = false) ∧ (sget [] (s.tport (!t)).queues (classQueue f.cls) = [])) ∧
    (∃ (t : TrunkPort) (f : TrkFrame) (crc : PayCrc) (fault : Option EngFault) (full : Bool) (s : State), ((s.tport
      t).delivers = true) ∧ (crc = .good) ∧ (full = false) ∧ (fault = none) ∧ (f.src ≠ s.ownId) ∧ (f.dst = 255) ∧ (s.ownId ≠
      0xFF) ∧ (s.trk.relayOnly = false) ∧ (sfind s.trk.lastSeq (8 * f.src.toNat + f.cls) = none) ∧ (f.hops < 254) ∧ ((s.tport
      (!t)).wrapped = false) ∧ (sget [] (s.tport (!t)).queues (classQueue f.cls) = [])) ∧
    (∃ (t : TrunkPort) (header : Bool) (s : State), ((s.tport t).up = true) ∧ (header = true)) ∧
    (∃ (t : TrunkPort) (header : Bool) (s : State), ((s.tport t).up = true) ∧ (header = false)) ∧
    (∃ (t : TrunkPort) (f : TrkFrame) (b : Topology) (s : State), ((s.tport t).delivers = true) ∧ (f.src ≠ s.ownId) ∧ (f.dst =
      s.ownId) ∧ (s.ownId ≠ 0xFF) ∧ (f.cls = 0) ∧ (b.id ≠ s.ownId)) ∧
    (∃ (t : TrunkPort) (f : TrkFrame) (b : Topology) (s : State), ((s.tport t).delivers = true) ∧ (b.id = s.ownId) ∧ (s.ownId
      ≠ 0xFF) ∧ (b.serial ≠ s.host.serial)) ∧
    (∃ (t : TrunkPort) (f : TrkFrame) (u : UtcMap) (s : State), ((s.tport t).delivers = true) ∧ (f.src ≠ s.ownId) ∧ (f.dst =
      s.ownId) ∧ (s.ownId ≠ 0xFF) ∧ (s.trk.relayOnly = false) ∧ (u.valid = true)) ∧
    (∃ (t : TrunkPort) (f : TrkFrame) (seg : Nat) (blk : Nat) (data : List Byte) (n : Nat) (g : Segment) (s : State),
      ((s.tport t).delivers = true) ∧ (f.src ≠ s.ownId) ∧ (f.dst = s.ownId) ∧ (s.ownId ≠ 0xFF) ∧ (s.trk.relayOnly = false) ∧
      (f.cls = 5) ∧ (s.storeOn = true) ∧ (s.hst.segs.find? (fun e => e.2.tenant == f.tenant && e.2.kind == 1 && e.2.src ==
      f.src && e.2.isOpen && e.2.blocks.length < 16383) = some (n, g)) ∧ (sfind s.hst.segs n = some g)) ∧
    (∃ (t : TrunkPort) (f : TrkFrame) (slot : Option SlotNo) (b : List Byte) (k : Nat) (s : State), ((s.tport t).delivers =
      true) ∧ (f.src ≠ s.ownId) ∧ (f.dst = s.ownId) ∧ (s.ownId ≠ 0xFF) ∧ (s.trk.relayOnly = false) ∧ (f.cls = 2) ∧
      (s.host.mbxRdy = true) ∧ (slot = none) ∧ (s.freeSlot = some k)) ∧
    (∃ (t : TrunkPort) (n : Nat) (why : TxFail) (f : TrkOut) (s : State), ((s.tport t).air[n]? = some f) ∧ (why = .dry) ∧
      ((s.tport t).thr < trkOctets f.frame)) ∧
    (∃ (t : TrunkPort) (n : Nat) (why : TxFail) (f : TrkOut) (e : EngFault) (s : State), ((s.tport t).air[n]? = some f) ∧ (why
      = .access e)) :=
  ⟨⟨false, {}, .wrong, none, false, trkState { en := true, up := true }, by decide⟩,
   ⟨false, {}, .inverted, none, false, trkState { en := true, up := true }, by decide⟩,
   ⟨false, {}, .good, none, true, trkState { en := true, up := true }, by decide⟩,
   ⟨false, {}, .good, some (.integ 64), false, .integ 64, trkState { en := true, up := true }, by decide⟩,
   ⟨false, { src := 3 }, .good, none, false, trkState { en := true, up := true }, by decide⟩,
   ⟨false, { src := 4, dst := 3, cls := 2 }, .good, none, false, trkState { en := true, up := true }, by decide⟩,
   ⟨false, { src := 4, dst := 5, cls := 2 }, .good, none, false, trkState { en := true, up := true }, by decide⟩,
   ⟨false, { src := 4, dst := 255, cls := 1, seq := 9 }, .good, none, false, trkState { en := true, up := true }, by decide⟩,
   ⟨false, true, trkState { en := true, up := true }, by decide⟩,
   ⟨false, false, trkState { en := true, up := true }, by decide⟩,
   ⟨false, { src := 4, dst := 3 }, { id := 4 }, trkState { en := true, up := true }, by decide⟩,
   ⟨false, { src := 4, dst := 255 }, { id := 3, serial := 8 }, trkState { en := true, up := true }, by decide⟩,
   ⟨false, { src := 4, dst := 3, cls := 1 }, { valid := true, baseMs := 5 }, trkState { en := true, up := true }, by decide⟩,
   ⟨false, { src := 4, dst := 3, cls := 5, tenant := 2 }, 0, 0, [1], 1, { tenant := 2, kind := 1, src := 4, isOpen := true }, withHst (trkState { en := true, up := true }) { d0 := { ok := true, linkUp := true }, up := true, segs := [(1, { tenant := 2, kind := 1, src := 4, isOpen := true })] }, by decide⟩,
   ⟨false, { src := 4, dst := 3, cls := 2 }, none, [], 0, trkState { en := true, up := true }, by decide⟩,
   ⟨false, 0, .dry, { frame := { len := 2000 } }, trkState { en := true, up := true, air := [{ frame := { len := 2000 } }] }, by decide⟩,
   ⟨false, 0, .access (.integ 64), {}, .integ 64, trkState { en := true, up := true, air := [{}] }, by decide⟩⟩

/-- The hypotheses of each clause of HostPortAndClockTakeEffect can be met. -/
theorem test_met_HostPortAndClockTakeEffect :
    (∃ (k : SlotNo) (m : HostMem) (fault : Option EngFault) (e : List Byte) (h : ReqHead) (x : SlotSt) (s : State),
      (s.host.mbxRdy = true) ∧ (s.host.d3 = false) ∧ (s.sender k.val = x) ∧ (x.en = true) ∧ (x.remote = false) ∧ (x.closing =
      false) ∧ (x.rqHead ≠ x.rqTail) ∧ (x.reqs.length < 8) ∧ (x.reqs.length + x.unread + 1 < x.cqSize) ∧ (hostBytes m
      (x.rqBase.toNat + 64 * x.rqHead.toNat) 64 = some e) ∧ (hostFetch m e = h) ∧ (h.hostOk = true) ∧ (fault = none)) ∧
    (∃ (k : SlotNo) (m : HostMem) (fault : Option EngFault) (e : List Byte) (h : ReqHead) (x : SlotSt) (s : State),
      (s.host.mbxRdy = true) ∧ (s.host.d3 = false) ∧ (s.sender k.val = x) ∧ (x.en = true) ∧ (x.remote = false) ∧ (x.closing =
      false) ∧ (x.rqHead ≠ x.rqTail) ∧ (x.reqs.length < 8) ∧ (x.reqs.length + x.unread + 1 < x.cqSize) ∧ (hostBytes m
      (x.rqBase.toNat + 64 * x.rqHead.toNat) 64 = some e) ∧ (hostFetch m e = h) ∧ (h.hostOk = false) ∧ (fault = none)) ∧
    (∃ (k : SlotNo) (m : HostMem) (fault : Option EngFault) (e : List Byte) (h : ReqHead) (x : SlotSt) (s : State),
      (s.host.mbxRdy = true) ∧ (s.host.d3 = false) ∧ (s.sender k.val = x) ∧ (x.en = true) ∧ (x.remote = false) ∧ (x.closing =
      false) ∧ (x.rqHead ≠ x.rqTail) ∧ (x.reqs.length < 8) ∧ (x.reqs.length + x.unread + 1 < x.cqSize) ∧ (hostBytes m
      (x.rqBase.toNat + 64 * x.rqHead.toNat) 64 = some e) ∧ (hostFetch m e = h) ∧ (h.hostOk = true) ∧ (fault.isSome = true)) ∧
    (∃ (r : Req) (hostOk : Bool) (x : SlotSt) (q : ReqSt) (v : Result) (s : State), (r.sender.val < 32) ∧ (s.host.d3 = false)
      ∧ (s.sender r.sender.val = x) ∧ (x.remote = false) ∧ (x.closing = false) ∧ (x.reqs = [q]) ∧ (q.begun = true) ∧
      (q.head.tag = r.tag) ∧ (q.result = some v) ∧ (hostOk = true)) ∧
    (∃ (s : State), (s.exyan = true) ∧ (s.host.beatAt + msTicks 10 ≤ s.now)) ∧
    (∃ (k : Nat) (s : State), (k < 32) ∧ ((s.sender k).remote = false)) ∧
    (∃ (k : Nat) (s : State), (k < 32) ∧ ((s.sender k).remote = false)) ∧
    (∃ (w : Wmk) (s : State), (s.exyan = true) ∧ (s.host.cmpAt + msTicks 1 ≤ s.now) ∧ (s.wmk 5 = w) ∧ (w.en = true) ∧ (w.pol =
      false) ∧ (w.level = false) ∧ (s.sec.records.length < 2 ^ 23) ∧ (w.thr.toInt ≤ (s.sec.records.length : Int))) ∧
    (∃ (s : State), (s.time.frozen = true)) ∧
    (∃ (s : State), (s.time.pend = true) ∧ (s.time.source ≠ .ring)) ∧
    (∃ (a : Nat) (b : Nat) (n : Nat) (e : Int) (s : State), (s.time.atrim = true) ∧ (s.ringInUse = true) ∧ (s.time.atrimFrom =
      some (a, b, n)) ∧ (32 ≤ n) ∧ (a < b) ∧ (rateError n (b - a) = e)) ∧
    (∃ (s : State), (s.time.syncAt + secTicks 60 ≤ s.now) ∧ (s.time.source = .host ∨ s.time.source = .ring) ∧ (2 < ((calMs
      s.rtcCal : Int) - s.utcNow).natAbs)) ∧
    (∃ (s : State), (s.time.source = .ring) ∧ (s.trk.timePort = none)) ∧
    (∃ (s : State), (s.su.vinGood = true)) ∧
    (∃ (s : State), (s.su.vinGood = true)) :=
  ⟨⟨0, [(0, List.replicate 64 0)], none, List.replicate 64 0, hostFetch [] (List.replicate 64 0), { en := true, rqTail := 1 }, { runState with host := { runState.host with mbxRdy := true, slots := [(0, { en := true, rqTail := 1 })] } }, by decide⟩,
   ⟨0, [(0, [0, 0, 1, 0, 0, 0, 0, 0, 8, 0, 0, 0, 0, 0, 0, 0, 0, 16] ++ List.replicate 46 0)], none, [0, 0, 1, 0, 0, 0, 0, 0, 8, 0, 0, 0, 0, 0, 0, 0, 0, 16] ++ List.replicate 46 0, { inline := false, hostOk := false, len := 8, dptr1 := 4096 }, { en := true, rqTail := 1 }, { runState with host := { runState.host with mbxRdy := true, slots := [(0, { en := true, rqTail := 1 })] } }, by decide⟩,
   ⟨0, [(0, List.replicate 64 0)], some (.integ 5), List.replicate 64 0, hostFetch [] (List.replicate 64 0), { en := true, rqTail := 1 }, { runState with host := { runState.host with mbxRdy := true, slots := [(0, { en := true, rqTail := 1 })] } }, by decide⟩,
   ⟨rq, true, { en := true, reqs := [{ head := { tag := 9 }, begun := true, result := some {} }] }, { head := { tag := 9 }, begun := true, result := some {} }, {}, { runState with host := { runState.host with slots := [(0, { en := true, reqs := [{ head := { tag := 9 }, begun := true, result := some {} }] })] } }, by decide⟩,
   ⟨{ runState with tick := 160 }, by decide⟩,
   ⟨3, { runState with host := { runState.host with win := some 3, slots := [(3, { en := true, opened := true })] } }, by decide⟩,
   ⟨3, { runState with host := { runState.host with win := some 3, slots := [(3, { en := true, opened := true })] } }, by decide⟩,
   ⟨{ en := true }, { runState with tick := 16, host := { runState.host with wmks := [(5, { en := true })] } }, by decide⟩,
   ⟨{ runState with time := { frozen := true } }, by decide⟩,
   ⟨{ runState with time := { pend := true } }, by decide⟩,
   ⟨0, 16384000, 32, 0, { runState with time := { source := .ring, atrim := true, atrimFrom := some (0, 16384000, 32) } }, by decide⟩,
   ⟨{ runState with tick := 960000, time := { source := .host, utcOk := true, utcMs := 99999 } }, by decide⟩,
   ⟨{ runState with time := { source := .ring, utcOk := true, utcMs := 7 } }, by decide⟩,
   ⟨runState, by decide⟩,
   ⟨runState, by decide⟩⟩

/-- The hypotheses of each clause of RegisterInstructionsTakeEffect can be met. -/
theorem test_met_RegisterInstructionsTakeEffect :
    (∃ (k : CoreRef) (r : RForm) (a : V24) (b : V24) (s : State), (s.mayRun k 1) ∧ (legalR r = true) ∧ ((s.coreOf k).r r.rs1 =
      a) ∧ ((s.coreOf k).r r.rs2 = b)) ∧
    (∃ (k : CoreRef) (r : RForm) (a : V24) (b : V24) (s : State), (s.mayRun k 1) ∧ (legalR r = true) ∧ ((s.coreOf k).r r.rs1 =
      a) ∧ ((s.coreOf k).r r.rs2 = b)) ∧
    (∃ (k : CoreRef) (r : RForm) (a : V24) (b : V24) (s : State), (s.mayRun k 1) ∧ (legalR r = true) ∧ ((s.coreOf k).r r.rs1 =
      a) ∧ ((s.coreOf k).r r.rs2 = b)) ∧
    (∃ (k : CoreRef) (r : RForm) (a : V24) (b : V24) (s : State), (s.mayRun k 1) ∧ (legalR r = true) ∧ ((s.coreOf k).r r.rs1 =
      a) ∧ ((s.coreOf k).r r.rs2 = b)) ∧
    (∃ (k : CoreRef) (r : RForm) (a : V24) (b : V24) (s : State), (s.mayRun k 1) ∧ (legalR r = true) ∧ ((s.coreOf k).r r.rs1 =
      a) ∧ ((s.coreOf k).r r.rs2 = b)) ∧
    (∃ (k : CoreRef) (r : RForm) (a : V24) (b : V24) (s : State), (s.mayRun k 1) ∧ (legalR r = true) ∧ ((s.coreOf k).r r.rs1 =
      a) ∧ ((s.coreOf k).r r.rs2 = b)) ∧
    (∃ (k : CoreRef) (r : RForm) (a : V24) (b : V24) (s : State), (s.mayRun k 1) ∧ (legalR r = true) ∧ ((s.coreOf k).r r.rs1 =
      a) ∧ ((s.coreOf k).r r.rs2 = b)) ∧
    (∃ (k : CoreRef) (r : RForm) (a : V24) (b : V24) (s : State), (s.mayRun k 1) ∧ (legalR r = true) ∧ ((s.coreOf k).r r.rs1 =
      a) ∧ ((s.coreOf k).r r.rs2 = b)) ∧
    (∃ (k : CoreRef) (r : RForm) (a : V24) (b : V24) (s : State), (s.mayRun k 1) ∧ (legalR r = true) ∧ ((s.coreOf k).r r.rs1 =
      a) ∧ ((s.coreOf k).r r.rs2 = b)) ∧
    (∃ (k : CoreRef) (r : RForm) (a : V24) (b : V24) (s : State), (s.mayRun k 1) ∧ (legalR r = true) ∧ ((s.coreOf k).r r.rs1 =
      a) ∧ ((s.coreOf k).r r.rs2 = b)) ∧
    (∃ (k : CoreRef) (r : RForm) (a : V24) (b : V24) (p : BitVec 48) (s : State), (s.mayRun k 1) ∧ (legalR r = true) ∧
      (r.rd.toNat % 2 = 0) ∧ (r.rd.toNat ≤ 22) ∧ ((s.coreOf k).r r.rs1 = a) ∧ ((s.coreOf k).r r.rs2 = b) ∧ (p = BitVec.ofInt
      48 (a.toInt * b.toInt))) ∧
    (∃ (k : CoreRef) (r : RForm) (a : V24) (b : V24) (s : State), (s.mayRun k 1) ∧ ((gen r.rd && gen r.rs1 && gen r.rs2) =
      true) ∧ ((s.coreOf k).r r.rs1 = a) ∧ ((s.coreOf k).r r.rs2 = b)) ∧
    (∃ (k : CoreRef) (r : RForm) (a : V24) (b : V24) (s : State), (s.mayRun k 1) ∧ (legalR r = true) ∧ ((s.coreOf k).r r.rs1 =
      a) ∧ ((s.coreOf k).r r.rs2 = b) ∧ (b ≠ 0)) ∧
    (∃ (k : CoreRef) (r : RForm) (a : V24) (b : V24) (s : State), (s.mayRun k 1) ∧ (legalR r = true) ∧ ((s.coreOf k).r r.rs1 =
      a) ∧ ((s.coreOf k).r r.rs2 = b) ∧ (b ≠ 0)) ∧
    (∃ (k : CoreRef) (r : RForm) (a : V24) (b : V24) (s : State), (s.mayRun k 1) ∧ (legalCmp r = true) ∧ ((s.coreOf k).r r.rs1
      = a) ∧ ((s.coreOf k).r r.rs2 = b)) ∧
    (∃ (k : CoreRef) (r : RForm) (a : V24) (b : V24) (s : State), (s.mayRun k 1) ∧ (legalR r = true) ∧ ((s.coreOf k).r r.rs1 =
      a) ∧ ((s.coreOf k).r r.rs2 = b)) ∧
    (∃ (k : CoreRef) (r : RForm) (a : V24) (b : V24) (s : State), (s.mayRun k 1) ∧ (legalR r = true) ∧ ((s.coreOf k).r r.rs1 =
      a) ∧ ((s.coreOf k).r r.rs2 = b)) ∧
    (∃ (k : CoreRef) (i : IForm) (a : V24) (b : V24) (s : State), (s.mayRun k 1) ∧ (legalI i = true) ∧ ((s.coreOf k).r i.rs1 =
      a) ∧ (i.imm.signExtend 24 = b)) ∧
    (∃ (k : CoreRef) (i : IForm) (a : V24) (b : V24) (s : State), (s.mayRun k 1) ∧ (legalI i = true) ∧ ((s.coreOf k).r i.rs1 =
      a) ∧ (i.imm.signExtend 24 = b)) ∧
    (∃ (k : CoreRef) (i : IForm) (a : V24) (b : V24) (s : State), (s.mayRun k 1) ∧ (legalI i = true) ∧ ((s.coreOf k).r i.rs1 =
      a) ∧ (i.imm.setWidth 24 = b)) ∧
    (∃ (k : CoreRef) (i : IForm) (a : V24) (b : V24) (s : State), (s.mayRun k 1) ∧ (legalI i = true) ∧ ((s.coreOf k).r i.rs1 =
      a) ∧ (i.imm.setWidth 24 = b)) ∧
    (∃ (k : CoreRef) (i : IForm) (a : V24) (b : V24) (s : State), (s.mayRun k 1) ∧ (legalI i = true) ∧ ((s.coreOf k).r i.rs1 =
      a) ∧ (i.imm.setWidth 24 = b)) ∧
    (∃ (k : CoreRef) (i : IForm) (a : V24) (b : V24) (s : State), (s.mayRun k 1) ∧ (legalI i = true) ∧ ((s.coreOf k).r i.rs1 =
      a) ∧ (i.imm.setWidth 24 = b) ∧ (i.imm.toNat < 32)) ∧
    (∃ (k : CoreRef) (i : IForm) (a : V24) (b : V24) (s : State), (s.mayRun k 1) ∧ (legalI i = true) ∧ ((s.coreOf k).r i.rs1 =
      a) ∧ (i.imm.setWidth 24 = b) ∧ (i.imm.toNat < 32)) ∧
    (∃ (k : CoreRef) (i : IForm) (a : V24) (b : V24) (s : State), (s.mayRun k 1) ∧ (legalI i = true) ∧ ((s.coreOf k).r i.rs1 =
      a) ∧ (i.imm.setWidth 24 = b) ∧ (i.imm.toNat < 32)) ∧
    (∃ (k : CoreRef) (i : IForm) (a : V24) (b : V24) (s : State), (s.mayRun k 1) ∧ (i.rd = 0) ∧ ((s.coreOf k).r i.rs1 = a) ∧
      (i.imm.signExtend 24 = b) ∧ (gen i.rs1 = true)) ∧
    (∃ (k : CoreRef) (i : IForm) (s : State), (s.mayRun k 2) ∧ (gen i.rd = true) ∧ (i.rs1 = 0) ∧ (i.imm = 0)) :=
  ⟨⟨coreRef, { rs1 := 0, rs2 := 1, rd := 2 }, 5, 3, coreState regs3, by decide⟩,
   ⟨coreRef, { rs1 := 0, rs2 := 1, rd := 2 }, 5, 3, coreState regs3, by decide⟩,
   ⟨coreRef, { rs1 := 0, rs2 := 1, rd := 2 }, 5, 3, coreState regs3, by decide⟩,
   ⟨coreRef, { rs1 := 0, rs2 := 1, rd := 2 }, 5, 3, coreState regs3, by decide⟩,
   ⟨coreRef, { rs1 := 0, rs2 := 1, rd := 2 }, 5, 3, coreState regs3, by decide⟩,
   ⟨coreRef, { rs1 := 0, rs2 := 1, rd := 2 }, 5, 3, coreState regs3, by decide⟩,
   ⟨coreRef, { rs1 := 0, rs2 := 1, rd := 2 }, 5, 3, coreState regs3, by decide⟩,
   ⟨coreRef, { rs1 := 0, rs2 := 1, rd := 2 }, 5, 3, coreState regs3, by decide⟩,
   ⟨coreRef, { rs1 := 0, rs2 := 1, rd := 2 }, 5, 3, coreState regs3, by decide⟩,
   ⟨coreRef, { rs1 := 0, rs2 := 1, rd := 2 }, 5, 3, coreState regs3, by decide⟩,
   ⟨coreRef, { rd := 22, rs1 := 0, rs2 := 1 }, 5, 3, 15, coreState regs3, by decide⟩,
   ⟨coreRef, { rs1 := 0, rs2 := 1, rd := 2, fn := 7 }, 5, 3, coreState regs3, by decide⟩,
   ⟨coreRef, { rs1 := 0, rs2 := 1, rd := 2 }, 5, 3, coreState regs3, by decide⟩,
   ⟨coreRef, { rs1 := 0, rs2 := 1, rd := 2 }, 5, 3, coreState regs3, by decide⟩,
   ⟨coreRef, { rs1 := 0, rs2 := 1 }, 5, 3, coreState regs3, by decide⟩,
   ⟨coreRef, { rs1 := 0, rs2 := 1, rd := 2 }, 5, 3, coreState regs3, by decide⟩,
   ⟨coreRef, { rs1 := 0, rs2 := 1, rd := 2 }, 5, 3, coreState regs3, by decide⟩,
   ⟨coreRef, { rs1 := 0, imm := 3, rd := 2 }, 5, 3, coreState regs3, by decide⟩,
   ⟨coreRef, { rs1 := 0, imm := 3, rd := 2 }, 5, 3, coreState regs3, by decide⟩,
   ⟨coreRef, { rs1 := 0, imm := 3, rd := 2 }, 5, 3, coreState regs3, by decide⟩,
   ⟨coreRef, { rs1 := 0, imm := 3, rd := 2 }, 5, 3, coreState regs3, by decide⟩,
   ⟨coreRef, { rs1 := 0, imm := 3, rd := 2 }, 5, 3, coreState regs3, by decide⟩,
   ⟨coreRef, { rs1 := 0, imm := 3, rd := 2 }, 5, 3, coreState regs3, by decide⟩,
   ⟨coreRef, { rs1 := 0, imm := 3, rd := 2 }, 5, 3, coreState regs3, by decide⟩,
   ⟨coreRef, { rs1 := 0, imm := 3, rd := 2 }, 5, 3, coreState regs3, by decide⟩,
   ⟨coreRef, { rs1 := 0, imm := 3 }, 5, 3, coreState regs3, by decide⟩,
   ⟨coreRef, { rd := 2, ext := 0x123456 }, coreState regs3, by decide⟩⟩

/-- The hypotheses of each clause of MemoryInstructionsTakeEffect can be met. -/
theorem test_met_MemoryInstructionsTakeEffect :
    (∃ (k : CoreRef) (i : IForm) (a : V24) (g : LogicImage) (s : State), (s.mayRun k 1) ∧ (legalI i = true) ∧ (a = (s.coreOf
      k).r i.rs1 + i.imm.signExtend 24) ∧ (a.toNat < 0x40000) ∧ ((s.dieOf k).image = some g) ∧ (imgReach g (s.coreOf k).tnt
      a.toNat = true)) ∧
    (∃ (k : CoreRef) (i : IForm) (a : V24) (s : State), (s.mayRun k 1) ∧ (legalI i = true) ∧ (a = (s.coreOf k).r i.rs1 +
      i.imm.signExtend 24) ∧ (0x40000 ≤ a.toNat) ∧ (a.toNat < 0x50000)) ∧
    (∃ (k : CoreRef) (i : IForm) (a : V24) (g : LogicImage) (s : State), (s.mayRun k 1) ∧ (legalI i = true) ∧ (a = (s.coreOf
      k).r i.rs1 + i.imm.signExtend 24) ∧ (a.toNat < 0x40000) ∧ ((s.dieOf k).image = some g) ∧ (imgReach g (s.coreOf k).tnt
      a.toNat = true)) ∧
    (∃ (k : CoreRef) (i : IForm) (a : V24) (g : LogicImage) (s : State), (s.mayRun k 2) ∧ (legalI i = true) ∧ (i.imm = 0) ∧ (a
      = (s.coreOf k).r i.rs1 + i.ext) ∧ (a.toNat < 0x40000) ∧ ((s.dieOf k).image = some g) ∧ (imgReach g (s.coreOf k).tnt
      a.toNat = true)) ∧
    (∃ (k : CoreRef) (i : IForm) (a : V24) (page : Nat) (e : Pte) (pa : Nat) (s : State), (s.mayRun k 2) ∧ (legalI i = true) ∧
      (i.imm = 0) ∧ (a = (s.coreOf k).r i.rs1 + i.ext) ∧ (0x400000 ≤ a.toNat) ∧ (a.toNat < 0x800000) ∧ (s.mapped k.die.val
      (s.ctxOf (s.coreOf k).tnt 1) (4 * a.toNat) page e) ∧ (pa = 4096 * page + 4 * a.toNat % 4096) ∧ ((s.tag (pa / 64)).ok =
      true)) ∧
    (∃ (k : CoreRef) (i : IForm) (a : V24) (g : LogicImage) (s : State), (s.mayRun k 2) ∧ (legalI i = true) ∧ (i.imm = 0) ∧ (a
      = (s.coreOf k).r i.rs1 + i.ext) ∧ (a.toNat < 0x40000) ∧ ((s.dieOf k).image = some g) ∧ (imgReach g (s.coreOf k).tnt
      a.toNat = true)) ∧
    (∃ (k : CoreRef) (i : IForm) (m : Nat) (s : State), (s.mayRun k 1) ∧ (legalI i = true) ∧ (m = ((s.coreOf k).r i.rs1).toNat
      + i.imm.toNat) ∧ (s.pointOk k.die.val k.core.val m false = true)) ∧
    (∃ (k : CoreRef) (i : IForm) (m : Nat) (s : State), (s.mayRun k 1) ∧ (legalI i = true) ∧ (m = ((s.coreOf k).r i.rs1).toNat
      + i.imm.toNat) ∧ (s.pointOk k.die.val k.core.val m false = true)) ∧
    (∃ (k : CoreRef) (i : IForm) (m : Nat) (s : State), (s.mayRun k 1) ∧ (legalI i = true) ∧ (m = ((s.coreOf k).r i.rs1).toNat
      + i.imm.toNat) ∧ (s.pointOk k.die.val k.core.val m true = true)) ∧
    (∃ (k : CoreRef) (r : RForm) (m : Nat) (s : State), (s.mayRun k 1) ∧ (legalR r = true) ∧ (m = ((s.coreOf k).r
      r.rs1).toNat) ∧ (s.pointOk k.die.val k.core.val m true = true)) ∧
    (∃ (k : CoreRef) (i : IForm) (a : V24) (g : LogicImage) (s : State), (s.mayRun k 1) ∧ (i.rd = 0) ∧ (gen i.rs1 = true) ∧ (a
      = (s.coreOf k).r i.rs1 + i.imm.signExtend 24) ∧ (a.toNat < 0x40000) ∧ ((s.dieOf k).image = some g) ∧ (imgReach g
      (s.coreOf k).tnt a.toNat = true)) ∧
    (∃ (k : CoreRef) (i : IForm) (a : V24) (g : LogicImage) (s : State), (s.mayRun k 1) ∧ (legalI i = true) ∧ (a = (s.coreOf
      k).r i.rs1 + i.imm.signExtend 24) ∧ (a.toNat < 0x40000) ∧ ((s.dieOf k).image = some g) ∧ (imgReach g (s.coreOf k).tnt
      a.toNat = true)) ∧
    (∃ (k : CoreRef) (r : RForm) (a : V24) (g : LogicImage) (yes : Bool) (s : State), (s.mayRun k 1) ∧ (legalR r = true) ∧ (a
      = (s.coreOf k).r r.rs1) ∧ (a.toNat < 0x40000) ∧ ((s.dieOf k).image = some g) ∧ (imgReach g (s.coreOf k).tnt a.toNat =
      true) ∧ (yes = decide (((s.coreOf k).r r.rs2).toNat ≤ (BitVec.ofNat 24 ((s.dieOf k).scanTick.toNat / 16) - (s.dieOf
      k).load a.toNat).toNat))) :=
  ⟨⟨coreRef, { rs1 := 0, imm := 0xFF, rd := 2 }, 4, { codeLen := 100, tasks := [{ inputs := [3], outputs := [3], spillLimit := 0x800100 }] }, coreState regs3, by decide⟩,
   ⟨coreRef, { rs1 := 0, rd := 2 }, 0x40000, coreState { regs3 with regs := [(0, 0x40000)] }, by decide⟩,
   ⟨coreRef, { rs1 := 0, imm := 0xFF, rd := 2 }, 4, { codeLen := 100, tasks := [{ inputs := [3], outputs := [3], spillLimit := 0x800100 }] }, coreState regs3, by decide⟩,
   ⟨coreRef, { rs1 := 0, rd := 2, ext := 0x3FF00 }, 0x3FF05, { codeLen := 100, tasks := [{ inputs := [3], outputs := [3], spillLimit := 0x800100 }] }, coreState regs3, by decide⟩,
   ⟨coreRef, { rs1 := 3, rd := 2, ext := 0x400001 }, 0x400001, 5, {}, 20484, { coreState regs3 with atus := [(1, { tlb := [(16777216 + 4096, (5, {}))] })], tags := [(320, { good := true })], mem := [(20484, 7), (20486, 1)] }, by decide⟩,
   ⟨coreRef, { rs1 := 0, rd := 2, ext := 0x3FF00 }, 0x3FF05, { codeLen := 100, tasks := [{ inputs := [3], outputs := [3], spillLimit := 0x800100 }] }, coreState regs3, by decide⟩,
   ⟨coreRef, { rs1 := 3, rd := 2, imm := 3 }, 3, { coreState regs3 with pnt := { descs := [(3, {})] }, logic := [(1, { mode := .run, inScan := true, image := some { codeLen := 100, tasks := [{ inputs := [3], outputs := [3] }] }, snapshot := [(3, { value := 77 })] })] }, by decide⟩,
   ⟨coreRef, { rs1 := 3, rd := 2, imm := 3 }, 3, { coreState regs3 with pnt := { descs := [(3, {})] }, logic := [(1, { mode := .run, inScan := true, image := some { codeLen := 100, tasks := [{ inputs := [3], outputs := [3] }] }, snapshot := [(3, { value := 77 })] })] }, by decide⟩,
   ⟨coreRef, { rs1 := 3, rd := 2, imm := 3 }, 3, { coreState regs3 with pnt := { descs := [(3, {})] }, logic := [(1, { mode := .run, inScan := true, image := some { codeLen := 100, tasks := [{ inputs := [3], outputs := [3] }] }, snapshot := [(3, { value := 77 })] })] }, by decide⟩,
   ⟨coreRef, { rs1 := 1, rs2 := 0, rd := 2 }, 3, { coreState regs3 with pnt := { descs := [(3, {})] }, logic := [(1, { mode := .run, inScan := true, image := some { codeLen := 100, tasks := [{ inputs := [3], outputs := [3] }] }, snapshot := [(3, { value := 77 })] })] }, by decide⟩,
   ⟨coreRef, { rs1 := 0, imm := 0xFF }, 4, { codeLen := 100, tasks := [{ inputs := [3], outputs := [3], spillLimit := 0x800100 }] }, coreState regs3, by decide⟩,
   ⟨coreRef, { rs1 := 0, imm := 0xFF, rd := 2 }, 4, { codeLen := 100, tasks := [{ inputs := [3], outputs := [3], spillLimit := 0x800100 }] }, coreState regs3, by decide⟩,
   ⟨coreRef, { rs1 := 0, rs2 := 1, rd := 2 }, 5, { codeLen := 100, tasks := [{ inputs := [3], outputs := [3], spillLimit := 0x800100 }] }, false, coreState regs3, by decide⟩⟩

/-- The hypotheses of each clause of ControlInstructionsTakeEffect can be met. -/
theorem test_met_ControlInstructionsTakeEffect :
    (∃ (k : CoreRef) (b : BForm) (s : State), (s.mayRun k 1) ∧ ((s.coreOf k).cond b.cond = true)) ∧
    (∃ (k : CoreRef) (b : BForm) (s : State), (s.mayRun k 1) ∧ ((s.coreOf k).cond b.cond = false)) ∧
    (∃ (k : CoreRef) (b : BForm) (x : CoreSt) (s : State), (s.mayRun k 2) ∧ (b.cond = 0) ∧ (b.disp = 0) ∧ ((s.coreOf k) = x) ∧
      (x.tw = false) ∧ (x.occ ((x.wix + 1) % 10) = false)) ∧
    (∃ (k : CoreRef) (r : RForm) (x : CoreSt) (s : State), (s.mayRun k 1) ∧ (r.rd = 0) ∧ (gen r.rs1 = true) ∧ (r.rs2 = 0) ∧
      (r.fn = 0) ∧ ((s.coreOf k) = x) ∧ (x.tw = false) ∧ (x.occ ((x.wix + 1) % 10) = false)) ∧
    (∃ (k : CoreRef) (r : RForm) (x : CoreSt) (s : State), (s.mayRun k 1) ∧ (zeroR r = true) ∧ ((s.coreOf k) = x) ∧ (x.tw =
      false) ∧ (x.depth ≠ 0) ∧ (x.occ ((x.wix + 9) % 10) = true) ∧ (x.wix < 10)) ∧
    (∃ (k : CoreRef) (r : RForm) (s : State), (s.mayRun k 1) ∧ (zeroR r = true) ∧ ((s.coreOf k).tw = false) ∧ ((s.coreOf
      k).rest = [])) ∧
    (∃ (k : CoreRef) (r : RForm) (n : Nat) (l : List Nat) (z : Task) (s : State), (s.mayRun k 1) ∧ (zeroR r = true) ∧
      ((s.coreOf k).rest = n :: l) ∧ ((s.dieOf k).task? n = some z)) ∧
    (∃ (k : CoreRef) (i : IForm) (g : LogicImage) (s : State), (s.mayRun k 1) ∧ (i.rd = 0) ∧ (gen i.rs1 = true) ∧ ((s.coreOf
      k).tw = false) ∧ ((s.dieOf k).image = some g)) ∧
    (∃ (k : CoreRef) (w : V24) (g : LogicImage) (s : State), (s.coreRuns k.die.val k.core.val = true) ∧ (s.beyond k.die.val
      k.core.val (wordLen w) = false) ∧ ((s.coreOf k).tw = false) ∧ ((s.dieOf k).image = some g) ∧ ((s.coreOf k).ending =
      false) ∧ ((decodeCore k w 0).isNone = true)) ∧
    (∃ (k : CoreRef) (r : RForm) (s : State), (s.mayRun k 1) ∧ (zeroR r = true) ∧ ((s.coreOf k).tw = false) ∧ ((List.range
      4).all (fun j => !(s.core k.die.val j).tw) = true) ∧ ((s.dieOf k).mode = .run)) ∧
    (∃ (k : CoreRef) (s : State), (s.coreRuns k.die.val k.core.val = true) ∧ ((s.coreOf k).atBp = true) ∧ ((List.range 4).all
      (fun j => !(s.core k.die.val j).tw) = true) ∧ ((s.dieOf k).mode = .run)) ∧
    (∃ (k : CoreRef) (r : RForm) (s : State), (s.mayRun k 1) ∧ (gen r.rd = true) ∧ (r.rs1 = 25) ∧ (r.rs2 = 0) ∧ (r.fn = 0)) ∧
    (∃ (k : CoreRef) (r : RForm) (s : State), (s.mayRun k 1) ∧ (gen r.rd = true) ∧ (r.rs1 = 26) ∧ (r.rs2 = 0) ∧ (r.fn = 0)) ∧
    (∃ (k : CoreRef) (r : RForm) (s : State), (s.mayRun k 1) ∧ (gen r.rd = true) ∧ (r.rs1 = 27) ∧ (r.rs2 = 0) ∧ (r.fn = 0)) ∧
    (∃ (k : CoreRef) (r : RForm) (s : State), (s.mayRun k 1) ∧ (gen r.rd = true) ∧ (r.rs1 = 28) ∧ (r.rs2 = 0) ∧ (r.fn = 0)) ∧
    (∃ (k : CoreRef) (r : RForm) (s : State), (s.mayRun k 1) ∧ (gen r.rd = true) ∧ (r.rs1 = 29) ∧ (r.rs2 = 0) ∧ (r.fn = 0)) ∧
    (∃ (k : CoreRef) (r : RForm) (a : V24) (s : State), (s.mayRun k 1) ∧ (r.rd = 27) ∧ (gen r.rs1 = true) ∧ (r.rs2 = 0) ∧
      (r.fn = 0) ∧ ((s.coreOf k).r r.rs1 = a)) ∧
    (∃ (k : CoreRef) (r : RForm) (s : State), (s.mayRun k 1) ∧ (r.rd = 28) ∧ (gen r.rs1 = true) ∧ (r.rs2 = 0) ∧ (r.fn = 0) ∧
      ((s.coreOf k).tw = true)) ∧
    (∃ (k : CoreRef) (r : RForm) (x : CoreSt) (w : Nat) (page : Nat) (e : Pte) (pa : Nat) (s : State), (s.mayRun k 1) ∧
      ((s.coreOf k) = x) ∧ (x.tw = true) ∧ (r.rd = 0) ∧ (gen r.rs1 = true) ∧ (r.rs2 = 0) ∧ (r.fn = 0) ∧ (w = (x.r
      r.rs1).toNat) ∧ (w < 10) ∧ (x.sp.toNat % 16 = 0) ∧ (x.sp.toNat ≠ s.spillLimit k.die.val k.core.val) ∧ (s.mapped
      k.die.val (s.ctxOf x.tnt 1) (4 * x.sp.toNat) page e) ∧ (e.w = true) ∧ (Memory.wf s.mem = true) ∧ (pa = 4096 * page + 4 *
      x.sp.toNat % 4096) ∧ (regionOf x.sp = .spill)) ∧
    (∃ (k : CoreRef) (r : RForm) (x : CoreSt) (w : Nat) (a : V24) (page : Nat) (e : Pte) (pa : Nat) (ws : List Nat) (s :
      State), (s.mayRun k 1) ∧ ((s.coreOf k) = x) ∧ (x.tw = true) ∧ (r.rd = 0) ∧ (gen r.rs1 = true) ∧ (r.rs2 = 0) ∧ (r.fn = 0)
      ∧ (w = (x.r r.rs1).toNat) ∧ (w < 10) ∧ (a = x.sp - 16) ∧ (a.toNat % 16 = 0) ∧ (s.mapped k.die.val (s.ctxOf x.tnt 1) (4 *
      a.toNat) page e) ∧ (pa = 4096 * page + 4 * a.toNat % 4096) ∧ ((s.tag (pa / 64)).ok = true) ∧ (ws = (List.range 16).map
      (fun i => ofLe (memGets s.mem (pa + 4 * i) 4))) ∧ (frameOk ws w (s.dieOf k).seq = true) ∧ (regionOf a = .spill)) ∧
    (∃ (k : CoreRef) (r : RForm) (s : State), (s.mayRun k 1) ∧ ((s.coreOf k).tw = true) ∧ (zeroR r = true) ∧ ((s.dieOf
      k).queue = [])) ∧
    (∃ (k : CoreRef) (r : RForm) (st : V24) (s : State), (s.mayRun k 1) ∧ ((s.coreOf k).tw = true) ∧ (r.rd = 0) ∧ (r.rs1 = 0)
      ∧ (r.rs2 = 0) ∧ (r.fn = 0) ∧ (st = sget 0 (s.coreOf k).regs (trapBase + 9))) ∧
    (∃ (k : CoreRef) (r : RForm) (st : V24) (s : State), (s.mayRun k 1) ∧ ((s.coreOf k).tw = true) ∧ (r.rd = 0) ∧ (r.rs1 = 0)
      ∧ (r.rs2 = 0) ∧ (r.fn = 1) ∧ (st = sget 0 (s.coreOf k).regs (trapBase + 9))) :=
  ⟨⟨coreRef, { cond := 1, disp := 0x3FFF }, coreState { regs3 with z := true }, by decide⟩,
   ⟨coreRef, { cond := 1, disp := 0x3FFF }, coreState regs3, by decide⟩,
   ⟨coreRef, { ext := 50 }, { regs3 with wix := 9, wom := 512, task := some 0 }, coreState { regs3 with wix := 9, wom := 512 }, by decide⟩,
   ⟨coreRef, { rs1 := 1 }, { regs3 with wix := 9, wom := 512, task := some 0 }, coreState { regs3 with wix := 9, wom := 512 }, by decide⟩,
   ⟨coreRef, {}, { regs3 with wix := 0, wom := 513, depth := 1, task := some 0 }, coreState { regs3 with wix := 0, wom := 513, depth := 1 }, by decide⟩,
   ⟨coreRef, {}, coreState regs3, by decide⟩,
   ⟨coreRef, {}, 0, [], { inputs := [3], outputs := [3], spillLimit := 0x800100 }, coreState { regs3 with rest := [0] }, by decide⟩,
   ⟨coreRef, { imm := 7 }, { codeLen := 100, tasks := [{ inputs := [3], outputs := [3], spillLimit := 0x800100 }] }, coreState regs3, by decide⟩,
   ⟨coreRef, 0, { codeLen := 100, tasks := [{ inputs := [3], outputs := [3], spillLimit := 0x800100 }] }, coreState regs3, by decide⟩,
   ⟨coreRef, {}, coreState regs3, by decide⟩,
   ⟨coreRef, coreState { regs3 with bps := [(0, 9)] }, by decide⟩,
   ⟨coreRef, { rd := 2, rs1 := 25 }, coreState regs3, by decide⟩,
   ⟨coreRef, { rd := 2, rs1 := 26 }, coreState regs3, by decide⟩,
   ⟨coreRef, { rd := 2, rs1 := 27 }, coreState regs3, by decide⟩,
   ⟨coreRef, { rd := 2, rs1 := 28 }, coreState regs3, by decide⟩,
   ⟨coreRef, { rd := 2, rs1 := 29 }, coreState regs3, by decide⟩,
   ⟨coreRef, { rd := 27, rs1 := 0 }, 5, coreState regs3, by decide⟩,
   ⟨coreRef, { rd := 28, rs1 := 0 }, coreState { regs3 with tw := true }, by decide⟩,
   ⟨coreRef, { rs1 := 1 }, { regs3 with tw := true, wom := 8, sp := 0x800000, task := some 0 }, 3, 5, { w := true }, 20480, { coreState { regs3 with tw := true, wom := 8, sp := 0x800000 } with atus := [(1, { tlb := [(16777216 + 8192, (5, { w := true }))] })] }, by decide⟩,
   ⟨coreRef, { rs1 := 1 }, { regs3 with tw := true, sp := 0x800010, task := some 0 }, 3, 0x800000, 5, {}, 20480, [9, 0, 0, 0, 0, 0, 0, 0, 0, 0, 0, 0, 0, 0, 3, 5], { coreState { regs3 with tw := true, sp := 0x800010 } with atus := [(1, { tlb := [(16777216 + 8192, (5, {}))] })], tags := [(320, { good := true })], mem := [(20480, 9), (20536, 3), (20540, 5)] }, by decide⟩,
   ⟨coreRef, {}, coreState { regs3 with tw := true }, by decide⟩,
   ⟨coreRef, {}, 1, coreState { regs3 with tw := true, tc := 9, regs := [(0, 5), (144, 9), (145, 1), (147, 0xB40007)] }, by decide⟩,
   ⟨coreRef, { fn := 1 }, 1, coreState { regs3 with tw := true, tc := 9, regs := [(0, 5), (144, 9), (145, 1), (147, 0xB40007)] }, by decide⟩⟩

/-- The hypotheses of each clause of ScansTakeEffect can be met. -/
theorem test_met_ScansTakeEffect :
    (∃ (d : Die) (g : LogicImage) (c : Nat) (s : State), ((s.die d.val).image = some g) ∧ ((s.die d.val).mode = .run) ∧
      ((s.die d.val).inScan = false) ∧ (s.dieUp d.val = true) ∧ (c < 4) ∧ ((s.die d.val).holding = none)) ∧
    (∃ (d : Die) (us : Nat) (g : LogicImage) (s : State), ((s.die d.val).image = some g) ∧ ((s.die d.val).mode = .run) ∧
      ((s.die d.val).inScan = true) ∧ ((List.range 4).all (fun c => (s.core d.val c).task.isNone) = true) ∧ ((s.die
      d.val).pend = false) ∧ ((s.die d.val).queue = [])) ∧
    (∃ (d : Die) (s : State), ((s.die d.val).mode = .run) ∧ ((s.die d.val).inScan = true) ∧ ((s.die d.val).holding = none) ∧
      ((s.die d.val).limitOver s.now = true) ∧ (s.commitDue d.val = false) ∧ ((s.die d.val).queue = [])) ∧
    (∃ (d : Die) (readBack : Bool) (s : State), ((s.die d.val).writing = some false) ∧ (readBack = true)) ∧
    (∃ (d : Die) (readBack : Bool) (s : State), ((s.die d.val).writing = some true) ∧ (readBack = false)) :=
  ⟨⟨1, { tasks := [{ core := 2 }] }, 2, { runState with logic := [(1, { mode := .run, image := some { tasks := [{ core := 2 }] } })] }, by decide⟩,
   ⟨1, 70, {}, { runState with logic := [(1, { mode := .run, inScan := true, image := some {}, journal := [(3, 9)] })] }, by decide⟩,
   ⟨1, { runState with logic := [(1, { mode := .run, inScan := true, image := some {}, journal := [(3, 9)], limit := 10 })], tick := 5000000, cores := [(4, { task := some 0 })] }, by decide⟩,
   ⟨1, true, { runState with logic := [(1, { writing := some false })] }, by decide⟩,
   ⟨1, false, { runState with logic := [(1, { writing := some true })] }, by decide⟩⟩

/-- The hypotheses of each clause of LoopsTakeEffect can be met. -/
theorem test_met_LoopsTakeEffect :
    (∃ (d : Die) (n : LoopNo) (late : Fin 4) (x : LoopSlot) (c : LoopCfg) (p : Int) (u : Int) (y : Eval) (s : State), ((s.loop
      d.val n.val) = x) ∧ (x.cfg = some c) ∧ (s.dieUp d.val = true) ∧ (c.outer = false) ∧ (c.sp = .const) ∧ (c.loc = false) ∧
      (s.now % c.div = c.phase) ∧ (x.lastAt ≠ some s.now) ∧ (s.loopHeld d.val c = false) ∧ (x.pending = false) ∧ ((s.lpe
      d.val).units = []) ∧ (late = 0) ∧ (s.loopPv d.val c = { v := p, q := .good }) ∧ (x.uPrev = some u) ∧ (y = x.eval p
      x.spc.toInt none u (s.loopForced c))) ∧
    (∃ (d : Die) (n : LoopNo) (late : Fin 4) (x : LoopSlot) (c : LoopCfg) (u : Int) (s : State), ((s.loop d.val n.val) = x) ∧
      (x.cfg = some c) ∧ (s.dieUp d.val = true) ∧ (c.outer = false) ∧ (c.sp = .const) ∧ (c.loc = false) ∧ (s.now % c.div =
      c.phase) ∧ (x.lastAt ≠ some s.now) ∧ (s.loopHeld d.val c = false) ∧ (x.pending = false) ∧ ((s.lpe d.val).units = []) ∧
      (late = 0) ∧ ((s.loopPv d.val c).q = .bad) ∧ (x.uPrev = some u)) ∧
    (∃ (d : Die) (n : LoopNo) (late : Fin 4) (x : LoopSlot) (c : LoopCfg) (s : State), ((s.loop d.val n.val) = x) ∧ (x.cfg =
      some c) ∧ (s.dieUp d.val = true) ∧ (c.outer = false) ∧ (s.now % c.div = c.phase) ∧ (x.lastAt ≠ some s.now) ∧ (c.holdf =
      true) ∧ ((s.die d.val).mode = .hold)) ∧
    (∃ (d : Die) (n : LoopNo) (x : LoopSlot) (c : LoopCfg) (k : Nat) (l : Latch) (s : State), (s.dieUp d.val = true) ∧ (s.loop
      d.val n.val = x) ∧ (x.cfg = some c) ∧ (c.outer = false) ∧ (c.loc = false) ∧ (c.sp = .const) ∧ (c.dst = .aout k none) ∧
      (s.loopHeld d.val c = false) ∧ (x.latches = [l]) ∧ (l.due = s.now) ∧ (l.late = false) ∧ (s.fio.safe = false)) ∧
    (∃ (d : Die) (n : LoopNo) (x : LoopSlot) (c : LoopCfg) (m : Nat) (l : Latch) (e : Desc) (s : State), (s.dieUp d.val =
      true) ∧ (s.loop d.val n.val = x) ∧ (x.cfg = some c) ∧ (c.outer = false) ∧ (c.loc = false) ∧ (c.sp = .const) ∧ (c.dst =
      .cell m) ∧ (s.loopHeld d.val c = false) ∧ (x.latches = [l]) ∧ (l.due = s.now) ∧ (l.late = false) ∧ (s.desc? m = some e)
      ∧ (e.fbk = false) ∧ ((s.cell m).forced = false)) ∧
    (∃ (s : State), (s.fio.safe = false) ∧ (s.localSlots = [])) :=
  ⟨⟨1, 9, 0, { cfg := some { pv := .cell 3 }, bankA := { nsec := 1 }, uPrev := some 4 }, { pv := .cell 3 }, 5, 4, LoopSlot.eval { cfg := some { pv := .cell 3 }, bankA := { nsec := 1 }, uPrev := some 4 } 5 0 none 4 false, { runState with loops := [(8201, { cfg := some { pv := .cell 3 }, bankA := { nsec := 1 }, uPrev := some 4 })], pnt := { descs := [(3, {})], cells := [(3, { qual := .good, value := 5 })] } }, by decide⟩,
   ⟨1, 9, 0, { cfg := some { pv := .cell 3 }, uPrev := some 4 }, { pv := .cell 3 }, 4, { runState with loops := [(8201, { cfg := some { pv := .cell 3 }, uPrev := some 4 })], pnt := { descs := [(3, {})], cells := [(3, { qual := .bad, value := 5 })] } }, by decide⟩,
   ⟨1, 9, 0, { cfg := some { holdf := true } }, { holdf := true }, { runState with loops := [(8201, { cfg := some { holdf := true } })], logic := [(1, { mode := .hold })] }, by decide⟩,
   ⟨1, 9, { cfg := some { dst := .aout 2 none }, latches := [{ value := 77 }] }, { dst := .aout 2 none }, 2, { value := 77 }, { runState with loops := [(8201, { cfg := some { dst := .aout 2 none }, latches := [{ value := 77 }] })], fio := { safe := false } }, by decide⟩,
   ⟨1, 9, { cfg := some { dst := .cell 3 }, latches := [{ value := 77 }] }, { dst := .cell 3 }, 3, { value := 77 }, {}, { runState with loops := [(8201, { cfg := some { dst := .cell 3 }, latches := [{ value := 77 }] })], pnt := { descs := [(3, {})] } }, by decide⟩,
   ⟨fioState {} { safe := false, aoNext := [(1, 5)] }, by decide⟩⟩

/-- The hypotheses of each clause of FieldInputsAndOutputsTakeEffect can be met. -/
theorem test_met_FieldInputsAndOutputsTakeEffect :
    (∃ (s : State), (s.fio.safe = true)) ∧
    (∃ (c : Nat) (s : State), (s.fio.safe = false) ∧ (s.outChans.contains c = true) ∧ ((s.ccfg c).safe = .off)) ∧
    (∃ (s : State), (s.su.phase = .running) ∧ (s.fio.wdLogic = false) ∧ (s.fio.linkUp = true)) ∧
    (∃ (s : State), (s.su.phase = .running) ∧ (s.fio.wdLogic = false) ∧ (s.fio.linkUp = false) ∧ (s.fio.configured = true)) ∧
    (∃ (c : Nat) (s : State), (s.fio.safe = false) ∧ (s.fio.refreshed + msTicks s.fio.wdTmo ≤ s.now) ∧ (s.outChans.contains c
      = true) ∧ ((s.ccfg c).safe = .off)) ∧
    (∃ (c : Chan) (high : Bool) (x : ChanSt) (s : State), (s.isOut c.val = false) ∧ (s.isPulse c.val = false) ∧ (s.chan c.val
      = x)) ∧
    (∃ (c : Chan) (x : ChanSt) (s : State), (s.chan c.val = x) ∧ (x.sampling = true) ∧ (x.stBusy = false) ∧ (x.raw = true) ∧
      (x.integ + 1 < (s.ccfg c.val).ftop)) ∧
    (∃ (c : Chan) (x : ChanSt) (s : State), (s.chan c.val = x) ∧ (x.sampling = true) ∧ (x.stBusy = false) ∧ (x.raw = true) ∧
      (x.filt = false) ∧ (x.integ + 1 = (s.ccfg c.val).ftop)) ∧
    (∃ (c : Chan) (x : ChanSt) (s : State), (s.chan c.val = x) ∧ (x.sampling = true) ∧ (x.stBusy = false) ∧ (x.raw = false) ∧
      (x.filt = true) ∧ (x.integ = 1) ∧ (0 < (s.ccfg c.val).ftop)) ∧
    (∃ (analog : Bool) (s : State), (s.fio.linkUp = true) ∧ (analog = false)) ∧
    (∃ (analog : Bool) (s : State), (s.fio.linkUp = true) ∧ (analog = true)) ∧
    (∃ (c : Chan) (s : State), (s.isPulse c.val = true)) ∧
    (∃ (c : Chan) (limiting : Bool) (x : ChanSt) (s : State), (s.chan c.val = x) ∧ (x.on = true) ∧ (x.blanking = true) ∧
      (limiting = false) ∧ (x.retrying = false)) ∧
    (∃ (c : Chan) (limiting : Bool) (x : ChanSt) (s : State), (s.chan c.val = x) ∧ (x.on = true) ∧ (x.blanking = true) ∧
      (limiting = true)) ∧
    (∃ (c : Chan) (limiting : Bool) (x : ChanSt) (s : State), (s.chan c.val = x) ∧ (x.on = true) ∧ (x.blanking = true) ∧
      (limiting = false) ∧ (x.retrying = true)) ∧
    (∃ (c : Chan) (s : State), ((s.chan c.val).on = true) ∧ ((s.chan c.val).blanking = false)) ∧
    (∃ (c : Chan) (x : ChanSt) (s : State), (s.chan c.val = x) ∧ (x.on = true) ∧ (x.blanking = true)) ∧
    (∃ (c : Chan) (s : State), ((s.chan c.val).on = true)) ∧
    (∃ (c : Chan) (x : ChanSt) (s : State), (s.chan c.val = x) ∧ (x.retryPend = true) ∧ (x.on = false) ∧ (x.cooled = false)) ∧
    (∃ (c : Chan) (x : ChanSt) (s : State), (s.chan c.val = x) ∧ (x.retryPend = true) ∧ (x.on = false) ∧ (x.cooled = true) ∧
      ((s.group (c.val / 16)).retryQ = [])) ∧
    (∃ (c : Chan) (x : ChanSt) (s : State), (s.chan c.val = x) ∧ (x.elapsed = false)) ∧
    (∃ (c : Chan) (x : ChanSt) (s : State), (s.chan c.val = x) ∧ (x.retryPend = true) ∧ (x.elapsed = true) ∧ (x.cooled =
      false) ∧ (x.on = false) ∧ ((s.group (c.val / 16)).retryQ = [])) ∧
    (∃ (g : Fin 4) (c : Nat) (s : State), (s.latestOn g.val = some c)) ∧
    (∃ (volts : List Nat) (currents : List Nat) (g : Nat) (mv : Nat) (x : Group) (s : State), (g < 4) ∧ (mv = volts.getD g 0)
      ∧ (s.group g = x)) ∧
    (∃ (c : Nat) (s : State), (s.fio.stInt ≠ 0) ∧ (s.fio.pass = none) ∧ (s.fio.stAt + secTicks s.fio.stInt ≤ s.now) ∧
      (s.fio.configured = true) ∧ (s.stNext 0 = some c)) ∧
    (∃ (c : Chan) (bad : Bool) (s : State), (s.fio.pass = some c.val) ∧ (s.stSkips c.val = false) ∧ (s.isOut c.val = false)) ∧
    (∃ (c : Chan) (bad : Bool) (s : State), (s.fio.pass = some c.val) ∧ (s.stSkips c.val = false) ∧ (s.isOut c.val = true) ∧
      ((s.chan c.val).on = false)) :=
  ⟨⟨fioState {} { linkUp := true, cause := 1 }, by decide⟩,
   ⟨3, fioState { chans := [{ ch := 3, out := true }] } { safe := false, linkUp := true, chans := [(3, { on := true, cmd := true })] }, by decide⟩,
   ⟨{ fioState {} { linkUp := true } with tick := 9 }, by decide⟩,
   ⟨{ fioState {} { configured := true } with tick := 9 }, by decide⟩,
   ⟨3, { fioState { chans := [{ ch := 3, out := true }] } { safe := false, linkUp := true, chans := [(3, { on := true, cmd := true })] } with tick := 1600 }, by decide⟩,
   ⟨3, true, {}, fioState {} {}, by decide⟩,
   ⟨3, { raw := true, sampling := true }, fioState {} { chans := [(3, { raw := true, sampling := true })] }, by decide⟩,
   ⟨3, { raw := true, sampling := true, integ := 4 }, fioState {} { chans := [(3, { raw := true, sampling := true, integ := 4 })] }, by decide⟩,
   ⟨3, { filt := true, sampling := true, integ := 1 }, fioState {} { chans := [(3, { filt := true, sampling := true, integ := 1 })] }, by decide⟩,
   ⟨false, fioState {} { linkUp := true, configured := true }, by decide⟩,
   ⟨true, fioState {} { linkUp := true, configured := true }, by decide⟩,
   ⟨3, fioState { chans := [{ ch := 3, pulse := true }] } {}, by decide⟩,
   ⟨3, false, { on := true, blanking := true }, fioState {} { chans := [(3, { on := true, blanking := true })] }, by decide⟩,
   ⟨3, true, { on := true, blanking := true }, fioState {} { chans := [(3, { on := true, blanking := true })] }, by decide⟩,
   ⟨3, false, { on := true, blanking := true, retrying := true, short := true }, fioState {} { chans := [(3, { on := true, blanking := true, retrying := true, short := true })] }, by decide⟩,
   ⟨3, fioState {} { chans := [(3, { on := true })] }, by decide⟩,
   ⟨3, { on := true, blanking := true }, fioState {} { chans := [(3, { on := true, blanking := true })] }, by decide⟩,
   ⟨3, fioState {} { chans := [(3, { on := true })] }, by decide⟩,
   ⟨3, { retryPend := true, cooled := false }, fioState {} { chans := [(3, { retryPend := true, cooled := false })] }, by decide⟩,
   ⟨3, { retryPend := true }, fioState {} { chans := [(3, { retryPend := true })] }, by decide⟩,
   ⟨3, { retryPend := true }, fioState {} { chans := [(3, { retryPend := true })] }, by decide⟩,
   ⟨3, { retryPend := true, elapsed := true, cmd := true, cooled := false }, fioState {} { chans := [(3, { retryPend := true, elapsed := true, cmd := true, cooled := false })] }, by decide⟩,
   ⟨0, 3, fioState {} { chans := [(3, { on := true })] }, by decide⟩,
   ⟨[24000, 8000], [5, 6], 1, 8000, { below := 1 }, fioState {} { groups := [(1, { below := 1 })] }, by decide⟩,
   ⟨4, { fioState { chans := [{ ch := 4, stEn := true }] } { configured := true, stInt := 9 } with tick := 144000 }, by decide⟩,
   ⟨4, true, fioState { chans := [{ ch := 4, stEn := true }] } { configured := true, pass := some 4 }, by decide⟩,
   ⟨4, true, fioState { chans := [{ ch := 4, out := true, stEn := true }] } { configured := true, pass := some 4 }, by decide⟩⟩

/-- The hypotheses of each clause of MotionAndMeteringTakeEffect can be met. -/
theorem test_met_MotionAndMeteringTakeEffect :
    (∃ (m : MotNo) (c : MotCfg) (x : Motion) (h : Bool) (s : State), (s.motCfg? m.val = some c) ∧ (s.mot m.val = x) ∧ (x.state
      = .coasting) ∧ (x.next = none) ∧ (x.fault = 0) ∧ (x.lastLeg = some h) ∧ (c.pulse = true)) ∧
    (∃ (m : MotNo) (s : State), ((s.mot m.val).dtPend = true) ∧ ((s.mot m.val).state = .idle)) ∧
    (∃ (m : MotNo) (s : State), ((s.mot m.val).dtPend = true) ∧ ((s.mot m.val).state = .dead) ∧ ((s.mot m.val).next = some
      .homeLimit) ∧ (s.limitOn m.val true = false) ∧ ((s.chan (legCh m.val false)).on = false) ∧ ((s.group 3).missing =
      false)) ∧
    (∃ (m : MotNo) (s : State), ((s.mot m.val).state = .far)) ∧
    (∃ (m : MotNo) (c : MotCfg) (s : State), ((s.mot m.val).state = .far) ∧ (s.motCfg? m.val = some c) ∧ (c.pulse = true)) ∧
    (∃ (m : MotNo) (c : MotCfg) (p : Nat) (s : State), (s.motCfg? m.val = some c) ∧ (c.target = some p) ∧ (sfind s.fio.targets
      m.val ≠ some 0x800001) ∧ ((s.cell p).value = 0x800001) ∧ ((s.mot m.val).state = .far)) ∧
    (∃ (s : State), (s.mtr.running = true) ∧ (16000 ≤ s.mtr.tau) ∧ (s.mtr.connected = false ∨ s.mtr.stNext.isSome = true)) ∧
    (∃ (v : Fin 6) (x : Nat) (s : State), ((s.crossNow v.val true).or (s.crossNow v.val false) = some x) ∧ (sfind s.mtr.halfAt
      v.val = none)) ∧
    (∃ (v : Fin 6) (x : Nat) (a : Nat) (m : Nat) (c : CircuitCfg) (e : Desc) (w : V24) (s : State), (s.mtr.running = true) ∧
      ((s.crossNow v.val true).or (s.crossNow v.val false) = some x) ∧ (sfind s.mtr.halfAt v.val = some a) ∧ (a < x) ∧
      (s.cfg.circuits = [c]) ∧ (c.three = false) ∧ (1 ≤ c.phase) ∧ (3 * c.set + c.phase - 1 = v.val) ∧ ((s.vset (v.val /
      3)).vbad.getLsbD (v.val % 3) = false) ∧ (s.mtrPoints c.k (fun q => q == 1 || q == 3) = [(m, e, 0, 1)]) ∧ (s.tested
      (touching c) a = false) ∧ ((s.minput v.val).calBad = false) ∧ (pointValue (rmsOf (sumSq (s.spanFrom v.val a (x - a))) (x
      - a) (s.mcfg v.val).ratio.toNat) 1000 e.exp = (w, false)) ∧ (s.desc? m = some e) ∧ (e.fbk = false) ∧ ((s.cell m).forced
      = false)) ∧
    (∃ (set : Fin 2) (x : Nat) (s : State), (s.mtr.running = true) ∧ ((s.vset set.val).vbad.getLsbD 0 = false) ∧ (s.crossNow
      (3 * set.val) true = some x) ∧ (sfind s.mtr.harmAt set.val = none)) ∧
    (∃ (set : Fin 2) (x : Nat) (a : Nat) (c : Nat) (s : State), (s.mtr.running = true) ∧ ((s.vset set.val).vbad.getLsbD 0 =
      false) ∧ (s.crossNow (3 * set.val) true = some x) ∧ (sfind s.mtr.harmAt set.val = some a) ∧ ((upCross (s.pastHyst (3 *
      set.val)) 0 false false 0 (s.spanFrom (3 * set.val) a (s.now + 1 - a))).length = s.harmCycles set.val) ∧ (s.harmTested
      set.val c a = false) ∧ ((s.harmInputs set.val).contains c = true)) ∧
    (∃ (s : State), (s.mtr.stInt ≠ 0) ∧ (s.mtr.stNext = none) ∧ (s.mtr.stAt + secTicks (60 * s.mtr.stInt) ≤ s.now)) ∧
    (∃ (c : Nat) (s : State), (s.mtr.stNext = some c) ∧ (s.mtr.running = true) ∧ (4000 ≤ s.mtr.tau) ∧ (s.mtr.tau < 7200) ∧
      (s.mtr.connected = false)) ∧
    (∃ (c : Nat) (fail : Bool) (s : State), (s.mtr.stNext = some c) ∧ (c ≠ 53) ∧ (s.mtr.connected = true) ∧ (7200 ≤ s.mtr.tau)
      ∧ (fail = decide (2 * 2 ^ 20 < (s.gainDev c).natAbs * 1000))) :=
  ⟨⟨2, { m := 2, pulse := true, coastMax := 100 }, { state := .coasting, lastLeg := some true, coast := 9, runTicks := 32000 }, true, fioState { motions := [{ m := 2, pulse := true, coastMax := 100 }] } { mots := [(2, { state := .coasting, lastLeg := some true, coast := 9, runTicks := 32000 })] }, by decide⟩,
   ⟨2, fioState {} { mots := [(2, { dtPend := true })] }, by decide⟩,
   ⟨2, fioState {} { mots := [(2, { dtPend := true, state := .dead, next := some .homeLimit })] }, by decide⟩,
   ⟨2, fioState {} { mots := [(2, { state := .far })] }, by decide⟩,
   ⟨2, { m := 2, pulse := true }, fioState { motions := [{ m := 2, pulse := true }] } { mots := [(2, { state := .far, homed := true })] }, by decide⟩,
   ⟨2, { m := 2, target := some 3 }, 3, { fioState { motions := [{ m := 2, target := some 3 }] } { mots := [(2, { state := .far })] } with pnt := { cells := [(3, { value := 0x800001 })] } }, by decide⟩,
   ⟨{ runState with mtr := { running := true, tau := 16000 } }, by decide⟩,
   ⟨0, 9, { runState with tick := 9, mtr := { running := true, inputs := [(0, { samples := [1, -1] })] } }, by decide⟩,
   ⟨0, 9, 8, 3, { phase := 1 }, { bkind := 6, bref := 256 }, 0, { runState with tick := 9, mtr := { running := true, halfAt := [(0, 8)], inputs := [(0, { samples := [1, -1] })] }, cfg := { circuits := [{ phase := 1 }] }, pnt := { descs := [(3, { bkind := 6, bref := 256 })] } }, by set_option maxRecDepth 20000 in decide⟩,
   ⟨0, 9, { runState with tick := 9, mtr := { running := true, inputs := [(0, { samples := [1, -1] })] } }, by decide⟩,
   ⟨0, 30, 10, 1, { runState with tick := 30, mtr := { running := true, harmAt := [(0, 10)], inputs := [(0, { samples := (List.replicate 11 [1, -1]).flatten })] } }, by decide⟩,
   ⟨{ runState with tick := 960000, mtr := { stInt := 1 } }, by decide⟩,
   ⟨5, { runState with mtr := { running := true, tau := 4000, stNext := some 5 } }, by decide⟩,
   ⟨5, true, { runState with mtr := { running := true, tau := 7200, stNext := some 5, connected := true } }, by decide⟩⟩

/-- The hypotheses of each clause of MemoryAndDmaTakeEffect can be met. -/
theorem test_met_MemoryAndDmaTakeEffect :
    (∃ (d : Die) (page : Nat) (owner : Tenant) (map : Option PageMap) (p : Nat) (s : State), (d.val < s.nDies) ∧ (page <
      0xE0000) ∧ (map = none) ∧ (p = d.val * 2 ^ 24 + page) ∧ (s.owner p ≠ owner) ∧ (Memory.wf s.mem = true)) ∧
    (∃ (d : Die) (page : Nat) (owner : Tenant) (map : Option PageMap) (p : Nat) (q : PageMap) (s : State), (d.val < s.nDies) ∧
      (page < 0xE0000) ∧ (p = d.val * 2 ^ 24 + page) ∧ (map = some q) ∧ (owner ≠ 0xFFF)) ∧
    (∃ (d : Die) (s : State), ((s.atu d.val).invBusy = true) ∧ ((List.range 16).all (fun c => (s.dch d.val c).wbLine.isNone ||
      s.dmaStopped d.val c) = true)) ∧
    (∃ (d : Die) (bus : Option DmaAccess) (c : Nat) (x : DmaCh) (s : State), ((s.lpe d.val).units = []) ∧ (s.nextChan d.val =
      some c) ∧ ((s.dma d.val).last = none) ∧ (s.dch d.val c = x) ∧ (x.abort = true) ∧ (x.retrying = false) ∧ (x.wbLine =
      none)) ∧
    (∃ (d : Die) (bus : Option DmaAccess) (c : Nat) (x : DmaCh) (de : Descriptor) (sa : Nat) (n : Nat) (page : Nat) (e : Pte)
      (pa : Nat) (s : State), ((s.lpe d.val).units = []) ∧ (s.nextChan d.val = some c) ∧ ((s.dma d.val).last = none) ∧ (s.dch
      d.val c = x) ∧ (x.abort = false) ∧ (bus = none) ∧ (x.cur = some de) ∧ (de.mode = 0) ∧ (de.srcSp = 0) ∧ (de.dstSp = 2) ∧
      (sa = de.src + x.off) ∧ (n = min (de.count - x.off) (min (64 - sa % 64) (64 - (de.dst + x.off) % 64))) ∧ (x.off + n <
      de.count) ∧ (sa + n ≤ 2 ^ 36) ∧ (s.mapped d.val x.ctx.toNat sa page e) ∧ (pa = 4096 * page + sa % 4096) ∧ ((s.tag (pa /
      64)).ok = true)) ∧
    (∃ (d : Die) (bus : Option DmaAccess) (c : Nat) (x : DmaCh) (de : Descriptor) (page : Nat) (e : Pte) (p : Nat) (page' :
      Nat) (e' : Pte) (q : Nat) (s : State), ((s.lpe d.val).units = []) ∧ (s.nextChan d.val = some c) ∧ ((s.dma d.val).last =
      none) ∧ (s.dch d.val c = x) ∧ (x.abort = false) ∧ (bus = none) ∧ (x.wbLine = none) ∧ (x.wbBytes = []) ∧ (x.cur = some
      de) ∧ (de.mode = 0) ∧ (de.srcSp = 0) ∧ (de.dstSp = 0) ∧ (x.off + 64 < de.count) ∧ ((de.src + x.off) % 64 = 0) ∧ ((de.dst
      + x.off) % 64 = 0) ∧ (de.src + x.off + 64 ≤ 2 ^ 36) ∧ (de.dst + x.off + 64 ≤ 2 ^ 36) ∧ (s.mapped d.val x.ctx.toNat
      (de.src + x.off) page e) ∧ (p = 4096 * page + (de.src + x.off) % 4096) ∧ ((s.tag (p / 64)).ok = true) ∧ (s.mapped d.val
      x.ctx.toNat (de.dst + x.off) page' e') ∧ (e'.w = true) ∧ (q = 4096 * page' + (de.dst + x.off) % 4096) ∧ (Memory.wf s.mem
      = true)) :=
  ⟨⟨1, 5, 2, none, 16777221, runState, by decide⟩,
   ⟨1, 5, 2, some { ctx := 33, va := 4096, w := true }, 16777221, { ctx := 33, va := 4096, w := true }, runState, by decide⟩,
   ⟨1, { runState with atus := [(1, { invBusy := true })] }, by decide⟩,
   ⟨1, none, 8, { state := .running, abort := true }, { runState with dmas := [(1, { chans := [(8, { state := .running, abort := true })] })] }, by decide⟩,
   ⟨1, none, 8, { state := .running, cur := some { count := 100, dstSp := 2 } }, { count := 100, dstSp := 2 }, 0, 64, 5, {}, 20480, { runState with dmas := [(1, { chans := [(8, { state := .running, cur := some { count := 100, dstSp := 2 } })] })], atus := [(1, { tlb := [(0, (5, {}))] })], tags := [(320, { good := true })], mem := [(20480, 1), (20484, 4)] }, by decide⟩,
   ⟨1, none, 8, { state := .running, cur := some { count := 200, dst := 4096 } }, { count := 200, dst := 4096 }, 5, {}, 20480, 6, { w := true }, 24576, { runState with dmas := [(1, { chans := [(8, { state := .running, cur := some { count := 200, dst := 4096 } })] })], atus := [(1, { tlb := [(0, (5, {})), (1, (6, { w := true }))] })], tags := [(320, { good := true })], mem := [(20480, 1), (20484, 4)] }, by decide⟩⟩

/-- The hypotheses of each clause of AccessCommandsTakeEffect can be met. -/
theorem test_met_AccessCommandsTakeEffect :
    (∃ (p : Port) (addr : Byte) (f : SecureFrame) (c : NodeCfg) (k : BitVec 256) (reader : Byte) (method : Byte) (cid : Uid)
      (seq : Byte) (s : State), ((s.port p.val).running = true) ∧ (s.nodeCfg? p.val addr.toNat = some c) ∧ (c.secured = true)
      ∧ (((s.port p.val).node addr.toNat).key = some k) ∧ (f.kgen = ((s.port p.val).node addr.toNat).kgen) ∧ (((s.port
      p.val).node addr.toNat).ctrIn < f.ctr) ∧ (f.ctr < 2 ^ 31) ∧ (f.dir = 1) ∧ (f.body = secureSeal k c.uid 0 addr f.tc
      f.kgen 1 f.ctr f.inner) ∧ (f.inner = .read reader method cid seq)) ∧
    (∃ (p : Port) (addr : Byte) (f : SecureFrame) (n : CtlNode) (s : State), ((s.port p.val).running = true) ∧ ((s.port
      p.val).node addr.toNat = n) ∧ (tagOk (keyFor n.kgen n.prevOk n.key n.prevKey f.kgen) (s.nodeUid p.val addr.toNat) 0 addr
      1 f = false ∨ f.ctr ≤ n.ctrIn)) ∧
    (∃ (q : ReadReq) (l : List ReadReq) (c : DoorCfg) (i : Nat) (r : Cred) (s : State), (s.sec.reads = q :: l) ∧ (s.readerDoor
      q.port q.addr q.reader.toNat = some c) ∧ (s.matching q.cid = [(i, r)]) ∧ (s.judgeRecord c q.method i r = 0)) ∧
    (∃ (q : ReadReq) (l : List ReadReq) (c : DoorCfg) (s : State), (s.sec.reads = q :: l) ∧ (s.readerDoor q.port q.addr
      q.reader.toNat = some c) ∧ (s.matching q.cid = [])) ∧
    (∃ (q : OfflineReq) (l : List OfflineReq) (c : DoorCfg) (i : Nat) (r : Cred) (s : State), (s.sec.offlines = q :: l) ∧
      (s.readerDoor q.port q.addr q.reader.toNat = some c) ∧ (s.matching q.cid = [(i, r)]) ∧ (credAdmits r c = true) ∧
      (q.unlocked = true)) ∧
    (∃ (n : NodeCfg) (x : CtlNode) (k : BitVec 256) (s : State), (s.sec.timeAt + secTicks 60 ≤ s.now) ∧ (s.time.utcOk = true)
      ∧ (s.cfg.nodes = [n]) ∧ (n.secured = true) ∧ (n.cls = 5) ∧ ((s.port n.port).running = true) ∧ (x = (s.port n.port).node
      n.addr) ∧ (x.key = some k) ∧ (x.ctrOut + 1 < 2 ^ 31)) ∧
    (∃ (n : NodeCfg) (s : State), (s.sec.timeAt + secTicks 60 ≤ s.now) ∧ (s.cfg.nodes = [n]) ∧ (((s.port n.port).node
      n.addr).key = none)) ∧
    (∃ (idx : BitVec 20) (area : Nat) (a : Nat) (s : State), (sfind s.sec.locs idx.toNat = some (area, a)) ∧ (s.cfg.doors.any
      (fun c => c.toArea == area && c.forgive != 0 && a + 960000 * c.forgive ≤ s.now) = true)) ∧
    (∃ (slot : Fin 65) (s : State), ((sget {} s.sec.creds slot.val).locked = true) ∧ ((sget {} s.sec.creds slot.val).lockedAt
      + secTicks 60 ≤ s.now)) ∧
    (∃ (door : BitVec 11) (c : DoorCfg) (a : Nat) (s : State), (s.doorCfg? door.toNat = some c) ∧ ((s.door door.toNat).lockAt
      = some a) ∧ (a ≤ s.now) ∧ ((s.door door.toNat).isOpen = false)) ∧
    (∃ (door : BitVec 11) (c : DoorCfg) (a : Nat) (s : State), (s.doorCfg? door.toNat = some c) ∧ ((s.door door.toNat).lockAt
      = some a) ∧ (a ≤ s.now) ∧ ((s.door door.toNat).isOpen = true) ∧ ((s.door door.toNat).state = 2)) ∧
    (∃ (station : Byte) (c : StationCfg) (s : State), (s.stationCfg? station.toNat = some c) ∧ (c.station = station.toNat) ∧
      (sget 0 s.sec.stations station.toNat = 1) ∧ (sget 0 s.sec.floorsTill station.toNat ≤ s.now)) ∧
    (∃ (uid : Uid) (dst : Byte) (f : SecureFrame) (n : Node) (k : BitVec 256) (d : Decide) (s : State), (s.node? uid = some n)
      ∧ (n.takes dst = true) ∧ (n.key = some k) ∧ (f.kgen = n.kgen) ∧ (n.ctrIn < f.ctr) ∧ (f.dir = 0) ∧ (f.body = secureSeal k
      uid dst 0 f.tc f.kgen 0 f.ctr f.inner) ∧ (f.inner = .decide d) ∧ (d.unlock = true)) ∧
    (∃ (uid : Uid) (dst : Byte) (f : SecureFrame) (n : Node) (s : State), (s.node? uid = some n) ∧ (n.takes dst = false ∨
      f.ctr ≤ n.ctrIn ∨ tagOk (keyFor n.kgen n.prevOk n.key n.prevKey f.kgen) uid dst 0 0 f = false)) ∧
    (∃ (uid : Uid) (reader : Byte) (method : Byte) (cid : Uid) (n : Node) (ok : Bool) (s : State), (s.node? uid = some n) ∧
      (n.cls = 5) ∧ (n.mode = .fallback) ∧ (n.clockMs = none) ∧ (n.offlineQ.length < 256) ∧ (ok = n.cache.any (fun e => e.cid
      == cid && (!e.cardPin || method == 2) && e.untilT == 0xFFFFFFFF && e.sched == 0xFF))) :=
  ⟨⟨5, 7, { ctr := 1, dir := 1, body := secureSeal 0 0 0 7 0x48 0 1 1 (.read 1 1 9 0), inner := .read 1 1 9 0 }, { port := 5, addr := 7, secured := true }, 0, 1, 1, 9, 0, { portState { running := true, nodes := [(7, { key := some 0 })] } with cfg := { nodes := [{ port := 5, addr := 7, secured := true }] } }, by decide, by decide, by decide, by decide, by decide, by decide, by decide, by decide, rfl, rfl⟩,
   ⟨5, 7, { ctr := 4, inner := .time 0 0 }, { ctrIn := 4 }, portState { running := true, nodes := [(7, { ctrIn := 4 })] }, by decide, by decide, .inr (by decide)⟩,
   ⟨{ port := 5, addr := 7, reader := 1, cid := 9 }, [], { door := 2, port := 5, addr := 7, reader := 1, toArea := 3 }, 4, { cid := 9, enabled := true, doors := [2] }, { runState with cfg := { doors := [{ door := 2, port := 5, addr := 7, reader := 1, toArea := 3 }] }, sec := { runState.sec with reads := [{ port := 5, addr := 7, reader := 1, cid := 9 }], records := [(4, { cid := 9, enabled := true, doors := [2] })] } }, by decide⟩,
   ⟨{ port := 5, addr := 7, reader := 1, cid := 9 }, [], { door := 2, port := 5, addr := 7, reader := 1, toArea := 3 }, { runState with cfg := { doors := [{ door := 2, port := 5, addr := 7, reader := 1, toArea := 3 }] }, sec := { runState.sec with reads := [{ port := 5, addr := 7, reader := 1, cid := 9 }] } }, by decide⟩,
   ⟨{ port := 5, addr := 7, reader := 1, cid := 9, unlocked := true }, [], { door := 2, port := 5, addr := 7, reader := 1, toArea := 3 }, 4, { cid := 9, enabled := true, doors := [2] }, { runState with cfg := { doors := [{ door := 2, port := 5, addr := 7, reader := 1, toArea := 3 }] }, sec := { runState.sec with offlines := [{ port := 5, addr := 7, reader := 1, cid := 9, unlocked := true }], records := [(4, { cid := 9, enabled := true, doors := [2] })] } }, by decide⟩,
   ⟨{ port := 5, addr := 7, secured := true, cls := 5 }, { key := some 0 }, 0, { portState { running := true, nodes := [(7, { key := some 0 })] } with cfg := { nodes := [{ port := 5, addr := 7, secured := true, cls := 5 }] }, time := { utcOk := true }, tick := 960000 }, by decide⟩,
   ⟨{ port := 5, addr := 7, secured := true, cls := 5 }, { portState { running := true } with cfg := { nodes := [{ port := 5, addr := 7, secured := true, cls := 5 }] }, time := { utcOk := true }, tick := 960000 }, by decide⟩,
   ⟨4, 3, 0, { runState with tick := 960000, cfg := { doors := [{ toArea := 3, forgive := 1 }] }, sec := { runState.sec with locs := [(4, (3, 0))] } }, by decide⟩,
   ⟨3, { runState with tick := 960000, sec := { runState.sec with creds := [(3, { ckind := 1, locked := true, refusals := 5 })] } }, by decide⟩,
   ⟨2, { door := 2 }, 0, { runState with cfg := { doors := [{ door := 2 }] }, sec := { runState.sec with doors := [(2, { state := 1, unlocked := true, lockAt := some 0 })] } }, by decide⟩,
   ⟨2, { door := 2 }, 0, { runState with cfg := { doors := [{ door := 2 }] }, sec := { runState.sec with doors := [(2, { state := 2, unlocked := true, isOpen := true, lockAt := some 0 })] } }, by decide⟩,
   ⟨2, { station := 2 }, { runState with cfg := { stations := [{ station := 2 }] }, sec := { runState.sec with stations := [(2, 1)] } }, by decide⟩,
   ⟨77, 0xFF, { ctr := 1, body := secureSeal 0 77 0xFF 0 0x48 0 0 1 (.decide { unlock := true, time := 50 }), inner := .decide { unlock := true, time := 50 } }, { plan := some {}, mode := .active, key := some 0 }, 0, { unlock := true, time := 50 }, nodeState { plan := some {}, mode := .active, key := some 0 }, by decide, by decide, by decide, by decide, by decide, by decide, rfl, rfl, rfl⟩,
   ⟨77, 9, { ctr := 1, inner := .time 0 0 }, { plan := some {}, mode := .active, key := some 0 }, nodeState { plan := some {}, mode := .active, key := some 0 }, by decide, .inl (by decide)⟩,
   ⟨77, 1, 1, 9, { cls := 5, mode := .fallback, cache := [{ cid := 9, untilT := 0xFFFFFFFF, sched := 0xFF }] }, true, nodeState { cls := 5, mode := .fallback, cache := [{ cid := 9, untilT := 0xFFFFFFFF, sched := 0xFF }] }, by decide⟩⟩

/-- The hypotheses of each clause of DeviceAndSessionRequestsTakeEffect can be met. -/
theorem test_met_DeviceAndSessionRequestsTakeEffect :
    (∃ (r : Req) (h : ReqHead) (i : Nat) (s : State), (s.offers r 0x0101 (· == []) h i)) ∧
    (∃ (r : Req) (h : ReqHead) (i : Nat) (s : State), (s.offers r 0x0102 (· == []) h i) ∧ (s.reqTenant r.sender.val = 0)) ∧
    (∃ (r : Req) (slot : Byte) (h : ReqHead) (i : Nat) (w : Wmk) (s : State), (s.offers r 0x0103 (· == [slot]) h i) ∧
      (slot.toNat < 16) ∧ (s.wmkSeen (s.reqTenant r.sender.val) slot.toNat = true) ∧ (s.wmk slot.toNat = w)) ∧
    (∃ (r : Req) (slot : Byte) (en : Byte) (thr : V24) (hyst : V24) (ten : BitVec 16) (h : ReqHead) (i : Nat) (s : State),
      (s.offers r 0x0104 (· == pack [(slot.toNat, 1), (en.toNat, 1), (thr.toNat, 3), (hyst.toNat, 3), (ten.toNat, 2)]) h i) ∧
      (s.reqTenant r.sender.val = 0) ∧ (slot.toNat < 16) ∧ (en.toNat ≤ 1) ∧ (ten.toNat ≤ 0xFFF)) ∧
    (∃ (r : Req) (slot : Byte) (h : ReqHead) (i : Nat) (s : State), (s.offers r 0x0105 (· == [slot]) h i) ∧ (slot.toNat < 16)
      ∧ (s.wmkSeen (s.reqTenant r.sender.val) slot.toNat = true) ∧ ((s.wmk slot.toNat).en = true)) ∧
    (∃ (r : Req) (die : Byte) (start : Word) (h : ReqHead) (i : Nat) (l : List Nat) (s : State), (s.offers r 0x0106 (· == pack
      [(die.toNat, 1), (start.toNat, 4)]) h i) ∧ (s.reqTenant r.sender.val = 0) ∧ (die.toNat < s.nDies) ∧ (l =
      ((s.poisonedLines die.toNat).drop start.toNat).take (h.rlen / 8))) ∧
    (∃ (r : Req) (pa : BitVec 64) (h : ReqHead) (i : Nat) (s : State), (s.offers r 0x0107 (· == pack [(pa.toNat, 8)]) h i) ∧
      (s.reqTenant r.sender.val = 0) ∧ (pa.toNat % 64 = 0) ∧ (pa.toNat < 2 ^ 40) ∧ (s.paOk pa.toNat = true) ∧ ((s.tag
      (pa.toNat / 64)).poison = true) ∧ (Memory.wf s.mem = true)) ∧
    (∃ (r : Req) (die : Byte) (off : Word) (words : BitVec 16) (gen : Word) (h : ReqHead) (i : Nat) (s : State), (s.offers r
      0x0108 (· == pack [(die.toNat, 1), (off.toNat, 4), (words.toNat, 2), (gen.toNat, 4)]) h i) ∧ (die.toNat < s.nDies) ∧
      (off.toNat % 4 = 0) ∧ (1 ≤ words.toNat) ∧ (words.toNat ≤ 256) ∧ (off.toNat + 4 * words.toNat ≤ 0x2000000) ∧ (gen =
      0xFFFFFFFF)) ∧
    (∃ (r : Req) (die : Byte) (off : Word) (words : BitVec 16) (gen : Word) (h : ReqHead) (i : Nat) (k : Nat) (s : State),
      (s.offers r 0x0108 (· == pack [(die.toNat, 1), (off.toNat, 4), (words.toNat, 2), (gen.toNat, 4)]) h i) ∧ (s.reqTenant
      r.sender.val = 0) ∧ (die.toNat < s.nDies) ∧ (k < 16) ∧ (off = BitVec.ofNat 32 (0x30100 + 4 * k)) ∧ (words = 1) ∧ (gen =
      0xFFFFFFFF)) ∧
    (∃ (r : Req) (die : Byte) (off : Word) (v : Word) (h : ReqHead) (i : Nat) (s : State), (s.offers r 0x0109 (· == pack
      [(die.toNat, 1), (off.toNat, 4), (v.toNat, 4)]) h i) ∧ (s.reqTenant r.sender.val = 0) ∧ (die.toNat < s.nDies) ∧ (off =
      0x30048) ∧ (v = 0)) ∧
    (∃ (r : Req) (c : CredTry) (h : ReqHead) (i : Nat) (s : State), (s.offers r 0x0201 (· == tryBytes c) h i) ∧ (r.sender.val
      < 32) ∧ ((s.sender r.sender.val).opened = false) ∧ (c.ckind = 1 ∨ c.ckind = 2) ∧ (c.slot.toNat < 60) ∧ (s.credPasses
      c.slot.toNat c = true)) ∧
    (∃ (r : Req) (c : CredTry) (h : ReqHead) (i : Nat) (x : CredSlot) (s : State), (s.offers r 0x0201 (· == tryBytes c) h i) ∧
      (r.sender.val < 32) ∧ ((s.sender r.sender.val).opened = false) ∧ (c.ckind = 1 ∨ c.ckind = 2) ∧ (c.slot.toNat < 60) ∧
      (s.credPasses c.slot.toNat c = false) ∧ (s.credSlot c.slot.toNat = x) ∧ (x.locked = false)) ∧
    (∃ (r : Req) (h : ReqHead) (i : Nat) (s : State), (s.offers r 0x0202 (· == []) h i) ∧ (r.sender.val < 32)) ∧
    (∃ (r : Req) (h : ReqHead) (i : Nat) (ten : Tenant) (n : Nat) (s : State), (s.offers r 0x0203 (· == []) h i) ∧
      (s.reqTenant r.sender.val = ten) ∧ (((s.sender r.sender.val).reqs.filter fun q => q.result.isNone).length = n)) ∧
    (∃ (r : Req) (h : ReqHead) (i : Nat) (s : State), (s.offers r 0x0204 (· == []) h i) ∧ (r.sender.val < 32) ∧ (s.host.win =
      none)) ∧
    (∃ (r : Req) (h : ReqHead) (i : Nat) (w : Fin 32) (s : State), (s.offers r 0x0204 (· == []) h i) ∧ (r.sender.val < 32) ∧
      (s.host.win = some w) ∧ (w.val ≠ r.sender.val) ∧ ((s.sender r.sender.val).tenant = 0) ∧ ((s.sender w.val).tenant ≠ 0)) ∧
    (∃ (r : Req) (h : ReqHead) (i : Nat) (s : State), (s.offers r 0x0205 (· == []) h i) ∧ (s.holdsWin r.sender.val = true)) ∧
    (∃ (r : Req) (h : ReqHead) (i : Nat) (l : List Nat) (s : State), (s.offers r 0x0206 (· == []) h i) ∧ (s.reqTenant
      r.sender.val = 0) ∧ ((List.range 32).filter (fun k => (s.sender k).opened) = l)) :=
  ⟨⟨rq, hd 0x0101 [] 0, 0, reqState 0 0x0101 [] 0, by decide⟩,
   ⟨rq, hd 0x0102 [] 0, 0, reqState 0 0x0102 [] 0, by decide⟩,
   ⟨rq, 13, hd 0x0103 [13] 0, 0, { ten := 5, thr := 9 }, { reqState 5 0x0103 [13] 0 with host := { (reqState 5 0x0103 [13] 0).host with wmks := [(13, { ten := 5, thr := 9 })] } }, by decide⟩,
   ⟨rq, 13, 1, 7, 2, 5, hd 0x0104 (pack [(13, 1), (1, 1), (7, 3), (2, 3), (5, 2)]) 0, 0, reqState 0 0x0104 (pack [(13, 1), (1, 1), (7, 3), (2, 3), (5, 2)]) 0, by decide⟩,
   ⟨rq, 13, hd 0x0105 [13] 0, 0, { reqState 5 0x0105 [13] 0 with host := { (reqState 5 0x0105 [13] 0).host with wmks := [(13, { en := true, ten := 5, raised := true, count := 3 })] } }, by decide⟩,
   ⟨rq, 0, 0, hd 0x0106 (pack [(0, 1), (0, 4)]) 64, 0, [3], { reqState 0 0x0106 (pack [(0, 1), (0, 4)]) 64 with tags := [(3, { poison := true })] }, by decide⟩,
   ⟨rq, 192, hd 0x0107 (pack [(192, 8)]) 0, 0, { reqState 0 0x0107 (pack [(192, 8)]) 0 with tags := [(3, { poison := true })] }, by decide⟩,
   ⟨rq, 1, 0x30100, 2, 0xFFFFFFFF, hd 0x0108 (pack [(1, 1), (0x30100, 4), (2, 2), (0xFFFFFFFF, 4)]) 8, 0, withPnt (reqState 0 0x0108 (pack [(1, 1), (0x30100, 4), (2, 2), (0xFFFFFFFF, 4)]) 8) { regs := [(1, { chgmap := [(0, 5), (1, 6)] })] }, by decide⟩,
   ⟨rq, 1, 0x30104, 1, 0xFFFFFFFF, hd 0x0108 (pack [(1, 1), (0x30104, 4), (1, 2), (0xFFFFFFFF, 4)]) 4, 0, 1, withPnt (reqState 0 0x0108 (pack [(1, 1), (0x30104, 4), (1, 2), (0xFFFFFFFF, 4)]) 4) { regs := [(1, { chgmap := [(0, 5), (1, 6)] })] }, by decide⟩,
   ⟨rq, 1, 0x30048, 0, hd 0x0109 (pack [(1, 1), (0x30048, 4), (0, 4)]) 0, 0, withPnt (reqState 0 0x0109 (pack [(1, 1), (0x30048, 4), (0, 4)]) 0) { regs := [(1, { refused := 7 })] }, by decide⟩,
   ⟨rq, { ckind := 1, slot := 4, proof := [7] }, hd 0x0201 [1, 4, 7] 0, 0, { runState with host := { runState.host with mbxRdy := true, cfgOk := true, slots := [(0, { en := true, reqs := [{ head := hd 0x0201 [1, 4, 7] 0 }] })] }, sec := { runState.sec with creds := [(4, { ckind := 1, tenant := 6, verifier := verifierOf [7] })] } }, by decide, by decide, by decide, by decide, by decide, by
      simp [State.credPasses, State.credSlot, sget, secret_ok]⟩,
   ⟨rq, { ckind := 1, slot := 4, proof := [7] }, hd 0x0201 [1, 4, 7] 0, 0, { ckind := 2, tenant := 6 }, { runState with host := { runState.host with mbxRdy := true, cfgOk := true, slots := [(0, { en := true, reqs := [{ head := hd 0x0201 [1, 4, 7] 0 }] })] }, sec := { runState.sec with creds := [(4, { ckind := 2, tenant := 6 })] } }, by decide⟩,
   ⟨rq, hd 0x0202 [] 0, 0, reqState 3 0x0202 [] 0, by decide⟩,
   ⟨rq, hd 0x0203 [] 0, 0, 3, 1, reqState 3 0x0203 [] 0, by decide⟩,
   ⟨rq, hd 0x0204 [] 0, 0, reqState 3 0x0204 [] 0, by decide⟩,
   ⟨rq, hd 0x0204 [] 0, 0, 5, { reqState 0 0x0204 [] 0 with host := { (reqState 0 0x0204 [] 0).host with win := some 5, slots := (reqState 0 0x0204 [] 0).host.slots ++ [(5, { en := true, opened := true, tenant := 9 })] } }, by decide⟩,
   ⟨rq, hd 0x0205 [] 0, 0, { reqState 3 0x0205 [] 0 with host := { (reqState 3 0x0205 [] 0).host with win := some 0 } }, by decide⟩,
   ⟨rq, hd 0x0206 [] 128, 0, [0], reqState 0 0x0206 [] 128, by decide⟩⟩

/-- The hypotheses of each clause of PortRequestsTakeEffect can be met. -/
theorem test_met_PortRequestsTakeEffect :
    (∃ (r : Req) (port : Byte) (en : Byte) (mode : Byte) (h : ReqHead) (i : Nat) (s : State), (s.offers r 0x0401 (· == [port,
      en, mode]) h i) ∧ (s.reqTenant r.sender.val = 0) ∧ (port.toNat < s.nPorts) ∧ (en = 1) ∧ (mode.toNat ≤ 1) ∧ ((s.port
      port.toNat).en = false)) ∧
    (∃ (r : Req) (port : Byte) (en : Byte) (mode : Byte) (h : ReqHead) (i : Nat) (s : State), (s.offers r 0x0401 (· == [port,
      en, mode]) h i) ∧ (s.reqTenant r.sender.val = 0) ∧ (port.toNat < s.nPorts) ∧ (en = 0) ∧ (mode.toNat ≤ 1)) ∧
    (∃ (r : Req) (port : Byte) (en : Byte) (mode : Byte) (h : ReqHead) (i : Nat) (s : State), (s.offers r 0x0401 (· == [port,
      en, mode]) h i) ∧ (s.reqTenant r.sender.val = 0) ∧ (port.toNat < s.nPorts) ∧ (en = 1) ∧ ((s.port port.toNat).en = true)
      ∧ (mode.toNat ≤ 1) ∧ ((s.port port.toNat).mode ≠ (mode == 1))) ∧
    (∃ (r : Req) (port : Byte) (h : ReqHead) (i : Nat) (x : BrPort) (s : State), (s.offers r 0x0402 (· == [port]) h i) ∧
      (s.reqTenant r.sender.val = 0) ∧ (port.toNat < s.nPorts) ∧ (s.port port.toNat = x)) ∧
    (∃ (r : Req) (port : Byte) (cycleMs : BitVec 16) (n : Byte) (gcl : List GclEntry) (h : ReqHead) (i : Nat) (s : State),
      (s.offers r 0x0403 (· == schedData port cycleMs n gcl) h i) ∧ (s.reqTenant r.sender.val = 0) ∧ (port.toNat < s.nPorts) ∧
      (n.toNat = gcl.length) ∧ (gclErrOf cycleMs.toNat gcl.length gcl = 0) ∧ ((s.port port.toNat).pending = false)) ∧
    (∃ (r : Req) (port : Byte) (cycleMs : BitVec 16) (n : Byte) (gcl : List GclEntry) (h : ReqHead) (i : Nat) (e : Nat) (s :
      State), (s.offers r 0x0403 (· == schedData port cycleMs n gcl) h i) ∧ (s.reqTenant r.sender.val = 0) ∧ (port.toNat <
      s.nPorts) ∧ (n.toNat = gcl.length) ∧ (gclErrOf cycleMs.toNat gcl.length gcl = e) ∧ (e ≠ 0) ∧ ((s.port
      port.toNat).pending = false)) ∧
    (∃ (r : Req) (port : Byte) (clear : Byte) (h : ReqHead) (i : Nat) (s : State), (s.offers r 0x0404 (· == [port, clear]) h
      i) ∧ (s.reqTenant r.sender.val = 0) ∧ (port.toNat < s.nPorts) ∧ (clear.toNat ≤ 1)) ∧
    (∃ (r : Req) (port : Byte) (thr : BitVec 16) (h : ReqHead) (i : Nat) (s : State), (s.offers r 0x0405 (· == pack
      [(port.toNat, 1), (thr.toNat, 2)]) h i) ∧ (s.reqTenant r.sender.val = 0) ∧ (port.toNat < s.nPorts)) ∧
    (∃ (r : Req) (port : Byte) (en : Byte) (start : BitVec 16) (stop : BitVec 16) (period : BitVec 16) (rcn : Byte) (h :
      ReqHead) (i : Nat) (s : State), (s.offers r 0x0406 (· == pack [(port.toNat, 1), (en.toNat, 1), (start.toNat, 2),
      (stop.toNat, 2), (period.toNat, 2), (rcn.toNat, 1)]) h i) ∧ (s.reqTenant r.sender.val = 0) ∧ (port.toNat < s.nPorts) ∧
      (en.toNat ≤ 1) ∧ (start.toNat < 1440) ∧ (stop.toNat < 1440) ∧ (1000 ≤ period.toNat) ∧ (period.toNat ≤ 60000) ∧ (1 ≤
      rcn.toNat) ∧ (rcn.toNat ≤ 64)) ∧
    (∃ (r : Req) (port : Byte) (h : ReqHead) (i : Nat) (n : NodeCfg) (x : CtlNode) (s : State), (s.offers r 0x0407 (· ==
      [port]) h i) ∧ (s.reqTenant r.sender.val = 0) ∧ (port.toNat < s.nPorts) ∧ (s.cfg.nodes = [n]) ∧ (n.port = port.toNat) ∧
      ((s.port n.port).node n.addr = x)) ∧
    (∃ (r : Req) (node : BitVec 16) (op : Byte) (args : List Byte) (h : ReqHead) (i : Nat) (p : Nat) (a : Nat) (s : State),
      (s.offers r 0x0408 (· == (leBytes node.toNat 2 ++ op :: args)) h i) ∧ (s.reqTenant r.sender.val = 0) ∧ (node =
      BitVec.ofNat 16 (256 * p + a)) ∧ (p < 128) ∧ (1 ≤ a) ∧ (a ≤ 250) ∧ (args.length ≤ 238) ∧ ((s.nodeCfg? p a).isSome =
      true) ∧ (shas (s.port p).cmds a = false)) ∧
    (∃ (r : Req) (port : Byte) (nslot : Byte) (slotbt : BitVec 16) (h : ReqHead) (i : Nat) (s : State), (s.offers r 0x0409 (·
      == pack [(port.toNat, 1), (nslot.toNat, 1), (slotbt.toNat, 2)]) h i) ∧ (s.reqTenant r.sender.val = 0) ∧ (port.toNat <
      s.nPorts) ∧ (1 ≤ nslot.toNat) ∧ (800 ≤ slotbt.toNat) ∧ (slotbt.toNat ≤ 10000) ∧ ((s.port port.toNat).running = true) ∧
      ((s.port port.toNat).dormant = false)) ∧
    (∃ (r : Req) (port : Byte) (h : ReqHead) (i : Nat) (s : State), (s.offers r 0x040A (· == [port]) h i) ∧ (s.reqTenant
      r.sender.val = 0) ∧ (port.toNat < s.nPorts)) :=
  ⟨⟨rq, 5, 1, 0, hd 0x0401 [5, 1, 0] 0, 0, reqState 0 0x0401 [5, 1, 0] 0, by decide⟩,
   ⟨rq, 5, 0, 1, hd 0x0401 [5, 0, 1] 0, 0, { reqState 0 0x0401 [5, 0, 1] 0 with ports := [(5, { en := true, running := true })] }, by decide⟩,
   ⟨rq, 5, 1, 1, hd 0x0401 [5, 1, 1] 0, 0, { reqState 0 0x0401 [5, 1, 1] 0 with ports := [(5, { en := true, running := true })] }, by decide⟩,
   ⟨rq, 5, hd 0x0402 [5] 0, 0, { en := true, cycnum := 9 }, { reqState 0 0x0402 [5] 0 with ports := [(5, { en := true, cycnum := 9 })] }, by decide⟩,
   ⟨rq, 5, 25, 1, [{ duration := 250000 }], hd 0x0403 (schedData 5 25 1 ([{ duration := 250000 }] : List GclEntry)) 0, 0, reqState 0 0x0403 (schedData 5 25 1 ([{ duration := 250000 }] : List GclEntry)) 0, by decide⟩,
   ⟨rq, 5, 25, 0, [], hd 0x0403 (schedData 5 25 0 ([] : List GclEntry)) 0, 0, 4, reqState 0 0x0403 (schedData 5 25 0 ([] : List GclEntry)) 0, by decide⟩,
   ⟨rq, 5, 1, hd 0x0404 [5, 1] 140, 0, { reqState 0 0x0404 [5, 1] 140 with ports := [(5, { ctr := [(1, 4)] })] }, by decide⟩,
   ⟨rq, 5, 3, hd 0x0405 (pack [(5, 1), (3, 2)]) 0, 0, reqState 0 0x0405 (pack [(5, 1), (3, 2)]) 0, by decide⟩,
   ⟨rq, 5, 1, 1439, 0, 60000, 64, hd 0x0406 (pack [(5, 1), (1, 1), (1439, 2), (0, 2), (60000, 2), (64, 1)]) 0, 0, reqState 0 0x0406 (pack [(5, 1), (1, 1), (1439, 2), (0, 2), (60000, 2), (64, 1)]) 0, by decide⟩,
   ⟨rq, 5, hd 0x0407 [5] 12, 0, { port := 5, addr := 7, uid := 9, cls := 5 }, {}, { reqState 0 0x0407 [5] 12 with cfg := { moduleId := 1, nodes := [{ port := 5, addr := 7, uid := 9, cls := 5 }] } }, by decide⟩,
   ⟨rq, 0x507, 2, [1, 2], hd 0x0408 (leBytes 0x507 2 ++ 2 :: ([1, 2] : List Byte)) 0, 0, 5, 7, { reqState 0 0x0408 (leBytes 0x507 2 ++ 2 :: ([1, 2] : List Byte)) 0 with cfg := { moduleId := 1, nodes := [{ port := 5, addr := 7, uid := 9, cls := 5 }] } }, by decide⟩,
   ⟨rq, 5, 8, 800, hd 0x0409 (pack [(5, 1), (8, 1), (800, 2)]) 0, 0, { reqState 0 0x0409 (pack [(5, 1), (8, 1), (800, 2)]) 0 with ports := [(5, { en := true, running := true })] }, by decide⟩,
   ⟨rq, 5, hd 0x040A [5] 18, 0, { reqState 0 0x040A [5] 18 with ports := [(5, { unbound := [(7, 1)] })] }, by decide⟩⟩

/-- The hypotheses of each clause of TrunkRequestsTakeEffect can be met. -/
theorem test_met_TrunkRequestsTakeEffect :
    (∃ (r : Req) (port : Byte) (h : ReqHead) (i : Nat) (p : Bool) (x : TrkPort) (s : State), (s.offers r 0x0501 (· == [port])
      h i) ∧ (s.reqTenant r.sender.val = 0) ∧ (port = (if p then 1 else 0)) ∧ (s.tport p = x)) ∧
    (∃ (r : Req) (port : Byte) (v : BitVec 16) (h : ReqHead) (i : Nat) (p : Bool) (s : State), (s.offers r 0x0502 (· == pack
      [(port.toNat, 1), (v.toNat, 2)]) h i) ∧ (s.reqTenant r.sender.val = 0) ∧ (port = (if p then 1 else 0)) ∧ ((s.tport p).en
      = false) ∧ (v.getLsbD 0 = true) ∧ (v.getLsbD 2 = false)) ∧
    (∃ (r : Req) (port : Byte) (v : BitVec 16) (h : ReqHead) (i : Nat) (p : Bool) (s : State), (s.offers r 0x0502 (· == pack
      [(port.toNat, 1), (v.toNat, 2)]) h i) ∧ (s.reqTenant r.sender.val = 0) ∧ (port = (if p then 1 else 0)) ∧ (v.getLsbD 0 =
      false) ∧ (v.getLsbD 2 = false)) ∧
    (∃ (r : Req) (port : Byte) (n : BitVec 16) (gcl : List TrkEntry) (h : ReqHead) (i : Nat) (p : Bool) (s : State), (s.offers
      r 0x0503 (· == trkSchedData port n gcl) h i) ∧ (s.reqTenant r.sender.val = 0) ∧ (port = (if p then 1 else 0)) ∧ (n.toNat
      = gcl.length) ∧ (1 ≤ n.toNat) ∧ (n.toNat ≤ 256) ∧ (trkGclErr gcl.length gcl = 0) ∧ ((s.tport p).pending = false)) ∧
    (∃ (r : Req) (port : Byte) (clear : Byte) (h : ReqHead) (i : Nat) (p : Bool) (s : State), (s.offers r 0x0504 (· == [port,
      clear]) h i) ∧ (s.reqTenant r.sender.val = 0) ∧ (port = (if p then 1 else 0)) ∧ (clear.toNat ≤ 1)) ∧
    (∃ (r : Req) (port : Byte) (thr : BitVec 16) (h : ReqHead) (i : Nat) (p : Bool) (s : State), (s.offers r 0x0505 (· == pack
      [(port.toNat, 1), (thr.toNat, 2)]) h i) ∧ (s.reqTenant r.sender.val = 0) ∧ (port = (if p then 1 else 0))) ∧
    (∃ (r : Req) (h : ReqHead) (i : Nat) (e : Topology) (s : State), (s.offers r 0x0506 (· == []) h i) ∧ (s.reqTenant
      r.sender.val = 0) ∧ (ringFrom s.trk.ringMap s.ownId s.ownId 255 s.trk.a.neigh = [e])) ∧
    (∃ (r : Req) (prio : Byte) (h : ReqHead) (i : Nat) (s : State), (s.offers r 0x0507 (· == [prio]) h i) ∧ (s.reqTenant
      r.sender.val = 0)) :=
  ⟨⟨rq, 1, hd 0x0501 [1] 0, 0, true, { neigh := 9 }, { reqState 0 0x0501 [1] 0 with trk := { b := { neigh := 9 } } }, by decide⟩,
   ⟨rq, 1, 3, hd 0x0502 (pack [(1, 1), (3, 2)]) 0, 0, true, { reqState 0 0x0502 (pack [(1, 1), (3, 2)]) 0 with trk := { b := { en := false } } }, by decide⟩,
   ⟨rq, 0, 2, hd 0x0502 (pack [(0, 1), (2, 2)]) 0, 0, false, reqState 0 0x0502 (pack [(0, 1), (2, 2)]) 0, by decide⟩,
   ⟨rq, 1, 1, [{ duration := 206869, gates := 0xFF }], hd 0x0503 (trkSchedData 1 1 ([{ duration := 206869, gates := 0xFF }] : List TrkEntry)) 0, 0, true, reqState 0 0x0503 (trkSchedData 1 1 ([{ duration := 206869, gates := 0xFF }] : List TrkEntry)) 0, by decide⟩,
   ⟨rq, 1, 1, hd 0x0504 [1, 1] 128, 0, true, reqState 0 0x0504 [1, 1] 128, by decide⟩,
   ⟨rq, 1, 0xFFFF, hd 0x0505 (pack [(1, 1), (0xFFFF, 2)]) 0, 0, true, reqState 0 0x0505 (pack [(1, 1), (0xFFFF, 2)]) 0, by decide⟩,
   ⟨rq, hd 0x0506 [] 4, 0, { id := 9, neighA := 1, neighB := 1 }, { reqState 0 0x0506 [] 4 with trk := { relayOnly := false, a := { neigh := 9 }, ringMap := [(9, { id := 9, neighA := 1, neighB := 1 })] } }, by decide⟩,
   ⟨rq, 77, hd 0x0507 [77] 0, 0, reqState 0 0x0507 [77] 0, by decide⟩⟩

/-- The hypotheses of each clause of LogicRequestsTakeEffect can be met. -/
theorem test_met_LogicRequestsTakeEffect :
    (∃ (r : Req) (die : Byte) (h : ReqHead) (i : Nat) (g : LogicDie) (s : State), (s.offers r 0x0601 (· == [die]) h i) ∧
      (s.reqTenant r.sender.val = 0) ∧ (die.toNat < s.nDies) ∧ (s.die die.toNat = g)) ∧
    (∃ (r : Req) (mask : Byte) (warm : Byte) (h : ReqHead) (i : Nat) (d : Nat) (m : LogicImage) (s : State), (s.offers r
      0x0602 (· == [mask, warm]) h i) ∧ (s.reqTenant r.sender.val = 0) ∧ (mask = BitVec.ofNat 8 (2 ^ d)) ∧ (d < s.nDies) ∧
      (warm = 0) ∧ (s.dieUp d = true) ∧ ((s.die d).mode = .stop) ∧ ((s.die d).image = some m)) ∧
    (∃ (r : Req) (mask : Byte) (warm : Byte) (h : ReqHead) (i : Nat) (d : Nat) (m : LogicImage) (x : RetainSlot) (s : State),
      (s.offers r 0x0602 (· == [mask, warm]) h i) ∧ (s.reqTenant r.sender.val = 0) ∧ (mask = BitVec.ofNat 8 (2 ^ d)) ∧ (d <
      s.nDies) ∧ (warm = 1) ∧ (s.dieUp d = true) ∧ ((s.die d).mode = .stop) ∧ ((s.die d).image = some m) ∧ ((s.die d).warmSlot
      m.retainId = some x)) ∧
    (∃ (r : Req) (mask : Byte) (h : ReqHead) (i : Nat) (d : Nat) (s : State), (s.offers r 0x0603 (· == [mask]) h i) ∧
      (s.reqTenant r.sender.val = 0) ∧ (mask = BitVec.ofNat 8 (2 ^ d)) ∧ (d < s.nDies) ∧ ((s.die d).mode = .run) ∧ ((s.die
      d).inScan = true)) ∧
    (∃ (r : Req) (mask : Byte) (h : ReqHead) (i : Nat) (d : Nat) (s : State), (s.offers r 0x0603 (· == [mask]) h i) ∧
      (s.reqTenant r.sender.val = 0) ∧ (mask = BitVec.ofNat 8 (2 ^ d)) ∧ (d < s.nDies) ∧ ((s.die d).mode = .run) ∧ ((s.die
      d).inScan = false)) ∧
    (∃ (r : Req) (mask : Byte) (h : ReqHead) (i : Nat) (d : Nat) (s : State), (s.offers r 0x0603 (· == [mask]) h i) ∧
      (s.reqTenant r.sender.val = 0) ∧ (mask = BitVec.ofNat 8 (2 ^ d)) ∧ (d < s.nDies) ∧ ((s.die d).mode = .stop)) ∧
    (∃ (r : Req) (mask : Byte) (h : ReqHead) (i : Nat) (d : Nat) (s : State), (s.offers r 0x0604 (· == [mask]) h i) ∧
      (s.reqTenant r.sender.val = 0) ∧ (mask = BitVec.ofNat 8 (2 ^ d)) ∧ (d < s.nDies) ∧ ((s.die d).mode = .run) ∧ ((s.die
      d).holding = none) ∧ ((s.die d).holdReqs = []) ∧ ((List.range 4).all (fun c => !(s.core d c).tw) = true)) ∧
    (∃ (r : Req) (mask : Byte) (h : ReqHead) (i : Nat) (d : Nat) (s : State), (s.offers r 0x0604 (· == [mask]) h i) ∧
      (s.reqTenant r.sender.val = 0) ∧ (mask = BitVec.ofNat 8 (2 ^ d)) ∧ (d < s.nDies) ∧ ((s.die d).mode = .run) ∧ ((s.die
      d).holding = none) ∧ ((s.die d).holdReqs = []) ∧ (∃ c < 4, (s.core d c).tw = true)) ∧
    (∃ (r : Req) (mask : Byte) (h : ReqHead) (i : Nat) (d : Nat) (s : State), (s.offers r 0x0606 (· == [mask]) h i) ∧
      (s.reqTenant r.sender.val = 0) ∧ (mask = BitVec.ofNat 8 (2 ^ d)) ∧ (d < s.nDies) ∧ ((s.die d).mode = .hold) ∧ ((s.die
      d).fault = false)) ∧
    (∃ (r : Req) (die : Byte) (core : Byte) (h : ReqHead) (i : Nat) (k : Nat) (s : State), (s.offers r 0x0605 (· == [die,
      core]) h i) ∧ (s.reqTenant r.sender.val = 0) ∧ (die.toNat < s.nDies) ∧ (core.toNat < 4) ∧ ((s.die die.toNat).mode =
      .hold) ∧ ((s.die die.toNat).fault = false) ∧ ((s.core die.toNat core.toNat).stepping = false) ∧ ((s.core die.toNat
      core.toNat).task = some k)) ∧
    (∃ (r : Req) (mask : Byte) (img : LogicImage) (ck : ImageCheck) (h : ReqHead) (i : Nat) (d : Nat) (s : State), (s.offers r
      0x0607 (fun d => d.head? == some mask) h i) ∧ (s.reqTenant r.sender.val = 0) ∧ (mask = BitVec.ofNat 8 (2 ^ d)) ∧ (d <
      s.nDies) ∧ (1 ≤ h.len) ∧ (s.signed ck = true) ∧ (logicBad s.cfg.tenants img = false) ∧ ((s.die d).mode = .stop)) ∧
    (∃ (r : Req) (die : Byte) (h : ReqHead) (i : Nat) (l : List Nat) (s : State), (s.offers r 0x0608 (· == [die]) h i) ∧
      (die.toNat < s.nDies) ∧ ((List.range 64).filter (fun n => ((s.die die.toNat).task? n).any fun k => reaches (s.reqTenant
      r.sender.val) k.tenant) = l)) ∧
    (∃ (r : Req) (die : Byte) (task : Byte) (addr : V24) (count : BitVec 16) (h : ReqHead) (i : Nat) (m : LogicImage) (k :
      Task) (s : State), (s.offers r 0x0609 (· == pack [(die.toNat, 1), (task.toNat, 1), (addr.toNat, 3), (count.toNat, 2)]) h
      i) ∧ (die.toNat < s.nDies) ∧ (task.toNat < 64) ∧ ((s.die die.toNat).image = some m) ∧ ((s.die die.toNat).task?
      task.toNat = some k) ∧ (reaches (s.reqTenant r.sender.val) k.tenant = true) ∧ (1 ≤ count.toNat) ∧ (count.toNat ≤ 1024) ∧
      (addr.toNat + count.toNat ≤ 262144) ∧ ((List.range count.toNat).all (fun j => imgReach m k.tenant (addr.toNat + j)) =
      true)) ∧
    (∃ (r : Req) (die : Byte) (task : Byte) (addr : V24) (v : V24) (h : ReqHead) (i : Nat) (m : LogicImage) (k : Task) (s :
      State), (s.offers r 0x060A (· == pack [(die.toNat, 1), (task.toNat, 1), (addr.toNat, 3), (v.toNat, 3)]) h i) ∧
      (die.toNat < s.nDies) ∧ (task.toNat < 64) ∧ ((s.die die.toNat).image = some m) ∧ ((s.die die.toNat).task? task.toNat =
      some k) ∧ (reaches (s.reqTenant r.sender.val) k.tenant = true) ∧ (addr.toNat < 262144) ∧ (imgReach m k.tenant addr.toNat
      = true) ∧ ((s.die die.toNat).mode = .stop)) ∧
    (∃ (r : Req) (die : Byte) (task : Byte) (addr : V24) (v : V24) (h : ReqHead) (i : Nat) (m : LogicImage) (k : Task) (s :
      State), (s.offers r 0x060A (· == pack [(die.toNat, 1), (task.toNat, 1), (addr.toNat, 3), (v.toNat, 3)]) h i) ∧
      (die.toNat < s.nDies) ∧ (task.toNat < 64) ∧ ((s.die die.toNat).image = some m) ∧ ((s.die die.toNat).task? task.toNat =
      some k) ∧ (reaches (s.reqTenant r.sender.val) k.tenant = true) ∧ (addr.toNat < 262144) ∧ (imgReach m k.tenant addr.toNat
      = true) ∧ ((s.die die.toNat).mode ≠ .stop) ∧ ((s.die die.toNat).queue.length < 256)) ∧
    (∃ (r : Req) (die : Byte) (task : Byte) (idx : BitVec 16) (v : V24) (h : ReqHead) (i : Nat) (m : LogicImage) (k : Task) (s
      : State), (s.offers r 0x060B (· == pack [(die.toNat, 1), (task.toNat, 1), (idx.toNat, 2), (v.toNat, 3)]) h i) ∧
      (die.toNat < s.nDies) ∧ (task.toNat < 64) ∧ ((s.die die.toNat).image = some m) ∧ ((s.die die.toNat).task? task.toNat =
      some k) ∧ (reaches (s.reqTenant r.sender.val) k.tenant = true) ∧ (idx.toNat < m.consts.length) ∧ (constSeen m
      (s.reqTenant r.sender.val) idx.toNat = true) ∧ ((s.die die.toNat).mode = .stop)) ∧
    (∃ (r : Req) (die : Byte) (task : Byte) (idx : BitVec 16) (v : V24) (h : ReqHead) (i : Nat) (m : LogicImage) (k : Task) (s
      : State), (s.offers r 0x060B (· == pack [(die.toNat, 1), (task.toNat, 1), (idx.toNat, 2), (v.toNat, 3)]) h i) ∧
      (die.toNat < s.nDies) ∧ (task.toNat < 64) ∧ ((s.die die.toNat).image = some m) ∧ ((s.die die.toNat).task? task.toNat =
      some k) ∧ (reaches (s.reqTenant r.sender.val) k.tenant = true) ∧ (idx.toNat < m.consts.length) ∧ (constSeen m
      (s.reqTenant r.sender.val) idx.toNat = true) ∧ ((s.die die.toNat).mode ≠ .stop) ∧ ((s.die die.toNat).queue.length <
      256)) ∧
    (∃ (r : Req) (die : Byte) (core : Byte) (idx : Byte) (addr : V24) (en : Byte) (h : ReqHead) (i : Nat) (s : State),
      (s.offers r 0x060C (· == pack [(die.toNat, 1), (core.toNat, 1), (idx.toNat, 1), (addr.toNat, 3), (en.toNat, 1)]) h i) ∧
      (s.reqTenant r.sender.val = 0) ∧ (die.toNat < s.nDies) ∧ (core.toNat < 4) ∧ (idx.toNat < 4) ∧ (en.toNat ≤ 1)) ∧
    (∃ (r : Req) (die : Byte) (core : Byte) (h : ReqHead) (i : Nat) (k : Nat) (b : Map V24) (s : State), (s.offers r 0x060D (·
      == [die, core]) h i) ∧ (die.toNat < s.nDies) ∧ (core.toNat < 4) ∧ ((s.core die.toNat core.toNat).task = some k) ∧
      ((s.core die.toNat core.toNat).tnt = s.reqTenant r.sender.val) ∧ ((s.core die.toNat core.toNat).bps = b)) ∧
    (∃ (r : Req) (die : Byte) (core : Byte) (h : ReqHead) (i : Nat) (x : CoreSt) (s : State), (s.offers r 0x060E (· == [die,
      core]) h i) ∧ (s.reqTenant r.sender.val = 0) ∧ (die.toNat < s.nDies) ∧ (core.toNat < 4) ∧ ((s.die die.toNat).mode =
      .hold) ∧ (s.core die.toNat core.toNat = x) ∧ (x.tw = false)) :=
  ⟨⟨rq, 1, hd 0x0601 [1] 0, 0, { seq := 7 }, { reqState 0 0x0601 [1] 0 with logic := [(1, { seq := 7 })] }, by decide⟩,
   ⟨rq, 2, 0, hd 0x0602 [2, 0] 0, 0, 1, {}, { reqState 0 0x0602 [2, 0] 0 with logic := [(1, { image := some {} })] }, by decide⟩,
   ⟨rq, 2, 1, hd 0x0602 [2, 1] 0, 0, 1, {}, { good := true }, { reqState 0 0x0602 [2, 1] 0 with logic := [(1, { image := some {}, slotA := { good := true } })] }, by decide⟩,
   ⟨rq, 2, hd 0x0603 [2] 0, 0, 1, { reqState 0 0x0603 [2] 0 with logic := [(1, { image := some {}, mode := .run, inScan := true })] }, by decide⟩,
   ⟨rq, 2, hd 0x0603 [2] 0, 0, 1, { reqState 0 0x0603 [2] 0 with logic := [(1, { image := some {}, mode := .run })] }, by decide⟩,
   ⟨rq, 2, hd 0x0603 [2] 0, 0, 1, { reqState 0 0x0603 [2] 0 with logic := [(1, { image := some {} })] }, by decide⟩,
   ⟨rq, 2, hd 0x0604 [2] 0, 0, 1, { reqState 0 0x0604 [2] 0 with logic := [(1, { image := some {}, mode := .run })] }, by decide⟩,
   ⟨rq, 2, hd 0x0604 [2] 0, 0, 1, { reqState 0 0x0604 [2] 0 with logic := [(1, { image := some {}, mode := .run })], cores := [(6, { tw := true })] }, by decide⟩,
   ⟨rq, 2, hd 0x0606 [2] 0, 0, 1, { reqState 0 0x0606 [2] 0 with logic := [(1, { image := some {}, mode := .hold })] }, by decide⟩,
   ⟨rq, 1, 3, hd 0x0605 [1, 3] 0, 0, 2, { reqState 0 0x0605 [1, 3] 0 with logic := [(1, { image := some {}, mode := .hold })], cores := [(7, { task := some 2 })] }, by decide⟩,
   ⟨rq, 2, { imageId := 9 }, { signer := 7 }, hd 0x0607 [2] 0, 0, 1, { reqState 0 0x0607 [2] 0 with sec := { runState.sec with keyHashes := [7] } }, by decide⟩,
   ⟨rq, 1, hd 0x0608 [1] 8, 0, [3], { reqState 5 0x0608 [1] 8 with logic := [(1, { image := some { tasks := [{ no := 3, tenant := 5 }] } })] }, by decide⟩,
   ⟨rq, 1, 3, 199, 1, hd 0x0609 (pack [(1, 1), (3, 1), (199, 3), (1, 2)]) 4, 0, { tasks := [{ no := 3, tenant := 5 }], partitions := [{ tenant := 5, lo := 100, hi := 200 }], consts := [1, 2] }, { no := 3, tenant := 5 }, { reqState 5 0x0609 (pack [(1, 1), (3, 1), (199, 3), (1, 2)]) 4 with logic := [(1, { image := some { tasks := [{ no := 3, tenant := 5 }], partitions := [{ tenant := 5, lo := 100, hi := 200 }], consts := [1, 2] } })] }, by decide⟩,
   ⟨rq, 1, 3, 150, 77, hd 0x060A (pack [(1, 1), (3, 1), (150, 3), (77, 3)]) 0, 0, { tasks := [{ no := 3, tenant := 5, constHi := 2 }], partitions := [{ tenant := 5, lo := 100, hi := 200 }], consts := [1, 2] }, { no := 3, tenant := 5, constHi := 2 }, { reqState 5 0x060A (pack [(1, 1), (3, 1), (150, 3), (77, 3)]) 0 with logic := [(1, { image := some { tasks := [{ no := 3, tenant := 5, constHi := 2 }], partitions := [{ tenant := 5, lo := 100, hi := 200 }], consts := [1, 2] } })] }, by decide⟩,
   ⟨rq, 1, 3, 150, 77, hd 0x060A (pack [(1, 1), (3, 1), (150, 3), (77, 3)]) 0, 0, { tasks := [{ no := 3, tenant := 5, constHi := 2 }], partitions := [{ tenant := 5, lo := 100, hi := 200 }], consts := [1, 2] }, { no := 3, tenant := 5, constHi := 2 }, { reqState 5 0x060A (pack [(1, 1), (3, 1), (150, 3), (77, 3)]) 0 with logic := [(1, { image := some { tasks := [{ no := 3, tenant := 5, constHi := 2 }], partitions := [{ tenant := 5, lo := 100, hi := 200 }], consts := [1, 2] }, mode := .run })] }, by decide⟩,
   ⟨rq, 1, 3, 1, 77, hd 0x060B (pack [(1, 1), (3, 1), (1, 2), (77, 3)]) 0, 0, { tasks := [{ no := 3, tenant := 5, constHi := 2 }], partitions := [{ tenant := 5, lo := 100, hi := 200 }], consts := [1, 2] }, { no := 3, tenant := 5, constHi := 2 }, { reqState 5 0x060B (pack [(1, 1), (3, 1), (1, 2), (77, 3)]) 0 with logic := [(1, { image := some { tasks := [{ no := 3, tenant := 5, constHi := 2 }], partitions := [{ tenant := 5, lo := 100, hi := 200 }], consts := [1, 2] } })] }, by decide⟩,
   ⟨rq, 1, 3, 1, 77, hd 0x060B (pack [(1, 1), (3, 1), (1, 2), (77, 3)]) 0, 0, { tasks := [{ no := 3, tenant := 5, constHi := 2 }], partitions := [{ tenant := 5, lo := 100, hi := 200 }], consts := [1, 2] }, { no := 3, tenant := 5, constHi := 2 }, { reqState 5 0x060B (pack [(1, 1), (3, 1), (1, 2), (77, 3)]) 0 with logic := [(1, { image := some { tasks := [{ no := 3, tenant := 5, constHi := 2 }], partitions := [{ tenant := 5, lo := 100, hi := 200 }], consts := [1, 2] }, mode := .run })] }, by decide⟩,
   ⟨rq, 1, 3, 3, 9, 1, hd 0x060C (pack [(1, 1), (3, 1), (3, 1), (9, 3), (1, 1)]) 0, 0, reqState 0 0x060C (pack [(1, 1), (3, 1), (3, 1), (9, 3), (1, 1)]) 0, by decide⟩,
   ⟨rq, 1, 3, hd 0x060D [1, 3] 16, 0, 3, [(3, 9)], { reqState 5 0x060D [1, 3] 16 with cores := [(7, { task := some 3, tnt := 5, bps := [(3, 9)] })] }, by decide⟩,
   ⟨rq, 1, 3, hd 0x060E [1, 3] 700, 0, { pc := 5 }, { reqState 0 0x060E [1, 3] 700 with logic := [(1, { image := some {}, mode := .hold })], cores := [(7, { pc := 5 })] }, by decide⟩⟩

/-- The hypotheses of each clause of LoopRequestsTakeEffect can be met. -/
theorem test_met_LoopRequestsTakeEffect :
    (∃ (r : Req) (die : Byte) (slot : BitVec 16) (h : ReqHead) (i : Nat) (c : LoopCfg) (s : State), (s.offers r 0x0701 (· ==
      pack [(die.toNat, 1), (slot.toNat, 2)]) h i) ∧ (die.toNat < s.nDies) ∧ (slot.toNat < 8192) ∧ (s.slotFor (s.reqTenant
      r.sender.val) die.toNat slot.toNat = some c)) ∧
    (∃ (r : Req) (die : Byte) (slot : BitVec 16) (omin : V24) (omax : V24) (rate : V24) (h : ReqHead) (i : Nat) (c : LoopCfg)
      (s : State), (s.offers r 0x0702 (· == pack [(die.toNat, 1), (slot.toNat, 2), (omin.toNat, 3), (omax.toNat, 3),
      (rate.toNat, 3)]) h i) ∧ (die.toNat < s.nDies) ∧ (slot.toNat < 8192) ∧ (s.slotFor (s.reqTenant r.sender.val) die.toNat
      slot.toNat = some c) ∧ (omin.toInt ≤ omax.toInt)) ∧
    (∃ (r : Req) (die : Byte) (slot : BitVec 16) (omin : V24) (omax : V24) (rate : V24) (h : ReqHead) (i : Nat) (c : LoopCfg)
      (s : State), (s.offers r 0x0702 (· == pack [(die.toNat, 1), (slot.toNat, 2), (omin.toNat, 3), (omax.toNat, 3),
      (rate.toNat, 3)]) h i) ∧ (die.toNat < s.nDies) ∧ (slot.toNat < 8192) ∧ (s.slotFor (s.reqTenant r.sender.val) die.toNat
      slot.toNat = some c) ∧ (omax.toInt < omin.toInt)) ∧
    (∃ (r : Req) (die : Byte) (slot : BitVec 16) (v : V24) (h : ReqHead) (i : Nat) (c : LoopCfg) (s : State), (s.offers r
      0x0703 (· == pack [(die.toNat, 1), (slot.toNat, 2), (v.toNat, 3)]) h i) ∧ (die.toNat < s.nDies) ∧ (slot.toNat < 8192) ∧
      (s.slotFor (s.reqTenant r.sender.val) die.toNat slot.toNat = some c) ∧ (c.sp = .const)) ∧
    (∃ (r : Req) (die : Byte) (slot : BitVec 16) (words : List Word) (h : ReqHead) (i : Nat) (c : LoopCfg) (s : State),
      (s.offers r 0x0704 (· == (leBytes die.toNat 1 ++ leBytes slot.toNat 2 ++ wordBytes words)) h i) ∧ (die.toNat < s.nDies)
      ∧ (slot.toNat < 8192) ∧ (s.slotFor (s.reqTenant r.sender.val) die.toNat slot.toNat = some c) ∧ (words.length = 58) ∧
      ((s.loop die.toNat slot.toNat).pending = false)) ∧
    (∃ (r : Req) (die : Byte) (slot : BitVec 16) (reset : Byte) (h : ReqHead) (i : Nat) (c : LoopCfg) (x : LoopSlot) (s :
      State), (s.offers r 0x0705 (· == pack [(die.toNat, 1), (slot.toNat, 2), (reset.toNat, 1)]) h i) ∧ (die.toNat < s.nDies)
      ∧ (slot.toNat < 8192) ∧ (s.slotFor (s.reqTenant r.sender.val) die.toNat slot.toNat = some c) ∧ (reset.toNat ≤ 1) ∧
      (s.loop die.toNat slot.toNat = x) ∧ (x.pending = false) ∧ (swapErrOf x.inactive (loadOf (s.dieLoops die.toNat) fun y =>
      if y.slot = slot.toNat then x.inactive.nsec.toNat else (s.loop die.toNat y.slot).active.nsec.toNat) = 0)) ∧
    (∃ (r : Req) (die : Byte) (slot : BitVec 16) (ctrl : BitVec 16) (amp : V24) (len : V24) (hold : Byte) (p0 : V24) (rho :
      V24) (steps : V24) (records : V24) (h : ReqHead) (i : Nat) (c : LoopCfg) (x : TestUnit) (n : Nat) (s : State), (s.offers
      r 0x0706 (· == pack [(die.toNat, 1), (slot.toNat, 2), (ctrl.toNat, 2), (amp.toNat, 3), (len.toNat, 3), (hold.toNat, 1),
      (p0.toNat, 3), (rho.toNat, 3), (steps.toNat, 3), (records.toNat, 3)]) h i) ∧ (die.toNat < s.nDies) ∧ (slot.toNat < 8192)
      ∧ (s.slotFor (s.reqTenant r.sender.val) die.toNat slot.toNat = some c) ∧ (testUnitOf slot ctrl amp len hold p0 rho steps
      records = x) ∧ (ctrl.toNat < 1024) ∧ (amp.toNat < 2 ^ 23) ∧ (len.toNat ≤ 1048576) ∧ (records.toNat ≤ 65536) ∧
      (x.rangesOk = true) ∧ (c.prot = false) ∧ ((s.loop die.toNat slot.toNat).cfg = some c) ∧ (s.unitOf die.toNat slot.toNat
      (fun y => y.injEn && (y.injOn || y.starting)) = none) ∧ ((List.range 4).find? (fun j => !(s.unit die.toNat j).active) =
      some n)) ∧
    (∃ (r : Req) (die : Byte) (unit : Byte) (h : ReqHead) (i : Nat) (x : TestUnit) (s : State), (s.offers r 0x0707 (· == [die,
      unit]) h i) ∧ (die.toNat < s.nDies) ∧ (unit.toNat < 4) ∧ (s.unit die.toNat unit.toNat = x) ∧ (unitSeen (s.reqTenant
      r.sender.val) x = true)) ∧
    (∃ (r : Req) (die : Byte) (unit : Byte) (first : V24) (h : ReqHead) (i : Nat) (x : TestUnit) (l : List CapRec) (s :
      State), (s.offers r 0x0708 (· == pack [(die.toNat, 1), (unit.toNat, 1), (first.toNat, 3)]) h i) ∧ (die.toNat < s.nDies)
      ∧ (unit.toNat < 4) ∧ (s.unit die.toNat unit.toNat = x) ∧ (unitSeen (s.reqTenant r.sender.val) x = true) ∧
      (((x.records.take x.count).drop first.toNat).take (h.rlen / 16) = l)) ∧
    (∃ (r : Req) (die : Byte) (h : ReqHead) (i : Nat) (s : State), (s.offers r 0x0709 (· == [die]) h i) ∧ (s.reqTenant
      r.sender.val = 0) ∧ (die.toNat < s.nDies)) :=
  ⟨⟨rq, 1, 9, hd 0x0701 (pack [(1, 1), (9, 2)]) 528, 0, { tenant := 5 }, { reqState 5 0x0701 (pack [(1, 1), (9, 2)]) 528 with loops := [(8201, { cfg := some { tenant := 5 } })] }, by decide⟩,
   ⟨rq, 1, 9, 0xFFFFF0, 5, 1, hd 0x0702 (pack [(1, 1), (9, 2), (0xFFFFF0, 3), (5, 3), (1, 3)]) 0, 0, { tenant := 5 }, { reqState 5 0x0702 (pack [(1, 1), (9, 2), (0xFFFFF0, 3), (5, 3), (1, 3)]) 0 with loops := [(8201, { cfg := some { tenant := 5 } })] }, by decide⟩,
   ⟨rq, 1, 9, 5, 0xFFFFF0, 1, hd 0x0702 (pack [(1, 1), (9, 2), (5, 3), (0xFFFFF0, 3), (1, 3)]) 0, 0, { tenant := 5 }, { reqState 5 0x0702 (pack [(1, 1), (9, 2), (5, 3), (0xFFFFF0, 3), (1, 3)]) 0 with loops := [(8201, { cfg := some { tenant := 5 } })] }, by decide⟩,
   ⟨rq, 1, 9, 7, hd 0x0703 (pack [(1, 1), (9, 2), (7, 3)]) 0, 0, { tenant := 5, sp := .const }, { reqState 5 0x0703 (pack [(1, 1), (9, 2), (7, 3)]) 0 with loops := [(8201, { cfg := some { tenant := 5, sp := .const } })] }, by decide⟩,
   ⟨rq, 1, 9, List.replicate 58 1, hd 0x0704 (leBytes 1 1 ++ leBytes 9 2 ++ wordBytes (List.replicate 58 1 : List Word)) 0, 0, { tenant := 5 }, { reqState 5 0x0704 (leBytes 1 1 ++ leBytes 9 2 ++ wordBytes (List.replicate 58 1 : List Word)) 0 with loops := [(8201, { cfg := some { tenant := 5 } })] }, by decide⟩,
   ⟨rq, 1, 9, 1, hd 0x0705 (pack [(1, 1), (9, 2), (1, 1)]) 0, 0, { tenant := 5 }, { cfg := some { tenant := 5 }, bankB := { nsec := 1 } }, { reqState 5 0x0705 (pack [(1, 1), (9, 2), (1, 1)]) 0 with loops := [(8201, { cfg := some { tenant := 5 }, bankB := { nsec := 1 } })] }, by decide⟩,
   ⟨rq, 1, 9, 0, 1, 2, 1, 0, 0x100000, 0x010001, 4, hd 0x0706 (pack [(1, 1), (9, 2), (0, 2), (1, 3), (2, 3), (1, 1), (0, 3), (0x100000, 3), (0x010001, 3), (4, 3)]) 0, 0, { tenant := 5 }, testUnitOf 9 0 1 2 1 0 0x100000 0x010001 4, 0, { reqState 5 0x0706 (pack [(1, 1), (9, 2), (0, 2), (1, 3), (2, 3), (1, 1), (0, 3), (0x100000, 3), (0x010001, 3), (4, 3)]) 0 with loops := [(8201, { cfg := some { tenant := 5 } })] }, by decide⟩,
   ⟨rq, 1, 3, hd 0x0707 [1, 3] 0, 0, { active := true, owner := some 5, records := [{}] }, { reqState 5 0x0707 [1, 3] 0 with loopDies := [(1, { units := [(3, { active := true, owner := some 5, records := [{}] })] })] }, by decide⟩,
   ⟨rq, 1, 3, 0, hd 0x0708 (pack [(1, 1), (3, 1), (0, 3)]) 16, 0, { active := true, owner := some 5, count := 1, records := [{}] }, [{}], { reqState 5 0x0708 (pack [(1, 1), (3, 1), (0, 3)]) 16 with loopDies := [(1, { units := [(3, { active := true, owner := some 5, count := 1, records := [{}] })] })] }, by decide⟩,
   ⟨rq, 1, hd 0x0709 [1] 0, 0, reqState 0 0x0709 [1] 0, by decide⟩⟩

/-- The hypotheses of each clause of ConfigurationAndSecurityRequestsTakeEffect can be met. -/
theorem test_met_ConfigurationAndSecurityRequestsTakeEffect :
    (∃ (r : Req) (h : ReqHead) (i : Nat) (s : State), (s.offers r 0x0E01 (· == []) h i) ∧ (s.reqTenant r.sender.val = 0)) ∧
    (∃ (r : Req) (img : Image) (ck : ImageCheck) (h : ReqHead) (i : Nat) (b : Bool) (s : State), (s.offers r 0x0E02 (fun _ =>
      true) h i) ∧ (s.reqTenant r.sender.val = 0) ∧ (s.signed ck = true) ∧ (ck.digestOk = true) ∧ (ck.sizeOk = true) ∧
      (s.su.inUse = some b)) ∧
    (∃ (r : Req) (img : Image) (ck : ImageCheck) (h : ReqHead) (i : Nat) (s : State), (s.offers r 0x0E02 (fun _ => true) h i)
      ∧ (s.reqTenant r.sender.val = 0) ∧ (s.signed ck = false)) ∧
    (∃ (r : Req) (h : ReqHead) (i : Nat) (s : State), (s.offers r 0x0E03 (· == []) h i) ∧ (s.reqTenant r.sender.val = 0) ∧
      (s.copies ≠ [])) ∧
    (∃ (r : Req) (h : ReqHead) (i : Nat) (s : State), (s.offers r 0x0F01 (· == []) h i) ∧ (s.reqTenant r.sender.val = 0)) ∧
    (∃ (r : Req) (slot : Byte) (ten : BitVec 16) (ckind : Byte) (verifier : List Byte) (h : ReqHead) (i : Nat) (s : State),
      (s.offers r 0x0F02 (· == (pack [(slot.toNat, 1), (ten.toNat, 2)] ++ ckind :: verifier)) h i) ∧ (s.reqTenant r.sender.val
      = 0) ∧ (slot.toNat < 64) ∧ (1 ≤ ckind.toNat) ∧ (ckind.toNat ≤ 2) ∧ (ten.toNat ≤ 0xFFF) ∧ (s.inTable (ten.setWidth 12) =
      true)) ∧
    (∃ (r : Req) (slot : Byte) (ten : BitVec 16) (ckind : Byte) (verifier : List Byte) (h : ReqHead) (i : Nat) (s : State),
      (s.offers r 0x0F02 (· == (pack [(slot.toNat, 1), (ten.toNat, 2)] ++ ckind :: verifier)) h i) ∧ (s.reqTenant r.sender.val
      = 0) ∧ (slot.toNat < 64) ∧ (ckind = 0) ∧ (ten.toNat ≤ 0xFFF)) ∧
    (∃ (r : Req) (ten : BitVec 16) (kind : Byte) (h : ReqHead) (i : Nat) (g : Nat) (s : State), (s.offers r 0x0F03 (· == pack
      [(ten.toNat, 2), (kind.toNat, 1)]) h i) ∧ (s.reqTenant r.sender.val = 0) ∧ (kind = 0) ∧ (ten.toNat ≤ 0xFFF) ∧ (s.inTable
      (ten.setWidth 12) = true) ∧ (shas s.sec.histGen ten.toNat = true) ∧ (sget 0 s.sec.histGen ten.toNat = g) ∧ (g < 127)) ∧
    (∃ (r : Req) (ten : BitVec 16) (kind : Byte) (h : ReqHead) (i : Nat) (s : State), (s.offers r 0x0F03 (· == pack
      [(ten.toNat, 2), (kind.toNat, 1)]) h i) ∧ (kind = 0) ∧ (s.inTable (ten.setWidth 12) = true) ∧ (shas s.sec.histGen
      ten.toNat = false)) ∧
    (∃ (r : Req) (ten : BitVec 16) (kind : Byte) (h : ReqHead) (i : Nat) (g : Nat) (s : State), (s.offers r 0x0F03 (· == pack
      [(ten.toNat, 2), (kind.toNat, 1)]) h i) ∧ (s.reqTenant r.sender.val = 0) ∧ (kind = 1) ∧ (ten.toNat ≤ 0xFFF) ∧ (s.inTable
      (ten.setWidth 12) = true) ∧ (sget 0 s.sec.integGen ten.toNat = g) ∧ (g < 127)) ∧
    (∃ (r : Req) (ten : BitVec 16) (key : Word) (h : ReqHead) (i : Nat) (e : Nat × List Byte) (s : State), (s.offers r 0x0F04
      (· == pack [(ten.toNat, 2), (key.toNat, 4)]) h i) ∧ (s.reqTenant r.sender.val = 0) ∧ (ten.toNat ≤ 0xFFF) ∧ (s.inTable
      (ten.setWidth 12) = true) ∧ (s.cfg.crownKeys.find? (fun e => e.1 == key.toNat) = some e)) :=
  ⟨⟨rq, hd 0x0E01 [] 0, 0, reqState 0 0x0E01 [] 0, by decide⟩,
   ⟨rq, { moduleId := 3 }, { signer := 7 }, hd 0x0E02 [] 0, 0, false, { reqState 0 0x0E02 [] 0 with sec := { (reqState 0 0x0E02 [] 0).sec with keyHashes := [7] }, su := { (reqState 0 0x0E02 [] 0).su with inUse := some false } }, by decide⟩,
   ⟨rq, {}, { signer := 7, sigOk := false }, hd 0x0E02 [] 0, 0, { reqState 0 0x0E02 [] 0 with sec := { (reqState 0 0x0E02 [] 0).sec with keyHashes := [7] } }, by decide⟩,
   ⟨rq, hd 0x0E03 [] 0, 0, { reqState 0 0x0E03 [] 0 with sec := cfgState.sec, su := { runState.su with copyA := cfgState.su.copyA } }, by decide⟩,
   ⟨rq, hd 0x0F01 [] 0, 0, reqState 0 0x0F01 [] 0, by decide⟩,
   ⟨rq, 4, 5, 1, List.replicate 64 0, hd 0x0F02 (pack [(4, 1), (5, 2)] ++ 1 :: List.replicate 64 0) 0, 0, { reqState 0 0x0F02 (pack [(4, 1), (5, 2)] ++ 1 :: List.replicate 64 0) 0 with cfg := { moduleId := 1, tenants := [{ id := 5 }] } }, by decide⟩,
   ⟨rq, 4, 5, 0, [], hd 0x0F02 (pack [(4, 1), (5, 2)] ++ [0]) 0, 0, { reqState 0 0x0F02 (pack [(4, 1), (5, 2)] ++ [0]) 0 with sec := { runState.sec with creds := [(4, { ckind := 1, tenant := 6 })] } }, by decide⟩,
   ⟨rq, 5, 0, hd 0x0F03 (pack [(5, 2), (0, 1)]) 0, 0, 3, { reqState 0 0x0F03 (pack [(5, 2), (0, 1)]) 0 with cfg := { moduleId := 1, tenants := [{ id := 5 }] }, sec := { runState.sec with histGen := [(5, 3)] } }, by decide⟩,
   ⟨rq, 5, 0, hd 0x0F03 (pack [(5, 2), (0, 1)]) 0, 0, { reqState 0 0x0F03 (pack [(5, 2), (0, 1)]) 0 with cfg := { moduleId := 1, tenants := [{ id := 5 }] } }, by decide⟩,
   ⟨rq, 5, 1, hd 0x0F03 (pack [(5, 2), (1, 1)]) 0, 0, 0, { reqState 0 0x0F03 (pack [(5, 2), (1, 1)]) 0 with cfg := { moduleId := 1, tenants := [{ id := 5 }] } }, by decide⟩,
   ⟨rq, 5, 9, hd 0x0F04 (pack [(5, 2), (9, 4)]) 0, 0, (9, [1]), { reqState 0 0x0F04 (pack [(5, 2), (9, 4)]) 0 with cfg := { moduleId := 1, tenants := [{ id := 5 }], crownKeys := [(9, [1])] } }, by decide⟩⟩

/-- The hypotheses of each clause of FieldRequestsTakeEffect can be met. -/
theorem test_met_FieldRequestsTakeEffect :
    (∃ (r : Req) (h : ReqHead) (i : Nat) (l : List Nat) (s : State), (s.offers r 0x0801 (· == []) h i) ∧ ((List.range
      64).filter (s.chanSeen (s.reqTenant r.sender.val)) = l)) ∧
    (∃ (r : Req) (h : ReqHead) (i : Nat) (s : State), (s.offers r 0x0802 (· == []) h i) ∧ (s.reqTenant r.sender.val = 0)) ∧
    (∃ (r : Req) (ch : Byte) (h : ReqHead) (i : Nat) (s : State), (s.offers r 0x0803 (· == [ch]) h i) ∧ (ch.toNat < 64) ∧
      (s.chanSeen (s.reqTenant r.sender.val) ch.toNat = true) ∧ ((s.chan ch.toNat).latched = true) ∧ (s.motionOwns ch.toNat =
      false)) ∧
    (∃ (r : Req) (action : Byte) (interval : BitVec 16) (h : ReqHead) (i : Nat) (s : State), (s.offers r 0x0804 (· == pack
      [(action.toNat, 1), (interval.toNat, 2)]) h i) ∧ (s.reqTenant r.sender.val = 0) ∧ (action = 1) ∧ (interval.toNat ≤
      3600)) ∧
    (∃ (r : Req) (action : Byte) (interval : BitVec 16) (h : ReqHead) (i : Nat) (c : Nat) (s : State), (s.offers r 0x0804 (·
      == pack [(action.toNat, 1), (interval.toNat, 2)]) h i) ∧ (s.reqTenant r.sender.val = 0) ∧ (action = 0) ∧ (interval.toNat
      ≤ 3600) ∧ (s.fio.configured = true) ∧ (s.stNext 0 = some c)) ∧
    (∃ (r : Req) (tmo : BitVec 16) (logic : Byte) (h : ReqHead) (i : Nat) (s : State), (s.offers r 0x0805 (· == pack
      [(tmo.toNat, 2), (logic.toNat, 1)]) h i) ∧ (s.reqTenant r.sender.val = 0) ∧ (10 ≤ tmo.toNat) ∧ (tmo.toNat ≤ 10000) ∧
      (logic.toNat ≤ 1)) ∧
    (∃ (r : Req) (m : Byte) (cmd : Byte) (target : V24) (h : ReqHead) (i : Nat) (c : MotCfg) (x : Motion) (s : State),
      (s.offers r 0x0806 (· == pack [(m.toNat, 1), (cmd.toNat, 1), (target.toNat, 3)]) h i) ∧ (m.toNat < 8) ∧ (cmd = 1) ∧
      (s.motCfg? m.toNat = some c) ∧ (reaches (s.reqTenant r.sender.val) c.tenant = true) ∧ (s.fio.safe = false) ∧ ((s.group
      3).missing = false) ∧ ((s.chan (legCh m.toNat true)).on = false) ∧ (s.mot m.toNat = x) ∧ (x.fault = 0) ∧ (x.state =
      .idle) ∧ (x.dtPend = false) ∧ (x.reqs = []) ∧ (s.limitOn m.toNat false = false)) ∧
    (∃ (r : Req) (m : Byte) (h : ReqHead) (i : Nat) (c : MotCfg) (s : State), (s.offers r 0x0807 (· == [m]) h i) ∧ (m.toNat <
      8) ∧ (s.motCfg? m.toNat = some c) ∧ (reaches (s.reqTenant r.sender.val) c.tenant = true)) :=
  ⟨⟨rq, hd 0x0801 [] 9, 0, [4], { reqState 5 0x0801 [] 9 with cfg := { moduleId := 1, chans := [{ ch := 4, tenant := 5 }] } }, by decide⟩,
   ⟨rq, hd 0x0802 [] 0, 0, reqState 0 0x0802 [] 0, by decide⟩,
   ⟨rq, 4, hd 0x0803 [4] 0, 0, { reqState 5 0x0803 [4] 0 with cfg := { moduleId := 1, chans := [{ ch := 4, tenant := 5 }] }, fio := { configured := true, chans := [(4, { latched := true, short := true })] } }, by decide⟩,
   ⟨rq, 1, 3600, hd 0x0804 (pack [(1, 1), (3600, 2)]) 0, 0, reqState 0 0x0804 (pack [(1, 1), (3600, 2)]) 0, by decide⟩,
   ⟨rq, 0, 0, hd 0x0804 (pack [(0, 1), (0, 2)]) 0, 0, 4, { reqState 0 0x0804 (pack [(0, 1), (0, 2)]) 0 with fio := { configured := true }, cfg := { moduleId := 1, chans := [{ ch := 4, stEn := true }] } }, by decide⟩,
   ⟨rq, 10000, 1, hd 0x0805 (pack [(10000, 2), (1, 1)]) 0, 0, reqState 0 0x0805 (pack [(10000, 2), (1, 1)]) 0, by decide⟩,
   ⟨rq, 2, 1, 0, hd 0x0806 (pack [(2, 1), (1, 1), (0, 3)]) 0, 0, { m := 2, tenant := 5 }, {}, { reqState 5 0x0806 (pack [(2, 1), (1, 1), (0, 3)]) 0 with fio := { configured := true, safe := false }, cfg := { moduleId := 1, motions := [{ m := 2, tenant := 5 }] } }, by decide⟩,
   ⟨rq, 2, hd 0x0807 [2] 0, 0, { m := 2, tenant := 5 }, { reqState 5 0x0807 [2] 0 with cfg := { moduleId := 1, motions := [{ m := 2, tenant := 5 }] } }, by decide⟩⟩

/-- The hypotheses of each clause of MeteringRequestsTakeEffect can be met. -/
theorem test_met_MeteringRequestsTakeEffect :
    (∃ (r : Req) (k : Byte) (h : ReqHead) (i : Nat) (c : CircuitCfg) (s : State), (s.offers r 0x0901 (· == [k]) h i) ∧
      (k.toNat < 48) ∧ (s.circuitCfg? k.toNat = some c) ∧ (reaches (s.reqTenant r.sender.val) c.tenant = true)) ∧
    (∃ (r : Req) (set : Byte) (h : ReqHead) (i : Nat) (s : State), (s.offers r 0x0902 (· == [set]) h i) ∧ (s.reqTenant
      r.sender.val = 0) ∧ (set.toNat < 2)) ∧
    (∃ (r : Req) (input : Byte) (orders : Byte) (h : ReqHead) (i : Nat) (s : State), (s.offers r 0x0903 (· == [input, orders])
      h i) ∧ (input.toNat < 54) ∧ (1 ≤ orders.toNat) ∧ (orders.toNat ≤ 63) ∧ (s.inputSeen (s.reqTenant r.sender.val)
      input.toNat = true)) ∧
    (∃ (r : Req) (k : Byte) (h : ReqHead) (i : Nat) (c : CircuitCfg) (s : State), (s.offers r 0x0904 (· == [k]) h i) ∧
      (k.toNat < 48) ∧ (s.circuitCfg? k.toNat = some c) ∧ (reaches (s.reqTenant r.sender.val) c.tenant = true)) ∧
    (∃ (r : Req) (k : Byte) (h : ReqHead) (i : Nat) (c : CircuitCfg) (s : State), (s.offers r 0x0905 (· == [k]) h i) ∧
      (s.reqTenant r.sender.val = 0) ∧ (k.toNat < 48) ∧ (s.circuitCfg? k.toNat = some c)) ∧
    (∃ (r : Req) (input : Byte) (h : ReqHead) (i : Nat) (b : List Byte) (s : State), (s.offers r 0x0906 (· == [input]) h i) ∧
      (s.reqTenant r.sender.val = 0) ∧ (input.toNat < 54) ∧ (calBytes (s.minput input.toNat).stored = b)) ∧
    (∃ (r : Req) (input : Byte) (h : ReqHead) (i : Nat) (s : State), (s.offers r 0x0907 (· == [input]) h i) ∧ (s.reqTenant
      r.sender.val = 0) ∧ (input.toNat < 54) ∧ (s.mtr.stActive = false)) ∧
    (∃ (r : Req) (input : Byte) (gain : Word) (phase : Word) (offset : Word) (itrim : Word) (h : ReqHead) (i : Nat) (s :
      State), (s.offers r 0x0908 (· == pack [(input.toNat, 1), (gain.toNat, 4), (phase.toNat, 4), (offset.toNat, 4),
      (itrim.toNat, 4)]) h i) ∧ (s.reqTenant r.sender.val = 0) ∧ (input.toNat < 54) ∧ (phase.toNat < 2 ^ 24) ∧ (offset.toNat <
      2 ^ 24) ∧ (itrim.toNat < 2 ^ 24) ∧ (0x200000 ≤ gain.toNat) ∧ (gain.toNat ≤ 0x800000) ∧ (-1048576 ≤ (phase.setWidth
      24).toInt) ∧ ((phase.setWidth 24).toInt ≤ 1048576) ∧ (s.mtr.running = true)) ∧
    (∃ (r : Req) (input : Byte) (gain : Word) (phase : Word) (offset : Word) (itrim : Word) (h : ReqHead) (i : Nat) (s :
      State), (s.offers r 0x0908 (· == pack [(input.toNat, 1), (gain.toNat, 4), (phase.toNat, 4), (offset.toNat, 4),
      (itrim.toNat, 4)]) h i) ∧ (s.reqTenant r.sender.val = 0) ∧ (input.toNat < 54) ∧ (phase.toNat < 2 ^ 24) ∧ (offset.toNat <
      2 ^ 24) ∧ (itrim.toNat < 2 ^ 24) ∧ (0x200000 ≤ gain.toNat) ∧ (gain.toNat ≤ 0x800000) ∧ (-1048576 ≤ (phase.setWidth
      24).toInt) ∧ ((phase.setWidth 24).toInt ≤ 1048576) ∧ (s.mtr.running = false)) ∧
    (∃ (r : Req) (action : Byte) (interval : BitVec 16) (h : ReqHead) (i : Nat) (s : State), (s.offers r 0x0909 (· == pack
      [(action.toNat, 1), (interval.toNat, 2)]) h i) ∧ (s.reqTenant r.sender.val = 0) ∧ (action = 0) ∧ (interval.toNat ≤
      1440)) ∧
    (∃ (r : Req) (action : Byte) (interval : BitVec 16) (h : ReqHead) (i : Nat) (s : State), (s.offers r 0x0909 (· == pack
      [(action.toNat, 1), (interval.toNat, 2)]) h i) ∧ (s.reqTenant r.sender.val = 0) ∧ (action = 1) ∧ (interval.toNat ≤
      1440)) ∧
    (∃ (r : Req) (mask : BitVec 64) (frames : Word) (va : BitVec 64) (h : ReqHead) (i : Nat) (l : List Nat) (s : State),
      (s.offers r 0x090A (· == pack [(mask.toNat, 8), (frames.toNat, 4), (va.toNat, 8)]) h i) ∧ (mask ≠ 0) ∧ (mask.toNat < 2 ^
      54) ∧ (frames ≠ 0) ∧ (va.toNat < 2 ^ 36) ∧ (s.mtr.wave = none) ∧ ((s.dch 0 11).state = .idle) ∧ ((List.range 54).filter
      (fun c => mask.getLsbD c) = l) ∧ (l.all (s.inputSeen (s.reqTenant r.sender.val)) = true)) ∧
    (∃ (r : Req) (h : ReqHead) (i : Nat) (w : WaveRun) (s : State), (s.offers r 0x090B (· == []) h i) ∧ (s.mtr.wave = some w)
      ∧ (reaches (s.reqTenant r.sender.val) w.tenant = true)) ∧
    (∃ (r : Req) (h : ReqHead) (i : Nat) (s : State), (s.offers r 0x090C (· == []) h i) ∧ (s.reqTenant r.sender.val = 0)) :=
  ⟨⟨rq, 6, hd 0x0901 [6] 88, 0, { k := 6, tenant := 5 }, { reqState 5 0x0901 [6] 88 with cfg := { moduleId := 1, circuits := [{ k := 6, tenant := 5 }] } }, by decide⟩,
   ⟨rq, 1, hd 0x0902 [1] 40, 0, reqState 0 0x0902 [1] 40, by decide⟩,
   ⟨rq, 53, 3, hd 0x0903 [53, 3] 18, 0, reqState 0 0x0903 [53, 3] 18, by decide⟩,
   ⟨rq, 6, hd 0x0904 [6] 72, 0, { k := 6, tenant := 5 }, { reqState 5 0x0904 [6] 72 with cfg := { moduleId := 1, circuits := [{ k := 6, tenant := 5 }] } }, by decide⟩,
   ⟨rq, 6, hd 0x0905 [6] 0, 0, { k := 6, tenant := 5 }, { reqState 0 0x0905 [6] 0 with cfg := { moduleId := 1, circuits := [{ k := 6, tenant := 5 }] } }, by decide⟩,
   ⟨rq, 53, hd 0x0906 [53] 20, 0, calBytes (0x400000, 0, 0, 0), reqState 0 0x0906 [53] 20, by decide⟩,
   ⟨rq, 53, hd 0x0907 [53] 0, 0, reqState 0 0x0907 [53] 0, by decide⟩,
   ⟨rq, 53, 0x800000, 0xF00000, 1, 2, hd 0x0908 (pack [(53, 1), (0x800000, 4), (0xF00000, 4), (1, 4), (2, 4)]) 0, 0, { reqState 0 0x0908 (pack [(53, 1), (0x800000, 4), (0xF00000, 4), (1, 4), (2, 4)]) 0 with mtr := { running := true } }, by decide⟩,
   ⟨rq, 0, 0x200000, 0x100000, 1, 2, hd 0x0908 (pack [(0, 1), (0x200000, 4), (0x100000, 4), (1, 4), (2, 4)]) 0, 0, { reqState 0 0x0908 (pack [(0, 1), (0x200000, 4), (0x100000, 4), (1, 4), (2, 4)]) 0 with mtr := { running := false } }, by decide⟩,
   ⟨rq, 0, 1440, hd 0x0909 (pack [(0, 1), (1440, 2)]) 0, 0, reqState 0 0x0909 (pack [(0, 1), (1440, 2)]) 0, by decide⟩,
   ⟨rq, 1, 0, hd 0x0909 (pack [(1, 1), (0, 2)]) 0, 0, reqState 0 0x0909 (pack [(1, 1), (0, 2)]) 0, by decide⟩,
   ⟨rq, 0x40, 3, 0x1000, hd 0x090A (pack [(0x40, 8), (3, 4), (0x1000, 8)]) 0, 0, [6], reqState 0 0x090A (pack [(0x40, 8), (3, 4), (0x1000, 8)]) 0, by decide⟩,
   ⟨rq, hd 0x090B [] 0, 0, { inputs := [6], frames := 9, done := 4, tenant := 5 }, { reqState 5 0x090B [] 0 with mtr := { wave := some { inputs := [6], frames := 9, done := 4, tenant := 5 } } }, by decide⟩,
   ⟨rq, hd 0x090C [] 816, 0, reqState 0 0x090C [] 816, by decide⟩⟩

/-- The hypotheses of each clause of AccessAndTimeRequestsTakeEffect can be met. -/
theorem test_met_AccessAndTimeRequestsTakeEffect :
    (∃ (r : Req) (c : Cred) (h : ReqHead) (i : Nat) (n : Nat) (s : State), (s.offers r 0x0C01 (· == (credBytes c)) h i) ∧
      (credOk c = true) ∧ (reaches (s.reqTenant r.sender.val) c.tenant = true) ∧ (s.inTable c.tenant = true) ∧ (c.doors.all
      (s.entryOk c.tenant) = true) ∧ (s.sec.records.any (fun e => e.2.tenant == c.tenant && e.2.cid == c.cid) = false) ∧
      (freeIndex 0 s.sec.records = n) ∧ (n < 2 ^ 20)) ∧
    (∃ (r : Req) (idx : Word) (h : ReqHead) (i : Nat) (c : Cred) (s : State), (s.offers r 0x0C02 (· == pack [(idx.toNat, 4)])
      h i) ∧ (sfind s.sec.records idx.toNat = some c) ∧ (reaches (s.reqTenant r.sender.val) c.tenant = true)) ∧
    (∃ (r : Req) (idx : Word) (h : ReqHead) (i : Nat) (c : Cred) (s : State), (s.offers r 0x0C03 (· == pack [(idx.toNat, 4)])
      h i) ∧ (sfind s.sec.records idx.toNat = some c) ∧ (reaches (s.reqTenant r.sender.val) c.tenant = true)) ∧
    (∃ (r : Req) (door : BitVec 16) (action : Byte) (seconds : BitVec 16) (h : ReqHead) (i : Nat) (c : DoorCfg) (s : State),
      (s.offers r 0x0C04 (· == pack [(door.toNat, 2), (action.toNat, 1), (seconds.toNat, 2)]) h i) ∧ (door.toNat < 2048) ∧
      (action = 2) ∧ (1 ≤ seconds.toNat) ∧ (seconds.toNat ≤ 600) ∧ (s.doorFor (s.reqTenant r.sender.val) door.toNat = some c)
      ∧ ((s.port c.port).running = true) ∧ (s.nodeState c.port c.addr = .present)) ∧
    (∃ (r : Req) (door : BitVec 16) (action : Byte) (seconds : BitVec 16) (h : ReqHead) (i : Nat) (c : DoorCfg) (s : State),
      (s.offers r 0x0C04 (· == pack [(door.toNat, 2), (action.toNat, 1), (seconds.toNat, 2)]) h i) ∧ (door.toNat < 2048) ∧
      (action = 0) ∧ (s.doorFor (s.reqTenant r.sender.val) door.toNat = some c) ∧ ((s.port c.port).running = true) ∧
      (s.nodeState c.port c.addr = .present)) ∧
    (∃ (r : Req) (door : BitVec 16) (h : ReqHead) (i : Nat) (c : DoorCfg) (s : State), (s.offers r 0x0C05 (· == pack
      [(door.toNat, 2)]) h i) ∧ (door.toNat < 2048) ∧ (s.doorFor (s.reqTenant r.sender.val) door.toNat = some c)) ∧
    (∃ (r : Req) (area : BitVec 16) (idx : Word) (h : ReqHead) (i : Nat) (s : State), (s.offers r 0x0C06 (· == pack
      [(area.toNat, 2), (idx.toNat, 4)]) h i) ∧ (s.reqTenant r.sender.val = 0) ∧ (area.toNat < 1024) ∧ (idx = 0xFFFFFFFF)) ∧
    (∃ (r : Req) (h : ReqHead) (i : Nat) (s : State), (s.offers r 0x0D01 (· == []) h i)) ∧
    (∃ (r : Req) (utcMs : BitVec 48) (offset : BitVec 16) (h : ReqHead) (i : Nat) (s : State), (s.offers r 0x0D02 (· == pack
      [(utcMs.toNat, 6), (offset.toNat, 2)]) h i) ∧ (s.reqTenant r.sender.val = 0) ∧ (utcMs.toNat < 3155760000000) ∧ (-1080 ≤
      offset.toInt) ∧ (offset.toInt ≤ 1080) ∧ (s.ringInUse = false) ∧ (s.mappingAhead (15 - s.now % 16) s.pending = false)) ∧
    (∃ (r : Req) (utcMs : BitVec 48) (offset : BitVec 16) (h : ReqHead) (i : Nat) (s : State), (s.offers r 0x0D02 (· == pack
      [(utcMs.toNat, 6), (offset.toNat, 2)]) h i) ∧ (s.reqTenant r.sender.val = 0) ∧ (utcMs.toNat < 3155760000000) ∧ (-1080 ≤
      offset.toInt) ∧ (offset.toInt ≤ 1080) ∧ (s.ringInUse = true ∨ s.mappingAhead (15 - s.now % 16) s.pending = true)) ∧
    (∃ (r : Req) (add : Byte) (n : BitVec 16) (h : ReqHead) (i : Nat) (s : State), (s.offers r 0x0D03 (· == pack [(add.toNat,
      1), (n.toNat, 2)]) h i) ∧ (s.reqTenant r.sender.val = 0) ∧ (add.toNat ≤ 1) ∧ (n.toNat ≤ 1023)) ∧
    (∃ (r : Req) (first : Byte) (count : Byte) (h : ReqHead) (i : Nat) (s : State), (s.offers r 0x0D04 (· == [first, count]) h
      i) ∧ (s.reqTenant r.sender.val = 0) ∧ (1 ≤ count.toNat) ∧ (first.toNat + count.toNat ≤ 64)) ∧
    (∃ (r : Req) (first : Byte) (count : Byte) (bytes : List Byte) (h : ReqHead) (i : Nat) (j : Nat) (s : State), (s.offers r
      0x0D05 (· == (first :: count :: bytes)) h i) ∧ (s.reqTenant r.sender.val = 0) ∧ (1 ≤ count.toNat) ∧ (first.toNat +
      count.toNat ≤ 64) ∧ (bytes.length = count.toNat) ∧ (j < count.toNat)) ∧
    (∃ (r : Req) (h : ReqHead) (i : Nat) (s : State), (s.offers r 0x0D06 (· == []) h i) ∧ (s.reqTenant r.sender.val = 0)) :=
  ⟨⟨rq, { cid := 9, tenant := 5, doors := [2, 0xFFFF, 0xFFFF, 0xFFFF] }, hd 0x0C01 (credBytes ({ cid := 9, tenant := 5, doors := [2, 0xFFFF, 0xFFFF, 0xFFFF] } : Cred)) 0, 0, 0, { reqState 5 0x0C01 (credBytes ({ cid := 9, tenant := 5, doors := [2, 0xFFFF, 0xFFFF, 0xFFFF] } : Cred)) 0 with cfg := { moduleId := 1, tenants := [{ id := 5 }], doors := [{ door := 2, owner := 5 }] } }, by decide⟩,
   ⟨rq, 4, hd 0x0C02 (pack [(4, 4)]) 0, 0, { cid := 9, tenant := 5 }, { reqState 5 0x0C02 (pack [(4, 4)]) 0 with sec := { (reqState 5 0x0C02 (pack [(4, 4)]) 0).sec with records := [(4, { cid := 9, tenant := 5 })], locs := [(4, (3, 0))] } }, by decide⟩,
   ⟨rq, 4, hd 0x0C03 (pack [(4, 4)]) 64, 0, { cid := 9, tenant := 5 }, { reqState 5 0x0C03 (pack [(4, 4)]) 64 with sec := { (reqState 5 0x0C03 (pack [(4, 4)]) 64).sec with records := [(4, { cid := 9, tenant := 5 })] } }, by decide⟩,
   ⟨rq, 2, 2, 600, hd 0x0C04 (pack [(2, 2), (2, 1), (600, 2)]) 0, 0, { door := 2, owner := 5, port := 5, addr := 7 }, { reqState 5 0x0C04 (pack [(2, 2), (2, 1), (600, 2)]) 0 with cfg := { moduleId := 1, doors := [{ door := 2, owner := 5, port := 5, addr := 7 }] }, ports := [(5, { en := true, running := true, nodes := [(7, { state := .present })] })] }, by decide⟩,
   ⟨rq, 2, 0, 600, hd 0x0C04 (pack [(2, 2), (0, 1), (600, 2)]) 0, 0, { door := 2, owner := 5, port := 5, addr := 7 }, { reqState 5 0x0C04 (pack [(2, 2), (0, 1), (600, 2)]) 0 with cfg := { moduleId := 1, doors := [{ door := 2, owner := 5, port := 5, addr := 7 }] }, ports := [(5, { en := true, running := true, nodes := [(7, { state := .present })] })] }, by decide⟩,
   ⟨rq, 2, hd 0x0C05 (pack [(2, 2)]) 0, 0, { door := 2, owner := 5, port := 5, addr := 7 }, { reqState 5 0x0C05 (pack [(2, 2)]) 0 with cfg := { moduleId := 1, doors := [{ door := 2, owner := 5, port := 5, addr := 7 }] }, ports := [(5, { en := true, running := true, nodes := [(7, { state := .present })] })] }, by decide⟩,
   ⟨rq, 3, 0xFFFFFFFF, hd 0x0C06 (pack [(3, 2), (0xFFFFFFFF, 4)]) 0, 0, { reqState 0 0x0C06 (pack [(3, 2), (0xFFFFFFFF, 4)]) 0 with sec := { (reqState 0 0x0C06 (pack [(3, 2), (0xFFFFFFFF, 4)]) 0).sec with locs := [(4, (3, 0)), (5, (2, 0))] } }, by decide⟩,
   ⟨rq, hd 0x0D01 [] 0, 0, reqState 5 0x0D01 [] 0, by decide⟩,
   ⟨rq, 86400000, 60, hd 0x0D02 (pack [(86400000, 6), (60, 2)]) 0, 0, reqState 0 0x0D02 (pack [(86400000, 6), (60, 2)]) 0, by decide⟩,
   ⟨rq, 86400000, 60, hd 0x0D02 (pack [(86400000, 6), (60, 2)]) 0, 0, { reqState 0 0x0D02 (pack [(86400000, 6), (60, 2)]) 0 with time := { source := .ring } }, by decide⟩,
   ⟨rq, 1, 1023, hd 0x0D03 (pack [(1, 1), (1023, 2)]) 0, 0, reqState 0 0x0D03 (pack [(1, 1), (1023, 2)]) 0, by decide⟩,
   ⟨rq, 60, 4, hd 0x0D04 [60, 4] 4, 0, reqState 0 0x0D04 [60, 4] 4, by decide⟩,
   ⟨rq, 60, 4, [1, 2, 3, 4], hd 0x0D05 (60 :: 4 :: ([1, 2, 3, 4] : List Byte)) 0, 0, 3, reqState 0 0x0D05 (60 :: 4 :: ([1, 2, 3, 4] : List Byte)) 0, by decide⟩,
   ⟨rq, hd 0x0D06 [] 64, 0, reqState 0 0x0D06 [] 64, by decide⟩⟩

end Sys2Proof.Machine
end

/-! What the state after reset holds (O7), and how ticks, graft links, supplies, resets and the bark take effect (O24). -/
namespace Sys2Proof.Machine

/-! ### The state after reset: every sparse table is empty, so every entry reads its register table's default -/

@[simp] theorem reset_cell (m : Nat) : State.reset.cell m = {} := rfl
@[simp] theorem reset_port (p : Nat) : State.reset.port p = {} := rfl
@[simp] theorem reset_die (d : Nat) : State.reset.die d = {} := rfl
@[simp] theorem reset_unit (d u : Nat) : State.reset.unit d u = {} := rfl
@[simp] theorem reset_tport (q : TrunkPort) : State.reset.tport q = {} := by cases q <;> rfl
@[simp] theorem reset_sender (k : Nat) : State.reset.sender k = {} := by
  unfold State.sender; split <;> rfl

/-- Every watermark slot is disabled, with the POL of 13 Table 13.10. -/
theorem reset_wmk (n : Nat) : State.reset.wmk n = { pol := n == 3 || n == 4 || n == 11 } := by
  by_cases h3 : n = 3
  · subst h3; rfl
  by_cases h4 : n = 4
  · subst h4; rfl
  by_cases h11 : n = 11
  · subst h11; rfl
  simp [State.wmk, State.reset, sget, h3, h4, h11, Ne.symm h3, Ne.symm h4, Ne.symm h11]

/-- A point that nothing has written reads value 0 under a status byte of 0xC0. -/
theorem cellWord_default : cellWord {} = 0xC0000000 := by decide

/-- Settles O7: each register table's defaults, read through the accessor of its unit. -/
theorem resetLeavesTheStatedValues : Obligations.ResetLeavesTheStatedValues := by
  unfold Obligations.ResetLeavesTheStatedValues
  simp only [reset_cell, cellWord_default, reset_port, reset_tport, reset_die, reset_unit, reset_sender, reset_wmk]
  refine ⟨rfl, ?_⟩
  simp [State.reset]

/-! ### Ticks and graft links -/

/-- A tick counts by one and leaves the graft links alone (01 R11): what the field I/O controller and the metering engine do
in it stays inside their own kinds of state (`State.fioTick_fld`, `State.fioServe_fld`, `State.mtrTick_met`). -/
theorem exec_tick_of_runs (inp : TickIn) (s : State) (h : s.runs = true) :
    ∃ t, exec (.tick inp) s = .next t ∧ t.tick = s.tick + 1 ∧ t.links = s.links := by
  show ∃ t, execTick inp s = .next t ∧ _
  simp only [execTick, h, Bool.not_true, Bool.false_eq_true, if_false, done_eq, exists_eq_left', settle_tick, settle_links]
  (repeat' split) <;> simp

/-- Where a graft link stands the other way, a change flips its bit and no other (01 R8). -/
theorem State.graftChange_links (s : State) (link : Nat) (bad : Bool) (h : s.runs = true)
    (hl : link < (graftLinks s.member).length) (hb : s.links.getLsbD link = !bad) :
    (s.graftChange link bad).links = s.links ^^^ BitVec.ofNat 12 (2 ^ link) := by
  simp [State.graftChange, h, Nat.not_le.mpr hl, hb]

theorem getLsbD_two_pow_self (link : Fin 12) : (BitVec.ofNat 12 (2 ^ link.val)).getLsbD link.val = true := by
  rw [BitVec.getLsbD_ofNat, Nat.testBit_two_pow_self]
  simp

/-- After a change, the link's bit says whether it has failed. -/
theorem State.graftChange_link (s : State) (link : Fin 12) (bad : Bool) (h : s.runs = true)
    (hl : link.val < (graftLinks s.member).length) (hb : s.links.getLsbD link.val = !bad) :
    (s.graftChange link.val bad).links.getLsbD link.val = bad := by
  rw [State.graftChange_links s link.val bad h hl hb, BitVec.getLsbD_xor, hb,
    getLsbD_two_pow_self]
  cases bad <;> rfl

theorem exec_graftLinkFail (link : Fin 12) (s : State) :
    exec (.graftLinkFail link) s = .next (settle s (s.graftChange link.val true)) := rfl
theorem exec_graftLinkRestored (link : Fin 12) (s : State) :
    exec (.graftLinkRestored link) s = .next (settle s (s.graftChange link.val false)) := rfl

/-! ### Supplies -/

/-- VIN_GOOD takes a module without power into reset (17 R366). -/
theorem exec_vinGood_of_off (s : State) (h : s.su.phase = .off) :
    ∃ t, exec .vinGood s = .next t ∧ t.su.phase = .held ∧ t.su.vinGood = true ∧ t.su.powerFail = false ∧ t.su.pgood = true := by
  show ∃ t, execVinGood s = .next t ∧ _
  simp [execVinGood, h, done_eq]

@[simp] theorem foldl_logicPowerFail_su (l : List Nat) (s : State) :
    (l.foldl (fun t d => t.logicPowerFail d) s).su = s.su := by
  have h := foldl_lsc (fun t d => t.logicPowerFail d) l s fun t d => State.logicPowerFail_lsc t d
  simp_all only [OutLogic]

/-- POWER_FAIL_DETECT takes down the power flags and opens the recorder's window (17 R365, 12 R274). -/
theorem exec_powerFailDetect_of_exyan (s : State) (hv : s.su.vinGood = true) (he : s.exyan = true) :
    ∃ t, exec .powerFailDetect s = .next t ∧ t.su.powerFail = true ∧ t.su.vinGood = false ∧ t.su.pgood = false ∧
      t.evr.pfWindow = true := by
  show ∃ t, execPowerFailDetect s = .next t ∧ _
  have he' : (s.modSu fun u => { u with vinGood := false, powerFail := true, pgood := false }).exyan = true := he
  simp [execPowerFailDetect, hv, he', done_eq, Recorder.pushFront]

/-! ### Resets -/

@[simp] theorem State.moduleReset_su (s : State) (n : Nat) : (s.moduleReset n).su = keptStartup s.su n := rfl
@[simp] theorem State.moduleReset_sec (s : State) (n : Nat) : (s.moduleReset n).sec = keptSecurity s.sec := rfl
@[simp] theorem State.moduleReset_tick (s : State) (n : Nat) : (s.moduleReset n).tick = 0 := rfl

/-- VIN_COLLAPSE stops everything; the reason says whether the failure had been detected (17 Table 17.2). -/
theorem exec_vinCollapse_of_on (s : State) (h : s.su.phase ≠ .off) :
    ∃ t, exec .vinCollapse s = .next t ∧ t.su.phase = .off ∧ t.su.vinGood = false ∧ t.su.pgood = false ∧
      t.su.reason = (if s.su.powerFail then 3 else 1) := by
  show ∃ t, execVinCollapse s = .next t ∧ _
  cases hf : s.su.powerFail <;> simp [execVinCollapse, h, hf, done_eq, keptStartup]

theorem exec_resetN_of_on (s : State) (h : s.su.phase ≠ .off) :
    ∃ t, exec .resetN s = .next t ∧ t.su.phase = .held ∧ t.su.reason = 2 ∧ t.su.resetPin = true ∧ t.tick = 0 := by
  show ∃ t, execResetN s = .next t ∧ _
  simp [execResetN, h, done_eq, keptStartup]

theorem exec_managementWatchdogExpiry_of_exyan (s : State) (h : s.exyan = true) :
    ∃ t, exec .managementWatchdogExpiry s = .next t ∧ t.su.phase = .held ∧ t.su.reason = 4 ∧ t.tick = 0 := by
  show ∃ t, execManagementWatchdogExpiry s = .next t ∧ _
  simp [execManagementWatchdogExpiry, h, done_eq, keptStartup]

theorem exec_thermalShutdown_of_on (d : Die) (s : State) (h : s.su.phase ≠ .off) (hd : d.val < s.nDies) :
    ∃ t, exec (.thermalShutdown d) s = .next t ∧ t.su.phase = .held ∧ t.su.reason = 8 ∧ t.su.hot = true := by
  show ∃ t, execThermalShutdown d s = .next t ∧ _
  simp [execThermalShutdown, h, Nat.not_le.mpr hd, done_eq, keptStartup]

/-! ### The bark and the backup domain -/

/-- Beside the vault's state and TAMPER_N (`State.zeroise_eff`), zeroisation leaves the cause, a disarmed monitor and no
key hash (15 R335). -/
theorem State.zeroise_sec (s : State) (c : BarkCause) :
    (s.zeroise c).sec.cause = barkCode c ∧ (s.zeroise c).sec.armed = false ∧ (s.zeroise c).sec.keyHashes = [] := by
  simp [State.zeroise, State.loseKek]

@[simp] theorem State.zeroise_phase (s : State) (c : BarkCause) : (s.zeroise c).su.phase = s.su.phase := by
  simp [State.zeroise, State.loseKek]

/-- A break that an armed monitor sees with VIN present zeroises the vault and resets the module (15 R335). -/
theorem exec_barkBreak_of_armed (c : BarkCause) (s : State) (h : s.su.phase ≠ .off) (ha : s.sec.armed = true) :
    ∃ t, exec (.barkBreak c) s = .next t ∧ t.sec.vault = .cleared ∧ t.sec.cause = barkCode c ∧ t.sec.armed = false ∧
      t.sec.tamperN = false ∧ t.sec.keyHashes = [] ∧ t.su.reason = 5 ∧ t.su.phase = .held := by
  show ∃ t, execBarkBreak c s = .next t ∧ _
  simp [execBarkBreak, h, ha, done_eq, State.zeroise_eff, State.zeroise_sec, keptSecurity, keptStartup]

/-- Without VIN the backup domain zeroises the vault by itself (15 R334). -/
theorem exec_barkPoll_of_armed (c : BarkCause) (s : State) (h : s.su.phase = .off) (ha : s.sec.armed = true) :
    ∃ t, exec (.barkPoll (some c)) s = .next t ∧ t.sec.vault = .cleared ∧ t.sec.cause = barkCode c ∧ t.sec.armed = false ∧
      t.sec.tamperN = false ∧ t.su.phase = .off := by
  show ∃ t, execBarkPoll (some c) s = .next t ∧ _
  simp [execBarkPoll, h, ha, done_eq, State.zeroise_eff, State.zeroise_sec]

/-- Switch and mesh whole for 10 s arm the monitor again and leave the vault as it was (15 R336). -/
theorem exec_barkRearm_of_whole (s : State) (hm : s.sec.meshOk = true) (hl : s.sec.lidClosed = true)
    (hw : 160000 ≤ s.sec.wholeFor) :
    ∃ t, exec .barkRearm s = .next t ∧ t.sec.armed = true ∧ t.sec.vault = s.sec.vault := by
  show ∃ t, execBarkRearm s = .next t ∧ _
  simp [execBarkRearm, hm, hl, hw, done_eq]

/-- Without backup power the domain and the vault's bytes are gone, which only the next start finds out (15 R336). -/
theorem exec_backupPowerLoss_of_off (s : State) (h : s.su.phase = .off) :
    ∃ t, exec .backupPowerLoss s = .next t ∧ t.time = {} ∧ t.su.incomplete = 0 ∧ t.su.attempts = 0 ∧ t.sec.vaultMem = [] ∧
      t.sec.armed = false ∧ t.sec.vault = s.sec.vault := by
  show ∃ t, execBackupPowerLoss s = .next t ∧ _
  simp [execBackupPowerLoss, h, done_eq]

/-- Settles O24: one lemma for each command, in the state where it applies. -/
theorem suppliesAndResetsTakeEffect : Obligations.SuppliesAndResetsTakeEffect := by
  unfold Obligations.SuppliesAndResetsTakeEffect
  refine ⟨exec_tick_of_runs, ?linkFails, ?linkRestored, exec_vinGood_of_off, exec_powerFailDetect_of_exyan,
    exec_vinCollapse_of_on, exec_resetN_of_on, exec_managementWatchdogExpiry_of_exyan, exec_thermalShutdown_of_on,
    exec_barkBreak_of_armed, ?poll, exec_barkRearm_of_whole, exec_backupPowerLoss_of_off⟩
  case linkFails =>
    intro link s h hl hb
    exact ⟨_, exec_graftLinkFail link s, by rw [settle_links]; exact State.graftChange_link s link true h hl hb⟩
  case linkRestored =>
    intro link s h hl hb
    exact ⟨_, exec_graftLinkRestored link s, by rw [settle_links]; exact State.graftChange_link s link false h hl hb⟩
  case poll =>
    rintro _ c s rfl h ha
    exact exec_barkPoll_of_armed c s h ha

end Sys2Proof.Machine

/-! What a tenant reads shows nothing of the points that it does not see (O18). -/
namespace Sys2Proof.Machine

/-! ### What a mailbox command does not look at, it carries along -/

/-- A change of the points that a command's own part carries along and does not answer by is carried along by the command's
checks too. -/
theorem State.attempt_modPnt (s : State) (g : Points → Points) (k op : Nat) (h : ReqHead) (landlord : Bool)
    (p : List Byte → Bool) (bad : Option Nat) (f : Tenant → Nat → State → Answer)
    (hf : f (s.reqTenant k) h.rlen (s.modPnt g) =
      ((f (s.reqTenant k) h.rlen s).1, (f (s.reqTenant k) h.rlen s).2.modPnt g)) :
    (s.modPnt g).attempt k op h landlord p bad f =
      ((s.attempt k op h landlord p bad f).1, (s.attempt k op h landlord p bad f).2.modPnt g) := by
  have hearly : (s.modPnt g).early k h = s.early k h := rfl
  have htenant : (s.modPnt g).reqTenant k = s.reqTenant k := rfl
  simp only [State.attempt, hearly, htenant, hf, State.modPnt_su, ansNo]
  (repeat' split) <;> simp_all

/-- The same for the command that starts a request and stores its answer: the request of either state gets the same result. -/
theorem State.serve_modPnt (s : State) (g : Points → Points) (r : Req) (op : Nat) (landlord : Bool) (p : List Byte → Bool)
    (bad : Option Nat) (f : Tenant → Nat → State → Answer)
    (hf : ∀ n u, u.pnt = s.pnt → f (s.reqTenant r.sender.val) n (u.modPnt g) =
      ((f (s.reqTenant r.sender.val) n u).1, (f (s.reqTenant r.sender.val) n u).2.modPnt g)) :
    (s.modPnt g).serve r op landlord p bad f = (s.serve r op landlord p bad f).modPnt g := by
  have hsender : (s.modPnt g).sender r.sender.val = s.sender r.sender.val := rfl
  simp only [State.serve, hsender]
  split
  case h_1 => rfl
  case h_2 i _ =>
    split
    case h_1 => rfl
    case h_2 q _ =>
      let u := s.modSender r.sender.val fun x => { x with reqs := x.reqs.set i { q with begun := true } }
      have htenant : u.reqTenant r.sender.val = s.reqTenant r.sender.val := by
        simp [u, State.reqTenant]
      have hattempt := u.attempt_modPnt g r.sender.val op q.head landlord p bad f
        (by rw [htenant]; exact hf q.head.rlen u rfl)
      show (match (u.modPnt g).attempt r.sender.val op q.head landlord p bad f with
        | (none, v) => v
        | (some res, v) => v.modSender r.sender.val fun x => { x with reqs := putResult i r.tag res x.reqs }) = _
      rw [hattempt]
      show _ = (match u.attempt r.sender.val op q.head landlord p bad f with
        | (none, v) => v
        | (some res, v) => v.modSender r.sender.val fun x => { x with reqs := putResult i r.tag res x.reqs }).modPnt g
      rcases u.attempt r.sender.val op q.head landlord p bad f with ⟨_ | res, v⟩ <;> rfl

/-- So the result of a request does not depend on what its command's own part only carries along. -/
theorem State.resultOf_serveA_modPnt (s : State) (g : Points → Points) (r : Req) (i op : Nat) (data : List Byte)
    (ranges : Bool) (f : Tenant → Nat → State → Answer)
    (hf : ∀ n u, u.pnt = s.pnt → f (s.reqTenant r.sender.val) n (u.modPnt g) =
      ((f (s.reqTenant r.sender.val) n u).1, (f (s.reqTenant r.sender.val) n u).2.modPnt g)) :
    ((s.modPnt g).serveA r op data ranges f).resultOf r i = (s.serveA r op data ranges f).resultOf r i := by
  rw [State.serveA, State.serveA, s.serve_modPnt g r op false _ _ f hf]
  rfl

/-! ### What a tenant reads of the points (02 R27, R39) -/

/-- Other contents in the cell of point `m`. -/
def Points.withCell (m : Nat) (x : Cell) (p : Points) : Points := { p with cells := sput p.cells m x }

theorem State.withCell_cell_ne (s : State) (m : Nat) (x : Cell) {j : Nat} (h : m ≠ j) :
    (s.modPnt (Points.withCell m x)).cell j = s.cell j :=
  sget_sput_ne _ _ _ h

/-- A tenant is shown nothing of the cell of a point that it does not see. -/
theorem State.withCell_cellFor (s : State) (t : Tenant) (m : Nat) (x : Cell) (j : Nat)
    (h : (s.desc? m).any (sees t) = false) :
    (s.modPnt (Points.withCell m x)).cellFor t j = s.cellFor t j := by
  have hdesc : (s.modPnt (Points.withCell m x)).desc? j = s.desc? j := rfl
  simp only [State.cellFor, hdesc]
  by_cases hm : m = j
  · subst hm
    cases hd : s.desc? m <;> simp_all
  · rw [s.withCell_cell_ne m x hm]

/-- A reference finds a point only where the tenant sees it. -/
theorem State.refPoint_sees (s : State) (t : Tenant) (w : Word) (m : Nat) (d : Desc) (h : s.refPoint t w = some (m, d)) :
    (s.desc? m).any (sees t) = true := by
  simp only [State.refPoint] at h
  (repeat' split at h) <;> simp_all

theorem State.withCell_readRefs (s : State) (t : Tenant) (m : Nat) (x : Cell) (n : Nat) (l : List Word)
    (h : (s.desc? m).any (sees t) = false) :
    (s.modPnt (Points.withCell m x)).readRefs t n l = s.readRefs t n l := by
  induction l generalizing n with
  | nil => rfl
  | cons w l ih =>
    have href : (s.modPnt (Points.withCell m x)).refPoint t w = s.refPoint t w := rfl
    simp only [State.readRefs, href, ih]
    cases hw : s.refPoint t w with
    | none => rfl
    | some e =>
      have hne : m ≠ e.1 := by
        rintro rfl
        simp [s.refPoint_sees t w e.1 e.2 hw] at h
      simp only [s.withCell_cell_ne m x hne]

/-- Settles O18: with other contents in a hidden cell either command comes to the same answer, and carries the cell along. -/
theorem hiddenPointsDoNotShow : Obligations.HiddenPointsDoNotShow := by
  unfold Obligations.HiddenPointsDoNotShow
  constructor
  case left =>
    intro r refs m i x s h
    refine ⟨_, _, rfl, rfl, ?_⟩
    rw [settle_resultOf, settle_resultOf]
    refine (s.resultOf_serveA_modPnt (Points.withCell m x) r i 0x0301 _ _ _ ?_).symm
    intro n u hu
    have hhid : (u.desc? m).any (sees (s.reqTenant r.sender.val)) = false := by rwa [State.desc?, hu]
    simp only [u.withCell_readRefs _ m x 0 refs hhid]
    cases u.readRefs (s.reqTenant r.sender.val) 0 refs <;> rfl
  case right =>
    intro r die block m i x s h
    refine ⟨_, _, rfl, rfl, ?_⟩
    rw [settle_resultOf, settle_resultOf]
    refine (s.resultOf_serveA_modPnt (Points.withCell m x) r i 0x0302 _ _ _ ?_).symm
    intro n u hu
    have hhid : (u.desc? m).any (sees (s.reqTenant r.sender.val)) = false := by rwa [State.desc?, hu]
    have hdies : (u.modPnt (Points.withCell m x)).nDies = u.nDies := rfl
    simp only [hdies, u.withCell_cellFor _ m x _ hhid]
    split <;> rfl

end Sys2Proof.Machine

/-! The commands of the points (02): mailbox writes reach host points only (O20), and every point command takes effect (O28). -/
namespace Sys2Proof.Machine

/-! ### How a request of the points is answered -/

/-- A command whose request may start and passes its checks gives the request its answer, and leaves the points as its own
part does. -/
theorem State.done_serveA_of_offers {s u : State} {r : Req} {op i : Nat} {data : List Byte} {ranges : Bool} {h : ReqHead}
    {f : Tenant → Nat → State → Answer} {res : Result} {P : State → Prop} (ho : s.offers r op (· == data) h i)
    (hr : ranges = true) (hf : f (s.reqTenant r.sender.val) h.rlen (s.begun r h i) = (some res, u))
    (hu : u.host = (s.begun r h i).host) (hP : ∀ t, t.resultOf r i = some res → t.pnt = u.pnt → P t) :
    ∃ t, done s (s.serveA r op data ranges f) = .next t ∧ P t := by
  have hrun : s.serveA r op data ranges f =
      u.modSender r.sender.val fun x => { x with reqs := putResult i r.tag res x.reqs } := by
    rw [State.serveA, s.serve_offers r op h i false _ _ f ho (by simp [rangeBad, hr]) (by simp), hf]
  refine ⟨_, done_next _ _, hP _ ?_ ?_⟩
  · rw [hrun, settle_resultOf]
    exact s.resultOf_answer u r op _ h i res ho hu
  · rw [hrun, settle_pnt, State.modSender_pnt]

theorem State.cell_congr {t u : State} (h : t.pnt = u.pnt) (m : Nat) : t.cell m = u.cell m := by
  rw [State.cell, State.cell, h]

theorem State.nDies_le (s : State) : s.nDies ≤ 8 := by unfold State.nDies; split <;> decide

/-! ### What a cell holds after a write of its source, a force and a release (02 R29, R31) -/

@[simp] theorem fbkValue_good (d : Desc) (v : V24) : fbkValue d .good v = v := by simp [fbkValue]

/-- A batch of one write does that write; the generation words hold no cell and no force. -/
@[simp] theorem State.batch_one_cell (s : State) (w : CellWrite) (m : Nat) :
    (s.batch [w]).cell m = (s.sourceWrite w.m w.src w.q w.v).cell m := by
  simp [State.batch, State.sourceWrites]
@[simp] theorem State.bumpGens_shadows (s : State) (l : List Nat) : (s.bumpGens l).pnt.shadows = s.pnt.shadows := by
  induction l generalizing s with
  | nil => rfl
  | cons b l ih => simp [State.bumpGens, ih]
@[simp] theorem State.batch_one_shadows (s : State) (w : CellWrite) :
    (s.batch [w]).pnt.shadows = (s.sourceWrite w.m w.src w.q w.v).pnt.shadows := by
  simp [State.batch, State.sourceWrites]

/-- A good value of its source goes into the cell of a point that is not forced, and clears STALE. -/
theorem State.sourceWrite_cell_of_free (s : State) (m : Nat) (src : Src) (v : V24) (d : Desc) (hd : s.desc? m = some d)
    (hf : (s.cell m).forced = false) :
    ((s.sourceWrite m src .good v).cell m).value = v ∧ ((s.sourceWrite m src .good v).cell m).qual = .good ∧
      ((s.sourceWrite m src .good v).cell m).src = src ∧ ((s.sourceWrite m src .good v).cell m).stale = false := by
  simp [State.sourceWrite, hd, hf]

/-- A write of the source of a forced point goes into the shadow and leaves the cell's value. -/
theorem State.sourceWrite_shadow_of_forced (s : State) (m : Nat) (src : Src) (q : Qual) (v : V24) (d : Desc)
    (hd : s.desc? m = some d) (hf : (s.cell m).forced = true) :
    sfind (s.sourceWrite m src q v).pnt.shadows m = some { qual := q, src := src, value := v } ∧
      ((s.sourceWrite m src q v).cell m).value = (s.cell m).value := by
  simp only [State.sourceWrite, hd, hf, if_true]
  split
  · simp
  · exact ⟨sfind_sput_same _ _ _, rfl⟩

/-- A force that passes its checks is of a configured point (02 R30). -/
theorem State.desc_of_forceCheck (s : State) (t : Tenant) (m : Nat) (release : Bool) (h : s.forceCheck t m release = 0) :
    ∃ d, s.desc? m = some d := by
  cases hd : s.desc? m with
  | none => simp [State.forceCheck, hd] at h
  | some d => exact ⟨d, rfl⟩

/-- A force stands in the cell and in the force table (02 R29). -/
theorem State.force_cell (s : State) (t : Tenant) (m : Nat) (v : V24) (d : Desc) (hd : s.desc? m = some d) :
    ((s.force t m v).cell m).forced = true ∧ ((s.force t m v).cell m).value = v ∧
      ((s.force t m v).cell m).qual = .good ∧ ((s.force t m v).cell m).src = .host ∧
      sfind (s.force t m v).pnt.forces m =
        some { value := v, by_ := t, tenant := d.tenant, bkind := d.bkind, bref := d.bref } := by
  simp only [State.desc?] at hd
  simp [State.force, State.placeForce, State.desc?, hd, State.oneBatch]

/-- A release clears FORCED, the force and its shadow, and leaves the value and QUAL (02 R31). -/
theorem State.release_cell (s : State) (m : Nat) (d : Desc) (hd : s.desc? m = some d) :
    ((s.release m).cell m).forced = false ∧ ((s.release m).cell m).value = (s.cell m).value ∧
      ((s.release m).cell m).qual = (s.cell m).qual ∧ sfind (s.release m).pnt.forces m = none ∧
      sfind (s.release m).pnt.shadows m = none := by
  simp [State.release, hd, State.oneBatch]

/-! ### Mailbox writes (02 R28) -/

theorem hostWritable_iff (t : Tenant) (d : Desc) :
    hostWritable t d = true ↔
      d.bkind = 0 ∧ (d.ptype = 1 ∨ d.ptype = 3 ∨ d.ptype = 5 ∨ d.ptype = 6) ∧ (t = 0 ∨ d.tenant = t) := by
  simp [hostWritable, and_assoc, or_assoc]

section
variable (r : Req) (ref : Word) (v : V24) (h : ReqHead) (i m : Nat) (d : Desc) (s : State)
  (ho : s.offers r 0x0303 (· == pack [(ref.toNat, 4), (v.toNat, 3)]) h i) (hb : refBad ref = false)
  (hp : s.refPoint (s.reqTenant r.sender.val) ref = some (m, d))
include ho hb hp

/-- A mailbox write to a point that it may not reach is refused, and changes no point. -/
theorem exec_pntWrite_of_not_writable (hw : hostWritable (s.reqTenant r.sender.val) d = false) :
    ∃ t, exec (.pntWrite r ref v) s = .next t ∧ t.resultOf r i = some (refusal stNotWritable 0) ∧ t.pnt = s.pnt := by
  show ∃ t, execPntWrite r ref v s = .next t ∧ _
  refine State.done_serveA_of_offers ho (by simp [hb]) (u := s.begun r h i) ?_ rfl fun t hres hpnt => ⟨hres, hpnt⟩
  simp [hp, hw, ansNo]

/-- A mailbox write to a point that it may reach is a source write of the host, and answers the cell. -/
theorem exec_pntWrite_of_writable (hw : hostWritable (s.reqTenant r.sender.val) d = true) :
    ∃ t, exec (.pntWrite r ref v) s = .next t ∧ t.resultOf r i = some { r0 := cellWord (t.cell m) } ∧
      t.pnt = ((s.begun r h i).batch [{ m := m, src := .host, q := .good, v := v }]).pnt := by
  show ∃ t, execPntWrite r ref v s = .next t ∧ _
  refine State.done_serveA_of_offers ho (by simp [hb]) ?_ (State.batch_hp _ _) fun t hres hpnt =>
    ⟨by rw [hres, State.cell_congr hpnt], hpnt⟩
  simp [hp, hw, ansOk]

/-- Where the point is not forced, the value stands in the cell, good and from the host. -/
theorem exec_pntWrite_of_free (hw : hostWritable (s.reqTenant r.sender.val) d = true) (hf : (s.cell m).forced = false) :
    ∃ t, exec (.pntWrite r ref v) s = .next t ∧ t.resultOf r i = some { r0 := cellWord (t.cell m) } ∧
      (t.cell m).value = v ∧ (t.cell m).qual = .good ∧ (t.cell m).src = .host ∧ (t.cell m).stale = false := by
  obtain ⟨t, ht, hres, hpnt⟩ := exec_pntWrite_of_writable r ref v h i m d s ho hb hp hw
  refine ⟨t, ht, hres, ?_⟩
  rw [State.cell_congr hpnt, State.batch_one_cell]
  exact (s.begun r h i).sourceWrite_cell_of_free m .host v d (s.refPoint_desc _ _ _ _ hp) hf

/-- Where the point is forced, the value stands in the source shadow and the cell keeps the forced one. -/
theorem exec_pntWrite_of_forced (hw : hostWritable (s.reqTenant r.sender.val) d = true) (hf : (s.cell m).forced = true) :
    ∃ t, exec (.pntWrite r ref v) s = .next t ∧ t.resultOf r i = some { r0 := cellWord (t.cell m) } ∧
      (sfind t.pnt.shadows m).map (·.src) = some .host ∧ (t.cell m).value = (s.cell m).value := by
  obtain ⟨t, ht, hres, hpnt⟩ := exec_pntWrite_of_writable r ref v h i m d s ho hb hp hw
  obtain ⟨hshadow, hvalue⟩ := (s.begun r h i).sourceWrite_shadow_of_forced m .host .good v d
    (s.refPoint_desc _ _ _ _ hp) hf
  refine ⟨t, ht, hres, ?_, ?_⟩
  · rw [hpnt, State.batch_one_shadows, hshadow]
    rfl
  · rw [State.cell_congr hpnt, State.batch_one_cell]
    exact hvalue

end

/-- Settles O20: `hostWritable` decides between the two outcomes of a write that reaches a visible point. -/
theorem mailboxWritesReachHostPointsOnly : Obligations.MailboxWritesReachHostPointsOnly := by
  unfold Obligations.MailboxWritesReachHostPointsOnly
  refine ⟨?okOnlyThere, ?free, ?forced, ?refused⟩
  case okOnlyThere =>
    intro r ref v h i m d s ho hb hp
    cases hw : hostWritable (s.reqTenant r.sender.val) d with
    | true =>
      obtain ⟨t, ht, hres, -⟩ := exec_pntWrite_of_writable r ref v h i m d s ho hb hp hw
      obtain ⟨hbkind, hptype, -⟩ := (hostWritable_iff _ _).1 hw
      exact ⟨t, _, ht, hres, fun _ => ⟨hbkind, hptype⟩⟩
    | false =>
      obtain ⟨t, ht, hres, -⟩ := exec_pntWrite_of_not_writable r ref v h i m d s ho hb hp hw
      exact ⟨t, _, ht, hres, fun hok => absurd hok (by decide)⟩
  case free =>
    intro r ref v h i m d s ho hb hp hbkind hptype hten hf
    obtain ⟨t, ht, hres, -, -, hsrc, -⟩ := exec_pntWrite_of_free r ref v h i m d s ho hb hp
      ((hostWritable_iff _ _).2 ⟨hbkind, hptype, hten⟩) hf
    exact ⟨t, ht, hres, hsrc⟩
  case forced =>
    intro r ref v h i m d s ho hb hp hbkind hptype hten hf
    exact exec_pntWrite_of_forced r ref v h i m d s ho hb hp ((hostWritable_iff _ _).2 ⟨hbkind, hptype, hten⟩) hf
  case refused =>
    intro r ref v h i m d s ho hb hp hkind
    refine exec_pntWrite_of_not_writable r ref v h i m d s ho hb hp (Bool.eq_false_iff.2 fun hw => ?_)
    obtain ⟨hbkind, hptype, -⟩ := (hostWritable_iff _ _).1 hw
    obtain hother | ⟨hdo, hao, hsp, hvar⟩ := hkind
    · exact hother hbkind
    · exact hptype.elim hdo fun h => h.elim hao fun h => h.elim hsp hvar

/-! ### The other requests of group 0x03 -/

/-- PNT_READ answers the cells of the points that its references name. -/
theorem exec_pntRead_of_visible (r : Req) (refs : List Word) (h : ReqHead) (i : Nat) (l : List (Nat × Desc)) (s : State)
    (ho : s.offers r 0x0301 (· == (leBytes refs.length 2 ++ wordBytes refs)) h i) (h1 : 1 ≤ refs.length)
    (h2 : refs.length ≤ 1024) (hb : refs.any refBad = false)
    (hp : refs.map (s.refPoint (s.reqTenant r.sender.val)) = l.map some) :
    ∃ t, exec (.pntRead r refs) s = .next t ∧
      t.resultOf r i = some { r0 := w32 refs.length, resp := wordBytes (l.map fun e => cellWord (s.cell e.1)) } ∧
      t.pnt = s.pnt := by
  show ∃ t, execPntRead r refs s = .next t ∧ _
  refine State.done_serveA_of_offers ho (by simp [hb, h1, h2]) (u := s.begun r h i) ?_ rfl fun t hres hpnt => ⟨hres, hpnt⟩
  simp [s.readRefs_ok _ 0 refs l hp, ansOk]

/-- PNT_READ_BLOCK answers the block's generation word and its cells as the tenant is shown them. -/
theorem exec_pntReadBlock_of_die (r : Req) (die : Byte) (block : BitVec 16) (h : ReqHead) (i : Nat) (s : State)
    (ho : s.offers r 0x0302 (· == pack [(die.toNat, 1), (block.toNat, 2)]) h i) (hd : die.toNat < s.nDies)
    (hb : block.toNat < 512) :
    ∃ t, exec (.pntReadBlock r die block) s = .next t ∧
      t.resultOf r i = some
        { r0 := sget 0 s.pnt.gens (512 * die.toNat + block.toNat), resp := wordBytes ((List.range 64).map fun k => cellWord (s.cellFor (s.reqTenant r.sender.val) (32768 * die.toNat + 64 * block.toNat + k))) } ∧
      t.pnt = s.pnt := by
  have h8 : die.toNat < 8 := Nat.lt_of_lt_of_le hd s.nDies_le
  show ∃ t, execPntReadBlock r die block s = .next t ∧ _
  refine State.done_serveA_of_offers ho (by simp [dieArg, h8, hb]) (u := s.begun r h i) ?_ rfl
    fun t hres hpnt => ⟨hres, hpnt⟩
  simp [Nat.not_le.mpr hd, ansOk]

/-- PNT_FORCE that passes its checks forces the point, and answers the cell and who forced it. -/
theorem exec_pntForce_of_ok (r : Req) (ref : Word) (v : V24) (h : ReqHead) (i m : Nat) (d : Desc) (s : State)
    (ho : s.offers r 0x0304 (· == pack [(ref.toNat, 4), (v.toNat, 3)]) h i) (hb : refBad ref = false)
    (hp : s.refPoint (s.reqTenant r.sender.val) ref = some (m, d))
    (hc : s.forceCheck (s.reqTenant r.sender.val) m false = 0) :
    ∃ t, exec (.pntForce r ref v) s = .next t ∧
      t.resultOf r i = some { r0 := cellWord (t.cell m), r1 := (s.reqTenant r.sender.val).setWidth 32 } ∧
      (t.cell m).forced = true ∧ (t.cell m).value = v ∧ (t.cell m).qual = .good ∧ (t.cell m).src = .host ∧
      sfind t.pnt.forces m =
        some { value := v, by_ := s.reqTenant r.sender.val, tenant := d.tenant, bkind := d.bkind, bref := d.bref } := by
  show ∃ t, execPntForce r ref v s = .next t ∧ _
  refine State.done_serveA_of_offers ho (by simp [hb]) (u := (s.begun r h i).force (s.reqTenant r.sender.val) m v) ?_
    (State.force_hp _ _ _ _) fun t hres hpnt => ⟨by rw [hres, State.cell_congr hpnt], ?_⟩
  · simp [hp, hc, ansOk]
  · rw [State.cell_congr hpnt, hpnt]
    exact (s.begun r h i).force_cell _ m v d (s.refPoint_desc _ _ _ _ hp)

/-- PNT_RELEASE that passes its checks releases the point and answers the cell. -/
theorem exec_pntRelease_of_ok (r : Req) (ref : Word) (h : ReqHead) (i m : Nat) (d : Desc) (s : State)
    (ho : s.offers r 0x0305 (· == pack [(ref.toNat, 4)]) h i) (hb : refBad ref = false)
    (hp : s.refPoint (s.reqTenant r.sender.val) ref = some (m, d))
    (hc : s.forceCheck (s.reqTenant r.sender.val) m true = 0) :
    ∃ t, exec (.pntRelease r ref) s = .next t ∧ t.resultOf r i = some { r0 := cellWord (t.cell m) } ∧
      (t.cell m).forced = false ∧ (t.cell m).value = (s.cell m).value ∧ (t.cell m).qual = (s.cell m).qual ∧
      sfind t.pnt.forces m = none ∧ sfind t.pnt.shadows m = none := by
  show ∃ t, execPntRelease r ref s = .next t ∧ _
  refine State.done_serveA_of_offers ho (by simp [hb]) (u := (s.begun r h i).release m) ?_ (State.release_hp _ _)
    fun t hres hpnt => ⟨by rw [hres, State.cell_congr hpnt], ?_⟩
  · simp [hp, hc, ansOk]
  · rw [State.cell_congr hpnt, hpnt]
    exact (s.begun r h i).release_cell m d (s.refPoint_desc _ _ _ _ hp)

/-- PNT_FORCE_LIST answers the one force there is, where the tenant sees its point and the response has room. -/
theorem exec_pntForceList_of_one (r : Req) (start : BitVec 16) (h : ReqHead) (i m : Nat) (f : Force) (s : State)
    (ho : s.offers r 0x0306 (· == pack [(start.toNat, 2)]) h i) (hl : 12 ≤ h.rlen) (h0 : start = 0)
    (hf : s.pnt.forces = [(m, f)]) (hv : (s.desc? m).any (sees (s.reqTenant r.sender.val)) = true) :
    ∃ t, exec (.pntForceList r start) s = .next t ∧
      t.resultOf r i = some
        { r0 := 1, r1 := 0xFFFF, resp := leBytes (s.pointRef m) 4 ++ leBytes f.value.toNat 4 ++ leBytes f.by_.toNat 2 ++ leBytes 0 2 } ∧
      t.pnt = s.pnt := by
  subst h0
  show ∃ t, execPntForceList r 0 s = .next t ∧ _
  refine State.done_serveA_of_offers ho rfl (u := s.begun r h i) ?_ rfl fun t hres hpnt => ⟨hres, hpnt⟩
  have hroom : [(m, f)].take (h.rlen / 12) = [(m, f)] :=
    List.take_of_length_le (show 1 ≤ h.rlen / 12 by omega)
  simp [hf, hv, hroom, ansOk, w32]

/-- PNT_DESC_READ answers the descriptor. -/
theorem exec_pntDescRead_of_visible (r : Req) (ref : Word) (h : ReqHead) (i m : Nat) (d : Desc) (s : State)
    (ho : s.offers r 0x0307 (· == pack [(ref.toNat, 4)]) h i) (hb : refBad ref = false)
    (hp : s.refPoint (s.reqTenant r.sender.val) ref = some (m, d)) :
    ∃ t, exec (.pntDescRead r ref) s = .next t ∧ t.resultOf r i = some { resp := descBytes d } ∧ t.pnt = s.pnt := by
  show ∃ t, execPntDescRead r ref s = .next t ∧ _
  refine State.done_serveA_of_offers ho (by simp [hb]) (u := s.begun r h i) ?_ rfl fun t hres hpnt => ⟨hres, hpnt⟩
  simp [hp, ansOk]

/-! ### PNT_FORCE_CTRL in the landlord's window (02 R40) -/

theorem State.pntWrite_forceCtrl (s : State) (t : Tenant) (d : Nat) (v : Word) :
    s.pntWrite t d 0x3000C v = s.forceCtrl t d (v.toNat % 4) := by
  simp [State.pntWrite]

/-- The result 0 of a command of PNT_FORCE_CTRL of die `d`. -/
def State.forceDone (s : State) (d : Nat) : State :=
  s.modPnt fun p => { p with regs := supd {} p.regs d fun r => { r with result := 0 } }

@[simp] theorem State.forceDone_cell (s : State) (d m : Nat) : (s.forceDone d).cell m = s.cell m := rfl
@[simp] theorem State.forceDone_forces (s : State) (d : Nat) : (s.forceDone d).pnt.forces = s.pnt.forces := rfl
theorem State.forceDone_result (s : State) (d : Nat) : (sget {} (s.forceDone d).pnt.regs d).result = 0 := by
  rw [State.forceDone, State.modPnt_pnt, sget_supd_same]

/-- The commands of PNT_FORCE_CTRL that pass their checks (02 R40, Table 02.8). -/
theorem State.forceCtrl_force (s : State) (t : Tenant) (d : Nat) (g : PntRegs) (hg : sget {} s.pnt.regs d = g)
    (hdone : g.done = true) (hc : s.forceCheck t (32768 * d + g.forceIdx.toNat) false = 0) :
    s.forceCtrl t d 1 = (s.force t (32768 * d + g.forceIdx.toNat) g.forceVal).forceDone d := by
  simp only [State.forceCtrl, hg, hdone, Nat.reduceBEq, hc]
  rfl
theorem State.forceCtrl_release (s : State) (t : Tenant) (d : Nat) (g : PntRegs) (hg : sget {} s.pnt.regs d = g)
    (hdone : g.done = true) (hc : s.forceCheck t (32768 * d + g.forceIdx.toNat) true = 0) :
    s.forceCtrl t d 2 = (s.release (32768 * d + g.forceIdx.toNat)).forceDone d := by
  simp only [State.forceCtrl, hg, hdone, Nat.reduceBEq, hc]
  rfl

section
variable (d : Die) (g : PntRegs) (s : State) (hr : s.host.mbxRdy = true) (hw : s.winTenant = some 0) (hd : d.val < s.nDies)
  (hg : sget {} s.pnt.regs d.val = g) (hdone : g.done = true)
include hr hw hd hg hdone

/-- A force through the register does what PNT_FORCE of the landlord does, with result 0. -/
theorem exec_pntForceCtrlForce_of_ok (hc : s.forceCheck 0 (32768 * d.val + g.forceIdx.toNat) false = 0) :
    ∃ t, exec (.pntForceCtrlForce d) s = .next t ∧ (t.cell (32768 * d.val + g.forceIdx.toNat)).forced = true ∧
      (t.cell (32768 * d.val + g.forceIdx.toNat)).value = g.forceVal ∧ (sget {} t.pnt.regs d.val).result = 0 := by
  obtain ⟨e, he⟩ := s.desc_of_forceCheck _ _ _ hc
  obtain ⟨hforced, hvalue, -⟩ := s.force_cell 0 _ g.forceVal e he
  have hreg := (s.regW_pnt d.val 0x3000C 1 hr hw hd (by decide) (by decide)).trans (s.pntWrite_forceCtrl 0 d.val 1)
  refine ⟨_, congrArg (done s) (hreg.trans (s.forceCtrl_force 0 d.val g hg hdone hc)), ?_⟩
  simp only [settle_cell_get, settle_pnt, State.forceDone_cell, State.forceDone_result, hforced, hvalue, and_self]

/-- A release through the register does what PNT_RELEASE of the landlord does, with result 0. -/
theorem exec_pntForceCtrlRelease_of_ok (hc : s.forceCheck 0 (32768 * d.val + g.forceIdx.toNat) true = 0) :
    ∃ t, exec (.pntForceCtrlRelease d) s = .next t ∧ (t.cell (32768 * d.val + g.forceIdx.toNat)).forced = false ∧
      sfind t.pnt.forces (32768 * d.val + g.forceIdx.toNat) = none ∧ (sget {} t.pnt.regs d.val).result = 0 := by
  obtain ⟨e, he⟩ := s.desc_of_forceCheck _ _ _ hc
  obtain ⟨hforced, -, -, hforces, -⟩ := s.release_cell _ e he
  have hreg := (s.regW_pnt d.val 0x3000C 2 hr hw hd (by decide) (by decide)).trans (s.pntWrite_forceCtrl 0 d.val 2)
  refine ⟨_, congrArg (done s) (hreg.trans (s.forceCtrl_release 0 d.val g hg hdone hc)), ?_⟩
  simp only [settle_cell_get, settle_pnt, State.forceDone_cell, State.forceDone_forces, State.forceDone_result, hforced,
    hforces, and_self]

end

/-! ### The stale check and periodic trends (02 R35, 12 R264) -/

/-- A stale check that is due sets STALE and leaves value and QUAL. -/
theorem exec_staleCheck_of_due (m : Mpn) (d : Desc) (s : State) (hd : s.desc? m.val = some d) (ht : d.staleT ≠ 0)
    (hs : (s.cell m.val).stale = false) (hdue : sget 0 s.pnt.lastSrc m.val + 1600 * d.staleT.toNat ≤ s.now) :
    ∃ t, exec (.staleCheck m) s = .next t ∧ (t.cell m.val).stale = true ∧ (t.cell m.val).value = (s.cell m.val).value ∧
      (t.cell m.val).qual = (s.cell m.val).qual := by
  have htime : (d.staleT != 0) = true := bne_iff_ne.2 ht
  have hrun : execStaleCheck m s = done s (s.oneBatch m.val d { s.cell m.val with stale := true }) := by
    simp only [execStaleCheck, hd, htime, hs, hdue, Bool.not_false, Bool.and_self, decide_true, if_true]
  refine ⟨_, hrun, ?_⟩
  simp [State.oneBatch]

/-- A block of one record: header, series, no delta, status byte and value. -/
theorem length_recsBytes_singleton (x : TrendRec) : (recsBytes [x]).length = 9 := by
  simp [recsBytes, encRecs, encRec, varint, leBytes]

/-- A record is staged as the first of its block where no block has been begun and staging has room. -/
theorem State.stage_of_empty (s : State) (d : Nat) (t : Tenant) (x : TrendRec)
    (he : (s.staging d t).current.recs = []) (hl : (s.staging d t).full.length < 64) :
    s.stage d t x = some (s.setStaging d t { s.staging d t with
      current := { s.blockBase with recs := [x] }, first := s.now, bytes := 9 }) := by
  simp [State.stage, he, hl, length_recsBytes_singleton]

/-- A series' record that finds room stands alone in the current block, and its tick is remembered with its mode. -/
theorem State.recordTrend_of_empty (s : State) (d : Nat) (t : Tenant) (series : Nat) (status : Byte) (v : V24)
    (periodic : Bool) (he : (s.staging d t).current.recs = []) (hl : (s.staging d t).full.length < 64) :
    ((s.recordTrend d t series status v periodic).staging d t).current.recs =
        [{ series := series, tick := s.now, status := status, value := v,
           gap := !s.hst.seen.contains series || s.hst.gap.contains series }] ∧
      sfind (s.recordTrend d t series status v periodic).hst.lastTick series = some (2 * s.now + bit periodic) := by
  simp only [State.recordTrend, s.stage_of_empty d t _ he hl]
  simp [State.staging, State.setStaging]

/-- A periodic series that is due records its point's cell. -/
theorem exec_trendPeriodic_of_due (series : BitVec 19) (c : TrendCfg) (m : Nat) (d : Desc) (s : State)
    (hc : s.trendCfg? series.toNat = some c) (hp : c.periodic = true)
    (hm : s.pnt.descs.find? (fun e => seriesOf e.2 == some series.toNat) = some (m, d))
    (hnow : s.now % (16000 * c.period) = 0) (hlast : (sfind s.hst.lastTick series.toNat).map (· / 2) ≠ some s.now)
    (he : (s.staging (mpnDie m) c.tenant).current.recs = []) (hl : (s.staging (mpnDie m) c.tenant).full.length < 64) :
    ∃ t, exec (.trendPeriodic series) s = .next t ∧
      (t.staging (mpnDie m) c.tenant).current.recs =
        [{ series := series.toNat, tick := s.now, status := BitVec.ofNat 8 (cellByte (s.cell m)), value := (s.cell m).value, gap := !s.hst.seen.contains series.toNat || s.hst.gap.contains series.toNat }] ∧
      sfind t.hst.lastTick series.toNat = some (2 * s.now + 1) := by
  obtain ⟨hrecs, htick⟩ := s.recordTrend_of_empty (mpnDie m) c.tenant series.toNat (BitVec.ofNat 8 (cellByte (s.cell m)))
    (s.cell m).value true he hl
  refine ⟨settle s (s.recordTrend (mpnDie m) c.tenant series.toNat (BitVec.ofNat 8 (cellByte (s.cell m)))
    (s.cell m).value true), ?_, ?_, ?_⟩
  · show execTrendPeriodic series s = _
    simp [execTrendPeriodic, hc, hp, hm, hnow, hlast, done]
  · rw [State.staging, settle_hst]
    exact hrecs
  · rw [settle_hst]
    exact htick

/-- Settles O28: one lemma for each command, in the state where it passes its checks. -/
theorem pointRequestsTakeEffect : Obligations.PointRequestsTakeEffect :=
  ⟨exec_pntRead_of_visible, exec_pntReadBlock_of_die, exec_pntWrite_of_free, exec_pntForce_of_ok, exec_pntRelease_of_ok,
    exec_pntForceList_of_one, exec_pntDescRead_of_visible, exec_pntForceCtrlForce_of_ok, exec_pntForceCtrlRelease_of_ok,
    exec_staleCheck_of_due, exec_trendPeriodic_of_due⟩

end Sys2Proof.Machine

/-! The register commands of the host interface take effect (O36). -/
namespace Sys2Proof.Machine

/-! ### Host accesses to the words of BAR0 (13 R283, R299) -/

theorem w32_toNat_setWidth (v : BitVec 64) : (w32 v.toNat).setWidth 24 = v.setWidth 24 :=
  BitVec.eq_of_toNat_eq (by simp only [w32, BitVec.toNat_setWidth, BitVec.toNat_ofNat]; omega)

/-- An aligned word write of BAR0 reaches its register, whoever holds BAR2. -/
theorem State.hostWrite_bar0 (s : State) (o v : Nat) (h4 : o % 4 = 0) : s.hostWrite false o 4 v = s.bar0Write o (w32 v) := by
  simp [State.hostWrite, State.hostWordW, h4]

/-- The test of a register map whether an offset lies in a range of registers. -/
theorem inRange {a b o : Nat} (h : a ≤ o ∧ o < b) : (decide (a ≤ o) && decide (o < b)) = true := by
  rw [Bool.and_eq_true, decide_eq_true_eq, decide_eq_true_eq]
  exact h
theorem notInRange {a b o : Nat} (h : o < a ∨ b ≤ o) : ¬(decide (a ≤ o) && decide (o < b)) = true := by
  rw [Bool.and_eq_true, decide_eq_true_eq, decide_eq_true_eq]
  omega

theorem State.bar0Write_rqTail (s : State) (k : Nat) (v : Word) (hk : k < 32) :
    s.bar0Write (0x1000 + 8 * k) v = s.rqTailWrite k v.toNat := by
  have hplace : (0x1000 + 8 * k - 0x1000) / 8 = k ∧ (0x1000 + 8 * k) % 8 = 0 := by omega
  rw [State.bar0Write, if_neg (by omega), if_pos (inRange (by omega))]
  simp only [hplace, if_true]

theorem State.bar0Write_cqHead (s : State) (k : Nat) (v : Word) (hk : k < 32) :
    s.bar0Write (0x1004 + 8 * k) v = s.cqHeadWrite k v.toNat := by
  have hplace : (0x1004 + 8 * k - 0x1000) / 8 = k ∧ (0x1004 + 8 * k) % 8 ≠ 0 := by omega
  rw [State.bar0Write, if_neg (by omega), if_pos (inRange (by omega))]
  simp only [hplace, if_false]

/-- The registers of mailbox slot `k` (13 Table 13.6). -/
theorem State.bar0Write_mbx (s : State) (k a : Nat) (v : Word) (hk : k < 32) (ha : a < 64) :
    s.bar0Write (0x2000 + 64 * k + a) v = s.mbxWrite k a v := by
  have hplace : (0x2000 + 64 * k + a - 0x2000) / 64 = k ∧ (0x2000 + 64 * k + a) % 64 = a := by omega
  rw [State.bar0Write, if_neg (by omega), if_neg (notInRange (by omega)), if_pos (inRange (by omega)), hplace.1, hplace.2]

/-- The registers of watermark slot `n` (13 Table 13.11). -/
theorem State.bar0Write_wmk (s : State) (n a : Nat) (v : Word) (hn : n < 32) (ha : a < 32) :
    s.bar0Write (0x4000 + 32 * n + a) v = s.wmkWrite n a v := by
  have hplace : (0x4000 + 32 * n + a - 0x4000) / 32 = n ∧ (0x4000 + 32 * n + a) % 32 = a := by omega
  rw [State.bar0Write, if_neg (by omega), if_neg (notInRange (by omega)), if_neg (notInRange (by omega)), if_neg (by omega),
    if_neg (by omega), if_pos (inRange (by omega)), hplace.1, hplace.2]

/-! ### Reads with effects (02 R39, 13 R301) -/

/-- The tick's low and high words make the tick. -/
theorem loW_add_hiW (x : BitVec 64) : loW x.toNat + 2 ^ 32 * hiW x.toNat = x.toNat := by
  have := x.isLt
  simp only [loW, hiW]
  omega

theorem w32_hiW (x : BitVec 64) : w32 (hiW x.toNat) = x.extractLsb' 32 32 :=
  BitVec.eq_of_toNat_eq (by simp [w32, hiW, Nat.shiftRight_eq_div_pow])

/-- A read of the tick's low word latches the high one. -/
theorem State.hostWord_tick (s : State) :
    s.hostWord false 0x5000 = (loW s.tick.toNat, { s with tickHi := w32 (hiW s.tick.toNat) }) := by
  simp [State.hostWord, State.bar0Reg, State.bar0Fx]

/-- The high word read behind it is the latched one. -/
theorem State.hostWord_tickHi (s : State) : s.hostWord false 0x5004 = (s.tickHi.toNat, s) := by
  simp [State.hostWord, State.bar0Reg, State.bar0Fx]

theorem State.hostRead_tick_wide (s : State) :
    s.hostRead false 0x5000 8 = (s.tick.toNat, { s with tickHi := w32 (hiW s.tick.toNat) }) := by
  have hhi : (w32 (hiW s.tick.toNat)).toNat = hiW s.tick.toNat := by
    simp only [w32, BitVec.toNat_ofNat, hiW]
    omega
  have htick : loW s.tick.toNat + 4294967296 * hiW s.tick.toNat = s.tick.toNat := loW_add_hiW s.tick
  have hlt : s.tick.toNat < 18446744073709551616 := s.tick.isLt
  simp [State.hostRead, State.hostWord_tick, State.hostWord_tickHi, hhi, htick, Nat.mod_eq_of_lt hlt]

theorem State.hostRead_tick_word (s : State) :
    s.hostRead false 0x5000 4 = (loW s.tick.toNat, { s with tickHi := w32 (hiW s.tick.toNat) }) := by
  simp [State.hostRead, State.hostWord_tick, loW]

theorem exec_rlLowWordRead_tick (wide : Bool) (s : State) :
    exec (.rlLowWordRead false 0x5000 wide) s =
      .next (settle s (s.busRead false 0x5000 (if wide then 8 else 4))) := rfl

/-- A removed entry reads the default. -/
theorem sget_sdel_same {α : Type} (d : α) (m : Map α) (k : Nat) : sget d (sdel m k) k = d := by
  induction m with
  | nil => rfl
  | cons e m ih =>
    simp only [sdel, List.filter_cons] at ih ⊢
    by_cases he : e.1 = k
    · simpa [he] using ih
    · simpa [he, sget] using ih

/-- In a held window an aligned word read of BAR2 reads the word at its place. -/
theorem State.hostRead_bar2 (s : State) (o : Nat) (h4 : o % 4 = 0) (hw : s.host.win.isNone = false) :
    s.hostRead true o 4 = ((s.hostWord true o).1 % 2 ^ 32, (s.hostWord true o).2) := by
  have halign : o / 4 * 4 = o := by omega
  have h8 : ¬ 8 < o % 8 + 4 := by omega
  simp [State.hostRead, h4, h8, hw, halign]

theorem State.win_of_winTenant (s : State) (t : Tenant) (hw : s.winTenant = some t) : s.host.win.isNone = false := by
  cases h : s.host.win <;> simp_all [State.winTenant]

/-- The landlord's read of a PNT_CHGMAP word returns it and clears it. -/
theorem State.hostWord_chgmap (s : State) (d k : Nat) (hr : s.host.mbxRdy = true) (hw : s.winTenant = some 0)
    (hd : d < s.nDies) (hk : k < 16) :
    s.hostWord true (0x2000000 * d + 0x30100 + 4 * k) = ((sget 0 (sget {} s.pnt.regs d).chgmap k).toNat,
      s.modPnt fun p => { p with regs := supd {} p.regs d fun r => { r with chgmap := sdel r.chgmap k } }) := by
  have hdie : (0x2000000 * d + 0x30100 + 4 * k) / 0x2000000 = d := by omega
  have hoff : (0x2000000 * d + 0x30100 + 4 * k) % 0x2000000 = 0x30100 + 4 * k := by omega
  have hblk : (0x30100 + 4 * k) / 0x100000 = 0 ∧ (0x30100 + 4 * k) % 0x100000 = 0x30100 + 4 * k := by omega
  have hword : (0x30100 + 4 * k - 0x30100) / 4 = k := by omega
  have hb : s.hasBlock d 0 = true := by simp [State.hasBlock, hd]
  have hread : s.pntRead 0 d (0x30100 + 4 * k) = (sget 0 (sget {} s.pnt.regs d).chgmap k).toNat := by
    rw [State.pntRead]
    simp only [hword]
    rw [if_neg (by omega), if_neg (by omega), if_neg (by omega), if_neg (by omega), if_neg (by omega), if_neg (by omega),
      if_neg (by decide), if_neg (by omega), if_neg (by omega), if_neg (by omega), if_pos (inRange (by omega))]
  have hfx : s.pntReadFx 0 d (0x30100 + 4 * k) =
      s.modPnt fun p => { p with regs := supd {} p.regs d fun r => { r with chgmap := sdel r.chgmap k } } := by
    rw [State.pntReadFx, beq_self_eq_true, Bool.true_and, if_pos (inRange (by omega)), hword]
  simp only [State.hostWord, hr, hw, hdie, hoff, State.dieRead, hblk, hb, gated_zero, hread, hfx, if_true, Bool.not_true,
    Bool.or_self, Bool.false_eq_true, if_false]

/-- The bus read of it returns the word as it stood. -/
theorem State.hostRead_chgmap (s : State) (d k : Nat) (hr : s.host.mbxRdy = true) (hw : s.winTenant = some 0)
    (hd : d < s.nDies) (hk : k < 16) :
    s.hostRead true (0x2000000 * d + 0x30100 + 4 * k) 4 = ((sget 0 (sget {} s.pnt.regs d).chgmap k).toNat,
      s.modPnt fun p => { p with regs := supd {} p.regs d fun r => { r with chgmap := sdel r.chgmap k } }) := by
  rw [s.hostRead_bar2 _ (by omega) (s.win_of_winTenant 0 hw), s.hostWord_chgmap d k hr hw hd hk,
    Nat.mod_eq_of_lt (BitVec.isLt _)]

/-! ### What a register write of a mailbox slot leaves (13 R290, R295, R296) -/

theorem State.sender_congr {t s : State} (h : t.host = s.host) (n : Nat) : t.sender n = s.sender n := by
  rw [State.sender, State.sender, h]

@[simp] theorem State.mbxErr_sender (s : State) (k : Nat) (b : BitVec 3) :
    (s.mbxErr k b).sender k = { s.sender k with err := (s.sender k).err ||| b } :=
  s.sender_modSender k _
@[simp] theorem State.mbxErr_intMbx (s : State) (k : Nat) (b : BitVec 3) : (s.mbxErr k b).host.intMbx = true := rfl

theorem State.releaseWin_sender (s : State) (k n : Nat) : (s.releaseWin k).sender n = s.sender n := by
  unfold State.releaseWin
  (repeat' split) <;> rfl

/-- A host slot's session that closes leaves the slot not open and its registers as they are. -/
theorem State.closeSession_sender (s : State) (k : Nat) (hk : k < 32) :
    ((s.closeSession k).sender k).opened = false ∧ ((s.closeSession k).sender k).irqEn = (s.sender k).irqEn := by
  rw [State.closeSession, if_neg (by omega)]
  cases ho : (s.sender k).opened with
  | false => simp [ho]
  | true => simp [ho, State.sender_congr (State.event_hp _ _ _ _ _ _ _), State.releaseWin_sender]

/-- A disabled slot holds no session and no request. -/
theorem State.slotDisable_sender (s : State) (k : Nat) (hk : k < 32) :
    ((s.slotDisable k).sender k).en = false ∧ ((s.slotDisable k).sender k).irqEn = (s.sender k).irqEn ∧
      ((s.slotDisable k).sender k).opened = false ∧ ((s.slotDisable k).sender k).reqs = [] := by
  have hforget : ∀ u : State, (u.forgetReqs k).sender k = u.sender k := fun _ => rfl
  obtain ⟨hopened, hirq⟩ := s.closeSession_sender k hk
  simp [State.slotDisable, hforget, hopened, hirq]

/-- A write of MBX_S_CTRL is a write of EN and IRQ_EN. -/
theorem State.hostWrite_mbxCtrl (s : State) (k : SlotNo) (en irq : Bool) :
    s.hostWrite false (0x2014 + 64 * k.val) 4 (flag en 0 + flag irq 1) = s.slotCtrl k.val en irq := by
  have hbits : (w32 (flag en 0 + flag irq 1)).getLsbD 0 = en ∧ (w32 (flag en 0 + flag irq 1)).getLsbD 1 = irq := by
    revert en irq; decide
  have hoff : 0x2014 + 64 * k.val = 0x2000 + 64 * k.val + 0x14 := by omega
  rw [s.hostWrite_bar0 _ _ (by omega), hoff, s.bar0Write_mbx _ _ _ k.isLt (by decide)]
  show s.slotCtrl k.val _ _ = _
  rw [hbits.1, hbits.2]

section
variable (k : SlotNo) (irq : Bool) (v : Word) (s : State)

theorem exec_mbxSlotEnable : exec (.mbxSlotEnable k irq) s = .next (settle s (s.slotCtrl k.val true irq)) :=
  congrArg (done s) (s.hostWrite_mbxCtrl k true irq)

theorem exec_mbxSlotDisable : exec (.mbxSlotDisable k irq) s = .next (settle s (s.slotCtrl k.val false irq)) := by
  have hv : flag irq 1 = flag false 0 + flag irq 1 := (Nat.zero_add _).symm
  show done s (s.hostWrite false (0x2014 + 64 * k.val) 4 (flag irq 1)) = _
  rw [hv, s.hostWrite_mbxCtrl k false irq, done_next]

theorem exec_mbxIrqEnable :
    exec (.mbxIrqEnable k) s = .next (settle s (s.slotCtrl k.val (s.sender k.val).en true)) := by
  have hv : 2 + flag (s.sender k.val).en 0 = flag (s.sender k.val).en 0 + flag true 1 := Nat.add_comm _ _
  show done s (s.hostWrite false (0x2014 + 64 * k.val) 4 (2 + flag (s.sender k.val).en 0)) = _
  rw [hv, s.hostWrite_mbxCtrl k _ true, done_next]

theorem exec_mbxSlotEnable_of_disabled (hen : (s.sender k.val).en = false) (hr : (s.sender k.val).ringsOk = true) :
    ∃ t, exec (.mbxSlotEnable k irq) s = .next t ∧ (t.sender k.val).en = true ∧ (t.sender k.val).irqEn = irq ∧
      (t.sender k.val).armed = irq ∧ (t.sender k.val).rqHead = 0 ∧ (t.sender k.val).rqTail = 0 ∧
      (t.sender k.val).cqHead = 0 ∧ (t.sender k.val).cqTail = 0 ∧ (t.sender k.val).phase = true := by
  refine ⟨_, exec_mbxSlotEnable k irq s, ?_⟩
  simp [State.slotCtrl, hen, hr]

theorem exec_mbxSlotEnable_of_badRings (hen : (s.sender k.val).en = false) (hr : (s.sender k.val).ringsOk = false) :
    ∃ t, exec (.mbxSlotEnable k irq) s = .next t ∧ (t.sender k.val).en = false ∧
      (t.sender k.val).err = (s.sender k.val).err ||| 1 ∧ t.host.intMbx = true := by
  refine ⟨_, exec_mbxSlotEnable k irq s, ?_⟩
  simp [State.slotCtrl, hen, hr]

theorem exec_mbxSlotDisable_of_enabled (hen : (s.sender k.val).en = true) :
    ∃ t, exec (.mbxSlotDisable k irq) s = .next t ∧ (t.sender k.val).en = false ∧ (t.sender k.val).irqEn = irq ∧
      (t.sender k.val).opened = false ∧ (t.sender k.val).reqs = [] := by
  refine ⟨_, exec_mbxSlotDisable k irq s, ?_⟩
  simp [State.slotCtrl, hen, State.slotDisable_sender _ _ k.isLt]

theorem exec_mbxIrqEnable_of_enabled (hen : (s.sender k.val).en = true) (hirq : (s.sender k.val).irqEn = false) :
    ∃ t, exec (.mbxIrqEnable k) s = .next t ∧ (t.sender k.val).irqEn = true ∧ (t.sender k.val).armed = true ∧
      (t.sender k.val).en = true ∧ (t.sender k.val).reqs = (s.sender k.val).reqs := by
  refine ⟨_, exec_mbxIrqEnable k s, ?_⟩
  simp [hen, State.slotCtrl, hirq]

theorem State.hostWrite_rqTail : s.hostWrite false (0x1000 + 8 * k.val) 4 v.toNat = s.rqTailWrite k.val v.toNat := by
  rw [s.hostWrite_bar0 _ _ (by omega), s.bar0Write_rqTail _ _ k.isLt, w32_toNat]

theorem State.hostWrite_cqHead : s.hostWrite false (0x1004 + 8 * k.val) 4 v.toNat = s.cqHeadWrite k.val v.toNat := by
  rw [s.hostWrite_bar0 _ _ (by omega), s.bar0Write_cqHead _ _ k.isLt, w32_toNat]

/-- An index below a ring size of at most 4,096 fits the 12 bits of its register. -/
theorem toNat_ofNat_of_lt_ring (n : BitVec 4) (x : Nat) (hx : x < 2 ^ n.toNat) (hn : n.toNat ≤ 12) :
    (BitVec.ofNat 12 x).toNat = x := by
  have hring : 2 ^ n.toNat ≤ 2 ^ 12 := Nat.pow_le_pow_right (by decide) hn
  rw [BitVec.toNat_ofNat, Nat.mod_eq_of_lt (Nat.lt_of_lt_of_le hx hring)]

theorem exec_mbxRqTail_of_inRing (hen : (s.sender k.val).en = true) (hv : v.toNat < 2 ^ (s.sender k.val).rqLog.toNat)
    (hlog : (s.sender k.val).rqLog.toNat ≤ 12) :
    ∃ t, exec (.mbxRqTail k v) s = .next t ∧ (t.sender k.val).rqTail.toNat = v.toNat ∧
      (t.sender k.val).err = (s.sender k.val).err := by
  refine ⟨_, done_next _ _, ?_⟩
  simp only [State.hostWrite_rqTail, State.rqTailWrite, hen, SlotSt.rqSize, Nat.not_le.mpr hv, Bool.not_true,
    Bool.false_eq_true, if_false, settle_sender_get, State.sender_setSender, toNat_ofNat_of_lt_ring _ _ hv hlog, and_self]

theorem exec_mbxRqTail_of_beyond (hen : (s.sender k.val).en = true) (hv : 2 ^ (s.sender k.val).rqLog.toNat ≤ v.toNat) :
    ∃ t, exec (.mbxRqTail k v) s = .next t ∧ (t.sender k.val).rqTail = (s.sender k.val).rqTail ∧
      (t.sender k.val).err = (s.sender k.val).err ||| 2 ∧ t.host.intMbx = true := by
  refine ⟨_, done_next _ _, ?_⟩
  simp [State.hostWrite_rqTail, State.rqTailWrite, hen, SlotSt.rqSize, hv]

theorem exec_mbxCqHead_of_inRing (hen : (s.sender k.val).en = true) (hirq : (s.sender k.val).irqEn = false)
    (hv : v.toNat < 2 ^ (s.sender k.val).cqLog.toNat) (hlog : (s.sender k.val).cqLog.toNat ≤ 12) :
    ∃ t, exec (.mbxCqHead k v) s = .next t ∧ (t.sender k.val).cqHead.toNat = v.toNat ∧ (t.sender k.val).armed = false ∧
      (t.sender k.val).err = (s.sender k.val).err := by
  refine ⟨_, done_next _ _, ?_⟩
  simp only [State.hostWrite_cqHead, State.cqHeadWrite, hen, hirq, SlotSt.cqSize, Nat.not_le.mpr hv, Bool.not_true,
    Bool.false_and, Bool.false_eq_true, if_false, settle_sender_get, State.sender_setSender,
    toNat_ofNat_of_lt_ring _ _ hv hlog, and_self]

end

/-! ### What a register write of a watermark slot leaves (13 R305) -/

@[simp] theorem settle_wmk_get (s t : State) (n : Nat) : (settle s t).wmk n = t.wmk n := by simp [State.wmk]
@[simp] theorem State.wmk_setWmk (s : State) (n : Nat) (w : Wmk) : (s.setWmk n w).wmk n = w := by
  simp [State.wmk, State.setWmk]

theorem exec_wmkStatWrite_of_enabled (n : BitVec 5) (v : Word) (s : State) (hn : n.toNat < 16)
    (hen : (s.wmk n.toNat).en = true) (hraised : v.getLsbD 1 = true) (hfell : v.getLsbD 2 = true) :
    ∃ t, exec (.wmkStatWrite n v) s = .next t ∧
      t.wmk n.toNat = { s.wmk n.toNat with raised := false, fell := false, armed := true, count := 0 } := by
  have hoff : 0x4010 + 32 * n.toNat = 0x4000 + 32 * n.toNat + 0x10 := by omega
  refine ⟨_, done_next _ _, ?_⟩
  rw [s.hostWrite_bar0 _ _ (by omega), hoff, s.bar0Write_wmk _ _ _ n.isLt (by decide), w32_toNat]
  simp [State.wmkWrite, State.wmkStatW, Nat.not_le.mpr hn, hen, hraised, hfell]

/-- A write of WMK_CFG is a write of EN and POL. -/
theorem State.wmkWrite_cfg (s : State) (n : Nat) (en pol : Bool) (hn : n < 16) :
    s.wmkWrite n 0 (w32 (flag en 0 + flag pol 1)) = s.wmkCfgW n en pol := by
  have hbits : (w32 (flag en 0 + flag pol 1)).getLsbD 0 = en ∧ (w32 (flag en 0 + flag pol 1)).getLsbD 1 = pol := by
    revert en pol; decide
  rw [State.wmkWrite, if_neg (Nat.not_le.mpr hn)]
  show s.wmkCfgW n _ _ = _
  rw [hbits.1, hbits.2]

theorem exec_wmkEnable_of_disabled (n : BitVec 5) (s : State) (hn : n.toNat < 16) (hen : (s.wmk n.toNat).en = false) :
    ∃ t, exec (.wmkEnable n) s = .next t ∧
      t.wmk n.toNat =
        { s.wmk n.toNat with en := true, armed := true, level := false, raised := false, fell := false, count := 0 } := by
  have hcfg : s.hostWrite false (0x4000 + 32 * n.toNat) 4 (1 + flag (s.wmk n.toNat).pol 1) =
      s.wmkCfgW n.toNat true (s.wmk n.toNat).pol := by
    rw [s.hostWrite_bar0 _ _ (by omega)]
    exact (s.bar0Write_wmk n.toNat 0 _ n.isLt (by decide)).trans (s.wmkWrite_cfg n.toNat true _ hn)
  refine ⟨_, congrArg (done s) hcfg, ?_⟩
  simp [State.wmkCfgW, Nat.not_le.mpr hn, hen]

/-! ### Writes of BAR0 and BAR2 by their form and place (13 R287, R299, R303) -/

/-- INT_STAT.DEV is touched after a command only where DEV_STATUS changed. -/
theorem settle_host_intDev (s t : State) (h : t.devStatus = s.devStatus) : (settle s t).host.intDev = t.host.intDev := by
  simp only [settle, h, decide_true, Bool.true_or, if_true]
  split <;> rfl

theorem State.devStatus_modHost (s : State) (f : HostPort → HostPort) (hrdy : (f s.host).mbxRdy = s.host.mbxRdy)
    (hcfg : (f s.host).cfgOk = s.host.cfgOk) : (s.modHost f).devStatus = s.devStatus := by
  simp only [State.devStatus, State.modHost_host, State.modHost_su, State.modHost_trk, State.modHost_links,
    State.modHost_cfg, hrdy, hcfg]

theorem toNat_ofNat_28 (n : Nat) (h : n < 2 ^ 28) : (BitVec.ofNat 28 n).toNat = n := by
  rw [BitVec.toNat_ofNat, Nat.mod_eq_of_lt h]

theorem exec_rlLowWordRead_wide (bar2 : Bool) (off : BitVec 28) (wide : Bool) (s : State) (hb : bar2 = false)
    (ho : off = 0x5000) (hw : wide = true) :
    ∃ t, exec (.rlLowWordRead bar2 off wide) s = .next t ∧ t.host.busData = s.tick ∧
      t.tickHi = s.tick.extractLsb' 32 32 := by
  subst hb ho hw
  refine ⟨_, exec_rlLowWordRead_tick true s, ?_⟩
  simp [State.busRead, State.hostRead_tick_wide, w32_hiW]

theorem exec_rlLowWordRead_word (bar2 : Bool) (off : BitVec 28) (wide : Bool) (s : State) (hb : bar2 = false)
    (ho : off = 0x5000) (hw : wide = false) :
    ∃ t, exec (.rlLowWordRead bar2 off wide) s = .next t ∧ t.host.busData = (s.tick.setWidth 32).setWidth 64 ∧
      t.tickHi = s.tick.extractLsb' 32 32 := by
  subst hb ho hw
  have hlow : BitVec.ofNat 64 (loW s.tick.toNat) = (s.tick.setWidth 32).setWidth 64 :=
    BitVec.eq_of_toNat_eq (by simp [loW])
  refine ⟨_, exec_rlLowWordRead_tick false s, ?_⟩
  simp [State.busRead, State.hostRead_tick_word, w32_hiW, hlow]

theorem exec_rcRead_chgmap (off : BitVec 28) (d k : Nat) (s : State) (hr : s.host.mbxRdy = true)
    (hw : s.winTenant = some 0) (hd : d < s.nDies) (hk : k < 16)
    (ho : off = BitVec.ofNat 28 (0x2000000 * d + 0x30100 + 4 * k)) :
    ∃ t, exec (.rcRead off) s = .next t ∧
      t.host.busData = (sget 0 (sget {} s.pnt.regs d).chgmap k).setWidth 64 ∧
      sget 0 (sget {} t.pnt.regs d).chgmap k = 0 := by
  have h8 := s.nDies_le
  have hoff : off.toNat = 0x2000000 * d + 0x30100 + 4 * k := by rw [ho, toNat_ofNat_28 _ (by omega)]
  have hplace : off.toNat % 0x2000000 = 0x30100 + 4 * k := by omega
  have hword : 0x30100 + 4 * k < 0x30140 := by omega
  refine ⟨settle s (s.busRead true off.toNat 4), ?_, ?_⟩
  · show execRcRead off s = _
    simp [execRcRead, hplace, hword, done]
  · rw [settle_host_busData, settle_pnt, State.busRead, hoff, s.hostRead_chgmap d k hr hw hd hk]
    simp [sget_sdel_same]

/-- A write of INT_STAT clears the bits written 1 of those that are its own. -/
theorem State.hostWrite_intStat (s : State) (v : Word) :
    s.hostWrite false 0x3000 4 v.toNat = s.modHost fun h => { h with
      intWmk := h.intWmk && !v.getLsbD 8, intDev := h.intDev && !v.getLsbD 9, intMbx := h.intMbx && !v.getLsbD 10 } := by
  rw [s.hostWrite_bar0 _ _ (by decide), w32_toNat]
  rfl

theorem exec_w1cWrite_intStat (bar2 : Bool) (off : BitVec 28) (v : Word) (s : State) (hb : bar2 = false)
    (ho : off = 0x3000) :
    ∃ t, exec (.w1cWrite bar2 off v) s = .next t ∧ t.host.intWmk = (s.host.intWmk && !v.getLsbD 8) ∧
      t.host.intDev = (s.host.intDev && !v.getLsbD 9) ∧ t.host.intMbx = (s.host.intMbx && !v.getLsbD 10) := by
  subst hb ho
  refine ⟨_, congrArg (done s) (s.hostWrite_intStat v), ?_⟩
  rw [settle_host_intWmk, settle_host_intMbx, settle_host_intDev s _ (s.devStatus_modHost _ rfl rfl)]
  exact ⟨rfl, rfl, rfl⟩

theorem exec_w1cWrite_dmaIrqStat (bar2 : Bool) (off : BitVec 28) (v : Word) (d : Nat) (s : State)
    (hr : s.host.mbxRdy = true) (hw : s.winTenant = some 0) (hd : d < s.nDies) (hb : bar2 = true)
    (ho : off = BitVec.ofNat 28 (0x2000000 * d + 0x400100)) :
    ∃ t, exec (.w1cWrite bar2 off v) s = .next t ∧ (t.dma d).irqStat = (s.dma d).irqStat &&& ~~~v := by
  subst hb
  have h8 := s.nDies_le
  have hoff : off.toNat = blkOff d 4 + 0x100 := by rw [ho, toNat_ofNat_28 _ (by omega), blkOff]
  have hblk : off.toNat % 0x2000000 / 0x100000 = 4 ∧ off.toNat % 0x100000 = 0x100 := by simp only [hoff, blkOff]; omega
  have hkind : isW1c true off.toNat = true := by simp [isW1c, hblk]
  show ∃ t, execW1cWrite true off v s = .next t ∧ _
  rw [execW1cWrite, if_pos hkind, hoff]
  refine ⟨_, done_next _ _, ?_⟩
  have hreg := s.regW_dma d 0x100 v hr hw hd (by decide) (by decide)
  rw [State.regW] at hreg
  simp [hreg, State.dmaRegW, w1c]

theorem exec_counterClearWrite_refused (off : BitVec 28) (v : Word) (d : Nat) (s : State) (hr : s.host.mbxRdy = true)
    (hw : s.winTenant = some 0) (hd : d < s.nDies) (ho : off = BitVec.ofNat 28 (0x2000000 * d + 0x30048)) :
    ∃ t, exec (.counterClearWrite off v) s = .next t ∧
      (sget {} t.pnt.regs d).refused = (if v = 0 then 0 else (sget {} s.pnt.regs d).refused) := by
  have h8 := s.nDies_le
  have hoff : off.toNat = blkOff d 0 + 0x30048 := by rw [ho, toNat_ofNat_28 _ (by omega), blkOff]
  have hblk : off.toNat % 0x2000000 / 0x100000 = 0 ∧ off.toNat % 0x100000 = 0x30048 := by simp only [hoff, blkOff]; omega
  have hkind : isCounter off.toNat = true := by simp [isCounter, hblk]
  show ∃ t, execCounterClearWrite off v s = .next t ∧ _
  rw [execCounterClearWrite, if_pos hkind, hoff]
  refine ⟨_, done_next _ _, ?_⟩
  have hreg := s.regW_pnt d 0x30048 v hr hw hd (by decide) (by decide)
  rw [State.regW] at hreg
  simp [hreg, State.pntWrite, clr]

theorem exec_registerWrite_wmkThr (bar2 : Bool) (off : BitVec 28) (size : Nat) (v : BitVec 64) (n : Nat) (s : State)
    (hb : bar2 = false) (hs : size = 4) (hn : n < 16) (ho : off = BitVec.ofNat 28 (0x4004 + 32 * n)) :
    ∃ t, exec (.registerWrite bar2 off size v) s = .next t ∧ (t.wmk n).thr = v.setWidth 24 ∧
      (t.wmk n).en = (s.wmk n).en ∧ (t.wmk n).hyst = (s.wmk n).hyst := by
  subst hb hs
  have hoff : off.toNat = 0x4000 + 32 * n + 4 := by rw [ho, toNat_ofNat_28 _ (by omega)]; omega
  refine ⟨_, done_next _ _, ?_⟩
  rw [hoff, s.hostWrite_bar0 _ _ (by omega), s.bar0Write_wmk _ _ _ (by omega) (by decide)]
  simp [State.wmkWrite, Nat.not_le.mpr hn, w32_toNat_setWidth]

/-- A write of a form that the interface does not take is counted and does nothing else. -/
theorem exec_registerWrite_of_badForm (bar2 : Bool) (off : BitVec 28) (size : Nat) (v : BitVec 64) (s : State)
    (h4 : size ≠ 4) (h8 : size ≠ 8) :
    ∃ t, exec (.registerWrite bar2 off size v) s = .next t ∧ t.host.badAcc = s.host.badAcc + 1 ∧ t.pnt = s.pnt ∧
      t.host.wmks = s.host.wmks ∧ t.host.slots = s.host.slots := by
  refine ⟨_, done_next _ _, ?_⟩
  simp [State.hostWrite, h4, h8, State.badAcc]

/-- A write of BAR2 that no session holds is counted and does nothing else. -/
theorem exec_registerWrite_of_noWindow (bar2 : Bool) (off : BitVec 28) (size : Nat) (v : BitVec 64) (s : State)
    (hb : bar2 = true) (hs : size = 4) (ho : off.toNat % 4 = 0) (hr : s.host.mbxRdy = true) (hw : s.host.win = none) :
    ∃ t, exec (.registerWrite bar2 off size v) s = .next t ∧ t.host.badAcc = s.host.badAcc + 1 ∧ t.pnt = s.pnt ∧
      t.ports = s.ports ∧ t.fio = s.fio := by
  subst hb hs
  refine ⟨_, done_next _ _, ?_⟩
  simp [State.hostWrite, State.hostWordW, State.winTenant, State.badAcc, ho, hr, hw]

/-- SNAP_CTRL.TAKE is a write of BAR0. -/
theorem State.hostWrite_snapTake (s : State) : s.hostWrite false 0x5010 4 1 = s.snapTake := by
  rw [s.hostWrite_bar0 _ _ (by decide)]
  rfl

theorem exec_snapTake (s : State) :
    ∃ t, exec .snapTake s = .next t ∧ t.host.snap.done = true ∧ t.host.snap.tick = s.tick ∧
      t.host.snap.utcOk = s.time.utcOk ∧
      t.host.snap.sfn = (if s.ringInUse then BitVec.ofNat 48 s.trk.sfn else 0) := by
  refine ⟨_, done_next _ _, ?_⟩
  simp [State.hostWrite_snapTake, State.snapTake]

/-- Settles O36: one lemma for each command, in the state where it applies. -/
theorem registerAccessesTakeEffect : Obligations.RegisterAccessesTakeEffect :=
  ⟨exec_rlLowWordRead_wide, exec_rlLowWordRead_word, exec_rcRead_chgmap, exec_w1cWrite_intStat, exec_w1cWrite_dmaIrqStat,
    exec_counterClearWrite_refused, exec_registerWrite_wmkThr, exec_registerWrite_of_badForm,
    exec_registerWrite_of_noWindow, exec_mbxSlotEnable_of_disabled, exec_mbxSlotEnable_of_badRings,
    exec_mbxSlotDisable_of_enabled, exec_mbxIrqEnable_of_enabled, exec_mbxRqTail_of_inRing, exec_mbxRqTail_of_beyond,
    exec_mbxCqHead_of_inRing, exec_wmkStatWrite_of_enabled, exec_wmkEnable_of_disabled, exec_snapTake⟩

end Sys2Proof.Machine

/-! What a command of a branch port or a leaf node leaves alone (O8). -/
namespace Sys2Proof.Machine

/-! ### What keeps the integrity tags and the translation units -/

/-- DRAM's integrity tags and the translation units are as before. -/
@[simp] abbrev SameTags (t s : State) : Prop := t.tags = s.tags ∧ t.atus = s.atus
theorem SameTags.trans {a b c : State} (h : SameTags a b) (g : SameTags b c) : SameTags a c :=
  ⟨h.1.trans g.1, h.2.trans g.2⟩
theorem foldl_tags {α : Type} (f : State → α → State) (l : List α) (s : State) (h : ∀ s x, SameTags (f s x) s) :
    SameTags (l.foldl f s) s := by
  induction l generalizing s with
  | nil => exact ⟨rfl, rfl⟩
  | cons a l ih => exact (ih (f s a)).trans (h s a)

@[simp] theorem State.showAcc_tags (s : State) (kind n v : Nat) (bad : Bool) : SameTags (s.showAcc kind n v bad) s := by
  unfold State.showAcc
  split <;> simp [State.takeAcc]
@[simp] theorem State.showNode_tags (s : State) (p a : Nat) : SameTags (s.showNode p a) s :=
  (foldl_tags _ _ _ fun s _ => s.showAcc_tags 1 _ _ _).trans (foldl_tags _ _ _ fun s _ => s.showAcc_tags 0 _ _ _)
@[simp] theorem State.queueFrame_tags (s : State) (p : Nat) (dst : Byte) (pl : Payload) :
    SameTags (s.queueFrame p dst pl) s := ⟨rfl, rfl⟩
@[simp] theorem State.sendAssign_tags (s : State) (p : Nat) (dst : Byte) (uid : Uid) (plan : Plan) :
    SameTags (s.sendAssign p dst uid plan) s := ⟨rfl, rfl⟩
@[simp] theorem State.sendClaim_tags (s : State) (p : Nat) (nslot : Byte) (slotbt : Nat) :
    SameTags (s.sendClaim p nslot slotbt) s := ⟨rfl, rfl⟩
@[simp] theorem State.modNode_tags (s : State) (p a : Nat) (f : CtlNode → CtlNode) : SameTags (s.modNode p a f) s := ⟨rfl, rfl⟩
@[simp] theorem State.sentEvent_tags (s : State) (p : Nat) (addr seq ch : Byte) (v : ChanVal) :
    SameTags (s.sentEvent p addr seq ch v) s := ⟨rfl, rfl⟩
@[simp] theorem State.takeOutputs_tags (s : State) (p : Nat) : SameTags (s.takeOutputs p).2 s := ⟨rfl, rfl⟩
@[simp] theorem State.brEvent_tags (s : State) (p code : Nat) (data : List Word) : SameTags (s.brEvent p code data) s := by
  simp [State.brEvent]
@[simp] theorem State.clearAddr_tags (s : State) (p : Nat) (addr : Byte) (uid : Uid) : SameTags (s.clearAddr p addr uid) s := by
  simp [State.clearAddr]
@[simp] theorem State.nodeValues_tags (s : State) (p a ch : Nat) (l : List ChanVal) : SameTags (s.nodeValues p a ch l) s := by
  simp [State.nodeValues]
@[simp] theorem State.takeSwap_tags (s : State) (p : Nat) : SameTags (s.takeSwap p) s := by
  unfold State.takeSwap
  dsimp only
  split <;> simp
@[simp] theorem State.cycleStart_tags (s : State) (p : Nat) (dormNext : Option Nat) (buffered : Bool) :
    SameTags (s.cycleStart p dormNext buffered) s := by
  unfold State.cycleStart
  dsimp only
  (repeat' split) <;> simp
@[simp] theorem State.putBads_tags (s : State) (l : List Nat) : SameTags (s.putBads l) s := by
  induction l generalizing s with
  | nil => exact ⟨rfl, rfl⟩
  | cons m l ih => exact (ih (s.markBad m)).trans (by simp)
@[simp] theorem State.markBads_tags (s : State) (l : List Nat) : SameTags (s.markBads l) s := by
  simp [State.markBads]
@[simp] theorem State.markMissing_tags (s : State) (p a : Nat) : SameTags (s.markMissing p a) s := by
  simp [State.markMissing]
@[simp] theorem State.markLost_tags (s : State) (p a : Nat) : SameTags (s.markLost p a) s := by
  simp [State.markLost]
@[simp] theorem State.markPresent_tags (s : State) (p a : Nat) : SameTags (s.markPresent p a) s := by
  unfold State.markPresent
  dsimp only
  (repeat' split) <;> simp
@[simp] theorem State.resendOutputs_tags (s : State) (p a : Nat) : SameTags (s.resendOutputs p a) s := by
  unfold State.resendOutputs
  split <;> simp
@[simp] theorem State.judge_tags (s : State) (p : Nat) (l : List Nat) : SameTags (s.judge p l) s := by
  induction l generalizing s with
  | nil => exact ⟨rfl, rfl⟩
  | cons a l ih =>
    unfold State.judge
    dsimp only
    refine (ih _).trans ?_
    (repeat' split) <;> simp
@[simp] theorem State.judgeSubset_tags (s : State) (p : Nat) : SameTags (s.judgeSubset p) s := s.judge_tags p _
@[simp] theorem State.response_tags (s : State) (p a : Nat) (seq op status : Byte) (data : List Byte) :
    SameTags (s.response p a seq op status data) s := by
  unfold State.response
  (repeat' split) <;> simp
@[simp] theorem State.modLeaf_tags (s : State) (u : Uid) (f : Node → Node) : SameTags (s.modLeaf u f) s := by
  unfold State.modLeaf
  split <;> simp
@[simp] theorem State.nodeCommand_tags (s : State) (uid : Uid) (dst seq op : Byte) (act : Node → Node × Byte × List Byte) :
    SameTags (s.nodeCommand uid dst seq op act) s := s.modLeaf_tags uid _
@[simp] theorem State.brCollide_tags (s : State) (p bt : Nat) : SameTags (s.brCollide p bt) s := by
  unfold State.brCollide
  dsimp only
  (repeat' split) <;> simp

/-! ### The commands of the branch line that report no refused access answer with the same tags -/

/-- The outcome is a next state with the tags and the translation units of `s`. -/
abbrev KeepsTags (s : State) (o : Host.Outcome State Fault Refusal) : Prop := ∃ t, o = .next t ∧ SameTags t s
theorem done_keepsTags {s t : State} (h : SameTags t s) : KeepsTags s (done s t) :=
  ⟨settle s t, rfl, by simpa using h⟩

section
variable (p : Port) (addr : Byte) (uid : Uid) (s : State)

theorem execGclEntryBoundary_tags : KeepsTags s (execGclEntryBoundary p s) := by
  unfold execGclEntryBoundary
  dsimp only
  split <;> exact done_keepsTags (by simp)
theorem execBranchTxStart_tags (room at_ buf : Nat) : KeepsTags s (execBranchTxStart p room at_ buf s) :=
  done_keepsTags (by simp)
theorem execBranchTxEnd_tags : KeepsTags s (execBranchTxEnd p s) := by
  unfold execBranchTxEnd
  dsimp only
  split <;> exact done_keepsTags (by simp)
theorem execCollisionDetect_tags (by_ : Option Uid) (bt : Nat) : KeepsTags s (execCollisionDetect p by_ bt s) := by
  unfold execCollisionDetect
  split <;> exact done_keepsTags (by simp)
theorem execBackoffExpiry_tags (by_ : Option Uid) (room at_ buf : Nat) :
    KeepsTags s (execBackoffExpiry p by_ room at_ buf s) := by
  unfold execBackoffExpiry
  dsimp only
  (repeat' split) <;> exact done_keepsTags (by simp)
theorem execScheduledOverAmplitude_tags : KeepsTags s (execScheduledOverAmplitude p addr s) := by
  unfold execScheduledOverAmplitude
  dsimp only
  (repeat' split) <;> exact done_keepsTags (by simp)
theorem execBranchRxReport_tags (first : Nat) (vals : List ChanVal) :
    KeepsTags s (execBranchRxReport p addr first vals s) := by
  unfold execBranchRxReport
  dsimp only
  (repeat' split) <;> exact done_keepsTags (by simp)
theorem execBranchRxEvent_tags (seq ch : Byte) (v : ChanVal) : KeepsTags s (execBranchRxEvent p addr seq ch v s) := by
  unfold execBranchRxEvent
  split <;> exact done_keepsTags (by simp)
theorem execBranchRxResponse_tags (seq op status : Byte) (data : List Byte) :
    KeepsTags s (execBranchRxResponse p addr seq op status data s) := by
  unfold execBranchRxResponse
  dsimp only
  split <;> exact done_keepsTags (by simp)
theorem execBranchRxClaim_tags (cls : Byte) (chmap : List Byte) : KeepsTags s (execBranchRxClaim p uid cls chmap s) := by
  unfold execBranchRxClaim
  dsimp only
  (repeat' split) <;> exact done_keepsTags (by simp)
theorem execBranchRxRollcall_tags (cls : Byte) (stat : BitVec 3) :
    KeepsTags s (execBranchRxRollcall p addr uid cls stat s) := by
  unfold execBranchRxRollcall
  dsimp only
  (repeat' split) <;> exact done_keepsTags (by simp)
theorem execSlotEnd_tags : KeepsTags s (execSlotEnd p addr s) := by
  unfold execSlotEnd
  dsimp only
  (repeat' split) <;> exact done_keepsTags (by simp)
theorem execNodeLostTimeout_tags : KeepsTags s (execNodeLostTimeout p addr s) := by
  unfold execNodeLostTimeout
  dsimp only
  split <;> exact done_keepsTags (by simp)
theorem execAssignRetryTimeout_tags : KeepsTags s (execAssignRetryTimeout p addr s) := by
  unfold execAssignRetryTimeout
  dsimp only
  (repeat' split) <;> exact done_keepsTags (by simp)
theorem execNodeCommandTimeout_tags : KeepsTags s (execNodeCommandTimeout p addr s) := by
  unfold execNodeCommandTimeout
  dsimp only
  (repeat' split) <;> exact done_keepsTags (by simp)
theorem execClaimBroadcastTimer_tags : KeepsTags s (execClaimBroadcastTimer p s) := by
  unfold execClaimBroadcastTimer
  dsimp only
  split <;> exact done_keepsTags (by simp)
theorem execDormancyEntry_tags : KeepsTags s (execDormancyEntry p s) := by
  unfold execDormancyEntry
  dsimp only
  split <;> exact done_keepsTags (by simp)
theorem execDormantBeacon_tags : KeepsTags s (execDormantBeacon p s) := by
  unfold execDormantBeacon
  dsimp only
  split <;> exact done_keepsTags (by simp)
theorem execWakeTrainStart_tags : KeepsTags s (execWakeTrainStart p s) := by
  unfold execWakeTrainStart
  dsimp only
  (repeat' split) <;> exact done_keepsTags (by simp)
theorem execWakePulse_tags : KeepsTags s (execWakePulse p s) := by
  unfold execWakePulse
  split <;> exact done_keepsTags (by simp)
theorem execDormancyEnd_tags : KeepsTags s (execDormancyEnd p s) := by
  unfold execDormancyEnd
  dsimp only
  split <;> exact done_keepsTags (by simp)
theorem execNodeClaimBroadcastRx_tags (nslot : Byte) (slotbt : Nat) (claimOpen : Bool) (timer : Nat) :
    KeepsTags s (execNodeClaimBroadcastRx uid nslot slotbt claimOpen timer s) := by
  unfold execNodeClaimBroadcastRx
  dsimp only
  (repeat' split) <;> exact done_keepsTags (by simp)
end

/-- The two commands of a branch port's engine that may report a refused access answer a next state. -/
theorem execBranchTxUnderrun_next (p : Port) (why : TxFail) (s : State) : ∃ t, execBranchTxUnderrun p why s = .next t := by
  unfold execBranchTxUnderrun
  dsimp only
  (repeat' split) <;> exact ⟨_, rfl⟩
theorem execBranchRxBadFrame_next (p : Port) (why : RxFail) (s : State) : ∃ t, execBranchRxBadFrame p why s = .next t := by
  unfold execBranchRxBadFrame
  dsimp only
  (repeat' split) <;> exact ⟨_, rfl⟩

/-- A next state of a branch command, with the units that it leaves alone. -/
abbrev BranchAnswer (c : Instr) (s : State) (o : Host.Outcome State Fault Refusal) : Prop :=
  ∃ t, o = .next t ∧ OutBranch t s ∧ (engCmd c = false → SameTags t s)
theorem branchAnswer_of_tags {c : Instr} {s : State} {o : Host.Outcome State Fault Refusal} (ht : KeepsTags s o)
    (hb : ∀ z, o = .next z → OutBranch z s) : BranchAnswer c s o :=
  let ⟨t, ho, hk⟩ := ht
  ⟨t, ho, hb t ho, fun _ => hk⟩
theorem branchAnswer_of_engine {c : Instr} {s : State} {o : Host.Outcome State Fault Refusal} (hc : engCmd c = true)
    (ht : ∃ t, o = .next t) (hb : ∀ z, o = .next z → OutBranch z s) : BranchAnswer c s o :=
  let ⟨t, ho⟩ := ht
  ⟨t, ho, hb t ho, fun h => absurd hc (by simp [h])⟩

theorem branchCmd_answer (c : Instr) (s : State) (hc : branchCmd c = true) : BranchAnswer c s (exec c s) := by
  cases c
  case gclEntryBoundary p => exact branchAnswer_of_tags (execGclEntryBoundary_tags p s) (execGclEntryBoundary_br p s)
  case branchTxStart p r a b =>
    exact branchAnswer_of_tags (execBranchTxStart_tags p s r a b) (execBranchTxStart_br p r a b s)
  case branchTxEnd p => exact branchAnswer_of_tags (execBranchTxEnd_tags p s) (execBranchTxEnd_br p s)
  case collisionDetect p u b =>
    exact branchAnswer_of_tags (execCollisionDetect_tags p s u b) (execCollisionDetect_br p u b s)
  case backoffExpiry p u r a b =>
    exact branchAnswer_of_tags (execBackoffExpiry_tags p s u r a b) (execBackoffExpiry_br p u r a b s)
  case scheduledOverAmplitude p a =>
    exact branchAnswer_of_tags (execScheduledOverAmplitude_tags p a s) (execScheduledOverAmplitude_br p a s)
  case branchTxUnderrun p w =>
    exact branchAnswer_of_engine rfl (execBranchTxUnderrun_next p w s) (execBranchTxUnderrun_br p w s)
  case branchRxBadFrame p w =>
    exact branchAnswer_of_engine rfl (execBranchRxBadFrame_next p w s) (execBranchRxBadFrame_br p w s)
  case branchRxReport p a f v =>
    exact branchAnswer_of_tags (execBranchRxReport_tags p a s f v) (execBranchRxReport_br p a f v s)
  case branchRxEvent p a q c v =>
    exact branchAnswer_of_tags (execBranchRxEvent_tags p a s q c v) (execBranchRxEvent_br p a q c v s)
  case branchRxResponse p a q o st d =>
    exact branchAnswer_of_tags (execBranchRxResponse_tags p a s q o st d) (execBranchRxResponse_br p a q o st d s)
  case branchRxClaim p u c m =>
    exact branchAnswer_of_tags (execBranchRxClaim_tags p u s c m) (execBranchRxClaim_br p u c m s)
  case branchRxRollcall p a u c st =>
    exact branchAnswer_of_tags (execBranchRxRollcall_tags p a u s c st) (execBranchRxRollcall_br p a u c st s)
  case slotEnd p a => exact branchAnswer_of_tags (execSlotEnd_tags p a s) (execSlotEnd_br p a s)
  case nodeLostTimeout p a => exact branchAnswer_of_tags (execNodeLostTimeout_tags p a s) (execNodeLostTimeout_br p a s)
  case assignRetryTimeout p a =>
    exact branchAnswer_of_tags (execAssignRetryTimeout_tags p a s) (execAssignRetryTimeout_br p a s)
  case nodeCommandTimeout p a =>
    exact branchAnswer_of_tags (execNodeCommandTimeout_tags p a s) (execNodeCommandTimeout_br p a s)
  case claimBroadcastTimer p =>
    exact branchAnswer_of_tags (execClaimBroadcastTimer_tags p s) (execClaimBroadcastTimer_br p s)
  case dormancyEntry p => exact branchAnswer_of_tags (execDormancyEntry_tags p s) (execDormancyEntry_br p s)
  case dormantBeacon p => exact branchAnswer_of_tags (execDormantBeacon_tags p s) (execDormantBeacon_br p s)
  case wakeTrainStart p => exact branchAnswer_of_tags (execWakeTrainStart_tags p s) (execWakeTrainStart_br p s)
  case wakePulse p => exact branchAnswer_of_tags (execWakePulse_tags p s) (execWakePulse_br p s)
  case dormancyEnd p => exact branchAnswer_of_tags (execDormancyEnd_tags p s) (execDormancyEnd_br p s)
  case nodeClaimBroadcastRx u n b o t =>
    exact branchAnswer_of_tags (execNodeClaimBroadcastRx_tags u s n b o t) (execNodeClaimBroadcastRx_br u n b o t s)
  case nodePowerUp p u c m f e k t =>
    exact branchAnswer_of_tags (done_keepsTags (by simp)) (execNodePowerUp_br p u c m f e k t s)
  case nodeClaimSlot u t => exact branchAnswer_of_tags (done_keepsTags (by simp)) (execNodeClaimSlot_br u t s)
  case nodeAssignRx u d g q t => exact branchAnswer_of_tags (done_keepsTags (by simp)) (execNodeAssignRx_br u d g q t s)
  case nodeBeaconRx u b t => exact branchAnswer_of_tags (done_keepsTags (by simp)) (execNodeBeaconRx_br u b t s)
  case nodeSlotStart u f v => exact branchAnswer_of_tags (done_keepsTags (by simp)) (execNodeSlotStart_br u f v s)
  case nodeOutputRx u d f v => exact branchAnswer_of_tags (done_keepsTags (by simp)) (execNodeOutputRx_br u d f v s)
  case nodeFallbackTimeout u t =>
    exact branchAnswer_of_tags (done_keepsTags (by simp)) (execNodeFallbackTimeout_br u t s)
  case nodeWindowOpen u t => exact branchAnswer_of_tags (done_keepsTags (by simp)) (execNodeWindowOpen_br u t s)
  case nodeWindowClose u t => exact branchAnswer_of_tags (done_keepsTags (by simp)) (execNodeWindowClose_br u t s)
  case nodeSeekTimeout u t => exact branchAnswer_of_tags (done_keepsTags (by simp)) (execNodeSeekTimeout_br u t s)
  case nodeSniff u c t => exact branchAnswer_of_tags (done_keepsTags (by simp)) (execNodeSniff_br u c t s)
  case nodeWakeCondition u c t =>
    exact branchAnswer_of_tags (done_keepsTags (by simp)) (execNodeWakeCondition_br u c t s)
  case readInfo u d q => exact branchAnswer_of_tags (done_keepsTags (by simp)) (execReadInfo_br u d q s)
  case setFallback u d q f e => exact branchAnswer_of_tags (done_keepsTags (by simp)) (execSetFallback_br u d q f e s)
  case identify u d q n => exact branchAnswer_of_tags (done_keepsTags (by simp)) (execIdentify_br u d q n s)
  case setWake u d q m => exact branchAnswer_of_tags (done_keepsTags (by simp)) (execSetWake_br u d q m s)
  case forget u d q g => exact branchAnswer_of_tags (done_keepsTags (by simp)) (execForget_br u d q g s)
  case setRamp u d q n => exact branchAnswer_of_tags (done_keepsTags (by simp)) (execSetRamp_br u d q n s)
  all_goals exact absurd hc Bool.false_ne_true

/-! ### What a transmit command changes of the ports -/

/-- Of the ports at most `p` changed, and no point, no node and nothing of security. -/
abbrev PortOnly (p : Nat) (t s : State) : Prop :=
  (∀ q, q ≠ p → t.port q = s.port q) ∧ t.pnt = s.pnt ∧ t.nodes = s.nodes ∧ t.sec = s.sec
abbrev AnswersPortOnly (p : Nat) (s : State) (o : Host.Outcome State Fault Refusal) : Prop :=
  ∃ t, o = .next t ∧ PortOnly p t s

theorem State.port_setPort_ne (s : State) {p q : Nat} (x : BrPort) (h : p ≠ q) : (s.setPort p x).port q = s.port q :=
  sget_sput_ne _ _ x h
theorem PortOnly.refl (p : Nat) (s : State) : PortOnly p s s := ⟨fun _ _ => rfl, rfl, rfl, rfl⟩
theorem State.setPort_portOnly (s : State) (p : Nat) (x : BrPort) : PortOnly p (s.setPort p x) s :=
  ⟨fun _ h => s.port_setPort_ne x h.symm, rfl, rfl, rfl⟩
/-- A refused access of an engine is recorded outside ports, points, nodes and security. -/
theorem State.engFault_portOnly (s : State) (p d cls inst : Nat) (write : Bool) (e : EngFault) :
    PortOnly p (s.engFault d cls inst write e) s := by
  simp [PortOnly, State.port]
theorem PortOnly.trans {p : Nat} {a b c : State} (h : PortOnly p a b) (g : PortOnly p b c) : PortOnly p a c :=
  ⟨fun q hq => (h.1 q hq).trans (g.1 q hq), h.2.1.trans g.2.1, h.2.2.1.trans g.2.2.1, h.2.2.2.trans g.2.2.2⟩
theorem PortOnly.done {p : Nat} {s t : State} (h : PortOnly p t s) : AnswersPortOnly p s (done s t) :=
  ⟨settle s t, rfl, by simpa [PortOnly] using h⟩
theorem State.draw_portOnly (s : State) (p : Nat) : PortOnly p s.draw.2 s := ⟨fun _ _ => rfl, rfl, rfl, rfl⟩

theorem State.brCollide_portOnly (s : State) (p bt : Nat) : PortOnly p (s.brCollide p bt) s := by
  unfold State.brCollide
  dsimp only
  split
  · exact PortOnly.refl p s
  · (repeat' split)
    case isFalse.isFalse.isFalse => exact (s.draw.2.setPort_portOnly p _).trans (s.draw_portOnly p)
    all_goals exact s.setPort_portOnly p _

section
variable (p : Port) (s : State)

theorem execGclEntryBoundary_portOnly : AnswersPortOnly p.val s (execGclEntryBoundary p s) := by
  unfold execGclEntryBoundary
  dsimp only
  split
  · exact (s.setPort_portOnly p.val _).done
  · exact (PortOnly.refl p.val s).done
theorem execBranchTxStart_portOnly (room at_ buf : Nat) :
    AnswersPortOnly p.val s (execBranchTxStart p room at_ buf s) :=
  (s.setPort_portOnly p.val _).done
theorem execBranchTxEnd_portOnly : AnswersPortOnly p.val s (execBranchTxEnd p s) := by
  unfold execBranchTxEnd
  dsimp only
  split
  · exact (PortOnly.refl p.val s).done
  · exact (s.setPort_portOnly p.val _).done
theorem execCollisionDetect_portOnly (bt : Nat) : AnswersPortOnly p.val s (execCollisionDetect p none bt s) :=
  (s.brCollide_portOnly p.val bt).done
theorem execBackoffExpiry_portOnly (room at_ buf : Nat) :
    AnswersPortOnly p.val s (execBackoffExpiry p none room at_ buf s) := by
  unfold execBackoffExpiry
  dsimp only
  split
  · exact (PortOnly.refl p.val s).done
  · split <;> exact (s.setPort_portOnly p.val _).done
theorem execBranchTxUnderrun_portOnly (why : TxFail) : AnswersPortOnly p.val s (execBranchTxUnderrun p why s) := by
  unfold execBranchTxUnderrun
  dsimp only
  split
  · exact (PortOnly.refl p.val s).done
  · split
    · exact ((State.engFault_portOnly _ _ _ _ _ _ _).trans (s.setPort_portOnly p.val _)).done
    · split
      · exact (s.setPort_portOnly p.val _).done
      · exact (PortOnly.refl p.val s).done
theorem execBranchRxBadFrame_portOnly (why : RxFail) : AnswersPortOnly p.val s (execBranchRxBadFrame p why s) := by
  unfold execBranchRxBadFrame
  dsimp only
  split
  · split
    · exact ((State.engFault_portOnly _ _ _ _ _ _ _).trans (s.setPort_portOnly p.val _)).done
    · exact (s.setPort_portOnly p.val _).done
  · exact (PortOnly.refl p.val s).done
end

/-- Settles O8: each command by its own lemmas on what it leaves alone. -/
theorem branchCommandsKeepOtherUnits : Obligations.BranchCommandsKeepOtherUnits := by
  unfold Obligations.BranchCommandsKeepOtherUnits
  refine ⟨?units, ?ports⟩
  case units =>
    intro c s hc
    obtain ⟨t, ho, hb, ht⟩ := branchCmd_answer c s hc
    refine ⟨t, ho, ?_⟩
    simp_all only [OutBranch, SameTags, and_self, implies_true]
  case ports =>
    intro c p q room at_ buf bt f g s hq hc
    have key : AnswersPortOnly p.val s (exec c s) := by
      simp only [List.contains_iff_mem, List.mem_cons, List.not_mem_nil, or_false] at hc
      obtain rfl | rfl | rfl | rfl | rfl | rfl | rfl := hc
      · exact execGclEntryBoundary_portOnly p s
      · exact execBranchTxStart_portOnly p s room at_ buf
      · exact execBranchTxEnd_portOnly p s
      · exact execCollisionDetect_portOnly p s bt
      · exact execBackoffExpiry_portOnly p s room at_ buf
      · exact execBranchTxUnderrun_portOnly p s f
      · exact execBranchRxBadFrame_portOnly p s g
    obtain ⟨t, ho, hport, hrest⟩ := key
    exact ⟨t, ho, hport q hq, hrest⟩

end Sys2Proof.Machine

/-! The transmissions of a branch port (O32). -/
namespace Sys2Proof.Machine

/-! ### What a branch port's own operations leave -/

/-- Counting changes the counter, what watermark 9 watches, and the half-range bit with its interrupt (03 R65). -/
theorem BrPort.count_eq (x : BrPort) (i n : Nat) : ∃ e h w,
    x.count i n = { x with ctr := sput x.ctr i (addW (sget 0 x.ctr i) n), errs := e, half := h, irqStat := w } := by
  unfold BrPort.count
  dsimp only
  split
  · exact ⟨_, _, _, rfl⟩
  · exact ⟨_, _, _, rfl⟩

/-- So every other register and the port's records are as before. -/
@[simp] theorem BrPort.count_kept (x : BrPort) (i n : Nat) :
    (x.count i n).cycnum = x.cycnum ∧ (x.count i n).entry = x.entry ∧ (x.count i n).rollcall = x.rollcall ∧
      (x.count i n).tx = x.tx ∧ (x.count i n).nextCycle = x.nextCycle ∧ (x.count i n).queues = x.queues ∧
      (x.count i n).thr = x.thr ∧ (x.count i n).backoff = x.backoff ∧ (x.count i n).lastSent = x.lastSent ∧
      (x.count i n).cmds = x.cmds ∧ (x.count i n).nodes = x.nodes ∧ (x.count i n).running = x.running ∧
      (x.count i n).round = x.round ∧ (x.count i n).assigns = x.assigns ∧ (x.count i n).unbound = x.unbound := by
  obtain ⟨e, h, w, hx⟩ := x.count_eq i n
  simp [hx]
@[simp] theorem BrPort.count_ctr (x : BrPort) (i n : Nat) :
    (x.count i n).ctr = sput x.ctr i (addW (sget 0 x.ctr i) n) := by
  obtain ⟨e, h, w, hx⟩ := x.count_eq i n
  rw [hx]

/-- The line of a port: cycle, transmitter and counters, which putting frames into its queues leaves alone. -/
abbrev SameLine (x y : BrPort) : Prop :=
  x.cycnum = y.cycnum ∧ x.entry = y.entry ∧ x.rollcall = y.rollcall ∧ x.tx = y.tx ∧ x.nextCycle = y.nextCycle ∧ x.ctr = y.ctr
abbrev SameLines (t s : State) : Prop := ∀ q, SameLine (t.port q) (s.port q)
theorem SameLines.refl (s : State) : SameLines s s := fun _ => ⟨rfl, rfl, rfl, rfl, rfl, rfl⟩
theorem SameLines.trans {a b c : State} (h : SameLines a b) (g : SameLines b c) : SameLines a c := fun q => by
  obtain ⟨h1, h2, h3, h4, h5, h6⟩ := h q
  obtain ⟨g1, g2, g3, g4, g5, g6⟩ := g q
  exact ⟨h1.trans g1, h2.trans g2, h3.trans g3, h4.trans g4, h5.trans g5, h6.trans g6⟩
theorem State.modPort_sameLines (s : State) (p : Nat) (f : BrPort → BrPort) (hf : ∀ x, SameLine (f x) x) :
    SameLines (s.modPort p f) s := fun q => by
  by_cases h : p = q
  · subst h
    rw [State.port_modPort]
    exact hf _
  · rw [State.modPort, s.port_setPort_ne _ h]
    exact SameLines.refl s q
theorem State.modNode_sameLines (s : State) (p a : Nat) (f : CtlNode → CtlNode) : SameLines (s.modNode p a f) s :=
  s.modPort_sameLines p _ fun _ => ⟨rfl, rfl, rfl, rfl, rfl, rfl⟩
theorem State.queueFrame_sameLines (s : State) (p : Nat) (dst : Byte) (pl : Payload) : SameLines (s.queueFrame p dst pl) s :=
  s.modPort_sameLines p _ fun _ => ⟨rfl, rfl, rfl, rfl, rfl, rfl⟩

/-- A SECURE frame, and the REKEY that may follow it, wait in a queue. -/
theorem State.sealed_sameLines (s : State) (p a : Nat) (i : Inner) : SameLines (s.sealed p a i) s := by
  unfold State.sealed
  dsimp only
  split
  · exact SameLines.refl s
  · exact (State.queueFrame_sameLines _ _ _ _).trans (State.modNode_sameLines _ _ _ _)
theorem State.rekey_sameLines (s : State) (p a : Nat) : SameLines (s.rekey p a) s :=
  (State.modNode_sameLines _ _ _ _).trans (State.sealed_sameLines s.draw.2 _ _ _)
theorem State.sendSecure_sameLines (s : State) (p a : Nat) (i : Inner) : SameLines (s.sendSecure p a i) s := by
  unfold State.sendSecure
  dsimp only
  split
  · exact (State.modNode_sameLines _ _ _ _).trans ((State.rekey_sameLines _ _ _).trans (s.sealed_sameLines p a i))
  · exact s.sealed_sameLines p a i
theorem State.sendChunk_sameLines (s : State) (c : DoorCfg) : SameLines (s.sendChunk c) s := by
  unfold State.sendChunk
  dsimp only
  split
  · exact SameLines.refl s
  · exact (State.sendSecure_sameLines _ _ _ _).trans (SameLines.refl s)
theorem State.sendChunks_sameLines (s : State) (p : Nat) : SameLines (s.sendChunks p) s := by
  unfold State.sendChunks
  induction s.cfg.doors.filter (fun c => c.port == p) generalizing s with
  | nil => exact SameLines.refl s
  | cons c l ih => exact (ih (s.sendChunk c)).trans (s.sendChunk_sameLines c)

/-! ### Cycles (03 R52, R55, R61) -/

theorem State.takeSwap_of_not_pending (s : State) (p : Nat) (h : (s.port p).pending = false) : s.takeSwap p = s := by
  simp [State.takeSwap, h]

/-- A beacon recalled from queue 7 leaves its output values to be carried again, and nothing else. -/
theorem BrPort.recallBeacon_eq (x : BrPort) : ∃ l, x.recallBeacon = { x with outPend := l } := by
  have key : ∀ (fs : List TxFrame) (y : BrPort), ∃ l, fs.foldl BrPort.unsent y = { y with outPend := l } := by
    intro fs
    induction fs with
    | nil => exact fun y => ⟨y.outPend, rfl⟩
    | cons f fs ih =>
      intro y
      obtain ⟨l, hl⟩ := ih (y.unsent f)
      exact ⟨l, hl⟩
  exact key _ x

/-- In native mode a cycle whose beacon is fully buffered begins with the beacon on the line. -/
theorem State.cycleStart_of_buffered (s : State) (p : Nat) (hm : (s.port p).mode = false) (ht : (s.port p).tx = none)
    (hp : (s.port p).pending = false) :
    ((s.cycleStart p none true).port p).cycnum = (s.port p).cycnum + 1 ∧ ((s.cycleStart p none true).port p).entry = 0 ∧
      ((s.cycleStart p none true).port p).rollcall = false ∧
      ((s.cycleStart p none true).port p).tx.any (fun f => isBeacon f.payload) = true ∧
      ((s.cycleStart p none true).port p).nextCycle = s.now + msTicks (s.port p).cycleMs := by
  obtain ⟨l, hl⟩ := (s.port p).recallBeacon_eq
  simp [State.cycleStart, s.takeSwap_of_not_pending p hp, hl, BrPort.beaconGoes, hm, ht, State.takeOutputs,
    BrPort.clearHeld, BrPort.sendBeacon, isBeacon, BrPort.cycleMs, State.now]

/-- A beacon that is not is counted, and what it would have carried waits for the next. -/
theorem State.cycleStart_of_not_buffered (s : State) (p : Nat) (hm : (s.port p).mode = false)
    (hp : (s.port p).pending = false) :
    ((s.cycleStart p none false).port p).cycnum = (s.port p).cycnum + 1 ∧
      ((s.cycleStart p none false).port p).rollcall = (s.port p).rollcall ∧
      ((s.cycleStart p none false).port p).tx = (s.port p).tx ∧
      sget 0 ((s.cycleStart p none false).port p).ctr cUnderrun = addW (sget 0 (s.port p).ctr cUnderrun) 1 := by
  obtain ⟨l, hl⟩ := (s.port p).recallBeacon_eq
  simp [State.cycleStart, s.takeSwap_of_not_pending p hp, hl, BrPort.beaconGoes, hm, BrPort.clearHeld, BrPort.irq]

section
variable (p : Port) (buffered : Bool) (s : State) (hport : s.hasPort p.val = true) (hr : (s.port p.val).running = true)
  (hd : (s.port p.val).dormant = false) (hm : (s.port p.val).mode = false)
include hport hr hd hm

theorem exec_branchCycleStart_of_buffered (ht : (s.port p.val).tx = none) (hp : (s.port p.val).pending = false)
    (hdue : (s.port p.val).cycleDue s.now = true) (hb : buffered = true) :
    ∃ t, exec (.branchCycleStart p buffered) s = .next t ∧ (t.port p.val).cycnum = (s.port p.val).cycnum + 1 ∧
      (t.port p.val).entry = 0 ∧ (t.port p.val).rollcall = false ∧
      (t.port p.val).tx.any (fun f => isBeacon f.payload) = true ∧
      (t.port p.val).nextCycle = s.now + msTicks (s.port p.val).cycleMs := by
  subst hb
  show ∃ t, execBranchCycleStart p true s = .next t ∧ _
  obtain ⟨hcyc, hentry, hroll, htx, hnext, -⟩ := (s.cycleStart p.val none true).sendChunks_sameLines p.val p.val
  simp only [execBranchCycleStart, hport, hr, hd, hdue, Bool.not_false, Bool.and_self, if_true, done_eq, exists_eq_left',
    settle_port_get, hcyc, hentry, hroll, htx, hnext]
  exact s.cycleStart_of_buffered p.val hm ht hp

theorem exec_branchCycleStart_of_not_buffered (hp : (s.port p.val).pending = false)
    (hdue : (s.port p.val).cycleDue s.now = true) (hb : buffered = false) :
    ∃ t, exec (.branchCycleStart p buffered) s = .next t ∧ (t.port p.val).cycnum = (s.port p.val).cycnum + 1 ∧
      (t.port p.val).rollcall = (s.port p.val).rollcall ∧ (t.port p.val).tx = (s.port p.val).tx ∧
      sget 0 (t.port p.val).ctr cUnderrun = addW (sget 0 (s.port p.val).ctr cUnderrun) 1 := by
  subst hb
  show ∃ t, execBranchCycleStart p false s = .next t ∧ _
  obtain ⟨hcyc, -, hroll, htx, -, hctr⟩ := (s.cycleStart p.val none false).sendChunks_sameLines p.val p.val
  simp only [execBranchCycleStart, hport, hr, hd, hdue, Bool.not_false, Bool.and_self, if_true, done_eq, exists_eq_left',
    settle_port_get, hcyc, hroll, htx, hctr]
  exact s.cycleStart_of_not_buffered p.val hm hp
end

theorem exec_gclEntryBoundary_of_more (p : Port) (s : State) (hr : (s.port p.val).running = true)
    (hm : (s.port p.val).mode = false) (hd : (s.port p.val).dormant = false)
    (he : (s.port p.val).entry + 1 < (s.port p.val).entries) :
    ∃ t, exec (.gclEntryBoundary p) s = .next t ∧ (t.port p.val).entry = (s.port p.val).entry + 1 := by
  show ∃ t, execGclEntryBoundary p s = .next t ∧ _
  simp [execGclEntryBoundary, hr, hm, hd, he, done_eq]

/-! ### The start of a transmission (03 R56 to R58, R63) -/

/-- The port once frame `f` of queue `n` has started: it is on the line, and the rest `l` of its queue waits. -/
def BrPort.started (x : BrPort) (n buf : Nat) (f : TxFrame) (l : List TxFrame) : BrPort :=
  { x with queues := sput x.queues n l, tx := some { f with held := false, buf := buf } }
@[simp] theorem BrPort.started_queue (x : BrPort) (n buf : Nat) (f : TxFrame) (l : List TxFrame) :
    (x.started n buf f l).queue n = l :=
  sget_sput_same [] x.queues n l

/-- The queues are served from the highest down: behind empty or closed ones, the head of an open queue that fits its window
starts once enough of it is buffered. -/
theorem BrPort.serve_head (x : BrPort) (room buf n k : Nat) (f : TxFrame) (l : List TxFrame) (hk : n < k)
    (hg : x.gates.getLsbD n = true) (habove : ∀ m, n < m → m < k → x.queue m = []) (hq : x.queue n = f :: l)
    (ht : x.takes f = true) (hroom : frameBits f.payload + 48 ≤ room) :
    x.serve room buf k = if min x.thr (payloadLen f.payload + 8) ≤ buf then x.started n buf f l else x := by
  induction k with
  | zero => omega
  | succ k ih =>
    obtain rfl | hlt := Nat.eq_or_lt_of_le (Nat.le_of_lt_succ hk)
    · simp [BrPort.serve, hg, hq, ht, hroom, BrPort.started]
    · have hempty : x.queue k = [] := habove k hlt (Nat.lt_succ_self k)
      have hrest := ih hlt fun m h1 h2 => habove m h1 (Nat.lt_succ_of_lt h2)
      simp [BrPort.serve, hempty, hrest]

/-- The queues above `n` are empty. -/
theorem BrPort.queue_of_all_empty (x : BrPort) (n m : Nat)
    (h : (List.range 8).all (fun m => !(n < m) || (x.queue m).isEmpty) = true) (hn : n < m) (hm : m < 8) :
    x.queue m = [] := by
  have := List.all_eq_true.1 h m (List.mem_range.2 hm)
  simpa [hn] using this

/-- A queue's frame may start on a port that runs, sends nothing and backs off from nothing. -/
theorem BrPort.startTx_of_free (x : BrPort) (room at_ buf : Nat) (hr : x.running = true) (ht : x.tx = none)
    (hb : x.backoff = none) (hs : x.maySend at_ = true) :
    x.startTx room at_ buf = x.serve (x.roomAt room at_) buf 8 := by
  simp [BrPort.startTx, hr, ht, hb, hs]

/-- An open window is open to every frame, up to its end. -/
theorem BrPort.maySend_of_open (x : BrPort) (at_ : Nat) (ht : x.train = none) (hd : x.dormant = false)
    (hk : x.kind = .open) : x.maySend at_ = true := by
  simp [BrPort.maySend, ht, hd, hk]
theorem BrPort.roomAt_of_open (x : BrPort) (room at_ : Nat) (hk : x.kind = .open) : x.roomAt room at_ = room := by
  simp [BrPort.roomAt, hk]
theorem BrPort.takes_of_open (x : BrPort) (f : TxFrame) (hk : x.kind = .open) : x.takes f = true := by
  simp [BrPort.takes, hk]

/-- In a slot of address 0 within a scheduled window an OUTPUT may start. -/
theorem BrPort.maySend_of_slot (x : BrPort) (at_ : Nat) (e : Nat × Nat) (ht : x.train = none) (hd : x.dormant = false)
    (hk : x.kind = .scheduled) (he : x.slotAt at_ = some e) : x.maySend at_ = true := by
  simp [BrPort.maySend, ht, hd, hk, he]
theorem BrPort.roomAt_of_slot (x : BrPort) (room at_ : Nat) (e : Nat × Nat) (hk : x.kind = .scheduled)
    (he : x.slotAt at_ = some e) : x.roomAt room at_ = min room (e.1 + e.2 - at_) := by
  simp [BrPort.roomAt, hk, he]
theorem BrPort.takes_of_output (x : BrPort) (f : TxFrame) (c : Nat) (v : List V24) (hf : f.payload = .output c v) :
    x.takes f = true := by
  simp [BrPort.takes, hf]

/-- What an open window lets start. -/
theorem BrPort.startTx_of_open (x : BrPort) (room at_ buf n : Nat) (f : TxFrame) (l : List TxFrame) (hr : x.running = true)
    (ht : x.tx = none) (hb : x.backoff = none) (htr : x.train = none) (hd : x.dormant = false) (hk : x.kind = .open)
    (hg : x.gates.getLsbD n = true) (hn : n < 8)
    (hall : (List.range 8).all (fun m => !(n < m) || (x.queue m).isEmpty) = true) (hq : x.queue n = f :: l)
    (hroom : frameBits f.payload + 48 ≤ room) :
    x.startTx room at_ buf = if min x.thr (payloadLen f.payload + 8) ≤ buf then x.started n buf f l else x := by
  rw [x.startTx_of_free room at_ buf hr ht hb (x.maySend_of_open at_ htr hd hk), x.roomAt_of_open room at_ hk]
  exact x.serve_head room buf n 8 f l hn hg (fun m => x.queue_of_all_empty n m hall) hq (x.takes_of_open f hk) hroom

section
variable (p : Port) (room at_ buf n : Nat) (f : TxFrame) (l : List TxFrame) (s : State)
  (hr : (s.port p.val).running = true) (ht : (s.port p.val).tx = none) (hb : (s.port p.val).backoff = none)
  (htr : (s.port p.val).train = none) (hd : (s.port p.val).dormant = false) (hk : (s.port p.val).kind = .open)
  (hg : (s.port p.val).gates.getLsbD n = true) (hn : n < 8)
  (hall : (List.range 8).all (fun m => !(n < m) || ((s.port p.val).queue m).isEmpty) = true)
  (hq : (s.port p.val).queue n = f :: l) (hroom : frameBits f.payload + 48 ≤ room)
include hr ht hb htr hd hk hg hn hall hq hroom

theorem exec_branchTxStart_of_buffered (hbuf : min (s.port p.val).thr (payloadLen f.payload + 8) ≤ buf) :
    ∃ t, exec (.branchTxStart p room at_ buf) s = .next t ∧
      (t.port p.val).tx = some { f with held := false, buf := buf } ∧ (t.port p.val).queue n = l := by
  refine ⟨_, done_next _ _, ?_⟩
  rw [settle_port_get, State.port_modPort,
    (s.port p.val).startTx_of_open room at_ buf n f l hr ht hb htr hd hk hg hn hall hq hroom, if_pos hbuf]
  exact ⟨rfl, BrPort.started_queue _ _ _ _ _⟩

theorem exec_branchTxStart_of_not_buffered (hbuf : buf < min (s.port p.val).thr (payloadLen f.payload + 8)) :
    ∃ t, exec (.branchTxStart p room at_ buf) s = .next t ∧ t.port p.val = s.port p.val := by
  refine ⟨_, done_next _ _, ?_⟩
  rw [settle_port_get, State.port_modPort,
    (s.port p.val).startTx_of_open room at_ buf n f l hr ht hb htr hd hk hg hn hall hq hroom, if_neg (Nat.not_le.mpr hbuf)]
end

theorem exec_branchTxStart_of_slot (p : Port) (room at_ buf n : Nat) (f : TxFrame) (l : List TxFrame) (e : Nat × Nat)
    (c : Nat) (v : List V24) (s : State) (hr : (s.port p.val).running = true) (ht : (s.port p.val).tx = none)
    (hb : (s.port p.val).backoff = none) (htr : (s.port p.val).train = none) (hd : (s.port p.val).dormant = false)
    (hk : (s.port p.val).kind = .scheduled) (hg : (s.port p.val).gates.getLsbD n = true) (hn : n < 8)
    (hall : (List.range 8).all (fun m => !(n < m) || ((s.port p.val).queue m).isEmpty) = true)
    (hq : (s.port p.val).queue n = f :: l) (he : (s.port p.val).slotAt at_ = some e) (hf : f.payload = .output c v)
    (hroom : frameBits f.payload + 48 ≤ min room (e.1 + e.2 - at_))
    (hbuf : min (s.port p.val).thr (payloadLen f.payload + 8) ≤ buf) :
    ∃ t, exec (.branchTxStart p room at_ buf) s = .next t ∧
      (t.port p.val).tx = some { f with held := false, buf := buf } ∧ (t.port p.val).queue n = l := by
  refine ⟨_, done_next _ _, ?_⟩
  rw [settle_port_get, State.port_modPort,
    (s.port p.val).startTx_of_free room at_ buf hr ht hb ((s.port p.val).maySend_of_slot at_ e htr hd hk he),
    (s.port p.val).roomAt_of_slot room at_ e hk he,
    (s.port p.val).serve_head _ buf n 8 f l hn hg (fun m => (s.port p.val).queue_of_all_empty n m hall) hq
      ((s.port p.val).takes_of_output f c v hf) hroom, if_pos hbuf]
  exact ⟨rfl, BrPort.started_queue _ _ _ _ _⟩

/-! ### The end of a transmission, collisions and back-offs (03 R58 to R61, R67) -/

/-- The end of a frame counts it and its octets. -/
theorem BrPort.count_sent (x : BrPort) (n : Nat) :
    sget 0 ((x.count cTxFrames 1).count cTxOctets n).ctr cTxFrames = addW (sget 0 x.ctr cTxFrames) 1 ∧
      sget 0 ((x.count cTxFrames 1).count cTxOctets n).ctr cTxOctets = addW (sget 0 x.ctr cTxOctets) n := by
  simp only [BrPort.count_ctr]
  constructor
  · rw [sget_sput_ne 0 _ _ (by decide), sget_sput_same]
  · rw [sget_sput_same, sget_sput_ne 0 _ _ (by decide)]

theorem exec_branchTxEnd_of_sending (p : Port) (f : TxFrame) (s : State) (h : (s.port p.val).tx = some f) :
    ∃ t, exec (.branchTxEnd p) s = .next t ∧ (t.port p.val).tx = none ∧ (t.port p.val).lastSent = some f ∧
      sget 0 (t.port p.val).ctr cTxFrames = addW (sget 0 (s.port p.val).ctr cTxFrames) 1 ∧
      sget 0 (t.port p.val).ctr cTxOctets = addW (sget 0 (s.port p.val).ctr cTxOctets) (payloadLen f.payload + 8) := by
  show ∃ t, execBranchTxEnd p s = .next t ∧ _
  simp only [execBranchTxEnd, h, done_eq, exists_eq_left', settle_port_get, State.port_setPort]
  have hctr := BrPort.count_sent { s.port p.val with tx := none, lastSent := some f } (payloadLen f.payload + 8)
  split
  · split <;> exact ⟨by simp, by simp, hctr⟩
  · exact ⟨by simp, by simp, hctr⟩

/-- A port takes a frame back at the head of its queue. -/
@[simp] theorem BrPort.pushHead_queue (x : BrPort) (f : TxFrame) : (x.pushHead f).queue f.cls = f :: x.queue f.cls := by
  simp [BrPort.pushHead, BrPort.queue]

theorem exec_collisionDetect_of_early (p : Port) (by_ : Option Uid) (bt : Nat) (f : TxFrame) (s : State) (hby : by_ = none)
    (ht : (s.port p.val).tx = some f) (hbt : bt ≤ 64) (hf : isBeacon f.payload = false) (hc : f.coll + 1 < 12) :
    ∃ t, exec (.collisionDetect p by_ bt) s = .next t ∧ (t.port p.val).tx = none ∧
      sget 0 (t.port p.val).ctr cColl = addW (sget 0 (s.port p.val).ctr cColl) 1 ∧
      (t.port p.val).queue f.cls = { f with coll := f.coll + 1 } :: (s.port p.val).queue f.cls ∧
      (∃ k, (t.port p.val).backoff = some (f.cls, 64 * k) ∧ k < 2 ^ min (f.coll + 1) 8) := by
  subst hby
  refine ⟨_, done_next _ _, ?_⟩
  have hlate : ¬ 64 < bt := by omega
  have hmany : ¬ 12 ≤ f.coll + 1 := by omega
  simp only [State.brCollide, ht, hlate, hf, hmany, Bool.false_and, Bool.false_eq_true, if_false, settle_port_get,
    State.port_setPort]
  refine ⟨?_, ?_, ?_, _, rfl, Nat.mod_lt _ (Nat.two_pow_pos _)⟩
  · simp [BrPort.pushHead]
  · simp [BrPort.pushHead]
  · simp [BrPort.pushHead, BrPort.queue]

theorem exec_collisionDetect_of_late (p : Port) (by_ : Option Uid) (bt : Nat) (f : TxFrame) (s : State) (hby : by_ = none)
    (ht : (s.port p.val).tx = some f) (hbt : 64 < bt) :
    ∃ t, exec (.collisionDetect p by_ bt) s = .next t ∧ (t.port p.val).tx = none ∧
      sget 0 (t.port p.val).ctr cLate = addW (sget 0 (s.port p.val).ctr cLate) 1 ∧
      (t.port p.val).queues = (s.port p.val).queues := by
  subst hby
  refine ⟨_, done_next _ _, ?_⟩
  simp [State.brCollide, ht, hbt, BrPort.unsent]

theorem State.modLeaf_node (s : State) (u : Uid) (n : Node) (f : Node → Node) (h : s.node? u = some n) :
    (s.modLeaf u f).node? u = some (f n) := by
  simp [State.modLeaf, h]

section
variable (p : Port) (by_ : Option Uid) (bt : Nat) (u : Uid) (n : Node) (s : State) (hby : by_ = some u)
  (hn : s.node? u = some n) (hs : n.sent.contends = true) (hb : n.backoff = none)
include hby hn hs hb

theorem exec_collisionDetect_of_node_early (hbt : bt ≤ 64) (hc : n.coll + 1 < 12) :
    ∃ t, exec (.collisionDetect p by_ bt) s = .next t ∧
      (∃ k, t.node? u = some { n with coll := n.coll + 1, backoff := some (64 * k) } ∧ k < 2 ^ min (n.coll + 1) 8) := by
  subst hby
  have hlate : ¬ 64 < bt := by omega
  have hmany : ¬ 12 ≤ n.coll + 1 := by omega
  refine ⟨settle s (s.draw.2.modLeaf u fun n => n.collide bt s.draw.1), rfl, s.draw.1 % 2 ^ min (n.coll + 1) 8, ?_,
    Nat.mod_lt _ (Nat.two_pow_pos _)⟩
  rw [settle_nodeOf_get, s.draw.2.modLeaf_node u n _ hn]
  simp [Node.collide, hs, hb, hlate, hmany]

theorem exec_collisionDetect_of_node_discards (hc : 64 < bt ∨ 12 ≤ n.coll + 1) :
    ∃ t, exec (.collisionDetect p by_ bt) s = .next t ∧ t.node? u = some { n with sent := .none, coll := 0 } := by
  subst hby
  refine ⟨settle s (s.draw.2.modLeaf u fun n => n.collide bt s.draw.1), rfl, ?_⟩
  rw [settle_nodeOf_get, s.draw.2.modLeaf_node u n _ hn]
  simp [Node.collide, hs, hb]
  omega
end

/-- Nothing starts in a beacon window. -/
theorem BrPort.startTx_of_beacon (x : BrPort) (room at_ buf : Nat) (hk : x.kind = .beacon) : x.startTx room at_ buf = x := by
  have hm : x.mode = false := by
    cases h : x.mode <;> simp_all [BrPort.kind]
  simp [BrPort.startTx, BrPort.maySend, hk, hm]

/-- A head that was not yet held is held and counted; the window is as it was (03 R56). -/
theorem BrPort.hold_of_fresh (x : BrPort) (q : Nat) (f : TxFrame) (l : List TxFrame) (hq : x.queue q = f :: l)
    (hh : f.held = false) :
    (x.hold q).kind = x.kind ∧ (x.hold q).backoff = x.backoff ∧ (x.hold q).tx = x.tx ∧
      (x.hold q).queue q = { f with held := true } :: l ∧
      sget 0 (x.hold q).ctr cGateOvr = addW (sget 0 x.ctr cGateOvr) 1 := by
  obtain ⟨e, h, w, hx⟩ := { x with queues := sput x.queues q ({ f with held := true } :: l) }.count_eq cGateOvr 1
  rw [show x.hold q = ({ x with queues := sput x.queues q ({ f with held := true } :: l) }.count cGateOvr 1).irq 3 by
    simp [BrPort.hold, hq, hh], hx]
  exact ⟨rfl, rfl, rfl, sget_sput_same [] _ _ _, sget_sput_same 0 _ _ _⟩

/-- The port when its back-off ends. -/
def BrPort.waited (x : BrPort) : BrPort := { x with backoff := none }

/-- A back-off that ends on a running port lets the port try again, unless the gate of its frame has closed. -/
theorem execBackoffExpiry_of_running (p : Port) (room at_ buf q b : Nat) (s : State) (hr : (s.port p.val).running = true)
    (hb : (s.port p.val).backoff = some (q, b)) :
    execBackoffExpiry p none room at_ buf s = done s (s.setPort p.val
      ((if (s.port p.val).kind == .open && (s.port p.val).gates.getLsbD q then (s.port p.val).waited
        else (s.port p.val).waited.hold q).startTx room at_ buf)) := by
  simp only [execBackoffExpiry, hb]
  exact if_neg (by simp [hr])

theorem exec_backoffExpiry_of_closed (p : Port) (by_ : Option Uid) (room at_ buf q b : Nat) (f : TxFrame)
    (l : List TxFrame) (s : State) (hby : by_ = none) (hr : (s.port p.val).running = true)
    (hb : (s.port p.val).backoff = some (q, b)) (hk : (s.port p.val).kind = .beacon)
    (hq : (s.port p.val).queue q = f :: l) (hh : f.held = false) :
    ∃ t, exec (.backoffExpiry p by_ room at_ buf) s = .next t ∧ (t.port p.val).backoff = none ∧
      (t.port p.val).tx = (s.port p.val).tx ∧ (t.port p.val).queue q = { f with held := true } :: l ∧
      sget 0 (t.port p.val).ctr cGateOvr = addW (sget 0 (s.port p.val).ctr cGateOvr) 1 := by
  subst hby
  show ∃ t, execBackoffExpiry p none room at_ buf s = .next t ∧ _
  obtain ⟨hkind, hback, htx, hqueue, hctr⟩ := (s.port p.val).waited.hold_of_fresh q f l hq hh
  have hclosed : ((s.port p.val).kind == .open && (s.port p.val).gates.getLsbD q) = false := by simp [hk]
  refine ⟨_, (execBackoffExpiry_of_running p room at_ buf q b s hr hb).trans (done_next _ _), ?_⟩
  rw [settle_port_get, State.port_setPort, hclosed, if_neg Bool.false_ne_true, BrPort.startTx_of_beacon _ _ _ _ (hkind.trans hk)]
  exact ⟨hback, htx, hqueue, hctr⟩

theorem exec_backoffExpiry_of_open (p : Port) (by_ : Option Uid) (room at_ buf n b : Nat) (f : TxFrame)
    (l : List TxFrame) (s : State) (hby : by_ = none) (hr : (s.port p.val).running = true) (ht : (s.port p.val).tx = none)
    (htr : (s.port p.val).train = none) (hd : (s.port p.val).dormant = false)
    (hb : (s.port p.val).backoff = some (n, b)) (hk : (s.port p.val).kind = .open)
    (hg : (s.port p.val).gates.getLsbD n = true) (hn : n < 8)
    (hall : (List.range 8).all (fun m => !(n < m) || ((s.port p.val).queue m).isEmpty) = true)
    (hq : (s.port p.val).queue n = f :: l) (hroom : frameBits f.payload + 48 ≤ room)
    (hbuf : min (s.port p.val).thr (payloadLen f.payload + 8) ≤ buf) :
    ∃ t, exec (.backoffExpiry p by_ room at_ buf) s = .next t ∧ (t.port p.val).backoff = none ∧
      (t.port p.val).tx = some { f with held := false, buf := buf } ∧ (t.port p.val).ctr = (s.port p.val).ctr := by
  subst hby
  show ∃ t, execBackoffExpiry p none room at_ buf s = .next t ∧ _
  have hopen : ((s.port p.val).kind == .open && (s.port p.val).gates.getLsbD n) = true := by simp [hk, hg]
  refine ⟨_, (execBackoffExpiry_of_running p room at_ buf n b s hr hb).trans (done_next _ _), ?_⟩
  rw [settle_port_get, State.port_setPort, hopen, if_pos rfl,
    (s.port p.val).waited.startTx_of_open room at_ buf n f l hr ht rfl htr hd hk hg hn hall hq hroom,
    if_pos (show min (s.port p.val).waited.thr (payloadLen f.payload + 8) ≤ buf from hbuf)]
  exact ⟨rfl, rfl, rfl⟩

theorem exec_backoffExpiry_of_node (p : Port) (by_ : Option Uid) (room at_ buf : Nat) (u : Uid) (n : Node) (s : State)
    (hby : by_ = some u) (hn : s.node? u = some n) :
    ∃ t, exec (.backoffExpiry p by_ room at_ buf) s = .next t ∧ t.node? u = some { n with backoff := none } := by
  subst hby
  exact ⟨_, done_next _ _, by rw [settle_nodeOf_get, s.modLeaf_node u n _ hn]⟩

/-! ### Over-amplitude and underruns (03 R61, R63, R64; 04 R79) -/

theorem exec_scheduledOverAmplitude_counts (p : Port) (addr : Byte) (s : State) (ht : (s.port p.val).tx = none)
    (hr : (s.port p.val).running = true) (hk : (s.port p.val).kind = .scheduled) :
    ∃ t, exec (.scheduledOverAmplitude p addr) s = .next t ∧
      sget 0 (t.port p.val).ctr cColl = addW (sget 0 (s.port p.val).ctr cColl) 1 ∧ (t.port p.val).tx = none := by
  show ∃ t, execScheduledOverAmplitude p addr s = .next t ∧ _
  simp only [execScheduledOverAmplitude, ht, hr, hk, Bool.true_and, beq_self_eq_true, Bool.true_or, if_true]
  split <;> simp [done_eq, State.sendClaim, State.sendAssign, State.queueFrame, BrPort.push, ht]

theorem exec_scheduledOverAmplitude_of_rollcall (p : Port) (addr : Byte) (s : State) (ht : (s.port p.val).tx = none)
    (hr : (s.port p.val).running = true) (hk : (s.port p.val).kind = .scheduled)
    (hroll : (s.port p.val).rollcallAt addr.toNat = true) :
    ∃ t, exec (.scheduledOverAmplitude p addr) s = .next t ∧ (t.port p.val).round = (s.port p.val).round + 1 ∧
      (t.port p.val).claimLeft = 2 := by
  show ∃ t, execScheduledOverAmplitude p addr s = .next t ∧ _
  simp [execScheduledOverAmplitude, ht, hr, hk, hroll, done_eq, State.sendClaim, State.sendAssign, State.queueFrame, BrPort.push]

/-- A frame that goes back leaves the line; only queues and the values to carry again change. -/
theorem BrPort.requeue_kept (x : BrPort) (f : TxFrame) :
    (x.requeue f).tx = none ∧ (x.requeue f).ctr = x.ctr ∧ (x.requeue f).thr = x.thr := by
  unfold BrPort.requeue
  (repeat' split) <;> simp [BrPort.pushHead, BrPort.unsent]

theorem exec_branchTxUnderrun_of_dry (p : Port) (why : TxFail) (f : TxFrame) (s : State) (ht : (s.port p.val).tx = some f)
    (hw : why = .dry) (hbuf : f.buf < payloadLen f.payload + 8) :
    ∃ t, exec (.branchTxUnderrun p why) s = .next t ∧ (t.port p.val).tx = none ∧
      sget 0 (t.port p.val).ctr cUnderrun = addW (sget 0 (s.port p.val).ctr cUnderrun) 1 ∧
      (t.port p.val).thr = min 256 ((s.port p.val).thr + 32) := by
  subst hw
  obtain ⟨htx, hctr, -⟩ := (s.port p.val).requeue_kept f
  show ∃ t, execBranchTxUnderrun p .dry s = .next t ∧ _
  simp [execBranchTxUnderrun, ht, hbuf, done_eq, BrPort.underrun, BrPort.irq, htx, hctr]

theorem exec_branchTxUnderrun_of_access (p : Port) (why : TxFail) (f : TxFrame) (e : EngFault) (s : State)
    (ht : (s.port p.val).tx = some f) (hw : why = .access e) :
    ∃ t, exec (.branchTxUnderrun p why) s = .next t ∧ (t.port p.val).tx = none ∧
      sget 0 (t.port p.val).ctr cXlate = addW (sget 0 (s.port p.val).ctr cXlate) 1 ∧
      (t.port p.val).thr = (s.port p.val).thr := by
  subst hw
  show ∃ t, execBranchTxUnderrun p (.access e) s = .next t ∧ _
  have hport (t : State) (d c i : Nat) (w : Bool) : (t.engFault d c i w e).port p.val = t.port p.val := by simp [State.port]
  simp [execBranchTxUnderrun, ht, done_eq, hport, BrPort.unsent]

/-- Settles O32: one lemma for each command, in the state where it applies. -/
theorem branchTransmissionTakesEffect : Obligations.BranchTransmissionTakesEffect :=
  ⟨exec_branchCycleStart_of_buffered, exec_branchCycleStart_of_not_buffered, exec_gclEntryBoundary_of_more,
    exec_branchTxStart_of_buffered, exec_branchTxStart_of_not_buffered, exec_branchTxStart_of_slot,
    exec_branchTxEnd_of_sending, exec_collisionDetect_of_early, exec_collisionDetect_of_late,
    exec_collisionDetect_of_node_early, exec_collisionDetect_of_node_discards, exec_backoffExpiry_of_closed,
    exec_backoffExpiry_of_open, exec_backoffExpiry_of_node, exec_scheduledOverAmplitude_counts,
    exec_scheduledOverAmplitude_of_rollcall, exec_branchTxUnderrun_of_dry, exec_branchTxUnderrun_of_access⟩

end Sys2Proof.Machine

/-! The receptions and the supervision of a branch port (O33). -/
namespace Sys2Proof.Machine

/-! ### What accepting a frame, the records and the shown objects leave of a port -/

/-- Accepting a frame counts it; nodes, waiting COMMANDs and ASSIGNs, and the cycle stay (03 Table 03.5). -/
theorem BrPort.accept_kept (x : BrPort) (type len : Nat) :
    (x.accept type len).nodes = x.nodes ∧ (x.accept type len).cmds = x.cmds ∧ (x.accept type len).assigns = x.assigns ∧
      (x.accept type len).cycnum = x.cycnum ∧ (x.accept type len).running = x.running := by
  have htype : ∀ y : BrPort, (y.countType type).nodes = y.nodes ∧ (y.countType type).cmds = y.cmds ∧
      (y.countType type).assigns = y.assigns ∧ (y.countType type).cycnum = y.cycnum ∧ (y.countType type).running = y.running := by
    intro y
    unfold BrPort.countType
    dsimp only
    split <;> exact ⟨rfl, rfl, rfl, rfl, rfl⟩
  obtain ⟨hn, hc, ha, hy, hr⟩ := htype (((x.count cRxFrames 1).count cRxOctets (len + 8)).count (cRxLen +
    if len ≤ 16 then 0 else if len ≤ 64 then 1 else if len ≤ 128 then 2 else 3) 1)
  exact ⟨hn.trans (by simp), hc.trans (by simp), ha.trans (by simp), hy.trans (by simp), hr.trans (by simp)⟩

theorem State.port_congr {t s : State} (h : t.ports = s.ports) (p : Nat) : t.port p = s.port p := by
  rw [State.port, State.port, h]

theorem State.finish?_ports (s : State) (r : Option Req) (res : Result) : (s.finish? r res).ports = s.ports := by
  simp
/-- An event, a cell and a shown door or station change no port. -/
@[simp] theorem State.brEvent_ports (s : State) (p code : Nat) (data : List Word) : (s.brEvent p code data).ports = s.ports := by
  simp [State.brEvent]
theorem foldl_ports {α : Type} (f : State → α → State) (l : List α) (s : State) (h : ∀ s x, (f s x).ports = s.ports) :
    (l.foldl f s).ports = s.ports := by
  induction l generalizing s with
  | nil => rfl
  | cons a l ih => exact (ih (f s a)).trans (h s a)
@[simp] theorem State.showAcc_ports (s : State) (kind n v : Nat) (bad : Bool) : (s.showAcc kind n v bad).ports = s.ports := by
  unfold State.showAcc
  split <;> simp [State.takeAcc]
@[simp] theorem State.showNode_ports (s : State) (p a : Nat) : (s.showNode p a).ports = s.ports :=
  (foldl_ports _ _ _ fun s _ => s.showAcc_ports 1 _ _ _).trans (foldl_ports _ _ _ fun s _ => s.showAcc_ports 0 _ _ _)
@[simp] theorem State.putBads_ports (s : State) (l : List Nat) : (s.putBads l).ports = s.ports := by
  induction l generalizing s with
  | nil => rfl
  | cons m l ih => exact (ih (s.markBad m)).trans (by simp)
@[simp] theorem State.markBads_ports (s : State) (l : List Nat) : (s.markBads l).ports = s.ports := by
  simp [State.markBads]

/-! ### The record of a node (04 R81) -/

@[simp] theorem State.node_modNode (s : State) (p a : Nat) (f : CtlNode → CtlNode) :
    ((s.modNode p a f).port p).node a = f ((s.port p).node a) := by
  simp [State.modNode, BrPort.node]

theorem State.markMissing_node (s : State) (p a : Nat) :
    ((s.markMissing p a).port p).node a = { (s.port p).node a with state := .missing, markedAt := s.now } := by
  have hports : (s.markMissing p a).ports = (s.modNode p a fun n => { n with state := .missing, markedAt := s.now }).ports := by
    simp [State.markMissing]
  rw [State.port_congr hports, State.node_modNode]

theorem State.markLost_node (s : State) (p a : Nat) :
    ((s.markLost p a).port p).node a = { (s.port p).node a with state := .lost } := by
  have hports : (s.markLost p a).ports = (s.modNode p a fun n => { n with state := .lost }).ports := by
    simp [State.markLost]
  rw [State.port_congr hports, State.node_modNode]

@[simp] theorem State.nodeCfg?_modPort (s : State) (p : Nat) (f : BrPort → BrPort) (q a : Nat) :
    (s.modPort p f).nodeCfg? q a = s.nodeCfg? q a := rfl

/-- A configured node that answers is present, and owes nothing. -/
theorem State.markPresent_node (s : State) (p a : Nat) (h : (s.nodeCfg? p a).isSome = true) :
    ((s.markPresent p a).port p).node a = { (s.port p).node a with
      state := .present, empty := 0, heard := true, missedRc := 0, asked := false, rcDue := false } := by
  have hnone : (s.nodeCfg? p a).isNone = false := Option.isNone_eq_false_iff.2 h
  have hports : (s.markPresent p a).ports = (s.modNode p a fun n =>
      { n with state := .present, empty := 0, heard := true, missedRc := 0, asked := false, rcDue := false }).ports := by
    simp only [State.markPresent, hnone, Bool.false_eq_true, if_false]
    split <;> simp
  rw [State.port_congr hports, State.node_modNode]

/-- The frame that a present node answers with changes no point. -/
theorem State.markPresent_pnt (s : State) (p a : Nat) (h : ((s.port p).node a).state = .present) :
    (s.markPresent p a).pnt = s.pnt := by
  simp only [State.markPresent, h]
  split <;> rfl

@[simp] theorem State.resendOutputs_node (s : State) (p a b : Nat) :
    ((s.resendOutputs p a).port p).node b = (s.port p).node b := by
  unfold State.resendOutputs
  split <;> simp [BrPort.node]

/-! ### Channel values and their cells (01 Table 01.8; 02 R29) -/

/-- The value of a point's source goes into its free cell with its quality; no fallback value stands in for it. -/
theorem State.sourceWrite_cell (s : State) (m : Nat) (src : Src) (q : Qual) (v : V24) (d : Desc) (hd : s.desc? m = some d)
    (hb : d.fbk = false) (hf : (s.cell m).forced = false) :
    ((s.sourceWrite m src q v).cell m).value = v ∧ ((s.sourceWrite m src q v).cell m).qual = q ∧
      ((s.sourceWrite m src q v).cell m).src = src ∧ ((s.sourceWrite m src q v).cell m).stale = false := by
  simp [State.sourceWrite, hd, hf, fbkValue, hb]

/-- A channel of a configured node that feeds a point writes its cell. -/
theorem State.nodeValues_cell (s : State) (p a ch : Nat) (v : ChanVal) (m : Nat) (d : Desc)
    (hn : (s.nodeCfg? p a).isSome = true) (hm : s.chanPoint p a ch = some m) (hd : s.desc? m = some d) (hb : d.fbk = false)
    (hf : (s.cell m).forced = false) :
    ((s.nodeValues p a ch [v]).cell m).value = v.value ∧ ((s.nodeValues p a ch [v]).cell m).qual = v.qual ∧
      ((s.nodeValues p a ch [v]).cell m).src = .field ∧ ((s.nodeValues p a ch [v]).cell m).stale = false := by
  have hw : s.reportWrites p a ch [v] = [{ m := m, src := .field, q := v.qual, v := v.value }] := by
    simp [State.reportWrites, State.feeds, hn, hm]
  simp only [State.nodeValues, hw, State.batch_one_cell]
  exact State.sourceWrite_cell _ m .field v.qual v.value d hd hb hf

@[simp] theorem State.nodeValues_nodeCfg? (s : State) (p a ch q b : Nat) (l : List ChanVal) :
    (s.nodeValues p a ch l).nodeCfg? q b = s.nodeCfg? q b := by
  simp [State.nodeCfg?, State.nodeValues]
@[simp] theorem State.nodeValues_node (s : State) (p a ch b : Nat) (l : List ChanVal) :
    ((s.nodeValues p a ch l).port p).node b = (s.port p).node b := by
  have hports : (s.nodeValues p a ch l).ports = (s.modPort p fun x =>
      { x with unboundCh := x.unboundCh + (l.length - (s.reportWrites p a ch l).length) }).ports := by
    simp [State.nodeValues]
  rw [State.port_congr hports, State.port_modPort]
  rfl

/-! ### Receive commands (03 R50, R51; 04 R71, R77, R83) -/

theorem exec_branchRxBadFrame_of_crc (p : Port) (why : RxFail) (s : State) (hr : (s.port p.val).running = true)
    (hw : why = .crc) :
    ∃ t, exec (.branchRxBadFrame p why) s = .next t ∧
      sget 0 (t.port p.val).ctr cCrc = addW (sget 0 (s.port p.val).ctr cCrc) 1 ∧
      (t.port p.val).nodes = (s.port p.val).nodes := by
  subst hw
  show ∃ t, execBranchRxBadFrame p .crc s = .next t ∧ _
  simp [execBranchRxBadFrame, hr, done_eq, BrPort.rxFail]

/-- The port after an accepted frame of its own. -/
abbrev State.accepted (s : State) (p type len : Nat) : State := s.modPort p fun x => x.accept type len

theorem State.accepted_node (s : State) (p type len a : Nat) : ((s.accepted p type len).port p).node a = (s.port p).node a := by
  obtain ⟨hnodes, -⟩ := (s.port p).accept_kept type len
  rw [State.port_modPort, BrPort.node, hnodes, BrPort.node]

theorem exec_branchRxReport_of_one (p : Port) (addr : Byte) (first : Nat) (vals : List ChanVal) (v : ChanVal) (m : Nat)
    (d : Desc) (s : State) (hr : (s.port p.val).running = true) (hn : (s.nodeCfg? p.val addr.toNat).isSome = true)
    (hv : vals = [v]) (hfirst : first < 64) (hstate : ((s.port p.val).node addr.toNat).state = .present)
    (hm : s.chanPoint p.val addr.toNat first = some m) (hd : s.desc? m = some d) (hb : d.fbk = false)
    (hf : (s.cell m).forced = false) :
    ∃ t, exec (.branchRxReport p addr first vals) s = .next t ∧ (t.cell m).value = v.value ∧ (t.cell m).qual = v.qual ∧
      (t.cell m).src = .field ∧ (t.cell m).stale = false ∧ ((t.port p.val).node addr.toNat).heard = true ∧
      ((t.port p.val).node addr.toNat).empty = 0 := by
  subst hv
  have hlen : (0 < [v].length && first + [v].length ≤ 64) = true := by simp; omega
  have hpresent : ((((s.accepted p.val 1 (2 + ([v].length + 3) / 4 + 3 * [v].length)).nodeValues p.val addr.toNat first
      [v]).port p.val).node addr.toNat).state = .present := by
    rw [State.nodeValues_node, State.accepted_node, hstate]
  obtain ⟨hvalue, hqual, hsrc, hstale⟩ := (s.accepted p.val 1 (2 + ([v].length + 3) / 4 + 3 * [v].length)).nodeValues_cell
    p.val addr.toNat first v m d hn hm hd hb hf
  show ∃ t, execBranchRxReport p addr first [v] s = .next t ∧ _
  simp only [execBranchRxReport, hr, if_true, hlen, done_eq, exists_eq_left', settle_cell_get, settle_port_get]
  rw [State.cell_congr (State.markPresent_pnt _ _ _ hpresent), State.markPresent_node _ _ _ (by simpa using hn)]
  exact ⟨hvalue, hqual, hsrc, hstale, rfl, rfl⟩

theorem exec_branchRxEvent_of_bound (p : Port) (addr seq ch : Byte) (v : ChanVal) (m : Nat) (d : Desc) (s : State)
    (hr : (s.port p.val).running = true) (hn : (s.nodeCfg? p.val addr.toNat).isSome = true)
    (hm : s.chanPoint p.val addr.toNat ch.toNat = some m) (hd : s.desc? m = some d) (hb : d.fbk = false)
    (hf : (s.cell m).forced = false) :
    ∃ t, exec (.branchRxEvent p addr seq ch v) s = .next t ∧ (t.cell m).value = v.value ∧ (t.cell m).qual = v.qual ∧
      (t.cell m).src = .field ∧ (t.cell m).stale = false := by
  show ∃ t, execBranchRxEvent p addr seq ch v s = .next t ∧ _
  simp only [execBranchRxEvent, hr, if_true, done_eq, exists_eq_left', settle_cell_get]
  exact (s.accepted p.val 3 6).nodeValues_cell p.val addr.toNat ch.toNat v m d hn hm hd hb hf

theorem exec_branchRxResponse_of_outstanding (p : Port) (addr seq op status : Byte) (data : List Byte) (c : PendCmd)
    (s : State) (hr : (s.port p.val).running = true) (hc : sfind (s.port p.val).cmds addr.toNat = some c) (hs : c.seq = seq)
    (ho : c.op = op) :
    ∃ t, exec (.branchRxResponse p addr seq op status data) s = .next t ∧ sfind (t.port p.val).cmds addr.toNat = none ∧
      (t.port p.val).running = true := by
  obtain ⟨-, hcmds, -, -, hrun⟩ := (s.port p.val).accept_kept 5 (3 + data.length)
  have hfind : sfind ((s.setPort p.val ((s.port p.val).accept 5 (3 + data.length))).port p.val).cmds addr.toNat = some c := by
    rw [State.port_setPort, hcmds, hc]
  show ∃ t, execBranchRxResponse p addr seq op status data s = .next t ∧ _
  simp only [execBranchRxResponse, hr, if_true, State.response, hfind, hs, ho, beq_self_eq_true, Bool.and_self, done_eq,
    exists_eq_left', settle_port_get]
  rw [State.port_congr (State.finish?_ports _ _ _)]
  simp [hrun, hr]

theorem exec_branchRxClaim_of_bound (p : Port) (uid : Uid) (cls : Byte) (chmap : List Byte) (n : NodeCfg) (s : State)
    (hr : (s.port p.val).running = true) (h0 : uid ≠ 0) (h1 : uid ≠ 0xFFFFFFFFFFFFFFFF)
    (hn : s.cfg.nodes.find? (fun n => n.port == p.val && n.uid == uid) = some n) :
    ∃ t, exec (.branchRxClaim p uid cls chmap) s = .next t ∧ sfind (t.port p.val).assigns n.addr = some
      { uid := uid, plan := { n.plan with addr := BitVec.ofNat 8 n.addr }, due := rollcallDue (s.port p.val).cycnum { n.plan with addr := BitVec.ofNat 8 n.addr } } := by
  have hbad : uidBad uid = false := by simpa [uidBad] using And.intro h0 h1
  obtain ⟨-, -, -, hcyc, -⟩ := (s.port p.val).accept_kept 6 (10 + chmap.length)
  show ∃ t, execBranchRxClaim p uid cls chmap s = .next t ∧ _
  simp [execBranchRxClaim, hr, hbad, hn, done_eq, State.sendAssign, State.queueFrame, BrPort.push, hcyc]

theorem exec_branchRxRollcall_of_configured (p : Port) (addr : Byte) (uid : Uid) (cls : Byte) (stat : BitVec 3) (n : NodeCfg)
    (s : State) (hr : (s.port p.val).running = true) (hu : uidBad uid = false) (hn : s.nodeCfg? p.val addr.toNat = some n)
    (hid : n.uid = uid) :
    ∃ t, exec (.branchRxRollcall p addr uid cls stat) s = .next t ∧ ((t.port p.val).node addr.toNat).state = .present ∧
      ((t.port p.val).node addr.toNat).rcDue = false := by
  have hmine : (s.nodeCfg? p.val addr.toNat).any (fun n => n.uid == uid) = true := by simp [hn, hid]
  have hsome : (s.nodeCfg? p.val addr.toNat).isSome = true := by simp [hn]
  show ∃ t, execBranchRxRollcall p addr uid cls stat s = .next t ∧ _
  simp only [execBranchRxRollcall, hr, if_true, hu, Bool.false_eq_true, if_false, hmine, done_eq, exists_eq_left',
    settle_port_get]
  split
  · rw [State.resendOutputs_node, State.markPresent_node _ _ _ (by simpa using hsome)]
    exact ⟨rfl, rfl⟩
  · rw [State.markPresent_node _ _ _ (by simpa using hsome)]
    exact ⟨rfl, rfl⟩

/-! ### Supervision and repetition (04 R76, R77, R81, R83; 17 R369) -/

theorem exec_slotEnd_of_third (p : Port) (addr : Byte) (s : State) (hr : (s.port p.val).running = true)
    (hd : (s.port p.val).dormant = false) (hn : (s.nodeCfg? p.val addr.toNat).isSome = true)
    (hheard : ((s.port p.val).node addr.toNat).heard = false) (he : 2 ≤ ((s.port p.val).node addr.toNat).empty)
    (hs : ((s.port p.val).node addr.toNat).state = .present) :
    ∃ t, exec (.slotEnd p addr) s = .next t ∧ ((t.port p.val).node addr.toNat).state = .missing ∧
      ((t.port p.val).node addr.toNat).markedAt = s.now := by
  have hnone : (s.nodeCfg? p.val addr.toNat).isNone = false := Option.isNone_eq_false_iff.2 hn
  have hthird : 3 ≤ ((s.port p.val).node addr.toNat).empty + 1 := by omega
  show ∃ t, execSlotEnd p addr s = .next t ∧ _
  simp [execSlotEnd, hr, hd, hnone, hheard, hs, hthird, done_eq, State.markMissing_node, State.now]

theorem exec_nodeLostTimeout_of_missing (p : Port) (addr : Byte) (s : State) (hr : (s.port p.val).running = true)
    (hd : (s.port p.val).dormant = false) (hs : ((s.port p.val).node addr.toNat).state = .missing)
    (ht : ((s.port p.val).node addr.toNat).markedAt + secTicks 60 ≤ s.now) :
    ∃ t, exec (.nodeLostTimeout p addr) s = .next t ∧ ((t.port p.val).node addr.toNat).state = .lost := by
  show ∃ t, execNodeLostTimeout p addr s = .next t ∧ _
  simp [execNodeLostTimeout, hr, hd, hs, ht, done_eq, State.markLost_node]

theorem exec_assignRetryTimeout_of_again (p : Port) (addr : Byte) (a : PendAssign) (s : State)
    (ha : sfind (s.port p.val).assigns addr.toNat = some a) (hs : a.sent < 4)
    (hdue : ((s.port p.val).cycnum - a.due).msb = false) :
    ∃ t, exec (.assignRetryTimeout p addr) s = .next t ∧ sfind (t.port p.val).assigns addr.toNat = some
      { a with sent := a.sent + 1, due := rollcallDue (s.port p.val).cycnum a.plan } ∧
      (t.port p.val).queue 0 = (s.port p.val).queue 0 ++ [{ dst := 0xFF, payload := .assign a.uid a.plan }] := by
  show ∃ t, execAssignRetryTimeout p addr s = .next t ∧ _
  simp [execAssignRetryTimeout, ha, hs, hdue, done_eq, State.sendAssign, State.queueFrame, BrPort.push, BrPort.queue]

theorem exec_nodeCommandTimeout_of_again (p : Port) (addr : Byte) (c : PendCmd) (s : State)
    (hc : sfind (s.port p.val).cmds addr.toNat = some c) (hs : c.sent < 4) (ht : c.sentAt + msTicks 100 ≤ s.now) :
    ∃ t, exec (.nodeCommandTimeout p addr) s = .next t ∧ sfind (t.port p.val).cmds addr.toNat = some
      { c with sent := c.sent + 1, sentAt := s.now } ∧
      (t.port p.val).queue 0 = (s.port p.val).queue 0 ++ [{ dst := addr, payload := .command c.seq c.op c.args }] := by
  have hlate : ¬ s.now < c.sentAt + msTicks 100 := Nat.not_lt.mpr ht
  show ∃ t, execNodeCommandTimeout p addr s = .next t ∧ _
  simp [execNodeCommandTimeout, hc, hs, hlate, done_eq, State.queueFrame, BrPort.push, BrPort.queue]

theorem exec_claimBroadcastTimer_of_due (p : Port) (s : State) (hr : (s.port p.val).running = true)
    (he : s.now < (s.port p.val).claimEnd) (ha : (s.port p.val).claimAt ≤ s.now) :
    ∃ t, exec (.claimBroadcastTimer p) s = .next t ∧ (t.port p.val).claimAt = s.now + secTicks 1 ∧
      (t.port p.val).round = (s.port p.val).round + 1 ∧
      (t.port p.val).queue 0 = (s.port p.val).queue 0 ++
        [{ dst := 0xFF, payload := .claim ((s.port p.val).round + 1) 64 1000 }] := by
  show ∃ t, execClaimBroadcastTimer p s = .next t ∧ _
  simp [execClaimBroadcastTimer, hr, he, State.due, ha, done_eq, State.sendClaim, State.queueFrame, BrPort.push, BrPort.queue]

/-- Settles O33: one lemma for each command, in the state where it applies. -/
theorem branchReceptionTakesEffect : Obligations.BranchReceptionTakesEffect :=
  ⟨exec_branchRxBadFrame_of_crc, exec_branchRxReport_of_one, exec_branchRxEvent_of_bound,
    exec_branchRxResponse_of_outstanding, exec_branchRxClaim_of_bound, exec_branchRxRollcall_of_configured,
    exec_slotEnd_of_third, exec_nodeLostTimeout_of_missing, exec_assignRetryTimeout_of_again,
    exec_nodeCommandTimeout_of_again, exec_claimBroadcastTimer_of_due⟩

end Sys2Proof.Machine

/-! A disable request to a branch port that is not enabled (O53). -/
namespace Sys2Proof.Machine

/-! ### Disabling a branch port that is not enabled (03 R62) -/

/-- A landlord's BR_ENABLE of port 5 with EN = 0. -/
def disableHead : ReqHead := { tag := 9, opcode := 0x0401, len := 3, rlen := 0, inline := true, data := [5, 0, 0] }

/-- A running module to which the landlord sends that request while port 5 runs without being enabled. -/
def strayPort : State := { State.reset with
  su := { State.reset.su with phase := .running, ready := List.range 8 }
  host := { State.reset.host with
    mbxRdy := true, cfgOk := true
    slots := [(0, { en := true, opened := true, tenant := 0, reqs := [{ head := disableHead }] })] }
  cfg := { State.reset.cfg with moduleId := 1 }
  ports := [(5, { running := true })] }

theorem strayPort_offers : strayPort.offers { sender := 0, tag := 9 } 0x0401 (· == [5, 0, 0]) disableHead 0 := by decide

/-- The request is answered, and the port still runs. -/
theorem strayPort_running (t : State) (ht : exec (.brEnable { sender := 0, tag := 9 } 5 0 0) strayPort = .next t) :
    (t.port 5).running = true := by
  obtain rfl := Host.Outcome.next.inj ht
  decide

/-- Refutes O53: BR_ENABLE with EN = 0 on a port that is not enabled but runs leaves it running (`BrPort.ctrl` then sets
the mode only), and the second clause does not ask that the port be enabled. -/
theorem not_portRequestsTakeEffect : ¬ Obligations.PortRequestsTakeEffect := by
  unfold Obligations.PortRequestsTakeEffect
  rintro ⟨-, hdisable, -⟩
  obtain ⟨t, ht, -, -, hrun, -⟩ := hdisable { sender := 0, tag := 9 } 5 0 0 disableHead 0 strayPort strayPort_offers
    (by decide) (by decide) rfl (by decide)
  exact absurd hrun (by simpa using strayPort_running t ht)

end Sys2Proof.Machine

/-! The control registers of the ports, the field I/O and the metering (O38). -/
namespace Sys2Proof.Machine

/-! ### The registers of a branch port (03 R62, R70) -/

theorem State.brpWrite_ctrl (s : State) (p : Port) (v : Word) :
    s.brpWrite (portDie p.val) (4096 * (p.val % 16) + 4) v = s.brCtrl p.val (v.getLsbD 0) (v.getLsbD 1) := by
  have hlp : (4096 * (p.val % 16) + 4) / 4096 = p.val % 16 := by omega
  have ha : (4096 * (p.val % 16) + 4) % 4096 = 4 := by omega
  have hp : 16 * portDie p.val + p.val % 16 = p.val := by unfold portDie; omega
  have hin : ¬ 16 ≤ p.val % 16 := by omega
  simp only [State.brpWrite, hlp, ha, hp, hin, if_false, if_true]

theorem State.brpWrite_swap (s : State) (p : Port) :
    s.brpWrite (portDie p.val) (4096 * (p.val % 16) + 0x20) 2 = s.brSwapReg p.val := by
  have hlp : (4096 * (p.val % 16) + 0x20) / 4096 = p.val % 16 := by omega
  have ha : (4096 * (p.val % 16) + 0x20) % 4096 = 0x20 := by omega
  have hp : 16 * portDie p.val + p.val % 16 = p.val := by unfold portDie; omega
  have hin : ¬ 16 ≤ p.val % 16 := by omega
  have hbit : (2 : Word).getLsbD 1 = true := by decide
  have hreg : ¬ 0x20 = 4 ∧ ¬ 0x20 = 0x14 := by decide
  simp only [State.brpWrite, hlp, ha, hp, hin, hreg, hbit, if_false, if_true]

@[simp] theorem State.showPort_ports (s : State) (p : Nat) : (s.showPort p).ports = s.ports :=
  (foldl_ports _ _ _ fun s _ => s.showAcc_ports 1 _ _ _).trans (foldl_ports _ _ _ fun s _ => s.showAcc_ports 0 _ _ _)
@[simp] theorem State.brCtrl_port (s : State) (p : Nat) (en mode : Bool) :
    (s.brCtrl p en mode).port p = (s.port p).ctrl en mode := by
  rw [State.brCtrl, State.port_congr (State.showPort_ports _ _), State.port_setPort]

/-- EN switches a port that is not enabled on, in the mode given. -/
theorem BrPort.ctrl_enables (x : BrPort) (mode : Bool) (h : x.en = false) : x.ctrl true mode =
    { x with en := true, mode := mode, modeEff := mode, running := true, rollcall := true, entry := 0, nextCycle := 0 } := by
  simp [BrPort.ctrl, h]
/-- EN = 0 stops an enabled port. -/
theorem BrPort.ctrl_disables (x : BrPort) (mode : Bool) (h : x.en = true) :
    (x.ctrl false mode).en = false ∧ (x.ctrl false mode).running = false ∧ (x.ctrl false mode).dormant = false ∧
      (x.ctrl false mode).mode = mode := by
  simp [BrPort.ctrl, h]

/-- A bank that passes its checks is pending; one that fails is refused with its error and an interrupt. -/
theorem BrPort.requestSwap_of_good (x : BrPort) (now : Nat)
    (h : gclErrOf (if x.active then x.cycleA else x.cycleB) (if x.active then x.entriesA else x.entriesB)
      (gclList (if x.active then x.gclA else x.gclB) (if x.active then x.entriesA else x.entriesB)) = 0) :
    x.requestSwap now = { x with pending := true, swapTick := now } := by
  unfold BrPort.requestSwap
  cases ha : x.active <;> simp_all
theorem BrPort.requestSwap_of_bad (x : BrPort) (now e : Nat)
    (h : gclErrOf (if x.active then x.cycleA else x.cycleB) (if x.active then x.entriesA else x.entriesB)
      (gclList (if x.active then x.gclA else x.gclB) (if x.active then x.entriesA else x.entriesB)) = e) (he : e ≠ 0) :
    x.requestSwap now = { x with pending := false, gclErr := true, err := BitVec.ofNat 3 e }.irq 5 := by
  unfold BrPort.requestSwap
  cases ha : x.active <;> simp_all

theorem orBit_getLsbD (w : Word) (i : Nat) (h : i < 32) : (orBit w i true).getLsbD i = true := by
  simp only [orBit, if_true, BitVec.getLsbD_or, BitVec.getLsbD_ofNat, Nat.testBit_two_pow_self, h, decide_true,
    Bool.and_self, Bool.or_true]

section
variable (p : Port) (s : State) (hrdy : s.host.mbxRdy = true) (hw : s.winTenant = some 0) (hd : portDie p.val < s.nDies)
include hrdy hw hd

theorem execBrpCtrlWrite_open (v : Word) :
    execBrpCtrlWrite p v s = done s (s.brCtrl p.val (v.getLsbD 0) (v.getLsbD 1)) := by
  rw [execBrpCtrlWrite, s.regW_brp _ _ v hrdy hw hd (by omega) (by omega), State.brpWrite_ctrl]
theorem execBrpGclSwap_open : execBrpGclSwap p s = done s (s.brSwapReg p.val) := by
  rw [execBrpGclSwap, s.regW_brp _ _ 2 hrdy hw hd (by omega) (by omega), State.brpWrite_swap]
end

theorem exec_brpCtrlWrite_enables (p : Port) (v : Word) (s : State) (hrdy : s.host.mbxRdy = true)
    (hw : s.winTenant = some 0) (hd : portDie p.val < s.nDies) (hen : (s.port p.val).en = false)
    (hv : v.getLsbD 0 = true) :
    ∃ t, exec (.brpCtrlWrite p v) s = .next t ∧ (t.port p.val).en = true ∧ (t.port p.val).running = true ∧
      (t.port p.val).mode = v.getLsbD 1 ∧ (t.port p.val).rollcall = true ∧ (t.port p.val).entry = 0 := by
  refine ⟨_, (execBrpCtrlWrite_open p s hrdy hw hd v).trans (done_next _ _), ?_⟩
  rw [settle_port_get, State.brCtrl_port, hv, (s.port p.val).ctrl_enables _ hen]
  exact ⟨rfl, rfl, rfl, rfl, rfl⟩

theorem exec_brpCtrlWrite_disables (p : Port) (v : Word) (s : State) (hrdy : s.host.mbxRdy = true)
    (hw : s.winTenant = some 0) (hd : portDie p.val < s.nDies) (hen : (s.port p.val).en = true)
    (hv : v.getLsbD 0 = false) :
    ∃ t, exec (.brpCtrlWrite p v) s = .next t ∧ (t.port p.val).en = false ∧ (t.port p.val).running = false ∧
      (t.port p.val).dormant = false ∧ (t.port p.val).mode = v.getLsbD 1 := by
  refine ⟨_, (execBrpCtrlWrite_open p s hrdy hw hd v).trans (done_next _ _), ?_⟩
  rw [settle_port_get, State.brCtrl_port, hv]
  exact (s.port p.val).ctrl_disables _ hen

theorem exec_brpGclSwap_of_good (p : Port) (x : BrPort) (s : State) (hrdy : s.host.mbxRdy = true)
    (hw : s.winTenant = some 0) (hd : portDie p.val < s.nDies) (hx : s.port p.val = x)
    (hg : gclErrOf (if x.active then x.cycleA else x.cycleB) (if x.active then x.entriesA else x.entriesB)
      (gclList (if x.active then x.gclA else x.gclB) (if x.active then x.entriesA else x.entriesB)) = 0) :
    ∃ t, exec (.brpGclSwap p) s = .next t ∧ (t.port p.val).pending = true ∧ (t.port p.val).swapTick = s.now ∧
      (t.port p.val).active = x.active := by
  subst hx
  refine ⟨_, (execBrpGclSwap_open p s hrdy hw hd).trans (done_next _ _), ?_⟩
  simp [State.brSwapReg, (s.port p.val).requestSwap_of_good s.now hg]

theorem exec_brpGclSwap_of_bad (p : Port) (x : BrPort) (e : Nat) (s : State) (hrdy : s.host.mbxRdy = true)
    (hw : s.winTenant = some 0) (hd : portDie p.val < s.nDies) (hx : s.port p.val = x)
    (hg : gclErrOf (if x.active then x.cycleA else x.cycleB) (if x.active then x.entriesA else x.entriesB)
      (gclList (if x.active then x.gclA else x.gclB) (if x.active then x.entriesA else x.entriesB)) = e) (he : e ≠ 0) :
    ∃ t, exec (.brpGclSwap p) s = .next t ∧ (t.port p.val).pending = false ∧ (t.port p.val).gclErr = true ∧
      (t.port p.val).err = BitVec.ofNat 3 e ∧ (t.port p.val).irqStat.getLsbD 5 = true := by
  subst hx
  have hports (r : Option Req) (u : State) (res : Result) : (u.finish? r res).port p.val = u.port p.val :=
    State.port_congr (u.finish?_ports r res) p.val
  have hport : (s.brSwapReg p.val).port p.val =
      { s.port p.val with pending := false, gclErr := true, err := BitVec.ofNat 3 e, swapReq := none }.irq 5 := by
    simp [State.brSwapReg, (s.port p.val).requestSwap_of_bad s.now e hg he, BrPort.irq, hports]
  refine ⟨_, (execBrpGclSwap_open p s hrdy hw hd).trans (done_next _ _), ?_⟩
  rw [settle_port_get, hport]
  exact ⟨rfl, rfl, rfl, orBit_getLsbD _ 5 (by decide)⟩

/-! ### The registers of a trunk port (05 R109, R110) -/

/-- What a topology broadcast leaves of a trunk port: its mode, its lanes and whether it is up. -/
abbrev SameTrunk (x y : TrkPort) : Prop :=
  x.en = y.en ∧ x.mode = y.mode ∧ x.precode = y.precode ∧ x.inv = y.inv ∧ x.lanes = y.lanes ∧ x.up = y.up
abbrev SameTrunks (u s : State) : Prop := ∀ q, SameTrunk (u.tport q) (s.tport q)
theorem SameTrunks.refl (s : State) : SameTrunks s s := fun _ => ⟨rfl, rfl, rfl, rfl, rfl, rfl⟩
theorem SameTrunks.trans {a b c : State} (h : SameTrunks a b) (g : SameTrunks b c) : SameTrunks a c := fun q => by
  obtain ⟨h1, h2, h3, h4, h5, h6⟩ := h q
  obtain ⟨g1, g2, g3, g4, g5, g6⟩ := g q
  exact ⟨h1.trans g1, h2.trans g2, h3.trans g3, h4.trans g4, h5.trans g5, h6.trans g6⟩
theorem State.push_sameTrunks (s : State) (t : TrunkPort) (f : TrkOut) : SameTrunks (s.modTport t fun x => x.push f) s :=
  fun q => by cases t <;> cases q <;> exact ⟨rfl, rfl, rfl, rfl, rfl, rfl⟩
theorem State.sendAll_sameTrunks (s : State) (f : TrkOut) : SameTrunks (s.sendAll f) s := by
  have hpass (u : State) (w : Bool) (t : TrunkPort) : SameTrunks (if w then u else u.modTport t fun x => x.push f) u := by
    cases w
    · exact u.push_sameTrunks t f
    · exact SameTrunks.refl u
  unfold State.sendAll
  split
  · exact s.push_sameTrunks false f
  · exact (hpass _ _ true).trans (hpass s _ false)
theorem State.topoBroadcast_sameTrunks (s : State) : SameTrunks s.topoBroadcast s := by
  unfold State.topoBroadcast
  split
  · exact SameTrunks.refl s
  · unfold State.trkSend
    dsimp only
    split
    · exact SameTrunks.refl s
    · exact (State.sendAll_sameTrunks _ _).trans (SameTrunks.refl s)

theorem TrkPort.requestSwap_of_good (x : TrkPort) (now : Nat)
    (h : trkGclErr (if x.active then x.nA else x.nB) (trkGclList (if x.active then x.gclA else x.gclB)
      (if x.active then x.nA else x.nB)) = 0) :
    x.requestSwap now = { x with pending := true, swapTick := now } := by
  unfold TrkPort.requestSwap
  cases ha : x.active <;> simp_all
theorem TrkPort.requestSwap_of_bad (x : TrkPort) (now e : Nat)
    (h : trkGclErr (if x.active then x.nA else x.nB) (trkGclList (if x.active then x.gclA else x.gclB)
      (if x.active then x.nA else x.nB)) = e) (he : e ≠ 0) :
    x.requestSwap now = { x with pending := false, gclErr := true, err := BitVec.ofNat 3 e }.irq 6 := by
  unfold TrkPort.requestSwap
  cases ha : x.active <;> simp_all

section
variable (t : TrunkPort) (s : State) (hrdy : s.host.mbxRdy = true) (hw : s.winTenant = some 0)
include hrdy hw

/-- Every member has both trunk ports, one on each of its first two dies. -/
theorem State.regW_trunk (o : Nat) (v : Word) (ho : o < 0x100000) (h4 : o % 4 = 0) :
    s.regW t.toNat 6 o v = s.trkRegW t o v := by
  have hn : 2 ≤ s.nDies := by unfold State.nDies; split <;> decide
  have ht : t.toNat < 2 := Bool.toNat_lt t
  have hb : (t.toNat == 1) = t := by cases t <;> rfl
  rw [s.regW_trk _ o v hrdy hw (by omega) ht ho h4, hb]
theorem execTrkCtrlWrite_open (v : Word) : execTrkCtrlWrite t v s = done s (s.trkCtrl t v) := by
  rw [execTrkCtrlWrite, State.regW_trunk t s hrdy hw 4 v (by decide) (by decide), State.trkRegW]
  rfl
theorem execTrkGclSwap_open : execTrkGclSwap t s = done s (s.trkSwapReg t) := by
  rw [execTrkGclSwap, State.regW_trunk t s hrdy hw 0x20 2 (by decide) (by decide), State.trkRegW]
  rfl
end

/-- A port that is enabled anew, or disabled, starts its lanes anew. -/
theorem State.trkCtrl_restarts (s : State) (t : TrunkPort) (v : Word) (hk : ((s.tport t).en && v.getLsbD 0) = false)
    (hf : v.getLsbD 2 = false) :
    ((s.trkCtrl t v).tport t).en = v.getLsbD 0 ∧ ((s.trkCtrl t v).tport t).mode = v.getLsbD 1 ∧
      ((s.trkCtrl t v).tport t).precode = v.extractLsb' 3 2 ∧ ((s.trkCtrl t v).tport t).inv = v.extractLsb' 5 2 ∧
      ((s.trkCtrl t v).tport t).lanes = freshLanes s.now ∧ ((s.trkCtrl t v).tport t).up = false := by
  have hretime (u : State) : u.retime.tport t = u.tport t := by cases t <;> rfl
  have hset (u : State) (x : TrkPort) : (u.setTport t x).retime.tport t = x := by rw [hretime, State.tport_setTport]
  have hbroad (u : State) (b : Bool) : SameTrunk ((if b then u.topoBroadcast else u).tport t) (u.tport t) := by
    cases b
    · exact SameTrunks.refl u t
    · exact u.topoBroadcast_sameTrunks t
  simp only [State.trkCtrl, hk, hf, Bool.false_eq_true, if_false, Bool.false_and]
  obtain ⟨h1, h2, h3, h4, h5, h6⟩ := hbroad _ _
  refine ⟨h1.trans ?_, h2.trans ?_, h3.trans ?_, h4.trans ?_, h5.trans ?_, h6.trans ?_⟩ <;> rw [hset]

theorem exec_trkCtrlWrite_enables (t : TrunkPort) (v : Word) (s : State) (hrdy : s.host.mbxRdy = true)
    (hw : s.winTenant = some 0) (hen : (s.tport t).en = false) (hv : v.getLsbD 0 = true) (hf : v.getLsbD 2 = false) :
    ∃ u, exec (.trkCtrlWrite t v) s = .next u ∧ (u.tport t).en = true ∧ (u.tport t).mode = v.getLsbD 1 ∧
      (u.tport t).precode = v.extractLsb' 3 2 ∧ (u.tport t).inv = v.extractLsb' 5 2 ∧
      (u.tport t).lanes = freshLanes s.now ∧ (u.tport t).up = false := by
  refine ⟨_, (execTrkCtrlWrite_open t s hrdy hw v).trans (done_next _ _), ?_⟩
  obtain ⟨hon, hrest⟩ := s.trkCtrl_restarts t v (by rw [hen, Bool.false_and]) hf
  rw [settle_tport_get]
  exact ⟨hon.trans hv, hrest⟩

theorem exec_trkCtrlWrite_disables (t : TrunkPort) (v : Word) (s : State) (hrdy : s.host.mbxRdy = true)
    (hw : s.winTenant = some 0) (hv : v.getLsbD 0 = false) (hf : v.getLsbD 2 = false) :
    ∃ u, exec (.trkCtrlWrite t v) s = .next u ∧ (u.tport t).en = false ∧ (u.tport t).mode = v.getLsbD 1 ∧
      (u.tport t).lanes = freshLanes s.now ∧ (u.tport t).up = false := by
  obtain ⟨hen, hmode, -, -, hlanes, hup⟩ := s.trkCtrl_restarts t v (by rw [hv, Bool.and_false]) hf
  refine ⟨_, (execTrkCtrlWrite_open t s hrdy hw v).trans (done_next _ _), ?_⟩
  simp only [settle_tport_get]
  exact ⟨hen.trans hv, hmode, hlanes, hup⟩

theorem exec_trkGclSwap_of_good (t : TrunkPort) (x : TrkPort) (s : State) (hrdy : s.host.mbxRdy = true)
    (hw : s.winTenant = some 0) (hx : s.tport t = x)
    (hg : trkGclErr (if x.active then x.nA else x.nB) (trkGclList (if x.active then x.gclA else x.gclB)
      (if x.active then x.nA else x.nB)) = 0) :
    ∃ u, exec (.trkGclSwap t) s = .next u ∧ (u.tport t).pending = true ∧ (u.tport t).swapTick = s.now ∧
      (u.tport t).active = x.active := by
  subst hx
  refine ⟨_, (execTrkGclSwap_open t s hrdy hw).trans (done_next _ _), ?_⟩
  simp [State.trkSwapReg, (s.tport t).requestSwap_of_good s.now hg]

theorem exec_trkGclSwap_of_bad (t : TrunkPort) (x : TrkPort) (e : Nat) (s : State) (hrdy : s.host.mbxRdy = true)
    (hw : s.winTenant = some 0) (hx : s.tport t = x)
    (hg : trkGclErr (if x.active then x.nA else x.nB) (trkGclList (if x.active then x.gclA else x.gclB)
      (if x.active then x.nA else x.nB)) = e) (he : e ≠ 0) :
    ∃ u, exec (.trkGclSwap t) s = .next u ∧ (u.tport t).pending = false ∧ (u.tport t).gclErr = true ∧
      (u.tport t).err = BitVec.ofNat 3 e ∧ (u.tport t).irqStat.getLsbD 6 = true := by
  subst hx
  have htrk (r : Option Req) (u : State) (res : Result) : (u.finish? r res).tport t = u.tport t := by
    simp [State.tport]
  have hport : (s.trkSwapReg t).tport t =
      { s.tport t with pending := false, gclErr := true, err := BitVec.ofNat 3 e, swapReq := none }.irq 6 := by
    simp [State.trkSwapReg, (s.tport t).requestSwap_of_bad s.now e hg he, TrkPort.irq, htrk]
  refine ⟨_, (execTrkGclSwap_open t s hrdy hw).trans (done_next _ _), ?_⟩
  rw [settle_tport_get, hport]
  exact ⟨rfl, rfl, rfl, orBit_getLsbD _ 6 (by decide)⟩

/-! ### The registers of the field I/O (09 R195, R198, R200) -/

section
variable (s : State) (hrdy : s.host.mbxRdy = true) (hw : s.winTenant = some 0)
include hrdy hw

theorem execFioRelease_open : execFioRelease s = done s s.fioRelease := by
  rw [execFioRelease, s.regW_fio 8 1 hrdy hw (by decide) (by decide)]
  rfl
theorem execFioStStart_open : execFioStStart s = done s s.fioStStart := by
  rw [execFioStStart, s.regW_fio 8 2 hrdy hw (by decide) (by decide)]
  rfl
theorem execFioStStop_open : execFioStStop s = done s s.fioStStop := by
  rw [execFioStStop, s.regW_fio 8 4 hrdy hw (by decide) (by decide)]
  rfl
theorem execFioClr_open (v : Word) : execFioClr v s = done s (s.fioClr v.toNat) := by
  rw [execFioClr, s.regW_fio 0x1C v hrdy hw (by decide) (by decide)]
  rfl
/-- A command code in a motion channel's FIO_M_CMD. -/
theorem State.regW_motCmd (m : MotNo) (v : Word) :
    s.regW 0 7 (0xA00 + 64 * m.val + 0x1C) v = (s.motCmd m.val (v.toNat % 8) (s.mot m.val).target none).2 := by
  have hm : (0xA00 + 64 * m.val + 0x1C - 0xA00) / 64 = m.val := by omega
  have ho : (0xA00 + 64 * m.val + 0x1C) % 64 = 0x1C := by omega
  have hin : (decide (0xA00 ≤ 0xA00 + 64 * m.val + 0x1C) && decide (0xA00 + 64 * m.val + 0x1C < 0xC00)) = true := by
    simp; omega
  have hother (k : Nat) (hk : k < 0xA00) : ¬ 0xA00 + 64 * m.val + 0x1C = k := by omega
  have hgroup : (decide (0x30 ≤ 0xA00 + 64 * m.val + 0x1C) && decide (0xA00 + 64 * m.val + 0x1C < 0x40)) = false := by
    simp; omega
  rw [s.regW_fio _ v hrdy hw (by omega) (by omega), State.fioRegW]
  simp only [hother 8 (by decide), hother 0xC (by decide), hother 0x10 (by decide), hother 0x18 (by decide),
    hother 0x1C (by decide), hother 0x50 (by decide), hother 0x54 (by decide), hother 0x100 (by decide),
    hother 0x104 (by decide), hgroup, hin, hm, ho, if_false, if_true, Bool.false_eq_true]
  rfl
end

theorem exec_fioRelease_of_safe (s : State) (hrdy : s.host.mbxRdy = true) (hw : s.winTenant = some 0)
    (hl : s.fio.linkUp = true) (hc : s.fio.configured = true) (hs : s.fio.safe = true) :
    ∃ t, exec .fioRelease s = .next t ∧ t.fio.safe = false ∧ t.fio.cause = 0 ∧ t.fio.chans = s.fio.chans := by
  refine ⟨_, (execFioRelease_open s hrdy hw).trans (done_next _ _), ?_⟩
  simp [State.fioRelease, hl, hc, hs]

/-- A read of a map whose every entry changed, where the change keeps the default. -/
theorem sget_smap {α : Type} (d : α) (l : Map α) (f : Nat → α → α) (k : Nat) (hd : f k d = d) :
    sget d (smap l f) k = f k (sget d l k) := by
  induction l with
  | nil => exact hd.symm
  | cons e l ih =>
    obtain ⟨j, a⟩ := e
    by_cases h : j = k
    · subst h
      simp [smap, sget]
    · simpa [smap, sget, h] using ih

/-- A new pass begins with every channel's slot ended. -/
def State.passCleared (s : State) : State :=
  (s.modFio fun f => { f with stAt := s.now }).modFio fun f =>
    { f with chans := smap f.chans fun _ (x : ChanSt) => { x with stBusy := false } }

theorem State.passCleared_chan (s : State) (c : Nat) : s.passCleared.chan c = { s.chan c with stBusy := false } :=
  sget_smap ({} : ChanSt) s.fio.chans (fun _ (x : ChanSt) => { x with stBusy := false }) c rfl
/-- Which channels a pass tests does not turn on the slot under way. -/
theorem State.passCleared_stNext (s : State) (k : Nat) : s.passCleared.stNext k = s.stNext k := by
  have hskip (c : Nat) : s.passCleared.stSkips c = s.stSkips c := by
    unfold State.stSkips
    rw [s.passCleared_chan c]
    rfl
  simp only [State.stNext, hskip]

theorem exec_fioStStart_of_next (c : Nat) (s : State) (hrdy : s.host.mbxRdy = true) (hw : s.winTenant = some 0)
    (hc : s.fio.configured = true) (hn : s.stNext 0 = some c) :
    ∃ t, exec .fioStStart s = .next t ∧ t.fio.pass = some c ∧ (t.chan c).stBusy = true := by
  have hnext : s.passCleared.stNext 0 = some c := (s.passCleared_stNext 0).trans hn
  have hstart : s.fioStStart = (s.passCleared.modChan c fun x => { x with stBusy := true }).modFio fun f =>
      { f with pass := some c } := by
    simp only [State.passCleared] at hnext
    simp only [State.fioStStart, hc, if_true, State.stGo, hnext, State.passCleared]
  refine ⟨_, (execFioStStart_open s hrdy hw).trans (done_next _ _), ?_⟩
  simp [hstart, State.chan]

theorem exec_fioStStop_ends (s : State) (hrdy : s.host.mbxRdy = true) (hw : s.winTenant = some 0) :
    ∃ t, exec .fioStStop s = .next t ∧ t.fio.pass = none := by
  have hnone (u : State) : u.stNext 64 = none := by
    simp only [State.stNext, List.find?_eq_none, List.mem_range]
    intro c hc
    simp; omega
  refine ⟨_, (execFioStStop_open s hrdy hw).trans (done_next _ _), ?_⟩
  simp [State.fioStStop, State.stGo, hnone]

theorem exec_fioClr_of_latched (v : Word) (s : State) (hrdy : s.host.mbxRdy = true) (hw : s.winTenant = some 0)
    (hv : v.toNat < 64) (hl : (s.chan v.toNat).latched = true) (ho : s.motionOwns v.toNat = false) :
    ∃ t, exec (.fioClr v) s = .next t ∧ t.chan v.toNat =
      { s.chan v.toNat with latched := false, short := false, thermal := false, groupOvl := false } := by
  have hbit : v.toNat.testBit 6 = false := Nat.testBit_lt_two_pow hv
  have hclr : s.fioClr v.toNat = s.clearChan v.toNat := by
    simp [State.fioClr, hbit, Nat.mod_eq_of_lt hv]
  refine ⟨_, (execFioClr_open s hrdy hw v).trans (done_next _ _), ?_⟩
  simp [hclr, State.clearChan, hl, ho, State.modChan]

/-! ### Motion channels (09 R205 to R208) -/

@[simp] theorem State.modMot_mot (s : State) (m : Nat) (f : Motion → Motion) : (s.modMot m f).mot m = f (s.mot m) := by
  simp [State.modMot]
@[simp] theorem State.switchOn_mot (s : State) (c rank m : Nat) : (s.switchOn c rank).mot m = s.mot m := rfl
@[simp] theorem State.switchOff_mot (s : State) (c m : Nat) : (s.switchOff c).mot m = s.mot m := rfl

/-- The requests that end with a move are answered; the channel keeps the rest. -/
theorem State.moveDone_mot (s : State) (m : Nat) : (s.moveDone m).mot m = { s.mot m with reqs := [] } := by
  simp [State.moveDone, State.mot]
theorem State.rest_mot (s : State) (m : Nat) : (s.rest m).mot m = { s.mot m with
    state := if (s.mot m).fault = 0 then .idle else .fault, goal := none, next := none, reqs := [] } := by
  simp [State.rest, State.moveDone_mot]

/-- A leg goes on while the other one is off and its group is supplied. -/
theorem State.legOn_mot (s : State) (m : Nat) (home : Bool) (g : MoveGoal) (ho : (s.chan (legCh m (!home))).on = false)
    (hg : (s.group 3).missing = false) :
    (s.legOn m home g).mot m = { s.mot m with
      state := if g == .homing then .homing else if home then .home else .far
      goal := some g, next := none, lastLeg := some home, runStart := s.now } := by
  simp [State.legOn, ho, hg, State.now]

/-- A home command that is not there yet clears HOMED; no other touches the channel before it moves. -/
theorem State.homeFirst_mot (s : State) (m : Nat) (g : MoveGoal) (hmet : s.moveMet m g = false) :
    (s.homeFirst m g).mot m = if g == .homing then { s.mot m with homed := false } else s.mot m := by
  cases g with
  | homing =>
    have hlimit : s.limitOn m true = false := by simpa [State.moveMet, goalSide] using hmet
    simp [State.homeFirst, hlimit]
  | farLimit => rfl
  | homeLimit => rfl
  | target v => rfl
@[simp] theorem State.homeFirst_chan (s : State) (m : Nat) (g : MoveGoal) (c : Nat) : (s.homeFirst m g).chan c = s.chan c := by
  unfold State.homeFirst
  split <;> rfl
@[simp] theorem State.homeFirst_group (s : State) (m : Nat) (g : MoveGoal) (n : Nat) : (s.homeFirst m g).group n = s.group n := by
  unfold State.homeFirst
  split <;> rfl
@[simp] theorem State.homeFirst_now (s : State) (m : Nat) (g : MoveGoal) : (s.homeFirst m g).now = s.now := by
  unfold State.homeFirst
  split <;> rfl

/-- A pair at rest with somewhere to go switches the leg of its side on. -/
theorem State.startMove_mot_of_clear (s : State) (m : Nat) (g : MoveGoal) (hdt : (s.mot m).dtPend = false)
    (hmet : s.moveMet m g = false) (ho : (s.chan (legCh m (!goalSide (s.mot m).pos g))).on = false)
    (hsup : (s.group 3).missing = false) :
    (s.startMove m g).mot m = { (if g == .homing then { s.mot m with homed := false } else s.mot m) with
      state := if g == .homing then .homing else if goalSide (s.mot m).pos g then .home else .far
      goal := some g, next := none, lastLeg := some (goalSide (s.mot m).pos g), runStart := s.now } := by
  have hleg : s.startMove m g = (s.homeFirst m g).legOn m (goalSide (s.mot m).pos g) g := by
    simp [State.startMove, hdt, hmet]
  rw [hleg, State.legOn_mot _ _ _ _ (by simpa using ho) (by simpa using hsup), s.homeFirst_mot m g hmet, State.homeFirst_now]

/-- A home command at the home limit finds home at once. -/
theorem State.startMove_mot_of_home (s : State) (m : Nat) (hl : s.limitOn m true = true) :
    (s.startMove m .homing).mot m = { (s.mot m).atHome s.now with
      state := if (s.mot m).fault = 0 then .idle else .fault, goal := none, next := none, reqs := [] } := by
  have hmet : s.moveMet m .homing = true := by simp [State.moveMet, goalSide, hl]
  simp [State.startMove, hmet, State.homeFirst, hl, State.rest_mot, Motion.atHome]

/-- The state in which a register command's move begins: no request waits for it. -/
def State.unasked (s : State) (m : Nat) : State := s.modMot m fun y => { y with reqs := y.reqs ++ (none : Option Req).toList }
@[simp] theorem State.unasked_mot (s : State) (m : Nat) : (s.unasked m).mot m = s.mot m := by
  simp [State.unasked]
theorem State.unasked_limitOn (s : State) (m n : Nat) (home : Bool) : (s.unasked m).limitOn n home = s.limitOn n home := rfl
theorem State.unasked_moveMet (s : State) (m : Nat) (g : MoveGoal) : (s.unasked m).moveMet m g = s.moveMet m g := by
  simp only [State.moveMet, State.unasked_mot, State.unasked_limitOn]

/-- A move of a supplied pair at rest starts; a position target asks for a channel that counts and has been homed. -/
theorem State.move_of_idle (s : State) (m : Nat) (g : MoveGoal) (c : MotCfg) (hc : s.motCfg? m = some c)
    (hsafe : s.fio.safe = false) (hsup : (s.group 3).missing = false) (hfault : (s.mot m).fault = 0)
    (hidle : (s.mot m).state = .idle) (ht : ∀ v, g = .target v → (s.mot m).homed = true ∧ c.pulse = true) :
    (s.move m g none).2 = (s.unasked m).startMove m g := by
  have hblocked : (s.mot m).blocked (goalSide (s.mot m).pos g) = false := by simp [Motion.blocked, hfault]
  have hmoving : (s.mot m).moving = false := by simp [Motion.moving, hidle]
  cases g with
  | target v =>
    obtain ⟨hhomed, hpulse⟩ := ht v rfl
    simp [State.move, State.unasked, hc, hhomed, hpulse, hsafe, hsup, hblocked, hmoving, hidle]
  | farLimit => simp [State.move, State.unasked, hc, hsafe, hsup, hblocked, hmoving, hidle]
  | homeLimit => simp [State.move, State.unasked, hc, hsafe, hsup, hblocked, hmoving, hidle]
  | homing => simp [State.move, State.unasked, hc, hsafe, hsup, hblocked, hmoving, hidle]

/-- What a move of a supplied pair at rest, that has somewhere to go, makes of its channel. -/
theorem State.move_mot_of_clear (s : State) (m : Nat) (g : MoveGoal) (c : MotCfg) (hc : s.motCfg? m = some c)
    (hsafe : s.fio.safe = false) (hsup : (s.group 3).missing = false) (hfault : (s.mot m).fault = 0)
    (hidle : (s.mot m).state = .idle) (ht : ∀ v, g = .target v → (s.mot m).homed = true ∧ c.pulse = true)
    (hdt : (s.mot m).dtPend = false) (hmet : s.moveMet m g = false)
    (ho : (s.chan (legCh m (!goalSide (s.mot m).pos g))).on = false) :
    (s.move m g none).2.mot m = { (if g == .homing then { s.mot m with homed := false } else s.mot m) with
      state := if g == .homing then .homing else if goalSide (s.mot m).pos g then .home else .far
      goal := some g, next := none, lastLeg := some (goalSide (s.mot m).pos g), runStart := s.now } := by
  have hmot := s.unasked_mot m
  rw [s.move_of_idle m g c hc hsafe hsup hfault hidle ht,
    (s.unasked m).startMove_mot_of_clear m g (by rw [hmot, hdt]) ((s.unasked_moveMet m g).trans hmet) (by rw [hmot]; exact ho)
      hsup, hmot]
  rfl

/-- A stop of a running pair: its coast and its dead time begin. -/
theorem State.motStop_mot_of_moving (s : State) (m : Nat) (h : (s.mot m).moving = true) :
    (s.motStop m).mot m = { s.mot m with
      next := none, state := .coasting, runTicks := s.now - (s.mot m).runStart, coast := 0, dtPend := true, goal := none } := by
  have hmoving : Motion.moving { s.mot m with next := none } = true := h
  simp [State.motStop, hmoving, State.legOff, State.now]

/-- The stop command of a running pair. -/
theorem State.motCmd_stop_of_moving (s : State) (m : Nat) (v : V24) (h : (s.mot m).moving = true) :
    (s.motCmd m 4 v none).2 = (s.unasked m).motStop m := by
  have hmot := (s.unasked m).motStop_mot_of_moving m (by rw [State.unasked_mot, h])
  have hstopped : (((s.unasked m).motStop m).mot m).state = .coasting := by rw [hmot]
  have hrun : ¬ ((s.mot m).state == .coasting) = true := by
    intro hc
    simp [Motion.moving, eq_of_beq hc] at h
  simp only [State.motCmd]
  rw [if_neg hrun]
  exact if_pos (beq_iff_eq.2 hstopped)

section
variable (m : MotNo) (s : State) (hrdy : s.host.mbxRdy = true) (hw : s.winTenant = some 0)
include hrdy hw

/-- A command code written to FIO_M_CMD leaves the channel as the command does. -/
theorem mot_of_regW_motCmd (v : Word) :
    (settle s (s.regW 0 7 (0xA00 + 64 * m.val + 0x1C) v)).mot m.val =
      (s.motCmd m.val (v.toNat % 8) (s.mot m.val).target none).2.mot m.val := by
  rw [settle_mot_get, State.regW_motCmd s hrdy hw m v]

theorem exec_fioMStop_of_far (x : Motion) (hx : s.mot m.val = x) (hfar : x.state = .far) :
    ∃ t, exec (.fioMStop m) s = .next t ∧ (t.mot m.val).state = .coasting ∧ (t.mot m.val).coast = 0 ∧
      (t.mot m.val).dtPend = true ∧ (t.mot m.val).goal = none ∧ (t.mot m.val).next = none := by
  subst hx
  have hmoving : (s.mot m.val).moving = true := by simp [Motion.moving, hfar]
  refine ⟨_, done_next _ _, ?_⟩
  rw [mot_of_regW_motCmd m s hrdy hw 4, show (4 : Word).toNat % 8 = 4 from rfl, s.motCmd_stop_of_moving m.val _ hmoving,
    (s.unasked m.val).motStop_mot_of_moving m.val (by rw [State.unasked_mot, hmoving])]
  exact ⟨rfl, rfl, rfl, rfl, rfl⟩

theorem exec_fioMClearFault_of_fault (hf : (s.mot m.val).state = .fault) :
    ∃ t, exec (.fioMClearFault m) s = .next t ∧ (t.mot m.val).state = .idle ∧ (t.mot m.val).fault = 0 ∧
      (t.mot m.val).legFar = false ∧ (t.mot m.val).legHome = false := by
  have hmot (u : State) (c : Nat) (f : ChanSt → ChanSt) : (u.modChan c f).mot m.val = u.mot m.val := rfl
  refine ⟨_, done_next _ _, ?_⟩
  rw [mot_of_regW_motCmd m s hrdy hw 6]
  simp [State.motCmd, State.motClear, State.motAns, State.finish?, hmot, hf]

theorem exec_fioMResetCoast_resets :
    ∃ t, exec (.fioMResetCoast m) s = .next t ∧ (t.mot m.val).lFar = 0 ∧ (t.mot m.val).lHome = 0 ∧
      (t.mot m.val).nFar = 0 ∧ (t.mot m.val).nHome = 0 ∧ (t.mot m.val).pos = (s.mot m.val).pos := by
  refine ⟨_, done_next _ _, ?_⟩
  rw [mot_of_regW_motCmd m s hrdy hw 7]
  simp [State.motCmd, State.motAns, State.finish?, Motion.resetCoast]
end

section
variable (m : MotNo) (c : MotCfg) (x : Motion) (s : State) (hrdy : s.host.mbxRdy = true) (hw : s.winTenant = some 0)
  (hc : s.motCfg? m.val = some c) (hsafe : s.fio.safe = false) (hsup : (s.group 3).missing = false)
include hrdy hw hc hsafe hsup

section
variable (hside : (s.chan (legCh m.val false)).on = false) (hx : s.mot m.val = x) (hfault : x.fault = 0)
  (hidle : x.state = .idle) (hdt : x.dtPend = false) (hl : s.limitOn m.val true = false)
include hside hx hfault hidle hdt hl

theorem exec_fioMHomeDirection_of_idle :
    ∃ t, exec (.fioMHomeDirection m) s = .next t ∧ (t.mot m.val).state = .home ∧ (t.mot m.val).goal = some .homeLimit ∧
      (t.mot m.val).lastLeg = some true ∧ (t.mot m.val).runStart = s.now := by
  subst hx
  have hmet : s.moveMet m.val .homeLimit = false := by simp [State.moveMet, goalSide, hl]
  have hcmd : s.motCmd m.val ((2 : Word).toNat % 8) (s.mot m.val).target none = s.move m.val .homeLimit none := rfl
  refine ⟨_, done_next _ _, ?_⟩
  rw [mot_of_regW_motCmd m s hrdy hw 2, hcmd,
    s.move_mot_of_clear m.val .homeLimit c hc hsafe hsup hfault hidle (fun v h => by cases h) hdt hmet hside]
  exact ⟨rfl, rfl, rfl, rfl⟩

theorem exec_fioMHome_of_idle :
    ∃ t, exec (.fioMHome m) s = .next t ∧ (t.mot m.val).state = .homing ∧ (t.mot m.val).homed = false ∧
      (t.mot m.val).goal = some .homing ∧ (t.mot m.val).lastLeg = some true := by
  subst hx
  have hmet : s.moveMet m.val .homing = false := by simp [State.moveMet, goalSide, hl]
  have hcmd : s.motCmd m.val ((5 : Word).toNat % 8) (s.mot m.val).target none = s.move m.val .homing none := rfl
  refine ⟨_, done_next _ _, ?_⟩
  rw [mot_of_regW_motCmd m s hrdy hw 5, hcmd,
    s.move_mot_of_clear m.val .homing c hc hsafe hsup hfault hidle (fun v h => by cases h) hdt hmet hside]
  exact ⟨rfl, rfl, rfl, rfl⟩
end

theorem exec_fioMFar_of_idle (hside : (s.chan (legCh m.val true)).on = false) (hx : s.mot m.val = x) (hfault : x.fault = 0)
    (hidle : x.state = .idle) (hdt : x.dtPend = false) (hl : s.limitOn m.val false = false) :
    ∃ t, exec (.fioMFar m) s = .next t ∧ (t.mot m.val).state = .far ∧ (t.mot m.val).goal = some .farLimit ∧
      (t.mot m.val).lastLeg = some false ∧ (t.mot m.val).runStart = s.now := by
  subst hx
  have hmet : s.moveMet m.val .farLimit = false := by simp [State.moveMet, goalSide, hl]
  have hcmd : s.motCmd m.val ((1 : Word).toNat % 8) (s.mot m.val).target none = s.move m.val .farLimit none := rfl
  refine ⟨_, done_next _ _, ?_⟩
  rw [mot_of_regW_motCmd m s hrdy hw 1, hcmd,
    s.move_mot_of_clear m.val .farLimit c hc hsafe hsup hfault hidle (fun v h => by cases h) hdt hmet hside]
  exact ⟨rfl, rfl, rfl, rfl⟩

theorem exec_fioMHome_of_home (hx : s.mot m.val = x) (hfault : x.fault = 0) (hidle : x.state = .idle)
    (hl : s.limitOn m.val true = true) :
    ∃ t, exec (.fioMHome m) s = .next t ∧ (t.mot m.val).state = .idle ∧ (t.mot m.val).homed = true ∧
      (t.mot m.val).pos = 0 := by
  subst hx
  have hcmd : s.motCmd m.val ((5 : Word).toNat % 8) (s.mot m.val).target none = s.move m.val .homing none := rfl
  refine ⟨_, done_next _ _, ?_⟩
  rw [mot_of_regW_motCmd m s hrdy hw 5, hcmd,
    s.move_of_idle m.val .homing c hc hsafe hsup hfault hidle (fun v h => by cases h),
    (s.unasked m.val).startMove_mot_of_home m.val hl, State.unasked_mot, if_pos hfault]
  exact ⟨rfl, rfl, rfl⟩
end

theorem exec_fioMGoto_of_idle (m : MotNo) (c : MotCfg) (x : Motion) (h : Bool) (s : State) (hrdy : s.host.mbxRdy = true)
    (hw : s.winTenant = some 0) (hc : s.motCfg? m.val = some c) (hpulse : c.pulse = true) (hsafe : s.fio.safe = false)
    (hsup : (s.group 3).missing = false) (hside : (s.chan (legCh m.val (!h))).on = false) (hx : s.mot m.val = x)
    (hhomed : x.homed = true) (hfault : x.fault = 0) (hidle : x.state = .idle) (hdt : x.dtPend = false)
    (hgoal : decide (x.target.toInt < x.pos.toInt) = h) (hl : s.limitOn m.val h = false)
    (hfar : (x.learned h : Int) < (if h then x.pos.toInt - x.target.toInt else x.target.toInt - x.pos.toInt)) :
    ∃ t, exec (.fioMGoto m) s = .next t ∧ (t.mot m.val).state = (if h then .home else .far) ∧
      (t.mot m.val).goal = some (.target x.target) ∧ (t.mot m.val).lastLeg = some h ∧ (t.mot m.val).pos = x.pos := by
  subst hx
  have hgside : goalSide (s.mot m.val).pos (.target (s.mot m.val).target) = h := hgoal
  have hmet : s.moveMet m.val (.target (s.mot m.val).target) = false := by
    have hrest : ¬ remaining (s.mot m.val).pos (s.mot m.val).target h ≤ (s.mot m.val).learned h := Int.not_le.mpr hfar
    simp only [State.moveMet, hgside, hl, hrest, decide_false, Bool.or_self]
  have hcmd : s.motCmd m.val ((3 : Word).toNat % 8) (s.mot m.val).target none =
      s.move m.val (.target (s.mot m.val).target) none := rfl
  refine ⟨_, done_next _ _, ?_⟩
  rw [mot_of_regW_motCmd m s hrdy hw 3, hcmd, s.move_mot_of_clear m.val (.target (s.mot m.val).target) c hc hsafe hsup hfault
    hidle (fun _ _ => ⟨hhomed, hpulse⟩) hdt hmet (by rw [hgside]; exact hside), hgside]
  exact ⟨rfl, rfl, rfl, rfl⟩

/-! ### The meters' self-test (10 R227) -/

theorem exec_mtrStStart_starts (s : State) (hrdy : s.host.mbxRdy = true) (hw : s.winTenant = some 0) :
    ∃ t, exec .mtrStStart s = .next t ∧ t.mtr.stActive = true ∧ t.mtr.stNext = some 0 ∧ t.mtr.stInput = 0 ∧
      t.mtr.stAt = s.now := by
  have hstart : s.regW 0 8 8 1 = s.stStart := s.regW_mtr 8 1 hrdy hw (by decide) (by decide)
  refine ⟨_, done_next _ _, ?_⟩
  rw [hstart, settle_mtr]
  exact ⟨rfl, rfl, rfl, rfl⟩

theorem exec_mtrStStop_stops (s : State) (hrdy : s.host.mbxRdy = true) (hw : s.winTenant = some 0) :
    ∃ t, exec .mtrStStop s = .next t ∧ t.mtr.stActive = false ∧ t.mtr.stNext = none := by
  have hstop : s.regW 0 8 8 2 = s.stStop := s.regW_mtr 8 2 hrdy hw (by decide) (by decide)
  refine ⟨_, done_next _ _, ?_⟩
  rw [hstop, settle_mtr]
  exact ⟨rfl, rfl⟩

/-- Settles O38: one lemma for each register command, in the state where it applies. -/
theorem portAndFieldRegistersTakeEffect : Obligations.PortAndFieldRegistersTakeEffect :=
  ⟨exec_brpCtrlWrite_enables, exec_brpCtrlWrite_disables, exec_brpGclSwap_of_good, exec_brpGclSwap_of_bad,
    exec_trkCtrlWrite_enables, exec_trkCtrlWrite_disables, exec_trkGclSwap_of_good, exec_trkGclSwap_of_bad,
    exec_fioRelease_of_safe, exec_fioStStart_of_next, exec_fioStStop_ends, exec_fioClr_of_latched, exec_fioMFar_of_idle,
    exec_fioMHomeDirection_of_idle, exec_fioMGoto_of_idle,
    fun m x s hrdy hw => exec_fioMStop_of_far m s hrdy hw x, exec_fioMHome_of_idle, exec_fioMHome_of_home,
    exec_fioMClearFault_of_fault, exec_fioMResetCoast_resets, exec_mtrStStart_starts, exec_mtrStStop_stops⟩

end Sys2Proof.Machine

/-! What dormancy does to a branch port, and the events of a leaf node (O34). -/
namespace Sys2Proof.Machine

/-! ### Dormancy of a port (04 R86, R90, R92) -/

/-- The rota of the dormant roll calls: the next subset's first address, its length, and the dormant period. -/
abbrev SameRota (p : Nat) (t s : State) : Prop :=
  (t.port p).rcf = (s.port p).rcf ∧ (t.port p).rcn = (s.port p).rcn ∧ (t.port p).period = (s.port p).period
theorem SameRota.refl (p : Nat) (s : State) : SameRota p s s := ⟨rfl, rfl, rfl⟩
theorem SameRota.trans {p : Nat} {a b c : State} (h : SameRota p a b) (g : SameRota p b c) : SameRota p a c := by
  obtain ⟨hrcf, hrcn, hperiod⟩ := h
  obtain ⟨grcf, grcn, gperiod⟩ := g
  exact ⟨hrcf.trans grcf, hrcn.trans grcn, hperiod.trans gperiod⟩
theorem State.modNode_sameRota (s : State) (p a : Nat) (f : CtlNode → CtlNode) : SameRota p (s.modNode p a f) s := by
  rw [SameRota, State.modNode, State.port_modPort]
  exact ⟨rfl, rfl, rfl⟩
theorem State.markMissing_sameRota (s : State) (p a : Nat) : SameRota p (s.markMissing p a) s := by
  have hports : (s.markMissing p a).ports = (s.modNode p a fun n => { n with state := .missing, markedAt := s.now }).ports := by
    simp [State.markMissing]
  rw [SameRota, State.port_congr hports]
  exact s.modNode_sameRota p a _
theorem State.markLost_sameRota (s : State) (p a : Nat) : SameRota p (s.markLost p a) s := by
  have hports : (s.markLost p a).ports = (s.modNode p a fun n => { n with state := .lost }).ports := by
    simp [State.markLost]
  rw [SameRota, State.port_congr hports]
  exact s.modNode_sameRota p a _

/-- A judgement writes into the port's records of its nodes, and the rota goes on as it stood (04 R90). -/
theorem State.judge_sameRota (s : State) (p : Nat) (l : List Nat) : SameRota p (s.judge p l) s := by
  induction l generalizing s with
  | nil => exact SameRota.refl p s
  | cons a l ih =>
    unfold State.judge
    refine (ih _).trans ?_
    have hasked := s.modNode_sameRota p a fun n => { n with asked := false, missedRc := n.missedRc + 1 }
    dsimp only
    split
    · exact SameRota.refl p s
    split
    · split
      · exact (State.markLost_sameRota _ p a).trans hasked
      · exact hasked
    · exact hasked
    · split
      · exact (State.markMissing_sameRota _ p a).trans hasked
      · exact hasked

theorem State.judgeSubset_sameRota (s : State) (p : Nat) : SameRota p (s.judgeSubset p) s := s.judge_sameRota p _
theorem State.recallBeacon_sameRota (s : State) (p : Nat) : SameRota p (s.modPort p BrPort.recallBeacon) s := by
  obtain ⟨l, hl⟩ := (s.port p).recallBeacon_eq
  rw [SameRota, State.port_modPort, hl]
  exact ⟨rfl, rfl, rfl⟩
theorem State.takeOutputs_sameRota (s : State) (p : Nat) : SameRota p (s.takeOutputs p).2 s := by
  simp only [SameRota, State.takeOutputs, State.port_setPort, and_self]

/-- A beacon on the line leaves the port's dormant timing. -/
theorem BrPort.sendBeacon_dormant (x : BrPort) (b : Beacon) :
    (x.sendBeacon b).dormAt = x.dormAt ∧ (x.sendBeacon b).subset = x.subset ∧ (x.sendBeacon b).nextCycle = x.nextCycle := by
  unfold BrPort.sendBeacon
  dsimp only
  split <;> exact ⟨rfl, rfl, rfl⟩

theorem exec_dormancyEntry_of_scheduled (p : Port) (s : State) (hr : (s.port p.val).running = true)
    (hd : (s.port p.val).dormant = false) (hw : (s.port p.val).woke = false) (ht : (s.port p.val).train = none)
    (he : (s.port p.val).dormEn = true)
    (hs : inSchedule (s.port p.val).dormStart (s.port p.val).dormStop s.localMinute = true)
    (hc : (s.port p.val).nextCycle ≤ s.now) :
    ∃ t, exec (.dormancyEntry p) s = .next t ∧ (t.port p.val).dormant = true ∧ (t.port p.val).rcf = 1 ∧
      (t.port p.val).subset = (0, 0) := by
  show ∃ t, execDormancyEntry p s = .next t ∧ _
  simp only [execDormancyEntry, hr, hd, hw, ht, he, hs, hc, Option.isNone_none, Bool.not_false, Bool.and_self, decide_true,
    if_true, done_eq, exists_eq_left', settle_port_get, State.port_congr (State.brEvent_ports _ _ _ _), State.port_modPort,
    and_self]

theorem exec_dormantBeacon_of_due (p : Port) (s : State) (hr : (s.port p.val).running = true)
    (hd : (s.port p.val).dormant = true) (hc : (s.port p.val).nextCycle ≤ s.now) :
    ∃ t, exec (.dormantBeacon p) s = .next t ∧ (t.port p.val).dormAt = s.now ∧
      (t.port p.val).subset = ((s.port p.val).rcf, min (s.port p.val).rcn (250 - (s.port p.val).rcf + 1)) ∧
      (t.port p.val).nextCycle = s.now + msTicks (s.port p.val).period := by
  obtain ⟨hrcf, hrcn, hperiod⟩ := (State.takeOutputs_sameRota _ p.val).trans
    ((State.recallBeacon_sameRota _ p.val).trans (s.judgeSubset_sameRota p.val))
  show ∃ t, execDormantBeacon p s = .next t ∧ _
  simp only [execDormantBeacon, hr, hd, hc, Bool.and_self, decide_true, if_true, done_eq, exists_eq_left', settle_port_get,
    State.port_setPort, BrPort.sendBeacon_dormant, hrcf, hrcn, hperiod, and_self]

theorem exec_wakeTrainStart_of_woke (p : Port) (s : State) (hr : (s.port p.val).running = true)
    (hw : (s.port p.val).woke = true) (ht : (s.port p.val).train = none) :
    ∃ t, exec (.wakeTrainStart p) s = .next t ∧ (t.port p.val).train = some s.now := by
  show ∃ t, execWakeTrainStart p s = .next t ∧ _
  simp [execWakeTrainStart, hr, hw, ht, done_eq]

theorem exec_wakePulse_of_dormant (p : Port) (s : State) (hd : (s.port p.val).dormant = true) :
    ∃ t, exec (.wakePulse p) s = .next t ∧ (t.port p.val).dormant = false ∧ (t.port p.val).woke = true ∧
      (t.port p.val).nextCycle = s.now := by
  show ∃ t, execWakePulse p s = .next t ∧ _
  simp [execWakePulse, hd, done_eq, State.port_congr (State.brEvent_ports _ _ _ _), BrPort.wakeUp]

theorem exec_dormancyEnd_of_disabled (p : Port) (s : State) (hd : (s.port p.val).dormant = true)
    (he : (s.port p.val).dormEn = false) :
    ∃ t, exec (.dormancyEnd p) s = .next t ∧ (t.port p.val).dormant = false := by
  show ∃ t, execDormancyEnd p s = .next t ∧ _
  simp [execDormancyEnd, hd, he, done_eq, BrPort.wakeUp]

/-! ### What a node hears and takes (03 R51, 04 Table 04.6) -/

/-- A command that changes one known node leaves that node as the change makes it. -/
theorem exec_of_modLeaf {c : Instr} {u : Uid} {n m : Node} {f : Node → Node} {s : State}
    (hexec : exec c s = done s (s.modLeaf u f)) (hn : s.node? u = some n) (hf : f n = m) :
    ∃ t, exec c s = .next t ∧ t.node? u = some m :=
  ⟨_, hexec, by rw [settle_nodeOf_get, s.modLeaf_node u n f hn, hf]⟩

/-- The receiver is off in DSLEEP, and in fallback between sniffs; in every other state it hears. -/
theorem Node.hears_of_mode (n : Node) (hsleep : n.mode ≠ .dsleep) (hfall : n.mode ≠ .fallback) : n.hears = true := by
  unfold Node.hears
  split
  · exact absurd ‹_› hsleep
  · exact absurd ‹_› hfall
  · rfl

theorem Node.addr_of_plan (n : Node) (q : Plan) (h : n.plan = some q) : n.addr = some q.addr := by
  rw [Node.addr, h, Option.map_some]

theorem Node.takes_of_hears (n : Node) (dst : Byte) (hp : n.plan.isSome = true) (hh : n.hears = true)
    (hd : some dst = n.addr ∨ dst = 0xFF) : n.takes dst = true := by
  simp only [Node.takes, hp, hh, Bool.and_self, Bool.true_and, Bool.or_eq_true, beq_iff_eq]
  exact hd

/-- A stored plan's address, or 255, is a destination that the node takes. -/
theorem Node.takes_of_plan (n : Node) (dst : Byte) (q : Plan) (hp : n.plan = some q) (hh : n.hears = true)
    (hd : dst = q.addr ∨ dst = 0xFF) : n.takes dst = true :=
  n.takes_of_hears dst (by rw [hp, Option.isSome_some]) hh
    (hd.imp_left fun h => by rw [n.addr_of_plan q hp, h])

/-! ### Power-up, claim and assignment (04 R72, R76, R93) -/

@[simp] theorem Node.keyed_plan (n : Node) (key : Option (BitVec 256)) : (n.keyed key).plan = n.plan := by
  cases key <;> rfl

theorem exec_nodePowerUp_of_planned (p : Port) (uid : Uid) (cls : Byte) (chmap : List Byte) (factory fault : Bool)
    (key : Option (BitVec 256)) (timer : Nat) (n : Node) (q : Plan) (s : State) (hn : s.node? uid = some n)
    (hq : n.plan = some q) (hf : factory = false) :
    ∃ t, exec (.nodePowerUp p uid cls chmap factory fault key timer) s = .next t ∧ (∃ m, t.node? uid = some m ∧
      m.mode = .sync ∧ m.plan = some q ∧ m.port = p.val ∧ m.cls = cls ∧ m.chmap = chmap ∧ m.fault = fault ∧
      m.fbFrom = timer) := by
  show ∃ t, execNodePowerUp p uid cls chmap factory fault key timer s = .next t ∧ _
  simp [execNodePowerUp, hn, hq, hf, done_eq]

theorem exec_nodePowerUp_of_factory (p : Port) (uid : Uid) (cls : Byte) (chmap : List Byte) (factory fault : Bool)
    (key : Option (BitVec 256)) (timer : Nat) (s : State) (hf : factory = true) :
    ∃ t, exec (.nodePowerUp p uid cls chmap factory fault key timer) s = .next t ∧ (∃ m, t.node? uid = some m ∧
      m.mode = .unaddr ∧ m.plan = none ∧ m.port = p.val ∧ m.cls = cls ∧ m.chmap = chmap) := by
  show ∃ t, execNodePowerUp p uid cls chmap factory fault key timer s = .next t ∧ _
  simp [execNodePowerUp, hf, done_eq]

theorem exec_nodePowerUp_of_unknown (p : Port) (uid : Uid) (cls : Byte) (chmap : List Byte) (factory fault : Bool)
    (key : Option (BitVec 256)) (timer : Nat) (s : State) (hn : s.node? uid = none) :
    ∃ t, exec (.nodePowerUp p uid cls chmap factory fault key timer) s = .next t ∧ (∃ m, t.node? uid = some m ∧
      m.mode = .unaddr ∧ m.plan = none ∧ m.port = p.val ∧ m.cls = cls ∧ m.chmap = chmap) := by
  show ∃ t, execNodePowerUp p uid cls chmap factory fault key timer s = .next t ∧ _
  simp [execNodePowerUp, hn, done_eq]

/-- The claim slot is the free draw, taken modulo NSLOT. -/
theorem exec_nodeClaimBroadcastRx_of_open (uid : Uid) (nslot : Byte) (slotbt : Nat) (claimOpen : Bool) (timer : Nat)
    (n : Node) (s : State) (hn : s.node? uid = some n) (hm : n.mode = .unaddr) (ho : claimOpen = true)
    (hs : 0 < nslot.toNat) :
    ∃ t, exec (.nodeClaimBroadcastRx uid nslot slotbt claimOpen timer) s = .next t ∧ (∃ k, t.node? uid = some
      { n with claimR := some k, claimAt := timer + k * slotbt } ∧ k < nslot.toNat) := by
  have hslots : (nslot != 0) = true := by
    rw [bne_iff_ne]
    rintro rfl
    exact absurd hs (by decide)
  show ∃ t, execNodeClaimBroadcastRx uid nslot slotbt claimOpen timer s = .next t ∧ _
  simp only [execNodeClaimBroadcastRx, hn, hm, ho, hslots, beq_self_eq_true, Bool.and_self, if_true, done_eq,
    exists_eq_left', settle_nodeOf_get, State.node?_setNode]
  exact ⟨s.draw.1 % nslot.toNat, rfl, Nat.mod_lt _ hs⟩

theorem exec_nodeClaimSlot_of_due (uid : Uid) (timer : Nat) (n : Node) (s : State) (hn : s.node? uid = some n)
    (hc : n.claimR.isSome = true) (ht : n.claimAt ≤ timer) :
    ∃ t, exec (.nodeClaimSlot uid timer) s = .next t ∧ t.node? uid = some
      { n with claimR := none, sent := .claim uid n.cls n.chmap, coll := 0, backoff := none } :=
  exec_of_modLeaf rfl hn (by simp [hc, ht, Node.send])

theorem exec_nodeAssignRx_of_unaddressed (uid : Uid) (dst : Byte) (target : Uid) (plan : Plan) (timer : Nat) (n : Node)
    (s : State) (hn : s.node? uid = some n) (ht : target = uid) (hd : dst = 0xFF) (hm : n.mode = .unaddr)
    (h1 : 1 ≤ plan.addr.toNat) (h250 : plan.addr.toNat ≤ 250) :
    ∃ t, exec (.nodeAssignRx uid dst target plan timer) s = .next t ∧ t.node? uid = some
      { n with plan := some plan, rollDue := true, claimR := none, fbFrom := timer, mode := .sync } := by
  have hhears : n.hears = true := n.hears_of_mode (by simp [hm]) (by simp [hm])
  have haddr : plan.addr ≠ 0#8 := by
    intro h
    rw [h] at h1
    exact absurd h1 (by decide)
  have hlow : ¬ 250 < plan.addr.toNat := Nat.not_lt.mpr h250
  exact exec_of_modLeaf rfl hn (by simp [hhears, hd, haddr, ht, hlow, hm])

theorem exec_nodeAssignRx_of_erasure (uid : Uid) (dst : Byte) (target : Uid) (plan : Plan) (timer : Nat) (n : Node)
    (q : Plan) (s : State) (hn : s.node? uid = some n) (ht : target = uid) (hh : n.hears = true) (hq : n.plan = some q)
    (hd : dst = q.addr) (ha : plan.addr = 0) :
    ∃ t, exec (.nodeAssignRx uid dst target plan timer) s = .next t ∧ t.node? uid = some
      { n with plan := none, mode := .unaddr, rollDue := false, claimR := none } :=
  exec_of_modLeaf rfl hn (by simp [hh, n.addr_of_plan q hq, hd, ha, ht, Node.clear])

/-! ### Beacons, slots and outputs (04 R73, R78, R80, R82) -/

/-- A node with no offline decision to tell has nothing to report when beacons return. -/
theorem Node.reportOffline_of_nil (n : Node) (h : n.offlineQ = []) : n.reportOffline = n := by
  unfold Node.reportOffline
  rw [h]

/-- An active beacon without sub-frames: the node in SYNC is active, in time, and answers the roll call. -/
theorem Node.beacon_of_sync (n : Node) (a : Byte) (b : Beacon) (timer : Nat) (hm : n.mode = .sync) (hd : b.dormant = false)
    (hs : b.subs = []) :
    (n.beacon a b timer).mode = .active ∧ (n.beacon a b timer).heard = true ∧ (n.beacon a b timer).cyc8 = b.cyc8 ∧
      (n.beacon a b timer).rollDue = true ∧ (n.beacon a b timer).inFallback = false ∧
      (n.beacon a b timer).beaconAt = timer ∧ (n.beacon a b timer).fbFrom = timer + frameBits (.beacon b) ∧
      (n.beacon a b timer).offlineQ = n.offlineQ := by
  simp [Node.beacon, hm, hd, hs, Node.applySubs]

theorem exec_nodeBeaconRx_of_sync (uid : Uid) (b : Beacon) (timer : Nat) (n : Node) (q : Plan) (s : State)
    (hn : s.node? uid = some n) (hq : n.plan = some q) (hm : n.mode = .sync) (hd : b.dormant = false) (hs : b.subs = [])
    (ho : n.offlineQ = []) :
    ∃ t, exec (.nodeBeaconRx uid b timer) s = .next t ∧ (∃ m, t.node? uid = some m ∧ m.mode = .active ∧ m.heard = true ∧
      m.cyc8 = b.cyc8 ∧ m.rollDue = true ∧ m.inFallback = false ∧ m.beaconAt = timer ∧
      m.fbFrom = timer + frameBits (.beacon b)) := by
  have hhears : n.hears = true := n.hears_of_mode (by simp [hm]) (by simp [hm])
  obtain ⟨hmode, hheard, hcyc, hroll, hfall, hat, hfrom, hoff⟩ := n.beacon_of_sync q.addr b timer hm hd hs
  obtain ⟨t, ht, hnode⟩ := exec_of_modLeaf (c := .nodeBeaconRx uid b timer) rfl hn rfl
  simp only [n.addr_of_plan q hq, hhears, if_true, Node.reportOffline_of_nil _ (hoff.trans ho)] at hnode
  exact ⟨t, ht, _, hnode, hmode, hheard, hcyc, hroll, hfall, hat, hfrom⟩

section
variable (uid : Uid) (first : Nat) (vals : List ChanVal) (n : Node) (q : Plan) (s : State) (hn : s.node? uid = some n)
  (hq : n.plan = some q) (hm : n.mode = .active) (hh : n.heard = true) (hc : n.cyc8.toNat % q.every = q.phase)
include hn hq hm hh hc

theorem exec_nodeSlotStart_reports (hroll : n.rollDue = false) :
    ∃ t, exec (.nodeSlotStart uid first vals) s = .next t ∧ t.node? uid = some
      { n with
        sent := .report first (reportVals n.evVals first vals), evVals := [], heard := false, coll := 0, backoff := none } :=
  exec_of_modLeaf rfl hn (by simp [hq, hm, hh, hc, hroll, Node.report, Node.send])

theorem exec_nodeSlotStart_answers (hroll : n.rollDue = true) :
    ∃ t, exec (.nodeSlotStart uid first vals) s = .next t ∧ t.node? uid = some
      { n with
        sent := .rollcall uid n.cls (n.stat ||| if n.fault then 4 else 0), rollDue := false, stat := 0, heard := false
        coll := 0, backoff := none } :=
  exec_of_modLeaf rfl hn (by simp [hq, hm, hh, hc, hroll, Node.rollcall, Node.send])
end

theorem exec_nodeOutputRx_of_one (uid : Uid) (dst : Byte) (first : Nat) (vals : List V24) (n : Node) (v : V24) (q : Plan)
    (s : State) (hn : s.node? uid = some n) (hm : n.mode = .active) (hq : n.plan = some q) (hd : dst = q.addr ∨ dst = 0xFF)
    (hv : vals = [v]) (hf : first < 64) (ho : n.isOutput first = true) :
    ∃ t, exec (.nodeOutputRx uid dst first vals) s = .next t ∧ t.node? uid = some
      { n with outputs := sput n.outputs first v, halt := none } := by
  have htakes : n.takes dst = true := n.takes_of_plan dst q hq (n.hears_of_mode (by simp [hm]) (by simp [hm])) hd
  have hfits : first + 1 ≤ 64 := hf
  exact exec_of_modLeaf rfl hn (by simp [htakes, hv, hfits, Node.apply, ho])

/-! ### Fallback, the beacon's window, seek, sniffing and waking (04 R84, R88, R91, R92) -/

theorem exec_nodeFallbackTimeout_of_active (uid : Uid) (timer : Nat) (n : Node) (q : Plan) (s : State)
    (hn : s.node? uid = some n) (hm : n.mode = .active) (hq : n.plan = some q)
    (ht : 1000000 * q.fbt ≤ n.since n.fbFrom timer) :
    ∃ t, exec (.nodeFallbackTimeout uid timer) s = .next t ∧ (∃ m, t.node? uid = some m ∧ m.mode = .fallback ∧
      m.inFallback = true ∧ m.plan = n.plan) := by
  have hfall : ∃ t, exec (.nodeFallbackTimeout uid timer) s = .next t ∧
      t.node? uid = some { n.fallback with sniff := false } :=
    exec_of_modLeaf rfl hn (by simp [hm, hq, ht])
  obtain ⟨t, ht, hnode⟩ := hfall
  exact ⟨t, ht, _, hnode, rfl, rfl, rfl⟩

theorem exec_nodeWindowOpen_of_due (uid : Uid) (timer : Nat) (n : Node) (s : State) (hn : s.node? uid = some n)
    (hm : n.mode = .dsleep) (ht : n.predicted ≤ n.since n.beaconAt timer + n.guard) :
    ∃ t, exec (.nodeWindowOpen uid timer) s = .next t ∧ t.node? uid = some { n with mode := .dlisten } :=
  exec_of_modLeaf rfl hn (by simp [hm, ht])

theorem exec_nodeWindowClose_of_due (uid : Uid) (timer : Nat) (n : Node) (s : State) (hn : s.node? uid = some n)
    (hm : n.mode = .dlisten) (ht : n.predicted + n.guard ≤ n.since n.beaconAt timer) :
    ∃ t, exec (.nodeWindowClose uid timer) s = .next t ∧ t.node? uid = some (if 2 ≤ n.misses + 1 then
      { n with misses := n.misses + 1, mode := .seek, seekAt := timer } else
      { n with misses := n.misses + 1, sumMs := n.sumMs + n.nextMs, mode := .dsleep }) :=
  exec_of_modLeaf rfl hn (by simp only [hm, ht, beq_self_eq_true, decide_true, Bool.and_self, if_true])

theorem exec_nodeSeekTimeout_of_due (uid : Uid) (timer : Nat) (n : Node) (s : State) (hn : s.node? uid = some n)
    (hm : n.mode = .seek) (ht : 15000 * n.nextMs ≤ n.since n.seekAt timer) :
    ∃ t, exec (.nodeSeekTimeout uid timer) s = .next t ∧ (∃ m, t.node? uid = some m ∧ m.mode = .fallback ∧
      m.sniff = true ∧ m.inFallback = true ∧ m.sniffAt = timer) := by
  have hfall : ∃ t, exec (.nodeSeekTimeout uid timer) s = .next t ∧
      t.node? uid = some { n.fallback with sniff := true, sniffAt := timer } :=
    exec_of_modLeaf rfl hn (by simp [hm, ht])
  obtain ⟨t, ht, hnode⟩ := hfall
  exact ⟨t, ht, _, hnode, rfl, rfl, rfl, rfl⟩

theorem exec_nodeSniff_of_due (uid : Uid) (carrier : Bool) (timer : Nat) (n : Node) (s : State) (hn : s.node? uid = some n)
    (hm : n.mode = .fallback) (hs : n.sniff = true) (hl : n.listening = false) (ht : 35000 ≤ n.since n.sniffAt timer) :
    ∃ t, exec (.nodeSniff uid carrier timer) s = .next t ∧ t.node? uid = some
      { n with listening := carrier, sniffAt := timer } :=
  exec_of_modLeaf rfl hn (by simp [hm, hs, hl, ht])

/-- Within its 2 s of listening the node goes on as it is, in any state. -/
theorem exec_nodeSniff_of_listening (uid : Uid) (carrier : Bool) (timer : Nat) (n : Node) (s : State)
    (hn : s.node? uid = some n) (hl : n.listening = true) (ht : n.since n.sniffAt timer < 20000000) :
    ∃ t, exec (.nodeSniff uid carrier timer) s = .next t ∧ t.node? uid = some n := by
  have hearly : ¬ 20000000 ≤ n.since n.sniffAt timer := Nat.not_le.mpr ht
  exact exec_of_modLeaf rfl hn (by simp [hl, hearly])

theorem exec_nodeWakeCondition_of_enabled (uid : Uid) (ch : BitVec 6) (timer : Nat) (n : Node) (s : State)
    (hn : s.node? uid = some n) (hm : n.mode = .dsleep) (hw : n.wakeMask.getLsbD ch.toNat = true) :
    ∃ t, exec (.nodeWakeCondition uid ch timer) s = .next t ∧ t.node? uid = some
      { n with sent := .wakePulse, mode := .sync, fbFrom := timer } :=
  exec_of_modLeaf rfl hn (by simp [hm, hw])

/-- Settles O34: one lemma for each command and each event of a node, in the state where it applies. -/
theorem dormancyAndLeafNodesTakeEffect : Obligations.DormancyAndLeafNodesTakeEffect :=
  ⟨exec_dormancyEntry_of_scheduled, exec_dormantBeacon_of_due, exec_wakeTrainStart_of_woke, exec_wakePulse_of_dormant,
    exec_dormancyEnd_of_disabled, exec_nodePowerUp_of_planned, exec_nodePowerUp_of_factory, exec_nodePowerUp_of_unknown,
    exec_nodeClaimBroadcastRx_of_open, exec_nodeClaimSlot_of_due, exec_nodeAssignRx_of_unaddressed,
    exec_nodeAssignRx_of_erasure, exec_nodeBeaconRx_of_sync, exec_nodeSlotStart_reports, exec_nodeSlotStart_answers,
    exec_nodeOutputRx_of_one, exec_nodeFallbackTimeout_of_active, exec_nodeWindowOpen_of_due, exec_nodeWindowClose_of_due,
    exec_nodeSeekTimeout_of_due, exec_nodeSniff_of_due,
    fun uid carrier timer n s hn _ _ hl ht => exec_nodeSniff_of_listening uid carrier timer n s hn hl ht,
    exec_nodeWakeCondition_of_enabled⟩

end Sys2Proof.Machine

/-! The COMMANDs that a leaf node answers (O35). -/
namespace Sys2Proof.Machine

/-- What a node is after it has acted as `m` and answered COMMAND `op` number `seq` with STATUS 0 (04 R83). -/
def Node.repliedOk (m : Node) (seq op : Byte) (data : List Byte) : Node :=
  { m with lastSeq := some seq, lastResp := .response seq op 0 data }.send (.response seq op 0 data)

section
variable {c : Instr} {uid : Uid} {dst seq op : Byte} {n m : Node} {data : List Byte} {act : Node → Node × Byte × List Byte}
  {s : State} (hexec : exec c s = done s (s.nodeCommand uid dst seq op act)) (hn : s.node? uid = some n)
  (htakes : n.takes dst = true) (hseq : n.lastSeq ≠ some seq) (hact : act n = (m, 0, data))
include hexec hn htakes hseq hact

/-- A COMMAND with a new SEQ that the node takes: it acts and answers. -/
theorem exec_of_nodeCommand : ∃ t, exec c s = .next t ∧ t.node? uid = some (m.repliedOk seq op data) :=
  exec_of_modLeaf hexec hn (by
    simp only [htakes, beq_iff_eq, hseq, hact, Bool.not_true, Bool.false_eq_true, if_false]
    rfl)

/-- So what the answer itself leaves of the acting node can be read off it, and the RESPONSE has been sent. -/
theorem exec_of_nodeCommand_with {P : Node → Prop} (hp : P (m.repliedOk seq op data)) :
    ∃ t, exec c s = .next t ∧ (∃ m, t.node? uid = some m ∧ m.sent = .response seq op 0 data ∧ P m) := by
  obtain ⟨t, ht, hnode⟩ := exec_of_nodeCommand hexec hn htakes hseq hact
  exact ⟨t, ht, _, hnode, rfl, hp⟩
end

theorem Node.setFallback_of_valid (n : Node) (q : Plan) (fbt : Nat) (entries : List (Nat × V24)) (hq : n.plan = some q)
    (h1 : 1 ≤ fbt) (h600 : fbt ≤ 600) (he : entries.all (fun e => n.isOutput e.1) = true) :
    n.setFallback fbt entries =
      ({ n with plan := some { q with fbt := fbt }, fallbackV := sputs n.fallbackV entries }, 0, []) := by
  simp only [Node.setFallback, h1, h600, he, hq, decide_true, Bool.and_self, if_true, Option.map_some]

theorem Node.setRamp_of_mover (n : Node) (ramp : Nat) (hc : n.cls = 4) (h1 : 1 ≤ ramp) (h6000 : ramp ≤ 6000) :
    n.setRamp ramp = ({ n with ramp := ramp }, 0, []) := by
  simp [Node.setRamp, hc, h1, h6000]

theorem exec_setFallback_of_valid (uid : Uid) (dst seq : Byte) (fbt : Nat) (entries : List (Nat × V24)) (n : Node) (q : Plan)
    (s : State) (hn : s.node? uid = some n) (hq : n.plan = some q) (hd : dst = q.addr ∨ dst = 0xFF) (hh : n.hears = true)
    (hseq : n.lastSeq ≠ some seq) (h1 : 1 ≤ fbt) (h600 : fbt ≤ 600)
    (he : entries.all (fun e => n.isOutput e.1) = true) :
    ∃ t, exec (.setFallback uid dst seq fbt entries) s = .next t ∧ (∃ m, t.node? uid = some m ∧
      m.sent = .response seq 2 0 [] ∧ m.plan = some { q with fbt := fbt } ∧ m.fallbackV = sputs n.fallbackV entries) :=
  exec_of_nodeCommand_with rfl hn (n.takes_of_plan dst q hq hh hd) hseq (n.setFallback_of_valid q fbt entries hq h1 h600 he)
    ⟨rfl, rfl⟩

section
variable (uid : Uid) (dst seq : Byte) (n : Node) (s : State) (hn : s.node? uid = some n) (hp : n.plan.isSome = true)
  (hd : some dst = n.addr ∨ dst = 0xFF) (hh : n.hears = true) (hseq : n.lastSeq ≠ some seq)
include hn hp hd hh hseq

theorem exec_readInfo_of_new :
    ∃ t, exec (.readInfo uid dst seq) s = .next t ∧ (∃ m, t.node? uid = some m ∧
      m.sent = .response seq 1 0 (leBytes uid.toNat 8 ++ [n.cls] ++ leBytes n.chmap.length 1 ++ n.chmap ++
        leBytes (Config.nodeVersion uid).toNat 2) ∧ m.lastSeq = some seq) :=
  exec_of_nodeCommand_with rfl hn (n.takes_of_hears dst hp hh hd) hseq rfl rfl

theorem exec_identify_of_new (seconds : Byte) :
    ∃ t, exec (.identify uid dst seq seconds) s = .next t ∧ (∃ m, t.node? uid = some m ∧
      m.sent = .response seq 3 0 [] ∧ m.identify = seconds.toNat) :=
  exec_of_nodeCommand_with rfl hn (n.takes_of_hears dst hp hh hd) hseq rfl rfl

theorem exec_setWake_of_new (mask : BitVec 64) :
    ∃ t, exec (.setWake uid dst seq mask) s = .next t ∧ (∃ m, t.node? uid = some m ∧
      m.sent = .response seq 4 0 [] ∧ m.wakeMask = mask) :=
  exec_of_nodeCommand_with rfl hn (n.takes_of_hears dst hp hh hd) hseq rfl rfl

theorem exec_forget_of_own (target : Uid) (ht : target = uid) :
    ∃ t, exec (.forget uid dst seq target) s = .next t ∧ (∃ m, t.node? uid = some m ∧
      m.sent = .response seq 5 0 [] ∧ m.plan = none ∧ m.mode = .unaddr) := by
  have hforget : n.forget uid target = (n.clear, 0, []) := by simp [Node.forget, ht]
  exact exec_of_nodeCommand_with rfl hn (n.takes_of_hears dst hp hh hd) hseq hforget ⟨rfl, rfl⟩

theorem exec_setRamp_of_mover (ramp : Nat) (hc : n.cls = 4) (h1 : 1 ≤ ramp) (h6000 : ramp ≤ 6000) :
    ∃ t, exec (.setRamp uid dst seq ramp) s = .next t ∧ (∃ m, t.node? uid = some m ∧
      m.sent = .response seq 6 0 [] ∧ m.ramp = ramp) :=
  exec_of_nodeCommand_with rfl hn (n.takes_of_hears dst hp hh hd) hseq (n.setRamp_of_mover ramp hc h1 h6000) rfl
end

/-- Settles O35: each COMMAND by what the node does on it (`exec_of_nodeCommand`). -/
theorem nodeCommandsTakeEffect : Obligations.NodeCommandsTakeEffect :=
  ⟨exec_readInfo_of_new, exec_setFallback_of_valid,
    fun uid dst seq seconds n s hn hp hd hh hseq => exec_identify_of_new uid dst seq n s hn hp hd hh hseq seconds,
    fun uid dst seq mask n s hn hp hd hh hseq => exec_setWake_of_new uid dst seq n s hn hp hd hh hseq mask,
    fun uid dst seq target n s hn hp hd hh hseq => exec_forget_of_own uid dst seq n s hn hp hd hh hseq target,
    fun uid dst seq ramp n s hn hp hd hh hseq => exec_setRamp_of_mover uid dst seq n s hn hp hd hh hseq ramp⟩

end Sys2Proof.Machine

/-! What a command of the loops, of DRAM or of the metering leaves alone (O11). -/
namespace Sys2Proof.Machine

/-- A command that answers a next state, every one of which has a property, answers with that property. -/
theorem Safe.answers {o : Host.Outcome State Fault Refusal} {P : State → Prop} (h : Safe o)
    (hP : ∀ z, o = .next z → P z) : ∃ t, o = .next t ∧ P t :=
  let ⟨t, ht⟩ := h
  ⟨t, ht, hP t ht⟩

/-! ### Each of these commands answers a next state, on every path -/

section
variable (d : Die) (s : State)

theorem execLoopSample_safe (n : LoopNo) (late : Fin 4) : Safe (execLoopSample d n late s) := by
  unfold execLoopSample
  dsimp only
  (repeat' split) <;> exact ⟨_, rfl⟩
theorem execLoopOutputApply_safe (n : LoopNo) : Safe (execLoopOutputApply d n s) := by
  unfold execLoopOutputApply
  (repeat' split) <;> exact ⟨_, rfl⟩
theorem execPageOwnerAssign_safe (page : Nat) (owner : Tenant) (map : Option PageMap) :
    Safe (execPageOwnerAssign d page owner map s) := by
  unfold execPageOwnerAssign
  dsimp only
  split
  · cases map <;> exact ⟨_, rfl⟩
  · exact ⟨_, rfl⟩
theorem execInvalidationComplete_safe : Safe (execInvalidationComplete d s) := by
  unfold execInvalidationComplete
  split <;> exact ⟨_, rfl⟩
theorem execDmaElement_safe (bus : Option DmaAccess) : Safe (execDmaElement d bus s) := by
  unfold execDmaElement
  dsimp only
  (repeat' split) <;> exact ⟨_, rfl⟩
theorem execMeteringSecondEnd_safe : Safe (execMeteringSecondEnd s) := by
  unfold execMeteringSecondEnd
  dsimp only
  split <;> exact ⟨_, rfl⟩
theorem execHalfCycleEnd_safe (v : Fin 6) : Safe (execHalfCycleEnd v s) := by
  unfold execHalfCycleEnd
  dsimp only
  (repeat' split) <;> exact ⟨_, rfl⟩
theorem execHarmonicWindowEnd_safe (set : Fin 2) : Safe (execHarmonicWindowEnd set s) := by
  unfold execHarmonicWindowEnd
  dsimp only
  (repeat' split) <;> exact ⟨_, rfl⟩
theorem execMtrSelftestTimer_safe : Safe (execMtrSelftestTimer s) := by
  unfold execMtrSelftestTimer
  split <;> exact ⟨_, rfl⟩
theorem execMeterSelftestConnect_safe : Safe (execMeterSelftestConnect s) := by
  unfold execMeterSelftestConnect
  (repeat' split) <;> exact ⟨_, rfl⟩
theorem execMeterSelftestDisconnect_safe : Safe (execMeterSelftestDisconnect s) := by
  unfold execMeterSelftestDisconnect
  dsimp only
  (repeat' split) <;> exact ⟨_, rfl⟩
end

/-! ### The commands of each family -/

theorem loopCmd_answer (c : Instr) (s : State) (hc : loopCmd c = true) : ∃ t, exec c s = .next t ∧ OutLoops t s := by
  cases c
  case loopSample d n late => exact (execLoopSample_safe d s n late).answers (execLoopSample_lp d n late s)
  case loopOutputApply d n => exact (execLoopOutputApply_safe d s n).answers (execLoopOutputApply_lp d n s)
  case localLoopOutput => exact Safe.answers ⟨_, rfl⟩ (execLocalLoopOutput_lp s)
  all_goals exact absurd hc Bool.false_ne_true

/-- What leaves the engines' registers alone leaves all that a DMA element leaves alone, and those registers. -/
theorem OutMemory.capture {t s : State} (h : OutMemory t s) : OutCapture t s ∧ t.loopDies = s.loopDies := by
  simp only [OutMemory] at h
  simp only [OutCapture, h, and_self]

/-- A DMA element may end the recording of a test unit, which stands in the loop engine's registers of the die (08 R183);
no other command of DRAM touches them. -/
theorem memoryCmd_answer (c : Instr) (s : State) (hc : memoryCmd c = true) :
    ∃ t, exec c s = .next t ∧ OutCapture t s ∧ ((∀ d e, c ≠ .dmaElement d e) → t.loopDies = s.loopDies) := by
  cases c
  case pageOwnerAssign d page owner map =>
    refine (execPageOwnerAssign_safe d s page owner map).answers fun z hz => ?_
    obtain ⟨hout, hdies⟩ := OutMemory.capture (execPageOwnerAssign_dram d page owner map s z hz)
    exact ⟨hout, fun _ => hdies⟩
  case invalidationComplete d =>
    refine (execInvalidationComplete_safe d s).answers fun z hz => ?_
    obtain ⟨hout, hdies⟩ := OutMemory.capture (execInvalidationComplete_dram d s z hz)
    exact ⟨hout, fun _ => hdies⟩
  case dmaElement d bus =>
    exact (execDmaElement_safe d s bus).answers fun z hz =>
      ⟨execDmaElement_cap d bus s z hz, fun h => absurd rfl (h d bus)⟩
  all_goals exact absurd hc Bool.false_ne_true

theorem meterCmd_answer (c : Instr) (s : State) (hc : meterCmd c = true) : ∃ t, exec c s = .next t ∧ OutMeter t s := by
  cases c
  case meteringSecondEnd => exact (execMeteringSecondEnd_safe s).answers (execMeteringSecondEnd_met s)
  case halfCycleEnd v => exact (execHalfCycleEnd_safe s v).answers (execHalfCycleEnd_met v s)
  case harmonicWindowEnd set => exact (execHarmonicWindowEnd_safe s set).answers (execHarmonicWindowEnd_met set s)
  case mtrSelftestTimer => exact (execMtrSelftestTimer_safe s).answers (execMtrSelftestTimer_met s)
  case meterSelftestConnect => exact (execMeterSelftestConnect_safe s).answers (execMeterSelftestConnect_met s)
  case meterSelftestDisconnect => exact (execMeterSelftestDisconnect_safe s).answers (execMeterSelftestDisconnect_met s)
  all_goals exact absurd hc Bool.false_ne_true

/-- Settles O11: each command by what its family leaves alone. -/
theorem loopMemoryAndMeterCommandsKeepOtherUnits : Obligations.LoopMemoryAndMeterCommandsKeepOtherUnits := by
  refine ⟨loopCmd_answer, fun c s hc => ?_, meterCmd_answer⟩
  obtain ⟨t, ht, ⟨hpending, hmember, htick, hhi, hlinks, hcfg, hports, hnodes, htrk, hlogic, hcores, hrest⟩, hdies⟩ :=
    memoryCmd_answer c s hc
  exact ⟨t, ht, hpending, hmember, htick, hhi, hlinks, hcfg, hports, hnodes, htrk, hlogic, hcores, hdies, hrest⟩

end Sys2Proof.Machine

/-! A loop whose descriptor names another slot takes that slot's set-point (O47). -/
namespace Sys2Proof.Machine

/-! ### Slot 0 of die 0, whose descriptor names slot 1 -/

/-- A loop of one section of gain 1 with a constant set-point and output gain 1. -/
def strayCfg : LoopCfg := { slot := 1, omax := 100 }
def strayBank : Bank := { nsec := 1, k := 0x100000, sections := [{ b0 := 0x100000 }] }
def strayLoop : LoopSlot := { cfg := some strayCfg, omax := 100, bankA := strayBank, uPrev := some 0 }

/-- A running module with that loop in slot 0 of die 0, a good process value of 0, and the set-point 5 in slot 1. -/
def strayLoops : State := { State.reset with
  su := { State.reset.su with phase := .running, ready := List.range 8 }
  pnt := { State.reset.pnt with cells := [(0, { qual := .good })] }
  loops := [(0, strayLoop), (1, { spc := 5 })] }

/-- Evaluated with its own set-point, slot 0 gives 0. -/
theorem strayLoop_eval : (strayLoop.eval 0 strayLoop.spc.toInt none 0 false).u = 0 := by decide

/-- The sample latches 5, the error to the set-point of slot 1. -/
theorem strayLoops_latches (t : State) (ht : exec (.loopSample 0 0 0) strayLoops = .next t) :
    (t.loop 0 0).latches = [{ due := 1, value := 5, qual := .good, late := false }] := by
  obtain rfl := Host.Outcome.next.inj ht
  decide

/-- Refutes O47: `State.loopSp` reads a constant set-point from the slot that the loop's descriptor names, and the first
clause does not ask that this be the slot that samples. -/
theorem not_loopsTakeEffect : ¬ Obligations.LoopsTakeEffect := by
  unfold Obligations.LoopsTakeEffect
  rintro ⟨hsample, -⟩
  obtain ⟨t, ht, hlatches, -⟩ := hsample 0 0 0 strayLoop strayCfg 0 0 _ strayLoops rfl rfl (by decide) rfl rfl rfl
    (by decide) (by decide) (by decide) rfl rfl rfl (by decide) rfl rfl
  have hforced : strayLoops.loopForced strayCfg = false := rfl
  rw [hforced, strayLoop_eval] at hlatches
  exact absurd ((strayLoops_latches t ht).symm.trans hlatches) (by decide)

end Sys2Proof.Machine

/-! A swap that the swaps pending in other slots leave no room for (O56). -/
namespace Sys2Proof.Machine

/-! ### A request for a swap that is refused (08 R178) -/

/-- The load of a die once slot `n` runs `own` sections, with those that `secs` counts for each other slot (08 R184). -/
def State.loadAfterSwap (s : State) (d n own : Nat) (secs : LoopSlot → Nat) : Nat × Nat :=
  loadOf (s.dieLoops d) fun c => if c.slot = n then own else secs (s.loop d c.slot)
/-- The ERR code of a swap of slot `n` that holds `x` (08 R178). -/
def State.swapErrBeside (s : State) (d n : Nat) (x : LoopSlot) (secs : LoopSlot → Nat) : Nat :=
  swapErrOf x.inactive (s.loadAfterSwap d n x.inactive.nsec.toNat secs)

theorem State.requestSwap_pending_of_bad (s : State) (d n : Nat) (reset : Bool) (r : Option Req)
    (hp : (s.loop d n).pending = false)
    (he : s.swapErrBeside d n (s.loop d n) LoopSlot.budgetSecs ≠ 0) :
    ((s.requestSwap d n reset r).loop d n).pending = false := by
  unfold State.swapErrBeside State.loadAfterSwap at he
  unfold State.requestSwap
  dsimp only
  split
  · exact hp
  · simpa [State.loop] using hp

/-- A request on a loop slot that the session sees, which may start and passes the checks, runs its own part. -/
theorem State.serveLoop_of_waits {s u : State} {r : Req} {op i : Nat} {data : List Byte} {die : Byte} {slot : BitVec 16}
    {ranges : Bool} {h : ReqHead} {c : LoopCfg} {f : LoopCfg → Nat → State → Answer}
    (ho : s.offers r op (· == data) h i) (hd : die.toNat < s.nDies) (hn : slot.toNat < 8192) (hr : ranges = true)
    (hc : s.slotFor (s.reqTenant r.sender.val) die.toNat slot.toNat = some c)
    (hf : f c slot.toNat (s.begun r h i) = ansWait u) : s.serveLoop r op data die slot ranges f = u := by
  have hdie : die.toNat < 8 := Nat.lt_of_lt_of_le hd s.nDies_le
  rw [State.serveLoop, State.serveA, s.serve_offers r op h i false _ _ _ ho (by simp [rangeBad, dieArg, hdie, hn, hr])
    (by simp)]
  simp [State.withLoop, Nat.not_le.mpr hd, hc, hf, ansWait]

theorem exec_loopSwap_of_bad (r : Req) (die : Byte) (slot : BitVec 16) (reset : Byte) (h : ReqHead) (i : Nat) (c : LoopCfg)
    (s : State) (ho : s.offers r 0x0705 (· == pack [(die.toNat, 1), (slot.toNat, 2), (reset.toNat, 1)]) h i)
    (hd : die.toNat < s.nDies) (hn : slot.toNat < 8192)
    (hc : s.slotFor (s.reqTenant r.sender.val) die.toNat slot.toNat = some c) (hr : reset.toNat ≤ 1)
    (hp : (s.loop die.toNat slot.toNat).pending = false)
    (he : s.swapErrBeside die.toNat slot.toNat (s.loop die.toNat slot.toNat) LoopSlot.budgetSecs ≠ 0) :
    ∃ t, exec (.loopSwap r die slot reset) s = .next t ∧ (t.loop die.toNat slot.toNat).pending = false := by
  refine ⟨_, congrArg (done s) (State.serveLoop_of_waits ho hd hn (decide_eq_true hr) hc (if_neg ?_)), ?_⟩
  · simp [hp]
  · rw [settle_loop_get]
    exact (s.begun r h i).requestSwap_pending_of_bad _ _ _ _ hp he

/-! ### The load of slots that all sample in every tick (08 R184) -/

theorem foldl_addFrac_whole {α : Type} (g : α → Nat × Nat) (w : α → Nat) (l : List α) (a : Nat)
    (h : ∀ x ∈ l, g x = (w x, 1)) : l.foldl (fun acc x => addFrac acc (g x)) (a, 1) = (a + (l.map w).sum, 1) := by
  induction l generalizing a with
  | nil => rfl
  | cons x l ih =>
    have hstep : addFrac (a, 1) (g x) = (a + w x, 1) := by
      rw [h x List.mem_cons_self]
      simp only [addFrac, Nat.gcd_one_right, Nat.div_one, Nat.mul_one]
    rw [List.foldl_cons, hstep, ih _ fun y hy => h y (List.mem_cons_of_mem x hy), List.map_cons, List.sum_cons,
      Nat.add_assoc]

theorem loadOf_of_everyTick (l : List LoopCfg) (nsec : LoopCfg → Nat) (h : ∀ c ∈ l, c.outer = false ∧ c.div = 1) :
    loadOf l nsec = ((l.map fun c => nsec c * 16000).sum, 1) := by
  rw [loadOf, foldl_addFrac_whole _ (fun c => nsec c * 16000) l 0, Nat.zero_add]
  intro c hc
  obtain ⟨houter, hdiv⟩ := h c hc
  simp only [rateOf, houter, hdiv, Bool.false_eq_true, if_false]
  rfl

theorem sum_map_of_const {α : Type} (w : α → Nat) (b : Nat) (l : List α) (h : ∀ x ∈ l, w x = b) :
    (l.map w).sum = l.length * b := by
  induction l with
  | nil => simp only [List.map_nil, List.sum_nil, List.length_nil, Nat.zero_mul]
  | cons x l ih =>
    rw [List.map_cons, List.sum_cons, h x List.mem_cons_self, ih fun y hy => h y (List.mem_cons_of_mem x hy),
      List.length_cons, Nat.succ_mul, Nat.add_comm]

theorem sget_map_of_mem {α : Type} (d : α) (f : Nat → α) (l : List Nat) (k : Nat) (h : k ∈ l) :
    sget d (l.map fun j => (j, f j)) k = f k := by
  induction l with
  | nil => exact absurd h List.not_mem_nil
  | cons j l ih =>
    by_cases hj : j = k
    · rw [List.map_cons, sget, if_pos hj, hj]
    · rw [List.map_cons, sget, if_neg hj]
      exact ih ((List.mem_cons.mp h).resolve_left (Ne.symm hj))

/-! ### A die whose slots but slot 0 all have a swap pending -/

/-- A slot with one section in its active bank and seven in the other one. -/
def crowdSlot (k : Nat) : LoopSlot :=
  { cfg := some { slot := k }, bankA := { nsec := 1 }, bankB := { nsec := 7 }, pending := k != 0 }
/-- A landlord's LOOP_SWAP of slot 0 of die 0. -/
def crowdHead : ReqHead := { tag := 9, opcode := 0x0705, len := 4, rlen := 0, inline := true, data := [0, 0, 0, 0] }
/-- A running module with slot 0 and `n` more such slots on die 0, to which the landlord sends that request. -/
def crowdState (n : Nat) : State := { State.reset with
  su := { State.reset.su with phase := .running, ready := List.range 8 }
  host := { State.reset.host with
    mbxRdy := true, cfgOk := true
    slots := [(0, { en := true, opened := true, tenant := 0, reqs := [{ head := crowdHead }] })] }
  cfg := { State.reset.cfg with moduleId := 1, loops := (List.range (n + 1)).map fun k => { slot := k } }
  loops := (List.range (n + 1)).map fun k => (k, crowdSlot k) }

section
variable (n : Nat)

theorem crowdState_offers : (crowdState n).offers { sender := 0, tag := 9 } 0x0705 (· == [0, 0, 0, 0]) crowdHead 0 :=
  ⟨rfl, rfl, rfl, rfl, rfl, rfl, rfl⟩

theorem crowdState_loop (k : Nat) (hk : k ≤ n) : (crowdState n).loop 0 k = crowdSlot k := by
  rw [State.loop, Nat.mul_zero, Nat.zero_add]
  exact sget_map_of_mem _ _ _ _ (List.mem_range.mpr (Nat.lt_succ_of_le hk))

theorem crowdState_slotFor : (crowdState n).slotFor 0 0 0 = some { slot := 0 } := by
  rw [State.slotFor, crowdState_loop n 0 n.zero_le]
  rfl

theorem crowdState_dieLoops : (crowdState n).dieLoops 0 = (List.range (n + 1)).map fun k => { slot := k } :=
  List.filter_eq_self.mpr fun c hc => by
    obtain ⟨k, -, rfl⟩ := List.mem_map.mp hc
    rfl

/-- Slot 0 counts with its own sections and each other slot with what `secs` counts. -/
theorem crowdState_loadAfterSwap (own : Nat) (secs : LoopSlot → Nat) (b : Nat)
    (h : ∀ k, k ≠ 0 → secs (crowdSlot k) = b) :
    (crowdState n).loadAfterSwap 0 0 own secs = (own * 16000 + n * (b * 16000), 1) := by
  have hevery : ∀ c ∈ (crowdState n).dieLoops 0, c.outer = false ∧ c.div = 1 := by
    intro c hc
    rw [crowdState_dieLoops] at hc
    obtain ⟨k, -, rfl⟩ := List.mem_map.mp hc
    exact ⟨rfl, rfl⟩
  have hother : ∀ k ∈ List.range n, secs ((crowdState n).loop 0 (k + 1)) * 16000 = b * 16000 := by
    intro k hk
    rw [crowdState_loop n _ (List.mem_range.mp hk), h _ k.succ_ne_zero]
  have hrest := (sum_map_of_const _ (b * 16000) _ hother).trans (congrArg (· * (b * 16000)) List.length_range)
  rw [State.loadAfterSwap, loadOf_of_everyTick _ _ hevery, crowdState_dieLoops, List.range_succ_eq_map, List.map_cons,
    List.map_cons, List.sum_cons, List.map_map, List.map_map]
  exact congrArg (fun m => (own * 16000 + m, 1)) hrest
end

/-- Slot 0's swap fits beside the banks that 1,028 other slots run, and not beside those that they are about to run. -/
theorem crowdState_fits_active :
    (crowdState 1028).swapErrBeside 0 0 (crowdSlot 0) (fun x => x.active.nsec.toNat) = 0 := by
  rw [State.swapErrBeside, crowdState_loadAfterSwap 1028 _ _ 1 fun _ _ => rfl]
  decide
theorem LoopSlot.budgetSecs_crowdSlot (k : Nat) (hk : k ≠ 0) : (crowdSlot k).budgetSecs = 7 := by
  simp [LoopSlot.budgetSecs, crowdSlot, hk, LoopSlot.active, LoopSlot.inactive]
theorem crowdState_exceeds_budget : (crowdState 1028).swapErrBeside 0 0 (crowdSlot 0) LoopSlot.budgetSecs ≠ 0 := by
  rw [State.swapErrBeside, crowdState_loadAfterSwap 1028 _ _ 7 LoopSlot.budgetSecs_crowdSlot]
  decide

/-- Refutes O56: a slot with a swap pending counts in the budget with the more of its two banks' sections
(`LoopSlot.budgetSecs`), where the clause of LOOP_SWAP counts the active bank only: the swap is refused. -/
theorem not_loopRequestsTakeEffect : ¬ Obligations.LoopRequestsTakeEffect := by
  unfold Obligations.LoopRequestsTakeEffect
  rintro ⟨-, -, -, -, -, hswap, -⟩
  have hslot := crowdState_loop 1028 0 (by decide)
  obtain ⟨t, ht, -, hpending, -⟩ := hswap { sender := 0, tag := 9 } 0 0 0 crowdHead 0 { slot := 0 } (crowdSlot 0)
    (crowdState 1028) (crowdState_offers 1028) (by decide) (by decide) (crowdState_slotFor 1028) (by decide) hslot rfl
    crowdState_fits_active
  obtain ⟨u, hu, hrefused⟩ := exec_loopSwap_of_bad { sender := 0, tag := 9 } 0 0 0 crowdHead 0 { slot := 0 }
    (crowdState 1028) (crowdState_offers 1028) (by decide) (by decide) (crowdState_slotFor 1028) (by decide)
    (congrArg LoopSlot.pending hslot) (hslot.symm ▸ crowdState_exceeds_budget)
  obtain rfl := Host.Outcome.next.inj (ht.symm.trans hu)
  exact Bool.false_ne_true (hrefused.symm.trans hpending)

end Sys2Proof.Machine

/-! What a command of the field I/O, of the motion channels or of the drives leaves alone (O12). -/
namespace Sys2Proof.Machine

/-! ### Each command of the field I/O answers a next state, on every path -/

section
variable (s : State)

section
variable (m : MotNo)

theorem execCoastEnd_safe : Safe (execCoastEnd m s) := by
  unfold execCoastEnd
  dsimp only
  (repeat' split) <;> exact ⟨_, rfl⟩
theorem execDeadTimeExpiry_safe : Safe (execDeadTimeExpiry m s) := by
  unfold execDeadTimeExpiry
  dsimp only
  (repeat' split) <;> exact ⟨_, rfl⟩
theorem execMoveTimeout_safe : Safe (execMoveTimeout m s) := by
  unfold execMoveTimeout
  split <;> exact ⟨_, rfl⟩
theorem execPulseLossTimeout_safe : Safe (execPulseLossTimeout m s) := by
  unfold execPulseLossTimeout
  split <;> exact ⟨_, rfl⟩
theorem execMotionTargetChange_safe : Safe (execMotionTargetChange m s) := by
  unfold execMotionTargetChange
  dsimp only
  (repeat' split) <;> exact ⟨_, rfl⟩
end

theorem execFioLinkLoss_safe : Safe (execFioLinkLoss s) := by
  unfold execFioLinkLoss
  dsimp only
  split <;> exact ⟨_, rfl⟩
theorem execWatchdogRefresh_safe : Safe (execWatchdogRefresh s) := by
  unfold execWatchdogRefresh
  dsimp only
  split <;> exact ⟨_, rfl⟩
theorem execFioWatchdogExpiry_safe : Safe (execFioWatchdogExpiry s) := by
  unfold execFioWatchdogExpiry
  split <;> exact ⟨_, rfl⟩
theorem execInputPointRefresh_safe (analog : Bool) : Safe (execInputPointRefresh analog s) := by
  unfold execInputPointRefresh
  split <;> exact ⟨_, rfl⟩
theorem execGroupOverloadDetect_safe (g : Fin 4) : Safe (execGroupOverloadDetect g s) := by
  unfold execGroupOverloadDetect
  dsimp only
  (repeat' split) <;> exact ⟨_, rfl⟩
theorem execSelftestPassStart_safe : Safe (execSelftestPassStart s) := by
  unfold execSelftestPassStart
  split <;> exact ⟨_, rfl⟩

section
variable (c : Chan)

theorem execInputRawChange_safe (high : Bool) : Safe (execInputRawChange c high s) := by
  unfold execInputRawChange
  dsimp only
  split <;> exact ⟨_, rfl⟩
theorem execInputFilterSample_safe : Safe (execInputFilterSample c s) := by
  unfold execInputFilterSample
  dsimp only
  (repeat' split) <;> exact ⟨_, rfl⟩
theorem execPulseEdge_safe : Safe (execPulseEdge c s) := by
  unfold execPulseEdge
  dsimp only
  (repeat' split) <;> exact ⟨_, rfl⟩
theorem execBlankingEnd_safe (limiting : Bool) : Safe (execBlankingEnd c limiting s) := by
  unfold execBlankingEnd
  dsimp only
  (repeat' split) <;> exact ⟨_, rfl⟩
theorem execOvercurrentDetect_safe : Safe (execOvercurrentDetect c s) := by
  unfold execOvercurrentDetect
  dsimp only
  (repeat' split) <;> exact ⟨_, rfl⟩
theorem execThermalTrip_safe : Safe (execThermalTrip c s) := by
  unfold execThermalTrip
  (repeat' split) <;> exact ⟨_, rfl⟩
theorem execRetryTimerExpiry_safe : Safe (execRetryTimerExpiry c s) := by
  unfold execRetryTimerExpiry
  dsimp only
  (repeat' split) <;> exact ⟨_, rfl⟩
theorem execJunctionCooled_safe : Safe (execJunctionCooled c s) := by
  unfold execJunctionCooled
  dsimp only
  split <;> exact ⟨_, rfl⟩
theorem execSelftestSlot_safe (bad : Bool) : Safe (execSelftestSlot c bad s) := by
  unfold execSelftestSlot
  dsimp only
  (repeat' split) <;> exact ⟨_, rfl⟩
end
end

theorem fieldCmd_answer (c : Instr) (s : State) (hc : fieldCmd c = true) : ∃ t, exec c s = .next t ∧ OutField t s := by
  cases c
  case coastEnd m => exact (execCoastEnd_safe s m).answers (execCoastEnd_fld m s)
  case deadTimeExpiry m => exact (execDeadTimeExpiry_safe s m).answers (execDeadTimeExpiry_fld m s)
  case moveTimeout m => exact (execMoveTimeout_safe s m).answers (execMoveTimeout_fld m s)
  case pulseLossTimeout m => exact (execPulseLossTimeout_safe s m).answers (execPulseLossTimeout_fld m s)
  case motionTargetChange m => exact (execMotionTargetChange_safe s m).answers (execMotionTargetChange_fld m s)
  case fioLinkLoss => exact (execFioLinkLoss_safe s).answers (execFioLinkLoss_fld s)
  case watchdogRefresh => exact (execWatchdogRefresh_safe s).answers (execWatchdogRefresh_fld s)
  case fioWatchdogExpiry => exact (execFioWatchdogExpiry_safe s).answers (execFioWatchdogExpiry_fld s)
  case fioControllerPowerUp => exact Safe.answers ⟨_, rfl⟩ (execFioControllerPowerUp_fld s)
  case inputRawChange c high => exact (execInputRawChange_safe s c high).answers (execInputRawChange_fld c high s)
  case inputFilterSample c => exact (execInputFilterSample_safe s c).answers (execInputFilterSample_fld c s)
  case inputPointRefresh a => exact (execInputPointRefresh_safe s a).answers (execInputPointRefresh_fld a s)
  case pulseEdge c => exact (execPulseEdge_safe s c).answers (execPulseEdge_fld c s)
  case blankingEnd c l => exact (execBlankingEnd_safe s c l).answers (execBlankingEnd_fld c l s)
  case overcurrentDetect c => exact (execOvercurrentDetect_safe s c).answers (execOvercurrentDetect_fld c s)
  case thermalTrip c => exact (execThermalTrip_safe s c).answers (execThermalTrip_fld c s)
  case retryTimerExpiry c => exact (execRetryTimerExpiry_safe s c).answers (execRetryTimerExpiry_fld c s)
  case junctionCooled c => exact (execJunctionCooled_safe s c).answers (execJunctionCooled_fld c s)
  case groupOverloadDetect g => exact (execGroupOverloadDetect_safe s g).answers (execGroupOverloadDetect_fld g s)
  case supplySample v i => exact Safe.answers ⟨_, rfl⟩ (execSupplySample_fld v i s)
  case selftestPassStart => exact (execSelftestPassStart_safe s).answers (execSelftestPassStart_fld s)
  case selftestSlot c bad => exact (execSelftestSlot_safe s c bad).answers (execSelftestSlot_fld c bad s)
  all_goals exact absurd hc Bool.false_ne_true

/-! ### The drives keep the integrity tags and the translation units, but for a report of a refused access -/

section
variable (s : State)

@[simp] theorem State.driveFail_tags (n : Nat) : SameTags (s.driveFail n) s := by
  unfold State.driveFail
  dsimp only
  split <;> simp
@[simp] theorem State.nvmeFail_tags (n cid : Nat) : SameTags (s.nvmeFail n cid) s := by
  unfold State.nvmeFail
  (repeat' split) <;> simp
@[simp] theorem State.reclaimAll_tags (l : List Nat) : SameTags (s.reclaimAll l) s := by
  induction l generalizing s with
  | nil => exact ⟨rfl, rfl⟩
  | cons n l ih => exact (ih (s.reclaim n)).trans (by simp)
@[simp] theorem State.newKeys_tags (t : Tenant) : SameTags (s.newKeys t) s := by
  unfold State.newKeys
  dsimp only
  (repeat' split) <;> simp [State.newKey]
@[simp] theorem State.takeEscrow_tags (t : Tenant) (l : List (Nat × BitVec 256)) : SameTags (s.takeEscrow t l) s := by
  induction l generalizing s with
  | nil => exact ⟨rfl, rfl⟩
  | cons e l ih =>
    unfold State.takeEscrow
    refine (ih _).trans ?_
    split <;> simp
@[simp] theorem State.keysStart_tags : SameTags s.keysStart s := by
  unfold State.keysStart
  dsimp only
  split
  · exact SameTags.trans (foldl_tags _ _ _ fun s e => s.takeEscrow_tags e.tenant e.gens)
      (foldl_tags _ _ _ fun s t => s.newKeys_tags t)
  · exact ⟨rfl, rfl⟩
@[simp] theorem State.adminStart_tags (n : Nat) (cache : Bool) : SameTags (s.adminStart n cache) s :=
  foldl_tags _ _ _ fun s op => by simp
@[simp] theorem State.startReads_tags : SameTags s.startReads s :=
  (foldl_tags _ _ _ fun s e => by simp).trans (foldl_tags _ _ _ fun s e => by simp)
@[simp] theorem State.storeStart_tags : SameTags s.storeStart s := by
  unfold State.storeStart
  dsimp only
  split <;> simp

theorem execNvmeCommandTimeout_tags (drive : Fin 2) (cid : Nat) : KeepsTags s (execNvmeCommandTimeout drive cid s) := by
  unfold execNvmeCommandTimeout
  (repeat' split) <;> exact done_keepsTags (by simp)
theorem execNvmeReissue_tags (drive : Fin 2) (cid : Nat) : KeepsTags s (execNvmeReissue drive cid s) := by
  unfold execNvmeReissue
  (repeat' split) <;> exact done_keepsTags (by simp)
theorem execDriveReady_tags (drive : Fin 2) (blocks : Nat) (suitable cache dsm : Bool) (serial : Nat) :
    KeepsTags s (execDriveReady drive blocks suitable cache dsm serial s) := by
  unfold execDriveReady
  dsimp only
  (repeat' split) <;> exact done_keepsTags (by simp)
theorem execCheckpointTimer_tags : KeepsTags s (execCheckpointTimer s) :=
  done_keepsTags (by split <;> simp)
theorem execTrendFlushTimer_tags (d : Die) (ten : Tenant) : KeepsTags s (execTrendFlushTimer d ten s) := by
  unfold execTrendFlushTimer
  dsimp only
  split <;> exact done_keepsTags (by simp)
theorem execResyncSegmentCopy_tags : KeepsTags s (execResyncSegmentCopy s) := by
  unfold execResyncSegmentCopy
  dsimp only
  (repeat' split) <;> exact done_keepsTags (by simp)

theorem execNvmeCompletion_safe (drive : Fin 2) (cid : Nat) (ok : Bool) (fault : Option EngFault) :
    Safe (execNvmeCompletion drive cid ok fault s) := by
  unfold execNvmeCompletion
  (repeat' split) <;> exact ⟨_, rfl⟩
end

/-- A next state of a drive's command, with the units that it leaves alone. -/
abbrev DriveAnswer (c : Instr) (s : State) (o : Host.Outcome State Fault Refusal) : Prop :=
  ∃ t, o = .next t ∧ OutDrives t s ∧ (engCmd c = false → SameTags t s)
theorem driveAnswer_of_tags {c : Instr} {s : State} {o : Host.Outcome State Fault Refusal} (ht : KeepsTags s o)
    (hd : ∀ z, o = .next z → OutDrives z s) : DriveAnswer c s o :=
  let ⟨t, ho, hk⟩ := ht
  ⟨t, ho, hd t ho, fun _ => hk⟩

theorem driveCmd_answer (c : Instr) (s : State) (hc : driveCmd c = true) : DriveAnswer c s (exec c s) := by
  cases c
  case nvmeCompletion d cid ok f =>
    exact (execNvmeCompletion_safe s d cid ok f).answers fun z hz =>
      ⟨execNvmeCompletion_drv d cid ok f s z hz, fun h => absurd h.symm Bool.false_ne_true⟩
  case nvmeCommandTimeout d cid =>
    exact driveAnswer_of_tags (execNvmeCommandTimeout_tags s d cid) (execNvmeCommandTimeout_drv d cid s)
  case nvmeReissue d cid => exact driveAnswer_of_tags (execNvmeReissue_tags s d cid) (execNvmeReissue_drv d cid s)
  case driveReady d b su ca ds se =>
    exact driveAnswer_of_tags (execDriveReady_tags s d b su ca ds se) (execDriveReady_drv d b su ca ds se s)
  case checkpointTimer => exact driveAnswer_of_tags (execCheckpointTimer_tags s) (execCheckpointTimer_drv s)
  case trendFlushTimer d ten => exact driveAnswer_of_tags (execTrendFlushTimer_tags s d ten) (execTrendFlushTimer_drv d ten s)
  case resyncSegmentCopy => exact driveAnswer_of_tags (execResyncSegmentCopy_tags s) (execResyncSegmentCopy_drv s)
  all_goals exact absurd hc Bool.false_ne_true

/-- Settles O12: each command by what its family leaves alone. -/
theorem fieldAndDriveCommandsKeepOtherUnits : Obligations.FieldAndDriveCommandsKeepOtherUnits := by
  refine ⟨fieldCmd_answer, fun c s hc => ?_⟩
  obtain ⟨t, ht, ⟨hpending, hmember, htick, hhi, hlinks, hcfg, hports, hnodes, htrk, hlogic, hcores, hloopDies, hloops, hfio,
    hmtr, hmem, howners, hdmas, htime, hsu⟩, htags⟩ := driveCmd_answer c s hc
  exact ⟨t, ht, hpending, hmember, htick, hhi, hlinks, hcfg, hports, hnodes, htrk, hlogic, hcores, hloopDies, hloops, hfio,
    hmtr, hmem, howners, hdmas, htags, htime, hsu⟩

end Sys2Proof.Machine

/-! What the operations of the field I/O controller do to its channels, groups and motion channels. -/
namespace Sys2Proof.Machine

/-! ### Reading what was written -/

theorem State.chan_congr {t u : State} (h : t.fio.chans = u.fio.chans) (c : Nat) : t.chan c = u.chan c := by
  rw [State.chan, State.chan, h]
theorem State.group_congr {t u : State} (h : t.fio.groups = u.fio.groups) (g : Nat) : t.group g = u.group g := by
  rw [State.group, State.group, h]

section
variable (s : State)

@[simp] theorem State.modChan_chan (c : Nat) (f : ChanSt → ChanSt) : (s.modChan c f).chan c = f (s.chan c) := by
  simp [State.modChan]
theorem State.modChan_chan_ne {c j : Nat} (f : ChanSt → ChanSt) (h : c ≠ j) : (s.modChan c f).chan j = s.chan j :=
  sget_sput_ne _ _ _ h
@[simp] theorem State.setGroup_group (g : Nat) (x : Group) : (s.setGroup g x).group g = x := sget_sput_same _ _ _ _
theorem State.setGroup_group_ne {g j : Nat} (x : Group) (h : g ≠ j) : (s.setGroup g x).group j = s.group j :=
  sget_sput_ne _ _ _ h
@[simp] theorem State.modGroup_group (g : Nat) (f : Group → Group) : (s.modGroup g f).group g = f (s.group g) :=
  s.setGroup_group g _
theorem State.modGroup_group_ne {g j : Nat} (f : Group → Group) (h : g ≠ j) : (s.modGroup g f).group j = s.group j :=
  s.setGroup_group_ne _ h
@[simp] theorem State.setGroup_chan (g : Nat) (x : Group) (c : Nat) : (s.setGroup g x).chan c = s.chan c := rfl
@[simp] theorem State.modGroup_chan (g : Nat) (f : Group → Group) (c : Nat) : (s.modGroup g f).chan c = s.chan c := rfl
@[simp] theorem State.setMot_chan (m : Nat) (x : Motion) (c : Nat) : (s.setMot m x).chan c = s.chan c := rfl
@[simp] theorem State.modMot_chan (m : Nat) (f : Motion → Motion) (c : Nat) : (s.modMot m f).chan c = s.chan c := rfl
@[simp] theorem State.event_chan (t : Tenant) (d b inst code : Nat) (data : List Word) (c : Nat) :
    (s.event t d b inst code data).chan c = s.chan c := State.chan_congr (by simp) c
@[simp] theorem State.chEvent_fio (c code what : Nat) : (s.chEvent c code what).fio = s.fio := by simp [State.chEvent]
@[simp] theorem State.chEvent_chan (c code what j : Nat) : (s.chEvent c code what).chan j = s.chan j := by simp [State.chEvent]
@[simp] theorem State.moveDone_fio (m : Nat) :
    (s.moveDone m).fio = { s.fio with mots := sput s.fio.mots m { s.mot m with reqs := [] } } := by
  simp [State.moveDone]
@[simp] theorem settle_group_get (t : State) (g : Nat) : (settle s t).group g = t.group g := by simp [State.group]
end

/-! ### Switching a channel off (09 R194) -/

/-- What is left of a channel that is switched off. -/
def ChanSt.off (x : ChanSt) : ChanSt :=
  { x with on := false, blanking := false, curlim := false, retrying := false, dirty := x.dirty || x.on }
@[simp] theorem ChanSt.off_off (x : ChanSt) : x.off.off = x.off := by simp [ChanSt.off]
@[simp] theorem State.switchOff_chan (s : State) (c : Nat) : (s.switchOff c).chan c = (s.chan c).off := by
  simp [State.switchOff, ChanSt.off]
theorem State.switchOff_chan_ne (s : State) {c j : Nat} (h : c ≠ j) : (s.switchOff c).chan j = s.chan j :=
  s.modChan_chan_ne _ h
theorem State.switchOn_chan_ne (s : State) {c j : Nat} (rank : Nat) (h : c ≠ j) : (s.switchOn c rank).chan j = s.chan j :=
  sget_sput_ne _ _ _ h

/-! ### What the controller holds beside its outputs -/

/-- The controller without its channels, groups, motion channels, output words, switch-on rank and interrupt bits: its link,
its configuration, SAFE, the watchdog, the self-test and the counters. -/
def FieldIO.control (f : FieldIO) : FieldIO :=
  { f with chans := [], mots := [], groups := [], irqStat := 0, rank := 0, aouts := [], aoNext := [] }
/-- All of that is as before. -/
@[simp] abbrev SameControl (t s : State) : Prop := t.fio.control = s.fio.control

/-- Channels at most went off, and the groups and the controller's own part are as before: what any motion channel does that
starts no move. -/
def LegsOff (t s : State) : Prop :=
  (∀ c, t.chan c = s.chan c ∨ t.chan c = (s.chan c).off) ∧ t.fio.groups = s.fio.groups ∧ SameControl t s

theorem LegsOff.refl (s : State) : LegsOff s s := ⟨fun _ => .inl rfl, rfl, rfl⟩
theorem LegsOff.trans {a b c : State} (h : LegsOff a b) (g : LegsOff b c) : LegsOff a c := by
  obtain ⟨hchan, hgroups, hctl⟩ := h
  obtain ⟨gchan, ggroups, gctl⟩ := g
  refine ⟨fun j => ?_, hgroups.trans ggroups, hctl.trans gctl⟩
  rcases hchan j with ha | ha <;> rcases gchan j with hb | hb <;> simp [ha, hb]
theorem LegsOff.of_chans {t s : State} (hc : t.fio.chans = s.fio.chans) (hg : t.fio.groups = s.fio.groups)
    (h : SameControl t s) : LegsOff t s :=
  ⟨fun c => .inl (State.chan_congr hc c), hg, h⟩

section
variable {t s : State} (h : LegsOff t s) (c : Nat)
include h

/-- The channels keep their faults and pending retries. -/
theorem LegsOff.faults : (t.chan c).short = (s.chan c).short ∧ (t.chan c).thermal = (s.chan c).thermal ∧
    (t.chan c).groupOvl = (s.chan c).groupOvl ∧ (t.chan c).latched = (s.chan c).latched ∧
    (t.chan c).retryPend = (s.chan c).retryPend ∧ (t.chan c).cooled = (s.chan c).cooled := by
  rcases h.1 c with e | e <;> simp [e, ChanSt.off]
/-- The channels keep their inputs. -/
theorem LegsOff.inputs : (t.chan c).integ = (s.chan c).integ ∧ (t.chan c).filt = (s.chan c).filt ∧
    (t.chan c).sampling = (s.chan c).sampling ∧ (t.chan c).count = (s.chan c).count := by
  rcases h.1 c with e | e <;> simp [e, ChanSt.off]
theorem LegsOff.dirty (hd : (s.chan c).dirty = true) : (t.chan c).dirty = true := by
  rcases h.1 c with e | e <;> simp [e, ChanSt.off, hd]
theorem LegsOff.on (ho : (s.chan c).on = false) : (t.chan c).on = false := by
  rcases h.1 c with e | e <;> simp [e, ChanSt.off, ho]
theorem LegsOff.cmd : (t.chan c).cmd = (s.chan c).cmd := by
  rcases h.1 c with e | e <;> simp [e, ChanSt.off]
theorem LegsOff.shorts : t.fio.shorts = s.fio.shorts := by
  show t.fio.control.shorts = s.fio.control.shorts
  rw [h.2.2]
end

/-! ### Motion channels that start no move (09 R203 to R208) -/

section
variable {t s : State} (h : LegsOff t s) (m : Nat)
include h

theorem LegsOff.switchOff (c : Nat) : LegsOff (t.switchOff c) s := by
  refine LegsOff.trans (b := t) ⟨fun j => ?_, rfl, rfl⟩ h
  by_cases hj : c = j
  · subst hj
    exact .inr (t.switchOff_chan c)
  · exact .inl (t.switchOff_chan_ne hj)
theorem LegsOff.setMot (x : Motion) : LegsOff (t.setMot m x) s := .trans (b := t) (.of_chans rfl rfl rfl) h
theorem LegsOff.modMot (f : Motion → Motion) : LegsOff (t.modMot m f) s := h.setMot m _
theorem LegsOff.event (ten : Tenant) (d b inst c : Nat) (data : List Word) : LegsOff (t.event ten d b inst c data) s :=
  .trans (b := t) (.of_chans (by simp) (by simp) (by simp)) h
theorem LegsOff.irq (i : Nat) : LegsOff (t.modFio fun f => f.irq i) s := .trans (b := t) (.of_chans rfl rfl rfl) h
theorem LegsOff.moveDone : LegsOff (t.moveDone m) s := .trans (b := t) (.of_chans (by simp) (by simp) (by simp; rfl)) h
theorem LegsOff.rest : LegsOff (t.rest m) s := (h.modMot m _).moveDone m
theorem LegsOff.legOff : LegsOff (t.legOff m) s := by
  unfold State.legOff
  extract_lets x
  split
  · exact (h.switchOff _).setMot m _
  · exact h
theorem LegsOff.motStop : LegsOff (t.motStop m) s := by
  unfold State.motStop
  extract_lets u
  have hu : LegsOff u s := h.modMot m _
  (repeat' split)
  · exact hu.legOff m
  · exact hu.rest m
  · exact hu
theorem LegsOff.motFault (n : Nat) : LegsOff (t.motFault m n) s := by
  unfold State.motFault
  extract_lets u v
  have hv : LegsOff v s := ((h.modMot m _).irq 4).event _ _ _ _ _ _
  (repeat' split)
  · exact hv.legOff m
  · exact hv
  · exact hv.rest m
theorem LegsOff.limitChange (home : Bool) : LegsOff (t.limitChange m home) s := by
  unfold State.limitChange
  extract_lets on x chat u
  have hu : LegsOff u s := by
    show LegsOff (if chat then _ else _) s
    split
    · exact h.modMot m _
    · exact h
  (repeat' split)
  · exact (hu.modMot m _).motFault m 2
  · exact hu
  · exact hu.motFault m 7
  · exact (hu.modMot m _).legOff m
  · exact hu.motFault m 1
  · exact hu.legOff m
  · exact hu.rest m
  · exact (hu.modMot m _).moveDone m
  · exact hu
theorem LegsOff.motPulse : LegsOff (t.motPulse m) s := by
  unfold State.motPulse
  extract_lets x pos u
  have hu : LegsOff u s := h.setMot m _
  (repeat' split)
  · exact hu.legOff m
  · exact hu
  · exact hu
theorem LegsOff.legReport (home : Bool) : LegsOff (t.legReport m home) s := by
  unfold State.legReport
  extract_lets u x
  have hu : LegsOff u s := h.modMot m _
  (repeat' split)
  · exact hu
  · exact (hu.modMot m _).motFault m 5
  · exact hu
  · exact hu
theorem LegsOff.legFault (home : Bool) : LegsOff (t.legFault m home) s := by
  unfold State.legFault
  extract_lets u x v
  have hv : LegsOff v s := by
    show LegsOff (if _ then _ else _) s
    split
    · exact (h.modMot m _).legOff m
    · exact h.modMot m _
  (repeat' split)
  · exact hv
  · exact hv.motFault m 5
  · exact hv.motFault m 4
end

end Sys2Proof.Machine

/-! Every event of the field I/O controller takes effect (O48). -/
namespace Sys2Proof.Machine

/-! ### SAFE (09 R199, R200) -/

/-- The channels that driving points command turn on the configuration only. -/
theorem State.outChans_congr {t s : State} (h : t.cfg = s.cfg) : t.outChans = s.outChans := by
  simp only [State.outChans, State.motionOwns, h]
theorem State.ccfg_congr {t s : State} (h : t.cfg = s.cfg) (c : Nat) : t.ccfg c = s.ccfg c := by
  simp only [State.ccfg, State.chanCfg?, h]

/-- The output is off and its driver's command is off. -/
@[simp] abbrev State.offAt (s : State) (c : Nat) : Prop := (s.chan c).on = false ∧ (s.chan c).cmd = false

section
variable (s : State)

/-- A channel whose safe state is off goes off. -/
theorem State.safeChan_offAt (rank c : Nat) (h : (s.ccfg c).safe = .off) : (s.safeChan rank c).offAt c := by
  simp [State.safeChan, h, ChanSt.off]
theorem State.safeChan_chan_ne (rank : Nat) {c j : Nat} (h : c ≠ j) : (s.safeChan rank c).chan j = s.chan j := by
  unfold State.safeChan
  dsimp only
  (repeat' split) <;>
    simp [State.switchOn_chan_ne, State.switchOff_chan_ne, State.modChan_chan_ne, h]
theorem State.safeChan_control (rank c : Nat) : SameControl (s.safeChan rank c) s := by
  unfold State.safeChan
  dsimp only
  (repeat' split) <;> rfl

/-- One step of a fold establishes a property that every step keeps. -/
theorem foldl_of_mem {α σ : Type} {P : σ → Prop} (f : σ → α → σ) (a : α) (hset : ∀ u, P (f u a))
    (hkeep : ∀ u b, P u → P (f u b)) (l : List α) (s : σ) (h : a ∈ l) : P (l.foldl f s) := by
  induction l generalizing s with
  | nil => exact absurd h List.not_mem_nil
  | cons b l ih =>
    rcases List.mem_cons.mp h with rfl | h
    · exact List.foldlRecOn l f (hset s) fun u hu b _ => hkeep u b hu
    · exact ih (f s b) h
theorem foldl_control {α : Type} (f : State → α → State) (l : List α) (h : ∀ u x, SameControl (f u x) u) :
    SameControl (l.foldl f s) s :=
  List.foldlRecOn (motive := fun t => SameControl t s) l f rfl fun u hu x _ => (h u x).trans hu
theorem foldl_legsOff {α : Type} (f : State → α → State) (l : List α) (h : ∀ u x, LegsOff (f u x) u) :
    LegsOff (l.foldl f s) s :=
  List.foldlRecOn (motive := fun t => LegsOff t s) l f (.refl s) fun u hu x _ => (h u x).trans hu

/-- The safe states leave the controller's own part. -/
theorem State.applySafe_control : SameControl s.applySafe s := by
  unfold State.applySafe
  extract_lets rank u v
  have hu : SameControl u s := foldl_control s _ _ fun u c => u.safeChan_control rank c
  exact (foldl_legsOff v _ _ fun u m => (LegsOff.refl u).motStop m).2.2.trans hu
theorem State.applySafe_shows : s.applySafe.fio.safe = s.fio.safe ∧ s.applySafe.fio.cause = s.fio.cause ∧
    s.applySafe.fio.linkUp = s.fio.linkUp ∧ s.applySafe.fio.wdExp = s.fio.wdExp ∧
    s.applySafe.fio.configured = s.fio.configured := by
  have h := s.applySafe_control
  simp only [SameControl, FieldIO.control, FieldIO.mk.injEq] at h
  simp [h]

/-- An output whose safe state is off is off once the safe states are applied. -/
theorem State.applySafe_offAt (c : Nat) (hm : c ∈ s.outChans) (h : (s.ccfg c).safe = .off) : s.applySafe.offAt c := by
  unfold State.applySafe
  extract_lets rank u v
  have hcfg : u.cfg = s.cfg := (foldl_fld _ s.outChans s fun w j => w.safeChan_fld rank j).2.2.2.2.2.1
  have hstep (w : State) (j i : Nat) : (w.safeChan rank j).ccfg i = w.ccfg i := State.ccfg_congr (by simp) i
  have hu : (u.ccfg c).safe = .off → u.offAt c := by
    refine foldl_of_mem (P := fun w => (w.ccfg c).safe = .off → w.offAt c) _ c (fun w hw => ?_) (fun w j hP hw => ?_) _ s hm
    · exact w.safeChan_offAt rank c (by rwa [hstep] at hw)
    · rw [hstep] at hw
      by_cases hj : j = c
      · exact hj ▸ w.safeChan_offAt rank j (hj ▸ hw)
      · simpa only [State.offAt, w.safeChan_chan_ne rank hj] using hP hw
  obtain ⟨hon, hcmd⟩ := hu (by rw [State.ccfg_congr hcfg, h])
  have hlegs : LegsOff _ v := foldl_legsOff v _ (List.range 8) fun u m => (LegsOff.refl u).motStop m
  exact ⟨hlegs.on c hon, (hlegs.cmd c).trans hcmd⟩

/-- SAFE holds with its cause; the link and the watchdog's count stay. -/
theorem State.enterSafe_shows (cause : Nat) : (s.enterSafe cause).fio.safe = true ∧ (s.enterSafe cause).fio.cause = cause ∧
    (s.enterSafe cause).fio.linkUp = s.fio.linkUp ∧ (s.enterSafe cause).fio.wdExp = s.fio.wdExp := by
  unfold State.enterSafe
  extract_lets u
  have hfio : (u.event 0 0 8 0 7 [w32 cause]).fio = u.fio := by simp
  obtain ⟨hsafe, hcause, hup, hexp, -⟩ := State.applySafe_shows (u.event 0 0 8 0 7 [w32 cause])
  rw [hsafe, hcause, hup, hexp, hfio]
  exact ⟨rfl, rfl, rfl, rfl⟩
theorem State.enterSafe_offAt (cause c : Nat) (hm : c ∈ s.outChans) (h : (s.ccfg c).safe = .off) :
    (s.enterSafe cause).offAt c := by
  unfold State.enterSafe
  extract_lets u
  have hcfg : (u.event 0 0 8 0 7 [w32 cause]).cfg = s.cfg := by simp [u]
  exact State.applySafe_offAt _ c (by rwa [State.outChans_congr hcfg]) (by rwa [State.ccfg_congr hcfg])
end

/-- A command that enters SAFE over `u`. -/
theorem done_enterSafe (s u : State) (cause c : Nat) (hc : u.outChans.contains c = true) (hoff : (u.ccfg c).safe = .off) :
    ∃ t, done s (u.enterSafe cause) = .next t ∧ t.fio.linkUp = u.fio.linkUp ∧ t.fio.wdExp = u.fio.wdExp ∧
      t.fio.safe = true ∧ t.fio.cause = cause ∧ (t.chan c).on = false ∧ (t.chan c).cmd = false := by
  obtain ⟨hsafe, hcause, hup, hexp⟩ := u.enterSafe_shows cause
  refine ⟨_, done_next _ _, ?_⟩
  rw [settle_fio, settle_chan_get]
  exact ⟨hup, hexp, hsafe, hcause, u.enterSafe_offAt cause c (List.contains_iff_mem.mp hc) hoff⟩

theorem exec_fioLinkLoss_of_safe (s : State) (h : s.fio.safe = true) :
    ∃ t, exec .fioLinkLoss s = .next t ∧ t.fio.linkUp = false ∧ t.fio.safe = true ∧ t.fio.cause = s.fio.cause := by
  refine ⟨_, (if_pos h : execFioLinkLoss s = _).trans (done_next _ _), ?_⟩
  simp [h]
theorem exec_fioLinkLoss_enters_safe (c : Nat) (s : State) (h : s.fio.safe = false) (hc : s.outChans.contains c = true)
    (hoff : (s.ccfg c).safe = .off) :
    ∃ t, exec .fioLinkLoss s = .next t ∧ t.fio.linkUp = false ∧ t.fio.safe = true ∧ t.fio.cause = 3 ∧
      (t.chan c).on = false ∧ (t.chan c).cmd = false := by
  obtain ⟨t, ht, hup, -, hshows⟩ :=
    done_enterSafe s (s.modFio fun f => { f with linkUp := false, lost := true }) 3 c hc hoff
  exact ⟨t, (if_neg (by simp [h]) : execFioLinkLoss s = _).trans ht, hup, hshows⟩
theorem exec_fioWatchdogExpiry_enters_safe (c : Nat) (s : State) (h : s.fio.safe = false)
    (hdue : s.fio.refreshed + msTicks s.fio.wdTmo ≤ s.now) (hc : s.outChans.contains c = true)
    (hoff : (s.ccfg c).safe = .off) :
    ∃ t, exec .fioWatchdogExpiry s = .next t ∧ t.fio.wdExp = addW s.fio.wdExp 1 ∧ t.fio.safe = true ∧ t.fio.cause = 1 ∧
      (t.chan c).on = false ∧ (t.chan c).cmd = false := by
  obtain ⟨t, ht, -, hshows⟩ := done_enterSafe s (s.modFio fun f => { f with wdExp := addW f.wdExp 1 }) 1 c hc hoff
  exact ⟨t, (if_pos (by simp [h, hdue]) : execFioWatchdogExpiry s = _).trans ht, hshows⟩

/-! ### The watchdog's refresh (09 R199, R200) -/

/-- A configuration that is sent is configured over the link as it was. -/
theorem State.sendCfg_shows (s : State) : s.sendCfg.fio.linkUp = s.fio.linkUp ∧ s.sendCfg.fio.configured = true := by
  unfold State.sendCfg
  extract_lets u
  obtain ⟨-, -, hup, -, hconf⟩ := u.applySafe_shows
  split
  · exact ⟨hup, hconf⟩
  · exact ⟨rfl, rfl⟩

/-- The link is back: the controller that holds a configuration is released. -/
theorem State.linkBack_releases (s : State) (h : s.fio.configured = true) :
    s.linkBack.fio.linkUp = true ∧ s.linkBack.fio.safe = false := by
  let u := s.modFio fun f => { f with linkUp := true, lost := false }
  let v := if s.fio.unsent then u.sendCfg else u
  have hv : v.fio.linkUp = true ∧ v.fio.configured = true := by
    by_cases hs : s.fio.unsent = true
    · rw [show v = u.sendCfg from if_pos hs]
      exact u.sendCfg_shows
    · rw [show v = u from if_neg hs]
      exact ⟨rfl, h⟩
  obtain ⟨hup, hconf⟩ := hv
  show v.fioRelease.fio.linkUp = true ∧ v.fioRelease.fio.safe = false
  cases hsafe : v.fio.safe <;> simp [State.fioRelease, hup, hconf, hsafe]

section
variable (s : State) (hrun : s.su.phase = .running) (hlogic : s.fio.wdLogic = false)
include hrun hlogic

theorem execWatchdogRefresh_open : execWatchdogRefresh s =
    done s ((if s.fio.linkUp then s else s.linkBack).modFio fun f => { f with refreshed := s.now }) := by
  simp [execWatchdogRefresh, hrun, hlogic]

theorem exec_watchdogRefresh_of_up (h : s.fio.linkUp = true) :
    ∃ t, exec .watchdogRefresh s = .next t ∧ t.fio.refreshed = s.now ∧ t.fio.linkUp = true ∧ t.fio.safe = s.fio.safe := by
  refine ⟨_, (execWatchdogRefresh_open s hrun hlogic).trans (done_next _ _), ?_⟩
  simp [h]
theorem exec_watchdogRefresh_of_down (h : s.fio.linkUp = false) (hc : s.fio.configured = true) :
    ∃ t, exec .watchdogRefresh s = .next t ∧ t.fio.refreshed = s.now ∧ t.fio.linkUp = true ∧ t.fio.safe = false := by
  refine ⟨_, (execWatchdogRefresh_open s hrun hlogic).trans (done_next _ _), ?_⟩
  simp [h, s.linkBack_releases hc]
end

/-! ### Power-up (09 R199) -/

/-- A controller that has powered up: all off, without a configuration, in SAFE. -/
def FieldIO.poweredUp (f : FieldIO) : FieldIO := {
  wdTmo := f.wdTmo, wdLogic := f.wdLogic, stInt := f.stInt, shorts := f.shorts, wdExp := f.wdExp
  irqStat := orBit f.irqStat 5 true, irqMask := f.irqMask
  groups := smap f.groups fun _ (g : Group) => { thr := g.thr }
  mots := smap f.mots fun _ (x : Motion) => { x with homed := false, dtPend := false }, targets := f.targets }

/-- Motion channels that come to rest change nothing else of the controller. -/
theorem foldl_rest_fio (l : List Nat) (s : State) :
    { (l.foldl (fun u m => u.rest m) s).fio with mots := [] } = { s.fio with mots := [] } := by
  refine List.foldlRecOn (motive := fun u : State => { u.fio with mots := [] } = { s.fio with mots := [] }) l _ rfl
    fun u hu m _ => ?_
  simpa [State.rest] using hu

theorem foldl_rest_shows (l : List Nat) (s : State) :
    (l.foldl (fun u m => u.rest m) s).fio.configured = s.fio.configured ∧
    (l.foldl (fun u m => u.rest m) s).fio.safe = s.fio.safe ∧ (l.foldl (fun u m => u.rest m) s).fio.cause = s.fio.cause ∧
    (l.foldl (fun u m => u.rest m) s).fio.linkUp = s.fio.linkUp ∧
    (l.foldl (fun u m => u.rest m) s).fio.chans = s.fio.chans ∧ (l.foldl (fun u m => u.rest m) s).fio.aouts = s.fio.aouts ∧
    (l.foldl (fun u m => u.rest m) s).fio.irqStat = s.fio.irqStat ∧
    (l.foldl (fun u m => u.rest m) s).fio.wdTmo = s.fio.wdTmo := by
  have h := foldl_rest_fio l s
  simp only [FieldIO.mk.injEq] at h
  simp only [h, and_self]

theorem exec_fioControllerPowerUp_resets (s : State) :
    ∃ t, exec .fioControllerPowerUp s = .next t ∧ t.fio.configured = false ∧ t.fio.safe = true ∧ t.fio.cause = 4 ∧
      t.fio.linkUp = false ∧ t.fio.chans = [] ∧ t.fio.aouts = [] ∧ t.fio.irqStat.getLsbD 5 = true ∧
      t.fio.wdTmo = s.fio.wdTmo := by
  have hfio : (({ s with fio := s.fio.poweredUp } : State).event 0 0 8 0 7 [4]).fio = s.fio.poweredUp := by simp
  have hrest := foldl_rest_shows (List.range 8) (({ s with fio := s.fio.poweredUp } : State).event 0 0 8 0 7 [4])
  rw [hfio] at hrest
  obtain ⟨hconf, hsafe, hcause, hup, hchans, haouts, hirq, hwd⟩ := hrest
  have hexec : execFioControllerPowerUp s = done s ((List.range 8).foldl (fun u m => u.rest m)
    (({ s with fio := s.fio.poweredUp } : State).event 0 0 8 0 7 [4])) := rfl
  refine ⟨_, hexec.trans (done_next _ _), ?_⟩
  rw [settle_fio, hirq]
  exact ⟨hconf, hsafe, hcause, hup, hchans, haouts, orBit_getLsbD _ 5 (by decide), hwd⟩

end Sys2Proof.Machine

/-! What the events of channels and groups do (O48). -/
namespace Sys2Proof.Machine

/-! ### Inputs (09 R188, R192, R193) -/

section
variable (c : Chan) (x : ChanSt) (s : State)

theorem exec_inputRawChange_of_input (high : Bool) (ho : s.isOut c.val = false) (hp : s.isPulse c.val = false)
    (hx : s.chan c.val = x) : ∃ t, exec (.inputRawChange c high) s = .next t ∧ t.chan c.val =
      { x with raw := high, sampling := (if high then x.integ != (s.ccfg c.val).ftop else x.integ != 0) } := by
  subst hx
  refine ⟨_, (if_neg (by simp [ho, hp]) : execInputRawChange c high s = _).trans (done_next _ _), ?_⟩
  cases high <;> simp [bne, BEq.beq]

/-- A sample of a high input below the top counts up. -/
theorem ChanSt.filter_of_rise (n : Nat) (hr : x.raw = true) (h : x.integ + 1 < n) :
    x.filter n = { x with integ := x.integ + 1, sampling := true } := by
  have hmin : min n (x.integ + 1) = x.integ + 1 := by omega
  have hne : ¬ x.integ + 1 = n := by omega
  simp [ChanSt.filter, hr, hmin, hne]
/-- The sample that reaches the top filters high. -/
theorem ChanSt.filter_of_top (n : Nat) (hr : x.raw = true) (h : x.integ + 1 = n) :
    x.filter n = { x with integ := x.integ + 1, filt := true, sampling := false } := by
  simp [ChanSt.filter, hr, ← h]
/-- The sample that reaches 0 filters low. -/
theorem ChanSt.filter_of_floor (n : Nat) (hr : x.raw = false) (h : x.integ = 1) (hn : 0 < n) :
    x.filter n = { x with integ := 0, filt := false, sampling := false } := by
  have hne : ¬ 0 = n := by omega
  simp [ChanSt.filter, hr, h, hne]

/-- A changed filtered state makes its point due, and at most switches legs off. -/
theorem State.filtChange_shows (j : Nat) : ((s.filtChange j).chan j).integ = (s.chan j).integ ∧
    ((s.filtChange j).chan j).filt = (s.chan j).filt ∧ ((s.filtChange j).chan j).sampling = (s.chan j).sampling ∧
    ((s.filtChange j).chan j).dirty = true := by
  have hdue : (s.modChan j fun y => { y with dirty := true }).chan j = { s.chan j with dirty := true } := by simp
  have hlegs : LegsOff (s.filtChange j) (s.modChan j fun y => { y with dirty := true }) := by
    unfold State.filtChange
    extract_lets u
    have hu : LegsOff u u := .refl u
    (repeat' split)
    · exact hu.limitChange _ _
    · exact hu
    · exact hu
  obtain ⟨hinteg, hfilt, hsampling, -⟩ := hlegs.inputs j
  rw [hdue] at hinteg hfilt hsampling
  exact ⟨hinteg, hfilt, hsampling, hlegs.dirty j (by rw [hdue])⟩

section
variable (hx : s.chan c.val = x) (hs : x.sampling = true) (hb : x.stBusy = false)
include hx hs hb

theorem execInputFilterSample_open : execInputFilterSample c s =
    if (x.filter (s.ccfg c.val).ftop).filt != x.filt then
      done s ((s.setChan c.val (x.filter (s.ccfg c.val).ftop)).filtChange c.val)
    else done s (s.setChan c.val (x.filter (s.ccfg c.val).ftop)) := by
  subst hx
  exact if_pos (by simp [hs, hb])

/-- A sample that changes the filtered state. -/
theorem exec_inputFilterSample_of_change (y : ChanSt) (hy : x.filter (s.ccfg c.val).ftop = y) (hf : y.filt ≠ x.filt) :
    ∃ t, exec (.inputFilterSample c) s = .next t ∧ (t.chan c.val).integ = y.integ ∧ (t.chan c.val).filt = y.filt ∧
      (t.chan c.val).sampling = y.sampling ∧ (t.chan c.val).dirty = true := by
  have hopen := execInputFilterSample_open c x s hx hs hb
  rw [hy, if_pos (by simpa using hf)] at hopen
  refine ⟨_, hopen.trans (done_next _ _), ?_⟩
  rw [settle_chan_get]
  simpa only [State.chan_setChan] using (s.setChan c.val y).filtChange_shows c.val

theorem exec_inputFilterSample_of_rise (hr : x.raw = true) (h : x.integ + 1 < (s.ccfg c.val).ftop) :
    ∃ t, exec (.inputFilterSample c) s = .next t ∧ (t.chan c.val).integ = x.integ + 1 ∧ (t.chan c.val).filt = x.filt ∧
      (t.chan c.val).sampling = true := by
  have hopen := execInputFilterSample_open c x s hx hs hb
  rw [x.filter_of_rise _ hr h, if_neg (by simp)] at hopen
  refine ⟨_, hopen.trans (done_next _ _), ?_⟩
  simp
theorem exec_inputFilterSample_of_top (hr : x.raw = true) (hf : x.filt = false) (h : x.integ + 1 = (s.ccfg c.val).ftop) :
    ∃ t, exec (.inputFilterSample c) s = .next t ∧ (t.chan c.val).integ = x.integ + 1 ∧ (t.chan c.val).filt = true ∧
      (t.chan c.val).sampling = false ∧ (t.chan c.val).dirty = true :=
  exec_inputFilterSample_of_change c x s hx hs hb _ (x.filter_of_top _ hr h) (by simp [hf])
theorem exec_inputFilterSample_of_floor (hr : x.raw = false) (hf : x.filt = true) (h : x.integ = 1)
    (hn : 0 < (s.ccfg c.val).ftop) :
    ∃ t, exec (.inputFilterSample c) s = .next t ∧ (t.chan c.val).integ = 0 ∧ (t.chan c.val).filt = false ∧
      (t.chan c.val).sampling = false ∧ (t.chan c.val).dirty = true :=
  exec_inputFilterSample_of_change c x s hx hs hb _ (x.filter_of_floor _ hr h hn) (by simp [hf])
end

theorem exec_pulseEdge_counts (hp : s.isPulse c.val = true) :
    ∃ t, exec (.pulseEdge c) s = .next t ∧ (t.chan c.val).count = (s.chan c.val).count + 1 ∧
      (t.chan c.val).dirty = true := by
  let u := s.modChan c.val fun x => { x with count := x.count + 1, dirty := true }
  have hu : u.chan c.val = { s.chan c.val with count := (s.chan c.val).count + 1, dirty := true } := by simp [u]
  have hexec : ∃ v, execPulseEdge c s = done s v ∧ LegsOff v u := by
    unfold execPulseEdge
    rw [if_pos hp]
    dsimp only
    split
    · exact ⟨_, rfl, (LegsOff.refl u).motPulse c.val⟩
    · exact ⟨_, rfl, .refl u⟩
  obtain ⟨v, hv, hlegs⟩ := hexec
  obtain ⟨-, -, -, hcount⟩ := hlegs.inputs c.val
  refine ⟨_, hv.trans (done_next _ _), ?_⟩
  rw [settle_chan_get, hcount, hu]
  exact ⟨rfl, hlegs.dirty c.val (by rw [hu])⟩
end

theorem exec_inputPointRefresh_of_chans (analog : Bool) (s : State) (hl : s.fio.linkUp = true) (ha : analog = false) :
    ∃ t, exec (.inputPointRefresh analog) s = .next t ∧ t.fio = { s.fio with chanDue := true } := by
  subst ha
  refine ⟨_, (if_pos hl : execInputPointRefresh false s = _).trans (done_next _ _), ?_⟩
  simp
theorem exec_inputPointRefresh_of_analog (analog : Bool) (s : State) (hl : s.fio.linkUp = true) (ha : analog = true) :
    ∃ t, exec (.inputPointRefresh analog) s = .next t ∧ t.fio = { s.fio with ainDue := true } := by
  subst ha
  refine ⟨_, (if_pos hl : execInputPointRefresh true s = _).trans (done_next _ _), ?_⟩
  simp

/-! ### Output faults (09 R194 to R197) -/

/-- A channel that has faulted is off with its fault, counted, and latched or waiting for its retry; its motion channel at
most switches legs off. -/
theorem State.fault_shows (s : State) (c : Nat) (thermal : Bool) : ((s.fault c thermal).chan c).on = false ∧
    ((s.fault c thermal).chan c).short = ((s.chan c).short || !thermal) ∧
    ((s.fault c thermal).chan c).thermal = ((s.chan c).thermal || thermal) ∧
    ((s.fault c thermal).chan c).cooled = !thermal ∧
    ((s.fault c thermal).chan c).retryPend = ((s.ccfg c).retry && !s.motionOwns c) ∧
    (s.fault c thermal).fio.shorts = addW s.fio.shorts 1 := by
  have hch : (s.chFault c thermal).chan c = { (s.chan c).off with
      short := (s.chan c).short || !thermal, thermal := (s.chan c).thermal || thermal
      retryPend := (s.ccfg c).retry && !s.motionOwns c
      latched := (s.chan c).latched || !((s.ccfg c).retry && !s.motionOwns c), cooled := !thermal, elapsed := false } := by
    simp [State.chFault, State.chan, State.switchOff, State.modChan, ChanSt.off, FieldIO.irq]
  have hshorts : (s.chFault c thermal).fio.shorts = addW s.fio.shorts 1 := by simp [State.chFault, FieldIO.irq, State.switchOff]
  have hlegs : LegsOff (s.fault c thermal) (s.chFault c thermal) := by
    unfold State.fault
    extract_lets u
    split
    · exact ((LegsOff.refl u).legFault _ _).legReport _ _
    · exact .refl u
  obtain ⟨hshort, hthermal, -, -, hretry, hcooled⟩ := hlegs.faults c
  rw [hch] at hshort hthermal hretry hcooled
  exact ⟨hlegs.on c (by rw [hch]; rfl), hshort, hthermal, hcooled, hretry, hlegs.shorts.trans hshorts⟩

section
variable (c : Chan) (x : ChanSt) (s : State)

section
variable (limiting : Bool) (hx : s.chan c.val = x) (ho : x.on = true) (hb : x.blanking = true)
include hx ho hb

theorem execBlankingEnd_open : execBlankingEnd c limiting s =
    if limiting then done s (s.fault c.val false)
    else if x.retrying then
      done s ((s.setChan c.val { x with
        blanking := false, curlim := false, retrying := false, retryPend := false, short := false, thermal := false
        elapsed := false }).chEvent c.val (if x.thermal then 3 else 2) 0)
    else done s (s.setChan c.val { x with blanking := false, curlim := false }) := by
  subst hx
  exact if_pos (by simp [ho, hb])

theorem exec_blankingEnd_passes (hl : limiting = false) (hr : x.retrying = false) :
    ∃ t, exec (.blankingEnd c limiting) s = .next t ∧ t.chan c.val = { x with blanking := false, curlim := false } := by
  have hopen := execBlankingEnd_open c x s limiting hx ho hb
  rw [if_neg (by simp [hl]), if_neg (by simp [hr])] at hopen
  refine ⟨_, hopen.trans (done_next _ _), ?_⟩
  simp
theorem exec_blankingEnd_of_limiting (hl : limiting = true) :
    ∃ t, exec (.blankingEnd c limiting) s = .next t ∧ (t.chan c.val).on = false ∧ (t.chan c.val).short = true ∧
      t.fio.shorts = addW s.fio.shorts 1 := by
  obtain ⟨hon, hshort, -, -, -, hshorts⟩ := s.fault_shows c.val false
  refine ⟨_, (execBlankingEnd_open c x s limiting hx ho hb).trans ((if_pos hl).trans (done_next _ _)), ?_⟩
  rw [settle_chan_get, settle_fio]
  exact ⟨hon, hshort.trans (by simp), hshorts⟩
theorem exec_blankingEnd_ends_retry (hl : limiting = false) (hr : x.retrying = true) :
    ∃ t, exec (.blankingEnd c limiting) s = .next t ∧ t.chan c.val =
      { x with
        blanking := false, curlim := false, retrying := false, retryPend := false, short := false, thermal := false
        elapsed := false } := by
  have hopen := execBlankingEnd_open c x s limiting hx ho hb
  rw [if_neg (by simp [hl]), if_pos hr] at hopen
  refine ⟨_, hopen.trans (done_next _ _), ?_⟩
  simp
end

theorem exec_overcurrentDetect_trips (ho : (s.chan c.val).on = true) (hb : (s.chan c.val).blanking = false) :
    ∃ t, exec (.overcurrentDetect c) s = .next t ∧ (t.chan c.val).on = false ∧ (t.chan c.val).short = true ∧
      (t.chan c.val).retryPend = ((s.ccfg c.val).retry && !s.motionOwns c.val) ∧ t.fio.shorts = addW s.fio.shorts 1 := by
  obtain ⟨hon, hshort, -, -, hretry, hshorts⟩ := s.fault_shows c.val false
  refine ⟨_, ((if_pos ho).trans (if_neg (by simp [hb])) : execOvercurrentDetect c s = _).trans (done_next _ _), ?_⟩
  rw [settle_chan_get, settle_fio]
  exact ⟨hon, hshort.trans (by simp), hretry, hshorts⟩
theorem exec_overcurrentDetect_of_blanking (hx : s.chan c.val = x) (ho : x.on = true) (hb : x.blanking = true) :
    ∃ t, exec (.overcurrentDetect c) s = .next t ∧ t.chan c.val = { x with curlim := true } := by
  subst hx
  refine ⟨_, ((if_pos ho).trans (if_pos hb) : execOvercurrentDetect c s = _).trans (done_next _ _), ?_⟩
  simp
theorem exec_thermalTrip_trips (ho : (s.chan c.val).on = true) :
    ∃ t, exec (.thermalTrip c) s = .next t ∧ (t.chan c.val).on = false ∧ (t.chan c.val).thermal = true ∧
      (t.chan c.val).cooled = false ∧ (t.chan c.val).retryPend = ((s.ccfg c.val).retry && !s.motionOwns c.val) := by
  obtain ⟨hon, -, hthermal, hcooled, hretry, -⟩ := s.fault_shows c.val true
  refine ⟨_, (if_pos ho : execThermalTrip c s = _).trans (done_next _ _), ?_⟩
  rw [settle_chan_get]
  exact ⟨hon, hthermal.trans (by simp), hcooled, hretry⟩

/-! ### Retries (09 R195, R196) -/

/-- A retry that falls due in a group without others waits for the group's next free window. -/
theorem State.queueRetry_shows (j : Nat) (hq : (s.group (j / 16)).retryQ = []) :
    (s.queueRetry j).chan j = s.chan j ∧
      ((s.queueRetry j).group (j / 16)).retryQ = [(max (s.group (j / 16)).freeAt s.now, j)] := by
  simp [State.queueRetry, chGroup, hq, queueAt]

theorem exec_retryTimerExpiry_of_hot (hx : s.chan c.val = x) (hr : x.retryPend = true) (ho : x.on = false)
    (hc : x.cooled = false) :
    ∃ t, exec (.retryTimerExpiry c) s = .next t ∧ t.chan c.val = { x with elapsed := true } := by
  subst hx
  refine ⟨_, ((if_pos (by simp [hr, ho])).trans (if_neg (by simp [hc])) : execRetryTimerExpiry c s = _).trans
    (done_next _ _), ?_⟩
  simp
theorem exec_retryTimerExpiry_queues (hx : s.chan c.val = x) (hr : x.retryPend = true) (ho : x.on = false)
    (hc : x.cooled = true) (hq : (s.group (c.val / 16)).retryQ = []) :
    ∃ t, exec (.retryTimerExpiry c) s = .next t ∧ t.chan c.val = { x with elapsed := true } ∧
      (t.group (c.val / 16)).retryQ = [(max (s.group (c.val / 16)).freeAt s.now, c.val)] := by
  subst hx
  obtain ⟨hchan, hqueue⟩ := (s.setChan c.val { s.chan c.val with elapsed := true }).queueRetry_shows c.val hq
  refine ⟨_, ((if_pos (by simp [hr, ho])).trans (if_pos hc) : execRetryTimerExpiry c s = _).trans (done_next _ _), ?_⟩
  rw [settle_chan_get, settle_group_get]
  exact ⟨hchan.trans (s.chan_setChan c.val _), hqueue⟩
theorem exec_junctionCooled_early (hx : s.chan c.val = x) (he : x.elapsed = false) :
    ∃ t, exec (.junctionCooled c) s = .next t ∧ t.chan c.val = { x with cooled := true } := by
  subst hx
  refine ⟨_, (if_neg (by simp [he]) : execJunctionCooled c s = _).trans (done_next _ _), ?_⟩
  simp
theorem exec_junctionCooled_queues (hx : s.chan c.val = x) (hr : x.retryPend = true) (he : x.elapsed = true)
    (hc : x.cooled = false) (ho : x.on = false) (hq : (s.group (c.val / 16)).retryQ = []) :
    ∃ t, exec (.junctionCooled c) s = .next t ∧ t.chan c.val = { x with cooled := true } ∧
      (t.group (c.val / 16)).retryQ = [(max (s.group (c.val / 16)).freeAt s.now, c.val)] := by
  subst hx
  obtain ⟨hchan, hqueue⟩ := (s.setChan c.val { s.chan c.val with cooled := true }).queueRetry_shows c.val hq
  refine ⟨_, (if_pos (by simp [hr, he, hc, ho]) : execJunctionCooled c s = _).trans (done_next _ _), ?_⟩
  rw [settle_chan_get, settle_group_get]
  exact ⟨hchan.trans (s.chan_setChan c.val _), hqueue⟩
end

/-! ### A group's overload and supply (09 R190, R197) -/

theorem exec_groupOverloadDetect_latches (g : Fin 4) (c : Nat) (s : State) (h : s.latestOn g.val = some c) :
    ∃ t, exec (.groupOverloadDetect g) s = .next t ∧ (t.chan c).on = false ∧ (t.chan c).groupOvl = true ∧
      (t.chan c).latched = true ∧ (t.chan c).retryPend = false := by
  let u := (((s.switchOff c).modChan c fun x => { x with groupOvl := true, latched := true, retryPend := false }).modFio
    fun f => f.irq 3).chEvent c 4 1
  have hu : u.chan c = { (s.chan c).off with groupOvl := true, latched := true, retryPend := false } := by
    simp [u, State.chan, State.switchOff, State.modChan, ChanSt.off, FieldIO.irq]
  have hexec : ∃ v, execGroupOverloadDetect g s = done s v ∧ LegsOff v u := by
    unfold execGroupOverloadDetect
    rw [h]
    dsimp only
    split
    · exact ⟨_, rfl, (LegsOff.refl u).legFault _ _⟩
    · exact ⟨_, rfl, .refl u⟩
  obtain ⟨v, hv, hlegs⟩ := hexec
  obtain ⟨-, -, hovl, hlatched, hretry, -⟩ := hlegs.faults c
  rw [hu] at hovl hlatched hretry
  refine ⟨_, hv.trans (done_next _ _), ?_⟩
  rw [settle_chan_get]
  exact ⟨hlegs.on c (by rw [hu]; rfl), hovl, hlatched, hretry⟩

end Sys2Proof.Machine

/-! The supply, the self-test, and every event of the field I/O controller together (O48). -/
namespace Sys2Proof.Machine

/-! ### The supply (09 R190) -/

/-- What a group shows of its last sample. -/
abbrev Group.reading (x : Group) : Nat × Nat × Bool × Bool := (x.volt, x.current, x.missing, x.low)

/-- Of the groups at most `g` changed, and not its reading. -/
def OnlyGroup (g : Nat) (t s : State) : Prop :=
  ∀ j, (t.group j).reading = (s.group j).reading ∧ (g ≠ j → t.group j = s.group j)

section
variable {g : Nat} {a b c : State}
theorem OnlyGroup.of_groups (h : a.fio.groups = b.fio.groups) : OnlyGroup g a b := fun j => by
  rw [State.group_congr h j]
  exact ⟨rfl, fun _ => rfl⟩
theorem OnlyGroup.trans (h : OnlyGroup g a b) (k : OnlyGroup g b c) : OnlyGroup g a c := fun j =>
  ⟨(h j).1.trans (k j).1, fun hj => ((h j).2 hj).trans ((k j).2 hj)⟩
theorem OnlyGroup.switchOn (h : OnlyGroup g a b) (i rank : Nat) : OnlyGroup g (a.switchOn i rank) b := h
theorem OnlyGroup.modChan (h : OnlyGroup g a b) (i : Nat) (f : ChanSt → ChanSt) : OnlyGroup g (a.modChan i f) b := h
end

section
variable (s : State) (g : Nat)

theorem State.setGroup_onlyGroup (x : Group) (hx : x.reading = (s.group g).reading) : OnlyGroup g (s.setGroup g x) s := by
  intro j
  by_cases h : g = j
  · subst h
    exact ⟨by rw [State.setGroup_group, hx], fun hne => absurd rfl hne⟩
  · rw [State.setGroup_group_ne _ _ h]
    exact ⟨rfl, fun _ => rfl⟩

/-- The groups do not turn on a supply that is lost. -/
theorem State.groupLost_groups : (s.groupLost g).fio.groups = s.fio.groups := by
  unfold State.groupLost
  refine List.foldlRecOn (motive := fun t : State => t.fio.groups = s.fio.groups) _ _ rfl fun u hu c _ => Eq.trans ?_ hu
  simp only [State.modChan_fio]
  split
  · split
    · split
      · exact ((LegsOff.refl u).motStop _).2.1
      · rfl
    · rfl
  · rfl
/-- When a supply comes back the group's outputs wait for their turn. -/
theorem State.groupBack_onlyGroup : OnlyGroup g (s.groupBack g) s := by
  unfold State.groupBack
  extract_lets due u
  have hu : u.fio.groups = s.fio.groups :=
    List.foldlRecOn (motive := fun t : State => t.fio.groups = s.fio.groups) _ _ rfl fun t ht _ _ => ht
  refine (State.setGroup_onlyGroup u g _ ?_).trans (.of_groups hu)
  rfl
theorem State.supplyTurn_onlyGroup (x y : Group) : OnlyGroup g (s.supplyTurn g x y) s := by
  unfold State.supplyTurn
  (repeat' split)
  · exact .of_groups (s.groupLost_groups g)
  · exact s.groupBack_onlyGroup g
  · exact .of_groups rfl
theorem State.supplyShow_onlyGroup (x y : Group) : OnlyGroup g (s.supplyShow g x y) s := by
  unfold State.supplyShow
  split
  · exact .of_groups (by simp [FieldIO.irq])
  · exact .of_groups rfl
theorem State.serveRestore_onlyGroup : OnlyGroup g (s.serveRestore g) s := by
  unfold State.serveRestore
  dsimp only
  (repeat' split)
  · refine s.setGroup_onlyGroup g _ ?_
    rfl
  · refine (s.setGroup_onlyGroup g _ ?_).switchOn _ _
    rfl
  · refine s.setGroup_onlyGroup g _ ?_
    rfl
theorem State.serveRetry_onlyGroup : OnlyGroup g (s.serveRetry g) s := by
  unfold State.serveRetry
  dsimp only
  (repeat' split)
  · refine ((s.setGroup_onlyGroup g _ ?_).switchOn _ _).modChan _ _
    rfl
  · exact .of_groups rfl
  · exact .of_groups rfl

/-- A sample of one group shows there, and leaves the other groups. -/
theorem State.supply_onlyGroup (mv ma : Nat) :
    OnlyGroup g (s.supply g mv ma) (s.setGroup g ((s.group g).sample mv ma)) := by
  unfold State.supply
  extract_lets x y
  exact (((State.serveRetry_onlyGroup _ g).trans (State.serveRestore_onlyGroup _ g)).trans
    (State.supplyShow_onlyGroup _ g x y)).trans (State.supplyTurn_onlyGroup _ g x y)
theorem State.supply_reading (mv ma : Nat) :
    ((s.supply g mv ma).group g).reading = ((s.group g).sample mv ma).reading := by
  rw [(s.supply_onlyGroup g mv ma g).1, State.setGroup_group]
theorem State.supply_group_ne (mv ma : Nat) {j : Nat} (h : g ≠ j) : (s.supply g mv ma).group j = s.group j := by
  rw [(s.supply_onlyGroup g mv ma j).2 h, State.setGroup_group_ne _ _ h]

theorem foldl_supply_group_of_notMem (mv ma : Nat → Nat) (l : List Nat) (h : g ∉ l) :
    (l.foldl (fun u j => u.supply j (mv j) (ma j)) s).group g = s.group g :=
  List.foldlRecOn (motive := fun t : State => t.group g = s.group g) l _ rfl fun u hu j hj =>
    (u.supply_group_ne j _ _ (by rintro rfl; exact h hj)).trans hu
theorem foldl_supply_reading (mv ma : Nat → Nat) (l : List Nat) (hl : l.Nodup) (h : g ∈ l) :
    ((l.foldl (fun u j => u.supply j (mv j) (ma j)) s).group g).reading =
      ((s.group g).sample (mv g) (ma g)).reading := by
  induction l generalizing s with
  | nil => exact absurd h List.not_mem_nil
  | cons j l ih =>
    obtain ⟨hj, hl⟩ := List.nodup_cons.mp hl
    rcases List.mem_cons.mp h with rfl | h
    · rw [List.foldl_cons, foldl_supply_group_of_notMem _ g mv ma l hj, State.supply_reading]
    · have hne : j ≠ g := fun he => hj (he ▸ h)
      rw [List.foldl_cons, ih _ hl h, State.supply_group_ne _ _ _ _ hne]
end

theorem exec_supplySample_shows (volts currents : List Nat) (g mv : Nat) (x : Group) (s : State) (hg : g < 4)
    (hmv : mv = volts.getD g 0) (hx : s.group g = x) :
    ∃ t, exec (.supplySample volts currents) s = .next t ∧ (t.group g).volt = mv ∧
      (t.group g).current = currents.getD g 0 ∧
      (t.group g).missing = (if x.missing then decide ((if 9500 < mv then x.above + 1 else 0) < 10)
        else decide (2 ≤ (if mv < 9000 then x.below + 1 else 0))) ∧
      (t.group g).low = (if x.low then decide (mv ≤ 100 * x.thr + 500) else decide (mv < 100 * x.thr)) := by
  subst hx hmv
  have hread := foldl_supply_reading s g (volts.getD · 0) (currents.getD · 0) (List.range 4) List.nodup_range
    (List.mem_range.mpr hg)
  simp only [Group.reading, Prod.mk.injEq] at hread
  refine ⟨_, done_next _ _, ?_⟩
  rw [settle_group_get]
  exact hread

/-! ### The self-test (09 R198) -/

section
variable (s : State) (k c : Nat)

/-- Every channel's self-test slot ends. -/
def State.slotsEnded : State :=
  s.modFio fun f => { f with chans := smap f.chans fun _ (x : ChanSt) => { x with stBusy := false } }
theorem State.slotsEnded_chan : s.slotsEnded.chan c = { s.chan c with stBusy := false } :=
  sget_smap ({} : ChanSt) s.fio.chans (fun _ (x : ChanSt) => { x with stBusy := false }) c rfl
theorem State.slotsEnded_stNext : s.slotsEnded.stNext k = s.stNext k := by
  have hskip (j : Nat) : s.slotsEnded.stSkips j = s.stSkips j := by
    unfold State.stSkips
    rw [s.slotsEnded_chan j]
    rfl
  simp only [State.stNext, hskip]

/-- The pass goes on with the next channel from `k` on, whose slot begins; the other channels' slots have ended. -/
theorem State.stGo_of_next (h : s.stNext k = some c) : s.stGo k =
    (s.slotsEnded.modChan c fun x => { x with stBusy := true }).modFio fun f => { f with pass := some c } := by
  have hnext : s.slotsEnded.stNext k = some c := (s.slotsEnded_stNext k).trans h
  simp only [State.slotsEnded] at hnext
  simp only [State.stGo, hnext, State.slotsEnded]
theorem State.stGo_of_last (h : s.stNext k = none) : s.stGo k = s.slotsEnded.modFio fun f => { f with pass := none } := by
  have hnext : s.slotsEnded.stNext k = none := (s.slotsEnded_stNext k).trans h
  simp only [State.slotsEnded] at hnext
  simp only [State.stGo, hnext, State.slotsEnded]
theorem State.stGo_shows (h : s.stNext k = some c) :
    (s.stGo k).fio.pass = some c ∧ ((s.stGo k).chan c).stBusy = true ∧ (s.stGo k).fio.stAt = s.fio.stAt ∧
      (s.stGo k).fio.stInt = s.fio.stInt := by
  rw [s.stGo_of_next k c h]
  refine ⟨rfl, ?_, rfl, rfl⟩
  simp [State.chan]
/-- A pass that goes on leaves what the tests have found. -/
theorem State.stGo_results (j : Nat) :
    ((s.stGo k).chan j).inFail = (s.chan j).inFail ∧ ((s.stGo k).chan j).openLoad = (s.chan j).openLoad := by
  have hchan := s.slotsEnded_chan j
  cases hn : s.stNext k with
  | none =>
    rw [s.stGo_of_last k hn]
    show (s.slotsEnded.chan j).inFail = _ ∧ (s.slotsEnded.chan j).openLoad = _
    rw [hchan]
    exact ⟨rfl, rfl⟩
  | some i =>
    rw [s.stGo_of_next k i hn]
    show ((s.slotsEnded.modChan i fun x => { x with stBusy := true }).chan j).inFail = _ ∧
      ((s.slotsEnded.modChan i fun x => { x with stBusy := true }).chan j).openLoad = _
    by_cases h : i = j
    · subst h
      rw [State.modChan_chan, hchan]
      exact ⟨rfl, rfl⟩
    · rw [State.modChan_chan_ne _ _ h, hchan]
      exact ⟨rfl, rfl⟩
end

theorem exec_selftestPassStart_starts (c : Nat) (s : State) (hi : s.fio.stInt ≠ 0) (hp : s.fio.pass = none)
    (hdue : s.fio.stAt + secTicks s.fio.stInt ≤ s.now) (hc : s.fio.configured = true) (hn : s.stNext 0 = some c) :
    ∃ t, exec .selftestPassStart s = .next t ∧ t.fio.pass = some c ∧ (t.chan c).stBusy = true ∧ t.fio.stAt = s.now := by
  have hstart : execSelftestPassStart s = done s ((s.modFio fun f => { f with stAt := s.now }).stGo 0) :=
    (if_pos (by simp [hi, hp, State.due, hdue])).trans (congrArg (done s) (if_pos hc))
  obtain ⟨hpass, hbusy, hat, -⟩ := (s.modFio fun f => { f with stAt := s.now }).stGo_shows 0 c hn
  refine ⟨_, hstart.trans (done_next _ _), ?_⟩
  rw [settle_fio, settle_chan_get]
  exact ⟨hpass, hbusy, hat⟩

/-- A channel after its self-test slot: the result of an input, or of an output that is off. -/
def ChanSt.tested (x : ChanSt) (out bad : Bool) : ChanSt :=
  if out then (if x.on then x else { x with openLoad := bad }) else { x with inFail := bad }

/-- A result that is reported (IRQ 6 and an event, or neither) leaves the channels. -/
theorem chan_of_reported (changed : Bool) (u : State) (c what : Nat) :
    (if changed then (u.modFio fun f => f.irq 6).chEvent c 5 what else u).chan c = u.chan c := by
  cases changed with
  | true => exact State.chEvent_chan _ c 5 what c
  | false => rfl

theorem exec_selftestSlot_records (c : Chan) (bad : Bool) (s : State) (hp : s.fio.pass = some c.val)
    (hs : s.stSkips c.val = false) :
    ∃ t, exec (.selftestSlot c bad) s = .next t ∧
      (t.chan c.val).inFail = ((s.chan c.val).tested (s.isOut c.val) bad).inFail ∧
      (t.chan c.val).openLoad = ((s.chan c.val).tested (s.isOut c.val) bad).openLoad := by
  let y := (s.chan c.val).tested (s.isOut c.val) bad
  have hexec : ∃ u : State, execSelftestSlot c bad s = done s (u.stGo (c.val + 1)) ∧ u.chan c.val = y := by
    unfold execSelftestSlot
    rw [if_pos hp, if_neg (by simp [hs])]
    exact ⟨_, rfl, (chan_of_reported _ _ c.val _).trans (s.chan_setChan c.val y)⟩
  obtain ⟨u, hu, hchan⟩ := hexec
  obtain ⟨hfail, hopen⟩ := u.stGo_results (c.val + 1) c.val
  refine ⟨_, hu.trans (done_next _ _), ?_⟩
  rw [settle_chan_get, hfail, hopen, hchan]
  exact ⟨rfl, rfl⟩

theorem exec_selftestSlot_of_input (c : Chan) (bad : Bool) (s : State) (hp : s.fio.pass = some c.val)
    (hs : s.stSkips c.val = false) (ho : s.isOut c.val = false) :
    ∃ t, exec (.selftestSlot c bad) s = .next t ∧ (t.chan c.val).inFail = bad ∧
      (t.chan c.val).openLoad = (s.chan c.val).openLoad := by
  have h := exec_selftestSlot_records c bad s hp hs
  simpa only [ho, ChanSt.tested, Bool.false_eq_true, if_false] using h
theorem exec_selftestSlot_of_output (c : Chan) (bad : Bool) (s : State) (hp : s.fio.pass = some c.val)
    (hs : s.stSkips c.val = false) (ho : s.isOut c.val = true) (hoff : (s.chan c.val).on = false) :
    ∃ t, exec (.selftestSlot c bad) s = .next t ∧ (t.chan c.val).openLoad = bad ∧
      (t.chan c.val).inFail = (s.chan c.val).inFail := by
  obtain ⟨t, ht, hfail, hopen⟩ := exec_selftestSlot_records c bad s hp hs
  simp only [ho, hoff, ChanSt.tested, Bool.false_eq_true, if_false, if_true] at hfail hopen
  exact ⟨t, ht, hopen, hfail⟩

/-- Settles O48: one lemma for each event, in the state where it applies. -/
theorem fieldInputsAndOutputsTakeEffect : Obligations.FieldInputsAndOutputsTakeEffect :=
  ⟨exec_fioLinkLoss_of_safe, exec_fioLinkLoss_enters_safe, exec_watchdogRefresh_of_up, exec_watchdogRefresh_of_down,
    exec_fioWatchdogExpiry_enters_safe, exec_fioControllerPowerUp_resets,
    fun c high x s ho hp hx => exec_inputRawChange_of_input c x s high ho hp hx, exec_inputFilterSample_of_rise,
    exec_inputFilterSample_of_top, exec_inputFilterSample_of_floor, exec_inputPointRefresh_of_chans,
    exec_inputPointRefresh_of_analog, exec_pulseEdge_counts,
    fun c l x s hx ho hb => exec_blankingEnd_passes c x s l hx ho hb,
    fun c l x s hx ho hb => exec_blankingEnd_of_limiting c x s l hx ho hb,
    fun c l x s hx ho hb => exec_blankingEnd_ends_retry c x s l hx ho hb, exec_overcurrentDetect_trips,
    exec_overcurrentDetect_of_blanking, exec_thermalTrip_trips, exec_retryTimerExpiry_of_hot,
    exec_retryTimerExpiry_queues, exec_junctionCooled_early, exec_junctionCooled_queues,
    exec_groupOverloadDetect_latches, exec_supplySample_shows, exec_selftestPassStart_starts, exec_selftestSlot_of_input,
    exec_selftestSlot_of_output⟩

end Sys2Proof.Machine

/-! Every event of a motion channel takes effect (O49). -/
namespace Sys2Proof.Machine

/-! ### What a motion channel does to its channel and its legs (09 R203 to R208) -/

section
variable (s : State) (m : Nat)

@[simp] theorem State.switchOn_chan_on (c rank : Nat) : ((s.switchOn c rank).chan c).on = true := by
  simp [State.switchOn, State.modFio, State.chan, State.modChan, State.setChan]

@[simp] theorem State.event_mot (t : Tenant) (d b inst code : Nat) (data : List Word) :
    (s.event t d b inst code data).mot m = s.mot m := by simp [State.mot]

/-- A leg goes on while the other one is off and its group is supplied. -/
theorem State.legOn_chan (home : Bool) (g : MoveGoal) (ho : (s.chan (legCh m (!home))).on = false)
    (hg : (s.group 3).missing = false) : ((s.legOn m home g).chan (legCh m home)).on = true := by
  simp [State.legOn, ho, hg]

/-- A pair at rest with somewhere to go: the leg of its side is on. -/
theorem State.startMove_chan_of_clear (g : MoveGoal) (hdt : (s.mot m).dtPend = false) (hmet : s.moveMet m g = false)
    (ho : (s.chan (legCh m (!goalSide (s.mot m).pos g))).on = false) (hsup : (s.group 3).missing = false) :
    ((s.startMove m g).chan (legCh m (goalSide (s.mot m).pos g))).on = true := by
  have hleg : s.startMove m g = (s.homeFirst m g).legOn m (goalSide (s.mot m).pos g) g := by
    simp [State.startMove, hdt, hmet]
  rw [hleg, State.legOn_chan _ _ _ _ (by simpa using ho) (by simpa using hsup)]

theorem State.legOff_mot_of_moving (h : (s.mot m).moving = true) : (s.legOff m).mot m = { s.mot m with
    state := .coasting, runTicks := s.now - (s.mot m).runStart, coast := 0, dtPend := true, goal := none } := by
  simp [State.legOff, h]
theorem State.legOff_chan_of_moving (h : (s.mot m).moving = true) : ((s.legOff m).chan (legCh m (s.mot m).side)).on = false := by
  simp [State.legOff, h, ChanSt.off]

/-- A fault of a running pair is held, the pair coasts, and what waits is dropped. -/
theorem State.motFault_of_moving (n : Nat) (h : (s.mot m).moving = true) :
    ((s.motFault m n).mot m).fault = n ∧ ((s.motFault m n).mot m).state = .coasting ∧ ((s.motFault m n).mot m).next = none ∧
      ((s.motFault m n).mot m).homed = (s.mot m).homed ∧
      ((s.motFault m n).chan (legCh m (s.mot m).side)).on = false := by
  let u := ((s.modMot m fun x => { x with fault := n, next := none }).modFio fun f => f.irq 4).event (s.motTenant m) 0 8 m 6
    [w32 m, w32 n]
  have hu : u.mot m = { s.mot m with fault := n, next := none } := by
    rw [State.event_mot]
    exact s.modMot_mot m fun x => { x with fault := n, next := none }
  have hmoving : (u.mot m).moving = true := by rw [hu]; exact h
  have hside : (u.mot m).side = (s.mot m).side := by rw [hu]; rfl
  have hfault : s.motFault m n = u.legOff m := if_pos hmoving
  rw [hfault, u.legOff_mot_of_moving m hmoving, hu, ← hside]
  exact ⟨rfl, rfl, rfl, rfl, u.legOff_chan_of_moving m hmoving⟩

theorem Motion.moving_of_far {x : Motion} (h : x.state = .far) : x.moving = true := by simp [Motion.moving, h]
theorem Motion.side_of_far {x : Motion} (h : x.state = .far) : x.side = false := by simp [Motion.side, h]
end

/-- The measurement of a coast (R207): its pulses, its side, and whether it is taken. -/
theorem Motion.coastEnd_of_pulse (x : Motion) (c : MotCfg) (h : Bool) (hleg : x.lastLeg = some h) (hp : c.pulse = true) :
    (x.coastEnd c).lastC = x.coast % 65536 ∧ (x.coastEnd c).lastDir = h ∧ (x.coastEnd c).lastAcc = coastOk c x h ∧
      (x.coastEnd c).learnRej = !coastOk c x h ∧ (x.coastEnd c).fault = x.fault ∧ (x.coastEnd c).next = x.next := by
  simp only [Motion.coastEnd, hleg, hp]
  cases hok : coastOk c x h with
  | false => simp
  | true => cases h <;> simp

/-! ### The events (09 R203, R205, R207) -/

theorem exec_coastEnd_measures (m : MotNo) (c : MotCfg) (x : Motion) (h : Bool) (s : State)
    (hc : s.motCfg? m.val = some c) (hx : s.mot m.val = x) (hst : x.state = .coasting) (hn : x.next = none)
    (hf : x.fault = 0) (hleg : x.lastLeg = some h) (hp : c.pulse = true) :
    ∃ t, exec (.coastEnd m) s = .next t ∧ (t.mot m.val).state = .idle ∧ (t.mot m.val).lastC = x.coast % 65536 ∧
      (t.mot m.val).lastDir = h ∧ (t.mot m.val).lastAcc = coastOk c x h ∧ (t.mot m.val).learnRej = !coastOk c x h := by
  subst hx
  obtain ⟨hlast, hdir, hacc, hrej, hfault, hnext⟩ := (s.mot m.val).coastEnd_of_pulse c h hleg hp
  let u := s.modMot m.val fun x => { x.coastEnd c with state := if x.fault = 0 then .idle else .fault }
  have hu : u.mot m.val = { (s.mot m.val).coastEnd c with state := .idle } :=
    (s.modMot_mot m.val _).trans (by rw [if_pos hf])
  have hexec : execCoastEnd m s = done s (u.rest m.val) := by
    have hnone : (u.mot m.val).next = none := by rw [hu]; exact hnext.trans hn
    simp only [execCoastEnd, hc, hst, beq_self_eq_true, if_true]
    rw [hnone]
  refine ⟨_, hexec.trans (done_next _ _), ?_⟩
  rw [settle_mot_get, State.rest_mot, hu, if_pos (hfault.trans hf)]
  exact ⟨rfl, hlast, hdir, hacc, hrej⟩

theorem exec_deadTimeExpiry_of_idle (m : MotNo) (s : State) (hdt : (s.mot m.val).dtPend = true)
    (hst : (s.mot m.val).state = .idle) :
    ∃ t, exec (.deadTimeExpiry m) s = .next t ∧ t.mot m.val = { s.mot m.val with dtPend := false } := by
  have hexec : execDeadTimeExpiry m s = done s (s.setMot m.val { s.mot m.val with dtPend := false }) := by
    simp only [execDeadTimeExpiry, hdt, hst, if_true]
  exact ⟨_, hexec.trans (done_next _ _), by rw [settle_mot_get, State.mot_setMot]⟩

theorem exec_deadTimeExpiry_starts (m : MotNo) (s : State) (hdt : (s.mot m.val).dtPend = true)
    (hst : (s.mot m.val).state = .dead) (hn : (s.mot m.val).next = some .homeLimit) (hl : s.limitOn m.val true = false)
    (ho : (s.chan (legCh m.val false)).on = false) (hsup : (s.group 3).missing = false) :
    ∃ t, exec (.deadTimeExpiry m) s = .next t ∧ (t.mot m.val).state = .home ∧ (t.mot m.val).dtPend = false ∧
      (t.mot m.val).goal = some .homeLimit ∧ (t.chan (legCh m.val true)).on = true := by
  let u := (s.setMot m.val { s.mot m.val with dtPend := false }).modMot m.val fun y => { y with state := .idle, next := none }
  have hu : u.mot m.val = { s.mot m.val with dtPend := false, state := .idle, next := none } := by simp [u]
  have hpend : (u.mot m.val).dtPend = false := by rw [hu]
  have hmet : u.moveMet m.val .homeLimit = false := by
    have hlimit : u.limitOn m.val true = false := hl
    simp [State.moveMet, goalSide, hlimit]
  have hexec : execDeadTimeExpiry m s = done s (u.startMove m.val .homeLimit) := by
    unfold execDeadTimeExpiry
    dsimp only
    rw [if_pos hdt]
    split
    next g _ hg => rw [← Option.some.inj (hn.symm.trans hg)]
    next hno => exact absurd hn (hno .homeLimit hst)
  have hmot := u.startMove_mot_of_clear m.val .homeLimit hpend hmet ho hsup
  refine ⟨_, hexec.trans (done_next _ _), ?_⟩
  rw [settle_mot_get, settle_chan_get, hmot]
  exact ⟨rfl, hpend, rfl, u.startMove_chan_of_clear m.val .homeLimit hpend hmet ho hsup⟩

theorem exec_moveTimeout_of_far (m : MotNo) (s : State) (hst : (s.mot m.val).state = .far) :
    ∃ t, exec (.moveTimeout m) s = .next t ∧ (t.mot m.val).fault = 3 ∧ (t.mot m.val).state = .coasting ∧
      (t.mot m.val).next = none ∧ (t.chan (legCh m.val false)).on = false := by
  have hmoving := Motion.moving_of_far hst
  obtain ⟨hfault, hstate, hnext, -, hoff⟩ := s.motFault_of_moving m.val 3 hmoving
  rw [Motion.side_of_far hst] at hoff
  refine ⟨_, (if_pos hmoving : execMoveTimeout m s = _).trans (done_next _ _), ?_⟩
  rw [settle_mot_get, settle_chan_get]
  exact ⟨hfault, hstate, hnext, hoff⟩

theorem exec_pulseLossTimeout_of_far (m : MotNo) (c : MotCfg) (s : State) (hst : (s.mot m.val).state = .far)
    (hc : s.motCfg? m.val = some c) (hp : c.pulse = true) :
    ∃ t, exec (.pulseLossTimeout m) s = .next t ∧ (t.mot m.val).fault = 6 ∧ (t.mot m.val).homed = false ∧
      (t.mot m.val).state = .coasting ∧ (t.chan (legCh m.val false)).on = false := by
  let u := s.modMot m.val fun x => { x with homed := false }
  have hu : u.mot m.val = { s.mot m.val with homed := false } := s.modMot_mot m.val _
  have hfar : (u.mot m.val).state = .far := by rw [hu]; exact hst
  obtain ⟨hfault, hstate, -, hhomed, hoff⟩ := u.motFault_of_moving m.val 6 (Motion.moving_of_far hfar)
  rw [Motion.side_of_far hfar] at hoff
  have hexec : execPulseLossTimeout m s = done s (u.motFault m.val 6) :=
    if_pos (by simp [Motion.moving_of_far hst, hc, hp])
  refine ⟨_, hexec.trans (done_next _ _), ?_⟩
  rw [settle_mot_get, settle_chan_get]
  exact ⟨hfault, by rw [hhomed, hu], hstate, hoff⟩

theorem exec_motionTargetChange_stops (m : MotNo) (c : MotCfg) (p : Nat) (s : State) (hc : s.motCfg? m.val = some c)
    (hp : c.target = some p) (hne : sfind s.fio.targets m.val ≠ some 0x800001) (hv : (s.cell p).value = 0x800001)
    (hst : (s.mot m.val).state = .far) :
    ∃ t, exec (.motionTargetChange m) s = .next t ∧ sfind t.fio.targets m.val = some 0x800001 ∧
      (t.mot m.val).state = .coasting ∧ (t.mot m.val).next = none := by
  let u := s.modFio fun f => { f with targets := sput f.targets m.val 0x800001 }
  have hmoving : (u.mot m.val).moving = true := Motion.moving_of_far hst
  have hbind : ((s.motCfg? m.val).bind fun (c : MotCfg) => c.target) = some p := by rw [hc]; exact hp
  have hexec : execMotionTargetChange m s = done s ((u.unasked m.val).motStop m.val) := by
    rw [← u.motCmd_stop_of_moving m.val 0x800001 hmoving]
    simp only [execMotionTargetChange, hbind, hv]
    exact if_neg hne
  have hlegs : LegsOff ((u.unasked m.val).motStop m.val) u := ((LegsOff.refl u).modMot m.val _).motStop m.val
  have htargets : ((u.unasked m.val).motStop m.val).fio.targets = u.fio.targets := by
    show ((u.unasked m.val).motStop m.val).fio.control.targets = u.fio.control.targets
    rw [hlegs.2.2]
  refine ⟨_, hexec.trans (done_next _ _), ?_⟩
  rw [settle_fio, settle_mot_get, htargets, (u.unasked m.val).motStop_mot_of_moving m.val (by rw [State.unasked_mot, hmoving])]
  exact ⟨sfind_sput_same _ _ _, rfl, rfl⟩

end Sys2Proof.Machine

/-! Every event of the metering engine takes effect (O49). -/
namespace Sys2Proof.Machine

/-! ### The end of a metering second (10 R212, R222, R223) -/

theorem orBit_getLsbD_of_set (w : Word) (i j : Nat) (h : w.getLsbD j = true) : (orBit w i true).getLsbD j = true := by
  simp [orBit, h]

/-- What the engine holds of its seconds and of its self-test: beside the inputs, sets, circuits and measurements. -/
def Metering.second (m : Metering) : Nat × BitVec 64 × Nat × Bool × TotalSlot × TotalSlot × Bool × Option Nat :=
  (m.tau, m.sec, m.count, m.lastSlot, m.slotA, m.slotB, m.connected, m.stNext)
/-- That, and the interrupt bits. -/
@[simp] abbrev SameSecond (t s : State) : Prop := t.mtr.second = s.mtr.second ∧ t.mtr.irqStat = s.mtr.irqStat

section
variable (s : State)

@[simp] theorem State.modVset_second (v : Nat) (f : Vset → Vset) : (s.modVset v f).mtr.second = s.mtr.second := rfl
@[simp] theorem State.setMinput_second (c : Nat) (x : MInputSt) : (s.setMinput c x).mtr.second = s.mtr.second := rfl
@[simp] theorem State.setMinput_irqStat (c : Nat) (x : MInputSt) : (s.setMinput c x).mtr.irqStat = s.mtr.irqStat := rfl
theorem State.endVset_second (c : VsetCfg) : (s.endVset c).mtr.second = s.mtr.second := by
  unfold State.endVset
  extract_lets _ bits _ _ _ u
  have hu : u.mtr.second = s.mtr.second := by
    show (if bits != 0 then _ else _ : State).mtr.second = _
    split <;> rfl
  rw [State.modVset_second, hu]
theorem foldl_second {α : Type} (f : State → α → State) (l : List α) (h : ∀ u x, (f u x).mtr.second = u.mtr.second) :
    (l.foldl f s).mtr.second = s.mtr.second :=
  List.foldlRecOn (motive := fun t => t.mtr.second = s.mtr.second) l f rfl fun u hu x _ => (h u x).trans hu
theorem foldl_sameSecond {α : Type} (f : State → α → State) (l : List α) (h : ∀ u x, SameSecond (f u x) u) :
    SameSecond (l.foldl f s) s :=
  List.foldlRecOn (motive := fun t => SameSecond t s) l f ⟨rfl, rfl⟩ fun u hu x _ =>
    ⟨(h u x).1.trans hu.1, (h u x).2.trans hu.2⟩

theorem State.calMeasures_sameSecond : SameSecond s.calMeasures s := by
  unfold State.calMeasures
  extract_lets l u
  refine foldl_sameSecond u _ l fun w x => ?_
  dsimp only
  split
  · simp
  · exact ⟨rfl, rfl⟩
theorem State.turnInput_sameSecond (c : Nat) : SameSecond (s.turnInput c) s := by
  unfold State.turnInput
  dsimp only
  split
  · simp
  · simp [Metering.second, State.modMtr, State.setMinput]

theorem Quiet.mtr {t s : State} (h : Quiet t s) : t.mtr = s.mtr := by simp only [h]

/-- The totals go to the slot that does not hold the last ones. -/
theorem Metering.writeTotals_shows (m : Metering) : m.writeTotals.count = m.count + 1 ∧ m.writeTotals.lastSlot = (!m.lastSlot) ∧
    (if m.lastSlot then m.writeTotals.slotA else m.writeTotals.slotB).good = true ∧
    (if m.lastSlot then m.writeTotals.slotA else m.writeTotals.slotB).count = m.count + 1 ∧
    m.writeTotals.sec = m.sec ∧ m.writeTotals.connected = m.connected ∧ m.writeTotals.stNext = m.stNext ∧
    m.writeTotals.irqStat = m.irqStat := by
  unfold Metering.writeTotals
  cases m.lastSlot <;> exact ⟨rfl, rfl, rfl, rfl, rfl, rfl, rfl, rfl⟩

/-- A second is closed: its number, its totals in the older slot, and its interrupt. -/
def Metering.Closed (t m : Metering) : Prop :=
  t.sec = m.sec + 1 ∧ t.count = m.count + 1 ∧ t.lastSlot = (!m.lastSlot) ∧
    (if m.lastSlot then t.slotA else t.slotB).good = true ∧ (if m.lastSlot then t.slotA else t.slotB).count = m.count + 1 ∧
    t.irqStat.getLsbD 0 = true
/-- The self-test goes on as before. -/
def Metering.SameTest (t m : Metering) : Prop := t.connected = m.connected ∧ t.stNext = m.stNext

theorem Metering.Closed.irq {t m : Metering} (h : t.Closed m) (i : Nat) : (t.irq i).Closed m := by
  obtain ⟨hsec, hcount, hlast, hgood, hslot, hirq⟩ := h
  exact ⟨hsec, hcount, hlast, hgood, hslot, orBit_getLsbD_of_set _ i 0 hirq⟩
/-- A second stays closed under what changes neither seconds nor interrupts. -/
theorem Metering.Closed.of_same {u t : Metering} {m : Metering} (h : t.Closed m) (hs : u.second = t.second)
    (hi : u.irqStat = t.irqStat) : u.Closed m := by
  simp only [Metering.second, Prod.mk.injEq] at hs
  obtain ⟨-, hsec, hcount, hlast, hslotA, hslotB, -, -⟩ := hs
  simpa only [Metering.Closed, hsec, hcount, hlast, hslotA, hslotB, hi] using h
theorem Metering.SameTest.of_same {u t : Metering} {m : Metering} (h : t.SameTest m) (hs : u.second = t.second) :
    u.SameTest m := by
  simp only [Metering.second, Prod.mk.injEq] at hs
  obtain ⟨-, -, -, -, -, -, hconn, hnext⟩ := hs
  exact ⟨hconn.trans h.1, hnext.trans h.2⟩

theorem Metering.closed_of_writeTotals {m n : Metering} (hsec : m.sec = n.sec + 1) (hcount : m.count = n.count)
    (hlast : m.lastSlot = n.lastSlot) (hirq : m.irqStat.getLsbD 0 = true) : m.writeTotals.Closed n := by
  obtain ⟨wcount, wlast, wgood, wslot, wsec, -, -, wirq⟩ := m.writeTotals_shows
  rw [hlast] at wlast wgood wslot
  rw [hcount] at wcount wslot
  exact ⟨wsec.trans hsec, wcount, wlast, wgood, wslot, wirq ▸ hirq⟩
/-- The totals are written under the second's number. -/
theorem Metering.closed_of_second (m n : Metering) (h : m.second = n.second) :
    ({ m with sec := BitVec.ofNat 64 (n.sec.toNat + 1) }.irq 0).writeTotals.Closed n ∧
      ({ m with sec := BitVec.ofNat 64 (n.sec.toNat + 1) }.irq 0).writeTotals.SameTest n := by
  have hnumber : BitVec.ofNat 64 (n.sec.toNat + 1) = n.sec + 1 := by
    rw [BitVec.ofNat_add, BitVec.ofNat_toNat, BitVec.setWidth_eq]
    rfl
  obtain ⟨-, -, -, -, -, wconn, wnext, -⟩ :=
    ({ m with sec := BitVec.ofNat 64 (n.sec.toNat + 1) }.irq 0).writeTotals_shows
  simp only [Metering.second, Prod.mk.injEq] at h
  obtain ⟨-, -, hcount, hlast, -, -, hconn, hnext⟩ := h
  exact ⟨Metering.closed_of_writeTotals hnumber hcount hlast (orBit_getLsbD _ 0 (by decide)), wconn.trans hconn,
    wnext.trans hnext⟩

theorem State.closeSecond_shows (how : SecondEnd) :
    (s.closeSecond how).mtr.Closed s.mtr ∧ (s.closeSecond how).mtr.SameTest s.mtr := by
  unfold State.closeSecond
  extract_lets sec u outs sat v w
  have hw : w.mtr.second = s.mtr.second := by
    show (State.batch _ _).mtr.second = _
    rw [(State.batch_quiet _ _).mtr]
    exact (foldl_second u (fun (t : State) e => t.endCircuit e.1 e.2 sec how) outs fun _ _ => rfl).trans
      (foldl_second s _ s.cfg.vsets State.endVset_second)
  obtain ⟨hclosed, htest⟩ := w.mtr.closed_of_second s.mtr hw
  clear_value sat w
  cases sat with
  | true => exact ⟨hclosed.irq 2, htest⟩
  | false => exact ⟨hclosed, htest⟩

/-- A test under way is cut off; the seconds and interrupts stay. -/
theorem State.testEnds_shows {m : Metering} (hclosed : s.mtr.Closed m) (htest : s.mtr.SameTest m)
    (hm : m.connected = false ∨ m.stNext.isSome = true) :
    s.testEnds.mtr.Closed m ∧ s.testEnds.mtr.connected = false := by
  obtain ⟨hconn, hnext⟩ := htest
  rw [← hconn, ← hnext] at hm
  unfold State.testEnds
  split
  · split
    · exact ⟨hclosed, rfl⟩
    next hoff => exact ⟨hclosed, by simpa using hoff⟩
  next hnone => exact ⟨hclosed, by simpa [hnone] using hm⟩
end

theorem exec_meteringSecondEnd_closes (s : State) (hr : s.mtr.running = true) (ht : 16000 ≤ s.mtr.tau)
    (hm : s.mtr.connected = false ∨ s.mtr.stNext.isSome = true) :
    ∃ t, exec .meteringSecondEnd s = .next t ∧ t.mtr.tau = 0 ∧ t.mtr.sec = s.mtr.sec + 1 ∧ t.mtr.count = s.mtr.count + 1 ∧
      t.mtr.lastSlot = (!s.mtr.lastSlot) ∧ (if s.mtr.lastSlot then t.mtr.slotA else t.mtr.slotB).good = true ∧
      (if s.mtr.lastSlot then t.mtr.slotA else t.mtr.slotB).count = s.mtr.count + 1 ∧ t.mtr.connected = false ∧
      t.mtr.irqStat.getLsbD 0 = true := by
  have hexec : ∃ (u v : State) (how : SecondEnd), u = (s.closeSecond how).calMeasures.testEnds ∧ v.mtr.second =
      { u.mtr with tau := 0 }.second ∧ v.mtr.irqStat = u.mtr.irqStat ∧ execMeteringSecondEnd s = done s v := by
    unfold execMeteringSecondEnd
    extract_lets m gain u v
    obtain ⟨hsecond, hirq⟩ := foldl_sameSecond v _ (List.range 54) State.turnInput_sameSecond
    exact ⟨u, _, _, rfl, hsecond, hirq, if_pos (by simp [m, hr, ht])⟩
  obtain ⟨u, v, how, hu, hv, hirq, hexec⟩ := hexec
  obtain ⟨hclosed, htest⟩ := s.closeSecond_shows how
  obtain ⟨hsame, hsameIrq⟩ := (s.closeSecond how).calMeasures_sameSecond
  obtain ⟨hend, hconn⟩ := State.testEnds_shows _ (hclosed.of_same hsame hsameIrq) (htest.of_same hsame) hm
  rw [← hu] at hend hconn
  have hend' : { u.mtr with tau := 0 }.Closed s.mtr := hend
  obtain ⟨hsec, hcount, hlast, hgood, hslot, hbit⟩ := hend'.of_same hv hirq
  simp only [Metering.second, Prod.mk.injEq] at hv
  obtain ⟨htau, -, -, -, -, -, hoff, -⟩ := hv
  refine ⟨_, hexec.trans (done_next _ _), ?_⟩
  rw [settle_mtr]
  exact ⟨htau, hsec, hcount, hlast, hgood, hslot, hoff.trans hconn, hbit⟩

/-! ### Half cycles (10 R217) -/

theorem exec_halfCycleEnd_begins (v : Fin 6) (x : Nat) (s : State)
    (hx : (s.crossNow v.val true).or (s.crossNow v.val false) = some x) (ha : sfind s.mtr.halfAt v.val = none) :
    ∃ t, exec (.halfCycleEnd v) s = .next t ∧ sfind t.mtr.halfAt v.val = some x ∧ t.pnt = s.pnt := by
  have hexec : execHalfCycleEnd v s = done s (s.modMtr fun m => { m with halfAt := sput m.halfAt v.val x }) := by
    simp only [execHalfCycleEnd, hx, ha]
  refine ⟨_, hexec.trans (done_next _ _), ?_⟩
  rw [settle_mtr, settle_pnt]
  exact ⟨sfind_sput_same _ _ _, rfl⟩

/-- The half cycle of a single-phase circuit's voltage writes its RMS voltage. -/
theorem State.halfWrites_of_single (s : State) (v a n m : Nat) (c : CircuitCfg) (e : Desc) (w : V24)
    (hc : s.cfg.circuits = [c]) (hthree : c.three = false) (hv : 3 * c.set + c.phase - 1 = v)
    (hgood : (s.vset (v / 3)).vbad.getLsbD (v % 3) = false)
    (hp : s.mtrPoints c.k (fun q => q == 1 || q == 3) = [(m, e, 0, 1)]) (htest : s.tested (touching c) a = false)
    (hcal : (s.minput v).calBad = false)
    (hw : pointValue (rmsOf (sumSq (s.spanFrom v a n)) n (s.mcfg v).ratio.toNat) 1000 e.exp = (w, false)) :
    s.halfWrites v a n = [{ m := m, src := .field, q := .good, v := w }] := by
  simp [State.halfWrites, hc, phasesOf, hthree, hv, hgood, hp, htest, quantWrite, hw, State.calQual, hcal]

theorem exec_halfCycleEnd_writes (v : Fin 6) (x a m : Nat) (c : CircuitCfg) (e : Desc) (w : V24) (s : State)
    (hr : s.mtr.running = true) (hx : (s.crossNow v.val true).or (s.crossNow v.val false) = some x)
    (ha : sfind s.mtr.halfAt v.val = some a) (hax : a < x) (hc : s.cfg.circuits = [c]) (hthree : c.three = false)
    (hv : 3 * c.set + c.phase - 1 = v.val) (hgood : (s.vset (v.val / 3)).vbad.getLsbD (v.val % 3) = false)
    (hp : s.mtrPoints c.k (fun q => q == 1 || q == 3) = [(m, e, 0, 1)]) (htest : s.tested (touching c) a = false)
    (hcal : (s.minput v.val).calBad = false)
    (hw : pointValue (rmsOf (sumSq (s.spanFrom v.val a (x - a))) (x - a) (s.mcfg v.val).ratio.toNat) 1000 e.exp = (w, false))
    (hd : s.desc? m = some e) (hf : (s.cell m).forced = false) :
    ∃ t, exec (.halfCycleEnd v) s = .next t ∧ sfind t.mtr.halfAt v.val = some x ∧ (t.cell m).value = w ∧
      (t.cell m).qual = .good ∧ (t.cell m).src = .field := by
  let u := s.modMtr fun m => { m with halfAt := sput m.halfAt v.val x }
  have hwrites : u.halfWrites v.val a (x - a) = [{ m := m, src := .field, q := .good, v := w }] :=
    u.halfWrites_of_single v.val a (x - a) m c e w hc hthree hv hgood hp htest hcal hw
  have hexec : execHalfCycleEnd v s = done s (u.batch [{ m := m, src := .field, q := .good, v := w }]) := by
    rw [← hwrites]
    simp only [execHalfCycleEnd, hx, ha, hr, hax, decide_true, Bool.and_self, if_true]
    rfl
  obtain ⟨hvalue, hqual, hsrc, -⟩ := u.sourceWrite_cell_of_free m .field w e hd hf
  refine ⟨_, hexec.trans (done_next _ _), ?_⟩
  rw [settle_mtr, State.cell_congr (settle_pnt s _), (State.batch_quiet _ _).mtr, State.batch_one_cell]
  exact ⟨sfind_sput_same _ _ _, hvalue, hqual, hsrc⟩

/-! ### Harmonic windows (10 R219) -/

theorem exec_harmonicWindowEnd_begins (set : Fin 2) (x : Nat) (s : State) (hr : s.mtr.running = true)
    (hb : (s.vset set.val).vbad.getLsbD 0 = false) (hx : s.crossNow (3 * set.val) true = some x)
    (ha : sfind s.mtr.harmAt set.val = none) :
    ∃ t, exec (.harmonicWindowEnd set) s = .next t ∧ sfind t.mtr.harmAt set.val = some x ∧ t.mtr.inputs = s.mtr.inputs := by
  have hexec : execHarmonicWindowEnd set s = done s (s.modMtr fun m => { m with harmAt := sput m.harmAt set.val x }) := by
    unfold execHarmonicWindowEnd
    rw [if_neg (by rw [hr, hb]; decide), hx, ha]
  refine ⟨_, hexec.trans (done_next _ _), ?_⟩
  rw [settle_mtr]
  exact ⟨sfind_sput_same _ _ _, rfl⟩

theorem State.modMinput_minput (s : State) (c j : Nat) (f : MInputSt → MInputSt) :
    (s.modMinput c f).minput j = if c = j then f (s.minput c) else s.minput j := by
  split
  next h =>
    subst h
    exact sget_sput_same _ _ _ _
  next h => exact sget_sput_ne _ _ _ h

/-- A window is stored for every input of the set that no test overlaps, and begins the next one. -/
theorem State.harmReport_shows (s : State) (set c a n : Nat) (htest : s.harmTested set c a = false)
    (hc : (s.harmInputs set).contains c = true) :
    (s.harmReport set a n).mtr.harmAt = s.mtr.harmAt ∧
      ((s.harmReport set a n).minput c).harm = s.harmonics set c a n := by
  unfold State.harmReport
  extract_lets u v
  have hmem : c ∈ (s.harmInputs set).filter fun c => !s.harmTested set c a :=
    List.mem_filter.mpr ⟨List.contains_iff_mem.mp hc, by simp [htest]⟩
  have hharm : (u.minput c).harm = s.harmonics set c a n := by
    refine foldl_of_mem (P := fun w : State => (w.minput c).harm = s.harmonics set c a n) _ c (fun w => ?_)
      (fun w j hw => ?_) _ s hmem
    · rw [State.modMinput_minput, if_pos rfl]
    · rw [State.modMinput_minput]
      split
      next hj => rw [hj]
      next => exact hw
  have hat : u.mtr.harmAt = s.mtr.harmAt :=
    List.foldlRecOn (motive := fun w : State => w.mtr.harmAt = s.mtr.harmAt) _ _ rfl fun w hw j _ => hw
  rw [State.minput, (State.batch_quiet _ _).mtr]
  exact ⟨hat, hharm⟩

theorem exec_harmonicWindowEnd_stores (set : Fin 2) (x a c : Nat) (s : State) (hr : s.mtr.running = true)
    (hb : (s.vset set.val).vbad.getLsbD 0 = false) (hx : s.crossNow (3 * set.val) true = some x)
    (ha : sfind s.mtr.harmAt set.val = some a)
    (hn : (upCross (s.pastHyst (3 * set.val)) 0 false false 0 (s.spanFrom (3 * set.val) a (s.now + 1 - a))).length =
      s.harmCycles set.val) (htest : s.harmTested set.val c a = false) (hc : (s.harmInputs set.val).contains c = true) :
    ∃ t, exec (.harmonicWindowEnd set) s = .next t ∧ sfind t.mtr.harmAt set.val = some x ∧
      (t.minput c).harm = s.harmonics set.val c a (x - a) := by
  let u := s.modMtr fun m => { m with harmAt := sput m.harmAt set.val x }
  have hexec : execHarmonicWindowEnd set s = done s (u.harmReport set.val a (x - a)) := by
    unfold execHarmonicWindowEnd
    rw [if_neg (by rw [hr, hb]; decide), hx, ha]
    dsimp only
    rw [if_neg (by rw [hn]; exact Nat.lt_irrefl _), if_pos hn]
  obtain ⟨hat, hharm⟩ := u.harmReport_shows set.val c a (x - a) htest hc
  refine ⟨_, hexec.trans (done_next _ _), ?_⟩
  rw [State.minput, settle_mtr, hat]
  exact ⟨sfind_sput_same _ _ _, hharm⟩

/-! ### The self-test (10 R227) -/

theorem exec_mtrSelftestTimer_starts (s : State) (hi : s.mtr.stInt ≠ 0) (hn : s.mtr.stNext = none)
    (hd : s.mtr.stAt + secTicks (60 * s.mtr.stInt) ≤ s.now) :
    ∃ t, exec .mtrSelftestTimer s = .next t ∧ t.mtr.stActive = true ∧ t.mtr.stNext = some 0 ∧ t.mtr.stAt = s.now ∧
      t.mtr.connected = s.mtr.connected := by
  have hexec : execMtrSelftestTimer s = done s (s.modMtr fun m =>
      { m with stActive := true, stNext := some 0, stInput := 0, stAt := s.now }) := by
    simp [execMtrSelftestTimer, State.stStart, State.testEnds, State.due, hi, hn, hd]
  refine ⟨_, hexec.trans (done_next _ _), ?_⟩
  rw [settle_mtr]
  exact ⟨rfl, rfl, rfl, rfl⟩

theorem exec_meterSelftestConnect_connects (c : Nat) (s : State) (hn : s.mtr.stNext = some c) (hr : s.mtr.running = true)
    (h4 : 4000 ≤ s.mtr.tau) (h7 : s.mtr.tau < 7200) (ho : s.mtr.connected = false) :
    ∃ t, exec .meterSelftestConnect s = .next t ∧ t.mtr.connected = true ∧ t.mtr.stInput = BitVec.ofNat 6 c ∧
      t.mtr.stNext = some c := by
  have hexec : execMeterSelftestConnect s = done s (s.modMtr fun m =>
      { m with connected := true, stInput := BitVec.ofNat 6 c, stHit := insNat c m.stHit }) := by
    simp [execMeterSelftestConnect, hn, hr, h4, h7, ho]
  refine ⟨_, hexec.trans (done_next _ _), ?_⟩
  rw [settle_mtr]
  exact ⟨rfl, rfl, hn⟩

theorem exec_meterSelftestDisconnect_judges (c : Nat) (fail : Bool) (s : State) (hn : s.mtr.stNext = some c) (hc : c ≠ 53)
    (ho : s.mtr.connected = true) (h7 : 7200 ≤ s.mtr.tau)
    (hf : fail = decide (2 * 2 ^ 20 < (s.gainDev c).natAbs * 1000)) :
    ∃ t, exec .meterSelftestDisconnect s = .next t ∧ t.mtr.connected = false ∧ t.mtr.stNext = some (c + 1) ∧
      t.mtr.stActive = true ∧ t.mtr.stLast = w32 (c + flag (!fail) 6 + 256 * (BitVec.ofInt 24 (s.gainDev c)).toNat) ∧
      t.mtr.stFails = (if fail then addW s.mtr.stFails 1 else s.mtr.stFails) := by
  have hopen : s.mtr.connected && decide (7200 ≤ s.mtr.tau) := by simp [ho, h7]
  show ∃ t, execMeterSelftestDisconnect s = .next t ∧ _
  unfold execMeterSelftestDisconnect
  rw [hn]
  dsimp only
  rw [if_pos hopen, ← hf]
  cases fail with
  | true =>
    have hbad := of_decide_eq_true hf.symm
    simp only [if_pos hbad]
    refine ⟨_, done_next _ _, ?_⟩
    rw [settle_mtr, (State.event_quiet _ _ _ _ _ _ _).mtr]
    exact ⟨rfl, if_neg hc, by simp [State.modMtr, Metering.irq, hc], rfl, rfl⟩
  | false =>
    have hfine := of_decide_eq_false hf.symm
    simp only [if_neg hfine]
    refine ⟨_, done_next _ _, ?_⟩
    rw [settle_mtr]
    exact ⟨rfl, if_neg hc, by simp [State.modMtr, hc], rfl, rfl⟩

/-- Settles O49: one lemma for each event, in the state where it applies. -/
theorem motionAndMeteringTakeEffect : Obligations.MotionAndMeteringTakeEffect :=
  ⟨exec_coastEnd_measures, exec_deadTimeExpiry_of_idle, exec_deadTimeExpiry_starts, exec_moveTimeout_of_far,
    exec_pulseLossTimeout_of_far, exec_motionTargetChange_stops, exec_meteringSecondEnd_closes, exec_halfCycleEnd_begins,
    fun v x a m c e w s hr hx ha hax hc hthree _ hv hgood hp htest hcal hw hd _ hf =>
      exec_halfCycleEnd_writes v x a m c e w s hr hx ha hax hc hthree hv hgood hp htest hcal hw hd hf,
    exec_harmonicWindowEnd_begins, exec_harmonicWindowEnd_stores, exec_mtrSelftestTimer_starts,
    exec_meterSelftestConnect_connects, exec_meterSelftestDisconnect_judges⟩

end Sys2Proof.Machine

/-! The requests of the field I/O and the motion channels take effect (O58). -/
namespace Sys2Proof.Machine

/-! ### How a request of the field I/O is answered -/

section
variable {s u : State} {r : Req} {op i : Nat} {data : List Byte} {h : ReqHead}

/-- A command whose request may start and passes its checks gives the request its answer, and leaves the field I/O as its own
part does. -/
theorem State.done_serve_fio {landlord : Bool} {bad : Option Nat} {f : Tenant → Nat → State → Answer} {res : Result}
    (ho : s.offers r op (· == data) h i) (hb : bad = none) (hl : landlord = true → s.reqTenant r.sender.val = 0)
    (hf : f (s.reqTenant r.sender.val) h.rlen (s.begun r h i) = ansOk res u) (hu : SameHost u (s.begun r h i)) :
    ∃ t, done s (s.serve r op landlord (· == data) bad f) = .next t ∧ t.resultOf r i = some res ∧ t.fio = u.fio := by
  have hrun : s.serve r op landlord (· == data) bad f =
      u.modSender r.sender.val fun x => { x with reqs := putResult i r.tag res x.reqs } := by
    rw [s.serve_offers r op h i landlord _ _ f ho hb hl, hf]
    rfl
  refine ⟨_, done_next _ _, ?_, ?_⟩
  · rw [hrun, settle_resultOf]
    exact s.resultOf_answer u r op _ h i res ho hu
  · rw [hrun, settle_fio]
    rfl

/-- A command whose request waits: the request has no result yet, and the command has had its effect. -/
theorem State.done_serve_waits {landlord : Bool} {bad : Option Nat} {f : Tenant → Nat → State → Answer}
    (ho : s.offers r op (· == data) h i) (hb : bad = none) (hl : landlord = true → s.reqTenant r.sender.val = 0)
    (hf : f (s.reqTenant r.sender.val) h.rlen (s.begun r h i) = ansWait u) (hu : SameHost u (s.begun r h i)) :
    ∃ t, done s (s.serve r op landlord (· == data) bad f) = .next t ∧ t.resultOf r i = none ∧ t.fio = u.fio := by
  have hrun : s.serve r op landlord (· == data) bad f = u := by
    rw [s.serve_offers r op h i landlord _ _ f ho hb hl, hf]
    rfl
  refine ⟨_, done_next _ _, ?_, ?_⟩
  · have hsender : u.sender r.sender.val = (s.begun r h i).sender r.sender.val := by simp only [State.sender, hu]
    rw [hrun, settle_resultOf, State.resultOf, hsender, s.begun_get r op _ h i ho]
    rfl
  · rw [hrun, settle_fio]
end

/-! ### Field I/O (14 R320) -/

section
variable (r : Req) (h : ReqHead) (i : Nat) (s : State)

/-- The rows of channels do not turn on the request that reads them. -/
theorem State.chanRows_begun (l : List Nat) : ((s.begun r h i).chanRows l).1 = (s.chanRows l).1 := by
  induction l generalizing s with
  | nil => rfl
  | cons c l ih =>
    have hrest : ((if s.isOut c then (s.begun r h i).draw.2 else s.begun r h i).chanRows l).1 =
        ((if s.isOut c then s.draw.2 else s).chanRows l).1 := by
      split
      · exact ih s.draw.2
      · exact ih s
    exact congrArg (leBytes c 1 ++ leBytes (s.chStatWord c) 4 ++ leBytes (s.chCntWord c) 4 ++ ·) hrest
theorem State.chanRows_fio (l : List Nat) : (s.chanRows l).2.fio = s.fio := by
  induction l generalizing s with
  | nil => rfl
  | cons c l ih =>
    simp only [State.chanRows]
    split
    · exact ih s.draw.2
    · exact ih s

theorem exec_fioStatus_reads (l : List Nat) (ho : s.offers r 0x0801 (· == []) h i)
    (hl : (List.range 64).filter (s.chanSeen (s.reqTenant r.sender.val)) = l) :
    ∃ t, exec (.fioStatus r) s = .next t ∧ t.resultOf r i = some { resp := (s.chanRows l).1 } ∧ t.fio = s.fio := by
  subst hl
  rw [← State.chanRows_begun r h i]
  obtain ⟨t, ht, hres, hkept⟩ := State.done_serve_fio (landlord := false) ho rfl (by simp) (f := fun t _ s =>
    let (l, u) := s.chanRows ((List.range 64).filter (s.chanSeen t))
    ansOk { resp := l } u) rfl ((s.begun r h i).chanRows_hp _)
  exact ⟨t, ht, hres, hkept.trans ((s.begun r h i).chanRows_fio _)⟩

theorem exec_fioGroups_reads (ho : s.offers r 0x0802 (· == []) h i) (ht : s.reqTenant r.sender.val = 0) :
    ∃ t, exec (.fioGroups r) s = .next t ∧ t.resultOf r i = some (okWords (w32 (s.groupWord 0)) (w32 (s.groupWord 1))
      (w32 (s.groupWord 2)) (w32 (s.groupWord 3)) (w32 s.fioStatus)) ∧ t.fio = s.fio :=
  State.done_serve_fio ho rfl (fun _ => ht) (u := s.begun r h i) rfl rfl

theorem exec_fioClear_clears (ch : Byte) (ho : s.offers r 0x0803 (· == [ch]) h i) (hch : ch.toNat < 64)
    (hseen : s.chanSeen (s.reqTenant r.sender.val) ch.toNat = true) (hl : (s.chan ch.toNat).latched = true)
    (hown : s.motionOwns ch.toNat = false) :
    ∃ t, exec (.fioClear r ch) s = .next t ∧ t.resultOf r i = some {} ∧ t.chan ch.toNat =
      { s.chan ch.toNat with latched := false, short := false, thermal := false, groupOvl := false } := by
  let u := (s.begun r h i).clearChan ch.toNat
  have hu : u = (s.begun r h i).modChan ch.toNat fun x =>
      { x with latched := false, short := false, thermal := false, groupOvl := false } :=
    if_pos (Bool.and_eq_true_iff.2 ⟨hl, by rw [show (s.begun r h i).motionOwns ch.toNat = _ from hown]; rfl⟩)
  obtain ⟨t, ht, hres, hfio⟩ := State.done_serve_fio (landlord := false) ho
    (show rangeBad (decide (ch.toNat < 64)) = none by simp [rangeBad, hch]) (by simp) (f := fun t _ s =>
      if s.chanSeen t ch.toNat then ansOk {} (s.clearChan ch.toNat) else ansNo stNotFound 0 s) (u := u) (if_pos hseen)
    (State.clearChan_hp _ _)
  refine ⟨t, ht, hres, ?_⟩
  rw [State.chan_congr (congrArg FieldIO.chans hfio), hu, State.modChan_chan]
  rfl

/-- The interval is set, and a pass begins or ends. -/
theorem exec_fioSelftest_open (action : Byte) (interval : BitVec 16)
    (ho : s.offers r 0x0804 (· == pack [(action.toNat, 1), (interval.toNat, 2)]) h i) (ht : s.reqTenant r.sender.val = 0)
    (ha : action.toNat ≤ 1) (hi : interval.toNat ≤ 3600) {u : State}
    (hu : (if action = 0 then ((s.begun r h i).modFio fun x => { x with stInt := interval.toNat }).fioStStart
      else ((s.begun r h i).modFio fun x => { x with stInt := interval.toNat }).fioStStop) = u)
    (hhost : SameHost u (s.begun r h i)) :
    ∃ t, exec (.fioSelftest r action interval) s = .next t ∧ t.resultOf r i = some {} ∧ t.fio = u.fio :=
  State.done_serve_fio ho (by simp [rangeBad, ha, hi]) (fun _ => ht) (hu ▸ rfl) hhost

theorem exec_fioSelftest_stops (action : Byte) (interval : BitVec 16)
    (ho : s.offers r 0x0804 (· == pack [(action.toNat, 1), (interval.toNat, 2)]) h i) (ht : s.reqTenant r.sender.val = 0)
    (ha : action = 1) (hi : interval.toNat ≤ 3600) :
    ∃ t, exec (.fioSelftest r action interval) s = .next t ∧ t.resultOf r i = some {} ∧ t.fio.stInt = interval.toNat ∧
      t.fio.pass = none := by
  subst ha
  let u := (s.begun r h i).modFio fun x => { x with stInt := interval.toNat }
  have hlast : u.stNext 64 = none := by
    simp only [State.stNext, List.find?_eq_none, List.mem_range]
    intro c hc
    simp; omega
  obtain ⟨t, ht, hres, hfio⟩ := exec_fioSelftest_open r h i s 1 interval ho ht (by decide) hi (u := u.fioStStop) rfl
    u.fioStStop_hp
  refine ⟨t, ht, hres, ?_⟩
  rw [hfio, State.fioStStop, u.stGo_of_last 64 hlast]
  exact ⟨rfl, rfl⟩

theorem exec_fioSelftest_starts (action : Byte) (interval : BitVec 16) (c : Nat)
    (ho : s.offers r 0x0804 (· == pack [(action.toNat, 1), (interval.toNat, 2)]) h i) (ht : s.reqTenant r.sender.val = 0)
    (ha : action = 0) (hi : interval.toNat ≤ 3600) (hc : s.fio.configured = true) (hn : s.stNext 0 = some c) :
    ∃ t, exec (.fioSelftest r action interval) s = .next t ∧ t.resultOf r i = some {} ∧ t.fio.stInt = interval.toNat ∧
      t.fio.pass = some c ∧ (t.chan c).stBusy = true := by
  subst ha
  let u := (s.begun r h i).modFio fun x => { x with stInt := interval.toNat }
  let v := u.modFio fun f => { f with stAt := u.now }
  have hstart : u.fioStStart = v.stGo 0 := if_pos hc
  obtain ⟨hpass, hbusy, -, hint⟩ := v.stGo_shows 0 c hn
  obtain ⟨t, ht, hres, hfio⟩ := exec_fioSelftest_open r h i s 0 interval ho ht (by decide) hi hstart (v.stGo_hp 0)
  refine ⟨t, ht, hres, ?_⟩
  rw [State.chan_congr (congrArg FieldIO.chans hfio), hfio]
  exact ⟨hint, hpass, hbusy⟩

theorem exec_fioWatchdog_sets (tmo : BitVec 16) (logic : Byte)
    (ho : s.offers r 0x0805 (· == pack [(tmo.toNat, 2), (logic.toNat, 1)]) h i) (ht : s.reqTenant r.sender.val = 0)
    (hlo : 10 ≤ tmo.toNat) (hhi : tmo.toNat ≤ 10000) (hl : logic.toNat ≤ 1) :
    ∃ t, exec (.fioWatchdog r tmo logic) s = .next t ∧ t.resultOf r i = some {} ∧ t.fio.wdTmo = tmo.toNat ∧
      t.fio.wdLogic = (logic == 1) ∧ t.fio.chans = s.fio.chans := by
  obtain ⟨t, ht, hres, hfio⟩ := State.done_serve_fio ho
    (show rangeBad (10 ≤ tmo.toNat && tmo.toNat ≤ 10000 && logic.toNat ≤ 1) = none by simp [rangeBad, hlo, hhi, hl])
    (fun _ => ht) (f := fun _ _ s => ansOk {} (s.modFio fun x => { x with wdTmo := tmo.toNat, wdLogic := logic == 1 })) rfl
    rfl
  refine ⟨t, ht, hres, ?_⟩
  rw [hfio]
  exact ⟨rfl, rfl, rfl⟩
end

/-! ### Motion channels (14 R320) -/

/-- The state in which a request's move begins: the request waits for its end. -/
def State.asked (s : State) (m : Nat) (r : Req) : State := s.modMot m fun y => { y with reqs := y.reqs ++ [r] }
@[simp] theorem State.asked_mot (s : State) (m : Nat) (r : Req) :
    (s.asked m r).mot m = { s.mot m with reqs := (s.mot m).reqs ++ [r] } := by simp [State.asked]

/-- A far move that a request asks of a supplied pair at rest. -/
theorem State.motCmd_far_of_idle (s : State) (m : Nat) (v : V24) (r : Req) (c : MotCfg) (hc : s.motCfg? m = some c)
    (hsafe : s.fio.safe = false) (hsup : (s.group 3).missing = false) (hfault : (s.mot m).fault = 0)
    (hidle : (s.mot m).state = .idle) : s.motCmd m 1 v (some r) = (stOk, (s.asked m r).startMove m .farLimit) := by
  have hblocked : (s.mot m).blocked (goalSide (s.mot m).pos .farLimit) = false := by simp [Motion.blocked, hfault]
  have hmoving : (s.mot m).moving = false := by simp [Motion.moving, hidle]
  simp [State.motCmd, State.move, State.asked, hc, hsafe, hsup, hblocked, hmoving, hidle]

/-- A pair at rest with somewhere to go starts without answering anything. -/
theorem State.startMove_host_of_clear (s : State) (m : Nat) (hdt : (s.mot m).dtPend = false)
    (hmet : s.moveMet m .farLimit = false) (ho : (s.chan (legCh m true)).on = false)
    (hsup : (s.group 3).missing = false) : SameHost (s.startMove m .farLimit) s := by
  have hleg : s.startMove m .farLimit = s.legOn m false .farLimit := by
    simp [State.startMove, State.homeFirst, goalSide, hdt, hmet]
  rw [hleg, State.legOn, if_neg (by simp [ho, hsup])]
  rfl

section
variable (r : Req) (h : ReqHead) (i : Nat) (s : State)

theorem exec_motCmd_moves_far (m cmd : Byte) (target : V24) (c : MotCfg) (x : Motion)
    (ho : s.offers r 0x0806 (· == pack [(m.toNat, 1), (cmd.toNat, 1), (target.toNat, 3)]) h i) (hm : m.toNat < 8)
    (hcmd : cmd = 1) (hc : s.motCfg? m.toNat = some c) (hr : reaches (s.reqTenant r.sender.val) c.tenant = true)
    (hsafe : s.fio.safe = false) (hsup : (s.group 3).missing = false)
    (hoff : (s.chan (legCh m.toNat true)).on = false) (hx : s.mot m.toNat = x) (hfault : x.fault = 0)
    (hidle : x.state = .idle) (hdt : x.dtPend = false) (hreqs : x.reqs = []) (hl : s.limitOn m.toNat false = false) :
    ∃ t, exec (.motCmd r m cmd target) s = .next t ∧ t.resultOf r i = none ∧ (t.mot m.toNat).state = .far ∧
      (t.mot m.toNat).goal = some .farLimit ∧ (t.mot m.toNat).lastLeg = some false ∧ (t.mot m.toNat).reqs = [r] := by
  subst hx hcmd
  let u := (s.begun r h i).asked m.toNat r
  have hu : u.mot m.toNat = { s.mot m.toNat with reqs := [r] } := by
    show ((s.begun r h i).asked m.toNat r).mot m.toNat = _
    rw [State.asked_mot, show (s.begun r h i).mot m.toNat = s.mot m.toNat from rfl, hreqs]
    rfl
  have hpend : (u.mot m.toNat).dtPend = false := by rw [hu]; exact hdt
  have hmet : u.moveMet m.toNat .farLimit = false := by
    have hlimit : u.limitOn m.toNat false = false := hl
    simp [State.moveMet, goalSide, hlimit]
  have hcfg : (s.begun r h i).motCfg? m.toNat = some c := hc
  have hmove := (s.begun r h i).motCmd_far_of_idle m.toNat target r c hc hsafe hsup hfault hidle
  obtain ⟨t, ht, hres, hfio⟩ : ∃ t, exec (.motCmd r m 1 target) s = .next t ∧ t.resultOf r i = none ∧
      t.fio = (u.startMove m.toNat .farLimit).fio := by
    refine State.done_serve_waits ho (by simp [rangeBad, hm]) (by simp) ?_
      (u.startMove_host_of_clear m.toNat hpend hmet hoff hsup)
    dsimp only
    rw [hcfg]
    exact (if_pos hr).trans (congrArg (fun a => if a.1 = stOk then ansWait a.2 else ansNo a.1 0 (s.begun r h i)) hmove)
  have hmot : t.mot m.toNat = (u.startMove m.toNat .farLimit).mot m.toNat := by rw [State.mot, hfio]; rfl
  refine ⟨t, ht, hres, ?_⟩
  rw [hmot, u.startMove_mot_of_clear m.toNat .farLimit hpend hmet hoff hsup]
  exact ⟨rfl, rfl, rfl, congrArg Motion.reqs hu⟩

theorem exec_motStatus_reads (m : Byte) (c : MotCfg) (ho : s.offers r 0x0807 (· == [m]) h i) (hm : m.toNat < 8)
    (hc : s.motCfg? m.toNat = some c) (hr : reaches (s.reqTenant r.sender.val) c.tenant = true) :
    ∃ t, exec (.motStatus r m) s = .next t ∧ t.resultOf r i = some (okWords (w32 (s.motWord m.toNat 0x14))
      (w32 (s.motWord m.toNat 0x08)) (w32 (s.motWord m.toNat 0x0C)) (w32 (s.motWord m.toNat 0x10))
      (w32 (s.motWord m.toNat 0x20))) ∧ t.fio = s.fio := by
  have hcfg : (s.begun r h i).motCfg? m.toNat = some c := hc
  refine State.done_serve_fio ho (by simp [rangeBad, hm]) (by simp) (u := s.begun r h i) ?_ rfl
  dsimp only
  rw [hcfg]
  exact if_pos hr
end

/-- Settles O58: one lemma for each command, in the state where it applies. -/
theorem fieldRequestsTakeEffect : Obligations.FieldRequestsTakeEffect :=
  ⟨fun r h i l s => exec_fioStatus_reads r h i s l, exec_fioGroups_reads, fun r ch h i s => exec_fioClear_clears r h i s ch,
    fun r action interval h i s => exec_fioSelftest_stops r h i s action interval,
    fun r action interval h i c s => exec_fioSelftest_starts r h i s action interval c,
    fun r tmo logic h i s => exec_fioWatchdog_sets r h i s tmo logic,
    fun r m cmd target h i c x s => exec_motCmd_moves_far r h i s m cmd target c x,
    fun r m h i c s => exec_motStatus_reads r h i s m c⟩

end Sys2Proof.Machine

/-! The requests of the metering engine take effect (O59). -/
namespace Sys2Proof.Machine

/-! ### How a request of the metering engine is answered -/

/-- What the metering engine and its channel hold is read through `mtr` and `dmas` alone. -/
theorem Quiet.minput {t u : State} (h : Quiet t u) (c : Nat) : t.minput c = u.minput c := by
  rw [State.minput, h.mtr, ← State.minput]
theorem Quiet.circuit {t u : State} (h : Quiet t u) (k : Nat) : t.circuit k = u.circuit k := by
  rw [State.circuit, h.mtr, ← State.circuit]
theorem Quiet.dch {t u : State} (h : Quiet t u) (d c : Nat) : t.dch d c = u.dch d c := by
  have hdmas : t.dmas = u.dmas := by simp only [h]
  simp only [State.dch, State.dma, hdmas]

section
variable {s u : State} {r : Req} {op i : Nat} {data : List Byte} {h : ReqHead} {landlord : Bool}

/-- A command whose request may start and passes its checks gives the request what its own part answers, a result or none yet,
and leaves everything else as its own part does. -/
theorem State.done_serve_quiet {bad : Option Nat} {f : Tenant → Nat → State → Answer} {res : Option Result}
    (ho : s.offers r op (· == data) h i) (hb : bad = none) (hl : landlord = true → s.reqTenant r.sender.val = 0)
    (hf : f (s.reqTenant r.sender.val) h.rlen (s.begun r h i) = (res, u)) (hu : SameHost u (s.begun r h i)) :
    ∃ t, done s (s.serve r op landlord (· == data) bad f) = .next t ∧ t.resultOf r i = res ∧ Quiet t u := by
  refine ⟨_, done_next _ _, ?_⟩
  rw [s.serve_offers r op h i landlord _ _ f ho hb hl, hf, settle_resultOf, settle_quiet']
  cases res with
  | none =>
    have hsender : u.sender r.sender.val = (s.begun r h i).sender r.sender.val := by simp only [State.sender, hu]
    refine ⟨?_, by simp⟩
    rw [State.resultOf, hsender, s.begun_get r op _ h i ho]
    rfl
  | some res => exact ⟨s.resultOf_answer u r op _ h i res ho hu, by simp⟩

/-- The same for a command of a configured circuit that the session sees. -/
theorem State.done_serveCircuit_quiet {k : Byte} {c : CircuitCfg} {f : State → Answer} {res : Option Result}
    (ho : s.offers r op (· == [k]) h i) (hk : k.toNat < 48) (hl : landlord = true → s.reqTenant r.sender.val = 0)
    (hc : s.circuitCfg? k.toNat = some c) (hr : reaches (s.reqTenant r.sender.val) c.tenant = true)
    (hf : f (s.begun r h i) = (res, u)) (hu : SameHost u (s.begun r h i)) :
    ∃ t, done s (s.serveCircuit r op landlord k f) = .next t ∧ t.resultOf r i = res ∧ Quiet t u := by
  refine State.done_serve_quiet ho (by simp [rangeBad, hk]) hl ?_ hu
  rw [begun_circuitCfgOf_get, hc]
  exact (if_pos hr).trans hf

/-- A command that only reads leaves the metering engine as it was. -/
theorem reads_of_quiet {o : Host.Outcome State Fault Refusal} {res : Option Result}
    (hx : ∃ t, o = .next t ∧ t.resultOf r i = res ∧ Quiet t (s.begun r h i)) :
    ∃ t, o = .next t ∧ t.resultOf r i = res ∧ t.mtr = s.mtr := by
  obtain ⟨t, ht, hres, hq⟩ := hx
  exact ⟨t, ht, hres, hq.mtr⟩
end

section
variable {s : State} {r : Req} {h : ReqHead} {i : Nat}

/-! ### Circuits, voltage sets, harmonics and the configuration (10 R218, R219, R222; 14 R320) -/

theorem exec_mtrCircuit_reads {k : Byte} {c : CircuitCfg} (ho : s.offers r 0x0901 (· == [k]) h i) (hk : k.toNat < 48)
    (hc : s.circuitCfg? k.toNat = some c) (hr : reaches (s.reqTenant r.sender.val) c.tenant = true) :
    ∃ t, exec (.mtrCircuit r k) s = .next t ∧ t.resultOf r i = some
      { resp := wordBytes ((List.range 10).map fun j => w32 (s.circuitWord k.toNat (8 + 4 * j)))
          ++ (List.range 6).flatMap fun e => leBytes (sget 0 (s.circuit k.toNat).shown e).toNat 8 } ∧ t.mtr = s.mtr :=
  reads_of_quiet (State.done_serveCircuit_quiet ho hk (by simp) hc hr rfl rfl)

theorem exec_mtrVset_reads {set : Byte} (ho : s.offers r 0x0902 (· == [set]) h i) (ht : s.reqTenant r.sender.val = 0)
    (hs : set.toNat < 2) :
    ∃ t, exec (.mtrVset r set) s = .next t ∧ t.resultOf r i = some
      { resp := wordBytes ((List.range 10).map fun j => w32 (s.vsetWord set.toNat (4 * j))) } ∧ t.mtr = s.mtr :=
  reads_of_quiet (State.done_serve_quiet ho (by simp [rangeBad, hs]) (fun _ => ht) rfl rfl)

theorem exec_mtrHarm_reads {input orders : Byte} (ho : s.offers r 0x0903 (· == [input, orders]) h i)
    (hin : input.toNat < 54) (hlo : 1 ≤ orders.toNat) (hhi : orders.toNat ≤ 63)
    (hseen : s.inputSeen (s.reqTenant r.sender.val) input.toNat = true) :
    ∃ t, exec (.mtrHarm r input orders) s = .next t ∧ t.resultOf r i = some
      { resp := (List.range orders.toNat).flatMap fun j => leBytes ((s.minput input.toNat).harm.mag.getD j 0) 4
          ++ leBytes (BitVec.ofInt 16 ((s.minput input.toNat).harm.phase.getD j 0)).toNat 2 } ∧ t.mtr = s.mtr :=
  reads_of_quiet (State.done_serve_quiet ho (by simp [rangeBad, hin, hlo, hhi]) (by simp) (if_pos hseen) rfl)

theorem exec_mtrConfigRead_reads (ho : s.offers r 0x090C (· == []) h i) (ht : s.reqTenant r.sender.val = 0) :
    ∃ t, exec (.mtrConfigRead r) s = .next t ∧ t.resultOf r i = some
      { resp := wordBytes (((List.range 54).flatMap fun c => [w32 (s.minputWord c 0), w32 (s.minputWord c 4)])
          ++ (List.range 48).flatMap fun c => [w32 (s.circuitWord c 0), w32 (s.circuitWord c 4)]) } ∧ t.mtr = s.mtr :=
  reads_of_quiet (State.done_serve_quiet ho rfl (fun _ => ht) rfl rfl)

/-! ### Totals (10 R222) -/

theorem exec_mtrTotals_reads {k : Byte} {c : CircuitCfg} (ho : s.offers r 0x0904 (· == [k]) h i) (hk : k.toNat < 48)
    (hc : s.circuitCfg? k.toNat = some c) (hr : reaches (s.reqTenant r.sender.val) c.tenant = true) :
    ∃ t, exec (.mtrTotals r k) s = .next t ∧ t.resultOf r i = some
      { r0 := lo32 s.mtr.sec.toNat
        resp := ((List.range 6).flatMap fun e => leBytes (sget 0 (s.circuit k.toNat).shown e).toNat 8)
          ++ (List.range 6).flatMap fun e => leBytes (sget 0 (s.circuit k.toNat).shownRes e).toNat 4 } ∧ t.mtr = s.mtr :=
  reads_of_quiet (State.done_serveCircuit_quiet ho hk (by simp) hc hr rfl rfl)

theorem State.modCircuit_circuit (s : State) (k : Nat) (f : Circuit → Circuit) :
    (s.modCircuit k f).circuit k = f (s.circuit k) := by
  simp [State.circuit, State.modCircuit]

theorem exec_mtrTotalsClear_marks {k : Byte} {c : CircuitCfg} (ho : s.offers r 0x0905 (· == [k]) h i)
    (ht : s.reqTenant r.sender.val = 0) (hk : k.toNat < 48) (hc : s.circuitCfg? k.toNat = some c) :
    ∃ t, exec (.mtrTotalsClear r k) s = .next t ∧ t.resultOf r i = some {} ∧ (t.circuit k.toNat).clear = true ∧
      (t.circuit k.toNat).e = (s.circuit k.toNat).e := by
  obtain ⟨t, hnext, hres, hq⟩ : ∃ t, exec (.mtrTotalsClear r k) s = .next t ∧ t.resultOf r i = some {} ∧
      Quiet t ((s.begun r h i).modCircuit k.toNat fun c => { c with clear := true }) :=
    State.done_serveCircuit_quiet ho hk (fun _ => ht) hc (by simp [reaches, ht]) rfl rfl
  refine ⟨t, hnext, hres, ?_⟩
  rw [hq.circuit, State.modCircuit_circuit]
  exact ⟨rfl, rfl⟩

/-! ### Calibration (10 R225, R226) -/

theorem exec_mtrCalRead_reads {input : Byte} {b : List Byte} (ho : s.offers r 0x0906 (· == [input]) h i)
    (ht : s.reqTenant r.sender.val = 0) (hin : input.toNat < 54) (hb : calBytes (s.minput input.toNat).stored = b) :
    ∃ t, exec (.mtrCalRead r input) s = .next t ∧ t.resultOf r i = some
      { resp := b ++ leBytes (s.minput input.toNat).crc.toNat 4 } ∧ t.mtr = s.mtr := by
  subst hb
  exact reads_of_quiet (State.done_serve_quiet ho (by simp [rangeBad, hin]) (fun _ => ht) rfl rfl)

theorem exec_mtrCalMeasure_begins {input : Byte} (ho : s.offers r 0x0907 (· == [input]) h i)
    (ht : s.reqTenant r.sender.val = 0) (hin : input.toNat < 54) (hidle : s.mtr.stActive = false) :
    ∃ t, exec (.mtrCalMeasure r input) s = .next t ∧ t.resultOf r i = none ∧ t.mtr.measures = s.mtr.measures ++
      [{ input := input.toNat, req := r, cal := (s.minput input.toNat).cal }] := by
  have hfree : ¬ ((s.begun r h i).mtr.stActive && (s.begun r h i).mtr.stInput.toNat == input.toNat) = true := by
    simp [hidle]
  obtain ⟨t, hnext, hres, hq⟩ : ∃ t, exec (.mtrCalMeasure r input) s = .next t ∧ t.resultOf r i = none ∧
      Quiet t ((s.begun r h i).modMtr fun m => { m with
        measures := m.measures ++ [{ input := input.toNat, req := r, cal := (s.minput input.toNat).cal }] }) :=
    State.done_serve_quiet ho (by simp [rangeBad, hin]) (fun _ => ht) (if_neg hfree) rfl
  exact ⟨t, hnext, hres, congrArg Metering.measures hq.mtr⟩

/-- What MTR_CAL_WRITE does with a set that it accepts. -/
def State.calWrite (s : State) (c : Nat) (set : CalSet) : State :=
  let x := { s.minput c with crc := crc32 (calBytes set) }
  if s.mtr.running then s.setMinput c { x with nextCal := some set }
  else (s.setMinput c { x with
    gain := set.1, phase := set.2.1, offset := set.2.2.1, itrim := set.2.2.2, calBad := false, nextCal := none }).event
      0 0 9 0 2 [w32 c]

section
variable (c : Nat) (set : CalSet)

theorem State.setMinput_minput (x : MInputSt) : (s.setMinput c x).minput c = x := by
  simp [State.minput, State.setMinput]

theorem State.calWrite_hp : SameHost (s.calWrite c set) s := by
  unfold State.calWrite
  dsimp only
  split
  · rfl
  · rw [SameHost, State.event_hp]
    rfl

/-- While metering runs, the set waits for the next second boundary. -/
theorem State.calWrite_minput_of_running (hrun : s.mtr.running = true) : (s.calWrite c set).minput c =
    { s.minput c with crc := crc32 (calBytes set), nextCal := some set } := by
  simp only [State.calWrite, if_pos hrun]
  exact State.setMinput_minput c _

/-- While metering is stopped, the set takes effect at once. -/
theorem State.calWrite_minput_of_stopped (hrun : s.mtr.running = false) : (s.calWrite c set).minput c =
    { s.minput c with
      crc := crc32 (calBytes set), gain := set.1, phase := set.2.1, offset := set.2.2.1, itrim := set.2.2.2
      calBad := false, nextCal := none } := by
  simp only [State.calWrite, hrun, Bool.false_eq_true, if_false]
  rw [(State.event_quiet _ _ _ _ _ _ _).minput]
  exact State.setMinput_minput c _
end

section
variable {input : Byte} {gain phase offset itrim : Word}
  (ho : s.offers r 0x0908 (· == pack [(input.toNat, 1), (gain.toNat, 4), (phase.toNat, 4), (offset.toNat, 4),
    (itrim.toNat, 4)]) h i)
  (ht : s.reqTenant r.sender.val = 0) (hin : input.toNat < 54) (hp : phase.toNat < 2 ^ 24) (hoff : offset.toNat < 2 ^ 24)
  (hi : itrim.toNat < 2 ^ 24) (hglo : 0x200000 ≤ gain.toNat) (hghi : gain.toNat ≤ 0x800000)
  (hplo : -1048576 ≤ (phase.setWidth 24).toInt) (hphi : (phase.setWidth 24).toInt ≤ 1048576)
include ho ht hin hp hoff hi hglo hghi hplo hphi

/-- A calibration set within its ranges is written to its input. -/
theorem exec_mtrCalWrite_writes : ∃ t, exec (.mtrCalWrite r input gain phase offset itrim) s = .next t ∧
    t.resultOf r i = some {} ∧ Quiet t ((s.begun r h i).calWrite input.toNat
      (gain.setWidth 24, phase.setWidth 24, offset.setWidth 24, itrim.setWidth 24)) := by
  have hg : gain.toNat < 2 ^ 24 := by omega
  exact State.done_serve_quiet ho (by simp only [rangeBad, hin, hg, hp, hoff, hi, hglo, hghi, hplo, hphi, decide_true,
    Bool.and_self, if_true]) (fun _ => ht) (apply_ite (ansOk {}) _ _ _).symm (State.calWrite_hp _ _)

theorem exec_mtrCalWrite_waits (hrun : s.mtr.running = true) :
    ∃ t, exec (.mtrCalWrite r input gain phase offset itrim) s = .next t ∧ t.resultOf r i = some {} ∧
      t.minput input.toNat = { s.minput input.toNat with
        crc := crc32 (calBytes (gain.setWidth 24, phase.setWidth 24, offset.setWidth 24, itrim.setWidth 24))
        nextCal := some (gain.setWidth 24, phase.setWidth 24, offset.setWidth 24, itrim.setWidth 24) } := by
  obtain ⟨t, hnext, hres, hq⟩ := exec_mtrCalWrite_writes ho ht hin hp hoff hi hglo hghi hplo hphi
  exact ⟨t, hnext, hres, (hq.minput _).trans (State.calWrite_minput_of_running _ _ hrun)⟩

theorem exec_mtrCalWrite_applies (hrun : s.mtr.running = false) :
    ∃ t, exec (.mtrCalWrite r input gain phase offset itrim) s = .next t ∧ t.resultOf r i = some {} ∧
      t.minput input.toNat = { s.minput input.toNat with
        crc := crc32 (calBytes (gain.setWidth 24, phase.setWidth 24, offset.setWidth 24, itrim.setWidth 24))
        gain := gain.setWidth 24, phase := phase.setWidth 24, offset := offset.setWidth 24, itrim := itrim.setWidth 24
        calBad := false, nextCal := none } := by
  obtain ⟨t, hnext, hres, hq⟩ := exec_mtrCalWrite_writes ho ht hin hp hoff hi hglo hghi hplo hphi
  exact ⟨t, hnext, hres, (hq.minput _).trans (State.calWrite_minput_of_stopped _ _ hrun)⟩
end

/-! ### The self-test (10 R227) -/

theorem State.testEnds_stInt (u : State) : u.testEnds.mtr.stInt = u.mtr.stInt := by
  unfold State.testEnds
  (repeat' split) <;> rfl

/-- The interval is set, and a pass begins or ends. -/
theorem exec_mtrSelftest_open {action : Byte} {interval : BitVec 16} {u v : State}
    (ho : s.offers r 0x0909 (· == pack [(action.toNat, 1), (interval.toNat, 2)]) h i) (ht : s.reqTenant r.sender.val = 0)
    (ha : action.toNat ≤ 1) (hint : interval.toNat ≤ 1440)
    (hu : ((s.begun r h i).modMtr fun m => { m with stInt := interval.toNat }) = u)
    (hv : (if action = 0 then u.stStart else u.stStop) = v) (hhost : SameHost v u) :
    ∃ t, exec (.mtrSelftest r action interval) s = .next t ∧ t.resultOf r i = some {} ∧ Quiet t v := by
  subst hu hv
  exact State.done_serve_quiet ho (by simp [rangeBad, ha, hint]) (fun _ => ht) rfl hhost

theorem exec_mtrSelftest_starts {action : Byte} {interval : BitVec 16}
    (ho : s.offers r 0x0909 (· == pack [(action.toNat, 1), (interval.toNat, 2)]) h i) (ht : s.reqTenant r.sender.val = 0)
    (ha : action = 0) (hint : interval.toNat ≤ 1440) :
    ∃ t, exec (.mtrSelftest r action interval) s = .next t ∧ t.resultOf r i = some {} ∧ t.mtr.stInt = interval.toNat ∧
      t.mtr.stActive = true := by
  subst ha
  let u := (s.begun r h i).modMtr fun m => { m with stInt := interval.toNat }
  obtain ⟨t, hnext, hres, hq⟩ := exec_mtrSelftest_open ho ht (by decide) hint (u := u) rfl (if_pos rfl) u.stStart_hp
  refine ⟨t, hnext, hres, ?_⟩
  rw [hq.mtr]
  exact ⟨u.testEnds_stInt, rfl⟩

theorem exec_mtrSelftest_stops {action : Byte} {interval : BitVec 16}
    (ho : s.offers r 0x0909 (· == pack [(action.toNat, 1), (interval.toNat, 2)]) h i) (ht : s.reqTenant r.sender.val = 0)
    (ha : action = 1) (hint : interval.toNat ≤ 1440) :
    ∃ t, exec (.mtrSelftest r action interval) s = .next t ∧ t.resultOf r i = some {} ∧ t.mtr.stInt = interval.toNat ∧
      t.mtr.stActive = false := by
  subst ha
  let u := (s.begun r h i).modMtr fun m => { m with stInt := interval.toNat }
  obtain ⟨t, hnext, hres, hq⟩ := exec_mtrSelftest_open ho ht (by decide) hint (u := u) rfl (if_neg (by decide)) u.stStop_hp
  refine ⟨t, hnext, hres, ?_⟩
  rw [hq.mtr]
  exact ⟨u.testEnds_stInt, rfl⟩

/-! ### Wave streams (10 R228) -/

/-- A transfer that an engine feeds stands on its channel at level 2 in its context. -/
theorem State.dmaFeed_dch (u : State) (d c ctx : Nat) (de : Descriptor) :
    ((u.dmaFeed d c ctx de).dch d c).prio = 2 ∧ ((u.dmaFeed d c ctx de).dch d c).ctx = BitVec.ofNat 16 ctx := by
  simp [State.dmaFeed, State.modDch, State.setDch, State.dch]

/-- A session that sees every input of a stream has none to be refused for. -/
theorem find?_unseen_of_all {l : List Nat} {seen : Nat → Bool} (hl : l.all seen = true) :
    l.zipIdx.find? (fun e => !seen e.1) = none := by
  rw [List.find?_eq_none]
  intro e he
  simp [List.all_eq_true.1 hl e.1 (List.fst_mem_of_mem_zipIdx he)]

theorem exec_mtrWaveStart_starts {mask : BitVec 64} {frames : Word} {va : BitVec 64} {l : List Nat}
    (ho : s.offers r 0x090A (· == pack [(mask.toNat, 8), (frames.toNat, 4), (va.toNat, 8)]) h i) (hm : mask ≠ 0)
    (hml : mask.toNat < 2 ^ 54) (hf : frames ≠ 0) (hva : va.toNat < 2 ^ 36) (hwave : s.mtr.wave = none)
    (hidle : (s.dch 0 11).state = .idle) (hl : (List.range 54).filter (fun c => mask.getLsbD c) = l)
    (hseen : l.all (s.inputSeen (s.reqTenant r.sender.val)) = true) :
    ∃ t, exec (.mtrWaveStart r mask frames va) s = .next t ∧ t.resultOf r i = some {} ∧ t.mtr.wave = some
      { inputs := l, frames := frames.toNat, va := va.toNat, tenant := s.reqTenant r.sender.val } ∧
      (t.dch 0 11).prio = 2 ∧ (t.dch 0 11).ctx = BitVec.ofNat 16 (s.ctxOf (s.reqTenant r.sender.val) 10) := by
  subst hl
  let w : WaveRun := {
    inputs := (List.range 54).filter (fun c => mask.getLsbD c), frames := frames.toNat, va := va.toNat
    tenant := s.reqTenant r.sender.val }
  have hfree : ¬ ((s.begun r h i).mtr.wave.isSome || !(((s.begun r h i).dch 0 11).state == .idle ||
      ((s.begun r h i).dch 0 11).state == .done)) = true := by
    simp [hwave, hidle]
  obtain ⟨t, hnext, hres, hq⟩ : ∃ t, exec (.mtrWaveStart r mask frames va) s = .next t ∧ t.resultOf r i = some {} ∧
      Quiet t ((s.begun r h i).waveStart w) := by
    refine State.done_serve_quiet ho (by simpa [rangeBad, and_assoc] using And.intro hm ⟨hml, hf, hva⟩) (by simp) ?_
      (State.waveStart_hp _ _)
    dsimp only
    rw [find?_unseen_of_all (seen := (s.begun r h i).inputSeen _) hseen]
    exact if_neg hfree
  refine ⟨t, hnext, hres, ?_⟩
  rw [hq.mtr, hq.dch]
  exact ⟨rfl, State.dmaFeed_dch _ 0 11 _ _⟩

theorem exec_mtrWaveStop_ends {w : WaveRun} (ho : s.offers r 0x090B (· == []) h i) (hwave : s.mtr.wave = some w)
    (hr : reaches (s.reqTenant r.sender.val) w.tenant = true) :
    ∃ t, exec (.mtrWaveStop r) s = .next t ∧ t.resultOf r i = some { r0 := w32 (s.waveWritten w) } ∧
      t.mtr.wave = none ∧ t.mtr.waveLast = some w := by
  obtain ⟨t, hnext, hres, hq⟩ : ∃ t, exec (.mtrWaveStop r) s = .next t ∧
      t.resultOf r i = some { r0 := w32 (s.waveWritten w) } ∧ Quiet t ((s.begun r h i).waveEnd w false) := by
    refine State.done_serve_quiet ho rfl (by simp) ?_ (State.waveEnd_hp _ _ _)
    rw [begun_mtr, hwave]
    exact if_pos hr
  refine ⟨t, hnext, hres, ?_⟩
  rw [hq.mtr]
  exact ⟨rfl, rfl⟩
end

/-- Settles O59: one lemma for each command, in the state where it applies. -/
theorem meteringRequestsTakeEffect : Obligations.MeteringRequestsTakeEffect :=
  ⟨fun _ _ _ _ _ _ => exec_mtrCircuit_reads, fun _ _ _ _ _ => exec_mtrVset_reads, fun _ _ _ _ _ _ => exec_mtrHarm_reads,
    fun _ _ _ _ _ _ => exec_mtrTotals_reads, fun _ _ _ _ _ _ => exec_mtrTotalsClear_marks,
    fun _ _ _ _ _ _ => exec_mtrCalRead_reads, fun _ _ _ _ _ => exec_mtrCalMeasure_begins,
    fun _ _ _ _ _ _ _ _ _ => exec_mtrCalWrite_waits, fun _ _ _ _ _ _ _ _ _ => exec_mtrCalWrite_applies,
    fun _ _ _ _ _ _ => exec_mtrSelftest_starts, fun _ _ _ _ _ _ => exec_mtrSelftest_stops,
    fun _ _ _ _ _ _ _ _ => exec_mtrWaveStart_starts, fun _ _ _ _ _ => exec_mtrWaveStop_ends,
    fun _ _ _ _ => exec_mtrConfigRead_reads⟩

end Sys2Proof.Machine

/-! What DRAM holds after a command: every step keeps its canonical form (O3), and only the engines write it (O15). -/
namespace Sys2Proof.Machine

/-! ### Every command answers a next state -/

/-- Every command answers a next state: on every path its meaning ends in `done` (14 R312, R314). -/
theorem exec_safe (c : Instr) (s : State) : Safe (exec c s) := by
  cases c
  case gclEntryBoundary | branchTxEnd | collisionDetect | backoffExpiry | scheduledOverAmplitude | branchTxUnderrun |
      branchRxBadFrame | branchRxReport | branchRxEvent | branchRxResponse | branchRxClaim | branchRxRollcall | slotEnd |
      nodeLostTimeout | assignRetryTimeout | nodeCommandTimeout | claimBroadcastTimer | dormancyEntry | dormantBeacon |
      wakeTrainStart | wakePulse | dormancyEnd | nodeClaimBroadcastRx =>
    exact (branchCmd_answer _ s rfl).imp fun _ h => h.1
  case loopSample | loopOutputApply =>
    exact (loopCmd_answer _ s rfl).imp fun _ h => h.1
  case dmaElement | invalidationComplete | pageOwnerAssign =>
    exact (memoryCmd_answer _ s rfl).imp fun _ h => h.1
  case fioLinkLoss | watchdogRefresh | fioWatchdogExpiry | inputRawChange | inputFilterSample | inputPointRefresh |
      pulseEdge | blankingEnd | overcurrentDetect | thermalTrip | retryTimerExpiry | groupOverloadDetect |
      selftestPassStart | selftestSlot | motionTargetChange | moveTimeout | pulseLossTimeout | deadTimeExpiry | coastEnd |
      junctionCooled =>
    exact (fieldCmd_answer _ s rfl).imp fun _ h => h.1
  case meteringSecondEnd | halfCycleEnd | harmonicWindowEnd | mtrSelftestTimer | meterSelftestConnect |
      meterSelftestDisconnect =>
    exact (meterCmd_answer _ s rfl).imp fun _ h => h.1
  case nvmeCompletion | nvmeCommandTimeout | nvmeReissue | driveReady | trendFlushTimer | resyncSegmentCopy =>
    exact (driveCmd_answer _ s rfl).imp fun _ h => h.1
  case branchCycleStart | branchRxSecure | superframeStart | fawSighting | fawPosition | trunkRxHeader | timeMasterTimeout
      | trunkRxFrame | trunkRxBadFrame | trunkRxTopology | trunkRxUtcMapping | trunkRxMailboxRequest | trunkRxReplicaBlock
      | unwrap | trunkTxUnderrun | trainingFrameRx | laneTrainingTimeout =>
    dsimp only [exec, execBranchCycleStart, execBranchRxSecure, execSuperframeStart, execFawSighting, execFawPosition,
      execTrunkRxHeader, execTimeMasterTimeout, execTrunkRxFrame, execTrunkRxBadFrame, execTrunkRxTopology,
      execTrunkRxUtcMapping, execTrunkRxMailboxRequest, execTrunkRxReplicaBlock, execUnwrap, execTrunkTxUnderrun,
      execTrainingFrameRx, execLaneTrainingTimeout]
    (repeat' split) <;> exact ⟨_, rfl⟩
  case staleCheck | trendPeriodic | eventCommit | evrOverflowClear | recorderPowerfailWindowEnd | rtcSecond |
      rtcFreezeTimeout | rtcCommitDone | rtcAtrimMeasure | rtcSyncCheck | ringTimeLoss | vbatLowDetect =>
    dsimp only [exec, execStaleCheck, execTrendPeriodic, execEventCommit, execEvrOverflowClear,
      execRecorderPowerfailWindowEnd, execRtcSecond, execRtcFreezeTimeout, execRtcCommitDone, execRtcAtrimMeasure,
      execRtcSyncCheck, execRingTimeLoss, execVbatLowDetect]
    (repeat' split) <;> exact ⟨_, rfl⟩
  case scanStart | scanCommit | retainWriteComplete | scanLimitExpiry | hwBreakpoint | illegalInstruction =>
    dsimp only [exec, execScanStart, execScanCommit, execRetainWriteComplete, execScanLimitExpiry, execHwBreakpoint,
      execIllegalInstruction]
    (repeat' split) <;> exact ⟨_, rfl⟩
  case barkBreak | barkPoll | barkRearm | read | offline | timeMessageSend | passbackForgiveness | credentialLockoutEnd |
      unlockTimeExpiry | floorValidityExpiry | offlineDecision =>
    dsimp only [exec, execBarkBreak, execBarkPoll, execBarkRearm, execRead, execOffline, execTimeMessageSend,
      execPassbackForgiveness, execCredentialLockoutEnd, execUnlockTimeExpiry, execFloorValidityExpiry,
      execOfflineDecision]
    (repeat' split) <;> exact ⟨_, rfl⟩
  case vinGood | powerFailDetect | vinCollapse | resetN | managementWatchdogExpiry | thermalShutdown | rootRomBoot |
      dieRelease | dieReadyTimeout | configurationLoad | branchPowerWave | portCyclingStart | logicStartModeApply |
      startComplete | startIncompleteTimeout | svcOpen | usbDisconnect | backupPowerLoss =>
    dsimp only [exec, execVinGood, execPowerFailDetect, execVinCollapse, execResetN, execManagementWatchdogExpiry,
      execThermalShutdown, execRootRomBoot, execDieRelease, execDieReadyTimeout, execConfigurationLoad,
      execBranchPowerWave, execPortCyclingStart, execLogicStartModeApply, execStartComplete, execStartIncompleteTimeout,
      execSvcOpen, execUsbDisconnect, execBackupPowerLoss]
    (repeat' split) <;> exact ⟨_, rfl⟩
  case tick | dmaStart | dmaResume | dmaSkip | dmaAbort | heartbeatTimer | requestFetch | requestComplete |
      watermarkCompare | brSchedLoad | brNodeCmd | trkSchedLoad | secKeyRotate =>
    dsimp only [exec, execTick, execDmaStart, execDmaResume, execDmaSkip, execDmaAbort, execHeartbeatTimer,
      execRequestFetch, execRequestComplete, execWatermarkCompare, execBrSchedLoad, execBrNodeCmd, execTrkSchedLoad,
      execSecKeyRotate]
    (repeat' split) <;> exact ⟨_, rfl⟩
  all_goals exact ⟨_, rfl⟩

/-! ### The families that the statements leave out -/

/-- The commands of the lines that no family of the statements holds: a cycle, secured frames, a trunk mailbox request. -/
def lineCmd : Instr → Bool
  | .branchCycleStart .. | .branchRxSecure .. | .trunkRxMailboxRequest .. | .nodeSecureRx .. => true
  | _ => false

/-- The accesses, resets and timers of the host port, and REG_READ. -/
def hostCmd : Instr → Bool
  | .rlLowWordRead .. | .rcRead .. | .rtcMsecRead .. | .rtcYearRead .. | .regRead .. | .perstAssert ..
  | .functionLevelReset .. | .d3hotEntry .. | .d0Return .. | .heartbeatTimer .. | .requestFetch .. | .requestComplete ..
  | .watermarkCompare .. => true
  | _ => false

/-- The graft links, the supplies, the start-up rows and the service port, but for those that reset or load. -/
def startCmd : Instr → Bool
  | .graftLinkFail .. | .graftLinkRestored .. | .powerFailDetect .. | .rootRomBoot .. | .dieRelease ..
  | .dieReadyTimeout .. | .branchPowerWave .. | .portCyclingStart .. | .logicStartModeApply ..
  | .startComplete .. | .backupPowerLoss .. | .svcOpen .. | .svcMbx .. | .svcUpdateBegin .. | .svcUpdateChunk ..
  | .svcUpdateEnd .. | .svcFreeze .. | .svcThaw .. | .svcFactoryErase .. | .usbDisconnect .. => true
  | _ => false

/-- The bark, and the decisions and timers of access control. -/
def accessCmd : Instr → Bool
  | .barkPoll .. | .barkRearm .. | .read .. | .offline .. | .timeMessageSend .. | .passbackForgiveness ..
  | .credentialLockoutEnd .. | .unlockTimeExpiry .. | .floorValidityExpiry .. | .offlineDecision .. => true
  | _ => false

/-- Every command writes DRAM or belongs to a family that does not. -/
theorem dramCmd_or_family (c : Instr) : (dramCmd c || branchCmd c || trunkCmd c || clockCmd c || pointCmd c ||
    logicCmd c || loopCmd c || memoryCmd c || fieldCmd c || meterCmd c || driveCmd c || lineCmd c || hostCmd c ||
    startCmd c || accessCmd c || [1, 2, 3].contains (reqGroup c) || [4, 5].contains (reqGroup c) ||
    [6, 7].contains (reqGroup c) || [8, 9].contains (reqGroup c) || [10, 11, 12].contains (reqGroup c) ||
    [13, 14, 15].contains (reqGroup c)) = true := by
  cases c <;> rfl

/-! ### The commands that leave DRAM as it was, by family -/

theorem Kept.mem {t s : State} (h : Kept t s) : t.mem = s.mem := h.1

section
variable {c : Instr} {s z : State}

/-- A command that answers only next states with the DRAM of `s` answers no other. -/
theorem mem_of_answers {o : Host.Outcome State Fault Refusal} (h : ∃ t, o = .next t ∧ t.mem = s.mem)
    (hz : o = .next z) : z.mem = s.mem := by
  obtain ⟨t, ht, hm⟩ := h
  obtain rfl : t = z := Host.Outcome.next.inj (ht.symm.trans hz)
  exact hm
theorem State.settle_graftChange_mem {l : Nat} {b : Bool} (hz : done s (s.graftChange l b) = .next z) :
    z.mem = s.mem := by
  obtain rfl := (done_eq _ _ _).1 hz
  exact (settle_kept _ _).mem.trans (State.graftChange_eff s l b).1
theorem execBarkPoll_mem {cause : Option BarkCause} (hz : execBarkPoll cause s = .next z) : z.mem = s.mem := by
  have hzero := fun k => (State.zeroise_eff s k).1
  revert hz
  unfold execBarkPoll
  (repeat' split) <;> (simp only [done_eq]; rintro rfl; simp [hzero])
theorem execStartComplete_mem (hz : execStartComplete s = .next z) : z.mem = s.mem := by
  revert hz
  unfold execStartComplete
  dsimp only
  (repeat' split) <;> (simp only [done_eq]; rintro rfl; simp)

theorem branchCmd_mem (hc : branchCmd c = true) (hz : exec c s = .next z) : z.mem = s.mem :=
  mem_of_answers ((branchCmd_answer c s hc).imp fun t h => ⟨h.1, by simp_all only [OutBranch]⟩) hz
theorem fieldCmd_mem (hc : fieldCmd c = true) (hz : exec c s = .next z) : z.mem = s.mem :=
  mem_of_answers ((fieldCmd_answer c s hc).imp fun t h => ⟨h.1, by simp_all only [OutField]⟩) hz
theorem driveCmd_mem (hc : driveCmd c = true) (hz : exec c s = .next z) : z.mem = s.mem :=
  mem_of_answers ((driveCmd_answer c s hc).imp fun t h => ⟨h.1, by simp_all only [OutDrives]⟩) hz
theorem loopCmd_mem (hc : loopCmd c = true) (hd : dramCmd c = false) (hz : exec c s = .next z) : z.mem = s.mem := by
  cases c
  case loopOutputApply d n => exact (execLoopOutputApply_kept d n s z hz).mem
  case localLoopOutput => exact (execLocalLoopOutput_kept s z hz).mem
  case loopSample d n late => exact absurd hd.symm Bool.false_ne_true
  all_goals exact absurd hc Bool.false_ne_true
theorem memoryCmd_mem (hc : memoryCmd c = true) (hd : dramCmd c = false) (hz : exec c s = .next z) : z.mem = s.mem := by
  cases c
  case invalidationComplete d =>
    revert hz
    simp only [exec, execInvalidationComplete]
    split <;> (simp only [done_eq]; rintro rfl; simp)
  case dmaElement d bus => exact absurd hd.symm Bool.false_ne_true
  case pageOwnerAssign d page owner map => exact absurd hd.symm Bool.false_ne_true
  all_goals exact absurd hc Bool.false_ne_true

theorem trunkCmd_mem (hc : trunkCmd c = true) (hz : exec c s = .next z) : z.mem = s.mem := by
  cases c
  case superframeStart => exact (execSuperframeStart_kept s z hz).mem
  case fawSighting t l pos => exact (execFawSighting_kept t l pos s z hz).mem
  case fawPosition t l pos hdr => exact (execFawPosition_kept t l pos hdr s z hz).mem
  case trunkRxHeader t h own => exact (execTrunkRxHeader_kept t h own s z hz).mem
  case timeMasterTimeout => exact (execTimeMasterTimeout_kept s z hz).mem
  case trunkRxFrame t f crc fault full => exact (execTrunkRxFrame_kept t f crc fault full s z hz).mem
  case trunkRxBadFrame t header => exact (execTrunkRxBadFrame_kept t header s z hz).mem
  case trunkRxTopology t f b => exact (execTrunkRxTopology_kept t f b s z hz).mem
  case trunkRxUtcMapping t f u => exact (execTrunkRxUtcMapping_kept t f u s z hz).mem
  case trunkRxReplicaBlock t f seg blk data => exact (execTrunkRxReplicaBlock_kept t f seg blk data s z hz).mem
  case unwrap t => exact (execUnwrap_kept t s z hz).mem
  case trunkTxUnderrun t n why => exact (execTrunkTxUnderrun_kept t n why s z hz).mem
  case trainingFrameRx t l ctrl crcOk rxReady => exact (execTrainingFrameRx_kept t l ctrl crcOk rxReady s z hz).mem
  case laneTrainingTimeout t l => exact (execLaneTrainingTimeout_kept t l s z hz).mem
  all_goals exact absurd hc Bool.false_ne_true

theorem clockCmd_mem (hc : clockCmd c = true) (hz : exec c s = .next z) : z.mem = s.mem := by
  cases c
  case rtcSecond => exact (execRtcSecond_kept s z hz).mem
  case rtcFreezeTimeout => exact (execRtcFreezeTimeout_kept s z hz).mem
  case rtcCommitDone => exact (execRtcCommitDone_kept s z hz).mem
  case rtcTrimWindow => exact (execRtcTrimWindow_kept s z hz).mem
  case rtcAtrimMeasure => exact (execRtcAtrimMeasure_kept s z hz).mem
  case rtcSyncCheck => exact (execRtcSyncCheck_kept s z hz).mem
  case ringTimeLoss => exact (execRingTimeLoss_kept s z hz).mem
  case vbatLowDetect => exact (execVbatLowDetect_kept s z hz).mem
  case vbatRestored => exact (execVbatRestored_kept s z hz).mem
  all_goals exact absurd hc Bool.false_ne_true

theorem pointCmd_mem (hc : pointCmd c = true) (hz : exec c s = .next z) : z.mem = s.mem := by
  cases c
  case staleCheck m => exact (execStaleCheck_kept m s z hz).mem
  case trendPeriodic series => exact (execTrendPeriodic_kept series s z hz).mem
  case eventReport e => exact (execEventReport_kept e s z hz).mem
  case eventCommit => exact (execEventCommit_kept s z hz).mem
  case evrOverflowClear => exact (execEvrOverflowClear_kept s z hz).mem
  case recorderPowerfailWindowEnd => exact (execRecorderPowerfailWindowEnd_kept s z hz).mem
  case freezeTimeout => exact (execFreezeTimeout_kept s z hz).mem
  case opsecIncrement => exact (execOpsecIncrement_kept s z hz).mem
  all_goals exact absurd hc Bool.false_ne_true

theorem logicCmd_mem (hc : logicCmd c = true) (hd : dramCmd c = false) (hz : exec c s = .next z) : z.mem = s.mem := by
  cases c
  case scanStart d => exact (execScanStart_kept d s z hz).mem
  case scanCommit d us => exact (execScanCommit_kept d us s z hz).mem
  case retainWriteComplete d readBack => exact (execRetainWriteComplete_kept d readBack s z hz).mem
  case scanLimitExpiry d => exact (execScanLimitExpiry_kept d s z hz).mem
  case hwBreakpoint k => exact (execHwBreakpoint_kept k s z hz).mem
  case illegalInstruction k w => exact (execIllegalInstruction_kept k w s z hz).mem
  case add k r => exact (execAdd_kept k r s z hz).mem
  case adds k r => exact (execAdds_kept k r s z hz).mem
  case sub k r => exact (execSub_kept k r s z hz).mem
  case subs k r => exact (execSubs_kept k r s z hz).mem
  case and k r => exact (execAnd_kept k r s z hz).mem
  case or k r => exact (execOr_kept k r s z hz).mem
  case xor k r => exact (execXor_kept k r s z hz).mem
  case shl k r => exact (execShl_kept k r s z hz).mem
  case shr k r => exact (execShr_kept k r s z hz).mem
  case sha k r => exact (execSha_kept k r s z hz).mem
  case mul k r => exact (execMul_kept k r s z hz).mem
  case mulf k r => exact (execMulf_kept k r s z hz).mem
  case div k r => exact (execDiv_kept k r s z hz).mem
  case rem k r => exact (execRem_kept k r s z hz).mem
  case cmp k r => exact (execCmp_kept k r s z hz).mem
  case min k r => exact (execMin_kept k r s z hz).mem
  case max k r => exact (execMax_kept k r s z hz).mem
  case addi k im => exact (execAddi_kept k im s z hz).mem
  case addsi k im => exact (execAddsi_kept k im s z hz).mem
  case andi k im => exact (execAndi_kept k im s z hz).mem
  case ori k im => exact (execOri_kept k im s z hz).mem
  case xori k im => exact (execXori_kept k im s z hz).mem
  case shli k im => exact (execShli_kept k im s z hz).mem
  case shri k im => exact (execShri_kept k im s z hz).mem
  case shai k im => exact (execShai_kept k im s z hz).mem
  case cmpi k im => exact (execCmpi_kept k im s z hz).mem
  case ldi k im => exact (execLdi_kept k im s z hz).mem
  case ld k im => exact (execLd_kept k im s z hz).mem
  case st k im => exact (execSt_kept k im s z hz).mem
  case ldx k im => exact (execLdx_kept k im s z hz).mem
  case stx k im => exact (execStx_kept k im s z hz).mem
  case ldp k im => exact (execLdp_kept k im s z hz).mem
  case ldps k im => exact (execLdps_kept k im s z hz).mem
  case stp k im => exact (execStp_kept k im s z hz).mem
  case stpq k r => exact (execStpq_kept k r s z hz).mem
  case br k b => exact (execBr_kept k b s z hz).mem
  case call k b => exact (execCall_kept k b s z hz).mem
  case callr k r => exact (execCallr_kept k r s z hz).mem
  case ret k r => exact (execRet_kept k r s z hz).mem
  case taskend k r => exact (execTaskend_kept k r s z hz).mem
  case trap k im => exact (execTrap_kept k im s z hz).mem
  case brk k r => exact (execBrk_kept k r s z hz).mem
  case tstart k im => exact (execTstart_kept k im s z hz).mem
  case telap k im => exact (execTelap_kept k im s z hz).mem
  case tdone k r => exact (execTdone_kept k r s z hz).mem
  case mfs k r => exact (execMfs_kept k r s z hz).mem
  case mts k r => exact (execMts_kept k r s z hz).mem
  case fill k r => exact (execFill_kept k r s z hz).mem
  case abort k r => exact (execAbort_kept k r s z hz).mem
  case tret k r => exact (execTret_kept k r s z hz).mem
  case spill => exact absurd hd.symm Bool.false_ne_true
  all_goals exact absurd hc Bool.false_ne_true

theorem meterCmd_mem (hc : meterCmd c = true) (hz : exec c s = .next z) : z.mem = s.mem := by
  cases c
  case meteringSecondEnd => exact (execMeteringSecondEnd_kept s z hz).mem
  case halfCycleEnd v => exact (execHalfCycleEnd_kept v s z hz).mem
  case harmonicWindowEnd set => exact (execHarmonicWindowEnd_kept set s z hz).mem
  case mtrSelftestTimer => exact (execMtrSelftestTimer_kept s z hz).mem
  case meterSelftestConnect => exact (execMeterSelftestConnect_kept s z hz).mem
  case meterSelftestDisconnect => exact (execMeterSelftestDisconnect_kept s z hz).mem
  all_goals exact absurd hc Bool.false_ne_true

theorem lineCmd_mem (hc : lineCmd c = true) (hz : exec c s = .next z) : z.mem = s.mem := by
  cases c
  case branchCycleStart p buffered => exact (execBranchCycleStart_kept p buffered s z hz).mem
  case branchRxSecure p addr f => exact (execBranchRxSecure_kept p addr f s z hz).mem
  case trunkRxMailboxRequest t f slot b => exact (execTrunkRxMailboxRequest_kept t f slot b s z hz).mem
  case nodeSecureRx uid dst f => exact (execNodeSecureRx_kept uid dst f s z hz).mem
  all_goals exact absurd hc Bool.false_ne_true

theorem hostCmd_mem (hc : hostCmd c = true) (hz : exec c s = .next z) : z.mem = s.mem := by
  cases c
  case rlLowWordRead bar2 off wide => exact (execRlLowWordRead_kept bar2 off wide s z hz).mem
  case rcRead off => exact (execRcRead_kept off s z hz).mem
  case perstAssert => exact (execPerstAssert_kept s z hz).mem
  case functionLevelReset => exact (execFunctionLevelReset_kept s z hz).mem
  case d3hotEntry => exact (execD3hotEntry_kept s z hz).mem
  case d0Return => exact (execD0Return_kept s z hz).mem
  case heartbeatTimer => exact (execHeartbeatTimer_kept s z hz).mem
  case requestFetch k m fault => exact (execRequestFetch_kept k m fault s z hz).mem
  case requestComplete r hostOk => exact (execRequestComplete_kept r hostOk s z hz).mem
  case watermarkCompare => exact (execWatermarkCompare_kept s z hz).mem
  case regRead r die off words gen => exact (execRegRead_kept r die off words gen s z hz).mem
  case rtcMsecRead => exact (execRtcMsecRead_kept s z hz).mem
  case rtcYearRead => exact (execRtcYearRead_kept s z hz).mem
  all_goals exact absurd hc Bool.false_ne_true

theorem startCmd_mem (hc : startCmd c = true) (hz : exec c s = .next z) : z.mem = s.mem := by
  cases c
  case graftLinkFail link => exact State.settle_graftChange_mem hz
  case graftLinkRestored link => exact State.settle_graftChange_mem hz
  case powerFailDetect => exact (execPowerFailDetect_kept s z hz).mem
  case rootRomBoot => exact (execRootRomBoot_boots s z hz).1
  case dieRelease d ready => exact (execDieRelease_kept d ready s z hz).mem
  case dieReadyTimeout d => exact (execDieReadyTimeout_kept d s z hz).mem
  case branchPowerWave w => exact (execBranchPowerWave_kept w s z hz).mem
  case portCyclingStart p => exact (execPortCyclingStart_kept p s z hz).mem
  case logicStartModeApply => exact (execLogicStartModeApply_kept s z hz).mem
  case startComplete => exact execStartComplete_mem hz
  case svcOpen c => exact (execSvcOpen_kept c s z hz).mem
  case svcMbx b => exact (execSvcMbx_kept b s z hz).mem
  case svcUpdateBegin h => exact (execSvcUpdateBegin_kept h s z hz).mem
  case svcUpdateChunk idx len => exact (execSvcUpdateChunk_kept idx len s z hz).mem
  case svcUpdateEnd digestOk sigOk => exact (execSvcUpdateEnd_boots digestOk sigOk s z hz).1
  case svcFreeze => exact (execSvcFreeze_kept s z hz).mem
  case svcThaw => exact (execSvcThaw_kept s z hz).mem
  case svcFactoryErase => exact (execSvcFactoryErase_kept s z hz).mem
  case usbDisconnect => exact (execUsbDisconnect_kept s z hz).mem
  case backupPowerLoss => exact (execBackupPowerLoss_kept s z hz).mem
  all_goals exact absurd hc Bool.false_ne_true

theorem accessCmd_mem (hc : accessCmd c = true) (hz : exec c s = .next z) : z.mem = s.mem := by
  cases c
  case barkPoll cause => exact execBarkPoll_mem hz
  case barkRearm => exact (execBarkRearm_kept s z hz).mem
  case read => exact (execRead_kept s z hz).mem
  case offline => exact (execOffline_kept s z hz).mem
  case timeMessageSend => exact (execTimeMessageSend_kept s z hz).mem
  case passbackForgiveness idx => exact (execPassbackForgiveness_kept idx s z hz).mem
  case credentialLockoutEnd slot => exact (execCredentialLockoutEnd_kept slot s z hz).mem
  case unlockTimeExpiry door => exact (execUnlockTimeExpiry_kept door s z hz).mem
  case floorValidityExpiry station => exact (execFloorValidityExpiry_kept station s z hz).mem
  case offlineDecision uid reader method cid => exact (execOfflineDecision_kept uid reader method cid s z hz).mem
  all_goals exact absurd hc Bool.false_ne_true

theorem reqDevice_mem (hc : [1, 2, 3].contains (reqGroup c) = true) (hz : exec c s = .next z) : z.mem = s.mem := by
  cases c
  case devInfo r => exact (execDevInfo_kept r s z hz).mem
  case devTemps r => exact (execDevTemps_kept r s z hz).mem
  case wmkGet r slot => exact (execWmkGet_kept r slot s z hz).mem
  case wmkSet r slot en thr hyst ten => exact (execWmkSet_kept r slot en thr hyst ten s z hz).mem
  case wmkRearm r slot => exact (execWmkRearm_kept r slot s z hz).mem
  case memPoisonList r die start => exact (execMemPoisonList_kept r die start s z hz).mem
  case sessionOpen r c => exact (execSessionOpen_kept r c s z hz).mem
  case sessionClose r => exact (execSessionClose_kept r s z hz).mem
  case sessionInfo r => exact (execSessionInfo_kept r s z hz).mem
  case winTake r => exact (execWinTake_kept r s z hz).mem
  case winGive r => exact (execWinGive_kept r s z hz).mem
  case sessionList r => exact (execSessionList_kept r s z hz).mem
  case pntRead r refs => exact (execPntRead_kept r refs s z hz).mem
  case pntReadBlock r die block => exact (execPntReadBlock_kept r die block s z hz).mem
  case pntWrite r ref v => exact (execPntWrite_kept r ref v s z hz).mem
  case pntForce r ref v => exact (execPntForce_kept r ref v s z hz).mem
  case pntRelease r ref => exact (execPntRelease_kept r ref s z hz).mem
  case pntForceList r start => exact (execPntForceList_kept r start s z hz).mem
  case pntDescRead r ref => exact (execPntDescRead_kept r ref s z hz).mem
  all_goals exact absurd hc Bool.false_ne_true

theorem reqPorts_mem (hc : [4, 5].contains (reqGroup c) = true) (hz : exec c s = .next z) : z.mem = s.mem := by
  cases c
  case brEnable r port en mode => exact (execBrEnable_kept r port en mode s z hz).mem
  case brStatus r port => exact (execBrStatus_kept r port s z hz).mem
  case brSchedLoad r port cycleMs n gcl => exact (execBrSchedLoad_kept r port cycleMs n gcl s z hz).mem
  case brStats r port clear => exact (execBrStats_kept r port clear s z hz).mem
  case brTxthr r port thr => exact (execBrTxthr_kept r port thr s z hz).mem
  case brDormancy r port en start stop period rcn =>
    exact (execBrDormancy_kept r port en start stop period rcn s z hz).mem
  case brNodes r port => exact (execBrNodes_kept r port s z hz).mem
  case brNodeCmd r node op args => exact (execBrNodeCmd_kept r node op args s z hz).mem
  case brClaim r port nslot slotbt => exact (execBrClaim_kept r port nslot slotbt s z hz).mem
  case brUnbound r port => exact (execBrUnbound_kept r port s z hz).mem
  case trkStatus r port => exact (execTrkStatus_kept r port s z hz).mem
  case trkEnable r port v => exact (execTrkEnable_kept r port v s z hz).mem
  case trkSchedLoad r port n gcl => exact (execTrkSchedLoad_kept r port n gcl s z hz).mem
  case trkStats r port clear => exact (execTrkStats_kept r port clear s z hz).mem
  case trkTxthr r port thr => exact (execTrkTxthr_kept r port thr s z hz).mem
  case trkRingMap r => exact (execTrkRingMap_kept r s z hz).mem
  case trkPrio r prio => exact (execTrkPrio_kept r prio s z hz).mem
  all_goals exact absurd hc Bool.false_ne_true

theorem reqLogic_mem (hc : [6, 7].contains (reqGroup c) = true) (hz : exec c s = .next z) : z.mem = s.mem := by
  cases c
  case logicStatus r die => exact (execLogicStatus_kept r die s z hz).mem
  case logicRun r mask warm => exact (execLogicRun_kept r mask warm s z hz).mem
  case logicStop r mask => exact (execLogicStop_kept r mask s z hz).mem
  case logicHold r mask => exact (execLogicHold_kept r mask s z hz).mem
  case logicStep r die core => exact (execLogicStep_kept r die core s z hz).mem
  case logicResume r mask => exact (execLogicResume_kept r mask s z hz).mem
  case logicDownload r mask img ck => exact (execLogicDownload_kept r mask img ck s z hz).mem
  case logicTasks r die => exact (execLogicTasks_kept r die s z hz).mem
  case logicReadVar r die task addr count => exact (execLogicReadVar_kept r die task addr count s z hz).mem
  case logicWriteVar r die task addr v => exact (execLogicWriteVar_kept r die task addr v s z hz).mem
  case logicPatchConst r die task idx v => exact (execLogicPatchConst_kept r die task idx v s z hz).mem
  case logicBpSet r die core idx addr en => exact (execLogicBpSet_kept r die core idx addr en s z hz).mem
  case logicBpRead r die core => exact (execLogicBpRead_kept r die core s z hz).mem
  case logicCoreRead r die core => exact (execLogicCoreRead_kept r die core s z hz).mem
  case loopGet r die slot => exact (execLoopGet_kept r die slot s z hz).mem
  case loopSetLimits r die slot omin omax rate => exact (execLoopSetLimits_kept r die slot omin omax rate s z hz).mem
  case loopSetSp r die slot v => exact (execLoopSetSp_kept r die slot v s z hz).mem
  case loopWriteBank r die slot words => exact (execLoopWriteBank_kept r die slot words s z hz).mem
  case loopSwap r die slot reset => exact (execLoopSwap_kept r die slot reset s z hz).mem
  case loopTestStart r die slot ctrl amp len hold p0 rho steps records =>
    exact (execLoopTestStart_kept r die slot ctrl amp len hold p0 rho steps records s z hz).mem
  case loopTestStop r die unit => exact (execLoopTestStop_kept r die unit s z hz).mem
  case loopTestRead r die unit first => exact (execLoopTestRead_kept r die unit first s z hz).mem
  case loopBudget r die => exact (execLoopBudget_kept r die s z hz).mem
  all_goals exact absurd hc Bool.false_ne_true

theorem reqField_mem (hc : [8, 9].contains (reqGroup c) = true) (hd : dramCmd c = false) (hz : exec c s = .next z) :
    z.mem = s.mem := by
  cases c
  case fioStatus r => exact (execFioStatus_kept r s z hz).mem
  case fioGroups r => exact (execFioGroups_kept r s z hz).mem
  case fioClear r ch => exact (execFioClear_kept r ch s z hz).mem
  case fioSelftest r action interval => exact (execFioSelftest_kept r action interval s z hz).mem
  case fioWatchdog r tmo logic => exact (execFioWatchdog_kept r tmo logic s z hz).mem
  case motCmd r m cmd target => exact (execMotCmd_kept r m cmd target s z hz).mem
  case motStatus r m => exact (execMotStatus_kept r m s z hz).mem
  case mtrCircuit r k => exact (execMtrCircuit_kept r k s z hz).mem
  case mtrVset r set => exact (execMtrVset_kept r set s z hz).mem
  case mtrHarm r input orders => exact (execMtrHarm_kept r input orders s z hz).mem
  case mtrTotals r k => exact (execMtrTotals_kept r k s z hz).mem
  case mtrTotalsClear r k => exact (execMtrTotalsClear_kept r k s z hz).mem
  case mtrCalRead r input => exact (execMtrCalRead_kept r input s z hz).mem
  case mtrCalMeasure r input => exact (execMtrCalMeasure_kept r input s z hz).mem
  case mtrCalWrite r input gain phase offset itrim =>
    exact (execMtrCalWrite_kept r input gain phase offset itrim s z hz).mem
  case mtrSelftest r action interval => exact (execMtrSelftest_kept r action interval s z hz).mem
  case mtrWaveStart r mask frames va => exact (execMtrWaveStart_kept r mask frames va s z hz).mem
  case mtrConfigRead r => exact (execMtrConfigRead_kept r s z hz).mem
  case mtrWaveStop => exact absurd hd.symm Bool.false_ne_true
  all_goals exact absurd hc Bool.false_ne_true

theorem reqStore_mem (hc : [10, 11, 12].contains (reqGroup c) = true) (hz : exec c s = .next z) : z.mem = s.mem := by
  cases c
  case hstRead r series first last => exact (execHstRead_kept r series first last s z hz).mem
  case hstReadTime r series first last => exact (execHstReadTime_kept r series first last s z hz).mem
  case hstQuota r ten => exact (execHstQuota_kept r ten s z hz).mem
  case hstStatus r => exact (execHstStatus_kept r s z hz).mem
  case hstResync r => exact (execHstResync_kept r s z hz).mem
  case hstReplicaRead r src seg blk count => exact (execHstReplicaRead_kept r src seg blk count s z hz).mem
  case evtRead r first count => exact (execEvtRead_kept r first count s z hz).mem
  case evtHeartRead r first count => exact (execEvtHeartRead_kept r first count s z hz).mem
  case evtPlant r => exact (execEvtPlant_kept r s z hz).mem
  case accCredAdd r c => exact (execAccCredAdd_kept r c s z hz).mem
  case accCredDel r idx => exact (execAccCredDel_kept r idx s z hz).mem
  case accCredRead r idx => exact (execAccCredRead_kept r idx s z hz).mem
  case accDoorCmd r door action seconds => exact (execAccDoorCmd_kept r door action seconds s z hz).mem
  case accDoorStatus r door => exact (execAccDoorStatus_kept r door s z hz).mem
  case accPassbackReset r area idx => exact (execAccPassbackReset_kept r area idx s z hz).mem
  all_goals exact absurd hc Bool.false_ne_true

theorem reqConfig_mem (hc : [13, 14, 15].contains (reqGroup c) = true) (hz : exec c s = .next z) : z.mem = s.mem := by
  cases c
  case timeGet r => exact (execTimeGet_kept r s z hz).mem
  case timeSet r utcMs offset => exact (execTimeSet_kept r utcMs offset s z hz).mem
  case rtcTrim r add n => exact (execRtcTrim_kept r add n s z hz).mem
  case rtcUserRead r first count => exact (execRtcUserRead_kept r first count s z hz).mem
  case rtcUserWrite r first count bytes => exact (execRtcUserWrite_kept r first count bytes s z hz).mem
  case rtcSysRead r => exact (execRtcSysRead_kept r s z hz).mem
  case cfgStatus r => exact (execCfgStatus_kept r s z hz).mem
  case cfgWrite r img ck => exact (execCfgWrite_kept r img ck s z hz).mem
  case cfgActivate r => exact (execCfgActivate_kept r s z hz).mem
  case secStatus r => exact (execSecStatus_kept r s z hz).mem
  case secCredSet r slot ten ckind verifier => exact (execSecCredSet_kept r slot ten ckind verifier s z hz).mem
  case secKeyRotate r ten kind => exact (execSecKeyRotate_kept r ten kind s z hz).mem
  case secEscrowExport r ten key => exact (execSecEscrowExport_kept r ten key s z hz).mem
  all_goals exact absurd hc Bool.false_ne_true

/-- A command that is none of the writers of DRAM leaves it as it was. -/
theorem exec_mem (hd : dramCmd c = false) (hz : exec c s = .next z) : z.mem = s.mem := by
  have h := dramCmd_or_family c
  simp only [hd, Bool.false_or, Bool.or_eq_true, or_assoc] at h
  obtain hc | hc | hc | hc | hc | hc | hc | hc | hc | hc | hc | hc | hc | hc | hc | hc | hc | hc | hc | hc := h
  · exact branchCmd_mem hc hz
  · exact trunkCmd_mem hc hz
  · exact clockCmd_mem hc hz
  · exact pointCmd_mem hc hz
  · exact logicCmd_mem hc hd hz
  · exact loopCmd_mem hc hd hz
  · exact memoryCmd_mem hc hd hz
  · exact fieldCmd_mem hc hz
  · exact meterCmd_mem hc hz
  · exact driveCmd_mem hc hz
  · exact lineCmd_mem hc hz
  · exact hostCmd_mem hc hz
  · exact startCmd_mem hc hz
  · exact accessCmd_mem hc hz
  · exact reqDevice_mem hc hz
  · exact reqPorts_mem hc hz
  · exact reqLogic_mem hc hz
  · exact reqField_mem hc hd hz
  · exact reqStore_mem hc hz
  · exact reqConfig_mem hc hz

/-! ### The writers of DRAM keep its form -/

theorem dramCmd_wf (hc : dramCmd c = true) (hw : MemWf s) (hz : exec c s = .next z) : MemWf z := by
  cases c
  case tick inp => exact execTick_wf inp s z hw hz
  case w1cWrite bar2 off v => exact execW1cWrite_wf bar2 off v s z hw hz
  case counterClearWrite off v => exact execCounterClearWrite_wf off v s z hw hz
  case registerWrite bar2 off size v => exact execRegisterWrite_wf bar2 off size v s z hw hz
  case pntForceCtrlForce d => exact execPntForceCtrlForce_wf d s z hw hz
  case pntForceCtrlRelease d => exact execPntForceCtrlRelease_wf d s z hw hz
  case brpCtrlWrite p v => exact execBrpCtrlWrite_wf p v s z hw hz
  case brpGclSwap p => exact execBrpGclSwap_wf p s z hw hz
  case trkCtrlWrite t v => exact execTrkCtrlWrite_wf t v s z hw hz
  case trkGclSwap t => exact execTrkGclSwap_wf t s z hw hz
  case lscCtrlRunCold d => exact execLscCtrlRunCold_wf d s z hw hz
  case lscCtrlRunWarm d => exact execLscCtrlRunWarm_wf d s z hw hz
  case lscCtrlStop d => exact execLscCtrlStop_wf d s z hw hz
  case lscCtrlHold d => exact execLscCtrlHold_wf d s z hw hz
  case lscCtrlStep d c => exact execLscCtrlStep_wf d c s z hw hz
  case lscCtrlResume d => exact execLscCtrlResume_wf d s z hw hz
  case spill k r => exact execSpill_wf k r s z hw hz
  case loopSample d n late => exact execLoopSample_wf d n late s z hw hz
  case lpeSSwap d n reset => exact execLpeSSwap_wf d n reset s z hw hz
  case lpeSClrSat d n => exact execLpeSClrSat_wf d n s z hw hz
  case lpeTuStart d u v => exact execLpeTuStart_wf d u v s z hw hz
  case lpeTuStop d u => exact execLpeTuStop_wf d u s z hw hz
  case fioRelease => exact execFioRelease_wf s z hw hz
  case fioStStart => exact execFioStStart_wf s z hw hz
  case fioStStop => exact execFioStStop_wf s z hw hz
  case fioClr v => exact execFioClr_wf v s z hw hz
  case fioMFar m => exact execFioMFar_wf m s z hw hz
  case fioMHomeDirection m => exact execFioMHomeDirection_wf m s z hw hz
  case fioMGoto m => exact execFioMGoto_wf m s z hw hz
  case fioMStop m => exact execFioMStop_wf m s z hw hz
  case fioMHome m => exact execFioMHome_wf m s z hw hz
  case fioMClearFault m => exact execFioMClearFault_wf m s z hw hz
  case fioMResetCoast m => exact execFioMResetCoast_wf m s z hw hz
  case mtrStStart => exact execMtrStStart_wf s z hw hz
  case mtrStStop => exact execMtrStStop_wf s z hw hz
  case dmaStart d c exyan => exact execDmaStart_wf d c exyan s z hw hz
  case dmaResume d c exyan => exact execDmaResume_wf d c exyan s z hw hz
  case dmaSkip d c exyan => exact execDmaSkip_wf d c exyan s z hw hz
  case dmaAbort d c exyan => exact execDmaAbort_wf d c exyan s z hw hz
  case dmaElement d bus => exact execDmaElement_wf d bus s z hw hz
  case atuInvContext d => exact execAtuInvContext_wf d s z hw hz
  case atuInvPage d => exact execAtuInvPage_wf d s z hw hz
  case atuInvAll d => exact execAtuInvAll_wf d s z hw hz
  case atuFqPop d => exact execAtuFqPop_wf d s z hw hz
  case pageOwnerAssign d page owner map => exact execPageOwnerAssign_wf d page owner map s z hw hz
  case mbxSlotEnable k irq => exact execMbxSlotEnable_wf k irq s z hw hz
  case mbxSlotDisable k irq => exact execMbxSlotDisable_wf k irq s z hw hz
  case mbxIrqEnable k => exact execMbxIrqEnable_wf k s z hw hz
  case mbxRqTail k v => exact execMbxRqTail_wf k v s z hw hz
  case mbxCqHead k v => exact execMbxCqHead_wf k v s z hw hz
  case wmkStatWrite n v => exact execWmkStatWrite_wf n v s z hw hz
  case wmkEnable n => exact execWmkEnable_wf n s z hw hz
  case snapTake => exact execSnapTake_wf s z hw hz
  case memPoisonClear r pa => exact execMemPoisonClear_wf r pa s z hw hz
  case regWrite r die off v => exact execRegWrite_wf r die off v s z hw hz
  case mtrWaveStop r => exact execMtrWaveStop_wf r s z hw hz
  case barkBreak cause => exact (execBarkBreak_inv cause s z hz).1 hw
  case rtcCommit => exact execRtcCommit_wf s z hw hz
  case rtcTrimWrite v => exact execRtcTrimWrite_wf v s z hw hz
  case vinGood => exact execVinGood_wf s z hw hz
  case vinCollapse => exact execVinCollapse_wf s z hw hz
  case resetN => exact execResetN_wf s z hw hz
  case managementWatchdogExpiry => exact execManagementWatchdogExpiry_wf s z hw hz
  case thermalShutdown d => exact execThermalShutdown_wf d s z hw hz
  case configurationLoad => exact execConfigurationLoad_wf s z hw hz
  case startIncompleteTimeout => exact execStartIncompleteTimeout_wf s z hw hz
  case svcActivate => exact execSvcActivate_wf s z hw hz
  case svcSeedling => exact execSvcSeedling_wf s z hw hz
  case svcRestart => exact execSvcRestart_wf s z hw hz
  case svcProvision pr => exact (execSvcProvision_inv pr s z hz).1 hw
  all_goals exact absurd hc Bool.false_ne_true

/-! ### The obligations -/

theorem exec_wf (hw : MemWf s) (hz : exec c s = .next z) : MemWf z := by
  cases hd : dramCmd c with
  | true => exact dramCmd_wf hd hw hz
  | false => rwa [MemWf, exec_mem hd hz]
end

/-- Settles O3: a step executes one command, which leaves DRAM as it was or, as one of its writers, keeps its form. -/
theorem memoryKeepsItsForm : Obligations.MemoryKeepsItsForm := by
  intro s t hw hstep
  rw [step] at hstep
  cases hp : s.pending with
  | nil =>
    rw [hp] at hstep
    exact Host.Outcome.next.inj hstep ▸ hw
  | cons c rest =>
    rw [hp] at hstep
    exact exec_wf (s := { s with pending := rest }) hw hstep

/-- Settles O15: the command answers a next state, and DRAM in it is the DRAM before. -/
theorem onlyEnginesWriteDram : Obligations.OnlyEnginesWriteDram := by
  intro c s hd
  obtain ⟨t, ht⟩ := exec_safe c s
  exact ⟨t, ht, fun a => by rw [exec_mem hd ht]⟩

end Sys2Proof.Machine

/-! The control registers of the DMA engine, the translation unit and the clock (O39). -/
namespace Sys2Proof.Machine

/-! ### What a channel holds after it is set -/

@[simp] theorem settle_dch (s t : State) (d c : Nat) : (settle s t).dch d c = t.dch d c := by
  simp only [State.dch, settle_dma_get]
@[simp] theorem State.dch_setDch (s : State) (d c : Nat) (x : DmaCh) : (s.setDch d c x).dch d c = x := by
  simp only [State.dch, State.setDch, State.dma_setDma, sget_sput_same]
@[simp] theorem State.dch_modDch (s : State) (d c : Nat) (f : DmaCh → DmaCh) : (s.modDch d c f).dch d c = f (s.dch d c) :=
  s.dch_setDch d c _

/-! ### Bytes of DRAM -/

theorem memGets_succ (m : List Host.Cell) (a n : Nat) : memGets m a (n + 1) = memGet m a :: memGets m (a + 1) n := by
  simp only [memGets, List.range_succ_eq_map, List.map_cons, List.map_map, Nat.add_zero]
  exact congrArg _ (List.map_congr_left fun i _ => congrArg (memGet m) (by simp only [Nat.succ_eq_add_one]; omega))
theorem take_drop_memGets (m : List Host.Cell) (a k j n : Nat) (h : k + j ≤ n) :
    ((memGets m a n).drop k).take j = memGets m (a + k) j := by
  refine List.ext_getElem (by simp [memGets]; omega) fun i _ _ => ?_
  simp [memGets, Nat.add_assoc]

/-! ### Reads that the cached translation lets through (11 R233, R234, R238) -/

/-- All of a page lies in usable DRAM where its first byte does. -/
theorem State.paOk_page (s : State) {page k : Nat} (h : s.paOk (4096 * page) = true) (hk : k < 4096) :
    s.paOk (4096 * page + k) = true := by
  have hdie : (4096 * page + k) / 2 ^ 36 = 4096 * page / 2 ^ 36 := by omega
  rw [State.paOk, paDie, Bool.and_eq_true] at h ⊢
  obtain ⟨hd, hu⟩ := h
  exact ⟨hdie.symm ▸ hd, decide_eq_true (by have := of_decide_eq_true hu; omega)⟩

/-- A read under a landlord's context passes with the translation that the cache holds. -/
theorem State.translate_read_hit (s : State) (d ctx inst va page : Nat) (e : Pte) (hva : va < 2 ^ 36)
    (htlb : sfind (s.atu d).tlb (ctx * 2 ^ 24 + va / 4096) = some (page, e)) (ht : s.ctxTenant ctx = 0)
    (hpa : s.paOk (4096 * page) = true) :
    s.translate d ctx inst va false = (.ok (4096 * page + va % 4096), s) := by
  have hpage : va / 4096 % 2 ^ 24 = va / 4096 := Nat.mod_eq_of_lt (by omega)
  simp only [State.translate, State.lookup, hpage, htlb]
  simp [ht, hpa]

theorem State.readPhys_one (s : State) (pa : Nat) (hpa : s.paOk pa = true) (htag : (s.tag (pa / 64)).ok = true) :
    s.readPhys pa 1 = (.ok [memGet s.mem pa], s) := by
  simp [State.readPhys, hpa, htag]

/-- A read whose every byte translates and verifies gives the bytes of DRAM. -/
theorem State.readVa_of_bytes (s : State) (d ctx inst va pa n : Nat)
    (h : ∀ i < n, s.translate d ctx inst ((va + i) % 2 ^ 36) false = (.ok (pa + i), s) ∧
      s.readPhys (pa + i) 1 = (.ok [memGet s.mem (pa + i)], s)) :
    s.readVa d ctx inst va n = (.ok (memGets s.mem pa n), s) := by
  induction n generalizing va pa with
  | zero => rfl
  | succ n ih =>
    obtain ⟨htrans, hread⟩ := h 0 n.succ_pos
    have hrest := ih (va + 1) (pa + 1) fun i hi => by
      simpa only [Nat.add_assoc, Nat.add_comm 1] using h (i + 1) (Nat.succ_lt_succ hi)
    simp only [Nat.add_zero] at htrans hread
    simp only [State.readVa, htrans, hread, hrest, memGets_succ, List.singleton_append]

/-- A read within one line whose translation is cached and whose tag verifies. -/
theorem State.readVa_line (s : State) (d ctx inst va n page : Nat) (e : Pte) (hva : va < 2 ^ 36)
    (hline : va % 64 + n ≤ 64) (htlb : sfind (s.atu d).tlb (ctx * 2 ^ 24 + va / 4096) = some (page, e))
    (ht : s.ctxTenant ctx = 0) (hpa : s.paOk (4096 * page) = true) (htag : (s.tag ((4096 * page + va % 4096) / 64)).ok = true) :
    s.readVa d ctx inst va n = (.ok (memGets s.mem (4096 * page + va % 4096) n), s) := by
  refine s.readVa_of_bytes d ctx inst va _ n fun i hi => ?_
  have hmod : (va + i) % 2 ^ 36 = va + i := Nat.mod_eq_of_lt (by omega)
  have hpage : (va + i) / 4096 = va / 4096 := by omega
  have hplace : (va + i) % 4096 = va % 4096 + i := by omega
  have hsame : (4096 * page + va % 4096 + i) / 64 = (4096 * page + va % 4096) / 64 := by omega
  constructor
  · rw [hmod, s.translate_read_hit d ctx inst (va + i) page e (by omega) (hpage.symm ▸ htlb) ht hpa, hplace,
      Nat.add_assoc]
  · refine s.readPhys_one _ ?_ (hsame.symm ▸ htag)
    rw [Nat.add_assoc]
    exact s.paOk_page hpa (by omega)

/-! ### The start of a chain (11 R243, R245) -/

/-- At device-virtual address `va` of a landlord's context stands descriptor `de`: the translation is cached, the line
verifies, and the four words name nothing reserved and may run (11 R245, Table 11.8). -/
def State.holdsDesc (s : State) (d ctx va : Nat) (de : Descriptor) : Prop :=
  ∃ (page : Nat) (e : Pte) (a w0 w1 w2 w3 : Nat), va % 32 = 0 ∧
    sfind (s.atu d).tlb (ctx * 2 ^ 24 + va / 4096) = some (page, e) ∧ s.ctxTenant ctx = 0 ∧ s.paOk (4096 * page) = true ∧
    a = 4096 * page + va % 4096 ∧ (s.tag (a / 64)).ok = true ∧ w0 = ofLe (memGets s.mem a 8) ∧
    w1 = ofLe (memGets s.mem (a + 8) 8) ∧ w2 = ofLe (memGets s.mem (a + 16) 8) ∧ w3 = ofLe (memGets s.mem (a + 24) 8) ∧
    descReserved w0 w1 w2 w3 = false ∧ descOk (descOf w0 w1 w2 w3) = true ∧ de = descOf w0 w1 w2 w3

/-- What a channel is once its chain runs on descriptor `de`: it has the context, level and retries of `x`. -/
abbrev RunsOn (t s : State) (d c : Nat) (x : DmaCh) (de : Descriptor) : Prop :=
  (t.dch d c).state = .running ∧ (t.dch d c).cur = some de ∧ (t.dch d c).el = 0 ∧ (t.dch d c).off = 0 ∧
    (t.dch d c).reason = 0 ∧ (t.dch d c).ctx = x.ctx ∧ (t.dch d c).prio = x.prio ∧ (t.dch d c).retry = x.retry ∧
    t.mem = s.mem

section
variable {d c : Nat} {de : Descriptor} {s : State}

/-- A descriptor that is read, names nothing reserved and may run becomes the channel's current one. -/
theorem State.fetchDesc_runs {x : DmaCh} (hx : s.dch d c = x) (h : s.holdsDesc d x.ctx.toNat x.desc.toNat de) :
    RunsOn (s.fetchDesc d c) s d c x de := by
  obtain ⟨page, e, a, w0, w1, w2, w3, hal, htlb, ht, hpa, ha, htag, h0, h1, h2, h3, hres, hok, rfl⟩ := h
  have hread := s.readVa_line d x.ctx.toNat c x.desc.toNat 32 page e x.desc.isLt (by omega) htlb ht hpa (ha ▸ htag)
  have hfetch : s.fetchDesc d c = s.modDch d c fun y => { y with
      cur := some (descOf w0 w1 w2 w3), el := 0, off := 0, tmp := [], retrying := false, state := .running
      reason := 0 } := by
    simp only [State.fetchDesc, hx, hread, ← ha, take_drop_memGets, Nat.reduceMul, Nat.reduceAdd, Nat.reduceLeDiff,
      Nat.mul_zero, Nat.mul_one, Nat.add_zero, ← h0, ← h1, ← h2, ← h3, hres, hok, Bool.not_true, Bool.or_self,
      Bool.false_eq_true, if_false]
  rw [hfetch, RunsOn, State.dch_modDch, hx]
  exact ⟨rfl, rfl, rfl, rfl, rfl, rfl, rfl, rfl, rfl⟩

theorem State.dmaStart_runs {x : DmaCh} (hx : s.dch d c = x) (hidle : x.state = .idle)
    (h : s.holdsDesc d x.ctx.toNat x.desc.toNat de) : RunsOn (s.dmaStart d c) s d c x de := by
  let y : DmaCh := { x.emptyWb with state := .running, reason := 0, used := 0, abort := false, retrying := false }
  have hstart : s.dmaStart d c = (s.setDch d c y).fetchDesc d c := by simp [State.dmaStart, hx, hidle, y]
  rw [hstart]
  exact State.fetchDesc_runs (x := y) (s := s.setDch d c y) (s.dch_setDch d c y) h

/-- Exyan sets up a channel of its own and starts it: the chain runs in the set-up's context, at its level. -/
theorem State.dmaExyan_runs {u : DmaSetup} (hidle : (s.dch d c).state = .idle)
    (h : s.holdsDesc d u.ctx.toNat u.desc.toNat de) :
    RunsOn (s.dmaExyan d c u) s d c { s.dch d c with prio := u.prio, retry := u.retry, ctx := u.ctx } de := by
  have hal : u.desc.toNat / 32 * 32 = u.desc.toNat := by
    obtain ⟨_, _, _, _, _, _, _, hal, -⟩ := h
    omega
  let y : DmaCh := { s.dch d c with prio := u.prio, retry := u.retry, ctx := u.ctx, desc := u.desc, inp := [] }
  have hset : s.dmaExyan d c u = (s.setDch d c y).dmaStart d c := by
    simp [State.dmaExyan, hidle, hal, y]
  rw [hset]
  exact State.dmaStart_runs (x := y) (s := s.setDch d c y) (s.dch_setDch d c y) hidle h
end

/-! ### Resumption, skipping and abortion (11 R248) -/

section
variable {d c : Nat} {x : DmaCh} {s : State} (hx : s.dch d c = x)
include hx

theorem State.dmaStopped_of_parked (h : x.state = .parked) : s.dmaStopped d c = true := by
  simp [State.dmaStopped, hx, h]
theorem State.dmaStopped_of_halted (h : x.state = .halted) : s.dmaStopped d c = true := by
  simp [State.dmaStopped, hx, h]

/-- A parked channel with a current element and an empty write buffer goes on with that element. -/
theorem State.dmaResume_parked {de : Descriptor} (h : x.state = .parked) (hcur : x.cur = some de)
    (hwb : x.wbLine = none) :
    (s.dmaResume d c).dch d c = { x with state := .running, reason := 0, used := 0 } := by
  simp [State.dmaResume, State.dmaStopped_of_parked hx h, State.rewrite, hx, hcur, hwb]

/-- A halted channel leaves its element out and goes on with the next one of its descriptor. -/
theorem State.dmaSkip_halted {de : Descriptor} (h : x.state = .halted) (hcur : x.cur = some de) (hm : de.mode = 1)
    (hmore : x.el + 1 < de.total) :
    ((s.dmaSkip d c).dch d c).state = .running ∧ ((s.dmaSkip d c).dch d c).reason = 0 ∧
      ((s.dmaSkip d c).dch d c).el = x.el + 1 ∧ ((s.dmaSkip d c).dch d c).cur = some de ∧
      (s.dmaSkip d c).mem = s.mem := by
  have hgo (z : DmaCh) (hz : z.el = x.el + 1) : z.finished de = false := by
    simp [DmaCh.finished, hm, hz, hmore]
  simp [State.dmaSkip, State.dmaStopped_of_halted hx h, hx, hcur, hm, State.advance, hgo, DmaCh.emptyWb]

theorem State.dmaAbort_halted (h : x.state = .halted) :
    (s.dmaAbort d c).dch d c = { x.emptyWb with state := .done, reason := 6, cur := none, abort := false } := by
  simp [State.dmaAbort, State.dmaStopped_of_halted hx h, hx]
/-- A chain that moves ends later, at an element boundary. -/
theorem State.dmaAbort_running (h : x.state = .running) : (s.dmaAbort d c).dch d c = { x with abort := true } := by
  simp [State.dmaAbort, State.dmaStopped, hx, h]
end

/-! ### Who commands a channel (11 R243, R254) -/

section
variable (d : Die) (c : DmaNo) (s : State)

section
variable (hrdy : s.host.mbxRdy = true) (hw : s.winTenant = some 0) (hd : d.val < s.nDies) (h8 : 8 ≤ c.val)
  (h10 : c.val ≤ 10)
include hrdy hw hd h8 h10

/-- In the landlord's window a write of DMA_C_CTRL reaches a channel of host software. -/
theorem State.regW_dmaCtrl (v : Word) : s.regW d.val 4 (0x1000 + 64 * c.val + 4) v = s.dmaCtrl d.val c.val v := by
  have hplace : (0x1000 + 64 * c.val + 4 - 0x1000) / 64 = c.val ∧ (0x1000 + 64 * c.val + 4) % 64 = 4 := by omega
  have hhost : dmaHost d.val c.val = true := by simp [dmaHost, h8, h10]
  rw [s.regW_dma d.val _ v hrdy hw hd (by omega) (by omega), State.dmaRegW, if_neg (by omega), if_neg (by omega),
    if_pos (inRange (by omega)), hplace.1, hplace.2]
  simp [State.dmaChWrite, hhost]

theorem execDmaStart_open : execDmaStart d c none s = done s (s.dmaStart d.val c.val) := by
  rw [execDmaStart, State.regW_dmaCtrl d c s hrdy hw hd h8 h10]
  rfl
theorem execDmaResume_open : execDmaResume d c false s = done s (s.dmaResume d.val c.val) := by
  rw [execDmaResume, State.regW_dmaCtrl d c s hrdy hw hd h8 h10]
  rfl
theorem execDmaSkip_open : execDmaSkip d c false s = done s (s.dmaSkip d.val c.val) := by
  rw [execDmaSkip, State.regW_dmaCtrl d c s hrdy hw hd h8 h10]
  rfl
theorem execDmaAbort_open : execDmaAbort d c false s = done s (s.dmaAbort d.val c.val) := by
  rw [execDmaAbort, State.regW_dmaCtrl d c s hrdy hw hd h8 h10]
  rfl
end

section
variable (hd : d.val < s.nDies) (hown : dmaHost d.val c.val = false)
include hd hown

theorem execDmaStart_own (u : DmaSetup) : execDmaStart d c (some u) s = done s (s.dmaExyan d.val c.val u) := by
  simp [execDmaStart, hd, hown]
theorem execDmaResume_own : execDmaResume d c true s = done s (s.dmaResume d.val c.val) := by
  simp [execDmaResume, hd, hown]
theorem execDmaSkip_own : execDmaSkip d c true s = done s (s.dmaSkip d.val c.val) := by
  simp [execDmaSkip, hd, hown]
theorem execDmaAbort_own : execDmaAbort d c true s = done s (s.dmaAbort d.val c.val) := by
  simp [execDmaAbort, hd, hown]
end
end

/-! ### The translation unit (11 R240, R253) -/

section
variable (d : Die) (s : State) (hrdy : s.host.mbxRdy = true) (hw : s.winTenant = some 0) (hd : d.val < s.nDies)
include hrdy hw hd

theorem State.regW_atuInv (v : Word) (cmd : Nat) (hcmd : v.toNat % 4 = cmd) :
    s.regW d.val 5 0x1C v = s.invalidate d.val cmd := by
  rw [s.regW_atu d.val 0x1C v hrdy hw hd (by decide) (by decide), ← hcmd]
  rfl

theorem exec_atuInvContext_drops : ∃ t, exec (.atuInvContext d) s = .next t ∧
    (t.atu d.val).tlb = (s.atu d.val).tlb.filter (fun e => e.1 / 2 ^ 24 != (s.atu d.val).invCtx.toNat) ∧
      (t.atu d.val).invBusy = true := by
  refine ⟨_, done_next _ _, ?_⟩
  rw [State.regW_atuInv d s hrdy hw hd 1 1 rfl, settle_atu_get, State.invalidate, if_pos (by decide), State.atu_setAtu]
  exact ⟨rfl, rfl⟩
theorem exec_atuInvPage_drops (k : Nat)
    (hk : k = (s.atu d.val).invCtx.toNat * 2 ^ 24 + (s.atu d.val).invVa.toNat / 4096) :
    ∃ t, exec (.atuInvPage d) s = .next t ∧ (t.atu d.val).tlb =
      (s.atu d.val).tlb.filter (fun e => e.1 != k && !(e.2.2.leaf && e.1 / 512 == k / 512)) ∧
        (t.atu d.val).invBusy = true := by
  subst hk
  refine ⟨_, done_next _ _, ?_⟩
  rw [State.regW_atuInv d s hrdy hw hd 2 2 rfl, settle_atu_get, State.invalidate, if_pos (by decide), State.atu_setAtu]
  exact ⟨rfl, rfl⟩
theorem exec_atuInvAll_drops :
    ∃ t, exec (.atuInvAll d) s = .next t ∧ (t.atu d.val).tlb = [] ∧ (t.atu d.val).invBusy = true := by
  refine ⟨_, done_next _ _, ?_⟩
  rw [State.regW_atuInv d s hrdy hw hd 3 3 rfl, settle_atu_get, State.invalidate, if_pos (by decide), State.atu_setAtu]
  exact ⟨rfl, rfl⟩
theorem exec_atuFqPop_drops (f : FaultEntry) (l : List FaultEntry) (hfq : (s.atu d.val).fq = f :: l) :
    ∃ t, exec (.atuFqPop d) s = .next t ∧ (t.atu d.val).fq = l := by
  have hpop : s.regW d.val 5 0x24 1 = s.setAtu d.val { s.atu d.val with fq := (s.atu d.val).fq.drop 1 } := by
    rw [s.regW_atu d.val 0x24 1 hrdy hw hd (by decide) (by decide)]
    rfl
  refine ⟨_, done_next _ _, ?_⟩
  rw [hpop, settle_atu_get, State.atu_setAtu, hfq]
  rfl
end

/-! ### The real-time clock (16 R357 to R359) -/

section
variable (s : State) (hrdy : s.host.mbxRdy = true) (hw : s.winTenant = some 0)
include hrdy hw

/-- In the landlord's window a word read of the clock returns the register and has its effect. -/
theorem State.busRead_rtc (o : Nat) (ho : o < 0x100000) (h8 : o % 4 = 0) :
    s.busRead true (blkOff 0 11 + o) 4 =
      (s.rtcRegFx o).modHost fun h => { h with busData := BitVec.ofNat 64 (s.rtcReg o % 2 ^ 32) } := by
  have hwin : s.host.win.isNone = false := by
    cases h : s.host.win <;> simp_all [State.winTenant]
  have hn : 0 < s.nDies := by unfold State.nDies; split <;> decide
  have hblock : s.hasBlock 0 11 = true := by simp [State.hasBlock, hn]
  have hword : (blkOff 0 11 + o) / 4 * 4 = 0x100000 * 11 + o ∧ (blkOff 0 11 + o) % 4 = 0 := by unfold blkOff; omega
  have hplace : (0x100000 * 11 + o) / 0x2000000 = 0 ∧ (0x100000 * 11 + o) % 0x2000000 = 0x100000 * 11 + o ∧
      (0x100000 * 11 + o) / 0x100000 = 11 ∧ (0x100000 * 11 + o) % 0x100000 = o := by omega
  have hfit : ¬ 8 < (blkOff 0 11 + o) % 8 + 4 := by unfold blkOff; omega
  have hread : s.hostWord true (0x100000 * 11 + o) = (s.rtcReg o, s.rtcRegFx o) := by
    simp only [State.hostWord, hrdy, hw, State.dieRead, hplace, hblock, gated_zero, if_true, Bool.not_true, Bool.or_self,
      Bool.false_eq_true, if_false]
  simp [State.busRead, State.hostRead, hfit, hwin, hword, hread]

theorem exec_rtcMsecRead_freezes : ∃ t, exec (.rtcMsecRead) s = .next t ∧ t.time.frozen = true ∧
    t.time.frozenAt = s.rtcCal ∧ t.host.busData = BitVec.ofNat 64 s.rtcMsec := by
  have hfit : s.rtcMsec % 2 ^ 32 = s.rtcMsec := Nat.mod_eq_of_lt (by unfold State.rtcMsec; omega)
  refine ⟨_, done_next _ _, ?_⟩
  rw [settle_time, settle_host_busData, State.busRead_rtc s hrdy hw 0x20 (by decide) (by decide)]
  exact ⟨rfl, rfl, congrArg (BitVec.ofNat 64) hfit⟩
theorem exec_rtcYearRead_thaws (hyear : s.rtcView.1.year < 128) : ∃ t, exec (.rtcYearRead) s = .next t ∧
    t.time.frozen = false ∧ t.host.busData = BitVec.ofNat 64 s.rtcView.1.year := by
  have hfit : s.rtcView.1.year % 2 ^ 32 = s.rtcView.1.year := Nat.mod_eq_of_lt (by omega)
  refine ⟨_, done_next _ _, ?_⟩
  rw [settle_time, settle_host_busData, State.busRead_rtc s hrdy hw 0x3C (by decide) (by decide)]
  exact ⟨rfl, congrArg (BitVec.ofNat 64) hfit⟩
theorem exec_rtcCommit_waits (hp : s.time.pend = false) (hok : calOk s.time.stagedCal = true)
    (hring : s.ringInUse = false) : ∃ t, exec (.rtcCommit) s = .next t ∧ t.time.pend = true ∧
      t.time.pendCal = s.time.stagedCal ∧ t.time.wErr = 0 := by
  have hcommit : s.regW 0 11 0x5C 1 = s.rtcCommit := s.regW_rtc 0x5C 1 hrdy hw (by decide) (by decide)
  refine ⟨_, done_next _ _, ?_⟩
  rw [settle_time, hcommit]
  simp [State.rtcCommit, hp, hok, hring, State.modTime]
theorem exec_rtcTrimWrite_sets (v : Word) : ∃ t, exec (.rtcTrimWrite v) s = .next t ∧ t.time.trimAdd = v.getLsbD 15 ∧
    t.time.trimN = v.setWidth 10 ∧ t.time.atrim = false := by
  refine ⟨_, done_next _ _, ?_⟩
  rw [settle_time, s.regW_rtc 0xC v hrdy hw (by decide) (by decide)]
  exact ⟨rfl, rfl, rfl⟩
end

/-! ### The channels -/

section
variable {d : Die} {c : DmaNo} {x : DmaCh} {de : Descriptor} {s : State}

theorem exec_dmaStart_open (hrdy : s.host.mbxRdy = true) (hw : s.winTenant = some 0) (hd : d.val < s.nDies)
    (h8 : 8 ≤ c.val) (h10 : c.val ≤ 10) (hruns : RunsOn (s.dmaStart d.val c.val) s d.val c.val x de) :
    ∃ t, exec (.dmaStart d c none) s = .next t ∧ (t.dch d.val c.val).state = .running ∧
      (t.dch d.val c.val).cur = some de ∧ (t.dch d.val c.val).el = 0 ∧ (t.dch d.val c.val).off = 0 ∧
      (t.dch d.val c.val).reason = 0 ∧ t.mem = s.mem := by
  obtain ⟨hstate, hcur, hel, hoff, hreason, -, -, -, hmem⟩ := hruns
  refine ⟨_, (execDmaStart_open d c s hrdy hw hd h8 h10).trans (done_next _ _), ?_⟩
  rw [settle_dch, settle_mem]
  exact ⟨hstate, hcur, hel, hoff, hreason, hmem⟩
theorem exec_dmaStart_own {u : DmaSetup} (hd : d.val < s.nDies) (hown : dmaHost d.val c.val = false)
    (hruns : RunsOn (s.dmaExyan d.val c.val u) s d.val c.val
      { s.dch d.val c.val with prio := u.prio, retry := u.retry, ctx := u.ctx } de) :
    ∃ t, exec (.dmaStart d c (some u)) s = .next t ∧ (t.dch d.val c.val).state = .running ∧
      (t.dch d.val c.val).cur = some de ∧ (t.dch d.val c.val).ctx = u.ctx ∧ (t.dch d.val c.val).prio = u.prio ∧
      (t.dch d.val c.val).retry = u.retry ∧ t.mem = s.mem := by
  obtain ⟨hstate, hcur, -, -, -, hctx, hprio, hretry, hmem⟩ := hruns
  refine ⟨_, (execDmaStart_own d c s hd hown u).trans (done_next _ _), ?_⟩
  rw [settle_dch, settle_mem]
  exact ⟨hstate, hcur, hctx, hprio, hretry, hmem⟩

/-- A command that does `t` to a state leaves a channel as `t` does. -/
theorem dch_of_done {o : Host.Outcome State Fault Refusal} {t : State} {y : DmaCh} {n k : Nat} (ho : o = done s t)
    (hy : t.dch n k = y) : ∃ z, o = .next z ∧ z.dch n k = y :=
  ⟨_, ho.trans (done_next _ _), (settle_dch s t n k).trans hy⟩
/-- A channel that goes on after its element was left out, by whoever commands it. -/
theorem exec_dmaSkip_of_done {exyan : Bool} (ho : execDmaSkip d c exyan s = done s (s.dmaSkip d.val c.val))
    (hx : s.dch d.val c.val = x) (h : x.state = .halted) (hcur : x.cur = some de) (hm : de.mode = 1)
    (hmore : x.el + 1 < de.total) :
    ∃ t, exec (.dmaSkip d c exyan) s = .next t ∧ (t.dch d.val c.val).state = .running ∧ (t.dch d.val c.val).reason = 0 ∧
      (t.dch d.val c.val).el = x.el + 1 ∧ (t.dch d.val c.val).cur = some de ∧ t.mem = s.mem := by
  refine ⟨_, ho.trans (done_next _ _), ?_⟩
  rw [settle_dch, settle_mem]
  exact State.dmaSkip_halted hx h hcur hm hmore
end

/-- Settles O39: each register command by what its register does, and Exyan's by the same operation on its own channel. -/
theorem engineAndClockRegistersTakeEffect : Obligations.EngineAndClockRegistersTakeEffect := by
  unfold Obligations.EngineAndClockRegistersTakeEffect
  refine ⟨?start, ?startOwn, ?resume, ?resumeOwn, ?skip, ?skipOwn, ?abort, ?abortOwn, ?ends, ?endsOwn,
    exec_atuInvContext_drops, ?page, exec_atuInvAll_drops, ?pop, exec_rtcMsecRead_freezes, exec_rtcYearRead_thaws,
    exec_rtcCommit_waits, ?trim⟩
  case start =>
    rintro d c _ x page e a w0 w1 w2 w3 s rfl hrdy hw hd h8 h10 hx hidle hal htlb ht hpa ha htag h0 h1 h2 h3 hres hok
    exact exec_dmaStart_open hrdy hw hd h8 h10
      (State.dmaStart_runs hx hidle
        ⟨page, e, a, w0, w1, w2, w3, hal, htlb, ht, hpa, ha, htag, h0, h1, h2, h3, hres, hok, rfl⟩)
  case startOwn =>
    rintro d c _ u page e a w0 w1 w2 w3 s rfl hd hown hidle hal htlb ht hpa ha htag h0 h1 h2 h3 hres hok
    exact exec_dmaStart_own hd hown (State.dmaExyan_runs hidle
      ⟨page, e, a, w0, w1, w2, w3, hal, htlb, ht, hpa, ha, htag, h0, h1, h2, h3, hres, hok, rfl⟩)
  case resume =>
    rintro d c _ x de s rfl hrdy hw hd h8 h10 hx h hcur hwb
    exact dch_of_done (execDmaResume_open d c s hrdy hw hd h8 h10) (State.dmaResume_parked hx h hcur hwb)
  case resumeOwn =>
    rintro d c _ x de s rfl hd hown hx h hcur hwb
    exact dch_of_done (execDmaResume_own d c s hd hown) (State.dmaResume_parked hx h hcur hwb)
  case skip =>
    rintro d c _ x de s rfl hrdy hw hd h8 h10 hx h hcur hm hmore
    exact exec_dmaSkip_of_done (execDmaSkip_open d c s hrdy hw hd h8 h10) hx h hcur hm hmore
  case skipOwn =>
    rintro d c _ x de s rfl hd hown hx h hcur hm hmore
    exact exec_dmaSkip_of_done (execDmaSkip_own d c s hd hown) hx h hcur hm hmore
  case abort =>
    rintro d c _ x s rfl hrdy hw hd h8 h10 hx h
    exact dch_of_done (execDmaAbort_open d c s hrdy hw hd h8 h10) (State.dmaAbort_halted hx h)
  case abortOwn =>
    rintro d c _ x s rfl hd hown hx h
    exact dch_of_done (execDmaAbort_own d c s hd hown) (State.dmaAbort_halted hx h)
  case ends =>
    rintro d c _ x s rfl hrdy hw hd h8 h10 hx h
    exact dch_of_done (execDmaAbort_open d c s hrdy hw hd h8 h10) (State.dmaAbort_running hx h)
  case endsOwn =>
    rintro d c _ x s rfl hd hown hx h
    exact dch_of_done (execDmaAbort_own d c s hd hown) (State.dmaAbort_running hx h)
  case page => exact fun d k s hrdy hw hd hk => exec_atuInvPage_drops d s hrdy hw hd k hk
  case pop => exact fun d f l s hrdy hw hd hfq => exec_atuFqPop_drops d s hrdy hw hd f l hfq
  case trim => exact fun v s hrdy hw => exec_rtcTrimWrite_sets s hrdy hw v

end Sys2Proof.Machine


/-! An access under a context that no tenant has faults, though its page is mapped (O50). -/
namespace Sys2Proof.Machine

/-! ### A channel in a context whose index no tenant has -/

/-- 128 bytes from device-virtual address 0 to the engine port. -/
def strangerElem : Descriptor := { dstSp := 2, count := 128 }
/-- A channel that runs it in context 16, whose index the tenant table does not hold. -/
def strangerChan : DmaCh := { ctx := 16, state := .running, cur := some strangerElem }
/-- The context's page 0 is cached as physical page 0, which no one owns and whose first line verifies. -/
def strangerState : State := { State.reset with
  tags := [(0, { good := true })]
  atus := [(0, { tlb := [(16 * 2 ^ 24, (0, {}))] })]
  dmas := [(0, { chans := [(8, strangerChan)] })] }

/-- "No tenant" (4,095) stands for the context's tenant and for the page's owner alike. -/
theorem strangerState_mapped : strangerState.mapped 0 16 0 0 {} := ⟨rfl, .inr rfl, rfl⟩
/-- No access is let through for it, even to a page that no one owns: cause 4 (11 R233, R241). -/
theorem strangerState_faults : (strangerState.translate 0 16 8 0 false).1 = .error .xlate := rfl
/-- So the engine parks the channel (11 Table 11.10). -/
theorem strangerState_parks : ∃ t, exec (.dmaElement 0 none) strangerState = .next t ∧ (t.dch 0 8).state = .parked :=
  ⟨_, rfl, by rfl⟩

/-- Refutes O50: `State.mapped` admits an unowned page under a context without a tenant, where `State.translate` faults;
the clause of an element read to the engine port says that the channel runs on, and it is parked. -/
theorem not_memoryAndDmaTakeEffect : ¬ Obligations.MemoryAndDmaTakeEffect := by
  unfold Obligations.MemoryAndDmaTakeEffect
  rintro ⟨-, -, -, -, hread, -⟩
  obtain ⟨t, ht, -, -, -, hruns, -⟩ := hread 0 none 8 strangerChan strangerElem 0 64 0 {} 0 strangerState rfl rfl rfl rfl
    rfl rfl rfl rfl rfl rfl rfl rfl (by decide) (by decide) strangerState_mapped rfl rfl
  obtain ⟨u, hu, hparked⟩ := strangerState_parks
  obtain rfl := Host.Outcome.next.inj (ht.symm.trans hu)
  exact DmaState.noConfusion (hparked.symm.trans hruns)

end Sys2Proof.Machine
